-- ==== Sys2Proof/Word.lean ====
section
/-!
DEFINITION. The plain types of the model: 64-bit words, bytes, a register's field, and sparse storage. A `Sp` is a list of
(key, value) pairs in one canonical form: keys strictly rising, and no value equal to what an unlisted key reads as.
-/
namespace Sys2Proof

/-- A 64-bit register or context word. -/
abbrev W64 := BitVec 64

/-- One byte. -/
abbrev Byte := BitVec 8

/-- Sparse storage: the listed entries; every other key reads as the default of its reader. -/
abbrev Sp (α : Type) := List (Nat × α)

/-- A field of a word: its lowest bit and its width. -/
structure Fld where
  lo : Nat
  w : Nat
  deriving DecidableEq, Repr

end Sys2Proof
end

