-- ==== Sys2Proof/Syntax.lean ====
section
/-!
DEFINITION. The commands of the device: one constructor for each row of spec/opcode_table.json, with the operands that the row's
event carries. The operands stand for what the rest of the device, the board, the links and the host bring to the event.
-/
namespace Sys2Proof

/-- A packet in a furrow: acre, furrow and context slot. -/
structure PktRef where
  a : Nat
  f : Nat
  slot : Nat
  deriving DecidableEq, Repr

/-- A field extractor's group (R86). -/
structure XGroup where
  sext : Bool
  shl : Nat
  width : Nat
  offset : Nat
  inst : Nat
  src : Nat
  deriving DecidableEq, Repr

/-- An ALU's group without OP (R88). -/
structure AluGroup where
  fw : Bool
  k : Nat
  cwb : Nat
  cwa : Nat
  sb : Nat
  sa : Nat
  deriving DecidableEq, Repr

/-- The metadata write port's group without EN (R91). -/
structure MwGroup where
  src : Nat
  width : Nat
  lsb : Nat
  word : Nat
  deriving DecidableEq, Repr

/-- A lookup port's group without EN (R93). -/
structure LGroup where
  dest : Nat
  ksrc : Nat
  kmode : Bool
  ty : Nat
  deriving DecidableEq, Repr

/-- The COLLECT group without EN (R97). -/
structure ClGroup where
  dest : Nat
  n : Nat
  list : Nat
  bsrc : Nat
  ty : Nat
  deriving DecidableEq, Repr

/-- The request group without KIND (R101). -/
structure RqGroup where
  dest : Nat
  ksrc : Nat
  kmode : Bool
  ty : Nat
  deriving DecidableEq, Repr

/-- An edit-list builder's group without OP (R110). -/
structure EGroup where
  srcw : Nat
  len : Nat
  off : Nat
  inst : Nat
  deriving DecidableEq, Repr

/-- A counter operation's group without EN (R103). -/
structure CGroup where
  mode : Nat
  isrc : Nat
  ty : Nat
  deriving DecidableEq, Repr

/-- A journal entry without its number (R399): KEY is 288 bits, left-aligned, and holds the map of a HANDOVER. -/
structure JEntry where
  kind : Nat
  table : Nat
  holding : Nat
  flags : Nat
  index : Nat
  value : Nat
  key : Nat
  deriving DecidableEq, Repr

/-- A command of the device. -/
inductive Instr where
  /-- R342. A frame, FCS included, arrives on port p; uncorr says that an uncorrectable codeword touched it, bad that the PCS marked it in error. -/
  | frameReceive (p : Nat) (wire : List Byte) (uncorr bad : Bool)
  /-- R119. Harrow instance n takes its next packet (released, injected or staged), and settles it. -/
  | harrowParse (n : Nat)
  /-- R141. FRAG_WAIT has passed for entry k of the holding area of instance n. -/
  | fragWaitExpiry (n k : Nat)
  /-- R142. The sweep visits one bucket of the decision table and invalidates expired ways. -/
  | fragmentSweep (n bucket : Nat)
  /-- R144. The next packet returning from RIND_A of acre n is reparsed from DECRYPT_START before its return queue. -/
  | reparse (n : Nat)
  /-- R135. A write of HARROW_WCMD of instance n. -/
  | harrowWriteState (agent : Nat) (n : Nat) (v : W64)
  /-- R135. A write of HARROW_WCMD of instance n. -/
  | harrowWriteTrans (agent : Nat) (n : Nat) (v : W64)
  /-- R135. A write of HARROW_WCMD of instance n. -/
  | harrowWriteHoldRule (agent : Nat) (n : Nat) (v : W64)
  /-- R132. A write of HOLDING_OPEN[n]. -/
  | holdingOpenWrite (agent : Nat) (n : Nat) (v : W64)
  /-- R147. Each buffer-island cycle the policer takes one punt per acre and passes it to a ring or drops it. -/
  | puntPolicer
  /-- R148. Every 1 µs each punt and closed-punt bucket is refilled up to its burst. -/
  | bucketRefill
  /-- R47. Each cycle the furrow entry admits one packet by precedence into row 0, assigning entry fields at first entry. -/
  | furrowEntryAdmit (a f : Nat)
  /-- R38. Microword NOP advances PC.upc without executing a nanoword. -/
  | nop (l : PktRef)
  /-- R38. Microword NEXT executes its nanoword and advances PC.upc. -/
  | next (l : PktRef)
  /-- R38. Microword BRANCH executes its nanoword and jumps to TARGET or PC.ret when taken. -/
  | branch (l : PktRef)
  /-- R38. Microword WAIT proceeds when its condition holds, else the packet parks in the row. -/
  | wait (l : PktRef)
  /-- R38. Microword CALL-NEXT-ROW jumps to TARGET and saves the return address in PC.ret when taken. -/
  | callNextRow (l : PktRef)
  /-- R38. Microword EXIT ends the pass after this row when taken, acting on the disposition. -/
  | exit (l : PktRef)
  /-- R38. Microword RECIRC sets RECIRCULATE and ends the pass when taken. -/
  | recirc (l : PktRef)
  /-- R38. Microword TRAP drops the packet with reason TRAP and records FURROW_TRAP when taken. -/
  | trap (l : PktRef)
  /-- R51. The head of a domain queue wakes; cls is 0 while no empty cycle is there, else the class of the empty slot it fills: 1 FRONT, 2 BACK. -/
  | parkWake (l : PktRef) (cls : Nat)
  /-- R53. A woken packet that found no empty cycle within 16 cycles requests a forced bubble at the furrow entry. -/
  | forcedBubble (l : PktRef)
  /-- R54. A packet in the exit hold leaves once every earlier packet of its domain has left. -/
  | exitHoldRelease (l : PktRef)
  /-- R57. A packet whose PKT_DEADLINE has passed is dropped LATE. -/
  | late (l : PktRef)
  /-- R62. A packet exceeding 48 row-steps without a safe point is dropped and a FATAL fault raised. -/
  | safeBound (l : PktRef)
  /-- R66. A write of doubleword off of the MICRO window. -/
  | microWindowWrite (agent : Nat) (off : Nat) (v : W64)
  /-- R68. PROG_LOAD.START. -/
  | progStart (agent : Nat)
  /-- R65. PROG_LOAD.DISARM. -/
  | progDisarm (agent : Nat)
  /-- R68. Verification ends, arming the bank or returning it to LOADABLE with an error. -/
  | progVerifyDone
  /-- R69. A write of PROG_BANK_SEL naming the ARMED bank arms a switch at the next epoch boundary. -/
  | progBankSelWrite (agent : Nat) (bank : Nat)
  /-- R69. At the epoch boundary the ARMED bank becomes ACTIVE and the old bank DRAINING. -/
  | epochBoundary
  /-- R65. When no packet of the old epoch remains, the DRAINING bank becomes LOADABLE. -/
  | drainEnd
  /-- R71. FURROW_ROLE request ISOLATE for furrow f of acre a. -/
  | furrowIsolate (agent : Nat) (a f : Nat)
  /-- R71. An isolating furrow that has emptied takes role ISOLATED. -/
  | isolateComplete (a f : Nat)
  /-- R71. FURROW_ROLE request RETURN for furrow f of acre a. -/
  | furrowReturn (agent : Nat) (a f : Nat)
  /-- R71. After 200 µs of self-test the furrow becomes SPARE or FAILED. -/
  | selfTestDone (a f : Nat) (pass : Bool)
  /-- R71. FURROW_ROLE request TAKEOVER for furrow f of acre a. -/
  | furrowTakeover (agent : Nat) (a f : Nat)
  /-- R71. FURROW_ROLE request ACTIVATE for furrow f of acre a. -/
  | furrowActivate (agent : Nat) (a f : Nat)
  /-- R72. A FATAL fault in an ACTIVE furrow replaces it by the spare, or spreads its entries when there is none. -/
  | spareTakeover (a f : Nat)
  /-- R72. The furrow progress watchdog detects a hang and raises a FATAL fault. -/
  | furrowHang (a f : Nat)
  /-- R75. A write of FURROW_MAP[k] of acre a. -/
  | furrowMapWrite (agent : Nat) (a k : Nat) (v : W64)
  /-- R75. When a domain of f_old has drained below its drain mark, its held packets are released into f_new. -/
  | rehashDomainDrained (a dom : Nat)
  /-- R75. When REHASH_HOLD has passed, every held packet is released and the rehash ends. -/
  | rehashHoldExpiry (a : Nat)
  /-- R86. A field extractor reads a field from the header window or context. -/
  | fieldExtract (l : PktRef) (n : Nat) (g : XGroup)
  /-- R89. ALU operation MOV. -/
  | aluMov (l : PktRef) (n : Nat) (g : AluGroup) (imm : Nat)
  /-- R89. ALU operation ADD. -/
  | aluAdd (l : PktRef) (n : Nat) (g : AluGroup) (imm : Nat)
  /-- R89. ALU operation SUB. -/
  | aluSub (l : PktRef) (n : Nat) (g : AluGroup) (imm : Nat)
  /-- R89. ALU operation AND. -/
  | aluAnd (l : PktRef) (n : Nat) (g : AluGroup) (imm : Nat)
  /-- R89. ALU operation OR. -/
  | aluOr (l : PktRef) (n : Nat) (g : AluGroup) (imm : Nat)
  /-- R89. ALU operation XOR. -/
  | aluXor (l : PktRef) (n : Nat) (g : AluGroup) (imm : Nat)
  /-- R89. ALU operation ANDN. -/
  | aluAndn (l : PktRef) (n : Nat) (g : AluGroup) (imm : Nat)
  /-- R89. ALU operation NOT. -/
  | aluNot (l : PktRef) (n : Nat) (g : AluGroup) (imm : Nat)
  /-- R89. ALU operation SHL. -/
  | aluShl (l : PktRef) (n : Nat) (g : AluGroup) (imm : Nat)
  /-- R89. ALU operation SHR. -/
  | aluShr (l : PktRef) (n : Nat) (g : AluGroup) (imm : Nat)
  /-- R89. ALU operation SAR. -/
  | aluSar (l : PktRef) (n : Nat) (g : AluGroup) (imm : Nat)
  /-- R89. ALU operation ROL. -/
  | aluRol (l : PktRef) (n : Nat) (g : AluGroup) (imm : Nat)
  /-- R89. ALU operation MIN. -/
  | aluMin (l : PktRef) (n : Nat) (g : AluGroup) (imm : Nat)
  /-- R89. ALU operation MAX. -/
  | aluMax (l : PktRef) (n : Nat) (g : AluGroup) (imm : Nat)
  /-- R89. ALU operation CSUM, a ones'-complement sum. -/
  | aluCsum (l : PktRef) (n : Nat) (g : AluGroup) (imm : Nat)
  /-- R89. ALU operation CRC over eight bytes. -/
  | aluCrc (l : PktRef) (n : Nat) (g : AluGroup) (imm : Nat)
  /-- R89. ALU operation POPC. -/
  | aluPopc (l : PktRef) (n : Nat) (g : AluGroup) (imm : Nat)
  /-- R89. ALU operation CLZ. -/
  | aluClz (l : PktRef) (n : Nat) (g : AluGroup) (imm : Nat)
  /-- R89. ALU operation SCALE. -/
  | aluScale (l : PktRef) (n : Nat) (g : AluGroup) (imm : Nat)
  /-- R89. ALU operation ADDSAT. -/
  | aluAddsat (l : PktRef) (n : Nat) (g : AluGroup) (imm : Nat)
  /-- R89. ALU operation SUBSAT. -/
  | aluSubsat (l : PktRef) (n : Nat) (g : AluGroup) (imm : Nat)
  /-- R91. The MW port writes a field of a context word. -/
  | metadataWrite (l : PktRef) (g : MwGroup) (k : Nat)
  /-- R93. A lookup port issues a lookup of a type with a formed key. -/
  | lookupIssue (l : PktRef) (n : Nat) (g : LGroup)
  /-- R95. Flight k of the furrow, a lookup, lands. -/
  | lookupResult (a f k : Nat)
  /-- R97. CL issues a gather of up to 16 ARRAY elements into scratch words. -/
  | collect (l : PktRef) (g : ClGroup)
  /-- R99. Flight k of the furrow, a COLLECT, lands. -/
  | collectLanding (a f k : Nat)
  /-- R101. RQ kind DEEP requests an element of a deep-store table. -/
  | deep (l : PktRef) (g : RqGroup)
  /-- R101. RQ kind SA_STATE requests an association state word. -/
  | saState (l : PktRef) (g : RqGroup)
  /-- R101. RQ kind LEARN sends a key and action word to the learn engine. -/
  | learn (l : PktRef) (g : RqGroup)
  /-- R229. RQ kind BUF asks for cells to be charged ahead of stage 1. -/
  | buf (l : PktRef) (g : RqGroup)
  /-- R382. Flight k of the furrow, a DEEP request, is answered; late says that the deep store answered after REQ_TIMEOUT. -/
  | deepAnswer (a f k : Nat) (late : Bool)
  /-- R324. Flight k of the furrow, an SA_STATE request, is answered. -/
  | saStateAnswer (a f k : Nat)
  /-- R179. Flight k of the furrow, a settled or refused LEARN, is answered. -/
  | learnAnswer (a f k : Nat)
  /-- R229. Flight k of the furrow, a BUF request, is decided and answered. -/
  | bufAnswer (a f k : Nat)
  /-- R110. Edit operation REWRITE is appended with its data. -/
  | rewrite (l : PktRef) (g : EGroup)
  /-- R110. Edit operation PUSH is appended with its data. -/
  | push (l : PktRef) (g : EGroup)
  /-- R110. Edit operation POP is appended. -/
  | pop (l : PktRef) (g : EGroup)
  /-- R110. Edit operation STRIP is appended. -/
  | strip (l : PktRef) (g : EGroup)
  /-- R110. Edit operation FIX_IP4 is appended. -/
  | fixIp4 (l : PktRef) (g : EGroup)
  /-- R110. Edit operation FIX_UDP is appended. -/
  | fixUdp (l : PktRef) (g : EGroup)
  /-- R110. Edit operation FIX_IP6 is appended. -/
  | fixIp6 (l : PktRef) (g : EGroup)
  /-- R103. A posted counter update adds a packet and its length to a COUNT entry or is discarded. -/
  | counterUpdate (l : PktRef) (g : CGroup)
  /-- R104. ME issues a meter request with the packet's length and colour. -/
  | meter (l : PktRef) (isrc : Nat)
  /-- R301. Flight k of the furrow, a meter request, is decided and lands. -/
  | meterUpdate (a f k : Nat)
  /-- R105. FSET sets rotation flags. -/
  | flagsSet (l : PktRef) (mask : Nat)
  /-- R105. FCLR clears rotation flags. -/
  | flagsClear (l : PktRef) (mask : Nat)
  /-- R105. MIR 0b01 sets PC.flags.MIRROR. -/
  | mirrorSet (l : PktRef)
  /-- R105. MIR 0b10 clears PC.flags.MIRROR. -/
  | mirrorClr (l : PktRef)
  /-- R106. DP writes PC.disposition and its reason field. -/
  | disposition (l : PktRef) (value reason : Nat)
  /-- R21. A write of FLOW_HASH_SEED is accepted only while every holding is closed. -/
  | flowHashSeedWrite (agent : Nat) (v : W64)
  /-- R24. When a higher-ranked feature releases a shared resource, the waiting feature takes it. -/
  | resourceRelease
  /-- R187. A write of ORCHARD_CMD with this OP. -/
  | orchardRead (agent : Nat) (v : W64)
  /-- R187. A write of ORCHARD_CMD with this OP. -/
  | orchardWrite (agent : Nat) (v : W64)
  /-- R187. A write of ORCHARD_CMD with this OP. -/
  | orchardInsert (agent : Nat) (v : W64)
  /-- R187. A write of ORCHARD_CMD with this OP. -/
  | orchardDelete (agent : Nat) (v : W64)
  /-- R187. A write of ORCHARD_CMD with this OP. -/
  | orchardSearch (agent : Nat) (v : W64)
  /-- R185. A write of ORCHARD_CMD with this OP. -/
  | ageScan (agent : Nat) (v : W64)
  /-- R171. The stash retry that a DELETE of table t left due. -/
  | stashRetry (t : Nat)
  /-- R185. Every AGE_LIMIT / 4 ticks with AUTO set, an AGE_SCAN of every REFRESH table starts. -/
  | autoAgeScan
  /-- R178. Flight k of the furrow, a LEARN request, crosses. -/
  | learnEnqueue (a f k : Nat)
  /-- R181. The next learn of table t. -/
  | learnSettle (t : Nat)
  /-- R189. The Orchard gleaner reads a table row, writes back corrections or invalidates lost entries. -/
  | gleanerRowScrub (blk row : Nat)
  /-- R189. The command engine rebuilds a holding's LPM markers after a lost marker. -/
  | markerRebuild (t h : Nat)
  /-- R162. A write of PROFILE_SEL checks the staged slot and raises the table-profile quiesce. -/
  | profileSelect (agent : Nat) (slot : Nat)
  /-- R163. The quiesce of the table profile is complete. -/
  | profileApply
  /-- R203. A write of ASSOC_CMD with this OP. -/
  | assocRead (agent : Nat) (v : W64)
  /-- R203. A write of ASSOC_CMD with this OP. -/
  | assocWrite (agent : Nat) (v : W64)
  /-- R203. A write of ASSOC_CMD with this OP. -/
  | assocInvalidate (agent : Nat) (v : W64)
  /-- R205. A write of ASSOC_CMD with this OP. -/
  | assocMove (agent : Nat) (v : W64)
  /-- R203. A write of ASSOC_CMD with this OP. -/
  | assocSearch (agent : Nat) (v : W64)
  /-- R195. A write of ASSOC_CFG changes the mode only while every holding is closed. -/
  | assocCfgWrite (agent : Nat) (mode : Nat)
  /-- R196. A write of SEG_MAP[h] of acre a. -/
  | segMapWrite (agent : Nat) (a h : Nat) (v : W64)
  /-- R208, R209. The associative gleaner of acre a takes its next cycle: a line of 8 entries is compared with the shadow copy. The
  line is that at which the gleaner stands, whichever the sender names. -/
  | assocGleanerLine (a line : Nat)
  /-- R210. The repair of entry n of acre a that the gleaner has found. -/
  | assocGleanerRepair (a n : Nat)
  /-- R218. The connection from ingress acre a to intermediate acre m carries n cells, at most 16. -/
  | stage1Transfer (a m n : Nat)
  /-- R230. Bank b of slice m. -/
  | freeCacheRefill (m b : Nat)
  /-- R230. Bank b of slice m. -/
  | freeCacheWriteback (m b : Nat)
  /-- R218. The connection from intermediate acre m to egress acre e carries n cells, at most 16. -/
  | stage2Transfer (m e n : Nat)
  /-- R113. The egress editor of acre e takes the packet at the head of its input. -/
  | egressEdit (e : Nat)
  /-- R220. A write of ACRE_MAP[k] of acre a. -/
  | acreMapWrite (agent : Nat) (a k : Nat) (v : W64)
  /-- R220. When INFLIGHT of the old acre reaches 0, the held packets enter the new VOQ and the move ends. -/
  | acreMoveDrained (a : Nat)
  /-- R220. When HOLD_NS has passed, held packets are released and the move enters STALE. -/
  | acreMoveHoldExpiry (a : Nat)
  /-- R231. The replicator of slice m takes its oldest packet. -/
  | replicate (m : Nat)
  /-- R232. A write of MC_CMD with this OP. -/
  | readGroup (agent : Nat) (v : W64)
  /-- R232. A write of MC_CMD with this OP. -/
  | writeGroup (agent : Nat) (v : W64)
  /-- R232. A write of MC_CMD with this OP. -/
  | readMember (agent : Nat) (v : W64)
  /-- R232. A write of MC_CMD with this OP. -/
  | writeMember (agent : Nat) (v : W64)
  /-- R252. The spill engine moves the oldest tail packet into the open page buffer of the middle. -/
  | spillMove (q m : Nat)
  /-- R253. A full page is encrypted by RIND_X and written to the deep store. -/
  | pageWrite (q m : Nat) (waited : Bool)
  /-- R256. The refill reads pages of the middle, checks them and appends records to the head. -/
  | refill (q m : Nat)
  /-- R256. A record without cells for 10 µs is dropped and the refill goes on. -/
  | refillNoCells (q m : Nat)
  /-- R260. A slice's page-pointer cache below 32 is refilled by a batch from the free-page ring. -/
  | pageCacheRefill (m : Nat)
  /-- R260. A slice's page-pointer cache above 96 writes a batch back to the ring. -/
  | pageCacheWriteback (m : Nat)
  /-- R260. A write of SPILL_REGION rebuilds the page ring and bitmap, or is rejected. -/
  | spillRegionWrite (agent : Nat) (v : W64)
  /-- R267. The capture writer writes the oldest record of ring r. -/
  | captureWrite (r : Nat)
  /-- R269. A write of QUEUE_CMD with this OP. -/
  | queueReadCfg (agent : Nat) (v : W64)
  /-- R269. A write of QUEUE_CMD with this OP. -/
  | queueWriteCfg (agent : Nat) (v : W64)
  /-- R269. A write of QUEUE_CMD with this OP. -/
  | queueReadState (agent : Nat) (v : W64)
  /-- R269. A write of QUEUE_CMD with this OP. -/
  | queueFlush (agent : Nat) (v : W64)
  /-- R274. Drill selects for port p. -/
  | drillSelect (p : Nat)
  /-- R281. At each refill tick a node's bucket is refilled at its current rate. -/
  | shaperRefill (level n : Nat)
  /-- R280. The node sweep marks inactive nodes FRESH. -/
  | nodeSweep (level n : Nat)
  /-- R287. The gates of port p change at time t of the egress time base. -/
  | gateChange (p t : Nat)
  /-- R292. At CHANGE_TIME the pending gate copy becomes the operating copy. -/
  | gateCopyChange (p : Nat)
  /-- R295. A priority paused without break for WD_US raises a fault and may disregard pause. -/
  | pauseWatchdog (p c : Nat)
  /-- R295. Once pause has been clear for WD_US, received pause is honoured again. -/
  | pauseDisregardEnd (p c : Nat)
  /-- R302. The meter sweep updates one meter's buckets without a packet. -/
  | meterSweep (n : Nat)
  /-- R305. A write of DRILL_CMD with this OP. -/
  | drillReadNode (agent : Nat) (v : W64)
  /-- R272. A write of DRILL_CMD with this OP. -/
  | drillWriteNode (agent : Nat) (v : W64)
  /-- R305. A write of DRILL_CMD with this OP. -/
  | drillReadShaper (agent : Nat) (v : W64)
  /-- R305. A write of DRILL_CMD with this OP. -/
  | drillReadGcl (agent : Nat) (v : W64)
  /-- R293. A write of DRILL_CMD with this OP. -/
  | drillWriteGcl (agent : Nat) (v : W64)
  /-- R306. A write of DRILL_CMD with this OP. -/
  | drillReadGate (agent : Nat) (v : W64)
  /-- R292. A write of DRILL_CMD with this OP. -/
  | drillWriteGate (agent : Nat) (v : W64)
  /-- R305. A write of DRILL_CMD with this OP. -/
  | drillReadMeter (agent : Nat) (v : W64)
  /-- R303. A write of DRILL_CMD with this OP. -/
  | drillWriteMeter (agent : Nat) (v : W64)
  /-- R305. A write of DRILL_CMD with this OP. -/
  | drillReadMprof (agent : Nat) (v : W64)
  /-- R303. A write of DRILL_CMD with this OP. -/
  | drillWriteMprof (agent : Nat) (v : W64)
  /-- R277. The oldest frame that stands for port p. -/
  | frameTransmit (p : Nat)
  /-- R321. The head of the look-aside queue of strip n. -/
  | espEncrypt (n : Nat)
  /-- R325. The head of the input queue of RIND_A of acre a. -/
  | decrypt (a : Nat)
  /-- R315. RIND_LOCK.REQUEST grants the lease or queues the agent in WAITING. -/
  | rindRequest (agent : Nat)
  /-- R315. RIND_LOCK.RELEASE ends the holder's lease and grants the next waiter. -/
  | rindRelease (agent : Nat)
  /-- R315. A lease idle for 10 ms ends, posting a notice and a NOTE fault. -/
  | leaseExpired
  /-- R316. A write of RIND_CMD with this OP. -/
  | rindRead (agent : Nat) (v : W64)
  /-- R316. A write of RIND_CMD with this OP. -/
  | rindWrite (agent : Nat) (v : W64)
  /-- R316. A write of RIND_CMD with this OP. -/
  | rindUpdate (agent : Nat) (v : W64)
  /-- R316. A write of RIND_CMD with this OP. -/
  | rindInvalidate (agent : Nat) (v : W64)
  /-- R316. A write of RIND_CMD with this OP. -/
  | rindAdvancePn (agent : Nat) (v : W64)
  /-- R316. A write of RIND_CMD with this OP. -/
  | rindZeroize (agent : Nat) (v : W64)
  /-- R309. A failed entropy health test clears ENTROPY_OK and raises a DEGRADED fault. -/
  | entropyFail
  /-- R333. Pending deep-store keys are generated once the entropy source is healthy. -/
  | deepKeyGenerate
  /-- R338. A write of PORT_MODE[q] of strip n. -/
  | portModeWrite (agent : Nat) (n q : Nat) (v : W64)
  /-- R346. Clause 73 resolves to the configured mode and the port enters TRAINING. -/
  | anResolved (p : Nat)
  /-- R354. Engine e of strip n is free. -/
  | engineAssign (n e : Nat)
  /-- R346. Training or adaptation converges and the port enters UP. -/
  | trainingSuccess (p : Nat)
  /-- R346. The retrain budget is spent and the port tries fallback or is WITHDRAWN. -/
  | budgetSpent (p : Nat)
  /-- R347. remote says that the cause is a remote-fault sequence. -/
  | lockLossHoldoff (p : Nat) (remote : Bool)
  /-- R347. The window counted uncorr uncorrectable and corr corrected codewords of port p, and syms symbols corrected on each of its lanes. -/
  | errorWindowEnd (p uncorr corr : Nat) (syms : List Nat)
  /-- R349. WITHDRAW_RETRY_S after entry or a failed retry, a withdrawn port is retried. -/
  | withdrawRetry (p : Nat)
  /-- R355. Engine e of strip n. -/
  | laneAdapt (n e : Nat)
  /-- R351. A link-aggregation group's 16 member elements are rewritten through the command engine. -/
  | groupRewrite
  /-- R344. A received pause time runs out and the priority is no longer paused. -/
  | pauseExpiry (p c : Nat)
  /-- R345. A lossless state change builds a PFC frame and passes it to Drill ahead of other frames. -/
  | pfcFrameBuild (p : Nat)
  /-- R345. Every REFRESH_Q quanta a PFC frame is re-sent for all PAUSED priorities. -/
  | pfcRefresh (p : Nat)
  /-- R357. The strip sends a Pdelay_Req 10 ms after UP and every INTERVAL_MS. -/
  | pdelayRequest (p : Nat)
  /-- R357. A peer-delay request without complete response in 10 ms is timed out. -/
  | pdelayTimeout (p : Nat)
  /-- R360. STRIP_CTRL.FALLOW := 1 in strip n. -/
  | stripFallowEnter (agent : Nat) (n : Nat)
  /-- R360. STRIP_CTRL.FALLOW := 0 in strip n. -/
  | stripFallowExit (agent : Nat) (n : Nat)
  /-- R360. Strip n. -/
  | stripPllLocked (n : Nat)
  /-- R367. DEEP_CTRL.INIT starts deep-store power-up, training and zeroing. -/
  | deepInit (agent : Nat)
  /-- R367. Initialisation ends; ok says that both stacks trained, t0 and t1 are the RFM thresholds read from them. -/
  | deepInitDone (fails t0 t1 : Nat)
  /-- R372. A request arrives at a deep-store port and is arbitrated, served or answered as failure. Bits [2:0] of `port` name the port,
  and the bits above them the slice or the acre that asks on ports 0 to 3. -/
  | deepStoreRequest (port : Nat) (write : Bool) (addr len : Nat) (bs : List Byte)
  /-- R373. Pseudo-channel p of channel c of stack k takes a slot. -/
  | slotArbitration (k c p : Nat)
  /-- R384. Rank r of channel c of stack k. -/
  | ceLimit (k c r : Nat)
  /-- R370. The physical burst key. -/
  | ceWriteback (key : Nat)
  /-- R380. Waiting request n, oldest first. -/
  | reqTimeout (n : Nat)
  /-- R376. A bank receives per-bank refresh, postponed at most 4 intervals. -/
  | bankRefresh (rank p bank : Nat)
  /-- R378. The bank key. -/
  | neighbourRefresh (key : Nat)
  /-- R378. A bank reaching the stack's activation threshold receives RFM. -/
  | rfm (rank p bank : Nat)
  /-- R378. Every 32 ms every activate-count table is cleared. -/
  | actTableClear
  /-- R375. A row kept open by prediction closes after PAGE_IDLE_NS without access. -/
  | rowIdleClose (rank p bank : Nat)
  /-- R377. Stack k reports t °C; hot is its own over-temperature report. -/
  | stackTempRead (k : Nat) (t : Int) (hot : Bool)
  /-- R377. No valid temperature within 10 ms counts as a discarded reading. -/
  | tempReadMissing (k : Nat)
  /-- R379. The patrol reads one burst in its reserved or idle slot and settles it. -/
  | patrolScrub (k c p : Nat)
  /-- R385. Stack k. -/
  | migrationCopyUnit (k : Nat)
  /-- R383. DEEP_ACC_CMD READ reads 64 B of the deep store. -/
  | deepAccRead (agent : Nat) (v : W64)
  /-- R383. DEEP_ACC_CMD WRITE writes 64 B of the deep store. -/
  | deepAccWrite (agent : Nat) (v : W64)
  /-- R391. Serlet link training completes and the link is UP. -/
  | serletLinkUp
  /-- R391. Loss of lock on a Serlet lane returns the link to TRAINING. -/
  | serletLockLoss
  /-- R393. A BEAT frame with its acknowledgement. -/
  | beat (ack : Nat)
  /-- R393. After 1 µs without another frame the device sends a BEAT. -/
  | beatSend
  /-- R401. A JOURNAL frame with its entries and their sequence numbers, at most four. -/
  | journal (ack : Nat) (l : List (Nat × JEntry))
  /-- R401. A received NACK makes the sender retransmit from ACK_SEQ. -/
  | nack (ack : Nat)
  /-- R409. A HELLO frame with the fields of R409. -/
  | hello (ack format id st part crc cal map first : Nat)
  /-- R409. In LINKING with the link UP, a HELLO is sent every 10 µs. -/
  | helloSend
  /-- R412. A received AGENT_REQ performs a peer-agent register access and responds. -/
  | agentReq (ack tag op off : Nat) (v : W64)
  /-- R412. A received AGENT_RSP completes the pending peer access. -/
  | agentRsp (ack tag result : Nat) (v : W64)
  /-- R413. A received RESET_REQ is refused, or accepted with GOODBYE, HANDED and a warm reset. -/
  | resetReq (ack tag : Nat)
  /-- R413. A received RESET_RSP records the peer reset result. -/
  | resetRsp (ack tag : Nat) (refused : Bool)
  /-- R405. A received GOODBYE starts a takeover. -/
  | goodbye (ack : Nat)
  /-- R394. reset says that the request was a RESET_REQ. -/
  | agentTimeout (reset : Bool)
  /-- R395. Every 1 µs PAIR_ALIVE_OUT changes level. -/
  | aliveOutToggle
  /-- R395. A filtered level change on PAIR_ALIVE_IN is accepted as a beat or discarded as too fast. -/
  | aliveInBeat
  /-- R396. HB_MISS_US without a beat moves the pair state to SPLIT or SURVIVOR. -/
  | beatTimeout
  /-- R396. HB_MISS_US without a frame moves the pair state to SPLIT or SURVIVOR. -/
  | frameTimeout
  /-- R401. The oldest unacknowledged entry older than ACK_TIMEOUT_US triggers retransmission. -/
  | ackTimeout
  /-- R403. The next LEARN_REQ of the peer in the learn FIFO. -/
  | learnReq
  /-- R403. The next LEARN_SET of the peer in the learn FIFO. -/
  | learnSet
  /-- R403. The next REFRESH of the peer in the learn FIFO. -/
  | refresh
  /-- R401. A received packet-number checkpoint is recorded. -/
  | saCkpt (ack seq kind index pn : Nat) (final : Bool)
  /-- R411. A HANDOVER entry leaving the learn FIFO applies the new map and advances adopted associations. -/
  | handoverEntry
  /-- R410. A SYNC_BEGIN entry marks the start of the peer's sync state. -/
  | syncBegin (ack seq : Nat)
  /-- R410. A SYNC_DONE entry ends the peer's sync; with both done the state becomes PAIRED. -/
  | syncDone (ack seq : Nat)
  /-- R396. A write of PAIR_ROLE. -/
  | pairModeWrite (agent : Nat) (v : W64)
  /-- R410. PAIR_CTRL.RESYNC repeats the sync exchange. -/
  | pairResync (agent : Nat)
  /-- R407. PAIR_CTRL.CONFIRM_LOST takes over in SPLIT or lifts the frozen gate in SURVIVOR. -/
  | pairConfirmLost (agent : Nat)
  /-- R411. PAIR_CTRL.HANDOVER hands anchors to the peer with final checkpoints. -/
  | pairHandover (agent : Nat)
  /-- R413. PAIR_CTRL.PEER_RESET sends a RESET_REQ to the peer. -/
  | pairPeerReset (agent : Nat)
  /-- R412. PEER_ACC_CMD READ reads a peer RIND or PAIR register. -/
  | peerAccRead (agent : Nat) (v : W64)
  /-- R412. PEER_ACC_CMD WRITE writes a peer RIND or PAIR register. -/
  | peerAccWrite (agent : Nat) (v : W64)
  /-- R422. One cycle: each pick is a ring segment, the pending message that arrives there, and whether its check fails. -/
  | faultCollect (picks : List (Nat × Nat × Bool))
  /-- R431. The active entries whose deadlines have passed. -/
  | ladderStep (es : List Nat)
  /-- R435. A FAULT_N pulse ends and the pin follows HOLD. -/
  | faultPulseEnd
  /-- R436. FAULT_CLEAR.ONE removes or refuses one active entry. -/
  | faultClearOne (agent : Nat) (e : Nat)
  /-- R436. FAULT_CLEAR.ALL removes or refuses every active entry. -/
  | faultClearAll (agent : Nat)
  /-- R436. FAULT_CLEAR.FIRST clears the first-fault record. -/
  | faultClearFirst (agent : Nat)
  /-- R435. A write of FAULT_PIN with TEST = 1. -/
  | faultPinTest (agent : Nat) (v : W64)
  /-- R437. A write of FAULT_INJECT with ARM = 1. -/
  | injectArm (agent : Nat) (v : W64)
  /-- R437. FAULT_INJECT.DISARM cancels a pending injection. -/
  | injectDisarm (agent : Nat)
  /-- R444. The always-on supply enters its window and a POR clears the device. -/
  | por
  /-- R444. RESET_N low performs a COLD reset. -/
  | resetN
  /-- R444. WARM_N low performs a warm reset. -/
  | warmN
  /-- R444. RSTC_CTRL.WARM with KEY 0xA5 performs a warm reset. -/
  | softwareReset (agent : Nat)
  /-- R453. After 10 µs the islands are released in order and the boot copy re-verified. -/
  | warmRelease
  /-- R448. RSTC_PARTIAL.STRIP_RESET for strip n. -/
  | stripReset (agent : Nat) (n : Nat)
  /-- R448. RSTC_PARTIAL.STRIP_HOLD for strip n. -/
  | stripHold (agent : Nat) (n : Nat)
  /-- R448. RSTC_PARTIAL.STRIP_RELEASE for strip n. -/
  | stripRelease (agent : Nat) (n : Nat)
  /-- R448. RSTC_PARTIAL.ACRE_RESET for acre n. -/
  | acreReset (agent : Nat) (n : Nat)
  /-- R448. RSTC_PARTIAL.ACRE_HOLD for acre n. -/
  | acreHold (agent : Nat) (n : Nat)
  /-- R448. RSTC_PARTIAL.ACRE_RELEASE for acre n. -/
  | acreRelease (agent : Nat) (n : Nat)
  /-- R448. Acre n, or strip n. -/
  | partialResetDone (acre : Bool) (n : Nat)
  /-- R452. Core PLLs lock and the control island is released to its boot ROM. -/
  | corePllLock
  /-- R454. The service processor reads and verifies a boot slot and runs it, or fails. -/
  | boot
  /-- R452. The service processor releases the data-path islands in order. -/
  | islandRelease
  /-- R457. The start-up configuration records are applied in order until one is rejected. -/
  | startConfigApply
  /-- R458. waited says that PAIR_WAIT_MS has passed. -/
  | engineStart (waited : Bool)
  /-- R449. REFCLK_B, or REFCLK_A. -/
  | refclkLoss (b : Bool)
  /-- R524. REFCLK_B, or REFCLK_A. -/
  | refclkPresent (b : Bool)
  /-- R524. PTP_10M absent or off frequency puts device time in holdover. -/
  | ptp10mLoss
  /-- R451. AON_XTAL stops and the always-on island changes to its internal oscillator. -/
  | xtalFail
  /-- R443. A write of AON_TIME_SET steps device time while every holding is closed. -/
  | aonTimeSet (agent : Nat) (v : W64)
  /-- R462. An accepted PPS_IN edge records device time in AON_PPS_TIME. -/
  | ppsEdge
  /-- R462. No accepted PPS edge for 1.5 s raises PPS_LOST. -/
  | ppsLost
  /-- R462. A rail outside its window for 2 µs raises SUPPLY_WINDOW and holds islands in reset. -/
  | supplyWindow
  /-- R462. The reading, °C. -/
  | dieTempSample (t : Int)
  /-- R465. HOLDUP_SENSE reads mv millivolts. -/
  | holdupEvaluate (mv : Nat)
  /-- R460. AON_FALLOW.ENTER with KEY 0xA5 puts the device fallow. -/
  | fallowEnter (agent : Nat)
  /-- R461. Wake source n of R461. -/
  | fallowWake (n : Nat)
  /-- R461. Device time reaches AON_ALARM, waking or driving ALARM_OUT. -/
  | alarmReached
  /-- R463. A write of SP_WD with KICK = 1. -/
  | watchdogKick (agent : Nat) (v : W64)
  /-- R463. The watchdog expires, stops PAIR_ALIVE_OUT and warm-resets the device. -/
  | spWatchdog
  /-- R464. Every 100 µs and at each logged fault the last-breath record image is refreshed. -/
  | recordImageRefresh
  /-- R466. AON_LB_CTRL.VERIFY reads a record slot and marks it erased. -/
  | lbVerify (agent : Nat) (slot : Nat)
  /-- R467. HOLDUP_SENSE reads mv millivolts. -/
  | powerFail (mv : Nat)
  /-- R467. AON_LB_CTRL.TEST writes a test record without fallow. -/
  | lbTest (agent : Nat)
  /-- R467. pages of the 64 pages were written. -/
  | lbWriteDone (pages : Nat)
  /-- R474. A function-level reset clears the HOST block and stops host DMA. -/
  | functionLevelReset
  /-- R474. Loss of the PCIe link or PERST_N clears the HOST block and ends the host lease. -/
  | pcieLinkLoss
  /-- R476. A write of any BAR0 offset; half says that the host wrote 4 B. -/
  | registerWrite (agent off : Nat) (v : W64) (half : Bool)
  /-- R478. A read of any BAR0 offset, a peek alias included. -/
  | clearingRead (agent off : Nat)
  /-- R473. A BAR2 write enters the bulk queue to the MICRO window or the deep store. -/
  | bar2Write (off : Nat) (bs : List Byte)
  /-- R473. A read of n bytes. -/
  | bar2Read (off n : Nat)
  /-- R479. Every 1 ms voted fields are compared and disagreeing copies rewritten. -/
  | voterSweep
  /-- R482. A read of EVT_POP removes the oldest entry and latches its words for the agent. -/
  | evtPop (agent f : Nat)
  /-- R483. An unsignalled entry waiting HOLD_NS raises the FIFO's vector. -/
  | evtHoldExpiry (f : Nat)
  /-- R484. The operation of completion source src of R484. -/
  | commandCompletion (src : Nat)
  /-- R485. HOST_HOLDING_CMD.REMOVE closes a holding and raises the holding-removal quiesce. -/
  | holdingRemove (agent : Nat) (h : Nat)
  /-- R485. No packet of the holding remains in a furrow and removal completes. -/
  | holdingRemovalDone
  /-- R487. The descriptors that host software has posted from HEAD on: BUF_ADDR, BUF_LEN and DONE. -/
  | puntDelivery (r : Nat) (descs : List (Nat × Nat × Bool))
  /-- R488. A packet waiting 1 ms in its ring queue without descriptors is discarded. -/
  | puntWaitTimeout (r : Nat)
  /-- R488. After MIN_NOTICE_NS a ring writes HEAD and raises its vector for completed packets. -/
  | puntNotice (r : Nat)
  /-- R491. The header, the elements and the data that host software has written at HEAD of ring r; the fetch of element dma, when there is one, ends with a DMA error. -/
  | pipeline (r : Nat) (h0 h1 : W64) (els : List (W64 × W64)) (data : List Byte) (dma : Option Nat)
  /-- R491. The header, the elements and the data that host software has written at HEAD of ring r; the fetch of element dma, when there is one, ends with a DMA error. -/
  | direct (r : Nat) (h0 h1 : W64) (els : List (W64 × W64)) (data : List Byte) (dma : Option Nat)
  /-- R493. A frame with its CRC byte and its clock edges. -/
  | spisWrite (off : Nat) (v : W64) (crc edges : Nat)
  /-- R493. SPI slave READ_ADDR reads a register and latches the value. -/
  | spisReadAddr (off crc edges : Nat)
  /-- R493. SPI slave READ_DATA returns the latched value. -/
  | spisReadData (edges : Nat)
  /-- R493. SPI slave STATUS returns BUSY and the last RESULT. -/
  | spisStatus (edges : Nat)
  /-- R494. Select low for more than 1 ms discards the frame with TIMEOUT. -/
  | spisSelectTimeout
  /-- R496. Samples 7 to 9 of each bit as a number, sample 7 lowest; restart: a start is confirmed from the fall in the stop bit; idle: the line was high for a bit time before; brk: the line was low for two character times. -/
  | uartRxCharacter (t : List Nat) (restart idle brk : Bool)
  /-- R495. A write of UART_DATA queues a byte for transmission. -/
  | uartSend (agent : Nat) (x : Byte)
  /-- R500. A read of UART_DATA removes the next received byte. -/
  | uartDataRead (agent : Nat)
  /-- R497. SPIM_CMD runs a flash transaction, preemptible by higher-ranked users. -/
  | spimTransaction (agent : Nat) (v : W64)
  /-- R498. JTAG IDCODE selects the identification register. -/
  | jtagIdcode
  /-- R498. x is shifted in. -/
  | jtagSamplePreload (x : Nat)
  /-- R498. x is shifted in. -/
  | jtagExtest (x : Nat)
  /-- R498. JTAG CLAMP holds outputs with bypass. -/
  | jtagClamp
  /-- R498. JTAG HIGHZ floats outputs with bypass. -/
  | jtagHighz
  /-- R498. JTAG CSR_ACCESS performs a register access at Update-DR as the JTAG agent. -/
  | jtagCsrAccess (op off : Nat) (v : W64)
  /-- R498. JTAG BYPASS selects the bypass register. -/
  | jtagBypass
  /-- R515. TRST_N low resets the JTAG test logic. -/
  | testLogicReset
  /-- R503. At each period multiple a tally latches every listed word, or is missed. -/
  | tally
  /-- R503. DUMP_TALLY.NOW requests an extra tally. -/
  | tallyNow (agent : Nat)
  /-- R505. The write with index fail, when there is one, ends with a DMA error. -/
  | dumpRecordWrite (fail : Option Nat)
  /-- R518. A write of PIN_FEAT enables MFP features, resolving pin conflicts by rank. -/
  | pinFeatWrite (agent : Nat) (v : W64)
  /-- R346. all says that every lane of the port now has signal detect. -/
  | signalDetectChange (p : Nat) (all : Bool)
  /-- R340. A clause 73 exchange ends without a compatible mode, the port stays in AN, and STRIP_CNT[q][15] counts it. -/
  | anExchangeFailed (p : Nat)
  /-- R524. PTP_10M in range for 10 ms is present again, so REF_PRESENT is set and the device-time rate follows it again, ending holdover. -/
  | ptp10mPresent
  /-- R462. AON_XTAL oscillating again for 1 ms ends the XTAL_FAIL condition and device time returns to the crystal. -/
  | xtalRunning
  /-- R521. All monitored rails have been inside their windows for 1 ms, ending SUPPLY_WINDOW and letting the islands leave the reset held by R521. -/
  | supplyInWindow
  /-- R474. The PCIe link finishes training and comes up, ending the PCIE_LINK_DOWN condition. -/
  | pcieLinkUp
  /-- R439. Strip n. -/
  | pllUnlock (n : Nat)
  /-- R394. A received Serlet frame with a bad CRC, a non-zero reserved field or a reserved TYPE is discarded, counted in PAIR_CNT[2], and raises FRAME_CRC. -/
  | serletFrameDiscarded
  /-- R493. An SPI slave frame whose command byte is not in the table is ignored with RESULT UNKNOWN_CMD and counted as irregular. -/
  | spisUnknownCmd (cmd edges : Nat)
  deriving DecidableEq, Repr

end Sys2Proof
end

