-- ==== Sys2Proof/Machine/Bits.lean ====
section
/-!
DEFINITION. Bit fields, byte order and sparse storage: the helpers that every family of commands uses.
-/
namespace Sys2Proof.Machine

/-- Bits [lo + w - 1 : lo] of a number. -/
def bits (x lo w : Nat) : Nat := x / 2 ^ lo % 2 ^ w

/-- The number with bits [lo + w - 1 : lo] replaced by the low w bits of v. -/
def setBits (x lo w v : Nat) : Nat := x % 2 ^ lo + v % 2 ^ w * 2 ^ lo + x / 2 ^ (lo + w) * 2 ^ (lo + w)

/-- One bit as a truth value. -/
def bit (x i : Nat) : Bool := x / 2 ^ i % 2 == 1

/-- A truth value as a bit. -/
def b2n (b : Bool) : Nat := if b then 1 else 0

/-- A field of a word. -/
def getF (v : W64) (f : Fld) : Nat := bits v.toNat f.lo f.w

/-- A word with one field replaced. -/
def setF (v : W64) (f : Fld) (x : Nat) : W64 := BitVec.ofNat 64 (setBits v.toNat f.lo f.w x)

/-- The number of bits of x that are set, among its lowest n. -/
def popCount : Nat → Nat → Nat
  | 0, _ => 0
  | n + 1, x => x % 2 + popCount n (x / 2)

/-- A count that stops at the largest value of w bits. -/
def satAdd (w x n : Nat) : Nat := min (x + n) (2 ^ w - 1)

/-- The two's-complement value of a w-bit number. -/
def toSigned (w x : Nat) : Int := if x % 2 ^ w < 2 ^ (w - 1) then (x % 2 ^ w : Nat) else ((x % 2 ^ w : Nat) : Int) - 2 ^ w

/-- The w-bit two's-complement pattern of an integer. -/
def ofSigned (w : Nat) (x : Int) : Nat := (x % (2 ^ w : Nat)).toNat

/-- The smallest number of units of size k that hold n. -/
def ceilDiv (n k : Nat) : Nat := (n + k - 1) / k

/-- The number that a big-endian byte list spells (network byte order). -/
def beNat (bs : List Byte) : Nat := bs.foldl (fun a b => a * 256 + b.toNat) 0

/-- The number that a little-endian byte list spells. -/
def leNat (bs : List Byte) : Nat := bs.foldr (fun b a => b.toNat + 256 * a) 0

/-- n bytes of a number, lowest first. -/
def leBytes : Nat → Nat → List Byte
  | 0, _ => []
  | n + 1, x => BitVec.ofNat 8 x :: leBytes n (x / 256)

/-- n bytes of a number, highest first (network byte order). -/
def beBytes (n x : Nat) : List Byte := (leBytes n x).reverse

/-- The byte at an index, zero beyond the end. -/
def byteAt (bs : List Byte) (i : Nat) : Nat := (bs.getD i 0).toNat

/-- The w bits that begin at bit `o` of a byte list, bit 0 being the most significant bit of byte 0; bits past the end are 0. -/
def netBits (bs : List Byte) (o w : Nat) : Nat :=
  let k := o / 8
  let n := ceilDiv (o % 8 + w) 8
  beNat ((List.range n).map fun i => bs.getD (k + i) 0) / 2 ^ (8 * n - o % 8 - w) % 2 ^ w

/-- What a sparse store reads at a key; an unlisted key reads as `d` of it. -/
def spGet {α : Type} (d : Nat → α) : Sp α → Nat → α
  | [], a => d a
  | (k, v) :: t, a => if a = k then v else spGet d t a

/-- The store without a key's entry. -/
def spErase {α : Type} : Sp α → Nat → Sp α
  | [], _ => []
  | (k, v) :: t, a => if a = k then spErase t a else (k, v) :: spErase t a

/-- The store with a key's entry set, keys kept rising. -/
def spInsert {α : Type} : Sp α → Nat → α → Sp α
  | [], a, v => [(a, v)]
  | (k, u) :: t, a, v => if a < k then (a, v) :: (k, u) :: t else if a = k then (a, v) :: t else (k, u) :: spInsert t a v

/-- The store after a write; writing the default removes the entry, so that equal stores are equal lists. -/
def spPut {α : Type} [DecidableEq α] (d : Nat → α) (m : Sp α) (a : Nat) (v : α) : Sp α :=
  if v = d a then spErase m a else spInsert m a v

/-- The canonical form: keys strictly rising, no entry equal to its default. -/
def spWf {α : Type} [DecidableEq α] (d : Nat → α) : Sp α → Bool
  | [] => true
  | (k, v) :: t => decide (v ≠ d k) && (match t with | [] => true | (k', _) :: _ => decide (k < k')) && spWf d t

/-- The list with element i replaced, when it exists. -/
def setAt {α : Type} (l : List α) (i : Nat) (v : α) : List α := l.set i v

/-- The first index below n that satisfies p. -/
def firstIdx (n : Nat) (p : Nat → Bool) : Option Nat := (List.range n).find? p

/-- The first index of n, starting at `from_` and wrapping, that satisfies p (a round-robin choice). -/
def roundRobin (n from_ : Nat) (p : Nat → Bool) : Option Nat :=
  ((List.range n).map fun i => (from_ + i) % n).find? p

/-- Insert into a rising list. -/
def insertNat (n : Nat) : List Nat → List Nat
  | [] => [n]
  | m :: t => if n ≤ m then n :: m :: t else m :: insertNat n t

/-- A list in rising order. -/
def sortNat (l : List Nat) : List Nat := l.foldr insertNat []

end Sys2Proof.Machine
end

