-- ==== Sys2Proof/Machine/Crypto.lean ====
section
/-!
DEFINITION. The cryptographic standards that R68, R308 and R454 name: SHA-384, ECDSA over P-384, AES-256 with its GCM and XTS
modes. The spec names these standards and does not restate them; what stands here is taken from them (assumption 12).
-/
namespace Sys2Proof.Machine

/-! SHA-384 (FIPS 180-4). -/

/-- The 80 round constants, constant i at bits [64 i + 63 : 64 i]. -/
def shaK : Nat := 0x6C44198C4A4758175FCB6FAB3AD6FAEC597F299CFC657E2A4CC5D4BECB3E42B6431D67C49C100D4C3C9EBE0A15C9BEBC32CAAB7B40C7249328DB77F523047D841B710B35131C471B113F9804BEF90DAE0A637DC5A2C898A606F067AA72176FBAF57D4F7FEE6ED178EADA7DD6CDE0EB1ED186B8C721C0C207CA273ECEEA26619CC67178F2E372532BBEF9A3F7B2C67915A4506CEBDE82BDE990BEFFFA23631E288CC702081A6439EC84C87814A1F0AB7278A5636F43172F60748F82EE5DEFB2FC682E6FF3D6B2B8A35B9CCA4F7763E3734ED8AA4AE3418ACB391C0CB3C5C95A6334B0BCB5E19B48A82748774CDF8EEB991E376C085141AB5319A4C116B8D2D0C8106AA07032BBD1B8F40E35855771202AD69906245565A910D192E819D6EF5218C76C51A30654BE30C24B8B70D0F89791A81A664BBC423001A2BFE8A14CF1036492722C851482353B81C2C92E47EDAEE6766A0ABB3C77B2A8650A73548BAF63DE53380D139D95B3DF4D2C6DFC5AC42AED2E1B21385C26C92627B70A8546D22FFC142929670A0E6E7006CA6351E003826FD5A79147930AA725C6E00BF33DA88FC2BF597FC7BEEF0EE4B00327C898FB213FA831C66D2DB43210983E5152EE66DFAB76F988DA831153B55CB0A9DCBD41FBD44A7484AA6EA6E4832DE92C6F592B0275240CA1CC77AC9C650FC19DC68B8CD5B5EFBE4786384F25E3E49B69C19EF14AD2C19BF174CF6926949BDC06A725C7123580DEB1FE3B1696B172BE5D74F27B896F550C7DC3D5FFB4E2243185BE4EE4B28C12835B0145706FBED807AA98A3030242AB1C5ED5DA6D8118923F82A4AF194F9B59F111F1B605D0193956C25BF348B538E9B5DBA58189DBBCB5C0FBCFEC4D3B2F7137449123EF65CD428A2F98D728AE22

/-- The eight initial words of SHA-384. -/
def shaH : Nat := 0x47B5481DBEFA4FA4DB0C2E0D64F98FA78EB44A876858151167332667FFC00B31152FECD8F70E59399159015A3070DD17629A292A367CD507CBBB9D5DC1059ED8

/-- Word i of a packed table of 64-bit words. -/
def w64At (t i : Nat) : Nat := bits t (64 * i) 64

def rotr64 (x n : Nat) : Nat := x / 2 ^ n + x % 2 ^ n * 2 ^ (64 - n)

/-- The message schedule: the last 16 words, newest first, extended to 80 words. -/
def shaExtend : Nat → List Nat → List Nat
  | 0, w => w
  | n + 1, w =>
    let a := w.getD 14 0
    let b := w.getD 1 0
    let s0 := rotr64 a 1 ^^^ rotr64 a 8 ^^^ a / 2 ^ 7
    let s1 := rotr64 b 19 ^^^ rotr64 b 61 ^^^ b / 2 ^ 6
    shaExtend n ((w.getD 15 0 + s0 + w.getD 6 0 + s1) % 2 ^ 64 :: w)

/-- One round, with its constant and schedule word. -/
def shaRound (s : List Nat) (k w : Nat) : List Nat :=
  let a := s.getD 0 0
  let b := s.getD 1 0
  let c := s.getD 2 0
  let e := s.getD 4 0
  let f := s.getD 5 0
  let g := s.getD 6 0
  let ch := (e &&& f) ^^^ ((2 ^ 64 - 1 - e) &&& g)
  let t1 := s.getD 7 0 + (rotr64 e 14 ^^^ rotr64 e 18 ^^^ rotr64 e 41) + ch + k + w
  let t2 := (rotr64 a 28 ^^^ rotr64 a 34 ^^^ rotr64 a 39) + ((a &&& b) ^^^ (a &&& c) ^^^ (b &&& c))
  [(t1 + t2) % 2 ^ 64, a, b, c, (s.getD 3 0 + t1) % 2 ^ 64, e, f, g]

/-- One block of 128 bytes. -/
def shaBlock (h : List Nat) (blk : List Byte) : List Nat :=
  let w := shaExtend 64 ((List.range 16).map fun i => beNat ((blk.drop (8 * i)).take 8)).reverse
  let s := (List.range 80).foldl (fun s i => shaRound s (w64At shaK i) (w.getD (79 - i) 0)) h
  (List.range 8).map fun i => (h.getD i 0 + s.getD i 0) % 2 ^ 64

/-- The blocks of a padded message. -/
def shaBlocks : Nat → List Byte → List Nat → List Nat
  | 0, _, h => h
  | n + 1, m, h => shaBlocks n (m.drop 128) (shaBlock h (m.take 128))

/-- SHA-384 of a message, as a number of 384 bits. -/
def sha384 (m : List Byte) : Nat :=
  let z := (128 - (m.length + 17) % 128) % 128
  let p := m ++ [0x80] ++ List.replicate z 0 ++ beBytes 16 (8 * m.length)
  let h := shaBlocks (p.length / 128) p ((List.range 8).map (w64At shaH))
  (h.take 6).foldl (fun a w => a * 2 ^ 64 + w) 0

/-! ECDSA over P-384 (FIPS 186). -/

def p384 : Nat := 2 ^ 384 - 2 ^ 128 - 2 ^ 96 + 2 ^ 32 - 1
def n384 : Nat := 0xffffffffffffffffffffffffffffffffffffffffffffffffc7634d81f4372ddf581a0db248b0a77aecec196accc52973
def b384 : Nat := 0xb3312fa7e23ee7e4988e056be3f82d19181d9c6efe8141120314088f5013875ac656398d8a2ed19d2a85c8edd3ec2aef
def gx384 : Nat := 0xaa87ca22be8b05378eb1c71ef320ad746e1d3b628ba79b9859f741e082542a385502f25dbf55296c3a545e3872760ab7
def gy384 : Nat := 0x3617de4a96262c6f5d9e98bf9292dc29f8f41dbd289a147ce9da3113b5f0b8c00a60b1ce1d7e819d7a431d7c90ea0e5f

/-- x to the power e modulo m, over the lowest k bits of e. -/
def powMod (m : Nat) : Nat → Nat → Nat → Nat
  | 0, _, _ => 1
  | k + 1, x, e =>
    let r := powMod m k (x * x % m) (e / 2)
    if e % 2 = 1 then r * x % m else r

/-- The inverse modulo a prime of 384 bits. -/
def invMod (m x : Nat) : Nat := powMod m 384 x (m - 2)

/-- A point: none is the point at infinity. -/
abbrev EcPoint := Option (Nat × Nat)

def ecAdd (p q : EcPoint) : EcPoint :=
  match p, q with
  | none, q => q
  | p, none => p
  | some (x1, y1), some (x2, y2) =>
    if x1 = x2 ∧ (y1 + y2) % p384 = 0 then none
    else
      let l := if x1 = x2 then (3 * x1 * x1 + (p384 - 3)) * invMod p384 (2 * y1) % p384
        else (y2 + p384 - y1) * invMod p384 ((x2 + p384 - x1) % p384) % p384
      let x3 := (l * l + 2 * p384 - x1 - x2) % p384
      some (x3, (l * (x1 + p384 - x3) + p384 - y1) % p384)

/-- k times a point, over the lowest n bits of k. -/
def ecMul : Nat → Nat → EcPoint → EcPoint
  | 0, _, _ => none
  | n + 1, k, p =>
    let r := ecMul n (k / 2) (ecAdd p p)
    if k % 2 = 1 then ecAdd r p else r

/-- Whether (r, s) is a signature over a digest under a public key. -/
def ecdsaOk (key : Nat × Nat) (digest r s : Nat) : Bool :=
  if r = 0 ∨ n384 ≤ r ∨ s = 0 ∨ n384 ≤ s ∨ p384 ≤ key.1 ∨ p384 ≤ key.2
    ∨ (key.2 * key.2) % p384 ≠ (key.1 * key.1 * key.1 + (p384 - 3) * key.1 + b384) % p384 then false
  else
    let w := invMod n384 s
    match ecAdd (ecMul 384 (digest * w % n384) (some (gx384, gy384))) (ecMul 384 (r * w % n384) (some key)) with
    | none => false
    | some (x, _) => x % n384 == r

/-! AES-256 (FIPS 197). -/

/-- The S-box, entry x at bits [8 x + 7 : 8 x]. -/
def aesS : Nat := 0x16BB54B00F2D99416842E6BF0D89A18CDF2855CEE9871E9B948ED9691198F8E19E1DC186B95735610EF6034866B53E708A8BBD4B1F74DDE8C6B4A61C2E2578BA08AE7A65EAF4566CA94ED58D6D37C8E779E4959162ACD3C25C2406490A3A32E0DB0B5EDE14B8EE4688902A22DC4F816073195D643D7EA7C41744975FEC130CCDD2F3FF1021DAB6BCF5389D928F40A351A89F3C507F02F94585334D43FBAAEFD0CF584C4A39BECB6A5BB1FC20ED00D153842FE329B3D63B52A05A6E1B1A2C830975B227EBE28012079A059618C323C7041531D871F1E5A534CCF73F362693FDB7C072A49CAFA2D4ADF04759FA7DC982CA76ABD7FE2B670130C56F6BF27B777C63

/-- The inverse S-box. -/
def aesSi : Nat := 0x7D0C2155631469E126D677BA7E042B17619953833CBBEBC8B0F52AAE4D3BE0A0EF9CC9939F7AE52D0D4AB519A97F51605FEC8027591012B131C7078833A8DD1FF45ACD78FEC0DB9A2079D2C64B3E56FC1BBE18AA0E62B76F89C5291D711AF1476EDF751CE837F9E28535ADE72274AC9673E6B4F0CECFF297EADC674F4111913A6B8A130103BDAFC1020F3FCA8F1E2CD00645B3B80558E4F70AD3BC8C00ABD890849D8DA75746155EDAB9EDFD5048706C92B6655DCC5CA4D41698688664F6F87225D18B6D49A25B76B224D92866A12E084EC3FA420B954CEE3D23C2A632947B54CBE9DEC444438E3487FF2F9B8239E37CFBD7F3819EA340BF38A53630D56A0952

def sbox (x : Nat) : Nat := bits aesS (8 * x) 8
def sboxInv (x : Nat) : Nat := bits aesSi (8 * x) 8

/-- Multiplication by x in GF(2^8). -/
def xtime (a : Nat) : Nat := if a < 128 then 2 * a else (2 * a) ^^^ 0x11B

/-- Multiplication in GF(2^8) by a constant below 16. -/
def gmul (a k : Nat) : Nat :=
  let a2 := xtime a
  let a4 := xtime a2
  let a8 := xtime a4
  (if bit k 0 then a else 0) ^^^ (if bit k 1 then a2 else 0) ^^^ (if bit k 2 then a4 else 0) ^^^ (if bit k 3 then a8 else 0)

def nget (s : List Nat) (i : Nat) : Nat := s.getD i 0
def xorL (a b : List Nat) : List Nat := List.zipWith (· ^^^ ·) a b

/-- The key schedule of AES-256: words, newest first, each of four bytes; `i` counts words from 8. -/
def aesExpand : Nat → Nat → Nat → List (List Nat) → List (List Nat)
  | 0, _, _, w => w
  | n + 1, i, rc, w =>
    let t := w.getD 0 []
    let t' := if i % 8 = 0 then
        let u := [nget t 1, nget t 2, nget t 3, nget t 0].map sbox
        [nget u 0 ^^^ rc, nget u 1, nget u 2, nget u 3]
      else if i % 8 = 4 then t.map sbox else t
    aesExpand n (i + 1) (if i % 8 = 0 then xtime rc else rc) (xorL (w.getD 7 []) t' :: w)

/-- The 15 round keys of a key of 32 bytes, each of 16 bytes. -/
def aesKeys (k : List Nat) : List (List Nat) :=
  let w0 := ((List.range 8).map fun i => (k.drop (4 * i)).take 4).reverse
  let w := (aesExpand 52 8 1 w0).reverse
  (List.range 15).map fun r => ((w.drop (4 * r)).take 4).flatten

/-- A permutation of the 16 bytes of a state: byte i comes from position p i. -/
def permute (p : Nat → Nat) (s : List Nat) : List Nat := (List.range 16).map fun i => nget s (p i)
def shiftRows : List Nat → List Nat := permute fun i => (i + 4 * (i % 4)) % 16
def shiftRowsInv : List Nat → List Nat := permute fun i => (i + 12 * (i % 4)) % 16

/-- A column mix with a circulant of constants. -/
def mixCols (c0 c1 c2 c3 : Nat) (s : List Nat) : List Nat :=
  (List.range 16).map fun i =>
    let b := 4 * (i / 4)
    let r := i % 4
    gmul (nget s (b + r)) c0 ^^^ gmul (nget s (b + (r + 1) % 4)) c1 ^^^ gmul (nget s (b + (r + 2) % 4)) c2 ^^^ gmul (nget s (b + (r + 3) % 4)) c3

/-- One block enciphered under round keys. -/
def aesEnc (ks : List (List Nat)) (blk : List Nat) : List Nat :=
  let s := (List.range 13).foldl (fun s r => xorL (mixCols 2 3 1 1 (shiftRows (s.map sbox))) (ks.getD (r + 1) [])) (xorL blk (ks.getD 0 []))
  xorL (shiftRows (s.map sbox)) (ks.getD 14 [])

/-- One block deciphered. -/
def aesDec (ks : List (List Nat)) (blk : List Nat) : List Nat :=
  let s := (List.range 13).foldl (fun s r => mixCols 14 11 13 9 (xorL ((shiftRowsInv s).map sboxInv) (ks.getD (13 - r) []))) (xorL blk (ks.getD 14 []))
  xorL ((shiftRowsInv s).map sboxInv) (ks.getD 0 [])

/-! GCM (NIST SP 800-38D), with a nonce of 12 bytes and a tag of 16. -/

def toNats (l : List Byte) : List Nat := l.map BitVec.toNat
def toBytes (l : List Nat) : List Byte := l.map (BitVec.ofNat 8)

/-- Multiplication in GF(2^128), the first bit being the most significant. -/
def ghMul : Nat → Nat → Nat → Nat → Nat
  | 0, _, _, z => z
  | n + 1, x, v, z =>
    let z := if bit x n then z ^^^ v else z
    ghMul n x (if v % 2 = 1 then (v / 2) ^^^ (0xE1 * 2 ^ 120) else v / 2) z

/-- GHASH of n blocks under H. -/
def ghash (h : Nat) : Nat → List Byte → Nat → Nat
  | 0, _, y => y
  | n + 1, m, y => ghash h n (m.drop 16) (ghMul 128 (y ^^^ beNat ((m.take 16) ++ List.replicate (16 - (m.take 16).length) 0)) h 0)

/-- The counter-mode key stream applied to a text, from a counter block of 12 nonce bytes and a count. -/
def gctr (ks : List (List Nat)) (iv : List Byte) : Nat → Nat → List Byte → List Byte
  | 0, _, _ => []
  | n + 1, c, m =>
    let k := aesEnc ks (toNats (iv ++ beBytes 4 c))
    toBytes (List.zipWith (· ^^^ ·) (toNats (m.take 16)) k) ++ gctr ks iv n (c + 1) (m.drop 16)

/-- The tag over associated data and cipher text. -/
def gcmTag (ks : List (List Nat)) (iv aad ct : List Byte) : List Byte :=
  let h := beNat (toBytes (aesEnc ks (List.replicate 16 0)))
  let y := ghash h (ceilDiv aad.length 16) aad 0
  let y := ghash h (ceilDiv ct.length 16) ct y
  let y := ghMul 128 (y ^^^ (8 * aad.length * 2 ^ 64 + 8 * ct.length)) h 0
  toBytes (List.zipWith (· ^^^ ·) (toNats (beBytes 16 y)) (aesEnc ks (toNats (iv ++ beBytes 4 1))))

/-- The round keys of a key of 256 bits, its first byte the most significant. -/
def keysOf (key : Nat) : List (List Nat) := aesKeys (toNats (beBytes 32 key))

/-- AES-256-GCM: cipher text and tag. -/
def gcmSeal (key : Nat) (iv aad pt : List Byte) : List Byte × List Byte :=
  let ks := keysOf key
  let ct := gctr ks iv (ceilDiv pt.length 16) 2 pt
  (ct, gcmTag ks iv aad ct)

/-- AES-256-GCM: the plain text when the tag is right. -/
def gcmOpen (key : Nat) (iv aad ct tag : List Byte) : Option (List Byte) :=
  let ks := keysOf key
  if gcmTag ks iv aad ct = tag then some (gctr ks iv (ceilDiv ct.length 16) 2 ct) else none

/-! XTS (IEEE 1619) over whole blocks. -/

/-- The tweak of the next block: multiplication by x in GF(2^128), byte 0 the least significant. -/
def xtsNext (t : Nat) : Nat := if t < 2 ^ 127 then 2 * t else (2 * t - 2 ^ 128) ^^^ 0x87

/-- Blocks of a data unit through a block function. -/
def xtsBlocks (f : List Nat → List Nat) : Nat → Nat → List Byte → List Byte
  | 0, _, _ => []
  | n + 1, t, m =>
    let tb := toNats (leBytes 16 t)
    toBytes (xorL (f (xorL (toNats (m.take 16)) tb)) tb) ++ xtsBlocks f n (xtsNext t) (m.drop 16)

/-- XTS-AES-256 of a data unit: key 1, key 2 and the data-unit number. -/
def xtsEnc (k1 k2 unit : Nat) (m : List Byte) : List Byte :=
  xtsBlocks (aesEnc (keysOf k1)) (m.length / 16) (leNat (toBytes (aesEnc (keysOf k2) (toNats (leBytes 16 unit))))) m
def xtsDec (k1 k2 unit : Nat) (m : List Byte) : List Byte :=
  xtsBlocks (aesDec (keysOf k1)) (m.length / 16) (leNat (toBytes (aesEnc (keysOf k2) (toNats (leBytes 16 unit))))) m

end Sys2Proof.Machine
end

