-- ==== Sys2Proof/Machine/Types.lean ====
section
/-!
DEFINITION. The parts of the device's state as plain data, unit by unit. Keys of a `Sp` are numbers; each field says how its
key is made. A status register or counter whose only home is its register lives in the register file of `Dev`.
-/
namespace Sys2Proof.Machine

/-- What the fuses hold (R1, R450, R454, R498). -/
structure Fuses where
  /-- true: NZH-6256; false: NZH-6512. -/
  half : Bool
  /-- The debug-lock fuse (R498). -/
  debugLock : Bool
  /-- SHA-384 digest of the boot public key (R454). -/
  bootKeyDigest : Nat
  /-- SHA-384 digest of the rotation public key (R68). -/
  rotKeyDigest : Nat
  /-- Lowest security version accepted (R454). -/
  minVersion : Nat
  /-- Pin-personality map: pin number to code (R450). -/
  pinPersonality : Sp Nat
  deriving DecidableEq, Repr

/-- A fault message (R418). -/
structure FaultMsg where
  source : Nat
  kind : Nat
  sev : Nat
  addr : Nat
  master : Nat
  access : Nat
  rep : Nat
  injected : Bool
  deriving DecidableEq, Repr

/-- The collector's state outside its registers (R420, R432, R433, R435, R437). -/
structure FaultSt where
  /-- Messages that the ring has not yet delivered, one for each source and severity, oldest first. -/
  pending : List FaultMsg
  /-- Conditions whose cause is present now: key source * 256 + kind, value 1 (R428). -/
  present : Sp Nat
  /-- Injections that have acted and wait for their message: SOURCE and ADDRESS, at most 16 (R437). -/
  injected : List (Nat × Nat)
  /-- Entries that took ladder step 3: SOURCE, KIND and the time of release (R432). -/
  stepped : List (Nat × Nat × Nat)
  /-- End of the running FAULT_N pulse; 0 when none runs (R435). -/
  pulseEnd : Nat
  /-- The active entry whose step 4 locked FAULT_PIN (R435); 256 when none. -/
  lockedBy : Nat
  /-- Step 2 holds every port DOWN (R431, R433). -/
  portHold : Bool
  /-- When vectors 144 and 145 were last raised (R425). -/
  irqTime : Nat × Nat
  /-- Vectors 144 (bit 0) and 145 (bit 1) that wait for IRQ_MIN_US to pass (R425). -/
  irqDue : Nat
  deriving DecidableEq, Repr

/-- One event FIFO (R481 to R483). -/
structure EvtFifo where
  /-- Entries, oldest first, each its four words. -/
  entries : List (W64 × W64 × W64 × W64)
  /-- Entries not yet signalled. -/
  unsignalled : Nat
  /-- When the oldest unsignalled entry was posted. -/
  since : Nat
  deriving DecidableEq, Repr

/-- Where a packet of a furrow stands. -/
inductive Loc where
  /-- In stage F of a row, about to execute; `woken` when it re-executes after a wake (R51). -/
  | row (r : Nat) (woken : Bool)
  /-- In a park slot, with its awaited condition: a code of R40, 64 for ORDER, 65 for QUIESCE. -/
  | park (r cond : Nat)
  /-- Woken, and waiting for an empty cycle or a bubble (R53). -/
  | wokenWait (r : Nat) (bubble : Bool)
  /-- In the return queue (R47). -/
  | returning
  /-- At RIND_A (R325). -/
  | atRind
  /-- Decrypted, and waiting for its reparse (R144). -/
  | reparse
  /-- In the exit hold (R54). -/
  | exitHold
  deriving DecidableEq, Repr

/-- A packet, from staging to the wire. Context, tag and latches are the furrow's (R42, R45, R90); the later fields are the
descriptor and the cells that the fabric and the queues hold (R224, R241). -/
structure Pkt where
  /-- Frame bytes without FCS, as received or as decrypted. -/
  frame : List Byte
  /-- Length received at the ingress port, FCS included (R103). -/
  rxLen : Nat
  /-- Time stamp of the first symbol, ns (R356). -/
  rxTime : Nat
  /-- Ingress strip that holds the frame in staging; none when staging holds nothing of it (R214). -/
  staged : Option Nat
  /-- Key of the count of packets that share the frame's place in staging or in the look-aside store, 0 when it is not shared: an
  original and its mirror copy (R263). -/
  stRef : Nat
  /-- PFC priority (R343). -/
  prio : Nat
  /-- Cells charged at admission, and whether to headland (R215, R237). -/
  ppCells : Nat
  headland : Bool
  /-- The packet context W0 to W31, word n at bits [64 n + 63 : 64 n] (R42). -/
  ctx : BitVec 2048
  gen : Nat
  seq : Nat
  mapIdx : Nat
  loc : Loc
  /-- Its pass has ended in an earlier row, and it rides the rows that are left (R32): the start address of a next pass, and whether
  the microword that ended the pass is a safe point. -/
  ride : Option (Nat × Bool)
  parkSeq : Nat
  /-- Highest row of the current pass in which the packet made a productive slot, plus 1 (R509). -/
  lastRow : Nat
  /-- Flags of ALU0 and ALU1: Z, N, C and V (R90); the latches of the extractors and the ALU results (R85). -/
  flags0 : Nat
  flags1 : Nat
  x0 : W64
  x1 : W64
  x2 : W64
  x3 : W64
  y0 : W64
  y1 : W64
  /-- Condition bits 0x0A to 0x19 of R40, bit n for code n. -/
  conds : Nat
  /-- Number of the last request of each kind 1 to 4 (R102), 0 none. -/
  reqs : List Nat
  /-- Edit-list entries of R112 and the data buffer (R110, R111). -/
  edits : List Nat
  edata : List Byte
  /-- Set when the ordered rehash of its map entry has expired (R75 step 5). -/
  rehashDrop : Bool
  /-- Association recorded by SA_STATE for decryption (R324): type and index. -/
  decSa : Option (Nat × Nat)
  /-- A BUF grant: slice, pool and cells (R229). -/
  grant : Option (Nat × Nat × Nat)
  /-- ACRE_MAP entry of ingress acre a by which it crossed: a * 64 + j (R220). -/
  mapRef : Nat
  /-- Cell pointers in the intermediate slice, and the pool charged (R224, R228). -/
  cells : List Nat
  pool : Nat
  /-- Intermediate acre. -/
  macre : Nat
  /-- Key of the reference count shared by multicast copies (R231). -/
  refKey : Nat
  /-- Descriptor fields of R241 beyond the context. -/
  queue : Nat
  enqTime : Nat
  ce : Bool
  ect : Bool
  asRx : Bool
  lossless : Bool
  /-- A DIRECT inject packet: its ring, header slot, cookie and TS_REQ (R491). -/
  inject : Option (Nat × Nat × Nat × Bool)
  /-- It takes no edit list (R491). -/
  noEdit : Bool
  /-- A mirror copy of this packet goes to this queue (R263). -/
  mirrorTo : Option Nat
  /-- Held at a safe point by a quiesce request (R60). -/
  safeHold : Bool
  /-- Woken on the condition that it awaited: its WAIT is taken (R51). -/
  waitTaken : Bool
  /-- Injected through the PIPELINE path (R134). -/
  fromHost : Bool
  /-- Its number in the order of arrival at its Harrow, once it has entered the fragment holding area (R120, R140). -/
  fragHeld : Option Nat
  /-- Key of the count of copies that share the port-priority charge (R215). -/
  ppRef : Nat
  /-- Look-aside store of this acre that holds the decrypted frame, and its bytes (R325). -/
  lookaside : Option (Nat × Nat)
  /-- ECN_OFF and ECN_FAM of the descriptor (R243). -/
  ecnOff : Nat
  ecnFam : Nat
  /-- Launch time t0 in 1/1,600 ns and charged length, from Drill's selection (R276). -/
  launch : Nat
  charged : Nat
  deriving DecidableEq, Repr

/-- What the controller makes of a DEEP request (R367, R369, R382): an element to read, an answer with poison at once, or a request of an
invalid type or index. -/
inductive DeepFound where
  | element (addr : Nat)
  | poison
  | invalid
  deriving DecidableEq, Repr

/-- A request or result on its way back to a packet (R33, R95, R99, R101, R104). -/
inductive Flight where
  /-- A lookup with what it found at its issue (R172, R202): port, destination, the word, HIT, ERR, poison, and the match count of
  an associative search. -/
  | lookup (port dest : Nat) (value : W64) (hit err poison : Bool) (count : Option Nat)
  /-- A COLLECT: first destination, elements, base, offsets, type and row. -/
  | collect (dest n base : Nat) (offs : List Nat) (ty row : Nat)
  /-- A request of R101: kind, destination, type, key words, number, and for LEARN the action word. -/
  | request (kind dest ty : Nat) (key : List W64) (num : Nat) (data : W64)
  /-- A DEEP request (R101, R382): destination, number, and what the controller made of it when it came. -/
  | deep (dest num : Nat) (found : DeepFound)
  /-- A LEARN in the learn FIFO or refused: destination, number, settled, and whether it was refused (R179, R181). -/
  | learned (dest num : Nat) (refused : Bool)
  /-- A meter request: meter, input colour, length. -/
  | meter (idx color len : Nat)
  deriving DecidableEq, Repr

/-- One flight with the tag of its packet (R45). -/
structure InFlight where
  slot : Nat
  gen : Nat
  what : Flight
  /-- The stage F before which a result of fixed distance lands: pass, count of the packet's last park, and row (R33, R95, R104). -/
  due : Option (Nat × Nat × Nat)
  deriving DecidableEq, Repr

/-- A furrow (R30, R45 to R56, R71, R530). -/
structure Furrow where
  lfsr : Nat
  /-- Store-copy port 0 to 15, or 16 when connected to none (R35). -/
  port : Nat
  /-- Packets by context slot. -/
  pkts : Sp (Option Pkt)
  /-- Generation of each slot (R45). -/
  gens : Sp Nat
  /-- Next sequence number of each domain (R54). -/
  nextSeq : Sp Nat
  /-- New packets from Harrow, with their map index (R47). -/
  entryQ : List Pkt
  /-- Slots of returning packets, oldest first (R47). -/
  returnQ : List Nat
  /-- Counts parks, so that domain queues and wakes keep their order. -/
  parkCtr : Nat
  reqCtr : Nat
  /-- A forced bubble is requested (R53). -/
  bubble : Bool
  inFlight : List InFlight
  /-- A FATAL fault waits for its takeover (R71), with the time of the fault. -/
  fatal : Option Nat
  /-- An ISOLATE request is in progress (R63). -/
  isolating : Bool
  /-- Packets steered to it since its FATAL fault, which its takeover counts (R72). -/
  tkDrops : Nat
  deriving DecidableEq, Repr

/-- The per-acre furrow state (R75, R77, R217, R220). -/
structure AcreSt where
  /-- Start of the running ordered rehash. -/
  rehashStart : Nat
  /-- Packets in the rehash hold, in arrival order. -/
  rehashHold : List Pkt
  /-- Packets released into f_new, waiting at rank 3 of its entry (R47). -/
  released : List (Nat × Pkt)
  /-- Drain marks of f_old: domain to sequence number. -/
  marks : Sp Nat
  /-- The furrow that a planned takeover empties (R71). -/
  takeoverOf : Option Nat
  /-- The move hold (R220). -/
  moveHold : List Pkt
  deriving DecidableEq, Repr

/-- Where an entry of the learn FIFO came from (R178, R401, R403, R411). -/
inductive LearnSrc where
  /-- A packet's request: acre, furrow, slot, generation, request number and DEST. -/
  | packet (a f slot gen num dest : Nat)
  /-- A LEARN_REQ of the pair peer. -/
  | peerReq
  /-- A LEARN_SET of the pair peer, with ABSENT. -/
  | peerSet (absent : Bool)
  /-- A REFRESH of the pair peer. -/
  | peerRefresh
  /-- A HANDOVER of the pair peer: the new effective map, bit h for holding h. -/
  | handover (map : Nat)
  deriving DecidableEq, Repr

/-- A learn in the learn FIFO (R178): its table, plus 64 when its type is undefined or not EXACT, its key of 512 bits with key word
0 on top, its action word and LEARN_SEQ. -/
structure Learn where
  src : LearnSrc
  table : Nat
  key : Nat
  action : W64
  seq : Nat
  deriving DecidableEq, Repr

/-- Orchard outside its registers (R152 to R190). -/
structure OrchSt where
  /-- Rows of 768 bits: key block * 1024 + row. -/
  rows : Sp Nat
  /-- Stash entries: key table * 64 + s. -/
  stash : Sp Nat
  /-- Hit bits: key table * 2^25 + entry index (R184). -/
  hits : Sp Nat
  /-- Length filters: key (table * 256 + holding) * 2 + copy, and their SEL: key table * 256 + holding (R172). -/
  filters : Sp Nat
  sel : Sp Nat
  /-- The learn FIFO, oldest first, and the next LEARN_SEQ. -/
  learnQ : List Learn
  learnSeq : Nat
  /-- Words of an uncorrectable quarter that have been written since its error (R189): key 12 (1,024 block + row) + word. -/
  healed : Sp Nat
  /-- Stash retries of each table that DELETEs have left due (R171). -/
  retry : Sp Nat
  /-- LPM tables and holdings whose markers are to be rebuilt: key table * 256 + holding (R189). -/
  rebuild : Sp Nat
  deriving DecidableEq, Repr

/-- One entry write that an operation has left to make in one acre: WRITE puts an entry, INVALIDATE and the second half of MOVE
clear VALID, and MOVE copies an entry (R203 to R205). -/
inductive AssocStep where
  | put (a i e : Nat)
  | clear (a i : Nat)
  | copy (a src dst : Nat)
  deriving DecidableEq, Repr

/-- The associative arrays outside their registers (R192, R209): entry i of acre a has key 32,768 a + i, and an entry is
VALUE at bits [703:384], MASK at [383:64] and the tag word of R192 at [63:0]. -/
structure AssocSt where
  /-- The shadow copies. -/
  copy : Sp Nat
  /-- The cells, tags and action SRAMs. -/
  cells : Sp Nat
  /-- Entries that the gleaner has found and not yet repaired. -/
  repairs : Sp Nat
  /-- Acres whose walk is complete since the last pass over all, as a mask. -/
  walked : Nat
  /-- The line that the gleaner of each acre reads next (R209). -/
  pos : Sp Nat
  /-- Lines that the gleaner reads again after a cancelled repair (R211), as 4,096 a + line. -/
  reread : List Nat
  /-- Writes that the operation in progress has left, first to last (R204, R205). -/
  steps : List AssocStep
  deriving DecidableEq, Repr

/-- Harrow outside its registers (R119 to R149). -/
structure HarrowSt where
  /-- Punt queue of each acre (R146). -/
  puntQ : Sp (List Pkt)
  /-- Inputs of each instance by rank of R120: 2 released fragments, 3 injected packets, 4 staging; key 8 * acre + rank. -/
  inQ : Sp (List Pkt)
  /-- Fragment holding area of each instance, in order of arrival, with the 56-bit signature (R141). -/
  heldQ : Sp (List (Pkt × Nat))
  /-- Fragment decision tables: key 65,536 * acre + 4 * bucket + way (R138). -/
  frags : Sp Nat
  /-- Tokens of the punt buckets in units of 2^-20: reasons 0 to 255, 256 the ceiling, 257 the device's closed-punt bucket,
  512 + p the closed-punt bucket of port p (R148, R149). -/
  tokens : Sp Nat
  /-- Fragments that have entered a holding area (R120). -/
  arrivals : Nat
  /-- Packets back from each RIND_A that wait for their reparse, in order of return (R120, R144): furrow, slot and generation. -/
  backQ : Sp (List (Nat × Nat × Nat))
  /-- The cycle of each instance: its time, the pipes that it has filled, and whether one holds a released fragment (R120). -/
  cycle : Sp (Nat × Nat × Bool)
  deriving DecidableEq, Repr

/-- The program stores and their loading (R34 to R36, R66 to R68). Keys: micro ((copy * 2 + bank) * 24 + row) * 1024 + address;
nano ((copy * 2 + bank) * 24 + row) * 256 + address; header bank * 224 + byte. -/
structure ProgSt where
  micro : Sp Nat
  nano : Sp Nat
  header : Sp Nat
  /-- The agent that started the verification in progress (R484). -/
  startedBy : Nat
  /-- The rotation public key that the running boot image installed (R68): its X and Y. -/
  rotKey : Option (Nat × Nat)
  deriving DecidableEq, Repr

/-- One bank of a slice's free store (R230): the ring's pointers by position, and the cache. -/
structure FreeBank where
  ring : Sp Nat
  head : Nat
  count : Nat
  cache : List Nat
  deriving DecidableEq, Repr

/-- A write of memory that waits for the end of its command: 0 deep store, 1 host memory, 2 flash. -/
structure MemWrite where
  space : Nat
  addr : Nat
  bytes : List Byte
  deriving DecidableEq, Repr

/-- The host interface and the management ports outside their registers (R473, R481 to R498). -/
structure HostSt where
  /-- The event FIFOs by number. -/
  evt : Sp EvtFifo
  /-- Each agent's EVT_LATCH: key FIFO * 16 + agent (R482). -/
  latch : Sp (W64 × W64 × W64)
  /-- Vectors whose messages were sent, oldest first (the model's record). -/
  msi : List Nat
  /-- The agent that started the operation of each completion source of R484. -/
  starter : Sp Nat
  /-- Ring queue of each punt ring: packets and the time each arrived (R488). -/
  ringQ : Sp (List (Pkt × Nat))
  /-- Whether completed packets of a punt ring wait for a notice. -/
  ringDue : Sp Nat
  /-- Time of each punt ring's last notice, plus 1; 0 before the first (R488). -/
  ringNotice : Sp Nat
  /-- Bytes of the inject buffer that PIPELINE packets use (R491). -/
  injBuf : Nat
  /-- UART FIFOs, oldest byte first; when the byte being sent is out; whether a break holds the receiver (R495, R496). -/
  uartTx : List Byte
  uartRx : List Byte
  uartDone : Nat
  uartBreak : Bool
  /-- The SPI slave's BUSY, with the time of the access and the islands it waits for; RESULT; and the latched value (R493). -/
  spisBusy : Bool
  spisSince : Nat
  spisIslands : List Nat
  spisResult : Nat
  spisLatch : W64
  /-- The JTAG instruction register, the value to be captured next, and the boundary-scan cells as last shifted in (R498). -/
  jtagIr : Nat
  jtagDr : Nat
  jtagBsr : Nat
  /-- The write-enable latch of the flash (assumption 30). -/
  flashWel : Bool
  /-- The PCIe link is up (R474). -/
  pcieUp : Bool
  /-- What the device last answered: the register read of each agent; the BAR2 read, 0 good, 1 poisoned, 2 Unsupported Request,
  with its bytes; the bytes of the last SPI slave answer; and the bytes sent by the UART (the model's records). -/
  answer : Sp W64
  bar2Ans : Nat × List Byte
  spisOut : List Byte
  uartOut : List Byte
  deriving DecidableEq, Repr

/-- A capture record in its cell, on its way to its ring (R265): the ring, its sequence number, the slot's bytes, and the acre,
cell and pool that it holds. -/
structure CapRec where
  ring : Nat
  seq : Nat
  bytes : List Byte
  acre : Nat
  cell : Nat
  pool : Nat
  deriving DecidableEq, Repr

/-- The fabric, the cell buffer and staging outside their registers (R214 to R231). -/
structure FabricSt where
  /-- Staging bytes in use, by strip. -/
  staging : Sp Nat
  /-- VOQ of ingress acre a for intermediate acre m: key 4 a + m (R218). -/
  voq : Sp (List Pkt)
  /-- Cells of a VOQ's first packet that stage 1 has carried. -/
  voqDone : Sp Nat
  /-- EGQ of intermediate acre m for egress acre e: key 4 m + e; each packet with its egress port. -/
  egq : Sp (List (Pkt × Nat))
  egqDone : Sp Nat
  /-- Egress editor input of each acre, with the port (R218). -/
  editQ : Sp (List (Pkt × Nat))
  /-- Replicator queue of each acre (R231). -/
  repl : Sp (List Pkt)
  /-- Free-store bank b of slice m: key 24 m + b. -/
  banks : Sp FreeBank
  /-- Allocation bitmap: key 2^18 m + cell, 1 for allocated. -/
  alloc : Sp Nat
  /-- Copies not yet gone of each packet that shares cells (R231), and the next key. -/
  refs : Sp Nat
  refCtr : Nat
  /-- Copies of each packet that shares a port-priority charge and has not gone (R215). -/
  ppRefs : Sp Nat
  /-- Packets that share a place in staging and have not been carried or dropped (R263). -/
  stRefs : Sp Nat
  /-- Stage-1 write buffer of each slice: the cells that wait for their bank, oldest first, each with its input acre and bank
  (R218, R225). -/
  wbuf1 : Sp (List (Nat × Nat))
  /-- Stage-2 write buffer at the editor of each acre: the input of each cell that waits, oldest first (R218). -/
  wbuf2 : Sp (List Nat)
  /-- INFLIGHT[a][j][m]: key (64 a + j) * 4 + m (R220). -/
  inFlight : Sp Nat
  /-- LFSR of each slice (R530). -/
  lfsr : Sp Nat
  /-- Floods counted (R109); the spec gives the count no register (assumption 151). -/
  floods : Nat
  /-- Multicast tables of each replicator: key 65,536 m + group and 131,072 m + member (R232). -/
  groups : Sp W64
  members : Sp W64
  /-- Capture records waiting for the writer, in the order made, and each ring's next sequence number (R265). -/
  caps : List CapRec
  capSeq : Sp Nat
  deriving DecidableEq, Repr

/-- A bank of the deep store (R375, R376, R378): key rank * 32 + pseudo-channel * 16 + bank. -/
structure DeepBank where
  openRow : Option Nat
  /-- The row that the controller closed by prediction. -/
  closedRow : Option Nat
  /-- When the bank was last accessed. -/
  last : Nat
  hist : Nat
  /-- The activate-count table: at most 16 rows with their counts. -/
  acts : List (Nat × Nat)
  /-- Rows whose neighbours are due for refresh. -/
  due : List Nat
  /-- Activations since the last RFM. -/
  raa : Nat
  /-- Refreshes postponed. -/
  postponed : Nat
  deriving DecidableEq, Repr

/-- A request waiting at a port of the deep store (R372). -/
structure DeepReq where
  port : Nat
  /-- The slice or the acre that made it, on ports 0 to 3 (R372). -/
  unit : Nat
  write : Bool
  addr : Nat
  /-- Bytes to write. -/
  bytes : List Byte
  since : Nat
  /-- Bursts not yet served: address, and the offset and number of the request's bytes in each. -/
  left : List (Nat × Nat × Nat)
  /-- What a read has returned so far, and whether all of it is good. -/
  got : List Byte
  good : Bool
  deriving DecidableEq, Repr

/-- A free-page ring in the deep store (R260): the first page and the pages of its spill region, and the pointers that differ from a
rebuilt ring's. -/
structure RingArea where
  base : Nat
  pages : Nat
  words : Sp Nat
  deriving DecidableEq, Repr

/-- The deep store outside its registers and contents (R363 to R388). -/
structure DeepSt where
  banks : Sp DeepBank
  /-- Waiting requests, oldest first. -/
  reqs : List DeepReq
  /-- Correctable errors of each rank in the second of device time given: key rank. -/
  ceWindow : Sp (Nat × Nat)
  /-- Bursts whose corrected data wait for their write-back: key physical burst. -/
  writeBack : Sp Nat
  /-- Patrol position of each pseudo-channel: key stack * 64 + channel * 2 + pseudo-channel, and passes complete in it. -/
  patrol : Sp Nat
  passes : Sp Nat
  /-- Slots since READY of each pseudo-channel. -/
  slots : Sp Nat
  /-- RFM threshold read from each stack (R367). -/
  rfm : Sp Nat
  /-- Bytes that a DEEP_ACC write replaced, while it is in progress (R380, R383). -/
  accOld : List Byte
  /-- The check-bit state of the physical bursts that it wrote, as it was. -/
  accEcc : List (Nat × Nat)
  /-- Free-page rings of earlier spill regions, newest first, whose contents stand in the deep store (R260). -/
  areas : List RingArea
  /-- Answer of the last read on each port: its data, zeros for a poisoned burst, and its result as in R383 (R372, R380). -/
  readData : Sp (List Byte × Nat)
  /-- Slices that assert refill panic, as a mask (R259). -/
  panic : Nat
  deriving DecidableEq, Repr

/-- A page of a middle that the open buffer has filled (R253, R254). -/
structure Page where
  ptr : Nat
  seq : Nat
  next : Nat
  first : Nat
  /-- The stream, until the page is written. -/
  stream : List Byte
  written : Bool
  deriving DecidableEq, Repr

/-- A sub-queue (R242, R250): lists are oldest first. -/
structure SubQ where
  spilled : Bool
  head : List Pkt
  tail : List Pkt
  /-- Full pages not yet read. -/
  pages : List Page
  /-- Page pointer and stream bytes of the open page buffer. -/
  openPage : Option Nat
  openBuf : List Byte
  /-- Offset of the first record that starts in the open page; 0xFFFF when none does. -/
  openFirst : Nat
  /-- PAGE_SEQ of the open page. -/
  seq : Nat
  /-- Records of the middle: the packet, where its record starts in the stream, its length, and whether a page failed it. -/
  recs : List (Pkt × Nat × Nat × Bool)
  /-- End of the stream written so far. -/
  fill : Nat
  /-- Stream bytes read from pages and not yet used, and where they start. -/
  inBuf : List Byte
  inBase : Nat
  /-- Pages read whose records are not all done: pointer and end of the page in the stream. -/
  reading : List (Nat × Nat)
  blocked : Bool
  deriving DecidableEq, Repr

/-- Queues outside their registers (R241 to R269). -/
structure QueueSt where
  /-- Sub-queues: key 4 q + m. -/
  subs : Sp SubQ
  /-- CFG word and DEPTH of each queue. -/
  cfg : Sp W64
  depth : Sp Nat
  /-- The free-page ring, its head and count, and its first pages (R260). -/
  ring : Sp Nat
  ringHead : Nat
  ringCount : Nat
  /-- Page-pointer cache of each slice. -/
  cache : Sp (List Nat)
  /-- Allocation bitmap of pages. -/
  alloc : Sp Nat
  deriving DecidableEq, Repr

/-- A scheduling node (R270 to R285): its entry, start tag, FRESH, the virtual time of each band, its bucket in units of
2^-24 byte, and the rate in force. -/
structure Node where
  w0 : W64
  w1 : W64
  s : Nat
  fresh : Bool
  v : List Nat
  tokens : Int
  rate : Nat
  /-- Packets queued beneath it. -/
  count : Nat
  deriving DecidableEq, Repr

/-- A gate copy: its three words and its CHANGE_TIME (R286, R292, R306). -/
structure GateCopy where
  w0 : W64
  w1 : W64
  w2 : W64
  change : Nat
  deriving DecidableEq, Repr

/-- The gates of a port: the operating copy, the pending copy, and PURGE_BEFORE of each class (R289). -/
structure Gate where
  op : GateCopy
  pend : Option GateCopy
  purge : Sp (Option Nat)
  deriving DecidableEq, Repr

/-- A meter (R300): profile, tokens in units of 2^-24 byte, and the time of its last update. -/
structure Meter where
  profile : Nat
  tc : Nat
  te : Nat
  last : Nat
  deriving DecidableEq, Repr

/-- Drill outside its registers (R270 to R306). Node key: level * 65,536 + number. -/
structure DrillSt where
  nodes : Sp Node
  gates : Sp Gate
  /-- Gate list entries. -/
  gcl : Sp Nat
  meters : Sp Meter
  /-- Meter profiles: two words. -/
  mprofs : Sp (W64 × W64)
  /-- PORT_FREE in 1/1,600 ns. -/
  portFree : Sp Nat
  /-- Priorities of each port whose received pause is disregarded (R295). -/
  disregard : Sp Nat
  deriving DecidableEq, Repr

/-- Rind outside its registers (R307 to R334). -/
structure RindSt where
  /-- The association store: key kind * 2^17 + index; word n of R311 at bits [64 n + 63 : 64 n]. -/
  ents : Sp Nat
  /-- First free-value number of the deep-store keys generated at the last clearing (R333). -/
  keyBase : Nat
  /-- Holdings whose deep-store key waits for the entropy source. -/
  keyWait : Sp Nat
  /-- Numbers seen in the window of each inbound ESP SA: bit i for NEXT_PN - 1 - i (R327). -/
  window : Sp Nat
  /-- Look-aside queue of each strip, with its port (R322). -/
  laQ : Sp (List (Pkt × Nat))
  /-- Input queue of each RIND_A (R325): furrow, slot, generation and the room taken in the look-aside store; and the bytes of
  that store in use. -/
  decQ : Sp (List (Nat × Nat × Nat × Nat))
  laUsed : Sp Nat
  /-- Agents that wait for the lease, in the order of their requests, and the holder's last access (R315). -/
  waiting : List Nat
  leaseAt : Nat
  deriving DecidableEq, Repr

/-- A port of a strip outside its registers (R342 to R359). -/
structure PortSt where
  /-- Frames that stand at the strip for the port, oldest first, and the PFC frames ahead of them with their launch times
  (R277, R297). -/
  txQ : List Pkt
  pfcQ : List (List Byte × Nat)
  /-- End of the received pause of each priority, in 1/1,600 ns (R344). -/
  pause : Sp Nat
  /-- Which attempt runs: 0 the configured or current mode, k the FALLBACK entry k (R346, R349). -/
  attempt : Nat
  /-- The mode in which the port was last UP (R348). -/
  lastMode : Nat
  /-- The port waits for an engine (R354). -/
  waiting : Bool
  /-- Next sequenceId of peer-delay requests; the outstanding request with its t1; t4 - t1 and t2 of a two-step response, less
  the corrections (R357). -/
  pdSeq : Nat
  pdReq : Option (Nat × Nat)
  pdResp : Option (Int × Int)
  /-- Accepted samples since the last link flap, latest first, at most 5. -/
  samples : List Nat
  /-- The delay D that the headland need in force was computed with (R235). -/
  dUsed : Nat
  deriving DecidableEq, Repr

/-- The strips outside their registers. -/
structure StripSt where
  /-- Ports by number. -/
  ports : Sp PortSt
  /-- Frames that the device has put on the wire: port and bytes (the model's record). -/
  wire : List (Nat × List Byte)
  /-- Groups whose rewrite is due (R351): 1, or 2 plus the port whose state change caused it. -/
  rewrite : Sp Nat
  /-- Whether the adaptation engines have started (R458). -/
  enginesOn : Bool
  /-- Next lane of the continuous adaptation of each engine: key 4 s + e (R355). -/
  adapt : Sp Nat
  deriving DecidableEq, Repr

/-- What the exchange of R410 and a handover are to send: an entry as it stands, the entry that a table holds for a key, or the packet
number of an association. -/
inductive SyncItem where
  | entry (e : JEntry)
  | set (t key : Nat)
  | ckpt (i : Nat)
  deriving DecidableEq, Repr

/-- Pair operation outside its registers (R391 to R415). Maps are numbers of 256 bits, bit h for holding h. -/
structure PairSt where
  /-- The retransmit buffer, oldest first, with sequence numbers. -/
  buf : List (Nat × JEntry)
  /-- What R410 and R411 are still to send, in order. -/
  syncQ : List SyncItem
  /-- Highest acknowledged checkpoint of each association, and associations whose checkpoint waits for room (R402, R406):
  key kind * 2^17 + index. -/
  acked : Sp Nat
  ckptWait : Sp Nat
  /-- The peer's last checkpoint of each ESP association, and whether it was FINAL. -/
  peerCkpt : Sp (Nat × Bool)
  /-- An exchange of R410 is in progress; the number of the SYNC_DONE sent; whether the peer's has been accepted. -/
  syncing : Bool
  syncDone : Option Nat
  peerDone : Bool
  /-- Acknowledgement timeouts in a row without progress. -/
  timeouts : Nat
  /-- Holdings anchored before the takeover (R407). -/
  before : Nat
  /-- Time of the last accepted beat. -/
  beatAt : Option Nat
  /-- PAIR_ALIVE_OUT: its level, and whether the watchdog has stopped it (R395). -/
  aliveOut : Bool
  aliveStop : Bool
  /-- Tags of the pending AGENT_REQ and RESET_REQ, and the next tag. -/
  accTag : Nat
  resetTag : Nat
  nextTag : Nat
  /-- Frames that the device has sent (the model's record). -/
  sent : List (List Byte)
  deriving DecidableEq, Repr

/-- Resets, clocks, power and boot outside the registers (R442 to R467, R515 to R524). -/
structure RstSt where
  /-- Islands held in reset or in fallow: bit i for island i of R438. -/
  held : Nat
  /-- The device is fallow (R460). -/
  fallow : Bool
  /-- A warm reset runs, between its trigger and its release (R453). -/
  warm : Bool
  /-- REFCLK_A and REFCLK_B are present (R449, R524). -/
  refA : Bool
  refB : Bool
  /-- The boot copy in the service processor's SRAM (R454, R456). -/
  copy : List Byte
  /-- The record image in always-on SRAM, 2,048 words once it has been refreshed (R464). -/
  image : List W64
  /-- The record write in progress: its slot and bytes (R467). -/
  lb : Option (Nat × List Byte)
  /-- The last valid die temperature, °C, and whether the last HOLDUP_SENSE reading was valid (R462, R465). -/
  temp : Option Int
  senseOk : Bool
  /-- Time of the last accepted PPS edge (R462); a step of device time steps it too. -/
  ppsAt : Option Int
  /-- ALARM_OUT: device time has reached AON_ALARM since AON_ALARM was written (R518). -/
  alarm : Bool
  /-- A start-up configuration waits to be applied (R452 step 6). -/
  cfgDue : Bool
  /-- Units whose partial reset is in progress and is to be released at its end: strips, acres (R448). -/
  autoStrips : Nat
  autoAcres : Nat
  /-- The words of AON_PIN_OVR as the last reset of device scope took them (R450). -/
  pinOvr : Sp W64
  deriving DecidableEq, Repr

/-- The dump engine outside its registers (R503 to R506). -/
structure PerfSt where
  /-- Device time of an extra tally that has been requested (R503). -/
  now : Option Nat
  /-- The words of the last tally by offset (R511). -/
  snap : Sp W64
  /-- The record being written: its header words W1 to W6 without DONE_TIME, the PARTIAL mark and its data words. -/
  record : Option (List W64 × Bool × List W64)
  /-- Tallies skipped since the previous record. -/
  missed : Nat
  deriving DecidableEq, Repr

end Sys2Proof.Machine
end

