-- ==== Sys2Proof/Machine/Operands.lean ====
section
/-!
DEFINITION. The packet context (R42 to R44), the nanoword's field groups (R82 to R112) and the operands they name: field
extractors, ALU sources, key words and index lists.
-/
namespace Sys2Proof.Machine

/-! The packet context. -/

/-- A field of the packet context: its lowest bit, counted from bit 0 of W0, and its width (R42). -/
def ctxFld (word lo w : Nat) : Fld := ⟨64 * word + lo, w⟩

namespace Pc
def entryTime : Fld := ctxFld 0 0 64
def flowHash : Fld := ctxFld 1 0 32
def domain : Fld := ctxFld 1 32 12
def ingressPort : Fld := ctxFld 1 44 9
def holding : Fld := ctxFld 1 53 8
def pass : Fld := ctxFld 1 61 2
def epoch : Fld := ctxFld 1 63 1
def egressQueue : Fld := ctxFld 2 0 16
def mcastGroup : Fld := ctxFld 2 16 16
def disposition : Fld := ctxFld 2 32 4
def color : Fld := ctxFld 2 36 2
def puntReason : Fld := ctxFld 2 38 8
def dropReason : Fld := ctxFld 2 46 8
def collectFault : Fld := ctxFld 2 54 5
def flags : Fld := ctxFld 3 0 32
def upc : Fld := ctxFld 3 32 10
def ret : Fld := ctxFld 3 42 10
def safeSteps : Fld := ctxFld 3 52 6
/-- Header-instance entry k (R42, R126). -/
def hdr (k : Nat) : Fld := ctxFld (4 + k / 4) (16 * (k % 4)) 16
/-- Result word n. -/
def result (n : Nat) : Fld := ctxFld (12 + n) 0 64
/-- Scratch word n. -/
def scratch (n : Nat) : Fld := ctxFld (16 + n) 0 64
/-- Flag bit n of PC.flags (R44). -/
def flag (n : Nat) : Fld := ctxFld 3 n 1
end Pc

/-- The value of a context field. -/
def pcGet (p : Pkt) (f : Fld) : Nat := bits p.ctx.toNat f.lo f.w

/-- The packet with one context field replaced. -/
def pcSet (p : Pkt) (f : Fld) (v : Nat) : Pkt := { p with ctx := BitVec.ofNat 2048 (setBits p.ctx.toNat f.lo f.w v) }

/-- Context word n; a word past W31 reads as zero. -/
def ctxWord (p : Pkt) (n : Nat) : W64 := BitVec.ofNat 64 (if n < 32 then bits p.ctx.toNat (64 * n) 64 else 0)

/-- Whether header instance k is present (R126). -/
def hdrPresent (p : Pkt) (k : Nat) : Bool := bit (pcGet p (Pc.hdr k)) 15

/-- Byte offset of header instance k in the frame (R126). -/
def hdrOffset (p : Pkt) (k : Nat) : Nat := bits (pcGet p (Pc.hdr k)) 0 9

/-- The header window: the first 512 bytes of the frame; bits beyond it read as zero (R87). -/
def window (p : Pkt) : List Byte := p.frame.take 512

/-- The event conditions of R40: bit n for code n, 0x0A to 0x19. -/
def setCond (p : Pkt) (code : Nat) (v : Bool) : Pkt := { p with conds := setBits p.conds code 1 (b2n v) }

/-! The nanoword. -/

/-- A field extractor (R86). -/
def extract (p : Pkt) (g : XGroup) : W64 :=
  let w := g.width + 1
  let raw : Nat :=
    if g.src = 0 then 0
    else if g.src = 1 then (if hdrPresent p g.inst then netBits (window p) (8 * hdrOffset p g.inst + g.offset) w else 0)
    else if g.src = 2 then bits p.ctx.toNat g.offset w
    else netBits (window p) g.offset w
  let ext := if g.sext ∧ g.src ≠ 0 then ofSigned 64 (toSigned w raw) else raw
  BitVec.ofNat 64 (ext * 2 ^ g.shl)

/-- The output of extractor n, as the row-step's latch holds it. -/
def xOut (p : Pkt) (n : Nat) : W64 := if n = 0 then p.x0 else if n = 1 then p.x1 else if n = 2 then p.x2 else p.x3

/-- An ALU operand (R88): `s` is SA or SB, `cw` the context word, `alu` which ALU reads it, `imm` the microword's IMM. -/
def aluOperand (p : Pkt) (alu s cw k imm : Nat) : W64 :=
  if s < 4 then xOut p s
  else if s = 4 then ctxWord p cw
  else if s = 5 then BitVec.ofNat 64 k
  else if s = 6 then BitVec.ofNat 64 imm
  else if alu = 1 then p.y0 else 0

/-- The source of a counter's or meter's index (R103). -/
def indexSource (p : Pkt) (isrc : Nat) : W64 :=
  if isrc = 0 then p.y0 else if isrc = 1 then p.y1 else if isrc = 2 then p.x2 else p.x3

/-- The key words that KMODE and KSRC name (R94). -/
def keyWords (p : Pkt) (kmode : Bool) (ksrc : Nat) : List W64 :=
  if kmode then (List.range (ksrc / 32 + 1)).map fun i => ctxWord p (ksrc % 32 + i)
  else ((List.range 4).filter fun n => bit ksrc n).map (xOut p)

/-- The base of a COLLECT (R97). -/
def collectBase (p : Pkt) (bsrc : Nat) : Nat :=
  (if bsrc = 0 then 0 else if bsrc = 1 then p.y0.toNat else if bsrc = 2 then p.y1.toNat else p.x0.toNat) % 2 ^ 32

/-- The offset of element k in the index list that begins at a context word (R97). -/
def collectOffset (p : Pkt) (list k : Nat) : Nat := bits (ctxWord p (list + k / 4)).toNat (16 * (k % 4)) 16

/-- Bytes of context words from W[n] onward, each word most significant byte first (R111). -/
def ctxBytes (p : Pkt) (n len : Nat) : List Byte :=
  (((List.range (ceilDiv len 8)).map fun i => beBytes 8 (ctxWord p (n + i)).toNat).flatten).take len

/-- The field groups of a nanoword (R82). -/
def nanoX (nw n : Nat) : XGroup :=
  let b := 32 * n
  ⟨bit nw (b + 31), bits nw (b + 25) 6, bits nw (b + 19) 6, bits nw (b + 7) 12, bits nw (b + 2) 5, bits nw b 2⟩

/-- The ALU group of ALU 0 or 1 (R88). -/
def nanoAlu (nw n : Nat) : AluGroup :=
  let b := 128 + 38 * n
  ⟨bit nw (b + 37), bits nw (b + 21) 16, bits nw (b + 16) 5, bits nw (b + 11) 5, bits nw (b + 8) 3, bits nw (b + 5) 3⟩

/-- The operation of ALU 0 or 1 (R89). -/
def nanoAluOp (nw n : Nat) : Nat := bits nw (128 + 38 * n) 5

/-- The metadata write port (R91). -/
def nanoMw (nw : Nat) : MwGroup := ⟨bits nw 222 3, bits nw 216 6, bits nw 210 6, bits nw 205 5⟩
def nanoMwEn (nw : Nat) : Bool := bit nw 204

/-- A lookup port (R93). -/
def nanoL (nw n : Nat) : LGroup :=
  let b := 225 + 18 * n
  ⟨bits nw (b + 16) 2, bits nw (b + 8) 8, bit nw (b + 7), bits nw (b + 1) 6⟩
def nanoLEn (nw n : Nat) : Bool := bit nw (225 + 18 * n)

/-- COLLECT (R97). -/
def nanoCl (nw : Nat) : ClGroup := ⟨bits nw 279 4, bits nw 275 4, bits nw 270 5, bits nw 268 2, bits nw 262 6⟩
def nanoClEn (nw : Nat) : Bool := bit nw 261

/-- The request group (R101). -/
def nanoRq (nw : Nat) : RqGroup := ⟨bits nw 301 2, bits nw 293 8, bit nw 292, bits nw 286 6⟩
def nanoRqKind (nw : Nat) : Nat := bits nw 283 3

/-- An edit-list builder (R110). -/
def nanoE (nw n : Nat) : EGroup :=
  let b := 303 + 28 * n
  ⟨bits nw (b + 23) 5, bits nw (b + 16) 7, bits nw (b + 8) 8, bits nw (b + 3) 5⟩
def nanoEOp (nw n : Nat) : Nat := bits nw (303 + 28 * n) 3

/-- A counter operation (R103). -/
def nanoC (nw n : Nat) : CGroup :=
  let b := 359 + 11 * n
  ⟨bits nw (b + 9) 2, bits nw (b + 7) 2, bits nw (b + 1) 6⟩
def nanoCEn (nw n : Nat) : Bool := bit nw (359 + 11 * n)

/-- The meter operation (R104). -/
def nanoMeEn (nw : Nat) : Bool := bit nw 381
def nanoMeSrc (nw : Nat) : Nat := bits nw 382 2

/-- Flags, mirror and disposition (R105, R106). -/
def nanoFset (nw : Nat) : Nat := bits nw 384 16
def nanoFclr (nw : Nat) : Nat := bits nw 400 16
def nanoDpEn (nw : Nat) : Bool := bit nw 416
def nanoDpValue (nw : Nat) : Nat := bits nw 417 4
def nanoDpReason (nw : Nat) : Nat := bits nw 421 8
def nanoMir (nw : Nat) : Nat := bits nw 429 2

/-! The microword (R37). -/
def uSeq (u : Nat) : Nat := bits u 29 3
def uCond (u : Nat) : Nat := bits u 23 6
def uTarget (u : Nat) : Nat := bits u 13 10
def uNano (u : Nat) : Nat := bits u 5 8
def uImm (u : Nat) : Nat := bits u 1 4
def uSafe (u : Nat) : Bool := bit u 0

end Sys2Proof.Machine
end

