-- ==== Sys2Proof/Machine/RegNames.lean ====
section
/-!
DEFINITION. The offsets (from BAR0) of the device's registers and the places of their fields, as the register and field tables
of spec/ give them; the arguments of an offset are the indices of the register's array. HSTATE, HTRANS and HPORT are the
tables' STATE, TRANS and PORT of R149.
-/
namespace Sys2Proof.Machine.Reg

/-- R4. -/
def GLOBAL_ID : Nat := 0x0
def GLOBAL_ID_RIND_PRESENT : Fld := ⟨34, 14⟩
def GLOBAL_ID_STACK_PRESENT : Fld := ⟨32, 2⟩
def GLOBAL_ID_ACRE_PRESENT : Fld := ⟨28, 4⟩
def GLOBAL_ID_STRIP_PRESENT : Fld := ⟨20, 8⟩
def GLOBAL_ID_STEPPING : Fld := ⟨16, 4⟩
def GLOBAL_ID_PART_CODE : Fld := ⟨0, 16⟩
/-- R21. -/
def FLOW_HASH_SEED : Nat := 0x8
def FLOW_HASH_SEED_SEED : Fld := ⟨0, 32⟩
/-- R23. -/
def GLOBAL_CONFLICT : Nat := 0x10
def GLOBAL_CONFLICT_VALID : Fld := ⟨63, 1⟩
def GLOBAL_CONFLICT_MORE : Fld := ⟨62, 1⟩
def GLOBAL_CONFLICT_COUNT : Fld := ⟨32, 16⟩
def GLOBAL_CONFLICT_LOSER : Fld := ⟨24, 8⟩
def GLOBAL_CONFLICT_WINNER : Fld := ⟨16, 8⟩
def GLOBAL_CONFLICT_KIND : Fld := ⟨10, 2⟩
def GLOBAL_CONFLICT_INDEX : Fld := ⟨0, 10⟩
/-- R20. -/
def FURROW_MAP (a k : Nat) : Nat := 0x1050000 + 0x100000 * a + 8 * k
def FURROW_MAP_FURROW_ODD : Fld := ⟨32, 5⟩
def FURROW_MAP_FURROW_EVEN : Fld := ⟨0, 5⟩
/-- R20. -/
def ACRE_MAP (a k : Nat) : Nat := 0x1050400 + 0x100000 * a + 8 * k
def ACRE_MAP_ACRE_ODD : Fld := ⟨32, 2⟩
def ACRE_MAP_ACRE_EVEN : Fld := ⟨0, 2⟩
/-- R80. -/
def FURROW_STATUS (a f : Nat) : Nat := 0x1000000 + 0x100000 * a + 0x4000 * f
def FURROW_STATUS_EXIT_HELD : Fld := ⟨32, 8⟩
def FURROW_STATUS_PARKED : Fld := ⟨10, 11⟩
def FURROW_STATUS_IN_ROWS : Fld := ⟨0, 10⟩
/-- R80. -/
def FURROW_TRAP (a f : Nat) : Nat := 0x1000008 + 0x100000 * a + 0x4000 * f
def FURROW_TRAP_COUNT : Fld := ⟨32, 32⟩
def FURROW_TRAP_ROW : Fld := ⟨22, 5⟩
def FURROW_TRAP_UPC : Fld := ⟨12, 10⟩
def FURROW_TRAP_CODE : Fld := ⟨8, 4⟩
def FURROW_TRAP_VALID : Fld := ⟨0, 1⟩
/-- R80. -/
def FURROW_DROP (a f k : Nat) : Nat := 0x1000100 + 0x100000 * a + 0x4000 * f + 8 * k
/-- R118. -/
def FURROW_OPCNT (a f k : Nat) : Nat := 0x1000200 + 0x100000 * a + 0x4000 * f + 8 * k
/-- R508. -/
def FURROW_CYCLES (a f : Nat) : Nat := 0x1000300 + 0x100000 * a + 0x4000 * f
/-- R509. -/
def FURROW_TD (a f r c : Nat) : Nat := 0x1000400 + 0x100000 * a + 0x4000 * f + 32 * r + 8 * c
/-- R107. -/
def FURROW_RDROP (a f k : Nat) : Nat := 0x1000800 + 0x100000 * a + 0x4000 * f + 8 * k
/-- R71. -/
def FURROW_ROLE (a f : Nat) : Nat := 0x1050800 + 0x100000 * a + 8 * f
def FURROW_ROLE_LAST_ERR : Fld := ⟨12, 4⟩
def FURROW_ROLE_BUSY : Fld := ⟨8, 1⟩
def FURROW_ROLE_REQUEST : Fld := ⟨4, 3⟩
def FURROW_ROLE_ROLE : Fld := ⟨0, 3⟩
/-- R57. -/
def PKT_DEADLINE (a : Nat) : Nat := 0x1050900 + 0x100000 * a
def PKT_DEADLINE_NS : Fld := ⟨0, 15⟩
/-- R75. -/
def REHASH_HOLD (a : Nat) : Nat := 0x1050908 + 0x100000 * a
def REHASH_HOLD_NS : Fld := ⟨0, 17⟩
/-- R80. -/
def REHASH_STATUS (a : Nat) : Nat := 0x1050910 + 0x100000 * a
def REHASH_STATUS_EXPIRED : Fld := ⟨48, 1⟩
def REHASH_STATUS_DROPS : Fld := ⟨32, 16⟩
def REHASH_STATUS_HELD : Fld := ⟨20, 11⟩
def REHASH_STATUS_TO : Fld := ⟨14, 5⟩
def REHASH_STATUS_FROM : Fld := ⟨9, 5⟩
def REHASH_STATUS_ENTRY : Fld := ⟨1, 8⟩
def REHASH_STATUS_ACTIVE : Fld := ⟨0, 1⟩
/-- R64. -/
def QUIESCE_STATUS (a : Nat) : Nat := 0x1050918 + 0x100000 * a
def QUIESCE_STATUS_HELD : Fld := ⟨16, 16⟩
def QUIESCE_STATUS_REACHED : Fld := ⟨4, 1⟩
def QUIESCE_STATUS_KIND : Fld := ⟨1, 3⟩
def QUIESCE_STATUS_PENDING : Fld := ⟨0, 1⟩
/-- R72. -/
def TAKEOVER_STATUS (a : Nat) : Nat := 0x1050920 + 0x100000 * a
def TAKEOVER_STATUS_DURATION_NS : Fld := ⟨32, 32⟩
def TAKEOVER_STATUS_DROPPED : Fld := ⟨16, 16⟩
def TAKEOVER_STATUS_REPLACEMENT : Fld := ⟨6, 5⟩
def TAKEOVER_STATUS_FAILED : Fld := ⟨1, 5⟩
def TAKEOVER_STATUS_VALID : Fld := ⟨0, 1⟩
/-- R69. -/
def PROG_BANK_SEL : Nat := 0x3FF0000
def PROG_BANK_SEL_BANK : Fld := ⟨0, 1⟩
/-- R69. -/
def PROG_EPOCH : Nat := 0x3FF0008
def PROG_EPOCH_SWITCHES : Fld := ⟨16, 16⟩
def PROG_EPOCH_SWITCH_PENDING : Fld := ⟨3, 1⟩
def PROG_EPOCH_DRAINING : Fld := ⟨2, 1⟩
def PROG_EPOCH_ACTIVE_VALID : Fld := ⟨1, 1⟩
def PROG_EPOCH_EPOCH : Fld := ⟨0, 1⟩
/-- R68. -/
def PROG_LOAD : Nat := 0x3FF0010
def PROG_LOAD_DISARM : Fld := ⟨1, 1⟩
def PROG_LOAD_START : Fld := ⟨0, 1⟩
/-- R81. -/
def PROG_STATUS : Nat := 0x3FF0018
def PROG_STATUS_ERROR_ROW : Fld := ⟨44, 5⟩
def PROG_STATUS_ERROR : Fld := ⟨40, 4⟩
def PROG_STATUS_WRITE_REJECTS : Fld := ⟨24, 16⟩
def PROG_STATUS_ROTATION_ID_LOW : Fld := ⟨16, 8⟩
def PROG_STATUS_STATE_B : Fld := ⟨4, 3⟩
def PROG_STATUS_STATE_A : Fld := ⟨0, 3⟩
/-- R123. -/
def HSTATE (n i w : Nat) : Nat := 0x1400000 + 0x20000 * n + 32 * i + 8 * w
/-- R124. -/
def HTRANS (n t w : Nat) : Nat := 0x1402000 + 0x20000 * n + 16 * t + 8 * w
/-- R131. -/
def HOLD_RULE (n i w : Nat) : Nat := 0x140A000 + 0x20000 * n + 16 * i + 8 * w
/-- R130. -/
def HPORT (n q : Nat) : Nat := 0x140E000 + 0x20000 * n + 8 * q
def HPORT_FRAG_DOM : Fld := ⟨21, 8⟩
def HPORT_FRAG_EN : Fld := ⟨20, 1⟩
def HPORT_ERR_MODE : Fld := ⟨18, 2⟩
def HPORT_RULE_EN : Fld := ⟨17, 1⟩
def HPORT_DEFAULT_VALID : Fld := ⟨16, 1⟩
def HPORT_DEFAULT_HOLDING : Fld := ⟨8, 8⟩
def HPORT_START_STATE : Fld := ⟨0, 8⟩
/-- R135. -/
def HARROW_WDATA (n i : Nat) : Nat := 0x140F000 + 0x20000 * n + 8 * i
/-- R135. -/
def HARROW_WCMD (n : Nat) : Nat := 0x140F020 + 0x20000 * n
def HARROW_WCMD_INDEX : Fld := ⟨2, 11⟩
def HARROW_WCMD_TABLE : Fld := ⟨0, 2⟩
/-- R134. -/
def HARROW_CFG (n : Nat) : Nat := 0x140F028 + 0x20000 * n
def HARROW_CFG_INJECT_START : Fld := ⟨8, 8⟩
def HARROW_CFG_DECRYPT_START : Fld := ⟨0, 8⟩
/-- R138. -/
def FRAG_CFG (n : Nat) : Nat := 0x140F030 + 0x20000 * n
def FRAG_CFG_WAIT_US : Fld := ⟨16, 16⟩
def FRAG_CFG_LIFE_US : Fld := ⟨0, 16⟩
/-- R151. -/
def HARROW_STATUS (n : Nat) : Nat := 0x140F038 + 0x20000 * n
def HARROW_STATUS_FRAG_ENTRIES : Fld := ⟨32, 17⟩
def HARROW_STATUS_HELD_CELLS : Fld := ⟨12, 13⟩
def HARROW_STATUS_HELD : Fld := ⟨0, 11⟩
/-- R128. -/
def HARROW_ERR_LAST (n : Nat) : Nat := 0x140F040 + 0x20000 * n
def HARROW_ERR_LAST_COUNT : Fld := ⟨32, 32⟩
def HARROW_ERR_LAST_PORT : Fld := ⟨21, 9⟩
def HARROW_ERR_LAST_CURSOR : Fld := ⟨12, 9⟩
def HARROW_ERR_LAST_STATE : Fld := ⟨4, 8⟩
def HARROW_ERR_LAST_CAUSE : Fld := ⟨1, 3⟩
def HARROW_ERR_LAST_VALID : Fld := ⟨0, 1⟩
/-- R150. -/
def HARROW_DROP (n k : Nat) : Nat := 0x140F100 + 0x20000 * n + 8 * k
/-- R150. -/
def HARROW_EVT (n k : Nat) : Nat := 0x140F200 + 0x20000 * n + 8 * k
/-- R147. -/
def PUNT_POLICER (r : Nat) : Nat := 0x1410000 + 8 * r
def PUNT_POLICER_RING : Fld := ⟨40, 6⟩
def PUNT_POLICER_BURST : Fld := ⟨24, 16⟩
def PUNT_POLICER_RATE_PPS : Fld := ⟨0, 24⟩
/-- R147. -/
def PUNT_CEILING : Nat := 0x1410800
def PUNT_CEILING_BURST : Fld := ⟨24, 16⟩
def PUNT_CEILING_RATE_PPS : Fld := ⟨0, 24⟩
/-- R132. -/
def HOLDING_OPEN (i : Nat) : Nat := 0x1410808 + 8 * i
/-- R147. -/
def PUNT_CNT (r w : Nat) : Nat := 0x1411000 + 16 * r + 8 * w
/-- R187. -/
def ORCHARD_CMD : Nat := 0x1500000
def ORCHARD_CMD_STASH : Fld := ⟨38, 1⟩
def ORCHARD_CMD_INDEX : Fld := ⟨13, 25⟩
def ORCHARD_CMD_TABLE : Fld := ⟨7, 6⟩
def ORCHARD_CMD_OP : Fld := ⟨0, 3⟩
/-- R188. -/
def ORCHARD_STATUS : Nat := 0x1500008
def ORCHARD_STATUS_DONE : Fld := ⟨40, 24⟩
def ORCHARD_STATUS_INDEX : Fld := ⟨13, 25⟩
def ORCHARD_STATUS_RESULT : Fld := ⟨5, 4⟩
def ORCHARD_STATUS_BUSY : Fld := ⟨0, 1⟩
/-- R187. -/
def ORCHARD_DATA (i : Nat) : Nat := 0x1500100 + 8 * i
/-- R187. -/
def ORCHARD_KEY (i : Nat) : Nat := 0x1500200 + 8 * i
/-- R162. -/
def PROFILE_SEL : Nat := 0x1500300
def PROFILE_SEL_SLOT : Fld := ⟨0, 1⟩
/-- R162. -/
def PROFILE_STATUS : Nat := 0x1500308
def PROFILE_STATUS_CALENDAR_ID : Fld := ⟨32, 32⟩
def PROFILE_STATUS_REJECTS : Fld := ⟨16, 16⟩
def PROFILE_STATUS_ERROR : Fld := ⟨12, 4⟩
def PROFILE_STATUS_PENDING : Fld := ⟨2, 1⟩
def PROFILE_STATUS_LOADED : Fld := ⟨1, 1⟩
def PROFILE_STATUS_SLOT : Fld := ⟨0, 1⟩
/-- R182. -/
def LEARN_CFG : Nat := 0x1500310
def LEARN_CFG_MOVE_HOLD : Fld := ⟨16, 8⟩
def LEARN_CFG_MOVE_LIMIT : Fld := ⟨0, 4⟩
/-- R185. -/
def AGE_CFG : Nat := 0x1500318
def AGE_CFG_AUTO : Fld := ⟨32, 1⟩
def AGE_CFG_AGE_LIMIT : Fld := ⟨16, 16⟩
def AGE_CFG_AGE_TICK : Fld := ⟨0, 16⟩
/-- R178. -/
def LEARN_STATUS : Nat := 0x1500320
def LEARN_STATUS_SEQ_HI : Fld := ⟨17, 47⟩
def LEARN_STATUS_DEPTH : Fld := ⟨0, 17⟩
/-- R189. -/
def GLEAN_STATUS : Nat := 0x1500328
def GLEAN_STATUS_PASSES : Fld := ⟨32, 32⟩
def GLEAN_STATUS_BLOCK : Fld := ⟨21, 11⟩
def GLEAN_STATUS_ROW : Fld := ⟨11, 10⟩
def GLEAN_STATUS_QUARTER : Fld := ⟨9, 2⟩
def GLEAN_STATUS_LOST : Fld := ⟨0, 1⟩
/-- R190. -/
def ORCHARD_DEV_CNT (k : Nat) : Nat := 0x1500330 + 8 * k
/-- R191. -/
def FILTER_SEL : Nat := 0x1500350
def FILTER_SEL_TABLE : Fld := ⟨0, 6⟩
/-- R155. -/
def TABLE_DESC (s t : Nat) : Nat := 0x1510000 + 0x2000 * s + 8 * t
def TABLE_DESC_VALID : Fld := ⟨63, 1⟩
def TABLE_DESC_MAX_KICKS : Fld := ⟨40, 6⟩
def TABLE_DESC_REFRESH : Fld := ⟨39, 1⟩
def TABLE_DESC_LEARN : Fld := ⟨38, 1⟩
def TABLE_DESC_KEYBITS : Fld := ⟨29, 9⟩
def TABLE_DESC_WIDE : Fld := ⟨28, 1⟩
def TABLE_DESC_KIND : Fld := ⟨25, 3⟩
def TABLE_DESC_NBLK : Fld := ⟨12, 13⟩
def TABLE_DESC_BASE : Fld := ⟨0, 11⟩
/-- R165. -/
def TABLE_SEED (s t : Nat) : Nat := 0x1510200 + 0x2000 * s + 8 * t
def TABLE_SEED_SEED2 : Fld := ⟨32, 32⟩
def TABLE_SEED_SEED1 : Fld := ⟨0, 32⟩
/-- R181. -/
def MOVE_MASK (s t : Nat) : Nat := 0x1510400 + 0x2000 * s + 8 * t
/-- R158. -/
def TYPE_DESC (s y w : Nat) : Nat := 0x1510800 + 0x2000 * s + 16 * y + 8 * w
def TYPE_DESC_SIZE : Fld := ⟨0, 25⟩
def TYPE_DESC_VALID : Fld := ⟨63, 1⟩
def TYPE_DESC_CPORTS : Fld := ⟨43, 1⟩
def TYPE_DESC_NMAX : Fld := ⟨39, 4⟩
def TYPE_DESC_ROWMASK : Fld := ⟨15, 24⟩
def TYPE_DESC_D : Fld := ⟨10, 5⟩
def TYPE_DESC_KIND : Fld := ⟨7, 3⟩
def TYPE_DESC_TABLE : Fld := ⟨0, 6⟩
/-- R190. -/
def TABLE_CNT (t k : Nat) : Nat := 0x1520000 + 64 * t + 8 * k
/-- R175. -/
def FILTER (h w : Nat) : Nat := 0x1530000 + 32 * h + 8 * w
/-- R203. -/
def ASSOC_CMD : Nat := 0x1600000
def ASSOC_CMD_RAW : Fld := ⟨37, 1⟩
def ASSOC_CMD_KEEP_SRC : Fld := ⟨36, 1⟩
def ASSOC_CMD_SRC_INDEX : Fld := ⟨21, 15⟩
def ASSOC_CMD_INDEX : Fld := ⟨6, 15⟩
def ASSOC_CMD_ACRE : Fld := ⟨4, 2⟩
def ASSOC_CMD_OP : Fld := ⟨0, 3⟩
/-- R206. -/
def ASSOC_STATUS : Nat := 0x1600008
def ASSOC_STATUS_DONE : Fld := ⟨40, 24⟩
def ASSOC_STATUS_COUNT : Fld := ⟨32, 8⟩
def ASSOC_STATUS_INDEX : Fld := ⟨16, 15⟩
def ASSOC_STATUS_RESULT : Fld := ⟨12, 4⟩
def ASSOC_STATUS_BUSY : Fld := ⟨0, 1⟩
/-- R192. -/
def ASSOC_DATA (i : Nat) : Nat := 0x1600100 + 8 * i
/-- R194. -/
def ASSOC_CFG : Nat := 0x1600200
def ASSOC_CFG_MODE : Fld := ⟨0, 1⟩
/-- R210. -/
def ASSOC_GLEAN_STATUS : Nat := 0x1600208
def ASSOC_GLEAN_STATUS_PASSES : Fld := ⟨32, 32⟩
def ASSOC_GLEAN_STATUS_ACRE : Fld := ⟨30, 2⟩
def ASSOC_GLEAN_STATUS_INDEX : Fld := ⟨15, 15⟩
def ASSOC_GLEAN_STATUS_LOST : Fld := ⟨0, 1⟩
/-- R213. -/
def ASSOC_CNT (a k : Nat) : Nat := 0x1600300 + 64 * a + 8 * k
/-- R196. -/
def SEG_MAP (a h : Nat) : Nat := 0x1610000 + 0x800 * a + 8 * h
/-- R226. -/
def POOL_CFG (p : Nat) : Nat := 0x1700000 + 8 * p
def POOL_CFG_FALLBACK : Fld := ⟨18, 6⟩
def POOL_CFG_LIMIT : Fld := ⟨0, 18⟩
/-- R228. -/
def HOLDING_POOL (h : Nat) : Nat := 0x1700200 + 8 * h
def HOLDING_POOL_POOL : Fld := ⟨0, 6⟩
/-- R228. -/
def LL_POOL (c : Nat) : Nat := 0x1700A00 + 8 * c
def LL_POOL_VALID : Fld := ⟨6, 1⟩
def LL_POOL_POOL : Fld := ⟨0, 6⟩
/-- R228. -/
def CAPTURE_POOL : Nat := 0x1700A40
def CAPTURE_POOL_VALID : Fld := ⟨6, 1⟩
def CAPTURE_POOL_POOL : Fld := ⟨0, 6⟩
/-- R220. -/
def ACRE_MOVE_CFG : Nat := 0x1700A48
def ACRE_MOVE_CFG_HOLD_NS : Fld := ⟨0, 17⟩
/-- R220. -/
def ACRE_MOVE_STATUS (a : Nat) : Nat := 0x1700A50 + 8 * a
def ACRE_MOVE_STATUS_INFLIGHT : Fld := ⟨32, 32⟩
def ACRE_MOVE_STATUS_HELD : Fld := ⟨14, 14⟩
def ACRE_MOVE_STATUS_TO : Fld := ⟨12, 2⟩
def ACRE_MOVE_STATUS_FROM : Fld := ⟨10, 2⟩
def ACRE_MOVE_STATUS_ENTRY : Fld := ⟨4, 6⟩
def ACRE_MOVE_STATUS_PHASE : Fld := ⟨1, 2⟩
def ACRE_MOVE_STATUS_EXPIRED : Fld := ⟨0, 1⟩
/-- R236. -/
def HEADLAND_STATUS : Nat := 0x1700A80
def HEADLAND_STATUS_SHORT : Fld := ⟨36, 13⟩
def HEADLAND_STATUS_USED : Fld := ⟨18, 18⟩
def HEADLAND_STATUS_RESERVED : Fld := ⟨0, 18⟩
/-- R230. -/
def PTR_ERR_LAST : Nat := 0x1700A88
def PTR_ERR_LAST_COUNT : Fld := ⟨48, 16⟩
def PTR_ERR_LAST_POINTER : Fld := ⟨6, 32⟩
def PTR_ERR_LAST_ACRE : Fld := ⟨4, 2⟩
def PTR_ERR_LAST_KIND : Fld := ⟨1, 3⟩
def PTR_ERR_LAST_VALID : Fld := ⟨0, 1⟩
/-- R230. -/
def FREE_STATUS (m : Nat) : Nat := 0x1700B00 + 8 * m
def FREE_STATUS_LEAKED : Fld := ⟨20, 19⟩
def FREE_STATUS_FREE : Fld := ⟨0, 19⟩
/-- R232. -/
def MC_CMD : Nat := 0x1700C00
def MC_CMD_INDEX : Fld := ⟨3, 17⟩
def MC_CMD_OP : Fld := ⟨0, 3⟩
/-- R232. -/
def MC_STATUS : Nat := 0x1700C08
def MC_STATUS_RESULT : Fld := ⟨1, 4⟩
def MC_STATUS_BUSY : Fld := ⟨0, 1⟩
/-- R232. -/
def MC_DATA : Nat := 0x1700C10
/-- R227. -/
def POOL_USE (m p : Nat) : Nat := 0x1701000 + 0x200 * m + 8 * p
/-- R239. -/
def FABRIC_DROP (k : Nat) : Nat := 0x1701800 + 8 * k
/-- R239. -/
def FABRIC_CNT (m k : Nat) : Nat := 0x1701900 + 64 * m + 8 * k
/-- R233. -/
def PFC_CFG (p c : Nat) : Nat := 0x1710000 + 64 * p + 8 * c
def PFC_CFG_LOSSLESS : Fld := ⟨63, 1⟩
def PFC_CFG_XON_CELLS : Fld := ⟨21, 21⟩
def PFC_CFG_XOFF_CELLS : Fld := ⟨0, 21⟩
/-- R235. -/
def HL_PORT (p : Nat) : Nat := 0x1718000 + 8 * p
def HL_PORT_W_CELL : Fld := ⟨24, 8⟩
def HL_PORT_PEER_RESP : Fld := ⟨16, 8⟩
def HL_PORT_CABLE_M : Fld := ⟨0, 16⟩
/-- R233. -/
def PP_STATUS (p c : Nat) : Nat := 0x1720000 + 64 * p + 8 * c
def PP_STATUS_STATE : Fld := ⟨62, 2⟩
def PP_STATUS_SHORT : Fld := ⟨61, 1⟩
def PP_STATUS_MEASURED : Fld := ⟨60, 1⟩
def PP_STATUS_NEED : Fld := ⟨42, 18⟩
def PP_STATUS_HL_USED : Fld := ⟨21, 18⟩
def PP_STATUS_IPC : Fld := ⟨0, 21⟩
/-- R269. -/
def QUEUE_CMD : Nat := 0x1800000
def QUEUE_CMD_QUEUE : Fld := ⟨3, 16⟩
def QUEUE_CMD_OP : Fld := ⟨0, 3⟩
/-- R269. -/
def QUEUE_STATUS : Nat := 0x1800008
def QUEUE_STATUS_DEPTH : Fld := ⟨32, 32⟩
def QUEUE_STATUS_RESULT : Fld := ⟨1, 4⟩
def QUEUE_STATUS_BUSY : Fld := ⟨0, 1⟩
/-- R269. -/
def QUEUE_DATA (i : Nat) : Nat := 0x1800010 + 8 * i
/-- R243. -/
def QPROF (k w : Nat) : Nat := 0x1800100 + 64 * k + 8 * w
def QPROF_SPILL_EN : Fld := ⟨63, 1⟩
def QPROF_TAIL_CELLS : Fld := ⟨36, 18⟩
def QPROF_HEAD_CELLS : Fld := ⟨18, 18⟩
def QPROF_SPILL_ON_CELLS : Fld := ⟨0, 18⟩
def QPROF_MAX_PAGES : Fld := ⟨36, 25⟩
def QPROF_PANIC_CELLS : Fld := ⟨18, 18⟩
def QPROF_REFILL_CELLS : Fld := ⟨0, 18⟩
def QPROF_ECN_EN : Fld := ⟨48, 1⟩
def QPROF_ECN_RAMP : Fld := ⟨24, 24⟩
def QPROF_ECN_THRESHOLD : Fld := ⟨0, 24⟩
def QPROF_MAX_DEPTH : Fld := ⟨24, 24⟩
def QPROF_DROP_THRESHOLD : Fld := ⟨0, 24⟩
/-- R248. -/
def ECN_TARGET (i : Nat) : Nat := 0x1800600 + 8 * i
def ECN_TARGET_VALID : Fld := ⟨63, 1⟩
def ECN_TARGET_FAMILY : Fld := ⟨8, 1⟩
def ECN_TARGET_KIND : Fld := ⟨0, 6⟩
/-- R260. -/
def SPILL_REGION : Nat := 0x1800620
def SPILL_REGION_PAGES : Fld := ⟨32, 25⟩
def SPILL_REGION_BASE : Fld := ⟨0, 25⟩
/-- R260. -/
def SPILL_STATUS : Nat := 0x1800628
def SPILL_STATUS_SPILLING : Fld := ⟨53, 11⟩
def SPILL_STATUS_PAGES_LEAKED : Fld := ⟨28, 25⟩
def SPILL_STATUS_FREE : Fld := ⟨0, 25⟩
/-- R260. -/
def PAGE_ERR_LAST : Nat := 0x1800630
def PAGE_ERR_LAST_COUNT : Fld := ⟨48, 16⟩
def PAGE_ERR_LAST_QUEUE : Fld := ⟨32, 16⟩
def PAGE_ERR_LAST_PAGE : Fld := ⟨7, 25⟩
def PAGE_ERR_LAST_KIND : Fld := ⟨4, 3⟩
def PAGE_ERR_LAST_VALID : Fld := ⟨0, 1⟩
/-- R268. -/
def QUEUE_DROP (k : Nat) : Nat := 0x1800800 + 8 * k
/-- R268. -/
def QUEUE_CNT (k : Nat) : Nat := 0x1800900 + 8 * k
/-- R262. -/
def MIRROR_MAP (h : Nat) : Nat := 0x1801000 + 8 * h
def MIRROR_MAP_VALID : Fld := ⟨63, 1⟩
def MIRROR_MAP_SESSION : Fld := ⟨0, 4⟩
/-- R262. -/
def MIRROR_SESSION (s : Nat) : Nat := 0x1801800 + 8 * s
def MIRROR_SESSION_TO_QUEUE : Fld := ⟨63, 1⟩
def MIRROR_SESSION_TO_RING : Fld := ⟨62, 1⟩
def MIRROR_SESSION_RING : Fld := ⟨48, 4⟩
def MIRROR_SESSION_QUEUE : Fld := ⟨0, 16⟩
/-- R264. -/
def SAMPLE (p : Nat) : Nat := 0x1802000 + 8 * p
def SAMPLE_EN : Fld := ⟨63, 1⟩
def SAMPLE_RING : Fld := ⟨48, 4⟩
def SAMPLE_N : Fld := ⟨0, 24⟩
/-- R266. -/
def CAP_RING (r w : Nat) : Nat := 0x1803000 + 64 * r + 8 * w
def CAP_RING_BASE : Fld := ⟨0, 64⟩
def CAP_RING_ENABLE : Fld := ⟨63, 1⟩
def CAP_RING_DEST : Fld := ⟨62, 1⟩
def CAP_RING_MODE : Fld := ⟨61, 1⟩
def CAP_RING_NOTICE_EVERY : Fld := ⟨32, 16⟩
def CAP_RING_SLOTS : Fld := ⟨0, 24⟩
def CAP_RING_PROD : Fld := ⟨0, 64⟩
def CAP_RING_CONS : Fld := ⟨0, 64⟩
def CAP_RING_LOST : Fld := ⟨32, 32⟩
def CAP_RING_FULL_DROPS : Fld := ⟨0, 32⟩
/-- R305. -/
def DRILL_CMD : Nat := 0x1900000
def DRILL_CMD_INDEX : Fld := ⟨6, 20⟩
def DRILL_CMD_LEVEL : Fld := ⟨4, 2⟩
def DRILL_CMD_OP : Fld := ⟨0, 4⟩
/-- R305. -/
def DRILL_STATUS : Nat := 0x1900008
def DRILL_STATUS_DONE : Fld := ⟨40, 24⟩
def DRILL_STATUS_RESULT : Fld := ⟨1, 4⟩
def DRILL_STATUS_BUSY : Fld := ⟨0, 1⟩
/-- R305. -/
def DRILL_DATA (i : Nat) : Nat := 0x1900010 + 8 * i
/-- R282. -/
def PORT_CFG (p : Nat) : Nat := 0x1900100 + 8 * p
def PORT_CFG_WD_ACTION : Fld := ⟨50, 1⟩
def PORT_CFG_WD_US : Fld := ⟨32, 18⟩
def PORT_CFG_MTU : Fld := ⟨16, 14⟩
def PORT_CFG_PATH_NS : Fld := ⟨0, 8⟩
/-- R304. -/
def DRILL_DROP (k : Nat) : Nat := 0x1902000 + 8 * k
/-- R304. -/
def DRILL_CNT (k : Nat) : Nat := 0x1902080 + 8 * k
/-- R314. -/
def RIND_LOCK : Nat := 0x1A00000
def RIND_LOCK_EXPIRIES : Fld := ⟨48, 16⟩
def RIND_LOCK_LEASES : Fld := ⟨32, 16⟩
def RIND_LOCK_WAITING : Fld := ⟨8, 4⟩
def RIND_LOCK_GRANTED : Fld := ⟨7, 1⟩
def RIND_LOCK_OWNER : Fld := ⟨4, 3⟩
def RIND_LOCK_RELEASE : Fld := ⟨1, 1⟩
def RIND_LOCK_REQUEST : Fld := ⟨0, 1⟩
/-- R316. -/
def RIND_CMD : Nat := 0x1A00008
def RIND_CMD_INDEX : Fld := ⟨8, 17⟩
def RIND_CMD_KIND : Fld := ⟨4, 4⟩
def RIND_CMD_OP : Fld := ⟨0, 4⟩
/-- R317. -/
def RIND_STATUS : Nat := 0x1A00010
def RIND_STATUS_DONE : Fld := ⟨40, 24⟩
def RIND_STATUS_RESULT : Fld := ⟨4, 4⟩
def RIND_STATUS_BUSY : Fld := ⟨0, 1⟩
/-- R311. -/
def RIND_DATA (i : Nat) : Nat := 0x1A00100 + 8 * i
/-- R325. -/
def RIND_CFG : Nat := 0x1A00200
def RIND_CFG_ESP_KIND : Fld := ⟨0, 6⟩
/-- R309. -/
def RIND_HEALTH : Nat := 0x1A00208
def RIND_HEALTH_LOCK_REJECTS : Fld := ⟨16, 16⟩
def RIND_HEALTH_KEYGEN_PENDING : Fld := ⟨1, 1⟩
def RIND_HEALTH_ENTROPY_OK : Fld := ⟨0, 1⟩
/-- R334. -/
def RIND_DROP (k : Nat) : Nat := 0x1A00300 + 8 * k
/-- R336. -/
def ENG_STATUS (e : Nat) : Nat := 0x1A10000 + 0x1000 * e
def ENG_STATUS_QDEPTH : Fld := ⟨16, 16⟩
def ENG_STATUS_FULL : Fld := ⟨1, 1⟩
def ENG_STATUS_PRESENT : Fld := ⟨0, 1⟩
/-- R336. -/
def ENG_CNT (e k : Nat) : Nat := 0x1A10100 + 0x1000 * e + 8 * k
/-- R360. -/
def STRIP_CTRL (s : Nat) : Nat := 0x800000 + 0x100000 * s
def STRIP_CTRL_FALLOW : Fld := ⟨0, 1⟩
/-- R362. -/
def STRIP_STATUS (s : Nat) : Nat := 0x800008 + 0x100000 * s
def STRIP_STATUS_NOTICES_LOST : Fld := ⟨48, 16⟩
def STRIP_STATUS_STAGING_FREE : Fld := ⟨16, 25⟩
def STRIP_STATUS_PLL_LOCK : Fld := ⟨1, 1⟩
def STRIP_STATUS_FALLOW : Fld := ⟨0, 1⟩
/-- R354. -/
def ENGINE_STATUS (s i : Nat) : Nat := 0x800010 + 0x100000 * s + 8 * i
def ENGINE_STATUS_ADAPT_PASSES : Fld := ⟨32, 32⟩
def ENGINE_STATUS_TASK : Fld := ⟨16, 4⟩
def ENGINE_STATUS_PORT : Fld := ⟨0, 9⟩
/-- R338. -/
def PORT_MODE (s q : Nat) : Nat := 0x800100 + 0x100000 * s + 8 * q
def PORT_MODE_MAX_FRAME : Fld := ⟨16, 16⟩
def PORT_MODE_AN_EN : Fld := ⟨15, 1⟩
def PORT_MODE_IFACE : Fld := ⟨10, 2⟩
def PORT_MODE_SPEED : Fld := ⟨4, 4⟩
def PORT_MODE_ENABLE : Fld := ⟨0, 1⟩
/-- R348. -/
def FALLBACK (s q : Nat) : Nat := 0x800300 + 0x100000 * s + 8 * q
def FALLBACK_ENTRY2 : Fld := ⟨8, 4⟩
def FALLBACK_ENTRY1 : Fld := ⟨4, 4⟩
def FALLBACK_ENTRY0 : Fld := ⟨0, 4⟩
/-- R347. -/
def LINK_CFG (s q : Nat) : Nat := 0x800500 + 0x100000 * s + 8 * q
def LINK_CFG_WITHDRAW_RETRY_S : Fld := ⟨48, 16⟩
def LINK_CFG_RETRAIN_BUDGET_MS : Fld := ⟨36, 12⟩
def LINK_CFG_HOLDOFF_US : Fld := ⟨24, 12⟩
def LINK_CFG_UNCORR_LIMIT : Fld := ⟨16, 8⟩
def LINK_CFG_CORR_LIMIT : Fld := ⟨0, 16⟩
/-- R346. -/
def PORT_STATE (s q : Nat) : Nat := 0x800700 + 0x100000 * s + 8 * q
def PORT_STATE_ENGINE : Fld := ⟨12, 4⟩
def PORT_STATE_RF : Fld := ⟨11, 1⟩
def PORT_STATE_SIGNAL : Fld := ⟨10, 1⟩
def PORT_STATE_RETRYING : Fld := ⟨9, 1⟩
def PORT_STATE_COVERED : Fld := ⟨8, 1⟩
def PORT_STATE_CUR_SPEED : Fld := ⟨4, 4⟩
def PORT_STATE_STATE : Fld := ⟨0, 4⟩
/-- R343. -/
def PRIO_CFG (s q : Nat) : Nat := 0x800900 + 0x100000 * s + 8 * q
def PRIO_CFG_MODE : Fld := ⟨62, 2⟩
def PRIO_CFG_DEFAULT_PRIO : Fld := ⟨56, 3⟩
def PRIO_CFG_PCP_MAP : Fld := ⟨0, 24⟩
/-- R345. -/
def PFC_TX_CFG (s q : Nat) : Nat := 0x800B00 + 0x100000 * s + 8 * q
def PFC_TX_CFG_QUANTA : Fld := ⟨48, 16⟩
def PFC_TX_CFG_REFRESH_Q : Fld := ⟨32, 16⟩
def PFC_TX_CFG_XON_EN : Fld := ⟨8, 1⟩
/-- R344. -/
def PFC_RX_STATE (s q : Nat) : Nat := 0x800D00 + 0x100000 * s + 8 * q
def PFC_RX_STATE_PAUSED : Fld := ⟨0, 8⟩
/-- R357. -/
def PDELAY_CFG (s q : Nat) : Nat := 0x800F00 + 0x100000 * s + 8 * q
def PDELAY_CFG_EN : Fld := ⟨63, 1⟩
def PDELAY_CFG_RESPOND : Fld := ⟨62, 1⟩
def PDELAY_CFG_DOMAIN : Fld := ⟨48, 8⟩
def PDELAY_CFG_INTERVAL_MS : Fld := ⟨32, 16⟩
/-- R357. -/
def PDELAY_STATUS (s q : Nat) : Nat := 0x801100 + 0x100000 * s + 8 * q
def PDELAY_STATUS_MEASURED : Fld := ⟨63, 1⟩
def PDELAY_STATUS_D_NS : Fld := ⟨32, 18⟩
def PDELAY_STATUS_TIMEOUTS : Fld := ⟨16, 16⟩
def PDELAY_STATUS_SAMPLES : Fld := ⟨0, 16⟩
/-- R345. -/
def PORT_MAC (s q : Nat) : Nat := 0x801300 + 0x100000 * s + 8 * q
def PORT_MAC_MAC : Fld := ⟨0, 48⟩
/-- R362. -/
def LANE_CFG (s l : Nat) : Nat := 0x801500 + 0x100000 * s + 8 * l
def LANE_CFG_TX_INV : Fld := ⟨1, 1⟩
def LANE_CFG_RX_INV : Fld := ⟨0, 1⟩
/-- R343. -/
def DSCP_MAP (s q w : Nat) : Nat := 0x801800 + 0x100000 * s + 32 * q + 8 * w
/-- R361. -/
def STRIP_DROP (s k : Nat) : Nat := 0x802000 + 0x100000 * s + 8 * k
/-- R361. -/
def STRIP_CNT (s q k : Nat) : Nat := 0x804000 + 0x100000 * s + 0x80 * q + 8 * k
/-- R350. -/
def AGG_CFG : Nat := 0x870000
def AGG_CFG_EN : Fld := ⟨63, 1⟩
def AGG_CFG_TABLE : Fld := ⟨56, 6⟩
def AGG_CFG_BASE : Fld := ⟨0, 25⟩
/-- R351. -/
def AGG_STATUS : Nat := 0x870008
def AGG_STATUS_REWRITES : Fld := ⟨32, 32⟩
def AGG_STATUS_ERROR : Fld := ⟨1, 1⟩
def AGG_STATUS_BUSY : Fld := ⟨0, 1⟩
/-- R357. -/
def PTP_CLOCK_ID : Nat := 0x870010
/-- R350. -/
def AGG_GROUP (g : Nat) : Nat := 0x870800 + 8 * g
def AGG_GROUP_VALID : Fld := ⟨63, 1⟩
def AGG_GROUP_OUT_ON_RETRAIN : Fld := ⟨62, 1⟩
def AGG_GROUP_LIVE : Fld := ⟨8, 5⟩
def AGG_GROUP_MEMBERS : Fld := ⟨0, 5⟩
/-- R350. -/
def AGG_PORT (p w : Nat) : Nat := 0x871000 + 16 * p + 8 * w
def AGG_PORT_VALID : Fld := ⟨63, 1⟩
def AGG_PORT_GROUP : Fld := ⟨0, 8⟩
def AGG_PORT_WORD : Fld := ⟨0, 59⟩
/-- R368. -/
def DEEP_CFG : Nat := 0x1B00000
def DEEP_CFG_ROW_ACT_THRESHOLD : Fld := ⟨32, 16⟩
def DEEP_CFG_PAGE_IDLE_NS : Fld := ⟨16, 8⟩
def DEEP_CFG_CE_LIMIT : Fld := ⟨8, 8⟩
def DEEP_CFG_ORDER : Fld := ⟨0, 2⟩
/-- R366. -/
def DEEP_SPARE_CFG : Nat := 0x1B00008
def DEEP_SPARE_CFG_SPARE : Fld := ⟨0, 2⟩
/-- R367. -/
def DEEP_CTRL : Nat := 0x1B00010
def DEEP_CTRL_INIT : Fld := ⟨0, 1⟩
/-- R367. -/
def DEEP_STATUS : Nat := 0x1B00018
def DEEP_STATUS_RETIRED : Fld := ⟨24, 8⟩
def DEEP_STATUS_USABLE_GIB : Fld := ⟨16, 8⟩
def DEEP_STATUS_MIGRATING : Fld := ⟨6, 2⟩
def DEEP_STATUS_SPARE_FREE : Fld := ⟨4, 2⟩
def DEEP_STATUS_INIT_FAIL : Fld := ⟨2, 1⟩
def DEEP_STATUS_INIT_BUSY : Fld := ⟨1, 1⟩
def DEEP_STATUS_READY : Fld := ⟨0, 1⟩
/-- R385. -/
def DEEP_MIG_STATUS (k : Nat) : Nat := 0x1B00020 + 8 * k
def DEEP_MIG_STATUS_POISONED : Fld := ⟨32, 16⟩
def DEEP_MIG_STATUS_UNITS_DONE : Fld := ⟨9, 19⟩
def DEEP_MIG_STATUS_ABORTED : Fld := ⟨8, 1⟩
def DEEP_MIG_STATUS_CHANNEL : Fld := ⟨3, 5⟩
def DEEP_MIG_STATUS_SRC_SID : Fld := ⟨1, 2⟩
def DEEP_MIG_STATUS_ACTIVE : Fld := ⟨0, 1⟩
/-- R388. -/
def DEEP_ERR_LAST : Nat := 0x1B00030
def DEEP_ERR_LAST_ADDRESS : Fld := ⟨13, 48⟩
def DEEP_ERR_LAST_RANK : Fld := ⟨5, 8⟩
def DEEP_ERR_LAST_KIND : Fld := ⟨1, 4⟩
def DEEP_ERR_LAST_VALID : Fld := ⟨0, 1⟩
/-- R372. -/
def DEEP_PORT (i : Nat) : Nat := 0x1B00100 + 8 * i
def DEEP_PORT_LAT_TARGET_NS : Fld := ⟨0, 20⟩
/-- R380. -/
def DEEP_TIMEOUT : Nat := 0x1B00140
def DEEP_TIMEOUT_REQ_TIMEOUT_US : Fld := ⟨0, 16⟩
/-- R382. -/
def DEEP_TYPE (y w : Nat) : Nat := 0x1B00200 + 16 * y + 8 * w
def DEEP_TYPE_VALID : Fld := ⟨63, 1⟩
def DEEP_TYPE_BASE : Fld := ⟨0, 40⟩
def DEEP_TYPE_SIZE : Fld := ⟨0, 40⟩
/-- R383. -/
def DEEP_ACC_CMD : Nat := 0x1B00600
def DEEP_ACC_CMD_ADDR : Fld := ⟨6, 34⟩
def DEEP_ACC_CMD_OP : Fld := ⟨0, 2⟩
/-- R383. -/
def DEEP_ACC_STATUS : Nat := 0x1B00608
def DEEP_ACC_STATUS_RESULT : Fld := ⟨1, 4⟩
def DEEP_ACC_STATUS_BUSY : Fld := ⟨0, 1⟩
/-- R383. -/
def DEEP_ACC_DATA (i : Nat) : Nat := 0x1B00640 + 8 * i
/-- R390. -/
def DEEP_CNT (k : Nat) : Nat := 0x1B00800 + 8 * k
/-- R365. -/
def RANK_STATE (k c s : Nat) : Nat := 0x1B10000 + 0x10000 * k + 32 * c + 8 * s
def RANK_STATE_UE : Fld := ⟨48, 16⟩
def RANK_STATE_CE : Fld := ⟨16, 32⟩
def RANK_STATE_PARTNER : Fld := ⟨3, 2⟩
def RANK_STATE_STATE : Fld := ⟨0, 3⟩
/-- R377. -/
def STACK_TEMP (k : Nat) : Nat := 0x1B10800 + 0x10000 * k
def STACK_TEMP_BAD_READINGS : Fld := ⟨16, 16⟩
def STACK_TEMP_HOT : Fld := ⟨8, 1⟩
def STACK_TEMP_TEMP_C : Fld := ⟨0, 8⟩
/-- R396. -/
def PAIR_ROLE : Nat := 0x700000
def PAIR_ROLE_ID : Fld := ⟨1, 1⟩
def PAIR_ROLE_MODE : Fld := ⟨0, 1⟩
/-- R416. -/
def PAIR_CFG : Nat := 0x700008
def PAIR_CFG_ACK_TIMEOUT_US : Fld := ⟨32, 16⟩
def PAIR_CFG_HB_MISS_US : Fld := ⟨16, 6⟩
def PAIR_CFG_SURVIVOR_GATE : Fld := ⟨2, 1⟩
def PAIR_CFG_ACCEPT_RESET : Fld := ⟨1, 1⟩
/-- R396. -/
def PAIR_STATUS : Nat := 0x700010
def PAIR_STATUS_RESET_RESULT : Fld := ⟨32, 4⟩
def PAIR_STATUS_ADOPTED : Fld := ⟨16, 9⟩
def PAIR_STATUS_JOURNAL_LOST : Fld := ⟨15, 1⟩
def PAIR_STATUS_GATED : Fld := ⟨14, 1⟩
def PAIR_STATUS_GATE_FROZEN : Fld := ⟨13, 1⟩
def PAIR_STATUS_BEAT_SEEN : Fld := ⟨12, 1⟩
def PAIR_STATUS_FRAMES_SEEN : Fld := ⟨11, 1⟩
def PAIR_STATUS_LINK_STATE : Fld := ⟨9, 2⟩
def PAIR_STATUS_STATE : Fld := ⟨0, 4⟩
/-- R410. -/
def PAIR_CTRL : Nat := 0x700018
def PAIR_CTRL_RESYNC : Fld := ⟨3, 1⟩
def PAIR_CTRL_CONFIRM_LOST : Fld := ⟨2, 1⟩
def PAIR_CTRL_HANDOVER : Fld := ⟨1, 1⟩
def PAIR_CTRL_PEER_RESET : Fld := ⟨0, 1⟩
/-- R398. -/
def PAIR_ANCHOR (i : Nat) : Nat := 0x700020 + 8 * i
/-- R411. -/
def PAIR_ANCHOR_NEXT (i : Nat) : Nat := 0x700040 + 8 * i
/-- R398. -/
def PAIR_EFFECTIVE (i : Nat) : Nat := 0x700060 + 8 * i
/-- R405. -/
def PAIR_ADOPTED (i : Nat) : Nat := 0x700080 + 8 * i
/-- R405. -/
def PAIR_TAKEOVER_STATUS : Nat := 0x7000A0
def PAIR_TAKEOVER_STATUS_DURATION_NS : Fld := ⟨32, 32⟩
def PAIR_TAKEOVER_STATUS_SAS_JUMPED : Fld := ⟨16, 16⟩
def PAIR_TAKEOVER_STATUS_SAS_INVALIDATED : Fld := ⟨1, 15⟩
def PAIR_TAKEOVER_STATUS_VALID : Fld := ⟨0, 1⟩
/-- R401. -/
def JOURNAL_STATUS : Nat := 0x7000A8
def JOURNAL_STATUS_OUTSTANDING : Fld := ⟨32, 17⟩
/-- R401. -/
def JOURNAL_TX_SEQ : Nat := 0x7000B0
/-- R401. -/
def JOURNAL_RX_SEQ : Nat := 0x7000B8
/-- R416. -/
def CKPT_SEL : Nat := 0x7000C0
def CKPT_SEL_INDEX : Fld := ⟨0, 16⟩
/-- R416. -/
def CKPT_VALUE : Nat := 0x7000C8
/-- R412. -/
def PEER_ACC_CMD : Nat := 0x700100
def PEER_ACC_CMD_OFFSET : Fld := ⟨32, 32⟩
def PEER_ACC_CMD_OP : Fld := ⟨0, 2⟩
/-- R412. -/
def PEER_ACC_STATUS : Nat := 0x700108
def PEER_ACC_STATUS_RESULT : Fld := ⟨1, 4⟩
def PEER_ACC_STATUS_BUSY : Fld := ⟨0, 1⟩
/-- R412. -/
def PEER_ACC_DATA : Nat := 0x700110
/-- R414. -/
def PAIR_DROP (k : Nat) : Nat := 0x700200 + 8 * k
/-- R414. -/
def PAIR_CNT (k : Nat) : Nat := 0x700280 + 8 * k
/-- R403. -/
def PAIR_TABLE_CFG (t : Nat) : Nat := 0x700400 + 8 * t
def PAIR_TABLE_CFG_MIRROR : Fld := ⟨63, 1⟩
def PAIR_TABLE_CFG_HOLD_POS : Fld := ⟨0, 9⟩
/-- R441. -/
def FAULT_STATUS : Nat := 0x200000
def FAULT_STATUS_ACTIVE : Fld := ⟨55, 9⟩
def FAULT_STATUS_OVERFLOW : Fld := ⟨54, 1⟩
def FAULT_STATUS_WORST : Fld := ⟨52, 2⟩
def FAULT_STATUS_STEP : Fld := ⟨49, 3⟩
def FAULT_STATUS_LOCKED : Fld := ⟨48, 1⟩
def FAULT_STATUS_CLASS_ACTIVE : Fld := ⟨32, 16⟩
def FAULT_STATUS_CLEARED : Fld := ⟨24, 8⟩
def FAULT_STATUS_REFUSED : Fld := ⟨16, 8⟩
def FAULT_STATUS_FIRST_VALID : Fld := ⟨0, 1⟩
/-- R436. -/
def FAULT_CLEAR : Nat := 0x200008
def FAULT_CLEAR_FIRST : Fld := ⟨63, 1⟩
def FAULT_CLEAR_ALL : Fld := ⟨62, 1⟩
def FAULT_CLEAR_ONE : Fld := ⟨8, 1⟩
def FAULT_CLEAR_ENTRY : Fld := ⟨0, 8⟩
/-- R426. -/
def FAULT_FIRST_SRC : Nat := 0x200010
def FAULT_FIRST_SRC_VALID : Fld := ⟨63, 1⟩
def FAULT_FIRST_SRC_INJECTED : Fld := ⟨62, 1⟩
def FAULT_FIRST_SRC_SIMUL_COUNT : Fld := ⟨56, 6⟩
def FAULT_FIRST_SRC_SEVERITY : Fld := ⟨54, 2⟩
def FAULT_FIRST_SRC_KIND : Fld := ⟨46, 8⟩
def FAULT_FIRST_SRC_SOURCE : Fld := ⟨34, 12⟩
def FAULT_FIRST_SRC_MASTER : Fld := ⟨30, 4⟩
def FAULT_FIRST_SRC_ACCESS : Fld := ⟨26, 4⟩
def FAULT_FIRST_SRC_REPEAT : Fld := ⟨18, 8⟩
def FAULT_FIRST_SRC_MISSED : Fld := ⟨0, 16⟩
/-- R426. -/
def FAULT_FIRST_ADDR : Nat := 0x200018
/-- R426. -/
def FAULT_FIRST_TIME : Nat := 0x200020
/-- R431. -/
def FAULT_LADDER : Nat := 0x200028
def FAULT_LADDER_STEPS : Fld := ⟨16, 4⟩
def FAULT_LADDER_REACT_US : Fld := ⟨0, 14⟩
/-- R435. -/
def FAULT_PIN : Nat := 0x200030
def FAULT_PIN_PULSE_US : Fld := ⟨16, 10⟩
def FAULT_PIN_TEST : Fld := ⟨6, 1⟩
def FAULT_PIN_PULSE_SEV : Fld := ⟨4, 2⟩
def FAULT_PIN_ASSERTED : Fld := ⟨3, 1⟩
def FAULT_PIN_PULSE : Fld := ⟨2, 1⟩
def FAULT_PIN_LOCKED : Fld := ⟨1, 1⟩
def FAULT_PIN_HOLD : Fld := ⟨0, 1⟩
/-- R437. -/
def FAULT_INJECT : Nat := 0x200038
def FAULT_INJECT_ARM : Fld := ⟨63, 1⟩
def FAULT_INJECT_PENDING : Fld := ⟨62, 1⟩
def FAULT_INJECT_DISARM : Fld := ⟨61, 1⟩
def FAULT_INJECT_DONE : Fld := ⟨32, 16⟩
def FAULT_INJECT_SOURCE : Fld := ⟨16, 12⟩
def FAULT_INJECT_CHECKER : Fld := ⟨8, 4⟩
def FAULT_INJECT_BITS : Fld := ⟨4, 2⟩
/-- R425. -/
def FAULT_CFG : Nat := 0x200040
def FAULT_CFG_INJ_EN : Fld := ⟨63, 1⟩
def FAULT_CFG_IRQ_MIN_US : Fld := ⟨16, 10⟩
def FAULT_CFG_FIRST_MIN_SEV : Fld := ⟨12, 2⟩
def FAULT_CFG_LOG_MIN_SEV : Fld := ⟨8, 2⟩
/-- R424. -/
def FAULT_LOG_PROD : Nat := 0x200048
/-- R424. -/
def FAULT_LOG_CONS : Nat := 0x200050
/-- R424. -/
def FAULT_LOG_OVERRUN : Nat := 0x200058
/-- R431. -/
def FAULT_ESC_STATUS : Nat := 0x200060
def FAULT_ESC_STATUS_RESETS : Fld := ⟨48, 16⟩
def FAULT_ESC_STATUS_SOURCE : Fld := ⟨36, 12⟩
def FAULT_ESC_STATUS_KIND : Fld := ⟨28, 8⟩
def FAULT_ESC_STATUS_LOOP : Fld := ⟨27, 1⟩
def FAULT_ESC_STATUS_LAST_STEP : Fld := ⟨24, 3⟩
/-- R425. -/
def FAULT_EVENTS : Nat := 0x200068
def FAULT_EVENTS_FATAL : Fld := ⟨48, 16⟩
def FAULT_EVENTS_DEGRADED : Fld := ⟨32, 16⟩
def FAULT_EVENTS_CORRECTED : Fld := ⟨16, 16⟩
def FAULT_EVENTS_NOTE : Fld := ⟨0, 16⟩
/-- R429. -/
def FAULT_REACT (w : Nat) : Nat := 0x200100 + 8 * w
/-- R427. -/
def FAULT_ACTIVE (e v : Nat) : Nat := 0x201000 + 32 * e + 8 * v
def FAULT_ACTIVE_VALID : Fld := ⟨63, 1⟩
def FAULT_ACTIVE_ISOLATED : Fld := ⟨62, 1⟩
def FAULT_ACTIVE_STEP : Fld := ⟨59, 3⟩
def FAULT_ACTIVE_SEVERITY : Fld := ⟨57, 2⟩
def FAULT_ACTIVE_KIND : Fld := ⟨49, 8⟩
def FAULT_ACTIVE_SOURCE : Fld := ⟨37, 12⟩
def FAULT_ACTIVE_CAUSE_PRESENT : Fld := ⟨36, 1⟩
def FAULT_ACTIVE_REFUSED : Fld := ⟨35, 1⟩
def FAULT_ACTIVE_REACTION : Fld := ⟨33, 2⟩
def FAULT_ACTIVE_MERGED : Fld := ⟨16, 16⟩
def FAULT_ACTIVE_ADDRESS : Fld := ⟨0, 48⟩
def FAULT_ACTIVE_TIME : Fld := ⟨0, 64⟩
def FAULT_ACTIVE_DEADLINE : Fld := ⟨0, 64⟩
/-- R423. -/
def FAULT_LOG (i v : Nat) : Nat := 0x210000 + 32 * i + 8 * v
/-- R425. -/
def FAULT_CNT (c s : Nat) : Nat := 0x230000 + 32 * c + 8 * s
/-- R444. -/
def RSTC_SOURCE : Nat := 0x100000
def RSTC_SOURCE_WARM_COUNT : Fld := ⟨16, 16⟩
def RSTC_SOURCE_SOURCE : Fld := ⟨0, 4⟩
/-- R444. -/
def RSTC_CTRL : Nat := 0x100008
def RSTC_CTRL_KEY : Fld := ⟨8, 8⟩
def RSTC_CTRL_WARM : Fld := ⟨0, 1⟩
/-- R448. -/
def RSTC_PARTIAL : Nat := 0x100010
def RSTC_PARTIAL_ACRE_RELEASE : Fld := ⟨40, 4⟩
def RSTC_PARTIAL_STRIP_RELEASE : Fld := ⟨32, 8⟩
def RSTC_PARTIAL_ACRE_HOLD : Fld := ⟨24, 4⟩
def RSTC_PARTIAL_STRIP_HOLD : Fld := ⟨16, 8⟩
def RSTC_PARTIAL_ACRE_RESET : Fld := ⟨8, 4⟩
def RSTC_PARTIAL_STRIP_RESET : Fld := ⟨0, 8⟩
/-- R448. -/
def RSTC_PARTIAL_STATUS : Nat := 0x100018
def RSTC_PARTIAL_STATUS_ACRE_HELD : Fld := ⟨24, 4⟩
def RSTC_PARTIAL_STATUS_STRIP_HELD : Fld := ⟨16, 8⟩
def RSTC_PARTIAL_STATUS_ACRE_BUSY : Fld := ⟨8, 4⟩
def RSTC_PARTIAL_STATUS_STRIP_BUSY : Fld := ⟨0, 8⟩
/-- R476. -/
def ISLAND_BUSY : Nat := 0x100020
/-- R476. -/
def ISLAND_OVERRUN : Nat := 0x100028
/-- R463. -/
def SP_WD : Nat := 0x100030
def SP_WD_KICK : Fld := ⟨63, 1⟩
def SP_WD_PERIOD_MS : Fld := ⟨0, 14⟩
/-- R449. -/
def CLK_STATUS : Nat := 0x100038
def CLK_STATUS_STRIP_REF : Fld := ⟨24, 8⟩
def CLK_STATUS_LOCKED : Fld := ⟨0, 17⟩
/-- R458. -/
def RSTC_START_CFG : Nat := 0x100040
def RSTC_START_CFG_PAIR_WAIT_MS : Fld := ⟨0, 16⟩
/-- R468. -/
def RSTC_DROP (k : Nat) : Nat := 0x100080 + 8 * k
/-- R443. -/
def AON_TIME : Nat := 0x300000
/-- R443. -/
def AON_TIME_SET : Nat := 0x300008
/-- R443. -/
def AON_TIME_ADJ : Nat := 0x300010
def AON_TIME_ADJ_ADJ : Fld := ⟨0, 32⟩
/-- R469. -/
def AON_DISC_STATUS : Nat := 0x300018
def AON_DISC_STATUS_PPS_DISCARDED : Fld := ⟨32, 32⟩
def AON_DISC_STATUS_HOLDOVER : Fld := ⟨2, 1⟩
def AON_DISC_STATUS_REF_PRESENT : Fld := ⟨1, 1⟩
def AON_DISC_STATUS_SRC : Fld := ⟨0, 1⟩
/-- R462. -/
def AON_PPS_TIME : Nat := 0x300020
/-- R462. -/
def AON_COMP_CFG : Nat := 0x300028
def AON_COMP_CFG_WAKE_MASK : Fld := ⟨32, 5⟩
def AON_COMP_CFG_CRIT_C : Fld := ⟨16, 8⟩
def AON_COMP_CFG_HIGH_C : Fld := ⟨0, 8⟩
/-- R462. -/
def AON_COMP_STATUS : Nat := 0x300030
def AON_COMP_STATUS_PRESENT : Fld := ⟨0, 5⟩
/-- R460. -/
def AON_FALLOW : Nat := 0x300038
def AON_FALLOW_KEY : Fld := ⟨8, 8⟩
def AON_FALLOW_ENTER : Fld := ⟨0, 1⟩
/-- R461. -/
def AON_WAKE : Nat := 0x300040
def AON_WAKE_ENABLE : Fld := ⟨0, 4⟩
/-- R461. -/
def AON_ALARM : Nat := 0x300048
/-- R465. -/
def AON_HOLDUP_CFG : Nat := 0x300050
def AON_HOLDUP_CFG_ARM_EN : Fld := ⟨63, 1⟩
def AON_HOLDUP_CFG_PF_MV : Fld := ⟨36, 16⟩
def AON_HOLDUP_CFG_MIN_MV : Fld := ⟨20, 16⟩
def AON_HOLDUP_CFG_CAP_UF : Fld := ⟨0, 20⟩
/-- R465. -/
def AON_HOLDUP_STATUS : Nat := 0x300058
def AON_HOLDUP_STATUS_ARMED : Fld := ⟨63, 1⟩
def AON_HOLDUP_STATUS_FAILED : Fld := ⟨48, 4⟩
def AON_HOLDUP_STATUS_V_MV : Fld := ⟨32, 16⟩
def AON_HOLDUP_STATUS_E_MJ : Fld := ⟨0, 32⟩
/-- R464. -/
def AON_LB_CFG : Nat := 0x300060
def AON_LB_CFG_BASE : Fld := ⟨0, 32⟩
/-- R466. -/
def AON_LB_CTRL : Nat := 0x300068
def AON_LB_CTRL_TEST : Fld := ⟨2, 1⟩
def AON_LB_CTRL_VERIFY : Fld := ⟨1, 1⟩
def AON_LB_CTRL_SLOT : Fld := ⟨0, 1⟩
/-- R466. -/
def AON_LB_STATUS : Nat := 0x300070
def AON_LB_STATUS_WRITES : Fld := ⟨32, 32⟩
def AON_LB_STATUS_LAST_CUT : Fld := ⟨3, 1⟩
def AON_LB_STATUS_BUSY : Fld := ⟨2, 1⟩
def AON_LB_STATUS_ERASED : Fld := ⟨0, 2⟩
/-- R469. -/
def AON_RESET_LOG (i : Nat) : Nat := 0x300100 + 8 * i
/-- R450. -/
def AON_PIN_OVR (w : Nat) : Nat := 0x300200 + 8 * w
/-- R518. -/
def PIN_FEAT : Nat := 0x300800
def PIN_FEAT_OBS_ISLAND : Fld := ⟨8, 5⟩
def PIN_FEAT_CLKOBS : Fld := ⟨5, 1⟩
def PIN_FEAT_ALARM_OUT : Fld := ⟨4, 1⟩
def PIN_FEAT_CLK10_OUT : Fld := ⟨3, 1⟩
def PIN_FEAT_PPS_OUT : Fld := ⟨2, 1⟩
def PIN_FEAT_FAULT2_N : Fld := ⟨1, 1⟩
def PIN_FEAT_LB_BUSY : Fld := ⟨0, 1⟩
/-- R518. -/
def PIN_STATUS : Nat := 0x300808
def PIN_STATUS_DRIVER3 : Fld := ⟨12, 4⟩
def PIN_STATUS_DRIVER2 : Fld := ⟨8, 4⟩
def PIN_STATUS_DRIVER1 : Fld := ⟨4, 4⟩
def PIN_STATUS_DRIVER0 : Fld := ⟨0, 4⟩
/-- R464. -/
def AON_LB_SEL (i : Nat) : Nat := 0x301000 + 8 * i
/-- R477. -/
def HOST_REJECT : Nat := 0x400000
def HOST_REJECT_VALID : Fld := ⟨63, 1⟩
def HOST_REJECT_COUNT : Fld := ⟨48, 15⟩
def HOST_REJECT_ISLAND : Fld := ⟨43, 5⟩
def HOST_REJECT_MASTER : Fld := ⟨39, 4⟩
def HOST_REJECT_OFFSET : Fld := ⟨0, 26⟩
/-- R485. -/
def HOST_HOLDING_CMD : Nat := 0x400008
def HOST_HOLDING_CMD_REMOVE : Fld := ⟨8, 1⟩
def HOST_HOLDING_CMD_HOLDING : Fld := ⟨0, 8⟩
/-- R485. -/
def HOST_HOLDING_STATUS : Nat := 0x400010
def HOST_HOLDING_STATUS_REMOVALS : Fld := ⟨32, 32⟩
def HOST_HOLDING_STATUS_HOLDING : Fld := ⟨8, 8⟩
def HOST_HOLDING_STATUS_BUSY : Fld := ⟨0, 1⟩
/-- R473. -/
def HOST_BULK_BASE : Nat := 0x400018
def HOST_BULK_BASE_BASE : Fld := ⟨12, 52⟩
/-- R482. -/
def EVT_POP (f : Nat) : Nat := 0x400100 + 8 * f
/-- R482. -/
def EVT_LATCH (f w : Nat) : Nat := 0x400120 + 32 * f + 8 * w
/-- R483. -/
def EVT_CFG (f : Nat) : Nat := 0x400180 + 8 * f
def EVT_CFG_HOLD_NS : Fld := ⟨12, 20⟩
def EVT_CFG_THRESH : Fld := ⟨0, 12⟩
/-- R483. -/
def EVT_STATUS (f : Nat) : Nat := 0x4001A0 + 8 * f
def EVT_STATUS_LOST : Fld := ⟨32, 32⟩
def EVT_STATUS_DEPTH : Fld := ⟨0, 14⟩
/-- R486. -/
def PUNT_RING (r w : Nat) : Nat := 0x410000 + 64 * r + 8 * w
def PUNT_RING_BASE : Fld := ⟨0, 64⟩
def PUNT_RING_ENABLE : Fld := ⟨63, 1⟩
def PUNT_RING_CTX_EN : Fld := ⟨62, 1⟩
def PUNT_RING_MIN_NOTICE_NS : Fld := ⟨32, 20⟩
def PUNT_RING_LOG2_SLOTS : Fld := ⟨0, 4⟩
def PUNT_RING_TAIL : Fld := ⟨0, 32⟩
def PUNT_RING_HEAD : Fld := ⟨0, 32⟩
def PUNT_RING_HEAD_ADDR : Fld := ⟨0, 64⟩
def PUNT_RING_PACKETS : Fld := ⟨0, 64⟩
def PUNT_RING_NO_DESC : Fld := ⟨32, 32⟩
def PUNT_RING_WAIT_TIMEOUT : Fld := ⟨16, 16⟩
def PUNT_RING_DESC_ERR : Fld := ⟨0, 16⟩
/-- R489. -/
def INJ_RING (r w : Nat) : Nat := 0x411000 + 0x80 * r + 8 * w
def INJ_RING_BASE : Fld := ⟨0, 64⟩
def INJ_RING_ENABLE : Fld := ⟨63, 1⟩
def INJ_RING_CPL_LOG2 : Fld := ⟨8, 4⟩
def INJ_RING_LOG2_SLOTS : Fld := ⟨0, 4⟩
def INJ_RING_TAIL : Fld := ⟨0, 32⟩
def INJ_RING_HEAD : Fld := ⟨0, 32⟩
def INJ_RING_CPL_BASE : Fld := ⟨0, 64⟩
def INJ_RING_CPL_CONS : Fld := ⟨0, 32⟩
def INJ_RING_CPL_PROD : Fld := ⟨0, 32⟩
def INJ_RING_WIN_BASE : Fld := ⟨0, 64⟩
def INJ_RING_WIN_LIMIT : Fld := ⟨0, 64⟩
def INJ_RING_INJECTED : Fld := ⟨0, 64⟩
def INJ_RING_FAILS : Fld := ⟨32, 32⟩
def INJ_RING_DMA_ERRS : Fld := ⟨0, 32⟩
/-- R480. -/
def MSIX_TABLE (v w : Nat) : Nat := 0x420000 + 16 * v + 8 * w
/-- R480. -/
def MSIX_PBA (w : Nat) : Nat := 0x428000 + 8 * w
/-- R470. -/
def BOOT_STATUS : Nat := 0x500000
def BOOT_STATUS_CONFIG_INDEX : Fld := ⟨48, 16⟩
def BOOT_STATUS_SECURITY_VERSION : Fld := ⟨16, 32⟩
def BOOT_STATUS_ERROR_SLOT1 : Fld := ⟨12, 4⟩
def BOOT_STATUS_ERROR_SLOT0 : Fld := ⟨8, 4⟩
def BOOT_STATUS_SLOT : Fld := ⟨4, 1⟩
def BOOT_STATUS_STAGE : Fld := ⟨0, 4⟩
/-- R497. -/
def SPIM_CFG : Nat := 0x500100
def SPIM_CFG_DIV : Fld := ⟨0, 7⟩
/-- R497. -/
def SPIM_CMD : Nat := 0x500108
def SPIM_CMD_ADDR : Fld := ⟨32, 32⟩
def SPIM_CMD_OPCODE : Fld := ⟨24, 8⟩
def SPIM_CMD_ADDR_BYTES : Fld := ⟨22, 2⟩
def SPIM_CMD_QUAD : Fld := ⟨21, 1⟩
def SPIM_CMD_DUMMY : Fld := ⟨16, 4⟩
def SPIM_CMD_WLEN : Fld := ⟨8, 8⟩
def SPIM_CMD_RLEN : Fld := ⟨0, 8⟩
/-- R497. -/
def SPIM_STATUS : Nat := 0x500110
def SPIM_STATUS_RESULT : Fld := ⟨1, 4⟩
def SPIM_STATUS_BUSY : Fld := ⟨0, 1⟩
/-- R497. -/
def SPIM_DATA (i : Nat) : Nat := 0x500200 + 8 * i
/-- R493. -/
def SPIS_STATUS : Nat := 0x500300
def SPIS_STATUS_COUNT : Fld := ⟨48, 16⟩
def SPIS_STATUS_RESULT : Fld := ⟨0, 4⟩
/-- R493. -/
def SPIS_CNT : Nat := 0x500308
def SPIS_CNT_FRAMES : Fld := ⟨32, 32⟩
def SPIS_CNT_ERRORS : Fld := ⟨0, 32⟩
/-- R495. -/
def UART_CFG : Nat := 0x500400
def UART_CFG_ENABLE : Fld := ⟨63, 1⟩
def UART_CFG_STOP2 : Fld := ⟨20, 1⟩
def UART_CFG_PARITY : Fld := ⟨18, 2⟩
def UART_CFG_CYCLES_PER_BIT : Fld := ⟨0, 17⟩
/-- R496. -/
def UART_STATUS : Nat := 0x500408
def UART_STATUS_OVERRUN : Fld := ⟨48, 16⟩
def UART_STATUS_FRAMING : Fld := ⟨32, 16⟩
def UART_STATUS_PARITY : Fld := ⟨24, 8⟩
def UART_STATUS_BREAKS : Fld := ⟨16, 8⟩
def UART_STATUS_TX_LEVEL : Fld := ⟨8, 7⟩
def UART_STATUS_RX_LEVEL : Fld := ⟨0, 7⟩
/-- R500. -/
def UART_DATA : Nat := 0x500410
def UART_DATA_VALID : Fld := ⟨8, 1⟩
def UART_DATA_DATA : Fld := ⟨0, 8⟩
/-- R498. -/
def JTAG_STATUS : Nat := 0x500500
def JTAG_STATUS_LOCKED : Fld := ⟨0, 1⟩
/-- R504. -/
def DUMP_CTRL : Nat := 0x600000
def DUMP_CTRL_ENABLE : Fld := ⟨63, 1⟩
def DUMP_CTRL_DEST : Fld := ⟨62, 1⟩
def DUMP_CTRL_LOG2_SLOTS : Fld := ⟨48, 4⟩
/-- R503. -/
def DUMP_PERIOD : Nat := 0x600008
def DUMP_PERIOD_PERIOD_NS : Fld := ⟨0, 30⟩
/-- R504. -/
def DUMP_BASE : Nat := 0x600010
/-- R506. -/
def DUMP_STATUS : Nat := 0x600018
def DUMP_STATUS_MISSED : Fld := ⟨40, 24⟩
def DUMP_STATUS_FAILED : Fld := ⟨24, 16⟩
def DUMP_STATUS_BUSY : Fld := ⟨20, 1⟩
def DUMP_STATUS_WORDS : Fld := ⟨0, 19⟩
/-- R504. -/
def DUMP_SEQ : Nat := 0x600020
/-- R503. -/
def DUMP_TALLY : Nat := 0x600028
def DUMP_TALLY_NOW : Fld := ⟨0, 1⟩
/-- R507. -/
def PERF_SNAP_ADDR : Nat := 0x600030
def PERF_SNAP_ADDR_HIT : Fld := ⟨63, 1⟩
def PERF_SNAP_ADDR_OFFSET : Fld := ⟨0, 26⟩
/-- R507. -/
def PERF_SNAP_DATA : Nat := 0x600038
/-- R502. -/
def DUMP_LIST (i : Nat) : Nat := 0x600100 + 8 * i
def DUMP_LIST_VALID : Fld := ⟨63, 1⟩
def DUMP_LIST_COUNT : Fld := ⟨32, 16⟩
def DUMP_LIST_OFFSET : Fld := ⟨0, 26⟩

end Sys2Proof.Machine.Reg
end

