-- ==== Sys2Proof/Machine/FaultKinds.lean ====
section
/-!
DEFINITION. The fault kinds of R439 (with the pointer kinds of R230, the page kinds of R260 and the deep-store kinds of R388):
class, kind, severity, default reaction, and whether the kind is a condition (R428).
-/
namespace Sys2Proof.Machine

/-- A row of R439. -/
structure FaultKind where
  cls : Nat
  kind : Nat
  sev : Nat
  react : Nat
  cond : Bool
  deriving DecidableEq, Repr

namespace Fk

def conflict : FaultKind := ⟨0, 0, 0, 0, false⟩
def voter : FaultKind := ⟨0, 1, 1, 0, false⟩
def islandOverrun : FaultKind := ⟨0, 2, 0, 0, false⟩
def csrParity : FaultKind := ⟨0, 3, 3, 1, false⟩
def crossingErr : FaultKind := ⟨0, 4, 3, 1, false⟩
def clockLoss : FaultKind := ⟨0, 5, 3, 1, true⟩
def faultRing : FaultKind := ⟨0, 6, 2, 0, false⟩
def retrain : FaultKind := ⟨1, 0, 0, 0, false⟩
def withdrawn : FaultKind := ⟨1, 1, 2, 2, true⟩
def aggTable : FaultKind := ⟨1, 2, 2, 0, true⟩
def pllUnlock : FaultKind := ⟨1, 3, 2, 1, true⟩
def stripSramCe : FaultKind := ⟨1, 4, 1, 0, false⟩
def stripSramUe : FaultKind := ⟨1, 5, 2, 0, false⟩
def storeCe : FaultKind := ⟨2, 0, 1, 0, false⟩
def storeUe : FaultKind := ⟨2, 1, 2, 0, false⟩
def datapath : FaultKind := ⟨2, 2, 3, 2, false⟩
def hang : FaultKind := ⟨2, 3, 3, 2, false⟩
def safeBound : FaultKind := ⟨2, 4, 3, 2, false⟩
def tableCe : FaultKind := ⟨3, 0, 1, 0, false⟩
def tableUe : FaultKind := ⟨3, 1, 2, 0, false⟩
def fragUe : FaultKind := ⟨3, 2, 2, 0, false⟩
def gleanCe : FaultKind := ⟨4, 0, 1, 0, false⟩
def gleanUe : FaultKind := ⟨4, 1, 2, 0, false⟩
def pinned : FaultKind := ⟨4, 2, 2, 0, false⟩
def assocRepaired : FaultKind := ⟨5, 0, 1, 0, false⟩
def assocLost : FaultKind := ⟨5, 1, 2, 0, false⟩
def ptrEcc : FaultKind := ⟨6, 0, 1, 0, false⟩
def ptrUncorrectable : FaultKind := ⟨6, 1, 2, 0, false⟩
def ptrRange : FaultKind := ⟨6, 2, 2, 0, false⟩
def ptrAlign : FaultKind := ⟨6, 3, 2, 0, false⟩
def ptrDouble : FaultKind := ⟨6, 4, 1, 0, false⟩
def headlandOverflow : FaultKind := ⟨6, 5, 2, 0, false⟩
def pageEcc : FaultKind := ⟨7, 0, 1, 0, false⟩
def pageUncorrectable : FaultKind := ⟨7, 1, 2, 0, false⟩
def pageRange : FaultKind := ⟨7, 2, 2, 0, false⟩
def pageDouble : FaultKind := ⟨7, 3, 1, 0, false⟩
def pageCheck : FaultKind := ⟨7, 4, 2, 0, false⟩
def pauseWatchdog : FaultKind := ⟨8, 0, 2, 0, true⟩
def nodeCe : FaultKind := ⟨8, 1, 1, 0, false⟩
def nodeUe : FaultKind := ⟨8, 2, 2, 0, false⟩
def entropy : FaultKind := ⟨9, 0, 2, 0, true⟩
def leaseExpired : FaultKind := ⟨9, 1, 0, 0, false⟩
def saExhausted : FaultKind := ⟨9, 2, 2, 0, false⟩
def rindVoter : FaultKind := ⟨9, 3, 1, 0, false⟩
def entryCe : FaultKind := ⟨9, 4, 1, 0, false⟩
def entryUe : FaultKind := ⟨9, 5, 2, 0, false⟩
def ceData : FaultKind := ⟨10, 0, 1, 0, false⟩
def ueData : FaultKind := ⟨10, 1, 2, 2, false⟩
def cmdRetried : FaultKind := ⟨10, 2, 1, 0, false⟩
def cmdFail : FaultKind := ⟨10, 3, 2, 2, false⟩
def migrateDone : FaultKind := ⟨10, 4, 0, 0, false⟩
def rankRetired : FaultKind := ⟨10, 5, 2, 0, false⟩
def ceLimit : FaultKind := ⟨10, 6, 2, 2, false⟩
def reqTimeout : FaultKind := ⟨10, 7, 2, 0, false⟩
def tempBad : FaultKind := ⟨10, 8, 0, 0, false⟩
def initFail : FaultKind := ⟨10, 9, 2, 0, true⟩
def addrRange : FaultKind := ⟨10, 10, 0, 0, false⟩
def peerLost : FaultKind := ⟨11, 0, 2, 2, false⟩
def splitLink : FaultKind := ⟨11, 1, 2, 0, true⟩
def splitBeat : FaultKind := ⟨11, 2, 2, 0, true⟩
def helloMismatch : FaultKind := ⟨11, 3, 2, 0, false⟩
def journalOverflow : FaultKind := ⟨11, 4, 2, 0, true⟩
def frameCrc : FaultKind := ⟨11, 5, 1, 0, false⟩
def saNotAdopted : FaultKind := ⟨11, 6, 2, 0, false⟩
def peerReset : FaultKind := ⟨11, 7, 0, 0, false⟩
def pcieCe : FaultKind := ⟨12, 0, 1, 0, false⟩
def pcieUe : FaultKind := ⟨12, 1, 2, 0, false⟩
def pcieLinkDown : FaultKind := ⟨12, 2, 2, 0, true⟩
def descErr : FaultKind := ⟨12, 3, 0, 0, false⟩
def dmaErr : FaultKind := ⟨12, 4, 2, 0, false⟩
def supplyWindow : FaultKind := ⟨13, 0, 2, 0, true⟩
def dieTempHigh : FaultKind := ⟨13, 1, 2, 0, true⟩
def dieTempCrit : FaultKind := ⟨13, 2, 3, 1, true⟩
def holdupDisarmed : FaultKind := ⟨13, 3, 2, 0, true⟩
def ppsLost : FaultKind := ⟨13, 4, 2, 0, true⟩
def sensorRange : FaultKind := ⟨13, 5, 0, 0, false⟩
def xtalFail : FaultKind := ⟨13, 6, 3, 1, true⟩
def watchdog : FaultKind := ⟨14, 0, 3, 2, false⟩
def spSramCe : FaultKind := ⟨14, 1, 1, 0, false⟩
def spSramUe : FaultKind := ⟨14, 2, 3, 1, false⟩
def imageReject : FaultKind := ⟨14, 3, 2, 0, false⟩

end Fk

/-- Every kind that R439 defines; its other kinds are reserved. -/
def faultKinds : List FaultKind :=
  [Fk.conflict, Fk.voter, Fk.islandOverrun, Fk.csrParity, Fk.crossingErr, Fk.clockLoss, Fk.faultRing,
   Fk.retrain, Fk.withdrawn, Fk.aggTable, Fk.pllUnlock, Fk.stripSramCe, Fk.stripSramUe,
   Fk.storeCe, Fk.storeUe, Fk.datapath, Fk.hang, Fk.safeBound,
   Fk.tableCe, Fk.tableUe, Fk.fragUe,
   Fk.gleanCe, Fk.gleanUe, Fk.pinned,
   Fk.assocRepaired, Fk.assocLost,
   Fk.ptrEcc, Fk.ptrUncorrectable, Fk.ptrRange, Fk.ptrAlign, Fk.ptrDouble, Fk.headlandOverflow,
   Fk.pageEcc, Fk.pageUncorrectable, Fk.pageRange, Fk.pageDouble, Fk.pageCheck,
   Fk.pauseWatchdog, Fk.nodeCe, Fk.nodeUe,
   Fk.entropy, Fk.leaseExpired, Fk.saExhausted, Fk.rindVoter, Fk.entryCe, Fk.entryUe,
   Fk.ceData, Fk.ueData, Fk.cmdRetried, Fk.cmdFail, Fk.migrateDone, Fk.rankRetired, Fk.ceLimit, Fk.reqTimeout, Fk.tempBad, Fk.initFail, Fk.addrRange,
   Fk.peerLost, Fk.splitLink, Fk.splitBeat, Fk.helloMismatch, Fk.journalOverflow, Fk.frameCrc, Fk.saNotAdopted, Fk.peerReset,
   Fk.pcieCe, Fk.pcieUe, Fk.pcieLinkDown, Fk.descErr, Fk.dmaErr,
   Fk.supplyWindow, Fk.dieTempHigh, Fk.dieTempCrit, Fk.holdupDisarmed, Fk.ppsLost, Fk.sensorRange, Fk.xtalFail,
   Fk.watchdog, Fk.spSramCe, Fk.spSramUe, Fk.imageReject]

/-- The kind with a class and a kind number. -/
def faultKind? (c k : Nat) : Option FaultKind := faultKinds.find? fun f => f.cls == c && f.kind == k

/-- FAULT_REACT word w at reset: the default reaction of class w / 8 kind 32 (w mod 8) + j in bits [2j + 1 : 2j] (R441). -/
def faultReactReset (w : Nat) : Nat :=
  (faultKinds.filter fun f => f.cls = w / 8 ∧ f.kind / 32 = w % 8).foldl (fun x f => x + f.react * 4 ^ (f.kind % 32)) 0

end Sys2Proof.Machine
end

