-- ==== Sys2Proof/Machine/RegMap.lean ====
section
/-!
DEFINITION. The register map: for every register of spec/ its place, the access code and range of each field (R7, R477)
and its value at reset (the Reset columns). A register has up to three indices; `p` says the part is an NZH-6256.
-/
namespace Sys2Proof.Machine

/-- The access codes of R7 (RWP is RW behind a posted write; RWV is voted). -/
inductive Acc where
  | rw | rwv | ro | rc | w1s | wo
  deriving DecidableEq, Repr

/-- A field of a register: its place, its access code and the range its table states. -/
structure FldSpec where
  lo : Nat
  w : Nat
  acc : Acc
  min : Nat
  max : Nat
  deriving DecidableEq, Repr

/-- A register, or an array of registers: its first offset, the count and stride of each index, its fields and its value at
reset (from whether the part is an NZH-6256, and the indices). -/
structure RegSpec where
  base : Nat
  dims : List (Nat × Nat)
  flds : List FldSpec
  reset : Bool → List Nat → Nat

/-- The registers of block GLOBAL (R16). -/
def globalRegs : List RegSpec := [
  -- GLOBAL_ID
  ⟨0x0, [],
   [⟨34, 14, .ro, 0, 16383⟩, ⟨32, 2, .ro, 0, 3⟩, ⟨28, 4, .ro, 0, 15⟩, ⟨20, 8, .ro, 0, 255⟩, ⟨16, 4, .ro, 0, 15⟩, ⟨0, 16, .ro, 0, 65535⟩],
   fun p _ => if p then 0x00004C3D30F16256 else 0x0000FFFFFFF16512⟩,
  -- FLOW_HASH_SEED
  ⟨0x8, [],
   [⟨0, 32, .rw, 0, 0xFFFFFFFF⟩],
   fun _ _ => 0xFFFFFFFF⟩,
  -- GLOBAL_CONFLICT
  ⟨0x10, [],
   [⟨63, 1, .rc, 0, 1⟩, ⟨62, 1, .rc, 0, 1⟩, ⟨32, 16, .rc, 0, 65535⟩, ⟨24, 8, .rc, 0, 255⟩, ⟨16, 8, .rc, 0, 255⟩, ⟨10, 2, .rc, 0, 3⟩, ⟨0, 10, .rc, 0, 1023⟩],
   fun _ _ => 0x0⟩]

/-- The registers of block RSTC (R16). -/
def rstcRegs : List RegSpec := [
  -- RSTC_SOURCE
  ⟨0x100000, [],
   [⟨16, 16, .ro, 0, 65535⟩, ⟨0, 4, .ro, 0, 15⟩],
   fun _ _ => 0x1⟩,
  -- RSTC_CTRL
  ⟨0x100008, [],
   [⟨8, 8, .w1s, 0, 255⟩, ⟨0, 1, .w1s, 0, 1⟩],
   fun _ _ => 0x0⟩,
  -- RSTC_PARTIAL
  ⟨0x100010, [],
   [⟨40, 4, .w1s, 0, 15⟩, ⟨32, 8, .w1s, 0, 255⟩, ⟨24, 4, .w1s, 0, 15⟩, ⟨16, 8, .w1s, 0, 255⟩, ⟨8, 4, .w1s, 0, 15⟩, ⟨0, 8, .w1s, 0, 255⟩],
   fun _ _ => 0x0⟩,
  -- RSTC_PARTIAL_STATUS
  ⟨0x100018, [],
   [⟨24, 4, .ro, 0, 15⟩, ⟨16, 8, .ro, 0, 255⟩, ⟨8, 4, .ro, 0, 15⟩, ⟨0, 8, .ro, 0, 255⟩],
   fun _ _ => 0x0⟩,
  -- ISLAND_BUSY
  ⟨0x100020, [],
   [⟨0, 64, .ro, 0, 0xFFFFFFFFFFFFFFFF⟩],
   fun _ _ => 0x0⟩,
  -- ISLAND_OVERRUN
  ⟨0x100028, [],
   [⟨0, 64, .rc, 0, 0xFFFFFFFFFFFFFFFF⟩],
   fun _ _ => 0x0⟩,
  -- SP_WD
  ⟨0x100030, [],
   [⟨63, 1, .w1s, 0, 1⟩, ⟨0, 14, .rw, 10, 10000⟩],
   fun _ _ => 0x1F4⟩,
  -- CLK_STATUS
  ⟨0x100038, [],
   [⟨24, 8, .ro, 0, 255⟩, ⟨0, 17, .ro, 0, 0x1FFFF⟩],
   fun _ _ => 0x0⟩,
  -- RSTC_START_CFG
  ⟨0x100040, [],
   [⟨0, 16, .rwv, 1, 10000⟩],
   fun _ _ => 0x64⟩,
  -- RSTC_DROP
  ⟨0x100080, [(16, 0x8)],
   [⟨0, 64, .ro, 0, 0xFFFFFFFFFFFFFFFF⟩],
   fun _ _ => 0x0⟩]

/-- The registers of block FAULT (R16). -/
def faultRegs : List RegSpec := [
  -- FAULT_STATUS
  ⟨0x200000, [],
   [⟨55, 9, .ro, 0, 511⟩, ⟨54, 1, .ro, 0, 1⟩, ⟨52, 2, .ro, 0, 3⟩, ⟨49, 3, .ro, 0, 7⟩, ⟨48, 1, .ro, 0, 1⟩, ⟨32, 16, .ro, 0, 65535⟩, ⟨24, 8, .ro, 0, 255⟩, ⟨16, 8, .ro, 0, 255⟩, ⟨0, 1, .ro, 0, 1⟩],
   fun _ _ => 0x0⟩,
  -- FAULT_CLEAR
  ⟨0x200008, [],
   [⟨63, 1, .w1s, 0, 1⟩, ⟨62, 1, .w1s, 0, 1⟩, ⟨8, 1, .w1s, 0, 1⟩, ⟨0, 8, .w1s, 0, 255⟩],
   fun _ _ => 0x0⟩,
  -- FAULT_FIRST_SRC
  ⟨0x200010, [],
   [⟨63, 1, .ro, 0, 1⟩, ⟨62, 1, .ro, 0, 1⟩, ⟨56, 6, .ro, 0, 63⟩, ⟨54, 2, .ro, 0, 3⟩, ⟨46, 8, .ro, 0, 255⟩, ⟨34, 12, .ro, 0, 4095⟩, ⟨30, 4, .ro, 0, 15⟩, ⟨26, 4, .ro, 0, 15⟩, ⟨18, 8, .ro, 0, 255⟩, ⟨0, 16, .ro, 0, 65535⟩],
   fun _ _ => 0x0⟩,
  -- FAULT_FIRST_ADDR
  ⟨0x200018, [],
   [⟨0, 64, .ro, 0, 0xFFFFFFFFFFFFFFFF⟩],
   fun _ _ => 0x0⟩,
  -- FAULT_FIRST_TIME
  ⟨0x200020, [],
   [⟨0, 64, .ro, 0, 0xFFFFFFFFFFFFFFFF⟩],
   fun _ _ => 0x0⟩,
  -- FAULT_LADDER
  ⟨0x200028, [],
   [⟨16, 4, .rwv, 0, 15⟩, ⟨0, 14, .rwv, 1, 10000⟩],
   fun _ _ => 0xF0064⟩,
  -- FAULT_PIN
  ⟨0x200030, [],
   [⟨16, 10, .rw, 10, 1000⟩, ⟨6, 1, .w1s, 0, 1⟩, ⟨4, 2, .rw, 0, 3⟩, ⟨3, 1, .ro, 0, 1⟩, ⟨2, 1, .ro, 0, 1⟩, ⟨1, 1, .ro, 0, 1⟩, ⟨0, 1, .rw, 0, 1⟩],
   fun _ _ => 0xA0030⟩,
  -- FAULT_INJECT
  ⟨0x200038, [],
   [⟨63, 1, .w1s, 0, 1⟩, ⟨62, 1, .ro, 0, 1⟩, ⟨61, 1, .w1s, 0, 1⟩, ⟨32, 16, .ro, 0, 65535⟩, ⟨16, 12, .rw, 0, 4095⟩, ⟨8, 4, .rw, 0, 15⟩, ⟨4, 2, .rw, 0, 3⟩],
   fun _ _ => 0x0⟩,
  -- FAULT_CFG
  ⟨0x200040, [],
   [⟨63, 1, .rwv, 0, 1⟩, ⟨16, 10, .rw, 0, 1000⟩, ⟨12, 2, .rw, 0, 3⟩, ⟨8, 2, .rw, 0, 3⟩],
   fun _ _ => 0xA2000⟩,
  -- FAULT_LOG_PROD
  ⟨0x200048, [],
   [⟨0, 64, .ro, 0, 0xFFFFFFFFFFFFFFFF⟩],
   fun _ _ => 0x0⟩,
  -- FAULT_LOG_CONS
  ⟨0x200050, [],
   [⟨0, 64, .rw, 0, 0xFFFFFFFFFFFFFFFF⟩],
   fun _ _ => 0x0⟩,
  -- FAULT_LOG_OVERRUN
  ⟨0x200058, [],
   [⟨0, 64, .ro, 0, 0xFFFFFFFFFFFFFFFF⟩],
   fun _ _ => 0x0⟩,
  -- FAULT_ESC_STATUS
  ⟨0x200060, [],
   [⟨48, 16, .ro, 0, 65535⟩, ⟨36, 12, .ro, 0, 4095⟩, ⟨28, 8, .ro, 0, 255⟩, ⟨27, 1, .ro, 0, 1⟩, ⟨24, 3, .ro, 0, 7⟩],
   fun _ _ => 0x0⟩,
  -- FAULT_EVENTS
  ⟨0x200068, [],
   [⟨48, 16, .rc, 0, 65535⟩, ⟨32, 16, .rc, 0, 65535⟩, ⟨16, 16, .rc, 0, 65535⟩, ⟨0, 16, .rc, 0, 65535⟩],
   fun _ _ => 0x0⟩,
  -- FAULT_REACT
  ⟨0x200100, [(128, 0x8)],
   [⟨0, 64, .rw, 0, 0xFFFFFFFFFFFFFFFF⟩],
   fun _ x => faultReactReset (x.getD 0 0)⟩,
  -- FAULT_ACTIVE
  ⟨0x201000, [(256, 0x20), (4, 0x8)],
   [⟨0, 64, .ro, 0, 0xFFFFFFFFFFFFFFFF⟩],
   fun _ _ => 0x0⟩,
  -- FAULT_LOG
  ⟨0x210000, [(4096, 0x20), (4, 0x8)],
   [⟨0, 64, .ro, 0, 0xFFFFFFFFFFFFFFFF⟩],
   fun _ _ => 0x0⟩,
  -- FAULT_CNT
  ⟨0x230000, [(16, 0x20), (4, 0x8)],
   [⟨0, 64, .ro, 0, 0xFFFFFFFFFFFFFFFF⟩],
   fun _ _ => 0x0⟩]

/-- The registers of block AON (R16). -/
def aonRegs : List RegSpec := [
  -- AON_TIME
  ⟨0x300000, [],
   [⟨0, 64, .ro, 0, 0xFFFFFFFFFFFFFFFF⟩],
   fun _ _ => 0x0⟩,
  -- AON_TIME_SET
  ⟨0x300008, [],
   [⟨0, 64, .rw, 0, 0xFFFFFFFFFFFFFFFF⟩],
   fun _ _ => 0x0⟩,
  -- AON_TIME_ADJ
  ⟨0x300010, [],
   [⟨0, 32, .rw, 0, 0xFFFFFFFF⟩],
   fun _ _ => 0x0⟩,
  -- AON_DISC_STATUS
  ⟨0x300018, [],
   [⟨32, 32, .ro, 0, 0xFFFFFFFF⟩, ⟨2, 1, .ro, 0, 1⟩, ⟨1, 1, .ro, 0, 1⟩, ⟨0, 1, .ro, 0, 1⟩],
   fun _ _ => 0x0⟩,
  -- AON_PPS_TIME
  ⟨0x300020, [],
   [⟨0, 64, .ro, 0, 0xFFFFFFFFFFFFFFFF⟩],
   fun _ _ => 0x0⟩,
  -- AON_COMP_CFG
  ⟨0x300028, [],
   [⟨32, 5, .rw, 0, 31⟩, ⟨16, 8, .rw, 60, 140⟩, ⟨0, 8, .rw, 0, 255⟩],
   fun _ _ => 0x730064⟩,
  -- AON_COMP_STATUS
  ⟨0x300030, [],
   [⟨0, 5, .ro, 0, 31⟩],
   fun _ _ => 0x0⟩,
  -- AON_FALLOW
  ⟨0x300038, [],
   [⟨8, 8, .w1s, 0, 255⟩, ⟨0, 1, .w1s, 0, 1⟩],
   fun _ _ => 0x0⟩,
  -- AON_WAKE
  ⟨0x300040, [],
   [⟨0, 4, .rw, 0, 15⟩],
   fun _ _ => 0x1⟩,
  -- AON_ALARM
  ⟨0x300048, [],
   [⟨0, 64, .rw, 0, 0xFFFFFFFFFFFFFFFF⟩],
   fun _ _ => 0x0⟩,
  -- AON_HOLDUP_CFG
  ⟨0x300050, [],
   [⟨63, 1, .rw, 0, 1⟩, ⟨36, 16, .rw, 0, 65535⟩, ⟨20, 16, .rw, 0, 65535⟩, ⟨0, 20, .rw, 1, 0xF4240⟩],
   fun _ _ => 0x0⟩,
  -- AON_HOLDUP_STATUS
  ⟨0x300058, [],
   [⟨63, 1, .ro, 0, 1⟩, ⟨48, 4, .ro, 0, 15⟩, ⟨32, 16, .ro, 0, 65535⟩, ⟨0, 32, .ro, 0, 0xFFFFFFFF⟩],
   fun _ _ => 0x0⟩,
  -- AON_LB_CFG
  ⟨0x300060, [],
   [⟨0, 32, .rw, 0, 0xFFFFFFFF⟩],
   fun _ _ => 0x0⟩,
  -- AON_LB_CTRL
  ⟨0x300068, [],
   [⟨2, 1, .w1s, 0, 1⟩, ⟨1, 1, .w1s, 0, 1⟩, ⟨0, 1, .w1s, 0, 1⟩],
   fun _ _ => 0x0⟩,
  -- AON_LB_STATUS
  ⟨0x300070, [],
   [⟨32, 32, .ro, 0, 0xFFFFFFFF⟩, ⟨3, 1, .ro, 0, 1⟩, ⟨2, 1, .ro, 0, 1⟩, ⟨0, 2, .ro, 0, 3⟩],
   fun _ _ => 0x0⟩,
  -- AON_RESET_LOG
  ⟨0x300100, [(16, 0x8)],
   [⟨0, 64, .ro, 0, 0xFFFFFFFFFFFFFFFF⟩],
   fun _ _ => 0x0⟩,
  -- AON_PIN_OVR
  ⟨0x300200, [(64, 0x8)],
   [⟨0, 64, .rwv, 0, 0xFFFFFFFFFFFFFFFF⟩],
   fun _ _ => 0x0⟩,
  -- PIN_FEAT
  ⟨0x300800, [],
   [⟨8, 5, .rw, 0, 31⟩, ⟨5, 1, .rw, 0, 1⟩, ⟨4, 1, .rw, 0, 1⟩, ⟨3, 1, .rw, 0, 1⟩, ⟨2, 1, .rw, 0, 1⟩, ⟨1, 1, .rw, 0, 1⟩, ⟨0, 1, .rw, 0, 1⟩],
   fun _ _ => 0x0⟩,
  -- PIN_STATUS
  ⟨0x300808, [],
   [⟨12, 4, .ro, 0, 15⟩, ⟨8, 4, .ro, 0, 15⟩, ⟨4, 4, .ro, 0, 15⟩, ⟨0, 4, .ro, 0, 15⟩],
   fun _ _ => 0x0⟩,
  -- AON_LB_SEL
  ⟨0x301000, [(244, 0x8)],
   [⟨0, 64, .rw, 0, 0xFFFFFFFFFFFFFFFF⟩],
   fun _ _ => 0x0⟩]

/-- The registers of block HOST (R16). -/
def hostRegs : List RegSpec := [
  -- HOST_REJECT
  ⟨0x400000, [],
   [⟨63, 1, .rc, 0, 1⟩, ⟨48, 15, .rc, 0, 32767⟩, ⟨43, 5, .rc, 0, 31⟩, ⟨39, 4, .rc, 0, 15⟩, ⟨0, 26, .rc, 0, 0x3FFFFFF⟩],
   fun _ _ => 0x0⟩,
  -- HOST_HOLDING_CMD
  ⟨0x400008, [],
   [⟨8, 1, .w1s, 0, 1⟩, ⟨0, 8, .w1s, 0, 255⟩],
   fun _ _ => 0x0⟩,
  -- HOST_HOLDING_STATUS
  ⟨0x400010, [],
   [⟨32, 32, .ro, 0, 0xFFFFFFFF⟩, ⟨8, 8, .ro, 0, 255⟩, ⟨0, 1, .ro, 0, 1⟩],
   fun _ _ => 0x0⟩,
  -- HOST_BULK_BASE
  ⟨0x400018, [],
   [⟨12, 52, .rw, 0, 0xFFFFFFFFFFFFF⟩],
   fun _ _ => 0x0⟩,
  -- EVT_POP
  ⟨0x400100, [(3, 0x8)],
   [⟨0, 64, .rc, 0, 0xFFFFFFFFFFFFFFFF⟩],
   fun _ _ => 0x0⟩,
  -- EVT_LATCH
  ⟨0x400120, [(3, 0x20), (4, 0x8)],
   [⟨0, 64, .ro, 0, 0xFFFFFFFFFFFFFFFF⟩],
   fun _ _ => 0x0⟩,
  -- EVT_CFG
  ⟨0x400180, [(3, 0x8)],
   [⟨12, 20, .rw, 0, 0xF4240⟩, ⟨0, 12, .rw, 0, 4095⟩],
   fun _ _ => 0x3E8001⟩,
  -- EVT_STATUS
  ⟨0x4001A0, [(3, 0x8)],
   [⟨32, 32, .ro, 0, 0xFFFFFFFF⟩, ⟨0, 14, .ro, 0, 16383⟩],
   fun _ _ => 0x0⟩,
  -- PUNT_RING word 0
  ⟨0x410000, [(64, 0x40)],
   [⟨0, 64, .rw, 0, 0xFFFFFFFFFFFFFFFF⟩],
   fun _ _ => 0x0⟩,
  -- PUNT_RING word 1
  ⟨0x410008, [(64, 0x40)],
   [⟨63, 1, .rw, 0, 1⟩, ⟨62, 1, .rw, 0, 1⟩, ⟨32, 20, .rw, 0, 0xF4240⟩, ⟨0, 4, .rw, 6, 16⟩],
   fun _ _ => 0x0⟩,
  -- PUNT_RING word 2
  ⟨0x410010, [(64, 0x40)],
   [⟨0, 32, .rw, 0, 0xFFFFFFFF⟩],
   fun _ _ => 0x0⟩,
  -- PUNT_RING word 3
  ⟨0x410018, [(64, 0x40)],
   [⟨0, 32, .ro, 0, 0xFFFFFFFF⟩],
   fun _ _ => 0x0⟩,
  -- PUNT_RING word 4
  ⟨0x410020, [(64, 0x40)],
   [⟨0, 64, .rw, 0, 0xFFFFFFFFFFFFFFFF⟩],
   fun _ _ => 0x0⟩,
  -- PUNT_RING word 5
  ⟨0x410028, [(64, 0x40)],
   [⟨0, 64, .ro, 0, 0xFFFFFFFFFFFFFFFF⟩],
   fun _ _ => 0x0⟩,
  -- PUNT_RING word 6
  ⟨0x410030, [(64, 0x40)],
   [⟨32, 32, .ro, 0, 0xFFFFFFFF⟩, ⟨16, 16, .ro, 0, 65535⟩, ⟨0, 16, .ro, 0, 65535⟩],
   fun _ _ => 0x0⟩,
  -- INJ_RING word 0
  ⟨0x411000, [(64, 0x80)],
   [⟨0, 64, .rw, 0, 0xFFFFFFFFFFFFFFFF⟩],
   fun _ _ => 0x0⟩,
  -- INJ_RING word 1
  ⟨0x411008, [(64, 0x80)],
   [⟨63, 1, .rw, 0, 1⟩, ⟨8, 4, .rw, 4, 16⟩, ⟨0, 4, .rw, 4, 16⟩],
   fun _ _ => 0x0⟩,
  -- INJ_RING word 2
  ⟨0x411010, [(64, 0x80)],
   [⟨0, 32, .rw, 0, 0xFFFFFFFF⟩],
   fun _ _ => 0x0⟩,
  -- INJ_RING word 3
  ⟨0x411018, [(64, 0x80)],
   [⟨0, 32, .ro, 0, 0xFFFFFFFF⟩],
   fun _ _ => 0x0⟩,
  -- INJ_RING word 4
  ⟨0x411020, [(64, 0x80)],
   [⟨0, 64, .rw, 0, 0xFFFFFFFFFFFFFFFF⟩],
   fun _ _ => 0x0⟩,
  -- INJ_RING word 5
  ⟨0x411028, [(64, 0x80)],
   [⟨0, 32, .rw, 0, 0xFFFFFFFF⟩],
   fun _ _ => 0x0⟩,
  -- INJ_RING word 6
  ⟨0x411030, [(64, 0x80)],
   [⟨0, 32, .ro, 0, 0xFFFFFFFF⟩],
   fun _ _ => 0x0⟩,
  -- INJ_RING word 7
  ⟨0x411038, [(64, 0x80)],
   [⟨0, 64, .rw, 0, 0xFFFFFFFFFFFFFFFF⟩],
   fun _ _ => 0x0⟩,
  -- INJ_RING word 8
  ⟨0x411040, [(64, 0x80)],
   [⟨0, 64, .rw, 0, 0xFFFFFFFFFFFFFFFF⟩],
   fun _ _ => 0x0⟩,
  -- INJ_RING word 9
  ⟨0x411048, [(64, 0x80)],
   [⟨0, 64, .ro, 0, 0xFFFFFFFFFFFFFFFF⟩],
   fun _ _ => 0x0⟩,
  -- INJ_RING word 10
  ⟨0x411050, [(64, 0x80)],
   [⟨32, 32, .ro, 0, 0xFFFFFFFF⟩, ⟨0, 32, .ro, 0, 0xFFFFFFFF⟩],
   fun _ _ => 0x0⟩,
  -- MSIX_TABLE
  ⟨0x420000, [(2048, 0x10), (2, 0x8)],
   [⟨0, 64, .rw, 0, 0xFFFFFFFFFFFFFFFF⟩],
   fun _ x => if (x.getD 1 0) = 1 then 2^32 else 0⟩,
  -- MSIX_PBA
  ⟨0x428000, [(32, 0x8)],
   [⟨0, 64, .ro, 0, 0xFFFFFFFFFFFFFFFF⟩],
   fun _ _ => 0x0⟩]

/-- The registers of block MGMT (R16). -/
def mgmtRegs : List RegSpec := [
  -- BOOT_STATUS
  ⟨0x500000, [],
   [⟨48, 16, .ro, 0, 65535⟩, ⟨16, 32, .ro, 0, 0xFFFFFFFF⟩, ⟨12, 4, .ro, 0, 15⟩, ⟨8, 4, .ro, 0, 15⟩, ⟨4, 1, .ro, 0, 1⟩, ⟨0, 4, .ro, 0, 15⟩],
   fun _ _ => 0x0⟩,
  -- SPIM_CFG
  ⟨0x500100, [],
   [⟨0, 7, .rw, 5, 100⟩],
   fun _ _ => 0x14⟩,
  -- SPIM_CMD
  ⟨0x500108, [],
   [⟨32, 32, .rw, 0, 0xFFFFFFFF⟩, ⟨24, 8, .rw, 0, 255⟩, ⟨22, 2, .rw, 0, 3⟩, ⟨21, 1, .rw, 0, 1⟩, ⟨16, 4, .rw, 0, 15⟩, ⟨8, 8, .rw, 0, 255⟩, ⟨0, 8, .rw, 0, 255⟩],
   fun _ _ => 0x0⟩,
  -- SPIM_STATUS
  ⟨0x500110, [],
   [⟨1, 4, .ro, 0, 15⟩, ⟨0, 1, .ro, 0, 1⟩],
   fun _ _ => 0x0⟩,
  -- SPIM_DATA
  ⟨0x500200, [(32, 0x8)],
   [⟨0, 64, .rw, 0, 0xFFFFFFFFFFFFFFFF⟩],
   fun _ _ => 0x0⟩,
  -- SPIS_STATUS
  ⟨0x500300, [],
   [⟨48, 16, .rc, 0, 65535⟩, ⟨0, 4, .rc, 0, 15⟩],
   fun _ _ => 0x0⟩,
  -- SPIS_CNT
  ⟨0x500308, [],
   [⟨32, 32, .ro, 0, 0xFFFFFFFF⟩, ⟨0, 32, .ro, 0, 0xFFFFFFFF⟩],
   fun _ _ => 0x0⟩,
  -- UART_CFG
  ⟨0x500400, [],
   [⟨63, 1, .rw, 0, 1⟩, ⟨20, 1, .rw, 0, 1⟩, ⟨18, 2, .rw, 0, 2⟩, ⟨0, 17, .rw, 333, 0x196E7⟩],
   fun _ _ => 0x80000000000021E9⟩,
  -- UART_STATUS
  ⟨0x500408, [],
   [⟨48, 16, .rc, 0, 65535⟩, ⟨32, 16, .rc, 0, 65535⟩, ⟨24, 8, .rc, 0, 255⟩, ⟨16, 8, .rc, 0, 255⟩, ⟨8, 7, .ro, 0, 127⟩, ⟨0, 7, .ro, 0, 127⟩],
   fun _ _ => 0x0⟩,
  -- UART_DATA
  ⟨0x500410, [],
   [⟨8, 1, .rc, 0, 1⟩, ⟨0, 8, .rc, 0, 255⟩],
   fun _ _ => 0x0⟩,
  -- JTAG_STATUS
  ⟨0x500500, [],
   [⟨0, 1, .ro, 0, 1⟩],
   fun _ _ => 0x0⟩]

/-- The registers of block PERF (R16). -/
def perfRegs : List RegSpec := [
  -- DUMP_CTRL
  ⟨0x600000, [],
   [⟨63, 1, .rw, 0, 1⟩, ⟨62, 1, .rw, 0, 1⟩, ⟨48, 4, .rw, 0, 15⟩],
   fun _ _ => 0x0⟩,
  -- DUMP_PERIOD
  ⟨0x600008, [],
   [⟨0, 30, .rw, 10000, 0x3B9ACA00⟩],
   fun _ _ => 0xF4240⟩,
  -- DUMP_BASE
  ⟨0x600010, [],
   [⟨0, 64, .rw, 0, 0xFFFFFFFFFFFFFFFF⟩],
   fun _ _ => 0x0⟩,
  -- DUMP_STATUS
  ⟨0x600018, [],
   [⟨40, 24, .ro, 0, 0xFFFFFF⟩, ⟨24, 16, .ro, 0, 65535⟩, ⟨20, 1, .ro, 0, 1⟩, ⟨0, 19, .ro, 0, 0x7FFFF⟩],
   fun _ _ => 0x0⟩,
  -- DUMP_SEQ
  ⟨0x600020, [],
   [⟨0, 64, .ro, 0, 0xFFFFFFFFFFFFFFFF⟩],
   fun _ _ => 0x0⟩,
  -- DUMP_TALLY
  ⟨0x600028, [],
   [⟨0, 1, .w1s, 0, 1⟩],
   fun _ _ => 0x0⟩,
  -- PERF_SNAP_ADDR
  ⟨0x600030, [],
   [⟨63, 1, .ro, 0, 1⟩, ⟨0, 26, .rw, 0, 0x3FFFFFF⟩],
   fun _ _ => 0x0⟩,
  -- PERF_SNAP_DATA
  ⟨0x600038, [],
   [⟨0, 64, .ro, 0, 0xFFFFFFFFFFFFFFFF⟩],
   fun _ _ => 0x0⟩,
  -- DUMP_LIST
  ⟨0x600100, [(64, 0x8)],
   [⟨63, 1, .rw, 0, 1⟩, ⟨32, 16, .rw, 0, 65535⟩, ⟨0, 26, .rw, 0, 0x3FFFFFF⟩],
   fun _ _ => 0x0⟩]

/-- The registers of block PAIR (R16). -/
def pairRegs : List RegSpec := [
  -- PAIR_ROLE
  ⟨0x700000, [],
   [⟨1, 1, .rwv, 0, 1⟩, ⟨0, 1, .rwv, 0, 1⟩],
   fun _ _ => 0x0⟩,
  -- PAIR_CFG
  ⟨0x700008, [],
   [⟨32, 16, .rw, 5, 1000⟩, ⟨16, 6, .rw, 4, 50⟩, ⟨2, 1, .rw, 0, 1⟩, ⟨1, 1, .rw, 0, 1⟩],
   fun _ _ => 0x1400080004⟩,
  -- PAIR_STATUS
  ⟨0x700010, [],
   [⟨32, 4, .ro, 0, 15⟩, ⟨16, 9, .ro, 0, 511⟩, ⟨15, 1, .ro, 0, 1⟩, ⟨14, 1, .ro, 0, 1⟩, ⟨13, 1, .ro, 0, 1⟩, ⟨12, 1, .ro, 0, 1⟩, ⟨11, 1, .ro, 0, 1⟩, ⟨9, 2, .ro, 0, 3⟩, ⟨0, 4, .ro, 0, 15⟩],
   fun _ _ => 0x0⟩,
  -- PAIR_CTRL
  ⟨0x700018, [],
   [⟨3, 1, .w1s, 0, 1⟩, ⟨2, 1, .w1s, 0, 1⟩, ⟨1, 1, .w1s, 0, 1⟩, ⟨0, 1, .w1s, 0, 1⟩],
   fun _ _ => 0x0⟩,
  -- PAIR_ANCHOR
  ⟨0x700020, [(4, 0x8)],
   [⟨0, 64, .rwv, 0, 0xFFFFFFFFFFFFFFFF⟩],
   fun _ _ => 0x0⟩,
  -- PAIR_ANCHOR_NEXT
  ⟨0x700040, [(4, 0x8)],
   [⟨0, 64, .rw, 0, 0xFFFFFFFFFFFFFFFF⟩],
   fun _ _ => 0x0⟩,
  -- PAIR_EFFECTIVE
  ⟨0x700060, [(4, 0x8)],
   [⟨0, 64, .ro, 0, 0xFFFFFFFFFFFFFFFF⟩],
   fun _ _ => 0x0⟩,
  -- PAIR_ADOPTED
  ⟨0x700080, [(4, 0x8)],
   [⟨0, 64, .ro, 0, 0xFFFFFFFFFFFFFFFF⟩],
   fun _ _ => 0x0⟩,
  -- PAIR_TAKEOVER_STATUS
  ⟨0x7000A0, [],
   [⟨32, 32, .rc, 0, 0xFFFFFFFF⟩, ⟨16, 16, .rc, 0, 65535⟩, ⟨1, 15, .rc, 0, 32767⟩, ⟨0, 1, .rc, 0, 1⟩],
   fun _ _ => 0x0⟩,
  -- JOURNAL_STATUS
  ⟨0x7000A8, [],
   [⟨32, 17, .ro, 0, 0x1FFFF⟩],
   fun _ _ => 0x0⟩,
  -- JOURNAL_TX_SEQ
  ⟨0x7000B0, [],
   [⟨0, 64, .ro, 0, 0xFFFFFFFFFFFFFFFF⟩],
   fun _ _ => 0x0⟩,
  -- JOURNAL_RX_SEQ
  ⟨0x7000B8, [],
   [⟨0, 64, .ro, 0, 0xFFFFFFFFFFFFFFFF⟩],
   fun _ _ => 0x0⟩,
  -- CKPT_SEL
  ⟨0x7000C0, [],
   [⟨0, 16, .rw, 0, 65535⟩],
   fun _ _ => 0x0⟩,
  -- CKPT_VALUE
  ⟨0x7000C8, [],
   [⟨0, 64, .ro, 0, 0xFFFFFFFFFFFFFFFF⟩],
   fun _ _ => 0x0⟩,
  -- PEER_ACC_CMD
  ⟨0x700100, [],
   [⟨32, 32, .rw, 0, 0xFFFFFFFF⟩, ⟨0, 2, .rw, 1, 2⟩],
   fun _ _ => 0x0⟩,
  -- PEER_ACC_STATUS
  ⟨0x700108, [],
   [⟨1, 4, .ro, 0, 15⟩, ⟨0, 1, .ro, 0, 1⟩],
   fun _ _ => 0x0⟩,
  -- PEER_ACC_DATA
  ⟨0x700110, [],
   [⟨0, 64, .rw, 0, 0xFFFFFFFFFFFFFFFF⟩],
   fun _ _ => 0x0⟩,
  -- PAIR_DROP
  ⟨0x700200, [(16, 0x8)],
   [⟨0, 64, .ro, 0, 0xFFFFFFFFFFFFFFFF⟩],
   fun _ _ => 0x0⟩,
  -- PAIR_CNT
  ⟨0x700280, [(16, 0x8)],
   [⟨0, 64, .ro, 0, 0xFFFFFFFFFFFFFFFF⟩],
   fun _ _ => 0x0⟩,
  -- PAIR_TABLE_CFG
  ⟨0x700400, [(64, 0x8)],
   [⟨63, 1, .rw, 0, 1⟩, ⟨0, 9, .rw, 0, 511⟩],
   fun _ _ => 0x0⟩]

/-- The registers of block STRIP (R16). -/
def stripRegs : List RegSpec := [
  -- STRIP_CTRL
  ⟨0x800000, [(8, 0x100000)],
   [⟨0, 1, .rw, 0, 1⟩],
   fun _ _ => 0x0⟩,
  -- STRIP_STATUS
  ⟨0x800008, [(8, 0x100000)],
   [⟨48, 16, .ro, 0, 65535⟩, ⟨16, 25, .ro, 0, 0x1FFFFFF⟩, ⟨1, 1, .ro, 0, 1⟩, ⟨0, 1, .ro, 0, 1⟩],
   fun _ _ => 0x0⟩,
  -- ENGINE_STATUS
  ⟨0x800010, [(8, 0x100000), (4, 0x8)],
   [⟨32, 32, .ro, 0, 0xFFFFFFFF⟩, ⟨16, 4, .ro, 0, 15⟩, ⟨0, 9, .ro, 0, 511⟩],
   fun _ _ => 0x0⟩,
  -- PORT_MODE
  ⟨0x800100, [(8, 0x100000), (64, 0x8)],
   [⟨16, 16, .rw, 64, 16383⟩, ⟨15, 1, .rw, 0, 1⟩, ⟨10, 2, .rw, 0, 3⟩, ⟨4, 4, .rw, 0, 15⟩, ⟨0, 1, .rwv, 0, 1⟩],
   fun _ _ => 0x24000000⟩,
  -- FALLBACK
  ⟨0x800300, [(8, 0x100000), (64, 0x8)],
   [⟨8, 4, .rw, 0, 15⟩, ⟨4, 4, .rw, 0, 15⟩, ⟨0, 4, .rw, 0, 15⟩],
   fun _ _ => 0x0⟩,
  -- LINK_CFG
  ⟨0x800500, [(8, 0x100000), (64, 0x8)],
   [⟨48, 16, .rw, 1, 3600⟩, ⟨36, 12, .rw, 10, 4000⟩, ⟨24, 12, .rw, 0, 4000⟩, ⟨16, 8, .rw, 1, 255⟩, ⟨0, 16, .rw, 1, 65535⟩],
   fun _ _ => 0xA1F4000100014⟩,
  -- PORT_STATE
  ⟨0x800700, [(8, 0x100000), (64, 0x8)],
   [⟨12, 4, .ro, 0, 15⟩, ⟨11, 1, .ro, 0, 1⟩, ⟨10, 1, .ro, 0, 1⟩, ⟨9, 1, .ro, 0, 1⟩, ⟨8, 1, .ro, 0, 1⟩, ⟨4, 4, .ro, 0, 15⟩, ⟨0, 4, .ro, 0, 15⟩],
   fun _ _ => 0x0⟩,
  -- PRIO_CFG
  ⟨0x800900, [(8, 0x100000), (64, 0x8)],
   [⟨62, 2, .rw, 0, 3⟩, ⟨56, 3, .rw, 0, 7⟩, ⟨0, 24, .rw, 0, 0xFFFFFF⟩],
   fun _ _ => 0x0⟩,
  -- PFC_TX_CFG
  ⟨0x800B00, [(8, 0x100000), (64, 0x8)],
   [⟨48, 16, .rw, 1, 65535⟩, ⟨32, 16, .rw, 0, 65535⟩, ⟨8, 1, .rw, 0, 1⟩],
   fun _ _ => 0xFFFF7FFF00000100⟩,
  -- PFC_RX_STATE
  ⟨0x800D00, [(8, 0x100000), (64, 0x8)],
   [⟨0, 8, .ro, 0, 255⟩],
   fun _ _ => 0x0⟩,
  -- PDELAY_CFG
  ⟨0x800F00, [(8, 0x100000), (64, 0x8)],
   [⟨63, 1, .rw, 0, 1⟩, ⟨62, 1, .rw, 0, 1⟩, ⟨48, 8, .rw, 0, 255⟩, ⟨32, 16, .rw, 10, 1000⟩],
   fun _ _ => 0x7D00000000⟩,
  -- PDELAY_STATUS
  ⟨0x801100, [(8, 0x100000), (64, 0x8)],
   [⟨63, 1, .ro, 0, 1⟩, ⟨32, 18, .ro, 0, 0x3FFFF⟩, ⟨16, 16, .ro, 0, 65535⟩, ⟨0, 16, .ro, 0, 65535⟩],
   fun _ _ => 0x0⟩,
  -- PORT_MAC
  ⟨0x801300, [(8, 0x100000), (64, 0x8)],
   [⟨0, 48, .rw, 0, 0xFFFFFFFFFFFF⟩],
   fun _ _ => 0x0⟩,
  -- LANE_CFG
  ⟨0x801500, [(8, 0x100000), (64, 0x8)],
   [⟨1, 1, .rw, 0, 1⟩, ⟨0, 1, .rw, 0, 1⟩],
   fun _ _ => 0x0⟩,
  -- DSCP_MAP
  ⟨0x801800, [(8, 0x100000), (64, 0x20), (4, 0x8)],
   [⟨0, 3, .rw, 0, 7⟩, ⟨4, 3, .rw, 0, 7⟩, ⟨8, 3, .rw, 0, 7⟩, ⟨12, 3, .rw, 0, 7⟩, ⟨16, 3, .rw, 0, 7⟩, ⟨20, 3, .rw, 0, 7⟩, ⟨24, 3, .rw, 0, 7⟩, ⟨28, 3, .rw, 0, 7⟩, ⟨32, 3, .rw, 0, 7⟩, ⟨36, 3, .rw, 0, 7⟩, ⟨40, 3, .rw, 0, 7⟩, ⟨44, 3, .rw, 0, 7⟩, ⟨48, 3, .rw, 0, 7⟩, ⟨52, 3, .rw, 0, 7⟩, ⟨56, 3, .rw, 0, 7⟩, ⟨60, 3, .rw, 0, 7⟩],
   fun _ _ => 0x0⟩,
  -- STRIP_DROP
  ⟨0x802000, [(8, 0x100000), (32, 0x8)],
   [⟨0, 64, .ro, 0, 0xFFFFFFFFFFFFFFFF⟩],
   fun _ _ => 0x0⟩,
  -- STRIP_CNT
  ⟨0x804000, [(8, 0x100000), (64, 0x80), (16, 0x8)],
   [⟨0, 64, .ro, 0, 0xFFFFFFFFFFFFFFFF⟩],
   fun _ _ => 0x0⟩,
  -- AGG_CFG
  ⟨0x870000, [],
   [⟨63, 1, .rw, 0, 1⟩, ⟨56, 6, .rw, 0, 63⟩, ⟨0, 25, .rw, 0, 0x1FFFFFF⟩],
   fun _ _ => 0x0⟩,
  -- AGG_STATUS
  ⟨0x870008, [],
   [⟨32, 32, .ro, 0, 0xFFFFFFFF⟩, ⟨1, 1, .ro, 0, 1⟩, ⟨0, 1, .ro, 0, 1⟩],
   fun _ _ => 0x0⟩,
  -- PTP_CLOCK_ID
  ⟨0x870010, [],
   [⟨0, 64, .rw, 0, 0xFFFFFFFFFFFFFFFF⟩],
   fun _ _ => 0x0⟩,
  -- AGG_GROUP
  ⟨0x870800, [(256, 0x8)],
   [⟨63, 1, .rw, 0, 1⟩, ⟨62, 1, .rw, 0, 1⟩, ⟨8, 5, .ro, 0, 31⟩, ⟨0, 5, .ro, 0, 31⟩],
   fun _ _ => 0x0⟩,
  -- AGG_PORT word 0
  ⟨0x871000, [(512, 0x10)],
   [⟨63, 1, .rw, 0, 1⟩, ⟨0, 8, .rw, 0, 255⟩],
   fun _ _ => 0x0⟩,
  -- AGG_PORT word 1
  ⟨0x871008, [(512, 0x10)],
   [⟨0, 59, .rw, 0, 0x7FFFFFFFFFFFFFF⟩],
   fun _ _ => 0x0⟩]

/-- The registers of block ACRE (R16). -/
def acreRegs : List RegSpec := [
  -- FURROW_MAP
  ⟨0x1050000, [(4, 0x100000), (128, 0x8)],
   [⟨32, 5, .rw, 0, 16⟩, ⟨0, 5, .rw, 0, 16⟩],
   fun _ x => ((2*(x.getD 1 0)+1) % 16) * 2^32 + (2*(x.getD 1 0)) % 16⟩,
  -- ACRE_MAP
  ⟨0x1050400, [(4, 0x100000), (32, 0x8)],
   [⟨32, 2, .rw, 0, 3⟩, ⟨0, 2, .rw, 0, 3⟩],
   fun p x => if p then ((2*(x.getD 1 0)+1) % 2) * 2^32 + (2*(x.getD 1 0)) % 2 else ((2*(x.getD 1 0)+1) % 4) * 2^32 + (2*(x.getD 1 0)) % 4⟩,
  -- FURROW_STATUS
  ⟨0x1000000, [(4, 0x100000), (17, 0x4000)],
   [⟨32, 8, .ro, 0, 255⟩, ⟨10, 11, .ro, 0, 2047⟩, ⟨0, 10, .ro, 0, 1023⟩],
   fun _ _ => 0x0⟩,
  -- FURROW_TRAP
  ⟨0x1000008, [(4, 0x100000), (17, 0x4000)],
   [⟨32, 32, .rc, 0, 0xFFFFFFFF⟩, ⟨22, 5, .rc, 0, 31⟩, ⟨12, 10, .rc, 0, 1023⟩, ⟨8, 4, .rc, 0, 15⟩, ⟨0, 1, .rc, 0, 1⟩],
   fun _ _ => 0x0⟩,
  -- FURROW_DROP
  ⟨0x1000100, [(4, 0x100000), (17, 0x4000), (32, 0x8)],
   [⟨0, 64, .ro, 0, 0xFFFFFFFFFFFFFFFF⟩],
   fun _ _ => 0x0⟩,
  -- FURROW_OPCNT
  ⟨0x1000200, [(4, 0x100000), (17, 0x4000), (7, 0x8)],
   [⟨0, 64, .ro, 0, 0xFFFFFFFFFFFFFFFF⟩],
   fun _ _ => 0x0⟩,
  -- FURROW_CYCLES
  ⟨0x1000300, [(4, 0x100000), (17, 0x4000)],
   [⟨0, 64, .ro, 0, 0xFFFFFFFFFFFFFFFF⟩],
   fun _ _ => 0x0⟩,
  -- FURROW_TD
  ⟨0x1000400, [(4, 0x100000), (17, 0x4000), (24, 0x20), (4, 0x8)],
   [⟨0, 64, .ro, 0, 0xFFFFFFFFFFFFFFFF⟩],
   fun _ _ => 0x0⟩,
  -- FURROW_RDROP
  ⟨0x1000800, [(4, 0x100000), (17, 0x4000), (32, 0x8)],
   [⟨0, 64, .ro, 0, 0xFFFFFFFFFFFFFFFF⟩],
   fun _ _ => 0x0⟩,
  -- FURROW_ROLE
  ⟨0x1050800, [(4, 0x100000), (17, 0x8)],
   [⟨12, 4, .ro, 0, 15⟩, ⟨8, 1, .ro, 0, 1⟩, ⟨4, 3, .wo, 0, 7⟩, ⟨0, 3, .ro, 0, 7⟩],
   fun _ x => if (x.getD 1 0) = 16 then 1 else 0⟩,
  -- PKT_DEADLINE
  ⟨0x1050900, [(4, 0x100000)],
   [⟨0, 15, .rw, 200, 20000⟩],
   fun _ _ => 0x7D0⟩,
  -- REHASH_HOLD
  ⟨0x1050908, [(4, 0x100000)],
   [⟨0, 17, .rw, 500, 50000⟩],
   fun _ _ => 0x1388⟩,
  -- REHASH_STATUS
  ⟨0x1050910, [(4, 0x100000)],
   [⟨48, 1, .ro, 0, 1⟩, ⟨32, 16, .ro, 0, 65535⟩, ⟨20, 11, .ro, 0, 2047⟩, ⟨14, 5, .ro, 0, 31⟩, ⟨9, 5, .ro, 0, 31⟩, ⟨1, 8, .ro, 0, 255⟩, ⟨0, 1, .ro, 0, 1⟩],
   fun _ _ => 0x0⟩,
  -- QUIESCE_STATUS
  ⟨0x1050918, [(4, 0x100000)],
   [⟨16, 16, .ro, 0, 65535⟩, ⟨4, 1, .ro, 0, 1⟩, ⟨1, 3, .ro, 0, 7⟩, ⟨0, 1, .ro, 0, 1⟩],
   fun _ _ => 0x0⟩,
  -- TAKEOVER_STATUS
  ⟨0x1050920, [(4, 0x100000)],
   [⟨32, 32, .rc, 0, 0xFFFFFFFF⟩, ⟨16, 16, .rc, 0, 65535⟩, ⟨6, 5, .rc, 0, 31⟩, ⟨1, 5, .rc, 0, 31⟩, ⟨0, 1, .rc, 0, 1⟩],
   fun _ _ => 0x0⟩]

/-- The registers of block HARROW (R16). -/
def harrowRegs : List RegSpec := [
  -- HSTATE
  ⟨0x1400000, [(4, 0x20000), (256, 0x20), (4, 0x8)],
   [⟨0, 64, .ro, 0, 0xFFFFFFFFFFFFFFFF⟩],
   fun _ _ => 0x0⟩,
  -- HTRANS
  ⟨0x1402000, [(4, 0x20000), (2048, 0x10), (2, 0x8)],
   [⟨0, 64, .ro, 0, 0xFFFFFFFFFFFFFFFF⟩],
   fun _ _ => 0x0⟩,
  -- HOLD_RULE
  ⟨0x140A000, [(4, 0x20000), (1024, 0x10), (2, 0x8)],
   [⟨0, 64, .ro, 0, 0xFFFFFFFFFFFFFFFF⟩],
   fun _ _ => 0x0⟩,
  -- HPORT
  ⟨0x140E000, [(4, 0x20000), (128, 0x8)],
   [⟨21, 8, .rw, 0, 255⟩, ⟨20, 1, .rw, 0, 1⟩, ⟨18, 2, .rw, 0, 2⟩, ⟨17, 1, .rw, 0, 1⟩, ⟨16, 1, .rw, 0, 1⟩, ⟨8, 8, .rw, 0, 255⟩, ⟨0, 8, .rw, 0, 255⟩],
   fun _ _ => 0x0⟩,
  -- HARROW_WDATA
  ⟨0x140F000, [(4, 0x20000), (4, 0x8)],
   [⟨0, 64, .rw, 0, 0xFFFFFFFFFFFFFFFF⟩],
   fun _ _ => 0x0⟩,
  -- HARROW_WCMD
  ⟨0x140F020, [(4, 0x20000)],
   [⟨2, 11, .rw, 0, 2047⟩, ⟨0, 2, .rw, 0, 3⟩],
   fun _ _ => 0x0⟩,
  -- HARROW_CFG
  ⟨0x140F028, [(4, 0x20000)],
   [⟨8, 8, .rw, 0, 255⟩, ⟨0, 8, .rw, 0, 255⟩],
   fun _ _ => 0x0⟩,
  -- FRAG_CFG
  ⟨0x140F030, [(4, 0x20000)],
   [⟨16, 16, .rw, 0, 1000⟩, ⟨0, 16, .rw, 100, 50000⟩],
   fun _ _ => 0xC807D0⟩,
  -- HARROW_STATUS
  ⟨0x140F038, [(4, 0x20000)],
   [⟨32, 17, .ro, 0, 0x1FFFF⟩, ⟨12, 13, .ro, 0, 8191⟩, ⟨0, 11, .ro, 0, 2047⟩],
   fun _ _ => 0x0⟩,
  -- HARROW_ERR_LAST
  ⟨0x140F040, [(4, 0x20000)],
   [⟨32, 32, .rc, 0, 0xFFFFFFFF⟩, ⟨21, 9, .rc, 0, 511⟩, ⟨12, 9, .rc, 0, 511⟩, ⟨4, 8, .rc, 0, 255⟩, ⟨1, 3, .rc, 0, 7⟩, ⟨0, 1, .rc, 0, 1⟩],
   fun _ _ => 0x0⟩,
  -- HARROW_DROP
  ⟨0x140F100, [(4, 0x20000), (32, 0x8)],
   [⟨0, 64, .ro, 0, 0xFFFFFFFFFFFFFFFF⟩],
   fun _ _ => 0x0⟩,
  -- HARROW_EVT
  ⟨0x140F200, [(4, 0x20000), (32, 0x8)],
   [⟨0, 64, .ro, 0, 0xFFFFFFFFFFFFFFFF⟩],
   fun _ _ => 0x0⟩,
  -- PUNT_POLICER
  ⟨0x1410000, [(256, 0x8)],
   [⟨40, 6, .rw, 0, 63⟩, ⟨24, 16, .rw, 1, 65535⟩, ⟨0, 24, .rw, 0, 0x989680⟩],
   fun _ x => ((x.getD 0 0) % 64) * 2^40 + 0x40 * 2^24 + 0x3E8⟩,
  -- PUNT_CEILING
  ⟨0x1410800, [],
   [⟨24, 16, .rw, 1, 65535⟩, ⟨0, 24, .rw, 1, 0x1312D00⟩],
   fun _ _ => 0x4000186A0⟩,
  -- HOLDING_OPEN
  ⟨0x1410808, [(4, 0x8)],
   [⟨0, 64, .rwv, 0, 0xFFFFFFFFFFFFFFFF⟩],
   fun _ _ => 0x0⟩,
  -- PUNT_CNT
  ⟨0x1411000, [(256, 0x10), (2, 0x8)],
   [⟨0, 64, .ro, 0, 0xFFFFFFFFFFFFFFFF⟩],
   fun _ _ => 0x0⟩]

/-- The registers of block ORCHARD (R16). -/
def orchardRegs : List RegSpec := [
  -- ORCHARD_CMD
  ⟨0x1500000, [],
   [⟨38, 1, .rw, 0, 1⟩, ⟨13, 25, .rw, 0, 0x1FFFFFF⟩, ⟨7, 6, .rw, 0, 63⟩, ⟨0, 3, .rw, 1, 6⟩],
   fun _ _ => 0x0⟩,
  -- ORCHARD_STATUS
  ⟨0x1500008, [],
   [⟨40, 24, .ro, 0, 0xFFFFFF⟩, ⟨13, 25, .ro, 0, 0x1FFFFFF⟩, ⟨5, 4, .ro, 0, 15⟩, ⟨0, 1, .ro, 0, 1⟩],
   fun _ _ => 0x0⟩,
  -- ORCHARD_DATA
  ⟨0x1500100, [(16, 0x8)],
   [⟨0, 64, .rw, 0, 0xFFFFFFFFFFFFFFFF⟩],
   fun _ _ => 0x0⟩,
  -- ORCHARD_KEY
  ⟨0x1500200, [(8, 0x8)],
   [⟨0, 64, .rw, 0, 0xFFFFFFFFFFFFFFFF⟩],
   fun _ _ => 0x0⟩,
  -- PROFILE_SEL
  ⟨0x1500300, [],
   [⟨0, 1, .rwv, 0, 1⟩],
   fun _ _ => 0x0⟩,
  -- PROFILE_STATUS
  ⟨0x1500308, [],
   [⟨32, 32, .ro, 0, 0xFFFFFFFF⟩, ⟨16, 16, .ro, 0, 65535⟩, ⟨12, 4, .ro, 0, 15⟩, ⟨2, 1, .ro, 0, 1⟩, ⟨1, 1, .ro, 0, 1⟩, ⟨0, 1, .ro, 0, 1⟩],
   fun _ _ => 0x0⟩,
  -- LEARN_CFG
  ⟨0x1500310, [],
   [⟨16, 8, .rw, 1, 200⟩, ⟨0, 4, .rw, 1, 14⟩],
   fun _ _ => 0xA0008⟩,
  -- AGE_CFG
  ⟨0x1500318, [],
   [⟨32, 1, .rw, 0, 1⟩, ⟨16, 16, .rw, 1, 2047⟩, ⟨0, 16, .rw, 1, 10000⟩],
   fun _ _ => 0x12C03E8⟩,
  -- LEARN_STATUS
  ⟨0x1500320, [],
   [⟨17, 47, .ro, 0, 0x7FFFFFFFFFFF⟩, ⟨0, 17, .ro, 0, 0x1FFFF⟩],
   fun _ _ => 0x0⟩,
  -- GLEAN_STATUS
  ⟨0x1500328, [],
   [⟨32, 32, .rc, 0, 0xFFFFFFFF⟩, ⟨21, 11, .rc, 0, 2047⟩, ⟨11, 10, .rc, 0, 1023⟩, ⟨9, 2, .rc, 0, 3⟩, ⟨0, 1, .rc, 0, 1⟩],
   fun _ _ => 0x0⟩,
  -- ORCHARD_DEV_CNT
  ⟨0x1500330, [(4, 0x8)],
   [⟨0, 64, .ro, 0, 0xFFFFFFFFFFFFFFFF⟩],
   fun _ _ => 0x0⟩,
  -- FILTER_SEL
  ⟨0x1500350, [],
   [⟨0, 6, .rw, 0, 63⟩],
   fun _ _ => 0x0⟩,
  -- TABLE_DESC
  ⟨0x1510000, [(2, 0x2000), (64, 0x8)],
   [⟨63, 1, .rw, 0, 1⟩, ⟨40, 6, .rw, 0, 63⟩, ⟨39, 1, .rw, 0, 1⟩, ⟨38, 1, .rw, 0, 1⟩, ⟨29, 9, .rw, 0, 511⟩, ⟨28, 1, .rw, 0, 1⟩, ⟨25, 3, .rw, 0, 7⟩, ⟨12, 13, .rw, 0, 8191⟩, ⟨0, 11, .rw, 0, 2047⟩],
   fun _ _ => 0x0⟩,
  -- TABLE_SEED
  ⟨0x1510200, [(2, 0x2000), (64, 0x8)],
   [⟨32, 32, .rw, 0, 0xFFFFFFFF⟩, ⟨0, 32, .rw, 0, 0xFFFFFFFF⟩],
   fun _ _ => 0x0⟩,
  -- MOVE_MASK
  ⟨0x1510400, [(2, 0x2000), (64, 0x8)],
   [⟨0, 64, .rw, 0, 0xFFFFFFFFFFFFFFFF⟩],
   fun _ _ => 0x0⟩,
  -- TYPE_DESC word 0
  ⟨0x1510800, [(2, 0x2000), (64, 0x10)],
   [⟨63, 1, .rw, 0, 1⟩, ⟨43, 1, .rw, 0, 1⟩, ⟨39, 4, .rw, 0, 15⟩, ⟨15, 24, .rw, 0, 0xFFFFFF⟩, ⟨10, 5, .rw, 0, 31⟩, ⟨7, 3, .rw, 0, 7⟩, ⟨0, 6, .rw, 0, 63⟩],
   fun _ _ => 0x0⟩,
  -- TYPE_DESC word 1
  ⟨0x1510808, [(2, 0x2000), (64, 0x10)],
   [⟨0, 25, .rw, 0, 0x1FFFFFF⟩],
   fun _ _ => 0x0⟩,
  -- TABLE_CNT
  ⟨0x1520000, [(64, 0x40), (8, 0x8)],
   [⟨0, 64, .ro, 0, 0xFFFFFFFFFFFFFFFF⟩],
   fun _ _ => 0x0⟩,
  -- FILTER
  ⟨0x1530000, [(256, 0x20), (4, 0x8)],
   [⟨0, 64, .ro, 0, 0xFFFFFFFFFFFFFFFF⟩],
   fun _ _ => 0x0⟩]

/-- The registers of block ASSOC (R16). -/
def assocRegs : List RegSpec := [
  -- ASSOC_CMD
  ⟨0x1600000, [],
   [⟨37, 1, .rw, 0, 1⟩, ⟨36, 1, .rw, 0, 1⟩, ⟨21, 15, .rw, 0, 32767⟩, ⟨6, 15, .rw, 0, 32767⟩, ⟨4, 2, .rw, 0, 3⟩, ⟨0, 3, .rw, 1, 5⟩],
   fun _ _ => 0x0⟩,
  -- ASSOC_STATUS
  ⟨0x1600008, [],
   [⟨40, 24, .ro, 0, 0xFFFFFF⟩, ⟨32, 8, .ro, 0, 255⟩, ⟨16, 15, .ro, 0, 32767⟩, ⟨12, 4, .ro, 0, 15⟩, ⟨0, 1, .ro, 0, 1⟩],
   fun _ _ => 0x0⟩,
  -- ASSOC_DATA
  ⟨0x1600100, [(11, 0x8)],
   [⟨0, 64, .rw, 0, 0xFFFFFFFFFFFFFFFF⟩],
   fun _ _ => 0x0⟩,
  -- ASSOC_CFG
  ⟨0x1600200, [],
   [⟨0, 1, .rw, 0, 1⟩],
   fun _ _ => 0x0⟩,
  -- ASSOC_GLEAN_STATUS
  ⟨0x1600208, [],
   [⟨32, 32, .rc, 0, 0xFFFFFFFF⟩, ⟨30, 2, .rc, 0, 3⟩, ⟨15, 15, .rc, 0, 32767⟩, ⟨0, 1, .rc, 0, 1⟩],
   fun _ _ => 0x0⟩,
  -- ASSOC_CNT
  ⟨0x1600300, [(4, 0x40), (8, 0x8)],
   [⟨0, 64, .ro, 0, 0xFFFFFFFFFFFFFFFF⟩],
   fun _ _ => 0x0⟩,
  -- SEG_MAP
  ⟨0x1610000, [(4, 0x800), (256, 0x8)],
   [⟨0, 64, .rwv, 0, 0xFFFFFFFFFFFFFFFF⟩],
   fun _ _ => 0x0⟩]

/-- The registers of block FABRIC (R16). -/
def fabricRegs : List RegSpec := [
  -- POOL_CFG
  ⟨0x1700000, [(64, 0x8)],
   [⟨18, 6, .rw, 0, 63⟩, ⟨0, 18, .rw, 0, 0x3FFFF⟩],
   fun _ x => if (x.getD 0 0) = 0 then 0x38000 else if (x.getD 0 0) = 63 then 0xFC8000 else (x.getD 0 0) * 0x40000⟩,
  -- HOLDING_POOL
  ⟨0x1700200, [(256, 0x8)],
   [⟨0, 6, .rw, 0, 62⟩],
   fun _ _ => 0x0⟩,
  -- LL_POOL
  ⟨0x1700A00, [(8, 0x8)],
   [⟨6, 1, .rw, 0, 1⟩, ⟨0, 6, .rw, 0, 62⟩],
   fun _ _ => 0x0⟩,
  -- CAPTURE_POOL
  ⟨0x1700A40, [],
   [⟨6, 1, .rw, 0, 1⟩, ⟨0, 6, .rw, 0, 62⟩],
   fun _ _ => 0x0⟩,
  -- ACRE_MOVE_CFG
  ⟨0x1700A48, [],
   [⟨0, 17, .rw, 500, 50000⟩],
   fun _ _ => 0x1388⟩,
  -- ACRE_MOVE_STATUS
  ⟨0x1700A50, [(4, 0x8)],
   [⟨32, 32, .ro, 0, 0xFFFFFFFF⟩, ⟨14, 14, .ro, 0, 16383⟩, ⟨12, 2, .ro, 0, 3⟩, ⟨10, 2, .ro, 0, 3⟩, ⟨4, 6, .ro, 0, 63⟩, ⟨1, 2, .ro, 0, 3⟩, ⟨0, 1, .ro, 0, 1⟩],
   fun _ _ => 0x0⟩,
  -- HEADLAND_STATUS
  ⟨0x1700A80, [],
   [⟨36, 13, .ro, 0, 8191⟩, ⟨18, 18, .ro, 0, 0x3FFFF⟩, ⟨0, 18, .ro, 0, 0x3FFFF⟩],
   fun _ _ => 0x0⟩,
  -- PTR_ERR_LAST
  ⟨0x1700A88, [],
   [⟨48, 16, .rc, 0, 65535⟩, ⟨6, 32, .rc, 0, 0xFFFFFFFF⟩, ⟨4, 2, .rc, 0, 3⟩, ⟨1, 3, .rc, 0, 7⟩, ⟨0, 1, .rc, 0, 1⟩],
   fun _ _ => 0x0⟩,
  -- FREE_STATUS
  ⟨0x1700B00, [(4, 0x8)],
   [⟨20, 19, .ro, 0, 0x7FFFF⟩, ⟨0, 19, .ro, 0, 0x7FFFF⟩],
   fun _ _ => 0x40000⟩,
  -- MC_CMD
  ⟨0x1700C00, [],
   [⟨3, 17, .rw, 0, 0x1FFFF⟩, ⟨0, 3, .rw, 1, 4⟩],
   fun _ _ => 0x0⟩,
  -- MC_STATUS
  ⟨0x1700C08, [],
   [⟨1, 4, .ro, 0, 15⟩, ⟨0, 1, .ro, 0, 1⟩],
   fun _ _ => 0x0⟩,
  -- MC_DATA
  ⟨0x1700C10, [],
   [⟨63, 1, .rw, 0, 1⟩, ⟨0, 33, .rw, 0, 0x1FFFFFFFF⟩],
   fun _ _ => 0x0⟩,
  -- POOL_USE
  ⟨0x1701000, [(4, 0x200), (64, 0x8)],
   [⟨0, 64, .ro, 0, 0xFFFFFFFFFFFFFFFF⟩],
   fun _ _ => 0x0⟩,
  -- FABRIC_DROP
  ⟨0x1701800, [(32, 0x8)],
   [⟨0, 64, .ro, 0, 0xFFFFFFFFFFFFFFFF⟩],
   fun _ _ => 0x0⟩,
  -- FABRIC_CNT
  ⟨0x1701900, [(4, 0x40), (8, 0x8)],
   [⟨0, 64, .ro, 0, 0xFFFFFFFFFFFFFFFF⟩],
   fun _ _ => 0x0⟩,
  -- PFC_CFG
  ⟨0x1710000, [(512, 0x40), (8, 0x8)],
   [⟨63, 1, .rw, 0, 1⟩, ⟨21, 21, .rw, 0, 0x1FFFFF⟩, ⟨0, 21, .rw, 1, 0xFFFFF⟩],
   fun _ _ => 0x200002000⟩,
  -- HL_PORT
  ⟨0x1718000, [(512, 0x8)],
   [⟨24, 8, .rw, 44, 255⟩, ⟨16, 8, .rw, 0, 255⟩, ⟨0, 16, .rw, 1, 40000⟩],
   fun _ _ => 0x2C202710⟩,
  -- PP_STATUS
  ⟨0x1720000, [(512, 0x40), (8, 0x8)],
   [⟨62, 2, .ro, 0, 3⟩, ⟨61, 1, .ro, 0, 1⟩, ⟨60, 1, .ro, 0, 1⟩, ⟨42, 18, .ro, 0, 0x3FFFF⟩, ⟨21, 18, .ro, 0, 0x3FFFF⟩, ⟨0, 21, .ro, 0, 0x1FFFFF⟩],
   fun _ _ => 0x0⟩]

/-- The registers of block QUEUE (R16). -/
def queueRegs : List RegSpec := [
  -- QUEUE_CMD
  ⟨0x1800000, [],
   [⟨3, 16, .rw, 0, 65535⟩, ⟨0, 3, .rw, 1, 4⟩],
   fun _ _ => 0x0⟩,
  -- QUEUE_STATUS
  ⟨0x1800008, [],
   [⟨32, 32, .ro, 0, 0xFFFFFFFF⟩, ⟨1, 4, .ro, 0, 15⟩, ⟨0, 1, .ro, 0, 1⟩],
   fun _ _ => 0x0⟩,
  -- QUEUE_DATA
  ⟨0x1800010, [(4, 0x8)],
   [⟨0, 64, .rw, 0, 0xFFFFFFFFFFFFFFFF⟩],
   fun _ _ => 0x0⟩,
  -- QPROF word 0
  ⟨0x1800100, [(16, 0x40)],
   [⟨63, 1, .rw, 0, 1⟩, ⟨36, 18, .rw, 128, 65535⟩, ⟨18, 18, .rw, 128, 65535⟩, ⟨0, 18, .rw, 0, 0x3FFFF⟩],
   fun _ _ => if 0 = 0 then 0x0000100008000800 else if 0 = 1 then 0x0010000002000180 else if 0 = 2 then 0 else 0x0000FFFFFFFFFFFF⟩,
  -- QPROF word 1
  ⟨0x1800108, [(16, 0x40)],
   [⟨36, 25, .rw, 1, 0x800000⟩, ⟨18, 18, .rw, 0, 0x3FFFF⟩, ⟨0, 18, .rw, 0, 0x3FFFF⟩],
   fun _ _ => if 1 = 0 then 0x0000100008000800 else if 1 = 1 then 0x0010000002000180 else if 1 = 2 then 0 else 0x0000FFFFFFFFFFFF⟩,
  -- QPROF word 2
  ⟨0x1800110, [(16, 0x40)],
   [⟨48, 1, .rw, 0, 1⟩, ⟨24, 24, .rw, 0, 0xFFFFFF⟩, ⟨0, 24, .rw, 0, 0xFFFFFF⟩],
   fun _ _ => if 2 = 0 then 0x0000100008000800 else if 2 = 1 then 0x0010000002000180 else if 2 = 2 then 0 else 0x0000FFFFFFFFFFFF⟩,
  -- QPROF word 3
  ⟨0x1800118, [(16, 0x40)],
   [⟨24, 24, .rw, 0, 0xFFFFFF⟩, ⟨0, 24, .rw, 0, 0xFFFFFF⟩],
   fun _ _ => if 3 = 0 then 0x0000100008000800 else if 3 = 1 then 0x0010000002000180 else if 3 = 2 then 0 else 0x0000FFFFFFFFFFFF⟩,
  -- ECN_TARGET
  ⟨0x1800600, [(4, 0x8)],
   [⟨63, 1, .rw, 0, 1⟩, ⟨8, 1, .rw, 0, 1⟩, ⟨0, 6, .rw, 0, 63⟩],
   fun _ _ => 0x0⟩,
  -- SPILL_REGION
  ⟨0x1800620, [],
   [⟨32, 25, .rw, 0, 0x1FFFFFF⟩, ⟨0, 25, .rw, 0, 0x1FFFFFF⟩],
   fun _ _ => 0x0⟩,
  -- SPILL_STATUS
  ⟨0x1800628, [],
   [⟨53, 11, .ro, 0, 2047⟩, ⟨28, 25, .ro, 0, 0x1FFFFFF⟩, ⟨0, 25, .ro, 0, 0x1FFFFFF⟩],
   fun _ _ => 0x0⟩,
  -- PAGE_ERR_LAST
  ⟨0x1800630, [],
   [⟨48, 16, .rc, 0, 65535⟩, ⟨32, 16, .rc, 0, 65535⟩, ⟨7, 25, .rc, 0, 0x1FFFFFF⟩, ⟨4, 3, .rc, 0, 7⟩, ⟨0, 1, .rc, 0, 1⟩],
   fun _ _ => 0x0⟩,
  -- QUEUE_DROP
  ⟨0x1800800, [(16, 0x8)],
   [⟨0, 64, .ro, 0, 0xFFFFFFFFFFFFFFFF⟩],
   fun _ _ => 0x0⟩,
  -- QUEUE_CNT
  ⟨0x1800900, [(16, 0x8)],
   [⟨0, 64, .ro, 0, 0xFFFFFFFFFFFFFFFF⟩],
   fun _ _ => 0x0⟩,
  -- MIRROR_MAP
  ⟨0x1801000, [(256, 0x8)],
   [⟨63, 1, .rw, 0, 1⟩, ⟨0, 4, .rw, 0, 15⟩],
   fun _ _ => 0x0⟩,
  -- MIRROR_SESSION
  ⟨0x1801800, [(16, 0x8)],
   [⟨63, 1, .rw, 0, 1⟩, ⟨62, 1, .rw, 0, 1⟩, ⟨48, 4, .rw, 0, 15⟩, ⟨0, 16, .rw, 0, 65535⟩],
   fun _ _ => 0x0⟩,
  -- SAMPLE
  ⟨0x1802000, [(512, 0x8)],
   [⟨63, 1, .rw, 0, 1⟩, ⟨48, 4, .rw, 0, 15⟩, ⟨0, 24, .rw, 0, 0xFFFFFF⟩],
   fun _ _ => 0x0⟩,
  -- CAP_RING word 0
  ⟨0x1803000, [(16, 0x40)],
   [⟨0, 64, .rw, 0, 0xFFFFFFFFFFFFFFFF⟩],
   fun _ _ => 0x0⟩,
  -- CAP_RING word 1
  ⟨0x1803008, [(16, 0x40)],
   [⟨63, 1, .rw, 0, 1⟩, ⟨62, 1, .rw, 0, 1⟩, ⟨61, 1, .rw, 0, 1⟩, ⟨32, 16, .rw, 0, 65535⟩, ⟨0, 24, .rw, 16, 0xFFFFFF⟩],
   fun _ _ => 0x0⟩,
  -- CAP_RING word 2
  ⟨0x1803010, [(16, 0x40)],
   [⟨0, 64, .ro, 0, 0xFFFFFFFFFFFFFFFF⟩],
   fun _ _ => 0x0⟩,
  -- CAP_RING word 3
  ⟨0x1803018, [(16, 0x40)],
   [⟨0, 64, .rw, 0, 0xFFFFFFFFFFFFFFFF⟩],
   fun _ _ => 0x0⟩,
  -- CAP_RING word 4
  ⟨0x1803020, [(16, 0x40)],
   [⟨32, 32, .ro, 0, 0xFFFFFFFF⟩, ⟨0, 32, .ro, 0, 0xFFFFFFFF⟩],
   fun _ _ => 0x0⟩]

/-- The registers of block DRILL (R16). -/
def drillRegs : List RegSpec := [
  -- DRILL_CMD
  ⟨0x1900000, [],
   [⟨6, 20, .rw, 0, 0xFFFFF⟩, ⟨4, 2, .rw, 0, 2⟩, ⟨0, 4, .rw, 1, 11⟩],
   fun _ _ => 0x0⟩,
  -- DRILL_STATUS
  ⟨0x1900008, [],
   [⟨40, 24, .ro, 0, 0xFFFFFF⟩, ⟨1, 4, .ro, 0, 15⟩, ⟨0, 1, .ro, 0, 1⟩],
   fun _ _ => 0x0⟩,
  -- DRILL_DATA
  ⟨0x1900010, [(4, 0x8)],
   [⟨0, 64, .rw, 0, 0xFFFFFFFFFFFFFFFF⟩],
   fun _ _ => 0x0⟩,
  -- PORT_CFG
  ⟨0x1900100, [(512, 0x8)],
   [⟨50, 1, .rw, 0, 1⟩, ⟨32, 18, .rw, 0, 0x3FFFF⟩, ⟨16, 14, .rw, 64, 16383⟩, ⟨0, 8, .ro, 0, 255⟩],
   fun _ _ => 0x24000060⟩,
  -- DRILL_DROP
  ⟨0x1902000, [(16, 0x8)],
   [⟨0, 64, .ro, 0, 0xFFFFFFFFFFFFFFFF⟩],
   fun _ _ => 0x0⟩,
  -- DRILL_CNT
  ⟨0x1902080, [(8, 0x8)],
   [⟨0, 64, .ro, 0, 0xFFFFFFFFFFFFFFFF⟩],
   fun _ _ => 0x0⟩]

/-- The registers of block RIND (R16). -/
def rindRegs : List RegSpec := [
  -- RIND_LOCK
  ⟨0x1A00000, [],
   [⟨48, 16, .ro, 0, 65535⟩, ⟨32, 16, .ro, 0, 65535⟩, ⟨8, 4, .ro, 0, 15⟩, ⟨7, 1, .ro, 0, 1⟩, ⟨4, 3, .ro, 0, 7⟩, ⟨1, 1, .w1s, 0, 1⟩, ⟨0, 1, .w1s, 0, 1⟩],
   fun _ _ => 0x0⟩,
  -- RIND_CMD
  ⟨0x1A00008, [],
   [⟨8, 17, .rw, 0, 0x1FFFF⟩, ⟨4, 4, .rw, 0, 6⟩, ⟨0, 4, .rw, 0, 15⟩],
   fun _ _ => 0x0⟩,
  -- RIND_STATUS
  ⟨0x1A00010, [],
   [⟨40, 24, .ro, 0, 0xFFFFFF⟩, ⟨4, 4, .ro, 0, 15⟩, ⟨0, 1, .ro, 0, 1⟩],
   fun _ _ => 0x0⟩,
  -- RIND_DATA
  ⟨0x1A00100, [(16, 0x8)],
   [⟨0, 64, .rw, 0, 0xFFFFFFFFFFFFFFFF⟩],
   fun _ _ => 0x0⟩,
  -- RIND_CFG
  ⟨0x1A00200, [],
   [⟨0, 6, .rw, 0, 63⟩],
   fun _ _ => 0x0⟩,
  -- RIND_HEALTH
  ⟨0x1A00208, [],
   [⟨16, 16, .ro, 0, 65535⟩, ⟨1, 1, .ro, 0, 1⟩, ⟨0, 1, .ro, 0, 1⟩],
   fun _ _ => 0x1⟩,
  -- RIND_DROP
  ⟨0x1A00300, [(32, 0x8)],
   [⟨0, 64, .ro, 0, 0xFFFFFFFFFFFFFFFF⟩],
   fun _ _ => 0x0⟩,
  -- ENG_STATUS
  ⟨0x1A10000, [(14, 0x1000)],
   [⟨16, 16, .ro, 0, 65535⟩, ⟨1, 1, .ro, 0, 1⟩, ⟨0, 1, .ro, 0, 1⟩],
   fun p x => if p = true ∧ (0x130F >>> (x.getD 0 0)) % 2 = 0 then 0 else 1⟩,
  -- ENG_CNT
  ⟨0x1A10100, [(14, 0x1000), (8, 0x8)],
   [⟨0, 64, .ro, 0, 0xFFFFFFFFFFFFFFFF⟩],
   fun _ _ => 0x0⟩]

/-- The registers of block DEEP (R16). -/
def deepRegs : List RegSpec := [
  -- DEEP_CFG
  ⟨0x1B00000, [],
   [⟨32, 16, .rw, 256, 32768⟩, ⟨16, 8, .rw, 8, 255⟩, ⟨8, 8, .rw, 0, 255⟩, ⟨0, 2, .rw, 0, 3⟩],
   fun _ _ => 0x80000280000⟩,
  -- DEEP_SPARE_CFG
  ⟨0x1B00008, [],
   [⟨0, 2, .rw, 0, 3⟩],
   fun p _ => if p then 1 else 3⟩,
  -- DEEP_CTRL
  ⟨0x1B00010, [],
   [⟨0, 1, .w1s, 0, 1⟩],
   fun _ _ => 0x0⟩,
  -- DEEP_STATUS
  ⟨0x1B00018, [],
   [⟨24, 8, .ro, 0, 255⟩, ⟨16, 8, .ro, 0, 255⟩, ⟨6, 2, .ro, 0, 3⟩, ⟨4, 2, .ro, 0, 3⟩, ⟨2, 1, .ro, 0, 1⟩, ⟨1, 1, .ro, 0, 1⟩, ⟨0, 1, .ro, 0, 1⟩],
   fun _ _ => 0x0⟩,
  -- DEEP_MIG_STATUS
  ⟨0x1B00020, [(2, 0x8)],
   [⟨32, 16, .ro, 0, 65535⟩, ⟨9, 19, .ro, 0, 0x7FFFF⟩, ⟨8, 1, .ro, 0, 1⟩, ⟨3, 5, .ro, 0, 31⟩, ⟨1, 2, .ro, 0, 3⟩, ⟨0, 1, .ro, 0, 1⟩],
   fun _ _ => 0x0⟩,
  -- DEEP_ERR_LAST
  ⟨0x1B00030, [],
   [⟨13, 48, .rc, 0, 0xFFFFFFFFFFFF⟩, ⟨5, 8, .rc, 0, 255⟩, ⟨1, 4, .rc, 0, 15⟩, ⟨0, 1, .rc, 0, 1⟩],
   fun _ _ => 0x0⟩,
  -- DEEP_PORT
  ⟨0x1B00100, [(6, 0x8)],
   [⟨0, 20, .rw, 100, 0xF4240⟩],
   fun _ x => if (x.getD 0 0) = 0 then 2000 else if (x.getD 0 0) = 1 then 20000 else if (x.getD 0 0) = 2 then 400 else if (x.getD 0 0) = 3 then 50000 else if (x.getD 0 0) = 4 then 100000 else 10000⟩,
  -- DEEP_TIMEOUT
  ⟨0x1B00140, [],
   [⟨0, 16, .rw, 10, 10000⟩],
   fun _ _ => 0x64⟩,
  -- DEEP_TYPE word 0
  ⟨0x1B00200, [(64, 0x10)],
   [⟨63, 1, .rw, 0, 1⟩, ⟨0, 40, .rw, 0, 0xFFFFFFFFFF⟩],
   fun _ _ => 0x0⟩,
  -- DEEP_TYPE word 1
  ⟨0x1B00208, [(64, 0x10)],
   [⟨0, 40, .rw, 0, 0xFFFFFFFFFF⟩],
   fun _ _ => 0x0⟩,
  -- DEEP_ACC_CMD
  ⟨0x1B00600, [],
   [⟨6, 34, .rw, 0, 0x3FFFFFFFF⟩, ⟨0, 2, .rw, 1, 2⟩],
   fun _ _ => 0x0⟩,
  -- DEEP_ACC_STATUS
  ⟨0x1B00608, [],
   [⟨1, 4, .ro, 0, 15⟩, ⟨0, 1, .ro, 0, 1⟩],
   fun _ _ => 0x0⟩,
  -- DEEP_ACC_DATA
  ⟨0x1B00640, [(8, 0x8)],
   [⟨0, 64, .rw, 0, 0xFFFFFFFFFFFFFFFF⟩],
   fun _ _ => 0x0⟩,
  -- DEEP_CNT
  ⟨0x1B00800, [(16, 0x8)],
   [⟨0, 64, .ro, 0, 0xFFFFFFFFFFFFFFFF⟩],
   fun _ _ => 0x0⟩,
  -- RANK_STATE
  ⟨0x1B10000, [(2, 0x10000), (32, 0x20), (4, 0x8)],
   [⟨48, 16, .ro, 0, 65535⟩, ⟨16, 32, .ro, 0, 0xFFFFFFFF⟩, ⟨3, 2, .ro, 0, 3⟩, ⟨0, 3, .ro, 0, 7⟩],
   fun p x => if (x.getD 2 0) = 3 ∧ ((x.getD 0 0) = 0 ∨ p = false) then 1 else 0⟩,
  -- STACK_TEMP
  ⟨0x1B10800, [(2, 0x10000)],
   [⟨16, 16, .ro, 0, 65535⟩, ⟨8, 1, .ro, 0, 1⟩, ⟨0, 8, .ro, 0, 255⟩],
   fun _ _ => 0x0⟩]

/-- The registers of block MICRO (R16). -/
def microRegs : List RegSpec := [
  -- PROG_BANK_SEL
  ⟨0x3FF0000, [],
   [⟨0, 1, .rw, 0, 1⟩],
   fun _ _ => 0x0⟩,
  -- PROG_EPOCH
  ⟨0x3FF0008, [],
   [⟨16, 16, .ro, 0, 65535⟩, ⟨3, 1, .ro, 0, 1⟩, ⟨2, 1, .ro, 0, 1⟩, ⟨1, 1, .ro, 0, 1⟩, ⟨0, 1, .ro, 0, 1⟩],
   fun _ _ => 0x1⟩,
  -- PROG_LOAD
  ⟨0x3FF0010, [],
   [⟨1, 1, .w1s, 0, 1⟩, ⟨0, 1, .w1s, 0, 1⟩],
   fun _ _ => 0x0⟩,
  -- PROG_STATUS
  ⟨0x3FF0018, [],
   [⟨44, 5, .ro, 0, 31⟩, ⟨40, 4, .ro, 0, 15⟩, ⟨24, 16, .ro, 0, 65535⟩, ⟨16, 8, .ro, 0, 255⟩, ⟨4, 3, .ro, 0, 7⟩, ⟨0, 3, .ro, 0, 7⟩],
   fun _ _ => 0x1F00000000000⟩]

/-- The registers of the block that holds an offset. -/
def regsOfBlock (k : Nat) : List RegSpec :=
  if k = 0 then globalRegs
  else if k = 1 then rstcRegs
  else if k = 2 then faultRegs
  else if k = 3 then aonRegs
  else if k = 4 then hostRegs
  else if k = 5 then mgmtRegs
  else if k = 6 then perfRegs
  else if k = 7 then pairRegs
  else if 8 ≤ k ∧ k < 16 then stripRegs
  else if 16 ≤ k ∧ k < 20 then acreRegs
  else if k = 20 then harrowRegs
  else if k = 21 then orchardRegs
  else if k = 22 then assocRegs
  else if k = 23 then fabricRegs
  else if k = 24 then queueRegs
  else if k = 25 then drillRegs
  else if k = 26 then rindRegs
  else if k = 27 then deepRegs
  else if k = 63 then microRegs
  else []

/-- The indices that a distance from an array's base spells; none when it falls between registers. -/
def regIdx : List (Nat × Nat) → Nat → Option (List Nat)
  | [], r => if r = 0 then some [] else none
  | (n, st) :: t, r => if r / st < n then (regIdx t (r % st)).map (r / st :: ·) else none

/-- The register at an offset, with its indices. -/
def regAt (off : Nat) : Option (RegSpec × List Nat) :=
  (regsOfBlock (off / 0x100000)).findSome? fun s =>
    if s.base ≤ off then (regIdx s.dims (off - s.base)).map (fun x => (s, x)) else none

/-- The value of an offset at reset; a reserved offset reads 0 (R472). -/
def resetVal (p : Bool) (off : Nat) : W64 :=
  match regAt off with
  | some (s, x) => BitVec.ofNat 64 (s.reset p x)
  | none => 0

end Sys2Proof.Machine
end

