-- ==== Sys2Proof/Config.lean ====
section
/-!
DEFINITION. What an implementation fixes and the spec leaves open: free values, as constants with no body, so that no proof can
see what they are.
-/
namespace Sys2Proof.Config

/-- The free value of a width and a number: what the device draws where the spec states no value (notes/assumptions/2). -/
opaque freeValue (w : Nat) : Nat → BitVec w

end Sys2Proof.Config
end

