-- ==== Sys2Proof/Machine/State.lean ====
section
/-!
DEFINITION. The state of the machine: the device, its memories and the queue of waiting commands, as plain data; the reasons a
step can stop; and the machine right after a power-on reset.
-/
namespace Sys2Proof.Machine

/-- Byte-addressed memory in canonical form. -/
abbrev Memory := List Host.Cell

/-- Why a step could stop with a fault. No command raises one: every command answers a next state (safe). -/
inductive Fault where
  /-- Raised by no command; it is here only so that the type has a value. Safe. -/
  | noFault
  deriving DecidableEq, Repr

/-- Why a command could be refused. -/
inductive Refusal where
  /-- Raised by an arm of `exec` whose command has no meaning yet. Safe. -/
  | notModelled (mnemonic : String)
  deriving DecidableEq, Repr

/-- The device outside its bulk memories. -/
structure Dev where
  /-- Device time, ns (R442). -/
  time : Nat
  /-- The model's own: free values drawn so far; the first 256 are the deep-store keys of R333. -/
  free : Nat
  /-- The fuses. -/
  fuses : Fuses
  /-- Registers by BAR0 offset; an unlisted one holds its reset value. -/
  regs : Sp W64
  /-- Voted registers whose copies disagree: offset to the copy and its flipped bits (R479). -/
  voteErr : Sp (Nat × W64)
  /-- Check-bit state of protected words: key memory * 2^48 + word (R36, R437). -/
  upset : Sp Nat
  /-- Memory writes of the command in progress; empty between commands. -/
  writes : List MemWrite
  /-- The fault collector. -/
  flt : FaultSt
  /-- The host interface and management ports. -/
  host : HostSt
  /-- The program stores. -/
  prog : ProgSt
  /-- Furrows: key 32 * acre + furrow. -/
  furs : Sp Furrow
  /-- Acres. -/
  acres : Sp AcreSt
  /-- The fabric and the cell buffer. -/
  fab : FabricSt
  /-- Orchard. -/
  orch : OrchSt
  /-- The associative arrays. -/
  asc : AssocSt
  /-- Harrow. -/
  har : HarrowSt
  /-- The deep store outside its contents. -/
  deep : DeepSt
  /-- The queues. -/
  que : QueueSt
  /-- Drill. -/
  drl : DrillSt
  /-- Rind. -/
  rind : RindSt
  /-- The strips. -/
  strip : StripSt
  /-- Pair operation. -/
  pair : PairSt
  /-- Resets, clocks, power and boot. -/
  rst : RstSt
  /-- The dump engine. -/
  perf : PerfSt
  /-- Port-priorities whose PFC state changed and was not yet sent: port to a mask (R233, R345). -/
  pfcDirty : Sp Nat
  deriving DecidableEq, Repr

/-- The memories that the device writes: the deep store, what its DMA has written into host memory, and the flash. -/
structure Mem where
  deep : Memory
  host : Memory
  flash : Memory
  deriving DecidableEq, Repr

/-- The machine: the commands that wait, first in first out, the device and its memories. -/
structure State where
  pending : List Instr
  dev : Dev
  mem : Mem
  deriving DecidableEq, Repr

/-- Orchard after a power-on reset: no tables, no types (R160). -/
def OrchSt.reset : OrchSt :=
  { rows := [], stash := [], hits := [], filters := [], sel := [], learnQ := [], learnSeq := 0, healed := [], retry := [], rebuild := [] }

/-- The fuses of an NZH-6512 as delivered: nothing locked, no keys fused (assumption 3). -/
def Fuses.nzh6512 : Fuses :=
  { half := false, debugLock := false, bootKeyDigest := 0, rotKeyDigest := 0, minVersion := 0, pinPersonality := [] }

/-- The collector after a power-on reset. -/
def FaultSt.reset : FaultSt :=
  { pending := [], present := [], injected := [], stepped := [], pulseEnd := 0, lockedBy := 256, portHold := false,
    irqTime := (0, 0), irqDue := 0 }

/-- The host interface after a power-on reset. -/
def HostSt.reset : HostSt :=
  { evt := [], latch := [], msi := [], starter := [], ringQ := [], ringDue := [], ringNotice := [], injBuf := 0,
    uartTx := [], uartRx := [], uartDone := 0, uartBreak := false, spisBusy := false, spisSince := 0, spisIslands := [],
    spisResult := 0, spisLatch := 0, jtagIr := 1, jtagDr := 0, jtagBsr := 0, flashWel := false, pcieUp := false,
    answer := [], bar2Ans := (0, []), spisOut := [], uartOut := [] }

/-- The program stores after a power-on reset: every word a NOP without safe point (R37). -/
def ProgSt.reset : ProgSt := { micro := [], nano := [], header := [], startedBy := 0, rotKey := none }

/-- The fabric after a power-on reset. -/
def FabricSt.reset : FabricSt :=
  { staging := [], voq := [], voqDone := [], egq := [], egqDone := [], editQ := [], repl := [], banks := [], alloc := [], refs := [],
    refCtr := 0, ppRefs := [], stRefs := [], wbuf1 := [], wbuf2 := [], inFlight := [], lfsr := [], floods := 0, groups := [], members := [], caps := [], capSeq := [] }

/-- The deep store before initialisation. -/
def DeepSt.reset : DeepSt :=
  { banks := [], reqs := [], ceWindow := [], writeBack := [], patrol := [], passes := [], slots := [], rfm := [], accOld := [],
    accEcc := [], areas := [], readData := [], panic := 0 }

/-- The queues after a power-on reset. -/
def QueueSt.reset : QueueSt :=
  { subs := [], cfg := [], depth := [], ring := [], ringHead := 0, ringCount := 0, cache := [], alloc := [] }

/-- Drill after a power-on reset. -/
def DrillSt.reset : DrillSt :=
  { nodes := [], gates := [], gcl := [], meters := [], mprofs := [], portFree := [], disregard := [] }

/-- Rind after a power-on reset: no entries but the generated deep-store keys (R333). -/
def RindSt.reset : RindSt :=
  { ents := [], keyBase := 0, keyWait := [], window := [], laQ := [], decQ := [], laUsed := [], waiting := [], leaseAt := 0 }

/-- Pair operation after a power-on reset. -/
def PairSt.reset : PairSt :=
  { buf := [], syncQ := [], acked := [], ckptWait := [], peerCkpt := [], syncing := false, syncDone := none, peerDone := false, timeouts := 0,
    before := 0, beatAt := none, aliveOut := false, aliveStop := false, accTag := 0, resetTag := 0, nextTag := 0, sent := [] }

/-- Resets, clocks, power and boot when the power-on release of R452 is complete with no start-up configuration (assumption 2). -/
def RstSt.reset : RstSt :=
  { held := 0, fallow := false, warm := false, refA := true, refB := true, copy := [], image := [], lb := none,
    temp := none, senseOk := false, ppsAt := none, alarm := false, cfgDue := false, autoStrips := 0, autoAcres := 0, pinOvr := [] }
/-- The device right after a power-on reset. -/
def Dev.reset : Dev where
  time := 0
  free := 256
  fuses := Fuses.nzh6512
  regs := []
  voteErr := []
  upset := []
  writes := []
  flt := FaultSt.reset
  host := HostSt.reset
  prog := ProgSt.reset
  furs := []
  acres := []
  fab := FabricSt.reset
  orch := OrchSt.reset
  asc := ⟨[], [], [], 0, [], [], []⟩
  har := ⟨[], [], [], [], [], 0, [], []⟩
  deep := DeepSt.reset
  que := QueueSt.reset
  drl := DrillSt.reset
  rind := RindSt.reset
  strip := ⟨[], [], [], true, []⟩
  pair := PairSt.reset
  rst := RstSt.reset
  perf := ⟨none, [], none, 0⟩
  pfcDirty := []

/-- The machine right after a power-on reset, with no command waiting. -/
def State.reset : State := { pending := [], dev := Dev.reset, mem := ⟨[], [], []⟩ }

end Sys2Proof.Machine
end

