-- ==== Sys2Proof/Machine/Ops.lean ====
section
/-!
DEFINITION. The named operations over the device's state that every unit shares: registers and counters, fault messages,
conditions, shared-resource conflicts, event FIFOs, interrupt vectors, memory writes, soft errors and packets.
-/
namespace Sys2Proof.Machine

/-! Registers. -/

/-- A register's value as it is held; the computed views of R480 and its kin are in `regView`. -/
def rd (d : Dev) (off : Nat) : W64 := spGet (resetVal d.fuses.half) d.regs off

/-- A field of a register. -/
def rdF (d : Dev) (off : Nat) (f : Fld) : Nat := getF (rd d off) f

/-- The device with a register set. -/
def wr (d : Dev) (off : Nat) (v : W64) : Dev := { d with regs := spPut (resetVal d.fuses.half) d.regs off v }

/-- The device with one field of a register set. -/
def wrF (d : Dev) (off : Nat) (f : Fld) (v : Nat) : Dev := wr d off (setF (rd d off) f v)

/-- A one-bit field as a truth value. -/
def flagF (d : Dev) (off : Nat) (f : Fld) : Bool := rdF d off f == 1

/-- Several fields of one register set together. -/
def wrFs (d : Dev) (off : Nat) (l : List (Fld × Nat)) : Dev :=
  wr d off (l.foldl (fun v x => setF v x.1 x.2) (rd d off))

/-- A 64-bit counter advanced; it wraps (R501). -/
def bumpN (d : Dev) (off n : Nat) : Dev := wr d off (rd d off + BitVec.ofNat 64 n)
def bump (d : Dev) (off : Nat) : Dev := bumpN d off 1

/-- A count in a field, which saturates. -/
def bumpSat (d : Dev) (off : Nat) (f : Fld) (n : Nat) : Dev := wrF d off f (satAdd f.w (rdF d off f) n)

/-- A count in a field, which wraps. -/
def bumpWrap (d : Dev) (off : Nat) (f : Fld) (n : Nat) : Dev := wrF d off f (rdF d off f + n)

/-- Registers of a range set back to their reset values (R445). -/
def clearRegs (d : Dev) (p : Nat → Bool) : Dev := { d with regs := d.regs.filter fun e => !p e.1 }

/-! Free values. -/

/-- The next free value, which nothing constrains (Config.freeValue), and the device that has used it. -/
def takeFree (d : Dev) (w : Nat) : BitVec w × Dev := (Config.freeValue w d.free, { d with free := d.free + 1 })

/-! Faults (R418 to R420). -/

/-- The reaction that FAULT_REACT gives a kind (R429). -/
def reaction (d : Dev) (cls kind : Nat) : Nat := bits (rd d (Reg.FAULT_REACT (8 * cls + kind / 32))).toNat (2 * (kind % 32)) 2

/-- A message joins the pending messages of its source, or adds to the REPEAT of the one that waits (R420). -/
def mergeMsg (m : FaultMsg) : List FaultMsg → List FaultMsg
  | [] => [m]
  | p :: t => if p.source = m.source ∧ p.sev = m.sev then { p with rep := satAdd 8 p.rep 1 } :: t else p :: mergeMsg m t

/-- A furrow's default at reset: the LFSR of R530 and the port of R35. -/
def furReset (key : Nat) : Furrow :=
  { lfsr := 0x4E5A0001 + key, port := if key % 32 < 16 then key % 32 else 16, pkts := [], gens := [], nextSeq := [],
    entryQ := [], returnQ := [], parkCtr := 0, reqCtr := 0, bubble := false, inFlight := [], fatal := none,
    isolating := false, tkDrops := 0 }

/-- Furrow f of acre a. -/
def getFur (d : Dev) (a f : Nat) : Furrow := spGet furReset d.furs (32 * a + f)
def putFur (d : Dev) (a f : Nat) (x : Furrow) : Dev := { d with furs := spPut furReset d.furs (32 * a + f) x }

/-- The collector when a fault is raised: the message enters the ring, and a condition's cause is present from now on
(R420, R428). -/
def raiseFlt (x : FaultSt) (k : FaultKind) (inst addr master access : Nat) : FaultSt :=
  let src := 256 * k.cls + inst % 256
  { x with pending := mergeMsg ⟨src, k.kind, k.sev, addr % 2 ^ 48, master, access, 0, false⟩ x.pending,
           present := if k.cond then spPut (fun _ => 0) x.present (src * 256 + k.kind) 1 else x.present }

/-- A checker raises a fault; a FATAL fault of an ACTIVE furrow waits for its takeover (R72). -/
def raise (d : Dev) (k : FaultKind) (inst addr master access : Nat) : Dev :=
  let d := { d with flt := raiseFlt d.flt k inst addr master access }
  if k.cls = 2 ∧ k.sev = 3 then
    let a := inst / 32 % 4
    let f := inst % 32
    let x := getFur d a f
    if rdF d (Reg.FURROW_ROLE a f) Reg.FURROW_ROLE_ROLE = 0 ∧ x.fatal = none then
      putFur d a f { x with fatal := some d.time }
    else d
  else d

/-- A condition's cause has gone (R428). -/
def endCond (d : Dev) (k : FaultKind) (inst : Nat) : Dev :=
  { d with flt := { d.flt with present := spPut (fun _ => 0) d.flt.present ((256 * k.cls + inst % 256) * 256 + k.kind) 0 } }

/-- Whether a condition's cause is present. -/
def condPresent (d : Dev) (k : FaultKind) (inst : Nat) : Bool :=
  spGet (fun _ => 0) d.flt.present ((256 * k.cls + inst % 256) * 256 + k.kind) == 1

/-! Conflicts over shared resources (R23 to R26). -/

/-- The class 0x0 instance that owns a contested resource (R25); `inst` is given for cipher engines. -/
def recordConflict (d : Dev) (kind index winner loser inst : Nat) : Dev :=
  let o := Reg.GLOBAL_CONFLICT
  let d :=
    if flagF d o Reg.GLOBAL_CONFLICT_VALID then
      bumpSat (wrF d o Reg.GLOBAL_CONFLICT_MORE 1) o Reg.GLOBAL_CONFLICT_COUNT 1
    else
      wrFs d o [(Reg.GLOBAL_CONFLICT_VALID, 1), (Reg.GLOBAL_CONFLICT_COUNT, 1), (Reg.GLOBAL_CONFLICT_LOSER, loser),
        (Reg.GLOBAL_CONFLICT_WINNER, winner), (Reg.GLOBAL_CONFLICT_KIND, kind), (Reg.GLOBAL_CONFLICT_INDEX, index)]
  raise d Fk.conflict inst (kind * 1024 + index) 0 0

/-! Memory that the device writes. -/

/-- Which memory a write goes to. -/
def spDeep : Nat := 0
def spHost : Nat := 1
def spFlash : Nat := 2
/-- The whole deep store loses its contents or is zeroed (R367, R389). -/
def spClear : Nat := 3

/-- A write that lands at the end of the command, in the order given. -/
def memWrite (d : Dev) (space addr : Nat) (bs : List Byte) : Dev :=
  { d with writes := d.writes ++ [⟨space, addr, bs⟩] }

/-- What an unlisted byte of each memory reads as: 0 in the deep store and host memory, erased flash 0xFF (assumption 5). -/
def memDefault (space : Nat) : Byte := if space = spFlash then 0xFF else 0

/-- The canonical form of a memory. -/
def Memory.wf (space : Nat) (m : Memory) : Bool := spWf (fun _ => memDefault space) m

/-- The byte at an address. -/
def memGet (space : Nat) (m : Memory) (a : Nat) : Byte := spGet (fun _ => memDefault space) m a

/-- n bytes from an address. -/
def memRead (space : Nat) (m : Memory) (a n : Nat) : List Byte := (List.range n).map fun i => memGet space m (a + i)

/-- Store bytes from an address on. -/
def memStore (space : Nat) (m : Memory) (a : Nat) : List Byte → Memory
  | [] => m
  | b :: t => memStore space (spPut (fun _ => memDefault space) m a b) (a + 1) t

/-- One write of a command lands. -/
def applyWrite (m : Mem) (w : MemWrite) : Mem :=
  if w.space = spDeep then { m with deep := memStore spDeep m.deep w.addr w.bytes }
  else if w.space = spClear then { m with deep := [] }
  else if w.space = spHost then { m with host := memStore spHost m.host w.addr w.bytes }
  else { m with flash := memStore spFlash m.flash w.addr w.bytes }

/-- The memories as the writes of a command so far leave them. -/
def memNow (m : Mem) (d : Dev) : Mem := d.writes.foldl applyWrite m

/-- The state after a command: its memory writes land in order. -/
def commit (s : State) (d : Dev) : State := { s with dev := { d with writes := [] }, mem := d.writes.foldl applyWrite s.mem }

/-- A command that changes the device. -/
def run (f : Dev → Dev) (s : State) : Host.Outcome State Fault Refusal := .next (commit s (f s.dev))

/-- A command that also reads the memories. -/
def runMem (f : Mem → Dev → Dev) (s : State) : Host.Outcome State Fault Refusal := .next (commit s (f s.mem s.dev))

/-! Interrupt vectors and event FIFOs (R480 to R483). -/

/-- Raise a vector: its message is sent, or its pending bit is set while it is masked. -/
def msi (d : Dev) (v : Nat) : Dev :=
  let w1 := rd d (Reg.MSIX_TABLE v 1)
  if bit w1.toNat 32 then
    wr d (Reg.MSIX_PBA (v / 64)) (BitVec.ofNat 64 (setBits (rd d (Reg.MSIX_PBA (v / 64))).toNat (v % 64) 1 1))
  else
    let d := memWrite d spHost (rd d (Reg.MSIX_TABLE v 0)).toNat (leBytes 4 w1.toNat)
    { d with host := { d.host with msi := d.host.msi ++ [v] } }

/-- An empty event FIFO. -/
def evtEmpty : EvtFifo := ⟨[], 0, 0⟩

/-- Event FIFO f. -/
def getEvt (d : Dev) (f : Nat) : EvtFifo := spGet (fun _ => evtEmpty) d.host.evt f
def putEvt (d : Dev) (f : Nat) (e : EvtFifo) : Dev :=
  { d with host := { d.host with evt := spPut (fun _ => evtEmpty) d.host.evt f e } }

/-- Entries that FIFO f holds (R481). -/
def evtSize (f : Nat) : Nat := if f = 0 then 8192 else if f = 1 then 1024 else 256

/-- The vector of FIFO f is raised, and its entries count as signalled (R483). -/
def evtSignal (d : Dev) (f : Nat) : Dev := putEvt (msi d (128 + f)) f { getEvt d f with unsignalled := 0 }

/-- Post an entry. When the FIFO is full it is discarded: FIFOs 1 and 2 count it here, the poster of FIFO 0 counts it (R481).
The answer says whether it was posted. -/
def evtPost (d : Dev) (f : Nat) (w0 w1 w2 w3 : W64) : Dev × Bool :=
  let e := getEvt d f
  if e.entries.length ≥ evtSize f then
    (if f = 0 then d else bumpSat d (Reg.EVT_STATUS f) Reg.EVT_STATUS_LOST 1, false)
  else
    let e' : EvtFifo := ⟨e.entries ++ [(w0, w1, w2, w3)], e.unsignalled + 1, if e.unsignalled = 0 then d.time else e.since⟩
    let d := putEvt d f e'
    (if e'.unsignalled ≥ rdF d (Reg.EVT_CFG f) Reg.EVT_CFG_THRESH then evtSignal d f else d, true)

/-- A notice posted to FIFO 0 also raises the vector of its subject (R480); a discarded one raises nothing. -/
def subjectVec (r : Dev × Bool) (v : Nat) : Dev := if r.2 then msi r.1 v else r.1

/-- A word built from fields. -/
def mkWord (l : List (Fld × Nat)) : W64 := l.foldl (fun v x => setF v x.1 x.2) 0

/-- An operation of a completion source ends: when host software started it, its entry is posted with its ARG and its status
register (R484). -/
def postDone (d : Dev) (src arg status : Nat) : Dev :=
  if spGet (fun _ => 0) d.host.starter src = 1 then
    (evtPost d 2 (BitVec.ofNat 64 (2 ^ 63 + src * 2 ^ 59 + arg % 2 ^ 32)) (BitVec.ofNat 64 d.time) (rd d status) 0).1
  else d

/-- The same for a source whose command has no INDEX: its ARG is a free value. -/
def postDoneFree (d : Dev) (src status : Nat) : Dev :=
  let (x, d) := takeFree d 32
  postDone d src x.toNat status

/-- The agent that started the operation of a completion source. -/
def starterOf (d : Dev) (src : Nat) : Nat := spGet (fun _ => 0) d.host.starter src

/-- The agent that starts the operation of a completion source. -/
def startedBy (d : Dev) (src agent : Nat) : Dev :=
  { d with host := { d.host with starter := spPut (fun _ => 0) d.host.starter src agent } }

/-! Soft errors: the state of a protected word's check bits (R36, R437). -/

/-- The protected memories. -/
inductive Ram where
  | micro | nano | harrow | frag | table | stash | assocCopy | assocTag | freeRing | pageRing | group | member | node | meter
  | rindEntry | strip | sp | deep | gcl | gate | mprof
  deriving DecidableEq, Repr

/-- The number of a memory, for the key of `upset`. -/
def ramNo : Ram → Nat
  | .micro => 0 | .nano => 1 | .harrow => 2 | .frag => 3 | .table => 4 | .stash => 5 | .assocCopy => 6 | .assocTag => 7
  | .freeRing => 8 | .pageRing => 9 | .group => 10 | .member => 11 | .node => 12 | .meter => 13 | .rindEntry => 14
  | .strip => 15 | .sp => 16 | .deep => 17 | .gcl => 18 | .gate => 19 | .mprof => 20

def ramKey (r : Ram) (i : Nat) : Nat := ramNo r * 2 ^ 48 + i

/-- What a check of a word finds: 0 good, 1 a single-bit error, 2 an uncorrectable error. -/
def ecc (d : Dev) (r : Ram) (i : Nat) : Nat := spGet (fun _ => 0) d.upset (ramKey r i)

def setEcc (d : Dev) (r : Ram) (i v : Nat) : Dev := { d with upset := spPut (fun _ => 0) d.upset (ramKey r i) v }

/-- An injection that is pending for a checker at a source acts: PENDING falls, DONE rises, and SOURCE with ADDRESS is kept
for the message (R437). The answer is the BITS to invert, 0 when none is due. -/
def injectAt (d : Dev) (checker source addr : Nat) : Nat × Dev :=
  let o := Reg.FAULT_INJECT
  if flagF d o Reg.FAULT_INJECT_PENDING ∧ rdF d o Reg.FAULT_INJECT_CHECKER = checker ∧ rdF d o Reg.FAULT_INJECT_SOURCE = source then
    let d' := bumpWrap (wrF d o Reg.FAULT_INJECT_PENDING 0) o Reg.FAULT_INJECT_DONE 1
    (rdF d o Reg.FAULT_INJECT_BITS, { d' with flt := { d'.flt with injected := (d'.flt.injected ++ [(source, addr)]).take 16 } })
  else (0, d)

/-- A write of a protected word: its check bits are good again, unless a SEC-DED injection inverts them (R437 code 0). -/
def eccWrite (d : Dev) (r : Ram) (i source addr : Nat) : Dev :=
  let j := injectAt d 0 source addr
  setEcc j.2 r i j.1

/-- Something crosses into an island: an injection into the crossing is found by its check (R437 code 1, R439). No crossing discards data
(R13). -/
def crossIn (d : Dev) (island : Nat) : Dev :=
  let j := injectAt d 1 island 0
  if j.1 = 0 then d else raise j.2 Fk.crossingErr island 0 0 0

/-! Packets of a furrow. -/

/-- The packet in a context slot. -/
def getPkt (d : Dev) (l : PktRef) : Option Pkt := spGet (fun _ => none) (getFur d l.a l.f).pkts l.slot

/-- The furrow with a slot's packet set. -/
def furPut (x : Furrow) (slot : Nat) (p : Option Pkt) : Furrow := { x with pkts := spPut (fun _ => none) x.pkts slot p }

/-- The device with a slot's packet set. -/
def putPkt (d : Dev) (l : PktRef) (p : Pkt) : Dev := putFur d l.a l.f (furPut (getFur d l.a l.f) l.slot (some p))

/-- The packets of a furrow with their slots. -/
def furPkts (x : Furrow) : List (Nat × Pkt) := x.pkts.filterMap fun e => e.2.map fun p => (e.1, p)

end Sys2Proof.Machine
end

