-- ==== Sys2Proof/Machine/Buffers.lean ====
section
/-!
DEFINITION. Staging, port-priority accounting, buffer pools and the free store (R214, R215, R223 to R238), as the other units
use them.
-/
namespace Sys2Proof.Machine

/-! Staging (R214). -/

def stagingUsed (d : Dev) (s : Nat) : Nat := spGet (fun _ => 0) d.fab.staging s

/-- 16 MiB of staging for each strip (R214). -/
def stagingSize : Nat := 16777216

def setStaging (d : Dev) (s n : Nat) : Dev := { d with fab := { d.fab with staging := spPut (fun _ => 0) d.fab.staging s n } }

/-- Bytes of the look-aside store of an acre in use (R325). -/
def lookasideUsed (d : Dev) (a : Nat) : Nat := spGet (fun _ => 0) d.rind.laUsed a
def setLookaside (d : Dev) (a n : Nat) : Dev := { d with rind := { d.rind with laUsed := spPut (fun _ => 0) d.rind.laUsed a n } }

/-- How many packets still share a place in staging (R263). -/
def stCount (d : Dev) (k : Nat) : Nat := spGet (fun _ => 0) d.fab.stRefs k
def setStRef (d : Dev) (k n : Nat) : Dev := { d with fab := { d.fab with stRefs := spPut (fun _ => 0) d.fab.stRefs k n } }

/-- A frame leaves staging, and the look-aside store when it lies there (R214, R325): with the last packet that shares its place. -/
def leaveStaging (d : Dev) (p : Pkt) : Dev :=
  if 1 < stCount d p.stRef then setStRef d p.stRef (stCount d p.stRef - 1)
  else
  let d := setStRef d p.stRef 0
  let d := match p.staged with
    | some s => setStaging d s (stagingUsed d s - p.rxLen)
    | none => d
  match p.lookaside with
  | some (a, n) => setLookaside d a (lookasideUsed d a - n)
  | none => d

/-- A packet as a strip or an inject path delivers it: the frame without FCS, its port, length with FCS and time stamp. -/
def newPkt (frame : List Byte) (port time : Nat) : Pkt :=
  { frame := frame, rxLen := frame.length + 4, rxTime := time, staged := none, stRef := 0, prio := 0, ppCells := 0, headland := false,
    ctx := BitVec.ofNat 2048 (setBits 0 108 9 port), gen := 0, seq := 0, mapIdx := 0, loc := .returning, ride := none, parkSeq := 0,
    lastRow := 0, flags0 := 0, flags1 := 0, x0 := 0, x1 := 0, x2 := 0, x3 := 0, y0 := 0, y1 := 0, conds := 0,
    reqs := [0, 0, 0, 0], edits := [], edata := [], rehashDrop := false, decSa := none, grant := none, mapRef := 0, cells := [],
    pool := 0, macre := 0, refKey := 0, queue := 0, enqTime := 0, ce := false, ect := false, asRx := false, lossless := false, inject := none, noEdit := false,
    mirrorTo := none, safeHold := false, waitTaken := false, fromHost := false, fragHeld := none, ppRef := 0, lookaside := none,
    ecnOff := 0, ecnFam := 0, launch := 0, charged := 0 }

/-! Ports as the other units see them. -/

def portDef (_ : Nat) : PortSt :=
  { txQ := [], pfcQ := [], pause := [], attempt := 0, lastMode := 0, waiting := false, pdSeq := 0, pdReq := none, pdResp := none,
    samples := [], dUsed := 0 }
def getPort (d : Dev) (p : Nat) : PortSt := spGet portDef d.strip.ports p
def putPort (d : Dev) (p : Nat) (x : PortSt) : Dev := { d with strip := { d.strip with ports := spPut portDef d.strip.ports p x } }

/-! Port-priorities (R215, R233 to R237). -/

def ppReg (p c : Nat) : Nat := Reg.PP_STATUS p c

/-- A change of a port-priority's state is passed to the strip (R233). -/
def markPfc (d : Dev) (p c : Nat) : Dev :=
  { d with pfcDirty := spPut (fun _ => 0) d.pfcDirty p (setBits (spGet (fun _ => 0) d.pfcDirty p) c 1 1) }

/-- Evaluate the state of a port-priority (R233): 0 LOSSY, 1 OPEN, 2 PAUSED. -/
def evalPp (d : Dev) (p c : Nat) : Dev :=
  let o := ppReg p c
  let st := rdF d o Reg.PP_STATUS_STATE
  let ipc := rdF d o Reg.PP_STATUS_IPC
  let hl := rdF d o Reg.PP_STATUS_HL_USED
  if st = 1 ∧ ipc ≥ rdF d (Reg.PFC_CFG p c) Reg.PFC_CFG_XOFF_CELLS then
    bump (markPfc (wrF d o Reg.PP_STATUS_STATE 2) p c) (Reg.FABRIC_CNT (p / 128) 6)
  else if st = 2 ∧ ipc + hl ≤ rdF d (Reg.PFC_CFG p c) Reg.PFC_CFG_XON_CELLS then
    markPfc (wrF d o Reg.PP_STATUS_STATE 1) p c
  else d

/-- A port-priority after a write of PFC_CFG (R233): LOSSLESS := 1 takes it from LOSSY to OPEN, which is a change for the strip, and one that
is not lossless is LOSSY and has no headland need. -/
def ppConfigure (d : Dev) (p c : Nat) : Dev :=
  let o := ppReg p c
  if flagF d (Reg.PFC_CFG p c) Reg.PFC_CFG_LOSSLESS then
    if rdF d o Reg.PP_STATUS_STATE = 0 then markPfc (wrF d o Reg.PP_STATUS_STATE 1) p c else d
  else
    wrFs d o [(Reg.PP_STATUS_STATE, 0), (Reg.PP_STATUS_NEED, 0), (Reg.PP_STATUS_SHORT, 0), (Reg.PP_STATUS_MEASURED, 0)]

/-- The rate of a SPEED code in Mb/s (R337). -/
def speedMbps (s : Nat) : Nat :=
  if s = 1 then 1600000 else if s = 2 then 800000 else if s = 3 then 400000 else if s = 4 then 200000
  else if s = 5 then 100000 else if s = 6 then 100000 else if s = 7 then 25000 else 0

/-- Lanes of a SPEED code (R337). -/
def speedLanes (s : Nat) : Nat := if s = 1 then 8 else if s = 2 then 4 else if s = 3 ∨ s = 6 then 2 else if s = 0 then 0 else 1

/-- The SPEED in which port p runs now: CUR_SPEED while it has one, else the configured SPEED (R337). -/
def curSpeed (d : Dev) (p : Nat) : Nat :=
  let c := rdF d (Reg.PORT_STATE (p / 64) (p % 64)) Reg.PORT_STATE_CUR_SPEED
  if c ≠ 0 then c else rdF d (Reg.PORT_MODE (p / 64) (p % 64)) Reg.PORT_MODE_SPEED

/-- The one-way delay D in use for a port, ns: the measured delay, else 5 ns per metre of cable (R235). -/
def portDelay (d : Dev) (p : Nat) : Nat :=
  let o := Reg.PDELAY_STATUS (p / 64) (p % 64)
  if flagF d o Reg.PDELAY_STATUS_MEASURED then rdF d o Reg.PDELAY_STATUS_D_NS
  else 5 * rdF d (Reg.HL_PORT p) Reg.HL_PORT_CABLE_M

/-- The headland need of a port-priority, in cells (R234). The rate is in Mb/s, so every term is in 1/8,000 bytes. -/
def headlandNeed (d : Dev) (p : Nat) : Nat :=
  let r := speedMbps (curSpeed d p)
  let f := rdF d (Reg.PORT_MODE (p / 64) (p % 64)) Reg.PORT_MODE_MAX_FRAME
  let o := Reg.HL_PORT p
  let x := 2 * portDelay d p * r + 8000 * (2 * f + 512 * rdF d o Reg.HL_PORT_PEER_RESP) + 500 * r
  min (ceilDiv x (8000 * rdF d o Reg.HL_PORT_W_CELL)) 0x3FFFF

/-- Ports of the part (R1). -/
def portCount (d : Dev) : Nat := if d.fuses.half then 256 else 512
def acreCount (d : Dev) : Nat := if d.fuses.half then 2 else 4
def stripCount (d : Dev) : Nat := if d.fuses.half then 4 else 8
def stackCount (d : Dev) : Nat := if d.fuses.half then 1 else 2

/-- Whether cipher engine e is present: RIND_S 0 to 7, RIND_A 8 to 11, RIND_X 12 and 13 (R1, R307). -/
def engPresent (d : Dev) (e : Nat) : Bool :=
  if e < 8 then decide (e < stripCount d) else if e < 12 then decide (e - 8 < acreCount d) else decide (e - 12 < stackCount d)

/-- Headland of the device: 32,768 cells in each slice (R226). -/
def headlandCells (d : Dev) : Nat := 32768 * acreCount d

/-- The lossless port-priorities, in the reservation order of R236: the listed PFC_CFG entries with LOSSLESS set. -/
def losslessList (d : Dev) : List (Nat × Nat) :=
  (d.regs.filterMap fun e =>
    if Reg.PFC_CFG 0 0 ≤ e.1 ∧ e.1 < Reg.PFC_CFG 512 0 ∧ bit e.2.toNat 63 then
      some ((e.1 - Reg.PFC_CFG 0 0) / 64, (e.1 - Reg.PFC_CFG 0 0) % 64 / 8)
    else none)

/-- One step of the reservation: the running total, the number of SHORT marks and the device (R236). -/
def reserveStep (x : Nat × Nat × Dev) (pc : Nat × Nat) : Nat × Nat × Dev :=
  let (tot, short, d) := x
  let o := ppReg pc.1 pc.2
  let need := max (rdF d o Reg.PP_STATUS_NEED) (rdF d o Reg.PP_STATUS_HL_USED)
  if tot + need ≤ headlandCells d then (tot + need, short, wrF d o Reg.PP_STATUS_SHORT 0)
  else (tot, short + 1, wrF d o Reg.PP_STATUS_SHORT 1)

/-- Run the reservation order again (R236). -/
def headlandOrder (d : Dev) : Dev :=
  let (tot, short, d) := (losslessList d).foldl reserveStep (0, 0, d)
  wrFs d Reg.HEADLAND_STATUS [(Reg.HEADLAND_STATUS_RESERVED, tot), (Reg.HEADLAND_STATUS_SHORT, short)]

/-- Recompute NEED of every lossless priority of a port and run the order again (R235). -/
def headlandRecompute (d : Dev) (p : Nat) : Dev :=
  let d := putPort d p { getPort d p with dUsed := portDelay d p }
  let d := (List.range 8).foldl (fun d c =>
    if bit (rd d (Reg.PFC_CFG p c)).toNat 63 then
      wrFs d (ppReg p c) [(Reg.PP_STATUS_NEED, headlandNeed d p),
        (Reg.PP_STATUS_MEASURED, rdF d (Reg.PDELAY_STATUS (p / 64) (p % 64)) Reg.PDELAY_STATUS_MEASURED)]
    else d) d
  headlandOrder d

/-- The ingress port of a packet. -/
def inPort (p : Pkt) : Nat := pcGet p Pc.ingressPort

/-- Charge n cells of a packet to its ingress port-priority (R215, R237). -/
def chargePp (d : Dev) (port c n : Nat) (hl : Bool) : Dev :=
  let o := ppReg port c
  let d := if hl then
      wrF (wrF d o Reg.PP_STATUS_HL_USED (rdF d o Reg.PP_STATUS_HL_USED + n)) Reg.HEADLAND_STATUS Reg.HEADLAND_STATUS_USED
        (rdF d Reg.HEADLAND_STATUS Reg.HEADLAND_STATUS_USED + n)
    else wrF d o Reg.PP_STATUS_IPC (rdF d o Reg.PP_STATUS_IPC + n)
  evalPp d port c

/-- Release n cells of a port-priority; headland held above NEED is given back as HL_USED falls (R236). -/
def releasePpN (d : Dev) (port c n : Nat) (hl : Bool) : Dev :=
  if n = 0 then d else
  let o := ppReg port c
  let d := if hl then
      headlandOrder (wrF (wrF d o Reg.PP_STATUS_HL_USED (rdF d o Reg.PP_STATUS_HL_USED - n)) Reg.HEADLAND_STATUS
        Reg.HEADLAND_STATUS_USED (rdF d Reg.HEADLAND_STATUS Reg.HEADLAND_STATUS_USED - n))
    else wrF d o Reg.PP_STATUS_IPC (rdF d o Reg.PP_STATUS_IPC - n)
  evalPp d port c

def releasePp (d : Dev) (p : Pkt) : Dev := releasePpN d (inPort p) p.prio p.ppCells p.headland

/-- The charge is corrected to the cells that the packet uses (R215). -/
def correctPp (d : Dev) (p : Pkt) (n : Nat) : Dev × Pkt :=
  if p.ppCells = 0 then (d, p)
  else if p.ppCells ≤ n then (chargePp d (inPort p) p.prio (n - p.ppCells) p.headland, { p with ppCells := n })
  else (releasePpN d (inPort p) p.prio (p.ppCells - n) p.headland, { p with ppCells := n })

/-! Pools (R226 to R229, R238). -/

def poolUse (d : Dev) (m p : Nat) : Nat := (rd d (Reg.POOL_USE m p)).toNat
def setPoolUse (d : Dev) (m p n : Nat) : Dev := wr d (Reg.POOL_USE m p) (BitVec.ofNat 64 n)

/-- The chain that begins at a pool: it follows FALLBACK until a pool names itself, through at most 4 pools (R227, R228). -/
def poolChain (d : Dev) : Nat → Nat → List Nat
  | 0, _ => []
  | n + 1, p =>
    let q := rdF d (Reg.POOL_CFG p) Reg.POOL_CFG_FALLBACK
    if q = p then [p] else p :: poolChain d n q

/-- Whether a pool of a slice can hold n more cells (R228). -/
def poolFits (d : Dev) (m n p : Nat) : Bool := decide (poolUse d m p + n ≤ rdF d (Reg.POOL_CFG p) Reg.POOL_CFG_LIMIT)

/-- The pool of the chain that takes n cells in slice m (R228). -/
def poolPick (d : Dev) (m start n : Nat) : Option Nat := (poolChain d 4 start).find? (poolFits d m n)

def poolCharge (d : Dev) (m p n : Nat) : Dev := setPoolUse d m p (poolUse d m p + n)
def poolReturn (d : Dev) (m p n : Nat) : Dev := setPoolUse d m p (poolUse d m p - n)

/-- Whether a pool is named by a valid LL_POOL (R238). -/
def llNamed (d : Dev) (p : Nat) : Bool :=
  (List.range 8).any fun c => flagF d (Reg.LL_POOL c) Reg.LL_POOL_VALID && rdF d (Reg.LL_POOL c) Reg.LL_POOL_POOL == p

/-- Whether HOLDING_POOL[h] (h below 256) or CAPTURE_POOL (h = 256) loses pool q to a lossless class (R238). -/
def poolLost (d : Dev) (q h : Nat) : Bool :=
  llNamed d q &&
    (if h < 256 then rdF d (Reg.HOLDING_POOL h) Reg.HOLDING_POOL_POOL == q
     else flagF d Reg.CAPTURE_POOL Reg.CAPTURE_POOL_VALID && rdF d Reg.CAPTURE_POOL Reg.CAPTURE_POOL_POOL == q)

/-- A write that names pool q has changed the bindings from d0 to d: a feature with a binding that loses the pool from now on is a
conflict (R24, R238), recorded once for each feature (DESIGN CHOICE, log entry 139). -/
def poolClaims (d0 d : Dev) (q : Nat) : Dev :=
  let begun := fun h => poolLost d q h && !poolLost d0 q h
  let d1 := if (List.range 256).any begun then recordConflict d 2 q 0x02 0x03 2 else d
  if begun 256 then recordConflict d1 2 q 0x02 0x05 2 else d1

/-- The starting pool of a lower-ranked binding: the pool it names, or that pool's FALLBACK when a lossless class keeps the
pool (R238); none when that pool ends its chain. -/
def startPool (d : Dev) (p : Nat) : Option Nat :=
  if llNamed d p then
    let q := rdF d (Reg.POOL_CFG p) Reg.POOL_CFG_FALLBACK
    if q = p then none else some q
  else some p

/-- Whether the packet's ingress port-priority is lossless (R246); a DIRECT packet has no ingress port (R491, assumption 51). -/
def lossless (d : Dev) (p : Pkt) : Bool := flagF d (Reg.PFC_CFG (inPort p) p.prio) Reg.PFC_CFG_LOSSLESS && !p.noEdit

/-! The edit header and cells (R224). -/

def editHeaderLen (p : Pkt) : Nat :=
  if p.asRx || p.noEdit then 0 else 4 * p.edits.length + (if p.edits.length < 16 then 4 else 0) + p.edata.length

def cellsOf (p : Pkt) : Nat := ceilDiv (editHeaderLen p + p.frame.length) 256

/-! The free store (R230). -/

def bankSize (b : Nat) : Nat := if b < 16 then 10923 else 10922

/-- The pointer of cell c of slice m. -/
def cellPtr (m c : Nat) : Nat := m * 2 ^ 26 + c * 2 ^ 8

/-- The pointer that position i of a rebuilt ring holds. -/
def ringInit (key i : Nat) : Nat := cellPtr (key / 24) (key % 24 + 24 * i)

def bankReset (key : Nat) : FreeBank := ⟨[], 0, bankSize (key % 24), []⟩
def getBank (d : Dev) (key : Nat) : FreeBank := spGet bankReset d.fab.banks key
def putBank (d : Dev) (key : Nat) (b : FreeBank) : Dev := { d with fab := { d.fab with banks := spPut bankReset d.fab.banks key b } }

def allocated (d : Dev) (m c : Nat) : Bool := spGet (fun _ => 0) d.fab.alloc (2 ^ 18 * m + c) == 1
def setAlloc (d : Dev) (m c v : Nat) : Dev := { d with fab := { d.fab with alloc := spPut (fun _ => 0) d.fab.alloc (2 ^ 18 * m + c) v } }

/-- Settle a pointer fault: record, count and raise it; a lost cell counts as leaked (R230). -/
def ptrFault (d : Dev) (m kind ptr master access : Nat) : Dev :=
  let k := if kind = 0 then Fk.ptrEcc else if kind = 1 then Fk.ptrUncorrectable else if kind = 2 then Fk.ptrRange
    else if kind = 3 then Fk.ptrAlign else Fk.ptrDouble
  let o := Reg.PTR_ERR_LAST
  let d := wrFs d o [(Reg.PTR_ERR_LAST_VALID, 1), (Reg.PTR_ERR_LAST_KIND, kind), (Reg.PTR_ERR_LAST_ACRE, m),
    (Reg.PTR_ERR_LAST_POINTER, ptr), (Reg.PTR_ERR_LAST_COUNT, satAdd 16 (rdF d o Reg.PTR_ERR_LAST_COUNT) 1)]
  let d := bump d (Reg.FABRIC_CNT m 4)
  let d := if kind = 1 ∨ kind = 2 ∨ kind = 3 then
      wrF d (Reg.FREE_STATUS m) Reg.FREE_STATUS_LEAKED (rdF d (Reg.FREE_STATUS m) Reg.FREE_STATUS_LEAKED + 1)
    else d
  raise d k m 0 master access

/-- The kind of R230 that a pointer of a bank fails, other than the ECC kinds. -/
def ptrKind (m b ptr : Nat) : Option Nat :=
  if bits ptr 28 4 ≠ 0 ∨ bits ptr 26 2 ≠ m then some 2
  else if bits ptr 0 8 ≠ 0 ∨ bits ptr 8 18 % 24 ≠ b ∨ 262144 ≤ bits ptr 8 18 then some 3
  else none

/-- Take the pointer at the head of a bank's ring, checked (R230). -/
def ringPop (d : Dev) (m b : Nat) : Option Nat × Dev :=
  let key := 24 * m + b
  let k := getBank d key
  if k.count = 0 then (none, d) else
  let ptr := spGet (ringInit key) k.ring k.head
  let e := ecc d .freeRing (key * 16384 + k.head)
  let d := setEcc (putBank d key { k with head := (k.head + 1) % bankSize b, count := k.count - 1 }) .freeRing (key * 16384 + k.head) 0
  if e = 2 then (none, wrF (ptrFault d m 1 ptr 0 10) (Reg.FREE_STATUS m) Reg.FREE_STATUS_FREE (rdF d (Reg.FREE_STATUS m) Reg.FREE_STATUS_FREE - 1))
  else
    let d := if e = 1 then ptrFault d m 0 ptr 0 10 else d
    match ptrKind m b ptr with
    | some q => (none, wrF (ptrFault d m q ptr 0 10) (Reg.FREE_STATUS m) Reg.FREE_STATUS_FREE (rdF d (Reg.FREE_STATUS m) Reg.FREE_STATUS_FREE - 1))
    | none => (some ptr, d)

/-- Put a pointer at the tail of a bank's ring. -/
def ringPush (d : Dev) (m b ptr : Nat) : Dev :=
  let key := 24 * m + b
  let k := getBank d key
  let pos := (k.head + k.count) % bankSize b
  let d := putBank d key { k with ring := spPut (ringInit key) k.ring pos ptr, count := k.count + 1 }
  eccWrite d .freeRing (key * 16384 + pos) (256 * 6 + m) 0

/-- The free-pointer cache of a bank below 16 takes a batch of 16 from its ring (R230). -/
def freeCacheRefill (m b : Nat) (d : Dev) : Dev :=
  let key := 24 * m + b
  if 16 ≤ (getBank d key).cache.length then d
  else (List.range 16).foldl (fun d _ => match ringPop d m b with
    | (some p, d) => putBank d key { getBank d key with cache := (getBank d key).cache ++ [p] }
    | (none, d) => d) d

/-- The free-pointer cache of a bank above 48 writes a batch of 16 back to its ring (R230). -/
def freeCacheWriteback (m b : Nat) (d : Dev) : Dev :=
  let key := 24 * m + b
  let c := (getBank d key).cache
  if c.length ≤ 48 then d
  else (c.drop (c.length - 16)).foldl (fun d p => ringPush d m b p)
    (putBank d key { getBank d key with cache := c.take (c.length - 16) })

/-- The first pointer of a bank's ring that is not discarded; `n` bounds those that are. -/
def ringTake (d : Dev) (m b : Nat) : Nat → Option Nat × Dev
  | 0 => (none, d)
  | n + 1 => match ringPop d m b with
    | (some p, d) => (some p, d)
    | (none, d) => ringTake d m b n

/-- Take a cell of one bank: from its cache, else from its ring. -/
def bankTake (d : Dev) (m b : Nat) : Option Nat × Dev :=
  let key := 24 * m + b
  let k := getBank d key
  match k.cache with
  | p :: t => (some p, putBank d key { k with cache := t })
  | [] => ringTake d m b k.count

/-- Take a cell of the slice, trying the banks in turn from one of them (R230). -/
def cellTake (d : Dev) (m : Nat) : List Nat → Option Nat × Dev
  | [] => (none, d)
  | b :: t =>
    match bankTake d m b with
    | (some p, d) =>
      let d := setAlloc d m (bits p 8 18) 1
      (some p, wrF d (Reg.FREE_STATUS m) Reg.FREE_STATUS_FREE (rdF d (Reg.FREE_STATUS m) Reg.FREE_STATUS_FREE - 1))
    | (none, d) => cellTake d m t

/-- A pointer returns to the free store, checked against the bitmap (R230): to the cache, which holds 64 and writes a batch back first when
it is full. -/
def cellFree (d : Dev) (ptr0 : Nat) : Dev :=
  let m := bits ptr0 26 2
  let b := bits ptr0 8 18 % 24
  let (j, d) := injectAt d 9 (256 * 6 + m) 0
  let ptr := if j = 0 then ptr0 else ptr0 + 1
  match ptrKind m b ptr with
  | some q => ptrFault d m q ptr 0 9
  | none =>
    let c := bits ptr 8 18
    if ¬ allocated d m c then ptrFault d m 4 ptr 0 9
    else
      let key := 24 * m + b
      let d := if 64 ≤ (getBank d key).cache.length then freeCacheWriteback m b d else d
      let k := getBank d key
      let d := putBank (setAlloc d m c 0) key { k with cache := k.cache ++ [ptr] }
      wrF d (Reg.FREE_STATUS m) Reg.FREE_STATUS_FREE (rdF d (Reg.FREE_STATUS m) Reg.FREE_STATUS_FREE + 1)

/-- Take n cells of a slice, the i-th from bank i mod 24 where it has one; none when the slice runs empty. -/
def cellsTake (d : Dev) (m : Nat) : Nat → Option (List Nat) × Dev
  | 0 => (some [], d)
  | n + 1 =>
    match cellsTake d m n with
    | (none, d) => (none, d)
    | (some l, d) =>
      match cellTake d m ((List.range 24).map fun i => (n + i) % 24) with
      | (some p, d) => (some (l ++ [p]), d)
      | (none, d) => (none, l.foldl cellFree d)

/-- A packet's grant is returned (R229). -/
def returnGrant (d : Dev) (p : Pkt) : Dev :=
  match p.grant with
  | some (m, pool, n) => poolReturn d m pool n
  | none => d

def refCount (d : Dev) (k : Nat) : Nat := spGet (fun _ => 0) d.fab.refs k
def setRef (d : Dev) (k n : Nat) : Dev := { d with fab := { d.fab with refs := spPut (fun _ => 0) d.fab.refs k n } }

/-- One holder of a packet's cells lets them go: the last one returns them to their pool (R228, R231, R253). -/
def releaseCells (d : Dev) (p : Pkt) : Dev :=
  let n := refCount d p.refKey
  if 1 < n then setRef d p.refKey (n - 1)
  else p.cells.foldl cellFree (poolReturn (setRef d p.refKey 0) p.macre p.pool p.cells.length)

def ppCount (d : Dev) (k : Nat) : Nat := spGet (fun _ => 0) d.fab.ppRefs k
def setPpRef (d : Dev) (k n : Nat) : Dev := { d with fab := { d.fab with ppRefs := spPut (fun _ => 0) d.fab.ppRefs k n } }

/-- One copy of a packet has gone: the last one releases its port-priority charge (R215). -/
def releaseShare (d : Dev) (p : Pkt) : Dev :=
  let n := ppCount d p.ppRef
  if 1 < n then setPpRef d p.ppRef (n - 1) else releasePp (setPpRef d p.ppRef 0) p

/-- A copy that holds cells leaves the buffer (R215, R228). -/
def releaseCopy (d : Dev) (p : Pkt) : Dev := releaseShare (releaseCells d p) p

/-! Presence (R14, R447). -/

/-- Whether acre a is present and neither in reset nor held. -/
def acreUp (d : Dev) (a : Nat) : Bool :=
  decide (a < acreCount d) && !bit (rdF d Reg.RSTC_PARTIAL_STATUS Reg.RSTC_PARTIAL_STATUS_ACRE_BUSY) a
    && !bit (rdF d Reg.RSTC_PARTIAL_STATUS Reg.RSTC_PARTIAL_STATUS_ACRE_HELD) a

/-- Everything a packet holds before it has cells: staging, its port-priority charge, its grant. -/
def releaseFrame (d : Dev) (p : Pkt) : Dev := returnGrant (releasePp (leaveStaging d p) p) p

/-- A completion record of inject ring r (R492). -/
def cplWrite (d : Dev) (r slot cookie status elem cause reason txTime : Nat) : Dev :=
  let n := rdF d (Reg.INJ_RING r 6) Reg.INJ_RING_CPL_PROD
  let size := 2 ^ rdF d (Reg.INJ_RING r 1) Reg.INJ_RING_CPL_LOG2
  let w0 := (1 - n / size % 2) * 2 ^ 63 + status * 2 ^ 60 + elem * 2 ^ 55 + cause * 2 ^ 52 + reason * 2 ^ 44 + slot % 2 ^ 32
  let a := (rd d (Reg.INJ_RING r 4)).toNat + 32 * (n % size)
  let d := memWrite d spHost a (leBytes 8 w0 ++ leBytes 8 cookie ++ leBytes 8 txTime ++ leBytes 8 0)
  msi (bumpWrap d (Reg.INJ_RING r 6) Reg.INJ_RING_CPL_PROD 1) (64 + r)

/-- A packet is dropped with a reason: a DIRECT packet whose completion is still due reports it (R492). -/
def dropCpl (d : Dev) (p : Pkt) (reason : Nat) : Dev :=
  match p.inject with
  | some (r, slot, cookie, _) => cplWrite d r slot cookie 2 0 0 reason 0
  | none => d

/-- The fabric drops a packet that stands in staging (R239). -/
def fabricDrop (d : Dev) (p : Pkt) (k : Nat) : Dev := releaseFrame (dropCpl (bump d (Reg.FABRIC_DROP k)) p (0x80 + k)) p

/-! VOQs and the move hold (R218, R220). -/

def acreReset : AcreSt := ⟨0, [], [], [], none, []⟩
def getAcre (d : Dev) (a : Nat) : AcreSt := spGet (fun _ => acreReset) d.acres a
def putAcre (d : Dev) (a : Nat) (x : AcreSt) : Dev := { d with acres := spPut (fun _ => acreReset) d.acres a x }

def getVoq (d : Dev) (a m : Nat) : List Pkt := spGet (fun _ => []) d.fab.voq (4 * a + m)
def putVoq (d : Dev) (a m : Nat) (l : List Pkt) : Dev :=
  { d with fab := { d.fab with voq := spPut (fun _ => []) d.fab.voq (4 * a + m) l } }

/-- Entry j of an acre's ACRE_MAP (R20). -/
def acreMap (d : Dev) (a j : Nat) : Nat := bits (rd d (Reg.ACRE_MAP a (j / 2))).toNat (32 * (j % 2)) 2

/-- Entry i of an acre's FURROW_MAP (R20). -/
def furrowMap (d : Dev) (a i : Nat) : Nat := bits (rd d (Reg.FURROW_MAP a (i / 2))).toNat (32 * (i % 2)) 5

/-- A packet enters a VOQ, or is dropped VOQ_FULL (R218). -/
def voqPush (d : Dev) (a m : Nat) (p : Pkt) : Dev :=
  if (getVoq d a m).length ≥ 512 then fabricDrop d p 2 else putVoq d a m (getVoq d a m ++ [p])

/-- A packet leaves its furrow for stage 1: to the move hold while its entry moves, else to the VOQ that its flow hash
selects (R218, R220). -/
def enterStage1 (d : Dev) (a : Nat) (p : Pkt) : Dev :=
  let j := bits (pcGet p Pc.flowHash) 20 6
  let p := { p with mapRef := 64 * a + j }
  let o := Reg.ACRE_MOVE_STATUS a
  if rdF d o Reg.ACRE_MOVE_STATUS_PHASE = 1 ∧ rdF d o Reg.ACRE_MOVE_STATUS_ENTRY = j then
    let x := getAcre d a
    if x.moveHold.length ≥ 8192 then fabricDrop d p 4 else putAcre d a { x with moveHold := x.moveHold ++ [p] }
  else voqPush d a (acreMap d a j) p

/-! Capture rings (R265, R267). -/

def capField (d : Dev) (r w : Nat) (f : Fld) : Nat := rdF d (Reg.CAP_RING r w) f
def capNext (d : Dev) (r : Nat) : Nat := spGet (fun _ => 0) d.fab.capSeq r

end Sys2Proof.Machine
end

