-- ==== Sys2Proof/Machine/Deep.lean ====
section
/-!
DEFINITION. The deep store (R363 to R388): address mapping, rank states, the settlement of a burst, row policy and refresh, rank
failure and migration, and the host's access. Contents are held by deep-store address; the check-bit state is held by physical
burst, so that a migration changes no content (R386).
-/
namespace Sys2Proof.Machine

/-! Size and address mapping (R364, R366, R368). -/

/-- Whether stack k holds a spare layer. -/
def hasSpare (d : Dev) (k : Nat) : Bool := bit (rdF d Reg.DEEP_SPARE_CFG Reg.DEEP_SPARE_CFG_SPARE) k

/-- Bytes that stack k maps: 36 GiB with a spare layer, else 48 GiB. -/
def stackBytes (d : Dev) (k : Nat) : Nat := (if hasSpare d k then 36 else 48) * 2 ^ 30

/-- The usable deep store, bytes. -/
def deepSize (d : Dev) : Nat := if stackCount d = 2 then stackBytes d 0 + stackBytes d 1 else stackBytes d 0

def deepReady (d : Dev) : Bool := flagF d Reg.DEEP_STATUS Reg.DEEP_STATUS_READY

/-- The fields of an address. -/
inductive DeepFld where
  | C | P | K | G | B | L | R | S
  deriving DecidableEq, Repr

/-- The fields of an order, least significant first. -/
def deepOrder : Nat → List DeepFld
  | 0 => [.C, .P, .S, .K, .G, .B, .L, .R]
  | 1 => [.P, .K, .C, .S, .G, .B, .L, .R]
  | 2 => [.C, .P, .G, .S, .K, .B, .L, .R]
  | _ => [.C, .P, .K, .G, .B, .L, .R]

/-- The radix of a field in stack k. -/
def deepRadix (d : Dev) (k : Nat) : DeepFld → Nat
  | .C => 32 | .P => 2 | .K => 4 | .G => 4 | .B => 4
  | .L => if hasSpare d k then 3 else 4
  | .R => 12288
  | .S => stackCount d

/-- Mixed-radix decomposition. -/
def deepDigits (d : Dev) (k : Nat) : List DeepFld → Nat → List (DeepFld × Nat)
  | [], _ => []
  | f :: t, q => (f, q % deepRadix d k f) :: deepDigits d k t (q / deepRadix d k f)

/-- Where a burst lies. -/
structure DeepLoc where
  k : Nat
  c : Nat
  sid : Nat
  p : Nat
  col : Nat
  bank : Nat
  row : Nat
  /-- Burst within its 256 B unit. -/
  i : Nat
  deriving DecidableEq, Repr

/-- The place of an address (R368). -/
def deepLoc (d : Dev) (a : Nat) : DeepLoc :=
  let o := rdF d Reg.DEEP_CFG Reg.DEEP_CFG_ORDER
  let s := b2n (decide (o = 3 ∧ stackBytes d 0 ≤ a))
  let q := (if s = 1 then a - stackBytes d 0 else a) / 256
  let l := deepDigits d (if o = 3 then s else 0) (deepOrder o) q
  let g := fun (f : DeepFld) => ((l.find? fun e => e.1 == f).map Prod.snd).getD 0
  ⟨if o = 3 then s else g .S, g .C, g .L, g .P, g .K, 4 * g .G + g .B, g .R, a % 256 / 32⟩

/-- The rank's number, which is its fault instance (R364). -/
def rankNo (k c s : Nat) : Nat := 128 * k + 4 * c + s

/-- The copy unit of a place (R385). -/
def DeepLoc.unit (l : DeepLoc) : Nat := (l.row * 16 + l.bank) * 2 + l.p

/-- The number that mixed-radix digits spell, least significant first. -/
def deepNumber (d : Dev) (k : Nat) (g : DeepFld → Nat) : List DeepFld → Nat
  | [] => 0
  | f :: t => g f + deepRadix d k f * deepNumber d k g t

/-- The deep-store address of burst i of a copy unit of SID layer s in rank column (k, c): the inverse of `deepLoc` for a mapped layer. -/
def deepAddr (d : Dev) (k c s unit i : Nat) : Nat :=
  let o := rdF d Reg.DEEP_CFG Reg.DEEP_CFG_ORDER
  let bank := unit / 2 % 16
  let g := fun (f : DeepFld) => match f with
    | .C => c | .P => unit % 2 | .K => i / 8 | .G => bank / 4 | .B => bank % 4 | .L => s | .R => unit / 32 | .S => k
  (if o = 3 ∧ k = 1 then stackBytes d 0 else 0) + deepNumber d k g (deepOrder o) * 256 + 32 * (i % 8)

/-- The key of a physical burst: rank, copy unit and burst within its row. -/
def physBurst (rank unit i : Nat) : Nat := rank * 2 ^ 24 + unit * 32 + i

/-! Ranks (R365). -/

def rankState (d : Dev) (k c s : Nat) : Nat := rdF d (Reg.RANK_STATE k c s) Reg.RANK_STATE_STATE
def setRank (d : Dev) (k c s v : Nat) : Dev := wrF d (Reg.RANK_STATE k c s) Reg.RANK_STATE_STATE v

/-- The SID that serves a place (R368, R386). -/
def servingSid (d : Dev) (l : DeepLoc) : Nat :=
  let st := rankState d l.k l.c l.sid
  if st = 4 ∨ (st = 2 ∧ l.unit < rdF d (Reg.DEEP_MIG_STATUS l.k) Reg.DEEP_MIG_STATUS_UNITS_DONE) then 3 else l.sid

/-- A fault of the deep store is raised and recorded. -/
def deepFault (d : Dev) (f : FaultKind) (rank addr master access : Nat) : Dev :=
  raise (wr d Reg.DEEP_ERR_LAST (mkWord [(Reg.DEEP_ERR_LAST_ADDRESS, addr), (Reg.DEEP_ERR_LAST_RANK, rank),
    (Reg.DEEP_ERR_LAST_KIND, f.kind), (Reg.DEEP_ERR_LAST_VALID, 1)])) f rank addr master access

/-- A rank leaves service with no stand-in; the fault is raised once for each rank (R387). -/
def retireRank (d : Dev) (k c s addr : Nat) : Dev :=
  if rankState d k c s = 6 then d
  else deepFault (bumpSat (setRank d k c s 6) Reg.DEEP_STATUS Reg.DEEP_STATUS_RETIRED 1) Fk.rankRetired (rankNo k c s) addr 0 0

def setStatusBit (d : Dev) (f : Fld) (k v : Nat) : Dev :=
  wrF d Reg.DEEP_STATUS f (setBits (rdF d Reg.DEEP_STATUS f) k 1 v)

/-- Stop the copy of stack k: both ranks retire (R386). -/
def migrationAbort (d : Dev) (k addr : Nat) : Dev :=
  let o := Reg.DEEP_MIG_STATUS k
  let c := rdF d o Reg.DEEP_MIG_STATUS_CHANNEL
  let s := rdF d o Reg.DEEP_MIG_STATUS_SRC_SID
  let d := wrFs d o [(Reg.DEEP_MIG_STATUS_ACTIVE, 0), (Reg.DEEP_MIG_STATUS_ABORTED, 1)]
  retireRank (retireRank (setStatusBit d Reg.DEEP_STATUS_MIGRATING k 0) k c s addr) k c 3 addr

/-- A rank enters failure handling (R384 to R386). -/
def rankFail (d : Dev) (k c s addr : Nat) : Dev :=
  let st := rankState d k c s
  if st = 3 then migrationAbort d k addr
  else if st = 5 then retireRank d k c s addr
  else if st ≠ 0 then d
  else if bit (rdF d Reg.DEEP_STATUS Reg.DEEP_STATUS_SPARE_FREE) k then
    let d := wrF (setRank d k c s 2) (Reg.RANK_STATE k c s) Reg.RANK_STATE_PARTNER 3
    let d := wrF (setRank d k c 3 3) (Reg.RANK_STATE k c 3) Reg.RANK_STATE_PARTNER s
    let d := setStatusBit (setStatusBit d Reg.DEEP_STATUS_SPARE_FREE k 0) Reg.DEEP_STATUS_MIGRATING k 1
    wr d (Reg.DEEP_MIG_STATUS k) (mkWord [(Reg.DEEP_MIG_STATUS_CHANNEL, c), (Reg.DEEP_MIG_STATUS_SRC_SID, s),
      (Reg.DEEP_MIG_STATUS_ACTIVE, 1)])
  else retireRank d k c s addr

/-! Row policy (R375, R378). -/

def bankDef (_ : Nat) : DeepBank := ⟨none, none, 0, 1, [], [], 0, 0⟩
def bankKey (rank p bank : Nat) : Nat := rank * 32 + p * 16 + bank
def getDBank (d : Dev) (key : Nat) : DeepBank := spGet bankDef d.deep.banks key
def putDBank (d : Dev) (key : Nat) (b : DeepBank) : Dev := { d with deep := { d.deep with banks := spPut bankDef d.deep.banks key b } }

/-- The activate-count table after an activate of a row (R378). -/
def actCount (l : List (Nat × Nat)) (r : Nat) : List (Nat × Nat) :=
  if l.any fun e => e.1 == r then l.map fun e => if e.1 = r then (r, e.2 + 1) else e
  else if l.length < 16 then l ++ [(r, 1)]
  else
    let low := l.foldl (fun m e => min m e.2) ((l.headD (0, 0)).2)
    match l.findIdx? fun e => e.2 == low with
    | some i => l.set i (r, low + 1)
    | none => l

/-- A rank's bank by its key. -/
def rankOfBank (key : Nat) : Nat := key / 32

/-- An activate of a row (R378): its count, the bank's activation count, and the neighbour refresh that falls due. -/
def activateRow (thr : Nat) (b : DeepBank) (row : Nat) : DeepBank :=
  let acts := actCount b.acts row
  let full := acts.any fun e => e.1 == row && decide (thr ≤ e.2)
  { b with acts := acts, raa := b.raa + 1, due := if full && !b.due.contains row then b.due ++ [row] else b.due }

def actThreshold (d : Dev) : Nat := rdF d Reg.DEEP_CFG Reg.DEEP_CFG_ROW_ACT_THRESHOLD

/-- The bursts that a range touches: address, and the offset and number of its bytes in the range. -/
def burstsOf (addr n : Nat) : List (Nat × Nat × Nat) :=
  if n = 0 then [] else
  (List.range ((addr + n - 1) / 32 - addr / 32 + 1)).map fun i =>
    let lo := max addr ((addr / 32 + i) * 32)
    let hi := min (addr + n) ((addr / 32 + i + 1) * 32)
    ((addr / 32 + i) * 32, lo - addr, hi - lo)

/-- The bank of a place, with the SID that serves it. -/
def DeepLoc.bankOf (d : Dev) (l : DeepLoc) : Nat := bankKey (rankNo l.k l.c (servingSid d l)) l.p l.bank

/-- Whether a waiting request addresses a bank, and a row of it when one is given. -/
def bankWanted (d : Dev) (key : Nat) (row : Option Nat) : Bool :=
  d.deep.reqs.any fun r => r.left.any fun b =>
    let l := deepLoc d b.1
    l.bankOf d == key && (match row with | some x => l.row == x | none => true)

/-- A command to a rank, with the parity injection of R437 (R371): 0 good, 1 good after one repeat, 2 failed. -/
def deepCommand (d : Dev) (k c s addr master access : Nat) : Nat × Dev :=
  let r := rankNo k c s
  let (j, d) := injectAt d 5 (256 * 10 + r) addr
  if j = 0 then (0, d)
  else
    let d := deepFault (bump d (Reg.DEEP_CNT 8)) Fk.cmdRetried r addr master access
    if j = 1 then (1, d) else (2, rankFail (deepFault d Fk.cmdFail r addr master access) k c s addr)

/-- A command to a bank that no access makes: refresh, neighbour refresh and RFM. -/
def bankCommand (d : Dev) (key : Nat) : Nat × Dev :=
  let r := rankOfBank key
  deepCommand d (r / 128) (r % 128 / 4) (r % 4) 0 0 0

/-- Rows r - 2, r - 1, r + 1 and r + 2 of a bank. -/
def neighbours (r : Nat) : List Nat :=
  (if 2 ≤ r then [r - 2] else []) ++ (if 1 ≤ r then [r - 1] else []) ++ [r + 1, r + 2].filter fun x => decide (x < 12288)

/-- The neighbours of a row at its threshold are refreshed, each by an activate, and its count starts again (R378). A failed command
leaves the refresh due. -/
def neighbourRefresh (key : Nat) (d0 : Dev) : Dev :=
  match (getDBank d0 key).due with
  | [] => d0
  | r :: t =>
    let (cm, d) := bankCommand d0 key
    if cm = 2 then d
    else
      let b : DeepBank := { getDBank d key with due := t, openRow := none, closedRow := none }
      let b := (neighbours r).foldl (activateRow (actThreshold d)) b
      bump (putDBank d key { b with acts := b.acts.map fun e => if e.1 = r then (r, 0) else e }) (Reg.DEEP_CNT 4)

/-- Neighbour refreshes that are due come before the next activate of the bank. -/
def neighboursDue (key : Nat) : Nat → Dev → Dev
  | 0, d => d
  | n + 1, d => if (getDBank d key).due.isEmpty then d else neighboursDue key n (neighbourRefresh key d)

/-- An access to a row of a bank: hits, conflicts, lost hits and activates. -/
def bankAccess (d : Dev) (key row : Nat) (wanted : Bool) : Dev :=
  let b := getDBank d key
  let hit := b.openRow == some row
  let conf := b.openRow.isSome && !hit
  let lost := b.openRow.isNone && b.closedRow == some row
  let hist := if hit || lost then min 3 (b.hist + 1) else if conf then b.hist - 1 else b.hist
  let keep := wanted || decide (2 ≤ hist)
  let d := if hit then d else neighboursDue key 64 d
  let b := if hit then b else activateRow (actThreshold d) (getDBank d key) row
  let b := { b with hist := hist, last := d.time, openRow := if keep then some row else none,
                    closedRow := if keep then none else some row }
  putDBank (if hit then bump d (Reg.DEEP_CNT 2) else if conf then bump d (Reg.DEEP_CNT 3) else d) key b

/-! Contents. The free-page ring of the spill region (R260) and the rings of earlier regions lie over the other contents: a rebuilt ring
holds its first pointers until something is written there. -/

def spillBase (d : Dev) : Nat := rdF d Reg.SPILL_REGION Reg.SPILL_REGION_BASE
def spillPages (d : Dev) : Nat := rdF d Reg.SPILL_REGION Reg.SPILL_REGION_PAGES

/-- The pointer that position i of a rebuilt ring holds, and the number of its pointers. -/
def RingArea.init (r : RingArea) (i : Nat) : Nat := r.base + ceilDiv r.pages 1024 + i
def RingArea.len (r : RingArea) : Nat := r.pages - ceilDiv r.pages 1024

/-- Whether an address lies in a ring. -/
def RingArea.has (r : RingArea) (a : Nat) : Bool := decide (4096 * r.base ≤ a ∧ a < 4096 * r.base + 4 * r.len)

/-- The pointer at a position of a ring. -/
def RingArea.word (r : RingArea) (i : Nat) : Nat := spGet r.init r.words i

/-- The byte of a ring at an address: pointers of 4 B, little-endian. -/
def RingArea.byteAt (r : RingArea) (a : Nat) : Byte := BitVec.ofNat 8 (r.word ((a - 4096 * r.base) / 4) / 2 ^ (8 * (a % 4)))

/-- A byte written into a ring. -/
def RingArea.put (r : RingArea) (a : Nat) (b : Byte) : RingArea :=
  let i := (a - 4096 * r.base) / 4
  { r with words := spPut r.init r.words i (setBits (r.word i) (8 * (a % 4)) 8 b.toNat) }

/-- The ring of the spill region. -/
def ringNow (d : Dev) : RingArea := ⟨spillBase d, spillPages d, d.que.ring⟩

/-- A byte of the deep store. -/
def deepByte (m : Mem) (d : Dev) (a : Nat) : Byte :=
  match (ringNow d :: d.deep.areas).find? fun r => r.has a with
  | some r => r.byteAt a
  | none => memGet spDeep m.deep a

def deepBytes (m : Mem) (d : Dev) (a n : Nat) : List Byte := (List.range n).map fun i => deepByte m d (a + i)

/-- A byte is stored in the deep store. -/
def deepPut (d : Dev) (a : Nat) (b : Byte) : Dev :=
  if (ringNow d).has a then { d with que := { d.que with ring := ((ringNow d).put a b).words } }
  else match d.deep.areas.findIdx? fun r => r.has a with
    | some i => match d.deep.areas[i]? with
      | some r => { d with deep := { d.deep with areas := d.deep.areas.set i (r.put a b) } }
      | none => d
    | none => memWrite d spDeep a [b]

/-- Bytes are stored in the deep store. -/
def deepStore (d : Dev) (a : Nat) (bs : List Byte) : Dev :=
  if (List.range bs.length).any fun i => (ringNow d :: d.deep.areas).any fun r => r.has (a + i) then
    (List.range bs.length).foldl (fun d i => deepPut d (a + i) (bs.getD i 0)) d
  else memWrite d spDeep a bs

/-- The ring of the spill region gives way to a new one, or to none: what it holds stays readable. -/
def ringRetire (d : Dev) : Dev :=
  if (ringNow d).len = 0 then d else { d with deep := { d.deep with areas := ringNow d :: d.deep.areas } }

/-! Bursts (R370, R371, R387). -/

/-- A correctable error: it is counted, and its write-back is due. -/
def burstCe (d : Dev) (k c s key addr master access : Nat) : Dev :=
  let o := Reg.RANK_STATE k c s
  let d := bump (bumpSat d o Reg.RANK_STATE_CE 1) (Reg.DEEP_CNT 6)
  let r := rankNo k c s
  let sec := d.time / 1000000000
  let w := spGet (fun _ => (0, 0)) d.deep.ceWindow r
  let n := if w.1 = sec then w.2 + 1 else 1
  let d := { d with deep := { d.deep with ceWindow := spPut (fun _ => (0, 0)) d.deep.ceWindow r (sec, n),
                                          writeBack := spPut (fun _ => 0) d.deep.writeBack key 1 } }
  deepFault d Fk.ceData r addr master access

/-- An uncorrectable error of a rank is counted and reported. -/
def burstUe (d : Dev) (k c s addr master access : Nat) : Dev :=
  deepFault (bump (bumpSat d (Reg.RANK_STATE k c s) Reg.RANK_STATE_UE 1) (Reg.DEEP_CNT 7)) Fk.ueData (rankNo k c s) addr master access

/-- Read a burst: whether it comes back good. -/
def burstRead (d : Dev) (addr master access : Nat) : Bool × Dev :=
  let l := deepLoc d addr
  let s := servingSid d l
  if rankState d l.k l.c s = 6 then (false, bump d (Reg.DEEP_CNT 13))
  else
    let r := rankNo l.k l.c s
    let (cm, d) := deepCommand d l.k l.c s addr master access
    if cm = 2 then (false, d)
    else
      let d := bankAccess d (bankKey r l.p l.bank) l.row (bankWanted d (bankKey r l.p l.bank) (some l.row))
      let key := physBurst r l.unit (8 * l.col + l.i)
      let e := ecc d .deep key
      if e = 0 then (true, d)
      else if e = 1 then (true, burstCe d l.k l.c s key addr master access)
      else if e = 2 then (false, rankFail (burstUe d l.k l.c s addr master access) l.k l.c s addr)
      else (false, d)

/-- The check-bit state of a burst after a write: `whole` when all 32 bytes are written. A write of a part reads the rest,
and corrects it where it can. -/
def burstEcc (d : Dev) (key rank addr : Nat) (whole : Bool) : Dev :=
  let (j, d) := injectAt d 4 (256 * 10 + rank) addr
  let d := { d with deep := { d.deep with writeBack := spPut (fun _ => 0) d.deep.writeBack key 0 } }
  if j ≠ 0 then setEcc d .deep key j else if whole ∨ ecc d .deep key = 1 then setEcc d .deep key 0 else d

/-- Write a burst; the answer says whether the data are stored. A failed command loses the write, and the burst is poisoned. -/
def burstWrite (d : Dev) (addr : Nat) (whole : Bool) (master access : Nat) : Bool × Dev :=
  let l := deepLoc d addr
  let s := servingSid d l
  if rankState d l.k l.c s = 6 then (false, bump d (Reg.DEEP_CNT 13))
  else
    let r := rankNo l.k l.c s
    let key := physBurst r l.unit (8 * l.col + l.i)
    let (cm, d) := deepCommand d l.k l.c s addr master access
    if cm = 2 then (false, setEcc d .deep key 3)
    else (true, burstEcc (bankAccess d (bankKey r l.p l.bank) l.row (bankWanted d (bankKey r l.p l.bank) (some l.row))) key r addr whole)

/-! Requests (R367, R369, R372). -/

/-- How a request is answered before any burst: 3 not ready, 1 beyond the usable size, 0 served (results of R383). -/
def deepCheck (d : Dev) (addr n master access : Nat) : Nat × Dev :=
  if ¬ deepReady d then (3, bump d (Reg.DEEP_CNT 9))
  else if deepSize d < addr + n then
    (1, deepFault (bump d (Reg.DEEP_CNT 10)) Fk.addrRange 0 addr master access)
  else (0, d)

/-- The part of bytes that a burst carries, stored or read at its place. -/
def burstData (m : Mem) (d : Dev) (addr : Nat) (b : Nat × Nat × Nat) (good : Bool) : List Byte :=
  if good then deepBytes m d (addr + b.2.1) b.2.2 else List.replicate b.2.2 0

/-- Read bursts in order: the bytes, a poisoned burst reading as zeros, and whether every burst is good. -/
def readBursts (m : Mem) (addr master access : Nat) (l : List (Nat × Nat × Nat)) (d : Dev) : List Byte × Bool × Dev :=
  l.foldl (fun (x : List Byte × Bool × Dev) b =>
    let (g, d) := burstRead x.2.2 b.1 master access
    (x.1 ++ burstData m d addr b g, x.2.1 && g, d)) ([], true, d)

/-- Write bytes burst by burst; a burst whose write fails keeps its data. -/
def writeBursts (addr : Nat) (bs : List Byte) (master access : Nat) (d : Dev) : Dev :=
  (burstsOf addr bs.length).foldl (fun d b =>
    let (g, d) := burstWrite d b.1 (b.2.2 == 32) master access
    if g then deepStore d (addr + b.2.1) ((bs.drop b.2.1).take b.2.2) else d) d

/-- MASTER of a port's requests (R372, R419). -/
def portMaster (port : Nat) : Nat := if port ≤ 1 then 11 else if port = 2 then 5 else if port = 3 then 12 else if port = 4 then 10 else 1

/-- ACCESS of a port's read or write (R419). -/
def portAccess (port : Nat) (write : Bool) : Nat := if write then 2 else if port = 2 then 4 else 1

/-- The answer of a port's read: its bytes, with a result of R383. -/
def portAnswer (d : Dev) (port : Nat) (bs : List Byte) (res : Nat) : Dev :=
  { d with deep := { d.deep with readData := spPut (fun _ => ([], 0)) d.deep.readData port (bs, res) } }

/-- A request arrives at a port (R372) from a unit: it waits for its slots, or is answered at once before READY and beyond the size. -/
def deepRequest (port unit : Nat) (write : Bool) (addr len : Nat) (bs : List Byte) (d : Dev) : Dev :=
  let n := if write then bs.length else len
  let (r, d) := deepCheck d addr n (portMaster port) (portAccess port write)
  if r ≠ 0 then (if write then d else portAnswer d port (List.replicate len 0) r)
  else { d with deep := { d.deep with
    reqs := d.deep.reqs ++ [⟨port, unit, write, addr, bs, d.time, burstsOf addr n, List.replicate n 0, true⟩] } }

/-- Bytes put in the place of others. -/
def splice (l : List Byte) (off : Nat) (bs : List Byte) : List Byte := l.take off ++ bs ++ l.drop (off + bs.length)

/-- Serve waiting request i: all of a write, which the controller accepts into its write queue; of a read the bursts that `p` names, the
request completing with the last. -/
def serveReq (m : Mem) (p : Nat → Bool) (i : Nat) (d : Dev) : Dev :=
  match d.deep.reqs[i]? with
  | none => d
  | some r =>
    let drop := fun (d : Dev) => { d with deep := { d.deep with reqs := d.deep.reqs.eraseIdx i } }
    if r.write then bump (writeBursts r.addr r.bytes (portMaster r.port) (portAccess r.port true) (drop d)) (Reg.DEEP_CNT 1)
    else
      let now := r.left.filter fun b => p b.1
      let (got, ok, d) := now.foldl (fun (x : List Byte × Bool × Dev) b =>
        let (bs, g, d) := readBursts m r.addr (portMaster r.port) (portAccess r.port false) [b] x.2.2
        (splice x.1 b.2.1 bs, x.2.1 && g, d)) (r.got, r.good, d)
      let left := r.left.filter fun b => !p b.1
      if left = [] then bump (portAnswer (drop d) r.port got (if ok then 0 else 2)) (Reg.DEEP_CNT 0)
      else { d with deep := { d.deep with reqs := d.deep.reqs.set i { r with left := left, got := got, good := ok } } }

/-- Whether two lists of bursts share one. -/
def burstsMeet (x y : List (Nat × Nat × Nat)) : Bool := x.any fun b => y.any fun c => b.1 == c.1

/-- The requests that wait at a port for a burst of a range are served first, in issue order (R372). -/
def portFlush (m : Mem) (port : Nat) (l : List (Nat × Nat × Nat)) : Nat → Dev → Dev
  | 0, d => d
  | n + 1, d =>
    match d.deep.reqs.findIdx? fun r => r.port == port && burstsMeet r.left l with
    | none => d
    | some i => portFlush m port l n (serveReq (memNow m d) (fun _ => true) i d)

/-- A request that a port's user makes and that is served at once, behind those of its port to the same bursts. -/
def portOrder (m : Mem) (port addr n : Nat) (d : Dev) : Dev := portFlush m port (burstsOf addr n) d.deep.reqs.length d

/-- Read n bytes through a port: result 0 good, 1 beyond the size, 2 poison, 3 not ready; not counted. -/
def deepFetch (m : Mem) (d : Dev) (port addr n master access : Nat) : List Byte × Nat × Dev :=
  let (r, d) := deepCheck d addr n master access
  if r ≠ 0 then (List.replicate n 0, r, d)
  else
    let d := portOrder m port addr n d
    let (bs, ok, d) := readBursts (memNow m d) addr master access (burstsOf addr n) d
    (bs, if ok then 0 else 2, d)

/-- Write bytes through a port, with the results of `deepFetch`; not counted. -/
def deepPost (m : Mem) (d : Dev) (port addr : Nat) (bs : List Byte) (master access : Nat) : Nat × Dev :=
  let (r, d) := deepCheck d addr bs.length master access
  if r ≠ 0 then (r, d) else (0, writeBursts addr bs master access (portOrder m port addr bs.length d))

/-- A request that was served is counted as complete (R390). -/
def deepCounted (d : Dev) (write : Bool) (r : Nat) : Dev := if r = 0 ∨ r = 2 then bump d (Reg.DEEP_CNT (b2n write)) else d

/-- Read n bytes through a port, as a complete request. -/
def deepRead (m : Mem) (d : Dev) (port addr n master access : Nat) : List Byte × Nat × Dev :=
  let (bs, r, d) := deepFetch m d port addr n master access
  (bs, r, deepCounted d false r)

/-- Write bytes through a port, as a complete request. -/
def deepWrite (m : Mem) (d : Dev) (port addr : Nat) (bs : List Byte) (master access : Nat) : Nat × Dev :=
  let (r, d) := deepPost m d port addr bs master access
  (r, deepCounted d true r)

/-- A request that has not completed in time is answered as a failure (R380); DEEP_ACC answers TIMEOUT. -/
def reqFail (d : Dev) (addr master access : Nat) : Dev :=
  let l := deepLoc d addr
  deepFault (bump d (Reg.DEEP_CNT 9)) Fk.reqTimeout (rankNo l.k l.c (servingSid d l)) addr master access

/-- The physical burst that serves an address. -/
def burstKey (d : Dev) (addr : Nat) : Nat :=
  let l := deepLoc d addr
  physBurst (rankNo l.k l.c (servingSid d l)) l.unit (8 * l.col + l.i)

/-- The DEEP_ACC access in progress times out: what a WRITE has stored is taken back, and a READ leaves zeros. -/
def accTimeout (d : Dev) : Dev :=
  let a := 64 * rdF d Reg.DEEP_ACC_CMD Reg.DEEP_ACC_CMD_ADDR
  let op := rdF d Reg.DEEP_ACC_CMD Reg.DEEP_ACC_CMD_OP
  let d := reqFail (wrF d Reg.DEEP_ACC_STATUS Reg.DEEP_ACC_STATUS_RESULT 4) a (starterOf d 7) op
  if op = 2 then d.deep.accEcc.foldl (fun d e => setEcc d .deep e.1 e.2) (deepStore d a d.deep.accOld)
  else (List.range 8).foldl (fun d i => wr d (Reg.DEEP_ACC_DATA i) 0) d

/-- Waiting request i has not completed in time: a read is returned poisoned, and a write is discarded. -/
def reqTimeout (i : Nat) (d : Dev) : Dev :=
  match d.deep.reqs[i]? with
  | some r =>
    let d := reqFail { d with deep := { d.deep with reqs := d.deep.reqs.eraseIdx i } } r.addr (portMaster r.port) (portAccess r.port r.write)
    if r.write then d else portAnswer d r.port (List.replicate r.got.length 0) 4
  | none =>
    if flagF d Reg.DEEP_ACC_STATUS Reg.DEEP_ACC_STATUS_BUSY ∧ rdF d Reg.DEEP_ACC_STATUS Reg.DEEP_ACC_STATUS_RESULT = 0 then accTimeout d
    else d

/-! Arbitration (R373, R379). -/

/-- The urgency of a waiting request; a refill of a slice in panic has 4. -/
def urgency (d : Dev) (r : DeepReq) : Nat :=
  let a := d.time - r.since
  let t := rdF d (Reg.DEEP_PORT r.port) Reg.DEEP_PORT_LAT_TARGET_NS
  if r.port = 0 ∧ (bit d.deep.panic r.unit = true) then 4
  else if 2 * a < t then 0 else if 4 * a < 3 * t then 1 else if a < t then 2 else 3

def pchKey (k c p : Nat) : Nat := k * 64 + c * 2 + p

/-- Whether an address lies on a pseudo-channel. -/
def onPch (d : Dev) (k c p : Nat) (addr : Nat) : Bool :=
  let l := deepLoc d addr
  l.k == k && l.c == c && l.p == p

/-- The bursts for which request i can take a slot: the first of a write, those left of a read. -/
def slotBursts (r : DeepReq) : List (Nat × Nat × Nat) := if r.write then r.left.take 1 else r.left

/-- The burst of waiting request i that a pseudo-channel can serve: none that an earlier request of the port also waits for (R372). -/
def slotBurst (d : Dev) (k c p i : Nat) : Option (Nat × Nat) :=
  match d.deep.reqs[i]? with
  | none => none
  | some r =>
    let before := (d.deep.reqs.take i).filter fun q => q.port == r.port
    let free := fun (b : Nat × Nat × Nat) => !(before.any fun q => burstsMeet q.left (if r.write then r.left else [b]))
    ((slotBursts r).find? fun b => onPch d k c p b.1 && free b).map fun b => (i, b.1)

/-- Urgency, then an open row. -/
def slotRank (d : Dev) (x : Nat × Nat) : Nat :=
  match d.deep.reqs[x.1]? with
  | none => 0
  | some r =>
    let l := deepLoc d x.2
    2 * urgency d r + b2n ((getDBank d (l.bankOf d)).openRow == some l.row)

/-- The request and burst that a pseudo-channel takes: highest urgency, then an open row, then the oldest. -/
def pickReq (d : Dev) (k c p : Nat) : Option (Nat × Nat) :=
  ((List.range d.deep.reqs.length).filterMap (slotBurst d k c p)).foldl (fun best x =>
    match best with
    | none => some x
    | some y => if slotRank d y < slotRank d x then some x else some y) none

/-- Banks of a pseudo-channel with their keys. -/
def pchBanks (k c p : Nat) : List Nat :=
  (List.range 4).flatMap fun s => (List.range 16).map fun b => bankKey (rankNo k c s) p b

/-- A bank is refreshed for one interval (R376): its row is closed. -/
def refreshBank (key : Nat) (d0 : Dev) : Dev :=
  let (cm, d) := bankCommand d0 key
  if cm = 2 then d else putDBank d key { getDBank d key with openRow := none, closedRow := none }

/-- A postponed refresh is made up for. -/
def refreshPostponed (key : Nat) (d : Dev) : Dev :=
  let d := refreshBank key d
  putDBank d key { getDBank d key with postponed := (getDBank d key).postponed - 1 }

/-- A refresh falls due: while requests wait for the bank it is postponed, at most 4 times. -/
def bankRefresh (rank p bank : Nat) (d : Dev) : Dev :=
  let key := bankKey rank p bank
  let b := getDBank d key
  if (bankWanted d key none = true) ∧ b.postponed < 4 then putDBank d key { b with postponed := b.postponed + 1 } else refreshBank key d

/-- RFM to a bank whose activation count has reached the stack's threshold (R378). -/
def rfm (rank p bank : Nat) (d0 : Dev) : Dev :=
  let key := bankKey rank p bank
  let t := spGet (fun _ => 0) d0.deep.rfm (rank / 128)
  if t = 0 ∨ (getDBank d0 key).raa < t then d0
  else
    let (cm, d) := bankCommand d0 key
    if cm = 2 then d else bump (putDBank d key { getDBank d key with raa := (getDBank d key).raa - t }) (Reg.DEEP_CNT 5)

/-- A bank with its activate-count table cleared, neighbour refreshes already due standing; none when nothing of it differs from its state at reset. -/
def clearActs (x : Nat × DeepBank) : Option (Nat × DeepBank) :=
  let y : DeepBank := { x.2 with acts := [] }
  if y == bankDef x.1 then none else some (x.1, y)

/-- Every activate-count table is cleared (R378). -/
def actTableClear (d : Dev) : Dev := { d with deep := { d.deep with banks := d.deep.banks.filterMap clearActs } }

/-- A row kept open by prediction closes after PAGE_IDLE_NS without an access, unless a waiting request addresses it (R375). -/
def rowIdleClose (rank p bank : Nat) (d : Dev) : Dev :=
  let key := bankKey rank p bank
  let b := getDBank d key
  if b.openRow.isSome ∧ (bankWanted d key b.openRow = false) then putDBank d key { b with openRow := none, closedRow := none } else d

/-- The deep-store address that a rank serves at a burst: none of its own for a SPARE, its partner's for a rank of a spare layer that
serves another. -/
def servedAddr (d : Dev) (k c s unit i : Nat) : Nat :=
  if hasSpare d k ∧ s = 3 then
    (if rankState d k c s = 1 then 0 else deepAddr d k c (rdF d (Reg.RANK_STATE k c s) Reg.RANK_STATE_PARTNER) unit i)
  else deepAddr d k c s unit i

/-- The bank and the row of a copy unit of a rank. -/
def unitBank (rank unit : Nat) : Nat := bankKey rank (unit % 2) (unit / 2 % 16)
def unitRow (unit : Nat) : Nat := unit / 32

/-- A command of background work to a burst of a rank, with its access to the row. -/
def backgroundAccess (d0 : Dev) (k c s unit addr access : Nat) (more : Bool) : Nat × Dev :=
  let r := rankNo k c s
  let (cm, d) := deepCommand d0 k c s addr 0 access
  if cm = 2 then (cm, d)
  else (cm, bankAccess d (unitBank r unit) (unitRow unit) (more || bankWanted d (unitBank r unit) (some (unitRow unit))))

/-- The write-back of a corrected burst (R370). -/
def ceWriteback (key : Nat) (d0 : Dev) : Dev :=
  if spGet (fun _ => 0) d0.deep.writeBack key = 1 then
    let d := { d0 with deep := { d0.deep with writeBack := spPut (fun _ => 0) d0.deep.writeBack key 0 } }
    if ecc d .deep key = 1 then
      let r := key / 2 ^ 24
      let unit := key % 2 ^ 24 / 32
      let a := servedAddr d (r / 128) (r % 128 / 4) (r % 4) unit (key % 32)
      let (cm, d) := backgroundAccess d (r / 128) (r % 128 / 4) (r % 4) unit a 2 false
      setEcc d .deep key (if cm = 2 then 3 else 0)
    else d
  else d0

/-- More than CE_LIMIT correctable errors of a rank in one second (R384): an ACTIVE rank enters failure handling, and every other keeps its
state (R365). -/
def ceLimitFail (k c s : Nat) (d : Dev) : Dev :=
  let lim := rdF d Reg.DEEP_CFG Reg.DEEP_CFG_CE_LIMIT
  let r := rankNo k c s
  let w := spGet (fun _ => (0, 0)) d.deep.ceWindow r
  if lim ≠ 0 ∧ lim < w.2 then
    let d := deepFault { d with deep := { d.deep with ceWindow := spPut (fun _ => (0, 0)) d.deep.ceWindow r (0, 0) } } Fk.ceLimit r 0 0 0
    if rankState d k c s = 0 then rankFail d k c s 0 else d
  else d

/-- Passes of the patrol over a pseudo-channel. -/
def passesOf (d : Dev) (q : Nat) : Nat := spGet (fun _ => 0) d.deep.passes q

/-- A pass over a pseudo-channel ends; a pass over all ranks is complete with that of the last one. -/
def patrolPass (d : Dev) (key : Nat) : Dev :=
  let n := passesOf d key + 1
  let d := { d with deep := { d.deep with passes := spPut (fun _ => 0) d.deep.passes key n } }
  if (List.range (64 * stackCount d)).any fun q => decide (passesOf d q < n) then d else bump d (Reg.DEEP_CNT 11)

/-- The patrol reads the next burst of a pseudo-channel and settles it (R379): ranks in ascending SID, then address order. -/
def patrolScrub (k c p : Nat) (d : Dev) : Dev :=
  if ¬ deepReady d ∨ stackCount d ≤ k then d else
  let key := pchKey k c p
  let n := spGet (fun _ => 0) d.deep.patrol key
  let s := n / 6291456
  let unit := 2 * (n % 6291456 / 32) + p
  let last := decide (n = 4 * 6291456 - 1)
  let ph := physBurst (rankNo k c s) unit (n % 32)
  let d := { d with deep := { d.deep with patrol := spPut (fun _ => 0) d.deep.patrol key (if last then 0 else n + 1) } }
  let a := servedAddr d k c s unit (n % 32)
  let (cm, d) := backgroundAccess d k c s unit a 6 false
  let e := ecc d .deep ph
  let d := if cm = 2 then d
    else if e = 1 then burstCe d k c s ph a 0 6
    else if e = 2 then rankFail (burstUe d k c s a 0 6) k c s a
    else d
  if last then patrolPass d key else d

/-- Burst i of the copy unit u is read from the SOURCE, corrected, and written to the TARGET, as poison when it does not read good (R385,
R386). -/
def copyBurst (k c s u : Nat) (d0 : Dev) (i : Nat) : Dev :=
  let o := Reg.DEEP_MIG_STATUS k
  if ¬ flagF d0 o Reg.DEEP_MIG_STATUS_ACTIVE then d0 else
  let src := physBurst (rankNo k c s) u i
  let dst := physBurst (rankNo k c 3) u i
  let a := deepAddr d0 k c s u i
  let (cm, d) := backgroundAccess d0 k c s u a 12 (i != 31)
  let e := if cm = 2 then 3 else ecc d .deep src
  let d := if e = 1 then burstCe d k c s src a 0 12 else if e = 2 then burstUe d k c s a 0 12 else d
  let (cm, d) := backgroundAccess d k c 3 u a 12 (i != 31)
  if cm = 2 then d
  else if 2 ≤ e then bump (bumpSat (setEcc d .deep dst 3) o Reg.DEEP_MIG_STATUS_POISONED 1) (Reg.DEEP_CNT 12)
  else burstEcc d dst (rankNo k c 3) 0 true

/-- A migration copies its next row unit, and ends at the last one (R385). -/
def migrationCopy (k : Nat) (d : Dev) : Dev :=
  let o := Reg.DEEP_MIG_STATUS k
  if ¬ flagF d o Reg.DEEP_MIG_STATUS_ACTIVE then d else
  let c := rdF d o Reg.DEEP_MIG_STATUS_CHANNEL
  let s := rdF d o Reg.DEEP_MIG_STATUS_SRC_SID
  let u := rdF d o Reg.DEEP_MIG_STATUS_UNITS_DONE
  let d := (List.range 32).foldl (copyBurst k c s u) d
  if ¬ flagF d o Reg.DEEP_MIG_STATUS_ACTIVE then d else
  let d := wrF d o Reg.DEEP_MIG_STATUS_UNITS_DONE (u + 1)
  if u + 1 < 393216 then d
  else
    let d := setStatusBit (wrF d o Reg.DEEP_MIG_STATUS_ACTIVE 0) Reg.DEEP_STATUS_MIGRATING k 0
    let d := bumpSat (setRank (setRank d k c s 4) k c 3 5) Reg.DEEP_STATUS Reg.DEEP_STATUS_RETIRED 1
    deepFault d Fk.migrateDone (rankNo k c s) 0 0 0

/-- A slot of a pseudo-channel takes the first work that R373 finds for it. -/
def slotArbitration (m : Mem) (k c p : Nat) (d : Dev) : Dev :=
  if ¬ deepReady d ∨ stackCount d ≤ k then d else
  let key := pchKey k c p
  let t := spGet (fun _ => 0) d.deep.slots key
  let d := { d with deep := { d.deep with slots := spPut (fun _ => 0) d.deep.slots key (t + 1) } }
  let banks := pchBanks k c p
  match banks.find? fun b => decide (4 ≤ (getDBank d b).postponed) with
  | some b => refreshPostponed b d
  | none => match banks.find? fun b => !(getDBank d b).due.isEmpty with
    | some b => neighbourRefresh b d
    | none =>
      let mig : Bool := flagF d (Reg.DEEP_MIG_STATUS k) Reg.DEEP_MIG_STATUS_ACTIVE && rdF d (Reg.DEEP_MIG_STATUS k) Reg.DEEP_MIG_STATUS_CHANNEL == c
      if t % 4096 = 4094 then patrolScrub k c p d
      else if t % 4096 = 4095 ∧ (mig = true) then migrationCopy k d
      else match pickReq d k c p with
        | some (i, b) => serveReq m (fun a => a == b) i d
        | none => match banks.find? fun b => decide (1 ≤ (getDBank d b).postponed) with
          | some b => refreshPostponed b d
          | none =>
            match d.deep.writeBack.find? fun e => e.1 / 2 ^ 24 / 4 == 32 * k + c && e.1 % 2 ^ 24 / 32 % 2 == p with
            | some e => ceWriteback e.1 d
            | none => if mig then migrationCopy k d else patrolScrub k c p d

/-! Temperature (R377). -/

/-- A reading is discarded, and the stack is treated as hot. An absent stack has no sensor (R2). -/
def badTemp (d : Dev) (k : Nat) : Dev :=
  let o := Reg.STACK_TEMP k
  if stackCount d ≤ k then d
  else deepFault (wrF (bumpSat d o Reg.STACK_TEMP_BAD_READINGS 1) o Reg.STACK_TEMP_HOT 1) Fk.tempBad (128 * k) 0 0 0

/-- A reading of a stack's temperature, °C; `hot` when the standard asks for the shorter refresh interval at it. -/
def stackTemp (k : Nat) (t : Int) (hot : Bool) (d0 : Dev) : Dev :=
  let (j, d) := injectAt d0 8 (256 * 10 + 128 * k) 0
  if stackCount d0 ≤ k then d0
  else if j ≠ 0 ∨ t < -40 ∨ 125 < t then badTemp d k
  else wrFs d (Reg.STACK_TEMP k) [(Reg.STACK_TEMP_TEMP_C, ofSigned 8 t), (Reg.STACK_TEMP_HOT, b2n hot)]

/-! Initialisation (R367) and the host's access (R383). -/

/-- DEEP_CTRL.INIT: the power-up starts, once after each cold reset. -/
def deepInit (d : Dev) : Dev :=
  let o := Reg.DEEP_STATUS
  if flagF d o Reg.DEEP_STATUS_READY ∨ flagF d o Reg.DEEP_STATUS_INIT_BUSY ∨ flagF d o Reg.DEEP_STATUS_INIT_FAIL then d
  else wrF d o Reg.DEEP_STATUS_INIT_BUSY 1

/-- Initialisation ends: the stacks on which training failed on a channel, as a mask, and the RFM threshold read from each stack. -/
def deepInitDone (fails t0 t1 : Nat) (d : Dev) : Dev :=
  let o := Reg.DEEP_STATUS
  if ¬ flagF d o Reg.DEEP_STATUS_INIT_BUSY then d
  else if (List.range (stackCount d)).any (bit fails) then
    ((List.range (stackCount d)).filter (bit fails)).foldl (fun d k => deepFault d Fk.initFail (128 * k) 0 0 0)
      (wrFs d o [(Reg.DEEP_STATUS_INIT_BUSY, 0), (Reg.DEEP_STATUS_INIT_FAIL, 1)])
  else
    let n := stackCount d
    let d := memWrite d spClear 0 []
    let d := { d with deep := { d.deep with areas := [], rfm := spPut (fun _ => 0) (spPut (fun _ => 0) d.deep.rfm 0 t0) 1 (if n = 2 then t1 else 0) } }
    let d := (List.range n).foldl (fun d k => (List.range 32).foldl (fun d c => setRank d k c 3 (b2n (hasSpare d k))) d) d
    wrFs d o [(Reg.DEEP_STATUS_INIT_BUSY, 0), (Reg.DEEP_STATUS_READY, 1), (Reg.DEEP_STATUS_USABLE_GIB, deepSize d / 2 ^ 30),
      (Reg.DEEP_STATUS_SPARE_FREE, (List.range n).foldl (fun v k => v + b2n (hasSpare d k) * 2 ^ k) 0)]

/-- DEEP_ACC_CMD READ; `v` is the command. -/
def deepAccRead (v : W64) (m : Mem) (d : Dev) : Dev :=
  let d := wr d Reg.DEEP_ACC_CMD (setF v Reg.DEEP_ACC_CMD_OP 1)
  let (bs, r, d) := deepFetch m d 5 (64 * getF v Reg.DEEP_ACC_CMD_ADDR) 64 (starterOf d 7) 1
  let d := (List.range 8).foldl (fun d i =>
    wr d (Reg.DEEP_ACC_DATA i) (if r = 0 then BitVec.ofNat 64 (leNat ((bs.drop (8 * i)).take 8)) else 0)) d
  wrFs d Reg.DEEP_ACC_STATUS [(Reg.DEEP_ACC_STATUS_BUSY, 1), (Reg.DEEP_ACC_STATUS_RESULT, r)]

/-- The 64 B that DEEP_ACC_DATA holds. -/
def accData (d : Dev) : List Byte := (List.range 8).flatMap fun i => leBytes 8 (rd d (Reg.DEEP_ACC_DATA i)).toNat

/-- DEEP_ACC_CMD WRITE; `v` is the command. What it replaces is kept until it completes. -/
def deepAccWrite (v : W64) (m : Mem) (d : Dev) : Dev :=
  let d := wr d Reg.DEEP_ACC_CMD (setF v Reg.DEEP_ACC_CMD_OP 2)
  let a := 64 * getF v Reg.DEEP_ACC_CMD_ADDR
  let d := portOrder m 5 a 64 d
  let keys := [burstKey d a, burstKey d (a + 32)]
  let d := { d with deep := { d.deep with accOld := deepBytes (memNow m d) d a 64, accEcc := keys.map fun x => (x, ecc d .deep x) } }
  let (r, d) := deepPost m d 5 a (accData d) (starterOf d 7) 2
  wrFs d Reg.DEEP_ACC_STATUS [(Reg.DEEP_ACC_STATUS_BUSY, 1), (Reg.DEEP_ACC_STATUS_RESULT, r)]

/-- The access that DEEP_ACC_STATUS reports completes: one that was served counts as a complete request (R390). -/
def accComplete (d : Dev) : Dev :=
  deepCounted d (rdF d Reg.DEEP_ACC_CMD Reg.DEEP_ACC_CMD_OP == 2) (rdF d Reg.DEEP_ACC_STATUS Reg.DEEP_ACC_STATUS_RESULT)

end Sys2Proof.Machine
end

