-- ==== Sys2Proof/Machine/Flags.lean ====
section
/-!
DEFINITION. The ALU (R89): each operation's result with its carry and overflow, the flags it stores, and CRC-32C (R19).
-/
namespace Sys2Proof.Machine

/-- One bit-step of CRC-32C (R19). -/
def crcBit (c : Nat) : Nat := if c % 2 = 1 then (c / 2) ^^^ 0x82F63B78 else c / 2

/-- One byte of CRC-32C (R19). -/
def crcByte (c : Nat) (b : Byte) : Nat :=
  crcBit (crcBit (crcBit (crcBit (crcBit (crcBit (crcBit (crcBit (c ^^^ b.toNat))))))))

/-- The register of CRC-32C after a byte list, before the final XOR (R19). -/
def crcRun (init : Nat) (bs : List Byte) : Nat := bs.foldl crcByte init

/-- CRC-32C with its final XOR; the flow hash over a key, with FLOW_HASH_SEED as the initial value (R19). -/
def crc32c (init : Nat) (bs : List Byte) : Nat := crcRun init bs ^^^ 0xFFFFFFFF

/-- An ALU result: Y, C and V (R89). -/
structure AluOut where
  y : W64
  c : Bool
  v : Bool
  deriving DecidableEq, Repr

/-- The signed value of a word. -/
def sval (a : W64) : Int := toSigned 64 a.toNat

/-- Whether an exact signed result leaves the 64-bit range. -/
def signedOverflow (x : Int) : Bool := decide (x < -(2 ^ 63) ∨ 2 ^ 63 ≤ x)

/-- Add the bits above bit 15 back into bits [15:0], n times (end-around carry). -/
def foldCarry : Nat → Nat → Nat
  | 0, x => x
  | n + 1, x => foldCarry n (x % 2 ^ 16 + x / 2 ^ 16)

/-- The integer sum of the four 16-bit words of a number. -/
def sum16 (x : Nat) : Nat := bits x 0 16 + bits x 16 16 + bits x 32 16 + bits x 48 16

/-- The number of leading zero bits among the lowest n bits. -/
def clz : Nat → Nat → Nat
  | 0, _ => 0
  | n + 1, x => if bit x n then 0 else 1 + clz n x

/-- A logical result, with C and V clear. -/
def plain (y : Nat) : AluOut := ⟨BitVec.ofNat 64 y, false, false⟩

def aluMov (a _b : W64) : AluOut := ⟨a, false, false⟩
def aluAdd (a b : W64) : AluOut := ⟨a + b, decide (2 ^ 64 ≤ a.toNat + b.toNat), signedOverflow (sval a + sval b)⟩
def aluSub (a b : W64) : AluOut := ⟨a - b, decide (a.toNat < b.toNat), signedOverflow (sval a - sval b)⟩
def aluAnd (a b : W64) : AluOut := ⟨a &&& b, false, false⟩
def aluOr (a b : W64) : AluOut := ⟨a ||| b, false, false⟩
def aluXor (a b : W64) : AluOut := ⟨a ^^^ b, false, false⟩
def aluAndn (a b : W64) : AluOut := ⟨a &&& ~~~b, false, false⟩
def aluNot (a _b : W64) : AluOut := ⟨~~~a, false, false⟩

/-- The shift amount B[5:0]. -/
def shAmt (b : W64) : Nat := b.toNat % 64

def aluShl (a b : W64) : AluOut :=
  let n := shAmt b
  ⟨a <<< n, decide (n ≠ 0) && bit a.toNat (64 - n), false⟩
def aluShr (a b : W64) : AluOut :=
  let n := shAmt b
  ⟨a >>> n, decide (n ≠ 0) && bit a.toNat (n - 1), false⟩
def aluSar (a b : W64) : AluOut :=
  let n := shAmt b
  ⟨BitVec.sshiftRight a n, decide (n ≠ 0) && bit a.toNat (n - 1), false⟩
def aluRol (a b : W64) : AluOut := ⟨BitVec.rotateLeft a (shAmt b), false, false⟩
def aluMin (a b : W64) : AluOut := if b.toNat < a.toNat then ⟨b, true, false⟩ else ⟨a, false, false⟩
def aluMax (a b : W64) : AluOut := if a.toNat < b.toNat then ⟨b, true, false⟩ else ⟨a, false, false⟩
def aluCsum (a b : W64) : AluOut :=
  let t := sum16 a.toNat + sum16 b.toNat
  ⟨BitVec.ofNat 64 (foldCarry 2 t), decide (0xFFFF < t), false⟩
def aluCrc (a b : W64) : AluOut := plain (crcRun (b.toNat % 2 ^ 32) (beBytes 8 a.toNat))
def aluPopc (a _b : W64) : AluOut := plain (popCount 64 a.toNat)
def aluClz (a _b : W64) : AluOut := plain (clz 64 a.toNat)
def aluScale (a b : W64) : AluOut := plain ((a.toNat % 2 ^ 32) * (b.toNat % 2 ^ 32) / 2 ^ 32)
def aluAddsat (a b : W64) : AluOut :=
  if 2 ^ 64 ≤ a.toNat + b.toNat then ⟨BitVec.ofNat 64 (2 ^ 64 - 1), true, false⟩ else ⟨a + b, false, false⟩
def aluSubsat (a b : W64) : AluOut := if a.toNat < b.toNat then ⟨0, true, false⟩ else ⟨a - b, false, false⟩

/-- The operation that OP names; none for the reserved codes 0x15 to 0x1F (R89). -/
def aluOp (op : Nat) : Option (W64 → W64 → AluOut) :=
  [aluMov, aluAdd, aluSub, aluAnd, aluOr, aluXor, aluAndn, aluNot, aluShl, aluShr, aluSar, aluRol, aluMin, aluMax, aluCsum,
   aluCrc, aluPopc, aluClz, aluScale, aluAddsat, aluSubsat][op]?

/-- The flags an operation stores when FW = 1: bit 0 Z, 1 N, 2 C, 3 V (R89, R90). -/
def aluFlags (o : AluOut) : Nat :=
  b2n (o.y == 0) + 2 * b2n (bit o.y.toNat 63) + 4 * b2n o.c + 8 * b2n o.v

/-- The packet after an ALU operation: the result in the row-step's latch, the flags written when FW = 1. -/
def aluStep (p : Pkt) (alu : Nat) (g : AluGroup) (imm : Nat) (f : W64 → W64 → AluOut) : Pkt :=
  let o := f (aluOperand p alu g.sa g.cwa g.k imm) (aluOperand p alu g.sb g.cwb g.k imm)
  let p := if alu = 1 then { p with y1 := o.y } else { p with y0 := o.y }
  if g.fw then (if alu = 1 then { p with flags1 := aluFlags o } else { p with flags0 := aluFlags o }) else p

end Sys2Proof.Machine
end

