-- ==== Sys2Proof/Machine/SubQ.lean ====
section
/-!
DEFINITION. The scheduling nodes as the queues use them (R270, R279), and the queues: sub-queues and depth, admission and marking
(R241 to R248), spill, pages and refill (R250 to R261), and the QUEUE_CMD operations (R269).
-/
namespace Sys2Proof.Machine

/-! Nodes. -/

def nodeDef (_ : Nat) : Node := ⟨0, 0, 0, true, [0, 0, 0, 0], 0, 0, 0⟩
def nodeKey (level i : Nat) : Nat := level * 65536 + i
def getNode (d : Dev) (k : Nat) : Node := spGet nodeDef d.drl.nodes k
def putNode (d : Dev) (k : Nat) (n : Node) : Dev := { d with drl := { d.drl with nodes := spPut nodeDef d.drl.nodes k n } }

def Node.parent (n : Node) : Nat := bits n.w0.toNat 0 12
def Node.port (n : Node) : Nat := bits n.w0.toNat 0 9
def Node.band (n : Node) : Nat := bits n.w0.toNat 18 2
def Node.weight (n : Node) : Nat := bits n.w0.toNat 20 16
def Node.tc (n : Node) : Nat := bits n.w0.toNat 38 3
def Node.pfcPri (n : Node) : Nat := bits n.w0.toNat 41 3
def Node.shapeEn (n : Node) : Bool := bit n.w0.toNat 44
def Node.exempt (n : Node) : Bool := bit n.w0.toNat 45
def Node.ifg (n : Node) : Bool := bit n.w0.toNat 46
def Node.lenAdj (n : Node) : Int := toSigned 9 (bits n.w0.toNat 47 9)
def Node.valid (n : Node) : Bool := bit n.w0.toNat 63
def Node.burst (n : Node) : Nat := bits n.w1.toNat 32 24
def Node.rateKbps (n : Node) : Nat := bits n.w1.toNat 0 32

/-- The keys of the level-1 node and the port node above queue q, and its port (R270). -/
def nodeOfQueue (d : Dev) (q : Nat) : Nat := nodeKey 1 (getNode d (nodeKey 2 q)).parent
def queuePort (d : Dev) (q : Nat) : Nat := (getNode d (nodeOfQueue d q)).port

/-- The signed difference of two virtual times (R278). -/
def vDiff (a b : Nat) : Int := toSigned 56 ((a + 2 ^ 56 - b % 2 ^ 56) % 2 ^ 56)

/-- A node that becomes active takes its start tag from its parent's virtual time (R279). -/
def nodeActivate (d : Dev) (k parent : Nat) : Dev :=
  let n := getNode d k
  if n.count ≠ 0 then putNode d k { n with count := n.count + 1 }
  else
    let v := (getNode d parent).v.getD n.band 0
    let s := if n.fresh ∨ vDiff n.s v ≤ 0 then v else n.s
    putNode d k { n with count := 1, s := s, fresh := false }

def nodeRelease (d : Dev) (k : Nat) : Dev :=
  let n := getNode d k
  putNode d k { n with count := n.count - 1 }

/-- A packet is queued beneath the nodes of queue q, or has gone. -/
def nodesEnter (d : Dev) (q : Nat) : Dev :=
  let n1 := nodeOfQueue d q
  nodeActivate (nodeActivate d (nodeKey 2 q) n1) n1 (nodeKey 0 (queuePort d q))

def nodesLeave (d : Dev) (q : Nat) : Dev := nodeRelease (nodeRelease d (nodeKey 2 q)) (nodeOfQueue d q)

/-! Sub-queues. -/

def subDef (_ : Nat) : SubQ :=
  { spilled := false, head := [], tail := [], pages := [], openPage := none, openBuf := [], openFirst := 0xFFFF, seq := 0,
    recs := [], fill := 0, inBuf := [], inBase := 0, reading := [], blocked := false }

def getSub (d : Dev) (q m : Nat) : SubQ := spGet subDef d.que.subs (4 * q + m)
def putSub (d : Dev) (q m : Nat) (x : SubQ) : Dev := { d with que := { d.que with subs := spPut subDef d.que.subs (4 * q + m) x } }

def cellsIn (l : List Pkt) : Nat := l.foldl (fun n p => n + p.cells.length) 0

/-- Pages that a sub-queue holds. -/
def SubQ.held (x : SubQ) : Nat := x.pages.length + x.reading.length + b2n x.openPage.isSome

def queueCfg (d : Dev) (q : Nat) : W64 := spGet (fun _ => 0) d.que.cfg q
def queueEnable (d : Dev) (q : Nat) : Bool := bit (queueCfg d q).toNat 63
def queueProfile (d : Dev) (q : Nat) : Nat := bits (queueCfg d q).toNat 56 4
def queueHolding (d : Dev) (q : Nat) : Nat := bits (queueCfg d q).toNat 48 8
def profF (d : Dev) (q w : Nat) (f : Fld) : Nat := rdF d (Reg.QPROF (queueProfile d q) w) f

/-- DEPTH of a queue (R244). -/
def depthOf (d : Dev) (q : Nat) : Nat := spGet (fun _ => 0) d.que.depth q
def setDepth (d : Dev) (q n : Nat) : Dev := { d with que := { d.que with depth := spPut (fun _ => 0) d.que.depth q n } }

/-- DEPTH has 32 bits: a LEN is added or subtracted modulo 2^32. -/
def depthAdd (d : Dev) (q n : Nat) : Dev := setDepth d q ((depthOf d q + n) % 2 ^ 32)
def depthSub (d : Dev) (q n : Nat) : Dev := setDepth d q ((depthOf d q + 2 ^ 32 - n) % 2 ^ 32)

/-- Copies of an ACRE_MAP entry in an intermediate acre (R220). -/
def inflightOf (d : Dev) (ref m : Nat) : Nat := spGet (fun _ => 0) d.fab.inFlight (4 * ref + m)
def setInflight (d : Dev) (ref m n : Nat) : Dev :=
  { d with fab := { d.fab with inFlight := spPut (fun _ => 0) d.fab.inFlight (4 * ref + m) n } }

/-- A packet is no longer queued: DEPTH, INFLIGHT and the nodes follow. -/
def unqueue (d : Dev) (q m : Nat) (p : Pkt) : Dev :=
  let d := depthSub d q p.rxLen
  nodesLeave (setInflight d p.mapRef m (inflightOf d p.mapRef m - 1)) q

/-- A queued packet is dropped under code k of R268; `cells` when it still holds cells. -/
def queueDrop (d : Dev) (q m : Nat) (p : Pkt) (k : Nat) (cells : Bool) : Dev :=
  let d := unqueue (dropCpl (bump d (Reg.QUEUE_DROP k)) p (0xA0 + k)) q m p
  if cells then releaseCopy d p else releaseShare d p

/-! Admission and marking (R245 to R248). -/

def hdrKind (p : Pkt) (k : Nat) : Nat := bits (pcGet p (Pc.hdr k)) 9 6

/-- The ECN_TARGET entry that names a kind. -/
def ecnTarget (d : Dev) (kind : Nat) : Option Nat :=
  firstIdx 4 fun i => flagF d (Reg.ECN_TARGET i) Reg.ECN_TARGET_VALID && rdF d (Reg.ECN_TARGET i) Reg.ECN_TARGET_KIND == kind

/-- The two ECN bits of a target. -/
def ecnBits (p : Pkt) (off fam : Nat) : Nat :=
  let b := byteAt p.frame (off + 1)
  if fam = 0 then b % 4 else bits b 4 2

/-- The packet with its ECN target found as stage 1 copies it (R247). -/
def ecnFind (d : Dev) (p : Pkt) : Pkt :=
  if p.asRx then { p with ect := false }
  else match firstIdx 32 fun k => hdrPresent p k && (ecnTarget d (hdrKind p k)).isSome with
    | none => { p with ect := false }
    | some k =>
      let fam := rdF d (Reg.ECN_TARGET ((ecnTarget d (hdrKind p k)).getD 0)) Reg.ECN_TARGET_FAMILY
      { p with ecnOff := hdrOffset p k, ecnFam := fam, ect := ecnBits p (hdrOffset p k) fam != 0 }

def sliceLfsr (d : Dev) (m : Nat) : Nat := spGet (fun m => 0x4E5A1001 + m) d.fab.lfsr m

/-- The mark decision of step 4 (R248). -/
def ecnMark (d : Dev) (q m : Nat) (p : Pkt) : Bool × Dev :=
  let thr := profF d q 2 Reg.QPROF_ECN_THRESHOLD
  let depth := depthOf d q / 256
  if ¬ p.ect ∨ profF d q 2 Reg.QPROF_ECN_EN = 0 ∨ p.asRx ∨ depth < thr then (false, d)
  else
    let ramp := profF d q 2 Reg.QPROF_ECN_RAMP
    if ramp = 0 then (true, d)
    else
      let s := (fun (x : Nat) => if x % 2 = 1 then (x / 2) ^^^ 0xE0000200 else x / 2) (sliceLfsr d m)
      let d := { d with fab := { d.fab with lfsr := spPut (fun m => 0x4E5A1001 + m) d.fab.lfsr m s } }
      (decide (s % 65536 * ramp < (depth - thr) * 65536), d)

/-- The admission of a packet or copy to queue q (R245): a drop code of R268, or the packet as it is enqueued. -/
def queueAdmit (d : Dev) (q m : Nat) (p : Pkt) : Option Nat × Pkt × Dev :=
  let ll := lossless d p
  let p := { p with queue := q, lossless := ll }
  let depth := depthOf d q / 256
  if ¬ queueEnable d q then (some 0, p, d)
  else if ¬ ll ∧ profF d q 3 Reg.QPROF_MAX_DEPTH ≤ depth then (some 1, p, d)
  else if ¬ ll ∧ ¬ p.ect ∧ profF d q 3 Reg.QPROF_DROP_THRESHOLD ≤ depth then (some 2, p, d)
  else
    let (mark, d) := ecnMark d q m p
    let d := if mark then bump d (Reg.QUEUE_CNT (if ecnBits p p.ecnOff p.ecnFam = 3 then 2 else 1)) else d
    (none, { p with ce := mark }, depthAdd d q p.rxLen)

/-! The page store (R260). -/

/-- Pages of the region that hold the ring. -/
def ringPages (d : Dev) : Nat := ceilDiv (spillPages d) 1024
def ringLen (d : Dev) : Nat := (ringNow d).len

def pageFreeAdd (d : Dev) (f : Fld) (up : Bool) (n : Nat) : Dev :=
  wrF d Reg.SPILL_STATUS f (if up then rdF d Reg.SPILL_STATUS f + n else rdF d Reg.SPILL_STATUS f - n)

def pageCache (d : Dev) (m : Nat) : List Nat := spGet (fun _ => []) d.que.cache m
def setPageCache (d : Dev) (m : Nat) (l : List Nat) : Dev := { d with que := { d.que with cache := spPut (fun _ => []) d.que.cache m l } }

def pageAllocated (d : Dev) (p : Nat) : Bool := spGet (fun _ => 0) d.que.alloc p == 1
def setPageAlloc (d : Dev) (p v : Nat) : Dev := { d with que := { d.que with alloc := spPut (fun _ => 0) d.que.alloc p v } }

/-- Whether a page has a unit in a RETIRED rank (R387). -/
def pageRetired (d : Dev) (p : Nat) : Bool :=
  (List.range 16).any fun i =>
    let l := deepLoc d (4096 * p + 256 * i)
    rankState d l.k l.c (servingSid d l) == 6

/-- Whether a pointer is outside the spill pages. -/
def pageOutside (d : Dev) (p : Nat) : Bool :=
  decide (2 ^ 25 ≤ p ∨ p < spillBase d + ringPages d ∨ spillBase d + spillPages d ≤ p) || pageRetired d p

/-- A fault of the page store (R260). -/
def pageFault (d : Dev) (m kind page q : Nat) : Dev :=
  let k := if kind = 0 then Fk.pageEcc else if kind = 1 then Fk.pageUncorrectable else if kind = 2 then Fk.pageRange
    else if kind = 3 then Fk.pageDouble else Fk.pageCheck
  let o := Reg.PAGE_ERR_LAST
  let d := wrFs d o [(Reg.PAGE_ERR_LAST_VALID, 1), (Reg.PAGE_ERR_LAST_KIND, kind), (Reg.PAGE_ERR_LAST_PAGE, page),
    (Reg.PAGE_ERR_LAST_QUEUE, q), (Reg.PAGE_ERR_LAST_COUNT, satAdd 16 (rdF d o Reg.PAGE_ERR_LAST_COUNT) 1)]
  let d := if kind = 4 then d else bump d (Reg.QUEUE_CNT 13)
  let d := if kind = 1 ∨ kind = 2 then pageFreeAdd d Reg.SPILL_STATUS_PAGES_LEAKED true 1 else d
  raise d k m 0 11 (if kind = 4 then 11 else if kind = 3 then 9 else 10)

/-- The deep-store address of a position of the free-page ring. -/
def ringAddr (d : Dev) (pos : Nat) : Nat := 4096 * spillBase d + 4 * pos

/-- Take the pointer at the head of the free-page ring, checked. -/
def pagePop (d : Dev) (m : Nat) : Option Nat × Dev :=
  if d.que.ringCount = 0 then (none, d) else
  let pos := d.que.ringHead
  let ptr := (ringNow d).word pos
  let (r, d) := deepCheck d (ringAddr d pos) 4 11 10
  let (good, d) := if r = 0 then burstRead (bump d (Reg.DEEP_CNT 0)) (ringAddr d pos / 32 * 32) 11 10 else (false, d)
  let e := ecc d .pageRing pos
  let d := { d with que := { d.que with ringHead := (pos + 1) % ringLen d, ringCount := d.que.ringCount - 1 } }
  let gone := fun (d : Dev) => pageFreeAdd d Reg.SPILL_STATUS_FREE false 1
  if ¬ good ∨ e = 2 then (none, gone (pageFault d m 1 ptr 0))
  else
    let d := if e = 1 then pageFault (setEcc d .pageRing pos 0) m 0 ptr 0 else d
    if pageOutside d ptr then (none, gone (pageFault d m 2 ptr 0)) else (some ptr, d)

/-- Put a pointer at the tail of the free-page ring; a write that fails leaves the word as it was. -/
def pagePush (d : Dev) (m ptr : Nat) : Dev :=
  let pos := (d.que.ringHead + d.que.ringCount) % ringLen d
  let d := { d with que := { d.que with ringCount := d.que.ringCount + 1 } }
  let (r, d) := deepCheck d (ringAddr d pos) 4 11 9
  let (good, d) := if r = 0 then burstWrite (bump d (Reg.DEEP_CNT 1)) (ringAddr d pos / 32 * 32) false 11 9 else (false, d)
  if good then
    eccWrite { d with que := { d.que with ring := spPut (ringNow d).init d.que.ring pos ptr } } .pageRing pos (256 * 7 + m) 0
  else d

/-- Take a page in slice m: from its cache, else from the ring; `n` bounds the pointers that are discarded on the way. -/
def pageTake (d : Dev) (m : Nat) : Nat → Option Nat × Dev
  | 0 => (none, d)
  | n + 1 =>
    match pageCache d m with
    | p :: t =>
      let d := pageFreeAdd (setPageCache d m t) Reg.SPILL_STATUS_FREE false 1
      if pageRetired d p then pageTake (pageFault d m 2 p 0) m n else (some p, setPageAlloc d p 1)
    | [] =>
      if d.que.ringCount = 0 then (none, d)
      else match pagePop d m with
        | (some p, d) => (some p, pageFreeAdd (setPageAlloc d p 1) Reg.SPILL_STATUS_FREE false 1)
        | (none, d) => pageTake d m n

def pageGet (d : Dev) (m : Nat) : Option Nat × Dev := pageTake d m (d.que.ringCount + (pageCache d m).length + 1)

/-- A slice's cache above 96 writes a batch of 32 back to the ring. -/
def pageCacheWriteback (m : Nat) (d : Dev) : Dev :=
  if (pageCache d m).length ≤ 96 then d
  else ((pageCache d m).drop ((pageCache d m).length - 32)).foldl (fun d p => pagePush d m p)
    (setPageCache d m ((pageCache d m).take ((pageCache d m).length - 32)))

/-- A page returns to the free store of slice m, checked against the bitmap; a page in a RETIRED rank is discarded (R387). The cache
holds 128 pointers and writes a batch back first when it is full. -/
def pageFree (m : Nat) (d : Dev) (ptr0 : Nat) : Dev :=
  let (j, d) := injectAt d 9 (256 * 7 + m) 0
  let ptr := if j = 0 then ptr0 else ptr0 + 2 ^ 25
  if pageOutside d ptr then pageFault d m 2 ptr 0
  else if ¬ pageAllocated d ptr then pageFault d m 3 ptr 0
  else
    let d := if 128 ≤ (pageCache d m).length then pageCacheWriteback m d else d
    pageFreeAdd (setPageCache (setPageAlloc d ptr 0) m (pageCache d m ++ [ptr])) Reg.SPILL_STATUS_FREE true 1

/-- Pages free to slice m. -/
def pagesFree (d : Dev) (m : Nat) : Nat := (pageCache d m).length + d.que.ringCount

/-- A slice's cache below 32 takes a batch of 32 from the ring. -/
def pageCacheRefill (m : Nat) (d : Dev) : Dev :=
  if 32 ≤ (pageCache d m).length then d
  else (List.range 32).foldl (fun d _ => match pagePop d m with
    | (some p, d) => setPageCache d m (pageCache d m ++ [p])
    | (none, d) => d) d

/-- Whether an entry of `Dev.upset` marks a burst of the free-page ring or a word of it. -/
def upsetInRing (d : Dev) (key : Nat) : Bool :=
  let x := key % 2 ^ 48
  let r := x / 2 ^ 24
  key / 2 ^ 48 == ramNo .pageRing || (key / 2 ^ 48 == ramNo .deep
    && (ringNow d).has (servedAddr d (r / 128) (r % 128 / 4) (r % 4) (x % 2 ^ 24 / 32) (x % 32)))

/-- A rebuilt ring is written with good check bits. -/
def ringGood (d : Dev) : Dev := { d with upset := d.upset.filter fun e => !upsetInRing d e.1 }

/-- A write of SPILL_REGION: rejected (none), or the ring and the bitmap are rebuilt. -/
def spillRegionWrite (d : Dev) (v : W64) : Option Dev :=
  let n := getF v Reg.SPILL_REGION_PAGES
  if (d.que.subs.any fun e => e.2.spilled) ∨ 8388608 < n ∨ deepSize d < 4096 * (getF v Reg.SPILL_REGION_BASE + n) then none
  else
    let d := wr (ringRetire d) Reg.SPILL_REGION (mkWord [(Reg.SPILL_REGION_PAGES, n), (Reg.SPILL_REGION_BASE, getF v Reg.SPILL_REGION_BASE)])
    let d := { d with que := { d.que with ring := [], ringHead := 0, ringCount := ringLen d, cache := [], alloc := [] } }
    some (wrFs (ringGood d) Reg.SPILL_STATUS [(Reg.SPILL_STATUS_FREE, ringLen d), (Reg.SPILL_STATUS_PAGES_LEAKED, 0)])

/-- An entry of the association store (R311); a deep-store key that nothing has written is generated (R333): the number of its free value
stands in word 0. -/
def rindDef (base k : Nat) : Nat :=
  if k / 2 ^ 17 = 3 ∧ k % 2 ^ 17 < 256 then 2 ^ (64 * 12 + 63) + 2 ^ (64 * 12 + 55) + (base + k % 2 ^ 17) else 0

def rindEnt (d : Dev) (kind i : Nat) : Nat := spGet (rindDef d.rind.keyBase) d.rind.ents (kind * 2 ^ 17 + i)

/-- The key of an entry. -/
def saKey (kind i : Nat) : Nat := kind * 2 ^ 17 + i

/-! Entries (R310, R311): word w of an entry at bits [64 w + 63 : 64 w]. -/

def entF (e w lo n : Nat) : Nat := bits e (64 * w + lo) n
def entSet (e w lo n v : Nat) : Nat := setBits e (64 * w + lo) n v

def putEnt (d : Dev) (kind i e : Nat) : Dev :=
  { d with rind := { d.rind with ents := spPut (rindDef d.rind.keyBase) d.rind.ents (saKey kind i) e } }

/-- An entry with its key overwritten and VALID clear (R316). -/
def entKill (e : Nat) : Nat := entSet (setBits e 0 512 0) 12 63 1 0

/-- An entry read by an access of R419: one wrong bit is corrected; an uncorrectable entry of a keyed kind becomes invalid (R310,
R317). -/
def entLoadBy (master access : Nat) (d : Dev) (kind i : Nat) : Nat × Bool × Dev :=
  let k := saKey kind i
  let e := rindEnt d kind i
  let c := ecc d .rindEntry k
  if c = 0 then (e, false, d)
  else if c = 1 then (e, false, raise (setEcc d .rindEntry k 0) Fk.entryCe 14 0 master access)
  else
    let d := raise d Fk.entryUe 14 0 master access
    if kind ≤ 3 then
      let e := entSet (entKill e) 12 55 1 0
      (e, true, setEcc (putEnt d kind i e) .rindEntry k 0)
    else (e, true, d)

/-- An entry as an engine reads it. -/
def entLoad (d : Dev) (kind i : Nat) : Nat × Bool × Dev := entLoadBy 0 0 d kind i

/-- The queue manager reads a queue's deep-store key (R255, R310): the device after the check of the stored entry. -/
def keyLoad (d : Dev) (q : Nat) : Dev := (entLoadBy 11 1 d 3 (queueHolding d q)).2.2

/-! Spill (R250 to R254). -/

/-- Pages of a queue over its sub-queues. -/
def queuePages (d : Dev) (q : Nat) : Nat := (List.range 4).foldl (fun n m => n + (getSub d q m).held) 0

/-- The oldest packets whose cells total at most n, and at least one packet (R251). -/
def splitHead (n : Nat) : List Pkt → Nat → List Pkt × List Pkt
  | [], _ => ([], [])
  | p :: t, used =>
    if used = 0 ∨ used + p.cells.length ≤ n then
      let r := splitHead n t (used + p.cells.length)
      (p :: r.1, r.2)
    else ([], p :: t)

def spillingIn (d : Dev) (m : Nat) : Nat := (d.que.subs.filter fun e => e.1 % 4 == m && e.2.spilled).length

/-- The parts of a sub-queue after the split of R251, or as they are when it is SPILLED. -/
def spillParts (d : Dev) (q : Nat) (x : SubQ) : List Pkt × List Pkt :=
  if x.spilled then (x.head, x.tail) else splitHead (profF d q 0 Reg.QPROF_HEAD_CELLS) x.head 0

/-- Whether a sub-queue is to start a spill (R250), or to move a tail packet (R252). -/
def spillWants (d : Dev) (q : Nat) (x : SubQ) : Bool :=
  if x.spilled then decide (profF d q 0 Reg.QPROF_TAIL_CELLS < cellsIn x.tail)
  else profF d q 0 Reg.QPROF_SPILL_EN == 1 && decide (profF d q 0 Reg.QPROF_SPILL_ON_CELLS < cellsIn x.head)

/-- Whether a spill, or the start of one, is blocked (R252), also while the queue's key is not valid (R333). -/
def spillBlocked (d : Dev) (q m : Nat) : Bool :=
  let x := getSub d q m
  ((spillParts d q x).2.head?.any fun p => p.pool == 63) || decide (profF d q 1 Reg.QPROF_MAX_PAGES ≤ queuePages d q)
    || pagesFree d m == 0 || (!x.spilled && decide (256 ≤ spillingIn d m)) || !bit (rindEnt d 3 (queueHolding d q)) (64 * 12 + 63)

/-- A block that has ended is marked no longer. -/
def blockEnd (d : Dev) (q m : Nat) : Dev :=
  let x := getSub d q m
  if x.blocked && !(spillWants d q x && spillBlocked d q m) then putSub d q m { x with blocked := false } else d

/-- A spill finds itself blocked: each blocking event is counted once. -/
def markBlocked (d : Dev) (q m : Nat) : Dev :=
  let x := getSub d q m
  if x.blocked then d else bump (putSub d q m { x with blocked := true }) (Reg.QUEUE_CNT 7)

/-- The number of SPILLED sub-queues is shown in SPILL_STATUS. -/
def showSpilling (d : Dev) : Dev :=
  wrF d Reg.SPILL_STATUS Reg.SPILL_STATUS_SPILLING (d.que.subs.filter fun e => e.2.spilled).length

/-- A sub-queue over SPILL_ON_CELLS becomes SPILLED, unless the start is blocked. -/
def spillStart (d : Dev) (q m : Nat) : Dev :=
  let d := blockEnd (keyLoad d q) q m
  let x := getSub d q m
  if x.spilled ∨ ¬ spillWants d q x then d
  else if spillBlocked d q m then markBlocked d q m
  else match pageGet d m with
    | (none, d) => markBlocked d q m
    | (some ptr, d) =>
      let (h, t) := spillParts d q x
      showSpilling (putSub d q m { subDef 0 with spilled := true, head := h, tail := t, openPage := some ptr })

/-- The middle is empty: the tail joins the head (R250), and where that exceeds SPILL_ON_CELLS again a new spill starts. -/
def spillJoin (d : Dev) (q m : Nat) : Dev :=
  let x := getSub d q m
  if x.spilled ∧ x.recs = [] ∧ x.pages = [] then
    let d := x.reading.foldl (fun d e => pageFree m d e.1) d
    let d := x.openPage.elim d (pageFree m d)
    spillStart (showSpilling (putSub d q m { subDef 0 with head := x.head ++ x.tail })) q m
  else d

/-- A packet is enqueued on SQ[q][m]. -/
def enqueue (d : Dev) (q m : Nat) (p : Pkt) : Dev :=
  let p := { p with queue := q, enqTime := d.time % 2 ^ 32 }
  let x := getSub d q m
  let d := putSub d q m (if x.spilled then { x with tail := x.tail ++ [p] } else { x with head := x.head ++ [p] })
  let d := setInflight d p.mapRef m (inflightOf d p.mapRef m + 1)
  spillStart (nodesEnter (bump d (Reg.QUEUE_CNT 0)) q) q m

/-- The descriptor of a spilled packet (R243). -/
def descBytes (p : Pkt) : List Byte :=
  let w := p.rxLen % 2 ^ 14 + editHeaderLen p * 2 ^ 14 + p.pool * 2 ^ 22 + b2n p.ce * 2 ^ 28 + b2n p.ect * 2 ^ 29 + p.ecnOff * 2 ^ 30
    + p.ecnFam * 2 ^ 39 + b2n p.asRx * 2 ^ 40 + b2n p.lossless * 2 ^ 41 + pcGet p Pc.holding * 2 ^ 42 + inPort p * 2 ^ 50 + p.prio * 2 ^ 59
  leBytes 8 w ++ leBytes 4 p.enqTime ++ leBytes 4 0

/-- The edit header (R224). -/
def editHeader (p : Pkt) : List Byte :=
  if p.asRx || p.noEdit then []
  else p.edits.flatMap (leBytes 4) ++ (if p.edits.length < 16 then leBytes 4 0 else []) ++ p.edata

/-- A spill record, padded to 16 B. -/
def recordBytes (p : Pkt) : List Byte :=
  let b := descBytes p ++ editHeader p ++ p.frame
  b ++ List.replicate ((16 - b.length % 16) % 16) 0

/-- Full pages leave the open page buffer, and the next page is opened for each. -/
def closePages (d : Dev) (q m : Nat) : Nat → Dev
  | 0 => d
  | n + 1 =>
    let x := getSub d q m
    if x.openBuf.length < 4064 ∨ x.openPage.isNone then d
    else
      let (np, d) := pageGet d m
      let pg : Page := ⟨x.openPage.getD 0, x.seq, np.getD 0, x.openFirst, x.openBuf.take 4064, false⟩
      let base := (x.seq + 1) * 4064
      let first := match x.recs.find? fun r => decide (base ≤ r.2.1 ∧ r.2.1 < base + 4064) with
        | some r => r.2.1 - base
        | none => 0xFFFF
      let x := { x with pages := x.pages ++ [pg], openPage := np, openBuf := x.openBuf.drop 4064, openFirst := first, seq := x.seq + 1 }
      closePages (putSub d q m x) q m n

/-- The spill engine moves the oldest tail packet of a SPILLED sub-queue to the end of the middle (R252, R253); a spill whose start was
blocked starts here when the block has ended (R250). A record that finds fewer pages than it needs waits for the rest in the open page
buffer (assumption 159). -/
def spillMove (q m : Nat) (d : Dev) : Dev :=
  let d := blockEnd (keyLoad d q) q m
  let x := getSub d q m
  if ¬ x.spilled then spillStart d q m
  else match x.tail with
  | [] => d
  | p :: t =>
    if ¬ spillWants d q x then d
    else if spillBlocked d q m then markBlocked d q m
    else
      let rec_ := recordBytes p
      let n := (x.openBuf.length + rec_.length) / 4064
      let (x, d) := if x.openPage.isSome then (x, d) else let (g, d) := pageGet d m; ({ x with openPage := g }, d)
      let first := if x.openFirst = 0xFFFF ∧ x.openBuf.length < 4064 then x.openBuf.length else x.openFirst
      let recs := x.recs ++ [({ p with cells := [] }, x.fill, rec_.length, false)]
      let x := { x with tail := t, openBuf := x.openBuf ++ rec_, openFirst := first, blocked := false, recs := recs }
      let d := putSub d q m { x with fill := x.fill + rec_.length }
      closePages (bump (releaseCells d p) (Reg.QUEUE_CNT 4)) q m (n + 1)

/-! Pages (R254, R255, R257). -/

/-- The 4,096 B of a page before encryption; `bad` inverts bits of its CRC. -/
def pageBytes (q m : Nat) (pg : Page) (bad : Nat) : List Byte :=
  let tl := leBytes 4 pg.seq ++ leBytes 2 q ++ leBytes 1 m ++ leBytes 1 0 ++ leBytes 2 pg.first ++ leBytes 2 4064
    ++ leBytes 4 pg.next ++ List.replicate 12 0
  pg.stream ++ leBytes 4 (crc32c 0xFFFFFFFF (pg.stream ++ tl) ^^^ bad) ++ tl

/-- 32 key bytes of an entry from word w on, as a number with key byte 0 on top (R311). -/
def entKey (e w : Nat) : Nat := (List.range 4).foldl (fun v i => v * 2 ^ 64 + bits e (64 * (w + i)) 64) 0

/-- The deep-store key of a holding: Key1 and Key2, generated ones being free values (R333). -/
def deepKeys (d : Dev) (h : Nat) : Nat × Nat :=
  let e := rindEnt d 3 h
  if bit e (64 * 12 + 55) then
    let k := (Config.freeValue 512 (bits e 0 64)).toNat
    (k / 2 ^ 256, k % 2 ^ 256)
  else (entKey e 0, entKey e 4)

/-- Engine and resource index of the RIND_X of a page's stack (R307, R334). -/
def rindX (d : Dev) (page : Nat) : Nat := (deepLoc d (4096 * page)).k

def engCount (d : Dev) (e bytes : Nat) : Dev := bumpN (bump d (Reg.ENG_CNT e 0)) (Reg.ENG_CNT e 1) bytes

/-- A full page is encrypted and written (R253, R255); `waited` when it has waited 10 us for its engine (R334). Without a valid key it
waits (R333). -/
def pageWrite (q m : Nat) (waited : Bool) (mem : Mem) (d : Dev) : Dev :=
  let d := keyLoad d q
  let x := getSub d q m
  if ¬ bit (rindEnt d 3 (queueHolding d q)) (64 * 12 + 63) then d else
  match x.pages.findIdx? fun g => !g.written with
  | none => d
  | some i => match x.pages[i]? with
    | none => d
    | some pg =>
      let (j, d) := injectAt d 3 (256 * 7 + m) 0
      let k := deepKeys d (queueHolding d q)
      let e := rindX d pg.ptr
      let d := if waited then recordConflict d 3 (20 + e) 0x55 0x56 3 else d
      let (_, d) := deepWrite mem (engCount d (12 + e) 4096) 1 (4096 * pg.ptr) (xtsEnc k.1 k.2 pg.ptr (pageBytes q m pg j)) 11 2
      spillJoin (putSub (bump d (Reg.QUEUE_CNT 5)) q m { x with pages := x.pages.set i { pg with written := true, stream := [] } }) q m

/-- Read a page back and check it (R257): its stream, or none. -/
def pageLoad (mem : Mem) (d : Dev) (q m : Nat) (pg : Page) : Option (List Byte) × Dev :=
  let (ct, r, d) := deepRead mem d 0 (4096 * pg.ptr) 4096 11 1
  let d := keyLoad d q
  let k := deepKeys d (queueHolding d q)
  let b := xtsDec k.1 k.2 pg.ptr ct
  let d := engCount (bump d (Reg.QUEUE_CNT 6)) (12 + rindX d pg.ptr) 4096
  let crc := leNat ((b.drop 4064).take 4)
  let ok := r == 0 && crc == crc32c 0xFFFFFFFF (b.take 4064 ++ b.drop 4068) && leNat ((b.drop 4068).take 4) == pg.seq
    && leNat ((b.drop 4072).take 2) == q && byteAt b 4074 == m
  (if ok then some (b.take 4064) else none, d)

/-- Whether a record starts, ends or continues in the page with a number. -/
def recIn (seq : Nat) (r : Pkt × Nat × Nat × Bool) : Bool :=
  decide (r.2.1 < (seq + 1) * 4064 ∧ seq * 4064 < r.2.1 + r.2.2.1)

/-- Pages whose records are all done return to the free store (R256). -/
def sweepReading (d : Dev) (q m : Nat) : Dev :=
  let x := getSub d q m
  let pos := match x.recs with | r :: _ => r.2.1 | [] => x.fill
  let d := putSub d q m { x with reading := x.reading.filter fun e => pos < e.2 }
  (x.reading.filter fun e => decide (e.2 ≤ pos)).foldl (fun d e => pageFree m d e.1) d

/-- Take the next written page of the middle; a page all of whose records are done returns unread. -/
def refillPage (mem : Mem) (d : Dev) (q m : Nat) : Dev :=
  let x := getSub d q m
  match x.pages with
  | [] => d
  | pg :: t =>
    if ¬ pg.written then d
    else
      let stop := (pg.seq + 1) * 4064
      let pos := match x.recs with | r :: _ => r.2.1 | [] => x.fill
      if stop ≤ pos then pageFree m (putSub d q m { x with pages := t, inBuf := [], inBase := stop }) pg.ptr
      else
        let (s, d) := pageLoad mem d q m pg
        let x := { x with pages := t, reading := x.reading ++ [(pg.ptr, stop)] }
        match s with
        | some s => putSub d q m { x with inBuf := x.inBuf ++ s, inBase := if x.inBuf = [] then pg.seq * 4064 else x.inBase }
        | none =>
          let d := pageFault d m 4 pg.ptr q
          let lost := x.recs.filter (recIn pg.seq)
          let d := putSub d q m { x with recs := x.recs.filter (fun r => !recIn pg.seq r), inBuf := [], inBase := stop }
          sweepReading (lost.foldl (fun d r => queueDrop (bump d (Reg.QUEUE_CNT 14)) q m r.1 4 false) d) q m

/-- The first record of the middle, when all its bytes are at hand. -/
def refillReady (x : SubQ) : Bool :=
  match x.recs with
  | [] => false
  | r :: _ => x.pages.isEmpty || decide (r.2.1 + r.2.2.1 ≤ x.inBase + x.inBuf.length)

/-- The bytes of a record: from the pages read, then from the open page buffer. -/
def recordAt (x : SubQ) (start len : Nat) : List Byte :=
  let e := x.inBase + x.inBuf.length
  let a := if x.inBuf = [] then [] else (x.inBuf.drop (start - x.inBase)).take len
  let o := x.seq * 4064
  a ++ (x.openBuf.drop (max start (max e o) - o)).take (len - a.length)

/-- The first record of the middle is done: the bytes before the next one are dropped. -/
def recordDone (d : Dev) (q m : Nat) : Dev :=
  let x := getSub d q m
  let t := x.recs.tail
  let pos := match t with | r :: _ => r.2.1 | [] => x.fill
  let cut := min (pos - x.inBase) x.inBuf.length
  let d := putSub d q m { x with recs := t, inBuf := x.inBuf.drop cut, inBase := x.inBase + cut }
  spillJoin (sweepReading d q m) q m

/-- The first record of the middle joins the head, when a pool of its chain holds its cells (R256). -/
def refillRecord (d : Dev) (q m : Nat) : Dev :=
  let x := getSub d q m
  match x.recs with
  | [] => d
  | (p, start, len, _) :: _ =>
    let b := recordAt x start len
    let p := { p with frame := (b.drop (16 + editHeaderLen p)).take p.frame.length }
    let n := cellsOf p
    match poolPick d m p.pool n with
    | none => d
    | some pool =>
      match cellsTake d m n with
      | (none, d) => d
      | (some cs, d) =>
        let d := { d with fab := { d.fab with refCtr := d.fab.refCtr + 1 } }
        let d := setRef (poolCharge d m pool n) d.fab.refCtr 1
        let x := getSub d q m
        let d := putSub d q m { x with head := x.head ++ [{ p with cells := cs, pool := pool, refKey := d.fab.refCtr }] }
        recordDone d q m

/-- Read pages until the first record is at hand. -/
def refillPages (mem : Mem) (q m : Nat) : Nat → Dev → Dev
  | 0, d => d
  | n + 1, d => if refillReady (getSub d q m) then d else refillPages mem q m n (refillPage mem d q m)

/-- One step of the refill of a SPILLED sub-queue (R256). -/
def refill (q m : Nat) (mem : Mem) (d : Dev) : Dev :=
  let x := getSub d q m
  if ¬ x.spilled then d
  else if profF d q 1 Reg.QPROF_REFILL_CELLS ≤ cellsIn x.head then d
  else if x.recs = [] then spillJoin (refillPage mem d q m) q m
  else
    let d := refillPages mem q m x.pages.length d
    if refillReady (getSub d q m) then refillRecord d q m else spillJoin d q m

/-- A record has found no cells for 10 us (R256). -/
def refillNoCells (q m : Nat) (d : Dev) : Dev :=
  let x := getSub d q m
  match x.recs with
  | [] => d
  | r :: _ => if refillReady x ∧ (poolPick d m r.1.pool (cellsOf r.1)).isNone then queueDrop (recordDone d q m) q m r.1 3 false else d

/-- Slices that assert refill panic, as a mask (R259). -/
def panicMask (d : Dev) : Nat :=
  (List.range 4).foldl (fun v m => v + b2n (d.que.subs.any fun e =>
    e.1 % 4 == m && e.2.spilled && !e.2.recs.isEmpty && decide (cellsIn e.2.head < profF d (e.1 / 4) 1 Reg.QPROF_PANIC_CELLS)) * 2 ^ m) 0

/-- The arbitration of a slot, with the panic that the slices assert now. -/
def arbitrate (k c p : Nat) (mem : Mem) (d : Dev) : Dev :=
  slotArbitration mem k c p { d with deep := { d.deep with panic := panicMask d } }

/-! QUEUE_CMD (R269). -/

/-- A queue operation begins: `v` is the command, `op` its operation. -/
def queueBegin (d : Dev) (v : W64) (op : Nat) : Dev :=
  wrFs (wr d Reg.QUEUE_CMD (setF v Reg.QUEUE_CMD_OP op)) Reg.QUEUE_STATUS [(Reg.QUEUE_STATUS_BUSY, 1), (Reg.QUEUE_STATUS_RESULT, 0)]

def queueRead (v : W64) (d : Dev) : Dev := wr (queueBegin d v 1) (Reg.QUEUE_DATA 0) (queueCfg d (getF v Reg.QUEUE_CMD_QUEUE))

def queueWrite (v : W64) (d : Dev) : Dev :=
  let d := queueBegin d v 2
  let w := BitVec.ofNat 64 ((rd d (Reg.QUEUE_DATA 0)).toNat &&& 0x8FFF000000000000)
  { d with que := { d.que with cfg := spPut (fun _ => 0) d.que.cfg (getF v Reg.QUEUE_CMD_QUEUE) w } }

def queueState (v : W64) (d : Dev) : Dev :=
  let q := getF v Reg.QUEUE_CMD_QUEUE
  let d := (List.range 4).foldl (fun d m =>
    let d := blockEnd d q m
    let x := getSub d q m
    wr d (Reg.QUEUE_DATA m) (BitVec.ofNat 64 (b2n x.spilled * 2 ^ 63 + b2n x.blocked * 2 ^ 62 + cellsIn x.head % 2 ^ 19 * 2 ^ 43
      + cellsIn x.tail % 2 ^ 18 * 2 ^ 25 + x.held))) (queueBegin d v 3)
  wrF d Reg.QUEUE_STATUS Reg.QUEUE_STATUS_DEPTH (depthOf d q)

/-- Drop every packet of a sub-queue, and return its pages unread. -/
def flushSub (q : Nat) (d : Dev) (m : Nat) : Dev :=
  let x := getSub d q m
  let d := putSub d q m (subDef 0)
  let d := (x.head ++ x.tail).foldl (fun d p => queueDrop d q m p 5 true) d
  let d := x.recs.foldl (fun d r => queueDrop d q m r.1 5 false) d
  let pages := x.pages.map Page.ptr ++ x.reading.map Prod.fst ++ x.openPage.toList
  showSpilling (bumpN (pages.foldl (pageFree m) d) (Reg.QUEUE_CNT 12) pages.length)

def queueFlush (v : W64) (d : Dev) : Dev :=
  let q := getF v Reg.QUEUE_CMD_QUEUE
  let d := queueBegin d v 4
  if queueEnable d q then wrF d Reg.QUEUE_STATUS Reg.QUEUE_STATUS_RESULT 2
  else (List.range 4).foldl (flushSub q) d

end Sys2Proof.Machine
end

