-- ==== Sys2Proof/Machine/CmdDeep.lean ====
section
/-!
DEFINITION. The commands of the deep store that no register write starts.
-/
namespace Sys2Proof.Machine

/-- DEEP_INIT_DONE (R367): Deep-store initialisation sets READY, or INIT_FAIL. -/
def execDeepInitDone (fails t0 t1 : Nat) (s : State) : Host.Outcome State Fault Refusal :=
  run (deepInitDone fails t0 t1) s

/-- DEEP_STORE_REQUEST (R372): A request arrives at a deep-store port and is arbitrated, served or answered as failure. -/
def execDeepStoreRequest (port : Nat) (write : Bool) (addr len : Nat) (bs : List Byte) (s : State) : Host.Outcome State Fault Refusal :=
  run (deepRequest (port % 8) (port / 8) write addr len bs) s

/-- SLOT_ARBITRATION (R373): Each slot a pseudo-channel takes refresh, reserved or urgent work. -/
def execSlotArbitration (k c p : Nat) (s : State) : Host.Outcome State Fault Refusal :=
  runMem (arbitrate k c p) s

/-- CE_LIMIT (R384): More than CE_LIMIT correctable errors in a second send a rank into failure handling. -/
def execCeLimit (k c r : Nat) (s : State) : Host.Outcome State Fault Refusal :=
  run (ceLimitFail k c r) s

/-- CE_WRITEBACK (R370): Corrected data are written back in a background slot unless overwritten. -/
def execCeWriteback (key : Nat) (s : State) : Host.Outcome State Fault Refusal :=
  run (ceWriteback key) s

/-- REQ_TIMEOUT (R380): A request not completed within REQ_TIMEOUT_US is answered as a failure. -/
def execReqTimeout (n : Nat) (s : State) : Host.Outcome State Fault Refusal :=
  run (reqTimeout n) s

/-- BANK_REFRESH (R376): A bank receives per-bank refresh, postponed at most 4 intervals. -/
def execBankRefresh (rank p bank : Nat) (s : State) : Host.Outcome State Fault Refusal :=
  run (bankRefresh rank p bank) s

/-- NEIGHBOUR_REFRESH (R378): A row reaching ROW_ACT_THRESHOLD activates has its neighbours refreshed. -/
def execNeighbourRefresh (key : Nat) (s : State) : Host.Outcome State Fault Refusal :=
  run (neighbourRefresh key) s

/-- RFM (R378): A bank reaching the stack's activation threshold receives RFM. -/
def execRfm (rank p bank : Nat) (s : State) : Host.Outcome State Fault Refusal :=
  run (rfm rank p bank) s

/-- ACT_TABLE_CLEAR (R378): Every 32 ms every activate-count table is cleared. -/
def execActTableClear (s : State) : Host.Outcome State Fault Refusal :=
  run (actTableClear) s

/-- ROW_IDLE_CLOSE (R375): A row kept open by prediction closes after PAGE_IDLE_NS without access. -/
def execRowIdleClose (rank p bank : Nat) (s : State) : Host.Outcome State Fault Refusal :=
  run (rowIdleClose rank p bank) s

/-- STACK_TEMP_READ (R377): Each 1 ms a stack's temperature is read and the refresh interval set. -/
def execStackTempRead (k : Nat) (t : Int) (hot : Bool) (s : State) : Host.Outcome State Fault Refusal :=
  run (stackTemp k t hot) s

/-- TEMP_READ_MISSING (R377): No valid temperature within 10 ms counts as a discarded reading. -/
def execTempReadMissing (k : Nat) (s : State) : Host.Outcome State Fault Refusal :=
  run (fun d => badTemp d k) s

/-- PATROL_SCRUB (R379): The patrol reads one burst in its reserved or idle slot and settles it. -/
def execPatrolScrub (k c p : Nat) (s : State) : Host.Outcome State Fault Refusal :=
  run (patrolScrub k c p) s

/-- MIGRATION_COPY_UNIT (R385): A migration copies one row unit from SOURCE to TARGET, completing the swap at the last. -/
def execMigrationCopyUnit (k : Nat) (s : State) : Host.Outcome State Fault Refusal :=
  run (migrationCopy k) s

end Sys2Proof.Machine
end

