-- ==== Sys2Proof/Machine/Fabric.lean ====
section
/-!
DEFINITION. The fabric (R214 to R232): stage 1 with admission and pool charging, the free-pointer caches, replication, stage 2,
ordered acre moves, the capture writer (R267), and the egress editor (R113, R249).
-/
namespace Sys2Proof.Machine

/-! Stage 1 (R218, R228, R245). -/

/-- A packet that no longer enters the buffer is dropped by the fabric or by the queue manager. -/
def stage1Drop (d : Dev) (p : Pkt) (fabric : Bool) (k : Nat) : Dev :=
  if fabric then fabricDrop d p k else releaseFrame (dropCpl (bump d (Reg.QUEUE_DROP k)) p (0xA0 + k)) p

/-- The pool that a packet is charged to (R228), or the drop code of R239 when no pool of its chain can hold it. -/
def poolFor (d : Dev) (m n : Nat) (p : Pkt) : Except Nat Nat × Dev :=
  let pick := fun (d : Dev) (s : Option Nat) => match s.bind fun s => poolPick d m s n with
    | some q => (Except.ok q, d)
    | none => (Except.error 0, d)
  let shared := fun (d : Dev) (q loser : Nat) => if llNamed d q then recordConflict d 2 q 0x02 loser 2 else d
  if p.asRx then
    let q := rdF d Reg.CAPTURE_POOL Reg.CAPTURE_POOL_POOL
    if flagF d Reg.CAPTURE_POOL Reg.CAPTURE_POOL_VALID then pick (shared d q 0x05) (startPool d q) else (.error 0, d)
  else if p.headland then
    if poolFits d m n 63 then (.ok 63, d) else (.error 1, d)
  else if lossless d p ∧ flagF d (Reg.LL_POOL p.prio) Reg.LL_POOL_VALID then
    match poolPick d m (rdF d (Reg.LL_POOL p.prio) Reg.LL_POOL_POOL) n with
    | some q => (.ok q, d)
    | none => if poolFits d m n 63 then (.ok 63, bump d (Reg.FABRIC_CNT m 5)) else (.error 1, d)
  else match p.grant with
    | some (g, q, c) => if g = m ∧ n ≤ c then (.ok q, d) else pick d (some q)
    | none =>
      let q := rdF d (Reg.HOLDING_POOL (pcGet p Pc.holding)) Reg.HOLDING_POOL_POOL
      pick (shared d q 0x03) (startPool d q)

/-- Stage 1 takes a packet of VOQ[a][m]: it is dropped, or it holds its cells from now on, and a DIRECT packet is injected (R492). -/
def stage1Take (d0 : Dev) (m : Nat) (p : Pkt) : Option Pkt × Dev :=
  let d := crossIn d0 2
  if ¬ acreUp d m then (none, stage1Drop d p true 8)
  else
    let disp := pcGet p Pc.disposition
    let p := ecnFind d p
    let (code, p, d') := if disp = 1 then queueAdmit d (pcGet p Pc.egressQueue) m p else (none, p, d)
    match code with
    | some k => (none, stage1Drop d' p false k)
    | none =>
      let undo := fun (d : Dev) => if disp = 1 then depthSub d p.queue p.rxLen else d
      let d := returnGrant d' p
      let n := cellsOf p
      let lost := fun (d : Dev) (k : Nat) =>
        let d := if p.asRx then bump (releaseFrame d { p with grant := none }) (Reg.QUEUE_CNT 10)
          else stage1Drop d { p with grant := none } true k
        (none, undo d)
      match poolFor d m n p with
      | (.error k, d) => lost d k
      | (.ok pool, d) =>
        match cellsTake d m n with
        | (none, d) => lost d 5
        | (some cs, d) =>
          let (d, p) := correctPp (poolCharge d m pool n) { p with grant := none } n
          let d := { d with fab := { d.fab with refCtr := d.fab.refCtr + 1 } }
          let k := d.fab.refCtr
          let p := { p with cells := cs, pool := pool, macre := m, refKey := k, ppRef := k }
          let (d, p) := match p.inject with
            | some (r, slot, cookie, ts) =>
              let d := bump d (Reg.INJ_RING r 9)
              if ts then (d, p) else (cplWrite d r slot cookie 0 0 0 0 0, { p with inject := none })
            | none => (d, p)
          (some p, setPpRef (setRef d k 1) k 1)

/-- The last cell of a packet has been carried: it leaves staging, and is enqueued or handed to the replicator (R231). -/
def stage1Done (d : Dev) (m : Nat) (p : Pkt) : Dev :=
  let d := leaveStaging (bump d (Reg.FABRIC_CNT m 0)) p
  let p := { p with staged := none, lookaside := none, stRef := 0 }
  let d := if p.asRx then bump d (Reg.QUEUE_CNT 9) else d
  if pcGet p Pc.disposition = 1 then enqueue d p.queue m p
  else
    let r := spGet (fun _ => []) d.fab.repl m
    if 1024 ≤ r.length then releaseCopy (dropCpl (bump d (Reg.FABRIC_DROP 6)) p 0x86) p
    else { d with fab := { d.fab with repl := spPut (fun _ => []) d.fab.repl m (r ++ [p]) } }

def voqDone (d : Dev) (a m : Nat) : Nat := spGet (fun _ => 0) d.fab.voqDone (4 * a + m)
def setVoqDone (d : Dev) (a m n : Nat) : Dev := { d with fab := { d.fab with voqDone := spPut (fun _ => 0) d.fab.voqDone (4 * a + m) n } }

/-! The write buffers (R218, R225). -/

def wbuf1 (d : Dev) (m : Nat) : List (Nat × Nat) := spGet (fun _ => []) d.fab.wbuf1 m
def setWbuf1 (d : Dev) (m : Nat) (l : List (Nat × Nat)) : Dev := { d with fab := { d.fab with wbuf1 := spPut (fun _ => []) d.fab.wbuf1 m l } }
def wbuf2 (d : Dev) (e : Nat) : List Nat := spGet (fun _ => []) d.fab.wbuf2 e
def setWbuf2 (d : Dev) (e : Nat) (l : List Nat) : Dev := { d with fab := { d.fab with wbuf2 := spPut (fun _ => []) d.fab.wbuf2 e l } }

/-- The cells that still wait after each bank has taken its oldest; `busy` are the banks that have taken one. -/
def bankServe (busy : List Nat) : List (Nat × Nat) → List (Nat × Nat)
  | [] => []
  | x :: t => if busy.contains x.2 then x :: bankServe busy t else bankServe (x.2 :: busy) t

/-- One cycle of the banks of slice m: each writes its oldest waiting cell (R225). -/
def bankCycle (m : Nat) (d : Dev) : Dev := setWbuf1 d m (bankServe [] (wbuf1 d m))

/-- The editor of acre e takes a transfer's worth of cells from its write buffer. -/
def editCycle (e : Nat) (d : Dev) : Dev := setWbuf2 d e ((wbuf2 d e).drop 16)

/-- One cycle of every write buffer. -/
def writeBufferCycle (d : Dev) : Dev := (List.range 4).foldl (fun d m => editCycle m (bankCycle m d)) d

/-- Credit of input a at slice m, and of slice m at the editor of acre e: 64 cells for each input (R218). -/
def credit1 (d : Dev) (a m : Nat) : Nat := 64 - ((wbuf1 d m).filter fun x => x.1 == a).length
def credit2 (d : Dev) (m e : Nat) : Nat := 64 - (wbuf2 d e).count m

/-- Carry up to n cells of VOQ[a][m]; the fuel bounds the packets touched. -/
def stage1Run (a m : Nat) : Nat → Nat → Dev → Dev
  | 0, _, d => d
  | fuel + 1, n, d =>
    match getVoq d a m with
    | [] => d
    | p :: t =>
      if n = 0 then d
      else if p.cells = [] then
        match stage1Take d m p with
        | (none, d) => stage1Run a m fuel n (putVoq d a m t)
        | (some p, d) => stage1Run a m fuel n (setVoqDone (putVoq d a m (p :: t)) a m 0)
      else
        let left := p.cells.length - voqDone d a m
        let k := min n left
        let d := setWbuf1 d m (wbuf1 d m ++ ((p.cells.drop (voqDone d a m)).take k).map fun c => (a, bits c 8 18 % 24))
        let d := bumpN d (Reg.FABRIC_CNT m 1) k
        if k = left then stage1Run a m fuel (n - k) (stage1Done (setVoqDone (putVoq d a m t) a m 0) m p)
        else setVoqDone d a m (voqDone d a m + k)

/-- A stage-1 connection of ingress acre a to intermediate acre m carries n cells, at most 16 and at most its credit (R218), in a cycle
in which the banks of the slice write too (assumption 152). -/
def stage1 (a m n : Nat) (d : Dev) : Dev :=
  let d := bankCycle m d
  stage1Run a m (2 * (getVoq d a m).length + 1) (min (min n 16) (credit1 d a m)) d

/-! Replication (R231, R232). -/

def groupKey (m g : Nat) : Nat := 65536 * m + g
def memberKey (m i : Nat) : Nat := 131072 * m + i
def getGroup (d : Dev) (m g : Nat) : W64 := spGet (fun _ => 0) d.fab.groups (groupKey m g)
def getMember (d : Dev) (m i : Nat) : W64 := spGet (fun _ => 0) d.fab.members (memberKey m i)

/-- The queues of a group's members: COUNT members from HEAD along NEXT; an uncorrectable member ends the walk. -/
def groupWalk (d : Dev) (m : Nat) : Nat → Nat → List Nat
  | 0, _ => []
  | n + 1, i =>
    if ecc d .member (memberKey m i) = 2 then []
    else
      let w := (getMember d m i).toNat
      bits w 0 16 :: groupWalk d m n (bits w 16 17)

/-- The replicator of acre m takes its next packet and enqueues one copy for each member (R231). -/
def replicate (m : Nat) (d : Dev) : Dev :=
  match spGet (fun _ => []) d.fab.repl m with
  | [] => d
  | p :: t =>
    let d := { d with fab := { d.fab with
      repl := spPut (fun _ => []) d.fab.repl m t
      floods := if pcGet p Pc.disposition = 2 then d.fab.floods + 1 else d.fab.floods } }
    let g := pcGet p Pc.mcastGroup
    let w := (getGroup d m g).toNat
    let noCopy := fun (d : Dev) => releaseCopy (bump d (Reg.FABRIC_DROP 7)) p
    if ¬ bit w 63 ∨ ecc d .group (groupKey m g) = 2 then noCopy d
    else
      let qs := (groupWalk d m (bits w 17 11) (bits w 0 17)).filter fun q =>
        !(pcGet p Pc.disposition == 2 && queuePort d q == inPort p)
      let (n, d) := qs.foldl (fun (x : Nat × Dev) q =>
        match queueAdmit x.2 q m p with
        | (some k, _, d) => (x.1, bump d (Reg.QUEUE_DROP k))
        | (none, c, d) =>
          let d := setPpRef (setRef d p.refKey (x.1 + 2)) p.ppRef (x.1 + 2)
          (x.1 + 1, enqueue (bump d (Reg.FABRIC_CNT m 3)) q m c)) (0, d)
      if n = 0 then (if qs = [] then noCopy d else releaseCopy d p)
      else setPpRef (setRef d p.refKey n) p.ppRef n

/-- MC_CMD begins: `v` is the command, `op` its operation. -/
def mcBegin (d : Dev) (v : W64) (op result : Nat) : Dev :=
  wrFs (wr d Reg.MC_CMD (setF v Reg.MC_CMD_OP op)) Reg.MC_STATUS [(Reg.MC_STATUS_BUSY, 1), (Reg.MC_STATUS_RESULT, result)]

def readGroup (v : W64) (d : Dev) : Dev :=
  let i := getF v Reg.MC_CMD_INDEX
  if 65535 < i then mcBegin d v 1 1
  else if ecc d .group (groupKey 0 i) = 2 then mcBegin d v 1 2
  else wr (mcBegin d v 1 0) Reg.MC_DATA (getGroup d 0 i)

def writeGroup (v : W64) (d : Dev) : Dev :=
  let i := getF v Reg.MC_CMD_INDEX
  if 65535 < i then mcBegin d v 2 1
  else (List.range 4).foldl (fun d m =>
    let w := BitVec.ofNat 64 ((rd d Reg.MC_DATA).toNat &&& 0x800000000FFFFFFF)
    eccWrite { d with fab := { d.fab with groups := spPut (fun _ => 0) d.fab.groups (groupKey m i) w } } .group (groupKey m i)
      (256 * 6 + m) 0) (mcBegin d v 2 0)

def readMember (v : W64) (d : Dev) : Dev :=
  let i := getF v Reg.MC_CMD_INDEX
  if ecc d .member (memberKey 0 i) = 2 then mcBegin d v 3 2
  else wr (mcBegin d v 3 0) Reg.MC_DATA (getMember d 0 i)

def writeMember (v : W64) (d : Dev) : Dev :=
  let i := getF v Reg.MC_CMD_INDEX
  (List.range 4).foldl (fun d m =>
    let w := BitVec.ofNat 64 (bits (rd d Reg.MC_DATA).toNat 0 33)
    eccWrite { d with fab := { d.fab with members := spPut (fun _ => 0) d.fab.members (memberKey m i) w } } .member (memberKey m i)
      (256 * 6 + m) 0) (mcBegin d v 4 0)

/-! Stage 2 (R218). -/

def getEgq (d : Dev) (m e : Nat) : List (Pkt × Nat) := spGet (fun _ => []) d.fab.egq (4 * m + e)
def putEgq (d : Dev) (m e : Nat) (l : List (Pkt × Nat)) : Dev :=
  { d with fab := { d.fab with egq := spPut (fun _ => []) d.fab.egq (4 * m + e) l } }
def egqDone (d : Dev) (m e : Nat) : Nat := spGet (fun _ => 0) d.fab.egqDone (4 * m + e)
def setEgqDone (d : Dev) (m e n : Nat) : Dev := { d with fab := { d.fab with egqDone := spPut (fun _ => 0) d.fab.egqDone (4 * m + e) n } }

def getEditQ (d : Dev) (e : Nat) : List (Pkt × Nat) := spGet (fun _ => []) d.fab.editQ e
def putEditQ (d : Dev) (e : Nat) (l : List (Pkt × Nat)) : Dev := { d with fab := { d.fab with editQ := spPut (fun _ => []) d.fab.editQ e l } }

/-- The last cell of a copy has been read: it holds its cells no longer, and stands at the editor of acre e. -/
def stage2Done (d : Dev) (e : Nat) (x : Pkt × Nat) : Dev :=
  let d := releaseCopy d x.1
  putEditQ d e (getEditQ d e ++ [({ x.1 with cells := [] }, x.2)])

/-- Carry up to n cells of EGQ[m][e]. -/
def stage2Run (m e : Nat) : Nat → Nat → Dev → Dev
  | 0, _, d => d
  | fuel + 1, n, d =>
    match getEgq d m e with
    | [] => d
    | x :: t =>
      if n = 0 then d
      else if ¬ acreUp d e then
        stage2Run m e fuel n (releaseCopy (dropCpl (bump (setEgqDone (putEgq d m e t) m e 0) (Reg.FABRIC_DROP 8)) x.1 0x88) x.1)
      else
        let left := x.1.cells.length - egqDone d m e
        let k := min n left
        let d := setWbuf2 d e (wbuf2 d e ++ List.replicate k m)
        let d := bumpN d (Reg.FABRIC_CNT m 2) k
        if k = left then stage2Run m e fuel (n - k) (stage2Done (setEgqDone (putEgq d m e t) m e 0) e x)
        else setEgqDone d m e (egqDone d m e + k)

/-- A stage-2 connection of intermediate acre m to egress acre e carries n cells, at most 16 and at most its credit (R218), in a cycle
in which the editor takes cells too (assumption 152). -/
def stage2 (m e n : Nat) (d : Dev) : Dev :=
  let d := editCycle e d
  stage2Run m e (getEgq d m e).length (min (min n 16) (credit2 d m e)) d

/-! Ordered acre moves (R220, R221). -/

def moveF (d : Dev) (a : Nat) (f : Fld) : Nat := rdF d (Reg.ACRE_MOVE_STATUS a) f

/-- The held packets enter the new VOQ in their order. -/
def moveRelease (d : Dev) (a : Nat) : Dev :=
  let x := getAcre d a
  let d := putAcre d a { x with moveHold := [] }
  x.moveHold.foldl (fun d p => voqPush d a (moveF d a Reg.ACRE_MOVE_STATUS_TO) p) d

/-- A write of ACRE_MAP word k of acre a: rejected (none), or it starts a move, or it changes nothing. The word holds entries
2k and 2k + 1, and one write may move one of them. -/
def acreMapWrite (d : Dev) (a k : Nat) (v : W64) : Option Dev :=
  let new := fun (i : Nat) => bits v.toNat (32 * i) 2
  let changed := (List.range 2).filter fun i => new i != acreMap d a (2 * k + i)
  if changed = [] then some d
  else if moveF d a Reg.ACRE_MOVE_STATUS_PHASE ≠ 0 ∨ 1 < changed.length ∨ (changed.any fun i => acreCount d ≤ new i) then none
  else
    let i := changed.headD 0
    let j := 2 * k + i
    let d' := wr d (Reg.ACRE_MAP a k) (BitVec.ofNat 64 (setBits (rd d (Reg.ACRE_MAP a k)).toNat (32 * i) 2 (new i)))
    some (wr d' (Reg.ACRE_MOVE_STATUS a) (mkWord [(Reg.ACRE_MOVE_STATUS_ENTRY, j), (Reg.ACRE_MOVE_STATUS_FROM, acreMap d a j),
      (Reg.ACRE_MOVE_STATUS_TO, new i), (Reg.ACRE_MOVE_STATUS_PHASE, 1)]))

/-- Whether acre `m` still holds a packet of a map entry: queued (INFLIGHT), or on its way to a queue, in the VOQ or at the replicator,
from which it could still be overtaken (R220, R221, assumption 156). -/
def moveHolds (d : Dev) (a ref m : Nat) : Bool :=
  inflightOf d ref m != 0 || (getVoq d a m ++ spGet (fun _ => []) d.fab.repl m).any fun p => p.mapRef == ref

/-- The old acre holds no packet of the entry any more: a HOLD is released, and the move ends. -/
def acreMoveDrained (a : Nat) (d : Dev) : Dev :=
  let ph := moveF d a Reg.ACRE_MOVE_STATUS_PHASE
  if ph = 0 ∨ moveHolds d a (64 * a + moveF d a Reg.ACRE_MOVE_STATUS_ENTRY) (moveF d a Reg.ACRE_MOVE_STATUS_FROM) = true then d
  else
    let d := wrF d (Reg.ACRE_MOVE_STATUS a) Reg.ACRE_MOVE_STATUS_PHASE 0
    if ph = 1 then moveRelease d a else d

/-- HOLD_NS has passed: the held packets are released and the move is STALE. -/
def acreMoveExpiry (a : Nat) (d : Dev) : Dev :=
  if moveF d a Reg.ACRE_MOVE_STATUS_PHASE ≠ 1 then d
  else moveRelease (wrFs d (Reg.ACRE_MOVE_STATUS a) [(Reg.ACRE_MOVE_STATUS_PHASE, 2), (Reg.ACRE_MOVE_STATUS_EXPIRED, 1)]) a

/-- Whether a packet selected from acre m is stale under a move (R220 step 3). -/
def moveStale (d : Dev) (m : Nat) (p : Pkt) : Bool :=
  let a := p.mapRef / 64
  decide (p.mapRef < 256) && moveF d a Reg.ACRE_MOVE_STATUS_PHASE == 2 && moveF d a Reg.ACRE_MOVE_STATUS_ENTRY == p.mapRef % 64
    && moveF d a Reg.ACRE_MOVE_STATUS_FROM == m

/-! The capture writer (R267). -/

/-- Whether a ring fits its destination (R267, R369). -/
def capFits (d : Dev) (base : Nat) (dest slots : Nat) : Bool :=
  if dest = 1 then decide (base + 160 * slots ≤ deepSize d) else decide (base + 160 * slots ≤ 2 ^ 64)

/-- The oldest waiting record of a ring is written to its slot. -/
def captureWrite (r : Nat) (m : Mem) (d : Dev) : Dev :=
  match d.fab.caps.find? fun c => c.ring == r with
  | none => d
  | some c =>
    let d := { d with fab := { d.fab with caps := d.fab.caps.erase c } }
    let slots := capField d r 1 Reg.CAP_RING_SLOTS
    let at_ := capField d r 0 Reg.CAP_RING_BASE + 160 * (c.seq % slots)
    let d := if capField d r 1 Reg.CAP_RING_DEST = 1 then (deepWrite m d 3 at_ c.bytes 12 2).2 else memWrite d spHost at_ c.bytes
    let d := cellFree (poolReturn d c.acre c.pool 1) c.cell
    let d := bump d (Reg.CAP_RING r 2)
    let every := capField d r 1 Reg.CAP_RING_NOTICE_EVERY
    if every ≠ 0 ∧ capField d r 2 Reg.CAP_RING_PROD % every = 0 then msi d (928 + r) else d

/-! The egress editor (R112, R113). -/

def eOp (e : Nat) : Nat := bits e 0 3
def eInst (e : Nat) : Nat := bits e 3 5
def eOff (e : Nat) : Nat := bits e 8 8
def eLen (e : Nat) : Nat := bits e 16 7 + 1
def ePref (e : Nat) : Bool := bit e 23
def eDoff (e : Nat) : Nat := bits e 24 7

/-- The position that an entry names in the packet as received. -/
def ePos (p : Pkt) (e : Nat) : Nat := hdrOffset p (eInst e) + eOff e

/-- The range that a POP or STRIP removes. -/
def eRange (p : Pkt) (e : Nat) : Option (Nat × Nat) :=
  if eOp e = 3 then some (ePos p e, min (ePos p e + eLen e) p.frame.length)
  else if eOp e = 4 then some (hdrOffset p (eInst e), min (hdrOffset p (bits e 24 5)) p.frame.length)
  else none

/-- Whether a received byte is removed. -/
def removed (p : Pkt) (i : Nat) : Bool :=
  p.edits.any fun e => match eRange p e with | some (s, t) => decide (s ≤ i ∧ i < t) | none => false

/-- The received byte as the last REWRITE that covers it leaves it. -/
def rewritten (p : Pkt) (i : Nat) : Byte :=
  p.edits.foldl (fun b e =>
    if eOp e = 1 ∧ ePos p e ≤ i ∧ i < ePos p e + eLen e then p.edata.getD (eDoff e + (i - ePos p e)) 0 else b) (p.frame.getD i 0)

/-- Where a PUSH inserts: inside a removed range at its start, past the packet end at the end. DESIGN CHOICE (assumption 147):
R113 does not say which start holds where removed ranges meet or overlap; here they are one range, from the first removed byte. -/
def pushPos (p : Pkt) : Nat → Nat → Nat
  | 0, i => i
  | n + 1, i => if i ≠ 0 ∧ i < p.frame.length ∧ removed p i ∧ removed p (i - 1) then pushPos p n (i - 1) else i

/-- The pushes of a packet: where, entry number and data, in list order. -/
def pushes (p : Pkt) : List (Nat × Nat × List Byte) :=
  (List.range p.edits.length).filterMap fun k =>
    let e := p.edits.getD k 0
    if eOp e = 2 then
      let i := min (ePos p e) p.frame.length
      some (pushPos p i i, k, (p.edata.drop (eDoff e)).take (eLen e))
    else none

/-- The edited bytes, each with the received position or the push (as 65,536 times its number plus 1) that it begins. -/
def editBytes (p : Pkt) : List (Byte × Option Nat) :=
  (List.range (p.frame.length + 1)).flatMap fun i =>
    let ins := (pushes p).filter fun x => x.1 == i
    let mark := fun (k : Nat) (bs : List Byte) => match bs with
      | [] => []
      | b :: t => (b, some (65536 * (k + 1))) :: t.map fun b => (b, none)
    ins.flatMap (fun x => mark x.2.1 x.2.2)
      ++ (if i < p.frame.length ∧ ¬ removed p i then [(rewritten p i, some i)] else [])

/-- Where a received byte or a push begins in the edited packet. -/
def whereIs (l : List (Byte × Option Nat)) (x : Nat) : Option Nat := l.findIdx? fun e => e.2 == some x

def putBytes (bs : List Byte) (i : Nat) (v : List Byte) : List Byte := bs.take i ++ v ++ bs.drop (i + v.length)

/-- The ones'-complement sum of a byte list, 16 bits at a time (RFC 791). -/
def onesSum (bs : List Byte) : Nat :=
  let s := (List.range (ceilDiv bs.length 2)).foldl (fun s i => s + byteAt bs (2 * i) * 256 + byteAt bs (2 * i + 1)) 0
  let f := fun (s : Nat) => s % 65536 + s / 65536
  f (f (f s))

def ipChecksum (bs : List Byte) : Nat := 65535 - onesSum bs

/-- The checksum of the IPv4 header at byte t computed anew (RFC 791). -/
def ip4Sum (bs : List Byte) (t : Nat) : List Byte :=
  let bs := putBytes bs (t + 10) [0, 0]
  putBytes bs (t + 10) (beBytes 2 (ipChecksum ((bs.drop t).take (4 * (byteAt bs t % 16)))))

/-- FIX_IP4 at byte t: Total Length and header checksum. A header that does not lie in the packet stays as it is. -/
def fixIp4 (bs : List Byte) (t : Nat) : List Byte :=
  let ihl := 4 * (byteAt bs t % 16)
  if bs.length < t + 20 ∨ ihl < 20 ∨ bs.length < t + ihl then bs
  else
    ip4Sum (putBytes bs (t + 2) (beBytes 2 (bs.length - t))) t

/-- FIX_IP6 at byte t: Payload Length. -/
def fixIp6 (bs : List Byte) (t : Nat) : List Byte :=
  if bs.length < t + 40 then bs else putBytes bs (t + 4) (beBytes 2 (bs.length - t - 40))

/-- FIX_UDP at byte t: Length, and the checksum, which is 0 unless the header `ip` before it is an IPv6 header. -/
def fixUdp (bs : List Byte) (t : Nat) (ip : Option Nat) : List Byte :=
  if bs.length < t + 8 then bs
  else
    let n := bs.length - t
    let bs := putBytes (putBytes bs (t + 4) (beBytes 2 n)) (t + 6) [0, 0]
    match ip with
    | some i =>
      if byteAt bs i / 16 = 6 ∧ i + 40 ≤ bs.length then
        let c := ipChecksum ((bs.drop (i + 8)).take 32 ++ beBytes 4 n ++ [0, 0, 0, 17] ++ bs.drop t)
        putBytes bs (t + 6) (beBytes 2 (if c = 0 then 65535 else c))
      else bs
    | none => bs

/-- Header starts in the edited packet: recorded instances that are still there, and pushes. -/
def headerStarts (p : Pkt) (l : List (Byte × Option Nat)) : List Nat :=
  ((List.range 32).filterMap fun k => if hdrPresent p k then whereIs l (hdrOffset p k) else none)
    ++ (pushes p).filterMap fun x => whereIs l (65536 * (x.2.1 + 1))

/-- The IP header that encloses a UDP header: the last header start before it with a version of 4 or 6. -/
def ipBefore (bs : List Byte) (starts : List Nat) (t : Nat) : Option Nat :=
  let c := starts.filter fun s => decide (s < t) && (byteAt bs s / 16 == 4 || byteAt bs s / 16 == 6)
  if c = [] then none else some (c.foldl max 0)

/-- The target of a FIX operation. -/
def fixTarget (p : Pkt) (l : List (Byte × Option Nat)) (e : Nat) : Option Nat :=
  if ePref e then whereIs l (65536 * (eInst e % 16 + 1)) else whereIs l (ePos p e)

/-- The CE mark (R249): the packet, and whether the mark was discarded. -/
def ceMark (p : Pkt) (l : List (Byte × Option Nat)) (bs : List Byte) : List Byte × Bool :=
  match whereIs l (p.ecnOff + 1) with
  | none => (bs, true)
  | some t =>
    let old := byteAt bs t
    let new := if p.ecnFam = 0 then old ||| 3 else old ||| 0x30
    let out := putBytes bs t [BitVec.ofNat 8 new]
    let fixed := p.edits.any fun e => eOp e == 5 && !ePref e && ePos p e == p.ecnOff
    match whereIs l p.ecnOff with
    | some h =>
      if p.ecnFam = 0 ∧ ¬ fixed ∧ h + 12 ≤ bs.length then
        let hc := 65535 - beNat ((bs.drop (h + 10)).take 2)
        let m := byteAt bs h * 256
        let s := hc + (65535 - (m + old)) + (m + new)
        let s := s % 65536 + s / 65536
        let s := s % 65536 + s / 65536
        (if new = old then out else putBytes out (h + 10) (beBytes 2 (65535 - s)), false)
      else (out, false)
    | none => (out, false)

/-- The packet as the editor leaves it, and whether its mark was discarded. -/
def editPacket (p : Pkt) : List Byte × Bool :=
  let pad := fun (bs : List Byte) => bs ++ List.replicate (60 - bs.length) 0
  if p.asRx then (pad p.frame, false)
  else
    let l := editBytes p
    let bs := l.map Prod.fst
    let (bs, gone) := if p.ce then ceMark p l bs else (bs, false)
    let starts := headerStarts p l
    let bs := p.edits.foldl (fun bs e => match fixTarget p l e with
      | none => bs
      | some t => if eOp e = 5 then fixIp4 bs t else if eOp e = 6 then fixUdp bs t (ipBefore bs starts t)
        else if eOp e = 7 then fixIp6 bs t else bs) bs
    (pad bs, gone)

/-! From the editor to the strip (R320, R322). -/

def laQ (d : Dev) (s : Nat) : List (Pkt × Nat) := spGet (fun _ => []) d.rind.laQ s
def setLaQ (d : Dev) (s : Nat) (l : List (Pkt × Nat)) : Dev := { d with rind := { d.rind with laQ := spPut (fun _ => []) d.rind.laQ s l } }

/-- Whether the look-aside queue of a strip is full: 512 packets, or 1 MiB (R322). -/
def laFull (d : Dev) (s : Nat) : Bool :=
  decide (512 ≤ (laQ d s).length ∨ 1048576 ≤ (laQ d s).foldl (fun n x => n + x.1.frame.length) 0)

/-- The ENG_CNT word that counts a drop 0xC0 + k: 3 replay, 4 capacity, 5 exhausted; the words of the codes that the counters' table does not
name are a choice (assumption 163): an unusable association counts as exhausted, a frame above the MTU as capacity, and every other one as
an integrity failure. -/
def rindCnt (k : Nat) : Nat :=
  if k = 4 ∨ k = 11 then 3 else if k = 7 ∨ k = 8 ∨ k = 13 then 4 else if k = 5 ∨ k = 6 ∨ k = 12 then 5 else 2

/-- A drop of Rind by engine e, code 0xC0 + k (R335). -/
def rindDrop (d : Dev) (k e : Nat) : Dev := bump (bump d (Reg.RIND_DROP k)) (Reg.ENG_CNT e (rindCnt k))

/-- Whether the ESP binding of a queue is valid (R320). -/
def espBound (d : Dev) (q : Nat) : Bool := bit (rindEnt d 6 q) (64 * 8 + 63)

/-- The editor of acre e handles its next packet: it then waits for its port, or for ESP encryption (R113, R320, R322). -/
def egressEdit (e : Nat) (d : Dev) : Dev :=
  match getEditQ d e with
  | [] => d
  | (p, port) :: t =>
    let d := putEditQ d e t
    let (bs, gone) := editPacket p
    let d := if gone then bump d (Reg.QUEUE_CNT 3) else d
    let p := { p with frame := bs, edits := [], edata := [] }
    let s := port / 64
    if espBound d p.queue then
      let l := laQ d s
      if 512 ≤ l.length ∨ 1048576 < l.foldl (fun n x => n + x.1.frame.length) 0 + bs.length then
        dropCpl (rindDrop d 7 s) p 0xC7
      else
        let d' := setLaQ d s (l ++ [(p, port)])
        if laFull d' s then recordConflict d' 3 s 0x51 0x52 (8 + s) else d'
    else
      let x := getPort d port
      putPort d port { x with txQ := x.txQ ++ [p] }

end Sys2Proof.Machine
end

