-- ==== Sys2Proof/Machine/Assoc.lean ====
section
/-!
DEFINITION. Associative search (R192 to R213): the arrays and their shadow copies, the search, host commands and the gleaner.
-/
namespace Sys2Proof.Machine

/-- Fields of an entry (R192): VALUE, MASK and the tag word. -/
def aValue (e : Nat) : Nat := bits e 384 320
def aMask (e : Nat) : Nat := bits e 64 320
def aValid (e : Nat) : Bool := bit e 63
def aOwner (e : Nat) : Nat := bits e 48 8
def aPriority (e : Nat) : Nat := bits e 32 16
def aAction (e : Nat) : Nat := bits e 0 32

/-- An entry as the device stores it: VALUE bits outside MASK are 0, and so are the tag's reserved bits (R193). -/
def aCanon (e : Nat) : Nat := (aValue e &&& aMask e) * 2 ^ 384 + aMask e * 2 ^ 64 + setBits (bits e 0 64) 56 7 0

def aKey (a i : Nat) : Nat := 32768 * a + i
def getCopy (d : Dev) (a i : Nat) : Nat := spGet (fun _ => 0) d.asc.copy (aKey a i)
def getCell (d : Dev) (a i : Nat) : Nat := spGet (fun _ => 0) d.asc.cells (aKey a i)
def repairDue (d : Dev) (a i : Nat) : Bool := spGet (fun _ => 0) d.asc.repairs (aKey a i) == 1
def setRepair (d : Dev) (a i v : Nat) : Dev := { d with asc := { d.asc with repairs := spPut (fun _ => 0) d.asc.repairs (aKey a i) v } }

/-- The fault instance of an entry (R210). -/
def aInst (a i : Nat) : Nat := 64 * a + i / 512

/-- Write an entry in the copy and in the array (R204), which cancels a repair of it (R211). The copy's and the action's check
bits are good again unless an injection inverts them, and an associative cell injection flips the cells alone (R437). -/
def aWrite (d : Dev) (a i e : Nat) : Dev :=
  let e := aCanon e
  let (j, d) := injectAt d 6 (256 * 5 + aInst a i) 0
  let d := { d with asc := { d.asc with copy := spPut (fun _ => 0) d.asc.copy (aKey a i) e,
                                        cells := spPut (fun _ => 0) d.asc.cells (aKey a i) (e ^^^ (if j = 0 then 0 else 2 ^ 384)) } }
  setRepair (setEcc (eccWrite d .assocCopy (aKey a i) (256 * 5 + aInst a i) 0) .assocTag (aKey a i) 0) a i 0

/-- An agent writes an entry: a repair that waits for it is cancelled, and the gleaner reads the line again (R211). -/
def aPut (d : Dev) (a i e : Nat) : Dev :=
  let n := 4096 * a + i / 8
  let again := repairDue d a i ∧ n ∉ d.asc.reread
  aWrite (if again then { d with asc := { d.asc with reread := d.asc.reread ++ [n] } } else d) a i e

/-- The acre of a write. -/
def stepAcre : AssocStep → Nat
  | .put a _ _ => a
  | .clear a _ => a
  | .copy a _ _ => a

/-- One write of an operation in one acre. -/
def assocStep (d : Dev) : AssocStep → Dev
  | .put a i e => aPut d a i e
  | .clear a i => aPut d a i (setBits (getCopy d a i) 63 1 0)
  | .copy a src dst => aPut d a dst (getCopy d a src)

/-- The next write of the operation in progress is made. The first is made at the command, one in each nanosecond after it, and
those that are left when the operation ends (R204, R205). -/
def assocNext (d : Dev) : Dev :=
  match d.asc.steps with
  | [] => d
  | x :: t => assocStep { d with asc := { d.asc with steps := t } } x

/-- Every write that the operation in progress has left. -/
def assocFinish (d : Dev) : Dev := d.asc.steps.foldl assocStep { d with asc := { d.asc with steps := [] } }

def assocStart (l : List AssocStep) (d : Dev) : Dev := assocNext { d with asc := { d.asc with steps := l } }

/-! Search (R197, R199). -/

/-- The entries of acre a that match a search of holding h, with their index, lowest first. -/
def aMatches (d : Dev) (a h key : Nat) : List (Nat × Nat) :=
  let m := (rd d (Reg.SEG_MAP a h)).toNat
  d.asc.cells.filterMap fun e =>
    let i := e.1 % 32768
    if e.1 / 32768 = a ∧ bit m (i / 512) ∧ aValid e.2 ∧ aOwner e.2 = h ∧ (key &&& aMask e.2) = (aValue e.2 &&& aMask e.2) then
      some (i, e.2) else none

/-- The winner among matches in index order (R199). -/
def aWinner (h : Nat) (l : List (Nat × Nat)) : Option (Nat × Nat) :=
  if h < 8 then l.head?
  else l.foldl (fun w e => match w with | some x => if aPriority x.2 < aPriority e.2 then some e else w | none => some e) none

/-- The index by which a search names entry i of acre a (R194). -/
def aIndexName (d : Dev) (a i : Nat) : Nat := if flagF d Reg.ASSOC_CFG Reg.ASSOC_CFG_MODE then 32768 * a + i else i

/-- The result of a search issued by a packet (R200): the word, the count, whether the winner's ACTION is uncorrectable, and the
device with its counters (R213). -/
def aLookup (d : Dev) (a h key : Nat) : W64 × Nat × Bool × Dev :=
  let l := aMatches d a h key
  let n := min 255 l.length
  let d := bump d (Reg.ASSOC_CNT a 0)
  let d := if 1 ≤ n then bump d (Reg.ASSOC_CNT a 1) else d
  let d := if 2 ≤ n then bump d (Reg.ASSOC_CNT a 2) else d
  let d := if n = 255 then bump d (Reg.ASSOC_CNT a 3) else d
  match aWinner h l with
  | none => (0, 0, false, d)
  | some (i, e) =>
    if ecc d .assocTag (aKey a i) = 2 then (0, n, true, d)
    else (BitVec.ofNat 64 (aAction e * 2 ^ 32 + n * 2 ^ 17 + aIndexName d a i), n, false, d)

/-! Host commands (R203, R206). -/

/-- ASSOC_DATA as an entry, and an entry shown in it. -/
def aData (d : Dev) : Nat := (List.range 11).foldl (fun v i => v * 2 ^ 64 + (rd d (Reg.ASSOC_DATA i)).toNat) 0
def aShow (d : Dev) (e : Nat) : Dev :=
  (List.range 11).foldl (fun d i => wr d (Reg.ASSOC_DATA i) (BitVec.ofNat 64 (bits e (64 * (10 - i)) 64))) d

def aEnd (d : Dev) (result : Nat) (index count : Option Nat) : Dev :=
  let d := wrF d Reg.ASSOC_STATUS Reg.ASSOC_STATUS_RESULT result
  let d := match index with | some i => wrF d Reg.ASSOC_STATUS Reg.ASSOC_STATUS_INDEX i | none => d
  match count with | some n => wrF d Reg.ASSOC_STATUS Reg.ASSOC_STATUS_COUNT n | none => d

def aBegin (d : Dev) (v : W64) : Dev := wrF (wr d Reg.ASSOC_CMD v) Reg.ASSOC_STATUS Reg.ASSOC_STATUS_BUSY 1

/-- Whether a command names an absent acre: READ and SEARCH always use ACRE, the others in PARTITIONED mode alone (R3, R203). -/
def assocBadAcre (d : Dev) (v : W64) : Bool :=
  let op := getF v Reg.ASSOC_CMD_OP
  (op == 1 || op == 5 || flagF d Reg.ASSOC_CFG Reg.ASSOC_CFG_MODE) && decide (acreCount d ≤ getF v Reg.ASSOC_CMD_ACRE)

/-- The acres that WRITE, INVALIDATE and MOVE reach: every present acre in REPLICATED mode, else the acre named. -/
def aTargets (d : Dev) (v : W64) : List Nat :=
  if flagF d Reg.ASSOC_CFG Reg.ASSOC_CFG_MODE then [getF v Reg.ASSOC_CMD_ACRE] else List.range (acreCount d)

def assocRead (v : W64) (d : Dev) : Dev :=
  let d := aBegin d v
  let a := getF v Reg.ASSOC_CMD_ACRE
  let i := getF v Reg.ASSOC_CMD_INDEX
  if getF v Reg.ASSOC_CMD_RAW = 1 then aEnd (aShow d (getCell d a i)) 0 (some i) none
  else if ecc d .assocCopy (aKey a i) = 2 then aEnd d 4 none none
  else aEnd (aShow d (getCopy d a i)) 0 (some i) none

def assocWrite (v : W64) (d : Dev) : Dev :=
  let d := aBegin d v
  let i := getF v Reg.ASSOC_CMD_INDEX
  aEnd (assocStart ((aTargets d v).map fun a => .put a i (aData d)) d) 0 (some i) none

def assocInvalidate (v : W64) (d : Dev) : Dev :=
  let d := aBegin d v
  let i := getF v Reg.ASSOC_CMD_INDEX
  if (aTargets d v).any fun a => ecc d .assocCopy (aKey a i) == 2 then aEnd d 4 none none
  else aEnd (assocStart ((aTargets d v).map fun a => .clear a i) d) 0 (some i) none

/-- MOVE in one acre: the destination is written before the source is invalidated (R205). -/
def aMove (src dst : Nat) (keep : Bool) (a : Nat) : List AssocStep := .copy a src dst :: (if keep then [] else [.clear a src])

def assocMove (v : W64) (d : Dev) : Dev :=
  let d := aBegin d v
  let i := getF v Reg.ASSOC_CMD_INDEX
  let s := getF v Reg.ASSOC_CMD_SRC_INDEX
  let l := aTargets d v
  let e := getCopy d (l.headD 0) s
  if l.any fun a => ecc d .assocCopy (aKey a s) == 2 then aEnd d 4 none none
  else if ¬ aValid e then aEnd d 3 none none
  else aEnd (aShow (assocStart (l.flatMap (aMove s i (getF v Reg.ASSOC_CMD_KEEP_SRC == 1))) d) e) 0 (some i) none

def assocSearch (v : W64) (d : Dev) : Dev :=
  let d := aBegin d v
  let a := getF v Reg.ASSOC_CMD_ACRE
  let q := aData d
  let h := aOwner q
  let l := aMatches d a h (aValue q)
  match aWinner h l with
  | none => aEnd d 1 none (some 0)
  | some (i, e) => aEnd (aShow d e) 0 (some i) (some (min 255 l.length))

/-- A write of SEG_MAP with at most 8 bits set (R196): every present acre in REPLICATED mode. -/
def segMapWrite (a h : Nat) (v : W64) (d : Dev) : Dev :=
  (if flagF d Reg.ASSOC_CFG Reg.ASSOC_CFG_MODE then [a] else List.range (acreCount d)).foldl (fun d a => wr d (Reg.SEG_MAP a h) v) d

/-! The gleaner (R209 to R211). -/

/-- Whether the gleaner finds an entry in need of repair. -/
def aBad (d : Dev) (a i : Nat) : Bool :=
  getCell d a i != getCopy d a i || ecc d .assocTag (aKey a i) != 0 || ecc d .assocCopy (aKey a i) == 2

/-- The gleaner reads a line: the copy's single-bit errors are corrected, and entries that differ wait for their repair. -/
def gleanRead (a line : Nat) (d : Dev) : Dev :=
  (List.range 8).foldl (fun d k =>
    let i := 8 * line + k
    let d := if ecc d .assocCopy (aKey a i) = 1 then setEcc d .assocCopy (aKey a i) 0 else d
    if aBad d a i then setRepair d a i 1 else d) d

/-- The next line of the walk of acre a. -/
def gleanPos (d : Dev) (a : Nat) : Nat := spGet (fun _ => 0) d.asc.pos a

/-- A walk of acre a is complete (R213). -/
def walkDone (a : Nat) (d : Dev) : Dev :=
  let w := setBits d.asc.walked a 1 1
  let all := w = 2 ^ acreCount d - 1
  let d := { bump d (Reg.ASSOC_CNT a 7) with asc := { d.asc with walked := if all then 0 else w } }
  if all then bumpSat d Reg.ASSOC_GLEAN_STATUS Reg.ASSOC_GLEAN_STATUS_PASSES 1 else d

/-- The walk reads its next line and moves on; after line 4,095 it starts again. -/
def gleanWalk (a : Nat) (d : Dev) : Dev :=
  let p := gleanPos d a
  let d := gleanRead a p d
  let d := { d with asc := { d.asc with pos := spPut (fun _ => 0) d.asc.pos a ((p + 1) % 4096) } }
  if p = 4095 then walkDone a d else d

/-- The repair of one entry (R210). -/
def gleanRepair (a i : Nat) (d : Dev) : Dev :=
  let fix := fun (e : Nat) => raise (bump (aWrite d a i e) (Reg.ASSOC_CNT a 5)) Fk.assocRepaired (aInst a i) 0 8 6
  if ecc d .assocCopy (aKey a i) ≠ 2 then fix (getCopy d a i)
  else
    let others := if flagF d Reg.ASSOC_CFG Reg.ASSOC_CFG_MODE then []
      else ((List.range (acreCount d - 1)).map fun k => (a + 1 + k) % acreCount d).filter fun b => ecc d .assocCopy (aKey b i) ≠ 2
    match others with
    | b :: _ => fix (getCopy d b i)
    | [] =>
      let d := bump (aWrite d a i (setBits (getCopy d a i) 63 1 0)) (Reg.ASSOC_CNT a 6)
      let d := wrFs d Reg.ASSOC_GLEAN_STATUS [(Reg.ASSOC_GLEAN_STATUS_ACRE, a), (Reg.ASSOC_GLEAN_STATUS_INDEX, i),
        (Reg.ASSOC_GLEAN_STATUS_LOST, 1)]
      raise d Fk.assocLost (aInst a i) 0 8 6

/-- The repair that is due for an entry. -/
def assocRepairDue (a i : Nat) (d : Dev) : Dev := if repairDue d a i then gleanRepair a i d else d

/-- The gleaner's next cycle in acre a (R208, R211): a line whose repair a write cancelled is read again, else a pending repair is
made, else the walk reads its next line. Of several pending repairs the lowest index comes first (DESIGN CHOICE, log entry 138). -/
def gleanLine (a : Nat) (d : Dev) : Dev :=
  match d.asc.reread.find? fun n => n / 4096 == a with
  | some n => gleanRead a (n % 4096) { d with asc := { d.asc with reread := d.asc.reread.erase n } }
  | none =>
    match d.asc.repairs.find? fun e => e.1 / 32768 == a with
    | some e => gleanRepair a (e.1 % 32768) d
    | none => gleanWalk a d

end Sys2Proof.Machine
end

