-- ==== Sys2Proof/Machine/Orchard.lean ====
section
/-!
DEFINITION. Orchard (R152 to R191): table descriptors, the placement of entries, hashes, exact-match and prefix lookups,
insertion and deletion, profiles, the command engine's operations and the gleaner.
-/
namespace Sys2Proof.Machine

/-! Descriptors. -/

/-- A table of the active slot, as TABLE_DESC and TABLE_SEED give it (R190). -/
structure Tbl where
  t : Nat
  kind : Nat
  base : Nat
  nblk : Nat
  wide : Bool
  keybits : Nat
  refresh : Bool
  learn : Bool
  kicks : Nat
  seed1 : Nat
  seed2 : Nat
  deriving DecidableEq, Repr

/-- The slot that PROFILE_SEL names (R160). -/
def activeSlot (d : Dev) : Nat := rdF d Reg.PROFILE_SEL Reg.PROFILE_SEL_SLOT

/-- Table t of a slot, when it is valid. -/
def tblOf (d : Dev) (s t : Nat) : Option Tbl :=
  let v := rd d (Reg.TABLE_DESC s t)
  let sd := rd d (Reg.TABLE_SEED s t)
  if getF v Reg.TABLE_DESC_VALID = 1 then
    let k := getF v Reg.TABLE_DESC_MAX_KICKS
    some ⟨t, getF v Reg.TABLE_DESC_KIND, getF v Reg.TABLE_DESC_BASE, getF v Reg.TABLE_DESC_NBLK,
      getF v Reg.TABLE_DESC_WIDE == 1, getF v Reg.TABLE_DESC_KEYBITS, getF v Reg.TABLE_DESC_REFRESH == 1,
      getF v Reg.TABLE_DESC_LEARN == 1, if k = 0 then 32 else k, getF sd Reg.TABLE_SEED_SEED1, getF sd Reg.TABLE_SEED_SEED2⟩
  else none

/-- Table t of the active slot. -/
def tbl (d : Dev) (t : Nat) : Option Tbl := tblOf d (activeSlot d) t

/-- A lookup type (R93, R190). -/
structure Ltype where
  kind : Nat
  table : Nat
  dist : Nat
  rowmask : Nat
  nmax : Nat
  cports : Nat
  size : Nat
  deriving DecidableEq, Repr

/-- Type y of a slot, when it is valid. -/
def typeOf (d : Dev) (s y : Nat) : Option Ltype :=
  let v := rd d (Reg.TYPE_DESC s y 0)
  if getF v Reg.TYPE_DESC_VALID = 1 then
    some ⟨getF v Reg.TYPE_DESC_KIND, getF v Reg.TYPE_DESC_TABLE, getF v Reg.TYPE_DESC_D, getF v Reg.TYPE_DESC_ROWMASK,
      getF v Reg.TYPE_DESC_NMAX + 1, getF v Reg.TYPE_DESC_CPORTS + 1, getF (rd d (Reg.TYPE_DESC s y 1)) Reg.TYPE_DESC_SIZE⟩
  else none

/-- Type y of the active slot. -/
def ltype (d : Dev) (y : Nat) : Option Ltype := typeOf d (activeSlot d) y

/-- Accesses that one issue of a type reserves (R154). -/
def accOf (d : Dev) (s : Nat) (y : Ltype) : Nat :=
  if y.kind = 1 then (match tblOf d s y.table with | some b => if b.wide then 4 else 2 | none => 2)
  else if y.kind = 2 then 6 else if y.kind = 3 then 8 else if y.kind = 5 then y.nmax else if y.kind = 6 then y.cports else 0

/-! Placement (R157). -/

/-- Blocks of one half of an EXACT table, and buckets of a half or of an LPM table. -/
def Tbl.nh (b : Tbl) : Nat := b.nblk / 2
def Tbl.nb (b : Tbl) : Nat := if b.kind = 1 then b.nh * (if b.wide then 512 else 1024) else b.nblk * 1024

/-- Units of a table: entries, elements or pairs. -/
def Tbl.size (b : Tbl) : Nat :=
  if b.kind = 1 then 8 * b.nb else if b.kind = 2 then 4 * b.nb else if b.kind = 3 then 2 * b.nb
  else if b.kind = 5 then b.nblk * 12288 else if b.kind = 6 then b.nblk * 6144 else 0

/-- Ways of a bucket, and bits of a unit. -/
def Tbl.ways (b : Tbl) : Nat := if b.kind = 3 then 2 else 4
def Tbl.uw (b : Tbl) : Nat := if b.kind = 5 then 64 else if b.kind = 6 then 128 else if b.wide then 384 else 192

/-- Block, row and lowest bit of unit i (R157). -/
def Tbl.place (b : Tbl) (i : Nat) : Nat × Nat × Nat :=
  if b.kind = 1 then
    let h := i / 4 / b.nb
    let k := i / 4 % b.nb
    let w := i % 4
    if b.wide then (b.base + h * b.nh + k % b.nh, 2 * (k / b.nh) + w / 2, 384 * (w % 2))
    else (b.base + h * b.nh + k % b.nh, k / b.nh, 192 * w)
  else if b.kind = 2 then (b.base + i / 4 % b.nblk, i / 4 / b.nblk, 192 * (i % 4))
  else if b.kind = 3 then (b.base + i / 2 % b.nblk, i / 2 / b.nblk, 384 * (i % 2))
  else if b.kind = 5 then (b.base + i / 12 % b.nblk, i / 12 / b.nblk, 64 * (i % 12))
  else (b.base + i / 6 % b.nblk, i / 6 / b.nblk, 128 * (i % 6))

/-- The unit that holds bit `lo` of a row of a block of the table: the inverse of `place`. -/
def Tbl.unitAt (b : Tbl) (blk row lo : Nat) : Nat :=
  let r := blk - b.base
  if b.kind = 1 then
    let h := r / b.nh
    if b.wide then (h * b.nb + (row / 2 * b.nh + r % b.nh)) * 4 + (row % 2 * 2 + lo / 384)
    else (h * b.nb + (row * b.nh + r % b.nh)) * 4 + lo / 192
  else if b.kind = 2 then (row * b.nblk + r) * 4 + lo / 192
  else if b.kind = 3 then (row * b.nblk + r) * 2 + lo / 384
  else if b.kind = 5 then (row * b.nblk + r) * 12 + lo / 64
  else (row * b.nblk + r) * 6 + lo / 128

/-! Rows and stash. -/

def getRow (d : Dev) (blk row : Nat) : Nat := spGet (fun _ => 0) d.orch.rows (blk * 1024 + row)
def putRow (d : Dev) (blk row v : Nat) : Dev := { d with orch := { d.orch with rows := spPut (fun _ => 0) d.orch.rows (blk * 1024 + row) v } }

/-- The index by which stash entry 0 is named (R157). -/
def stashBase : Nat := 0x1FFFF80

def getStash (d : Dev) (t s : Nat) : Nat := spGet (fun _ => 0) d.orch.stash (64 * t + s)
def putStash (d : Dev) (t s v : Nat) : Dev := { d with orch := { d.orch with stash := spPut (fun _ => 0) d.orch.stash (64 * t + s) v } }

/-- The 64-bit words of a unit: word w of a row of a block is 12 (1,024 block + row) + w, and a quarter of a row holds three. -/
def unitWords (b : Tbl) (i : Nat) : List Nat :=
  let (blk, row, lo) := b.place i
  (List.range (b.uw / 64)).map fun k => (blk * 1024 + row) * 12 + lo / 64 + k

/-- The quarters of rows that a unit occupies. -/
def quarters (b : Tbl) (i : Nat) : List Nat := ((unitWords b i).map (· / 3)).eraseDups

/-- Unit i of a table, or the stash entry that its index names. -/
def readUnit (d : Dev) (b : Tbl) (i : Nat) : Nat :=
  if stashBase ≤ i then getStash d b.t (i - stashBase)
  else
    let (blk, row, lo) := b.place i
    bits (getRow d blk row) lo b.uw

/-- Whether a word stands in an uncorrectable quarter and has not been written since (R189). -/
def wordBad (d : Dev) (w : Nat) : Bool := ecc d .table (w / 3) == 2 && spGet (fun _ => 0) d.orch.healed w == 0

/-- Whether a unit's read is uncorrectable. -/
def unitBad (d : Dev) (b : Tbl) (i : Nat) : Bool := decide (i < stashBase) && (unitWords b i).any (wordBad d)

/-- The fault instance of a block (R189). -/
def blkInst (blk : Nat) : Nat := blk / 8

def setHealed (d : Dev) (w v : Nat) : Dev := { d with orch := { d.orch with healed := spPut (fun _ => 0) d.orch.healed w v } }

/-- The check bits of a quarter after a write of some of its words: good again, but that of an uncorrectable quarter only the
words written are good until all are (R189). -/
def quarterWrite (src : Nat) (ws : List Nat) (d : Dev) (q : Nat) : Dev :=
  let own := (List.range 3).map fun k => 3 * q + k
  if ecc d .table q = 2 ∧ own.any (fun w => wordBad d w && !ws.contains w) = true then
    let j := injectAt d 0 src 0
    if j.1 = 0 then (own.filter ws.contains).foldl (fun d w => setHealed d w 1) j.2 else j.2
  else own.foldl (fun d w => setHealed d w 0) (eccWrite d .table q src 0)

/-- Write a unit: the row is replaced in one cycle with good check bits for the unit. -/
def writeUnit (d : Dev) (b : Tbl) (i v : Nat) : Dev :=
  if stashBase ≤ i then putStash d b.t (i - stashBase) v
  else
    let (blk, row, lo) := b.place i
    let d := putRow d blk row (setBits (getRow d blk row) lo b.uw v)
    (quarters b i).foldl (quarterWrite (256 * 4 + blkInst blk) (unitWords b i)) d

/-! Entries (R155). -/

/-- A meta field of an entry, given by its place in a narrow entry. -/
def eMeta (b : Tbl) (e lo w : Nat) : Nat := bits e (lo + if b.wide then 192 else 0) w
def eSet (b : Tbl) (e lo w v : Nat) : Nat := setBits e (lo + if b.wide then 192 else 0) w v
def eValid (b : Tbl) (e : Nat) : Bool := eMeta b e 191 1 == 1
def eType (b : Tbl) (e : Nat) : Nat := eMeta b e 188 3
def keyW (b : Tbl) : Nat := if b.wide then 288 else 96
def eKey (b : Tbl) (e : Nat) : Nat := bits e 64 (keyW b)
def eAction (e : Nat) : Nat := bits e 0 64

/-- A valid entry of an ETYPE with a key and an action, its other fields zero. -/
def mkEntry (b : Tbl) (ty key action : Nat) : Nat :=
  eSet b (eSet b (setBits (setBits 0 64 (keyW b) key) 0 64 action) 191 1 1) 188 3 ty

/-- The KEY of a table from a key of 512 bits: its leading KEYBITS bits on top, zeros below (R155, R158). -/
def keyFor (b : Tbl) (k : Nat) : Nat :=
  let w := keyW b
  let n := w - min w b.keybits
  k / 2 ^ (512 - w) / 2 ^ n * 2 ^ n

/-- A key of 512 bits from key words, word 0 on top (R94). -/
def keyOfWords (ws : List W64) : Nat := (List.range 8).foldl (fun a i => a * 2 ^ 64 + (ws.getD i 0).toNat) 0

/-! Hashes (R158). -/

/-- One bit, and one byte, of the CRC of a reflected polynomial. -/
def crcPBit (p c : Nat) : Nat := if c % 2 = 1 then (c / 2) ^^^ p else c / 2
def crcPByte (p c : Nat) (x : Byte) : Nat := (List.range 8).foldl (fun c _ => crcPBit p c) (c ^^^ x.toNat)

/-- The CRC-32 of IEEE 802.3 with a given initial register. -/
def crc32 (init : Nat) (bs : List Byte) : Nat := bs.foldl (crcPByte 0xEDB88320) init ^^^ 0xFFFFFFFF

/-- The hash key: ceil(KEYBITS / 8) bytes, most significant first. -/
def hashBytes (b : Tbl) (key : Nat) : List Byte :=
  let n := ceilDiv b.keybits 8
  beBytes n (key / 2 ^ (keyW b - 8 * n))

/-- The bucket of a key in half h; an LPM table has half 0 only. -/
def bucketOf (b : Tbl) (h key : Nat) : Nat :=
  (if h = 0 then crc32c b.seed1 (hashBytes b key) else crc32 b.seed2 (hashBytes b key)) % b.nb

/-- The entry indices of bucket k of half h. -/
def bucketIdx (b : Tbl) (h k : Nat) : List Nat := (List.range b.ways).map fun w => (h * b.nb + k) * b.ways + w

/-- The ways that can hold a key. -/
def homeIdx (b : Tbl) (key : Nat) : List Nat :=
  if b.kind = 1 then bucketIdx b 0 (bucketOf b 0 key) ++ bucketIdx b 1 (bucketOf b 1 key) else bucketIdx b 0 (bucketOf b 0 key)

/-! Hit bits (R184). -/

def hitBit (d : Dev) (t i : Nat) : Bool := spGet (fun _ => 0) d.orch.hits (t * 2 ^ 25 + i) == 1
def setHit (d : Dev) (t i v : Nat) : Dev := { d with orch := { d.orch with hits := spPut (fun _ => 0) d.orch.hits (t * 2 ^ 25 + i) v } }

/-- Now tick (R184): ticks of AGE_TICK ms since device time 0, modulo 4,096. -/
def nowTick (d : Dev) : Nat := d.time / (1000000 * rdF d Reg.AGE_CFG Reg.AGE_CFG_AGE_TICK) % 4096

/-- The device second modulo 256 (R181). -/
def nowSec (d : Dev) : Nat := d.time / 1000000000 % 256

/-! Exact match (R166 to R171). -/

/-- Whether a unit is readable and holds a key. -/
def unitHas (d : Dev) (b : Tbl) (key i : Nat) : Bool :=
  !unitBad d b i && eValid b (readUnit d b i) && eKey b (readUnit d b i) == key

/-- The stash entries of a table that are valid, lowest first. -/
def stashIdx (d : Dev) (b : Tbl) : List Nat :=
  d.orch.stash.filterMap fun e => if e.1 / 64 = b.t ∧ eValid b e.2 then some (stashBase + e.1 % 64) else none

/-- The first match of a key, in the order of R166. -/
def exactFind (d : Dev) (b : Tbl) (key : Nat) : Option Nat := (homeIdx b key ++ stashIdx d b).find? (unitHas d b key)

/-- The ways of a bucket that a lookup can match: none when a read of the bucket is uncorrectable (R167). -/
def readable (d : Dev) (b : Tbl) (ways : List Nat) : List Nat := if ways.any (unitBad d b) then [] else ways

/-- The first match of a lookup of an EXACT table (R166, R167). -/
def exactLookup (d : Dev) (b : Tbl) (key : Nat) : Option Nat :=
  (readable d b (bucketIdx b 0 (bucketOf b 0 key)) ++ readable d b (bucketIdx b 1 (bucketOf b 1 key)) ++ stashIdx d b).find?
    (unitHas d b key)

/-- Whether a bucket of the key has an uncorrectable entry. -/
def homeBad (d : Dev) (b : Tbl) (key : Nat) : Bool := (homeIdx b key).any (unitBad d b)

/-- The first way of a list that is invalid, and readable. -/
def freeWay (d : Dev) (b : Tbl) (l : List Nat) : Option Nat := l.find? fun i => !unitBad d b i && !eValid b (readUnit d b i)

/-- An entry moves, its hit bit with it. -/
def moveEntry (d : Dev) (b : Tbl) (src dst : Nat) : Dev :=
  let d := writeUnit d b dst (readUnit d b src)
  setHit (setHit d b.t dst (b2n (hitBit d b.t src))) b.t src 0

/-- The path search of R168: kicks left, kick number, half, bucket, and the path so far, last step first. -/
def kickPath (d : Dev) (b : Tbl) : Nat → Nat → Nat → Nat → List Nat → Option (List Nat × Nat)
  | 0, _, _, _, _ => none
  | n + 1, j, h, k, path =>
    let ws := bucketIdx b h k
    let isStatic := fun i => eType b (readUnit d b i) == 1
    let w := ws.getD (j % 4) 0
    match if isStatic w then ws.find? (fun i => !isStatic i) else some w with
    | none => none
    | some v =>
      let ah := 1 - h
      let ak := bucketOf b ah (eKey b (readUnit d b v))
      match freeWay d b (bucketIdx b ah ak) with
      | some f => some (v :: path, f)
      | none => kickPath d b n (j + 1) ah ak (v :: path)

/-- Whether the path search of R168 reads an uncorrectable entry before it ends. -/
def kickBad (d : Dev) (b : Tbl) : Nat → Nat → Nat → Nat → Bool
  | 0, _, _, _ => false
  | n + 1, j, h, k =>
    let ws := bucketIdx b h k
    let isStatic := fun i => eType b (readUnit d b i) == 1
    let w := ws.getD (j % 4) 0
    match if isStatic w then ws.find? (fun i => !isStatic i) else some w with
    | none => false
    | some v =>
      let ah := 1 - h
      let ak := bucketOf b ah (eKey b (readUnit d b v))
      let l := bucketIdx b ah ak
      l.any (unitBad d b) || ((freeWay d b l).isNone && kickBad d b n (j + 1) ah ak)

/-- Whether an insertion of an absent key would read an uncorrectable row: a bucket of the key, or one of its path. -/
def insertBad (d : Dev) (b : Tbl) (key : Nat) : Bool :=
  homeBad d b key || ((freeWay d b (homeIdx b key)).isNone && kickBad d b b.kicks 0 0 (bucketOf b 0 key))

/-- Move the entries of a path, last step first, each into the way just vacated; the way that is left free. -/
def runPath (b : Tbl) : List Nat → Nat → Dev → Dev × Nat
  | [], dst, d => (d, dst)
  | v :: t, dst, d => runPath b t v (moveEntry d b v dst)

def tblCnt (d : Dev) (t k n : Nat) : Dev := bumpN d (Reg.TABLE_CNT t k) n

/-- Place a new entry under R168 after the check for its key: the index it took, whether it went to the stash, and the moves. -/
def placeNew (d : Dev) (b : Tbl) (key e : Nat) (stash : Bool) : Option (Nat × Nat × Dev) :=
  let b0 := bucketIdx b 0 (bucketOf b 0 key)
  let b1 := bucketIdx b 1 (bucketOf b 1 key)
  match freeWay d b b0 with
  | some i => some (i, 0, writeUnit d b i e)
  | none =>
    match freeWay d b b1 with
    | some i => some (i, 0, writeUnit d b i e)
    | none =>
      match kickPath d b b.kicks 0 0 (bucketOf b 0 key) [] with
      | some (path, f) =>
        let (d, i) := runPath b path f d
        some (i, path.length, writeUnit d b i e)
      | none =>
        if stash then
          match firstIdx 64 fun s => !eValid b (getStash d b.t s) with
          | some s => some (stashBase + s, 0, putStash d b.t s e)
          | none => none
        else none

/-- Insert an entry whose key is absent (R168): the index, or none when it ends FULL, with the counters. -/
def cuckooInsert (d : Dev) (b : Tbl) (key e : Nat) : Option Nat × Dev :=
  match placeNew d b key e true with
  | some (i, n, d) => (some i, setHit (tblCnt (tblCnt d b.t 2 1) b.t 7 n) b.t i 0)
  | none => (none, tblCnt d b.t 3 1)

/-- The stash retry of R171 for a table. -/
def stashRetry (d : Dev) (b : Tbl) : Dev :=
  match stashIdx d b with
  | [] => d
  | i :: _ =>
    let e := readUnit d b i
    match placeNew d b (eKey b e) e false with
    | some (j, n, d) =>
      let d := setHit (setHit d b.t j (b2n (hitBit d b.t i))) b.t i 0
      tblCnt (putStash d b.t (i - stashBase) (eSet b e 191 1 0)) b.t 7 (n + 1)
    | none => d

/-- The next retry that is due for table t. -/
def stashRetryDue (t : Nat) (d : Dev) : Dev :=
  let n := spGet (fun _ => 0) d.orch.retry t
  if n ≠ 0 then
    let d := { d with orch := { d.orch with retry := spPut (fun _ => 0) d.orch.retry t (n - 1) } }
    match tbl d t with
    | some b => if b.kind = 1 then stashRetry d b else d
    | none => d
  else d

/-- Remove the entry at an index; a stash retry is due when the stash is not empty (R171). -/
def exactRemove (d : Dev) (b : Tbl) (i : Nat) : Dev :=
  let d := setHit (writeUnit d b i (eSet b (readUnit d b i) 191 1 0)) b.t i 0
  if stashIdx d b = [] then d
  else { d with orch := { d.orch with retry := spPut (fun _ => 0) d.orch.retry b.t (spGet (fun _ => 0) d.orch.retry b.t + 1) } }

/-! Prefix tables (R159, R172 to R177, R533). -/

/-- Address bits of an LPM table, and the places of a key's fields (R159). -/
def famBits (b : Tbl) : Nat := if b.kind = 2 then 32 else 128
def kHold (b : Tbl) (k : Nat) : Nat := if b.kind = 2 then bits k 88 8 else bits k 280 8
def kLen (b : Tbl) (k : Nat) : Nat := if b.kind = 2 then bits k 80 8 else bits k 272 8
def kPfx (b : Tbl) (k : Nat) : Nat := if b.kind = 2 then bits k 48 32 else bits k 144 128
def lpmKey (b : Tbl) (h len pfx : Nat) : Nat :=
  if b.kind = 2 then h * 2 ^ 88 + len * 2 ^ 80 + pfx * 2 ^ 48 else h * 2 ^ 280 + len * 2 ^ 272 + pfx * 2 ^ 144

/-- An address cut to its first m bits. -/
def cutTo (b : Tbl) (m x : Nat) : Nat := x / 2 ^ (famBits b - m) * 2 ^ (famBits b - m)

/-- Whether R159 lets a key be stored. -/
def lpmKeyOk (b : Tbl) (k : Nat) : Bool := decide (kLen b k ≤ famBits b) && cutTo b (kLen b k) (kPfx b k) == kPfx b k

def filterSel (d : Dev) (t h : Nat) : Nat := spGet (fun _ => 0) d.orch.sel (256 * t + h)
def filterOf (d : Dev) (t h : Nat) : Nat := spGet (fun _ => 0) d.orch.filters ((256 * t + h) * 2 + filterSel d t h)

/-- The filter takes a new value in the copy not named by SEL, and SEL turns to it (R176). -/
def filterFlip (d : Dev) (t h v : Nat) : Dev :=
  let s := 1 - filterSel d t h
  { d with orch := { d.orch with filters := spPut (fun _ => 0) d.orch.filters ((256 * t + h) * 2 + s) v,
                                 sel := spPut (fun _ => 0) d.orch.sel (256 * t + h) s } }

/-- The lengths that a filter lists, rising. -/
def lengthsOf (v : Nat) : List Nat := (List.range 129).filter (bit v)

/-- The valid entry at a holding, length and prefix; an uncorrectable one is not found. -/
def lpmFind (d : Dev) (b : Tbl) (h len pfx : Nat) : Option Nat :=
  let k := lpmKey b h len pfx
  (homeIdx b k).find? (unitHas d b k)

/-- What a search gives: the index whose ACTION is the result, and whether a probe was uncorrectable (R173). -/
structure LpmRes where
  best : Option Nat
  err : Bool
  deriving DecidableEq, Repr

/-- The binary search of R173 over positions lo to hi - 1 of the list. -/
def lpmLoop (d : Dev) (b : Tbl) (h x : Nat) (p : List Nat) : Nat → Nat → Nat → LpmRes → LpmRes
  | 0, _, _, r => r
  | n + 1, lo, hi, r =>
    if hi ≤ lo then r else
    let mid := (lo + hi - 1) / 2
    let len := p.getD mid 0
    let k := lpmKey b h len (cutTo b len x)
    let r := if (homeIdx b k).any (unitBad d b) then { r with err := true } else r
    match lpmFind d b h len (cutTo b len x) with
    | some i =>
      let e := readUnit d b i
      let take := eType b e = 2 ∨ eType b e = 4 ∨ eMeta b e 171 1 = 1
      lpmLoop d b h x p n (mid + 1) hi (if take then { r with best := some i } else r)
    | none => lpmLoop d b h x p n lo mid r

def lpmSearch (d : Dev) (b : Tbl) (h x : Nat) : LpmRes :=
  let p := lengthsOf (filterOf d b.t h)
  lpmLoop d b h x p 9 0 p.length ⟨none, false⟩

/-- The lengths shorter than L that the search over a list visits on its way to L (R174). -/
def markerLens (p : List Nat) (l : Nat) : Nat → Nat → Nat → List Nat
  | 0, _, _ => []
  | n + 1, lo, hi =>
    if hi ≤ lo then [] else
    let mid := (lo + hi - 1) / 2
    let m := p.getD mid 0
    if m = l then [] else if m < l then m :: markerLens p l n (mid + 1) hi else markerLens p l n lo mid

/-- The valid entries of a holding in an LPM table: index and entry. -/
def lpmEntries (d : Dev) (b : Tbl) (h : Nat) : List (Nat × Nat) :=
  (d.orch.rows.map fun r =>
    let blk := r.1 / 1024
    if b.base ≤ blk ∧ blk < b.base + b.nblk then
      (List.range b.ways).filterMap fun w =>
        let i := b.unitAt blk (r.1 % 1024) (b.uw * w)
        let e := bits r.2 (b.uw * w) b.uw
        if eValid b e ∧ kHold b (eKey b e) = h then some (i, e) else none
    else []).flatten

/-- A route: length, prefix and action. -/
abbrev Route := Nat × Nat × Nat

/-- The real prefixes of a holding. -/
def routesOf (d : Dev) (b : Tbl) (h : Nat) : List Route :=
  (lpmEntries d b h).filterMap fun e =>
    if eType b e.2 = 2 ∨ eType b e.2 = 4 then some (kLen b (eKey b e.2), kPfx b (eKey b e.2), eAction e.2) else none

/-- The places, with repeats, at which the routes need an entry under a list (R174). -/
def needed (b : Tbl) (routes : List Route) (p : List Nat) : List (Nat × Nat) :=
  (routes.map fun r => (markerLens p r.1 9 0 p.length).map fun m => (m, cutTo b m r.2.1)).flatten

/-- How many routes need an entry at a place: its REFS. -/
def refsAt (need : List (Nat × Nat)) (m x : Nat) : Nat := min 65535 (need.count (m, x))

/-- The longest real prefix that covers a place (R174). -/
def bmpOf (b : Tbl) (routes : List Route) (m x : Nat) : Option Route :=
  routes.foldl (fun a r => if r.1 ≤ m ∧ cutTo b r.1 x = r.2.1 then
    (match a with | some q => if q.1 < r.1 then some r else a | none => some r) else a) none

/-- The entry that a place holds under a route set: none when it needs no entry. A marker that no prefix covers has an ACTION
that the spec does not state: a free value. -/
def lpmEntryFor (d : Dev) (b : Tbl) (h : Nat) (routes : List Route) (need : List (Nat × Nat)) (m x : Nat) : Option Nat × Dev :=
  let c := refsAt need m x
  let k := lpmKey b h m x
  match routes.find? fun r => r.1 = m ∧ r.2.1 = x with
  | some r =>
    if c = 0 then (some (mkEntry b 2 k r.2.2), d) else (some (eSet b (eSet b (mkEntry b 4 k r.2.2) 172 16 c) 171 1 1), d)
  | none =>
    if c = 0 then (none, d)
    else match bmpOf b routes m x with
      | some r => (some (eSet b (eSet b (mkEntry b 3 k r.2.2) 172 16 c) 171 1 1), d)
      | none =>
        let (v, d) := takeFree d 64
        (some (eSet b (mkEntry b 3 k v.toNat) 172 16 c), d)

/-- Add the entry of a place when the table has none there; none when its bucket is full (R533). -/
def lpmAdd (b : Tbl) (h : Nat) (routes : List Route) (need : List (Nat × Nat)) (d : Option Dev) (q : Nat × Nat) : Option Dev :=
  match d with
  | none => none
  | some d =>
    match lpmFind d b h q.1 q.2 with
    | some _ => some d
    | none =>
      match lpmEntryFor d b h routes need q.1 q.2 with
      | (none, d) => some d
      | (some e, d) =>
        match freeWay d b (homeIdx b (lpmKey b h q.1 q.2)) with
        | some i => some (writeUnit d b i e)
        | none => none

/-- Whether a change of the route of a length and prefix may change a marker's BMP (R175 step 3): it covers the marker, or stands
at its place. A rebuild of the markers concerns every one. -/
def concerns (b : Tbl) (own : Option (Nat × Nat)) (m x : Nat) : Bool :=
  match own with
  | some (l, y) => decide (l ≤ m) && cutTo b l x == y
  | none => true

/-- What an entry of a holding becomes under a changed route set: its kind and REFS as the set asks, its route, and, where the
change concerns it, its BMP; 0 when it goes. -/
def lpmNewEntry (b : Tbl) (h : Nat) (routes : List Route) (need : List (Nat × Nat)) (own : Option (Nat × Nat)) (d : Dev) (e : Nat) :
    Nat × Dev :=
  let m := kLen b (eKey b e)
  let x := kPfx b (eKey b e)
  let c := refsAt need m x
  match routes.find? fun r => r.1 = m ∧ r.2.1 = x with
  | some r =>
    if c = 0 then ((if eType b e = 2 then setBits e 0 64 r.2.2 else mkEntry b 2 (lpmKey b h m x) r.2.2), d)
    else (eSet b (eSet b (mkEntry b 4 (lpmKey b h m x) r.2.2) 172 16 c) 171 1 1, d)
  | none =>
    if c = 0 then (0, d)
    else if eType b e = 3 ∧ (¬ concerns b own m x ∨ (bmpOf b routes m x = none ∧ eMeta b e 171 1 = 0)) then (eSet b e 172 16 c, d)
    else match lpmEntryFor d b h routes need m x with
      | (some n, d) => (n, d)
      | (none, d) => (0, d)

/-- Bring the entries of a holding to what its route set asks for, with one write of each that changes. -/
def lpmSettle (b : Tbl) (h : Nat) (routes : List Route) (need : List (Nat × Nat)) (own : Option (Nat × Nat)) (d : Dev) : Dev :=
  (lpmEntries d b h).foldl (fun d ie =>
    let (e, d) := lpmNewEntry b h routes need own d ie.2
    if e = ie.2 then d else writeUnit d b ie.1 e) d

/-- Change the route set of a holding to `routes` with list `v` (R175, R176, R533): markers first, then the routes, SEL when
the list changes, then the entries no longer needed; none when a bucket has no room. `own` is the length and prefix of the route
that changes. -/
def lpmChange (d : Dev) (b : Tbl) (h : Nat) (routes : List Route) (v : Nat) (own : Option (Nat × Nat)) : Option Dev :=
  let p := lengthsOf v
  let need := needed b routes p
  match (need ++ routes.map fun r => (r.1, r.2.1)).foldl (lpmAdd b h routes need) (some d) with
  | none => none
  | some d =>
    let d := if v = filterOf d b.t h then d else filterFlip d b.t h v
    some (lpmSettle b h routes need own d)

/-- The filter that a route set asks for. -/
def filterFor (routes : List Route) : Nat := routes.foldl (fun v r => setBits v r.1 1 1) 0

/-- Whether a row of a table is uncorrectable. -/
def tblBad (d : Dev) (b : Tbl) : Bool :=
  d.upset.any fun e => e.1 / 2 ^ 48 == ramNo .table && e.2 == 2 &&
    decide (b.base ≤ e.1 % 2 ^ 48 / 4096 ∧ e.1 % 2 ^ 48 / 4096 < b.base + b.nblk)

/-! ARRAY and COUNT (R99, R103, R154). -/

/-- An element of an ARRAY table. -/
def arrayElem (d : Dev) (b : Tbl) (i : Nat) : W64 × Bool := (BitVec.ofNat 64 (readUnit d b i), unitBad d b i)

/-- An update of a counter pair; an uncorrectable pair is written as the update alone (R189). -/
def countPair (d : Dev) (b : Tbl) (i pk by_ : Nat) : Dev :=
  let v := if unitBad d b i then 0 else readUnit d b i
  writeUnit d b i ((v % 2 ^ 64 + pk) % 2 ^ 64 + (v / 2 ^ 64 + by_) % 2 ^ 64 * 2 ^ 64)

/-! Notices (R183). -/

/-- Post a notice about an entry. -/
def orchNotice (d : Dev) (kind t index seq : Nat) (b : Tbl) (key old action : Nat) : Dev :=
  let hi := key / 2 ^ (keyW b - 64)
  let lo := key / 2 ^ (keyW b - 96) % 2 ^ 32
  let w0 := 2 ^ 63 + kind * 2 ^ 59 + t * 2 ^ 53 + index % 2 ^ 25 * 2 ^ 25 + seq % 2 ^ 25
  let (d, ok) := evtPost d 0 (BitVec.ofNat 64 w0) (BitVec.ofNat 64 hi) (BitVec.ofNat 64 (lo * 2 ^ 32 + old % 2 ^ 32)) (BitVec.ofNat 64 action)
  if ok then d else bump d (Reg.ORCHARD_DEV_CNT 1)

/-! Profiles (R160 to R163). -/

def isPow2 (n : Nat) : Bool := (List.range 12).any fun k => n == 2 ^ k

def slotTables (d : Dev) (s : Nat) : List Tbl := (List.range 64).filterMap (tblOf d s)
def slotTypes (d : Dev) (s : Nat) : List Ltype := (List.range 64).filterMap (typeOf d s)

/-- CALENDAR_ID of a slot (R161). -/
def calendarId (d : Dev) (s : Nat) : Nat :=
  if slotTypes d s = [] then 0
  else crc32c 0xFFFFFFFF ((List.range 64).map fun y =>
    leBytes 8 (rd d (Reg.TYPE_DESC s y 0)).toNat ++ leBytes 8 (rd d (Reg.TYPE_DESC s y 1)).toNat).flatten

/-- Accesses per pass that the calendar of a slot reserves for types that satisfy p. -/
def reserved (d : Dev) (s : Nat) (p : Ltype → Bool) : Nat :=
  (slotTypes d s).foldl (fun n y => if p y then n + accOf d s y * popCount 24 y.rowmask else n) 0

def tablesOverlap (x y : Tbl) : Bool := decide (x.t < y.t ∧ x.base < y.base + y.nblk ∧ y.base < x.base + x.nblk)

/-- Smallest D of a kind that has one (R162 check 5). -/
def minDist (k : Nat) : Nat := if k = 2 then 6 else if k = 3 then 8 else if k = 4 then 5 else 4

/-- Whether a holding is open (R132). -/
def holdingOpen (d : Dev) (h : Nat) : Bool := bit (rd d (Reg.HOLDING_OPEN (h / 64))).toNat (h % 64)
def anyHoldingOpen (d : Dev) : Bool := (List.range 4).any fun i => rd d (Reg.HOLDING_OPEN i) ≠ 0

/-- Whether any furrow holds a packet. -/
def anyFurrowPkt (d : Dev) : Bool := d.furs.any fun e => !(furPkts e.2).isEmpty || !e.2.entryQ.isEmpty

/-- The first check of R162 that a slot fails, 0 when it passes them all. -/
def profileCheck (d : Dev) (s : Nat) : Nat :=
  let ts := slotTables d s
  let ys := slotTypes d s
  let c1 := ts.any fun x => decide (2048 < x.base + x.nblk) || ts.any (tablesOverlap x)
  let c2 := ts.any fun x => (x.kind == 1 && (x.nblk % 2 == 1 || !isPow2 (x.nblk / 2))) || ((x.kind == 2 || x.kind == 3) && !isPow2 x.nblk)
  let c3 := ts.any fun x =>
    (x.kind == 1 && (x.keybits == 0 || decide (keyW x < x.keybits))) || (x.kind == 2 && (x.keybits ≠ 48 || x.wide))
      || (x.kind == 3 && (x.keybits ≠ 144 || !x.wide))
  let c4 := ys.any fun y => y.kind == 0 || (y.kind ≠ 4 && y.kind ≠ 7 &&
    (match tblOf d s y.table with | some x => x.kind ≠ y.kind | none => true))
  let c5 := ys.any fun y => if y.kind = 6 ∨ y.kind = 7 then y.dist ≠ 0 else decide (y.dist < minDist y.kind ∨ 23 < y.dist)
  let c6 := decide (15 < reserved d s fun _ => true)
  let c7 := ts.any fun x => decide (x.nblk < 128 * reserved d s fun y => y.table == x.t && y.kind == x.kind)
  let c8 := ts.any (fun x => (x.learn || x.refresh) && x.kind ≠ 1)
    || decide (4194304 < (ts.filter fun x => x.refresh).foldl (fun n x => n + x.size) 0)
  let c9 := ys.any fun y => (y.kind == 5 || y.kind == 6) &&
    (match tblOf d s y.table with | some x => decide (x.size < y.size) | none => false)
  let c10 := calendarId d s ≠ calendarId d (activeSlot d) && (anyHoldingOpen d || anyFurrowPkt d)
  (([c1, c2, c3, c4, c5, c6, c7, c8, c9, c10].findIdx? id).map (· + 1)).getD 0

def profileReject (d : Dev) : Dev := bumpSat d Reg.PROFILE_STATUS Reg.PROFILE_STATUS_REJECTS 1

/-- A write of PROFILE_SEL (R162). -/
def profileSelect (d : Dev) (slot : Nat) : Dev :=
  if flagF d Reg.PROFILE_STATUS Reg.PROFILE_STATUS_PENDING then profileReject d
  else if slot = activeSlot d then d
  else
    let e := profileCheck d slot
    if e = 0 then wrF d Reg.PROFILE_STATUS Reg.PROFILE_STATUS_PENDING 1
    else profileReject (wrF d Reg.PROFILE_STATUS Reg.PROFILE_STATUS_ERROR e)

/-- Whether a table is the same in both slots (R163). -/
def sameTable (d : Dev) (t : Nat) : Bool :=
  rd d (Reg.TABLE_DESC 0 t) == rd d (Reg.TABLE_DESC 1 t) && rd d (Reg.TABLE_SEED 0 t) == rd d (Reg.TABLE_SEED 1 t)

/-- The stores after the change to slot s: the blocks of its new and changed tables are zero, and a table that changes or goes
loses its stash, hit bits and filters. -/
def applyTables (d : Dev) (s : Nat) : Dev :=
  let new := (slotTables d s).filter fun x => !sameTable d x.t
  let gone := fun t => !sameTable d t
  let o := d.orch
  { d with
    orch := { o with
      rows := o.rows.filter fun r => !new.any fun x => decide (x.base ≤ r.1 / 1024 ∧ r.1 / 1024 < x.base + x.nblk)
      stash := o.stash.filter fun e => !gone (e.1 / 64)
      hits := o.hits.filter fun e => !gone (e.1 / 2 ^ 25)
      filters := o.filters.filter fun e => !gone (e.1 / 512)
      sel := o.sel.filter fun e => !gone (e.1 / 256)
      healed := o.healed.filter fun e => !new.any fun x => decide (x.base ≤ e.1 / 12288 ∧ e.1 / 12288 < x.base + x.nblk)
      retry := o.retry.filter fun e => !gone e.1
      rebuild := o.rebuild.filter fun e => !gone (e.1 / 256) }
    upset := d.upset.filter fun e => !(e.1 / 2 ^ 48 == ramNo .table &&
      new.any fun x => decide (x.base ≤ e.1 % 2 ^ 48 / 4096 ∧ e.1 % 2 ^ 48 / 4096 < x.base + x.nblk)) }

/-- A write to a descriptor of slot s is refused (R160, R162). -/
def descLocked (d : Dev) (s : Nat) : Bool := s == activeSlot d || flagF d Reg.PROFILE_STATUS Reg.PROFILE_STATUS_PENDING

/-! The command engine (R187, R188). -/

/-- The key in ORCHARD_KEY. -/
def orchKey (d : Dev) : Nat := keyOfWords ((List.range 8).map fun i => rd d (Reg.ORCHARD_KEY i))

/-- An entry with its reserved bits zero (R155): between AGE and KEY, and from BMP_VALID on in an entry of ETYPE 2 to 4. -/
def entMask (b : Tbl) (e : Nat) : Nat :=
  if b.kind = 1 then eSet b e 160 3 0
  else if b.kind = 2 ∨ b.kind = 3 then eSet b e 160 (if eType b e < 2 then 3 else 11) 0
  else e

/-- The entry in ORCHARD_DATA. -/
def orchData (d : Dev) (b : Tbl) : Nat :=
  (List.range 6).foldl (fun v i => v + (rd d (Reg.ORCHARD_DATA i)).toNat * 2 ^ (64 * i)) 0 % 2 ^ b.uw

/-- ORCHARD_DATA shows a unit. -/
def showUnit (d : Dev) (b : Tbl) (v : Nat) : Dev :=
  (List.range (b.uw / 64)).foldl (fun d i => wr d (Reg.ORCHARD_DATA i) (BitVec.ofNat 64 (bits v (64 * i) 64))) d

/-- The end of a command: its RESULT and, where it names an entry, its INDEX. -/
def orchEnd (d : Dev) (result : Nat) (index : Option Nat) : Dev :=
  let d := wrF d Reg.ORCHARD_STATUS Reg.ORCHARD_STATUS_RESULT result
  match index with
  | some i => wrF d Reg.ORCHARD_STATUS Reg.ORCHARD_STATUS_INDEX i
  | none => d

/-- ORCHARD_STATUS.BUSY (R187, R351): a host command is in progress, or rewrites of member sets run, which use the engine between host
commands. -/
def orchardBusy (d : Dev) : Bool := flagF d Reg.ORCHARD_STATUS Reg.ORCHARD_STATUS_BUSY || !d.strip.rewrite.isEmpty

/-- A command begins: BUSY until its completion, with the table that it names; none when it ends at once for want of a table
or for a pending profile. -/
def orchBegin (d : Dev) (v : W64) : Dev × Option Tbl :=
  let d := wrF (wr d Reg.ORCHARD_CMD v) Reg.ORCHARD_STATUS Reg.ORCHARD_STATUS_BUSY 1
  if flagF d Reg.PROFILE_STATUS Reg.PROFILE_STATUS_PENDING then (orchEnd d 8 none, none)
  else match tbl d (getF v Reg.ORCHARD_CMD_TABLE) with
    | none => (orchEnd d 4 none, none)
    | some b => if b.kind = 1 ∨ b.kind = 2 ∨ b.kind = 3 ∨ b.kind = 5 ∨ b.kind = 6 then (d, some b) else (orchEnd d 4 none, none)

/-- The index that READ and WRITE name, or the RESULT that refuses it. -/
def orchIndex (b : Tbl) (v : W64) : Nat ⊕ Nat :=
  let i := getF v Reg.ORCHARD_CMD_INDEX
  if getF v Reg.ORCHARD_CMD_STASH = 1 then
    if b.kind ≠ 1 then .inr 4 else if 64 ≤ i then .inr 5 else .inl (stashBase + i)
  else if b.size ≤ i then .inr 5 else .inl i

def orchRead (v : W64) (d : Dev) : Dev :=
  match orchBegin d v with
  | (d, none) => d
  | (d, some b) =>
    match orchIndex b v with
    | .inr r => orchEnd d r none
    | .inl i => if unitBad d b i then orchEnd d 7 none else orchEnd (showUnit d b (readUnit d b i)) 0 (some i)

/-- Whether WRITE may store an entry (R156, R159). -/
def entryOk (b : Tbl) (e : Nat) : Bool :=
  if b.kind = 1 then decide (eType b e ≤ 1)
  else if b.kind = 2 ∨ b.kind = 3 then decide (2 ≤ eType b e ∧ eType b e ≤ 4) && lpmKeyOk b (eKey b e)
  else true

def orchWrite (v : W64) (d : Dev) : Dev :=
  match orchBegin d v with
  | (d, none) => d
  | (d, some b) =>
    match orchIndex b v with
    | .inr r => orchEnd d r none
    | .inl i =>
      let e := orchData d b
      if entryOk b e then orchEnd (setHit (writeUnit d b i (entMask b e)) b.t i 0) 0 (some i) else orchEnd d 6 none

/-- INSERT of an LPM key with an action (R175, R176). -/
def lpmInsert (d : Dev) (b : Tbl) (key action : Nat) : Dev :=
  if ¬ lpmKeyOk b key then orchEnd d 6 none
  else if tblBad d b then orchEnd d 7 none
  else
    let h := kHold b key
    let l := kLen b key
    let x := kPfx b key
    let old := routesOf d b h
    let was := old.any fun r => r.1 = l ∧ r.2.1 = x
    let routes := (old.filter fun r => ¬ (r.1 = l ∧ r.2.1 = x)) ++ [(l, x, action)]
    match lpmChange d b h routes (setBits (filterOf d b.t h) l 1 1) (some (l, x)) with
    | none => orchEnd d 3 none
    | some d =>
      match lpmFind d b h l x with
      | none => orchEnd d 3 none
      | some i =>
        let d := if was then d else tblCnt d b.t 2 1
        orchEnd (showUnit d b (readUnit d b i)) (if was then 2 else 0) (some i)

/-- DELETE of an LPM key. -/
def lpmDelete (d : Dev) (b : Tbl) (key : Nat) : Dev :=
  if ¬ lpmKeyOk b key then orchEnd d 6 none
  else if tblBad d b then orchEnd d 7 none
  else
    let h := kHold b key
    let l := kLen b key
    let x := kPfx b key
    let old := routesOf d b h
    match lpmFind d b h l x with
    | none => orchEnd d 1 none
    | some i =>
      let e := readUnit d b i
      if eType b e = 3 then orchEnd d 1 none
      else
        let routes := old.filter fun r => ¬ (r.1 = l ∧ r.2.1 = x)
        let v := if routes.any fun r => r.1 = l then filterOf d b.t h else setBits (filterOf d b.t h) l 1 0
        match lpmChange d b h routes v (some (l, x)) with
        | none => orchEnd d 3 none
        | some d => orchEnd (showUnit d b e) 0 (some i)

def exactInsert (d : Dev) (b : Tbl) (key data : Nat) : Dev :=
  let ty := eType b data
  if 1 < ty then orchEnd d 6 none
  else if homeBad d b key then orchEnd d 7 none
  else match exactFind d b key with
    | some i =>
      let e := eSet b (setBits (readUnit d b i) 0 64 (eAction data)) 188 3 ty
      orchEnd (showUnit (writeUnit d b i e) b e) 2 (some i)
    | none =>
      if insertBad d b key then orchEnd d 7 none else
      let e := eSet b (mkEntry b ty key (eAction data)) 163 12 (nowTick d)
      match cuckooInsert d b key e with
      | (some i, d) => orchEnd (showUnit d b e) 0 (some i)
      | (none, d) => orchEnd d 3 none

def orchInsert (v : W64) (d : Dev) : Dev :=
  match orchBegin d v with
  | (d, none) => d
  | (d, some b) =>
    let key := keyFor b (orchKey d)
    if b.kind = 1 then exactInsert d b key (orchData d b)
    else if b.kind = 2 ∨ b.kind = 3 then lpmInsert d b key (rd d (Reg.ORCHARD_DATA 0)).toNat
    else orchEnd d 4 none

def orchDelete (v : W64) (d : Dev) : Dev :=
  match orchBegin d v with
  | (d, none) => d
  | (d, some b) =>
    let key := keyFor b (orchKey d)
    if b.kind = 1 then
      if homeBad d b key then orchEnd d 7 none
      else match exactFind d b key with
        | some i => orchEnd (exactRemove (showUnit d b (readUnit d b i)) b i) 0 (some i)
        | none => orchEnd d 1 none
    else if b.kind = 2 ∨ b.kind = 3 then lpmDelete d b key
    else orchEnd d 4 none

def orchSearch (v : W64) (d : Dev) : Dev :=
  match orchBegin d v with
  | (d, none) => d
  | (d, some b) =>
    let key := keyFor b (orchKey d)
    let found : Option Nat × Bool :=
      if b.kind = 1 then (exactLookup d b key, homeBad d b key)
      else
        let r := lpmSearch d b (kHold b key) (kPfx b key)
        (if r.err then none else r.best, r.err)
    if b.kind = 5 ∨ b.kind = 6 then orchEnd d 4 none
    else match found with
      | (some i, _) => orchEnd (showUnit d b (readUnit d b i)) 0 (some i)
      | (none, bad) => orchEnd d (if bad then 7 else 1) none

/-! The gleaner (R186, R189). -/

/-- The table of the active slot that a block belongs to. -/
def tblOfBlock (d : Dev) (blk : Nat) : Option Tbl :=
  (slotTables d (activeSlot d)).find? fun x => decide (x.base ≤ blk ∧ blk < x.base + x.nblk)

/-- A visit to an entry keeps an old stamp at 2,048 ticks (R186). -/
def gleanAge (d : Dev) (b : Tbl) (i : Nat) : Dev :=
  let e := readUnit d b i
  if eValid b e ∧ eType b e = 0 ∧ 2048 ≤ (nowTick d + 4096 - eMeta b e 163 12) % 4096 then
    writeUnit d b i (eSet b e 163 12 ((nowTick d + 2048) % 4096))
  else d

/-- The units of a row. -/
def rowUnits (b : Tbl) (blk row : Nat) : List Nat :=
  (List.range (768 / b.uw)).map fun k => b.unitAt blk row (b.uw * k)

/-- The gleaner settles one quarter of a row. -/
def gleanQuarter (blk row : Nat) (d : Dev) (q : Nat) : Dev :=
  let key := (blk * 1024 + row) * 4 + q
  if ecc d .table key = 1 then
    raise (bump (setEcc d .table key 0) (Reg.ORCHARD_DEV_CNT 2)) Fk.gleanCe (blkInst blk) 0 8 6
  else if ecc d .table key = 2 then
    let d := wrFs d Reg.GLEAN_STATUS [(Reg.GLEAN_STATUS_BLOCK, blk), (Reg.GLEAN_STATUS_ROW, row),
      (Reg.GLEAN_STATUS_QUARTER, q), (Reg.GLEAN_STATUS_LOST, 1)]
    let d := raise (bump d (Reg.ORCHARD_DEV_CNT 3)) Fk.gleanUe (blkInst blk) 0 8 6
    match tblOfBlock d blk with
    | none => d
    | some b =>
      if b.kind = 1 ∨ b.kind = 2 ∨ b.kind = 3 then
        let i := b.unitAt blk row (192 * q)
        let e := readUnit d b i
        let d := setHit (writeUnit d b i 0) b.t i 0
        let d := if b.kind ≠ 1 ∧ (eType b e = 3 ∨ eType b e = 4) then
            { d with orch := { d.orch with rebuild := spPut (fun _ => 0) d.orch.rebuild (256 * b.t + kHold b (eKey b e)) 1 } }
          else d
        orchNotice d 6 b.t i 0 b (eKey b e) 0 (eAction e)
      else d
  else d

/-- One row of a gleaner pass. -/
def gleanRow (blk row : Nat) (d : Dev) : Dev :=
  let d := (List.range 4).foldl (gleanQuarter blk row) d
  let d := match tblOfBlock d blk with
    | some b =>
      if b.kind = 1 then
        let d := (rowUnits b blk row).foldl (fun d i => gleanAge d b i) d
        if blk + 1 = b.base + b.nblk ∧ row = 1023 then (stashIdx d b).foldl (fun d i => gleanAge d b i) d else d
      else d
    | none => d
  if blk = 2047 ∧ row = 1023 then bumpSat d Reg.GLEAN_STATUS Reg.GLEAN_STATUS_PASSES 1 else d

/-- The rebuild of the markers of a table and holding after a loss (R189, R176). -/
def markerRebuild (t h : Nat) (d : Dev) : Dev :=
  if spGet (fun _ => 0) d.orch.rebuild (256 * t + h) = 1 then
    let d' := { d with orch := { d.orch with rebuild := spPut (fun _ => 0) d.orch.rebuild (256 * t + h) 0 } }
    match tbl d t with
    | none => d'
    | some b =>
      if b.kind = 2 ∨ b.kind = 3 then
        let routes := routesOf d' b h
        (lpmChange d' b h routes (filterFor routes) none).getD d'
      else d'
  else d

end Sys2Proof.Machine
end

