-- ==== Sys2Proof/Machine/Microops.lean ====
section
/-!
DEFINITION. The parts of a nanoword, each as one operation on a packet in a row (R82 to R115), and the nanoword as a whole in the
order of R85 and R92.
-/
namespace Sys2Proof.Machine

/-! Shared. -/

/-- The device with a change to the packet in a slot, when there is one. -/
def onPkt (l : PktRef) (g : Pkt → Pkt) (d : Dev) : Dev :=
  match getPkt d l with
  | some p => putPkt d l (g p)
  | none => d

/-- The row in which a packet may execute, when it stands in stage F of one and does not ride it (R32). -/
def rowOf (p : Pkt) : Option Nat := match p.loc with | .row r _ => if p.ride.isSome then none else some r | _ => none

/-- The landing before stage F of a row of the packet's pass. -/
def dueAt (p : Pkt) (r : Nat) : Option (Nat × Nat × Nat) := some (pcGet p Pc.pass, p.parkSeq, r)

/-- The result distance of a lookup type; 4 for a type that is absent or has none (R95). -/
def distOf (d : Dev) (ty : Nat) : Nat := match ltype d ty with | some y => if y.dist = 0 then 4 else y.dist | none => 4

/-- One more flight for the packet in a slot. -/
def addFlight (d : Dev) (l : PktRef) (gen : Nat) (w : Flight) (due : Option (Nat × Nat × Nat)) : Dev :=
  let x := getFur d l.a l.f
  putFur d l.a l.f { x with inFlight := x.inFlight ++ [⟨l.slot, gen, w, due⟩] }

/-- An operation on the packet in a slot while it stands in a row. -/
def inRow (l : PktRef) (d : Dev) (g : Pkt → Nat → Dev) : Dev :=
  match getPkt d l with
  | none => d
  | some p => match rowOf p with | some r => g p r | none => d

def opCnt (d : Dev) (l : PktRef) (k n : Nat) : Dev := bumpN d (Reg.FURROW_OPCNT l.a l.f k) n

/-! Extractors, ALUs, metadata write, flags and disposition. -/

/-- X0 to X3 latch their outputs (R86). -/
def pkExtract (n : Nat) (g : XGroup) (p : Pkt) : Pkt :=
  let v := extract p g
  if n = 0 then { p with x0 := v } else if n = 1 then { p with x1 := v } else if n = 2 then { p with x2 := v } else { p with x3 := v }

/-- Bits of a context word that a rotation may write (R42, R44). -/
def writable (w : Nat) : Nat :=
  if w = 0 then 0
  else if w = 1 then 0x1FE00000FFFFFFFF
  else if w = 2 then 0x003FFFFFFFFFFFFF
  else if w = 3 then 0x000FFC000001FFFF
  else if w < 12 then 0
  else 0xFFFFFFFFFFFFFFFF

/-- The source of the metadata write port (R91); `k` is K of ALU 0. -/
def mwSource (p : Pkt) (s k : Nat) : Nat :=
  if s = 0 then p.y0.toNat else if s = 1 then p.y1.toNat else if s < 6 then (xOut p (s - 2)).toNat else k

/-- The metadata write (R91): bits above bit 63 are not written, and read-only bits keep their values. -/
def pkMw (g : MwGroup) (k : Nat) (p : Pkt) : Pkt :=
  let w := min (g.width + 1) (64 - g.lsb)
  let old := (ctxWord p g.word).toNat
  let new := setBits old g.lsb w (mwSource p g.src k)
  let m := writable g.word
  pcSet p (ctxFld g.word 0 64) ((old &&& (2 ^ 64 - 1 - m)) ||| (new &&& m))

/-- FSET and FCLR (R105). -/
def pkFlagsSet (mask : Nat) (p : Pkt) : Pkt :=
  pcSet p (ctxFld 3 0 16) (pcGet p (ctxFld 3 0 16) ||| (mask % 2 ^ 16))
def pkFlagsClear (mask : Nat) (p : Pkt) : Pkt :=
  pcSet p (ctxFld 3 0 16) (pcGet p (ctxFld 3 0 16) &&& (2 ^ 16 - 1 - mask % 2 ^ 16))

/-- Flag numbers of R44. -/
def flMirror : Nat := 16
def flOuterOnly : Nat := 17
def flParseErr : Nat := 18
def flFragment : Nat := 19
def flDecrypted : Nat := 20
def flCipherFail : Nat := 21
def flFromHost : Nat := 22
def flPoison : Nat := 23

def pkMirror (v : Bool) (p : Pkt) : Pkt := pcSet p (Pc.flag flMirror) (b2n v)
def pkPoison (p : Pkt) : Pkt := pcSet p (Pc.flag flPoison) 1

/-- DP (R106). -/
def pkDisposition (value reason : Nat) (p : Pkt) : Pkt :=
  let p := pcSet p Pc.disposition value
  if value = 5 then pcSet p Pc.dropReason reason else if value = 4 then pcSet p Pc.puntReason reason else p

/-! Lookups, COLLECT and requests. -/

/-- The table and its hit, or none, of an EXACT, LPM4 or LPM6 lookup; true when it is uncorrectable (R166, R167, R173). -/
def tableSearch (d : Dev) (b : Tbl) (key : List W64) (hold : Nat) : Option Nat × Bool :=
  if b.kind = 1 then
    let k := keyFor b (keyOfWords key)
    match exactLookup d b k with
    | some i => (some i, false)
    | none => (none, homeBad d b k)
  else
    let x := if b.kind = 2 then (key.getD 0 0).toNat % 2 ^ 32 else (key.getD 0 0).toNat * 2 ^ 64 + (key.getD 1 0).toNat
    let r := lpmSearch d b hold x
    (if r.err then none else r.best, r.err)

/-- A lookup that nothing answers (R95, R100): 0 with ERR. -/
def noLookup (port dest : Nat) : Flight := .lookup port dest 0 false true false none

/-- What a lookup issued in a row finds (R95), with its counters and its hit bit. It reads the tables and the array as they stand at
its issue (R172, R202). -/
def lookupRead (a port dest ty : Nat) (key : List W64) (row hold : Nat) (d : Dev) : Flight × Dev :=
  match ltype d ty with
  | none => (noLookup port dest, d)
  | some y =>
    if ¬ bit y.rowmask row then (noLookup port dest, d)
    else if y.kind = 4 then
      let (v, n, ue, d) := aLookup d a hold ((List.range 5).foldl (fun k i => k * 2 ^ 64 + (key.getD i 0).toNat) 0)
      (.lookup port dest v (decide (1 ≤ n) && !ue) ue ue (some n), d)
    else if y.kind = 1 ∨ y.kind = 2 ∨ y.kind = 3 then
      match tbl d y.table with
      | none => (noLookup port dest, d)
      | some b =>
        match tableSearch d b key hold with
        | (some i, _) =>
          let d := tblCnt d b.t 0 1
          let d := if b.refresh then setHit d b.t i 1 else d
          (.lookup port dest (BitVec.ofNat 64 (eAction (readUnit d b i))) true false false none, d)
        | (none, true) => (.lookup port dest 0 false true true none, d)
        | (none, false) => (.lookup port dest 0 false false false none, tblCnt d b.t 1 1)
    else (noLookup port dest, d)

/-- Issue a lookup on port n (R93, R94). -/
def issueLookup (l : PktRef) (n : Nat) (g : LGroup) (d : Dev) : Dev :=
  inRow l d fun p r =>
    let (w, d) := lookupRead l.a n g.dest g.ty (keyWords p g.kmode g.ksrc) r (pcGet p Pc.holding) d
    addFlight d l p.gen w (dueAt p (r + distOf d g.ty))

/-- A lookup on L1 that a COLLECT of the same nanoword displaces: 0 with L1_ERR, at the L1 type's distance (R100). -/
def displaceLookup (l : PktRef) (g : LGroup) (d : Dev) : Dev :=
  inRow l d fun p r => addFlight d l p.gen (noLookup 1 g.dest) (dueAt p (r + distOf d g.ty))

/-- Issue a COLLECT (R97); the index list is read now (R100). -/
def issueCollect (l : PktRef) (g : ClGroup) (d : Dev) : Dev :=
  inRow l d fun p r =>
    addFlight d l p.gen (.collect g.dest g.n (collectBase p g.bsrc) ((List.range (g.n + 1)).map (collectOffset p g.list)) g.ty r)
      (dueAt p (r + distOf d g.ty))

/-- Condition codes of the valid and error conditions of a request kind (R40, R41). -/
def condValid (kind : Nat) : Nat := 0x10 + kind
def condErr (kind : Nat) : Nat := 0x15 + kind

/-- A DEEP request of a lookup type reaches the controller with a key word (R367, R369, R382). -/
def deepFind (d0 : Dev) (ty key : Nat) : DeepFound × Dev :=
  let d := crossIn d0 3
  let o := Reg.DEEP_TYPE ty
  let i := key % 2 ^ 40
  let a := rdF d (o 0) Reg.DEEP_TYPE_BASE + 8 * i
  if ¬ deepReady d then (.poison, bump d (Reg.DEEP_CNT 9))
  else if rdF d (o 0) Reg.DEEP_TYPE_VALID = 0 ∨ rdF d (o 1) Reg.DEEP_TYPE_SIZE ≤ i then (.invalid, bump d (Reg.DEEP_CNT 14))
  else
    let (r, d) := deepCheck d a 8 5 4
    (if r = 0 then .element a else .poison, d)

/-- Issue a request of a kind (R101): both conditions of the kind clear, and the earlier request is superseded (R102). -/
def issueRequest (l : PktRef) (kind : Nat) (g : RqGroup) (d : Dev) : Dev :=
  match getPkt d l with
  | none => d
  | some p =>
    let x := getFur d l.a l.f
    let num := x.reqCtr + 1
    let key := keyWords p g.kmode g.ksrc
    let p' := { setCond (setCond p (condValid kind) false) (condErr kind) false with reqs := setAt p.reqs (kind - 1) num }
    let d := putPkt (putFur d l.a l.f { x with reqCtr := num }) l p'
    if kind = 1 then
      let (found, d) := deepFind d g.ty (key.getD 0 0).toNat
      addFlight d l p.gen (.deep g.dest num found) none
    else addFlight d l p.gen (.request kind g.dest g.ty key num (BitVec.ofNat 64 (pcGet p (Pc.result g.dest)))) none

/-! Edits (R110 to R112). -/

/-- The kind of an edit operation's data: bytes used (R110). -/
def editData (op len : Nat) : Nat := if op = 1 ∨ op = 2 then len + 1 else 0

/-- Whether E0 or E1 would overflow the list or the data buffer (R115 code 0xF). -/
def editFull (p : Pkt) (op : Nat) (g : EGroup) : Bool :=
  decide (16 ≤ p.edits.length ∨ 128 < p.edata.length + editData op g.len)

/-- An edit-list entry as R112 holds it. -/
def editEntry (p : Pkt) (op : Nat) (g : EGroup) : Nat :=
  let doff := if op = 4 then g.srcw else if editData op g.len = 0 then 0 else p.edata.length
  let pref := if 5 ≤ op then g.srcw else 0
  doff * 2 ^ 24 + pref * 2 ^ 23 + g.len * 2 ^ 16 + g.off * 2 ^ 8 + g.inst * 2 ^ 3 + op

/-- Append an entry and copy its data (R111). -/
def pkEdit (op : Nat) (g : EGroup) (p : Pkt) : Pkt :=
  if op = 0 then p
  else { p with edits := p.edits ++ [editEntry p op g], edata := p.edata ++ ctxBytes p g.srcw (editData op g.len) }

/-! Counters and meters (R103, R104). -/

/-- The length that counters and meters take: as received, FCS included. -/
def countLen (p : Pkt) : Nat := p.rxLen

/-- Apply a counter update to index i of a type from row r, or discard it. -/
def countUpdate (d : Dev) (l : PktRef) (p : Pkt) (mode ty i r : Nat) : Dev :=
  match ltype d ty with
  | some y =>
    match tbl d y.table with
    | some b =>
      if y.kind = 6 ∧ bit y.rowmask r ∧ i < y.size then
        countPair d b i (if mode = 2 then 0 else 1) (if mode = 1 then 0 else countLen p)
      else opCnt d l 3 1
    | none => opCnt d l 3 1
  | none => opCnt d l 3 1

/-- One counter operation. -/
def counterOp (l : PktRef) (g : CGroup) (d : Dev) : Dev :=
  inRow l d fun p r => countUpdate d l p g.mode g.ty (indexSource p g.isrc).toNat r

/-- C0 and C1 of one nanoword: beyond CPORTS of a type, an update of another pair is discarded (R165). -/
def counterPairOp (l : PktRef) (nw : Nat) (d : Dev) : Dev :=
  let g0 := nanoC nw 0
  let g1 := nanoC nw 1
  let d := if nanoCEn nw 0 then counterOp l g0 d else d
  if ¬ nanoCEn nw 1 then d
  else
    let pairOp := nanoCEn nw 0 && g0.ty == g1.ty && (match ltype d g1.ty with
      | some y => y.cports == 1 && y.kind == 6
      | none => false) && (match getPkt d l with
      | some p => indexSource p g0.isrc != indexSource p g1.isrc
      | none => false)
    if pairOp then opCnt d l 3 1 else counterOp l g1 d

/-- The meter operation: a request whose colour lands later (R104). -/
def meterOp (l : PktRef) (isrc : Nat) (d : Dev) : Dev :=
  inRow l d fun p r =>
    addFlight d l p.gen (.meter ((indexSource p isrc).toNat % 2 ^ 20) (pcGet p Pc.color) (countLen p)) (dueAt p (r + 4))

/-! Reserved encodings (R115 code 0xE). -/

def keyBad (kmode : Bool) (ksrc : Nat) : Bool := !kmode && decide (ksrc / 16 ≠ 0)

/-- Whether an acting edit group is reserved; `more` is the entry that E0 of the same nanoword appends. -/
def editBad (p : Pkt) (op : Nat) (g : EGroup) (more : List Nat) : Bool :=
  let at_ := hdrOffset p g.inst + g.off
  let ops := p.edits ++ more
  (op == 1 && decide (16 < g.len + 1)) ||
  ((op == 1 || op == 2) && decide (256 < 8 * g.srcw + g.len + 1)) ||
  (decide (5 ≤ op) && decide (1 < g.srcw)) ||
  ((decide (op ≤ 4) || g.srcw == 0) && !hdrPresent p g.inst) ||
  ((op == 1 || op == 2 || op == 3 || (decide (5 ≤ op) && g.srcw == 0)) && decide (511 < at_)) ||
  (op == 4 && (!hdrPresent p g.srcw || decide (hdrOffset p g.srcw ≤ hdrOffset p g.inst))) ||
  (decide (5 ≤ op) && g.srcw == 1 && (match ops[g.inst % 16]? with | some e => bits e 0 3 != 2 | none => true))

/-- Whether a nanoword holds a reserved encoding in a group that acts. -/
def nanoBad (p : Pkt) (nw : Nat) : Bool :=
  let e0 := nanoEOp nw 0
  let e1 := nanoEOp nw 1
  decide (0x14 < nanoAluOp nw 0) || decide (0x14 < nanoAluOp nw 1) || (nanoMwEn nw && (nanoMw nw).src == 7)
  || decide (4 < nanoRqKind nw) || nanoMir nw == 3
  || (nanoLEn nw 0 && keyBad (nanoL nw 0).kmode (nanoL nw 0).ksrc) || (nanoLEn nw 1 && keyBad (nanoL nw 1).kmode (nanoL nw 1).ksrc)
  || (nanoRqKind nw != 0 && keyBad (nanoRq nw).kmode (nanoRq nw).ksrc)
  || (nanoCEn nw 0 && (nanoC nw 0).mode == 3) || (nanoCEn nw 1 && (nanoC nw 1).mode == 3)
  || (e0 != 0 && editBad p e0 (nanoE nw 0) [])
  || (e1 != 0 && editBad p e1 (nanoE nw 1) (if e0 = 0 then [] else [editEntry p e0 (nanoE nw 0)]))

/-! The nanoword. -/

/-- Orders 2 and 3 of R85: the extractors, then ALU 0, then ALU 1. -/
def nanoData (nw imm : Nat) (p : Pkt) : Pkt :=
  let p := (List.range 4).foldl (fun q n => pkExtract n (nanoX nw n) q) p
  let alu := fun (q : Pkt) (n : Nat) => match aluOp (nanoAluOp nw n) with
    | some f => aluStep q n (nanoAlu nw n) imm f
    | none => q
  alu (alu p 0) 1

/-- Order 4 of R85: lookups, COLLECT and the request leave the row. A COLLECT displaces a lookup on L1 (R100). -/
def nanoIssue (l : PktRef) (nw : Nat) (d : Dev) : Dev :=
  let d := if nanoLEn nw 0 then issueLookup l 0 (nanoL nw 0) d else d
  let d := if nanoLEn nw 1 then
      if nanoClEn nw then displaceLookup l (nanoL nw 1) d else issueLookup l 1 (nanoL nw 1) d
    else d
  let d := if nanoClEn nw then issueCollect l (nanoCl nw) d else d
  if nanoRqKind nw = 0 then d else issueRequest l (nanoRqKind nw) (nanoRq nw) d

/-- Order 5 of R85: E0, then E1; none when one of them overflows (R115 code 0xF). -/
def nanoEdits (nw : Nat) (p : Pkt) : Option Pkt :=
  let step := fun (q : Option Pkt) (n : Nat) => match q with
    | none => none
    | some q =>
      let op := nanoEOp nw n
      if op = 0 then some q else if editFull q op (nanoE nw n) then none else some (pkEdit op (nanoE nw n) q)
  step (step (some p) 0) 1

/-- The writes of stage W in the order of R92. -/
def nanoWrites (nw : Nat) (p : Pkt) : Pkt :=
  let p := if nanoMwEn nw then pkMw (nanoMw nw) (nanoAlu nw 0).k p else p
  let p := pkFlagsClear (nanoFclr nw) (pkFlagsSet (nanoFset nw) p)
  let p := if nanoMir nw = 1 then pkMirror true p else if nanoMir nw = 2 then pkMirror false p else p
  if nanoDpEn nw then pkDisposition (nanoDpValue nw) (nanoDpReason nw) p else p

end Sys2Proof.Machine
end

