-- ==== Sys2Proof/Machine/Landing.lean ====
section
/-!
DEFINITION. Results and answers that land in a packet's context (R33, R45, R92, R95 to R102, R229): lookups, COLLECT, LEARN and
BUF. DEEP, SA_STATE and meters land through their own units.
-/
namespace Sys2Proof.Machine

/-- Flight k of a furrow lands: it leaves the list, and acts on its packet while the slot still has its generation; a value whose
packet has gone is counted in the FURROW_OPCNT counters `stale` (R45, R96). -/
def land (a f k : Nat) (stale : List Nat) (d : Dev) (g : Dev → PktRef → Pkt → Dev) : Dev :=
  let x := getFur d a f
  match x.inFlight[k]? with
  | none => d
  | some e =>
    let d := putFur d a f { x with inFlight := x.inFlight.eraseIdx k }
    let l : PktRef := ⟨a, f, e.slot⟩
    match getPkt d l with
    | some p => if p.gen = e.gen then g d l p else stale.foldl (fun d c => opCnt d l c 1) d
    | none => stale.foldl (fun d c => opCnt d l c 1) d

/-- Whether a flight is a COLLECT. -/
def isCollect (w : Flight) : Bool := match w with | .collect .. => true | _ => false

/-- Whether flight k of a furrow lands in the same cycle as another of its packet that R92 places before it: lookups and colours
in order of issue, then COLLECTs. -/
def landsAfter (x : Furrow) (k : Nat) (e : InFlight) : Bool :=
  e.due.isSome && (List.range x.inFlight.length).any fun j =>
    match x.inFlight[j]? with
    | some o => o.slot == e.slot && o.gen == e.gen && o.due == e.due
        && (if isCollect o.what == isCollect e.what then decide (j < k) else isCollect e.what)
    | none => false

/-- Flight k of a furrow, when no other lands before it in its cycle. -/
def flightAt (d : Dev) (a f k : Nat) : Option Flight :=
  let x := getFur d a f
  match x.inFlight[k]? with
  | some e => if landsAfter x k e then none else some e.what
  | none => none

/-- A lookup result lands: the word, HIT and ERR of its port, and poison (R95). -/
def landLookup (d : Dev) (l : PktRef) (p : Pkt) (port dest : Nat) (v : W64) (hit err poison : Bool) : Dev :=
  let p := setCond (setCond (pcSet p (Pc.result dest) v.toNat) (0x0A + port) hit) (0x0C + port) err
  let d := if err then opCnt d l 2 1 else d
  putPkt d l (if poison then pkPoison p else p)

/-- The three conditions of an associative result (R40). -/
def setAssoc (p : Pkt) (n : Nat) : Pkt :=
  setCond (setCond (setCond p 0x0E (decide (1 ≤ n))) 0x0F (decide (2 ≤ n))) 0x10 (n == 255)

/-- A lookup that stands in flight lands (R95, R200). -/
def lookupLand (port dest : Nat) (v : W64) (hit err poison : Bool) (count : Option Nat) (d : Dev) (l : PktRef) (p : Pkt) : Dev :=
  match count with
  | none => landLookup d l p port dest v hit err poison
  | some n => landLookup (if err then bump d (Reg.ASSOC_CNT l.a 4) else d) l (setAssoc p n) port dest v hit err poison

def lookupResult (a f k : Nat) (d : Dev) : Dev :=
  match flightAt d a f k with
  | some (.lookup port dest v hit err poison count) => land a f k [5] d (lookupLand port dest v hit err poison count)
  | _ => d

/-- The first faulting element of a COLLECT (R98, R99), 0x1F when none faults. -/
def collectFault (d : Dev) (dest base : Nat) (offs : List Nat) (ty row : Nat) : Nat :=
  match ltype d ty with
  | some y =>
    match tbl d y.table with
    | some b =>
      if y.kind ≠ 5 ∨ ¬ bit y.rowmask row then 0
      else (firstIdx offs.length fun k =>
        let ad := base + offs.getD k 0
        decide (y.nmax ≤ k) || decide (15 < dest + k) || decide (y.size ≤ ad) || (arrayElem d b ad).2).getD 0x1F
    | none => 0
  | none => 0

/-- A COLLECT lands all its elements in one cycle (R99). -/
def collectLand (dest base : Nat) (offs : List Nat) (ty row : Nat) (d : Dev) (l : PktRef) (p : Pkt) : Dev :=
  let f := collectFault d dest base offs ty row
  let elem := fun (k : Nat) => match (ltype d ty).bind fun y => tbl d y.table with
    | some b => (arrayElem d b (base + offs.getD k 0)).1.toNat
    | none => 0
  let p := (List.range offs.length).foldl (fun p k =>
    if dest + k ≤ 15 then pcSet p (Pc.scratch (dest + k)) (if k < f then elem k else 0) else p) p
  let n := ((List.range offs.length).filter fun k => decide (f ≤ k ∧ dest + k ≤ 15)).length
  let p := setCond (pcSet p Pc.collectFault f) 0x15 (f != 0x1F)
  if f = 0x1F then putPkt d l p else putPkt (opCnt (opCnt d l 0 1) l 1 n) l (pkPoison p)

def collectLanding (a f k : Nat) (d : Dev) : Dev :=
  match flightAt d a f k with
  | some (.collect dest _ base offs ty row) => land a f k [5] d (collectLand dest base offs ty row)
  | _ => d

/-- An answer of a request kind lands: superseded ones are discarded (R102), else `g` makes the packet of the answer. -/
def answer (d : Dev) (l : PktRef) (p : Pkt) (kind num : Nat) (err : Bool) (g : Pkt → Pkt) : Dev :=
  if p.reqs.getD (kind - 1) 0 = num then putPkt d l (setCond (setCond (g p) (condValid kind) true) (condErr kind) err)
  else opCnt d l 5 1

def learnAnswer (a f k : Nat) (d : Dev) : Dev :=
  match flightAt d a f k with
  | some (.learned _ num refused) => land a f k [5] d fun d l p => answer d l p 3 num refused id
  | _ => d

/-- The grant word of a BUF request (R229): granted, cells, cause, acre and pool. -/
def grantWord (ok : Bool) (cells cause acre pool : Nat) : W64 :=
  BitVec.ofNat 64 (b2n ok * 2 ^ 63 + cells * 2 ^ 16 + cause * 2 ^ 14 + acre * 2 ^ 6 + pool)

/-- A BUF request is decided (R229). -/
def bufLand (dest pool num : Nat) (d : Dev) (l : PktRef) (p : Pkt) : Dev :=
  if p.reqs.getD 3 0 ≠ num then opCnt d l 5 1
  else
    let m := acreMap d l.a (bits (pcGet p Pc.flowHash) 20 6)
    let n := cellsOf p
    let d := returnGrant d p
    let p := { p with grant := none }
    let fin := fun (d : Dev) (p : Pkt) (w : W64) (err : Bool) => answer d l p 4 num err fun p => pcSet p (Pc.result dest) w.toNat
    if lossless d p then
      let q := rdF d (Reg.LL_POOL p.prio) Reg.LL_POOL_POOL
      fin (bump d (Reg.FABRIC_CNT m 7)) { p with grant := some (m, q, 0) } (grantWord true 0 0 m q) false
    else if pool = 63 ∨ llNamed d pool then
      fin (recordConflict d 2 pool (if pool = 63 then 1 else 2) 4 2) p (grantWord false 0 2 m pool) true
    else match poolPick d m pool n with
      | some q => fin (bump (poolCharge d m q n) (Reg.FABRIC_CNT m 7)) { p with grant := some (m, q, n) } (grantWord true n 0 m q) false
      | none => fin d p (grantWord false 0 1 m pool) true

def bufAnswer (a f k : Nat) (d : Dev) : Dev :=
  match flightAt d a f k with
  | some (.request 4 dest pool _ num _) => land a f k [5] d (bufLand dest pool num)
  | _ => d

end Sys2Proof.Machine
end

