-- ==== Sys2Proof/Machine/Drill.lean ====
section
/-!
DEFINITION. Drill (R270 to R306): selection, virtual time, shapers, time gates, the pause watchdog, meters, and the DRILL_CMD
operations.
-/
namespace Sys2Proof.Machine

def drillDrop (d : Dev) (k : Nat) : Dev := bump d (Reg.DRILL_DROP k)
def drillCnt (d : Dev) (k : Nat) : Dev := bump d (Reg.DRILL_CNT k)

/-- Drill's time unit, 1/1,600 ns, in which every frame time of R337's rates is whole. -/
def tick : Nat := 1600

/-! Ports. -/

def stateReg (p : Nat) : Nat := Reg.PORT_STATE (p / 64) (p % 64)
def portState (d : Dev) (p : Nat) : Nat := rdF d (stateReg p) Reg.PORT_STATE_STATE

/-- What Drill sees of a port (R348): 0 UP, 1 RETRAIN, 2 DOWN or WITHDRAWN. -/
def drillSees (d : Dev) (p : Nat) : Nat :=
  let s := portState d p
  if s = 3 then 0 else if s = 4 ∨ s = 5 then 1 else 2

/-- A word of a port's KIND 4 entry (R311). -/
def portEnt (d : Dev) (p w lo n : Nat) : Nat := bits (rindEnt d 4 p) (64 * w + lo) n

/-- PATH_NS: 144 ns with MACsec or ESP enabled on the port, else 96 ns (R276). -/
def pathNs (d : Dev) (p : Nat) : Nat := if portEnt d p 9 63 1 = 1 ∨ portEnt d p 9 55 1 = 1 then 144 else 96

def portMtu (d : Dev) (p : Nat) : Nat := rdF d (Reg.PORT_CFG p) Reg.PORT_CFG_MTU

def portFree (d : Dev) (p : Nat) : Nat := spGet (fun _ => 0) d.drl.portFree p
def setPortFree (d : Dev) (p t : Nat) : Dev := { d with drl := { d.drl with portFree := spPut (fun _ => 0) d.drl.portFree p t } }

/-- The wire time of a charged length, in 1/1,600 ns (R276). -/
def wireTime (d : Dev) (p c : Nat) : Nat := (c + 20) * 8 * 1000 * tick / speedMbps (curSpeed d p)

/-- The launch time of the next frame, in 1/1,600 ns. -/
def launchTime (d : Dev) (p : Nat) : Nat := max ((d.time + pathNs d p) * tick) (portFree d p)

/-! Time gates (R286 to R289). -/

def gateDef (_ : Nat) : Gate := ⟨⟨0, 0, 0, 0⟩, none, []⟩
def getGate (d : Dev) (p : Nat) : Gate := spGet gateDef d.drl.gates p
def putGate (d : Dev) (p : Nat) (g : Gate) : Dev := { d with drl := { d.drl with gates := spPut gateDef d.drl.gates p g } }

def GateCopy.enable (c : GateCopy) : Bool := bit c.w1.toNat 63
def GateCopy.guard_ (c : GateCopy) : Bool := bit c.w1.toNat 61
def GateCopy.len (c : GateCopy) : Nat := bits c.w1.toNat 47 11
def GateCopy.base (c : GateCopy) : Nat := bits c.w1.toNat 30 17
def GateCopy.cycle (c : GateCopy) : Nat := bits c.w1.toNat 0 30
def GateCopy.mask (c : GateCopy) : Nat := bits c.w2.toNat 0 8

def gclEntry (d : Dev) (i : Nat) : Nat := spGet (fun _ => 0) d.drl.gcl i

/-- The segments of one cycle: begin, end and gates; the last entry lasts to the end of the cycle (R287). -/
def gateSegs (d : Dev) (c : GateCopy) : Nat → Nat → Nat → List (Nat × Nat × Nat)
  | 0, _, _ => []
  | n + 1, i, at_ =>
    if c.cycle ≤ at_ then []
    else
      let e := gclEntry d i
      let stop := if n = 0 then c.cycle else min c.cycle (at_ + bits e 8 32)
      (at_, stop, bits e 0 8) :: gateSegs d c n (i + 1) stop

def cycleSegs (d : Dev) (c : GateCopy) : List (Nat × Nat × Nat) := gateSegs d c c.len c.base 0

/-- The offset of time t into its cycle. -/
def gateOffset (c : GateCopy) (t : Nat) : Nat :=
  if c.cycle = 0 then 0 else ((((t : Int) - c.change) % (c.cycle : Int))).toNat

/-- Whether class k is open at time t under a copy. -/
def openAt (d : Dev) (c : GateCopy) (t k : Nat) : Bool :=
  !c.enable || (cycleSegs d c).any fun s => decide (s.1 ≤ gateOffset c t ∧ gateOffset c t < s.2.1) && bit s.2.2 k

/-- When a class that is open at t closes under a copy; none when it never does. -/
def closesAt (d : Dev) (c : GateCopy) (t k : Nat) : Option Nat :=
  if ¬ c.enable then none
  else
    let u := gateOffset c t
    let shut := (cycleSegs d c).filter fun s => !bit s.2.2 k
    match shut.find? fun s => decide (u ≤ s.1) with
    | some s => some (t + (s.1 - u))
    | none => shut.head?.map fun s => t + (c.cycle - u) + s.1

/-- The copy in force at time t. -/
def copyAt (g : Gate) (t : Nat) : GateCopy :=
  match g.pend with
  | some c => if c.change ≤ t then c else g.op
  | none => g.op

/-- Whether the gate of class k is open at time t, and until when. -/
def gateOpen (d : Dev) (g : Gate) (t k : Nat) : Bool := openAt d (copyAt g t) t k

def gateCloses (d : Dev) (g : Gate) (t k : Nat) : Option Nat :=
  match g.pend with
  | some c =>
    if c.change ≤ t then closesAt d c t k
    else match closesAt d g.op t k with
      | some e => if e ≤ c.change then some e else if openAt d c c.change k then closesAt d c c.change k else some c.change
      | none => if openAt d c c.change k then closesAt d c c.change k else some c.change
  | none => closesAt d g.op t k

/-- The longest window of a class in a cycle (R289, R291): a window ends with its cycle. -/
def maxWin (d : Dev) (c : GateCopy) (k : Nat) : Nat :=
  ((cycleSegs d c).foldl (fun (x : Nat × Nat) s =>
    let run := if bit s.2.2 k then x.2 + (s.2.1 - s.1) else 0
    (max x.1 run, run)) (0, 0)).1

def purgeOf (g : Gate) (k : Nat) : Option Nat := spGet (fun _ => none) g.purge k

/-- PURGE_BEFORE of a class is set for a window that ends at T_end. -/
def setPurge (d : Dev) (p k tEnd : Nat) : Dev :=
  let g := getGate d p
  let v := (tEnd + 2 ^ 32 - pathNs d p) % 2 ^ 32
  drillCnt (putGate d p { g with purge := spPut (fun _ => none) g.purge k (some v) }) 2

/-- A gate entry of port p comes into force at time t: windows that end there set their marks. -/
def gateChange (p t : Nat) (d : Dev) : Dev :=
  let c := (getGate d p).op
  if ¬ c.enable ∨ t = 0 then d
  else (List.range 8).foldl (fun d k =>
    if bit c.mask k ∧ openAt d c (t - 1) k ∧ (¬ openAt d c t k ∨ gateOffset c t = 0) then setPurge d p k t else d) d

/-- Whether port p runs on one lane (R299). -/
def oneLane (d : Dev) (p : Nat) : Bool := speedLanes (curSpeed d p) == 1

/-- Whether the pause watchdog of a one-lane port waits for the timer that its gate list holds (R299). -/
def gateWaits (d : Dev) (p : Nat) : Bool :=
  (getGate d p).op.enable && oneLane d p && rdF d (Reg.PORT_CFG p) Reg.PORT_CFG_WD_US != 0

/-- Whether the loss-of-lock hold-off of a one-lane port waits for the timer that its PFC refresh holds (R358, R359). -/
def holdoffWaits (d : Dev) (p : Nat) : Bool :=
  oneLane d p && rdF d (Reg.LINK_CFG (p / 64) (p % 64)) Reg.LINK_CFG_HOLDOFF_US != 0
    && (List.range 8).any fun c => flagF d (Reg.PFC_CFG p c) Reg.PFC_CFG_LOSSLESS

/-- The timer claims of port p have changed from d0 to d: a feature that has begun to wait is a conflict (R24). -/
def timerClaims (d0 d : Dev) (p : Nat) : Dev :=
  let gate := gateWaits d p && !gateWaits d0 p
  let hold := holdoffWaits d p && !holdoffWaits d0 p
  let d := if gate then recordConflict d 1 p 0x31 0x32 2 else d
  if hold then recordConflict d 1 (512 + p) 0x04 0x11 (8 + p / 64) else d

/-- At CHANGE_TIME the pending copy becomes the operating copy (R292). -/
def gateCopyChange (p : Nat) (d : Dev) : Dev :=
  let g := getGate d p
  match g.pend with
  | none => d
  | some c =>
    let d0 := d
    let d := if g.op.enable then (List.range 8).foldl (fun d k => if bit g.op.mask k then setPurge d p k c.change else d) d else d
    timerClaims d0 (drillCnt (putGate d p { getGate d p with op := c, pend := none }) 3) p

/-! Checks (R288 to R296). -/

/-- Whether a queued packet is marked by PURGE_BEFORE. -/
def purged (d : Dev) (p : Nat) (n : Node) (x : Pkt) : Bool :=
  let g := getGate d p
  g.op.enable && match purgeOf g n.tc with
    | some v => decide (1 ≤ (v + 2 ^ 32 - x.enqTime) % 2 ^ 32 ∧ (v + 2 ^ 32 - x.enqTime) % 2 ^ 32 ≤ 2 ^ 31)
    | none => false

/-- The charged length (R276). -/
def chargedLen (n : Node) (x : Pkt) : Nat := (max 64 (min 16383 ((x.rxLen : Int) + n.lenAdj))).toNat

/-- Whether a packet can never be sent in a window of its class (R291). -/
def oversize (d : Dev) (p : Nat) (n : Node) (x : Pkt) : Bool :=
  let c := (getGate d p).op
  let w := maxWin d c n.tc
  c.enable && (w == 0 || (c.guard_ && decide (w * tick < wireTime d p (chargedLen n x))))

/-- Whether received pause holds a queue. -/
def pausedFor (d : Dev) (p : Nat) (n : Node) : Bool :=
  bit (rdF d (Reg.PFC_RX_STATE (p / 64) (p % 64)) Reg.PFC_RX_STATE_PAUSED) n.pfcPri
    && !bit (spGet (fun _ => 0) d.drl.disregard p) n.pfcPri

/-- Whether the gate admits a packet at its launch time (R288). -/
def gateAdmits (d : Dev) (p : Nat) (n : Node) (x : Pkt) : Bool :=
  let g := getGate d p
  let t0 := launchTime d p
  let c := copyAt g (t0 / tick)
  gateOpen d g (t0 / tick) n.tc && (!c.enable || !c.guard_ || match gateCloses d g (t0 / tick) n.tc with
    | some e => decide (t0 + wireTime d p (chargedLen n x) ≤ e * tick)
    | none => true)

/-- Whether a shaper lets its node pass (R282). -/
def shaperOk (n : Node) : Bool := !n.shapeEn || decide (0 ≤ n.tokens)

def portValid (d : Dev) (p : Nat) : Bool := decide (p < portCount d)

/-- Whether queue q of port p, its parent and the port node are valid: the packets of another queue stay queued (R270). -/
def queueValid (d : Dev) (p q : Nat) : Bool :=
  (getNode d (nodeKey 2 q)).valid && (getNode d (nodeOfQueue d q)).valid && portValid d p

/-- Whether a packet at the head of queue q of port p passes the checks of rank 5 to 8 of R296, with the validity of R270. -/
def eligible (d : Dev) (p q : Nat) (x : Pkt) : Bool :=
  let n := getNode d (nodeKey 2 q)
  let n1 := getNode d (nodeOfQueue d q)
  queueValid d p q && !pausedFor d p n && gateAdmits d p n x && shaperOk n
    && (n.exempt || (shaperOk n1 && shaperOk (getNode d (nodeKey 0 p))))

/-- Sub-queues of the valid queues of port p with a packet at their head: queue, acre and packet. -/
def portHeads (d : Dev) (p : Nat) : List (Nat × Nat × Pkt) :=
  d.que.subs.filterMap fun e => match e.2.head with
    | x :: _ => if queuePort d (e.1 / 4) = p ∧ queueValid d p (e.1 / 4) = true then some (e.1 / 4, e.1 % 4, x) else none
    | [] => none

/-- Sub-queues of port p that hold only spilled packets before their tail (R258). -/
def portStalls (d : Dev) (p : Nat) : Nat :=
  (d.que.subs.filter fun e => e.2.spilled && e.2.head.isEmpty && !e.2.recs.isEmpty && queuePort d (e.1 / 4) == p).length

/-- The head of a sub-queue leaves it. -/
def popHead (d : Dev) (q m : Nat) : Dev :=
  let x := getSub d q m
  putSub d q m { x with head := x.head.tail }

/-- A head is dropped by Drill under code k of R304. -/
def headDrop (d : Dev) (h : Nat × Nat × Pkt) (k : Nat) : Dev :=
  releaseCopy (unqueue (popHead (dropCpl (drillDrop d k) h.2.2 (0xB0 + k)) h.1 h.2.1) h.1 h.2.1 h.2.2) h.2.2

/-- The sub-queue of a queue whose head is oldest, by 32-bit difference, among those with room in EGQ (R275). -/
def oldest (l : List (Nat × Nat × Pkt)) : Option (Nat × Nat × Pkt) :=
  l.foldl (fun b h => match b with
    | none => some h
    | some c => if toSigned 32 ((h.2.2.enqTime + 2 ^ 32 - c.2.2.enqTime) % 2 ^ 32) < 0 then some h else some c) none

/-- The candidates of port p: for each queue its oldest head, when it passes every check. -/
def candidates (d : Dev) (p : Nat) : List (Nat × Nat × Pkt) :=
  let hs := (portHeads d p).filter fun h => decide ((getEgq d h.2.1 (p / 128)).length < 512)
  ((hs.map Prod.fst).eraseDups.filterMap fun q => oldest (hs.filter fun h => h.1 == q)).filter fun h => eligible d p h.1 h.2.2

/-- Among nodes, the lowest band, and in it the smallest start tag; ties to the lowest number (R271, R278). -/
def bestNode (d : Dev) (l : List Nat) : Option Nat :=
  l.foldl (fun b k => match b with
    | none => some k
    | some c =>
      let x := getNode d k
      let y := getNode d c
      if x.band < y.band ∨ (x.band = y.band ∧ (vDiff x.s y.s < 0 ∨ (x.s = y.s ∧ k < c))) then some k else some c) none

/-- Virtual time of a chosen child and its parent moves on (R278). -/
def vtAdvance (d : Dev) (parent child c : Nat) : Dev :=
  let x := getNode d child
  let y := getNode d parent
  let d := putNode d parent { y with v := y.v.set x.band x.s }
  putNode d child { x with s := (x.s + c * (65536 / x.weight)) % 2 ^ 56 }

/-- A selection charges the shaper of a node down to its floor (R282, R284). -/
def shaperCharge (d : Dev) (p c k : Nat) : Dev :=
  let n := getNode d k
  if ¬ n.shapeEn ∨ n.rate = 0 then d
  else
    let floor : Int := -((n.burst + portMtu d p : Nat) : Int) * 2 ^ 24
    let charge : Int := (c + (if n.ifg then 20 else 0) : Nat) * 2 ^ 24
    putNode d k { n with tokens := max (n.tokens - charge) (min n.tokens floor) }

/-- The bookkeeping of a selection (R276): the packet as it goes on. -/
def bookkeep (d : Dev) (p : Nat) (h : Nat × Nat × Pkt) : Pkt × Dev :=
  let q := h.1
  let k2 := nodeKey 2 q
  let k1 := nodeOfQueue d q
  let k0 := nodeKey 0 p
  let c := chargedLen (getNode d k2) h.2.2
  let t0 := launchTime d p
  let d := setPortFree d p (t0 + wireTime d p c)
  let d := vtAdvance (vtAdvance d k1 k2 c) k0 k1 c
  ({ h.2.2 with launch := t0, charged := c }, [k2, k1, k0].foldl (fun d k => shaperCharge d p c k) d)

/-- One selection or purge for port p (R273 to R290, R296). -/
def drillSelect (p : Nat) (d : Dev) : Dev :=
  let heads := portHeads d p
  let d := bumpN d (Reg.QUEUE_CNT 8) (portStalls d p)
  let sees := drillSees d p
  match if sees = 2 then heads.head? else none with
  | some h => headDrop d h 2
  | none =>
    let node := fun (h : Nat × Nat × Pkt) => getNode d (nodeKey 2 h.1)
    match heads.find? fun h => purged d p (node h) h.2.2 with
    | some h => headDrop d h 0
    | none => match if sees = 1 then none else heads.find? fun h => oversize d p (node h) h.2.2 with
      | some h => headDrop d h 1
      | none =>
        if sees ≠ 0 ∨ (d.time + 128) * tick ≤ portFree d p then d
        else
          let cs := candidates d p
          match bestNode d ((cs.map fun h => nodeOfQueue d h.1).eraseDups) with
          | none => d
          | some k1 => match bestNode d ((cs.filter fun h => nodeOfQueue d h.1 == k1).map fun h => nodeKey 2 h.1) with
            | none => d
            | some k2 => match cs.find? fun h => nodeKey 2 h.1 == k2 with
              | none => d
              | some h =>
                let (x, d) := bookkeep (drillCnt d 0) p h
                let d := unqueue (popHead d h.1 h.2.1) h.1 h.2.1 x
                if moveStale d h.2.1 x then releaseCopy (dropCpl (bump d (Reg.FABRIC_DROP 3)) x 0x83) x
                else putEgq d h.2.1 (p / 128) (getEgq d h.2.1 (p / 128) ++ [(x, p)])

/-! Shapers and the node sweep (R280 to R285). -/

/-- The tick of a level, ns. -/
def shaperTick (level : Nat) : Nat := if level = 0 then 64 else if level = 1 then 256 else 1024

/-- What one tick adds at a rate, in units of 2^-24 byte, rounded down. -/
def refillOf (level rate : Nat) : Nat := rate * shaperTick level * 2 ^ 24 / 8000000

/-- A refill tick of a node: a rate written before takes effect, and the bucket is refilled unless it is frozen. -/
def shaperRefill (level i : Nat) (d : Dev) : Dev :=
  let k := nodeKey level i
  let n := getNode d k
  let t := if n.rateKbps = 0 then n.tokens else min (n.tokens + refillOf level n.rateKbps) ((n.burst : Int) * 2 ^ 24)
  putNode d k { n with rate := n.rateKbps, tokens := t }

/-- The node sweep visits a level-1 or level-2 node. -/
def nodeSweep (level i : Nat) (d : Dev) : Dev :=
  if level ≠ 1 ∧ level ≠ 2 then d else
  let k := nodeKey level i
  let n := getNode d k
  let v := (getNode d (if level = 2 then nodeKey 1 n.parent else nodeKey 0 n.port)).v.getD n.band 0
  if n.count = 0 ∧ vDiff n.s v ≤ 0 then putNode d k { n with fresh := true } else d

/-! The pause watchdog (R295, R299). -/

def wdInactive (d : Dev) (p : Nat) : Bool := oneLane d p && (getGate d p).op.enable

/-- Priority c of port p has stayed paused for WD_US. -/
def pauseWatchdog (p c : Nat) (d : Dev) : Dev :=
  let paused := bit (rdF d (Reg.PFC_RX_STATE (p / 64) (p % 64)) Reg.PFC_RX_STATE_PAUSED) c
  if rdF d (Reg.PORT_CFG p) Reg.PORT_CFG_WD_US = 0 ∨ ¬ paused ∨ wdInactive d p then d
  else
    let d := raise (drillCnt d 5) Fk.pauseWatchdog p p 0 0
    if flagF d (Reg.PORT_CFG p) Reg.PORT_CFG_WD_ACTION then
      { d with drl := { d.drl with disregard := spPut (fun _ => 0) d.drl.disregard p (setBits (spGet (fun _ => 0) d.drl.disregard p) c 1 1) } }
    else d

/-- Pause on priority c of port p has been clear for WD_US. -/
def pauseDisregardEnd (p c : Nat) (d : Dev) : Dev :=
  if bit (rdF d (Reg.PFC_RX_STATE (p / 64) (p % 64)) Reg.PFC_RX_STATE_PAUSED) c then d
  else { d with drl := { d.drl with disregard := spPut (fun _ => 0) d.drl.disregard p (setBits (spGet (fun _ => 0) d.drl.disregard p) c 1 0) } }

/-! Meters (R300 to R303). -/

def meterDef (_ : Nat) : Meter := ⟨0, 0, 0, 0⟩
def getMeter (d : Dev) (i : Nat) : Meter := spGet meterDef d.drl.meters i
def putMeter (d : Dev) (i : Nat) (m : Meter) : Dev := { d with drl := { d.drl with meters := spPut meterDef d.drl.meters i m } }
def getMprof (d : Dev) (i : Nat) : W64 × W64 := spGet (fun _ => (0, 0)) d.drl.mprofs i

/-- The bucket update of R301 at time t; the caps of R303 hold in MODE OFF too. -/
def meterRefill (d : Dev) (t : Nat) (m : Meter) : Meter :=
  let pr := getMprof d m.profile
  let mode := bits pr.1.toNat 57 2
  let cbs := bits pr.1.toNat 32 24 * 2 ^ 24
  let ebs := bits pr.2.toNat 32 24 * 2 ^ 24
  let e := (t % 2 ^ 32 + 2 ^ 32 - m.last) % 2 ^ 32
  let cir := e * bits pr.1.toNat 0 32 * 2 ^ 24 / 8000000
  let eir := e * bits pr.2.toNat 0 32 * 2 ^ 24 / 8000000
  let m := { m with last := t % 2 ^ 32 }
  if mode = 1 then
    let tc := m.tc + cir
    if cbs < tc then { m with tc := cbs, te := min ebs (m.te + tc - cbs) } else { m with tc := tc, te := min ebs m.te }
  else if mode = 2 then { m with tc := min cbs (m.tc + cir), te := min ebs (m.te + eir) }
  else { m with tc := min cbs m.tc, te := min ebs m.te }

/-- The colour of a request and the buckets after it. -/
def meterColour (d : Dev) (m : Meter) (inCol len : Nat) : Nat × Meter :=
  let w := (getMprof d m.profile).1.toNat
  let aware := bit w 59
  let b := len * 2 ^ 24
  if bits w 57 2 = 0 then (min inCol 2, m)
  else if aware ∧ 2 ≤ inCol then (2, m)
  else if (¬ aware ∨ inCol = 0) ∧ b ≤ m.tc then (0, { m with tc := m.tc - b })
  else if b ≤ m.te then (1, { m with te := m.te - b })
  else (2, m)

/-- A meter request lands (R104, R301). -/
def meterUpdate (a f k : Nat) (d : Dev) : Dev :=
  match flightAt d a f k with
  | some (.meter i col len) =>
    let (c, m) := meterColour d (meterRefill d d.time (getMeter d i)) col len
    let d := putMeter d i m
    let d := if c = 1 then drillCnt d 6 else if c = 2 then drillCnt d 7 else d
    land a f k [4, 5] d fun d l p => putPkt d l (pcSet p Pc.color c)
  | _ => d

/-- The meter sweep updates one meter's buckets without a packet. -/
def meterSweep (i : Nat) (d : Dev) : Dev := putMeter d i (meterRefill d d.time (getMeter d i))

/-! DRILL_CMD (R305, R306). -/

/-- An operation begins with a result: `v` is the command, `op` its operation. -/
def drillBegin (d : Dev) (v : W64) (op result : Nat) : Dev :=
  wrFs (wr d Reg.DRILL_CMD (setF v Reg.DRILL_CMD_OP op)) Reg.DRILL_STATUS [(Reg.DRILL_STATUS_BUSY, 1), (Reg.DRILL_STATUS_RESULT, result)]

def drillData (d : Dev) (i : Nat) : Nat := (rd d (Reg.DRILL_DATA i)).toNat
def setDrillData (d : Dev) (i : Nat) (v : W64) : Dev := wr d (Reg.DRILL_DATA i) v

/-- Whether a node's level and number exist. -/
def nodeExists (d : Dev) (level i : Nat) : Bool :=
  (level == 0 && decide (i < portCount d)) || (level == 1 && decide (i < 4096)) || (level == 2 && decide (i < 65536))

/-- The bits of W0 that a level has. -/
def nodeMask (level : Nat) : Nat :=
  if level = 0 then 0x500000000000 else if level = 1 then 0x8000500FFFFC01FF else 0x80FFFFCFFFFC0FFF

/-- The port that an entry of the node memory with fields n belongs to; faults of class 0x8 name it (R438). -/
def nodePort (d : Dev) (lv i : Nat) (n : Node) : Nat :=
  if lv = 0 then i else if lv = 1 then n.port else (getNode d (nodeKey 1 n.parent)).port

/-- An entry of Drill's memories is read: one wrong check bit is corrected; whether it is uncorrectable (R306, R439). -/
def drillLoad (d : Dev) (r : Ram) (k p : Nat) : Bool × Dev :=
  if ecc d r k = 2 then (true, raise d Fk.nodeUe (p % 256) p (starterOf d 6) 1)
  else if ecc d r k = 1 then (false, raise (setEcc d r k 0) Fk.nodeCe (p % 256) p (starterOf d 6) 1)
  else (false, d)

def readNode (v : W64) (d : Dev) : Dev :=
  let lv := getF v Reg.DRILL_CMD_LEVEL
  let i := getF v Reg.DRILL_CMD_INDEX
  if ¬ nodeExists d lv i then drillBegin d v 1 1
  else
    let n := getNode d (nodeKey lv i)
    let (bad, d) := drillLoad d .node (nodeKey lv i) (nodePort d lv i n)
    if bad then drillBegin d v 1 5 else
    let w0 := if lv = 0 then BitVec.ofNat 64 (setBits n.w0.toNat 63 1 (b2n (portValid d i))) else n.w0
    setDrillData (setDrillData (drillBegin d v 1 0) 0 w0) 1 n.w1

/-- Whether the fields of a node entry are in range (R271, R281). -/
def nodeFits (d : Dev) (lv : Nat) (n : Node) : Bool :=
  (n.rateKbps == 0 || decide (64 ≤ n.rateKbps ∧ n.rateKbps ≤ 2000000000)) && decide (refillOf lv n.rateKbps ≤ n.burst * 2 ^ 24)
    && (lv == 0 || !n.valid || n.weight != 0) && (lv != 1 || decide (n.port < portCount d))

def writeNode (v : W64) (d : Dev) : Dev :=
  let lv := getF v Reg.DRILL_CMD_LEVEL
  let i := getF v Reg.DRILL_CMD_INDEX
  let k := nodeKey lv i
  let n := getNode d k
  let w0 := BitVec.ofNat 64 (drillData d 0 &&& nodeMask lv)
  let w1 := BitVec.ofNat 64 (bits (drillData d 1) 0 56)
  let x := { n with w0 := w0, w1 := w1 }
  if ¬ nodeExists d lv i then drillBegin d v 2 1
  else if ¬ nodeFits d lv x then drillBegin d v 2 2
  else if n.count ≠ 0 ∧ (x.band ≠ n.band ∨ (lv = 2 ∧ x.parent ≠ n.parent) ∨ (lv = 1 ∧ x.port ≠ n.port)) then drillBegin d v 2 4
  else
    let cap : Int := (x.burst : Int) * 2 ^ 24
    let t := if x.shapeEn ∧ ¬ n.shapeEn then cap else min n.tokens (max cap 0)
    eccWrite (putNode (drillBegin d v 2 0) k { x with tokens := t }) .node k (256 * 8 + nodePort d lv i x % 256) (nodePort d lv i x)

def readShaper (v : W64) (d : Dev) : Dev :=
  let lv := getF v Reg.DRILL_CMD_LEVEL
  let i := getF v Reg.DRILL_CMD_INDEX
  if ¬ nodeExists d lv i then drillBegin d v 3 1
  else
    let n := getNode d (nodeKey lv i)
    let (bad, d) := drillLoad d .node (nodeKey lv i) (nodePort d lv i n)
    if bad then drillBegin d v 3 5 else setDrillData (drillBegin d v 3 0) 0 (BitVec.ofNat 64 (ofSigned 64 n.tokens))

def readGcl (v : W64) (d : Dev) : Dev :=
  let i := getF v Reg.DRILL_CMD_INDEX
  if 131071 < i then drillBegin d v 4 1
  else
    let (bad, d) := drillLoad d .gcl i 0
    if bad then drillBegin d v 4 5 else setDrillData (drillBegin d v 4 0) 0 (BitVec.ofNat 64 (gclEntry d i))

/-- Whether a list entry lies in the range of an operating or pending copy of a port (R293). -/
def gclInUse (d : Dev) (i : Nat) : Bool :=
  d.drl.gates.any fun g => (g.2.op :: g.2.pend.toList).any fun c => decide (c.base ≤ i ∧ i < c.base + c.len)

def writeGcl (v : W64) (d : Dev) : Dev :=
  let i := getF v Reg.DRILL_CMD_INDEX
  let x := bits (drillData d 0) 0 40
  let iv := bits x 8 32
  if 131071 < i then drillBegin d v 5 1
  else if iv < 32 ∨ 1000000000 < iv then drillBegin d v 5 2
  else if gclInUse d i then drillBegin d v 5 3
  else
    let d := drillBegin d v 5 0
    eccWrite { d with drl := { d.drl with gcl := spPut (fun _ => 0) d.drl.gcl i x } } .gcl i (256 * 8) 0

/-- The entry in force and the cycles begun since the last change (R306). -/
def gateStatus (d : Dev) (g : Gate) : W64 :=
  let c := g.op
  let u := gateOffset c d.time
  let e := ((cycleSegs d c).findIdx? fun s => decide (s.1 ≤ u ∧ u < s.2.1)).getD 0
  let n := if c.enable ∧ c.change ≤ d.time ∧ c.cycle ≠ 0 then (d.time - c.change) / c.cycle + 1 else 0
  BitVec.ofNat 64 (b2n g.pend.isSome * 2 ^ 63 + (if c.enable then e else 0) % 1024 * 2 ^ 32 + n % 2 ^ 32)

def readGate (v : W64) (d : Dev) : Dev :=
  let p := getF v Reg.DRILL_CMD_INDEX
  if portCount d ≤ p then drillBegin d v 6 1
  else
    let g := getGate d p
    let (bad, d) := drillLoad d .gate p p
    if bad then drillBegin d v 6 5 else
    setDrillData (setDrillData (setDrillData (setDrillData (drillBegin d v 6 0) 0 g.op.w0) 1 g.op.w1) 2 g.op.w2) 3 (gateStatus d g)

def writeGate (v : W64) (d : Dev) : Dev :=
  let p := getF v Reg.DRILL_CMD_INDEX
  let w1 := BitVec.ofNat 64 (drillData d 1 &&& 0xA3FFFFFFFFFFFFFF)
  let c : GateCopy := ⟨BitVec.ofNat 64 (drillData d 0), w1, BitVec.ofNat 64 (bits (drillData d 2) 0 8), 0⟩
  if portCount d ≤ p then drillBegin d v 7 1
  else if c.len = 0 ∨ 1024 < c.len ∨ c.cycle < 1000 ∨ 1000000000 < c.cycle ∨ 131072 < c.base + c.len then drillBegin d v 7 2
  else
    let t := d.time + 10000
    let b := c.w0.toNat
    let n := if t ≤ b then 0 else ceilDiv (t - b) c.cycle
    eccWrite (putGate (drillBegin d v 7 0) p { getGate d p with pend := some { c with change := b + n * c.cycle } }) .gate p
      (256 * 8 + p % 256) p

def readMeter (v : W64) (d : Dev) : Dev :=
  let i := getF v Reg.DRILL_CMD_INDEX
  let m := getMeter d i
  let (bad, d) := drillLoad d .meter i 0
  if bad then drillBegin d v 8 5
  else
    let d := setDrillData (drillBegin d v 8 0) 0 (BitVec.ofNat 64 (m.tc / 2 ^ 24 % 2 ^ 24 * 2 ^ 32 + m.profile))
    setDrillData d 1 (BitVec.ofNat 64 (m.te / 2 ^ 24 % 2 ^ 24 * 2 ^ 32 + m.last))

def writeMeter (v : W64) (d : Dev) : Dev :=
  let i := getF v Reg.DRILL_CMD_INDEX
  let p := bits (drillData d 0) 0 12
  let pr := getMprof d p
  let m : Meter := ⟨p, bits pr.1.toNat 32 24 * 2 ^ 24, bits pr.2.toNat 32 24 * 2 ^ 24, d.time % 2 ^ 32⟩
  eccWrite (putMeter (drillBegin d v 9 0) i m) .meter i (256 * 8) 0

def readMprof (v : W64) (d : Dev) : Dev :=
  let i := getF v Reg.DRILL_CMD_INDEX
  if 4095 < i then drillBegin d v 10 1
  else
    let (bad, d) := drillLoad d .mprof i 0
    if bad then drillBegin d v 10 5
    else setDrillData (setDrillData (drillBegin d v 10 0) 0 (getMprof d i).1) 1 (getMprof d i).2

def writeMprof (v : W64) (d : Dev) : Dev :=
  let i := getF v Reg.DRILL_CMD_INDEX
  let w0 := drillData d 0 &&& 0x0EFFFFFFFFFFFFFF
  let w1 := bits (drillData d 1) 0 56
  if 4095 < i then drillBegin d v 11 1
  else if bits w0 57 2 = 3 ∨ 2000000000 < bits w0 0 32 ∨ 2000000000 < bits w1 0 32 then drillBegin d v 11 2
  else
    let d := drillBegin d v 11 0
    eccWrite { d with drl := { d.drl with mprofs := spPut (fun _ => (0, 0)) d.drl.mprofs i (BitVec.ofNat 64 w0, BitVec.ofNat 64 w1) } }
      .mprof i (256 * 8) 0

end Sys2Proof.Machine
end

