-- ==== Sys2Proof/Machine/CmdDrill.lean ====
section
/-!
DEFINITION. The commands of Drill that no register write starts.
-/
namespace Sys2Proof.Machine

/-- DRILL_SELECT (R274): Drill selects a packet for a ready port over 12 cycles and places it on EGQ. -/
def execDrillSelect (p : Nat) (s : State) : Host.Outcome State Fault Refusal :=
  run (drillSelect p) s

/-- SHAPER_REFILL (R281): At each refill tick a node's bucket is refilled at its current rate. -/
def execShaperRefill (level n : Nat) (s : State) : Host.Outcome State Fault Refusal :=
  run (shaperRefill level n) s

/-- NODE_SWEEP (R280): The node sweep marks inactive nodes FRESH. -/
def execNodeSweep (level n : Nat) (s : State) : Host.Outcome State Fault Refusal :=
  run (nodeSweep level n) s

/-- GATE_CHANGE (R287): A gate control entry comes into force and ending windows set purge marks. -/
def execGateChange (p t : Nat) (s : State) : Host.Outcome State Fault Refusal :=
  run (gateChange p t) s

/-- GATE_COPY_CHANGE (R292): At CHANGE_TIME the pending gate copy becomes the operating copy. -/
def execGateCopyChange (p : Nat) (s : State) : Host.Outcome State Fault Refusal :=
  run (gateCopyChange p) s

/-- PAUSE_WATCHDOG (R295): A priority paused without break for WD_US raises a fault and may disregard pause. -/
def execPauseWatchdog (p c : Nat) (s : State) : Host.Outcome State Fault Refusal :=
  run (pauseWatchdog p c) s

/-- PAUSE_DISREGARD_END (R295): Once pause has been clear for WD_US, received pause is honoured again. -/
def execPauseDisregardEnd (p c : Nat) (s : State) : Host.Outcome State Fault Refusal :=
  run (pauseDisregardEnd p c) s

/-- METER_UPDATE (R301): The meter engine refills buckets, decides the colour and lands it in PC.color. -/
def execMeterUpdate (a f k : Nat) (s : State) : Host.Outcome State Fault Refusal :=
  run (meterUpdate a f k) s

/-- METER_SWEEP (R302): The meter sweep updates one meter's buckets without a packet. -/
def execMeterSweep (n : Nat) (s : State) : Host.Outcome State Fault Refusal :=
  run (meterSweep n) s

end Sys2Proof.Machine
end

