-- ==== Sys2Proof/Machine/CmdFabric.lean ====
section
/-!
DEFINITION. The commands of the fabric, the cell buffer and the queues that no register write starts.
-/
namespace Sys2Proof.Machine

/-- STAGE1_TRANSFER (R218): A stage-1 crossbar connection carries up to 16 cells from a VOQ into an intermediate slice. -/
def execStage1Transfer (a m n : Nat) (s : State) : Host.Outcome State Fault Refusal :=
  run (stage1 a m n) s

/-- FREE_CACHE_REFILL (R230): A bank's free-pointer cache below 16 is refilled by a batch from its ring. -/
def execFreeCacheRefill (m b : Nat) (s : State) : Host.Outcome State Fault Refusal :=
  run (freeCacheRefill m b) s

/-- FREE_CACHE_WRITEBACK (R230): A bank's free-pointer cache above 48 writes a batch back to its ring. -/
def execFreeCacheWriteback (m b : Nat) (s : State) : Host.Outcome State Fault Refusal :=
  run (freeCacheWriteback m b) s

/-- STAGE2_TRANSFER (R218): A stage-2 crossbar connection carries cells from an EGQ to the egress acre's editor. -/
def execStage2Transfer (m e n : Nat) (s : State) : Host.Outcome State Fault Refusal :=
  run (stage2 m e n) s

/-- EGRESS_EDIT (R113): The egress editor applies the edit list and the CE mark to a packet. -/
def execEgressEdit (e : Nat) (s : State) : Host.Outcome State Fault Refusal :=
  run (egressEdit e) s

/-- ACRE_MOVE_DRAINED (R220): When INFLIGHT of the old acre reaches 0, the held packets enter the new VOQ and the move ends. -/
def execAcreMoveDrained (a : Nat) (s : State) : Host.Outcome State Fault Refusal :=
  run (acreMoveDrained a) s

/-- ACRE_MOVE_HOLD_EXPIRY (R220): When HOLD_NS has passed, held packets are released and the move enters STALE. -/
def execAcreMoveHoldExpiry (a : Nat) (s : State) : Host.Outcome State Fault Refusal :=
  run (acreMoveExpiry a) s

/-- REPLICATE (R231): The replicator walks a multicast group and enqueues one copy per member. -/
def execReplicate (m : Nat) (s : State) : Host.Outcome State Fault Refusal :=
  run (replicate m) s

/-- SPILL_MOVE (R252): The spill engine moves the oldest tail packet into the open page buffer of the middle. -/
def execSpillMove (q m : Nat) (s : State) : Host.Outcome State Fault Refusal :=
  run (spillMove q m) s

/-- PAGE_WRITE (R253): A full page is encrypted by RIND_X and written to the deep store. -/
def execPageWrite (q m : Nat) (waited : Bool) (s : State) : Host.Outcome State Fault Refusal :=
  runMem (pageWrite q m waited) s

/-- REFILL (R256): The refill reads pages of the middle, checks them and appends records to the head. -/
def execRefill (q m : Nat) (s : State) : Host.Outcome State Fault Refusal :=
  runMem (refill q m) s

/-- REFILL_NO_CELLS (R256): A record without cells for 10 µs is dropped and the refill goes on. -/
def execRefillNoCells (q m : Nat) (s : State) : Host.Outcome State Fault Refusal :=
  run (refillNoCells q m) s

/-- PAGE_CACHE_REFILL (R260): A slice's page-pointer cache below 32 is refilled by a batch from the free-page ring. -/
def execPageCacheRefill (m : Nat) (s : State) : Host.Outcome State Fault Refusal :=
  run (pageCacheRefill m) s

/-- PAGE_CACHE_WRITEBACK (R260): A slice's page-pointer cache above 96 writes a batch back to the ring. -/
def execPageCacheWriteback (m : Nat) (s : State) : Host.Outcome State Fault Refusal :=
  run (pageCacheWriteback m) s

/-- CAPTURE_WRITE (R267): The capture writer writes a record to its ring, advances PROD and raises notices. -/
def execCaptureWrite (r : Nat) (s : State) : Host.Outcome State Fault Refusal :=
  runMem (captureWrite r) s

end Sys2Proof.Machine
end

