-- ==== Sys2Proof/Machine/Furrow.lean ====
section
/-!
DEFINITION. The furrow machine (R30 to R79, R508, R509): the row-step, parking, pass ends, the entry, the deadline, quiesce,
program banks, roles, takeovers and the ordered rehash.
-/
namespace Sys2Proof.Machine

/-! The nanoword (R85, R92). -/

/-- The first flight of a packet that lands in stage W of row r, in the order of R92. -/
def nextDue (x : Furrow) (l : PktRef) (p : Pkt) (r : Nat) : Option Nat :=
  let mine := fun (e : InFlight) => e.slot == l.slot && e.gen == p.gen && e.due == dueAt p (r + 1)
  match x.inFlight.findIdx? fun e => mine e && !isCollect e.what with
  | some k => some k
  | none => x.inFlight.findIdx? mine

/-- Flight k lands, whatever its sort. -/
def landAny (a f k : Nat) (d : Dev) : Dev :=
  match flightAt d a f k with
  | some (.lookup ..) => lookupResult a f k d
  | some (.collect ..) => collectLanding a f k d
  | some (.meter ..) => meterUpdate a f k d
  | _ => d

/-- Results whose distance ends with this row land in its stage W, at most n of them. -/
def landDue (l : PktRef) (r : Nat) : Nat → Dev → Dev
  | 0, d => d
  | n + 1, d =>
    match (getPkt d l).bind fun p => nextDue (getFur d l.a l.f) l p r with
    | some k => landDue l r n (landAny l.a l.f k d)
    | none => d

/-- Every result that lands in stage W of row r (R33, R92). -/
def rowLand (l : PktRef) (r : Nat) (d : Dev) : Dev := landDue l r (getFur d l.a l.f).inFlight.length d

/-- A nanoword executes (R85): the device after it, and whether it ends in the trap of code 0xF. The results that are due land
after its stage X and before its own writes (R92). -/
def nanoRun (l : PktRef) (nw imm : Nat) (d : Dev) : Dev × Bool :=
  let d := nanoIssue l nw (onPkt l (nanoData nw imm) d)
  match getPkt d l with
  | none => (d, false)
  | some p =>
    match nanoEdits nw p with
    | none => (d, true)
    | some p =>
      let d := counterPairOp l nw (putPkt d l p)
      let d := if nanoMeEn nw then meterOp l (nanoMeSrc nw) d else d
      (onPkt l (nanoWrites nw) (inRow l d fun _ r => rowLand l r d), false)

/-! Top-down accounting (R508, R509). -/

/-- Change class c of every row of a furrow from row r on: up by one, or down by one. -/
def tdFrom (d : Dev) (a f r c : Nat) (up : Bool) : Dev :=
  (List.range (24 - r)).foldl (fun d k =>
    let o := Reg.FURROW_TD a f (r + k) c
    wr d o (if up then rd d o + 1 else rd d o - 1)) d

def tdAll (d : Dev) (a f c n : Nat) : Dev := (List.range 24).foldl (fun d r => bumpN d (Reg.FURROW_TD a f r c) n) d

/-- A packet that leaves its furrow. -/
def tdRetire (d : Dev) (a f : Nat) (p : Pkt) : Dev := tdAll (tdAll d a f 0 1) a f 1 (pcGet p Pc.pass)

/-- A packet that is dropped; the rows that it does not reach see its vacancy (assumption 20). -/
def tdWaste (d : Dev) (a f : Nat) (p : Pkt) : Dev :=
  let d := tdAll d a f 1 (pcGet p Pc.pass)
  let d := (List.range p.lastRow).foldl (fun d r => bumpN d (Reg.FURROW_TD a f r 1) 1) d
  match p.loc with
  | .row _ _ => tdFrom d a f p.lastRow 3 true
  | _ => d

/-! Leaving and dropping. -/

/-- The slot of a packet is free and its generation has moved on (R45). -/
def freeSlot (d : Dev) (l : PktRef) : Dev :=
  let x := getFur d l.a l.f
  putFur d l.a l.f { furPut x l.slot none with
    gens := spPut (fun _ => 0) x.gens l.slot ((spGet (fun _ => 0) x.gens l.slot + 1) % 16),
    returnQ := x.returnQ.filter (· ≠ l.slot) }

def furDropCnt (d : Dev) (a f code : Nat) : Dev := bump d (Reg.FURROW_DROP a f (code - 0x40))

/-- A REHASH drop of a straggler of the last rehash counts in REHASH_STATUS.DROPS (R80). -/
def rehashCnt (d : Dev) (l : PktRef) (p : Pkt) (code : Nat) : Dev :=
  let o := Reg.REHASH_STATUS l.a
  if code = 0x45 ∧ rdF d o Reg.REHASH_STATUS_FROM = l.f ∧ rdF d o Reg.REHASH_STATUS_ENTRY = p.mapIdx then
    bumpSat d o Reg.REHASH_STATUS_DROPS 1
  else d

/-- The furrow drops a packet under a code of R59. -/
def furDrop (d : Dev) (l : PktRef) (p : Pkt) (code : Nat) : Dev :=
  releaseFrame (tdWaste (freeSlot (furDropCnt (rehashCnt d l p code) l.a l.f code) l) l.a l.f p) p

/-- A packet whose disposition is DROP: counted under its rotation reason (R107, R108). -/
def rotDrop (d : Dev) (l : PktRef) (p : Pkt) : Dev :=
  let r := pcGet p Pc.dropReason
  let k := if 0x60 ≤ r ∧ r < 0x80 then r - 0x60 else 0x1F
  releaseFrame (tdWaste (freeSlot (bump d (Reg.FURROW_RDROP l.a l.f k)) l) l.a l.f p) p

/-- A punt enters its acre's punt queue, or is dropped PUNT_QUEUE_FULL (R146). -/
def puntEnqueue (d : Dev) (a : Nat) (p : Pkt) : Dev :=
  let q := spGet (fun _ => []) d.har.puntQ a
  if 256 ≤ q.length then releaseFrame (bump d (Reg.HARROW_DROP a 6)) p
  else { d with har := { d.har with puntQ := spPut (fun _ => []) d.har.puntQ a (q ++ [p]) } }

/-- Packets of a furrow that belong to a domain, with their slots. -/
def domainPkts (x : Furrow) (dom : Nat) : List (Nat × Pkt) := (furPkts x).filter fun e => pcGet e.2 Pc.domain == dom

/-- Whether q entered its domain before p. -/
def earlier (q p : Pkt) : Bool := decide (2048 ≤ (q.seq + 4096 - p.seq) % 4096)

/-- Whether a packet of the domain that entered before is still in the furrow (R54). -/
def hasEarlier (x : Furrow) (slot : Nat) (p : Pkt) : Bool :=
  (domainPkts x (pcGet p Pc.domain)).any fun e => e.1 != slot && earlier e.2 p

/-- The mirror copy of a packet (R263): the frame as stage 1 reads it, on the session's queue. -/
def mirrorCopy (p : Pkt) (q : Nat) : Pkt :=
  let p := pcSet (pcSet p Pc.disposition 1) Pc.egressQueue q
  { p with asRx := true, edits := [], edata := [], mirrorTo := none, ppCells := 0, grant := none, ect := false, queue := q }

/-- A packet leaves its furrow for the fabric or for the punt path (R43, R54, R263). -/
def furLeave (d : Dev) (l : PktRef) (p : Pkt) : Dev :=
  let d := freeSlot (tdRetire d l.a l.f p) l
  if pcGet p Pc.disposition = 4 then puntEnqueue (returnGrant d p) l.a { p with edits := [], edata := [], grant := none }
  else match p.mirrorTo with
    | none => enterStage1 d l.a p
    | some q =>
      let k := d.fab.refCtr + 1
      let d := setStRef { d with fab := { d.fab with refCtr := k } } k 2
      let p := { p with stRef := k }
      enterStage1 (enterStage1 d l.a { p with mirrorTo := none }) l.a (mirrorCopy p q)

/-! Quiesce (R60 to R64). -/

def profilePending (d : Dev) : Bool := flagF d Reg.PROFILE_STATUS Reg.PROFILE_STATUS_PENDING

/-- The drop that a pending request makes of a packet at a safe point (R63, R75). When several requests meet one packet, a holding
removal comes before an isolation or a planned takeover, and these before an expired rehash (DESIGN CHOICE, log entry 141). -/
def quiesceDrop (d : Dev) (l : PktRef) (p : Pkt) : Option Nat :=
  if flagF d Reg.HOST_HOLDING_STATUS Reg.HOST_HOLDING_STATUS_BUSY ∧
     rdF d Reg.HOST_HOLDING_STATUS Reg.HOST_HOLDING_STATUS_HOLDING = pcGet p Pc.holding then some 0x4C
  else if (getFur d l.a l.f).isolating then some (if (getAcre d l.a).takeoverOf = some l.f then 0x45 else 0x4E)
  else if p.rehashDrop then some 0x45
  else none

/-! Parking (R49 to R53). -/

/-- Whether a packet occupies a park slot of a row. -/
def inPark (r : Nat) (p : Pkt) : Bool :=
  match p.loc with | .park q _ => q == r | .wokenWait q _ => q == r | _ => false

/-- Packets in the park slots of a row. -/
def parkedIn (x : Furrow) (r : Nat) : Nat := ((furPkts x).filter fun e => inPark r e.2).length

/-- Park a packet in a row with an awaited condition, or drop it PARK_FULL (R50). A head that parks again stays head. -/
def park (d : Dev) (l : PktRef) (p : Pkt) (r cond : Nat) (keep : Bool) : Dev :=
  let x := getFur d l.a l.f
  if 64 ≤ parkedIn x r then furDrop d l { p with loc := .park r cond } 0x41
  else
    let p := { p with loc := .park r cond, waitTaken := false, parkSeq := if keep then p.parkSeq else x.parkCtr }
    tdFrom (putPkt (putFur d l.a l.f { x with parkCtr := x.parkCtr + 1 }) l p) l.a l.f r 3 true

/-- Whether an arriving packet finds one of its domain parked in its row (R49). -/
def orderWait (x : Furrow) (slot r : Nat) (p : Pkt) : Bool :=
  (domainPkts x (pcGet p Pc.domain)).any fun e => e.1 != slot && (inPark r e.2 || e.2.loc == .row r true)

/-! Conditions (R40). -/

def condTrue (d : Dev) (l : PktRef) (p : Pkt) (c : Nat) : Bool :=
  if c = 0 then true
  else if c = 1 then false
  else if c < 6 then bit p.flags0 (c - 2)
  else if c < 0x0A then bit p.flags1 (c - 6)
  else if c < 0x1A then bit p.conds c
  else if c = 0x1A then pcGet p Pc.color == 0
  else if c = 0x1B then pcGet p Pc.color == 1
  else if c = 0x1C then decide (2 ≤ pcGet p Pc.color)
  else if c = 0x1D then pcGet p Pc.pass == 0
  else if c = 0x1E then pcGet p Pc.pass == 3
  else if c = 0x1F then pcGet p Pc.epoch == 1
  else if c = 0x20 then decide (pcGet p Pc.holding < 8)
  else if c < 0x28 then pcGet p (Pc.flag (16 + (c - 0x21))) == 1
  else if c = 0x28 then decide (3 * rdF d (Reg.PKT_DEADLINE l.a) Reg.PKT_DEADLINE_NS ≤ 4 * (d.time - pcGet p Pc.entryTime))
  else if c = 0x29 then bit (getFur d l.a l.f).lfsr 0
  else if c < 0x30 then false
  else pcGet p (Pc.flag (c - 0x30)) == 1

/-! Program stores (R34 to R36). -/

/-- Keys of the stores: copy, bank, row and address. -/
def microKey (copy bank r a : Nat) : Nat := ((copy * 2 + bank) * 24 + r) * 1024 + a
def nanoKey (copy bank r n : Nat) : Nat := ((copy * 2 + bank) * 24 + r) * 256 + n

/-- The store copy that a furrow is connected to: 8 a + port / 2; an ACTIVE furrow for which no port is left reads copy 0 of its
acre (assumption 22). -/
def storeCopy (d : Dev) (a f : Nat) : Nat := 8 * a + (getFur d a f).port / 2 % 8

def microWord (d : Dev) (copy bank r a : Nat) : Nat := spGet (fun _ => 0) d.prog.micro (microKey copy bank r a)
def nanoWord (d : Dev) (copy bank r n : Nat) : Nat := spGet (fun _ => 0) d.prog.nano (nanoKey copy bank r n)

/-- The copies of an acre from which a bad word is rewritten, then those of the other acres (R36). -/
def spareCopies (a : Nat) : List Nat :=
  ((List.range 8).map (8 * a + ·)) ++ ((List.range 32).filter fun c => c / 8 ≠ a)

/-- A read of a store word: false when it is uncorrectable. The word is rewritten and the fault raised either way (R36). -/
def storeRead (d : Dev) (l : PktRef) (ram : Ram) (key : Nat → Nat) (copy : Nat) (fix : Nat → Dev → Dev) : Bool × Dev :=
  let e := ecc d ram (key copy)
  if e = 0 then (true, d)
  else if e = 1 then (true, raise (setEcc d ram (key copy) 0) Fk.storeCe (32 * l.a + l.f) 0 5 5)
  else
    let d := match (spareCopies l.a).find? fun c => ecc d ram (key c) ≠ 2 with
      | some c => setEcc (fix c d) ram (key copy) 0
      | none => d
    (false, raise d Fk.storeUe (32 * l.a + l.f) 0 5 5)

def microRead (d : Dev) (l : PktRef) (bank r a : Nat) : Bool × Dev :=
  let c := storeCopy d l.a l.f
  storeRead d l .micro (fun k => microKey k bank r a) c fun k d =>
    { d with prog := { d.prog with micro := spPut (fun _ => 0) d.prog.micro (microKey c bank r a) (microWord d k bank r a) } }

def nanoRead (d : Dev) (l : PktRef) (bank r n : Nat) : Bool × Dev :=
  let c := storeCopy d l.a l.f
  storeRead d l .nano (fun k => nanoKey k bank r n) c fun k d =>
    { d with prog := { d.prog with nano := spPut (fun _ => 0) d.prog.nano (nanoKey c bank r n) (nanoWord d k bank r n) } }

/-! Capture and sampling at the end of a last pass (R262 to R266). -/

/-- Record fields of a capture slot (R266). -/
def capBytes (p : Pkt) (seq : Nat) (sampled mirrored : Bool) : List Byte :=
  let len := p.rxLen
  let n := min 128 (p.rxLen - 4)
  let w := len * 2 ^ 50 + pcGet p Pc.dropReason * 2 ^ 42 + pcGet p Pc.puntReason * 2 ^ 34 + pcGet p Pc.disposition * 2 ^ 30
    + pcGet p Pc.color * 2 ^ 28 + b2n sampled * 2 ^ 27 + b2n mirrored * 2 ^ 26 + pcGet p Pc.holding * 2 ^ 18 + inPort p
  leBytes 8 p.rxTime ++ leBytes 8 (seq % 2 ^ 32 * 2 ^ 32 + pcGet p Pc.flowHash) ++ leBytes 8 w
    ++ leBytes 8 (pcGet p Pc.egressQueue * 2 ^ 48 + pcGet p Pc.mcastGroup * 2 ^ 32 + n)
    ++ p.frame.take n ++ List.replicate (128 - min n p.frame.length) 0


/-- Make the record of a packet for a ring (R265, R267). -/
def capture (d : Dev) (a r : Nat) (p : Pkt) (sampled mirrored : Bool) : Dev :=
  if capField d r 1 Reg.CAP_RING_ENABLE = 0 then d
  else
    let seq := capNext d r
    if capField d r 1 Reg.CAP_RING_MODE = 1 ∧ capField d r 1 Reg.CAP_RING_SLOTS ≤ seq - capField d r 3 Reg.CAP_RING_CONS then
      bumpSat d (Reg.CAP_RING r 4) Reg.CAP_RING_FULL_DROPS 1
    else
      let lost := fun (d : Dev) => bumpSat d (Reg.CAP_RING r 4) Reg.CAP_RING_LOST 1
      let cp := rdF d Reg.CAPTURE_POOL Reg.CAPTURE_POOL_POOL
      let d := if flagF d Reg.CAPTURE_POOL Reg.CAPTURE_POOL_VALID && llNamed d cp then recordConflict d 2 cp 0x02 0x05 2 else d
      if ¬ flagF d Reg.CAPTURE_POOL Reg.CAPTURE_POOL_VALID then lost d
      else match (startPool d cp).bind fun q => poolPick d a q 1 with
        | none => lost d
        | some q =>
          match cellsTake d a 1 with
          | (some (c :: _), d) =>
            let d := bump (poolCharge d a q 1) (Reg.QUEUE_CNT 11)
            { d with fab := { d.fab with capSeq := spPut (fun _ => 0) d.fab.capSeq r (seq + 1),
                                         caps := d.fab.caps ++ [⟨r, seq, capBytes p seq sampled mirrored, a, c, q⟩] } }
          | (_, d) => lost d

/-- One step of an LFSR (R530). -/
def lfsrStep (s : Nat) : Nat := if s % 2 = 1 then (s / 2) ^^^ 0xE0000200 else s / 2

/-- Sampling and mirroring of a packet whose last pass has ended: the records are made, and the copy to a queue is noted. -/
def sampleMirror (d : Dev) (l : PktRef) (p : Pkt) : Dev × Pkt :=
  let port := inPort p
  let so := Reg.SAMPLE port
  let n := rdF d so Reg.SAMPLE_N
  let sampled := flagF d so Reg.SAMPLE_EN && decide (n ≠ 0) && decide ((getFur d l.a l.f).lfsr % 2 ^ 24 < 2 ^ 24 / n)
  let wants := pcGet p (Pc.flag flMirror) == 1
  let mo := Reg.MIRROR_MAP (pcGet p Pc.holding)
  let mir := wants && flagF d mo Reg.MIRROR_MAP_VALID
  let d := if wants && !mir then bump d (Reg.QUEUE_CNT 10) else d
  let ses := Reg.MIRROR_SESSION (rdF d mo Reg.MIRROR_MAP_SESSION)
  let toRing := mir && flagF d ses Reg.MIRROR_SESSION_TO_RING
  let mr := rdF d ses Reg.MIRROR_SESSION_RING
  let sr := rdF d so Reg.SAMPLE_RING
  let d := if sampled then capture d l.a sr p true (toRing && mr == sr) else d
  let d := if toRing && !(sampled && mr == sr) then capture d l.a mr p false true else d
  let disp := pcGet p Pc.disposition
  if mir && flagF d ses Reg.MIRROR_SESSION_TO_QUEUE && decide (1 ≤ disp ∧ disp ≤ 3) then
    if flagF d Reg.CAPTURE_POOL Reg.CAPTURE_POOL_VALID then (d, { p with mirrorTo := some (rdF d ses Reg.MIRROR_SESSION_QUEUE) })
    else (bump d (Reg.QUEUE_CNT 10), p)
  else (d, p)

/-! Pass ends (R43, R46, R54). -/

/-- A packet whose last pass ends in a leaving disposition: it leaves, waits in the exit hold, or is dropped PARK_FULL. -/
def exitPkt (d : Dev) (l : PktRef) (p : Pkt) : Dev :=
  let x := getFur d l.a l.f
  if hasEarlier x l.slot p then
    if 256 ≤ ((furPkts x).filter fun e => e.2.loc == .exitHold).length then furDrop d l { p with loc := .exitHold } 0x41
    else putPkt d l { p with loc := .exitHold }
  else furLeave d l { p with loc := .exitHold }

/-- A packet whose pass ends in DECRYPT enters the input queue of RIND_A, with room in the look-aside store (R325). -/
def decryptEntry (d : Dev) (l : PktRef) (p : Pkt) : Dev :=
  let q := spGet (fun _ => []) d.rind.decQ l.a
  let n := p.frame.length
  let drop := fun (d : Dev) => releaseFrame (tdWaste (freeSlot d l) l.a l.f p) p
  if p.decSa = none then drop (rindDrop d 12 (8 + l.a))
  else if 512 ≤ q.length ∨ 1048576 < lookasideUsed d l.a + n then drop (rindDrop d 13 (8 + l.a))
  else
    let d := setLookaside d l.a (lookasideUsed d l.a + n)
    let d := { d with rind := { d.rind with decQ := spPut (fun _ => []) d.rind.decQ l.a (q ++ [(l.f, l.slot, p.gen, n)]) } }
    putPkt d l { p with loc := .atRind }

/-- The end of a pass: `safe` says whether the microword that ended it is a safe point, `start` where a next pass starts. The capture
record of a packet that is then dropped NO_DISPOSITION shows PC.drop_reason as the rotation left it (DESIGN CHOICE, log entry 140). -/
def passEnd (d : Dev) (l : PktRef) (p : Pkt) (start : Nat) (safe : Bool) : Dev :=
  let p := { p with lastRow := 24, loc := .exitHold, ride := none }
  let disp := pcGet p Pc.disposition
  if disp = 6 ∨ disp = 7 then
    if pcGet p Pc.pass = 3 then furDrop d l p 0x42
    else
      let p := pcSet (pcSet p Pc.pass (pcGet p Pc.pass + 1)) Pc.upc start
      let p := { p with safeHold := safe && profilePending d, lastRow := 0 }
      if disp = 7 then decryptEntry d l p
      else
        let x := getFur d l.a l.f
        if 64 ≤ x.returnQ.length then furDrop d l p 0x4A
        else putPkt (putFur d l.a l.f { x with returnQ := x.returnQ ++ [l.slot] }) l { p with loc := .returning }
  else
    match quiesceDrop d l p with
    | some c => furDrop d l p c
    | none =>
      let (d, p) := sampleMirror d l (pcSet p Pc.safeSteps 0)
      if disp = 0 ∨ 8 ≤ disp then furDrop d l p 0x49
      else if disp = 5 then rotDrop d l p
      else exitPkt d l p

/-! The row-step (R30, R38, R85). -/

/-- A taken TRAP (R39, R115). -/
def trapDrop (d : Dev) (l : PktRef) (p : Pkt) (r code : Nat) : Dev :=
  let o := Reg.FURROW_TRAP l.a l.f
  let d := wrFs d o [(Reg.FURROW_TRAP_COUNT, satAdd 32 (rdF d o Reg.FURROW_TRAP_COUNT) 1), (Reg.FURROW_TRAP_ROW, r),
    (Reg.FURROW_TRAP_UPC, pcGet p Pc.upc), (Reg.FURROW_TRAP_CODE, code), (Reg.FURROW_TRAP_VALID, 1)]
  furDrop d l { p with lastRow := r + 1 } 0x46

/-- A packet whose pass has ended goes on to row 23 without executing, and meets the pass end there (R32). -/
def rideOn (d : Dev) (l : PktRef) (p : Pkt) (r start : Nat) (safe : Bool) : Dev :=
  if 23 ≤ r then passEnd d l p start safe else putPkt d l { p with loc := .row (r + 1) false, ride := some (start, safe) }

/-- The next PC.upc of microword u (R38), as stage S computes it. -/
def nextUpc (p : Pkt) (u : Nat) (taken : Bool) : Nat :=
  let seq := uSeq u
  let inc := (pcGet p Pc.upc + 1) % 1024
  if seq = 2 then (if taken then (if bit (uImm u) 0 then pcGet p Pc.ret else uTarget u) else inc)
  else if (seq = 4 ∨ seq = 5 ∨ seq = 6) ∧ taken then uTarget u
  else inc

/-- After the nanoword: PC.upc, PC.ret and PC.safe_steps are written, and the packet goes on, ends its pass or is dropped. `next` is
the PC.upc of stage S. A 49th row-step without SAFE is dropped SAFE_BOUND also when it ends the last pass (DESIGN CHOICE, log
entry 142). -/
def rowFinish (d : Dev) (l : PktRef) (p : Pkt) (r u next : Nat) (taken : Bool) : Dev :=
  let seq := uSeq u
  let p := if seq = 4 ∧ taken then pcSet p Pc.ret ((pcGet p Pc.upc + 1) % 1024) else p
  let p := if seq = 6 ∧ taken then pcSet p Pc.disposition 6 else p
  let steps := if uSafe u then 0 else pcGet p Pc.safeSteps + 1
  let p := { pcSet (pcSet p Pc.upc next) Pc.safeSteps steps with lastRow := r + 1, loc := .row r false, waitTaken := false, safeHold := false }
  if 48 < steps then raise (furDrop d l p 0x48) Fk.safeBound (32 * l.a + l.f) 0 0 0
  else
    match if uSafe u then quiesceDrop d l p else none with
    | some c => furDrop d l p c
    | none =>
      if ((seq = 5 ∨ seq = 6) ∧ taken) ∨ r = 23 then rideOn d l p r next (uSafe u)
      else if uSafe u && profilePending d then park d l { p with safeHold := true } (r + 1) 65 false
      else putPkt d l { p with loc := .row (r + 1) false }

/-- Results that are due land in the row, and its packet goes on with what `g` makes of it. -/
def landThen (d : Dev) (l : PktRef) (r : Nat) (g : Dev → Pkt → Dev) : Dev :=
  let d := rowLand l r d
  match getPkt d l with
  | none => d
  | some p => g d p

/-- The row-step of a packet whose microword has operation `seq`; with another packet or another operation, nothing happens. The
row-step of a packet that rides is NOP's (DESIGN CHOICE, log entry 7). -/
def rowStep (l : PktRef) (seq : Nat) (d : Dev) : Dev :=
  match getPkt d l with
  | none => d
  | some p =>
    match p.loc with
    | .row r woken =>
      match p.ride with
      | some (start, safe) =>
        if seq = 0 then landThen d l r fun d p => rideOn d l { p with lastRow := r + 1 } r start safe else d
      | none =>
        let bank := pcGet p Pc.epoch
        let upc := pcGet p Pc.upc
        let u := microWord d (storeCopy d l.a l.f) bank r upc
        if uSeq u ≠ seq then d
        else if ¬ woken ∧ orderWait (getFur d l.a l.f) l.slot r p then park d l p r 64 false
        else
          match microRead d l bank r upc with
          | (false, d) => furDrop d l { p with lastRow := r + 1 } 0x47
          | (true, d) =>
            let taken := condTrue d l p (uCond u) || (woken && p.waitTaken && uSeq u == 3)
            let next := nextUpc p u taken
            if seq = 0 then landThen d l r fun d p => rowFinish d l p r u next taken
            else if seq = 7 ∧ taken then trapDrop d l p r (uImm u)
            else if seq = 3 ∧ ¬ taken then park d l p r (uCond u) woken
            else
              match nanoRead d l bank r (uNano u) with
              | (false, d) => furDrop d l { p with lastRow := r + 1 } 0x47
              | (true, d) =>
                let nw := nanoWord d (storeCopy d l.a l.f) bank r (uNano u)
                if nanoBad p nw then trapDrop (opCnt d l 6 1) l p r 0xE
                else
                  let (d, full) := nanoRun l nw (if seq = 2 ∨ seq = 7 then 0 else uImm u) d
                  match getPkt d l with
                  | none => d
                  | some p => if full then trapDrop (opCnt d l 6 1) l p r 0xF else rowFinish d l p r u next taken
    | _ => d

/-! Wakes, the exit hold, the deadline (R51 to R57). -/

/-- Whether a parked packet is the head of its domain's queue in its row. -/
def isHead (x : Furrow) (slot r : Nat) (p : Pkt) : Bool :=
  !(domainPkts x (pcGet p Pc.domain)).any fun e =>
    e.1 != slot && ((inPark r e.2 && decide (e.2.parkSeq < p.parkSeq)) || e.2.loc == .row r true)

/-- A woken packet re-enters stage F in an empty slot of class 1 FRONT or 2 BACK, which it fills (R53, R508). -/
def reenter (d : Dev) (l : PktRef) (p : Pkt) (r cls : Nat) : Dev :=
  tdFrom (putPkt d l { p with loc := .row r true }) l.a l.f r (cls + 1) false

/-- Whether a parked packet's awaited condition holds (R51); ORDER holds for a head, QUIESCE once no profile change waits. -/
def wakeDue (d : Dev) (l : PktRef) (p : Pkt) (c : Nat) : Bool :=
  if c = 64 then true else if c = 65 then !profilePending d else condTrue d l p c

/-- Whether a packet that parked in row r before p is woken, or due to wake, and waits for an empty cycle (R53). -/
def wokenBefore (d : Dev) (l : PktRef) (r : Nat) (p : Pkt) : Bool :=
  let x := getFur d l.a l.f
  (furPkts x).any fun e => e.1 != l.slot && decide (e.2.parkSeq < p.parkSeq) &&
    (match e.2.loc with
      | .wokenWait q _ => q == r
      | .park q c => q == r && isHead x e.1 r e.2 && wakeDue d { l with slot := e.1 } e.2 c
      | _ => false)

/-- The head of a domain queue wakes (R51) and re-enters its row in an empty cycle, the earliest parked first (R53); `cls` is 0 when
no empty cycle is there yet. -/
def parkWake (l : PktRef) (cls : Nat) (d : Dev) : Dev :=
  match getPkt d l with
  | none => d
  | some p =>
    match p.loc with
    | .park r c =>
      if wakeDue d l p c ∧ isHead (getFur d l.a l.f) l.slot r p then
        let p := { p with safeHold := false, waitTaken := decide (c < 64) }
        if cls = 0 ∨ wokenBefore d l r p then putPkt d l { p with loc := .wokenWait r false } else reenter d l p r (min cls 2)
      else d
    | .wokenWait r _ => if cls = 0 ∨ wokenBefore d l r p then d else reenter d l p r (min cls 2)
    | _ => d

/-- A woken packet asks for a forced bubble (R53), once; requests made before one admission share its bubble (DESIGN CHOICE, log
entry 143). -/
def forcedBubble (l : PktRef) (d : Dev) : Dev :=
  match getPkt d l with
  | none => d
  | some p =>
    match p.loc with
    | .wokenWait r false =>
      let d := putPkt d l { p with loc := .wokenWait r true }
      putFur d l.a l.f { getFur d l.a l.f with bubble := true }
    | _ => d

/-- A packet in the exit hold leaves once it may (R54); a straggler of an expired rehash is dropped there instead, so that no later
packet of its flow overtakes it (R76). -/
def exitRelease (l : PktRef) (d : Dev) : Dev :=
  match getPkt d l with
  | none => d
  | some p =>
    if p.loc = .exitHold ∧ ¬ hasEarlier (getFur d l.a l.f) l.slot p then
      if p.rehashDrop then furDrop d l p 0x45 else furLeave d l p
    else d

/-- Whether the time since a packet's entry exceeds PKT_DEADLINE of its acre, as the register stands (R57, R58). -/
def pastDeadline (d : Dev) (a : Nat) (p : Pkt) : Bool :=
  decide (rdF d (Reg.PKT_DEADLINE a) Reg.PKT_DEADLINE_NS < d.time - pcGet p Pc.entryTime)

/-- A packet past its deadline is dropped (R57). One at RIND_A is dropped at its return. -/
def lateDrop (l : PktRef) (d : Dev) : Dev :=
  match getPkt d l with
  | none => d
  | some p => if p.loc = .atRind ∨ p.loc = .reparse ∨ ¬ pastDeadline d l.a p then d else furDrop d l p 0x40

/-- A packet would run past 48 row-steps without a safe point (R62). -/
def safeBoundDrop (l : PktRef) (d : Dev) : Dev :=
  inRow l d fun p r =>
    let u := microWord d (storeCopy d l.a l.f) (pcGet p Pc.epoch) r (pcGet p Pc.upc)
    if p.ride = none ∧ 48 ≤ pcGet p Pc.safeSteps ∧ ¬ uSafe u then raise (furDrop d l p 0x48) Fk.safeBound (32 * l.a + l.f) 0 0 0 else d

/-! The furrow entry (R47, R48, R56). -/

/-- Drop a packet before its first admission. -/
def entryDrop (d : Dev) (a f : Nat) (p : Pkt) (code : Nat) : Dev := releaseFrame (furDropCnt d a f code) p

/-- The lowest free context slot. -/
def freeCtxSlot (x : Furrow) : Option Nat := firstIdx 2048 fun s => (spGet (fun _ => none) x.pkts s).isNone

/-- An empty admission cycle: every row sees it, with its class. -/
def emptyCycle (d : Dev) (a f c : Nat) : Dev := tdAll d a f c 1

/-- The packet as first entry makes it (R42, R47, R60, R90, R114). -/
def firstEntry (d : Dev) (x : Furrow) (slot : Nat) (p : Pkt) : Pkt :=
  let h := pcGet p Pc.flowHash
  let dom := h % 4096
  let p := [(Pc.entryTime, d.time), (Pc.domain, dom), (Pc.epoch, rdF d Reg.PROG_EPOCH Reg.PROG_EPOCH_EPOCH), (Pc.pass, 0),
    (Pc.upc, 0), (Pc.ret, 0), (Pc.safeSteps, 0), (Pc.egressQueue, 0), (Pc.mcastGroup, 0), (Pc.disposition, 0), (Pc.color, 0),
    (Pc.puntReason, 0), (Pc.dropReason, 0), (Pc.collectFault, 0x1F), (ctxFld 12 0 1280, 0)].foldl (fun p e => pcSet p e.1 e.2) p
  { p with waitTaken := false, gen := spGet (fun _ => 0) x.gens slot, seq := spGet (fun _ => 0) x.nextSeq dom, mapIdx := bits h 12 8,
           loc := .row 0 false, ride := none, lastRow := 0, flags0 := 0, flags1 := 0, conds := 0, reqs := [0, 0, 0, 0], edits := [],
           edata := [], rehashDrop := false, decSa := none, safeHold := false, parkSeq := 0 }

/-- The context of a packet is written at its first admission: an uncorrectable error that an injection makes in it fails the context check
(R437 code 0, R439). A corrected one has no kind of its own and is not reported. -/
def contextCheck (d : Dev) (a f : Nat) : Dev :=
  let j := injectAt d 0 (256 * 2 + 32 * a + f) 0
  if j.1 = 2 then raise j.2 Fk.datapath (32 * a + f) 0 0 0 else j.2

/-- Admit a new packet, from rank 3 or 4 (R47, R56, R63). -/
def admitNew (d : Dev) (a f : Nat) (p : Pkt) : Dev :=
  let x := getFur d a f
  let dom := pcGet p Pc.flowHash % 4096
  let drop := fun (c : Nat) => emptyCycle (entryDrop d a f p c) a f 3
  if 64 ≤ (domainPkts x dom).length then drop 0x43
  else
    match freeCtxSlot x with
    | none => drop 0x43
    | some s =>
      let p' := firstEntry d x s p
      let l : PktRef := ⟨a, f, s⟩
      match quiesceDrop d l p' with
      | some c => drop c
      | none => putPkt (contextCheck (putFur d a f { x with nextSeq := spPut (fun _ => 0) x.nextSeq dom ((p'.seq + 1) % 4096) }) a f) l p'

/-- Whether R164 stops new packets: the ACTIVE bank's calendar is not the active slot's. -/
def calendarStops (d : Dev) : Bool :=
  let bank := rdF d Reg.PROG_EPOCH Reg.PROG_EPOCH_EPOCH
  leNat ((List.range 4).map fun i => BitVec.ofNat 8 (spGet (fun _ => 0) d.prog.header (bank * 224 + 16 + i))) != calendarId d (activeSlot d)

/-- Steps of the furrow that happen in every cycle. -/
def furTick (d : Dev) (a f : Nat) : Dev :=
  let x := getFur d a f
  putFur d a f { x with lfsr := lfsrStep x.lfsr }

/-- Injections into a furrow (R437 codes 1 and 7): a bad parity on its data path, and a progress report that does not come. -/
def furInject (a f : Nat) (d : Dev) : Dev :=
  let (j, d) := injectAt d 1 (256 * 2 + 32 * a + f) 0
  let d := if j = 0 then d else raise d Fk.datapath (32 * a + f) 0 0 0
  let (j, d) := injectAt d 7 (256 * 2 + 32 * a + f) 0
  if j = 0 then d else raise d Fk.hang (32 * a + f) 0 0 0

/-- Packets in the rehash hold of an acre, with those that it has released and that wait at rank 3 (R47; DESIGN CHOICE, log entry
146). -/
def holdCount (x : AcreSt) : Nat := x.rehashHold.length + x.released.length
def setHeld (d : Dev) (a : Nat) : Dev := wrF d (Reg.REHASH_STATUS a) Reg.REHASH_STATUS_HELD (min 1024 (holdCount (getAcre d a)))

/-- One cycle of a furrow's entry (R47). -/
def entryAdmit (a f : Nat) (d : Dev) : Dev :=
  let d := furTick (furInject a f d) a f
  let x := getFur d a f
  if rdF d (Reg.FURROW_ROLE a f) Reg.FURROW_ROLE_ROLE ≠ 0 then d
  else
    let d := bump d (Reg.FURROW_CYCLES a f)
    let held := (getAcre d a).released.find? fun e => e.1 = f
    if x.fatal.isSome then emptyCycle d a f 3
    else match x.returnQ with
      | s :: t =>
        let d := putFur d a f { x with returnQ := t }
        let l : PktRef := ⟨a, f, s⟩
        match getPkt d l with
        | none => emptyCycle d a f 3
        | some p =>
          if p.safeHold && profilePending d then park d l { p with lastRow := 0 } 0 65 false
          else putPkt d l { p with lastRow := 0, loc := .row 0 false, safeHold := false }
      | [] =>
        if x.bubble then emptyCycle (putFur d a f { x with bubble := false }) a f 3
        else if profilePending d then emptyCycle d a f (if held.isSome ∨ x.entryQ ≠ [] then 3 else 2)
        else match held with
          | some e =>
            let ac := getAcre d a
            let d := setHeld (putAcre d a { ac with released := ac.released.erase e }) a
            if calendarStops d then emptyCycle (entryDrop d a f e.2 0x4D) a f 3 else admitNew d a f e.2
          | none =>
            match x.entryQ with
            | [] => emptyCycle d a f (if (getAcre d a).rehashHold = [] then 2 else 3)
            | p :: t =>
              let d := putFur d a f { x with entryQ := t }
              if ¬ flagF d Reg.PROG_EPOCH Reg.PROG_EPOCH_ACTIVE_VALID ∨ calendarStops d then
                emptyCycle (entryDrop d a f p 0x4D) a f 3
              else admitNew d a f p

/-! Steering from Harrow (R20, R72, R73, R75). -/

def rehashF (d : Dev) (a : Nat) (f : Fld) : Nat := rdF d (Reg.REHASH_STATUS a) f
def rehashActive (d : Dev) (a : Nat) : Bool := rehashF d a Reg.REHASH_STATUS_ACTIVE == 1

def roleOf (d : Dev) (a f : Nat) : Nat := rdF d (Reg.FURROW_ROLE a f) Reg.FURROW_ROLE_ROLE
def setRole (d : Dev) (a f r : Nat) : Dev := wrF d (Reg.FURROW_ROLE a f) Reg.FURROW_ROLE_ROLE r

/-- A packet that is steered or released to a furrow that is not ACTIVE is dropped at its entry with reason TAKEOVER (R73). -/
def goneDrop (d : Dev) (a f : Nat) (p : Pkt) : Dev :=
  bumpSat (entryDrop d a f p 0x44) (Reg.TAKEOVER_STATUS a) Reg.TAKEOVER_STATUS_DROPPED 1

/-- A new packet goes to the furrow that FURROW_MAP names, or into the rehash hold of its acre. -/
def steer (d : Dev) (a : Nat) (p : Pkt) : Dev :=
  let i := bits (pcGet p Pc.flowHash) 12 8
  let f := furrowMap d a i
  let x := getFur d a f
  let ac := getAcre d a
  if x.fatal.isSome then entryDrop (putFur d a f { x with tkDrops := x.tkDrops + 1 }) a f p 0x44
  else if roleOf d a f ≠ 0 then goneDrop d a f p
  else if rehashActive d a ∧ rehashF d a Reg.REHASH_STATUS_ENTRY = i then
    if 1024 ≤ holdCount ac then
      bumpSat (entryDrop d a f p 0x4F) (Reg.REHASH_STATUS a) Reg.REHASH_STATUS_DROPS 1
    else setHeld (putAcre d a { ac with rehashHold := ac.rehashHold ++ [p] }) a
  else if 256 ≤ x.entryQ.length then entryDrop d a f p 0x4B
  else putFur d a f { x with entryQ := x.entryQ ++ [p] }

/-! The ordered rehash (R75 to R78). -/

/-- Write entry i of FURROW_MAP. -/
def setMap (d : Dev) (a i f : Nat) : Dev :=
  wrF d (Reg.FURROW_MAP a (i / 2)) (if i % 2 = 0 then Reg.FURROW_MAP_FURROW_EVEN else Reg.FURROW_MAP_FURROW_ODD) f

/-- Release the held packets of an acre that satisfy p, in arrival order, into furrow f; they are dropped when no furrow that is
left takes them (R73, R78). -/
def releaseHeld (d : Dev) (a f : Nat) (p : Pkt → Bool) : Dev :=
  let ac := getAcre d a
  let out := ac.rehashHold.filter p
  let d := putAcre d a { ac with rehashHold := ac.rehashHold.filter fun q => !p q,
                                 released := ac.released ++ (if roleOf d a f = 0 then out.map fun q => (f, q) else []) }
  setHeld (if roleOf d a f = 0 then d else out.foldl (fun d q => goneDrop d a f q) d) a

/-- FURROW_MAP index of a packet's flow (R50). -/
def mapEntry (p : Pkt) : Nat := bits (pcGet p Pc.flowHash) 12 8

/-- Start an ordered rehash of entry i from one ACTIVE furrow to another. Packets of the entry that wait for their first admission
to f_old, at rank 3 or 4, have not entered it: they go into the hold, before every later one (DESIGN CHOICE, log entry 146). -/
def rehashStart (d : Dev) (a i fnew : Nat) : Dev :=
  let old := furrowMap d a i
  let ac := getAcre d a
  let x := getFur d a old
  let wait := fun (e : Nat × Pkt) => e.1 == old && mapEntry e.2 == i
  let d := putAcre d a { ac with rehashStart := d.time, marks := x.nextSeq, released := ac.released.filter fun e => !wait e
                                 rehashHold := (ac.released.filter wait).map Prod.snd ++ x.entryQ.filter (fun p => mapEntry p == i) }
  let d := putFur d a old { x with entryQ := x.entryQ.filter fun p => mapEntry p != i }
  let d := wrFs d (Reg.REHASH_STATUS a) [(Reg.REHASH_STATUS_EXPIRED, 0), (Reg.REHASH_STATUS_DROPS, 0),
    (Reg.REHASH_STATUS_TO, fnew), (Reg.REHASH_STATUS_FROM, old), (Reg.REHASH_STATUS_ENTRY, i), (Reg.REHASH_STATUS_ACTIVE, 1)]
  setMap (setHeld d a) a i fnew

/-- Whether a packet of f_old entered before the write of the rehash: its number is below the drain mark of its domain. -/
def belowMark (x : AcreSt) (p : Pkt) : Bool :=
  decide (2048 ≤ (p.seq + 4096 - spGet (fun _ => 0) x.marks (pcGet p Pc.domain)) % 4096)

/-- Whether a domain of f_old has drained below its mark. -/
def drained (d : Dev) (a dom : Nat) : Bool :=
  !(domainPkts (getFur d a (rehashF d a Reg.REHASH_STATUS_FROM)) dom).any fun e => belowMark (getAcre d a) e.2

/-- A domain has drained: its held packets go to f_new (R75 step 3). -/
def rehashDrained (a dom : Nat) (d : Dev) : Dev :=
  if rehashActive d a ∧ drained d a dom then
    releaseHeld d a (rehashF d a Reg.REHASH_STATUS_TO) fun p => pcGet p Pc.flowHash % 4096 == dom
  else d

/-- Entries of an acre that name a furrow. -/
def entriesOf (d : Dev) (a f : Nat) : List Nat := (List.range 256).filter fun i => furrowMap d a i == f

/-- Packets of f_old that entered by the entry before the write are dropped at their next safe point (R75 step 5). -/
def markStragglers (d : Dev) (a f i : Nat) : Dev :=
  let x := getFur d a f
  let late := fun (p : Pkt) => p.mapIdx == i && belowMark (getAcre d a) p
  putFur d a f { x with pkts := x.pkts.map fun e => (e.1, e.2.map fun p => if late p then { p with rehashDrop := true } else p) }

/-- The next entry of a planned takeover starts its rehash, or the old furrow is isolated (R71). -/
def takeoverNext (d : Dev) (a : Nat) : Dev :=
  match (getAcre d a).takeoverOf with
  | none => d
  | some f =>
    match entriesOf d a f with
    | i :: _ => rehashStart d a i (rehashF d a Reg.REHASH_STATUS_TO)
    | [] => putFur d a f { getFur d a f with isolating := true }

/-- REHASH_HOLD has passed: the rehash ends (R75 steps 4 and 5). -/
def rehashExpire (a : Nat) (d : Dev) : Dev :=
  if rehashActive d a then
    let d := releaseHeld d a (rehashF d a Reg.REHASH_STATUS_TO) fun _ => true
    let d := markStragglers d a (rehashF d a Reg.REHASH_STATUS_FROM) (rehashF d a Reg.REHASH_STATUS_ENTRY)
    takeoverNext (wrFs d (Reg.REHASH_STATUS a) [(Reg.REHASH_STATUS_ACTIVE, 0), (Reg.REHASH_STATUS_EXPIRED, 1)]) a
  else d

/-- A write of FURROW_MAP register k (R71, R75, R77, R531) that passed the register's own checks: none when it is rejected. -/
def mapWrite (d : Dev) (a k : Nat) (v : W64) : Option Dev :=
  let old := rd d (Reg.FURROW_MAP a k)
  let e := getF v Reg.FURROW_MAP_FURROW_EVEN
  let o := getF v Reg.FURROW_MAP_FURROW_ODD
  let ce := e ≠ getF old Reg.FURROW_MAP_FURROW_EVEN
  let co := o ≠ getF old Reg.FURROW_MAP_FURROW_ODD
  if ce ∧ co then none
  else if ¬ ce ∧ ¬ co then some d
  else
    let i := if ce then 2 * k else 2 * k + 1
    let f := if ce then e else o
    let was := furrowMap d a i
    if rdF d (Reg.FURROW_ROLE a f) Reg.FURROW_ROLE_ROLE ≠ 0 ∨ flagF d (Reg.FURROW_ROLE a f) Reg.FURROW_ROLE_BUSY
       ∨ (getFur d a f).fatal.isSome then none
    else if rdF d (Reg.FURROW_ROLE a was) Reg.FURROW_ROLE_ROLE = 0 then some (rehashStart d a i f)
    else some (setMap d a i f)

/-! Takeovers (R72, R73, R78). -/

/-- Furrows of an acre: 0 to 16. -/
def furrowsWith (d : Dev) (a role : Nat) : List Nat := (List.range 17).filter fun f => roleOf d a f == role

/-- Drop every packet of a furrow, with those waiting for it, with reason TAKEOVER; the device and how many. -/
def dropFurrow (d : Dev) (a f : Nat) : Dev × Nat :=
  let x := getFur d a f
  let ps := furPkts x
  let d := ps.foldl (fun d e => furDrop d ⟨a, f, e.1⟩ e.2 0x44) d
  let ac := getAcre d a
  let rel := (ac.released.filter fun e => e.1 = f).map fun e => e.2
  let d := putAcre d a { ac with released := ac.released.filter fun e => e.1 ≠ f }
  let d := (x.entryQ ++ rel).foldl (fun d p => entryDrop d a f p 0x44) d
  (putFur d a f { getFur d a f with entryQ := [], returnQ := [] }, ps.length + x.entryQ.length + rel.length)

/-- Rewrite the entries that name the failed furrow: to the spare, or spread over the ACTIVE furrows. -/
def spreadMap (d : Dev) (a f : Nat) (targets : List Nat) : Dev :=
  match targets with
  | [] => d
  | _ => (((entriesOf d a f).foldl (fun (x : Dev × Nat) i =>
      (setMap x.1 a i (targets.getD (x.2 % targets.length) 0), x.2 + 1)) (d, 0)).1)

/-- A furrow whose ISOLATE or TAKEOVER request runs has been given entries again (R73): the request ends, and LAST_ERR says that an entry
names the furrow (DESIGN CHOICE, log entry 144). -/
def requestEnd (a : Nat) (d : Dev) (f : Nat) : Dev :=
  if (getFur d a f).isolating ∨ (getAcre d a).takeoverOf = some f then
    let d := wrFs d (Reg.FURROW_ROLE a f) [(Reg.FURROW_ROLE_BUSY, 0), (Reg.FURROW_ROLE_LAST_ERR, 2)]
    let d := putFur d a f { getFur d a f with isolating := false }
    let ac := getAcre d a
    if ac.takeoverOf = some f then putAcre d a { ac with takeoverOf := none } else d
  else d

/-- The entries of a furrow that failed with no SPARE go to the ACTIVE furrows (R73). -/
def spreadActive (d : Dev) (a f : Nat) : Dev :=
  let l := (furrowsWith d a 0).filter (· ≠ f)
  let d := spreadMap d a f l
  (l.filter fun g => entriesOf d a g ≠ []).foldl (requestEnd a) d

/-- The rehash in progress goes on after a takeover (R78). -/
def rehashAfter (d : Dev) (a f : Nat) : Dev :=
  if ¬ rehashActive d a then d
  else
    let tgt := rehashF d a Reg.REHASH_STATUS_TO
    if tgt = f then
      let new := furrowMap d a (rehashF d a Reg.REHASH_STATUS_ENTRY)
      let d := wrF d (Reg.REHASH_STATUS a) Reg.REHASH_STATUS_TO new
      if new = rehashF d a Reg.REHASH_STATUS_FROM then releaseHeld d a new fun _ => true else d
    else if rehashF d a Reg.REHASH_STATUS_FROM = f then releaseHeld d a tgt fun _ => true
    else d

/-- The takeover of a furrow with a FATAL fault, by the lowest-numbered SPARE of its acre (DESIGN CHOICE, log entry 144). -/
def spareTakeover (a f : Nat) (d : Dev) : Dev :=
  let x := getFur d a f
  match x.fatal with
  | none => d
  | some t0 =>
    if roleOf d a f ≠ 0 then putFur d a f { x with fatal := none, tkDrops := 0 }
    else
      let (d, n) := dropFurrow d a f
      let spare := (furrowsWith d a 1).head?
      let d := match spare with
        | some s =>
          let d := putFur d a s { furReset (32 * a + s) with lfsr := (getFur d a s).lfsr, gens := (getFur d a s).gens, port := x.port }
          wrFs (spreadMap d a f [s]) (Reg.FURROW_ROLE a s) [(Reg.FURROW_ROLE_ROLE, 0), (Reg.FURROW_ROLE_BUSY, 0)]
        | none => spreadActive d a f
      let d := wr d (Reg.TAKEOVER_STATUS a) (mkWord [(Reg.TAKEOVER_STATUS_DURATION_NS, d.time - t0),
        (Reg.TAKEOVER_STATUS_DROPPED, min 65535 (n + x.tkDrops)), (Reg.TAKEOVER_STATUS_REPLACEMENT, spare.getD 0x1F),
        (Reg.TAKEOVER_STATUS_FAILED, f), (Reg.TAKEOVER_STATUS_VALID, 1)])
      let d := wrF (setRole d a f 2) (Reg.FURROW_ROLE a f) Reg.FURROW_ROLE_BUSY 0
      let d := putFur d a f { getFur d a f with fatal := none, isolating := false, port := 16, tkDrops := 0 }
      let ac := getAcre d a
      let d := putAcre d a { ac with takeoverOf := if ac.takeoverOf = some f then none else ac.takeoverOf }
      rehashAfter d a f

/-! Role requests (R71). -/

/-- LAST_ERR shows the last refusal: code 1 also while BUSY or while a FATAL fault waits, and 0 from an accepted request on (DESIGN
CHOICE, log entry 145). -/
def roleErr (d : Dev) (a f e : Nat) : Dev := wrF d (Reg.FURROW_ROLE a f) Reg.FURROW_ROLE_LAST_ERR e
/-- An accepted request: BUSY until it completes, and LAST_ERR returns to 0 (DESIGN CHOICE, log entry 145). -/
def roleBusy (d : Dev) (a f : Nat) : Dev := wrFs d (Reg.FURROW_ROLE a f) [(Reg.FURROW_ROLE_BUSY, 1), (Reg.FURROW_ROLE_LAST_ERR, 0)]

/-- Whether a furrow may take a request now. -/
def roleFree (d : Dev) (a f : Nat) : Bool := !flagF d (Reg.FURROW_ROLE a f) Reg.FURROW_ROLE_BUSY && (getFur d a f).fatal.isNone

def reqIsolate (a f : Nat) (d : Dev) : Dev :=
  if ¬ roleFree d a f ∨ 1 < roleOf d a f then roleErr d a f 1
  else if roleOf d a f = 0 ∧ entriesOf d a f ≠ [] then roleErr d a f 2
  else
    let d := roleBusy d a f
    putFur d a f { getFur d a f with isolating := true }

/-- An isolating furrow has emptied. -/
def isolateDone (a f : Nat) (d : Dev) : Dev :=
  let x := getFur d a f
  if x.isolating ∧ entriesOf d a f = [] ∧ furPkts x = [] ∧ x.entryQ = [] ∧ ¬ (getAcre d a).released.any (fun e => e.1 == f) then
    let d := wrF (setRole d a f 3) (Reg.FURROW_ROLE a f) Reg.FURROW_ROLE_BUSY 0
    let d := putFur d a f { x with isolating := false, port := 16 }
    let ac := getAcre d a
    if ac.takeoverOf = some f then putAcre d a { ac with takeoverOf := none } else d
  else d

def reqReturn (a f : Nat) (d : Dev) : Dev :=
  if roleFree d a f ∧ (roleOf d a f = 2 ∨ roleOf d a f = 3) then setRole (roleBusy d a f) a f 4 else roleErr d a f 1

/-- The self-test of a RETURN ends. -/
def selfTestDone (a f : Nat) (pass : Bool) (d : Dev) : Dev :=
  if roleOf d a f = 4 then
    let d := wrF d (Reg.FURROW_ROLE a f) Reg.FURROW_ROLE_BUSY 0
    if pass then setRole d a f 1 else roleErr (setRole d a f 2) a f 4
  else d

/-- The lowest store-copy port of an acre that no furrow has. -/
def freePort (d : Dev) (a : Nat) : Nat := ((firstIdx 16 fun p => (List.range 17).all fun f => (getFur d a f).port != p)).getD 16

def reqTakeover (a f : Nat) (d : Dev) : Dev :=
  if ¬ roleFree d a f ∨ roleOf d a f ≠ 0 then roleErr d a f 1
  else
    match (furrowsWith d a 1).filter fun g => !flagF d (Reg.FURROW_ROLE a g) Reg.FURROW_ROLE_BUSY with
    | [] => roleErr d a f 3
    | s :: _ =>
      let d := setRole (roleBusy d a f) a s 0
      let d := putFur d a s { getFur d a s with port := if (getFur d a s).port = 16 then freePort d a else (getFur d a s).port }
      let d := putAcre d a { getAcre d a with takeoverOf := some f }
      match entriesOf d a f with
      | [] => putFur d a f { getFur d a f with isolating := true }
      | i :: _ => rehashStart d a i s

def reqActivate (a f : Nat) (d : Dev) : Dev :=
  if roleFree d a f ∧ roleOf d a f = 1 then
    let d := roleErr (setRole d a f 0) a f 0
    putFur d a f { getFur d a f with port := if (getFur d a f).port = 16 then freePort d a else (getFur d a f).port }
  else roleErr d a f 1

/-! Program banks (R65 to R69). -/

def windowBank (d : Dev) : Nat := 1 - rdF d Reg.PROG_EPOCH Reg.PROG_EPOCH_EPOCH
def bankFld (b : Nat) : Fld := if b = 0 then Reg.PROG_STATUS_STATE_A else Reg.PROG_STATUS_STATE_B
def bankState (d : Dev) (b : Nat) : Nat := rdF d Reg.PROG_STATUS (bankFld b)
def setBank (d : Dev) (b s : Nat) : Dev := wrF d Reg.PROG_STATUS (bankFld b) s
def progError (d : Dev) (e row : Nat) : Dev := wrFs d Reg.PROG_STATUS [(Reg.PROG_STATUS_ERROR, e), (Reg.PROG_STATUS_ERROR_ROW, row)]

/-- The words of one bank and copy of a store change in n bits at a bit offset. -/
def storeMicro (d : Dev) (b r a v : Nat) : Dev :=
  let d := { d with prog := { d.prog with micro := spPut (fun _ => 0) d.prog.micro (microKey 0 b r a) v } }
  eccWrite d .micro (microKey 0 b r a) (256 * 2) 0
def storeNano (d : Dev) (b r n v : Nat) : Dev :=
  let d := { d with prog := { d.prog with nano := spPut (fun _ => 0) d.prog.nano (nanoKey 0 b r n) v } }
  eccWrite d .nano (nanoKey 0 b r n) (256 * 2) 0

/-- A byte of the window (R66), written into the master copy of the window bank; a reserved offset takes nothing, nor do the reserved
bits [511:431] of a nanoword (R7, R82). -/
def windowByte (b : Nat) (d : Dev) (ob : Nat × Byte) : Dev :=
  let (off, v) := ob
  let r := off / 0x10000
  let o := off % 0x10000
  if r < 24 ∧ o < 0x1000 then storeMicro d b r (o / 4) (setBits (microWord d 0 b r (o / 4)) (8 * (o % 4)) 8 v.toNat % 2 ^ 32)
  else if r < 24 ∧ 0x8000 ≤ o ∧ o < 0xC000 then
    let n := (o - 0x8000) / 64
    storeNano d b r n (setBits (nanoWord d 0 b r n) (8 * (o % 64)) 8 v.toNat % 2 ^ 431)
  else if 0x180000 ≤ off ∧ off < 0x1800E0 then
    { d with prog := { d.prog with header := spPut (fun _ => 0) d.prog.header (b * 224 + (off - 0x180000)) v.toNat } }
  else d

/-- A write of bytes to the window, or its rejection (R66). -/
def windowWrite (off : Nat) (bs : List Byte) (d : Dev) : Dev :=
  let b := windowBank d
  if bankState d b ≠ 0 then
    progError (bumpSat d Reg.PROG_STATUS Reg.PROG_STATUS_WRITE_REJECTS 1) 7 0x1F
  else (List.zip ((List.range bs.length).map (off + ·)) bs).foldl (windowByte b) d

/-- A byte of the window as it reads. -/
def windowRead (d : Dev) (off : Nat) : Byte :=
  let b := windowBank d
  let r := off / 0x10000
  let o := off % 0x10000
  if r < 24 ∧ o < 0x1000 then BitVec.ofNat 8 (microWord d 0 b r (o / 4) / 2 ^ (8 * (o % 4)))
  else if r < 24 ∧ 0x8000 ≤ o ∧ o < 0xC000 then BitVec.ofNat 8 (nanoWord d 0 b r ((o - 0x8000) / 64) / 2 ^ (8 * (o % 64)))
  else if 0x180000 ≤ off ∧ off < 0x1800E0 then BitVec.ofNat 8 (spGet (fun _ => 0) d.prog.header (b * 224 + (off - 0x180000)))
  else 0

/-- Bytes of the header of a bank. -/
def headerBytes (d : Dev) (b o n : Nat) : List Byte :=
  (List.range n).map fun i => BitVec.ofNat 8 (spGet (fun _ => 0) d.prog.header (b * 224 + o + i))

/-- The image of one row of a copy: micro store, then nano store (R68). -/
def rowImage (d : Dev) (copy b r : Nat) : List Byte :=
  ((List.range 1024).map fun a => leBytes 4 (microWord d copy b r a)).flatten
    ++ ((List.range 256).map fun n => leBytes 64 (nanoWord d copy b r n)).flatten

/-- A write of PROG_LOAD.START (R68): the agent that wrote it, and none when it is rejected. -/
def progStart (ag : Nat) (d : Dev) : Option Dev :=
  let b := windowBank d
  if bankState d b = 0 then some { setBank (progError d 0 0x1F) b 1 with prog := { d.prog with startedBy := ag } } else none

/-- A write of PROG_LOAD.DISARM. -/
def progDisarm (d : Dev) : Option Dev :=
  let b := windowBank d
  if bankState d b = 2 ∧ ¬ flagF d Reg.PROG_EPOCH Reg.PROG_EPOCH_SWITCH_PENDING then some (setBank d b 0) else none

/-- The row checks of R68 on one copy: the first row whose CRC differs from ROW_CRC; an injection fails row 0 (R437 code 3). -/
def crcFail (d : Dev) (copy b : Nat) (inject : Bool) : Option Nat :=
  if inject then some 0 else firstIdx 24 fun r => crc32c 0xFFFFFFFF (rowImage d copy b r) != leNat (headerBytes d b (0x18 + 4 * r) 4)

/-- Replicate a bank from the master copy into the 31 other copies. -/
def replicateBank (d : Dev) (b : Nat) : Dev :=
  let spread := fun (st : Sp Nat) (n : Nat) =>
    let keep := st.filter fun e => !(e.1 / (24 * n) % 2 == b && decide (2 ≤ e.1 / (24 * n)))
    (st.filter fun e => e.1 / (24 * n) == b).foldl (fun m e =>
      (List.range 31).foldl (fun m c => spPut (fun _ => 0) m (e.1 + (c + 1) * 48 * n) e.2) m) keep
  { d with prog := { d.prog with micro := spread d.prog.micro 1024, nano := spread d.prog.nano 256 }
           upset := d.upset.filter fun e =>
             let k := e.1 % 2 ^ 48
             !((e.1 / 2 ^ 48 == ramNo .micro && k / 24576 % 2 == b && decide (2 ≤ k / 24576))
               || (e.1 / 2 ^ 48 == ramNo .nano && k / 6144 % 2 == b && decide (2 ≤ k / 6144))) }

/-- The checks of R68 in their order; the first that fails returns bank b to LOADABLE and raises IMAGE_REJECT. `inject` is the copy in
which an injection fails the check of a row, if any. -/
def verifyRun (d : Dev) (b : Nat) (inject : Option Nat) : Dev :=
    let fail := fun (d : Dev) (e row : Nat) => raise (setBank (progError d e row) b 0) Fk.imageReject 0 0 0 0
    let sig := headerBytes d b 0x80 96
    if leNat (headerBytes d b 0 4) ≠ 0x54525A4E ∨ leNat (headerBytes d b 4 2) ≠ 1 ∨ leNat (headerBytes d b 6 2) ≠ 24 then fail d 1 0x1F
    else match crcFail d 0 b (inject == some 0) with
      | some r => fail d 2 r
      | none =>
        let digest := sha384 (headerBytes d b 0 0x80 ++ ((List.range 24).map (rowImage d 0 b)).flatten)
        let ok : Bool := match d.prog.rotKey with
          | some k => ecdsaOk k digest (beNat (sig.take 48)) (beNat (sig.drop 48))
          | none => false
        if ¬ ok then fail d 3 0x1F
        else if leNat (headerBytes d b 0x10 4) ≠ calendarId d (activeSlot d) then fail d 4 0x1F
        else
          let d := replicateBank d b
          match (List.range 31).findSome? fun c => crcFail d (c + 1) b (inject == some (c + 1)) with
          | some r => fail d 5 r
          | none => setBank d b 2

/-- Verification ends (R68), with its completion (R484). -/
def verifyDone (d : Dev) : Dev :=
  let b := windowBank d
  if bankState d b ≠ 1 then d
  else
    let src := rdF d Reg.FAULT_INJECT Reg.FAULT_INJECT_SOURCE
    let (j, d) := if src / 256 = 2 then injectAt d 3 src 0 else (0, d)
    postDone (startedBy (verifyRun d b (if j = 0 then none else some (storeCopy d (src / 32 % 4) (src % 32)))) 8 d.prog.startedBy) 8 b Reg.PROG_STATUS

/-- A write of PROG_BANK_SEL (R69). -/
def bankSelect (bank : Nat) (d : Dev) : Dev :=
  if bankState d bank = 2 then
    wrF (wrF d Reg.PROG_BANK_SEL Reg.PROG_BANK_SEL_BANK bank) Reg.PROG_EPOCH Reg.PROG_EPOCH_SWITCH_PENDING 1
  else progError d 6 0x1F

/-- The epoch boundary of a switch. -/
def epochBoundary (d : Dev) : Dev :=
  if flagF d Reg.PROG_EPOCH Reg.PROG_EPOCH_SWITCH_PENDING then
    let new := windowBank d
    let old := 1 - new
    let had := flagF d Reg.PROG_EPOCH Reg.PROG_EPOCH_ACTIVE_VALID
    let d := setBank d new 3
    let d := if had then setBank d old 4 else d
    let d := wrF d Reg.PROG_STATUS Reg.PROG_STATUS_ROTATION_ID_LOW (leNat (headerBytes d new 8 1))
    wrFs d Reg.PROG_EPOCH [(Reg.PROG_EPOCH_SWITCHES, satAdd 16 (rdF d Reg.PROG_EPOCH Reg.PROG_EPOCH_SWITCHES) 1),
      (Reg.PROG_EPOCH_SWITCH_PENDING, 0), (Reg.PROG_EPOCH_DRAINING, b2n had), (Reg.PROG_EPOCH_ACTIVE_VALID, 1), (Reg.PROG_EPOCH_EPOCH, new)]
  else d

/-- No packet of the old epoch remains (R65). -/
def drainEnd (d : Dev) : Dev :=
  let old := windowBank d
  if bankState d old = 4 ∧ ¬ d.furs.any (fun e => (furPkts e.2).any fun q => pcGet q.2 Pc.epoch == old) then
    wrF (setBank d old 0) Reg.PROG_EPOCH Reg.PROG_EPOCH_DRAINING 0
  else d

/-! The table-profile change (R64, R163) and holding removal (R485). -/

/-- Whether a packet lets a table-profile change be applied: held on the quiesce, or waiting in an exit hold. -/
def quiet (p : Pkt) : Bool := match p.loc with | .park _ c => c == 65 | .exitHold => true | _ => false

/-- Whether a flight is a lookup that has not landed. -/
def isLookup (w : Flight) : Bool := match w with | .lookup .. => true | .collect .. => true | _ => false

/-- Whether an acre has reached the quiesce. -/
def reachedIn (d : Dev) (a : Nat) : Bool :=
  d.furs.all fun e => e.1 / 32 != a || ((furPkts e.2).all (fun q => quiet q.2) && !e.2.inFlight.any fun w => isLookup w.what)

/-- Learns of tables that change or go are answered DISABLED (R163). -/
def refuseLearn (d : Dev) (e : Learn) : Dev :=
  match e.src with
  | .packet a f slot gen num dest =>
    let x := getFur d a f
    putFur d a f { x with inFlight := x.inFlight ++ [⟨slot, gen, .learned dest num true, none⟩] }
  | _ => d

/-- The change that R163 applies once every acre is quiet. -/
def profileApply (d : Dev) : Dev :=
  if profilePending d ∧ (List.range 4).all (reachedIn d) then
    let s := 1 - activeSlot d
    let gone := fun (e : Learn) => (match e.src with | .handover _ => false | _ => true)
      && decide (e.table < 64) && (!sameTable d e.table || (tblOf d s e.table).isNone)
    let d1 := (d.orch.learnQ.filter gone).foldl refuseLearn d
    let q := d.orch.learnQ.filter fun e => !gone e
    let d2 := applyTables { d1 with orch := { d1.orch with learnQ := q } } s
    let d2 := wrF d2 Reg.LEARN_STATUS Reg.LEARN_STATUS_DEPTH q.length
    let d2 := wr d2 Reg.PROFILE_SEL (BitVec.ofNat 64 s)
    wrFs d2 Reg.PROFILE_STATUS [(Reg.PROFILE_STATUS_CALENDAR_ID, calendarId d2 s), (Reg.PROFILE_STATUS_PENDING, 0),
      (Reg.PROFILE_STATUS_LOADED, 1), (Reg.PROFILE_STATUS_SLOT, s)]
  else d

end Sys2Proof.Machine
end

