-- ==== Sys2Proof/Machine/Harrow.lean ====
section
/-!
DEFINITION. Harrow (R119 to R150): the parse walk, holding rules and admission, fragments, the punt queues and their policers.
-/
namespace Sys2Proof.Machine

def harEvt (d : Dev) (n k : Nat) : Dev := bump d (Reg.HARROW_EVT n k)

/-! Entries (R123, R124, R131, R135). -/

/-- Words of a parse state. -/
def stWord (d : Dev) (n s w : Nat) : Nat := (rd d (Reg.HSTATE n s w)).toNat

/-- Keys of the check-bit state of Harrow's tables: states, transitions and holding rules of an instance. -/
def harStateKey (n s : Nat) : Nat := n * 4096 + s
def harTransKey (n t : Nat) : Nat := 16384 + n * 4096 + t
def harRuleKey (n i : Nat) : Nat := 32768 + n * 4096 + i

/-- A state as it reads: an uncorrectable one reads as invalid until it is rewritten (R439). -/
def stValid (d : Dev) (n s : Nat) : Bool := bit (stWord d n s 0) 0 && ecc d .harrow (harStateKey n s) != 2

/-- The lowest valid entry of a table of two words whose key matches under its mask (R124, R131). -/
def ternFind (d : Dev) (base count w : Nat) (eccKey : Nat → Nat) (key : Nat) : Option Nat :=
  (d.regs.find? fun e =>
    decide (base ≤ e.1 ∧ e.1 < base + 16 * count) && e.1 % 16 == base % 16 && bit e.2.toNat 63
      && ((key ^^^ bits e.2.toNat 0 w) &&& bits (rd d (e.1 + 8)).toNat 0 w) == 0
      && ecc d .harrow (eccKey ((e.1 - base) / 16)) != 2).map fun e => (e.1 - base) / 16

def transFind (d : Dev) (n key : Nat) : Option Nat := ternFind d (Reg.HTRANS n 0 0) 2048 40 (harTransKey n) key
def ruleFind (d : Dev) (n key : Nat) : Option Nat := ternFind d (Reg.HOLD_RULE n 0 0) 1024 44 (harRuleKey n) key

def harWdata (d : Dev) (n i : Nat) : Nat := (rd d (Reg.HARROW_WDATA n i)).toNat

/-- An entry write that is refused (R135). -/
def harReject (d : Dev) (n : Nat) : Dev := harEvt d n 19

/-- HARROW_WCMD takes effect: `v` is the command, `t` its table. -/
def harrowWrite (n : Nat) (v : W64) (t : Nat) (d : Dev) : Dev :=
  let d := wr d (Reg.HARROW_WCMD n) (setF (v &&& 0x1FFF) Reg.HARROW_WCMD_TABLE t)
  let i := getF v Reg.HARROW_WCMD_INDEX
  let w := harWdata d n
  let put := fun (d : Dev) (o k x : Nat) => wr d (o + 8 * k) (BitVec.ofNat 64 x)
  if t = 0 then
    if 255 < i ∨ bits (w 0) 13 2 = 3 ∨ bits (w 0) 52 2 = 3 ∨ bits (w 1) 34 2 = 3 then harReject d n
    else
      let o := Reg.HSTATE n i 0
      let d := put (put (put (put d o 0 (w 0)) o 1 (bits (w 1) 0 62)) o 2 (w 2 &&& 0x0000FFFF3FFFFFFF)) o 3 0
      harEvt (eccWrite d .harrow (harStateKey n i) (256 * 3 + n) 0) n 18
  else if t = 1 then
    if bits (w 0) 40 2 = 3 then harReject d n
    else
      let o := Reg.HTRANS n i 0
      let d := put (put d o 0 (w 0 &&& 0x8003FFFFFFFFFFFF)) o 1 (bits (w 1) 0 40)
      harEvt (eccWrite d .harrow (harTransKey n i) (256 * 3 + n) 0) n 18
  else if t = 2 then
    if 1023 < i ∨ bits (w 0) 44 2 = 3 then harReject d n
    else
      let o := Reg.HOLD_RULE n i 0
      let d := put (put d o 0 (w 0 &&& 0x803FFFFFFFFFFFFF)) o 1 (bits (w 1) 0 44)
      harEvt (eccWrite d .harrow (harRuleKey n i) (256 * 3 + n) 0) n 18
  else harReject d n

/-! The walk (R127, R128). -/

/-- The working values of a walk. -/
structure Walk where
  state : Nat
  cursor : Nat
  hdrs : Nat
  hash : List Byte
  tag : Nat
  tagKind : Nat
  fset : Nat
  cls : Nat
  /-- FRAG_ROLE records in walk order: role and cursor. -/
  roles : List (Nat × Nat)
  /-- 0 none; a cause of R128. -/
  err : Nat
  /-- The states visited, in order. -/
  seen : List Nat
  deriving DecidableEq, Repr

/-- The instance that a state records: INST, or with AUTO the lowest free one at or above it. -/
def pickInst (hdrs inst : Nat) (auto_ : Bool) : Option Nat :=
  if auto_ then ((List.range 32).filter fun k => decide (inst ≤ k)).find? fun k => !bit hdrs (16 * k + 15) else some inst

/-- A field of the header at the cursor, in network order from the window. -/
def walkField (win : List Byte) (cursor off w : Nat) : Nat := netBits win (8 * cursor + off) w

/-- One visit: the walk after it, and whether it goes on. DESIGN CHOICE (assumption 148): a FRAG_ROLE recorded by a visit counts in
the walk order of R137 also when a later state without AUTO replaces the header instance it was recorded at. -/
def walkStep (d : Dev) (n : Nat) (win : List Byte) (flen : Nat) (k : Walk) : Walk × Bool :=
  let s := k.state
  if ¬ stValid d n s then ({ k with err := 1 }, false)
  else
    let w0 := stWord d n s 0
    let w1 := stWord d n s 1
    let w2 := stWord d n s 2
    match pickInst k.hdrs (bits w0 7 5) (bit w0 12) with
    | none => ({ k with err := 5 }, false)
    | some i =>
      let f := walkField win k.cursor
      let mode := bits w0 13 2
      let len := if mode = 0 then bits w0 15 9
        else if mode = 1 then f (bits w0 24 12) (bits w0 36 4 + 1) * 2 ^ bits w0 40 3 + bits w0 43 9
        else min 512 flen - k.cursor
      if 512 < k.cursor + len then ({ k with err := 3 }, false)
      else if flen < k.cursor + len then ({ k with err := 4 }, false)
      else
        let hf := fun (o l : Nat) => (List.range l).map fun j => BitVec.ofNat 8 (byteAt win (k.cursor + o + j))
        let tw := bits w1 48 5 + 1
        let tp := bits w1 53 5
        let tagged := bit w1 61
        let k := { k with
          hdrs := setBits k.hdrs (16 * i) 16 (2 ^ 15 + bits w0 1 6 * 2 ^ 9 + k.cursor % 512)
          hash := k.hash ++ hf (bits w2 0 9) (bits w2 9 6) ++ hf (bits w2 15 9) (bits w2 24 6)
          tag := if tagged then setBits k.tag tp (min tw (32 - tp)) (f (bits w1 36 12) tw) else k.tag
          tagKind := if tagged then bits w1 58 3 else k.tagKind
          fset := k.fset ||| bits w2 32 16
          cls := if bits w0 52 2 = 0 then k.cls else bits w0 52 2
          roles := if bits w0 54 2 = 0 then k.roles else k.roles ++ [(bits w0 54 2, k.cursor)] }
        let s0 := if bit w1 32 then f (bits w1 0 12) (bits w1 12 4 + 1) else 0
        let s1 := if bit w1 33 then f (bits w1 16 12) (bits w1 28 4 + 1) else 0
        let (act, next) := match transFind d n (s * 2 ^ 32 + s0 * 2 ^ 16 + s1) with
          | some t => let v := (rd d (Reg.HTRANS n t 0)).toNat; (bits v 40 2, bits v 42 8)
          | none => (bits w1 34 2, bits w0 56 8)
        if mode = 2 ∨ act = 1 then (k, false)
        else if act = 2 then ({ k with err := 6 }, false)
        else ({ k with cursor := k.cursor + len, state := next }, true)

/-- The walk, at most 32 visits; a 33rd ends it with cause LONG. -/
def walkRun (d : Dev) (n : Nat) (win : List Byte) (flen : Nat) : Nat → Walk → Walk
  | 0, k => { k with err := 2 }
  | v + 1, k => match walkStep d n win flen { k with seen := k.seen ++ [k.state] } with | (k, true) => walkRun d n win flen v k | (k, false) => k

def walk (d : Dev) (n start : Nat) (p : Pkt) : Walk :=
  walkRun d n (window p) p.frame.length 32 ⟨start, 0, 0, [], 0, 0, 0, 0, [], 0, []⟩

/-- The check of a word of Harrow's tables that a walk or search reads: a single-bit error is corrected, and an uncorrectable word
stays invalid until it is rewritten (R439 TABLE_CE, TABLE_UE). -/
def harCheck (n : Nat) (d : Dev) (key : Nat) : Dev :=
  if ecc d .harrow key = 2 then raise d Fk.tableUe n 0 0 4
  else if ecc d .harrow key = 1 then raise (setEcc d .harrow key 0) Fk.tableCe n 0 0 4
  else d

/-- The check of every entry of a table that a search reads: those of `count` keys from `lo` that are not good. -/
def harSearchCheck (d : Dev) (n lo count : Nat) : Dev :=
  ((d.upset.filter fun e => decide (ramKey .harrow lo ≤ e.1 ∧ e.1 < ramKey .harrow (lo + count))).map
    fun e => e.1 - ramKey .harrow 0).foldl (harCheck n) d

/-- Counters and HARROW_ERR_LAST after a walk, with the faults of the words that it read (R128, R150). -/
def walkCount (d : Dev) (n port : Nat) (k : Walk) : Dev :=
  let d := (k.seen.map (harStateKey n)).foldl (harCheck n) (harEvt d n 0)
  let d := if k.hdrs = 0 then d else harSearchCheck d n (harTransKey n 0) 2048
  if k.err = 0 then d
  else
    let o := Reg.HARROW_ERR_LAST n
    wrFs (harEvt (harEvt d n 1) n (1 + k.err)) o [(Reg.HARROW_ERR_LAST_COUNT, satAdd 32 (rdF d o Reg.HARROW_ERR_LAST_COUNT) 1),
      (Reg.HARROW_ERR_LAST_PORT, port), (Reg.HARROW_ERR_LAST_CURSOR, k.cursor), (Reg.HARROW_ERR_LAST_STATE, k.state),
      (Reg.HARROW_ERR_LAST_CAUSE, k.err), (Reg.HARROW_ERR_LAST_VALID, 1)]

/-- The packet with the instances that a walk recorded. -/
def setHdrs (p : Pkt) (hdrs : Nat) : Pkt := pcSet p (ctxFld 4 0 512) hdrs

/-! Fragments (R137 to R141). -/

/-- The fragment key of a packet and its offset, when its walk shows a fragment; `dom` is FRAG_DOM (R137). DESIGN CHOICE
(assumption 148): of several role-2 headers before the role-3 header, the latest gives the source and the destination. -/
def fragOf (win : List Byte) (dom : Nat) : List (Nat × Nat) → Option Nat → Option (List Byte × Nat)
  | [], _ => none
  | (role, c) :: t, v6 =>
    let b := fun (o l : Nat) => (List.range l).map fun j => BitVec.ofNat 8 (byteAt win (c + o + j))
    if role = 1 then
      let ff := beNat (b 6 2)
      if bit ff 13 ∨ ff % 2 ^ 13 ≠ 0 then
        some ([BitVec.ofNat 8 dom, 4] ++ b 9 1 ++ b 4 2 ++ b 12 4 ++ b 16 4, ff % 2 ^ 13)
      else fragOf win dom t v6
    else if role = 2 then fragOf win dom t (some c)
    else match v6 with
      | some h =>
        let a := (List.range 32).map fun j => BitVec.ofNat 8 (byteAt win (h + 8 + j))
        some ([BitVec.ofNat 8 dom, 6] ++ b 0 1 ++ b 4 4 ++ a, beNat (b 2 2) / 8)
      | none => fragOf win dom t v6

/-- The 56-bit signature of a key: SIG_B, then SIG_A. -/
def fragSig (key : List Byte) : Nat := crc32 0xFFFFFFFF key % 2 ^ 24 * 2 ^ 32 + crc32c 0xFFFFFFFF key

/-- Time in units of 4 µs, modulo 2^15. -/
def fragNow (d : Dev) : Nat := d.time / 4000 % 2 ^ 15

/-- FRAG_LIFE in units of 4 µs, rounded up. -/
def fragLife (d : Dev) (n : Nat) : Nat := ceilDiv (rdF d (Reg.FRAG_CFG n) Reg.FRAG_CFG_LIFE_US) 4

def fragKey (n sig way : Nat) : Nat := 65536 * n + 4 * (sig % 2 ^ 14) + way
def getFrag (d : Dev) (k : Nat) : Nat := spGet (fun _ => 0) d.har.frags k
def putFrag (d : Dev) (k v : Nat) : Dev := { d with har := { d.har with frags := spPut (fun _ => 0) d.har.frags k v } }

def fragLive (d : Dev) (n e : Nat) : Bool := bit e 127 && decide ((fragNow d + 2 ^ 15 - bits e 112 15) % 2 ^ 15 < fragLife d n)

/-- An uncorrectable decision entry of a bucket is invalidated as it is read (R439 FRAG_UE). -/
def fragScrub (d : Dev) (n sig : Nat) : Dev :=
  (List.range 4).foldl (fun d w =>
    let k := fragKey n sig w
    if ecc d .frag k = 2 then raise (putFrag (setEcc d .frag k 0) k 0) Fk.fragUe n 0 0 4
    else setEcc d .frag k 0) d

/-- The decision that a signature finds. -/
def fragFind (d : Dev) (n sig : Nat) : Option Nat :=
  (firstIdx 4 fun w => fragLive d n (getFrag d (fragKey n sig w)) && bits (getFrag d (fragKey n sig w)) 0 56 == sig).map (fragKey n sig)

def inQ (d : Dev) (n rank : Nat) : List Pkt := spGet (fun _ => []) d.har.inQ (8 * n + rank)
def setInQ (d : Dev) (n rank : Nat) (l : List Pkt) : Dev :=
  { d with har := { d.har with inQ := spPut (fun _ => []) d.har.inQ (8 * n + rank) l } }

def heldQ (d : Dev) (n : Nat) : List (Pkt × Nat) := spGet (fun _ => []) d.har.heldQ n
def setHeldQ (d : Dev) (n : Nat) (l : List (Pkt × Nat)) : Dev :=
  { d with har := { d.har with heldQ := spPut (fun _ => []) d.har.heldQ n l } }

/-- Cells of the holding area in use. -/
def heldCells (l : List (Pkt × Nat)) : Nat := l.foldl (fun n e => n + ceilDiv e.1.frame.length 256) 0

/-- Put a fragment among others by its order of arrival. -/
def arrivalPut (p : Pkt) : List Pkt → List Pkt
  | [] => [p]
  | q :: t => if p.fragHeld.getD 0 < q.fragHeld.getD 0 then p :: q :: t else q :: arrivalPut p t

/-- Release held fragments to rank 2 of R120, which keeps the order of arrival at Harrow. -/
def fragRelease (d : Dev) (n : Nat) (l : List (Pkt × Nat)) : Dev :=
  setInQ d n 2 (l.foldl (fun q e => arrivalPut e.1 q) (inQ d n 2))

/-- A first fragment's decision (R139, R141). -/
def fragInsert (d : Dev) (n sig hash flags hold : Nat) : Dev :=
  let d := fragScrub d n sig
  let e := 2 ^ 127 + fragNow d * 2 ^ 112 + flags * 2 ^ 96 + hold * 2 ^ 88 + hash * 2 ^ 56 + sig
  let slot := match fragFind d n sig with
    | some k => some k
    | none => (firstIdx 4 fun w => !fragLive d n (getFrag d (fragKey n sig w))).map (fragKey n sig)
  match slot with
  | none => harEvt d n 14
  | some k =>
    let d := eccWrite (putFrag (harEvt d n 8) k e) .frag k (256 * 3 + n) 0
    let out := (heldQ d n).filter fun x => x.2 = sig
    bumpN (fragRelease (setHeldQ d n ((heldQ d n).filter fun x => x.2 ≠ sig)) n out) (Reg.HARROW_EVT n 11) out.length

/-! Settlement (R133, R134). -/

def harDrop (d : Dev) (n k : Nat) (p : Pkt) : Dev := releaseFrame (bump d (Reg.HARROW_DROP n k)) p

def harPunt (d : Dev) (n reason hold : Nat) (p : Pkt) : Dev :=
  puntEnqueue d n (pcSet (pcSet p Pc.holding hold) Pc.puntReason reason)

/-- The fields of a port entry that settlement uses. -/
def portF (d : Dev) (n port : Nat) (f : Fld) : Nat := rdF d (Reg.HPORT n (port % 128)) f

/-- Steps 3 to 7 of R133: `act` is 0 ADMIT, 1 PUNT, 2 DROP, 3 no rule and no default; `arg` the rule's ARG; `first` the
signature of a first fragment to insert. -/
def harSettle (d : Dev) (n : Nat) (p : Pkt) (k : Walk) (h act arg : Nat) (first : Option Nat) : Dev :=
  let err := portF d n (inPort p) Reg.HPORT_ERR_MODE
  if ¬ p.fromHost ∧ ¬ holdingOpen d h then
    if k.cls = 1 then harPunt d n 3 h p else if k.cls = 2 then harPunt d n 4 h p else harDrop d n 2 p
  else if act = 2 then harDrop d n 1 p
  else if act = 1 then harPunt d n arg h p
  else if act = 3 then harPunt d n 2 h p
  else if k.err ≠ 0 ∧ err = 0 then harPunt d n 1 h p
  else if k.err ≠ 0 ∧ err = 1 then harDrop d n 0 p
  else
    let d := match first with
      | some sig => fragInsert d n sig (pcGet p Pc.flowHash) (pcGet p (ctxFld 3 0 16)) h
      | none => d
    steer d n (pcSet p Pc.holding h)

/-- A later fragment without a decision: held once, else OUTER_ONLY (R140). -/
def fragWait (d : Dev) (n : Nat) (p : Pkt) (k : Walk) (h act arg sig : Nat) : Dev :=
  let l := heldQ d n
  let wait := rdF d (Reg.FRAG_CFG n) Reg.FRAG_CFG_WAIT_US
  let room := decide (l.length < 1024 ∧ heldCells l + ceilDiv p.frame.length 256 ≤ 4096)
  if p.fragHeld.isNone ∧ wait ≠ 0 ∧ room then
    let d := setHeldQ (leaveStaging d p) n (l ++ [({ p with staged := none, fragHeld := some d.har.arrivals }, sig)])
    harEvt { d with har := { d.har with arrivals := d.har.arrivals + 1 } } n 10
  else
    let d := if p.fragHeld.isNone ∧ wait ≠ 0 ∧ ¬ room then harEvt d n 13 else d
    harSettle d n (pcSet p (Pc.flag flOuterOnly) 1) k h act arg none

/-- A packet is parsed and settled (R127 to R134). -/
def harrowPacket (d0 : Dev) (n : Nat) (p : Pkt) : Dev :=
  let d := crossIn d0 (4 + n)
  let port := inPort p
  let k := walk d n (if p.fromHost then rdF d (Reg.HARROW_CFG n) Reg.HARROW_CFG_INJECT_START else portF d n port Reg.HPORT_START_STATE) p
  let d := walkCount d n port k
  let win := window p
  let frag := fragOf win (portF d n port Reg.HPORT_FRAG_DOM) k.roles none
  let p := pcSet { p with ctx := BitVec.ofNat 2048 (setBits 0 Pc.ingressPort.lo 9 port) } Pc.collectFault 0x1F
  let p := setHdrs p k.hdrs
  let p := pcSet p (ctxFld 3 0 16) k.fset
  let p := pcSet p (Pc.flag flParseErr) (b2n (k.err != 0))
  let p := pcSet p (Pc.flag flFragment) (b2n frag.isSome)
  let p := pcSet p (Pc.flag flFromHost) (b2n p.fromHost)
  let p := pcSet p Pc.flowHash (crc32c (rdF d Reg.FLOW_HASH_SEED Reg.FLOW_HASH_SEED_SEED) (k.hash.take 64))
  let searched := portF d n port Reg.HPORT_RULE_EN == 1
  let rule := if searched then ruleFind d n (port * 2 ^ 35 + k.tagKind * 2 ^ 32 + k.tag) else none
  let def_ := portF d n port Reg.HPORT_DEFAULT_HOLDING
  let (h, act, arg) := match rule with
    | some i =>
      let v := (rd d (Reg.HOLD_RULE n i 0)).toNat
      let a := bits v 44 2
      (if a = 0 then bits v 46 8 else def_, a, bits v 46 8)
    | none => (def_, if portF d n port Reg.HPORT_DEFAULT_VALID = 1 then 0 else 3, 0)
  let d := if searched then harSearchCheck d n (harRuleKey n 0) 1024 else d
  match if p.fromHost ∨ portF d n port Reg.HPORT_FRAG_EN = 0 then none else frag with
  | none => harSettle d n p k h act arg none
  | some (key, off) =>
    let sig := fragSig key
    if off = 0 then harSettle d n p k h act arg (some sig)
    else
      let d := fragScrub d n sig
      match fragFind d n sig with
      | some e =>
        let v := getFrag d e
        let p := pcSet p Pc.flowHash (bits v 56 32)
        let p := pkFlagsSet (bits v 96 16) p
        harSettle (harEvt d n 9) n p k (bits v 88 8) 0 0 none
      | none => fragWait d n p k h act arg sig

/-- The reparse of a packet that RIND_A has returned (R144); the packet then joins its return queue, or is dropped LATE (R46, R47,
R57). -/
def reparsePkt (l : PktRef) (d : Dev) : Dev :=
  match getPkt d l with
  | none => d
  | some p =>
    if p.loc ≠ .reparse then d
    else if pastDeadline d l.a p then furDrop d l p 0x40
    else
      let n := l.a
      let k := walk d n (rdF d (Reg.HARROW_CFG n) Reg.HARROW_CFG_DECRYPT_START) p
      let d := harEvt (walkCount d n (inPort p) k) n 16
      let d := if k.err = 0 then d else harEvt d n 17
      let p := pcSet (pkFlagsSet k.fset (setHdrs { p with edits := [], edata := [] } k.hdrs)) (Pc.flag flParseErr) (b2n (k.err != 0))
      let x := getFur d l.a l.f
      if 64 ≤ x.returnQ.length then furDrop d l { p with loc := .atRind } 0x4A
      else putPkt (putFur d l.a l.f { x with returnQ := x.returnQ ++ [l.slot] }) l { p with loc := .returning }

/-- The next packet in order of return whose slot still holds it, and those behind it. -/
def backNext (d : Dev) (n : Nat) : List (Nat × Nat × Nat) → Option (PktRef × List (Nat × Nat × Nat))
  | [] => none
  | (f, slot, gen) :: t =>
    if (getPkt d ⟨n, f, slot⟩).any fun p => p.gen == gen && p.loc == .reparse then some (⟨n, f, slot⟩, t) else backNext d n t

def setBackQ (d : Dev) (n : Nat) (l : List (Nat × Nat × Nat)) : Dev :=
  { d with har := { d.har with backQ := spPut (fun _ => []) d.har.backQ n l } }

/-- The next reparse of an instance, in order of return (R120). -/
def reparse (n : Nat) (d : Dev) : Dev :=
  match backNext d n (spGet (fun _ => []) d.har.backQ n) with
  | none => setBackQ d n []
  | some (l, t) => reparsePkt l (setBackQ d n t)

/-- The pipes that an instance has filled in its present cycle, and whether one holds a released fragment. A cycle ends when 16 pipes
are filled or time goes on (DESIGN CHOICE, log entry 150). -/
def cycleOf (d : Dev) (n : Nat) : Nat × Bool :=
  let c := spGet (fun _ => (0, 0, false)) d.har.cycle n
  if c.1 = d.time ∧ c.2.1 < 16 then c.2 else (0, false)

def setCycle (d : Dev) (n k : Nat) (frag : Bool) : Dev :=
  { d with har := { d.har with cycle := spPut (fun _ => (0, 0, false)) d.har.cycle n (d.time, k, frag) } }

/-- The input of ranks 2 to 4 that fills the next pipe of an instance, 0 for none: a second released fragment waits for the next
cycle, and a cycle that has nothing else to take ends (R120). -/
def parseRank (d : Dev) (n : Nat) (frag : Bool) : Nat :=
  if ¬ frag ∧ inQ d n 2 ≠ [] then 2
  else if inQ d n 3 ≠ [] then 3
  else if inQ d n 4 ≠ [] then 4
  else if inQ d n 2 ≠ [] then 2 else 0

/-- The next packet enters a parse pipe of an instance, by the ranks of R120. -/
def harrowParse (n : Nat) (d : Dev) : Dev :=
  if ¬ acreUp d n then d
  else
    let (k, frag) := cycleOf d n
    if (backNext d n (spGet (fun _ => []) d.har.backQ n)).isSome then reparse n (setCycle d n (k + 1) frag)
    else
      let r := parseRank d n frag
      match inQ d n r with
      | [] => d
      | p :: t =>
        let d := setInQ (if r = 2 ∧ frag then setCycle d n 1 true else setCycle d n (k + 1) (frag || r == 2)) n r t
        let d := if r = 3 then { d with host := { d.host with injBuf := d.host.injBuf - p.frame.length } } else d
        harrowPacket d n p

/-- FRAG_WAIT of held fragment k has passed. -/
def fragWaitExpiry (n k : Nat) (d : Dev) : Dev :=
  match (heldQ d n)[k]? with
  | none => d
  | some e => harEvt (fragRelease (setHeldQ d n ((heldQ d n).eraseIdx k)) n [e]) n 12

/-- The sweep of one bucket of the decision table (R142). -/
def fragSweep (n bucket : Nat) (d : Dev) : Dev :=
  (List.range 4).foldl (fun d w =>
    let k := fragKey n bucket w
    let e := getFrag d k
    if bit e 127 ∧ ¬ fragLive d n e then harEvt (putFrag d k 0) n 15 else d) d

/-! Punts (R146 to R149). -/

/-- The tokens of a bucket when it has not been used: its burst at reset. -/
def tokenFull (k : Nat) : Nat := (if k < 256 then 64 else if k = 256 then 1024 else if k = 257 then 512 else 8) * 2 ^ 20

def tokens (d : Dev) (k : Nat) : Nat := spGet tokenFull d.har.tokens k
def setTokens (d : Dev) (k n : Nat) : Dev := { d with har := { d.har with tokens := spPut tokenFull d.har.tokens k n } }
def hasToken (d : Dev) (k : Nat) : Bool := decide (2 ^ 20 ≤ tokens d k)
def takeToken (d : Dev) (k : Nat) : Dev := setTokens d k (tokens d k - 2 ^ 20)

/-- Burst and rate of a bucket. -/
def bucketBurst (d : Dev) (k : Nat) : Nat :=
  if k < 256 then rdF d (Reg.PUNT_POLICER k) Reg.PUNT_POLICER_BURST else if k = 256 then rdF d Reg.PUNT_CEILING Reg.PUNT_CEILING_BURST
  else if k = 257 then 512 else 8
def bucketRate (d : Dev) (k : Nat) : Nat :=
  if k < 256 then rdF d (Reg.PUNT_POLICER k) Reg.PUNT_POLICER_RATE_PPS else if k = 256 then rdF d Reg.PUNT_CEILING Reg.PUNT_CEILING_RATE_PPS
  else if k = 257 then 50000 else 100

/-- Every bucket, ports last. -/
def allBuckets : List Nat := List.range 258 ++ (List.range 512).map (512 + ·)

/-- The refill of one microsecond (R148). -/
def bucketRefill (d : Dev) : Dev :=
  allBuckets.foldl (fun d k =>
    setTokens d k (min (bucketBurst d k * 2 ^ 20) (tokens d k + bucketRate d k * 2 ^ 20 / 1000000))) d

/-- A write of a bucket's rate or burst keeps its tokens, capped at the new burst. -/
def bucketCap (d : Dev) (k : Nat) : Dev := setTokens d k (min (tokens d k) (bucketBurst d k * 2 ^ 20))

/-- A passed punt joins the ring queue of its reason's ring, or is discarded there (R487, R488). -/
def ringEnqueue (d : Dev) (p : Pkt) : Dev :=
  let r := rdF d (Reg.PUNT_POLICER (pcGet p Pc.puntReason)) Reg.PUNT_POLICER_RING
  let q := spGet (fun _ => []) d.host.ringQ r
  if rdF d (Reg.PUNT_RING r 1) Reg.PUNT_RING_ENABLE = 0 ∨ 32 ≤ q.length then
    releaseFrame (bumpSat d (Reg.PUNT_RING r 6) Reg.PUNT_RING_NO_DESC 1) p
  else { d with host := { d.host with ringQ := spPut (fun _ => []) d.host.ringQ r (q ++ [(p, d.time)]) } }

/-- The policer takes the head of one acre's punt queue (R147, R149). -/
def policeOne (d : Dev) (a : Nat) : Dev :=
  match spGet (fun _ => []) d.har.puntQ a with
  | [] => d
  | p :: t =>
    let d := { d with har := { d.har with puntQ := spPut (fun _ => []) d.har.puntQ a t } }
    let r := pcGet p Pc.puntReason
    let closed := r == 3 || r == 4
    let pk := 512 + inPort p
    if closed ∧ ¬ (hasToken d pk ∧ hasToken d 257) then harDrop (bump d (Reg.PUNT_CNT r 1)) a 3 p
    else
      let d := if closed then takeToken (takeToken d pk) 257 else d
      if ¬ hasToken d r then harDrop (bump d (Reg.PUNT_CNT r 1)) a 4 p
      else if ¬ hasToken d 256 then harDrop (bump d (Reg.PUNT_CNT r 1)) a 5 p
      else ringEnqueue (bump (takeToken (takeToken d r) 256) (Reg.PUNT_CNT r 0)) p

/-- One cycle of the policer: each acre's head, in ascending acre number. -/
def puntPolicer (d : Dev) : Dev := (List.range 4).foldl policeOne d

/-- HARROW_STATUS as it reads (R150). -/
def harrowStatus (d : Dev) (n : Nat) : W64 :=
  mkWord [(Reg.HARROW_STATUS_FRAG_ENTRIES, (d.har.frags.filter fun e => e.1 / 65536 = n ∧ bit e.2 127).length),
    (Reg.HARROW_STATUS_HELD_CELLS, heldCells (heldQ d n)), (Reg.HARROW_STATUS_HELD, (heldQ d n).length)]

end Sys2Proof.Machine
end

