-- ==== Sys2Proof/Machine/CmdFurrow.lean ====
section
/-!
DEFINITION. The commands of Harrow and of the furrow machine.
-/
namespace Sys2Proof.Machine

/-- HARROW_PARSE (R119): A packet enters a parse pipe and is walked, resolved to a holding, hashed and settled in 64 cycles. -/
def execHarrowParse (n : Nat) (s : State) : Host.Outcome State Fault Refusal :=
  run (harrowParse n) s

/-- FRAG_WAIT_EXPIRY (R141): A held fragment whose FRAG_WAIT has passed is released to re-enter Harrow. -/
def execFragWaitExpiry (n k : Nat) (s : State) : Host.Outcome State Fault Refusal :=
  run (fragWaitExpiry n k) s

/-- FRAGMENT_SWEEP (R142): The sweep visits one bucket of the decision table and invalidates expired ways. -/
def execFragmentSweep (n bucket : Nat) (s : State) : Host.Outcome State Fault Refusal :=
  run (fragSweep n bucket) s

/-- REPARSE (R144): A packet returning from RIND_A is reparsed from DECRYPT_START before its return queue. -/
def execReparse (n : Nat) (s : State) : Host.Outcome State Fault Refusal :=
  run (reparse n) s

/-- PUNT_POLICER (R147): Each buffer-island cycle the policer takes one punt per acre and passes it to a ring or drops it. -/
def execPuntPolicer (s : State) : Host.Outcome State Fault Refusal :=
  run (puntPolicer) s

/-- BUCKET_REFILL (R148): Every 1 µs each punt and closed-punt bucket is refilled up to its burst. -/
def execBucketRefill (s : State) : Host.Outcome State Fault Refusal :=
  run (bucketRefill) s

/-- FURROW_ENTRY_ADMIT (R47): Each cycle the furrow entry admits one packet by precedence into row 0, assigning entry fields at first entry. -/
def execFurrowEntryAdmit (a f : Nat) (s : State) : Host.Outcome State Fault Refusal :=
  run (entryAdmit a f) s

/-- NOP (R38): Microword NOP advances PC.upc without executing a nanoword. -/
def execNop (l : PktRef) (s : State) : Host.Outcome State Fault Refusal :=
  run (rowStep l 0) s

/-- NEXT (R38): Microword NEXT executes its nanoword and advances PC.upc. -/
def execNext (l : PktRef) (s : State) : Host.Outcome State Fault Refusal :=
  run (rowStep l 1) s

/-- BRANCH (R38): Microword BRANCH executes its nanoword and jumps to TARGET or PC.ret when taken. -/
def execBranch (l : PktRef) (s : State) : Host.Outcome State Fault Refusal :=
  run (rowStep l 2) s

/-- WAIT (R38): Microword WAIT proceeds when its condition holds, else the packet parks in the row. -/
def execWait (l : PktRef) (s : State) : Host.Outcome State Fault Refusal :=
  run (rowStep l 3) s

/-- CALL_NEXT_ROW (R38): Microword CALL-NEXT-ROW jumps to TARGET and saves the return address in PC.ret when taken. -/
def execCallNextRow (l : PktRef) (s : State) : Host.Outcome State Fault Refusal :=
  run (rowStep l 4) s

/-- EXIT (R38): Microword EXIT ends the pass after this row when taken, acting on the disposition. -/
def execExit (l : PktRef) (s : State) : Host.Outcome State Fault Refusal :=
  run (rowStep l 5) s

/-- RECIRC (R38): Microword RECIRC sets RECIRCULATE and ends the pass when taken. -/
def execRecirc (l : PktRef) (s : State) : Host.Outcome State Fault Refusal :=
  run (rowStep l 6) s

/-- TRAP (R38): Microword TRAP drops the packet with reason TRAP and records FURROW_TRAP when taken. -/
def execTrap (l : PktRef) (s : State) : Host.Outcome State Fault Refusal :=
  run (rowStep l 7) s

/-- PARK_WAKE (R51): The head of a domain queue wakes when its awaited condition becomes true and re-executes its microword. -/
def execParkWake (l : PktRef) (cls : Nat) (s : State) : Host.Outcome State Fault Refusal :=
  run (parkWake l cls) s

/-- FORCED_BUBBLE (R53): A woken packet that found no empty cycle within 16 cycles requests a forced bubble at the furrow entry. -/
def execForcedBubble (l : PktRef) (s : State) : Host.Outcome State Fault Refusal :=
  run (forcedBubble l) s

/-- EXIT_HOLD_RELEASE (R54): A packet in the exit hold leaves once every earlier packet of its domain has left. -/
def execExitHoldRelease (l : PktRef) (s : State) : Host.Outcome State Fault Refusal :=
  run (exitRelease l) s

/-- LATE (R57): A packet whose PKT_DEADLINE has passed is dropped LATE. -/
def execLate (l : PktRef) (s : State) : Host.Outcome State Fault Refusal :=
  run (lateDrop l) s

/-- SAFE_BOUND (R62): A packet exceeding 48 row-steps without a safe point is dropped and a FATAL fault raised. -/
def execSafeBound (l : PktRef) (s : State) : Host.Outcome State Fault Refusal :=
  run (safeBoundDrop l) s

/-- PROG_VERIFY_DONE (R68): Verification ends, arming the bank or returning it to LOADABLE with an error. -/
def execProgVerifyDone (s : State) : Host.Outcome State Fault Refusal :=
  run (verifyDone) s

/-- EPOCH_BOUNDARY (R69): At the epoch boundary the ARMED bank becomes ACTIVE and the old bank DRAINING. -/
def execEpochBoundary (s : State) : Host.Outcome State Fault Refusal :=
  run (epochBoundary) s

/-- DRAIN_END (R65): When no packet of the old epoch remains, the DRAINING bank becomes LOADABLE. -/
def execDrainEnd (s : State) : Host.Outcome State Fault Refusal :=
  run (drainEnd) s

/-- ISOLATE_COMPLETE (R71): An isolating furrow that has emptied takes role ISOLATED. -/
def execIsolateComplete (a f : Nat) (s : State) : Host.Outcome State Fault Refusal :=
  run (isolateDone a f) s

/-- SELF_TEST_DONE (R71): After 200 µs of self-test the furrow becomes SPARE or FAILED. -/
def execSelfTestDone (a f : Nat) (pass : Bool) (s : State) : Host.Outcome State Fault Refusal :=
  run (selfTestDone a f pass) s

/-- SPARE_TAKEOVER (R72): A FATAL fault in an ACTIVE furrow replaces it by the spare, or spreads its entries when there is none. -/
def execSpareTakeover (a f : Nat) (s : State) : Host.Outcome State Fault Refusal :=
  run (spareTakeover a f) s

/-- FURROW_HANG (R72): The furrow progress watchdog detects a hang and raises a FATAL fault. -/
def execFurrowHang (a f : Nat) (s : State) : Host.Outcome State Fault Refusal :=
  run (fun d => raise d Fk.hang (32 * a + f) 0 0 0) s

/-- REHASH_DOMAIN_DRAINED (R75): When a domain of f_old has drained below its drain mark, its held packets are released into f_new. -/
def execRehashDomainDrained (a dom : Nat) (s : State) : Host.Outcome State Fault Refusal :=
  run (rehashDrained a dom) s

/-- REHASH_HOLD_EXPIRY (R75): When REHASH_HOLD has passed, every held packet is released and the rehash ends. -/
def execRehashHoldExpiry (a : Nat) (s : State) : Host.Outcome State Fault Refusal :=
  run (rehashExpire a) s

end Sys2Proof.Machine
end

