-- ==== Sys2Proof/Machine/Journal.lean ====
section
/-!
DEFINITION. The pair's maps, the frames that the device sends and the mirror journal (R392 to R402), with the gates of R406 and
R407, as Rind, the learn engine and the pair commands share them.
-/
namespace Sys2Proof.Machine

def pairF (d : Dev) (f : Fld) : Nat := rdF d Reg.PAIR_STATUS f
def setPairF (d : Dev) (f : Fld) (v : Nat) : Dev := wrF d Reg.PAIR_STATUS f v

/-- The pair state (R396): 0 SOLO, 1 LINKING, 2 SYNCING, 3 PAIRED, 4 SPLIT, 5 SURVIVOR, 6 HANDED. -/
def pairState (d : Dev) : Nat := pairF d Reg.PAIR_STATUS_STATE

/-- Whether the journal runs: SYNCING, PAIRED or SPLIT. -/
def journalOn (d : Dev) : Bool := decide (2 ≤ pairState d ∧ pairState d ≤ 4)

/-- Device identity (R397). -/
def pairId (d : Dev) : Nat := rdF d Reg.PAIR_ROLE Reg.PAIR_ROLE_ID

/-- The four words of a map register as one number, bit h for holding h. -/
def mapOf (d : Dev) (r : Nat → Nat) : Nat := (List.range 4).foldl (fun v i => v + (rd d (r i)).toNat * 2 ^ (64 * i)) 0
def setPairMap (d : Dev) (r : Nat → Nat) (m : Nat) : Dev :=
  (List.range 4).foldl (fun d i => wr d (r i) (BitVec.ofNat 64 (bits m (64 * i) 64))) d

/-- The map that gives every holding to one device. -/
def mapAll (id : Nat) : Nat := if id = 1 then 2 ^ 256 - 1 else 0

/-- Whether this device anchors a holding under the effective map (R397). -/
def anchors (d : Dev) (h : Nat) : Bool := pairState d == 0 || bits (mapOf d Reg.PAIR_EFFECTIVE) h 1 == pairId d

/-- The holdings of a map that a device has. -/
def mapMine (m id : Nat) : Nat := if id = 1 then m % 2 ^ 256 else 2 ^ 256 - 1 - m % 2 ^ 256

/-- A map's words in network order. -/
def mapBytes (m : Nat) : List Byte := (List.range 4).flatMap fun i => beBytes 8 (bits m (64 * i) 64)
def mapOfBytes (bs : List Byte) : Nat := (List.range 4).foldl (fun v i => v + beNat ((bs.drop (8 * i)).take 8) * 2 ^ (64 * i)) 0

/-! Frames (R392). -/

/-- A Serlet frame, with the lowest `flip` bits of its CRC inverted. -/
def serletFrame (d : Dev) (ty tag slots flip : Nat) (body : List Byte) : List Byte :=
  let h := [BitVec.ofNat 8 ty, BitVec.ofNat 8 (pairId d)] ++ beBytes 2 tag ++ beBytes 1 slots ++ beBytes 3 0
    ++ beBytes 8 (rd d Reg.JOURNAL_RX_SEQ).toNat ++ (body ++ List.replicate 256 0).take 256
  h ++ beBytes 4 (crc32c 0xFFFFFFFF h ^^^ (2 ^ flip - 1)) ++ beBytes 4 0

def linkUp (d : Dev) : Bool := pairF d Reg.PAIR_STATUS_LINK_STATE == 2

/-- The device sends a frame, while the link is UP. -/
def pairSend (d : Dev) (ty tag slots : Nat) (body : List Byte) : Dev :=
  if linkUp d then
    let (flip, d) := injectAt d 3 0xB00 0
    bump { d with pair := { d.pair with sent := d.pair.sent ++ [serletFrame d ty tag slots flip body] } } (Reg.PAIR_CNT 0)
  else d

/-! The journal (R399 to R402). -/

/-- An entry's slot. -/
def entryBytes (seq : Nat) (e : JEntry) : List Byte :=
  beBytes 8 seq ++ beBytes 1 e.kind ++ beBytes 1 e.table ++ beBytes 1 e.holding ++ beBytes 1 e.flags ++ beBytes 4 e.index
    ++ beBytes 8 e.value ++ beBytes 36 e.key ++ beBytes 4 0

/-- Kinds 1 to 3 are learn kinds. -/
def learnKind (e : JEntry) : Bool := decide (1 ≤ e.kind ∧ e.kind ≤ 3)

/-- Whether the retransmit buffer has room for an entry (R401, R402). -/
def journalRoom (d : Dev) (e : JEntry) : Bool :=
  decide (d.pair.buf.length < 65536)
    && (!learnKind e || decide ((d.pair.buf.filter fun x => learnKind x.2).length < 49152))

/-- OUTSTANDING follows the buffer. -/
def setBuf (d : Dev) (l : List (Nat × JEntry)) : Dev :=
  wrF { d with pair := { d.pair with buf := l } } Reg.JOURNAL_STATUS Reg.JOURNAL_STATUS_OUTSTANDING l.length

/-- An entry takes the next sequence number and is sent. -/
def journalPut (d : Dev) (e : JEntry) : Dev :=
  let n := (rd d Reg.JOURNAL_TX_SEQ).toNat
  let d := bump (setBuf (bump d Reg.JOURNAL_TX_SEQ) (d.pair.buf ++ [(n, e)])) (Reg.PAIR_CNT 3)
  let d := if e.kind = 4 then bump d (Reg.PAIR_CNT 9) else d
  pairSend d 1 0 1 (entryBytes n e)

/-- A learn kind is posted, or discarded for want of room (R402). -/
def journalLearn (d : Dev) (e : JEntry) : Dev :=
  if ¬ journalOn d then d
  else if journalRoom d e then journalPut d e
  else raise (setPairF (bump d (Reg.PAIR_CNT 8)) Reg.PAIR_STATUS_JOURNAL_LOST 1) Fk.journalOverflow 0 0 0 0

/-- A checkpoint entry. -/
def ckptEntry (kind i holding pn : Nat) (final : Bool) : JEntry := ⟨4, kind, holding, 2 * b2n final, i, pn % 2 ^ 64, 0⟩

def setCkptWait (d : Dev) (kind i v : Nat) : Dev :=
  { d with pair := { d.pair with ckptWait := spPut (fun _ => 0) d.pair.ckptWait (saKey kind i) v } }

/-- Post a checkpoint; without room it waits, and the association with it. The answer says whether it was posted. -/
def journalCkpt (d : Dev) (kind i holding pn : Nat) : Bool × Dev :=
  if ¬ journalOn d then (true, d)
  else
    let e := ckptEntry kind i holding pn false
    if journalRoom d e then
      let d := journalPut d e
      (true, bump (setCkptWait d kind i 0) (Reg.ENG_CNT (if kind = 2 then bits (rindEnt d 2 i) (64 * 12 + 36) 4
        else bits (rindEnt d kind i) (64 * 12) 9 / 64) 6))
    else (false, setCkptWait d kind i 1)

/-- NEXT_PN of an association; bit 1,024 of the entry stands for a number past 2^64 - 1. -/
def nextPn (e : Nat) : Nat := bits e 640 64 + bits e 1024 1 * 2 ^ 64

/-- Checkpoints that wait are posted as room allows. -/
def ckptDrain (d : Dev) : Dev :=
  d.pair.ckptWait.foldl (fun d x =>
    let kind := x.1 / 2 ^ 17
    let i := x.1 % 2 ^ 17
    let e := rindEnt d kind i
    (journalCkpt d kind i (bits e (64 * 12 + 48) 8) (nextPn e)).2) d

/-- Whether a table is mirrored. -/
def mirrored (d : Dev) (b : Tbl) : Bool := b.kind == 1 && b.learn && flagF d (Reg.PAIR_TABLE_CFG b.t) Reg.PAIR_TABLE_CFG_MIRROR

/-- The holding of a key of a mirrored table. -/
def mirrorHold (d : Dev) (b : Tbl) (key : Nat) : Nat :=
  bits key (keyW b - 8 - rdF d (Reg.PAIR_TABLE_CFG b.t) Reg.PAIR_TABLE_CFG_HOLD_POS) 8

/-- A learn entry of the journal. -/
def learnEntry (d : Dev) (b : Tbl) (kind key action : Nat) (absent : Bool) : JEntry :=
  ⟨kind, b.t, mirrorHold d b key, b2n absent, 0, action, key * 2 ^ (288 - keyW b)⟩

/-- The journal entry that a waiting item stands for at the moment of its sending: the table entry and the packet number as they then are;
none when there is nothing to say any longer. -/
def syncEntry (d : Dev) : SyncItem → Option JEntry
  | .entry e => some e
  | .set t key =>
    match tbl d t with
    | none => none
    | some b => match exactFind d b key with
      | none => none
      | some i =>
        let e := readUnit d b i
        if eType b e = 0 ∧ (mirrored d b = true) ∧ (anchors d (mirrorHold d b key) = true) then some (learnEntry d b 2 key (eAction e) false)
        else none
  | .ckpt i =>
    let e := rindEnt d 2 i
    let h := bits e (64 * 12 + 48) 8
    if bit e (64 * 12 + 63) ∧ (bit e (64 * 12 + 59) = true) ∧ (bit e (64 * 12 + 56) = true) ∧ (anchors d h = true) then
      some (ckptEntry 2 i h (nextPn e) false)
    else none

/-- Whether an entry of R410 is sent now: of the room for learn kinds it leaves half to new entries, with which it is interleaved. -/
def syncRoom (d : Dev) (e : JEntry) : Bool :=
  journalRoom d e && (!learnKind e || decide ((d.pair.buf.filter fun x => learnKind x.2).length < 24576))

/-- Entries of R410 and R411 that wait are posted as room allows, in order; the number of SYNC_DONE is kept. -/
def syncDrain : Nat → Dev → Dev
  | 0, d => d
  | n + 1, d =>
    match d.pair.syncQ with
    | [] => d
    | x :: t =>
      let next := fun (d : Dev) => { d with pair := { d.pair with syncQ := t } }
      match syncEntry d x with
      | none => syncDrain n (next d)
      | some e =>
        if syncRoom d e then
          let seq := (rd d Reg.JOURNAL_TX_SEQ).toNat
          let d := journalPut (next d) e
          syncDrain n (if e.kind = 7 then { d with pair := { d.pair with syncDone := some seq } } else d)
        else d

/-- Enter SPLIT, with its fault. -/
def pairSplit (d : Dev) (k : FaultKind) : Dev := raise (setPairF d Reg.PAIR_STATUS_STATE 4) k 0 0 0 0

/-- SYNCING ends: the device is PAIRED, and SPLIT at once when one of its signs of life is timed out (R396). -/
def pairPaired (d : Dev) : Dev :=
  let d := setPairF d Reg.PAIR_STATUS_STATE 3
  if pairF d Reg.PAIR_STATUS_BEAT_SEEN = 0 then pairSplit d Fk.splitBeat
  else if pairF d Reg.PAIR_STATUS_FRAMES_SEEN = 0 then pairSplit d Fk.splitLink
  else d

/-- The exchange of R410 ends once both SYNC_DONE entries have been accepted: SYNCING becomes PAIRED. -/
def syncCheck (d : Dev) : Dev :=
  match d.pair.syncDone with
  | none => d
  | some n =>
    if d.pair.syncing ∧ d.pair.peerDone ∧ d.pair.buf.all fun x => decide (n < x.1) then
      let d := { d with pair := { d.pair with syncing := false, syncDone := none, peerDone := false } }
      if pairState d = 2 then pairPaired d else d
    else d

/-- The peer acknowledges every entry below a number (R401). -/
def journalAck (d : Dev) (ack : Nat) : Dev :=
  let gone := d.pair.buf.filter fun x => decide (x.1 < ack)
  if gone = [] then d
  else
    let d := setBuf d (d.pair.buf.filter fun x => decide (ack ≤ x.1))
    let acked := gone.foldl (fun m x =>
      let k := saKey x.2.table x.2.index
      if x.2.kind = 4 then spPut (fun _ => 0) m k (max (spGet (fun _ => 0) m k) x.2.value) else m) d.pair.acked
    let d := ckptDrain { d with pair := { d.pair with acked := acked, timeouts := 0 } }
    syncCheck (syncDrain d.pair.syncQ.length d)

/-! The gates (R406, R407). -/

/-- Whether a gate stops the next unit of an ESP association e of index i. -/
def gateClosed (d : Dev) (i e : Nat) : Bool :=
  let h := bits e (64 * 12 + 48) 8
  let on := journalOn d
    || (pairState d == 5 && pairF d Reg.PAIR_STATUS_GATE_FROZEN == 1 && bit d.pair.before h)
  bit e (64 * 12 + 56) && on && decide (spGet (fun _ => 0) d.pair.acked (saKey 2 i) + 2 ^ 21 ≤ nextPn e)

/-- A unit is dropped PAIR_CKPT_WAIT (R414). -/
def ckptWaitDrop (d : Dev) : Dev := bump d (Reg.PAIR_DROP 0)

/-- A pair notice (R415), with vector 131 (R480). -/
def pairNotice (d : Dev) (kind : Nat) : Dev :=
  subjectVec (evtPost d 0 (BitVec.ofNat 64 (2 ^ 63 + 11 * 2 ^ 59 + kind * 2 ^ 55)) (BitVec.ofNat 64 d.time) (rd d Reg.PAIR_TAKEOVER_STATUS) 0) 131

end Sys2Proof.Machine
end

