-- ==== Sys2Proof/Machine/Rind.lean ====
section
/-!
DEFINITION. Rind (R307 to R336): the association store and its command interface, the lease, MACsec, ESP and the answers that the
deep store and the association store give to furrows.
-/
namespace Sys2Proof.Machine

/-! Fields of an entry (R311). -/

def eVld (e : Nat) : Bool := bit e (64 * 12 + 63)
def eExh (e : Nat) : Bool := bit e (64 * 12 + 62)
def eWide (e : Nat) : Bool := bit e (64 * 12 + 60)
def eOut (e : Nat) : Bool := bit e (64 * 12 + 59)
def eHolding (e : Nat) : Nat := entF e 12 48 8
def eHome (e : Nat) : Nat := entF e 12 36 4
def ePort (e : Nat) : Nat := entF e 12 0 9
def eMirror (e : Nat) : Bool := bit e (64 * 12 + 56)

/-- The engine that is an entry's home (R310). -/
def homeEngine (kind i e : Nat) : Nat :=
  if kind = 2 then (if eOut e then eHome e else 8 + eHome e) else if kind ≤ 1 then ePort e / 64 else if kind = 5 then i / 128 else i / 64

/-- The highest number of an entry (R328). -/
def pnLimit (e : Nat) : Nat := if eWide e then 2 ^ 64 - 1 else 2 ^ 32 - 1

def setNextPn (e n : Nat) : Nat := setBits (setBits e 640 64 n) 1024 1 (n / 2 ^ 64)

/-- A notice (R332), with the vector of its engine instance and, for REKEY and EXHAUSTED of an ESP association, that of the association (R480). -/
def rindNotice (d : Dev) (n kind inst i pn : Nat) : Dev :=
  let r := evtPost d 0 (BitVec.ofNat 64 (2 ^ 63 + n * 2 ^ 59 + kind * 2 ^ 56 + inst * 2 ^ 52 + i)) (BitVec.ofNat 64 pn) 0 0
  let d := subjectVec r (944 + inst % 16)
  if kind = 2 ∧ n ≠ 9 then subjectVec (d, r.2) (960 + i % 1024) else d

/-- NEXT_PN has changed: REKEY_DUE and its notice when it reaches REKEY_AT (R329). -/
def rekeyCheck (d : Dev) (kind i e : Nat) : Nat × Dev :=
  if ¬ bit e (64 * 12 + 61) ∧ entF e 11 0 64 ≤ nextPn e then
    (entSet e 12 61 1 1, rindNotice d 7 kind (homeEngine kind i e) i (nextPn e))
  else (e, d)

/-- No number is left (R330). -/
def exhaust (d : Dev) (kind i e : Nat) : Nat × Dev :=
  if eExh e then (e, d)
  else
    let n := homeEngine kind i e
    (entSet e 12 62 1 1, raise (rindNotice d 8 kind n i (nextPn e)) Fk.saExhausted n 0 0 0)

/-- An outbound unit starts: it takes the next number, or none is left (R328 to R330). The answer is its number. -/
def takePn (d : Dev) (kind i e : Nat) : Option Nat × Dev :=
  let n := nextPn e
  if pnLimit e < n ∨ eExh e then
    let (e, d) := exhaust d kind i e
    (none, putEnt d kind i e)
  else
    let e := setNextPn e (n + 1)
    let (e, d) := rekeyCheck d kind i e
    (some n, putEnt d kind i e)

/-- The checkpoint at a multiple of 2^20 (R332); false when it has no room, and while one waits (R402). -/
def unitCkpt (d : Dev) (kind i : Nat) : Bool × Dev :=
  let e := rindEnt d kind i
  if ¬ eMirror e then (true, d)
  else if nextPn e % 2 ^ 20 = 0 then journalCkpt d kind i (eHolding e) (nextPn e)
  else (spGet (fun _ => 0) d.pair.ckptWait (saKey kind i) == 0, d)

/-- Add one to a saturating failure count of word 15, at bit lo. -/
def entFail (e lo : Nat) : Nat := entSet e 15 lo 32 (satAdd 32 (entF e 15 lo 32) 1)
def entPkt (e : Nat) : Nat := entSet e 14 0 64 (entF e 14 0 64 + 1)

/-- An inbound entry takes a number: NEXT_PN, its rekey mark, and EXHAUSTED past the limit (R318, R330). -/
def inboundPn (d : Dev) (kind i e pn : Nat) : Dev :=
  let e := setNextPn (entPkt e) (max (nextPn e) (pn + 1))
  let e := if pnLimit e < nextPn e then entSet e 12 62 1 1 else e
  let (e, d) := rekeyCheck d kind i e
  putEnt d kind i e

/-! MACsec (R308, R318, R319). -/

/-- The 12 bytes of a frame's nonce. -/
def macsecIv (e sci pn : Nat) : List Byte :=
  if eWide e then
    beBytes 12 ((entF e 9 0 32 * 2 ^ 64 + pn) ^^^ (entF e 8 0 64 * 2 ^ 32 + entF e 9 32 32))
  else beBytes 8 sci ++ beBytes 4 pn

/-- The receive SC of a port that a frame names (R318 step 4): its index. -/
def rxSc (d : Dev) (port : Nat) (sc : Bool) (sci : Nat) : Option Nat :=
  ((List.range 128).map fun i => 128 * (port / 64) + i).find? fun i =>
    let e := rindEnt d 5 i
    bit e (64 * 9 + 63) && entF e 9 50 9 == port && (if sc then entF e 8 0 64 == sci else bit e (64 * 9 + 62))

/-- The full number from the bits carried (R318; IEEE 802.1AE for XPN). -/
def recoverPn (e low pn32 : Nat) : Nat :=
  if eWide e then
    let hi := low / 2 ^ 32 + b2n (bit low 31 && !bit pn32 31)
    hi % 2 ^ 32 * 2 ^ 32 + pn32
  else pn32

/-- A MACsec drop of strip s, code 0xC0 + k. -/
def macDrop (d : Dev) (s k : Nat) : Except Nat (List Byte) × Dev := (.error (0xC0 + k), rindDrop d k s)

/-- The receive path settles a frame without FCS: the frame that goes on, or the code of its drop (R318). -/
def macsecRx (d : Dev) (port : Nat) (f : List Byte) : Except Nat (List Byte) × Dev :=
  let s := port / 64
  let et := beNat ((f.drop 12).take 2)
  let (pe, _, d) := entLoad d 4 port
  if ¬ bit pe (64 * 9 + 62) ∨ et = 0x888E then (.ok f, d)
  else if et ≠ 0x88E5 then macDrop d s 0
  else
    let tci := byteAt f 14
    let sl := byteAt f 15
    let sc := bit tci 5
    let t := if sc then 28 else 20
    let sd := f.length - t - 16
    if bit tci 7 ∨ bit tci 3 ≠ bit tci 2 ∨ f.length < t + 16 ∨ sl ≠ (if 48 ≤ sd then 0 else sd) then macDrop d s 1
    else
      let sci := beNat ((f.drop 20).take 8)
      match rxSc d port sc sci with
      | none => macDrop d s 2
      | some j =>
        let (c, _, d) := entLoad d 5 j
        let i := entF c 9 (12 * (tci % 4)) 12
        let (e, _, d) := entLoad d 1 i
        if ¬ eVld e then macDrop d s 2
        else
          let low := max 1 (nextPn e - entF c 10 0 32)
          let pn := recoverPn e low (beNat ((f.drop 16).take 4))
          let d := engCount d s f.length
          if eExh e ∨ (bit c (64 * 9 + 61) ∧ pn < low) then macDrop (putEnt d 1 i (entFail e 0)) s 4
          else
            let iv := macsecIv e (if sc then sci else entF c 8 0 64) pn
            let body := (f.drop t).take sd
            let tag := f.drop (t + sd)
            let res := if bit tci 2 then gcmOpen (entKey e 0) iv (f.take t) body tag
              else (gcmOpen (entKey e 0) iv (f.take (t + sd)) [] tag).map fun _ => body
            match res with
            | none => macDrop (putEnt d 1 i (entFail e 32)) s 3
            | some u => (.ok (f.take 12 ++ u), inboundPn d 1 i e pn)

/-- The transmit path of MACsec: the frame as it leaves, or the code of its drop (R319). -/
def macsecTx (d : Dev) (port : Nat) (f : List Byte) : Except Nat (List Byte) × Dev :=
  let s := port / 64
  let (pe, _, d) := entLoad d 4 port
  if ¬ bit pe (64 * 9 + 63) ∨ beNat ((f.drop 12).take 2) = 0x888E then (.ok f, d)
  else
    let an := entF pe 9 56 2
    let i := entF pe 9 (12 * an) 12
    let (e, _, d) := entLoad d 0 i
    if ¬ eVld e ∨ ePort e ≠ port then macDrop d s 5
    else
      match takePn d 0 i e with
      | (none, d) => macDrop d s 6
      | (some pn, d) =>
        match unitCkpt d 0 i with
        | (false, d) => (.error 0xE0, ckptWaitDrop d)
        | (true, d) =>
          let sc := bit pe (64 * 9 + 61)
          let conf := bit pe (64 * 9 + 60)
          let n := f.length - 12
          if rdF d (Reg.PORT_CFG port) Reg.PORT_CFG_MTU < f.length + (if sc then 32 else 24) + 4 then macDrop d s 8
          else
            let tci := b2n (bit pe (64 * 9 + 59)) * 64 + b2n sc * 32 + b2n (bit pe (64 * 9 + 58)) * 16 + b2n conf * 12 + an
            let tag := beBytes 2 0x88E5 ++ beBytes 1 tci ++ beBytes 1 (if n < 48 then n else 0) ++ beBytes 4 pn
              ++ (if sc then beBytes 8 (entF pe 8 0 64) else [])
            let iv := macsecIv e (entF pe 8 0 64) pn
            let hd := f.take 12 ++ tag
            let u := f.drop 12
            let r := if conf then gcmSeal (entKey e 0) iv hd u else (u, (gcmSeal (entKey e 0) iv (hd ++ u) []).2)
            let d := putEnt d 0 i (entPkt (rindEnt d 0 i))
            (.ok (hd ++ r.1 ++ r.2), engCount d s f.length)

/-! ESP at egress (R320 to R323). -/

/-- The transformed frame (R321). -/
def espSeal (e seq : Nat) (f : List Byte) : List Byte :=
  let h := entF e 12 26 9
  let l := f.length - h
  let p := (4 - (l + 2) % 4) % 4
  let spi := beBytes 4 (entF e 13 32 32)
  let iv := beBytes 8 seq
  let pt := f.drop h ++ (List.range p).map (fun i => BitVec.ofNat 8 (i + 1)) ++ [BitVec.ofNat 8 p, BitVec.ofNat 8 (entF e 12 40 8)]
  let aad := spi ++ (if eWide e then beBytes 8 seq else beBytes 4 seq)
  let r := gcmSeal (entKey e 0) (beBytes 4 (entF e 8 32 32) ++ iv) aad pt
  let g := 34 + p
  let o := entF e 12 17 9
  let hd := if bit e (64 * 12 + 35) then putBytes (f.take h) (o + 4) (beBytes 2 (beNat ((f.drop (o + 4)).take 2) + g))
    else ip4Sum (putBytes (f.take h) (o + 2) (beBytes 2 (beNat ((f.drop (o + 2)).take 2) + g))) o
  hd ++ spi ++ beBytes 4 seq ++ iv ++ r.1 ++ r.2

/-- The look-aside queue of strip s: its first packet is encrypted and goes on to its port, or is dropped. -/
def espEncrypt (s : Nat) (d : Dev) : Dev :=
  match laQ d s with
  | [] => d
  | (p, port) :: t =>
    let d := setLaQ d s t
    let (b, _, d) := entLoad d 6 p.queue
    let i := entF b 8 0 16
    let (e, _, d) := entLoad d 2 i
    let (pe, _, d) := entLoad d 4 port
    if ¬ bit b (64 * 8 + 63) ∨ ¬ eVld e ∨ ¬ eOut e ∨ eHome e ≠ s ∨ eHolding e ≠ pcGet p Pc.holding ∨ ¬ bit pe (64 * 9 + 55)
        ∨ ¬ anchors d (eHolding e) then dropCpl (rindDrop d 5 s) p 0xC5
    else if bit (spGet (fun _ => (⟨⟨0, 0, 0, 0⟩, none, []⟩ : Gate)) d.drl.gates port).op.w1.toNat 63 ∧ p.launch < d.time * 1600 then
      dropCpl (rindDrop d 7 s) p 0xC7
    else if gateClosed d i e then dropCpl (ckptWaitDrop d) p 0xE0
    else
      match takePn d 2 i e with
      | (none, d) => dropCpl (rindDrop d 6 s) p 0xC6
      | (some n, d) =>
        match unitCkpt d 2 i with
        | (false, d) => dropCpl (ckptWaitDrop d) p 0xE0
        | (true, d) =>
          let f := espSeal e n p.frame
          if rdF d (Reg.PORT_CFG port) Reg.PORT_CFG_MTU < f.length + 4 then dropCpl (rindDrop d 8 s) p 0xC8
          else
            let d := putEnt (engCount d s p.frame.length) 2 i (entPkt (rindEnt d 2 i))
            let x := getPort d port
            putPort d port { x with txQ := x.txQ ++ [{ p with frame := f }] }

/-! ESP decryption (R324 to R327). -/

/-- The word that an SA_STATE request is answered with, and whether SA_STATE_ERR is set (R324). -/
def saStateWord (d : Dev) (hold ty i : Nat) : Nat × Bool :=
  if 1 < ty then (0, true)
  else
    let e := rindEnt d (if ty = 0 then 2 else 1) i
    if ¬ eVld e ∨ (ty = 0 ∧ eHolding e ≠ hold) then (i, true)
    else
      let own := if ty = 0 then b2n (eOut e) * 2 ^ 60 + eHome e * 2 ^ 56 + eHolding e * 2 ^ 48 else ePort e / 64 * 2 ^ 56
      (2 ^ 63 + b2n (eExh e) * 2 ^ 62 + b2n (bit e (64 * 12 + 61)) * 2 ^ 61 + own + bits (nextPn e) 0 32 * 2 ^ 16 + i, eExh e)

/-- An SA_STATE request is answered, and records or clears the decryption SA. -/
def saStateLand (dest ty key num : Nat) (d : Dev) (l : PktRef) (p : Pkt) : Dev :=
  let i := if ty = 0 then key % 65536 else key % 4096
  let d := if ty ≤ 1 then (entLoadBy 5 4 d (if ty = 0 then 2 else 1) i).2.2 else d
  let (w, err) := saStateWord d (pcGet p Pc.holding) ty i
  let e := rindEnt d 2 i
  let ok := !err && !eOut e && eHome e == l.a
  answer d l p 2 num err fun p =>
    let p := pcSet p (Pc.result dest) w
    if ty = 0 then { p with decSa := if ok then some (0, i) else none } else p

def saStateAnswer (a f k : Nat) (d : Dev) : Dev :=
  match flightAt d a f k with
  | some (.request 2 dest ty key num _) => land a f k [5] d (saStateLand dest ty (key.getD 0 0).toNat num)
  | _ => d

/-- A DEEP request is answered (R382); `late` when it has not completed in time (R380). -/
def deepLand (dest num : Nat) (found : DeepFound) (late : Bool) (mem : Mem) (d : Dev) (l : PktRef) (p : Pkt) : Dev :=
  let lost := fun (d : Dev) => answer d l p 1 num true fun p => pkPoison (pcSet p (Pc.result dest) 0)
  match found with
  | .invalid => answer d l p 1 num true fun p => pcSet p (Pc.result dest) 0
  | .poison => lost d
  | .element x =>
    if late then lost (reqFail d x 5 4)
    else
      let (bs, r, d) := deepRead mem d 2 x 8 5 4
      if r = 0 then answer d l p 1 num false fun p => pcSet p (Pc.result dest) (leNat bs) else lost d

def deepAnswer (a f k : Nat) (late : Bool) (mem : Mem) (d : Dev) : Dev :=
  match flightAt d a f k with
  | some (.deep dest num found) => land a f k [5] d (deepLand dest num found late mem)
  | _ => d

/-- A packet at RIND_A is dropped: it leaves the furrow (R325, R327). -/
def decDrop (d : Dev) (l : PktRef) (p : Pkt) (k : Nat) : Dev :=
  releaseFrame (tdWaste (freeSlot (rindDrop d k (8 + l.a)) l) l.a l.f p) p

/-- The full sequence number of an ESN (RFC 4303 appendix A); without a window the largest one is taken. -/
def recoverSeq (e low32 : Nat) : Nat :=
  if ¬ eWide e then low32
  else
    let w := if entF e 13 0 8 = 0 then 128 else entF e 13 0 8
    let top := nextPn e - 1
    let th := top / 2 ^ 32
    let tl := top % 2 ^ 32
    let hi := if w - 1 ≤ tl then (if tl - (w - 1) ≤ low32 then th else th + 1)
      else if 2 ^ 32 + tl - (w - 1) ≤ low32 then th + 2 ^ 32 - 1 else th
    hi % 2 ^ 32 * 2 ^ 32 + low32

/-- Whether the anti-replay window refuses a number. -/
def replayed (d : Dev) (i e seq : Nat) : Bool :=
  let w := entF e 13 0 8
  eExh e || (w != 0 && (decide (seq < max 1 (nextPn e - w))
    || (decide (seq < nextPn e) && bit (spGet (fun _ => 0) d.rind.window i) (nextPn e - 1 - seq))))

/-- The window after an accepted number. -/
def windowTake (d : Dev) (i e seq : Nat) : Dev :=
  let w := spGet (fun _ => 0) d.rind.window i
  let w := if nextPn e ≤ seq then (if seq + 1 - nextPn e < 128 then w * 2 ^ (seq + 1 - nextPn e) + 1 else 1) % 2 ^ 128
    else setBits w (nextPn e - 1 - seq) 1 1 % 2 ^ 128
  { d with rind := { d.rind with window := spPut (fun _ => 0) d.rind.window i w } }

/-- The outcome of RIND_A's work on a frame: 0 decrypted, with the frame and its number; else a code of R327 less 0xC0. -/
def espOpen (d : Dev) (p : Pkt) (i e : Nat) : Nat × List Byte × Nat :=
  match firstIdx 32 fun k => hdrPresent p k && hdrKind p k == rdF d Reg.RIND_CFG Reg.RIND_CFG_ESP_KIND with
  | none => (9, [], 0)
  | some k =>
    let o := hdrOffset p k
    let f := p.frame
    if f.length < o + 32 ∨ beNat ((f.drop o).take 4) ≠ entF e 13 32 32 then (9, [], 0)
    else
      let seq := recoverSeq e (beNat ((f.drop (o + 4)).take 4))
      if replayed d i e seq then (11, [], 0)
      else
        let n := f.length - o - 32
        let aad := (f.drop o).take 4 ++ (if eWide e then beBytes 8 seq else beBytes 4 seq)
        let iv := beBytes 4 (entF e 8 32 32) ++ (f.drop (o + 8)).take 8
        match gcmOpen (entKey e 0) iv aad ((f.drop (o + 16)).take n) (f.drop (o + 16 + n)) with
        | none => (10, [], 0)
        | some pt =>
          let pad := byteAt pt (n - 2)
          if n < pad + 2 then (9, [], 0)
          else
            let rec_ := beBytes 1 (byteAt pt (n - 1)) ++ beBytes 1 pad ++ beBytes 2 0 ++ beBytes 4 (seq / 2 ^ 32)
            (0, f.take (o + 8) ++ rec_ ++ pt.take (n - 2 - pad), seq)

/-- A packet leaves RIND_A for its reparse, in order of return (R120, R144). -/
def toReparse (d : Dev) (l : PktRef) (p : Pkt) : Dev :=
  let q := spGet (fun _ => []) d.har.backQ l.a
  putPkt { d with har := { d.har with backQ := spPut (fun _ => []) d.har.backQ l.a (q ++ [(l.f, l.slot, p.gen)]) } } l
    { p with loc := .reparse }

/-- RIND_A of acre a completes its next packet (R325 to R327). -/
def decrypt (a : Nat) (d : Dev) : Dev :=
  match spGet (fun _ => []) d.rind.decQ a with
  | [] => d
  | (f, slot, gen, n) :: t =>
    let d := setLookaside { d with rind := { d.rind with decQ := spPut (fun _ => []) d.rind.decQ a t } } a (lookasideUsed d a - n)
    let l : PktRef := ⟨a, f, slot⟩
    match getPkt d l with
    | none => d
    | some p =>
      if p.gen ≠ gen ∨ p.loc ≠ .atRind then d
      else match p.decSa with
      | none => decDrop d l p 12
      | some (_, i) =>
        let (e, _, d) := entLoad d 2 i
        if ¬ eVld e then decDrop d l p 12
        else
          let d := engCount d (8 + a) p.frame.length
          let (r, fr, seq) := espOpen d p i e
          if r = 0 then
            let d := inboundPn (windowTake d i e seq) 2 i e seq
            let d := match p.lookaside with | some (b, m) => setLookaside d b (lookasideUsed d b - m) | none => d
            let d := setLookaside d a (lookasideUsed d a + fr.length)
            let p := pcSet (pcSet p (Pc.flag flDecrypted) 1) (Pc.flag flCipherFail) 0
            toReparse d l { p with frame := fr, lookaside := some (a, fr.length) }
          else
            let d := putEnt d 2 i (entFail e (if r = 11 then 0 else 32))
            if bit e (64 * 12 + 57) then
              toReparse (bump (bump d (Reg.ENG_CNT (8 + a) (rindCnt r))) (Reg.ENG_CNT (8 + a) 7)) l (pcSet p (Pc.flag flCipherFail) 1)
            else decDrop d l p r

/-! The lease (R314, R315): agents 1 host, 2 service processor, 3 pair peer, 4 board controller. -/

def leaseOwner (d : Dev) : Nat := rdF d Reg.RIND_LOCK Reg.RIND_LOCK_OWNER

/-- RIND_DATA words 0 to 9 are zeroed at the end of a lease and after a WRITE. -/
def rindWipe (d : Dev) : Dev := (List.range 10).foldl (fun d i => wr d (Reg.RIND_DATA i) 0) d

def leaseGrant (d : Dev) (agent : Nat) : Dev :=
  let d := bumpWrap (wrF d Reg.RIND_LOCK Reg.RIND_LOCK_OWNER agent) Reg.RIND_LOCK Reg.RIND_LOCK_LEASES 1
  { d with rind := { d.rind with leaseAt := d.time } }

def waitMask (l : List Nat) : Nat := l.foldl (fun v n => setBits v (n - 1) 1 1) 0
def setWaiting (d : Dev) (l : List Nat) : Dev :=
  wrF { d with rind := { d.rind with waiting := l } } Reg.RIND_LOCK Reg.RIND_LOCK_WAITING (waitMask l)

/-- The lease ends, and the next waiter gets it. -/
def leaseEnd (d : Dev) : Dev :=
  let d := rindWipe (wrF d Reg.RIND_LOCK Reg.RIND_LOCK_OWNER 0)
  match d.rind.waiting with
  | [] => d
  | n :: t => leaseGrant (setWaiting d t) n

/-- RIND_LOCK.REQUEST by an agent. -/
def leaseRequest (agent : Nat) (d : Dev) : Dev :=
  if agent = 0 ∨ 4 < agent then d
  else if leaseOwner d = 0 then leaseGrant d agent
  else if leaseOwner d = agent then { d with rind := { d.rind with leaseAt := d.time } }
  else if d.rind.waiting.contains agent then d
  else setWaiting d (d.rind.waiting ++ [agent])

/-- RIND_LOCK.RELEASE by an agent. -/
def leaseRelease (agent : Nat) (d : Dev) : Dev := if leaseOwner d = agent ∧ agent ≠ 0 then leaseEnd d else d

/-- 10 ms have passed without an access by the holder. -/
def leaseExpired (d : Dev) : Dev :=
  if leaseOwner d = 0 then d
  else
    let d := bumpSat d Reg.RIND_LOCK Reg.RIND_LOCK_EXPIRIES 1
    leaseEnd (raise (rindNotice d 9 0 14 0 0) Fk.leaseExpired 14 0 0 0)

/-! RIND_CMD (R312, R316, R317). -/

def rindBegin (d : Dev) (v : W64) (op result : Nat) : Dev :=
  wrFs (wr d Reg.RIND_CMD (setF v Reg.RIND_CMD_OP op)) Reg.RIND_STATUS [(Reg.RIND_STATUS_BUSY, 1), (Reg.RIND_STATUS_RESULT, result)]

def rindKind (v : W64) : Nat := getF v Reg.RIND_CMD_KIND
def rindIndex (v : W64) : Nat := getF v Reg.RIND_CMD_INDEX

/-- Whether an index exists for a kind (R310). -/
def rindIdxOk (d : Dev) (kind i : Nat) : Bool :=
  if kind ≤ 1 then decide (i < 4096) else if kind = 2 ∨ kind = 6 then decide (i < 65536) else if kind = 3 then decide (i < 256)
  else if kind = 4 then decide (i < portCount d) else decide (i < 128 * stripCount d)

/-- RIND_DATA as one entry. -/
def rindData (d : Dev) : Nat := (List.range 16).foldl (fun v i => v + (rd d (Reg.RIND_DATA i)).toNat * 2 ^ (64 * i)) 0

/-- The entry that a WRITE of a kind builds from the data. -/
def entOf (kind x : Nat) : Nat :=
  let at_ := fun (w m : Nat) => ((bits x (64 * w) 64) &&& m) * 2 ^ (64 * w)
  let all := 2 ^ 64 - 1
  let key := at_ 0 all + at_ 1 all + at_ 2 all + at_ 3 all
  let vld := 2 ^ (64 * 12 + 63)
  if kind ≤ 2 then
    let m12 := if kind = 2 then 0x1BFFFFFFFFFE0000 else if kind = 0 then 0x11000000000001FF else 0x10000000000001FF
    let m8 := if kind = 2 then 0xFFFFFFFF00000000 else all
    let m9 := if kind = 2 then 0 else all
    let m13 := if kind = 2 then 0xFFFFFFFF000000FF else 0
    let wide := bit x (64 * 12 + 60)
    let rk := bits x (64 * 11) 64
    let rk := if rk = 0 then (if wide then 2 ^ 64 - 2 ^ 32 else 2 ^ 32 - 2 ^ 24) else rk
    key + at_ 8 m8 + at_ 9 m9 + at_ 10 all + rk * 2 ^ (64 * 11) + at_ 12 m12 + at_ 13 m13 + vld
  else if kind = 3 then key + at_ 4 all + at_ 5 all + at_ 6 all + at_ 7 all + vld
  else if kind = 4 then at_ 8 all + at_ 9 0xFF80FFFFFFFFFFFF
  else if kind = 5 then at_ 8 all + at_ 9 0xE7FCFFFFFFFFFFFF + at_ 10 0xFFFFFFFF
  else at_ 8 0x800000000000FFFF

/-- Whether a port entry or receive SC names a valid SA of another port. -/
def namesOther (d : Dev) (kind port e : Nat) : Bool :=
  (List.range 4).any fun n =>
    let s := rindEnt d (kind - 4) (entF e 9 (12 * n) 12)
    eVld s && ePort s != port

/-- The value checks of R312. -/
def entFits (d : Dev) (kind i e : Nat) : Bool :=
  if kind ≤ 2 then
    let n := nextPn e
    let out := kind == 2 && eOut e
    let o := entF e 12 17 9
    let h := entF e 12 26 9
    decide (n ≠ 0 ∧ n ≤ (if eWide e then 2 ^ 64 - 1 else 2 ^ 32 - 1) ∧ n < entF e 11 0 64)
      && (kind == 2 || decide (ePort e < portCount d))
      && (kind != 2 || decide (eHome e < (if eOut e then stripCount d else acreCount d) ∧ entF e 13 0 8 ≤ 128))
      && (!out || decide (34 ≤ h ∧ h ≤ 447 ∧ o + (if bit e (64 * 12 + 35) then 40 else 20) ≤ h))
  else if kind = 3 then entKey e 0 != entKey e 4
  else if kind = 4 then !namesOther d 4 i e
  else if kind = 5 then
    let p := entF e 9 50 9
    p / 64 == i / 128 && decide (p < portCount d) && !namesOther d 5 p e
  else true

/-- Valid entries of a kind in a strip, apart from one (R310). -/
def stripSas (d : Dev) (kind s i : Nat) : Nat :=
  (d.rind.ents.filter fun x => x.1 / 2 ^ 17 == kind && x.1 % 2 ^ 17 != i && eVld x.2 && ePort x.2 / 64 == s).length

/-- An association that traffic may be using: a valid outbound one. -/
def outbound (kind e : Nat) : Bool := eVld e && (kind == 0 || (kind == 2 && eOut e))

def rindRead (v : W64) (d : Dev) : Dev :=
  let k := rindKind v
  let i := rindIndex v
  if 6 < k then rindBegin d v 1 1
  else if ¬ rindIdxOk d k i then rindBegin d v 1 2
  else
    let (e, bad, d) := entLoadBy (starterOf d 3) 1 d k i
    if bad then rindBegin d v 1 6
    else
      let e := if k ≤ 2 then setBits (setBits e 512 64 0) (64 * 9 + 32) 32 0 else e
      let e := if bit e 1024 then setBits e 640 64 (2 ^ 64 - 1) else e
      (List.range 8).foldl (fun d w => wr d (Reg.RIND_DATA (8 + w)) (BitVec.ofNat 64 (bits e (64 * (8 + w)) 64))) (rindBegin d v 1 0)

/-- The deep-store key of a holding waits no longer for the entropy source. -/
def keyDone (d : Dev) (i : Nat) : Dev :=
  let w := spPut (fun _ => 0) d.rind.keyWait i 0
  wrF { d with rind := { d.rind with keyWait := w } } Reg.RIND_HEALTH Reg.RIND_HEALTH_KEYGEN_PENDING (b2n !w.isEmpty)

/-- A WRITE has replaced an entry: its key is no longer one that the device generates, and its old state goes (R316, R398, R406). -/
def entWritten (d : Dev) (k i : Nat) : Dev :=
  if k = 3 then keyDone d i
  else if k = 2 then
    let d := { d with rind := { d.rind with window := spPut (fun _ => 0) d.rind.window i 0 } }
    { d with pair := { d.pair with acked := spPut (fun _ => 0) d.pair.acked (saKey 2 i) 0 } }
  else d

/-- The three copies of a keyed entry's VALID: an injection into one of them (R437 code 2) is voted out and reported (R310). -/
def validVote (d : Dev) : Dev :=
  let (j, d) := injectAt d 2 (256 * 9 + 14) 0
  if j = 0 then d else raise d Fk.rindVoter 14 0 0 0

def rindWrite (v : W64) (d : Dev) : Dev :=
  let k := rindKind v
  let i := rindIndex v
  let e := entOf k (rindData d)
  let old := rindEnt d k i
  let fin := fun (d : Dev) (r : Nat) => rindWipe (rindBegin d v 2 r)
  if 6 < k then fin d 1
  else if ¬ rindIdxOk d k i then fin d 2
  else if ¬ entFits d k i e then fin d 3
  else if outbound k old then fin d 5
  else if k ≤ 1 ∧ 1024 ≤ stripSas d k (ePort e / 64) i then fin d 4
  else
    let d := eccWrite (entWritten (putEnt d k i e) k i) .rindEntry (saKey k i) (256 * 9 + 14) 0
    let d := if k ≤ 3 then validVote d else d
    let d := if outbound k e ∧ eMirror e ∧ (k = 0 ∨ anchors d (eHolding e)) then (journalCkpt d k i (eHolding e) (nextPn e)).2 else d
    fin d 0

def rindUpdate (v : W64) (d : Dev) : Dev :=
  let k := rindKind v
  let i := rindIndex v
  if 2 < k then rindBegin d v 3 1
  else if ¬ rindIdxOk d k i then rindBegin d v 3 2
  else
    let (e, bad, d) := entLoadBy (starterOf d 3) 3 d k i
    if bad then rindBegin d v 3 6
    else
      let x := entOf k (rindData d)
      if 128 < entF x 13 0 8 then rindBegin d v 3 3
      else
        let e := entSet (entSet e 11 0 64 (bits (rindData d) (64 * 11) 64)) 12 56 2 (entF x 12 56 2)
        let e := entSet e 13 0 8 (entF x 13 0 8)
        let (e, d) := if eVld e then rekeyCheck d k i e else (e, d)
        rindBegin (putEnt d k i e) v 3 0

/-- Whether an SA is the ENC_AN SA of a port that transmits, or named by a valid binding (R316). -/
def saInUse (d : Dev) (k i : Nat) : Bool :=
  d.rind.ents.any fun x =>
    (k == 0 && x.1 / 2 ^ 17 == 4 && bit x.2 (64 * 9 + 63) && entF x.2 9 (12 * entF x.2 9 56 2) 12 == i)
      || (k == 2 && x.1 / 2 ^ 17 == 6 && bit x.2 (64 * 8 + 63) && entF x.2 8 0 16 == i)

/-- An entry is invalidated: its key is overwritten with zeros. -/
def entInvalidate (d : Dev) (k i : Nat) : Dev :=
  let e := entKill (rindEnt d k i)
  let d := putEnt d k i (if k = 3 then entSet e 12 55 1 0 else e)
  if k = 3 then keyDone d i else d

def rindInvalidate (v : W64) (d : Dev) : Dev :=
  let k := rindKind v
  let i := rindIndex v
  if 3 < k then rindBegin d v 4 1
  else if ¬ rindIdxOk d k i then rindBegin d v 4 2
  else if saInUse d k i then rindBegin d v 4 5
  else rindBegin (eccWrite (entInvalidate d k i) .rindEntry (saKey k i) (256 * 9 + 14) 0) v 4 0

/-- NEXT_PN of an outbound SA is raised to a number (R316, R405), with a checkpoint when it reaches or passes a multiple of 2^20 (R332). -/
def advancePn (d : Dev) (k i n : Nat) : Dev :=
  let e0 := rindEnt d k i
  let e := setNextPn e0 (min (2 ^ 64) (max (nextPn e0) n))
  let (e, d) := rekeyCheck d k i e
  let (e, d) := if pnLimit e < nextPn e then exhaust d k i e else (e, d)
  let d := putEnt d k i e
  if eMirror e ∧ nextPn e0 / 2 ^ 20 < nextPn e / 2 ^ 20 then (journalCkpt d k i (eHolding e) (nextPn e)).2 else d

def rindAdvance (v : W64) (d : Dev) : Dev :=
  let k := rindKind v
  let i := rindIndex v
  if ¬ rindIdxOk d k i ∧ k ≤ 6 then rindBegin d v 5 2
  else
    let (e, bad, d) := if k ≤ 6 then entLoadBy (starterOf d 3) 3 d k i else (0, false, d)
    if bad then rindBegin d v 5 6
    else if k = 0 ∨ (k = 2 ∧ (eOut e = true)) then rindBegin (advancePn d k i (bits (rindData d) 640 64)) v 5 0
    else rindBegin d v 5 1

/-- Every deep-store key is generated anew, or waits for the entropy source (R333). -/
def keysGenerate (d : Dev) : Dev :=
  let keep := d.rind.ents.filter fun x => x.1 / 2 ^ 17 ≠ 3
  if flagF d Reg.RIND_HEALTH Reg.RIND_HEALTH_ENTROPY_OK then
    let d := { d with free := d.free + 256, rind := { d.rind with ents := keep, keyBase := d.free, keyWait := [] } }
    wrF d Reg.RIND_HEALTH Reg.RIND_HEALTH_KEYGEN_PENDING 0
  else
    let d := { d with rind := { d.rind with ents := keep, keyWait := (List.range 256).map fun h => (h, 1) } }
    (List.range 256).foldl (fun d h => putEnt d 3 h 0) (wrF d Reg.RIND_HEALTH Reg.RIND_HEALTH_KEYGEN_PENDING 1)

def zeroize (v : W64) (d : Dev) : Dev :=
  let k := rindKind v
  if 3 < k then rindBegin d v 6 1
  else if k = 3 then
    let d := { d with upset := d.upset.filter fun e => e.1 / 2 ^ 17 ≠ (ramNo .rindEntry * 2 ^ 48 + saKey 3 0) / 2 ^ 17 }
    rindBegin (keysGenerate d) v 6 0
  else
    let l := d.rind.ents.filter fun x => x.1 / 2 ^ 17 = k
    rindBegin (l.foldl (fun d x =>
      eccWrite (entInvalidate d k (x.1 % 2 ^ 17)) .rindEntry x.1 (256 * 9 + 14) 0) d) v 6 0

/-! Entropy (R309, R333). -/

def entropyFail (d : Dev) : Dev := raise (wrF d Reg.RIND_HEALTH Reg.RIND_HEALTH_ENTROPY_OK 0) Fk.entropy 14 0 0 0

/-- The source is healthy again, and the keys that wait are generated. -/
def deepKeyGenerate (d : Dev) : Dev :=
  let d := endCond (wrF d Reg.RIND_HEALTH Reg.RIND_HEALTH_ENTROPY_OK 1) Fk.entropy 14
  if d.rind.keyWait = [] then d
  else
    let wait := d.rind.keyWait
    let keep := d.rind.ents.filter fun x => x.1 / 2 ^ 17 ≠ 3 ∨ spGet (fun _ => 0) wait (x.1 % 2 ^ 17) = 0
    let d := { d with free := d.free + 256, rind := { d.rind with ents := keep, keyBase := d.free, keyWait := [] } }
    wrF d Reg.RIND_HEALTH Reg.RIND_HEALTH_KEYGEN_PENDING 0

/-- ENG_STATUS as it reads (R336). -/
def engStatus (d : Dev) (e : Nat) : W64 :=
  let n := if e < 8 then (laQ d e).length else if e < 12 then (spGet (fun _ => []) d.rind.decQ (e - 8)).length else 0
  let full := if e < 8 then laFull d e else decide (512 ≤ n)
  if engPresent d e then mkWord [(Reg.ENG_STATUS_QDEPTH, n), (Reg.ENG_STATUS_FULL, b2n full), (Reg.ENG_STATUS_PRESENT, 1)] else 0

end Sys2Proof.Machine
end

