-- ==== Sys2Proof/Machine/Learn.lean ====
section
/-!
DEFINITION. Learning and ageing (R178 to R185), with the mirrored tables of R400 and R403.
-/
namespace Sys2Proof.Machine

/-! The learn FIFO (R178, R179). -/

def setLearnQ (d : Dev) (q : List Learn) : Dev :=
  wrF { d with orch := { d.orch with learnQ := q } } Reg.LEARN_STATUS Reg.LEARN_STATUS_DEPTH q.length

def learnRoom (d : Dev) : Bool := decide (d.orch.learnQ.length < 65536)

/-- A learn enters the FIFO and takes the next LEARN_SEQ. -/
def learnPut (d : Dev) (src : LearnSrc) (table key : Nat) (action : W64) : Dev :=
  let d := setLearnQ d (d.orch.learnQ ++ [⟨src, table, key, action, d.orch.learnSeq⟩])
  { d with orch := { d.orch with learnSeq := (d.orch.learnSeq + 1) % 2 ^ 64 } }

/-- A packet's learn is answered. -/
def learnReply (d : Dev) (src : LearnSrc) (refused : Bool) : Dev :=
  match src with
  | .packet a f slot gen num dest =>
    let x := getFur d a f
    putFur d a f { x with inFlight := x.inFlight ++ [⟨slot, gen, .learned dest num refused, none⟩] }
  | _ => d

/-- The table of a learn of a type; 64 is added when the type is undefined or not EXACT, and the learn has then no table. -/
def learnTable (d : Dev) (ty : Nat) : Nat :=
  let t := getF (rd d (Reg.TYPE_DESC (activeSlot d) ty 0)) Reg.TYPE_DESC_TABLE
  if (ltype d ty).any fun y => y.kind == 1 then t else t + 64

/-- Flight k of a furrow, a LEARN request, crosses into the table island. -/
def learnEnqueue (a f k : Nat) (d : Dev) : Dev :=
  let x := getFur d a f
  match x.inFlight[k]? with
  | some ⟨slot, gen, .request 3 dest ty key num data, _⟩ =>
    let d := crossIn (putFur d a f { x with inFlight := x.inFlight.eraseIdx k }) 1
    let src := LearnSrc.packet a f slot gen num dest
    if learnRoom d then learnPut d src (learnTable d ty) (keyOfWords key) data
    else learnReply (bump d (Reg.ORCHARD_DEV_CNT 0)) src true
  | _ => d

/-! Mirrored tables (R400). -/

/-- Whether this device settles a key of a table itself. -/
def settles (d : Dev) (b : Tbl) (key : Nat) : Bool := !mirrored d b || anchors d (mirrorHold d b key)

/-- The anchor tells its peer of a change. -/
def sendSet (d : Dev) (b : Tbl) (key action : Nat) (absent : Bool) : Dev :=
  if mirrored d b then journalLearn d (learnEntry d b 2 key action absent) else d

/-! Pins (R182). -/

def ePinned (b : Tbl) (e : Nat) : Bool := eMeta b e 187 1 == 1

/-- An expired pin is cleared with its MOVES. -/
def unpin (d : Dev) (b : Tbl) (e : Nat) : Nat :=
  if ePinned b e ∧ rdF d Reg.LEARN_CFG Reg.LEARN_CFG_MOVE_HOLD ≤ (nowSec d + 256 - eMeta b e 175 8) % 256 then
    eSet b (eSet b e 187 1 0) 183 4 0
  else e

/-- The instance of a fault about an entry: its block's, or the table's first block's for a stash entry. -/
def entryInst (b : Tbl) (i : Nat) : Nat := blkInst (if stashBase ≤ i then b.base else (b.place i).1)

/-- A move of the entry at an index: the action, the count of the window, which saturates at 15, and the pin past MOVE_LIMIT. -/
def moveApply (d : Dev) (b : Tbl) (i e seq action : Nat) : Dev :=
  let e1 := if eMeta b e 175 8 ≠ nowSec d then eSet b (eSet b e 183 4 0) 175 8 (nowSec d) else e
  let n := eMeta b e1 183 4 + 1
  let pin : Bool := decide (rdF d Reg.LEARN_CFG Reg.LEARN_CFG_MOVE_LIMIT < n)
  let e2 := setBits (eSet b e1 183 4 (min n 15)) 0 64 action
  let e3 := if pin then eSet b (eSet b e2 187 1 1) 175 8 (nowSec d) else e2
  let d := tblCnt (writeUnit d b i e3) b.t 4 1
  let d := orchNotice d 2 b.t i seq b (eKey b e) (eAction e) action
  if pin then raise (orchNotice d 3 b.t i seq b (eKey b e) (eAction e) action) Fk.pinned (entryInst b i) 0 0 0 else d

/-! The learn engine (R180, R181, R403). -/

/-- A new DYNAMIC entry. -/
def newDynamic (d : Dev) (b : Tbl) (key action : Nat) : Nat :=
  eSet b (eSet b (mkEntry b 0 key action) 163 12 (nowTick d)) 175 8 (nowSec d)

/-- What a settlement did: refused, and whether the entry changed. -/
structure Settled where
  refused : Bool
  changed : Bool

/-- A learn of a key with an action settled by the table of R181. -/
def settle (d : Dev) (b : Tbl) (key action seq : Nat) : Settled × Dev :=
  match exactFind d b key with
  | none =>
    match cuckooInsert d b key (newDynamic d b key action) with
    | (some i, d) => (⟨false, true⟩, orchNotice d 1 b.t i seq b key 0 action)
    | (none, d) => (⟨true, false⟩, orchNotice d 5 b.t 0x1FFFFFF seq b key 0 action)
  | some i =>
    let e0 := readUnit d b i
    let same : Bool := (eAction e0 ^^^ action) &&& (rd d (Reg.MOVE_MASK (activeSlot d) b.t)).toNat == 0
    if eType b e0 = 1 then (⟨!same, false⟩, d)
    else
      let e := unpin d b e0
      if same then (⟨false, false⟩, setHit (writeUnit d b i (eSet b e 163 12 (nowTick d))) b.t i 0)
      else if ePinned b e then (⟨true, false⟩, tblCnt d b.t 6 1)
      else (⟨false, true⟩, moveApply d b i e seq action)

/-- The action of the present entry of a key. -/
def actionOf (d : Dev) (b : Tbl) (key : Nat) : Option Nat := (exactFind d b key).map fun i => eAction (readUnit d b i)

/-- The anchor settles, and tells its peer of a change; a peer's request that changed nothing is answered with the entry, or with its
absence, unless it is the same as the request. -/
def settleAnchor (d : Dev) (b : Tbl) (x : Learn) (key : Nat) : Dev :=
  let (r, d) := settle d b key x.action.toNat x.seq
  let d := if r.changed ∨ (x.src = .peerReq ∧ r.refused = true) then
      match actionOf d b key with
      | some act => sendSet d b key act false
      | none => sendSet d b key x.action.toNat true
    else d
  learnReply d x.src r.refused

/-- The non-anchor inserts an absent key and forwards the learn. -/
def settleForward (d : Dev) (b : Tbl) (x : Learn) (key : Nat) : Dev :=
  let d := if (exactFind d b key).isSome then d else (cuckooInsert d b key (newDynamic d b key x.action.toNat)).2
  learnReply (journalLearn d (learnEntry d b 1 key x.action.toNat false)) x.src false

/-- The anchor's entry is applied (LEARN_SET). -/
def applySet (d : Dev) (b : Tbl) (key action : Nat) (absent : Bool) : Dev :=
  match exactFind d b key with
  | some i =>
    let e := readUnit d b i
    if eType b e = 1 then d
    else if absent then exactRemove d b i
    else writeUnit d b i (setBits e 0 64 action)
  | none => if absent then d else (cuckooInsert d b key (newDynamic d b key action)).2

/-- One learn that the engine takes. -/
def learnTake (d : Dev) (x : Learn) : Dev :=
  match (if x.table < 64 then tbl d x.table else none).filter fun b => b.kind == 1 && b.learn && flagF d Reg.PROFILE_STATUS Reg.PROFILE_STATUS_LOADED with
  | none => learnReply d x.src true
  | some b =>
    let key := keyFor b x.key
    match x.src with
    | .packet .. => if settles d b key then settleAnchor d b x key else settleForward d b x key
    | .peerReq => if settles d b key then settleAnchor d b x key else bump d (Reg.PAIR_CNT 14)
    | .peerSet absent => if mirrored d b then applySet d b key x.action.toNat absent else d
    | .peerRefresh =>
      if settles d b key then
        match exactFind d b key with
        | some i => setHit d b.t i 1
        | none => d
      else d
    | .handover _ => d

/-- Whether an entry of the FIFO is a HANDOVER. -/
def Learn.isHandover (x : Learn) : Bool := match x.src with | .handover _ => true | _ => false

/-- Whether a host command of a table is in progress (R180). -/
def tableBusy (d : Dev) (t : Nat) : Bool :=
  flagF d Reg.ORCHARD_STATUS Reg.ORCHARD_STATUS_BUSY && rdF d Reg.ORCHARD_CMD Reg.ORCHARD_CMD_TABLE == t

/-- The engine takes the first learn in the FIFO that satisfies p, when it stands behind no HANDOVER and no learn of its table. -/
def learnFirst (d : Dev) (p : Learn → Bool) : Dev :=
  match (d.orch.learnQ.takeWhile fun x => !x.isHandover).findIdx? p with
  | none => d
  | some i =>
    match d.orch.learnQ[i]? with
    | none => d
    | some x =>
      if tableBusy d x.table ∨ ((d.orch.learnQ.take i).any fun y => y.table == x.table) = true then d
      else
        let d := wrF (setLearnQ d (d.orch.learnQ.eraseIdx i)) Reg.LEARN_STATUS Reg.LEARN_STATUS_SEQ_HI x.seq
        learnTake d x

/-- The engine takes the next learn of table t, or of a type without a table whose descriptor names t. -/
def learnSettle (t : Nat) (d : Dev) : Dev := learnFirst d fun x => x.table % 64 == t

/-- The engine takes the next LEARN_REQ, LEARN_SET or REFRESH of the peer. -/
def peerLearnReq (d : Dev) : Dev := learnFirst d fun x => x.src == .peerReq
def peerLearnSet (d : Dev) : Dev := learnFirst d fun x => match x.src with | .peerSet _ => true | _ => false
def peerRefresh (d : Dev) : Dev := learnFirst d fun x => x.src == .peerRefresh

/-! Ageing (R185, R403). -/

/-- One visit of AGE_SCAN. -/
def ageVisit (b : Tbl) (d : Dev) (i : Nat) : Dev :=
  let e0 := readUnit d b i
  if unitBad d b i ∨ ¬ eValid b e0 ∨ eType b e0 ≠ 0 then d
  else
    let key := eKey b e0
    if ¬ settles d b key then
      if hitBit d b.t i then setHit (journalLearn d (learnEntry d b 3 key (eAction e0) false)) b.t i 0 else d
    else
      let e := unpin d b e0
      let d := if e = e0 then d else writeUnit d b i e
      if hitBit d b.t i then setHit (writeUnit d b i (eSet b e 163 12 (nowTick d))) b.t i 0
      else if rdF d Reg.AGE_CFG Reg.AGE_CFG_AGE_LIMIT ≤ (nowTick d + 4096 - eMeta b e 163 12) % 4096 then
        let d := writeUnit d b i (eSet b e 191 1 0)
        let d := tblCnt (orchNotice d 4 b.t i 0 b key 0 (eAction e)) b.t 5 1
        sendSet d b key (eAction e) true
      else d

/-- The entries of a table that hold something, in bucket order, then its stash. -/
def scanIdx (d : Dev) (b : Tbl) : List Nat :=
  sortNat (d.orch.rows.flatMap fun r =>
    let blk := r.1 / 1024
    if b.base ≤ blk ∧ blk < b.base + b.nblk then (List.range (768 / b.uw)).map fun k => b.unitAt blk (r.1 % 1024) (b.uw * k)
    else []) ++ stashIdx d b

def ageTable (d : Dev) (b : Tbl) : Dev := (scanIdx d b).foldl (ageVisit b) d

/-- ORCHARD_CMD AGE_SCAN. -/
def ageScan (v : W64) (d : Dev) : Dev :=
  match orchBegin d v with
  | (d, none) => d
  | (d, some b) => if b.kind = 1 then orchEnd (ageTable d b) 0 none else orchEnd d 4 none

/-- The scan that AGE_CFG.AUTO starts of every REFRESH table. -/
def autoAgeScan (d : Dev) : Dev :=
  if flagF d Reg.AGE_CFG Reg.AGE_CFG_AUTO ∧ ¬ orchardBusy d
      ∧ ¬ flagF d Reg.PROFILE_STATUS Reg.PROFILE_STATUS_PENDING then
    ((slotTables d (activeSlot d)).filter fun b => b.kind == 1 && b.refresh).foldl ageTable d
  else d

end Sys2Proof.Machine
end

