-- ==== Sys2Proof/Machine/Pair.lean ====
section
/-!
DEFINITION. Pair operation (R391 to R415): signs of life, the pair states, the journal's two ends, takeover, rejoining, handover
and the requests between peers.
-/
namespace Sys2Proof.Machine

/-! Pair states (R396, R397). -/

def setEffective (d : Dev) (m : Nat) : Dev := setPairMap d Reg.PAIR_EFFECTIVE m
def effective (d : Dev) : Nat := mapOf d Reg.PAIR_EFFECTIVE

/-- Enter SOLO: the device anchors every holding. -/
def pairSolo (d : Dev) : Dev :=
  let d := setEffective (setPairF (setPairF d Reg.PAIR_STATUS_STATE 0) Reg.PAIR_STATUS_GATE_FROZEN 0) (mapAll (pairId d))
  endCond (endCond d Fk.splitLink 0) Fk.splitBeat 0

/-- Enter LINKING: the link trains unless it is UP (R391), and the map in force is the configured one until HELLO. -/
def pairLinking (d : Dev) : Dev :=
  let d := if linkUp d then d else setPairF d Reg.PAIR_STATUS_LINK_STATE 1
  let d := setEffective (setPairF d Reg.PAIR_STATUS_STATE 1) (mapOf d Reg.PAIR_ANCHOR)
  endCond (endCond d Fk.splitLink 0) Fk.splitBeat 0

/-- The end of HANDED without a reset, and the state that a reset leaves (R433, R396). -/
def pairResume (d : Dev) : Dev := if flagF d Reg.PAIR_ROLE Reg.PAIR_ROLE_MODE then pairLinking d else pairSolo d

/-- A write of PAIR_ROLE: none when the range check rejects it. -/
def pairRoleWrite (d : Dev) (v : W64) : Option Dev :=
  let st := pairState d
  let id := getF v Reg.PAIR_ROLE_ID
  let mode := getF v Reg.PAIR_ROLE_MODE
  if id ≠ pairId d ∧ st ≠ 0 then none
  else if mode = 0 ∧ 2 ≤ st ∧ st ≤ 4 then none
  else
    let d := wrFs d Reg.PAIR_ROLE [(Reg.PAIR_ROLE_ID, id), (Reg.PAIR_ROLE_MODE, mode)]
    if mode = 1 ∧ st = 0 then some (pairLinking d)
    else if mode = 0 ∧ (st = 0 ∨ st = 1 ∨ st = 5) then some (pairSolo d)
    else some d

/-- Both signs of life are present again. -/
def pairRejoined (d : Dev) : Dev :=
  if pairState d = 4 ∧ pairF d Reg.PAIR_STATUS_BEAT_SEEN = 1 ∧ pairF d Reg.PAIR_STATUS_FRAMES_SEEN = 1 then
    endCond (endCond (setPairF d Reg.PAIR_STATUS_STATE 3) Fk.splitLink 0) Fk.splitBeat 0
  else d

/-! Takeover (R405 to R407). -/

/-- Valid outbound ESP associations of the holdings of a map that are this device's once it is in force. -/
def espOf (d : Dev) (hs : Nat) : List Nat :=
  d.rind.ents.filterMap fun x =>
    if x.1 / 2 ^ 17 = 2 ∧ eVld x.2 ∧ (eOut x.2 = true) ∧ bit hs (eHolding x.2) then some (x.1 % 2 ^ 17) else none

/-- Step 3 for one association: it is advanced, or invalidated for want of a checkpoint. -/
def adoptSa (d : Dev) (i : Nat) : Bool × Dev :=
  match d.pair.peerCkpt.find? fun x => x.1 == i with
  | some (_, c, final) => (true, advancePn d 2 i (if final then c else c + 2 ^ 21))
  | none => (false, raise (pairNotice (entInvalidate d 2 i) 6) Fk.saNotAdopted 0 0 0 0)

/-- Step 3 for every association of some holdings: how many were advanced and how many invalidated. -/
def adoptAll (d : Dev) (hs : Nat) : Nat × Nat × Dev :=
  (espOf d hs).foldl (fun a i =>
    let (ok, d) := adoptSa a.2.2 i
    if ok then (a.1 + 1, a.2.1, d) else (a.1, a.2.1 + 1, d)) (0, 0, d)

def takeover (d : Dev) : Dev :=
  let d := raise (setPairF d Reg.PAIR_STATUS_STATE 5) Fk.peerLost 0 0 0 0
  let id := pairId d
  let mine := mapMine (effective d) id
  let adopted := 2 ^ 256 - 1 - mine
  let d := setPairMap (setEffective d (mapAll id)) Reg.PAIR_ADOPTED adopted
  let d := setPairF d Reg.PAIR_STATUS_ADOPTED (popCount 256 adopted)
  let d := setPairF d Reg.PAIR_STATUS_GATE_FROZEN (rdF d Reg.PAIR_CFG Reg.PAIR_CFG_SURVIVOR_GATE)
  let d := { d with pair := { d.pair with before := mine, syncing := false, syncDone := none, peerDone := false, syncQ := [] } }
  let d := endCond (endCond d Fk.splitLink 0) Fk.splitBeat 0
  let (n, k, d) := adoptAll d adopted
  let (t, d) := takeFree d 32
  let d := wrFs d Reg.PAIR_TAKEOVER_STATUS [(Reg.PAIR_TAKEOVER_STATUS_DURATION_NS, t.toNat),
    (Reg.PAIR_TAKEOVER_STATUS_SAS_JUMPED, min n 65535), (Reg.PAIR_TAKEOVER_STATUS_SAS_INVALIDATED, min k 32767),
    (Reg.PAIR_TAKEOVER_STATUS_VALID, 1)]
  pairNotice (bump d (Reg.PAIR_CNT 12)) 0

/-- A sign of life is lost: the takeover when the other is lost too. -/
def signLost (d : Dev) (mine other : Fld) (k : FaultKind) : Dev :=
  let d := setPairF d mine 0
  if journalOn d ∧ pairF d other = 0 then takeover d
  else if pairState d = 3 then pairSplit d k
  else d

def beatTimeout (d : Dev) : Dev := signLost d Reg.PAIR_STATUS_BEAT_SEEN Reg.PAIR_STATUS_FRAMES_SEEN Fk.splitBeat
def frameTimeout (d : Dev) : Dev := signLost d Reg.PAIR_STATUS_FRAMES_SEEN Reg.PAIR_STATUS_BEAT_SEEN Fk.splitLink

/-- PAIR_CTRL.CONFIRM_LOST. -/
def confirmLost (d : Dev) : Dev :=
  if pairState d = 4 then takeover d
  else if pairState d = 5 then setPairF d Reg.PAIR_STATUS_GATE_FROZEN 0
  else d

/-! The heartbeat pins (R395). -/

def aliveToggle (d : Dev) : Dev :=
  let st := pairState d
  if flagF d Reg.PAIR_ROLE Reg.PAIR_ROLE_MODE ∧ st ≠ 0 ∧ st ≠ 6 ∧ ¬ d.pair.aliveStop then
    { d with pair := { d.pair with aliveOut := !d.pair.aliveOut } }
  else d

def aliveBeat (d : Dev) : Dev :=
  let fast := match d.pair.beatAt with | some t => decide (d.time < t + 500) | none => false
  if fast then bump d (Reg.PAIR_CNT 11)
  else pairRejoined (setPairF { d with pair := { d.pair with beatAt := some d.time } } Reg.PAIR_STATUS_BEAT_SEEN 1)

/-! Frames (R392 to R394). -/

def serletUp (d : Dev) : Dev := setPairF d Reg.PAIR_STATUS_LINK_STATE 2
def serletLoss (d : Dev) : Dev := if linkUp d then setPairF d Reg.PAIR_STATUS_LINK_STATE 1 else d
def frameDiscarded (d : Dev) : Dev := raise (bump d (Reg.PAIR_CNT 2)) Fk.frameCrc 0 0 0 11

/-- A frame is accepted: a sign of life, with the acknowledgement that it carries. -/
def frameAccept (ack : Nat) (d : Dev) : Dev :=
  let d := pairRejoined (setPairF (bump d (Reg.PAIR_CNT 1)) Reg.PAIR_STATUS_FRAMES_SEEN 1)
  if journalOn d then journalAck d ack else d

def beatSend (d : Dev) : Dev := pairSend d 0 0 0 []

/-! Rejoining (R409, R410). -/

/-- The fields of a HELLO. -/
def cfgCrc (d : Dev) : Nat :=
  crc32c 0xFFFFFFFF ((List.range 64).flatMap fun t => leBytes 8 (rd d (Reg.PAIR_TABLE_CFG t)).toNat)

def helloBody (d : Dev) : List Byte :=
  beBytes 2 1 ++ beBytes 1 (pairId d) ++ beBytes 1 (pairState d) ++ beBytes 2 (rdF d Reg.GLOBAL_ID Reg.GLOBAL_ID_PART_CODE) ++ beBytes 2 0
    ++ beBytes 4 (cfgCrc d) ++ beBytes 4 (rdF d Reg.PROFILE_STATUS Reg.PROFILE_STATUS_CALENDAR_ID) ++ mapBytes (effective d)
    ++ beBytes 8 (rd d Reg.JOURNAL_TX_SEQ).toNat

def sendHello (d : Dev) : Dev := pairSend d 3 0 0 (helloBody d)

def helloSend (d : Dev) : Dev := if pairState d = 1 then sendHello d else d

/-- The DYNAMIC entries of a table: index and entry. -/
def dynamics (d : Dev) (b : Tbl) : List (Nat × Nat) :=
  (scanIdx d b).filterMap fun i =>
    let e := readUnit d b i
    if ¬ unitBad d b i ∧ eValid b e ∧ eType b e = 0 then some (i, e) else none

def mirroredTables (d : Dev) : List Tbl := (slotTables d (activeSlot d)).filter (mirrored d)

/-- A journal entry of a kind alone: SYNC_BEGIN or SYNC_DONE. -/
def syncMark (kind : Nat) : SyncItem := .entry ⟨kind, 0, 0, 0, 0, 0, 0⟩

/-- What a handover still has to send, which a new exchange leaves in place. -/
def SyncItem.ofHandover : SyncItem → Bool
  | .entry e => e.kind == 4 || e.kind == 5
  | _ => false

/-- The exchange of R410 begins: the peer's holdings are forgotten, and this device's are sent, behind what a handover still has to
send. -/
def syncStart (d : Dev) : Dev :=
  let ts := mirroredTables d
  let d := ts.foldl (fun d b => (dynamics d b).foldl (fun d x =>
    if anchors d (mirrorHold d b (eKey b x.2)) then d else exactRemove d b x.1) d) d
  let sets := ts.flatMap fun b => (dynamics d b).map fun x => SyncItem.set b.t (eKey b x.2)
  let sas := ((espOf d (mapMine (effective d) (pairId d))).filter fun i => eMirror (rindEnt d 2 i)).map SyncItem.ckpt
  let q := d.pair.syncQ.filter SyncItem.ofHandover ++ [syncMark 6] ++ sets ++ sas ++ [syncMark 7]
  let d := { d with pair := { d.pair with syncQ := q, syncing := true, syncDone := none, peerDone := false } }
  syncDrain q.length d

/-- What a HELLO says. -/
def hello (ack format id st part crc cal map first : Nat) (d : Dev) : Dev :=
  let d := frameAccept ack d
  let mine := pairState d
  if mine ≠ 1 ∧ mine ≠ 5 then d
  else
    let survivors : Bool := (mine == 5) != (st == 5)
    let ok : Bool := format == 1 && part == rdF d Reg.GLOBAL_ID Reg.GLOBAL_ID_PART_CODE && id != pairId d && crc == cfgCrc d
      && cal == rdF d Reg.PROFILE_STATUS Reg.PROFILE_STATUS_CALENDAR_ID && (map == effective d || survivors)
    if ¬ ok then raise d Fk.helloMismatch 0 0 0 0
    else
      let d := sendHello d
      let d := if survivors ∧ mine = 1 then setEffective d map else d
      let d := setBuf (wr d Reg.JOURNAL_RX_SEQ (BitVec.ofNat 64 first)) []
      let d := setPairF (setPairF d Reg.PAIR_STATUS_STATE 2) Reg.PAIR_STATUS_GATE_FROZEN 0
      syncStart { d with pair := { d.pair with timeouts := 0, syncQ := [] } }

/-- PAIR_CTRL.RESYNC. -/
def resync (d : Dev) : Dev :=
  if pairState d = 3 then
    syncStart (endCond (setPairF d Reg.PAIR_STATUS_JOURNAL_LOST 0) Fk.journalOverflow 0)
  else d

/-! The journal (R399 to R402). -/

/-- JOURNAL frames with some entries. -/
def journalResend : Nat → List (Nat × JEntry) → Dev → Dev
  | 0, _, d => d
  | n + 1, l, d =>
    if l = [] then d
    else journalResend n (l.drop 4) (pairSend d 1 0 (min 4 l.length) ((l.take 4).flatMap fun x => entryBytes x.1 x.2))

/-- Every entry from a number on is sent again. -/
def retransmit (d : Dev) (from_ : Nat) : Dev :=
  let l := d.pair.buf.filter fun x => decide (from_ ≤ x.1)
  bump (journalResend l.length l d) (Reg.PAIR_CNT 5)

def nack (ack : Nat) (d : Dev) : Dev :=
  let d := frameAccept ack d
  if journalOn d then retransmit d ack else d

/-- The oldest unacknowledged entry is too old; after eight such timeouts without progress the frames count as lost. -/
def ackTimeout (d : Dev) : Dev :=
  if ¬ journalOn d ∨ d.pair.buf = [] then d
  else
    let d := retransmit d 0
    let n := d.pair.timeouts + 1
    if n < 8 then { d with pair := { d.pair with timeouts := n } }
    else frameTimeout { d with pair := { d.pair with timeouts := 0 } }

/-- A key of the journal as a key of 512 bits. -/
def jKey (e : JEntry) : Nat := e.key * 2 ^ 224

/-- An entry in sequence: none when the learn FIFO has no room for it. -/
def entryTake (d : Dev) (e : JEntry) : Option Dev :=
  let act := BitVec.ofNat 64 e.value
  let fifo := fun (src : LearnSrc) => if learnRoom d then some (learnPut d src e.table (jKey e) act) else none
  let cnt := fun (d : Dev) => (bump d (Reg.PAIR_CNT 4))
  if e.kind = 1 then (fifo .peerReq).map cnt
  else if e.kind = 2 then (fifo (.peerSet (bit e.flags 0))).map cnt
  else if e.kind = 3 then (fifo .peerRefresh).map cnt
  else if e.kind = 4 then
    if e.table = 2 then
      some (bump (cnt { d with pair := { d.pair with
        peerCkpt := spInsert d.pair.peerCkpt (e.index % 2 ^ 16) (e.value, bit e.flags 1) } }) (Reg.PAIR_CNT 10))
    else some (bump d (Reg.PAIR_CNT 7))
  else if e.kind = 5 then (fifo (.handover (mapOfBytes (beBytes 36 e.key)))).map cnt
  else if e.kind = 6 then
    let d := cnt d
    some (if d.pair.syncing then { d with pair := { d.pair with peerDone := false } }
      else if pairState d = 3 then syncStart d else d)
  else if e.kind = 7 then some (syncCheck (cnt { d with pair := { d.pair with peerDone := true } }))
  else some (bump d (Reg.PAIR_CNT 7))

/-- One entry of a JOURNAL frame. -/
def entryReceive (d : Dev) (x : Nat × JEntry) : Dev :=
  let want := (rd d Reg.JOURNAL_RX_SEQ).toNat
  if x.1 < want then bump d (Reg.PAIR_CNT 7)
  else if want < x.1 then pairSend (bump d (Reg.PAIR_CNT 6)) 2 0 0 []
  else match entryTake d x.2 with
    | some d => wr d Reg.JOURNAL_RX_SEQ (BitVec.ofNat 64 (want + 1))
    | none => d

/-- A JOURNAL frame with at most four entries. -/
def journalFrame (ack : Nat) (l : List (Nat × JEntry)) (d : Dev) : Dev :=
  let d := frameAccept ack d
  if journalOn d then (l.take 4).foldl entryReceive d else d

def peerCkptFrame (ack seq kind index pn : Nat) (final : Bool) : Dev → Dev := journalFrame ack [(seq, ckptEntry kind index 0 pn final)]
def syncFrame (ack seq kind : Nat) : Dev → Dev := journalFrame ack [(seq, ⟨kind, 0, 0, 0, 0, 0, 0⟩)]

/-! Handover (R411). -/

/-- PAIR_CTRL.HANDOVER: the holdings that this device anchors and PAIR_ANCHOR_NEXT gives to the peer. -/
def handover (d : Dev) : Dev :=
  let id := pairId d
  let moved := mapMine (effective d) id &&& mapMine (mapOf d Reg.PAIR_ANCHOR_NEXT) (1 - id)
  if ¬ journalOn d ∨ moved = 0 then d
  else
    let map := effective d ^^^ moved
    let sas := ((espOf d moved).filter fun i => eMirror (rindEnt d 2 i)).map fun i =>
      let e := rindEnt d 2 i
      SyncItem.entry (ckptEntry 2 i (eHolding e) (nextPn e) true)
    let q := d.pair.syncQ ++ sas ++ [.entry ⟨5, 0, 0, 0, 0, 0, beNat (mapBytes map) * 2 ^ 32⟩]
    let d := setEffective { d with pair := { d.pair with syncQ := q } } map
    syncDrain q.length (bump d (Reg.PAIR_CNT 13))

/-- A HANDOVER leaves the learn FIFO, in which it is the oldest entry: its map comes into force, and the associations of the
holdings received are advanced. -/
def handoverEntry (d : Dev) : Dev :=
  match d.orch.learnQ with
  | ⟨.handover map, _, _, _, seq⟩ :: t =>
    let d := wrF (setLearnQ d t) Reg.LEARN_STATUS Reg.LEARN_STATUS_SEQ_HI seq
    if journalOn d then
      let had := mapMine (effective d) (pairId d)
      let now := mapMine map (pairId d)
      (adoptAll (setEffective d map) (now - (now &&& had))).2.2
    else d
  | _ => d

/-! Requests between peers (R405, R412, R413). -/

/-- GOODBYE starts a takeover. -/
def goodbye (ack : Nat) (d : Dev) : Dev :=
  let d := frameAccept ack d
  if journalOn d then takeover d else d

/-- This device sends GOODBYE and enters HANDED. -/
def sayGoodbye (d : Dev) : Dev :=
  let d := setPairF (pairSend d 8 0 0 []) Reg.PAIR_STATUS_STATE 6
  endCond (endCond { d with pair := { d.pair with syncing := false, syncDone := none, syncQ := [] } } Fk.splitLink 0) Fk.splitBeat 0

/-- The next tag. -/
def takeTag (d : Dev) : Nat × Dev :=
  (d.pair.nextTag, { d with pair := { d.pair with nextTag := (d.pair.nextTag + 1) % 65536 } })

/-- PAIR_CTRL.PEER_RESET. -/
def peerReset (d : Dev) : Dev :=
  let (t, d) := takeTag d
  let d := setPairF { d with pair := { d.pair with resetTag := t } } Reg.PAIR_STATUS_RESET_RESULT 1
  pairSend d 6 t 0 []

def resetRsp (ack tag : Nat) (refused : Bool) (d : Dev) : Dev :=
  let d := frameAccept ack d
  if pairF d Reg.PAIR_STATUS_RESET_RESULT = 1 ∧ tag = d.pair.resetTag then
    setPairF d Reg.PAIR_STATUS_RESET_RESULT (if refused then 3 else 2)
  else d

/-- A peer access ends, with its completion (R484). -/
def accEnd (d : Dev) (result : Nat) : Dev :=
  (fun d => postDoneFree d 10 Reg.PEER_ACC_STATUS) <| wrFs d Reg.PEER_ACC_STATUS [(Reg.PEER_ACC_STATUS_RESULT, result), (Reg.PEER_ACC_STATUS_BUSY, 0)]

/-- PEER_ACC_CMD: one access to the peer. -/
def peerAccess (v : W64) (op : Nat) (d : Dev) : Dev :=
  let d := wr d Reg.PEER_ACC_CMD v
  if ¬ journalOn d then accEnd d 3
  else
    let (t, d) := takeTag d
    let d := wrF { d with pair := { d.pair with accTag := t } } Reg.PEER_ACC_STATUS Reg.PEER_ACC_STATUS_BUSY 1
    pairSend d 4 t 0 (beBytes 1 op ++ beBytes 3 0 ++ beBytes 4 (getF v Reg.PEER_ACC_CMD_OFFSET) ++ beBytes 8 (rd d Reg.PEER_ACC_DATA).toNat)

def agentRsp (ack tag result : Nat) (data : W64) (d : Dev) : Dev :=
  let d := frameAccept ack d
  if flagF d Reg.PEER_ACC_STATUS Reg.PEER_ACC_STATUS_BUSY ∧ tag = d.pair.accTag then
    accEnd (if result = 0 ∧ rdF d Reg.PEER_ACC_CMD Reg.PEER_ACC_CMD_OP = 1 then wr d Reg.PEER_ACC_DATA data else d) result
  else d

/-- A request without a response: the reset request, or the access. -/
def agentTimeout (reset : Bool) (d : Dev) : Dev :=
  if reset then
    (if pairF d Reg.PAIR_STATUS_RESET_RESULT = 1 then setPairF d Reg.PAIR_STATUS_RESET_RESULT 4 else d)
  else if flagF d Reg.PEER_ACC_STATUS Reg.PEER_ACC_STATUS_BUSY then accEnd d 2
  else d

end Sys2Proof.Machine
end

