-- ==== Sys2Proof/Machine/Fault.lean ====
section
/-!
DEFINITION. The fault collector (R417 to R441): the log, the first-fault record, the active table, FAULT_N, clearing and
injection; and the last-breath record image, which each logged fault refreshes (R464).
-/
namespace Sys2Proof.Machine

/-- Both references are lost: the islands that PLLs feed have stopped (R449). -/
def clocksLost (d : Dev) : Bool := !d.rst.refA && !d.rst.refB

/-- The control island is in reset or fallow, or has stopped. -/
def ctlReset (d : Dev) : Bool := bit d.rst.held 0 || clocksLost d

/-- Whether a gate of R406 or R407 stops the next unit of some association. -/
def anyGate (d : Dev) : Bool := d.rind.ents.any fun e => e.1 / 2 ^ 17 == 2 && eVld e.2 && eOut e.2 && anchors d (eHolding e.2) && gateClosed d (e.1 % 2 ^ 17) e.2

/-- PAIR_STATUS with its live GATED bit. -/
def pairStatusNow (d : Dev) : W64 := setF (rd d Reg.PAIR_STATUS) Reg.PAIR_STATUS_GATED (b2n (anyGate d))

/-! The record image (R464). -/

/-- The 488 offsets of AON_LB_SEL, in list order. -/
def lbOffsets (d : Dev) : List Nat :=
  (List.range 244).flatMap fun i => [bits (rd d (Reg.AON_LB_SEL i)).toNat 0 32, bits (rd d (Reg.AON_LB_SEL i)).toNat 32 32]

/-- The last 256 entries of the fault log, oldest first, then zeros. -/
def logTail (d : Dev) : List W64 :=
  let prod := (rd d Reg.FAULT_LOG_PROD).toNat
  let n := min 256 prod
  ((List.range n).flatMap fun k => (List.range 4).map fun v => rd d (Reg.FAULT_LOG ((prod - n + k) % 4096) v))
    ++ List.replicate (1024 - 4 * n) 0

/-- The image as it stands now; CAUSE, the sequence number, the failure's time and reading and the CRC are filled in at a write. -/
def imageNow (d : Dev) : List W64 :=
  let head := [BitVec.ofNat 64 (0x424C5A4E + 2 ^ 32), 0, 0, BitVec.ofNat 64 d.time, 0, 0, 0, 0]
  let first := [rd d Reg.FAULT_FIRST_SRC, rd d Reg.FAULT_FIRST_ADDR, rd d Reg.FAULT_FIRST_TIME, rd d Reg.FAULT_STATUS]
  let pair := [rd d Reg.JOURNAL_TX_SEQ, rd d Reg.JOURNAL_RX_SEQ, pairStatusNow d, rd d Reg.PAIR_TAKEOVER_STATUS]
    ++ (List.range 4).map (fun i => rd d (Reg.PAIR_EFFECTIVE i)) ++ [rd d Reg.FAULT_ESC_STATUS, rd d Reg.RSTC_SOURCE, 0, 0]
  let cnts := (lbOffsets d).map fun o => if o = 0 then 0 else rd d o
  head ++ first ++ pair ++ cnts ++ logTail d ++ (List.range 16).map (fun i => rd d (Reg.AON_RESET_LOG i)) ++ List.replicate 496 0

def imageRefresh (d : Dev) : Dev :=
  if d.rst.fallow ∨ ctlReset d ∨ d.rst.lb.isSome then d else { d with rst := { d.rst with image := imageNow d } }

/-! FAULT_N (R435). -/

def setPin (d : Dev) (l : List (Fld × Nat)) : Dev :=
  let d := wrFs d Reg.FAULT_PIN l
  let on : Bool := flagF d Reg.FAULT_PIN Reg.FAULT_PIN_PULSE || flagF d Reg.FAULT_PIN Reg.FAULT_PIN_HOLD
  wrF d Reg.FAULT_PIN Reg.FAULT_PIN_ASSERTED (b2n on)

def pulse (d : Dev) : Dev :=
  let t := d.time + 1000 * rdF d Reg.FAULT_PIN Reg.FAULT_PIN_PULSE_US
  setPin { d with flt := { d.flt with pulseEnd := max d.flt.pulseEnd t } } [(Reg.FAULT_PIN_PULSE, 1)]

/-- The running pulse ends. -/
def pulseEnd (d : Dev) : Dev := setPin { d with flt := { d.flt with pulseEnd := 0 } } [(Reg.FAULT_PIN_PULSE, 0)]

/-! The active table (R427, R428). -/

def act (d : Dev) (e : Nat) (f : Fld) : Nat := rdF d (Reg.FAULT_ACTIVE e 0) f
def setAct (d : Dev) (e : Nat) (l : List (Fld × Nat)) : Dev := wrFs d (Reg.FAULT_ACTIVE e 0) l
def actValid (d : Dev) (e : Nat) : Bool := act d e Reg.FAULT_ACTIVE_VALID == 1
def deadline (d : Dev) (e : Nat) : Nat := (rd d (Reg.FAULT_ACTIVE e 3)).toNat

/-- Valid entries, lowest first. -/
def actives (d : Dev) : List Nat := (List.range 256).filter (actValid d)

/-- Whether the cause of an entry is present. -/
def causePresent (d : Dev) (e : Nat) : Bool :=
  spGet (fun _ => 0) d.flt.present (act d e Reg.FAULT_ACTIVE_SOURCE * 256 + act d e Reg.FAULT_ACTIVE_KIND) == 1

/-- The time of the next step of a ladder entry. -/
def nextDeadline (d : Dev) : Nat := d.time + 1000 * rdF d Reg.FAULT_LADDER Reg.FAULT_LADDER_REACT_US

/-- FAULT_STATUS follows the table and the first-fault record. -/
def faultSummary (d : Dev) : Dev :=
  let l := actives d
  let top := fun (f : Fld) => l.foldl (fun n e => max n (act d e f)) 0
  wrFs d Reg.FAULT_STATUS [(Reg.FAULT_STATUS_ACTIVE, l.length), (Reg.FAULT_STATUS_OVERFLOW, b2n (actValid d 255)),
    (Reg.FAULT_STATUS_WORST, top Reg.FAULT_ACTIVE_SEVERITY), (Reg.FAULT_STATUS_STEP, top Reg.FAULT_ACTIVE_STEP),
    (Reg.FAULT_STATUS_LOCKED, rdF d Reg.FAULT_PIN Reg.FAULT_PIN_LOCKED),
    (Reg.FAULT_STATUS_CLASS_ACTIVE, l.foldl (fun v e => setBits v (act d e Reg.FAULT_ACTIVE_SOURCE / 256) 1 1) 0),
    (Reg.FAULT_STATUS_FIRST_VALID, rdF d Reg.FAULT_FIRST_SRC Reg.FAULT_FIRST_SRC_VALID)]

/-- An entry is made. -/
def actMake (d : Dev) (e : Nat) (m : FaultMsg) : Dev :=
  let r := reaction d (m.source / 256) m.kind
  let d := wr d (Reg.FAULT_ACTIVE e 0) 0
  let d := setAct d e [(Reg.FAULT_ACTIVE_VALID, 1), (Reg.FAULT_ACTIVE_ISOLATED, r / 2), (Reg.FAULT_ACTIVE_SEVERITY, m.sev),
    (Reg.FAULT_ACTIVE_KIND, m.kind), (Reg.FAULT_ACTIVE_SOURCE, m.source), (Reg.FAULT_ACTIVE_REACTION, r)]
  let d := wr (wr d (Reg.FAULT_ACTIVE e 1) (BitVec.ofNat 64 m.addr)) (Reg.FAULT_ACTIVE e 2) (BitVec.ofNat 64 d.time)
  let d := wr d (Reg.FAULT_ACTIVE e 3) (BitVec.ofNat 64 (if r % 2 = 1 then nextDeadline d else 0))
  if rdF d Reg.FAULT_PIN Reg.FAULT_PIN_PULSE_SEV ≤ m.sev then pulse d else d

/-- A further fault merges into an entry; the overflow entry also takes the union of the reactions. -/
def actMerge (d : Dev) (e : Nat) (m : FaultMsg) : Dev :=
  let old := act d e Reg.FAULT_ACTIVE_SEVERITY
  let d := bumpSat (setAct d e [(Reg.FAULT_ACTIVE_SEVERITY, max old m.sev)]) (Reg.FAULT_ACTIVE e 0) Reg.FAULT_ACTIVE_MERGED 1
  let d :=
    if e = 255 then
      let was := act d e Reg.FAULT_ACTIVE_REACTION
      let r := was ||| reaction d (m.source / 256) m.kind
      let d := setAct d e [(Reg.FAULT_ACTIVE_REACTION, r), (Reg.FAULT_ACTIVE_ISOLATED, r / 2)]
      if was % 2 = 0 ∧ r % 2 = 1 then wr d (Reg.FAULT_ACTIVE e 3) (BitVec.ofNat 64 (nextDeadline d)) else d
    else d
  let p := rdF d Reg.FAULT_PIN Reg.FAULT_PIN_PULSE_SEV
  if old < p ∧ p ≤ m.sev then pulse d else d

/-- A DEGRADED or FATAL fault finds or makes its entry. -/
def actTrack (d : Dev) (m : FaultMsg) : Dev :=
  let same := fun (e : Nat) => act d e Reg.FAULT_ACTIVE_SOURCE == m.source && act d e Reg.FAULT_ACTIVE_KIND == m.kind
  match (actives d).find? same with
  | some e => actMerge d e m
  | none =>
    match firstIdx 255 fun e => !actValid d e with
    | some e => actMake d e m
    | none => if actValid d 255 then actMerge d 255 m else actMake d 255 m

/-! The log and the first-fault record (R422 to R426). -/

def eventFld (sev : Nat) : Fld :=
  if sev = 0 then Reg.FAULT_EVENTS_NOTE else if sev = 1 then Reg.FAULT_EVENTS_CORRECTED else if sev = 2 then Reg.FAULT_EVENTS_DEGRADED
  else Reg.FAULT_EVENTS_FATAL

/-- Word 0 of a log entry. -/
def logWord (m : FaultMsg) (simul first : Bool) : Nat :=
  2 ^ 63 + b2n simul * 2 ^ 62 + b2n m.injected * 2 ^ 61 + b2n first * 2 ^ 60 + m.sev * 2 ^ 58 + m.kind * 2 ^ 50 + m.source * 2 ^ 38
    + m.rep * 2 ^ 30 + m.master * 2 ^ 26 + m.access * 2 ^ 22

/-- The first-fault record takes a fault, or counts one that it missed; the answer says whether it was captured. Not asked of the
messages that arrive in the cycle of a capture: SIMUL_COUNT has them, and MISSED counts those that arrive later (R426). -/
def firstCapture (d : Dev) (m : FaultMsg) (others : Nat) : Bool × Dev :=
  let o := Reg.FAULT_FIRST_SRC
  if m.sev < rdF d Reg.FAULT_CFG Reg.FAULT_CFG_FIRST_MIN_SEV then (false, d)
  else if flagF d o Reg.FAULT_FIRST_SRC_VALID then (false, bumpSat d o Reg.FAULT_FIRST_SRC_MISSED 1)
  else
    let d := wr d o (mkWord [(Reg.FAULT_FIRST_SRC_VALID, 1), (Reg.FAULT_FIRST_SRC_INJECTED, b2n m.injected),
      (Reg.FAULT_FIRST_SRC_SIMUL_COUNT, min others 63), (Reg.FAULT_FIRST_SRC_SEVERITY, m.sev), (Reg.FAULT_FIRST_SRC_KIND, m.kind),
      (Reg.FAULT_FIRST_SRC_SOURCE, m.source), (Reg.FAULT_FIRST_SRC_MASTER, m.master), (Reg.FAULT_FIRST_SRC_ACCESS, m.access),
      (Reg.FAULT_FIRST_SRC_REPEAT, m.rep)])
    (true, wr (wr d Reg.FAULT_FIRST_ADDR (BitVec.ofNat 64 m.addr)) Reg.FAULT_FIRST_TIME (BitVec.ofNat 64 d.time))

/-- One slot of the log; the answer says whether an unread entry was overwritten. -/
def logPut (d : Dev) (m : FaultMsg) (simul first : Bool) : Bool × Dev :=
  let n := (rd d Reg.FAULT_LOG_PROD).toNat
  let ovr : Bool := decide (4096 ≤ n ∧ (rd d Reg.FAULT_LOG_CONS).toNat ≤ n - 4096)
  let w0 := BitVec.ofNat 64 (logWord m simul first)
  let w1 := BitVec.ofNat 64 m.addr
  let i := n % 4096
  let d := wr (wr d (Reg.FAULT_LOG i 0) w0) (Reg.FAULT_LOG i 1) w1
  let d := wr (wr d (Reg.FAULT_LOG i 2) (BitVec.ofNat 64 d.time)) (Reg.FAULT_LOG i 3) (BitVec.ofNat 64 n)
  let d := bump d Reg.FAULT_LOG_PROD
  let d := if ovr then bump d Reg.FAULT_LOG_OVERRUN else d
  (ovr, (evtPost d 1 w0 w1 (BitVec.ofNat 64 d.time) (BitVec.ofNat 64 n)).1)

/-- What one cycle of the collector has done: severities logged as a mask, an overrun, a capture. -/
structure Cycle where
  logged : Nat
  ovr : Bool
  first : Bool

/-- A message that an injection caused takes INJECTED, and its record retires (R437). -/
def markInjected (d : Dev) (m : FaultMsg) : FaultMsg × Dev :=
  if d.flt.injected.contains (m.source, m.addr) then
    ({ m with injected := true }, { d with flt := { d.flt with injected := d.flt.injected.erase (m.source, m.addr) } })
  else (m, d)

/-- One message of a cycle in which `others` more arrived; `simul` unless it is the first. -/
def faultTake (others : Nat) (simul : Bool) (m : FaultMsg) (x : Cycle × Dev) : Cycle × Dev :=
  let (m, d) := markInjected x.2 m
  let d := bump (bumpSat d Reg.FAULT_EVENTS (eventFld m.sev) 1) (Reg.FAULT_CNT (m.source / 256) m.sev)
  let (cap, d) := if x.1.first then (false, d) else firstCapture d m others
  let c := { x.1 with first := x.1.first || cap }
  let (c, d) :=
    if rdF d Reg.FAULT_CFG Reg.FAULT_CFG_LOG_MIN_SEV ≤ m.sev then
      let (ovr, d) := logPut d m simul cap
      ({ c with logged := setBits c.logged m.sev 1 1, ovr := c.ovr || ovr }, imageRefresh d)
    else (c, d)
  (c, if 2 ≤ m.sev then actTrack d m else d)

/-- Messages in the order of R422: severity, highest first, then SOURCE, lowest first. -/
def msgBefore (x y : FaultMsg) : Bool := decide (y.sev < x.sev ∨ (x.sev = y.sev ∧ x.source ≤ y.source))
def msgInsert (m : FaultMsg) : List FaultMsg → List FaultMsg
  | [] => [m]
  | x :: t => if msgBefore m x then m :: x :: t else x :: msgInsert m t
def msgSort (l : List FaultMsg) : List FaultMsg := l.foldr msgInsert []

/-- Vector 144 or 145, at most once in IRQ_MIN_US: one that comes too early waits (R425). -/
def slowVector (d : Dev) (sev : Nat) : Dev :=
  let t := if sev = 0 then d.flt.irqTime.1 else d.flt.irqTime.2
  if d.time < t then { d with flt := { d.flt with irqDue := setBits d.flt.irqDue sev 1 1 } }
  else
    let n := d.time + 1000 * rdF d Reg.FAULT_CFG Reg.FAULT_CFG_IRQ_MIN_US
    msi { d with flt := { d.flt with irqTime := if sev = 0 then (n, d.flt.irqTime.2) else (d.flt.irqTime.1, n),
                                     irqDue := setBits d.flt.irqDue sev 1 0 } } (144 + sev)

/-- The vectors that wait are raised once their interval has passed. -/
def irqDrain (d : Dev) : Dev :=
  [0, 1].foldl (fun d sev => if bit d.flt.irqDue sev then slowVector d sev else d) d

def faultVectors (c : Cycle) (d : Dev) : Dev :=
  let d := if bit c.logged 0 then slowVector d 0 else d
  let d := if bit c.logged 1 then slowVector d 1 else d
  let d := if bit c.logged 2 then msi d 146 else d
  let d := if bit c.logged 3 then msi d 147 else d
  let d := if c.ovr then msi d 150 else d
  if c.first then msi d 151 else d

/-- Messages of one cycle are settled in order. -/
def faultRun (l : List FaultMsg) (d : Dev) : Dev :=
  let others := l.length - 1
  let (c, d) := ((msgSort l).zipIdx).foldl (fun x m => faultTake others (decide (0 < m.2)) m.1 x) (⟨0, false, false⟩, d)
  faultSummary (faultVectors c d)

/-- Whether a pick names a pending message that can arrive now: every earlier one of its source has arrived, or arrives in the same cycle
(R420). -/
def ringReady (d : Dev) (picks : List (Nat × Nat × Bool)) (p : Nat × Nat × Bool) : Bool :=
  match d.flt.pending[p.2.1]? with
  | none => false
  | some m => (d.flt.pending.take p.2.1).zipIdx.all fun x => x.1.source != m.source || (picks.take 8).any fun q => q.2.1 == x.2

/-- A parity injection at the control island reaches the first message that the ring delivers (R437 code 1). -/
def ringParity (picks : List (Nat × Nat × Bool)) (d : Dev) : List (Nat × Nat × Bool) × Dev :=
  match picks with
  | [] => ([], d)
  | p :: t =>
    let (j, d) := injectAt d 1 0 (p.1 % 8)
    (if j = 0 then p :: t else (p.1, p.2.1, true) :: t, d)

/-- A collector cycle: each pick is a ring segment, the pending message that arrives on it, and whether its parity or sequence
number is bad (R421); at most eight, and no message twice. -/
def faultCollect (picks0 : List (Nat × Nat × Bool)) (d : Dev) : Dev :=
  let (picks, d) := ringParity ((picks0.take 8).filter (ringReady d picks0)) d
  let ps := picks
  let got : List FaultMsg := ps.filterMap fun p =>
    if p.2.2 then some ⟨0, Fk.faultRing.kind, Fk.faultRing.sev, p.1 % 8, 0, 0, 0, false⟩ else d.flt.pending[p.2.1]?
  let rest := d.flt.pending.zipIdx.filterMap fun m => if ps.any fun p => p.2.1 == m.2 then none else some m.1
  let idx := ps.map fun p => p.2.1
  if idx.eraseDups.length = idx.length ∧ ¬ got.isEmpty then faultRun got { d with flt := { d.flt with pending := rest } } else d

/-! Injection (R437). -/

/-- Whether a source exists on this part (R438, R3). -/
def sourceExists (d : Dev) (src : Nat) : Bool :=
  let c := src / 256
  let i := src % 256
  let ac := acreCount d
  if c = 0 then decide (i ≤ 16) && (decide (i < 4 ∨ 8 ≤ i) || decide (i < 4 + ac)) && (decide (i < 8 ∨ 16 ≤ i) || decide (i < 8 + stripCount d))
  else if c = 1 then decide (i < stripCount d)
  else if c = 2 then decide (i / 32 < ac ∧ i % 32 ≤ 16)
  else if c = 3 ∨ c = 6 ∨ c = 7 then decide (i < ac)
  else if c = 5 then decide (i / 64 < ac)
  else if c = 4 ∨ c = 8 then true
  else if c = 9 then decide (i ≤ 14)
  else if c = 10 then decide (i < 128 * stackCount d)
  else if c = 13 then decide (i ≤ 4)
  else (c == 11 || c == 12 || c == 14) && i == 0

/-- Whether a checker exists at a source. -/
def checkerAt (checker src : Nat) : Bool :=
  let c := src / 256
  let i := src % 256
  if checker = 0 then (1 ≤ c && c ≤ 8) || (c == 9 && i == 14) || c == 14
  else if checker = 1 then c == 0 || c == 2
  else if checker = 2 then c == 0 || (c == 9 && i == 14)
  else if checker = 3 then c == 11 || c == 7 || c == 2
  else if checker = 4 ∨ checker = 5 then c == 10
  else if checker = 6 then c == 5
  else if checker = 7 then c == 2 || c == 14
  else if checker = 8 then c == 13 || (c == 10 && i % 128 == 0)
  else if checker = 9 then c == 6 || c == 7
  else false

/-- The BITS that a checker allows. -/
def bitsOk (checker n : Nat) : Bool :=
  n == 1 || (n == 2 && (checker == 0 || checker == 3 || checker == 4 || checker == 5))

/-- FAULT_INJECT with ARM; none when it is rejected. -/
def injectArm (d : Dev) (v : W64) : Option Dev :=
  let src := getF v Reg.FAULT_INJECT_SOURCE
  let k := getF v Reg.FAULT_INJECT_CHECKER
  let n := getF v Reg.FAULT_INJECT_BITS
  if flagF d Reg.FAULT_CFG Reg.FAULT_CFG_INJ_EN ∧ sourceExists d src ∧ checkerAt k src ∧ bitsOk k n then
    some (wrFs d Reg.FAULT_INJECT [(Reg.FAULT_INJECT_PENDING, 1), (Reg.FAULT_INJECT_SOURCE, src), (Reg.FAULT_INJECT_CHECKER, k),
      (Reg.FAULT_INJECT_BITS, n)])
  else none

def injectDisarm (d : Dev) : Dev := wrF d Reg.FAULT_INJECT Reg.FAULT_INJECT_PENDING 0

/-- A write of FAULT_INJECT: DISARM first, then ARM, else the fields alone. -/
def injectWrite (d : Dev) (v : W64) : Option Dev :=
  let d1 := if getF v Reg.FAULT_INJECT_DISARM = 1 then injectDisarm d else d
  if getF v Reg.FAULT_INJECT_ARM = 1 then injectArm d1 v
  else some (wrFs d1 Reg.FAULT_INJECT [(Reg.FAULT_INJECT_SOURCE, getF v Reg.FAULT_INJECT_SOURCE),
    (Reg.FAULT_INJECT_CHECKER, getF v Reg.FAULT_INJECT_CHECKER), (Reg.FAULT_INJECT_BITS, getF v Reg.FAULT_INJECT_BITS)])

end Sys2Proof.Machine
end

