-- ==== Sys2Proof/Machine/Strip.lean ====
section
/-!
DEFINITION. Strips and ports (R337 to R362): receiving and transmitting frames, priority flow control, port states, link
aggregation, adaptation engines, peer delay and fallow.
-/
namespace Sys2Proof.Machine

def pS (p : Nat) : Nat := p / 64
def pQ (p : Nat) : Nat := p % 64
def stripCnt (d : Dev) (p k n : Nat) : Dev := bumpN d (Reg.STRIP_CNT (pS p) (pQ p) k) n

/-- A drop of R361, code k. -/
def stripDrop (d : Dev) (p k : Nat) : Dev := stripCnt (bump d (Reg.STRIP_DROP (pS p) k)) p 14 1

def modeF (d : Dev) (p : Nat) (f : Fld) : Nat := rdF d (Reg.PORT_MODE (pS p) (pQ p)) f
def stF (d : Dev) (p : Nat) (f : Fld) : Nat := rdF d (stateReg p) f
def setSt (d : Dev) (p : Nat) (l : List (Fld × Nat)) : Dev := wrFs d (stateReg p) l

/-! The wire (R339). -/

/-- A frame with its FCS; CRC-32 of IEEE 802.3, lowest byte first. -/
def withFcs (f : List Byte) : List Byte := f ++ leBytes 4 (crc32 0xFFFFFFFF f)

/-- A frame padded to 60 bytes. -/
def padFrame (f : List Byte) : List Byte := f ++ List.replicate (60 - f.length) 0

/-- A frame without FCS leaves on the wire, and is counted. -/
def toWire (d : Dev) (p : Nat) (f : List Byte) : Dev :=
  let w := withFcs (padFrame f)
  let d := stripCnt (stripCnt d p 2 1) p 3 w.length
  { d with strip := { d.strip with wire := d.strip.wire ++ [(p, w)] } }

/-! Receiving (R342, R343). -/

/-- The PFC priority of a frame (R343). -/
def framePrio (d : Dev) (p : Nat) (f : List Byte) : Nat :=
  let o := Reg.PRIO_CFG (pS p) (pQ p)
  let dflt := rdF d o Reg.PRIO_CFG_DEFAULT_PRIO
  let et := beNat ((f.drop 12).take 2)
  let tag := et == 0x8100 || et == 0x88A8
  let mode := rdF d o Reg.PRIO_CFG_MODE
  if mode = 1 then (if tag then bits (rd d o).toNat (3 * (byteAt f 14 / 32)) 3 else dflt)
  else if mode = 2 then
    let k := if tag then 16 else 12
    let e := beNat ((f.drop k).take 2)
    let look := fun (x : Nat) => bits (rd d (Reg.DSCP_MAP (pS p) (pQ p) (x / 16))).toNat (4 * (x % 16)) 3
    if e = 0x0800 then look (byteAt f (k + 3) / 4)
    else if e = 0x86DD then look ((byteAt f (k + 2) % 16 * 16 + byteAt f (k + 3) / 16) / 4)
    else dflt
  else dflt

/-- A received PFC frame sets the pause of each enabled priority (R344). -/
def pfcConsume (d : Dev) (p : Nat) (f : List Byte) : Dev :=
  let en := byteAt f 17
  let d := stripCnt d p 4 1
  (List.range 8).foldl (fun d c =>
    if bit en c then
      let q := beNat ((f.drop (18 + 2 * c)).take 2)
      let x := getPort d p
      let stop := if q = 0 then 0 else d.time * tick + q * 512 * 1000 * tick / speedMbps (curSpeed d p)
      let d := putPort d p { x with pause := spPut (fun _ => 0) x.pause c stop }
      let o := Reg.PFC_RX_STATE (pS p) (pQ p)
      wr d o (BitVec.ofNat 64 (setBits (rd d o).toNat c 1 (b2n (q != 0))))
    else d) d

/-- A received pause has run out. -/
def pauseExpiry (p c : Nat) (d : Dev) : Dev :=
  let x := getPort d p
  let o := Reg.PFC_RX_STATE (pS p) (pQ p)
  if 8 ≤ c then d
  else wr (putPort d p { x with pause := spPut (fun _ => 0) x.pause c 0 }) o (BitVec.ofNat 64 (setBits (rd d o).toNat c 1 0))

/-! Peer delay (R357). -/

def pdF (d : Dev) (p : Nat) (f : Fld) : Nat := rdF d (Reg.PDELAY_CFG (pS p) (pQ p)) f

/-- The sourcePortIdentity of a port. -/
def portIdentity (d : Dev) (p : Nat) : List Byte := beBytes 8 (rd d Reg.PTP_CLOCK_ID).toNat ++ beBytes 2 (p + 1)

/-- A PTP timestamp of device time. -/
def ptpTime (t : Nat) : List Byte := beBytes 6 (t / 1000000000) ++ beBytes 4 (t % 1000000000)
def ptpNs (bs : List Byte) : Int := (beNat (bs.take 6) * 1000000000 + beNat ((bs.drop 6).take 4) : Nat)

/-- A peer-delay message: type, flags, sequenceId and body of 20 bytes. -/
def pdMessage (d : Dev) (p ty flags seq : Nat) (body : List Byte) : List Byte :=
  [0x01, 0x80, 0xC2, 0x00, 0x00, 0x0E] ++ beBytes 6 (rd d (Reg.PORT_MAC (pS p) (pQ p))).toNat ++ beBytes 2 0x88F7
    ++ [BitVec.ofNat 8 ty, 0x02] ++ beBytes 2 54 ++ [BitVec.ofNat 8 (pdF d p Reg.PDELAY_CFG_DOMAIN), 0]
    ++ beBytes 2 flags ++ beBytes 8 0 ++ beBytes 4 0 ++ portIdentity d p ++ beBytes 2 seq ++ [0x05, 0x7F] ++ body

/-- The strip sends a peer-delay request. -/
def pdelayRequest (p : Nat) (d : Dev) : Dev :=
  if portState d p ≠ 3 ∨ pdF d p Reg.PDELAY_CFG_EN = 0 then d
  else
    let x := getPort d p
    let d := toWire d p (pdMessage d p 2 0 x.pdSeq (ptpTime d.time ++ beBytes 10 0))
    putPort d p { x with pdSeq := (x.pdSeq + 1) % 65536, pdReq := some (x.pdSeq, d.time), pdResp := none }

/-- A request has had no complete response in 10 ms. -/
def pdelayTimeout (p : Nat) (d : Dev) : Dev :=
  let x := getPort d p
  if x.pdReq.isNone then d
  else
    let d := bumpSat (putPort d p { x with pdReq := none, pdResp := none }) (Reg.PDELAY_STATUS (pS p) (pQ p)) Reg.PDELAY_STATUS_TIMEOUTS 1
    stripCnt d p 12 1

/-- The median; the mean of the middle two of an even number, rounded down. -/
def median (l : List Nat) : Nat :=
  let s := l.foldr insertNat []
  let n := s.length
  if n % 2 = 1 then s.getD (n / 2) 0 else (s.getD (n / 2 - 1) 0 + s.getD (n / 2) 0) / 2

/-- A sample of the delay, from twice its value: rejected outside 0 to 200,000 ns. -/
def pdSample (d : Dev) (p : Nat) (twice : Int) : Dev :=
  let o := Reg.PDELAY_STATUS (pS p) (pQ p)
  let d := putPort (stripCnt d p 11 1) p { getPort d p with pdReq := none, pdResp := none }
  if twice < 0 ∨ 400000 < twice then stripCnt d p 13 1
  else
    let x := getPort d p
    let l := ((twice / 2).toNat :: x.samples).take 5
    let new := median l
    let d := bumpSat (wrFs (putPort d p { x with samples := l }) o [(Reg.PDELAY_STATUS_MEASURED, 1), (Reg.PDELAY_STATUS_D_NS, new)]) o
      Reg.PDELAY_STATUS_SAMPLES 1
    if x.dUsed < 16 * (max new x.dUsed - min new x.dUsed) then headlandRecompute d p else d

/-- A peer-delay message of the domain is consumed. -/
def pdConsume (d : Dev) (p : Nat) (f : List Byte) : Dev :=
  let m := f.drop 14
  let ty := byteAt m 0 % 16
  let seq := beNat ((m.drop 30).take 2)
  let corr : Int := toSigned 64 (beNat ((m.drop 8).take 8)) / 65536
  let x := getPort d p
  if ty = 2 then
    if pdF d p Reg.PDELAY_CFG_RESPOND = 0 ∨ portState d p ≠ 3 then d
    else
      let who := (m.drop 20).take 10
      let d := toWire d p (pdMessage d p 3 0x0200 seq (ptpTime d.time ++ who))
      toWire d p (pdMessage d p 10 0 seq (ptpTime d.time ++ who))
  else
    match x.pdReq with
    | none => d
    | some (s, t1) =>
      if seq ≠ s ∨ (m.drop 44).take 10 ≠ portIdentity d p ∨ pdF d p Reg.PDELAY_CFG_EN = 0 then d
      else if ty = 3 then
        let turn : Int := (d.time : Int) - t1 - corr
        if bit (byteAt m 6) 1 then putPort d p { x with pdResp := some (turn, ptpNs ((m.drop 34).take 10)) }
        else pdSample d p turn
      else
        match x.pdResp with
        | none => d
        | some (turn, t2) => pdSample d p (turn - (ptpNs ((m.drop 34).take 10) - t2) - corr)

/-- Whether a frame is a peer-delay message that the strip consumes. -/
def isPdelay (d : Dev) (p : Nat) (f : List Byte) : Bool :=
  let ty := byteAt f 14 % 16
  (pdF d p Reg.PDELAY_CFG_EN == 1 || pdF d p Reg.PDELAY_CFG_RESPOND == 1) && beNat ((f.drop 12).take 2) == 0x88F7
    && (ty == 2 || ty == 3 || ty == 10) && byteAt f 18 == pdF d p Reg.PDELAY_CFG_DOMAIN

/-! Admission (R214, R215, R237, R447). -/

/-- Headland that no reservation holds and no port-priority uses beyond one (R236). -/
def headlandFree (d : Dev) : Nat :=
  let held := (losslessList d).foldl (fun n pc =>
    let o := ppReg pc.1 pc.2
    if flagF d o Reg.PP_STATUS_SHORT then n + rdF d o Reg.PP_STATUS_HL_USED else n) 0
  headlandCells d - rdF d Reg.HEADLAND_STATUS Reg.HEADLAND_STATUS_RESERVED - held

/-- A frame is complete in staging: it is charged and waits for Harrow, or is dropped. The check bits that an injection inverts (R437) are found
at once: a corrected error is reported, and an uncorrectable one drops the frame (R439). -/
def stripAdmit (d : Dev) (p : Nat) (f : List Byte) : Dev :=
  let s := pS p
  let a := p / 128
  if ¬ acreUp d a then bump d (Reg.RSTC_DROP 1)
  else
    let (j, d) := injectAt d 0 (256 + s) 0
    if j = 2 then raise d Fk.stripSramUe s 0 0 0 else
    let d := if j = 1 then raise d Fk.stripSramCe s 0 0 0 else d
    let c := framePrio d p f
    let o := ppReg p c
    let len := f.length + 4
    let n := ceilDiv len 256
    let hl := rdF d o Reg.PP_STATUS_STATE == 2
    let ok := if flagF d o Reg.PP_STATUS_SHORT then decide (n ≤ headlandFree d)
      else decide (rdF d o Reg.PP_STATUS_HL_USED + n ≤ rdF d o Reg.PP_STATUS_NEED)
    if hl ∧ (ok = false) then raise (bump d (Reg.FABRIC_DROP 1)) Fk.headlandOverflow a 0 0 0
    else
      let d := chargePp (setStaging d s (stagingUsed d s + len)) p c n hl
      let d := stripCnt (stripCnt d p 0 1) p 1 len
      let x := { newPkt f p d.time with staged := some s, prio := c, ppCells := n, headland := hl }
      setInQ d a 4 (inQ d a 4 ++ [x])

/-- A whole frame arrives on a port, FCS included: `uncorr` when an uncorrectable codeword overlaps it, `bad` when its
preamble, SFD or a control character is not valid (R342). -/
def frameReceive (p : Nat) (w : List Byte) (uncorr bad : Bool) (d : Dev) : Dev :=
  let st := portState d p
  let mx := modeF d p Reg.PORT_MODE_MAX_FRAME
  if portCount d ≤ p ∨ (st ≠ 3 ∧ st ≠ 4 ∧ st ≠ 5) then d
  else if uncorr then stripDrop d p 4
  else if bad then stripDrop d p 3
  else if w.length < 64 then stripDrop d p 1
  else if mx < w.length then stripDrop d p 2
  else
    let f := w.take (w.length - 4)
    let et := beNat ((f.drop 12).take 2)
    if withFcs f ≠ w then stripDrop d p 0
    else if et = 0x8808 then
      (if beNat ((f.drop 14).take 2) = 0x0101 then pfcConsume d p f else stripDrop d p 6)
    else if isPdelay d p f then pdConsume d p f
    else if stagingSize < stagingUsed d (pS p) + mx then stripDrop d p 5
    else match macsecRx d p f with
      | (.error _, d) => d
      | (.ok g, d) => stripAdmit d p g

/-! Transmitting (R277, R345). -/

/-- A frame that stands at the strip is discarded because the port is not UP (R347). -/
def txDrop (d : Dev) (p : Nat) (x : Pkt) : Dev := dropCpl (stripDrop d p 7) x 0x07

/-- Whether a frame that Drill has selected for the port with a launch time up to t0 has not left yet (R297). -/
def selectedBefore (d : Dev) (p t0 : Nat) : Bool :=
  let due := fun (k : Pkt) => decide (k.launch ≤ t0)
  (getPort d p).txQ.any due
    || ((List.range 4).flatMap (fun m => getEgq d m (p / 128)) ++ getEditQ d (p / 128) ++ laQ d (p / 64)).any fun x => x.2 == p && due x.1

/-- Whether a frame of an UP port waits for its launch time (R277). -/
def launchWaits (d : Dev) (p t0 : Nat) : Bool := portState d p == 3 && (getGate d p).op.enable && decide (d.time * tick < t0)

/-- The strip sends a PFC frame, or discards it when the port is not UP. -/
def pfcSend (p : Nat) (f : List Byte) (d : Dev) : Dev := if portState d p = 3 then stripCnt (toWire d p f) p 5 1 else stripDrop d p 7

/-- The strip sends a frame of a queue (R277, R319), or discards it when the port is not UP. -/
def frameSend (p : Nat) (k : Pkt) (d : Dev) : Dev :=
  if portState d p ≠ 3 then txDrop d p k
  else match macsecTx (crossIn d (8 + pS p)) p k.frame with
    | (.error c, d) => dropCpl d k c
    | (.ok f, d) =>
      let n := (padFrame f).length + 4
      let d := toWire d p f
      let d := if k.charged < n then
          drillCnt (setPortFree d p (portFree d p + (n - k.charged) * 8 * 1000 * tick / speedMbps (curSpeed d p))) 4
        else d
      match k.inject with
      | some (r, slot, cookie, _) => cplWrite d r slot cookie 3 0 0 0 d.time
      | none => d

/-- The strip sends the next frame of a port, in the order in which Drill has given out launch times: a PFC frame goes after the
frames already selected and ahead of every other (R277, R297). -/
def frameTransmit (p : Nat) (d : Dev) : Dev :=
  let x := getPort d p
  match x.pfcQ.head?.filter fun e => portState d p != 3 || !selectedBefore d p e.2 with
  | some (f, t0) => if launchWaits d p t0 then d else pfcSend p f (putPort d p { x with pfcQ := x.pfcQ.tail })
  | none => match x.txQ with
    | k :: t => if launchWaits d p k.launch then d else frameSend p k (putPort d p { x with txQ := t })
    | [] => d

/-- A PFC frame of a port: for each priority its quanta, or none where it is not enabled. -/
def pfcFrame (d : Dev) (p : Nat) (q : Nat → Option Nat) : List Byte :=
  let en := (List.range 8).foldl (fun v c => v + b2n (q c).isSome * 2 ^ c) 0
  padFrame ([0x01, 0x80, 0xC2, 0x00, 0x00, 0x01] ++ beBytes 6 (rd d (Reg.PORT_MAC (pS p) (pQ p))).toNat ++ beBytes 2 0x8808
    ++ beBytes 2 0x0101 ++ beBytes 2 en ++ (List.range 8).flatMap fun c => beBytes 2 ((q c).getD 0))

/-- Drill schedules a PFC frame ahead of every frame not yet selected (R297). -/
def pfcSchedule (d : Dev) (p : Nat) (f : List Byte) : Dev :=
  let t0 := launchTime d p
  let d := drillCnt (setPortFree d p (t0 + wireTime d p 64)) 1
  let x := getPort d p
  putPort d p { x with pfcQ := x.pfcQ ++ [(f, t0)] }

def ppPaused (d : Dev) (p c : Nat) : Bool := rdF d (ppReg p c) Reg.PP_STATUS_STATE == 2
def txQuanta (d : Dev) (p : Nat) : Nat := rdF d (Reg.PFC_TX_CFG (pS p) (pQ p)) Reg.PFC_TX_CFG_QUANTA

/-- The changes of a port's lossless priorities are sent in one frame (R345). -/
def pfcBuild (p : Nat) (d : Dev) : Dev :=
  let m := spGet (fun _ => 0) d.pfcDirty p
  if m = 0 ∨ portState d p ≠ 3 then d
  else
    let d := { d with pfcDirty := spPut (fun _ => 0) d.pfcDirty p 0 }
    let xon := flagF d (Reg.PFC_TX_CFG (pS p) (pQ p)) Reg.PFC_TX_CFG_XON_EN
    let q := fun (c : Nat) =>
      if ppPaused d p c then some (txQuanta d p)
      else if bit m c ∧ (xon = true) ∧ rdF d (ppReg p c) Reg.PP_STATUS_STATE = 1 then some 0 else none
    if (List.range 8).any fun c => (q c).isSome then pfcSchedule d p (pfcFrame d p q) else d

/-- The pause of every PAUSED priority is sent again. -/
def pfcRefresh (p : Nat) (d : Dev) : Dev :=
  if portState d p = 3 ∧ (List.range 8).any (ppPaused d p) then
    pfcSchedule d p (pfcFrame d p fun c => if ppPaused d p c then some (txQuanta d p) else none)
  else d

/-! Link aggregation (R350, R351). -/

/-- Whether a port is a member of group g. -/
def inGroup (d : Dev) (g p : Nat) : Bool :=
  flagF d (Reg.AGG_PORT p 0) Reg.AGG_PORT_VALID && rdF d (Reg.AGG_PORT p 0) Reg.AGG_PORT_GROUP == g

/-- The member ports of a group, ascending, and its live set. -/
def members (d : Dev) (g : Nat) : List Nat := (List.range 512).filter (inGroup d g)
def liveIn (d : Dev) (g p : Nat) : Bool :=
  let s := portState d p
  s == 3 || (s == 4 && !flagF d (Reg.AGG_GROUP g) Reg.AGG_GROUP_OUT_ON_RETRAIN)
def liveSet (d : Dev) (g : Nat) : List Nat := (members d g).filter (liveIn d g)

/-- A rewrite of a group is due; `why` as in `StripSt.rewrite`. -/
def rewriteDue (d : Dev) (g why : Nat) : Dev :=
  if flagF d Reg.AGG_CFG Reg.AGG_CFG_EN ∧ flagF d (Reg.AGG_GROUP g) Reg.AGG_GROUP_VALID ∧ ¬ flagF d Reg.AGG_STATUS Reg.AGG_STATUS_ERROR then
    wrF { d with strip := { d.strip with rewrite := spPut (fun _ => 0) d.strip.rewrite g (max why (spGet (fun _ => 0) d.strip.rewrite g)) } }
      Reg.AGG_STATUS Reg.AGG_STATUS_BUSY 1
  else d

/-- Whether the table of AGG_CFG serves (R351). -/
def aggFits (d : Dev) (v : W64) : Bool :=
  match tbl d (getF v Reg.AGG_CFG_TABLE) with
  | some b => b.kind == 5 && decide (getF v Reg.AGG_CFG_BASE + 4096 ≤ b.size)
  | none => false

/-- The rewrites that stay due: those of valid groups, while the member sets are maintained in a table that serves. -/
def rewritePrune (d : Dev) : Dev :=
  let ok := flagF d Reg.AGG_CFG Reg.AGG_CFG_EN && aggFits d (rd d Reg.AGG_CFG)
  let l := d.strip.rewrite.filter fun e => ok && flagF d (Reg.AGG_GROUP e.1) Reg.AGG_GROUP_VALID
  wrF { d with strip := { d.strip with rewrite := l } } Reg.AGG_STATUS Reg.AGG_STATUS_BUSY (b2n !l.isEmpty)

/-- Every valid group is rewritten. -/
def rewriteAll (d : Dev) : Dev := (List.range 256).foldl (fun d g => rewriteDue d g 1) d

/-- A profile change has been applied (R351). -/
def aggAfterProfile (d : Dev) : Dev :=
  if ¬ flagF d Reg.AGG_CFG Reg.AGG_CFG_EN then d
  else if aggFits d (rd d Reg.AGG_CFG) then rewriteAll d
  else
    let d := wrFs { d with strip := { d.strip with rewrite := [] } } Reg.AGG_STATUS [(Reg.AGG_STATUS_ERROR, 1), (Reg.AGG_STATUS_BUSY, 0)]
    raise d Fk.aggTable 0 0 0 0

/-- PROFILE_APPLY with its effect on the member sets. -/
def profileApplied (d : Dev) : Dev :=
  let d' := profileApply d
  if profilePending d ∧ ¬ profilePending d' then aggAfterProfile d' else d'

/-- A port notice (R353). -/
def portNotice (d : Dev) (p event : Nat) : Dev :=
  let up := portState d p == 3
  let agg := flagF d (Reg.AGG_PORT p 0) Reg.AGG_PORT_VALID
  let g := rdF d (Reg.AGG_PORT p 0) Reg.AGG_PORT_GROUP
  let w0 := 2 ^ 63 + 10 * 2 ^ 59 + event * 2 ^ 55 + (if up then stF d p Reg.PORT_STATE_CUR_SPEED else 0) * 2 ^ 51 + p
  let w2 := if agg then 2 ^ 63 + (liveSet d g).length * 2 ^ 8 + g else 0
  let (d, ok) := evtPost d 0 (BitVec.ofNat 64 w0) (BitVec.ofNat 64 d.time) (BitVec.ofNat 64 w2) 0
  if ok then msi d (416 + p % 512) else bumpSat d (Reg.STRIP_STATUS (pS p)) Reg.STRIP_STATUS_NOTICES_LOST 1

/-- The lowest group whose rewrite is due is rewritten, when no host command is in progress. -/
def groupRewrite (d : Dev) : Dev :=
  let d := rewritePrune d
  if flagF d Reg.ORCHARD_STATUS Reg.ORCHARD_STATUS_BUSY then d
  else match d.strip.rewrite, tbl d (rdF d Reg.AGG_CFG Reg.AGG_CFG_TABLE) with
    | (g, why) :: t, some b =>
      let live := liveSet d g
      let n := live.length
      let base := rdF d Reg.AGG_CFG Reg.AGG_CFG_BASE + 16 * g
      let d := (List.range 16).foldl (fun d i =>
        let w := if n = 0 then 0 else n * 2 ^ 59 + rdF d (Reg.AGG_PORT (live.getD (i % n) 0) 1) Reg.AGG_PORT_WORD
        writeUnit d b (base + i) w) d
      let d := bumpWrap { d with strip := { d.strip with rewrite := t } } Reg.AGG_STATUS Reg.AGG_STATUS_REWRITES 1
      let d := wrF d Reg.AGG_STATUS Reg.AGG_STATUS_BUSY (b2n !t.isEmpty)
      if 2 ≤ why then portNotice d (why - 2) 6 else d
    | _, _ => d

/-! Port states (R346 to R349). -/

/-- A port's engine is free again. -/
def engineFree (d : Dev) (p : Nat) : Dev :=
  let e := stF d p Reg.PORT_STATE_ENGINE
  let o := Reg.ENGINE_STATUS (pS p) e
  if e < 4 ∧ rdF d o Reg.ENGINE_STATUS_TASK ≠ 0 ∧ rdF d o Reg.ENGINE_STATUS_PORT = p then
    setSt (wrFs d o [(Reg.ENGINE_STATUS_TASK, 0), (Reg.ENGINE_STATUS_PORT, 0)]) p [(Reg.PORT_STATE_ENGINE, 15)]
  else d

def setWait (d : Dev) (p : Nat) (b : Bool) : Dev := putPort d p { getPort d p with waiting := b }

/-- A port that leaves UP, RETRAIN and FALLBACK: every received pause ends (R344). -/
def pauseClear (d : Dev) (p : Nat) : Dev :=
  wr (putPort d p { getPort d p with pause := [] }) (Reg.PFC_RX_STATE (pS p) (pQ p)) 0

/-- The state of a port changes: frames at the strip are cut off when it leaves UP, pauses end, and a change of the live set
of its group makes a rewrite due (R344, R347, R351). -/
def portTo (d : Dev) (p st : Nat) : Dev :=
  let g := rdF d (Reg.AGG_PORT p 0) Reg.AGG_PORT_GROUP
  let was := liveIn d g p
  let up := portState d p == 3
  let d := setSt d p [(Reg.PORT_STATE_STATE, st)]
  let d := if up ∧ st ≠ 3 then
      let x := getPort d p
      let d := putPort d p { x with txQ := [], pfcQ := [] }
      (x.pfcQ.foldl (fun d _ => stripDrop d p 7) (x.txQ.foldl (fun d k => txDrop d p k) d))
    else d
  let d := if st = 3 ∨ st = 4 ∨ st = 5 then d else pauseClear d p
  if inGroup d g p ∧ was ≠ liveIn d g p then rewriteDue d g (2 + p) else d

/-- The mode of attempt k: 0 the configured mode, else a FALLBACK entry; 0 past the end of the list (R346). -/
def attemptMode (d : Dev) (p k : Nat) : Nat :=
  let o := Reg.FALLBACK (pS p) (pQ p)
  if k = 0 then modeF d p Reg.PORT_MODE_SPEED
  else
    let e := fun (i : Nat) => bits (rd d o).toNat (4 * i) 4
    if 3 < k ∨ (List.range k).any (fun i => e i == 0) then 0 else e (k - 1)

/-- An attempt begins: the port waits for an engine. -/
def attemptStart (d : Dev) (p k mode : Nat) (wait : Bool) : Dev :=
  let d := timerClaims d (setSt d p [(Reg.PORT_STATE_CUR_SPEED, mode)]) p
  putPort d p { getPort d p with attempt := k, waiting := wait }

/-- A port that is enabled starts, unless the ladder holds every port (R346, R433). -/
def portStart (d : Dev) (p : Nat) : Dev :=
  let mode := modeF d p Reg.PORT_MODE_SPEED
  if mode = 0 ∨ d.flt.portHold then d
  else if modeF d p Reg.PORT_MODE_AN_EN = 1 ∧ modeF d p Reg.PORT_MODE_IFACE = 0 then
    attemptStart (portTo d p 1) p 0 mode false
  else attemptStart (portTo d p 2) p 0 mode true

/-- A port goes DOWN. -/
def portDown (d : Dev) (p : Nat) : Dev :=
  let was := portState d p
  if was = 0 then d
  else
    let d := attemptStart (portTo (engineFree d p) p 0) p 0 0 false
    let d := setSt d p [(Reg.PORT_STATE_RETRYING, 0)]
    let gone := was == 6 && !((List.range 64).any fun q => portState d (64 * pS p + q) == 6)
    portNotice (if gone then endCond d Fk.withdrawn (pS p) else d) p 4

/-- The measured delay is cleared at a link flap (R348, R357). -/
def pdClear (d : Dev) (p : Nat) : Dev :=
  let d := wrFs d (Reg.PDELAY_STATUS (pS p) (pQ p)) [(Reg.PDELAY_STATUS_MEASURED, 0), (Reg.PDELAY_STATUS_D_NS, 0)]
  putPort d p { getPort d p with samples := [], pdReq := none, pdResp := none }

/-- Training or adaptation has converged and the link has stayed good: the port enters UP. -/
def trainingSuccess (p : Nat) (d : Dev) : Dev :=
  let st := portState d p
  let retry := stF d p Reg.PORT_STATE_RETRYING
  if (getPort d p).waiting ∨ ¬ (st = 2 ∨ st = 4 ∨ st = 5 ∨ (st = 6 ∧ retry = 1)) then d
  else
    let mode := stF d p Reg.PORT_STATE_CUR_SPEED
    let flap := st != 4 || (getPort d p).lastMode != mode
    let d := setSt (portTo (engineFree d p) p 3) p [(Reg.PORT_STATE_RETRYING, 0), (Reg.PORT_STATE_RF, 0)]
    let d := putPort d p { getPort d p with lastMode := mode }
    let d := if flap then headlandRecompute (pdClear d p) p else d
    let gone := st == 6 && !((List.range 64).any fun q => portState d (64 * pS p + q) == 6)
    portNotice (if gone then endCond d Fk.withdrawn (pS p) else d) p 0

/-- A port leaves UP for RETRAIN (R347). -/
def toRetrain (d : Dev) (p : Nat) : Dev :=
  if portState d p ≠ 3 then d
  else
    let d := attemptStart (portTo d p 4) p 0 (stF d p Reg.PORT_STATE_CUR_SPEED) true
    portNotice (raise (stripCnt d p 9 1) Fk.retrain (pS p) 0 0 0) p 1

/-- Loss of lock, or a fault sequence (`remote` for a remote one), has outlasted the hold-off. -/
def lockLoss (p : Nat) (remote : Bool) (d : Dev) : Dev := toRetrain (if remote then setSt d p [(Reg.PORT_STATE_RF, 1)] else d) p

/-- A 1 ms window ends with its uncorrectable and corrected codewords, and the corrected symbols of each lane. -/
def errorWindowEnd (p uncorr corr : Nat) (syms : List Nat) (d : Dev) : Dev :=
  let d := stripCnt (stripCnt (stripCnt d p 6 corr) p 7 uncorr) p 8 (syms.foldl (· + ·) 0)
  let o := Reg.LINK_CFG (pS p) (pQ p)
  if rdF d o Reg.LINK_CFG_UNCORR_LIMIT < uncorr ∨ syms.any fun n => decide (rdF d o Reg.LINK_CFG_CORR_LIMIT * 1024 < n) then toRetrain d p
  else d

/-- A port is withdrawn, in the order of R349. -/
def withdraw (d : Dev) (p : Nat) : Dev :=
  let d := attemptStart (portTo (engineFree d p) p 6) p 0 0 false
  stripCnt (portNotice (raise d Fk.withdrawn (pS p) p 0 0) p 3) p 10 1

/-- Whether the budget of a port runs (R346): in TRAINING, RETRAIN and FALLBACK only while every lane detects a signal. -/
def budgetRuns (d : Dev) (p : Nat) : Bool :=
  let st := portState d p
  !(st == 2 || st == 4 || st == 5) || stF d p Reg.PORT_STATE_SIGNAL == 1

/-- The budget of a port's attempt is spent (R346, R349). -/
def budgetSpent (p : Nat) (d : Dev) : Dev :=
  let st := portState d p
  let k := (getPort d p).attempt
  let next := attemptMode d p (k + 1)
  if ¬ budgetRuns d p then d
  else if st = 2 ∨ st = 4 then
    if attemptMode d p 1 = 0 then withdraw d p
    else portNotice (attemptStart (portTo (engineFree d p) p 5) p 1 (attemptMode d p 1) true) p 2
  else if st = 5 then
    if next = 0 then withdraw d p else attemptStart d p (k + 1) next (getPort d p).waiting
  else if st = 6 ∧ stF d p Reg.PORT_STATE_RETRYING = 1 then
    let d := engineFree d p
    if next = 0 then
      portNotice (attemptStart (setSt d p [(Reg.PORT_STATE_RETRYING, 0)]) p 0 0 false) p 5
    else attemptStart d p (k + 1) next true
  else d

/-- A withdrawn port is retried. -/
def withdrawRetry (p : Nat) (d : Dev) : Dev :=
  if portState d p = 6 ∧ stF d p Reg.PORT_STATE_RETRYING = 0 then
    attemptStart (setSt d p [(Reg.PORT_STATE_RETRYING, 1)]) p 0 (attemptMode d p 0) true
  else d

/-- Clause 73 resolves to the configured mode. -/
def anResolved (p : Nat) (d : Dev) : Dev :=
  if portState d p = 1 then attemptStart (portTo d p 2) p 0 (attemptMode d p 0) true else d

/-- A clause 73 exchange ends without a compatible mode (R340). -/
def anFailed (p : Nat) (d : Dev) : Dev := if portState d p = 1 then stripCnt d p 15 1 else d

/-- Signal detect of a port's lanes changes (R346, R362), in any state but of a fallow strip, whose lanes detect nothing. -/
def signalChange (p : Nat) (all : Bool) (d : Dev) : Dev :=
  if portState d p = 7 then d else setSt d p [(Reg.PORT_STATE_SIGNAL, b2n all)]

/-! Adaptation engines (R354, R355). -/

/-- The rank of a waiting port's work; 0 when it waits for none. -/
def engineRank (d : Dev) (p : Nat) : Nat :=
  let st := portState d p
  if ¬ (getPort d p).waiting then 0 else if st = 4 then 1 else if st = 5 then 2 else if st = 2 then 3
  else if st = 6 then 4 else 0

/-- A free engine takes the waiting port of the highest rank, then of the lowest number. -/
def engineAssign (s e : Nat) (d : Dev) : Dev :=
  let o := Reg.ENGINE_STATUS s e
  if ¬ d.strip.enginesOn ∨ 4 ≤ e ∨ stripCount d ≤ s ∨ rdF d o Reg.ENGINE_STATUS_TASK ≠ 0 then d
  else
    let ports := (List.range 64).map (64 * s + ·)
    match [1, 2, 3, 4].findSome? fun r => (ports.find? fun p => engineRank d p == r).map fun p => (r, p) with
    | none => d
    | some (r, p) =>
      let task := if r = 1 then 2 else if r = 2 then 3 else if r = 3 then 1 else 4
      setWait (setSt (wrFs d o [(Reg.ENGINE_STATUS_TASK, task), (Reg.ENGINE_STATUS_PORT, p)]) p [(Reg.PORT_STATE_ENGINE, e)]) p false

/-- One lane update of the continuous adaptation; the sixteenth ends a pass. -/
def laneAdapt (s e : Nat) (d : Dev) : Dev :=
  if 4 ≤ e ∨ ¬ d.strip.enginesOn then d
  else
    let n := spGet (fun _ => 0) d.strip.adapt (4 * s + e)
    let d := { d with strip := { d.strip with adapt := spPut (fun _ => 0) d.strip.adapt (4 * s + e) ((n + 1) % 16) } }
    if n = 15 then bumpSat d (Reg.ENGINE_STATUS s e) Reg.ENGINE_STATUS_ADAPT_PASSES 1 else d

/-! PORT_MODE (R338) and strip fallow (R360). -/

/-- The COVERED marks of the other lanes of a port. -/
def coverLanes (d : Dev) (p speed v : Nat) : Dev :=
  (List.range (speedLanes speed - 1)).foldl (fun d i => setSt d (p + 1 + i) [(Reg.PORT_STATE_COVERED, v)]) d

/-- Whether a value may be written to PORT_MODE of a port. -/
def portModeOk (d : Dev) (p : Nat) (v : W64) : Bool :=
  let sp := getF v Reg.PORT_MODE_SPEED
  let w := speedLanes sp
  let ifc := getF v Reg.PORT_MODE_IFACE
  let mf := getF v Reg.PORT_MODE_MAX_FRAME
  let old := modeF d p
  let fixed := old Reg.PORT_MODE_ENABLE == 0
    || (sp == old Reg.PORT_MODE_SPEED && ifc == old Reg.PORT_MODE_IFACE && mf == old Reg.PORT_MODE_MAX_FRAME)
  let lanes := (List.range (w - 1)).all fun i =>
    let l := p + 1 + i
    modeF d l Reg.PORT_MODE_SPEED == 0
      && (stF d l Reg.PORT_STATE_COVERED == 0 || decide (i + 1 < speedLanes (old Reg.PORT_MODE_SPEED)))
  decide (sp ≤ 7 ∧ pQ p % max w 1 = 0 ∧ 64 ≤ mf ∧ mf ≤ 16383 ∧ ifc ≤ 1) && !(ifc == 1 && sp == 7) && fixed
    && (sp == 0 || (stF d p Reg.PORT_STATE_COVERED == 0 && lanes))

/-- A write of PORT_MODE; none when it is rejected. -/
def portModeWrite (d : Dev) (p : Nat) (v : W64) : Option Dev :=
  if ¬ portModeOk d p v then none
  else
    let o := Reg.PORT_MODE (pS p) (pQ p)
    let was := modeF d p Reg.PORT_MODE_ENABLE
    let d := coverLanes (coverLanes d p (modeF d p Reg.PORT_MODE_SPEED) 0) p (getF v Reg.PORT_MODE_SPEED) 1
    let d := timerClaims d (wr d o (v &&& 0xFFFF8CF1#64)) p
    let en := getF v Reg.PORT_MODE_ENABLE
    some (if was = 0 ∧ en = 1 then portStart d p else if en = 0 then portDown d p else d)

/-- The staging area of a strip is emptied: the frames that wait there for Harrow go uncounted (R360, R445). -/
def stagingEmpty (d : Dev) (s : Nat) : Dev :=
  let waiting := (inQ d (s / 2) 4).filter fun p => p.staged == some s
  setStaging (setInQ (waiting.foldl releaseFrame d) (s / 2) 4 ((inQ d (s / 2) 4).filter fun p => p.staged != some s)) s 0

/-- STRIP_CTRL.FALLOW := 1; none when a port is enabled. -/
def fallowEnter (d : Dev) (s : Nat) : Option Dev :=
  if (List.range 64).any fun q => modeF d (64 * s + q) Reg.PORT_MODE_ENABLE == 1 then none
  else
    let d := wrF (stagingEmpty d s) (Reg.STRIP_CTRL s) Reg.STRIP_CTRL_FALLOW 1
    let d := (List.range 64).foldl (fun d q => portTo d (64 * s + q) 7) d
    some (endCond (wrFs d (Reg.STRIP_STATUS s) [(Reg.STRIP_STATUS_FALLOW, 1), (Reg.STRIP_STATUS_PLL_LOCK, 0)]) Fk.pllUnlock s)

/-- STRIP_CTRL.FALLOW := 0: the PLLs restart. -/
def fallowExit (d : Dev) (s : Nat) : Dev := wrF d (Reg.STRIP_CTRL s) Reg.STRIP_CTRL_FALLOW 0

/-- The PLLs of a strip lock: a strip that leaves fallow has its ports DOWN. -/
def stripPllLocked (s : Nat) (d : Dev) : Dev :=
  if stripCount d ≤ s ∨ flagF d (Reg.STRIP_CTRL s) Reg.STRIP_CTRL_FALLOW then d
  else
    let d := endCond (wrF d (Reg.STRIP_STATUS s) Reg.STRIP_STATUS_PLL_LOCK 1) Fk.pllUnlock s
    if flagF d (Reg.STRIP_STATUS s) Reg.STRIP_STATUS_FALLOW then
      (List.range 64).foldl (fun d q => portTo d (64 * s + q) 0) (wrF d (Reg.STRIP_STATUS s) Reg.STRIP_STATUS_FALLOW 0)
    else d

/-- A strip's PLL loses lock while the strip is not fallow (R439). -/
def pllUnlock (s : Nat) (d : Dev) : Dev :=
  if stripCount d ≤ s ∨ flagF d (Reg.STRIP_STATUS s) Reg.STRIP_STATUS_FALLOW ∨ ¬ flagF d (Reg.STRIP_STATUS s) Reg.STRIP_STATUS_PLL_LOCK then d
  else raise (wrF d (Reg.STRIP_STATUS s) Reg.STRIP_STATUS_PLL_LOCK 0) Fk.pllUnlock s 0 0 0

end Sys2Proof.Machine
end

