-- ==== Sys2Proof/Machine/Reset.lean ====
section
/-!
DEFINITION. Resets (R444 to R453): what each scope clears and keeps, their precedence, partial resets of strips and acres, the
release order, and the boot checks (R454 to R456).
-/
namespace Sys2Proof.Machine

/-! The reset log and precedence (R444, R446). -/

/-- Islands present on the part, as a mask (R438, R3). -/
def islandMask (d : Dev) : Nat :=
  (List.range 17).foldl (fun v i => if sourceExists d i then setBits v i 1 1 else v) 0

/-- A reset, or a discarded request, enters AON_RESET_LOG, whose entry 0 is the newest. -/
def resetLog (d : Dev) (code : Nat) (discarded : Bool) : Dev :=
  let old := (List.range 15).map fun i => rd d (Reg.AON_RESET_LOG i)
  let new := BitVec.ofNat 64 (b2n discarded * 2 ^ 63 + code * 2 ^ 56 + d.time % 2 ^ 56)
  ((new :: old).zipIdx).foldl (fun d x => wr d (Reg.AON_RESET_LOG x.2) x.1) d

/-- The table island is in reset or fallow: a reset of device scope, or fallow, is in progress. -/
def devReset (d : Dev) : Bool := bit d.rst.held 1

/-! Shared pins (R518, R519). -/

/-- The MFPs that the feature of a rank claims. -/
def featPins (r : Nat) : List Nat :=
  if r = 1 ∨ r = 3 then [0] else if r = 2 ∨ r = 4 then [1] else if r = 5 then [2] else [2, 3]

/-- Ranks of the enabled features that claim an MFP, highest first. -/
def pinClaims (feat p : Nat) : List Nat := ((List.range 6).map (· + 1)).filter fun r => bit feat (r - 1) && (featPins r).contains p

/-- The feature that drives an MFP; 0 for its personality. -/
def pinDriver (d : Dev) (p : Nat) : Nat :=
  let feat := (rd d Reg.PIN_FEAT).toNat
  match pinClaims feat p with
  | [] => 0
  | r :: _ =>
    let all := (featPins r).all fun q => (pinClaims feat q).headD 0 == r
    if all ∧ (r ≤ 2 ∨ ¬ devReset d) then r else 0

/-- Every feature drives the pins that are its own. -/
def pinSettle (d : Dev) : Dev :=
  wrFs d Reg.PIN_STATUS [(Reg.PIN_STATUS_DRIVER0, pinDriver d 0), (Reg.PIN_STATUS_DRIVER1, pinDriver d 1),
    (Reg.PIN_STATUS_DRIVER2, pinDriver d 2), (Reg.PIN_STATUS_DRIVER3, pinDriver d 3)]

/-- Lost pins: the pin, the feature that has it, the feature that wants it. -/
def pinConflicts (feat : Nat) : List (Nat × Nat × Nat) :=
  (List.range 4).flatMap fun p => match pinClaims feat p with
    | [] => []
    | w :: t => t.map fun r => (p, w, r)

/-- A write of PIN_FEAT: none when OBS_ISLAND names no island. Each pin newly lost is a conflict of its own. -/
def pinFeatWrite (d : Dev) (v : W64) : Option Dev :=
  if ¬ sourceExists d (getF v Reg.PIN_FEAT_OBS_ISLAND) then none
  else
    let old := pinConflicts (rd d Reg.PIN_FEAT).toNat
    let new := (pinConflicts v.toNat).filter fun c => !old.contains c
    let d := pinSettle (wr d Reg.PIN_FEAT (v &&& 0x1F3F))
    some (new.foldl (fun d c => recordConflict d 0 (32 + c.1) (0x60 + c.2.1) (0x60 + c.2.2) 16) d)

/-- A waiting feature takes a resource that a higher-ranked one has released (R24): an MFP. Who uses a timer, a buffer or engine
capacity follows from the state at each use, so there is nothing to hand over. -/
def resourceRelease (d : Dev) : Dev := pinSettle d

/-- The code of a pin's reset state (R450): its override of the last reset of device scope when that is valid, else that of the fuse map. A
reserved code counts as 0. -/
def pinReset (d : Dev) (p : Nat) : Nat :=
  let n := bits (spGet (fun _ => 0) d.rst.pinOvr (p / 16)).toNat (4 * (p % 16)) 4
  let c := if 8 ≤ n then n % 8 else spGet (fun _ => 0) d.fuses.pinPersonality p
  if c < 5 then c else 0

/-- A reset of device scope takes the overrides as they stand. -/
def pinLatch (d : Dev) : Sp W64 := (List.range 64).foldl (fun l w => spPut (fun _ => 0) l w (rd d (Reg.AON_PIN_OVR w))) []

/-! Warm reset (R445, R453). -/

/-- Registers that a warm reset keeps (R445, R388, R440, R511). RSTC and MGMT registers that R445 does not name are cleared. -/
def warmKeeps (off : Nat) : Bool :=
  let k := off / 2 ^ 20
  k == 2 || k == 3 || k == 6 || k == 27 || off == Reg.RSTC_SOURCE || off == Reg.CLK_STATUS || off == Reg.BOOT_STATUS
    || decide (Reg.MSIX_TABLE 0 0 ≤ off ∧ off < 0x500000) || off == Reg.PAIR_ROLE || off == Reg.PAIR_CFG
    || decide (Reg.PAIR_ANCHOR 0 ≤ off ∧ off < Reg.PAIR_ANCHOR 4)
    || decide (Reg.PAIR_TABLE_CFG 0 ≤ off ∧ off < Reg.PAIR_TABLE_CFG 64)

/-- Conditions whose cause lies in state that a warm reset clears: WITHDRAWN and AGG_TABLE, PAUSE_WATCHDOG, JOURNAL_OVERFLOW. -/
def causeCleared (key : Nat) : Bool :=
  let c := key / 65536
  let k := key % 256
  (c == 1 && (k == 1 || k == 2)) || (c == 8 && k == 0) || (c == 11 && k == 4)

/-- State that a warm reset clears goes back to its reset values; what it keeps holds its value. -/
def warmBase (d : Dev) : Dev :=
  { Dev.reset with
    time := d.time, free := d.free, fuses := d.fuses, writes := d.writes, perf := d.perf
    regs := d.regs.filter fun x => warmKeeps x.1
    upset := d.upset.filter fun x => x.1 / 2 ^ 48 == ramNo .deep
    flt := { d.flt with present := d.flt.present.filter fun x => !causeCleared x.1 }
    host := { HostSt.reset with
      msi := d.host.msi, pcieUp := d.host.pcieUp, jtagIr := d.host.jtagIr, jtagDr := d.host.jtagDr,
      jtagBsr := d.host.jtagBsr, flashWel := d.host.flashWel, uartOut := d.host.uartOut }
    prog := { ProgSt.reset with rotKey := d.prog.rotKey }
    pair := { PairSt.reset with sent := d.pair.sent, aliveOut := d.pair.aliveOut, aliveStop := d.pair.aliveStop,
                                beatAt := d.pair.beatAt }
    strip := { Dev.reset.strip with wire := d.strip.wire, enginesOn := false }
    rst := { d.rst with cfgDue := false, autoStrips := 0, autoAcres := 0, pinOvr := pinLatch d }
    deep := { (ringRetire d).deep with reqs := d.deep.reqs.filter fun q => q.write } }

/-- The state that a warm reset leaves: the pair's state and link state stand too (R445), and what the health tests say of the entropy
source, for which new deep-store keys wait (R309, R333). -/
def warmClear (d : Dev) : Dev :=
  let d' := wrF (warmBase d) Reg.RIND_HEALTH Reg.RIND_HEALTH_ENTROPY_OK (rdF d Reg.RIND_HEALTH Reg.RIND_HEALTH_ENTROPY_OK)
  wrFs d' Reg.PAIR_STATUS [(Reg.PAIR_STATUS_STATE, rdF d Reg.PAIR_STATUS Reg.PAIR_STATUS_STATE),
    (Reg.PAIR_STATUS_LINK_STATE, rdF d Reg.PAIR_STATUS Reg.PAIR_STATUS_LINK_STATE)]

/-- A warm reset of a source begins: every island but the control, the deep-store and the always-on island enters reset (R389, R445,
R453). A request while a reset of the
device is in progress is discarded (R446). -/
def warmReset (code : Nat) (d : Dev) : Dev :=
  if devReset d then resetLog d code true
  else
    let d := injectDisarm (keysGenerate (warmClear d))
    let d := wrF (bumpSat d Reg.RSTC_SOURCE Reg.RSTC_SOURCE_WARM_COUNT 1) Reg.RSTC_SOURCE Reg.RSTC_SOURCE_SOURCE code
    let d := resetLog d code false
    pinSettle { d with rst := { d.rst with warm := true, held := setBits (islandMask d % 2 ^ 16 - 1) 3 1 0 } }

/-! The boot image (R454, R455). -/

def imgNat (img : List Byte) (o n : Nat) : Nat := leNat ((img.drop o).take n)
def imgBody (img : List Byte) : List Byte := (img.drop 0x100).take (imgNat img 0xC 4)

/-- The 97 bytes of the rotation public key. -/
def imgRotKey (img : List Byte) : List Byte := ((imgBody img).drop (imgNat img 0x1C 4)).take 97

/-- A public key of 97 bytes: X and Y. -/
def keyXY (k : List Byte) : Nat × Nat := (beNat ((k.drop 1).take 48), beNat ((k.drop 49).take 48))

/-- The first check of R454 that an image fails; 0 when it passes all. -/
def imageCheck (d : Dev) (img : List Byte) : Nat :=
  let key := (img.drop 0x20).take 97
  let sig := (img.drop 0xA0).take 96
  if imgNat img 0 4 ≠ 0x49425A4E ∨ imgNat img 4 2 ≠ 1 ∨ 2096896 < imgNat img 0xC 4 then 1
  else if sha384 key ≠ d.fuses.bootKeyDigest then 2
  else if ¬ ecdsaOk (keyXY key) (sha384 (img.take 0xA0 ++ imgBody img)) (beNat (sig.take 48)) (beNat (sig.drop 48)) then 3
  else if imgNat img 8 4 < d.fuses.minVersion then 4
  else if (imgRotKey img).length ≠ 97 ∨ sha384 (imgRotKey img) ≠ d.fuses.rotKeyDigest then 5
  else 0

/-- A boot slot as the service processor reads it: the header, and the body when the header allows one. -/
def slotImage (m : Mem) (slot : Nat) : List Byte :=
  let base := 0x200000 * slot
  let h := memRead spFlash m.flash base 0x100
  let n := imgNat h 0xC 4
  if 2096896 < n then h else h ++ memRead spFlash m.flash (base + 0x100) n

/-- The service processor reads an image in its SRAM: an error that an injection has made there is found (R437 code 0, R439). -/
def sramRead (d : Dev) : Dev :=
  let j := injectAt d 0 (256 * 14) 0
  if j.1 = 1 then raise j.2 Fk.spSramCe 0 0 0 0 else if j.1 = 2 then raise j.2 Fk.spSramUe 0 0 0 0 else j.2

/-- The service processor runs a verified image. -/
def bootRun (d : Dev) (slot : Nat) (img : List Byte) : Dev :=
  let d := wrFs d Reg.BOOT_STATUS [(Reg.BOOT_STATUS_STAGE, 3), (Reg.BOOT_STATUS_SLOT, slot),
    (Reg.BOOT_STATUS_SECURITY_VERSION, imgNat img 8 4)]
  { d with rst := { d.rst with copy := img, cfgDue := true }, prog := { d.prog with rotKey := some (keyXY (imgRotKey img)) } }

/-- Boot from one slot; `next` is what follows a failure. -/
def bootSlot (m : Mem) (slot : Nat) (f : Fld) (next : Dev → Dev) (d0 : Dev) : Dev :=
  let d := sramRead d0
  let img := slotImage m slot
  let e := imageCheck d img
  if e = 0 then bootRun d slot img else next (raise (wrF d Reg.BOOT_STATUS f e) Fk.imageReject 0 0 0 0)

/-- The service processor boots: slot 0, else slot 1, else the boot has failed (R454). -/
def boot (m : Mem) (d : Dev) : Dev :=
  if ctlReset d ∨ rdF d Reg.BOOT_STATUS Reg.BOOT_STATUS_STAGE ≠ 1 then d
  else bootSlot m 0 Reg.BOOT_STATUS_ERROR_SLOT0
    (bootSlot m 1 Reg.BOOT_STATUS_ERROR_SLOT1 fun d => wrF d Reg.BOOT_STATUS Reg.BOOT_STATUS_STAGE 4) d

/-! Release (R452, R453, R456, R458). -/

/-- The strips' PLLs lock, when a reference is present. -/
def stripsLock (d : Dev) : Dev :=
  if d.rst.refA ∨ d.rst.refB then
    (List.range (stripCount d)).foldl (fun d s => endCond (wrF d (Reg.STRIP_STATUS s) Reg.STRIP_STATUS_PLL_LOCK 1) Fk.pllUnlock s) d
  else d

def enginesStart (d : Dev) : Dev := { d with strip := { d.strip with enginesOn := true } }

/-- The adaptation engines may start: MODE is 0, or the Serlet link is UP. -/
def enginesDue (d : Dev) : Bool := !flagF d Reg.PAIR_ROLE Reg.PAIR_ROLE_MODE || linkUp d

/-- The release of a warm reset: the islands run, the collector's deadlines start afresh, the port hold ends, and the boot copy
is verified again; when that fails the boot starts over from flash. -/
def warmRelease (d : Dev) : Dev :=
  if ¬ d.rst.warm then d
  else
    let d := pinSettle { d with rst := { d.rst with warm := false, held := 0 } }
    let d := (actives d).foldl (fun d e => if deadline d e = 0 then d else wr d (Reg.FAULT_ACTIVE e 3) (BitVec.ofNat 64 (nextDeadline d))) d
    let st := d.flt.stepped.map fun x => (x.1, x.2.1, if x.2.2 = 0 then d.time else x.2.2)
    let d := { d with flt := { d.flt with portHold := false, stepped := st }, pair := { d.pair with aliveStop := false } }
    let d := stripsLock (pairResume d)
    let d := if enginesDue d then enginesStart d else d
    if rdF d Reg.BOOT_STATUS Reg.BOOT_STATUS_STAGE ≠ 3 then d
    else if imageCheck d d.rst.copy = 0 then bootRun (sramRead d) (rdF d Reg.BOOT_STATUS Reg.BOOT_STATUS_SLOT) d.rst.copy
    else raise (wr d Reg.BOOT_STATUS 1) Fk.imageReject 0 0 0 0

/-- What a cold reset keeps: the always-on island and what stands outside the device (R445). -/
def coldBase (d : Dev) : Dev :=
  { Dev.reset with
    time := d.time, free := d.free, fuses := d.fuses, writes := d.writes
    regs := d.regs.filter fun x => x.1 / 2 ^ 20 == 3
    flt := { FaultSt.reset with present := d.flt.present.filter fun x => x.1 / 65536 == 13 }
    host := { HostSt.reset with
      msi := d.host.msi, jtagIr := d.host.jtagIr, jtagDr := d.host.jtagDr,
      jtagBsr := d.host.jtagBsr, flashWel := d.host.flashWel, uartOut := d.host.uartOut }
    pair := { PairSt.reset with sent := d.pair.sent }
    strip := { Dev.reset.strip with wire := d.strip.wire, enginesOn := false }
    rst := { d.rst with held := 0xFFFF, warm := false, fallow := false, copy := [], cfgDue := false, autoStrips := 0, autoAcres := 0, pinOvr := pinLatch d } }

/-- A cold reset clears everything else, the contents of the deep store too, and generates the deep-store keys anew. -/
def coldClear (d : Dev) : Dev := memWrite (pinSettle (keysGenerate (coldBase d))) spClear 0 []

/-- A cold reset of a source (R444, R445). -/
def coldReset (code : Nat) (d : Dev) : Dev :=
  if (bit d.rst.held 0 = true) ∧ ¬ d.rst.fallow then resetLog d code true
  else resetLog (wrF (coldClear d) Reg.RSTC_SOURCE Reg.RSTC_SOURCE_SOURCE code) code false

/-- A power-on reset: device time and the always-on registers are cleared too. -/
def powerOn (d : Dev) : Dev :=
  let d := coldClear d
  { d with time := 0, regs := [], flt := FaultSt.reset,
           rst := { d.rst with image := [], lb := none, temp := none, senseOk := false, ppsAt := none, alarm := false, pinOvr := [] } }

/-- The core PLLs lock, and the control island is released to its boot ROM (R452 steps 2 and 3); an island that waits for a
supply stays in reset (R521). -/
def corePllLock (d : Dev) : Dev :=
  if ¬ ctlReset d ∨ d.rst.fallow ∨ ¬ d.rst.refA ∨ condPresent d Fk.supplyWindow 0 then d
  else
    let d := { d with rst := { d.rst with held := d.rst.held - 1 } }
    wrF (wrF d Reg.CLK_STATUS Reg.CLK_STATUS_LOCKED (islandMask d)) Reg.BOOT_STATUS Reg.BOOT_STATUS_STAGE 1

/-- The service processor releases the islands (R452 step 5). -/
def islandRelease (d : Dev) : Dev :=
  if ctlReset d ∨ ¬ devReset d ∨ d.rst.warm ∨ rdF d Reg.BOOT_STATUS Reg.BOOT_STATUS_STAGE ≠ 3 then d
  else stripsLock (pinSettle { d with rst := { d.rst with held := 0 } })

/-- The engines start (R458); `waited` says that PAIR_WAIT_MS has passed. -/
def engineStart (waited : Bool) (d : Dev) : Dev :=
  if devReset d ∨ d.strip.enginesOn then d else if enginesDue d ∨ waited then enginesStart d else d

/-! Partial resets (R445, R447, R448). -/

def partF (d : Dev) (f : Fld) : Nat := rdF d Reg.RSTC_PARTIAL_STATUS f
def setPart (d : Dev) (f : Fld) (i : Nat) (v : Bool) : Dev :=
  wrF d Reg.RSTC_PARTIAL_STATUS f (setBits (partF d f) i 1 (b2n v))
def setHeldIsland (d : Dev) (i : Nat) (v : Bool) : Dev := { d with rst := { d.rst with held := setBits d.rst.held i 1 (b2n v) } }

/-- A strip is cleared: its ports go DOWN, and its staging and the associations homed in it are gone. -/
def stripClear (d : Dev) (s : Nat) : Dev :=
  let d := (List.range 64).foldl (fun d q =>
    let p := 64 * s + q
    let d := if portState d p = 7 then d else portDown d p
    let d := putPort (pdClear d p) p (portDef 0)
    wr d (Reg.PFC_RX_STATE s q) 0) d
  let d := setLaQ ((laQ d s).foldl (fun d x => dropCpl (stripDrop d x.2 7) x.1 7) d) s []
  let d := stagingEmpty d s
  let mine := fun (x : Nat × Nat) =>
    let k := x.1 / 2 ^ 17
    (k == 0 || k == 1 || k == 4 || k == 5) && homeEngine k (x.1 % 2 ^ 17) x.2 == s
  { d with rind := { d.rind with ents := d.rind.ents.filter fun x => !mine x }
           upset := d.upset.filter fun x =>
             let k := x.1 % 2 ^ 48
             !(x.1 / 2 ^ 48 == ramNo .rindEntry && mine (k, rindEnt d (k / 2 ^ 17) (k % 2 ^ 17)))
           strip := { d.strip with adapt := d.strip.adapt.filter fun x => x.1 / 4 != s } }

/-- A packet that a partial acre reset finds (R447). -/
def resetDrop (d : Dev) (p : Pkt) : Dev := releaseFrame (dropCpl (bump d (Reg.RSTC_DROP 0)) p 0xF0) p

/-- A copy that holds cells, found by a partial reset of an acre; `own` when its cells lie in the slice that is rebuilt. -/
def resetCopy (own : Bool) (d : Dev) (p : Pkt) : Dev :=
  let d := dropCpl (bump d (Reg.RSTC_DROP 0)) p 0xF0
  if own then releaseShare (setRef d p.refKey 0) p else releaseCopy d p

/-- The packets of one furrow go, and the furrow is as after a reset, on its store copy. -/
def furrowClear (a : Nat) (d : Dev) (f : Nat) : Dev :=
  let x := getFur d a f
  let d := ((furPkts x).map Prod.snd ++ x.entryQ).foldl resetDrop d
  putFur d a f { furReset (32 * a + f) with port := x.port, gens := x.gens }

/-- A sub-queue of a slice goes with all its packets; its pages are free again. -/
def subClear (a : Nat) (d : Dev) (q : Nat) : Dev :=
  let x := getSub d q a
  let d := putSub d q a (subDef 0)
  let d := (x.head ++ x.tail).foldl (fun d p => resetCopy true (unqueue d q a p) p) d
  let d := x.recs.foldl (fun d r => releaseShare (bump (unqueue d q a r.1) (Reg.RSTC_DROP 0)) r.1) d
  (x.pages.map Page.ptr ++ x.reading.map Prod.fst ++ x.openPage.toList).foldl (pageFree a) d

/-- The cell-buffer slice of an acre is cleared and rebuilt. -/
def sliceClear (d : Dev) (a : Nat) : Dev :=
  let qs := (d.que.subs.filter fun e => e.1 % 4 == a).map fun e => e.1 / 4
  let d := showSpilling (qs.foldl (subClear a) d)
  let d := (List.range 4).foldl (fun d m => (getVoq d a m).foldl (fun d p =>
      if p.cells = [] then resetDrop d p else leaveStaging (resetCopy (m == a) d p) p)
    (setVoqDone (putVoq d a m []) a m 0)) d
  let d := ((List.range 4).filter (· != a)).foldl (fun d b => match getVoq d b a with
    | p :: t => if p.cells = [] then d else leaveStaging (resetCopy true (setVoqDone (putVoq d b a t) b a 0) p) p
    | [] => d) d
  let d := setWbuf2 (setWbuf1 d a []) a []
  let d := (List.range 4).foldl (fun d e => (getEgq d a e).foldl (fun d x => resetCopy true d x.1)
    (setEgqDone (putEgq d a e []) a e 0)) d
  let ed := getEditQ d a
  let d := ed.foldl (fun d x => dropCpl (bump d (Reg.RSTC_DROP 0)) x.1 0xF0) (putEditQ d a [])
  let r := spGet (fun _ => []) d.fab.repl a
  let d := r.foldl (resetCopy true) { d with fab := { d.fab with repl := spPut (fun _ => []) d.fab.repl a [] } }
  let d := (pageCache d a).foldl (fun d p => pagePush d a p) (setPageCache d a [])
  let d := (List.range 64).foldl (fun d p => setPoolUse d a p 0) (clearRegs d fun o => o == Reg.FREE_STATUS a)
  { d with
    fab := { d.fab with banks := d.fab.banks.filter fun x => x.1 / 24 != a, alloc := d.fab.alloc.filter fun x => x.1 / 2 ^ 18 != a,
                        lfsr := d.fab.lfsr.filter fun x => x.1 != a, caps := d.fab.caps.filter fun c => c.acre != a }
    upset := d.upset.filter fun x => !(x.1 / 2 ^ 48 == ramNo .freeRing && x.1 % 2 ^ 48 / 16384 / 24 == a) }

/-- An acre is cleared (R445): its packets, its Harrow fragment state and punt queue, its array and its slice. -/
def acreClear (d : Dev) (a : Nat) : Dev :=
  let x := getAcre d a
  let d := ((List.range 17).foldl (furrowClear a) d)
  let d := (x.rehashHold ++ x.released.map Prod.snd ++ x.moveHold).foldl resetDrop (putAcre d a acreReset)
  let q := inQ d a 2 ++ inQ d a 3 ++ (heldQ d a).map Prod.fst
  let d := { d with host := { d.host with injBuf := d.host.injBuf - (inQ d a 3).foldl (fun n p => n + p.frame.length) 0 } }
  let d := q.foldl resetDrop (setHeldQ (setInQ (setInQ d a 2 []) a 3 []) a [])
  let punts := spGet (fun _ => []) d.har.puntQ a
  let d := punts.foldl resetDrop { d with har := { d.har with puntQ := spPut (fun _ => []) d.har.puntQ a [],
                                                               frags := d.har.frags.filter fun e => e.1 / 65536 != a } }
  let d := sliceClear d a
  let d := { d with
    deep := { d.deep with reqs := d.deep.reqs.filter fun q => !(q.unit == a && decide (q.port < 4)) }
    har := { d.har with backQ := spPut (fun _ => []) d.har.backQ a [] }
    rind := { d.rind with decQ := spPut (fun _ => []) d.rind.decQ a [], laUsed := spPut (fun _ => 0) d.rind.laUsed a 0 }
    asc := { d.asc with copy := d.asc.copy.filter fun e => e.1 / 32768 != a, cells := d.asc.cells.filter fun e => e.1 / 32768 != a,
                        repairs := d.asc.repairs.filter fun e => e.1 / 32768 != a
                        pos := spPut (fun _ => 0) d.asc.pos a 0, reread := d.asc.reread.filter fun n => n / 4096 != a
                        steps := d.asc.steps.filter fun x => stepAcre x != a }
    upset := d.upset.filter fun e => !((e.1 / 2 ^ 48 == ramNo .assocCopy || e.1 / 2 ^ 48 == ramNo .assocTag) && e.1 % 2 ^ 48 / 32768 == a) }
  let d := clearRegs d fun o => decide (Reg.SEG_MAP a 0 ≤ o ∧ o < Reg.SEG_MAP a 256)
  let d := wrFs d (Reg.REHASH_STATUS a) [(Reg.REHASH_STATUS_ACTIVE, 0), (Reg.REHASH_STATUS_HELD, 0)]
  wrF d (Reg.ACRE_MOVE_STATUS a) Reg.ACRE_MOVE_STATUS_PHASE 0

/-- A held or reset strip is released: each enabled port starts again (R445). -/
def stripOut (d : Dev) (s : Nat) : Dev :=
  let d := setHeldIsland (setPart d Reg.RSTC_PARTIAL_STATUS_STRIP_HELD s false) (8 + s) false
  if flagF d (Reg.STRIP_CTRL s) Reg.STRIP_CTRL_FALLOW then d
  else (List.range 64).foldl (fun d q =>
    let p := 64 * s + q
    if modeF d p Reg.PORT_MODE_ENABLE = 1 ∧ portState d p = 0 then portStart d p else d) d

def acreOut (d : Dev) (a : Nat) : Dev := setHeldIsland (setPart d Reg.RSTC_PARTIAL_STATUS_ACRE_HELD a false) (4 + a) false

/-- A reset of strip s begins; `hold` for the HOLD form. A request while one is in progress is discarded (R446). -/
def partStrip (hold : Bool) (d : Dev) (s : Nat) : Dev :=
  if devReset d ∨ bit (partF d Reg.RSTC_PARTIAL_STATUS_STRIP_BUSY) s then resetLog d 9 true
  else
    let d := setPart (setPart (injectDisarm (stripClear d s)) Reg.RSTC_PARTIAL_STATUS_STRIP_BUSY s true) Reg.RSTC_PARTIAL_STATUS_STRIP_HELD s hold
    let d := setHeldIsland d (8 + s) true
    { d with rst := { d.rst with autoStrips := setBits d.rst.autoStrips s 1 (b2n !hold) } }

def partAcre (hold : Bool) (d : Dev) (a : Nat) : Dev :=
  if devReset d ∨ bit (partF d Reg.RSTC_PARTIAL_STATUS_ACRE_BUSY) a then resetLog d 10 true
  else
    let d := setPart (setPart (injectDisarm (acreClear d a)) Reg.RSTC_PARTIAL_STATUS_ACRE_BUSY a true) Reg.RSTC_PARTIAL_STATUS_ACRE_HELD a hold
    let d := setHeldIsland d (4 + a) true
    { d with rst := { d.rst with autoAcres := setBits d.rst.autoAcres a 1 (b2n !hold) } }

/-- A RELEASE bit: a held unit is released now, or when its reset ends. -/
def stripUnhold (d : Dev) (s : Nat) : Dev :=
  if ¬ bit (partF d Reg.RSTC_PARTIAL_STATUS_STRIP_HELD) s then d
  else if bit (partF d Reg.RSTC_PARTIAL_STATUS_STRIP_BUSY) s then
    let d := setPart d Reg.RSTC_PARTIAL_STATUS_STRIP_HELD s false
    { d with rst := { d.rst with autoStrips := setBits d.rst.autoStrips s 1 1 } }
  else stripOut d s

def acreUnhold (d : Dev) (a : Nat) : Dev :=
  if ¬ bit (partF d Reg.RSTC_PARTIAL_STATUS_ACRE_HELD) a then d
  else if bit (partF d Reg.RSTC_PARTIAL_STATUS_ACRE_BUSY) a then
    let d := setPart d Reg.RSTC_PARTIAL_STATUS_ACRE_HELD a false
    { d with rst := { d.rst with autoAcres := setBits d.rst.autoAcres a 1 1 } }
  else acreOut d a

/-- The units that a mask names. -/
def maskBits (n m : Nat) : List Nat := (List.range n).filter (bit m)

/-- A write of RSTC_PARTIAL; none when it names an absent unit (R3). Releases act first, then holds, then resets. -/
def partialWrite (d : Dev) (v : W64) : Option Dev :=
  let strips := getF v Reg.RSTC_PARTIAL_STRIP_RELEASE ||| getF v Reg.RSTC_PARTIAL_STRIP_HOLD ||| getF v Reg.RSTC_PARTIAL_STRIP_RESET
  let acres := getF v Reg.RSTC_PARTIAL_ACRE_RELEASE ||| getF v Reg.RSTC_PARTIAL_ACRE_HOLD ||| getF v Reg.RSTC_PARTIAL_ACRE_RESET
  if 2 ^ stripCount d ≤ strips ∨ 2 ^ acreCount d ≤ acres then none
  else
    let d := (maskBits 8 (getF v Reg.RSTC_PARTIAL_STRIP_RELEASE)).foldl stripUnhold d
    let d := (maskBits 4 (getF v Reg.RSTC_PARTIAL_ACRE_RELEASE)).foldl acreUnhold d
    let d := (maskBits 8 (getF v Reg.RSTC_PARTIAL_STRIP_HOLD)).foldl (partStrip true) d
    let d := (maskBits 4 (getF v Reg.RSTC_PARTIAL_ACRE_HOLD)).foldl (partAcre true) d
    let d := (maskBits 8 (getF v Reg.RSTC_PARTIAL_STRIP_RESET)).foldl (partStrip false) d
    some ((maskBits 4 (getF v Reg.RSTC_PARTIAL_ACRE_RESET)).foldl (partAcre false) d)

/-- A partial reset completes: of acre i, or of strip i. -/
def partialDone (acre : Bool) (i : Nat) (d : Dev) : Dev :=
  if acre then
    if ¬ bit (partF d Reg.RSTC_PARTIAL_STATUS_ACRE_BUSY) i then d
    else
      let d := setPart d Reg.RSTC_PARTIAL_STATUS_ACRE_BUSY i false
      if bit d.rst.autoAcres i then acreOut { d with rst := { d.rst with autoAcres := setBits d.rst.autoAcres i 1 0 } } i else d
  else
    if ¬ bit (partF d Reg.RSTC_PARTIAL_STATUS_STRIP_BUSY) i then d
    else
      let d := setPart d Reg.RSTC_PARTIAL_STATUS_STRIP_BUSY i false
      if bit d.rst.autoStrips i then stripOut { d with rst := { d.rst with autoStrips := setBits d.rst.autoStrips i 1 0 } } i else d

end Sys2Proof.Machine
end

