-- ==== Sys2Proof/Machine/Ladder.lean ====
section
/-!
DEFINITION. The escalation ladder (R430 to R434) and clearing (R436).
-/
namespace Sys2Proof.Machine

/-! The ladder. -/

/-- The unit that step 1 isolates for a source: strip s (false) or acre a (true); none when the scope is the device (R438). -/
def isolationScope (src : Nat) : Option (Bool × Nat) :=
  let c := src / 256
  let i := src % 256
  if c = 1 then some (false, i)
  else if c = 2 then some (true, i / 32)
  else if c = 3 ∨ c = 6 ∨ c = 7 then some (true, i)
  else if c = 5 then some (true, i / 64)
  else if c = 9 ∧ i < 8 then some (false, i)
  else if c = 9 ∧ 8 ≤ i ∧ i < 12 then some (true, i - 8)
  else none

/-- Whether an entry's source and kind took step 3 before a release less than a second ago (R432). -/
def loops (d : Dev) (e : Nat) : Bool :=
  d.flt.stepped.any fun x =>
    x.1 == act d e Reg.FAULT_ACTIVE_SOURCE && x.2.1 == act d e Reg.FAULT_ACTIVE_KIND && x.2.2 != 0 && decide (d.time ≤ x.2.2 + 1000000000)

/-- Whether a step is enabled and applies to an entry. -/
def stepApplies (d : Dev) (e n : Nat) : Bool :=
  bit (rdF d Reg.FAULT_LADDER Reg.FAULT_LADDER_STEPS) (n - 1) &&
    (if n = 1 then (isolationScope (act d e Reg.FAULT_ACTIVE_SOURCE)).isSome
     else if n = 2 then !d.flt.portHold
     else if n = 3 then !loops d e
     else true)

/-- Every port is held DOWN, and the peer is told (step 2). -/
def ladderHold (d : Dev) : Dev :=
  let d := (List.range (portCount d)).foldl (fun d p => if portState d p = 7 then d else portDown d p) d
  let d := { d with flt := { d.flt with portHold := true } }
  if pairState d = 3 ∨ pairState d = 4 then sayGoodbye d else d

/-- The action of a step. -/
def stepAct (d : Dev) (e n : Nat) : Dev :=
  let src := act d e Reg.FAULT_ACTIVE_SOURCE
  let kind := act d e Reg.FAULT_ACTIVE_KIND
  if n = 1 then
    match isolationScope src with
    | some (true, a) => partAcre true d a
    | some (false, s) => partStrip true d s
    | none => d
  else if n = 2 then ladderHold d
  else if n = 3 then
    let o := Reg.FAULT_ESC_STATUS
    let d := wrFs (bumpSat d o Reg.FAULT_ESC_STATUS_RESETS 1) o [(Reg.FAULT_ESC_STATUS_SOURCE, src), (Reg.FAULT_ESC_STATUS_KIND, kind),
      (Reg.FAULT_ESC_STATUS_LOOP, 0)]
    let rest := d.flt.stepped.filter fun x => ¬ (x.1 = src ∧ x.2.1 = kind)
    warmReset 7 { d with flt := { d.flt with stepped := rest ++ [(src, kind, 0)] } }
  else setPin { d with flt := { d.flt with lockedBy := e } } [(Reg.FAULT_PIN_HOLD, 1), (Reg.FAULT_PIN_LOCKED, 1)]

/-- The deadline of an entry passes: its next step is taken. The answer says whether it was step 3. -/
def ladderTake (d : Dev) (e : Nat) : Bool × Dev :=
  let from_ := act d e Reg.FAULT_ACTIVE_STEP
  let next := (List.range (4 - from_)).map fun i => from_ + 1 + i
  let en3 := bit (rdF d Reg.FAULT_LADDER Reg.FAULT_LADDER_STEPS) 2
  let pick := next.find? (stepApplies d e)
  let d := if from_ < 3 ∧ en3 ∧ loops d e ∧ (pick = some 4 ∨ pick = none) then wrF d Reg.FAULT_ESC_STATUS Reg.FAULT_ESC_STATUS_LOOP 1 else d
  match pick with
  | none => (false, wr d (Reg.FAULT_ACTIVE e 3) 0)
  | some n =>
    let d := setAct d e [(Reg.FAULT_ACTIVE_STEP, n)]
    let d := wr d (Reg.FAULT_ACTIVE e 3) (BitVec.ofNat 64 (if n = 4 then 0 else nextDeadline d))
    let d := pulse (msi (wrF d Reg.FAULT_ESC_STATUS Reg.FAULT_ESC_STATUS_LAST_STEP n) 148)
    (n == 3, stepAct d e n)

/-- Whether entry x comes before entry y in the order of R422. -/
def entBefore (d : Dev) (x y : Nat) : Bool :=
  let sx := act d x Reg.FAULT_ACTIVE_SEVERITY
  let sy := act d y Reg.FAULT_ACTIVE_SEVERITY
  decide (sy < sx ∨ (sx = sy ∧ act d x Reg.FAULT_ACTIVE_SOURCE ≤ act d y Reg.FAULT_ACTIVE_SOURCE))
def entInsert (d : Dev) (e : Nat) : List Nat → List Nat
  | [] => [e]
  | x :: t => if entBefore d e x then e :: x :: t else x :: entInsert d e t

/-- Steps in order; a step 3 ends the cycle's work (R434). -/
def ladderRun : List Nat → Dev → Dev
  | [], d => d
  | e :: t, d =>
    let (stop, d) := ladderTake d e
    if stop then d else ladderRun t d

/-- The deadlines of some entries pass in one collector cycle. -/
def ladderStep (es : List Nat) (d : Dev) : Dev :=
  if devReset d then d
  else
    let due := (es.eraseDups).filter fun e => decide (e < 256) && actValid d e && deadline d e != 0
    faultSummary (ladderRun (due.foldr (entInsert d) []) d)

/-! Clearing (R436, R433). -/

/-- No active entry has STEP 2 or higher any more: the port hold and HANDED end. -/
def holdEnd (d : Dev) : Dev :=
  if ¬ d.flt.portHold ∨ ((actives d).any fun e => decide (2 ≤ act d e Reg.FAULT_ACTIVE_STEP)) then d
  else
    let d := { d with flt := { d.flt with portHold := false } }
    let d := (List.range (portCount d)).foldl (fun d p =>
      if modeF d p Reg.PORT_MODE_ENABLE = 1 ∧ portState d p = 0 then portStart d p else d) d
    if pairState d = 6 then pairResume d else d

/-- One entry is removed, or its clear is refused; the counts of both go on. -/
def clearOne (x : Nat × Nat × Dev) (e : Nat) : Nat × Nat × Dev :=
  let (c, r, d) := x
  if ¬ actValid d e then x
  else if causePresent d e then (c, r + 1, setAct d e [(Reg.FAULT_ACTIVE_REFUSED, 1)])
  else
    let d := (List.range 4).foldl (fun d v => wr d (Reg.FAULT_ACTIVE e v) 0) d
    let d := if d.flt.lockedBy = e then setPin { d with flt := { d.flt with lockedBy := 256 } } [(Reg.FAULT_PIN_LOCKED, 0)] else d
    (c + 1, r, d)

/-- A write of FAULT_CLEAR. -/
def faultClear (v : W64) (d : Dev) : Dev :=
  let d := if getF v Reg.FAULT_CLEAR_FIRST = 1 then
      wr (wr (wr d Reg.FAULT_FIRST_SRC 0) Reg.FAULT_FIRST_ADDR 0) Reg.FAULT_FIRST_TIME 0 else d
  let all := getF v Reg.FAULT_CLEAR_ALL = 1
  let es := if all then actives d else if getF v Reg.FAULT_CLEAR_ONE = 1 then [getF v Reg.FAULT_CLEAR_ENTRY] else []
  let (c, r, d) := es.foldl clearOne (0, 0, d)
  let d := wrFs d Reg.FAULT_STATUS [(Reg.FAULT_STATUS_CLEARED, min c 255), (Reg.FAULT_STATUS_REFUSED, min r 255)]
  faultSummary (holdEnd (if 0 < r then msi d 149 else d))

/-! FAULT_PIN (R435). -/

/-- A write of FAULT_PIN: none while LOCKED forbids HOLD := 0. -/
def faultPinWrite (d : Dev) (v : W64) : Option Dev :=
  if flagF d Reg.FAULT_PIN Reg.FAULT_PIN_LOCKED ∧ getF v Reg.FAULT_PIN_HOLD = 0 then none
  else
    let d := setPin d [(Reg.FAULT_PIN_HOLD, getF v Reg.FAULT_PIN_HOLD), (Reg.FAULT_PIN_PULSE_SEV, getF v Reg.FAULT_PIN_PULSE_SEV),
      (Reg.FAULT_PIN_PULSE_US, getF v Reg.FAULT_PIN_PULSE_US)]
    some (if getF v Reg.FAULT_PIN_TEST = 1 then pulse d else d)

end Sys2Proof.Machine
end

