-- ==== Sys2Proof/Machine/Spim.lean ====
section
/-!
DEFINITION. The SPI master (R497, R500): transactions of SPIM_CMD with the boot flash.
-/
namespace Sys2Proof.Machine

def spimF (d : Dev) (f : Fld) : Nat := rdF d Reg.SPIM_CMD f

/-- The 256 bytes of SPIM_DATA. -/
def spimData (d : Dev) : List Byte := (List.range 32).flatMap fun i => leBytes 8 (rd d (Reg.SPIM_DATA i)).toNat

/-- SPIM_DATA with its first bytes replaced. -/
def setSpimData (d : Dev) (bs : List Byte) : Dev :=
  let l := bs ++ (spimData d).drop bs.length
  (List.range 32).foldl (fun d i => wr d (Reg.SPIM_DATA i) (BitVec.ofNat 64 (leNat ((l.drop (8 * i)).take 8)))) d

/-- n bytes that nothing states. -/
def freeBytes (d : Dev) (n : Nat) : List Byte × Dev :=
  let (v, d) := takeFree d 2048
  (leBytes n v.toNat, d)

/-- A transaction ends: BUSY falls with a RESULT, and its completion is posted. -/
def spimEnd (d : Dev) (result : Nat) : Dev :=
  postDoneFree (wrFs d Reg.SPIM_STATUS [(Reg.SPIM_STATUS_RESULT, result), (Reg.SPIM_STATUS_BUSY, 0)]) 11 Reg.SPIM_STATUS

/-- The flash address that a transaction sends; code 0b11 of ADDR_BYTES sends four bytes (assumption 31). -/
def spimAddr (d : Dev) : Nat := if spimF d Reg.SPIM_CMD_ADDR_BYTES = 3 then spimF d Reg.SPIM_CMD_ADDR else 0

/-- The opcodes of the flash that read its array, and those that erase, with the bytes they erase (assumption 30). -/
def flashReads (op : Nat) : Bool := op == 0x6C || op == 0x13 || op == 0x0C
def flashErase (op : Nat) : Nat :=
  if op = 0x21 then 4096 else if op = 0xDC then 65536 else if op = 0xC7 ∨ op = 0x60 then 2 ^ 32 else 0

/-- What a transaction does in the flash: write enable, page program, erase (assumption 30). -/
def flashAct (m : Mem) (d : Dev) : Dev :=
  let op := spimF d Reg.SPIM_CMD_OPCODE
  let wel := fun (d : Dev) (b : Bool) => { d with host := { d.host with flashWel := b } }
  let a := spimAddr d
  if op = 0x06 then wel d true
  else if op = 0x04 then wel d false
  else if ¬ d.host.flashWel then d
  else if op = 0x12 then
    let bs := (spimData d).take (spimF d Reg.SPIM_CMD_WLEN)
    (List.range bs.length).foldl (fun d i =>
      let q := a / 256 * 256 + (a + i) % 256
      memWrite d spFlash q [bs.getD i 0 &&& memGet spFlash m.flash q]) (wel d false)
  else if flashErase op = 0 then d
  else
    let n := flashErase op
    (m.flash.filter fun e => e.1 / n == a / n).foldl (fun d e => memWrite d spFlash e.1 [0xFF]) (wel d false)

/-- The transaction in progress completes. -/
def spimDone (m : Mem) (d : Dev) : Dev :=
  let n := spimF d Reg.SPIM_CMD_RLEN
  let d := flashAct m d
  let (bs, d) := if flashReads (spimF d Reg.SPIM_CMD_OPCODE) then (memRead spFlash m.flash (spimAddr d) n, d) else freeBytes d n
  spimEnd (setSpimData d bs) 0

/-- A higher-ranked user cuts off the transaction in progress (R497): what it had read and written is a free value. -/
def spimCut (d : Dev) : Dev :=
  if ¬ flagF d Reg.SPIM_STATUS Reg.SPIM_STATUS_BUSY then d
  else
    let (bs, d) := freeBytes d (spimF d Reg.SPIM_CMD_RLEN)
    let (d : Dev) := if spimF d Reg.SPIM_CMD_OPCODE = 0x12 ∧ d.host.flashWel then
        let (ws, d) := freeBytes d (spimF d Reg.SPIM_CMD_WLEN)
        memWrite d spFlash (spimAddr d) ws
      else d
    spimEnd (setSpimData d bs) 1

/-- A write of SPIM_CMD, and whether it is accepted: not while a transaction runs, while the boot ROM reads, or with a reserved
ADDR_BYTES. During a record write it is cut off at once. -/
def spimWrite (d : Dev) (agent : Nat) (v : W64) : Bool × Dev :=
  let st := rdF d Reg.BOOT_STATUS Reg.BOOT_STATUS_STAGE
  let ab := getF v Reg.SPIM_CMD_ADDR_BYTES
  if flagF d Reg.SPIM_STATUS Reg.SPIM_STATUS_BUSY ∨ st = 1 ∨ st = 2 ∨ ab = 1 ∨ ab = 2 then
    (false, wrF d Reg.SPIM_STATUS Reg.SPIM_STATUS_RESULT 2)
  else
    let d := startedBy (wrF (wr d Reg.SPIM_CMD v) Reg.SPIM_STATUS Reg.SPIM_STATUS_BUSY 1) 11 agent
    (true, if d.rst.lb.isSome then spimCut d else d)

end Sys2Proof.Machine
end

