-- ==== Sys2Proof/Machine/Power.lean ====
section
/-!
DEFINITION. The always-on island (R442, R443, R449 to R451, R460 to R467, R518, R524): references, device time, comparators, fallow and
its wake sources, the service-processor watchdog, and last-breath persistence.
-/
namespace Sys2Proof.Machine

/-! Fallow (R460, R461). -/

/-- The device enters fallow: a cold reset of every island but the always-on island, which then stay off. -/
def fallowStart (d : Dev) : Dev :=
  let d := coldClear d
  pinSettle { d with rst := { d.rst with fallow := true } }

/-- A write of AON_FALLOW; none without the key. -/
def fallowWrite (d : Dev) (v : W64) : Option Dev :=
  if getF v Reg.AON_FALLOW_KEY ≠ 0xA5 then none
  else some (if getF v Reg.AON_FALLOW_ENTER = 1 ∧ ¬ d.rst.fallow then fallowStart d else d)

/-- Wake source n of R461 occurs. -/
def wake (n : Nat) (d : Dev) : Dev :=
  if d.rst.fallow ∧ bit (rdF d Reg.AON_WAKE Reg.AON_WAKE_ENABLE) n then coldReset 3 d else d

/-- Device time reaches AON_ALARM: ALARM_OUT, and wake source 1 (R461, R518). -/
def alarmReached (d : Dev) : Dev := wake 1 { d with rst := { d.rst with alarm := true } }

/-! Comparator conditions (R462). -/

def setPresent (d : Dev) (n : Nat) (v : Bool) : Dev :=
  wrF d Reg.AON_COMP_STATUS Reg.AON_COMP_STATUS_PRESENT (setBits (rdF d Reg.AON_COMP_STATUS Reg.AON_COMP_STATUS_PRESENT) n 1 (b2n v))

/-- A condition of comparator n begins: its fault is raised, unless it is present already. -/
def compBegin (k : FaultKind) (n : Nat) (d : Dev) : Dev :=
  if condPresent d k n then d else setPresent (raise d k n 0 0 0) n true

/-- A condition of comparator n ends; the comparator's last condition to end may wake the device. -/
def compEnd (k : FaultKind) (n : Nat) (d : Dev) : Dev :=
  if ¬ condPresent d k n then d
  else
    let d := endCond d k n
    if n = 1 ∧ (condPresent d Fk.dieTempHigh 1 ∨ condPresent d Fk.dieTempCrit 1) then d
    else
      let d := setPresent d n false
      if bit (rdF d Reg.AON_COMP_CFG Reg.AON_COMP_CFG_WAKE_MASK) n then wake 3 d else d

/-- A reading is outside its valid range, or a SENSOR injection makes it so. -/
def badReading (d : Dev) (n : Nat) (bad : Bool) : Bool × Dev :=
  let (j, d) := injectAt d 8 (256 * 13 + n) 0
  if bad ∨ j ≠ 0 then (true, raise d Fk.sensorRange n 0 0 0) else (false, d)

/-- A rail leaves its window: every island but the always-on island is held in reset (R521). -/
def supplyWindow (d : Dev) : Dev :=
  if condPresent d Fk.supplyWindow 0 then d
  else
    let src := rdF d Reg.RSTC_SOURCE Reg.RSTC_SOURCE_SOURCE
    let fallow := d.rst.fallow
    let d := coldClear d
    let d := wrF { d with rst := { d.rst with fallow := fallow } } Reg.RSTC_SOURCE Reg.RSTC_SOURCE_SOURCE src
    compBegin Fk.supplyWindow 0 (pinSettle d)

def supplyInWindow (d : Dev) : Dev := compEnd Fk.supplyWindow 0 d

/-- Two samples above a level begin its condition, two at least 5 °C below it end it. -/
def tempLevel (k : FaultKind) (level : Nat) (t0 t : Int) (d : Dev) : Dev :=
  if (level : Int) < t0 ∧ (level : Int) < t then compBegin k 1 d
  else if t0 + 5 ≤ level ∧ t + 5 ≤ level then compEnd k 1 d
  else d

/-- A sample of the hottest die sensor, °C. -/
def dieTempSample (t : Int) (d : Dev) : Dev :=
  let (bad, d) := badReading d 1 (decide (t < -40 ∨ 150 < t))
  if bad then d
  else
    let old := d.rst.temp
    let d := { d with rst := { d.rst with temp := some t } }
    match old with
    | none => d
    | some t0 =>
      tempLevel Fk.dieTempCrit (rdF d Reg.AON_COMP_CFG Reg.AON_COMP_CFG_CRIT_C) t0 t
        (tempLevel Fk.dieTempHigh (rdF d Reg.AON_COMP_CFG Reg.AON_COMP_CFG_HIGH_C) t0 t d)

/-- AON_XTAL stops, or runs again (R451). -/
def xtalFail (d : Dev) : Dev := compBegin Fk.xtalFail 4 d
def xtalRunning (d : Dev) : Dev := compEnd Fk.xtalFail 4 d

/-! References and device time (R442, R443, R449, R524). -/

/-- Device time steps. -/
def timeSet (d : Dev) (t : Nat) : Dev :=
  { d with time := t, rst := { d.rst with ppsAt := d.rst.ppsAt.map fun x => x + t - d.time } }

/-- A write of AON_TIME_SET; none while a holding is open. -/
def timeSetWrite (d : Dev) (v : W64) : Option Dev := if anyHoldingOpen d then none else some (timeSet d v.toNat)

/-- A PPS_IN edge. -/
def ppsEdge (d : Dev) : Dev :=
  let ok : Bool := match d.rst.ppsAt with
    | none => true
    | some t => decide (999900000 ≤ (d.time : Int) - t ∧ (d.time : Int) - t ≤ 1000100000)
  if ¬ ok then bumpSat d Reg.AON_DISC_STATUS Reg.AON_DISC_STATUS_PPS_DISCARDED 1
  else
    let back := condPresent d Fk.ppsLost 3
    let d := wr { d with rst := { d.rst with ppsAt := some d.time } } Reg.AON_PPS_TIME (BitVec.ofNat 64 d.time)
    let d := compEnd Fk.ppsLost 3 d
    if back then wake 2 d else d

/-- No accepted edge for 1.5 s; the next edge counts as the first. -/
def ppsLost (d : Dev) : Dev := compBegin Fk.ppsLost 3 { d with rst := { d.rst with ppsAt := none } }

/-- PTP_10M is lost, or present again. -/
def ptpLoss (d : Dev) : Dev :=
  if flagF d Reg.AON_DISC_STATUS Reg.AON_DISC_STATUS_REF_PRESENT then
    wrFs d Reg.AON_DISC_STATUS [(Reg.AON_DISC_STATUS_REF_PRESENT, 0), (Reg.AON_DISC_STATUS_SRC, 0), (Reg.AON_DISC_STATUS_HOLDOVER, 1)]
  else d
def ptpPresent (d : Dev) : Dev :=
  wrFs d Reg.AON_DISC_STATUS [(Reg.AON_DISC_STATUS_REF_PRESENT, 1), (Reg.AON_DISC_STATUS_SRC, 1), (Reg.AON_DISC_STATUS_HOLDOVER, 0)]

/-- The strip PLLs run from one reference: REFCLK_B when `b`. -/
def stripRefs (d : Dev) (b : Bool) : Dev := wrF d Reg.CLK_STATUS Reg.CLK_STATUS_STRIP_REF (if b then 2 ^ stripCount d - 1 else 0)

/-- Islands that run from a PLL and are out of reset. -/
def runningIslands (d : Dev) : List Nat := (List.range 16).filter fun i => sourceExists d i && !bit d.rst.held i

/-- A reference clock is lost: REFCLK_B when `b`. The PLLs change to the other one; when both are lost, the islands stop. -/
def refLoss (b : Bool) (d : Dev) : Dev :=
  let d := { d with rst := if b then { d.rst with refB := false } else { d.rst with refA := false } }
  if d.rst.refA ∨ d.rst.refB then stripRefs d d.rst.refB
  else
    let d := (runningIslands d).foldl (fun d i => raise d Fk.clockLoss i 0 0 0) d
    (List.range 8).foldl (fun d s => pllUnlock s d)
      (wrF d Reg.CLK_STATUS Reg.CLK_STATUS_LOCKED (rdF d Reg.CLK_STATUS Reg.CLK_STATUS_LOCKED &&& 2 ^ 16))

/-- A reference clock is present again; islands that had stopped lock to it. -/
def refPresent (b : Bool) (d : Dev) : Dev :=
  let none_ := !d.rst.refA && !d.rst.refB
  let d := { d with rst := if b then { d.rst with refB := true } else { d.rst with refA := true } }
  if none_ then
    let run := runningIslands d
    let d := run.foldl (fun d i => endCond d Fk.clockLoss i) (stripRefs d b)
    wrF d Reg.CLK_STATUS Reg.CLK_STATUS_LOCKED (run.foldl (fun v i => setBits v i 1 1) (rdF d Reg.CLK_STATUS Reg.CLK_STATUS_LOCKED))
  else d

/-! The service-processor watchdog (R463). -/

/-- A write of SP_WD; a pending WATCHDOG injection suppresses one kick. -/
def spWdWrite (d : Dev) (v : W64) : Dev :=
  let d := wrF d Reg.SP_WD Reg.SP_WD_PERIOD_MS (getF v Reg.SP_WD_PERIOD_MS)
  if getF v Reg.SP_WD_KICK = 1 then (injectAt d 7 (256 * 14) 0).2 else d

/-- The watchdog expires. -/
def spWatchdog (d : Dev) : Dev :=
  if ctlReset d then d
  else
    let d := raise d Fk.watchdog 0 0 0 0
    warmReset 6 { d with pair := { d.pair with aliveStop := true } }

/-! Last-breath persistence (R464 to R467). -/

def holdF (d : Dev) (f : Fld) : Nat := rdF d Reg.AON_HOLDUP_CFG f
def lbF (d : Dev) (f : Fld) : Nat := rdF d Reg.AON_LB_STATUS f
def armed (d : Dev) : Bool := flagF d Reg.AON_HOLDUP_STATUS Reg.AON_HOLDUP_STATUS_ARMED

/-- The arming conditions are evaluated with the last valid reading (R465). The energy is C V^2 / 2: with C in µF and V in mV,
0.3125 J is 625 * 10^9. -/
def holdupCheck (d : Dev) : Dev :=
  let v := rdF d Reg.AON_HOLDUP_STATUS Reg.AON_HOLDUP_STATUS_V_MV
  let cv2 := holdF d Reg.AON_HOLDUP_CFG_CAP_UF * v * v
  let c1 : Bool := holdF d Reg.AON_HOLDUP_CFG_ARM_EN == 1
  let c2 : Bool := d.rst.senseOk && decide (holdF d Reg.AON_HOLDUP_CFG_MIN_MV ≤ v)
  let c3 : Bool := decide (625000000000 ≤ cv2)
  let c4 : Bool := lbF d Reg.AON_LB_STATUS_ERASED != 0
  let ok := c1 && c2 && c3 && c4
  let d := wrFs d Reg.AON_HOLDUP_STATUS [(Reg.AON_HOLDUP_STATUS_ARMED, b2n ok),
    (Reg.AON_HOLDUP_STATUS_FAILED, b2n (!c1) + 2 * b2n (!c2) + 4 * b2n (!c3) + 8 * b2n (!c4)),
    (Reg.AON_HOLDUP_STATUS_E_MJ, min (cv2 / 2000000000) (2 ^ 32 - 1))]
  if ok then compEnd Fk.holdupDisarmed 2 d else compBegin Fk.holdupDisarmed 2 d

/-- The evaluation of each second, with a HOLDUP_SENSE reading in mV. -/
def holdupEvaluate (v : Nat) (d : Dev) : Dev :=
  let (bad, d) := badReading d 2 (decide (60000 < v))
  let d := if bad then d else wrF d Reg.AON_HOLDUP_STATUS Reg.AON_HOLDUP_STATUS_V_MV v
  holdupCheck { d with rst := { d.rst with senseOk := !bad } }

/-- A write of AON_HOLDUP_CFG; none when PF_MV does not exceed MIN_MV. -/
def holdupWrite (d : Dev) (v : W64) : Option Dev :=
  if getF v Reg.AON_HOLDUP_CFG_PF_MV ≤ getF v Reg.AON_HOLDUP_CFG_MIN_MV then none
  else some (holdupCheck (wr d Reg.AON_HOLDUP_CFG v))

/-- Flash address of a record slot. -/
def lbSlot (d : Dev) (s : Nat) : Nat := rdF d Reg.AON_LB_CFG Reg.AON_LB_CFG_BASE + 0x4000 * s

/-- A record slot is read, and marked erased when every byte reads 0xFF (R466). -/
def lbVerify (s : Nat) (m : Mem) (d : Dev) : Dev :=
  let a := lbSlot d s
  if m.flash.any fun e => decide (a ≤ e.1 ∧ e.1 < a + 0x4000) && e.2 != 0xFF then d
  else wrF d Reg.AON_LB_STATUS Reg.AON_LB_STATUS_ERASED (setBits (lbF d Reg.AON_LB_STATUS_ERASED) s 1 1)

/-- The image in always-on SRAM; before its first refresh its content is a free value. -/
def lbImage (d : Dev) : List W64 × Dev :=
  if d.rst.image.length = 2048 then (d.rst.image, d)
  else
    let (v, d) := takeFree d 131072
    ((List.range 2048).map fun i => BitVec.ofNat 64 (bits v.toNat (64 * i) 64), d)

/-- The 16 KiB of a record: the image with its cause, sequence number, time and reading, and its CRC. -/
def lbRecord (img : List W64) (cause seq time mv : Nat) : List Byte :=
  let w0 := BitVec.ofNat 64 (setBits (img.getD 0 0).toNat 48 16 cause)
  let ws := (((img.set 0 w0).set 1 (BitVec.ofNat 64 seq)).set 2 (BitVec.ofNat 64 time)).set 4 (BitVec.ofNat 64 mv)
  let bs := (ws.flatMap fun w => leBytes 8 w.toNat).take 0x3FFC
  bs ++ leBytes 4 (crc32c 0xFFFFFFFF bs)

/-- A record write starts, when persistence is armed: into the lower-numbered erased slot (R467). -/
def lbStart (cause mv : Nat) (d : Dev) : Dev :=
  match firstIdx 2 fun s => bit (lbF d Reg.AON_LB_STATUS_ERASED) s with
  | some s =>
    if armed d ∧ d.rst.lb = none then
      let (img, d) := lbImage (spimCut d)
      let bs := lbRecord img cause (lbF d Reg.AON_LB_STATUS_WRITES) d.time mv
      let d := wrFs d Reg.AON_LB_STATUS [(Reg.AON_LB_STATUS_ERASED, setBits (lbF d Reg.AON_LB_STATUS_ERASED) s 1 0), (Reg.AON_LB_STATUS_BUSY, 1)]
      { d with rst := { d.rst with lb := some (s, bs) } }
    else d
  | none => d

/-- HOLDUP_SENSE has stayed below PF_MV for 2 µs, with a reading in mV (R467). -/
def powerFail (mv : Nat) (d : Dev) : Dev :=
  if holdF d Reg.AON_HOLDUP_CFG_PF_MV ≤ mv then d
  else lbStart 1 mv (if d.rst.fallow then d else fallowStart d)

/-- The record write ends after some of its 64 pages: programming clears bits of the slot. -/
def lbDone (pages : Nat) (m : Mem) (d : Dev) : Dev :=
  match d.rst.lb with
  | none => d
  | some (s, bs) =>
    let a := lbSlot d s
    let out := bs.take (256 * pages)
    let d := memWrite { d with rst := { d.rst with lb := none } } spFlash a (List.zipWith (· &&& ·) out (memRead spFlash m.flash a out.length))
    let d := wrFs d Reg.AON_LB_STATUS [(Reg.AON_LB_STATUS_BUSY, 0), (Reg.AON_LB_STATUS_LAST_CUT, b2n (decide (pages < 64)))]
    if pages < 64 then d else bumpWrap d Reg.AON_LB_STATUS Reg.AON_LB_STATUS_WRITES 1

end Sys2Proof.Machine
end

