-- ==== Sys2Proof/Machine/RegView.lean ====
section
/-!
DEFINITION. Reads of registers (R472, R478, R479, R482): the value that each offset shows to an agent, and the clearing read.
-/
namespace Sys2Proof.Machine

/-! Which islands an access reaches (R475, R534). -/

/-- The acres that a write to the ASSOC block reaches. -/
def assocAcres (d : Dev) (off : Nat) (v : W64) : List Nat :=
  let every := List.range (acreCount d)
  let part := flagF d Reg.ASSOC_CFG Reg.ASSOC_CFG_MODE
  if off = Reg.ASSOC_CMD then
    let op := getF v Reg.ASSOC_CMD_OP
    let a := getF v Reg.ASSOC_CMD_ACRE
    if acreCount d ≤ a ∨ op = 0 ∨ 6 ≤ op then every
    else if op = 1 ∨ op = 5 ∨ part then [a] else every
  else if Reg.SEG_MAP 0 0 ≤ off ∧ part then [(off - Reg.SEG_MAP 0 0) / 0x800] else every

/-- The islands that a write of an offset reaches, lowest first; none for the control island, whose writes are not posted. -/
def islandsOf (d : Dev) (off : Nat) (v : W64) : List Nat :=
  let k := off / 0x100000
  if k = 3 then [16]
  else if 8 ≤ k ∧ k < 16 then [k]
  else if 16 ≤ k ∧ k < 20 then [k - 12]
  else if k = 20 then (if off % 0x20000 < 0x10000 then [4 + off % 0x100000 / 0x20000] else [2])
  else if k = 21 then [1]
  else if k = 22 then (assocAcres d off v).map (· + 4)
  else if 23 ≤ k ∧ k ≤ 25 then [2]
  else if k = 27 then [3]
  else if 32 ≤ k then [4]
  else []

/-- Whether an island is in reset or fallow, or has stopped (R449). -/
def islandOff (d : Dev) (i : Nat) : Bool := i != 16 && (bit d.rst.held i || clocksLost d)

/-- Whether an offset lies in a block or sub-block of an absent unit (R2). -/
def unitAbsent (d : Dev) (off : Nat) : Bool :=
  let k := off / 0x100000
  (decide (8 ≤ k ∧ k < 16) && decide (8 + stripCount d ≤ k)) || (decide (16 ≤ k ∧ k < 20) && decide (16 + acreCount d ≤ k))
    || (k == 20 && decide (acreCount d ≤ off % 0x80000 / 0x20000))

/-- Whether entry i of a register array belongs to an absent port, acre, cipher engine or stack: it reads as zero and ignores
writes (R2, R213, R240, R305, R336, R390). -/
def indexAbsent (d : Dev) (b i : Nat) : Bool :=
  ((b == Reg.PFC_CFG 0 0 || b == Reg.HL_PORT 0 || b == Reg.PP_STATUS 0 0 || b == Reg.PORT_CFG 0 || b == Reg.SAMPLE 0
      || b == Reg.AGG_PORT 0 0 || b == Reg.AGG_PORT 0 1) && decide (portCount d ≤ i))
    || ((b == Reg.SEG_MAP 0 0 || b == Reg.ASSOC_CNT 0 0 || b == Reg.FREE_STATUS 0 || b == Reg.ACRE_MOVE_STATUS 0
      || b == Reg.POOL_USE 0 0 || b == Reg.FABRIC_CNT 0 0) && decide (acreCount d ≤ i))
    || ((b == Reg.ENG_STATUS 0 || b == Reg.ENG_CNT 0 0) && !engPresent d i)
    || ((b == Reg.RANK_STATE 0 0 0 || b == Reg.STACK_TEMP 0 || b == Reg.DEEP_MIG_STATUS 0) && decide (stackCount d ≤ i))

/-! Computed registers. -/

def countLoc (x : Furrow) (p : Loc → Bool) : Nat := ((furPkts x).filter fun q => p q.2.loc).length

/-- FURROW_STATUS (R80). -/
def furrowStatus (d : Dev) (a f : Nat) : W64 :=
  let x := getFur d a f
  mkWord [(Reg.FURROW_STATUS_EXIT_HELD, min 255 (countLoc x fun l => l == .exitHold)),
    (Reg.FURROW_STATUS_PARKED, countLoc x fun l => match l with | .park .. => true | .wokenWait .. => true | _ => false),
    (Reg.FURROW_STATUS_IN_ROWS, countLoc x fun l => match l with | .row .. => true | _ => false)]

/-- The kind of the quiesce that is in progress in an acre (R63); 0 for none. Of several, the one that R80 numbers lowest (DESIGN
CHOICE, log entry 141). -/
def quiesceKind (d : Dev) (a : Nat) : Nat :=
  if profilePending d then 1
  else if flagF d Reg.HOST_HOLDING_STATUS Reg.HOST_HOLDING_STATUS_BUSY then 2
  else if d.furs.any fun e => e.1 / 32 == a && e.2.isolating && (getAcre d a).takeoverOf != some (e.1 % 32) then 3
  else if (getAcre d a).takeoverOf.isSome then 4
  else 0

/-- QUIESCE_STATUS (R64). -/
def quiesceStatus (d : Dev) (a : Nat) : W64 :=
  let k := quiesceKind d a
  let here := d.furs.filter fun e => e.1 / 32 == a
  let held := here.foldl (fun n e => n + countLoc e.2 fun l => match l with | .park _ c => c == 65 | _ => false) 0
  let all := here.all fun e => (furPkts e.2).all fun q => quiet q.2
  mkWord [(Reg.QUIESCE_STATUS_HELD, held), (Reg.QUIESCE_STATUS_REACHED, b2n (k != 0 && all)), (Reg.QUIESCE_STATUS_KIND, k),
    (Reg.QUIESCE_STATUS_PENDING, b2n (k != 0))]

/-- FILTER[h] word w (R172). -/
def filterWord (d : Dev) (h w : Nat) : W64 :=
  let t := rdF d Reg.FILTER_SEL Reg.FILTER_SEL_TABLE
  let f := filterOf d t h
  let s := filterSel d t h * 2 ^ 63
  match tbl d t with
  | some b =>
    if b.kind = 2 then (if w = 0 then BitVec.ofNat 64 (f % 2 ^ 33 + s) else 0)
    else if b.kind = 3 then
      (if w = 0 then 0 else if w = 3 then BitVec.ofNat 64 (bits f 128 1 + s) else BitVec.ofNat 64 (bits f (64 * (w - 1)) 64))
    else 0
  | none => 0

/-- ACRE_MOVE_STATUS with its live counts. -/
def moveStatus (d : Dev) (a : Nat) : W64 :=
  let v := rd d (Reg.ACRE_MOVE_STATUS a)
  let n := inflightOf d (64 * a + getF v Reg.ACRE_MOVE_STATUS_ENTRY) (getF v Reg.ACRE_MOVE_STATUS_FROM)
  setF (setF v Reg.ACRE_MOVE_STATUS_INFLIGHT n) Reg.ACRE_MOVE_STATUS_HELD (getAcre d a).moveHold.length

/-- The words of the dump list: each offset in its order (R505). -/
def dumpOffsets (d : Dev) : List Nat :=
  (List.range 64).flatMap fun i =>
    let v := rd d (Reg.DUMP_LIST i)
    if getF v Reg.DUMP_LIST_VALID = 1 then
      (List.range (getF v Reg.DUMP_LIST_COUNT + 1)).map fun k => getF v Reg.DUMP_LIST_OFFSET + 8 * k
    else []

/-- W of the current list. -/
def dumpWords (d : Dev) : Nat :=
  (List.range 64).foldl (fun n i =>
    let v := rd d (Reg.DUMP_LIST i)
    n + if getF v Reg.DUMP_LIST_VALID = 1 then getF v Reg.DUMP_LIST_COUNT + 1 else 0) 0

/-- Bits of ISLAND_BUSY: a furrow island whose acre runs an ordered rehash (R77). -/
def islandBusy (d : Dev) : Nat := (List.range 4).foldl (fun v a => v + b2n (rehashActive d a) * 2 ^ (4 + a)) 0

/-- An event entry. -/
def evtHead (d : Dev) (f : Nat) : Option (W64 × W64 × W64 × W64) := (getEvt d f).entries.head?

/-- What a register of the map shows to an agent; `b` is the base and i, j the first indices of its array. -/
def viewAt (d : Dev) (agent off b i j : Nat) : W64 :=
  if b = Reg.FURROW_STATUS 0 0 then furrowStatus d i j
  else if b = Reg.QUIESCE_STATUS 0 then quiesceStatus d i
  else if b = Reg.HARROW_STATUS 0 then harrowStatus d i
  else if b = Reg.FILTER 0 0 then filterWord d i j
  else if b = Reg.ACRE_MOVE_STATUS 0 then moveStatus d i
  else if b = Reg.ENG_STATUS 0 then engStatus d i
  else if b = Reg.ORCHARD_STATUS then setF (rd d off) Reg.ORCHARD_STATUS_BUSY (b2n (orchardBusy d))
  else if b = Reg.PORT_CFG 0 then setF (rd d off) Reg.PORT_CFG_PATH_NS (pathNs d i)
  else if b = Reg.RIND_LOCK then setF (rd d off) Reg.RIND_LOCK_GRANTED (b2n (leaseOwner d == agent && agent != 0))
  else if b = Reg.RIND_DATA 0 then (if leaseOwner d = agent ∧ agent ≠ 0 ∧ 8 ≤ i then rd d off else 0)
  else if b = Reg.STRIP_STATUS 0 then setF (rd d off) Reg.STRIP_STATUS_STAGING_FREE (stagingSize - stagingUsed d i)
  else if b = Reg.AGG_GROUP 0 then setF (setF (rd d off) Reg.AGG_GROUP_LIVE (liveSet d i).length) Reg.AGG_GROUP_MEMBERS (members d i).length
  else if b = Reg.PAIR_STATUS then pairStatusNow d
  else if b = Reg.CKPT_VALUE then
    BitVec.ofNat 64 (spGet (fun _ => (0, false)) d.pair.peerCkpt (rdF d Reg.CKPT_SEL Reg.CKPT_SEL_INDEX)).1
  else if b = Reg.JOURNAL_STATUS then mkWord [(Reg.JOURNAL_STATUS_OUTSTANDING, d.pair.buf.length)]
  else if b = Reg.FAULT_ACTIVE 0 0 then
    (if j = 0 then setF (rd d off) Reg.FAULT_ACTIVE_CAUSE_PRESENT (b2n (actValid d i && causePresent d i)) else rd d off)
  else if b = Reg.ISLAND_BUSY then BitVec.ofNat 64 (islandBusy d)
  else if b = Reg.AON_TIME then BitVec.ofNat 64 d.time
  else if b = Reg.EVT_POP 0 then (match evtHead d i with | some e => e.1 | none => 0)
  else if b = Reg.EVT_LATCH 0 0 then
    let l := spGet (fun _ => (0, 0, 0)) d.host.latch (16 * i + agent)
    if j = 0 then 0 else if j = 1 then l.1 else if j = 2 then l.2.1 else l.2.2
  else if b = Reg.EVT_STATUS 0 then setF (rd d off) Reg.EVT_STATUS_DEPTH (getEvt d i).entries.length
  else if b = Reg.UART_STATUS then
    setF (setF (rd d off) Reg.UART_STATUS_TX_LEVEL d.host.uartTx.length) Reg.UART_STATUS_RX_LEVEL d.host.uartRx.length
  else if b = Reg.UART_DATA then (match d.host.uartRx with | x :: _ => BitVec.ofNat 64 (256 + x.toNat) | [] => 0)
  else if b = Reg.JTAG_STATUS then mkWord [(Reg.JTAG_STATUS_LOCKED, b2n d.fuses.debugLock)]
  else if b = Reg.DUMP_STATUS then setF (rd d off) Reg.DUMP_STATUS_WORDS (dumpWords d)
  else if b = Reg.PERF_SNAP_ADDR then
    setF (rd d off) Reg.PERF_SNAP_ADDR_HIT (b2n (d.perf.snap.any fun e => e.1 == rdF d Reg.PERF_SNAP_ADDR Reg.PERF_SNAP_ADDR_OFFSET))
  else if b = Reg.PERF_SNAP_DATA then spGet (fun _ => 0) d.perf.snap (rdF d Reg.PERF_SNAP_ADDR Reg.PERF_SNAP_ADDR_OFFSET)
  else rd d off

/-- What an offset shows to an agent when nothing is cleared: 0 at a reserved offset, in an absent unit and in an island that is
in reset or fallow. The MICRO window shows the master copy of the window bank (R66). -/
def regView (d : Dev) (agent off : Nat) : W64 :=
  let isl := islandsOf d off 0
  if unitAbsent d off ∨ (isl ≠ [] ∧ isl.all (islandOff d)) then 0
  else if 0x2000000 ≤ off ∧ off < 0x3FF0000 then
    BitVec.ofNat 64 (leNat ((List.range 8).map fun k => windowRead d (off - 0x2000000 + k)))
  else match regAt off with
    | some (s, x) => if indexAbsent d s.base (x.getD 0 0) then 0 else viewAt d agent off s.base (x.getD 0 0) (x.getD 1 0)
    | none => 0

/-- The own offset of a register and whether the offset given is its peek alias (R478). -/
def unpeek (off : Nat) : Nat × Bool := if off < 0x2000000 ∧ bit off 19 then (off - 0x80000, true) else (off, false)

/-! Clearing reads. -/

/-- The mask of a register's RC fields. -/
def rcMask (l : List FldSpec) : Nat := l.foldl (fun m f => if f.acc = .rc then m + (2 ^ f.w - 1) * 2 ^ f.lo else m) 0

/-- A voted register's copies are compared: a copy that differs is rewritten, and VOTER is raised for its island (R438, R479). -/
def voterCheck (d : Dev) (off : Nat) : Dev :=
  if d.voteErr.any fun e => e.1 == off then raise { d with voteErr := spErase d.voteErr off } Fk.voter ((islandsOf d off 0).headD 0) off 0 0
  else d

/-- The voter sweep. -/
def voterSweep (d : Dev) : Dev := d.voteErr.foldl (fun d e => voterCheck d e.1) d

/-- The oldest entry of event FIFO f leaves it, and its words 1 to 3 are latched for the agent (R482). -/
def evtPop (f agent : Nat) (d : Dev) : Dev :=
  let latch := fun (d : Dev) (x : W64 × W64 × W64) =>
    { d with host := { d.host with latch := spPut (fun _ => (0, 0, 0)) d.host.latch (16 * f + agent) x } }
  let e := getEvt d f
  match e.entries with
  | [] => latch d (0, 0, 0)
  | x :: t => latch (putEvt d f { e with entries := t, unsignalled := min e.unsignalled t.length }) x.2

/-- The RC fields of a register are cleared by a read of it. -/
def readClears (d : Dev) (agent off : Nat) : Dev :=
  match regAt off with
  | none => d
  | some (s, x) =>
    if s.base = Reg.EVT_POP 0 then evtPop (x.getD 0 0) agent d
    else if s.base = Reg.UART_DATA then { d with host := { d.host with uartRx := d.host.uartRx.drop 1 } }
    else
      let m := rcMask s.flds
      let d := if m = 0 then d else wr d off (rd d off &&& ~~~(BitVec.ofNat 64 m))
      voterCheck d off

/-- A parity injection that is due at an island's register access: the access is not performed (R437 code 1, R439). -/
def csrParity (d : Dev) (agent off access : Nat) (v : W64) : Bool × Dev :=
  let i := (islandsOf d off v).headD 0
  let (j, d) := injectAt d 1 i 0
  if j = 0 then (false, d) else (true, raise d Fk.csrParity i 0 agent access)

/-- A read of an offset by an agent: the value, and the device after it. Register access does not exist while the control island
is in reset. -/
def regRead (d : Dev) (agent off : Nat) : W64 × Dev :=
  let (own, peek) := unpeek (off / 8 * 8)
  if ctlReset d then (0, d)
  else
    let (bad, d) := csrParity d agent own 1 0
    if bad then (0, d)
    else
      let v := regView d agent own
      let isl := islandsOf d own 0
      let d := if own / 0x100000 = 26 ∧ (own = Reg.RIND_LOCK ∨ decide (Reg.RIND_DATA 0 ≤ own ∧ own ≤ Reg.RIND_DATA 15) ∨ own = Reg.RIND_CMD)
          ∧ leaseOwner d = agent ∧ agent ≠ 0 then { d with rind := { d.rind with leaseAt := d.time } } else d
      if peek ∨ unitAbsent d own ∨ (isl ≠ [] ∧ isl.all (islandOff d)) then (v, d) else (v, readClears d agent own)

/-- A read whose value the device answers to the agent. -/
def readCmd (agent off : Nat) (d : Dev) : Dev :=
  let (v, d) := regRead d agent off
  { d with host := { d.host with answer := spPut (fun _ => 0) d.host.answer agent v } }

end Sys2Proof.Machine
end

