-- ==== Sys2Proof/Machine/RegCheck.lean ====
section
/-!
DEFINITION. The range-check rule (R477, R3): what a register write must satisfy beyond the ranges of the register map, by block.
`v` is the value written and `m` the register as it would be.
-/
namespace Sys2Proof.Machine

/-- Whether every writable field of a register is in its range. -/
def rangeOk (l : List FldSpec) (v : W64) : Bool :=
  l.all fun f => f.acc == .ro || f.acc == .rc || (decide (f.min ≤ bits v.toNat f.lo f.w) && decide (bits v.toNat f.lo f.w ≤ f.max))

/-- The register with its RW and RWV fields taken from the value written. -/
def mergeFlds (l : List FldSpec) (old v : W64) : W64 :=
  l.foldl (fun x f => if f.acc = .rw ∨ f.acc = .rwv then setF x ⟨f.lo, f.w⟩ (bits v.toNat f.lo f.w) else x) old


/-! Always-on island. -/

/-- AON_TIME_ADJ: ±100,000 ppb in units of 2^-16 ppb. -/
def adjOk (v : W64) : Bool :=
  let x := toSigned 32 (bits v.toNat 0 32)
  decide (-6553600000 ≤ x ∧ x ≤ 6553600000)

/-- AON_COMP_CFG: HIGH_C from 50 °C to CRIT_C - 5 °C. -/
def compOk (v : W64) : Bool :=
  let h := getF v Reg.AON_COMP_CFG_HIGH_C
  decide (50 ≤ h ∧ h + 5 ≤ getF v Reg.AON_COMP_CFG_CRIT_C)

/-- An override word (R450, R516): no reserved code, and no valid bit where no ball is. -/
def pinOvrOk (w : Nat) (v : W64) : Bool :=
  (List.range 16).all fun j =>
    let p := 16 * w + j
    let n := bits v.toNat (4 * j) 4
    n % 8 < 5 && (n < 8 || decide (p ≤ 24 ∨ (32 ≤ p ∧ p ≤ 35)))

/-! Faults. -/

/-- The FAULT_REACT bits of one kind (R429): bit 0 may be 1 for DEGRADED and FATAL kinds, and must be 1 for a FATAL kind that no
hardware isolates. -/
def reactKindOk (k : FaultKind) (two : Nat) : Bool :=
  if k.sev ≤ 1 then two % 2 == 0 else if k.sev = 3 ∧ k.react / 2 = 0 then two % 2 == 1 else true

/-- The kinds whose bits a word of FAULT_REACT holds, with their place. -/
def reactKinds (w : Nat) : List (FaultKind × Nat) :=
  (faultKinds.filter fun k => 8 * k.cls + k.kind / 32 == w).map fun k => (k, 2 * (k.kind % 32))

/-- A write of FAULT_REACT: bit 0 of each defined kind is taken, bit 1 is hardware's, and the other bits read 0. -/
def reactWrite (d : Dev) (w off : Nat) (v : W64) : Option Dev :=
  let ks := reactKinds w
  if ks.all fun k => reactKindOk k.1 (bits v.toNat k.2 2) then
    some (wr d off (ks.foldl (fun x k => setF x ⟨k.2, 1⟩ (bits v.toNat k.2 1)) (rd d off)))
  else none

/-! Host and management. -/

def evtCfgOk (f : Nat) (v : W64) : Bool :=
  let t := getF v Reg.EVT_CFG_THRESH
  decide (1 ≤ t ∧ t ≤ evtSize f)

/-- Word 1 of a punt ring. -/
def puntOk (d : Dev) (r : Nat) (v : W64) : Bool :=
  getF v Reg.PUNT_RING_ENABLE == 0 || (rd d (Reg.PUNT_RING r 0)).toNat % 64 == 0

/-- Word 1 of an inject ring. -/
def injOk (d : Dev) (r : Nat) (v : W64) : Bool :=
  getF v Reg.INJ_RING_ENABLE == 0
    || ((rd d (Reg.INJ_RING r 0)).toNat % 16 == 0 && (rd d (Reg.INJ_RING r 4)).toNat % 32 == 0
      && decide ((rd d (Reg.INJ_RING r 7)).toNat < (rd d (Reg.INJ_RING r 8)).toNat))

/-! The dump engine (R511). -/

def dumpOn (d : Dev) : Bool := flagF d Reg.DUMP_CTRL Reg.DUMP_CTRL_ENABLE

/-- Bytes from one slot of the dump ring to the next (R505). -/
def dumpStride (w : Nat) : Nat := 64 * ceilDiv (64 + 8 * w) 64

def dumpCtrlOk (d : Dev) (v : W64) : Bool :=
  let w := dumpWords d
  let n := getF v Reg.DUMP_CTRL_LOG2_SLOTS
  getF v Reg.DUMP_CTRL_ENABLE == 0
    || ((rd d Reg.DUMP_BASE).toNat % 64 == 0 && decide (1 ≤ w ∧ w ≤ 262144) && n != 0
      && decide (w + 8 ≤ rdF d Reg.DUMP_PERIOD Reg.DUMP_PERIOD_PERIOD_NS)
      && (getF v Reg.DUMP_CTRL_DEST == 0 || decide ((rd d Reg.DUMP_BASE).toNat + 2 ^ n * dumpStride w ≤ deepSize d)))

/-- An entry of the dump list stays in the lower 512 KiB of one block outside the MICRO window. -/
def dumpListOk (v : W64) : Bool :=
  let o := getF v Reg.DUMP_LIST_OFFSET
  let e := o + 8 * getF v Reg.DUMP_LIST_COUNT
  decide (o % 8 = 0 ∧ o < 0x2000000 ∧ e / 0x100000 = o / 0x100000 ∧ o % 0x100000 < 0x80000 ∧ e % 0x100000 < 0x80000)

/-! Strips. -/

/-- An entry of FALLBACK (R346): no more lanes than SPEED, and 25 Gb/s only when SPEED is. -/
def fallbackOk (d : Dev) (s q : Nat) (v : W64) : Bool :=
  let sp := rdF d (Reg.PORT_MODE s q) Reg.PORT_MODE_SPEED
  [Reg.FALLBACK_ENTRY0, Reg.FALLBACK_ENTRY1, Reg.FALLBACK_ENTRY2].all fun f =>
    let e := getF v f
    e == 0 || (e < 8 && decide (speedLanes e ≤ speedLanes sp) && (e != 7 || sp == 7))

/-- The port of a lane (R338): the local index of its first lane. -/
def lanePort (d : Dev) (s q : Nat) : Nat :=
  ((List.range 8).find? fun k => decide (k ≤ q) &&
    (let n := speedLanes (rdF d (Reg.PORT_MODE s (q - k)) Reg.PORT_MODE_SPEED); decide (k < n))).elim q (q - ·)

def laneOk (d : Dev) (s q : Nat) : Bool := !flagF d (Reg.PORT_MODE s (lanePort d s q)) Reg.PORT_MODE_ENABLE

/-- PFC_TX_CFG (R362): QUANTA from 1, REFRESH_Q from 1 to QUANTA - 1. -/
def pfcTxOk (v : W64) : Bool :=
  decide (1 ≤ getF v Reg.PFC_TX_CFG_REFRESH_Q ∧ getF v Reg.PFC_TX_CFG_REFRESH_Q + 1 ≤ getF v Reg.PFC_TX_CFG_QUANTA)

/-- AGG_PORT W0: the group does not have 16 other members (R350). -/
def aggPortOk (d : Dev) (p : Nat) (v : W64) : Bool :=
  getF v Reg.AGG_PORT_VALID == 0 || decide (((members d (getF v Reg.AGG_PORT_GROUP)).filter (· != p)).length < 16)

/-! Fabric, queues, Drill. -/

/-- The pools that FALLBACK leads to from a pool, until one names itself; none when more than 4 are visited. -/
def fallChain (fb : Nat → Nat) : Nat → Nat → List Nat → Bool
  | 0, _, _ => false
  | n + 1, p, seen => fb p == p || (!seen.contains (fb p) && fallChain fb n (fb p) (p :: seen))

/-- A write of POOL_CFG[p] (R227). -/
def poolOk (d : Dev) (p : Nat) (v : W64) : Bool :=
  let cfg := fun i => if i = p then v else rd d (Reg.POOL_CFG i)
  let sum := (List.range 63).foldl (fun n i => n + getF (cfg i) Reg.POOL_CFG_LIMIT) 0
  let fb := fun i => getF (cfg i) Reg.POOL_CFG_FALLBACK
  p != 63 && decide (sum ≤ 229376) && fb p != 63 && (List.range 63).all fun i => fallChain fb 4 i [i]

/-- A word of QPROF as it would be, within the bounds that join its words. -/
def qprofOk (d : Dev) (k w : Nat) (m : W64) : Bool :=
  let w0 := if w = 0 then m else rd d (Reg.QPROF k 0)
  let w1 := if w = 1 then m else rd d (Reg.QPROF k 1)
  let head := getF w0 Reg.QPROF_HEAD_CELLS
  decide (head + getF w0 Reg.QPROF_TAIL_CELLS < getF w0 Reg.QPROF_SPILL_ON_CELLS)
    && decide (getF w1 Reg.QPROF_PANIC_CELLS < getF w1 Reg.QPROF_REFILL_CELLS) && decide (getF w1 Reg.QPROF_REFILL_CELLS ≤ head)

/-- CAP_RING CFG (R267, R369): BASE is aligned, and the ring stays in the deep store or in the host's address space. -/
def capCfgOk (d : Dev) (r : Nat) (v : W64) : Bool :=
  let b := (rd d (Reg.CAP_RING r 0)).toNat
  let n := b + 160 * getF v Reg.CAP_RING_SLOTS
  getF v Reg.CAP_RING_ENABLE == 0
    || (b % 64 == 0 && (if getF v Reg.CAP_RING_DEST = 1 then decide (n ≤ deepSize d) else decide (n ≤ 2 ^ 64)))

/-- CONS of a capture ring in stop mode: from PROD - SLOTS to PROD. -/
def capConsOk (d : Dev) (r : Nat) (v : W64) : Bool :=
  let prod := (rd d (Reg.CAP_RING r 2)).toNat
  capField d r 1 Reg.CAP_RING_MODE == 0 || decide (v.toNat ≤ prod ∧ prod ≤ v.toNat + capField d r 1 Reg.CAP_RING_SLOTS)

/-! The deep store. -/

/-- Whether DEEP_CTRL.INIT has been written since the last cold reset (R367). -/
def initWritten (d : Dev) : Bool :=
  let o := Reg.DEEP_STATUS
  flagF d o Reg.DEEP_STATUS_READY || flagF d o Reg.DEEP_STATUS_INIT_BUSY || flagF d o Reg.DEEP_STATUS_INIT_FAIL

/-- DEEP_SPARE_CFG (R366): present stacks only; the same for both where they interleave; before INIT. -/
def spareOk (d : Dev) (v : W64) : Bool :=
  let x := getF v Reg.DEEP_SPARE_CFG_SPARE
  !initWritten d && (stackCount d == 2 && (rdF d Reg.DEEP_CFG Reg.DEEP_CFG_ORDER == 3 || x == 0 || x == 3) || (stackCount d == 1 && x ≤ 1))

/-- A word of DEEP_TYPE as it would be (R369). -/
def deepTypeOk (d : Dev) (y w : Nat) (m : W64) : Bool :=
  let w0 := if w = 0 then m else rd d (Reg.DEEP_TYPE y 0)
  let w1 := if w = 1 then m else rd d (Reg.DEEP_TYPE y 1)
  let b := getF w0 Reg.DEEP_TYPE_BASE
  b % 8 == 0 && decide (b + 8 * getF w1 Reg.DEEP_TYPE_SIZE ≤ deepSize d)

/-! The pair. -/

/-- PAIR_TABLE_CFG (R400, R416): MIRROR only for an EXACT table with LEARN = 1, HOLD_POS at most KEYBITS - 8 where the table has a key. -/
def pairTableOk (d : Dev) (t : Nat) (v : W64) : Bool :=
  match tbl d t with
  | some b => (b.kind != 1 || decide (getF v Reg.PAIR_TABLE_CFG_HOLD_POS + 8 ≤ b.keybits))
      && (getF v Reg.PAIR_TABLE_CFG_MIRROR == 0 || (b.kind == 1 && b.learn))
  | none => getF v Reg.PAIR_TABLE_CFG_MIRROR == 0

/-- HOLDING_OPEN word w while a holding is removed: its bit may not be set (R485). -/
def openOk (d : Dev) (w : Nat) (v : W64) : Bool :=
  let h := rdF d Reg.HOST_HOLDING_STATUS Reg.HOST_HOLDING_STATUS_HOLDING
  !(flagF d Reg.HOST_HOLDING_STATUS Reg.HOST_HOLDING_STATUS_BUSY && h / 64 == w && bit v.toNat (h % 64))

end Sys2Proof.Machine
end

