-- ==== Sys2Proof/Machine/RegWrite.lean ====
section
/-!
DEFINITION. Register writes (R472, R475 to R479, R534): who may write, islands that are busy, in reset or in fallow, the
range-check rule, and what each register's write does.
-/
namespace Sys2Proof.Machine

/-- A register write as it reaches its register: the agent, the own offset, the base and first indices of its array, the value
written and the register as plain storage would hold it. -/
structure RegW where
  agent : Nat
  off : Nat
  base : Nat
  i : Nat
  j : Nat
  v : W64
  m : W64
  deriving DecidableEq, Repr

/-- A write that a rule rejects leaves the device as it was. -/
def orReject (d : Dev) : Option Dev → Bool × Dev
  | some d' => (true, d')
  | none => (false, d)

/-- Plain storage, when a check holds. -/
def storeIf (c : RegW) (d : Dev) (ok : Bool) : Bool × Dev := if ok then (true, wr d c.off c.m) else (false, d)

/-! The commands of the units by their OP. -/

def orchCmd (v : W64) (d : Dev) : Dev :=
  let op := getF v Reg.ORCHARD_CMD_OP
  if op = 1 then orchRead v d else if op = 2 then orchWrite v d else if op = 3 then orchInsert v d
  else if op = 4 then orchDelete v d else if op = 5 then orchSearch v d else ageScan v d

def assocCmd (v : W64) (d : Dev) : Dev :=
  let op := getF v Reg.ASSOC_CMD_OP
  if op = 1 then assocRead v d else if op = 2 then assocWrite v d else if op = 3 then assocInvalidate v d
  else if op = 4 then assocMove v d else assocSearch v d

def rindCmd (v : W64) (d : Dev) : Dev :=
  let op := getF v Reg.RIND_CMD_OP
  if op = 1 then rindRead v d else if op = 2 then rindWrite v d else if op = 3 then rindUpdate v d
  else if op = 4 then rindInvalidate v d else if op = 5 then rindAdvance v d else if op = 6 then zeroize v d
  else rindBegin d v op 1

def mcCmd (v : W64) (d : Dev) : Dev :=
  let op := getF v Reg.MC_CMD_OP
  if op = 1 then readGroup v d else if op = 2 then writeGroup v d else if op = 3 then readMember v d else writeMember v d

def queueCmd (v : W64) (d : Dev) : Dev :=
  let op := getF v Reg.QUEUE_CMD_OP
  if op = 1 then queueRead v d else if op = 2 then queueWrite v d else if op = 3 then queueState v d else queueFlush v d

def drillCmd (v : W64) (d : Dev) : Dev :=
  let op := getF v Reg.DRILL_CMD_OP
  if op = 1 then readNode v d else if op = 2 then writeNode v d else if op = 3 then readShaper v d else if op = 4 then readGcl v d
  else if op = 5 then writeGcl v d else if op = 6 then readGate v d else if op = 7 then writeGate v d
  else if op = 8 then readMeter v d else if op = 9 then writeMeter v d else if op = 10 then readMprof v d else writeMprof v d

def deepAccCmd (v : W64) (m : Mem) (d : Dev) : Dev :=
  if getF v Reg.DEEP_ACC_CMD_OP = 1 then deepAccRead v m d else deepAccWrite v m d

/-! Effects by block: whether the write is accepted, and the device. -/

def effGlobal (c : RegW) (d : Dev) : Bool × Dev :=
  if c.base = Reg.FLOW_HASH_SEED then storeIf c d (!anyHoldingOpen d) else storeIf c d true

def effRstc (c : RegW) (d : Dev) : Bool × Dev :=
  if c.base = Reg.RSTC_CTRL then
    if getF c.v Reg.RSTC_CTRL_KEY ≠ 0xA5 then (false, d)
    else (true, if getF c.v Reg.RSTC_CTRL_WARM = 1 then warmReset 5 d else d)
  else if c.base = Reg.RSTC_PARTIAL then orReject d (partialWrite d c.v)
  else if c.base = Reg.SP_WD then (true, spWdWrite d c.v)
  else storeIf c d true

def effFault (c : RegW) (d : Dev) : Bool × Dev :=
  if c.base = Reg.FAULT_CLEAR then (true, faultClear c.v d)
  else if c.base = Reg.FAULT_PIN then orReject d (faultPinWrite d c.v)
  else if c.base = Reg.FAULT_INJECT then orReject d (injectWrite d c.v)
  else if c.base = Reg.FAULT_LOG_CONS then storeIf c d (decide (c.v.toNat ≤ (rd d Reg.FAULT_LOG_PROD).toNat))
  else if c.base = Reg.FAULT_REACT 0 then orReject d (reactWrite d c.i c.off c.v)
  else storeIf c d true

/-- AON_LB_CTRL: TEST writes a record of cause 2, VERIFY reads a slot. -/
def lbCtrl (v : W64) (m : Mem) (d : Dev) : Dev :=
  let d := if getF v Reg.AON_LB_CTRL_VERIFY = 1 then lbVerify (getF v Reg.AON_LB_CTRL_SLOT) m d else d
  if getF v Reg.AON_LB_CTRL_TEST = 1 then lbStart 2 (rdF d Reg.AON_HOLDUP_STATUS Reg.AON_HOLDUP_STATUS_V_MV) d else d

def effAon (c : RegW) (m : Mem) (d : Dev) : Bool × Dev :=
  if c.base = Reg.AON_TIME_SET then orReject d ((timeSetWrite d c.v).map fun d => wr d c.off c.m)
  else if c.base = Reg.AON_TIME_ADJ then storeIf c d (adjOk c.v)
  else if c.base = Reg.AON_COMP_CFG then storeIf c d (compOk c.v)
  else if c.base = Reg.AON_FALLOW then orReject d (fallowWrite d c.v)
  else if c.base = Reg.AON_ALARM then (true, { wr d c.off c.m with rst := { d.rst with alarm := false } })
  else if c.base = Reg.AON_HOLDUP_CFG then orReject d (holdupWrite d c.m)
  else if c.base = Reg.AON_LB_CFG then storeIf c d (getF c.v Reg.AON_LB_CFG_BASE % 0x4000 == 0)
  else if c.base = Reg.AON_LB_CTRL then (true, lbCtrl c.v m d)
  else if c.base = Reg.AON_PIN_OVR 0 then storeIf c d (pinOvrOk c.i c.v)
  else if c.base = Reg.PIN_FEAT then orReject d (pinFeatWrite d c.v)
  else storeIf c d true

/-- HOST_HOLDING_CMD.REMOVE (R485): the holding closes, and the quiesce is raised; none while another removal runs. -/
def removeHolding (agent : Nat) (v : W64) (d : Dev) : Option Dev :=
  let h := getF v Reg.HOST_HOLDING_CMD_HOLDING
  if getF v Reg.HOST_HOLDING_CMD_REMOVE = 0 then some d
  else if flagF d Reg.HOST_HOLDING_STATUS Reg.HOST_HOLDING_STATUS_BUSY then none
  else
    let o := Reg.HOLDING_OPEN (h / 64)
    let d := wr d o (BitVec.ofNat 64 (setBits (rd d o).toNat (h % 64) 1 0))
    some (startedBy (wrFs d Reg.HOST_HOLDING_STATUS [(Reg.HOST_HOLDING_STATUS_HOLDING, h), (Reg.HOST_HOLDING_STATUS_BUSY, 1)]) 9 agent)

/-- A write of a vector's control word: a pending vector that is unmasked is sent (R480). -/
def msixWrite (c : RegW) (d : Dev) : Dev :=
  let d := wr d c.off c.m
  let o := Reg.MSIX_PBA (c.i / 64)
  if c.j = 1 ∧ ¬ bit c.m.toNat 32 ∧ bit (rd d o).toNat (c.i % 64) then
    msi (wr d o (BitVec.ofNat 64 (setBits (rd d o).toNat (c.i % 64) 1 0))) c.i
  else d

def effHost (c : RegW) (d : Dev) : Bool × Dev :=
  if c.base = Reg.HOST_HOLDING_CMD then orReject d (removeHolding c.agent c.v d)
  else if c.base = Reg.EVT_CFG 0 then storeIf c d (evtCfgOk c.i c.v)
  else if c.base = Reg.PUNT_RING 0 1 then storeIf c d (puntOk d c.i c.v)
  else if c.base = Reg.PUNT_RING 0 4 then storeIf c d (c.v.toNat % 8 == 0)
  else if c.base = Reg.INJ_RING 0 1 then storeIf c d (injOk d c.i c.v)
  else if c.base = Reg.INJ_RING 0 5 then
    storeIf c d (decide (getF c.v Reg.INJ_RING_CPL_CONS ≤ rdF d (Reg.INJ_RING c.i 6) Reg.INJ_RING_CPL_PROD))
  else if c.base = Reg.MSIX_TABLE 0 0 then (true, msixWrite c d)
  else storeIf c d true

/-- Time that a character of the UART takes on the line, ns (R495). -/
def uartChar (d : Dev) : Nat :=
  rdF d Reg.UART_CFG Reg.UART_CFG_CYCLES_PER_BIT
    * (10 + b2n (rdF d Reg.UART_CFG Reg.UART_CFG_PARITY != 0) + rdF d Reg.UART_CFG Reg.UART_CFG_STOP2)

/-- A byte for the transmit FIFO; none when it holds 64. -/
def uartPush (v : W64) (d : Dev) : Option Dev :=
  let q := d.host.uartTx
  if 64 ≤ q.length then none
  else some { d with host := { d.host with uartTx := q ++ [BitVec.ofNat 8 v.toNat],
                                           uartDone := if q.isEmpty then d.time + uartChar d else d.host.uartDone } }

def effMgmt (c : RegW) (d : Dev) : Bool × Dev :=
  if c.base = Reg.SPIM_CMD then spimWrite d c.agent c.m
  else if c.base = Reg.UART_DATA then orReject d (uartPush c.v d)
  else storeIf c d true

/-- DUMP_TALLY.NOW: an extra tally at the first multiple of 1 µs at least 2 µs from now (R503). -/
def tallyNow (d : Dev) : Dev := { d with perf := { d.perf with now := some (1000 * ceilDiv (d.time + 2000) 1000) } }

def effPerf (c : RegW) (d : Dev) : Bool × Dev :=
  if c.base = Reg.DUMP_CTRL then storeIf c d (dumpCtrlOk d c.v)
  else if c.base = Reg.DUMP_PERIOD ∨ c.base = Reg.DUMP_BASE then storeIf c d (!dumpOn d)
  else if c.base = Reg.DUMP_LIST 0 then storeIf c d (!dumpOn d && dumpListOk c.v)
  else if c.base = Reg.PERF_SNAP_ADDR then storeIf c d (getF c.v Reg.PERF_SNAP_ADDR_OFFSET % 8 == 0)
  else if c.base = Reg.DUMP_TALLY then (true, if getF c.v Reg.DUMP_TALLY_NOW = 1 then tallyNow d else d)
  else storeIf c d true

/-- PAIR_CTRL: each bit that is 1 acts. -/
def pairCtrl (v : W64) (d : Dev) : Dev :=
  let on := fun (f : Fld) (g : Dev → Dev) (d : Dev) => if getF v f = 1 then g d else d
  on Reg.PAIR_CTRL_PEER_RESET peerReset (on Reg.PAIR_CTRL_HANDOVER handover (on Reg.PAIR_CTRL_CONFIRM_LOST confirmLost
    (on Reg.PAIR_CTRL_RESYNC resync d)))

def effPair (c : RegW) (d : Dev) : Bool × Dev :=
  if c.base = Reg.PAIR_ROLE then orReject d (pairRoleWrite d c.v)
  else if c.base = Reg.PAIR_CTRL then (true, pairCtrl c.v d)
  else if c.base = Reg.PAIR_ANCHOR 0 then storeIf c d (pairState d == 0)
  else if c.base = Reg.PAIR_TABLE_CFG 0 then storeIf c d (pairState d == 0 && pairTableOk d c.i c.v)
  else if c.base = Reg.PEER_ACC_CMD ∧ getF c.v Reg.PEER_ACC_CMD_OFFSET % 8 ≠ 0 then (false, d)
  else if c.base = Reg.PEER_ACC_CMD then (true, peerAccess c.m (getF c.v Reg.PEER_ACC_CMD_OP) (startedBy d 10 c.agent))
  else storeIf c d true

/-- The groups of an aggregation write are rewritten (R351). -/
def aggWrite (c : RegW) (d : Dev) : Bool × Dev :=
  if c.base = Reg.AGG_CFG then
    if getF c.v Reg.AGG_CFG_EN = 1 ∧ ¬ aggFits d c.v then (false, d)
    else
      let d := endCond (wrF (wr d c.off c.m) Reg.AGG_STATUS Reg.AGG_STATUS_ERROR 0) Fk.aggTable 0
      (true, rewriteAll (rewritePrune d))
  else if c.base = Reg.AGG_GROUP 0 then (true, rewriteDue (rewritePrune (wr d c.off c.m)) c.i 1)
  else if c.base = Reg.AGG_PORT 0 0 ∧ ¬ aggPortOk d c.i c.v then (false, d)
  else
    let group := fun (d : Dev) => rdF d (Reg.AGG_PORT c.i 0) Reg.AGG_PORT_GROUP
    let d' := wr d c.off c.m
    (true, rewriteDue (rewriteDue d' (group d) 1) (group d') 1)

/-- STRIP_CTRL: fallow of the strip (R360, R361). -/
def stripCtrl (s : Nat) (v : W64) (d : Dev) : Bool × Dev :=
  let was := rdF d (Reg.STRIP_CTRL s) Reg.STRIP_CTRL_FALLOW
  let new := getF v Reg.STRIP_CTRL_FALLOW
  if was = new then (true, d) else if new = 1 then orReject d (fallowEnter d s) else (true, fallowExit d s)

def effStrip (c : RegW) (d : Dev) : Bool × Dev :=
  let s := c.off / 0x100000 - 8
  if c.base = Reg.STRIP_CTRL 0 then stripCtrl s c.v d
  else if flagF d (Reg.STRIP_STATUS s) Reg.STRIP_STATUS_FALLOW then (false, d)
  else if c.base = Reg.PORT_MODE 0 0 then orReject d (portModeWrite d (64 * s + c.j) c.v)
  else if c.base = Reg.LINK_CFG 0 0 then (true, timerClaims d (wr d c.off c.m) (64 * s + c.j))
  else if c.base = Reg.FALLBACK 0 0 then storeIf c d (fallbackOk d s c.j c.v)
  else if c.base = Reg.LANE_CFG 0 0 then storeIf c d (laneOk d s c.j)
  else if c.base = Reg.PRIO_CFG 0 0 then storeIf c d (getF c.v Reg.PRIO_CFG_MODE != 3)
  else if c.base = Reg.PFC_TX_CFG 0 0 then storeIf c d (pfcTxOk c.v)
  else if c.base = Reg.AGG_CFG ∨ c.base = Reg.AGG_GROUP 0 ∨ c.base = Reg.AGG_PORT 0 0 ∨ c.base = Reg.AGG_PORT 0 1 then aggWrite c d
  else storeIf c d true

/-- FURROW_ROLE.REQUEST (R71). -/
def roleRequest (a f : Nat) (v : W64) (d : Dev) : Bool × Dev :=
  let q := getF v Reg.FURROW_ROLE_REQUEST
  if 4 < q then (false, d)
  else (true, if q = 1 then reqIsolate a f d else if q = 2 then reqReturn a f d else if q = 3 then reqTakeover a f d
    else if q = 4 then reqActivate a f d else d)

def effAcre (c : RegW) (d : Dev) : Bool × Dev :=
  if c.base = Reg.FURROW_MAP 0 0 then orReject d (mapWrite d c.i c.j c.v)
  else if c.base = Reg.ACRE_MAP 0 0 then orReject d (acreMapWrite d c.i c.j c.v)
  else if c.base = Reg.FURROW_ROLE 0 0 then roleRequest c.i c.j c.v d
  else storeIf c d true

def effHarrow (c : RegW) (d : Dev) : Bool × Dev :=
  if c.base = Reg.HARROW_WCMD 0 then
    let d' := harrowWrite c.i c.v (getF c.v Reg.HARROW_WCMD_TABLE) d
    if rd d' (Reg.HARROW_EVT c.i 19) = rd d (Reg.HARROW_EVT c.i 19) then (true, d') else (false, harReject d c.i)
  else if c.base = Reg.PUNT_POLICER 0 then (true, bucketCap (wr d c.off c.m) c.i)
  else if c.base = Reg.PUNT_CEILING then (true, bucketCap (wr d c.off c.m) 256)
  else if c.base = Reg.HOLDING_OPEN 0 then storeIf c d (openOk d c.i c.v)
  else storeIf c d true

def effOrchard (c : RegW) (d : Dev) : Bool × Dev :=
  if c.base = Reg.ORCHARD_CMD then (true, orchCmd c.m (startedBy d 1 c.agent))
  else if c.base = Reg.PROFILE_SEL then
    let s := getF c.v Reg.PROFILE_SEL_SLOT
    let pend := flagF d Reg.PROFILE_STATUS Reg.PROFILE_STATUS_PENDING
    (!pend && (s == activeSlot d || profileCheck d s == 0), profileSelect d s)
  else if 0x1510000 ≤ c.off ∧ c.off < 0x1514000 then
    let k := getF c.v Reg.TABLE_DESC_KIND
    let n := getF c.v Reg.TABLE_DESC_NBLK
    if descLocked d c.i ∨ (c.base = Reg.TABLE_DESC 0 0 ∧ (k = 4 ∨ k = 7 ∨ n = 0 ∨ 2048 < n)) then (false, profileReject d) else storeIf c d true
  else storeIf c d true

def effAssoc (c : RegW) (d : Dev) : Bool × Dev :=
  if c.base = Reg.ASSOC_CMD then
    if assocBadAcre d c.v then (false, wrF d Reg.ASSOC_STATUS Reg.ASSOC_STATUS_RESULT 2)
    else (true, assocCmd c.m (startedBy d 2 c.agent))
  else if c.base = Reg.ASSOC_CFG then storeIf c d (!anyHoldingOpen d)
  else if c.base = Reg.SEG_MAP 0 0 then
    if 8 < popCount 64 c.v.toNat then (false, d) else (true, segMapWrite c.i c.j c.v d)
  else if c.base = Reg.ASSOC_DATA 0 ∧ c.i = 10 then (true, wr d c.off (BitVec.ofNat 64 (setBits c.m.toNat 56 7 0)))
  else storeIf c d true

def effFabric (c : RegW) (d : Dev) : Bool × Dev :=
  if c.base = Reg.POOL_CFG 0 then storeIf c d (poolOk d c.i c.m)
  else if c.base = Reg.HOLDING_POOL 0 ∨ c.base = Reg.LL_POOL 0 ∨ c.base = Reg.CAPTURE_POOL then
    (true, poolClaims d (wr d c.off c.m) (getF c.v Reg.HOLDING_POOL_POOL))
  else if c.base = Reg.MC_CMD then (true, mcCmd c.m (startedBy d 4 c.agent))
  else if c.base = Reg.PFC_CFG 0 0 then
    if getF c.v Reg.PFC_CFG_XOFF_CELLS ≤ getF c.v Reg.PFC_CFG_XON_CELLS then (false, d)
    else (true, timerClaims d (headlandRecompute (ppConfigure (wr d c.off c.m) c.i c.j) c.i) c.i)
  else if c.base = Reg.HL_PORT 0 then (true, headlandRecompute (wr d c.off c.m) c.i)
  else storeIf c d true

def effQueue (c : RegW) (d : Dev) : Bool × Dev :=
  if c.base = Reg.QUEUE_CMD then (true, queueCmd c.m (startedBy d 5 c.agent))
  else if c.base = Reg.QPROF 0 0 then storeIf c d (qprofOk d c.i 0 c.m)
  else if c.base = Reg.QPROF 0 1 then storeIf c d (qprofOk d c.i 1 c.m)
  else if c.base = Reg.SPILL_REGION then orReject d (spillRegionWrite d c.v)
  else if c.base = Reg.SAMPLE 0 then storeIf c d (getF c.v Reg.SAMPLE_EN == 0 || getF c.v Reg.SAMPLE_N != 0)
  else if c.base = Reg.CAP_RING 0 1 then storeIf c d (capCfgOk d c.i c.v)
  else if c.base = Reg.CAP_RING 0 3 then storeIf c d (capConsOk d c.i c.v)
  else storeIf c d true

def effDrill (c : RegW) (d : Dev) : Bool × Dev :=
  if c.base = Reg.DRILL_CMD then (true, drillCmd c.m (startedBy d 6 c.agent))
  else if c.base = Reg.PORT_CFG 0 then
    let w := getF c.v Reg.PORT_CFG_WD_US
    if w ≠ 0 ∧ (w < 100 ∨ 100000 < w) then (false, d) else (true, timerClaims d (wr d c.off c.m) c.i)
  else storeIf c d true

def effRind (c : RegW) (d : Dev) : Bool × Dev :=
  if c.base = Reg.RIND_LOCK then
    let d := if getF c.v Reg.RIND_LOCK_RELEASE = 1 then leaseRelease c.agent d else d
    (true, if getF c.v Reg.RIND_LOCK_REQUEST = 1 then leaseRequest c.agent d else d)
  else if c.base = Reg.RIND_CMD then (true, rindCmd c.m (startedBy d 3 c.agent))
  else storeIf c d true

def effDeep (c : RegW) (m : Mem) (d : Dev) : Bool × Dev :=
  if c.base = Reg.DEEP_CFG then
    storeIf c d (!initWritten d || getF c.v Reg.DEEP_CFG_ORDER == rdF d Reg.DEEP_CFG Reg.DEEP_CFG_ORDER)
  else if c.base = Reg.DEEP_SPARE_CFG then storeIf c d (spareOk d c.v)
  else if c.base = Reg.DEEP_CTRL then (true, if getF c.v Reg.DEEP_CTRL_INIT = 1 then deepInit d else d)
  else if c.base = Reg.DEEP_TYPE 0 0 then storeIf c d (deepTypeOk d c.i 0 c.m)
  else if c.base = Reg.DEEP_TYPE 0 1 then storeIf c d (deepTypeOk d c.i 1 c.m)
  else if c.base = Reg.DEEP_ACC_CMD then (true, deepAccCmd c.m m (startedBy d 7 c.agent))
  else storeIf c d true

/-- PROG_LOAD (R68): START and DISARM, not both. -/
def progLoad (agent : Nat) (v : W64) (d : Dev) : Option Dev :=
  let s := getF v Reg.PROG_LOAD_START
  let x := getF v Reg.PROG_LOAD_DISARM
  if s = 1 ∧ x = 1 then none else if s = 1 then progStart agent d else if x = 1 then progDisarm d else some d

def effMicro (c : RegW) (d : Dev) : Bool × Dev :=
  if c.base = Reg.PROG_BANK_SEL then
    let b := getF c.v Reg.PROG_BANK_SEL_BANK
    (bankState d b == 2, bankSelect b d)
  else if c.base = Reg.PROG_LOAD then orReject d (progLoad c.agent c.v d)
  else storeIf c d true

/-- What the write of a register does, and whether it is accepted. -/
def regEffect (c : RegW) (m : Mem) (d : Dev) : Bool × Dev :=
  let k := c.off / 0x100000
  if k = 0 then effGlobal c d
  else if k = 1 then effRstc c d
  else if k = 2 then effFault c d
  else if k = 3 then effAon c m d
  else if k = 4 then effHost c d
  else if k = 5 then effMgmt c d
  else if k = 6 then effPerf c d
  else if k = 7 then effPair c d
  else if k < 16 then effStrip c d
  else if k < 20 then effAcre c d
  else if k = 20 then effHarrow c d
  else if k = 21 then effOrchard c d
  else if k = 22 then effAssoc c d
  else if k = 23 then effFabric c d
  else if k = 24 then effQueue c d
  else if k = 25 then effDrill c d
  else if k = 26 then effRind c d
  else if k = 27 then effDeep c m d
  else effMicro c d

/-! The path of a write. -/

/-- Islands whose unit is busy with an operation and drops a write of its command or data registers. -/
def unitBusy (d : Dev) (off : Nat) (isl : List Nat) : List Nat :=
  let b := fun (o : Nat) (f : Fld) => flagF d o f
  if (off = Reg.ORCHARD_CMD ∨ (Reg.ORCHARD_DATA 0 ≤ off ∧ off ≤ Reg.ORCHARD_DATA 15) ∨ (Reg.ORCHARD_KEY 0 ≤ off ∧ off ≤ Reg.ORCHARD_KEY 7))
      ∧ orchardBusy d then isl
  else if (off = Reg.ASSOC_CMD ∨ (Reg.ASSOC_DATA 0 ≤ off ∧ off ≤ Reg.ASSOC_DATA 10)) ∧ b Reg.ASSOC_STATUS Reg.ASSOC_STATUS_BUSY then isl
  else if (off = Reg.DRILL_CMD ∨ (Reg.DRILL_DATA 0 ≤ off ∧ off ≤ Reg.DRILL_DATA 3)) ∧ b Reg.DRILL_STATUS Reg.DRILL_STATUS_BUSY then isl
  else if (off = Reg.DEEP_ACC_CMD ∨ (Reg.DEEP_ACC_DATA 0 ≤ off ∧ off ≤ Reg.DEEP_ACC_DATA 7))
      ∧ b Reg.DEEP_ACC_STATUS Reg.DEEP_ACC_STATUS_BUSY then isl
  else isl.filter fun i => bit (islandBusy d) i

/-- A rejected write is counted, and the first is kept (R477). -/
def hostReject (d : Dev) (agent off : Nat) (isl : List Nat) : Dev :=
  let o := Reg.HOST_REJECT
  let d := bumpSat d o Reg.HOST_REJECT_COUNT 1
  if flagF d o Reg.HOST_REJECT_VALID then d
  else wrFs d o [(Reg.HOST_REJECT_VALID, 1), (Reg.HOST_REJECT_ISLAND, isl.headD 0), (Reg.HOST_REJECT_MASTER, agent),
    (Reg.HOST_REJECT_OFFSET, off)]

/-- A write that finds an island busy is dropped (R476). -/
def islandDrop (d : Dev) (agent off : Nat) (busy : List Nat) : Dev :=
  busy.foldl (fun d i =>
    let o := Reg.ISLAND_OVERRUN
    raise (wr d o (BitVec.ofNat 64 (setBits (rd d o).toNat i 1 1))) Fk.islandOverrun i off agent 2) d

/-- The voted registers (R479). -/
def votedReg (b : Nat) : Bool :=
  b == Reg.PORT_MODE 0 0 || b == Reg.HOLDING_OPEN 0 || b == Reg.SEG_MAP 0 0 || b == Reg.PAIR_ANCHOR 0 || b == Reg.PROFILE_SEL
    || b == Reg.FAULT_LADDER || b == Reg.FAULT_CFG || b == Reg.PAIR_ROLE || b == Reg.RSTC_START_CFG || b == Reg.AON_PIN_OVR 0

/-- A write of a voted register sets its three copies alike, but for an injection into one of them (R437 code 2). -/
def voterWrite (d : Dev) (b off island : Nat) : Dev :=
  if votedReg b then
    let (j, d) := injectAt { d with voteErr := spErase d.voteErr off } 2 island off
    if j = 0 then d else { d with voteErr := spInsert d.voteErr off (0, 1) }
  else d

/-- Writes of Rind's command registers that the lease does not cover, and of SP_WD by another agent, are dropped (R314, R463);
the answer is none when the write goes on. -/
def agentDrop (d : Dev) (agent off : Nat) : Option Dev :=
  let cmd := off = Reg.RIND_CMD ∨ (Reg.RIND_DATA 0 ≤ off ∧ off ≤ Reg.RIND_DATA 15)
  if (cmd ∧ (leaseOwner d ≠ agent ∨ agent = 0)) ∨ ((cmd ∨ off = Reg.RIND_LOCK) ∧ agent = 13) then
    some (bumpSat d Reg.RIND_HEALTH Reg.RIND_HEALTH_LOCK_REJECTS 1)
  else if off = Reg.SP_WD ∧ agent ≠ 2 then some d
  else none

/-- A write of the MICRO window (R66). -/
def windowStore (d : Dev) (agent off : Nat) (v : W64) : Nat × Dev :=
  if bankState d (windowBank d) = 0 then (0, windowWrite (off - 0x2000000) (leBytes 8 v.toNat) d)
  else (1, hostReject (windowWrite (off - 0x2000000) (leBytes 8 v.toNat) d) agent off [4])

/-- The write reaches its register: 0 performed, 1 rejected, 2 dropped, 3 ignored. -/
def regStore (m : Mem) (d : Dev) (agent off : Nat) (v : W64) (isl : List Nat) : Nat × Dev :=
  if 0x2000000 ≤ off ∧ off < 0x3FF0000 then windowStore d agent off v
  else match regAt off with
    | none => (3, d)
    | some (s, x) =>
      if indexAbsent d s.base (x.getD 0 0) then (3, d)
      else match agentDrop d agent off with
      | some d => (2, d)
      | none =>
        let d := if leaseOwner d = agent ∧ agent ≠ 0 ∧ off / 0x100000 = 26 ∧ off < Reg.RIND_CFG then
            { d with rind := { d.rind with leaseAt := d.time } } else d
        let i := x.getD 0 0
        if ¬ rangeOk s.flds v then (1, hostReject d agent off isl)
        else
          let (ok, d') := regEffect ⟨agent, off, s.base, i, x.getD 1 0, v, mergeFlds s.flds (rd d off) v⟩ m d
          if ok then (0, voterWrite d' s.base off (isl.headD 0)) else (1, hostReject d' agent off isl)

/-- A write of an offset by an agent, and how it was settled. -/
def regWriteR (m : Mem) (d : Dev) (agent off : Nat) (v : W64) : Nat × Dev :=
  if ctlReset d then (2, d)
  else if (unpeek off).2 ∨ unitAbsent d off ∨ off % 8 ≠ 0 then (3, d)
  else
    let (bad, d) := csrParity d agent off 2 v
    if bad then (2, d)
    else
      let isl := islandsOf d off v
      if isl.any (islandOff d) then (1, hostReject d agent off isl)
      else
        let busy := unitBusy d off isl
        if busy ≠ [] then (2, islandDrop d agent off busy) else regStore m d agent off v isl

/-- A write of an offset by an agent. A 4 B write of the host is discarded and counted as rejected (R472). -/
def regWrite (agent off : Nat) (v : W64) (m : Mem) (d : Dev) : Dev := (regWriteR m d agent off v).2

def halfWrite (agent off : Nat) (d : Dev) : Dev :=
  if ctlReset d then d else hostReject d agent off (islandsOf d (off / 8 * 8) 0)

end Sys2Proof.Machine
end

