-- ==== Sys2Proof/Machine/Mgmt.lean ====
section
/-!
DEFINITION. The management ports: the SPI slave (R493, R494), the UART receiver (R496) and the JTAG port (R498).
-/
namespace Sys2Proof.Machine

/-! The SPI slave. -/

/-- One bit of CRC-8, polynomial 0x07. -/
def crc8Bit (c : Nat) : Nat := if c / 128 % 2 = 1 then (2 * c ^^^ 0x07) % 256 else 2 * c % 256

/-- CRC-8 of R493: initial value 0, most significant bit first, no final XOR. -/
def crc8 (bs : List Byte) : Nat := bs.foldl (fun c b => (List.range 8).foldl (fun c _ => crc8Bit c) (c ^^^ b.toNat)) 0

/-- The counts of a frame that ended with a RESULT: codes 1, 2, 3 and 6 are irregular frames. -/
def spisErr (d : Dev) (res : Nat) : Dev :=
  let d := if res = 0 then d else bumpWrap d Reg.SPIS_CNT Reg.SPIS_CNT_ERRORS 1
  if res = 1 ∨ res = 2 ∨ res = 3 ∨ res = 6 then
    wrF (bumpSat d Reg.SPIS_STATUS Reg.SPIS_STATUS_COUNT 1) Reg.SPIS_STATUS Reg.SPIS_STATUS_RESULT res
  else d

def spisFrame (d : Dev) (res : Nat) : Dev := spisErr (bumpWrap d Reg.SPIS_CNT Reg.SPIS_CNT_FRAMES 1) res

def setSpisResult (d : Dev) (res : Nat) : Dev := { d with host := { d.host with spisResult := res } }

/-- BUSY as it stands now: the access has ended when the islands it waits for have, and is given up after 10 µs. -/
def spisSettle (d : Dev) : Dev :=
  let h := d.host
  if ¬ h.spisBusy then d
  else if h.spisIslands.all (fun i => !bit (islandBusy d) i) then { d with host := { h with spisBusy := false, spisIslands := [] } }
  else if h.spisSince + 10000 ≤ d.time then
    spisErr { d with host := { h with spisBusy := false, spisIslands := [], spisResult := 6 } } 6
  else d

/-- The STATUS byte. -/
def spisByte (d : Dev) : Byte := BitVec.ofNat 8 (128 * b2n d.host.spisBusy + d.host.spisResult)

/-- How a WRITE or READ_ADDR frame fails before its access: 0 when it does not. -/
def spisFault (d : Dev) (bytes : List Byte) (crc edges : Nat) : Nat :=
  if edges ≠ 8 * (bytes.length + 1) then 2 else if crc8 bytes ≠ crc % 256 then 1 else if d.host.spisBusy then 4 else 0

/-- WRITE: at the select's rise, the write is performed. -/
def spisWrite (off : Nat) (v : W64) (crc edges : Nat) (m : Mem) (d : Dev) : Dev :=
  if ctlReset d then d
  else
    let d := spisSettle d
    let e := spisFault d ([0x02] ++ beBytes 4 off ++ beBytes 8 v.toNat) crc edges
    if e ≠ 0 then setSpisResult (spisFrame d e) e
    else
      let (code, d) := regWriteR m d 4 (off % 2 ^ 32) v
      let res := if code = 1 ∨ code = 2 then 5 else 0
      let wait := (islandsOf d (off % 2 ^ 32) v).filter fun i => bit (islandBusy d) i
      let d := setSpisResult (spisFrame d res) res
      if res = 0 ∧ wait ≠ [] then { d with host := { d.host with spisBusy := true, spisSince := d.time, spisIslands := wait } } else d

/-- READ_ADDR: at the select's rise, the register is read and the value is latched. -/
def spisReadAddr (off crc edges : Nat) (d : Dev) : Dev :=
  if ctlReset d then d
  else
    let d := spisSettle d
    let e := spisFault d ([0x03] ++ beBytes 4 off) crc edges
    if e ≠ 0 then setSpisResult (spisFrame d e) e
    else
      let (v, d) := regRead d 4 (off % 2 ^ 32)
      let d := setSpisResult (spisFrame d 0) 0
      { d with host := { d.host with spisLatch := v } }

/-- A frame that the device answers: it drives 0 during the command byte, then its bytes, then 0xFF; RESULT does not change. -/
def spisAnswer (bytes : List Byte) (edges : Nat) (d : Dev) : Dev :=
  let all := [0x00] ++ bytes
  let d := spisFrame d (if edges = 8 * all.length then 0 else 2)
  { d with host := { d.host with spisOut := (all ++ List.replicate (edges / 8 - all.length) 0xFF).take (edges / 8) } }

def spisReadData (edges : Nat) (d : Dev) : Dev :=
  if ctlReset d then d
  else
    let d := spisSettle d
    let bs := beBytes 8 d.host.spisLatch.toNat ++ [spisByte d]
    spisAnswer (bs ++ [BitVec.ofNat 8 (crc8 bs)]) edges d

def spisStatus (edges : Nat) (d : Dev) : Dev :=
  if ctlReset d then d
  else
    let d := spisSettle d
    spisAnswer [spisByte d, BitVec.ofNat 8 (crc8 [0x05, spisByte d])] edges d

/-- Select low for more than 1 ms. -/
def spisTimeout (d : Dev) : Dev := if ctlReset d then d else setSpisResult (spisFrame (spisSettle d) 6) 6

/-- A command byte that is not in the table; the rest of the frame is ignored. -/
def spisUnknown (cmd edges : Nat) (d : Dev) : Dev :=
  if ctlReset d ∨ cmd % 256 = 2 ∨ cmd % 256 = 3 ∨ cmd % 256 = 5 ∨ cmd % 256 = 11 then d
  else
    let r := if edges % 8 ≠ 0 then 2 else 3
    setSpisResult (spisFrame (spisSettle d) r) r

/-! The UART receiver. -/

/-- The majority of samples 7, 8 and 9 of a bit, which are bits 0, 1 and 2 of the number. -/
def sampleBit (t : Nat) : Nat := b2n (decide (2 ≤ bits t 0 1 + bits t 1 1 + bits t 2 1))

/-- Whether the first stop bit is good; `restart`: a start is confirmed from its fall (R496). -/
def stopGood (t : Nat) (restart : Bool) : Bool :=
  if bits t 0 1 = 0 then false
  else if bits t 1 2 = 3 ∨ restart then true
  else sampleBit t == 1

def uartDeliver (d : Dev) (x : Byte) : Dev :=
  if 64 ≤ d.host.uartRx.length then bumpSat d Reg.UART_STATUS Reg.UART_STATUS_OVERRUN 1
  else { d with host := { d.host with uartRx := d.host.uartRx ++ [x] } }

/-- One character on the line: the samples 7 to 9 of its start, data, parity and first stop bits, in order. `idle`: the line was
high for a bit time before it; `brk`: the line is held low for two character times. -/
def uartReceive (t : List Nat) (restart idle brk : Bool) (d : Dev) : Dev :=
  if ctlReset d ∨ ¬ flagF d Reg.UART_CFG Reg.UART_CFG_ENABLE then d
  else
    let d := if idle then { d with host := { d.host with uartBreak := false } } else d
    if brk then
      if d.host.uartBreak then d
      else { bumpSat d Reg.UART_STATUS Reg.UART_STATUS_BREAKS 1 with
        host := { (bumpSat d Reg.UART_STATUS Reg.UART_STATUS_BREAKS 1).host with uartBreak := true } }
    else if d.host.uartBreak ∨ sampleBit (t.getD 0 7) = 1 then d
    else
      let par := rdF d Reg.UART_CFG Reg.UART_CFG_PARITY
      let data := ((List.range 8).map fun i => sampleBit (t.getD (1 + i) 0) * 2 ^ i).foldl (· + ·) 0
      let stop := t.getD (if par = 0 then 9 else 10) 0
      if ¬ stopGood stop restart then bumpSat d Reg.UART_STATUS Reg.UART_STATUS_FRAMING 1
      else if par ≠ 0 ∧ (popCount 8 data + sampleBit (t.getD 9 0)) % 2 ≠ (if par = 1 then 0 else 1) then
        bumpSat d Reg.UART_STATUS Reg.UART_STATUS_PARITY 1
      else uartDeliver d (BitVec.ofNat 8 data)

/-! The JTAG port. -/

def jtagSelect (ir dr : Nat) (d : Dev) : Dev := { d with host := { d.host with jtagIr := ir, jtagDr := dr } }

/-- The identification register. -/
def jtagId (d : Dev) : Nat := if d.fuses.half then 0x162564B7 else 0x165124B7

/-- An instruction on the boundary scan: what is captured is no rule's, and the cells take what is shifted in. -/
def jtagScan (ir v : Nat) (d : Dev) : Dev :=
  let (x, d) := takeFree d 64
  let d := jtagSelect ir x.toNat d
  { d with host := { d.host with jtagBsr := v } }

/-- CSR_ACCESS: the access at Update-DR; a blown debug-lock fuse makes it a bypass. -/
def jtagAccess (op off : Nat) (v : W64) (m : Mem) (d : Dev) : Dev :=
  if d.fuses.debugLock then jtagSelect 0x10 0 d
  else if op = 1 then
    let (x, d) := regRead d 13 (off % 2 ^ 32)
    jtagSelect 0x10 x.toNat d
  else if op = 2 then jtagSelect 0x10 d.host.jtagDr (regWrite 13 (off % 2 ^ 32) v m d)
  else jtagSelect 0x10 d.host.jtagDr d

end Sys2Proof.Machine
end

