-- ==== Sys2Proof/Machine/Host.lean ====
section
/-!
DEFINITION. The host interface (R472 to R485) and the accesses of the other agents: completions, holding removal, the loss of
the PCIe link, BAR2, the start-up configuration (R457) and the peer's requests (R412, R413).
-/
namespace Sys2Proof.Machine

/-! Event FIFOs and completions. -/

/-- HOLD_NS has passed for the oldest unsignalled entry of FIFO f (R483). -/
def evtHoldExpiry (f : Nat) (d : Dev) : Dev := if (getEvt d f).unsignalled = 0 then d else evtSignal d f

/-- A command unit ends its operation: BUSY falls, DONE counts where the unit has it, and the completion is posted (R484). -/
def unitDone (d : Dev) (src status : Nat) (busy : Fld) (done : Option Fld) (arg : Nat) : Dev :=
  if ¬ flagF d status busy then d
  else
    let d := wrF d status busy 0
    postDone (match done with | some f => bumpWrap d status f 1 | none => d) src arg status

/-- The operation of a completion source ends. PROG_LOAD, holding removal and peer accesses end by commands of their own. -/
def commandCompletion (src : Nat) (m : Mem) (d : Dev) : Dev :=
  if src = 1 then unitDone d 1 Reg.ORCHARD_STATUS Reg.ORCHARD_STATUS_BUSY (some Reg.ORCHARD_STATUS_DONE) (rdF d Reg.ORCHARD_CMD Reg.ORCHARD_CMD_INDEX)
  else if src = 2 then unitDone (if flagF d Reg.ASSOC_STATUS Reg.ASSOC_STATUS_BUSY then assocFinish d else d) 2 Reg.ASSOC_STATUS Reg.ASSOC_STATUS_BUSY (some Reg.ASSOC_STATUS_DONE) (rdF d Reg.ASSOC_CMD Reg.ASSOC_CMD_INDEX)
  else if src = 3 then unitDone d 3 Reg.RIND_STATUS Reg.RIND_STATUS_BUSY (some Reg.RIND_STATUS_DONE) (rdF d Reg.RIND_CMD Reg.RIND_CMD_INDEX)
  else if src = 4 then unitDone d 4 Reg.MC_STATUS Reg.MC_STATUS_BUSY none (rdF d Reg.MC_CMD Reg.MC_CMD_INDEX)
  else if src = 5 then unitDone d 5 Reg.QUEUE_STATUS Reg.QUEUE_STATUS_BUSY none (rdF d Reg.QUEUE_CMD Reg.QUEUE_CMD_QUEUE)
  else if src = 6 then unitDone d 6 Reg.DRILL_STATUS Reg.DRILL_STATUS_BUSY (some Reg.DRILL_STATUS_DONE) (rdF d Reg.DRILL_CMD Reg.DRILL_CMD_INDEX)
  else if src = 7 ∧ flagF d Reg.DEEP_ACC_STATUS Reg.DEEP_ACC_STATUS_BUSY then
    postDoneFree (wrF (accComplete d) Reg.DEEP_ACC_STATUS Reg.DEEP_ACC_STATUS_BUSY 0) 7 Reg.DEEP_ACC_STATUS
  else if src = 11 ∧ flagF d Reg.SPIM_STATUS Reg.SPIM_STATUS_BUSY then spimDone m d
  else d

/-! Holding removal (R485). -/

/-- Whether a packet of a holding is in a furrow. -/
def holdingInFurrow (d : Dev) (h : Nat) : Bool :=
  d.furs.any fun e => (furPkts e.2).any (fun q => pcGet q.2 Pc.holding == h) || e.2.entryQ.any fun p => pcGet p Pc.holding == h

/-- No packet of the holding remains in a furrow: the removal is complete. -/
def removalDone (d : Dev) : Dev :=
  let o := Reg.HOST_HOLDING_STATUS
  let h := rdF d o Reg.HOST_HOLDING_STATUS_HOLDING
  if ¬ flagF d o Reg.HOST_HOLDING_STATUS_BUSY ∨ holdingInFurrow d h then d
  else postDone (msi (bumpWrap (wrF d o Reg.HOST_HOLDING_STATUS_BUSY 0) o Reg.HOST_HOLDING_STATUS_REMOVALS 1) (160 + h)) 9 h o

/-! Function-level reset and the PCIe link (R474). -/

/-- The HOST block is cleared, the event FIFOs are empty, and a lease of host software ends. -/
def hostClear (d : Dev) : Dev :=
  let d := clearRegs d fun o => o / 0x100000 == 4
  let d := { d with host := { d.host with evt := [], latch := [], ringDue := [], ringNotice := [] } }
  if leaseOwner d = 1 then leaseEnd d else d

def flr (d : Dev) : Dev := if ctlReset d then d else hostClear d

def pcieLoss (d : Dev) : Dev :=
  if ctlReset d ∨ ¬ d.host.pcieUp then d
  else raise (hostClear { d with host := { d.host with pcieUp := false } }) Fk.pcieLinkDown 0 0 0 0

def pcieTrained (d : Dev) : Dev :=
  if ctlReset d then d else endCond { d with host := { d.host with pcieUp := true } } Fk.pcieLinkDown 0

/-! BAR2 (R473). -/

/-- The deep-store address of a BAR2 offset of the bulk window. -/
def bulkAddr (d : Dev) (off : Nat) : Nat := (rd d Reg.HOST_BULK_BASE).toNat + (off - 0x2000000)

/-- A BAR2 write leaves the bulk queue: to the MICRO window, or to the deep store through the HOST port. -/
def bar2Write (off : Nat) (bs : List Byte) (m : Mem) (d : Dev) : Dev :=
  if ctlReset d ∨ 0x10000000 ≤ off then d
  else if off < 0x1FF0000 then (if islandOff d 4 then d else windowWrite off bs d)
  else if off < 0x2000000 ∨ islandOff d 3 then d
  else (deepWrite m d 5 (bulkAddr d off) bs 1 2).2

/-- A BAR2 read of n bytes. -/
def bar2Read (off n : Nat) (m : Mem) (d : Dev) : Dev :=
  let ans := fun (d : Dev) (x : Nat × List Byte) => { d with host := { d.host with bar2Ans := x } }
  if ctlReset d ∨ 0x10000000 ≤ off then d
  else if off < 0x1FF0000 then
    ans d (0, if islandOff d 4 then List.replicate n 0 else (List.range n).map fun k => windowRead d (off + k))
  else if off < 0x2000000 then ans d (0, List.replicate n 0)
  else if islandOff d 3 then ans d (2, [])
  else
    let (bs, r, d) := deepRead m d 5 (bulkAddr d off) n 1 1
    ans d (if r = 0 then (0, bs) else if r = 2 then (1, List.replicate n 0) else (2, []))

/-! The start-up configuration (R457). -/

/-- Apply n records from record i of the body's configuration on, until one is rejected. -/
def cfgRun (m : Mem) (body : List Byte) : Nat → Nat → Dev → Dev
  | 0, _, d => d
  | n + 1, i, d =>
    let r := (body.drop (16 * i)).take 16
    let (code, d) := regWriteR m d 2 (leNat (r.take 8)) (BitVec.ofNat 64 (leNat (r.drop 8)))
    if code = 1 then
      let f := if rdF d Reg.BOOT_STATUS Reg.BOOT_STATUS_SLOT = 0 then Reg.BOOT_STATUS_ERROR_SLOT0 else Reg.BOOT_STATUS_ERROR_SLOT1
      wrFs d Reg.BOOT_STATUS [(f, 6), (Reg.BOOT_STATUS_CONFIG_INDEX, i)]
    else cfgRun m body n (i + 1) d

/-- The service processor applies the start-up configuration of its image. -/
def cfgApply (m : Mem) (d : Dev) : Dev :=
  if ¬ d.rst.cfgDue ∨ devReset d then d
  else
    let img := d.rst.copy
    cfgRun m ((imgBody img).drop (imgNat img 0x14 4)) (min 4096 (imgNat img 0x18 4)) 0 { d with rst := { d.rst with cfgDue := false } }

/-- What the pair's chapter asks of the device happens while its control island runs. -/
def unlessReset (f : Dev → Dev) (d : Dev) : Dev := if ctlReset d then d else f d

/-- Whether the pair's frames, pins and timeouts stand still: a warm reset keeps the Serlet link's physical layer alone (R395, R445). -/
def pairHeld (d : Dev) : Bool := ctlReset d || d.rst.warm
def unlessHeld (f : Dev → Dev) (d : Dev) : Dev := if pairHeld d then d else f d

/-! Requests of the pair peer (R412, R413). -/

/-- The answer to an AGENT_REQ. -/
def agentReply (tag result : Nat) (data : W64) (d : Dev) : Dev :=
  pairSend d 5 tag 0 (beBytes 1 result ++ beBytes 7 0 ++ beBytes 8 data.toNat)

/-- AGENT_REQ: the access is performed as the pair peer, on the RIND and PAIR blocks only. -/
def agentReq (ack tag op off : Nat) (v : W64) (m : Mem) (d : Dev) : Dev :=
  let d := frameAccept ack d
  let k := off / 0x100000
  if ¬ journalOn d then agentReply tag 3 0 d
  else if k ≠ 7 ∧ k ≠ 26 then agentReply tag 1 0 d
  else if op = 1 then
    let (x, d) := regRead d 3 off
    agentReply tag 0 x d
  else
    let (code, d) := regWriteR m d 3 off v
    agentReply tag (if code = 0 ∨ code = 3 then 0 else 4) 0 d

/-- RESET_REQ: refused unless ACCEPT_RESET = 1 and the state is PAIRED or SPLIT. -/
def resetReq (ack tag : Nat) (d : Dev) : Dev :=
  let d := frameAccept ack d
  if flagF d Reg.PAIR_CFG Reg.PAIR_CFG_ACCEPT_RESET ∧ (pairState d = 3 ∨ pairState d = 4) then
    warmReset 8 (raise (sayGoodbye (pairSend d 7 tag 0 (beBytes 1 0))) Fk.peerReset 0 0 0 0)
  else pairSend d 7 tag 0 (beBytes 1 1)

end Sys2Proof.Machine
end

