-- ==== Sys2Proof/Machine/Rings.lean ====
section
/-!
DEFINITION. The punt rings (R486 to R488) and the inject rings (R489 to R492). What host software has put into its memory is an
operand of the command.
-/
namespace Sys2Proof.Machine

/-! Punt rings. -/

def getRingQ (d : Dev) (r : Nat) : List (Pkt × Nat) := spGet (fun _ => []) d.host.ringQ r
def putRingQ (d : Dev) (r : Nat) (q : List (Pkt × Nat)) : Dev :=
  { d with host := { d.host with ringQ := spPut (fun _ => []) d.host.ringQ r q } }

/-- A descriptor as host software posted it: BUF_ADDR, BUF_LEN and DONE. -/
abbrev PuntDesc := Nat × Nat × Bool

def descOk (x : PuntDesc) : Bool :=
  x.1 % 64 == 0 && x.2.1 % 64 == 0 && decide (256 ≤ x.2.1 ∧ x.2.1 ≤ 16384) && !x.2.2

/-- One buffer of a delivery: its place in the ring past HEAD, its descriptor, and the bytes it takes; none for a descriptor that
failed its check. -/
structure PuntBuf where
  slot : Nat
  desc : PuntDesc
  data : Option (List Byte)
  deriving DecidableEq, Repr

/-- Lay the bytes into the descriptors, at most `left` good ones; the answer is the buffers, the bytes that found no place, and
whether the descriptors were enough or the packet is cut after 16 buffers. -/
def puntPlace : List PuntDesc → Nat → Nat → List Byte → List PuntBuf × List Byte × Bool
  | _, _, 0, bs => ([], bs, true)
  | [], _, _ + 1, bs => ([], bs, bs.isEmpty)
  | x :: t, i, left + 1, bs =>
    if bs.isEmpty then ([], [], true)
    else if descOk x then
      let (l, rest, ok) := puntPlace t (i + 1) left (bs.drop x.2.1)
      (⟨i, x, some (bs.take x.2.1)⟩ :: l, rest, ok)
    else
      let (l, rest, ok) := puntPlace t (i + 1) (left + 1) bs
      (⟨i, x, none⟩ :: l, rest, ok)

/-- Host address of a descriptor. -/
def puntSlot (d : Dev) (r i : Nat) : Nat :=
  (rd d (Reg.PUNT_RING r 0)).toNat + 32 * ((rdF d (Reg.PUNT_RING r 3) Reg.PUNT_RING_HEAD + i) % 2 ^ rdF d (Reg.PUNT_RING r 1) Reg.PUNT_RING_LOG2_SLOTS)

/-- The bytes that the device writes into a descriptor: W1[63:16], and W2 with W3 in the first buffer of a packet (R486). -/
def descBack (p : Pkt) (b : PuntBuf) (sop eop ctx trunc : Bool) (flen : Nat) : List Byte :=
  match b.data with
  | none => leBytes 6 (2 ^ 20 + 2 ^ 47)
  | some bs =>
    let w := bs.length + b2n sop * 2 ^ 16 + b2n eop * 2 ^ 17 + b2n (sop && ctx) * 2 ^ 18 + b2n (eop && trunc) * 2 ^ 19 + 2 ^ 47
    leBytes 6 w ++ (if sop then leBytes 8 (if p.fromHost then 0 else p.rxTime)
      ++ leBytes 8 (inPort p + pcGet p Pc.holding * 2 ^ 16 + pcGet p Pc.puntReason * 2 ^ 24 + flen * 2 ^ 32) else [])

/-- The notice of a ring: HEAD to HEAD_ADDR, and its vector (R488). -/
def puntNotice (r : Nat) (d : Dev) : Dev :=
  if spGet (fun _ => 0) d.host.ringDue r = 0 then d
  else
    let a := (rd d (Reg.PUNT_RING r 4)).toNat
    let d := if a = 0 then d else memWrite d spHost a (leBytes 8 (rd d (Reg.PUNT_RING r 3)).toNat)
    msi { d with host := { d.host with ringDue := spPut (fun _ => 0) d.host.ringDue r 0,
                                       ringNotice := spPut (fun _ => 0) d.host.ringNotice r (d.time + 1) } } r

/-- A packet is complete: its notice is given, or waits for MIN_NOTICE_NS. -/
def puntComplete (d : Dev) (r : Nat) : Dev :=
  let d := { d with host := { d.host with ringDue := spPut (fun _ => 0) d.host.ringDue r 1 } }
  let last := spGet (fun _ => 0) d.host.ringNotice r
  if last = 0 ∨ last + rdF d (Reg.PUNT_RING r 1) Reg.PUNT_RING_MIN_NOTICE_NS ≤ d.time + 1 then puntNotice r d else d

/-- The device writes the buffers' data, then the descriptors in slot order. -/
def puntWrite (d : Dev) (r : Nat) (p : Pkt) (l : List PuntBuf) (ctx trunc : Bool) : Dev :=
  let good := l.filter fun b => b.data.isSome
  let first := (good.head?).elim 0 PuntBuf.slot
  let last := (good.getLast?).elim 0 PuntBuf.slot
  let total := good.foldl (fun n b => n + (b.data.getD []).length) 0
  let d := good.foldl (fun d b => memWrite d spHost b.desc.1 (b.data.getD [])) d
  l.foldl (fun d b =>
    let d := memWrite d spHost (puntSlot d r b.slot + 10)
      (descBack p b (b.slot == first) (b.slot == last) ctx trunc (total - if ctx then 256 else 0))
    if b.data.isSome then d
    else
      let i := (puntSlot d r b.slot - (rd d (Reg.PUNT_RING r 0)).toNat) / 32
      raise (bumpSat d (Reg.PUNT_RING r 6) Reg.PUNT_RING_DESC_ERR 1) Fk.descErr 0 i 9 7) d

/-- The oldest packet of a ring's queue is delivered into the descriptors that host software has posted, given from HEAD on
(R487). -/
def puntDeliver (r : Nat) (descs : List PuntDesc) (d : Dev) : Dev :=
  match getRingQ d r with
  | [] => d
  | (p, _) :: t =>
    let head := rdF d (Reg.PUNT_RING r 3) Reg.PUNT_RING_HEAD
    let posted := (rdF d (Reg.PUNT_RING r 2) Reg.PUNT_RING_TAIL + 2 ^ 32 - head) % 2 ^ 32
    let ctx := flagF d (Reg.PUNT_RING r 1) Reg.PUNT_RING_CTX_EN
    let bytes := (if ctx then leBytes 256 p.ctx.toNat else []) ++ p.frame
    let (l, rest, ok) := puntPlace (descs.take posted) 0 16 bytes
    if ¬ flagF d (Reg.PUNT_RING r 1) Reg.PUNT_RING_ENABLE ∨ ¬ ok then d
    else
      let d := puntWrite (putRingQ d r t) r p l ctx (!rest.isEmpty)
      let d := wrF d (Reg.PUNT_RING r 3) Reg.PUNT_RING_HEAD (head + l.length)
      releaseFrame (puntComplete (bump d (Reg.PUNT_RING r 5)) r) p

/-- The oldest packet has waited 1 ms without enough posted descriptors. -/
def puntTimeout (r : Nat) (d : Dev) : Dev :=
  match getRingQ d r with
  | [] => d
  | (p, _) :: t => releaseFrame (bumpSat (putRingQ d r t) (Reg.PUNT_RING r 6) Reg.PUNT_RING_WAIT_TIMEOUT 1) p

/-! Inject rings. -/

def injF (d : Dev) (r w : Nat) (f : Fld) : Nat := rdF d (Reg.INJ_RING r w) f

/-- Whether an element meets causes 1 to 3 of R490: the first of them, 0 when none. -/
def elemCause (d : Dev) (r : Nat) (e : W64 × W64) : Nat :=
  let a := e.1.toNat
  let n := bits e.2.toNat 0 14
  if a < (rd d (Reg.INJ_RING r 7)).toNat ∨ (rd d (Reg.INJ_RING r 8)).toNat < a + n then 1
  else if n ≠ 0 ∧ a / 4096 ≠ (a + n - 1) / 4096 then 2
  else if n = 0 ∨ bits e.2.toNat 14 50 ≠ 0 then 3
  else 0

/-- Bytes of a packet's elements. -/
def injTotal (els : List (W64 × W64)) : Nat := els.foldl (fun n e => n + bits e.2.toNat 0 14) 0

/-- The first failing element and its cause (R490). -/
def injFail (d : Dev) (r : Nat) (direct : Bool) (h0 : W64) (els : List (W64 × W64)) : Option (Nat × Nat) :=
  let h := h0.toNat
  let port := bits h 16 9
  if bits h 6 10 ≠ 0 ∨ bits h 25 15 ≠ 0 ∨ (¬ direct ∧ portCount d ≤ port) then some (31, 0)
  else match (List.range els.length).find? fun k => elemCause d r (els.getD k (0, 0)) != 0 with
    | some k => some (k, elemCause d r (els.getD k (0, 0)))
    | none =>
      let n := injTotal els
      let top := if direct then 16379 else rdF d (Reg.PORT_MODE (port / 64) (port % 64)) Reg.PORT_MODE_MAX_FRAME - 4
      if n < 60 ∨ top < n then some (els.length - 1, 4) else none

/-- Frames of DIRECT packets that wait for stage 1, in bytes. -/
def directWaiting (d : Dev) : Nat :=
  d.fab.voq.foldl (fun n e => n + e.2.foldl (fun n p => if p.inject.isSome ∧ p.cells = [] then n + p.frame.length else n) 0) 0

/-- A packet of a ring is not injected: HEAD passes it, and the completion says why. -/
def injRefuse (d : Dev) (r n slot cookie elem cause : Nat) : Dev :=
  let d := bumpWrap d (Reg.INJ_RING r 3) Reg.INJ_RING_HEAD n
  let d := bumpSat d (Reg.INJ_RING r 10) Reg.INJ_RING_FAILS 1
  raise (cplWrite d r slot cookie 1 elem cause 0 0) Fk.descErr 0 slot 9 7

/-- The next packet of a ring: its header slot, its element slots and the bytes that they name; `dma` is the element whose data
read failed or timed out. `go` hands the frame over, given the header, the slot and the cookie. -/
def injTake (r : Nat) (direct : Bool) (h0 h1 : W64) (els : List (W64 × W64)) (data : List Byte) (dma : Option Nat)
    (go : Dev → Nat → List Byte → Nat → Nat → Dev) (d : Dev) : Dev :=
  let n := bits h0.toNat 0 4 + 1
  let els := (List.range n).map fun k => els.getD k (0, 0)
  let head := injF d r 3 Reg.INJ_RING_HEAD
  let slot := head % 2 ^ injF d r 1 Reg.INJ_RING_LOG2_SLOTS
  let posted := (injF d r 2 Reg.INJ_RING_TAIL + 2 ^ 32 - head) % 2 ^ 32
  let cpl := (injF d r 6 Reg.INJ_RING_CPL_PROD + 2 ^ 32 - injF d r 5 Reg.INJ_RING_CPL_CONS) % 2 ^ 32
  let total := injTotal els
  if injF d r 1 Reg.INJ_RING_ENABLE = 0 ∨ posted < n + 1 ∨ 2 ^ injF d r 1 Reg.INJ_RING_CPL_LOG2 ≤ cpl then d
  else match injFail d r direct h0 els with
    | some (e, c) => injRefuse d r (n + 1) slot h1.toNat e c
    | none =>
      match dma with
      | some e =>
        let d := bumpSat d (Reg.INJ_RING r 10) Reg.INJ_RING_DMA_ERRS 1
        raise (injRefuse d r (n + 1) slot h1.toNat (min e (n - 1)) 5) Fk.dmaErr 0 0 9 7
      | none =>
        if 4194304 < d.host.injBuf + directWaiting d + total then d
        else
          let frame := (List.range total).map fun k => data.getD k 0
          go (bumpWrap d (Reg.INJ_RING r 3) Reg.INJ_RING_HEAD (n + 1)) h0.toNat frame slot h1.toNat

/-- A PIPELINE packet goes to Harrow, with its completion (R491, R492). -/
def pipeline (r : Nat) (h0 h1 : W64) (els : List (W64 × W64)) (data : List Byte) (dma : Option Nat) (d : Dev) : Dev :=
  injTake r false (setF h0 ⟨4, 1⟩ 0) h1 els data dma (fun d h frame slot cookie =>
    let port := bits h 16 9
    let a := port / 128
    let p := { newPkt frame port d.time with fromHost := true }
    let d := { setInQ d a 3 (inQ d a 3 ++ [p]) with host := { d.host with injBuf := d.host.injBuf + frame.length } }
    cplWrite (bump d (Reg.INJ_RING r 9)) r slot cookie 0 0 0 0 0) d

/-- A DIRECT packet enters stage 1 in the acre of its queue's egress port (R491). -/
def direct (r : Nat) (h0 h1 : W64) (els : List (W64 × W64)) (data : List Byte) (dma : Option Nat) (d : Dev) : Dev :=
  injTake r true (setF h0 ⟨4, 1⟩ 1) h1 els data dma (fun d h frame slot cookie =>
    let q := bits h 48 16
    let a := queuePort d q / 128
    let p := { newPkt frame 0 d.time with noEdit := true, fromHost := true, mapRef := 256, inject := some (r, slot, cookie, bit h 5) }
    let p := pcSet (pcSet (pcSet p Pc.disposition 1) Pc.egressQueue q) Pc.holding (bits h 40 8)
    voqPush d a a p) d

end Sys2Proof.Machine
end

