-- ==== Sys2Proof/Machine/CmdHost.lean ====
section
/-!
DEFINITION. The commands of the host interface and of the management ports that no register write starts.
-/
namespace Sys2Proof.Machine

/-- FUNCTION_LEVEL_RESET (R474): A function-level reset clears the HOST block and stops host DMA. -/
def execFunctionLevelReset (s : State) : Host.Outcome State Fault Refusal :=
  run (flr) s

/-- PCIE_LINK_LOSS (R474): Loss of the PCIe link or PERST_N clears the HOST block and ends the host lease. -/
def execPcieLinkLoss (s : State) : Host.Outcome State Fault Refusal :=
  run (pcieLoss) s

/-- PCIE_LINK_UP (R474): The PCIe link finishes training and comes up, ending the PCIE_LINK_DOWN condition. -/
def execPcieLinkUp (s : State) : Host.Outcome State Fault Refusal :=
  run (pcieTrained) s

/-- BAR2_WRITE (R473): A BAR2 write enters the bulk queue to the MICRO window or the deep store. -/
def execBar2Write (off : Nat) (bs : List Byte) (s : State) : Host.Outcome State Fault Refusal :=
  runMem (bar2Write off bs) s

/-- BAR2_READ (R473): A BAR2 read reads the MICRO window or the deep store through the HOST port. -/
def execBar2Read (off n : Nat) (s : State) : Host.Outcome State Fault Refusal :=
  runMem (bar2Read off n) s

/-- VOTER_SWEEP (R479): Every 1 ms voted fields are compared and disagreeing copies rewritten. -/
def execVoterSweep (s : State) : Host.Outcome State Fault Refusal :=
  run (voterSweep) s

/-- EVT_HOLD_EXPIRY (R483): An unsignalled entry waiting HOLD_NS raises the FIFO's vector. -/
def execEvtHoldExpiry (f : Nat) (s : State) : Host.Outcome State Fault Refusal :=
  run (evtHoldExpiry f) s

/-- COMMAND_COMPLETION (R484): A host-started operation completes and a command-completion entry is posted. -/
def execCommandCompletion (src : Nat) (s : State) : Host.Outcome State Fault Refusal :=
  runMem (commandCompletion src) s

/-- HOLDING_REMOVAL_DONE (R485): No packet of the holding remains in a furrow and removal completes. -/
def execHoldingRemovalDone (s : State) : Host.Outcome State Fault Refusal :=
  run (removalDone) s

/-- PUNT_DELIVERY (R487): A punted packet is written into posted buffers of its ring with descriptors. -/
def execPuntDelivery (r : Nat) (descs : List (Nat × Nat × Bool)) (s : State) : Host.Outcome State Fault Refusal :=
  run (puntDeliver r descs) s

/-- PUNT_WAIT_TIMEOUT (R488): A packet waiting 1 ms in its ring queue without descriptors is discarded. -/
def execPuntWaitTimeout (r : Nat) (s : State) : Host.Outcome State Fault Refusal :=
  run (puntTimeout r) s

/-- PUNT_NOTICE (R488): After MIN_NOTICE_NS a ring writes HEAD and raises its vector for completed packets. -/
def execPuntNotice (r : Nat) (s : State) : Host.Outcome State Fault Refusal :=
  run (puntNotice r) s

/-- PIPELINE (R491): A PIPELINE inject packet is checked, fetched and handed to Harrow with a completion. -/
def execPipeline (r : Nat) (h0 h1 : W64) (els : List (W64 × W64)) (data : List Byte) (dma : Option Nat) (s : State) : Host.Outcome State Fault Refusal :=
  run (pipeline r h0 h1 els data dma) s

/-- DIRECT (R491): A DIRECT inject packet is checked, fetched and entered at stage 1 with a completion. -/
def execDirect (r : Nat) (h0 h1 : W64) (els : List (W64 × W64)) (data : List Byte) (dma : Option Nat) (s : State) : Host.Outcome State Fault Refusal :=
  run (direct r h0 h1 els data dma) s

/-- SPIS_WRITE (R493): SPI slave WRITE performs a register write at the select's rise. -/
def execSpisWrite (off : Nat) (v : W64) (crc edges : Nat) (s : State) : Host.Outcome State Fault Refusal :=
  runMem (spisWrite off v crc edges) s

/-- READ_ADDR (R493): SPI slave READ_ADDR reads a register and latches the value. -/
def execSpisReadAddr (off crc edges : Nat) (s : State) : Host.Outcome State Fault Refusal :=
  run (spisReadAddr off crc edges) s

/-- READ_DATA (R493): SPI slave READ_DATA returns the latched value. -/
def execSpisReadData (edges : Nat) (s : State) : Host.Outcome State Fault Refusal :=
  run (spisReadData edges) s

/-- STATUS (R493): SPI slave STATUS returns BUSY and the last RESULT. -/
def execSpisStatus (edges : Nat) (s : State) : Host.Outcome State Fault Refusal :=
  run (spisStatus edges) s

/-- SPIS_SELECT_TIMEOUT (R494): Select low for more than 1 ms discards the frame with TIMEOUT. -/
def execSpisSelectTimeout (s : State) : Host.Outcome State Fault Refusal :=
  run (spisTimeout) s

/-- UNKNOWN_CMD (R493): An SPI slave frame whose command byte is not in the table is ignored with RESULT UNKNOWN_CMD and counted as irregular. -/
def execSpisUnknownCmd (cmd edges : Nat) (s : State) : Host.Outcome State Fault Refusal :=
  run (spisUnknown cmd edges) s

/-- UART_RX_CHARACTER (R496): The UART receiver takes a character, or discards it for framing, parity or break. -/
def execUartRxCharacter (t : List Nat) (restart idle brk : Bool) (s : State) : Host.Outcome State Fault Refusal :=
  run (uartReceive t restart idle brk) s

/-- IDCODE (R498): JTAG IDCODE selects the identification register. -/
def execJtagIdcode (s : State) : Host.Outcome State Fault Refusal :=
  run (fun d => jtagSelect 0x01 (jtagId d) d) s

/-- SAMPLE_PRELOAD (R498): JTAG SAMPLE/PRELOAD selects the boundary scan. -/
def execJtagSamplePreload (x : Nat) (s : State) : Host.Outcome State Fault Refusal :=
  run (jtagScan 0x02 x) s

/-- EXTEST (R498): JTAG EXTEST drives the boundary scan. -/
def execJtagExtest (x : Nat) (s : State) : Host.Outcome State Fault Refusal :=
  run (jtagScan 0x03 x) s

/-- CLAMP (R498): JTAG CLAMP holds outputs with bypass. -/
def execJtagClamp (s : State) : Host.Outcome State Fault Refusal :=
  run (jtagSelect 0x04 0) s

/-- HIGHZ (R498): JTAG HIGHZ floats outputs with bypass. -/
def execJtagHighz (s : State) : Host.Outcome State Fault Refusal :=
  run (jtagSelect 0x05 0) s

/-- CSR_ACCESS (R498): JTAG CSR_ACCESS performs a register access at Update-DR as the JTAG agent. -/
def execJtagCsrAccess (op off : Nat) (v : W64) (s : State) : Host.Outcome State Fault Refusal :=
  runMem (jtagAccess op off v) s

/-- BYPASS (R498): JTAG BYPASS selects the bypass register. -/
def execJtagBypass (s : State) : Host.Outcome State Fault Refusal :=
  run (jtagSelect 0xFF 0) s

/-- TEST_LOGIC_RESET (R515): TRST_N low resets the JTAG test logic. -/
def execTestLogicReset (s : State) : Host.Outcome State Fault Refusal :=
  run (fun d => jtagSelect 0x01 (jtagId d) d) s

end Sys2Proof.Machine
end

