-- ==== Sys2Proof/Machine/CmdNano.lean ====
section
/-!
DEFINITION. The operations of a nanoword as commands of their own, and the results that land.
-/
namespace Sys2Proof.Machine

/-- One part of a nanoword: a reserved encoding, or an edit without room, makes its row-step the trap of R115. -/
def nanoPart (l : PktRef) (bad full : Pkt → Bool) (act : Dev → Dev) (d : Dev) : Dev :=
  match getPkt d l with
  | none => d
  | some p =>
    if bad p || full p then
      match rowOf p with
      | some r => trapDrop (opCnt d l 6 1) l p r (if bad p then 0xE else 0xF)
      | none => d
    else act d

/-- A part that forms a key (R94). -/
def keyPart (l : PktRef) (kmode : Bool) (ksrc : Nat) (act : Dev → Dev) (d : Dev) : Dev :=
  nanoPart l (fun _ => keyBad kmode ksrc) (fun _ => false) act d

/-- An edit-list builder (R110, R115). -/
def editPart (l : PktRef) (op : Nat) (g : EGroup) (d : Dev) : Dev :=
  nanoPart l (fun p => editBad p op g []) (fun p => editFull p op g) (onPkt l (pkEdit op g)) d

/-- FIELD_EXTRACT (R86): A field extractor reads a field from the header window or context. -/
def execFieldExtract (l : PktRef) (n : Nat) (g : XGroup) (s : State) : Host.Outcome State Fault Refusal :=
  run (onPkt l (pkExtract n g)) s

/-- MOV (R89): ALU operation MOV. -/
def execAluMov (l : PktRef) (n : Nat) (g : AluGroup) (imm : Nat) (s : State) : Host.Outcome State Fault Refusal :=
  run (onPkt l fun p => aluStep p n g imm aluMov) s

/-- ADD (R89): ALU operation ADD. -/
def execAluAdd (l : PktRef) (n : Nat) (g : AluGroup) (imm : Nat) (s : State) : Host.Outcome State Fault Refusal :=
  run (onPkt l fun p => aluStep p n g imm aluAdd) s

/-- SUB (R89): ALU operation SUB. -/
def execAluSub (l : PktRef) (n : Nat) (g : AluGroup) (imm : Nat) (s : State) : Host.Outcome State Fault Refusal :=
  run (onPkt l fun p => aluStep p n g imm aluSub) s

/-- AND (R89): ALU operation AND. -/
def execAluAnd (l : PktRef) (n : Nat) (g : AluGroup) (imm : Nat) (s : State) : Host.Outcome State Fault Refusal :=
  run (onPkt l fun p => aluStep p n g imm aluAnd) s

/-- OR (R89): ALU operation OR. -/
def execAluOr (l : PktRef) (n : Nat) (g : AluGroup) (imm : Nat) (s : State) : Host.Outcome State Fault Refusal :=
  run (onPkt l fun p => aluStep p n g imm aluOr) s

/-- XOR (R89): ALU operation XOR. -/
def execAluXor (l : PktRef) (n : Nat) (g : AluGroup) (imm : Nat) (s : State) : Host.Outcome State Fault Refusal :=
  run (onPkt l fun p => aluStep p n g imm aluXor) s

/-- ANDN (R89): ALU operation ANDN. -/
def execAluAndn (l : PktRef) (n : Nat) (g : AluGroup) (imm : Nat) (s : State) : Host.Outcome State Fault Refusal :=
  run (onPkt l fun p => aluStep p n g imm aluAndn) s

/-- NOT (R89): ALU operation NOT. -/
def execAluNot (l : PktRef) (n : Nat) (g : AluGroup) (imm : Nat) (s : State) : Host.Outcome State Fault Refusal :=
  run (onPkt l fun p => aluStep p n g imm aluNot) s

/-- SHL (R89): ALU operation SHL. -/
def execAluShl (l : PktRef) (n : Nat) (g : AluGroup) (imm : Nat) (s : State) : Host.Outcome State Fault Refusal :=
  run (onPkt l fun p => aluStep p n g imm aluShl) s

/-- SHR (R89): ALU operation SHR. -/
def execAluShr (l : PktRef) (n : Nat) (g : AluGroup) (imm : Nat) (s : State) : Host.Outcome State Fault Refusal :=
  run (onPkt l fun p => aluStep p n g imm aluShr) s

/-- SAR (R89): ALU operation SAR. -/
def execAluSar (l : PktRef) (n : Nat) (g : AluGroup) (imm : Nat) (s : State) : Host.Outcome State Fault Refusal :=
  run (onPkt l fun p => aluStep p n g imm aluSar) s

/-- ROL (R89): ALU operation ROL. -/
def execAluRol (l : PktRef) (n : Nat) (g : AluGroup) (imm : Nat) (s : State) : Host.Outcome State Fault Refusal :=
  run (onPkt l fun p => aluStep p n g imm aluRol) s

/-- MIN (R89): ALU operation MIN. -/
def execAluMin (l : PktRef) (n : Nat) (g : AluGroup) (imm : Nat) (s : State) : Host.Outcome State Fault Refusal :=
  run (onPkt l fun p => aluStep p n g imm aluMin) s

/-- MAX (R89): ALU operation MAX. -/
def execAluMax (l : PktRef) (n : Nat) (g : AluGroup) (imm : Nat) (s : State) : Host.Outcome State Fault Refusal :=
  run (onPkt l fun p => aluStep p n g imm aluMax) s

/-- CSUM (R89): ALU operation CSUM, a ones'-complement sum. -/
def execAluCsum (l : PktRef) (n : Nat) (g : AluGroup) (imm : Nat) (s : State) : Host.Outcome State Fault Refusal :=
  run (onPkt l fun p => aluStep p n g imm aluCsum) s

/-- CRC (R89): ALU operation CRC over eight bytes. -/
def execAluCrc (l : PktRef) (n : Nat) (g : AluGroup) (imm : Nat) (s : State) : Host.Outcome State Fault Refusal :=
  run (onPkt l fun p => aluStep p n g imm aluCrc) s

/-- POPC (R89): ALU operation POPC. -/
def execAluPopc (l : PktRef) (n : Nat) (g : AluGroup) (imm : Nat) (s : State) : Host.Outcome State Fault Refusal :=
  run (onPkt l fun p => aluStep p n g imm aluPopc) s

/-- CLZ (R89): ALU operation CLZ. -/
def execAluClz (l : PktRef) (n : Nat) (g : AluGroup) (imm : Nat) (s : State) : Host.Outcome State Fault Refusal :=
  run (onPkt l fun p => aluStep p n g imm aluClz) s

/-- SCALE (R89): ALU operation SCALE. -/
def execAluScale (l : PktRef) (n : Nat) (g : AluGroup) (imm : Nat) (s : State) : Host.Outcome State Fault Refusal :=
  run (onPkt l fun p => aluStep p n g imm aluScale) s

/-- ADDSAT (R89): ALU operation ADDSAT. -/
def execAluAddsat (l : PktRef) (n : Nat) (g : AluGroup) (imm : Nat) (s : State) : Host.Outcome State Fault Refusal :=
  run (onPkt l fun p => aluStep p n g imm aluAddsat) s

/-- SUBSAT (R89): ALU operation SUBSAT. -/
def execAluSubsat (l : PktRef) (n : Nat) (g : AluGroup) (imm : Nat) (s : State) : Host.Outcome State Fault Refusal :=
  run (onPkt l fun p => aluStep p n g imm aluSubsat) s

/-- METADATA_WRITE (R91): The MW port writes a field of a context word. -/
def execMetadataWrite (l : PktRef) (g : MwGroup) (k : Nat) (s : State) : Host.Outcome State Fault Refusal :=
  run (nanoPart l (fun _ => g.src == 7) (fun _ => false) (onPkt l (pkMw g k))) s

/-- LOOKUP_ISSUE (R93): A lookup port issues a lookup of a type with a formed key. -/
def execLookupIssue (l : PktRef) (n : Nat) (g : LGroup) (s : State) : Host.Outcome State Fault Refusal :=
  run (keyPart l g.kmode g.ksrc (issueLookup l n g)) s

/-- LOOKUP_RESULT (R95): A lookup result lands in PC.result at its distance and sets the port conditions. -/
def execLookupResult (a f k : Nat) (s : State) : Host.Outcome State Fault Refusal :=
  run (lookupResult a f k) s

/-- COLLECT (R97): CL issues a gather of up to 16 ARRAY elements into scratch words. -/
def execCollect (l : PktRef) (g : ClGroup) (s : State) : Host.Outcome State Fault Refusal :=
  run (issueCollect l g) s

/-- COLLECT_LANDING (R99): A COLLECT lands its elements, zeroing from the first faulting element. -/
def execCollectLanding (a f k : Nat) (s : State) : Host.Outcome State Fault Refusal :=
  run (collectLanding a f k) s

/-- DEEP (R101): RQ kind DEEP requests an element of a deep-store table. -/
def execDeep (l : PktRef) (g : RqGroup) (s : State) : Host.Outcome State Fault Refusal :=
  run (keyPart l g.kmode g.ksrc (issueRequest l 1 g)) s

/-- SA_STATE (R101): RQ kind SA_STATE requests an association state word. -/
def execSaState (l : PktRef) (g : RqGroup) (s : State) : Host.Outcome State Fault Refusal :=
  run (keyPart l g.kmode g.ksrc (issueRequest l 2 g)) s

/-- LEARN (R101): RQ kind LEARN sends a key and action word to the learn engine. -/
def execLearn (l : PktRef) (g : RqGroup) (s : State) : Host.Outcome State Fault Refusal :=
  run (keyPart l g.kmode g.ksrc (issueRequest l 3 g)) s

/-- BUF (R229): RQ kind BUF asks for cells to be charged ahead of stage 1. -/
def execBuf (l : PktRef) (g : RqGroup) (s : State) : Host.Outcome State Fault Refusal :=
  run (keyPart l g.kmode g.ksrc (issueRequest l 4 g)) s

/-- LEARN_ANSWER (R179): The learn engine's answer lands with LEARN_ACK and possibly LEARN_REFUSED. -/
def execLearnAnswer (a f k : Nat) (s : State) : Host.Outcome State Fault Refusal :=
  run (learnAnswer a f k) s

/-- BUF_ANSWER (R229): The grant word of a BUF request lands with BUF_GRANT and BUF_DENIED. -/
def execBufAnswer (a f k : Nat) (s : State) : Host.Outcome State Fault Refusal :=
  run (bufAnswer a f k) s

/-- REWRITE (R110): Edit operation REWRITE is appended with its data. -/
def execRewrite (l : PktRef) (g : EGroup) (s : State) : Host.Outcome State Fault Refusal :=
  run (editPart l 1 g) s

/-- PUSH (R110): Edit operation PUSH is appended with its data. -/
def execPush (l : PktRef) (g : EGroup) (s : State) : Host.Outcome State Fault Refusal :=
  run (editPart l 2 g) s

/-- POP (R110): Edit operation POP is appended. -/
def execPop (l : PktRef) (g : EGroup) (s : State) : Host.Outcome State Fault Refusal :=
  run (editPart l 3 g) s

/-- STRIP (R110): Edit operation STRIP is appended. -/
def execStrip (l : PktRef) (g : EGroup) (s : State) : Host.Outcome State Fault Refusal :=
  run (editPart l 4 g) s

/-- FIX_IP4 (R110): Edit operation FIX_IP4 is appended. -/
def execFixIp4 (l : PktRef) (g : EGroup) (s : State) : Host.Outcome State Fault Refusal :=
  run (editPart l 5 g) s

/-- FIX_UDP (R110): Edit operation FIX_UDP is appended. -/
def execFixUdp (l : PktRef) (g : EGroup) (s : State) : Host.Outcome State Fault Refusal :=
  run (editPart l 6 g) s

/-- FIX_IP6 (R110): Edit operation FIX_IP6 is appended. -/
def execFixIp6 (l : PktRef) (g : EGroup) (s : State) : Host.Outcome State Fault Refusal :=
  run (editPart l 7 g) s

/-- COUNTER_UPDATE (R103): A posted counter update adds a packet and its length to a COUNT entry or is discarded. -/
def execCounterUpdate (l : PktRef) (g : CGroup) (s : State) : Host.Outcome State Fault Refusal :=
  run (nanoPart l (fun _ => g.mode == 3) (fun _ => false) (counterOp l g)) s

/-- METER (R104): ME issues a meter request with the packet's length and colour. -/
def execMeter (l : PktRef) (isrc : Nat) (s : State) : Host.Outcome State Fault Refusal :=
  run (meterOp l isrc) s

/-- FLAGS_SET (R105): FSET sets rotation flags. -/
def execFlagsSet (l : PktRef) (mask : Nat) (s : State) : Host.Outcome State Fault Refusal :=
  run (onPkt l (pkFlagsSet mask)) s

/-- FLAGS_CLEAR (R105): FCLR clears rotation flags. -/
def execFlagsClear (l : PktRef) (mask : Nat) (s : State) : Host.Outcome State Fault Refusal :=
  run (onPkt l (pkFlagsClear mask)) s

/-- MIRROR_SET (R105): MIR 0b01 sets PC.flags.MIRROR. -/
def execMirrorSet (l : PktRef) (s : State) : Host.Outcome State Fault Refusal :=
  run (onPkt l (pkMirror true)) s

/-- MIRROR_CLR (R105): MIR 0b10 clears PC.flags.MIRROR. -/
def execMirrorClr (l : PktRef) (s : State) : Host.Outcome State Fault Refusal :=
  run (onPkt l (pkMirror false)) s

/-- DISPOSITION (R106): DP writes PC.disposition and its reason field. -/
def execDisposition (l : PktRef) (value reason : Nat) (s : State) : Host.Outcome State Fault Refusal :=
  run (onPkt l (pkDisposition value reason)) s

end Sys2Proof.Machine
end

