-- ==== Sys2Proof/Machine/CmdPair.lean ====
section
/-!
DEFINITION. The commands of the pair: the Serlet link, its frames and its timeouts. A device whose control island is
in reset takes none, and one in a warm reset only those of the link's physical layer.
-/
namespace Sys2Proof.Machine

/-- SERLET_LINK_UP (R391): Serlet link training completes and the link is UP. -/
def execSerletLinkUp (s : State) : Host.Outcome State Fault Refusal :=
  run (unlessReset (serletUp)) s

/-- SERLET_LOCK_LOSS (R391): Loss of lock on a Serlet lane returns the link to TRAINING. -/
def execSerletLockLoss (s : State) : Host.Outcome State Fault Refusal :=
  run (unlessReset (serletLoss)) s

/-- BEAT (R393): A received BEAT frame is accepted as a sign of life. -/
def execBeat (ack : Nat) (s : State) : Host.Outcome State Fault Refusal :=
  run (unlessHeld (frameAccept ack)) s

/-- BEAT_SEND (R393): After 1 µs without another frame the device sends a BEAT. -/
def execBeatSend (s : State) : Host.Outcome State Fault Refusal :=
  run (unlessHeld (beatSend)) s

/-- JOURNAL (R401): A received JOURNAL frame's entries are accepted in sequence order or NACKed. -/
def execJournal (ack : Nat) (l : List (Nat × JEntry)) (s : State) : Host.Outcome State Fault Refusal :=
  run (unlessHeld (journalFrame ack l)) s

/-- NACK (R401): A received NACK makes the sender retransmit from ACK_SEQ. -/
def execNack (ack : Nat) (s : State) : Host.Outcome State Fault Refusal :=
  run (unlessHeld (nack ack)) s

/-- HELLO (R409): A received HELLO is accepted, entering SYNCING, or refused with HELLO_MISMATCH. -/
def execHello (ack format id st part crc cal map first : Nat) (s : State) : Host.Outcome State Fault Refusal :=
  run (unlessHeld (hello ack format id st part crc cal map first)) s

/-- HELLO_SEND (R409): In LINKING with the link UP, a HELLO is sent every 10 µs. -/
def execHelloSend (s : State) : Host.Outcome State Fault Refusal :=
  run (unlessHeld (helloSend)) s

/-- AGENT_REQ (R412): A received AGENT_REQ performs a peer-agent register access and responds. -/
def execAgentReq (ack tag op off : Nat) (v : W64) (s : State) : Host.Outcome State Fault Refusal :=
  runMem (fun m => unlessHeld (agentReq ack tag op off v m)) s

/-- AGENT_RSP (R412): A received AGENT_RSP completes the pending peer access. -/
def execAgentRsp (ack tag result : Nat) (v : W64) (s : State) : Host.Outcome State Fault Refusal :=
  run (unlessHeld (agentRsp ack tag result v)) s

/-- RESET_REQ (R413): A received RESET_REQ is refused, or accepted with GOODBYE, HANDED and a warm reset. -/
def execResetReq (ack tag : Nat) (s : State) : Host.Outcome State Fault Refusal :=
  run (unlessHeld (resetReq ack tag)) s

/-- RESET_RSP (R413): A received RESET_RSP records the peer reset result. -/
def execResetRsp (ack tag : Nat) (refused : Bool) (s : State) : Host.Outcome State Fault Refusal :=
  run (unlessHeld (resetRsp ack tag refused)) s

/-- GOODBYE (R405): A received GOODBYE starts a takeover. -/
def execGoodbye (ack : Nat) (s : State) : Host.Outcome State Fault Refusal :=
  run (unlessHeld (goodbye ack)) s

/-- AGENT_TIMEOUT (R394): An AGENT_REQ or RESET_REQ without response in 50 µs is answered TIMEOUT. -/
def execAgentTimeout (reset : Bool) (s : State) : Host.Outcome State Fault Refusal :=
  run (unlessHeld (agentTimeout reset)) s

/-- ALIVE_OUT_TOGGLE (R395): Every 1 µs PAIR_ALIVE_OUT changes level. -/
def execAliveOutToggle (s : State) : Host.Outcome State Fault Refusal :=
  run (unlessHeld (aliveToggle)) s

/-- ALIVE_IN_BEAT (R395): A filtered level change on PAIR_ALIVE_IN is accepted as a beat or discarded as too fast. -/
def execAliveInBeat (s : State) : Host.Outcome State Fault Refusal :=
  run (unlessHeld (aliveBeat)) s

/-- BEAT_TIMEOUT (R396): HB_MISS_US without a beat moves the pair state to SPLIT or SURVIVOR. -/
def execBeatTimeout (s : State) : Host.Outcome State Fault Refusal :=
  run (unlessHeld (beatTimeout)) s

/-- FRAME_TIMEOUT (R396): HB_MISS_US without a frame moves the pair state to SPLIT or SURVIVOR. -/
def execFrameTimeout (s : State) : Host.Outcome State Fault Refusal :=
  run (unlessHeld (frameTimeout)) s

/-- ACK_TIMEOUT (R401): The oldest unacknowledged entry older than ACK_TIMEOUT_US triggers retransmission. -/
def execAckTimeout (s : State) : Host.Outcome State Fault Refusal :=
  run (unlessHeld (ackTimeout)) s

/-- LEARN_REQ (R403): The anchor settles a LEARN_REQ entry as a local learn. -/
def execLearnReq (s : State) : Host.Outcome State Fault Refusal :=
  run (unlessHeld (peerLearnReq)) s

/-- LEARN_SET (R403): A non-anchor applies a LEARN_SET entry to its table. -/
def execLearnSet (s : State) : Host.Outcome State Fault Refusal :=
  run (unlessHeld (peerLearnSet)) s

/-- REFRESH (R403): The anchor sets the hit bit of an entry named by a REFRESH entry. -/
def execRefresh (s : State) : Host.Outcome State Fault Refusal :=
  run (unlessHeld (peerRefresh)) s

/-- SA_CKPT (R401): A received packet-number checkpoint is recorded. -/
def execSaCkpt (ack seq kind index pn : Nat) (final : Bool) (s : State) : Host.Outcome State Fault Refusal :=
  run (unlessHeld (peerCkptFrame ack seq kind index pn final)) s

/-- HANDOVER_ENTRY (R411): A HANDOVER entry leaving the learn FIFO applies the new map and advances adopted associations. -/
def execHandoverEntry (s : State) : Host.Outcome State Fault Refusal :=
  run (unlessHeld (handoverEntry)) s

/-- SYNC_BEGIN (R410): A SYNC_BEGIN entry marks the start of the peer's sync state. -/
def execSyncBegin (ack seq : Nat) (s : State) : Host.Outcome State Fault Refusal :=
  run (unlessHeld (syncFrame ack seq 6)) s

/-- SYNC_DONE (R410): A SYNC_DONE entry ends the peer's sync; with both done the state becomes PAIRED. -/
def execSyncDone (ack seq : Nat) (s : State) : Host.Outcome State Fault Refusal :=
  run (unlessHeld (syncFrame ack seq 7)) s

/-- SERLET_FRAME_DISCARDED (R394): A received Serlet frame with a bad CRC, a non-zero reserved field or a reserved TYPE is discarded, counted in PAIR_CNT[2], and raises FRAME_CRC. -/
def execSerletFrameDiscarded (s : State) : Host.Outcome State Fault Refusal :=
  run (unlessHeld (frameDiscarded)) s

end Sys2Proof.Machine
end

