-- ==== Sys2Proof/Machine/Perf.lean ====
section
/-!
DEFINITION. The tally (R503, R504) and the dump engine (R505, R506).
-/
namespace Sys2Proof.Machine

/-- A word of the dump list as a tally sees it, and whether its island is in reset or fallow (R504). -/
def tallyWord (d : Dev) (off : Nat) : W64 × Bool :=
  let isl := islandsOf d off 0
  if isl ≠ [] ∧ isl.all (islandOff d) ∧ ¬ unitAbsent d off then (0, true) else (regView d 0 off, false)

/-- CRC-32C of the dump list (R505). -/
def dumpListCrc (d : Dev) : Nat :=
  crc32c 0xFFFFFFFF ((List.range 64).flatMap fun i => leBytes 8 (rd d (Reg.DUMP_LIST i)).toNat)

/-- The device time of the tally that is due: the extra one when it has been requested. -/
def tallyTime (d : Dev) : Nat :=
  match d.perf.now with
  | some t => t
  | none =>
    let p := rdF d Reg.DUMP_PERIOD Reg.DUMP_PERIOD_PERIOD_NS
    d.time / p * p

/-- A tally that is not taken (R506). -/
def tallyMissed (d : Dev) : Dev :=
  let d := bumpSat d Reg.DUMP_STATUS Reg.DUMP_STATUS_MISSED 1
  { d with perf := { d.perf with missed := satAdd 32 d.perf.missed 1, now := none } }

/-- A tally that is taken: every listed word is latched, and its record is begun. -/
def tallyTaken (d : Dev) : Dev :=
  let offs := dumpOffsets d
  let ws := offs.map (tallyWord d)
  let seq := rd d Reg.DUMP_SEQ
  let head := [seq, BitVec.ofNat 64 (tallyTime d), BitVec.ofNat 64 (offs.length + dumpListCrc d * 2 ^ 32),
    BitVec.ofNat 64 d.perf.missed, rd d Reg.RSTC_SOURCE]
  let snap := (offs.zip ws).foldl (fun s x => spInsert s x.1 x.2.1) []
  let d := bump (wrF d Reg.DUMP_STATUS Reg.DUMP_STATUS_BUSY 1) Reg.DUMP_SEQ
  { d with perf := ⟨none, snap, some (head, ws.any Prod.snd, ws.map Prod.fst), 0⟩ }

/-- A tally falls due. -/
def tally (d : Dev) : Dev :=
  if ¬ dumpOn d ∧ d.perf.now = none then d
  else if d.rst.warm ∨ flagF d Reg.DUMP_STATUS Reg.DUMP_STATUS_BUSY then tallyMissed d
  else if ctlReset d then d
  else tallyTaken d

/-! The dump engine. -/

/-- W0 of a record. -/
def recordW0 (part valid : Bool) : Nat := 0x52445A4E + 2 ^ 32 + b2n part * 2 ^ 62 + b2n valid * 2 ^ 63

/-- The list in pieces of n. -/
def chunks (n : Nat) : Nat → List Byte → List (List Byte)
  | 0, _ => []
  | k + 1, bs => if bs.isEmpty then [] else bs.take n :: chunks n k (bs.drop n)

/-- The writes of a record, at most 64 B each, in their order (R505). -/
def recordWrites (base done : Nat) (head : List W64) (part : Bool) (data : List W64) : List (Nat × List Byte) :=
  let bytes := data.flatMap fun w => leBytes 8 w.toNat
  let body := chunks 64 (ceilDiv bytes.length 64) bytes
  [(base, leBytes 8 (recordW0 part false))]
    ++ ((List.range body.length).zip body).map (fun x => (base + 64 + 64 * x.1, x.2))
    ++ [(base + 8, (head.flatMap fun w => leBytes 8 w.toNat) ++ leBytes 8 done ++ leBytes 8 0),
        (base, leBytes 8 (recordW0 part true))]

/-- The writes to host memory; the one with index `fail` fails when there is one. -/
def dumpToHost (d : Dev) (l : List (Nat × List Byte)) (fail : Option Nat) : Bool × Dev :=
  let n := fail.getD l.length
  let d := (l.take n).foldl (fun d x => memWrite d spHost x.1 x.2) d
  match l[n]? with
  | some _ => (false, raise d Fk.dmaErr 0 0 10 8)
  | none => (true, d)

/-- The writes to the deep store through the DUMP port, up to the first that is answered as a failure (R380). -/
def dumpToDeep (m : Mem) : List (Nat × List Byte) → Dev → Bool × Dev
  | [], d => (true, d)
  | (a, bs) :: t, d =>
    let (r, d) := deepWrite m d 4 a bs 10 2
    if r = 0 then dumpToDeep m t d else (false, d)

/-- The dump engine writes the record of the last tally; the host DMA write with index `fail` ends with an error. -/
def recordWrite (fail : Option Nat) (m : Mem) (d : Dev) : Dev :=
  match d.perf.record with
  | none => d
  | some (head, part, data) =>
    let c := rd d Reg.DUMP_CTRL
    let slot := (head.getD 0 0).toNat % 2 ^ getF c Reg.DUMP_CTRL_LOG2_SLOTS
    let base := (rd d Reg.DUMP_BASE).toNat + slot * dumpStride data.length
    let l := recordWrites base d.time head part data
    let (ok, d) := if getF c Reg.DUMP_CTRL_DEST = 1 then dumpToDeep m l d else dumpToHost d l fail
    let d := { wrF d Reg.DUMP_STATUS Reg.DUMP_STATUS_BUSY 0 with
      perf := { (wrF d Reg.DUMP_STATUS Reg.DUMP_STATUS_BUSY 0).perf with record := none } }
    if ok then d else bumpSat d Reg.DUMP_STATUS Reg.DUMP_STATUS_FAILED 1

end Sys2Proof.Machine
end

