-- ==== Sys2Proof/Machine/CmdReset.lean ====
section
/-!
DEFINITION. The commands of fault collection, reset, boot, power and the tally.
-/
namespace Sys2Proof.Machine

/-- FAULT_COLLECT (R422): The collector orders a cycle's messages, logs, captures, tracks and signals them. -/
def execFaultCollect (picks : List (Nat × Nat × Bool)) (s : State) : Host.Outcome State Fault Refusal :=
  run (faultCollect picks) s

/-- LADDER_STEP (R431): An active entry's reaction deadline passes and its next ladder step is taken. -/
def execLadderStep (es : List Nat) (s : State) : Host.Outcome State Fault Refusal :=
  run (ladderStep es) s

/-- FAULT_PULSE_END (R435): A FAULT_N pulse ends and the pin follows HOLD. -/
def execFaultPulseEnd (s : State) : Host.Outcome State Fault Refusal :=
  run (pulseEnd) s

/-- POR (R444): The always-on supply enters its window and a POR clears the device. -/
def execPor (s : State) : Host.Outcome State Fault Refusal :=
  run (powerOn) s

/-- RESET_N (R444): RESET_N low performs a COLD reset. -/
def execResetN (s : State) : Host.Outcome State Fault Refusal :=
  run (coldReset 2) s

/-- WARM_N (R444): WARM_N low performs a warm reset. -/
def execWarmN (s : State) : Host.Outcome State Fault Refusal :=
  run (warmReset 4) s

/-- WARM_RELEASE (R453): After 10 µs the islands are released in order and the boot copy re-verified. -/
def execWarmRelease (s : State) : Host.Outcome State Fault Refusal :=
  run (warmRelease) s

/-- PARTIAL_RESET_DONE (R448): A partial reset completes and BUSY clears for the unit. -/
def execPartialResetDone (acre : Bool) (n : Nat) (s : State) : Host.Outcome State Fault Refusal :=
  run (partialDone acre n) s

/-- CORE_PLL_LOCK (R452): Core PLLs lock and the control island is released to its boot ROM. -/
def execCorePllLock (s : State) : Host.Outcome State Fault Refusal :=
  run (corePllLock) s

/-- BOOT (R454): The service processor reads and verifies a boot slot and runs it, or fails. -/
def execBoot (s : State) : Host.Outcome State Fault Refusal :=
  runMem (boot) s

/-- ISLAND_RELEASE (R452): The service processor releases the data-path islands in order. -/
def execIslandRelease (s : State) : Host.Outcome State Fault Refusal :=
  run (islandRelease) s

/-- START_CONFIG_APPLY (R457): The start-up configuration records are applied in order until one is rejected. -/
def execStartConfigApply (s : State) : Host.Outcome State Fault Refusal :=
  runMem (cfgApply) s

/-- ENGINE_START (R458): Adaptation engines start when the Serlet link is UP or PAIR_WAIT_MS has passed. -/
def execEngineStart (waited : Bool) (s : State) : Host.Outcome State Fault Refusal :=
  run (engineStart waited) s

/-- REFCLK_LOSS (R449): A lost reference makes PLLs change to the other reference, or raises CLOCK_LOSS. -/
def execRefclkLoss (b : Bool) (s : State) : Host.Outcome State Fault Refusal :=
  run (refLoss b) s

/-- REFCLK_PRESENT (R524): A reference clock in range for 1 ms is present again. -/
def execRefclkPresent (b : Bool) (s : State) : Host.Outcome State Fault Refusal :=
  run (refPresent b) s

/-- PTP_10M_LOSS (R524): PTP_10M absent or off frequency puts device time in holdover. -/
def execPtp10mLoss (s : State) : Host.Outcome State Fault Refusal :=
  run (ptpLoss) s

/-- PTP_10M_PRESENT (R524): PTP_10M in range for 10 ms is present again, so REF_PRESENT is set and the device-time rate follows it again, ending holdover. -/
def execPtp10mPresent (s : State) : Host.Outcome State Fault Refusal :=
  run (ptpPresent) s

/-- XTAL_FAIL (R451): AON_XTAL stops and the always-on island changes to its internal oscillator. -/
def execXtalFail (s : State) : Host.Outcome State Fault Refusal :=
  run (xtalFail) s

/-- XTAL_RUNNING (R462): AON_XTAL oscillating again for 1 ms ends the XTAL_FAIL condition and device time returns to the crystal. -/
def execXtalRunning (s : State) : Host.Outcome State Fault Refusal :=
  run (xtalRunning) s

/-- PPS_EDGE (R462): An accepted PPS_IN edge records device time in AON_PPS_TIME. -/
def execPpsEdge (s : State) : Host.Outcome State Fault Refusal :=
  run (ppsEdge) s

/-- PPS_LOST (R462): No accepted PPS edge for 1.5 s raises PPS_LOST. -/
def execPpsLost (s : State) : Host.Outcome State Fault Refusal :=
  run (ppsLost) s

/-- SUPPLY_WINDOW (R462): A rail outside its window for 2 µs raises SUPPLY_WINDOW and holds islands in reset. -/
def execSupplyWindow (s : State) : Host.Outcome State Fault Refusal :=
  run (supplyWindow) s

/-- SUPPLY_IN_WINDOW (R521): All monitored rails have been inside their windows for 1 ms, ending SUPPLY_WINDOW and letting the islands leave the reset held by R521. -/
def execSupplyInWindow (s : State) : Host.Outcome State Fault Refusal :=
  run (supplyInWindow) s

/-- DIE_TEMP_SAMPLE (R462): Every 100 µs die temperature is sampled against HIGH_C and CRIT_C. -/
def execDieTempSample (t : Int) (s : State) : Host.Outcome State Fault Refusal :=
  run (dieTempSample t) s

/-- HOLDUP_EVALUATE (R465): Each second and at each configuration write, last-breath arming is evaluated. -/
def execHoldupEvaluate (mv : Nat) (s : State) : Host.Outcome State Fault Refusal :=
  run (holdupEvaluate mv) s

/-- FALLOW_WAKE (R461): An enabled wake source ends fallow with a COLD reset. -/
def execFallowWake (n : Nat) (s : State) : Host.Outcome State Fault Refusal :=
  run (wake n) s

/-- ALARM_REACHED (R461): Device time reaches AON_ALARM, waking or driving ALARM_OUT. -/
def execAlarmReached (s : State) : Host.Outcome State Fault Refusal :=
  run (alarmReached) s

/-- SP_WATCHDOG (R463): The watchdog expires, stops PAIR_ALIVE_OUT and warm-resets the device. -/
def execSpWatchdog (s : State) : Host.Outcome State Fault Refusal :=
  run (spWatchdog) s

/-- RECORD_IMAGE_REFRESH (R464): Every 100 µs and at each logged fault the last-breath record image is refreshed. -/
def execRecordImageRefresh (s : State) : Host.Outcome State Fault Refusal :=
  run (imageRefresh) s

/-- POWER_FAIL (R467): HOLDUP_SENSE below PF_MV enters fallow and writes the last-breath record when armed. -/
def execPowerFail (mv : Nat) (s : State) : Host.Outcome State Fault Refusal :=
  run (powerFail mv) s

/-- LB_WRITE_DONE (R467): The last-breath record write completes and WRITES rises. -/
def execLbWriteDone (pages : Nat) (s : State) : Host.Outcome State Fault Refusal :=
  runMem (lbDone pages) s

/-- TALLY (R503): At each period multiple a tally latches every listed word, or is missed. -/
def execTally (s : State) : Host.Outcome State Fault Refusal :=
  run (tally) s

/-- DUMP_RECORD_WRITE (R505): The dump engine writes a record of latched words, header last, or stops on failure. -/
def execDumpRecordWrite (fail : Option Nat) (s : State) : Host.Outcome State Fault Refusal :=
  runMem (recordWrite fail) s

end Sys2Proof.Machine
end

