-- ==== Sys2Proof/Machine/CmdRind.lean ====
section
/-!
DEFINITION. The commands of Rind, and the answers it gives to packets, that no register write starts.
-/
namespace Sys2Proof.Machine

/-- DEEP_ANSWER (R382): The answer of a DEEP request lands with its valid and error conditions. -/
def execDeepAnswer (a f k : Nat) (late : Bool) (s : State) : Host.Outcome State Fault Refusal :=
  runMem (deepAnswer a f k late) s

/-- SA_STATE_ANSWER (R324): The SA_STATE answer lands and records or clears the decryption SA. -/
def execSaStateAnswer (a f k : Nat) (s : State) : Host.Outcome State Fault Refusal :=
  run (saStateAnswer a f k) s

/-- ESP_ENCRYPT (R321): A packet leaves the look-aside queue and is ESP-encrypted, or is dropped. -/
def execEspEncrypt (n : Nat) (s : State) : Host.Outcome State Fault Refusal :=
  run (espEncrypt n) s

/-- DECRYPT (R325): RIND_A decrypts a DECRYPT packet and returns it, or fails it. -/
def execDecrypt (a : Nat) (s : State) : Host.Outcome State Fault Refusal :=
  run (decrypt a) s

/-- LEASE_EXPIRED (R315): A lease idle for 10 ms ends, posting a notice and a NOTE fault. -/
def execLeaseExpired (s : State) : Host.Outcome State Fault Refusal :=
  run (leaseExpired) s

/-- ENTROPY_FAIL (R309): A failed entropy health test clears ENTROPY_OK and raises a DEGRADED fault. -/
def execEntropyFail (s : State) : Host.Outcome State Fault Refusal :=
  run (entropyFail) s

/-- DEEP_KEY_GENERATE (R333): Pending deep-store keys are generated once the entropy source is healthy. -/
def execDeepKeyGenerate (s : State) : Host.Outcome State Fault Refusal :=
  run (deepKeyGenerate) s

end Sys2Proof.Machine
end

