-- ==== Sys2Proof/Machine/CmdStrip.lean ====
section
/-!
DEFINITION. The commands of the strips and ports that no register write starts.
-/
namespace Sys2Proof.Machine

/-- PROFILE_APPLY (R163): When every acre has reached the quiesce, the new profile is applied and changed blocks cleared. -/
def execProfileApply (s : State) : Host.Outcome State Fault Refusal :=
  run (profileApplied) s

/-- FRAME_RECEIVE (R342): A strip receives a whole frame on a port and settles it through the receive checks into staging or a drop. -/
def execFrameReceive (p : Nat) (wire : List Byte) (uncorr bad : Bool) (s : State) : Host.Outcome State Fault Refusal :=
  run (frameReceive p wire uncorr bad) s

/-- FRAME_TRANSMIT (R277): The strip sends a selected frame at its launch time through cipher, MAC and PCS. -/
def execFrameTransmit (p : Nat) (s : State) : Host.Outcome State Fault Refusal :=
  run (frameTransmit p) s

/-- AN_RESOLVED (R346): Clause 73 resolves to the configured mode and the port enters TRAINING. -/
def execAnResolved (p : Nat) (s : State) : Host.Outcome State Fault Refusal :=
  run (anResolved p) s

/-- AN_EXCHANGE_FAILED (R340): A clause 73 exchange ends without a compatible mode, the port stays in AN, and STRIP_CNT[q][15] counts it. -/
def execAnExchangeFailed (p : Nat) (s : State) : Host.Outcome State Fault Refusal :=
  run (anFailed p) s

/-- ENGINE_ASSIGN (R354): A free adaptation engine takes the highest-ranked waiting port. -/
def execEngineAssign (n e : Nat) (s : State) : Host.Outcome State Fault Refusal :=
  run (engineAssign n e) s

/-- TRAINING_SUCCESS (R346): Training or adaptation converges and the port enters UP. -/
def execTrainingSuccess (p : Nat) (s : State) : Host.Outcome State Fault Refusal :=
  run (trainingSuccess p) s

/-- BUDGET_SPENT (R346): The retrain budget is spent and the port tries fallback or is WITHDRAWN. -/
def execBudgetSpent (p : Nat) (s : State) : Host.Outcome State Fault Refusal :=
  run (budgetSpent p) s

/-- LOCK_LOSS_HOLDOFF (R347): Loss of lock or a fault sequence outlasting HOLDOFF_US sends the port to RETRAIN. -/
def execLockLossHoldoff (p : Nat) (remote : Bool) (s : State) : Host.Outcome State Fault Refusal :=
  run (lockLoss p remote) s

/-- ERROR_WINDOW_END (R347): At each 1 ms window end, excess codeword errors send the port to RETRAIN. -/
def execErrorWindowEnd (p uncorr corr : Nat) (syms : List Nat) (s : State) : Host.Outcome State Fault Refusal :=
  run (errorWindowEnd p uncorr corr syms) s

/-- WITHDRAW_RETRY (R349): WITHDRAW_RETRY_S after entry or a failed retry, a withdrawn port is retried. -/
def execWithdrawRetry (p : Nat) (s : State) : Host.Outcome State Fault Refusal :=
  run (withdrawRetry p) s

/-- LANE_ADAPT (R355): Continuous adaptation updates the equaliser of one lane. -/
def execLaneAdapt (n e : Nat) (s : State) : Host.Outcome State Fault Refusal :=
  run (laneAdapt n e) s

/-- GROUP_REWRITE (R351): A link-aggregation group's 16 member elements are rewritten through the command engine. -/
def execGroupRewrite (s : State) : Host.Outcome State Fault Refusal :=
  run (groupRewrite) s

/-- PAUSE_EXPIRY (R344): A received pause time runs out and the priority is no longer paused. -/
def execPauseExpiry (p c : Nat) (s : State) : Host.Outcome State Fault Refusal :=
  run (pauseExpiry p c) s

/-- PFC_FRAME_BUILD (R345): A lossless state change builds a PFC frame and passes it to Drill ahead of other frames. -/
def execPfcFrameBuild (p : Nat) (s : State) : Host.Outcome State Fault Refusal :=
  run (pfcBuild p) s

/-- PFC_REFRESH (R345): Every REFRESH_Q quanta a PFC frame is re-sent for all PAUSED priorities. -/
def execPfcRefresh (p : Nat) (s : State) : Host.Outcome State Fault Refusal :=
  run (pfcRefresh p) s

/-- PDELAY_REQUEST (R357): The strip sends a Pdelay_Req 10 ms after UP and every INTERVAL_MS. -/
def execPdelayRequest (p : Nat) (s : State) : Host.Outcome State Fault Refusal :=
  run (pdelayRequest p) s

/-- PDELAY_TIMEOUT (R357): A peer-delay request without complete response in 10 ms is timed out. -/
def execPdelayTimeout (p : Nat) (s : State) : Host.Outcome State Fault Refusal :=
  run (pdelayTimeout p) s

/-- STRIP_PLL_LOCKED (R360): The strip PLLs lock and its ports become DOWN. -/
def execStripPllLocked (n : Nat) (s : State) : Host.Outcome State Fault Refusal :=
  run (stripPllLocked n) s

/-- PLL_UNLOCK (R439): A strip's PLL loses lock while the strip is not fallow, and the PLL_UNLOCK condition is raised. -/
def execPllUnlock (n : Nat) (s : State) : Host.Outcome State Fault Refusal :=
  run (pllUnlock n) s

/-- SIGNAL_DETECT_CHANGE (R346): A lane of a port in TRAINING, RETRAIN or FALLBACK gains or loses signal detect, which resumes or pauses the retrain budget and sets PORT_STATE.SIGNAL. -/
def execSignalDetectChange (p : Nat) (all : Bool) (s : State) : Host.Outcome State Fault Refusal :=
  run (signalChange p all) s

end Sys2Proof.Machine
end

