-- ==== Sys2Proof/Machine/CmdTables.lean ====
section
/-!
DEFINITION. The commands of Orchard and of the associative arrays that no register write starts.
-/
namespace Sys2Proof.Machine

/-- STASH_RETRY (R171): After a DELETE, the lowest stash entry is retried into a way as a background step. -/
def execStashRetry (t : Nat) (s : State) : Host.Outcome State Fault Refusal :=
  run (stashRetryDue t) s

/-- GLEANER_ROW_SCRUB (R189): The Orchard gleaner reads a table row, writes back corrections or invalidates lost entries. -/
def execGleanerRowScrub (blk row : Nat) (s : State) : Host.Outcome State Fault Refusal :=
  run (gleanRow blk row) s

/-- MARKER_REBUILD (R189): The command engine rebuilds a holding's LPM markers after a lost marker. -/
def execMarkerRebuild (t h : Nat) (s : State) : Host.Outcome State Fault Refusal :=
  run (markerRebuild t h) s

/-- ASSOC_GLEANER_LINE (R209): The associative gleaner compares a line of 8 entries with the shadow copy. -/
def execAssocGleanerLine (a _line : Nat) (s : State) : Host.Outcome State Fault Refusal :=
  run (gleanLine a) s

/-- ASSOC_GLEANER_REPAIR (R210): The gleaner writes a pending repair or invalidation unless a write cancelled it. -/
def execAssocGleanerRepair (a n : Nat) (s : State) : Host.Outcome State Fault Refusal :=
  run (assocRepairDue a n) s

end Sys2Proof.Machine
end

