-- ==== Sys2Proof/Machine/CmdTablesAuto.lean ====
section
/-!
DEFINITION. The commands of the learn engine, and of ageing.
-/
namespace Sys2Proof.Machine

/-- AUTO_AGE_SCAN (R185): Every AGE_LIMIT / 4 ticks with AUTO set, an AGE_SCAN of every REFRESH table starts. -/
def execAutoAgeScan (s : State) : Host.Outcome State Fault Refusal :=
  run (autoAgeScan) s

/-- LEARN_ENQUEUE (R178): A LEARN crossing into the table island enters the learn FIFO with a LEARN_SEQ or is refused FIFO_FULL. -/
def execLearnEnqueue (a f k : Nat) (s : State) : Host.Outcome State Fault Refusal :=
  run (learnEnqueue a f k) s

/-- LEARN_SETTLE (R181): The learn engine takes a learn of a table and inserts, refreshes, moves or refuses it. -/
def execLearnSettle (t : Nat) (s : State) : Host.Outcome State Fault Refusal :=
  run (learnSettle t) s

/-- RESOURCE_RELEASE (R24): When a higher-ranked feature releases a shared resource, the waiting feature takes it. -/
def execResourceRelease (s : State) : Host.Outcome State Fault Refusal :=
  run (resourceRelease) s

end Sys2Proof.Machine
end

