-- ==== Sys2Proof/Machine/CmdWrite1.lean ====
section
/-!
DEFINITION. Register writes that are commands of their own: the furrow machine, Harrow, Orchard and the associative arrays.
-/
namespace Sys2Proof.Machine

/-- HARROW_WRITE_STATE (R135): HARROW_WCMD with TABLE STATE replaces one parse state entry atomically. -/
def execHarrowWriteState (agent : Nat) (n : Nat) (v : W64) (s : State) : Host.Outcome State Fault Refusal :=
  runMem (regWrite agent (Reg.HARROW_WCMD n) (setF v Reg.HARROW_WCMD_TABLE 0)) s

/-- HARROW_WRITE_TRANS (R135): HARROW_WCMD with TABLE TRANS replaces one transition entry atomically. -/
def execHarrowWriteTrans (agent : Nat) (n : Nat) (v : W64) (s : State) : Host.Outcome State Fault Refusal :=
  runMem (regWrite agent (Reg.HARROW_WCMD n) (setF v Reg.HARROW_WCMD_TABLE 1)) s

/-- HARROW_WRITE_HOLD_RULE (R135): HARROW_WCMD with TABLE HOLD_RULE replaces one holding rule atomically. -/
def execHarrowWriteHoldRule (agent : Nat) (n : Nat) (v : W64) (s : State) : Host.Outcome State Fault Refusal :=
  runMem (regWrite agent (Reg.HARROW_WCMD n) (setF v Reg.HARROW_WCMD_TABLE 2)) s

/-- HOLDING_OPEN_WRITE (R132): A write of HOLDING_OPEN opens or closes holdings for admission at Harrow. -/
def execHoldingOpenWrite (agent : Nat) (n : Nat) (v : W64) (s : State) : Host.Outcome State Fault Refusal :=
  runMem (regWrite agent (Reg.HOLDING_OPEN n) v) s

/-- MICRO_WINDOW_WRITE (R66): A host write to the MICRO window writes the master copy of the window bank or is rejected. -/
def execMicroWindowWrite (agent : Nat) (off : Nat) (v : W64) (s : State) : Host.Outcome State Fault Refusal :=
  runMem (regWrite agent (0x2000000 + 8 * (off % 0x3FE000)) v) s

/-- START (R68): PROG_LOAD.START puts the window bank in VERIFYING and begins verification. -/
def execProgStart (agent : Nat) (s : State) : Host.Outcome State Fault Refusal :=
  runMem (regWrite agent Reg.PROG_LOAD (setF 0 Reg.PROG_LOAD_START 1)) s

/-- DISARM (R65): PROG_LOAD.DISARM returns the ARMED window bank to LOADABLE. -/
def execProgDisarm (agent : Nat) (s : State) : Host.Outcome State Fault Refusal :=
  runMem (regWrite agent Reg.PROG_LOAD (setF 0 Reg.PROG_LOAD_DISARM 1)) s

/-- PROG_BANK_SEL_WRITE (R69): A write of PROG_BANK_SEL naming the ARMED bank arms a switch at the next epoch boundary. -/
def execProgBankSelWrite (agent : Nat) (bank : Nat) (s : State) : Host.Outcome State Fault Refusal :=
  runMem (regWrite agent Reg.PROG_BANK_SEL (setF 0 Reg.PROG_BANK_SEL_BANK bank)) s

/-- ISOLATE (R71): FURROW_ROLE request ISOLATE quiesces a furrow toward ISOLATED. -/
def execFurrowIsolate (agent : Nat) (a f : Nat) (s : State) : Host.Outcome State Fault Refusal :=
  runMem (regWrite agent (Reg.FURROW_ROLE a f) (setF 0 Reg.FURROW_ROLE_REQUEST 1)) s

/-- RETURN (R71): FURROW_ROLE request RETURN starts the self-test of a FAILED or ISOLATED furrow. -/
def execFurrowReturn (agent : Nat) (a f : Nat) (s : State) : Host.Outcome State Fault Refusal :=
  runMem (regWrite agent (Reg.FURROW_ROLE a f) (setF 0 Reg.FURROW_ROLE_REQUEST 2)) s

/-- TAKEOVER (R71): FURROW_ROLE request TAKEOVER makes the spare ACTIVE and moves entries by ordered rehash. -/
def execFurrowTakeover (agent : Nat) (a f : Nat) (s : State) : Host.Outcome State Fault Refusal :=
  runMem (regWrite agent (Reg.FURROW_ROLE a f) (setF 0 Reg.FURROW_ROLE_REQUEST 3)) s

/-- ACTIVATE (R71): FURROW_ROLE request ACTIVATE makes a SPARE furrow ACTIVE. -/
def execFurrowActivate (agent : Nat) (a f : Nat) (s : State) : Host.Outcome State Fault Refusal :=
  runMem (regWrite agent (Reg.FURROW_ROLE a f) (setF 0 Reg.FURROW_ROLE_REQUEST 4)) s

/-- FURROW_MAP_WRITE (R75): A write changing a FURROW_MAP entry starts an ordered rehash, completes at once, or is rejected. -/
def execFurrowMapWrite (agent : Nat) (a k : Nat) (v : W64) (s : State) : Host.Outcome State Fault Refusal :=
  runMem (regWrite agent (Reg.FURROW_MAP a k) v) s

/-- FLOW_HASH_SEED_WRITE (R21): A write of FLOW_HASH_SEED is accepted only while every holding is closed. -/
def execFlowHashSeedWrite (agent : Nat) (v : W64) (s : State) : Host.Outcome State Fault Refusal :=
  runMem (regWrite agent Reg.FLOW_HASH_SEED v) s

/-- ORCHARD_READ (R187): ORCHARD_CMD READ returns an entry, element or counter pair. -/
def execOrchardRead (agent : Nat) (v : W64) (s : State) : Host.Outcome State Fault Refusal :=
  runMem (regWrite agent Reg.ORCHARD_CMD (setF v Reg.ORCHARD_CMD_OP 1)) s

/-- ORCHARD_WRITE (R187): ORCHARD_CMD WRITE replaces an entry from ORCHARD_DATA. -/
def execOrchardWrite (agent : Nat) (v : W64) (s : State) : Host.Outcome State Fault Refusal :=
  runMem (regWrite agent Reg.ORCHARD_CMD (setF v Reg.ORCHARD_CMD_OP 2)) s

/-- ORCHARD_INSERT (R187): ORCHARD_CMD INSERT inserts a key into an EXACT or LPM table. -/
def execOrchardInsert (agent : Nat) (v : W64) (s : State) : Host.Outcome State Fault Refusal :=
  runMem (regWrite agent Reg.ORCHARD_CMD (setF v Reg.ORCHARD_CMD_OP 3)) s

/-- ORCHARD_DELETE (R187): ORCHARD_CMD DELETE removes a key from an EXACT or LPM table. -/
def execOrchardDelete (agent : Nat) (v : W64) (s : State) : Host.Outcome State Fault Refusal :=
  runMem (regWrite agent Reg.ORCHARD_CMD (setF v Reg.ORCHARD_CMD_OP 4)) s

/-- ORCHARD_SEARCH (R187): ORCHARD_CMD SEARCH looks up a key without setting hit bits. -/
def execOrchardSearch (agent : Nat) (v : W64) (s : State) : Host.Outcome State Fault Refusal :=
  runMem (regWrite agent Reg.ORCHARD_CMD (setF v Reg.ORCHARD_CMD_OP 5)) s

/-- AGE_SCAN (R185): AGE_SCAN visits every entry of a table and ages out stale DYNAMIC entries. -/
def execAgeScan (agent : Nat) (v : W64) (s : State) : Host.Outcome State Fault Refusal :=
  runMem (regWrite agent Reg.ORCHARD_CMD (setF v Reg.ORCHARD_CMD_OP 6)) s

/-- PROFILE_SELECT (R162): A write of PROFILE_SEL checks the staged slot and raises the table-profile quiesce. -/
def execProfileSelect (agent : Nat) (slot : Nat) (s : State) : Host.Outcome State Fault Refusal :=
  runMem (regWrite agent Reg.PROFILE_SEL (setF 0 Reg.PROFILE_SEL_SLOT slot)) s

/-- ASSOC_READ (R203): ASSOC_CMD READ returns an entry from the shadow copy or the cells. -/
def execAssocRead (agent : Nat) (v : W64) (s : State) : Host.Outcome State Fault Refusal :=
  runMem (regWrite agent Reg.ASSOC_CMD (setF v Reg.ASSOC_CMD_OP 1)) s

/-- ASSOC_WRITE (R203): ASSOC_CMD WRITE replaces an entry in copy and array. -/
def execAssocWrite (agent : Nat) (v : W64) (s : State) : Host.Outcome State Fault Refusal :=
  runMem (regWrite agent Reg.ASSOC_CMD (setF v Reg.ASSOC_CMD_OP 2)) s

/-- INVALIDATE (R203): ASSOC_CMD INVALIDATE clears VALID of an entry. -/
def execAssocInvalidate (agent : Nat) (v : W64) (s : State) : Host.Outcome State Fault Refusal :=
  runMem (regWrite agent Reg.ASSOC_CMD (setF v Reg.ASSOC_CMD_OP 3)) s

/-- MOVE (R205): ASSOC_CMD MOVE copies an entry to a new index and invalidates the source. -/
def execAssocMove (agent : Nat) (v : W64) (s : State) : Host.Outcome State Fault Refusal :=
  runMem (regWrite agent Reg.ASSOC_CMD (setF v Reg.ASSOC_CMD_OP 4)) s

/-- ASSOC_SEARCH (R203): ASSOC_CMD SEARCH runs a search on the maintenance side. -/
def execAssocSearch (agent : Nat) (v : W64) (s : State) : Host.Outcome State Fault Refusal :=
  runMem (regWrite agent Reg.ASSOC_CMD (setF v Reg.ASSOC_CMD_OP 5)) s

/-- ASSOC_CFG_WRITE (R195): A write of ASSOC_CFG changes the mode only while every holding is closed. -/
def execAssocCfgWrite (agent : Nat) (mode : Nat) (s : State) : Host.Outcome State Fault Refusal :=
  runMem (regWrite agent Reg.ASSOC_CFG (setF 0 Reg.ASSOC_CFG_MODE mode)) s

/-- SEG_MAP_WRITE (R196): A write of SEG_MAP sets a holding's segment mask, replicated in REPLICATED mode. -/
def execSegMapWrite (agent : Nat) (a h : Nat) (v : W64) (s : State) : Host.Outcome State Fault Refusal :=
  runMem (regWrite agent (Reg.SEG_MAP a h) v) s

end Sys2Proof.Machine
end

