-- ==== Sys2Proof/Machine/CmdWrite2.lean ====
section
/-!
DEFINITION. Register writes that are commands of their own: the fabric, the queues, Drill, Rind, the strips and the deep store.
-/
namespace Sys2Proof.Machine

/-- ACRE_MAP_WRITE (R220): A write changing an ACRE_MAP entry starts an ordered acre move, completes at once, or is rejected. -/
def execAcreMapWrite (agent : Nat) (a k : Nat) (v : W64) (s : State) : Host.Outcome State Fault Refusal :=
  runMem (regWrite agent (Reg.ACRE_MAP a k) v) s

/-- READ_GROUP (R232): MC_CMD READ_GROUP returns a group entry. -/
def execReadGroup (agent : Nat) (v : W64) (s : State) : Host.Outcome State Fault Refusal :=
  runMem (regWrite agent Reg.MC_CMD (setF v Reg.MC_CMD_OP 1)) s

/-- WRITE_GROUP (R232): MC_CMD WRITE_GROUP writes a group entry to every replicator copy. -/
def execWriteGroup (agent : Nat) (v : W64) (s : State) : Host.Outcome State Fault Refusal :=
  runMem (regWrite agent Reg.MC_CMD (setF v Reg.MC_CMD_OP 2)) s

/-- READ_MEMBER (R232): MC_CMD READ_MEMBER returns a member entry. -/
def execReadMember (agent : Nat) (v : W64) (s : State) : Host.Outcome State Fault Refusal :=
  runMem (regWrite agent Reg.MC_CMD (setF v Reg.MC_CMD_OP 3)) s

/-- WRITE_MEMBER (R232): MC_CMD WRITE_MEMBER writes a member entry to every replicator copy. -/
def execWriteMember (agent : Nat) (v : W64) (s : State) : Host.Outcome State Fault Refusal :=
  runMem (regWrite agent Reg.MC_CMD (setF v Reg.MC_CMD_OP 4)) s

/-- SPILL_REGION_WRITE (R260): A write of SPILL_REGION rebuilds the page ring and bitmap, or is rejected. -/
def execSpillRegionWrite (agent : Nat) (v : W64) (s : State) : Host.Outcome State Fault Refusal :=
  runMem (regWrite agent Reg.SPILL_REGION v) s

/-- READ_CFG (R269): QUEUE_CMD READ_CFG returns a queue's configuration. -/
def execQueueReadCfg (agent : Nat) (v : W64) (s : State) : Host.Outcome State Fault Refusal :=
  runMem (regWrite agent Reg.QUEUE_CMD (setF v Reg.QUEUE_CMD_OP 1)) s

/-- WRITE_CFG (R269): QUEUE_CMD WRITE_CFG writes a queue's configuration. -/
def execQueueWriteCfg (agent : Nat) (v : W64) (s : State) : Host.Outcome State Fault Refusal :=
  runMem (regWrite agent Reg.QUEUE_CMD (setF v Reg.QUEUE_CMD_OP 2)) s

/-- READ_STATE (R269): QUEUE_CMD READ_STATE returns sub-queue states and DEPTH. -/
def execQueueReadState (agent : Nat) (v : W64) (s : State) : Host.Outcome State Fault Refusal :=
  runMem (regWrite agent Reg.QUEUE_CMD (setF v Reg.QUEUE_CMD_OP 3)) s

/-- FLUSH (R269): QUEUE_CMD FLUSH drops every packet of a disabled queue and returns its pages. -/
def execQueueFlush (agent : Nat) (v : W64) (s : State) : Host.Outcome State Fault Refusal :=
  runMem (regWrite agent Reg.QUEUE_CMD (setF v Reg.QUEUE_CMD_OP 4)) s

/-- READ_NODE (R305): DRILL_CMD READ_NODE returns a node entry. -/
def execDrillReadNode (agent : Nat) (v : W64) (s : State) : Host.Outcome State Fault Refusal :=
  runMem (regWrite agent Reg.DRILL_CMD (setF v Reg.DRILL_CMD_OP 1)) s

/-- WRITE_NODE (R272): DRILL_CMD WRITE_NODE writes a node, refused NOT_EMPTY when moving a busy node. -/
def execDrillWriteNode (agent : Nat) (v : W64) (s : State) : Host.Outcome State Fault Refusal :=
  runMem (regWrite agent Reg.DRILL_CMD (setF v Reg.DRILL_CMD_OP 2)) s

/-- READ_SHAPER (R305): DRILL_CMD READ_SHAPER returns a node's bucket. -/
def execDrillReadShaper (agent : Nat) (v : W64) (s : State) : Host.Outcome State Fault Refusal :=
  runMem (regWrite agent Reg.DRILL_CMD (setF v Reg.DRILL_CMD_OP 3)) s

/-- READ_GCL (R305): DRILL_CMD READ_GCL returns a gate list entry. -/
def execDrillReadGcl (agent : Nat) (v : W64) (s : State) : Host.Outcome State Fault Refusal :=
  runMem (regWrite agent Reg.DRILL_CMD (setF v Reg.DRILL_CMD_OP 4)) s

/-- WRITE_GCL (R293): DRILL_CMD WRITE_GCL writes a gate list entry, refused IN_USE for entries in use. -/
def execDrillWriteGcl (agent : Nat) (v : W64) (s : State) : Host.Outcome State Fault Refusal :=
  runMem (regWrite agent Reg.DRILL_CMD (setF v Reg.DRILL_CMD_OP 5)) s

/-- READ_GATE (R306): DRILL_CMD READ_GATE returns the operating copy and gate status. -/
def execDrillReadGate (agent : Nat) (v : W64) (s : State) : Host.Outcome State Fault Refusal :=
  runMem (regWrite agent Reg.DRILL_CMD (setF v Reg.DRILL_CMD_OP 6)) s

/-- WRITE_GATE (R292): DRILL_CMD WRITE_GATE writes the pending copy and arms a change. -/
def execDrillWriteGate (agent : Nat) (v : W64) (s : State) : Host.Outcome State Fault Refusal :=
  runMem (regWrite agent Reg.DRILL_CMD (setF v Reg.DRILL_CMD_OP 7)) s

/-- READ_METER (R305): DRILL_CMD READ_METER returns a meter. -/
def execDrillReadMeter (agent : Nat) (v : W64) (s : State) : Host.Outcome State Fault Refusal :=
  runMem (regWrite agent Reg.DRILL_CMD (setF v Reg.DRILL_CMD_OP 8)) s

/-- WRITE_METER (R303): DRILL_CMD WRITE_METER sets a meter's profile and fills its buckets. -/
def execDrillWriteMeter (agent : Nat) (v : W64) (s : State) : Host.Outcome State Fault Refusal :=
  runMem (regWrite agent Reg.DRILL_CMD (setF v Reg.DRILL_CMD_OP 9)) s

/-- READ_MPROF (R305): DRILL_CMD READ_MPROF returns a meter profile. -/
def execDrillReadMprof (agent : Nat) (v : W64) (s : State) : Host.Outcome State Fault Refusal :=
  runMem (regWrite agent Reg.DRILL_CMD (setF v Reg.DRILL_CMD_OP 10)) s

/-- WRITE_MPROF (R303): DRILL_CMD WRITE_MPROF writes a meter profile. -/
def execDrillWriteMprof (agent : Nat) (v : W64) (s : State) : Host.Outcome State Fault Refusal :=
  runMem (regWrite agent Reg.DRILL_CMD (setF v Reg.DRILL_CMD_OP 11)) s

/-- REQUEST (R315): RIND_LOCK.REQUEST grants the lease or queues the agent in WAITING. -/
def execRindRequest (agent : Nat) (s : State) : Host.Outcome State Fault Refusal :=
  runMem (regWrite agent Reg.RIND_LOCK (setF 0 Reg.RIND_LOCK_REQUEST 1)) s

/-- RELEASE (R315): RIND_LOCK.RELEASE ends the holder's lease and grants the next waiter. -/
def execRindRelease (agent : Nat) (s : State) : Host.Outcome State Fault Refusal :=
  runMem (regWrite agent Reg.RIND_LOCK (setF 0 Reg.RIND_LOCK_RELEASE 1)) s

/-- RIND_READ (R316): RIND_CMD READ returns an entry without its key material. -/
def execRindRead (agent : Nat) (v : W64) (s : State) : Host.Outcome State Fault Refusal :=
  runMem (regWrite agent Reg.RIND_CMD (setF v Reg.RIND_CMD_OP 1)) s

/-- RIND_WRITE (R316): RIND_CMD WRITE replaces an entry under the checks of R312. -/
def execRindWrite (agent : Nat) (v : W64) (s : State) : Host.Outcome State Fault Refusal :=
  runMem (regWrite agent Reg.RIND_CMD (setF v Reg.RIND_CMD_OP 2)) s

/-- UPDATE (R316): RIND_CMD UPDATE replaces REKEY_AT, FAIL_RETURN, MIRROR and REPLAY_WIN. -/
def execRindUpdate (agent : Nat) (v : W64) (s : State) : Host.Outcome State Fault Refusal :=
  runMem (regWrite agent Reg.RIND_CMD (setF v Reg.RIND_CMD_OP 3)) s

/-- RIND_INVALIDATE (R316): RIND_CMD INVALIDATE clears an entry and zeroes its key. -/
def execRindInvalidate (agent : Nat) (v : W64) (s : State) : Host.Outcome State Fault Refusal :=
  runMem (regWrite agent Reg.RIND_CMD (setF v Reg.RIND_CMD_OP 4)) s

/-- ADVANCE_PN (R316): RIND_CMD ADVANCE_PN raises NEXT_PN of an outbound SA. -/
def execRindAdvancePn (agent : Nat) (v : W64) (s : State) : Host.Outcome State Fault Refusal :=
  runMem (regWrite agent Reg.RIND_CMD (setF v Reg.RIND_CMD_OP 5)) s

/-- ZEROIZE (R316): RIND_CMD ZEROIZE invalidates every entry of a kind, regenerating deep-store keys. -/
def execRindZeroize (agent : Nat) (v : W64) (s : State) : Host.Outcome State Fault Refusal :=
  runMem (regWrite agent Reg.RIND_CMD (setF v Reg.RIND_CMD_OP 6)) s

/-- PORT_MODE_WRITE (R338): A write of PORT_MODE sets the mode or enables or disables a port. -/
def execPortModeWrite (agent : Nat) (n q : Nat) (v : W64) (s : State) : Host.Outcome State Fault Refusal :=
  runMem (regWrite agent (Reg.PORT_MODE n q) v) s

/-- STRIP_FALLOW_ENTER (R360): STRIP_CTRL.FALLOW := 1 empties staging, moves ports to FALLOW and powers the strip off. -/
def execStripFallowEnter (agent : Nat) (n : Nat) (s : State) : Host.Outcome State Fault Refusal :=
  runMem (regWrite agent (Reg.STRIP_CTRL n) (setF 0 Reg.STRIP_CTRL_FALLOW 1)) s

/-- STRIP_FALLOW_EXIT (R360): STRIP_CTRL.FALLOW := 0 restarts the strip PLLs. -/
def execStripFallowExit (agent : Nat) (n : Nat) (s : State) : Host.Outcome State Fault Refusal :=
  runMem (regWrite agent (Reg.STRIP_CTRL n) 0) s

/-- INIT (R367): DEEP_CTRL.INIT starts deep-store power-up, training and zeroing. -/
def execDeepInit (agent : Nat) (s : State) : Host.Outcome State Fault Refusal :=
  runMem (regWrite agent Reg.DEEP_CTRL (setF 0 Reg.DEEP_CTRL_INIT 1)) s

/-- DEEP_ACC_READ (R383): DEEP_ACC_CMD READ reads 64 B of the deep store. -/
def execDeepAccRead (agent : Nat) (v : W64) (s : State) : Host.Outcome State Fault Refusal :=
  runMem (regWrite agent Reg.DEEP_ACC_CMD (setF v Reg.DEEP_ACC_CMD_OP 1)) s

/-- DEEP_ACC_WRITE (R383): DEEP_ACC_CMD WRITE writes 64 B of the deep store. -/
def execDeepAccWrite (agent : Nat) (v : W64) (s : State) : Host.Outcome State Fault Refusal :=
  runMem (regWrite agent Reg.DEEP_ACC_CMD (setF v Reg.DEEP_ACC_CMD_OP 2)) s

end Sys2Proof.Machine
end

