-- ==== Sys2Proof/Machine/CmdWrite3.lean ====
section
/-!
DEFINITION. Register writes that are commands of their own: the pair, the faults, the resets, the always-on island, the host and the ports.
-/
namespace Sys2Proof.Machine

/-- PAIR_MODE_WRITE (R396): A write of PAIR_ROLE.MODE moves between SOLO and LINKING. -/
def execPairModeWrite (agent : Nat) (v : W64) (s : State) : Host.Outcome State Fault Refusal :=
  runMem (regWrite agent Reg.PAIR_ROLE v) s

/-- RESYNC (R410): PAIR_CTRL.RESYNC repeats the sync exchange. -/
def execPairResync (agent : Nat) (s : State) : Host.Outcome State Fault Refusal :=
  runMem (regWrite agent Reg.PAIR_CTRL (setF 0 Reg.PAIR_CTRL_RESYNC 1)) s

/-- CONFIRM_LOST (R407): PAIR_CTRL.CONFIRM_LOST takes over in SPLIT or lifts the frozen gate in SURVIVOR. -/
def execPairConfirmLost (agent : Nat) (s : State) : Host.Outcome State Fault Refusal :=
  runMem (regWrite agent Reg.PAIR_CTRL (setF 0 Reg.PAIR_CTRL_CONFIRM_LOST 1)) s

/-- HANDOVER (R411): PAIR_CTRL.HANDOVER hands anchors to the peer with final checkpoints. -/
def execPairHandover (agent : Nat) (s : State) : Host.Outcome State Fault Refusal :=
  runMem (regWrite agent Reg.PAIR_CTRL (setF 0 Reg.PAIR_CTRL_HANDOVER 1)) s

/-- PEER_RESET (R413): PAIR_CTRL.PEER_RESET sends a RESET_REQ to the peer. -/
def execPairPeerReset (agent : Nat) (s : State) : Host.Outcome State Fault Refusal :=
  runMem (regWrite agent Reg.PAIR_CTRL (setF 0 Reg.PAIR_CTRL_PEER_RESET 1)) s

/-- PEER_ACC_READ (R412): PEER_ACC_CMD READ reads a peer RIND or PAIR register. -/
def execPeerAccRead (agent : Nat) (v : W64) (s : State) : Host.Outcome State Fault Refusal :=
  runMem (regWrite agent Reg.PEER_ACC_CMD (setF v Reg.PEER_ACC_CMD_OP 1)) s

/-- PEER_ACC_WRITE (R412): PEER_ACC_CMD WRITE writes a peer RIND or PAIR register. -/
def execPeerAccWrite (agent : Nat) (v : W64) (s : State) : Host.Outcome State Fault Refusal :=
  runMem (regWrite agent Reg.PEER_ACC_CMD (setF v Reg.PEER_ACC_CMD_OP 2)) s

/-- FAULT_CLEAR_ONE (R436): FAULT_CLEAR.ONE removes or refuses one active entry. -/
def execFaultClearOne (agent : Nat) (e : Nat) (s : State) : Host.Outcome State Fault Refusal :=
  runMem (regWrite agent Reg.FAULT_CLEAR (setF (setF 0 Reg.FAULT_CLEAR_ENTRY e) Reg.FAULT_CLEAR_ONE 1)) s

/-- FAULT_CLEAR_ALL (R436): FAULT_CLEAR.ALL removes or refuses every active entry. -/
def execFaultClearAll (agent : Nat) (s : State) : Host.Outcome State Fault Refusal :=
  runMem (regWrite agent Reg.FAULT_CLEAR (setF 0 Reg.FAULT_CLEAR_ALL 1)) s

/-- FAULT_CLEAR_FIRST (R436): FAULT_CLEAR.FIRST clears the first-fault record. -/
def execFaultClearFirst (agent : Nat) (s : State) : Host.Outcome State Fault Refusal :=
  runMem (regWrite agent Reg.FAULT_CLEAR (setF 0 Reg.FAULT_CLEAR_FIRST 1)) s

/-- FAULT_PIN_TEST (R435): FAULT_PIN.TEST starts a FAULT_N pulse. -/
def execFaultPinTest (agent : Nat) (v : W64) (s : State) : Host.Outcome State Fault Refusal :=
  runMem (regWrite agent Reg.FAULT_PIN (setF v Reg.FAULT_PIN_TEST 1)) s

/-- ARM (R437): FAULT_INJECT.ARM arms an injection at a checker and source. -/
def execInjectArm (agent : Nat) (v : W64) (s : State) : Host.Outcome State Fault Refusal :=
  runMem (regWrite agent Reg.FAULT_INJECT (setF v Reg.FAULT_INJECT_ARM 1)) s

/-- INJECT_DISARM (R437): FAULT_INJECT.DISARM cancels a pending injection. -/
def execInjectDisarm (agent : Nat) (s : State) : Host.Outcome State Fault Refusal :=
  runMem (regWrite agent Reg.FAULT_INJECT (setF 0 Reg.FAULT_INJECT_DISARM 1)) s

/-- SOFTWARE (R444): RSTC_CTRL.WARM with KEY 0xA5 performs a warm reset. -/
def execSoftwareReset (agent : Nat) (s : State) : Host.Outcome State Fault Refusal :=
  runMem (regWrite agent Reg.RSTC_CTRL (setF (setF 0 Reg.RSTC_CTRL_WARM 1) Reg.RSTC_CTRL_KEY 0xA5)) s

/-- STRIP_RESET (R448): RSTC_PARTIAL.STRIP_RESET resets a strip and releases it. -/
def execStripReset (agent : Nat) (n : Nat) (s : State) : Host.Outcome State Fault Refusal :=
  runMem (regWrite agent Reg.RSTC_PARTIAL (setF 0 Reg.RSTC_PARTIAL_STRIP_RESET (2 ^ n))) s

/-- STRIP_HOLD (R448): RSTC_PARTIAL.STRIP_HOLD resets and holds a strip. -/
def execStripHold (agent : Nat) (n : Nat) (s : State) : Host.Outcome State Fault Refusal :=
  runMem (regWrite agent Reg.RSTC_PARTIAL (setF 0 Reg.RSTC_PARTIAL_STRIP_HOLD (2 ^ n))) s

/-- STRIP_RELEASE (R448): RSTC_PARTIAL.STRIP_RELEASE releases a held strip. -/
def execStripRelease (agent : Nat) (n : Nat) (s : State) : Host.Outcome State Fault Refusal :=
  runMem (regWrite agent Reg.RSTC_PARTIAL (setF 0 Reg.RSTC_PARTIAL_STRIP_RELEASE (2 ^ n))) s

/-- ACRE_RESET (R448): RSTC_PARTIAL.ACRE_RESET resets an acre and releases it. -/
def execAcreReset (agent : Nat) (n : Nat) (s : State) : Host.Outcome State Fault Refusal :=
  runMem (regWrite agent Reg.RSTC_PARTIAL (setF 0 Reg.RSTC_PARTIAL_ACRE_RESET (2 ^ n))) s

/-- ACRE_HOLD (R448): RSTC_PARTIAL.ACRE_HOLD resets and holds an acre. -/
def execAcreHold (agent : Nat) (n : Nat) (s : State) : Host.Outcome State Fault Refusal :=
  runMem (regWrite agent Reg.RSTC_PARTIAL (setF 0 Reg.RSTC_PARTIAL_ACRE_HOLD (2 ^ n))) s

/-- ACRE_RELEASE (R448): RSTC_PARTIAL.ACRE_RELEASE releases a held acre. -/
def execAcreRelease (agent : Nat) (n : Nat) (s : State) : Host.Outcome State Fault Refusal :=
  runMem (regWrite agent Reg.RSTC_PARTIAL (setF 0 Reg.RSTC_PARTIAL_ACRE_RELEASE (2 ^ n))) s

/-- ENTER (R460): AON_FALLOW.ENTER with KEY 0xA5 puts the device fallow. -/
def execFallowEnter (agent : Nat) (s : State) : Host.Outcome State Fault Refusal :=
  runMem (regWrite agent Reg.AON_FALLOW (setF (setF 0 Reg.AON_FALLOW_ENTER 1) Reg.AON_FALLOW_KEY 0xA5)) s

/-- KICK (R463): SP_WD.KICK restarts the service-processor watchdog. -/
def execWatchdogKick (agent : Nat) (v : W64) (s : State) : Host.Outcome State Fault Refusal :=
  runMem (regWrite agent Reg.SP_WD (setF v Reg.SP_WD_KICK 1)) s

/-- VERIFY (R466): AON_LB_CTRL.VERIFY reads a record slot and marks it erased. -/
def execLbVerify (agent : Nat) (slot : Nat) (s : State) : Host.Outcome State Fault Refusal :=
  runMem (regWrite agent Reg.AON_LB_CTRL (setF (setF 0 Reg.AON_LB_CTRL_VERIFY 1) Reg.AON_LB_CTRL_SLOT slot)) s

/-- LB_TEST (R467): AON_LB_CTRL.TEST writes a test record without fallow. -/
def execLbTest (agent : Nat) (s : State) : Host.Outcome State Fault Refusal :=
  runMem (regWrite agent Reg.AON_LB_CTRL (setF 0 Reg.AON_LB_CTRL_TEST 1)) s

/-- AON_TIME_SET (R443): A write of AON_TIME_SET steps device time while every holding is closed. -/
def execAonTimeSet (agent : Nat) (v : W64) (s : State) : Host.Outcome State Fault Refusal :=
  runMem (regWrite agent Reg.AON_TIME_SET v) s

/-- PIN_FEAT_WRITE (R518): A write of PIN_FEAT enables MFP features, resolving pin conflicts by rank. -/
def execPinFeatWrite (agent : Nat) (v : W64) (s : State) : Host.Outcome State Fault Refusal :=
  runMem (regWrite agent Reg.PIN_FEAT v) s

/-- REMOVE (R485): HOST_HOLDING_CMD.REMOVE closes a holding and raises the holding-removal quiesce. -/
def execHoldingRemove (agent : Nat) (h : Nat) (s : State) : Host.Outcome State Fault Refusal :=
  runMem (regWrite agent Reg.HOST_HOLDING_CMD (setF (setF 0 Reg.HOST_HOLDING_CMD_HOLDING h) Reg.HOST_HOLDING_CMD_REMOVE 1)) s

/-- UART_SEND (R495): A write of UART_DATA queues a byte for transmission. -/
def execUartSend (agent : Nat) (x : Byte) (s : State) : Host.Outcome State Fault Refusal :=
  runMem (regWrite agent Reg.UART_DATA (BitVec.ofNat 64 x.toNat)) s

/-- SPIM_TRANSACTION (R497): SPIM_CMD runs a flash transaction, preemptible by higher-ranked users. -/
def execSpimTransaction (agent : Nat) (v : W64) (s : State) : Host.Outcome State Fault Refusal :=
  runMem (regWrite agent Reg.SPIM_CMD v) s

/-- NOW (R503): DUMP_TALLY.NOW requests an extra tally. -/
def execTallyNow (agent : Nat) (s : State) : Host.Outcome State Fault Refusal :=
  runMem (regWrite agent Reg.DUMP_TALLY (setF 0 Reg.DUMP_TALLY_NOW 1)) s

/-- REGISTER_WRITE (R476): A register write without its own row is range-checked and applied, posted under ISLAND_BUSY where needed. -/
def execRegisterWrite (agent off : Nat) (v : W64) (half : Bool) (s : State) : Host.Outcome State Fault Refusal :=
  runMem (fun m d => if half then halfWrite agent off d else regWrite agent off v m d) s

/-- CLEARING_READ (R478): A read at a register's own offset returns it and clears its RC fields. -/
def execClearingRead (agent off : Nat) (s : State) : Host.Outcome State Fault Refusal :=
  run (readCmd agent off) s

/-- EVT_POP (R482): A read of EVT_POP removes the oldest entry and latches its words for the agent. -/
def execEvtPop (agent f : Nat) (s : State) : Host.Outcome State Fault Refusal :=
  run (readCmd agent (Reg.EVT_POP f)) s

/-- UART_DATA_READ (R500): A read of UART_DATA removes the next received byte. -/
def execUartDataRead (agent : Nat) (s : State) : Host.Outcome State Fault Refusal :=
  run (readCmd agent Reg.UART_DATA) s

end Sys2Proof.Machine
end

