-- ==== Sys2Proof/Machine/Dispatch.lean ====
section
/-!
DEFINITION. The dispatch: one arm for each constructor of Instr, each a direct call of its meaning.
-/
namespace Sys2Proof.Machine

def exec (i : Instr) (s : State) : Host.Outcome State Fault Refusal :=
  match i with
  | .frameReceive p wire uncorr bad => Sys2Proof.Machine.execFrameReceive p wire uncorr bad s
  | .harrowParse n => Sys2Proof.Machine.execHarrowParse n s
  | .fragWaitExpiry n k => Sys2Proof.Machine.execFragWaitExpiry n k s
  | .fragmentSweep n bucket => Sys2Proof.Machine.execFragmentSweep n bucket s
  | .reparse n => Sys2Proof.Machine.execReparse n s
  | .harrowWriteState agent n v => Sys2Proof.Machine.execHarrowWriteState agent n v s
  | .harrowWriteTrans agent n v => Sys2Proof.Machine.execHarrowWriteTrans agent n v s
  | .harrowWriteHoldRule agent n v => Sys2Proof.Machine.execHarrowWriteHoldRule agent n v s
  | .holdingOpenWrite agent n v => Sys2Proof.Machine.execHoldingOpenWrite agent n v s
  | .puntPolicer => Sys2Proof.Machine.execPuntPolicer s
  | .bucketRefill => Sys2Proof.Machine.execBucketRefill s
  | .furrowEntryAdmit a f => Sys2Proof.Machine.execFurrowEntryAdmit a f s
  | .nop l => Sys2Proof.Machine.execNop l s
  | .next l => Sys2Proof.Machine.execNext l s
  | .branch l => Sys2Proof.Machine.execBranch l s
  | .wait l => Sys2Proof.Machine.execWait l s
  | .callNextRow l => Sys2Proof.Machine.execCallNextRow l s
  | .exit l => Sys2Proof.Machine.execExit l s
  | .recirc l => Sys2Proof.Machine.execRecirc l s
  | .trap l => Sys2Proof.Machine.execTrap l s
  | .parkWake l cls => Sys2Proof.Machine.execParkWake l cls s
  | .forcedBubble l => Sys2Proof.Machine.execForcedBubble l s
  | .exitHoldRelease l => Sys2Proof.Machine.execExitHoldRelease l s
  | .late l => Sys2Proof.Machine.execLate l s
  | .safeBound l => Sys2Proof.Machine.execSafeBound l s
  | .microWindowWrite agent off v => Sys2Proof.Machine.execMicroWindowWrite agent off v s
  | .progStart agent => Sys2Proof.Machine.execProgStart agent s
  | .progDisarm agent => Sys2Proof.Machine.execProgDisarm agent s
  | .progVerifyDone => Sys2Proof.Machine.execProgVerifyDone s
  | .progBankSelWrite agent bank => Sys2Proof.Machine.execProgBankSelWrite agent bank s
  | .epochBoundary => Sys2Proof.Machine.execEpochBoundary s
  | .drainEnd => Sys2Proof.Machine.execDrainEnd s
  | .furrowIsolate agent a f => Sys2Proof.Machine.execFurrowIsolate agent a f s
  | .isolateComplete a f => Sys2Proof.Machine.execIsolateComplete a f s
  | .furrowReturn agent a f => Sys2Proof.Machine.execFurrowReturn agent a f s
  | .selfTestDone a f pass => Sys2Proof.Machine.execSelfTestDone a f pass s
  | .furrowTakeover agent a f => Sys2Proof.Machine.execFurrowTakeover agent a f s
  | .furrowActivate agent a f => Sys2Proof.Machine.execFurrowActivate agent a f s
  | .spareTakeover a f => Sys2Proof.Machine.execSpareTakeover a f s
  | .furrowHang a f => Sys2Proof.Machine.execFurrowHang a f s
  | .furrowMapWrite agent a k v => Sys2Proof.Machine.execFurrowMapWrite agent a k v s
  | .rehashDomainDrained a dom => Sys2Proof.Machine.execRehashDomainDrained a dom s
  | .rehashHoldExpiry a => Sys2Proof.Machine.execRehashHoldExpiry a s
  | .fieldExtract l n g => Sys2Proof.Machine.execFieldExtract l n g s
  | .aluMov l n g imm => Sys2Proof.Machine.execAluMov l n g imm s
  | .aluAdd l n g imm => Sys2Proof.Machine.execAluAdd l n g imm s
  | .aluSub l n g imm => Sys2Proof.Machine.execAluSub l n g imm s
  | .aluAnd l n g imm => Sys2Proof.Machine.execAluAnd l n g imm s
  | .aluOr l n g imm => Sys2Proof.Machine.execAluOr l n g imm s
  | .aluXor l n g imm => Sys2Proof.Machine.execAluXor l n g imm s
  | .aluAndn l n g imm => Sys2Proof.Machine.execAluAndn l n g imm s
  | .aluNot l n g imm => Sys2Proof.Machine.execAluNot l n g imm s
  | .aluShl l n g imm => Sys2Proof.Machine.execAluShl l n g imm s
  | .aluShr l n g imm => Sys2Proof.Machine.execAluShr l n g imm s
  | .aluSar l n g imm => Sys2Proof.Machine.execAluSar l n g imm s
  | .aluRol l n g imm => Sys2Proof.Machine.execAluRol l n g imm s
  | .aluMin l n g imm => Sys2Proof.Machine.execAluMin l n g imm s
  | .aluMax l n g imm => Sys2Proof.Machine.execAluMax l n g imm s
  | .aluCsum l n g imm => Sys2Proof.Machine.execAluCsum l n g imm s
  | .aluCrc l n g imm => Sys2Proof.Machine.execAluCrc l n g imm s
  | .aluPopc l n g imm => Sys2Proof.Machine.execAluPopc l n g imm s
  | .aluClz l n g imm => Sys2Proof.Machine.execAluClz l n g imm s
  | .aluScale l n g imm => Sys2Proof.Machine.execAluScale l n g imm s
  | .aluAddsat l n g imm => Sys2Proof.Machine.execAluAddsat l n g imm s
  | .aluSubsat l n g imm => Sys2Proof.Machine.execAluSubsat l n g imm s
  | .metadataWrite l g k => Sys2Proof.Machine.execMetadataWrite l g k s
  | .lookupIssue l n g => Sys2Proof.Machine.execLookupIssue l n g s
  | .lookupResult a f k => Sys2Proof.Machine.execLookupResult a f k s
  | .collect l g => Sys2Proof.Machine.execCollect l g s
  | .collectLanding a f k => Sys2Proof.Machine.execCollectLanding a f k s
  | .deep l g => Sys2Proof.Machine.execDeep l g s
  | .saState l g => Sys2Proof.Machine.execSaState l g s
  | .learn l g => Sys2Proof.Machine.execLearn l g s
  | .buf l g => Sys2Proof.Machine.execBuf l g s
  | .deepAnswer a f k late => Sys2Proof.Machine.execDeepAnswer a f k late s
  | .saStateAnswer a f k => Sys2Proof.Machine.execSaStateAnswer a f k s
  | .learnAnswer a f k => Sys2Proof.Machine.execLearnAnswer a f k s
  | .bufAnswer a f k => Sys2Proof.Machine.execBufAnswer a f k s
  | .rewrite l g => Sys2Proof.Machine.execRewrite l g s
  | .push l g => Sys2Proof.Machine.execPush l g s
  | .pop l g => Sys2Proof.Machine.execPop l g s
  | .strip l g => Sys2Proof.Machine.execStrip l g s
  | .fixIp4 l g => Sys2Proof.Machine.execFixIp4 l g s
  | .fixUdp l g => Sys2Proof.Machine.execFixUdp l g s
  | .fixIp6 l g => Sys2Proof.Machine.execFixIp6 l g s
  | .counterUpdate l g => Sys2Proof.Machine.execCounterUpdate l g s
  | .meter l isrc => Sys2Proof.Machine.execMeter l isrc s
  | .meterUpdate a f k => Sys2Proof.Machine.execMeterUpdate a f k s
  | .flagsSet l mask => Sys2Proof.Machine.execFlagsSet l mask s
  | .flagsClear l mask => Sys2Proof.Machine.execFlagsClear l mask s
  | .mirrorSet l => Sys2Proof.Machine.execMirrorSet l s
  | .mirrorClr l => Sys2Proof.Machine.execMirrorClr l s
  | .disposition l value reason => Sys2Proof.Machine.execDisposition l value reason s
  | .flowHashSeedWrite agent v => Sys2Proof.Machine.execFlowHashSeedWrite agent v s
  | .resourceRelease => Sys2Proof.Machine.execResourceRelease s
  | .orchardRead agent v => Sys2Proof.Machine.execOrchardRead agent v s
  | .orchardWrite agent v => Sys2Proof.Machine.execOrchardWrite agent v s
  | .orchardInsert agent v => Sys2Proof.Machine.execOrchardInsert agent v s
  | .orchardDelete agent v => Sys2Proof.Machine.execOrchardDelete agent v s
  | .orchardSearch agent v => Sys2Proof.Machine.execOrchardSearch agent v s
  | .ageScan agent v => Sys2Proof.Machine.execAgeScan agent v s
  | .stashRetry t => Sys2Proof.Machine.execStashRetry t s
  | .autoAgeScan => Sys2Proof.Machine.execAutoAgeScan s
  | .learnEnqueue a f k => Sys2Proof.Machine.execLearnEnqueue a f k s
  | .learnSettle t => Sys2Proof.Machine.execLearnSettle t s
  | .gleanerRowScrub blk row => Sys2Proof.Machine.execGleanerRowScrub blk row s
  | .markerRebuild t h => Sys2Proof.Machine.execMarkerRebuild t h s
  | .profileSelect agent slot => Sys2Proof.Machine.execProfileSelect agent slot s
  | .profileApply => Sys2Proof.Machine.execProfileApply s
  | .assocRead agent v => Sys2Proof.Machine.execAssocRead agent v s
  | .assocWrite agent v => Sys2Proof.Machine.execAssocWrite agent v s
  | .assocInvalidate agent v => Sys2Proof.Machine.execAssocInvalidate agent v s
  | .assocMove agent v => Sys2Proof.Machine.execAssocMove agent v s
  | .assocSearch agent v => Sys2Proof.Machine.execAssocSearch agent v s
  | .assocCfgWrite agent mode => Sys2Proof.Machine.execAssocCfgWrite agent mode s
  | .segMapWrite agent a h v => Sys2Proof.Machine.execSegMapWrite agent a h v s
  | .assocGleanerLine a line => Sys2Proof.Machine.execAssocGleanerLine a line s
  | .assocGleanerRepair a n => Sys2Proof.Machine.execAssocGleanerRepair a n s
  | .stage1Transfer a m n => Sys2Proof.Machine.execStage1Transfer a m n s
  | .freeCacheRefill m b => Sys2Proof.Machine.execFreeCacheRefill m b s
  | .freeCacheWriteback m b => Sys2Proof.Machine.execFreeCacheWriteback m b s
  | .stage2Transfer m e n => Sys2Proof.Machine.execStage2Transfer m e n s
  | .egressEdit e => Sys2Proof.Machine.execEgressEdit e s
  | .acreMapWrite agent a k v => Sys2Proof.Machine.execAcreMapWrite agent a k v s
  | .acreMoveDrained a => Sys2Proof.Machine.execAcreMoveDrained a s
  | .acreMoveHoldExpiry a => Sys2Proof.Machine.execAcreMoveHoldExpiry a s
  | .replicate m => Sys2Proof.Machine.execReplicate m s
  | .readGroup agent v => Sys2Proof.Machine.execReadGroup agent v s
  | .writeGroup agent v => Sys2Proof.Machine.execWriteGroup agent v s
  | .readMember agent v => Sys2Proof.Machine.execReadMember agent v s
  | .writeMember agent v => Sys2Proof.Machine.execWriteMember agent v s
  | .spillMove q m => Sys2Proof.Machine.execSpillMove q m s
  | .pageWrite q m waited => Sys2Proof.Machine.execPageWrite q m waited s
  | .refill q m => Sys2Proof.Machine.execRefill q m s
  | .refillNoCells q m => Sys2Proof.Machine.execRefillNoCells q m s
  | .pageCacheRefill m => Sys2Proof.Machine.execPageCacheRefill m s
  | .pageCacheWriteback m => Sys2Proof.Machine.execPageCacheWriteback m s
  | .spillRegionWrite agent v => Sys2Proof.Machine.execSpillRegionWrite agent v s
  | .captureWrite r => Sys2Proof.Machine.execCaptureWrite r s
  | .queueReadCfg agent v => Sys2Proof.Machine.execQueueReadCfg agent v s
  | .queueWriteCfg agent v => Sys2Proof.Machine.execQueueWriteCfg agent v s
  | .queueReadState agent v => Sys2Proof.Machine.execQueueReadState agent v s
  | .queueFlush agent v => Sys2Proof.Machine.execQueueFlush agent v s
  | .drillSelect p => Sys2Proof.Machine.execDrillSelect p s
  | .shaperRefill level n => Sys2Proof.Machine.execShaperRefill level n s
  | .nodeSweep level n => Sys2Proof.Machine.execNodeSweep level n s
  | .gateChange p t => Sys2Proof.Machine.execGateChange p t s
  | .gateCopyChange p => Sys2Proof.Machine.execGateCopyChange p s
  | .pauseWatchdog p c => Sys2Proof.Machine.execPauseWatchdog p c s
  | .pauseDisregardEnd p c => Sys2Proof.Machine.execPauseDisregardEnd p c s
  | .meterSweep n => Sys2Proof.Machine.execMeterSweep n s
  | .drillReadNode agent v => Sys2Proof.Machine.execDrillReadNode agent v s
  | .drillWriteNode agent v => Sys2Proof.Machine.execDrillWriteNode agent v s
  | .drillReadShaper agent v => Sys2Proof.Machine.execDrillReadShaper agent v s
  | .drillReadGcl agent v => Sys2Proof.Machine.execDrillReadGcl agent v s
  | .drillWriteGcl agent v => Sys2Proof.Machine.execDrillWriteGcl agent v s
  | .drillReadGate agent v => Sys2Proof.Machine.execDrillReadGate agent v s
  | .drillWriteGate agent v => Sys2Proof.Machine.execDrillWriteGate agent v s
  | .drillReadMeter agent v => Sys2Proof.Machine.execDrillReadMeter agent v s
  | .drillWriteMeter agent v => Sys2Proof.Machine.execDrillWriteMeter agent v s
  | .drillReadMprof agent v => Sys2Proof.Machine.execDrillReadMprof agent v s
  | .drillWriteMprof agent v => Sys2Proof.Machine.execDrillWriteMprof agent v s
  | .frameTransmit p => Sys2Proof.Machine.execFrameTransmit p s
  | .espEncrypt n => Sys2Proof.Machine.execEspEncrypt n s
  | .decrypt a => Sys2Proof.Machine.execDecrypt a s
  | .rindRequest agent => Sys2Proof.Machine.execRindRequest agent s
  | .rindRelease agent => Sys2Proof.Machine.execRindRelease agent s
  | .leaseExpired => Sys2Proof.Machine.execLeaseExpired s
  | .rindRead agent v => Sys2Proof.Machine.execRindRead agent v s
  | .rindWrite agent v => Sys2Proof.Machine.execRindWrite agent v s
  | .rindUpdate agent v => Sys2Proof.Machine.execRindUpdate agent v s
  | .rindInvalidate agent v => Sys2Proof.Machine.execRindInvalidate agent v s
  | .rindAdvancePn agent v => Sys2Proof.Machine.execRindAdvancePn agent v s
  | .rindZeroize agent v => Sys2Proof.Machine.execRindZeroize agent v s
  | .entropyFail => Sys2Proof.Machine.execEntropyFail s
  | .deepKeyGenerate => Sys2Proof.Machine.execDeepKeyGenerate s
  | .portModeWrite agent n q v => Sys2Proof.Machine.execPortModeWrite agent n q v s
  | .anResolved p => Sys2Proof.Machine.execAnResolved p s
  | .engineAssign n e => Sys2Proof.Machine.execEngineAssign n e s
  | .trainingSuccess p => Sys2Proof.Machine.execTrainingSuccess p s
  | .budgetSpent p => Sys2Proof.Machine.execBudgetSpent p s
  | .lockLossHoldoff p remote => Sys2Proof.Machine.execLockLossHoldoff p remote s
  | .errorWindowEnd p uncorr corr syms => Sys2Proof.Machine.execErrorWindowEnd p uncorr corr syms s
  | .withdrawRetry p => Sys2Proof.Machine.execWithdrawRetry p s
  | .laneAdapt n e => Sys2Proof.Machine.execLaneAdapt n e s
  | .groupRewrite => Sys2Proof.Machine.execGroupRewrite s
  | .pauseExpiry p c => Sys2Proof.Machine.execPauseExpiry p c s
  | .pfcFrameBuild p => Sys2Proof.Machine.execPfcFrameBuild p s
  | .pfcRefresh p => Sys2Proof.Machine.execPfcRefresh p s
  | .pdelayRequest p => Sys2Proof.Machine.execPdelayRequest p s
  | .pdelayTimeout p => Sys2Proof.Machine.execPdelayTimeout p s
  | .stripFallowEnter agent n => Sys2Proof.Machine.execStripFallowEnter agent n s
  | .stripFallowExit agent n => Sys2Proof.Machine.execStripFallowExit agent n s
  | .stripPllLocked n => Sys2Proof.Machine.execStripPllLocked n s
  | .deepInit agent => Sys2Proof.Machine.execDeepInit agent s
  | .deepInitDone fails t0 t1 => Sys2Proof.Machine.execDeepInitDone fails t0 t1 s
  | .deepStoreRequest port write addr len bs => Sys2Proof.Machine.execDeepStoreRequest port write addr len bs s
  | .slotArbitration k c p => Sys2Proof.Machine.execSlotArbitration k c p s
  | .ceLimit k c r => Sys2Proof.Machine.execCeLimit k c r s
  | .ceWriteback key => Sys2Proof.Machine.execCeWriteback key s
  | .reqTimeout n => Sys2Proof.Machine.execReqTimeout n s
  | .bankRefresh rank p bank => Sys2Proof.Machine.execBankRefresh rank p bank s
  | .neighbourRefresh key => Sys2Proof.Machine.execNeighbourRefresh key s
  | .rfm rank p bank => Sys2Proof.Machine.execRfm rank p bank s
  | .actTableClear => Sys2Proof.Machine.execActTableClear s
  | .rowIdleClose rank p bank => Sys2Proof.Machine.execRowIdleClose rank p bank s
  | .stackTempRead k t hot => Sys2Proof.Machine.execStackTempRead k t hot s
  | .tempReadMissing k => Sys2Proof.Machine.execTempReadMissing k s
  | .patrolScrub k c p => Sys2Proof.Machine.execPatrolScrub k c p s
  | .migrationCopyUnit k => Sys2Proof.Machine.execMigrationCopyUnit k s
  | .deepAccRead agent v => Sys2Proof.Machine.execDeepAccRead agent v s
  | .deepAccWrite agent v => Sys2Proof.Machine.execDeepAccWrite agent v s
  | .serletLinkUp => Sys2Proof.Machine.execSerletLinkUp s
  | .serletLockLoss => Sys2Proof.Machine.execSerletLockLoss s
  | .beat ack => Sys2Proof.Machine.execBeat ack s
  | .beatSend => Sys2Proof.Machine.execBeatSend s
  | .journal ack l => Sys2Proof.Machine.execJournal ack l s
  | .nack ack => Sys2Proof.Machine.execNack ack s
  | .hello ack format id st part crc cal map first => Sys2Proof.Machine.execHello ack format id st part crc cal map first s
  | .helloSend => Sys2Proof.Machine.execHelloSend s
  | .agentReq ack tag op off v => Sys2Proof.Machine.execAgentReq ack tag op off v s
  | .agentRsp ack tag result v => Sys2Proof.Machine.execAgentRsp ack tag result v s
  | .resetReq ack tag => Sys2Proof.Machine.execResetReq ack tag s
  | .resetRsp ack tag refused => Sys2Proof.Machine.execResetRsp ack tag refused s
  | .goodbye ack => Sys2Proof.Machine.execGoodbye ack s
  | .agentTimeout reset => Sys2Proof.Machine.execAgentTimeout reset s
  | .aliveOutToggle => Sys2Proof.Machine.execAliveOutToggle s
  | .aliveInBeat => Sys2Proof.Machine.execAliveInBeat s
  | .beatTimeout => Sys2Proof.Machine.execBeatTimeout s
  | .frameTimeout => Sys2Proof.Machine.execFrameTimeout s
  | .ackTimeout => Sys2Proof.Machine.execAckTimeout s
  | .learnReq => Sys2Proof.Machine.execLearnReq s
  | .learnSet => Sys2Proof.Machine.execLearnSet s
  | .refresh => Sys2Proof.Machine.execRefresh s
  | .saCkpt ack seq kind index pn final => Sys2Proof.Machine.execSaCkpt ack seq kind index pn final s
  | .handoverEntry => Sys2Proof.Machine.execHandoverEntry s
  | .syncBegin ack seq => Sys2Proof.Machine.execSyncBegin ack seq s
  | .syncDone ack seq => Sys2Proof.Machine.execSyncDone ack seq s
  | .pairModeWrite agent v => Sys2Proof.Machine.execPairModeWrite agent v s
  | .pairResync agent => Sys2Proof.Machine.execPairResync agent s
  | .pairConfirmLost agent => Sys2Proof.Machine.execPairConfirmLost agent s
  | .pairHandover agent => Sys2Proof.Machine.execPairHandover agent s
  | .pairPeerReset agent => Sys2Proof.Machine.execPairPeerReset agent s
  | .peerAccRead agent v => Sys2Proof.Machine.execPeerAccRead agent v s
  | .peerAccWrite agent v => Sys2Proof.Machine.execPeerAccWrite agent v s
  | .faultCollect picks => Sys2Proof.Machine.execFaultCollect picks s
  | .ladderStep es => Sys2Proof.Machine.execLadderStep es s
  | .faultPulseEnd => Sys2Proof.Machine.execFaultPulseEnd s
  | .faultClearOne agent e => Sys2Proof.Machine.execFaultClearOne agent e s
  | .faultClearAll agent => Sys2Proof.Machine.execFaultClearAll agent s
  | .faultClearFirst agent => Sys2Proof.Machine.execFaultClearFirst agent s
  | .faultPinTest agent v => Sys2Proof.Machine.execFaultPinTest agent v s
  | .injectArm agent v => Sys2Proof.Machine.execInjectArm agent v s
  | .injectDisarm agent => Sys2Proof.Machine.execInjectDisarm agent s
  | .por => Sys2Proof.Machine.execPor s
  | .resetN => Sys2Proof.Machine.execResetN s
  | .warmN => Sys2Proof.Machine.execWarmN s
  | .softwareReset agent => Sys2Proof.Machine.execSoftwareReset agent s
  | .warmRelease => Sys2Proof.Machine.execWarmRelease s
  | .stripReset agent n => Sys2Proof.Machine.execStripReset agent n s
  | .stripHold agent n => Sys2Proof.Machine.execStripHold agent n s
  | .stripRelease agent n => Sys2Proof.Machine.execStripRelease agent n s
  | .acreReset agent n => Sys2Proof.Machine.execAcreReset agent n s
  | .acreHold agent n => Sys2Proof.Machine.execAcreHold agent n s
  | .acreRelease agent n => Sys2Proof.Machine.execAcreRelease agent n s
  | .partialResetDone acre n => Sys2Proof.Machine.execPartialResetDone acre n s
  | .corePllLock => Sys2Proof.Machine.execCorePllLock s
  | .boot => Sys2Proof.Machine.execBoot s
  | .islandRelease => Sys2Proof.Machine.execIslandRelease s
  | .startConfigApply => Sys2Proof.Machine.execStartConfigApply s
  | .engineStart waited => Sys2Proof.Machine.execEngineStart waited s
  | .refclkLoss b => Sys2Proof.Machine.execRefclkLoss b s
  | .refclkPresent b => Sys2Proof.Machine.execRefclkPresent b s
  | .ptp10mLoss => Sys2Proof.Machine.execPtp10mLoss s
  | .xtalFail => Sys2Proof.Machine.execXtalFail s
  | .aonTimeSet agent v => Sys2Proof.Machine.execAonTimeSet agent v s
  | .ppsEdge => Sys2Proof.Machine.execPpsEdge s
  | .ppsLost => Sys2Proof.Machine.execPpsLost s
  | .supplyWindow => Sys2Proof.Machine.execSupplyWindow s
  | .dieTempSample t => Sys2Proof.Machine.execDieTempSample t s
  | .holdupEvaluate mv => Sys2Proof.Machine.execHoldupEvaluate mv s
  | .fallowEnter agent => Sys2Proof.Machine.execFallowEnter agent s
  | .fallowWake n => Sys2Proof.Machine.execFallowWake n s
  | .alarmReached => Sys2Proof.Machine.execAlarmReached s
  | .watchdogKick agent v => Sys2Proof.Machine.execWatchdogKick agent v s
  | .spWatchdog => Sys2Proof.Machine.execSpWatchdog s
  | .recordImageRefresh => Sys2Proof.Machine.execRecordImageRefresh s
  | .lbVerify agent slot => Sys2Proof.Machine.execLbVerify agent slot s
  | .powerFail mv => Sys2Proof.Machine.execPowerFail mv s
  | .lbTest agent => Sys2Proof.Machine.execLbTest agent s
  | .lbWriteDone pages => Sys2Proof.Machine.execLbWriteDone pages s
  | .functionLevelReset => Sys2Proof.Machine.execFunctionLevelReset s
  | .pcieLinkLoss => Sys2Proof.Machine.execPcieLinkLoss s
  | .registerWrite agent off v half => Sys2Proof.Machine.execRegisterWrite agent off v half s
  | .clearingRead agent off => Sys2Proof.Machine.execClearingRead agent off s
  | .bar2Write off bs => Sys2Proof.Machine.execBar2Write off bs s
  | .bar2Read off n => Sys2Proof.Machine.execBar2Read off n s
  | .voterSweep => Sys2Proof.Machine.execVoterSweep s
  | .evtPop agent f => Sys2Proof.Machine.execEvtPop agent f s
  | .evtHoldExpiry f => Sys2Proof.Machine.execEvtHoldExpiry f s
  | .commandCompletion src => Sys2Proof.Machine.execCommandCompletion src s
  | .holdingRemove agent h => Sys2Proof.Machine.execHoldingRemove agent h s
  | .holdingRemovalDone => Sys2Proof.Machine.execHoldingRemovalDone s
  | .puntDelivery r descs => Sys2Proof.Machine.execPuntDelivery r descs s
  | .puntWaitTimeout r => Sys2Proof.Machine.execPuntWaitTimeout r s
  | .puntNotice r => Sys2Proof.Machine.execPuntNotice r s
  | .pipeline r h0 h1 els data dma => Sys2Proof.Machine.execPipeline r h0 h1 els data dma s
  | .direct r h0 h1 els data dma => Sys2Proof.Machine.execDirect r h0 h1 els data dma s
  | .spisWrite off v crc edges => Sys2Proof.Machine.execSpisWrite off v crc edges s
  | .spisReadAddr off crc edges => Sys2Proof.Machine.execSpisReadAddr off crc edges s
  | .spisReadData edges => Sys2Proof.Machine.execSpisReadData edges s
  | .spisStatus edges => Sys2Proof.Machine.execSpisStatus edges s
  | .spisSelectTimeout => Sys2Proof.Machine.execSpisSelectTimeout s
  | .uartRxCharacter t restart idle brk => Sys2Proof.Machine.execUartRxCharacter t restart idle brk s
  | .uartSend agent x => Sys2Proof.Machine.execUartSend agent x s
  | .uartDataRead agent => Sys2Proof.Machine.execUartDataRead agent s
  | .spimTransaction agent v => Sys2Proof.Machine.execSpimTransaction agent v s
  | .jtagIdcode => Sys2Proof.Machine.execJtagIdcode s
  | .jtagSamplePreload x => Sys2Proof.Machine.execJtagSamplePreload x s
  | .jtagExtest x => Sys2Proof.Machine.execJtagExtest x s
  | .jtagClamp => Sys2Proof.Machine.execJtagClamp s
  | .jtagHighz => Sys2Proof.Machine.execJtagHighz s
  | .jtagCsrAccess op off v => Sys2Proof.Machine.execJtagCsrAccess op off v s
  | .jtagBypass => Sys2Proof.Machine.execJtagBypass s
  | .testLogicReset => Sys2Proof.Machine.execTestLogicReset s
  | .tally => Sys2Proof.Machine.execTally s
  | .tallyNow agent => Sys2Proof.Machine.execTallyNow agent s
  | .dumpRecordWrite fail => Sys2Proof.Machine.execDumpRecordWrite fail s
  | .pinFeatWrite agent v => Sys2Proof.Machine.execPinFeatWrite agent v s
  | .signalDetectChange p all => Sys2Proof.Machine.execSignalDetectChange p all s
  | .anExchangeFailed p => Sys2Proof.Machine.execAnExchangeFailed p s
  | .ptp10mPresent => Sys2Proof.Machine.execPtp10mPresent s
  | .xtalRunning => Sys2Proof.Machine.execXtalRunning s
  | .supplyInWindow => Sys2Proof.Machine.execSupplyInWindow s
  | .pcieLinkUp => Sys2Proof.Machine.execPcieLinkUp s
  | .pllUnlock n => Sys2Proof.Machine.execPllUnlock n s
  | .serletFrameDiscarded => Sys2Proof.Machine.execSerletFrameDiscarded s
  | .spisUnknownCmd cmd edges => Sys2Proof.Machine.execSpisUnknownCmd cmd edges s

end Sys2Proof.Machine
end

