-- ==== Sys2Proof/Machine/Tick.lean ====
section
/-!
DEFINITION. What the passing of 1 ns does while no command waits: device time advances (R442), the UART sends (R495), the time
for which refill panic is asserted is counted (R388), the fabric's write buffers drain (R218), and fault vectors that IRQ_MIN_US held back are raised (R425). It is what a step does on an empty queue (notes/assumptions/4).
-/
namespace Sys2Proof.Machine

/-- The byte at the head of the transmit FIFO is out, and the next one begins. -/
def uartDrain (d : Dev) : Dev :=
  match d.host.uartTx with
  | [] => d
  | x :: t =>
    if d.host.uartDone ≤ d.time then
      { d with host := { d.host with uartTx := t, uartOut := d.host.uartOut ++ [x], uartDone := d.time + uartChar d } }
    else d

/-- DEEP_CNT[15] counts the microseconds in which some slice asserts refill panic. -/
def panicCount (d : Dev) : Dev :=
  if d.time % 1000 = 0 ∧ panicMask d ≠ 0 then bump d (Reg.DEEP_CNT 15) else d

/-- One nanosecond passes. Without a reference clock only device time goes on (R449). -/
def idleTick (d : Dev) : Dev :=
  let d := { d with time := d.time + 1 }
  if clocksLost d then d else irqDrain (panicCount (uartDrain (writeBufferCycle (assocNext d))))

end Sys2Proof.Machine
end

