-- ==== Sys2Proof/Safety.lean ====
section
/-!
DEFINITION. What statements mean by a state in order, by a safe run, and by a register write that reaches its register.
-/
namespace Sys2Proof

/-- The three memories are in canonical form, and no write of a command is left over. -/
def Machine.State.wf (s : Machine.State) : Bool :=
  Machine.Memory.wf Machine.spDeep s.mem.deep && Machine.Memory.wf Machine.spHost s.mem.host
    && Machine.Memory.wf Machine.spFlash s.mem.flash && s.dev.writes.isEmpty

/-- A run is safe when no step of it stops. -/
def Safe (s : Machine.State) : Prop := ∀ n, ∃ t, core.run n s = .next t

namespace Machine

/-- A write by an agent is not turned away before its register (R2, R314, R437, R476): register access exists, the unit is present,
no parity injection falls due at the access, the islands are out of reset and fallow, the unit is not busy, the agent may write there, and
the offset is that of no absent array entry. -/
def WriteReaches (d : Dev) (agent off : Nat) (v : W64) : Prop :=
  ctlReset d = false ∧ unitAbsent d off = false ∧ csrParity d agent off 2 v = (false, d) ∧
    (islandsOf d off v).any (islandOff d) = false ∧ unitBusy d off (islandsOf d off v) = [] ∧ agentDrop d agent off = none ∧
    ∀ p, regAt off = some p → indexAbsent d p.1.base (p.2.getD 0 0) = false

/-- Every writable field of the value lies in the range that its table states (R477). -/
def FieldsInRange (off : Nat) (v : W64) : Prop :=
  match regAt off with
  | some p => rangeOk p.1.flds v = true
  | none => False

/-- The register at an offset with its writable fields taken from a value. -/
def stored (d : Dev) (off : Nat) (v : W64) : W64 :=
  match regAt off with
  | some p => mergeFlds p.1.flds (rd d off) v
  | none => v

/-- A packet that does not ride stands in stage F of row r and may run its microword u there: the word reads well, and the packet has
been woken without a WAIT's condition, or finds no packet of its domain parked in the row (R32, R36, R49, R51). -/
def RowReady (d : Dev) (l : PktRef) (p : Pkt) (r u : Nat) : Prop :=
  getPkt d l = some p ∧ p.ride = none ∧ u = microWord d (storeCopy d l.a l.f) (pcGet p Pc.epoch) r (pcGet p Pc.upc) ∧
    ecc d .micro (microKey (storeCopy d l.a l.f) (pcGet p Pc.epoch) r (pcGet p Pc.upc)) = 0 ∧
    ((p.loc = .row r true ∧ p.waitTaken = false) ∨ (p.loc = .row r false ∧ orderWait (getFur d l.a l.f) l.slot r p = false))

/-- No result is on its way to the packet in a slot. -/
def NoFlights (d : Dev) (l : PktRef) : Prop := ∀ e ∈ (getFur d l.a l.f).inFlight, e.slot ≠ l.slot

/-- The nanoword that microword u names reads well, holds no reserved encoding and overflows no edit list; with immediate imm it
leaves the device d' and the packet q (R36, R85, R115). -/
def NanoRuns (d : Dev) (l : PktRef) (p : Pkt) (r u imm : Nat) (d' : Dev) (q : Pkt) : Prop :=
  ecc d .nano (nanoKey (storeCopy d l.a l.f) (pcGet p Pc.epoch) r (uNano u)) = 0 ∧
    nanoBad p (nanoWord d (storeCopy d l.a l.f) (pcGet p Pc.epoch) r (uNano u)) = false ∧
    nanoRun l (nanoWord d (storeCopy d l.a l.f) (pcGet p Pc.epoch) r (uNano u)) imm d = (d', false) ∧ getPkt d' l = some q

/-- The packet in the next row, with PC.upc at `next` and one more row-step since its last safe point (R38, R62). -/
def goesOn (q : Pkt) (r next : Nat) : Pkt :=
  { pcSet (pcSet q Pc.upc next) Pc.safeSteps (pcGet q Pc.safeSteps + 1) with
    lastRow := r + 1, loc := .row (r + 1) false, safeHold := false, waitTaken := false }

end Machine

end Sys2Proof
end

