-- ==== Sys2Proof/WellFormed.lean ====
section
/-!
DEFINITION. Which commands are well-formed: every operand lies in the range of the field, the index or the link that carries it.
A command's meaning does not ask for it; it says which commands the device's surroundings can bring.
-/
namespace Sys2Proof

/-- The agents of R314 and R473 by MASTER code: host, service processor, pair peer, board controller, JTAG. -/
def agentOk (n : Nat) : Bool := [1, 2, 3, 4, 13].contains n

def acreOk (n : Nat) : Bool := decide (n < 4)
def stripOk (n : Nat) : Bool := decide (n < 8)
def portOk (n : Nat) : Bool := decide (n < 512)

/-- Acre, furrow with the spare, and context slot. -/
def PktRef.wf (l : PktRef) : Bool := acreOk l.a && decide (l.f < 17) && decide (l.slot < 2048)

/-- R86. -/
def XGroup.wf (g : XGroup) : Bool :=
  decide (g.shl < 64) && decide (g.width < 64) && decide (g.offset < 4096) && decide (g.inst < 32) && decide (g.src < 4)

/-- R88. -/
def AluGroup.wf (g : AluGroup) : Bool :=
  decide (g.k < 65536) && decide (g.cwb < 32) && decide (g.cwa < 32) && decide (g.sb < 8) && decide (g.sa < 8)

/-- R91. -/
def MwGroup.wf (g : MwGroup) : Bool :=
  decide (g.src < 8) && decide (g.width < 64) && decide (g.lsb < 64) && decide (g.word < 32)

/-- R93. -/
def LGroup.wf (g : LGroup) : Bool :=
  decide (g.dest < 4) && decide (g.ksrc < 256) && decide (g.ty < 64)

/-- R97. -/
def ClGroup.wf (g : ClGroup) : Bool :=
  decide (g.dest < 16) && decide (g.n < 16) && decide (g.list < 32) && decide (g.bsrc < 4) && decide (g.ty < 64)

/-- R101. -/
def RqGroup.wf (g : RqGroup) : Bool :=
  decide (g.dest < 4) && decide (g.ksrc < 256) && decide (g.ty < 64)

/-- R110. -/
def EGroup.wf (g : EGroup) : Bool :=
  decide (g.srcw < 32) && decide (g.len < 128) && decide (g.off < 256) && decide (g.inst < 32)

/-- R103. -/
def CGroup.wf (g : CGroup) : Bool :=
  decide (g.mode < 4) && decide (g.isrc < 4) && decide (g.ty < 64)

/-- A journal entry's fields fit their places in the frame (R399). -/
def JEntry.wf (e : JEntry) : Bool :=
  decide (e.kind < 256) && decide (e.table < 256) && decide (e.holding < 256) && decide (e.flags < 256) && decide (e.index < 2 ^ 32)
    && decide (e.value < 2 ^ 64) && decide (e.key < 2 ^ 288)

/-- The operands of a command are in range. -/
def Instr.wf : Instr → Bool
  | .frameReceive p wire _ _ => portOk p && decide (wire.length ≤ 16384)
  | .harrowParse n | .reparse n | .fallowWake n => decide (n < 4)
  | .fragWaitExpiry n _ => decide (n < 4)
  | .fragmentSweep n bucket => decide (n < 4) && decide (bucket < 2 ^ 14)
  | .nop l | .next l | .branch l | .wait l | .callNextRow l | .exit l | .recirc l | .trap l | .forcedBubble l
  | .exitHoldRelease l | .late l | .safeBound l | .mirrorSet l | .mirrorClr l =>
    l.wf
  | .harrowWriteState agent n _ | .harrowWriteTrans agent n _ | .harrowWriteHoldRule agent n _ =>
    agentOk agent && decide (n < 4)
  | .holdingOpenWrite agent n _ => agentOk agent && decide (n < 4)
  | .puntPolicer | .bucketRefill | .progVerifyDone | .epochBoundary | .drainEnd | .resourceRelease | .autoAgeScan
  | .profileApply | .leaseExpired | .entropyFail | .deepKeyGenerate | .groupRewrite | .reqTimeout _ | .actTableClear
  | .serletLinkUp | .serletLockLoss | .beatSend | .helloSend | .agentTimeout _ | .aliveOutToggle | .aliveInBeat | .beatTimeout
  | .frameTimeout | .ackTimeout | .learnReq | .learnSet | .refresh | .handoverEntry | .faultPulseEnd | .por | .resetN | .warmN
  | .warmRelease | .corePllLock | .boot | .islandRelease | .startConfigApply | .engineStart _ | .refclkLoss _
  | .refclkPresent _ | .ptp10mLoss | .xtalFail | .ppsEdge | .ppsLost | .supplyWindow | .dieTempSample _ | .alarmReached
  | .spWatchdog | .recordImageRefresh | .functionLevelReset | .pcieLinkLoss | .voterSweep | .holdingRemovalDone
  | .spisReadData _ | .spisStatus _ | .spisSelectTimeout | .jtagIdcode | .jtagSamplePreload _ | .jtagExtest _ | .jtagClamp
  | .jtagHighz | .jtagBypass | .testLogicReset | .tally | .dumpRecordWrite _ | .ptp10mPresent | .xtalRunning | .supplyInWindow
  | .pcieLinkUp | .serletFrameDiscarded =>
    true
  | .furrowEntryAdmit a f | .isolateComplete a f | .spareTakeover a f | .furrowHang a f => acreOk a && decide (f < 17)
  | .parkWake l cls => l.wf && decide (cls < 3)
  | .microWindowWrite agent off _ => agentOk agent && decide (off < 0x3FE000)
  | .progStart agent | .progDisarm agent | .rindRequest agent | .rindRelease agent | .deepInit agent | .pairResync agent
  | .pairConfirmLost agent | .pairHandover agent | .pairPeerReset agent | .faultClearAll agent | .faultClearFirst agent
  | .injectDisarm agent | .softwareReset agent | .fallowEnter agent | .lbTest agent | .uartDataRead agent | .tallyNow agent =>
    agentOk agent
  | .progBankSelWrite agent bank => agentOk agent && decide (bank < 2)
  | .furrowIsolate agent a f | .furrowReturn agent a f | .furrowTakeover agent a f | .furrowActivate agent a f =>
    agentOk agent && acreOk a && decide (f < 17)
  | .selfTestDone a f _ | .lookupResult a f _ | .collectLanding a f _ | .saStateAnswer a f _ | .learnAnswer a f _
  | .bufAnswer a f _ | .meterUpdate a f _ | .learnEnqueue a f _ =>
    acreOk a && decide (f < 17)
  | .furrowMapWrite agent a k _ => agentOk agent && acreOk a && decide (k < 128)
  | .rehashDomainDrained a dom => acreOk a && decide (dom < 4096)
  | .rehashHoldExpiry a | .acreMoveDrained a | .acreMoveHoldExpiry a | .decrypt a => acreOk a
  | .fieldExtract l n g => l.wf && decide (n < 4) && g.wf
  | .aluMov l n g imm | .aluAdd l n g imm | .aluSub l n g imm | .aluAnd l n g imm | .aluOr l n g imm | .aluXor l n g imm
  | .aluAndn l n g imm | .aluNot l n g imm | .aluShl l n g imm | .aluShr l n g imm | .aluSar l n g imm | .aluRol l n g imm
  | .aluMin l n g imm | .aluMax l n g imm | .aluCsum l n g imm | .aluCrc l n g imm | .aluPopc l n g imm | .aluClz l n g imm
  | .aluScale l n g imm | .aluAddsat l n g imm | .aluSubsat l n g imm =>
    l.wf && decide (n < 2) && g.wf && decide (imm < 2 ^ 64)
  | .metadataWrite l g k => l.wf && g.wf && decide (k < 2 ^ 16)
  | .lookupIssue l n g => l.wf && decide (n < 2) && g.wf
  | .collect l g | .deep l g | .saState l g | .learn l g | .buf l g | .rewrite l g | .push l g | .pop l g | .strip l g
  | .fixIp4 l g | .fixUdp l g | .fixIp6 l g | .counterUpdate l g =>
    l.wf && g.wf
  | .deepAnswer a f _ _ => acreOk a && decide (f < 17)
  | .meter l isrc => l.wf && decide (isrc < 4)
  | .flagsSet l mask | .flagsClear l mask => l.wf && decide (mask < 2 ^ 16)
  | .disposition l value reason => l.wf && decide (value < 16) && decide (reason < 256)
  | .flowHashSeedWrite agent _ | .orchardRead agent _ | .orchardWrite agent _ | .orchardInsert agent _
  | .orchardDelete agent _ | .orchardSearch agent _ | .ageScan agent _ | .assocRead agent _ | .assocWrite agent _
  | .assocInvalidate agent _ | .assocMove agent _ | .assocSearch agent _ | .readGroup agent _ | .writeGroup agent _
  | .readMember agent _ | .writeMember agent _ | .spillRegionWrite agent _ | .queueReadCfg agent _ | .queueWriteCfg agent _
  | .queueReadState agent _ | .queueFlush agent _ | .drillReadNode agent _ | .drillWriteNode agent _
  | .drillReadShaper agent _ | .drillReadGcl agent _ | .drillWriteGcl agent _ | .drillReadGate agent _
  | .drillWriteGate agent _ | .drillReadMeter agent _ | .drillWriteMeter agent _ | .drillReadMprof agent _
  | .drillWriteMprof agent _ | .rindRead agent _ | .rindWrite agent _ | .rindUpdate agent _ | .rindInvalidate agent _
  | .rindAdvancePn agent _ | .rindZeroize agent _ | .deepAccRead agent _ | .deepAccWrite agent _ | .pairModeWrite agent _
  | .peerAccRead agent _ | .peerAccWrite agent _ | .faultPinTest agent _ | .injectArm agent _ | .aonTimeSet agent _
  | .watchdogKick agent _ | .uartSend agent _ | .spimTransaction agent _ | .pinFeatWrite agent _ =>
    agentOk agent
  | .stashRetry t | .learnSettle t => decide (t < 64)
  | .gleanerRowScrub blk row => decide (blk < 2048) && decide (row < 1024)
  | .markerRebuild t h => decide (t < 64) && decide (h < 256)
  | .profileSelect agent slot | .lbVerify agent slot => agentOk agent && decide (slot < 2)
  | .assocCfgWrite agent mode => agentOk agent && decide (mode < 2)
  | .segMapWrite agent a h _ => agentOk agent && acreOk a && decide (h < 256)
  | .assocGleanerLine a line => acreOk a && decide (line < 4096)
  | .assocGleanerRepair a n => acreOk a && decide (n < 32768)
  | .stage1Transfer a m n => acreOk a && acreOk m && decide (n < 17)
  | .freeCacheRefill m b | .freeCacheWriteback m b => acreOk m && decide (b < 24)
  | .stage2Transfer m e n => acreOk m && acreOk e && decide (n < 17)
  | .egressEdit e => acreOk e
  | .acreMapWrite agent a k _ => agentOk agent && acreOk a && decide (k < 32)
  | .replicate m | .pageCacheRefill m | .pageCacheWriteback m => acreOk m
  | .spillMove q m | .refill q m | .refillNoCells q m => decide (q < 65536) && acreOk m
  | .pageWrite q m _ => decide (q < 65536) && acreOk m
  | .captureWrite r => decide (r < 16)
  | .drillSelect p | .gateCopyChange p | .frameTransmit p | .anResolved p | .trainingSuccess p | .budgetSpent p
  | .withdrawRetry p | .pfcFrameBuild p | .pfcRefresh p | .pdelayRequest p | .pdelayTimeout p | .anExchangeFailed p =>
    portOk p
  | .shaperRefill level n | .nodeSweep level n => decide (level < 4) && decide (n < 65536)
  | .gateChange p _ | .lockLossHoldoff p _ | .signalDetectChange p _ => portOk p
  | .pauseWatchdog p c | .pauseDisregardEnd p c | .pauseExpiry p c => portOk p && decide (c < 8)
  | .meterSweep n => decide (n < 1048576)
  | .espEncrypt n | .stripPllLocked n | .pllUnlock n => stripOk n
  | .portModeWrite agent n q _ => agentOk agent && stripOk n && decide (q < 64)
  | .engineAssign n e | .laneAdapt n e => stripOk n && decide (e < 4)
  | .errorWindowEnd p _ _ syms => portOk p && decide (syms.length ≤ 8)
  | .stripFallowEnter agent n | .stripFallowExit agent n | .stripReset agent n | .stripHold agent n | .stripRelease agent n =>
    agentOk agent && stripOk n
  | .deepInitDone _ t0 t1 => decide (t0 < 2 ^ 32) && decide (t1 < 2 ^ 32)
  | .deepStoreRequest port _ addr len bs =>
    decide (port % 8 < 6) && decide (port / 8 < 4) && decide (addr < 2 ^ 40) && decide (len < 4097) && decide (bs.length ≤ 4096)
  | .slotArbitration k c p | .patrolScrub k c p => decide (k < 2) && decide (c < 32) && decide (p < 2)
  | .ceLimit k c r => decide (k < 2) && decide (c < 32) && decide (r < 4)
  | .ceWriteback key => decide (key < 2 ^ 32)
  | .bankRefresh rank p bank | .rfm rank p bank | .rowIdleClose rank p bank =>
    decide (rank < 256) && decide (p < 2) && decide (bank < 16)
  | .neighbourRefresh key => decide (key < 2 ^ 13)
  | .stackTempRead k _ _ => decide (k < 2)
  | .tempReadMissing k | .migrationCopyUnit k => decide (k < 2)
  | .beat ack | .nack ack | .goodbye ack => decide (ack < 2 ^ 64)
  | .journal ack l => decide (ack < 2 ^ 64) && (decide (l.length ≤ 4) && l.all fun e => decide (e.1 < 2 ^ 64) && e.2.wf)
  | .hello ack format id st part crc cal map first =>
    decide (ack < 2 ^ 64) && decide (format < 256) && decide (id < 256) && decide (st < 256) && decide (part < 65536)
      && decide (crc < 2 ^ 32) && decide (cal < 65536) && decide (map < 2 ^ 256) && decide (first < 2 ^ 64)
  | .agentReq ack tag op off _ => decide (ack < 2 ^ 64) && decide (tag < 65536) && decide (op < 256) && decide (off < 2 ^ 32)
  | .agentRsp ack tag result _ => decide (ack < 2 ^ 64) && decide (tag < 65536) && decide (result < 256)
  | .resetReq ack tag => decide (ack < 2 ^ 64) && decide (tag < 65536)
  | .resetRsp ack tag _ => decide (ack < 2 ^ 64) && decide (tag < 65536)
  | .saCkpt ack seq kind index pn _ =>
    decide (ack < 2 ^ 64) && decide (seq < 2 ^ 64) && decide (kind < 16) && decide (index < 2 ^ 17)
      && decide (pn < 2 ^ 64)
  | .syncBegin ack seq | .syncDone ack seq => decide (ack < 2 ^ 64) && decide (seq < 2 ^ 64)
  | .faultCollect picks => (decide (picks.length ≤ 8) && picks.all fun e => decide (e.1 < 8))
  | .ladderStep es => (es.all fun e => decide (e < 256))
  | .faultClearOne agent e => agentOk agent && decide (e < 256)
  | .acreReset agent n | .acreHold agent n | .acreRelease agent n => agentOk agent && acreOk n
  | .partialResetDone acre n => (if acre then acreOk n else stripOk n)
  | .holdupEvaluate mv | .powerFail mv => decide (mv < 65536)
  | .lbWriteDone pages => decide (pages < 65)
  | .registerWrite agent off _ _ => agentOk agent && decide (off < 2 ^ 32)
  | .clearingRead agent off => agentOk agent && decide (off < 2 ^ 32)
  | .bar2Write off bs => decide (off < 2 ^ 28) && decide (bs.length ≤ 4096)
  | .bar2Read off n => decide (off < 2 ^ 28) && decide (n < 4097)
  | .evtPop agent f => agentOk agent && decide (f < 3)
  | .evtHoldExpiry f => decide (f < 3)
  | .commandCompletion src => decide (src < 12)
  | .holdingRemove agent h => agentOk agent && decide (h < 256)
  | .puntDelivery r descs => decide (r < 64) && decide (descs.length ≤ 2 ^ 16)
  | .puntWaitTimeout r | .puntNotice r => decide (r < 64)
  | .pipeline r _ _ els data _ | .direct r _ _ els data _ =>
    decide (r < 64) && decide (els.length ≤ 64) && decide (data.length ≤ 16384)
  | .spisWrite off _ crc _ => decide (off < 2 ^ 32) && decide (crc < 256)
  | .spisReadAddr off crc _ => decide (off < 2 ^ 32) && decide (crc < 256)
  | .uartRxCharacter t _ _ _ => decide (t.length ≤ 11)
  | .jtagCsrAccess op off _ => decide (op < 4) && decide (off < 2 ^ 32)
  | .spisUnknownCmd cmd _ => decide (cmd < 256)

end Sys2Proof
end

