-- ==== Sys2Proof/Certificates/Slice0/Obligations.lean ====
section
/-!
DEFINITION. The statements of the model. Each is a closed proposition; its docstring says what it states and which rules of spec/
it rests on. A command's next state is `commit s d`: the device d, with the memory writes that the command has logged landed in
order, and the queue of s.
-/
open Sys2Proof Sys2Proof.Machine

/-- R462, R451, R521: when a comparator's condition begins (AON_XTAL stops, PPS is lost, a rail leaves its window, two die
temperatures above HIGH_C), its fault is raised and its PRESENT bit set; a rail outside its window also holds every island in reset
while RSTC_SOURCE.SOURCE keeps its code. When a condition ends, its cause has gone, the bit is cleared, and no wake occurs unless
WAKE_MASK names the comparator.
What rests on the model's own reading or choice in it is logged in notes/assumptions: 99. -/
def Obligations.ComparatorConditions : Prop :=
  (∀ s, condPresent s.dev Fk.xtalFail 4 = false →
    exec .xtalFail s = .next (commit s (setPresent (raise s.dev Fk.xtalFail 4 0 0 0) 4 true))) ∧
  (∀ s, condPresent s.dev Fk.xtalFail 4 = true → bit (rdF s.dev Reg.AON_COMP_CFG Reg.AON_COMP_CFG_WAKE_MASK) 4 = false →
    exec .xtalRunning s = .next (commit s (setPresent (endCond s.dev Fk.xtalFail 4) 4 false))) ∧
  (∀ s, condPresent s.dev Fk.ppsLost 3 = false →
    exec .ppsLost s = .next (commit s
      (setPresent (raise { s.dev with rst := { s.dev.rst with ppsAt := none } } Fk.ppsLost 3 0 0 0) 3 true))) ∧
  (∀ s, condPresent s.dev Fk.supplyWindow 0 = false →
    ∃ t, exec .supplyWindow s = .next t ∧ t.dev.rst.held = 0xFFFF ∧ condPresent t.dev Fk.supplyWindow 0 = true ∧
      rdF t.dev Reg.RSTC_SOURCE Reg.RSTC_SOURCE_SOURCE = rdF s.dev Reg.RSTC_SOURCE Reg.RSTC_SOURCE_SOURCE) ∧
  (∀ s, condPresent s.dev Fk.supplyWindow 0 = true → bit (rdF s.dev Reg.AON_COMP_CFG Reg.AON_COMP_CFG_WAKE_MASK) 0 = false →
    exec .supplyInWindow s = .next (commit s (setPresent (endCond s.dev Fk.supplyWindow 0) 0 false))) ∧
  (∀ s t0 t1, flagF s.dev Reg.FAULT_INJECT Reg.FAULT_INJECT_PENDING = false → s.dev.rst.temp = some t0 → -40 ≤ t1 → t1 ≤ 150 →
    (rdF s.dev Reg.AON_COMP_CFG Reg.AON_COMP_CFG_HIGH_C : Int) < t0 → (rdF s.dev Reg.AON_COMP_CFG Reg.AON_COMP_CFG_HIGH_C : Int) < t1 →
    t1 ≤ rdF s.dev Reg.AON_COMP_CFG Reg.AON_COMP_CFG_CRIT_C → condPresent s.dev Fk.dieTempHigh 1 = false →
    condPresent s.dev Fk.dieTempCrit 1 = false →
    exec (.dieTempSample t1) s = .next (commit s
      (setPresent (raise { s.dev with rst := { s.dev.rst with temp := some t1 } } Fk.dieTempHigh 1 0 0 0) 1 true)))

/-- R449, R524, R462, R443: with the other reference present, a lost reference makes every strip PLL run from that other one; without
it the islands stop, and device time goes on; a
reference that returns is marked present; PTP_10M lost puts device time in holdover and PTP_10M present ends holdover; an accepted
PPS_IN edge (the first, or one 1 s after the last within 100 ppm) is recorded, and another edge is discarded and counted; a write of
AON_TIME_SET while every holding is closed steps device time; reaching AON_ALARM sets ALARM_OUT. R442: a POR sets device time to 0, and a
COLD reset, a warm reset from any of its sources and the end of a partial reset leave it; while no command waits it counts 1 ns a step, in
every state of the resets and in fallow (that a step on an empty queue is 1 ns is the model's choice, notes/assumptions/4).
What rests on the model's own reading or choice in it is logged in notes/assumptions: 6, 100 and 121. -/
def Obligations.ReferencesAndTime : Prop :=
  (∀ s b, (if b then s.dev.rst.refA else s.dev.rst.refB) = true →
    exec (.refclkLoss b) s = .next (commit s (stripRefs
      { s.dev with rst := if b then { s.dev.rst with refB := false } else { s.dev.rst with refA := false } }
      (if b then false else s.dev.rst.refB)))) ∧
  (∀ s b, (if b then s.dev.rst.refA else s.dev.rst.refB) = false →
    ∃ t, exec (.refclkLoss b) s = .next t ∧ clocksLost t.dev = true ∧ ctlReset t.dev = true ∧
      t.dev.rst.held = s.dev.rst.held ∧ t.dev.time = s.dev.time) ∧
  (∀ s b, (s.dev.rst.refA = true ∨ s.dev.rst.refB = true) →
    exec (.refclkPresent b) s = .next (commit s
      { s.dev with rst := if b then { s.dev.rst with refB := true } else { s.dev.rst with refA := true } })) ∧
  (∀ s, flagF s.dev Reg.AON_DISC_STATUS Reg.AON_DISC_STATUS_REF_PRESENT = true →
    ∃ t, exec .ptp10mLoss s = .next t ∧ rdF t.dev Reg.AON_DISC_STATUS Reg.AON_DISC_STATUS_HOLDOVER = 1 ∧
      rdF t.dev Reg.AON_DISC_STATUS Reg.AON_DISC_STATUS_REF_PRESENT = 0) ∧
  (∀ s, ∃ t, exec .ptp10mPresent s = .next t ∧ rdF t.dev Reg.AON_DISC_STATUS Reg.AON_DISC_STATUS_HOLDOVER = 0 ∧
    rdF t.dev Reg.AON_DISC_STATUS Reg.AON_DISC_STATUS_REF_PRESENT = 1 ∧ rdF t.dev Reg.AON_DISC_STATUS Reg.AON_DISC_STATUS_SRC = 1) ∧
  (∀ s, (∀ x, s.dev.rst.ppsAt = some x → 999900000 ≤ (s.dev.time : Int) - x ∧ (s.dev.time : Int) - x ≤ 1000100000) →
    condPresent s.dev Fk.ppsLost 3 = false →
    exec .ppsEdge s = .next (commit s
      (wr { s.dev with rst := { s.dev.rst with ppsAt := some s.dev.time } } Reg.AON_PPS_TIME (BitVec.ofNat 64 s.dev.time)))) ∧
  (∀ s x, s.dev.rst.ppsAt = some x → (s.dev.time : Int) - x < 999900000 →
    exec .ppsEdge s = .next (commit s (bumpSat s.dev Reg.AON_DISC_STATUS Reg.AON_DISC_STATUS_PPS_DISCARDED 1))) ∧
  (∀ s agent v, WriteReaches s.dev agent Reg.AON_TIME_SET v → FieldsInRange Reg.AON_TIME_SET v → anyHoldingOpen s.dev = false →
    ∃ t, exec (.aonTimeSet agent v) s = .next t ∧ t.dev.time = v.toNat) ∧
  (∀ s, s.dev.rst.fallow = false →
    exec .alarmReached s = .next (commit s { s.dev with rst := { s.dev.rst with alarm := true } })) ∧
  (∀ s, ∃ t, exec .por s = .next t ∧ t.dev.time = 0) ∧
  (∀ s c, c ∈ ([.resetN, .warmN, .warmRelease, .spWatchdog] : List Instr) → ∃ t, exec c s = .next t ∧ t.dev.time = s.dev.time) ∧
  (∀ s acre i, ∃ t, exec (.partialResetDone acre i) s = .next t ∧ t.dev.time = s.dev.time) ∧
  (∀ s, s.pending = [] → ∃ t, step s = .next t ∧ t.dev.time = s.dev.time + 1 ∧ t.pending = [])

/-- R444, R445, R453: a POR clears device time and every register, and holds every island; RESET_N low, outside a reset in progress,
holds every island, clears the deep store, keeps device time and the always-on registers, and reports source 2; WARM_N low,
RSTC_CTRL.WARM with its key and an expired watchdog, outside a reset, hold the islands that R445 and R389 do not keep, count a warm reset,
report sources 4, 5 and 6, keep the registers that R445 keeps and clear the others; a request during a reset is discarded and logged
with bit 63; the release lets every island run. None of them touches host memory or the flash.
What rests on the model's own reading or choice in it is logged in notes/assumptions: 94, 95 and 96. -/
def Obligations.DeviceResets : Prop :=
  (∀ s, s.wf = true → ∃ t, exec .por s = .next t ∧ t.dev.time = 0 ∧ t.dev.regs = [] ∧ t.dev.rst.held = 0xFFFF ∧ t.dev.rst.fallow = false ∧
    t.mem = { s.mem with deep := [] }) ∧
  (∀ s, s.wf = true → (ctlReset s.dev = false ∨ s.dev.rst.fallow = true) →
    ∃ t, exec .resetN s = .next t ∧ t.dev.time = s.dev.time ∧ t.dev.rst.held = 0xFFFF ∧ t.dev.rst.fallow = false ∧
      t.mem = { s.mem with deep := [] } ∧ rdF t.dev Reg.RSTC_SOURCE Reg.RSTC_SOURCE_SOURCE = 2 ∧
      rd t.dev (Reg.AON_RESET_LOG 0) = BitVec.ofNat 64 (2 * 2 ^ 56 + s.dev.time % 2 ^ 56) ∧
      ∀ o, o / 2 ^ 20 = 3 → o ≠ Reg.PIN_STATUS → (o < Reg.AON_RESET_LOG 0 ∨ Reg.AON_RESET_LOG 15 < o) → rd t.dev o = rd s.dev o) ∧
  (∀ s, s.wf = true → devReset s.dev = false →
    ∃ t, exec .warmN s = .next t ∧ t.mem = s.mem ∧ t.dev.time = s.dev.time ∧ t.dev.rst.warm = true ∧
      t.dev.rst.held = setBits (islandMask s.dev % 2 ^ 16 - 1) 3 1 0 ∧ rdF t.dev Reg.RSTC_SOURCE Reg.RSTC_SOURCE_SOURCE = 4 ∧
      rdF t.dev Reg.RSTC_SOURCE Reg.RSTC_SOURCE_WARM_COUNT = min (rdF s.dev Reg.RSTC_SOURCE Reg.RSTC_SOURCE_WARM_COUNT + 1) 65535 ∧
      (∀ o, warmKeeps o = true → o ≠ Reg.RSTC_SOURCE → o ≠ Reg.FAULT_INJECT → o ≠ Reg.PIN_STATUS →
        (o < Reg.AON_RESET_LOG 0 ∨ Reg.AON_RESET_LOG 15 < o) → rd t.dev o = rd s.dev o) ∧
      ∀ o, warmKeeps o = false → o ≠ Reg.PAIR_STATUS → o ≠ Reg.RIND_HEALTH → rd t.dev o = resetVal s.dev.fuses.half o) ∧
  (∀ s, devReset s.dev = true → exec .warmN s = .next (commit s (resetLog s.dev 4 true))) ∧
  (∀ s agent, WriteReaches s.dev agent Reg.RSTC_CTRL (setF (setF 0 Reg.RSTC_CTRL_WARM 1) Reg.RSTC_CTRL_KEY 0xA5) →
    exec (.softwareReset agent) s = .next (commit s (warmReset 5 s.dev))) ∧
  (∀ s, ctlReset s.dev = false → devReset s.dev = false →
    ∃ t, exec .spWatchdog s = .next t ∧ t.dev.rst.warm = true ∧ rdF t.dev Reg.RSTC_SOURCE Reg.RSTC_SOURCE_SOURCE = 6 ∧
      t.dev.pair.aliveStop = true) ∧
  (∀ s, s.dev.rst.warm = true → ∃ t, exec .warmRelease s = .next t ∧ t.dev.rst.warm = false ∧ t.dev.rst.held = 0)

/-- R446, R448: a RSTC_PARTIAL write that reaches its register resets the strip or acre that it names: its island is held, its BUSY
bit is set and its HELD bit says whether it stays held; a RELEASE of a unit whose reset still runs clears HELD; PARTIAL_RESET_DONE
clears BUSY, and leaves a unit that stays held as it is. A request for a unit whose reset is in progress is discarded and logged.
What rests on the model's own reading or choice in it is logged in notes/assumptions: 98. -/
def Obligations.PartialResets : Prop :=
  (∀ s agent n, n < stripCount s.dev → devReset s.dev = false → bit (partF s.dev Reg.RSTC_PARTIAL_STATUS_STRIP_BUSY) n = false →
    (WriteReaches s.dev agent Reg.RSTC_PARTIAL (setF 0 Reg.RSTC_PARTIAL_STRIP_RESET (2 ^ n)) →
      ∃ t, exec (.stripReset agent n) s = .next t ∧ bit t.dev.rst.held (8 + n) = true ∧
        bit (partF t.dev Reg.RSTC_PARTIAL_STATUS_STRIP_BUSY) n = true ∧ bit (partF t.dev Reg.RSTC_PARTIAL_STATUS_STRIP_HELD) n = false) ∧
    (WriteReaches s.dev agent Reg.RSTC_PARTIAL (setF 0 Reg.RSTC_PARTIAL_STRIP_HOLD (2 ^ n)) →
      ∃ t, exec (.stripHold agent n) s = .next t ∧ bit t.dev.rst.held (8 + n) = true ∧
        bit (partF t.dev Reg.RSTC_PARTIAL_STATUS_STRIP_BUSY) n = true ∧ bit (partF t.dev Reg.RSTC_PARTIAL_STATUS_STRIP_HELD) n = true)) ∧
  (∀ s agent n, n < acreCount s.dev → devReset s.dev = false → bit (partF s.dev Reg.RSTC_PARTIAL_STATUS_ACRE_BUSY) n = false →
    (WriteReaches s.dev agent Reg.RSTC_PARTIAL (setF 0 Reg.RSTC_PARTIAL_ACRE_RESET (2 ^ n)) →
      ∃ t, exec (.acreReset agent n) s = .next t ∧ bit t.dev.rst.held (4 + n) = true ∧
        bit (partF t.dev Reg.RSTC_PARTIAL_STATUS_ACRE_BUSY) n = true ∧ bit (partF t.dev Reg.RSTC_PARTIAL_STATUS_ACRE_HELD) n = false) ∧
    (WriteReaches s.dev agent Reg.RSTC_PARTIAL (setF 0 Reg.RSTC_PARTIAL_ACRE_HOLD (2 ^ n)) →
      ∃ t, exec (.acreHold agent n) s = .next t ∧ bit t.dev.rst.held (4 + n) = true ∧
        bit (partF t.dev Reg.RSTC_PARTIAL_STATUS_ACRE_BUSY) n = true ∧ bit (partF t.dev Reg.RSTC_PARTIAL_STATUS_ACRE_HELD) n = true)) ∧
  (∀ s agent n, n < stripCount s.dev → bit (partF s.dev Reg.RSTC_PARTIAL_STATUS_STRIP_HELD) n = true →
    WriteReaches s.dev agent Reg.RSTC_PARTIAL (setF 0 Reg.RSTC_PARTIAL_STRIP_RELEASE (2 ^ n)) →
    bit (partF s.dev Reg.RSTC_PARTIAL_STATUS_STRIP_BUSY) n = true →
    ∃ t, exec (.stripRelease agent n) s = .next t ∧ bit (partF t.dev Reg.RSTC_PARTIAL_STATUS_STRIP_HELD) n = false ∧
      bit t.dev.rst.autoStrips n = true) ∧
  (∀ s agent n, n < acreCount s.dev → bit (partF s.dev Reg.RSTC_PARTIAL_STATUS_ACRE_HELD) n = true →
    WriteReaches s.dev agent Reg.RSTC_PARTIAL (setF 0 Reg.RSTC_PARTIAL_ACRE_RELEASE (2 ^ n)) →
    bit (partF s.dev Reg.RSTC_PARTIAL_STATUS_ACRE_BUSY) n = false →
    ∃ t, exec (.acreRelease agent n) s = .next t ∧ bit (partF t.dev Reg.RSTC_PARTIAL_STATUS_ACRE_HELD) n = false ∧
      bit t.dev.rst.held (4 + n) = false) ∧
  (∀ s i, bit (partF s.dev Reg.RSTC_PARTIAL_STATUS_ACRE_BUSY) i = true → bit s.dev.rst.autoAcres i = false →
    exec (.partialResetDone true i) s = .next (commit s (setPart s.dev Reg.RSTC_PARTIAL_STATUS_ACRE_BUSY i false))) ∧
  (∀ s i, bit (partF s.dev Reg.RSTC_PARTIAL_STATUS_STRIP_BUSY) i = true → bit s.dev.rst.autoStrips i = false →
    exec (.partialResetDone false i) s = .next (commit s (setPart s.dev Reg.RSTC_PARTIAL_STATUS_STRIP_BUSY i false)))

/-- R452, R454, R457, R458: the core PLLs lock only with REFCLK_A and rails in window, and free the control island to boot; the
image of slot 0 runs when it passes every check of R454, else that of slot 1 when it does, else the boot is FAILED; the islands are
released only after a boot, and only once; a start-up configuration of one record is written as the service processor; the engines
start when PAIR_WAIT_MS has passed.
What rests on the model's own reading or choice in it is logged in notes/assumptions: 97 and 124. -/
def Obligations.PowerUpSequence : Prop :=
  (∀ s, ctlReset s.dev = true → s.dev.rst.fallow = false → s.dev.rst.refA = true → condPresent s.dev Fk.supplyWindow 0 = false →
    ∃ t, exec .corePllLock s = .next t ∧ t.dev.rst.held = s.dev.rst.held - 1 ∧
      rdF t.dev Reg.BOOT_STATUS Reg.BOOT_STATUS_STAGE = 1) ∧
  (∀ s slot, ctlReset s.dev = false → rdF s.dev Reg.BOOT_STATUS Reg.BOOT_STATUS_STAGE = 1 →
    slot = (if imageCheck s.dev (slotImage s.mem 0) = 0 then 0 else if imageCheck s.dev (slotImage s.mem 1) = 0 then 1 else 2) →
    ∃ t, exec .boot s = .next t ∧ rdF t.dev Reg.BOOT_STATUS Reg.BOOT_STATUS_STAGE = (if slot = 2 then 4 else 3) ∧
      (slot = 2 → t.dev.rst = s.dev.rst) ∧ (slot ≠ 2 → rdF t.dev Reg.BOOT_STATUS Reg.BOOT_STATUS_SLOT = slot ∧
        t.dev.rst.copy = slotImage s.mem slot ∧ t.dev.rst.cfgDue = true)) ∧
  (∀ s, ctlReset s.dev = false → devReset s.dev = true → s.dev.rst.warm = false →
    rdF s.dev Reg.BOOT_STATUS Reg.BOOT_STATUS_STAGE = 3 → ∃ t, exec .islandRelease s = .next t ∧ t.dev.rst.held = 0) ∧
  (∀ s, rdF s.dev Reg.BOOT_STATUS Reg.BOOT_STATUS_STAGE ≠ 3 → exec .islandRelease s = .next (commit s s.dev)) ∧
  (∀ s r, s.dev.rst.cfgDue = true → devReset s.dev = false → imgNat s.dev.rst.copy 0x18 4 = 1 →
    r = ((imgBody s.dev.rst.copy).drop (imgNat s.dev.rst.copy 0x14 4)).take 16 →
    (regWriteR s.mem { s.dev with rst := { s.dev.rst with cfgDue := false } } 2 (leNat (r.take 8))
      (BitVec.ofNat 64 (leNat (r.drop 8)))).1 ≠ 1 →
    exec .startConfigApply s = .next (commit s (regWriteR s.mem { s.dev with rst := { s.dev.rst with cfgDue := false } } 2
      (leNat (r.take 8)) (BitVec.ofNat 64 (leNat (r.drop 8)))).2)) ∧
  (∀ s, devReset s.dev = false → s.dev.strip.enginesOn = false →
    exec (.engineStart true) s = .next (commit s { s.dev with strip := { s.dev.strip with enginesOn := true } }))

/-- R460, R461, R463: AON_FALLOW.ENTER with its key puts the device fallow with every island off, the always-on registers and
device time kept; an enabled wake source ends fallow with a COLD reset of source 3, and one that is not enabled does nothing; a kick
by the service processor, and by no other agent, writes the watchdog's period. -/
def Obligations.FallowAndWatchdog : Prop :=
  (∀ s agent, s.dev.rst.fallow = false →
    WriteReaches s.dev agent Reg.AON_FALLOW (setF (setF 0 Reg.AON_FALLOW_ENTER 1) Reg.AON_FALLOW_KEY 0xA5) →
    ∃ t, exec (.fallowEnter agent) s = .next t ∧ t.dev.rst.fallow = true ∧ t.dev.rst.held = 0xFFFF ∧ t.dev.time = s.dev.time) ∧
  (∀ s n, s.dev.rst.fallow = true → bit (rdF s.dev Reg.AON_WAKE Reg.AON_WAKE_ENABLE) n = true →
    ∃ t, exec (.fallowWake n) s = .next t ∧ t.dev.rst.fallow = false ∧ rdF t.dev Reg.RSTC_SOURCE Reg.RSTC_SOURCE_SOURCE = 3) ∧
  (∀ s n, bit (rdF s.dev Reg.AON_WAKE Reg.AON_WAKE_ENABLE) n = false → exec (.fallowWake n) s = .next (commit s s.dev)) ∧
  (∀ s v, WriteReaches s.dev 2 Reg.SP_WD (setF v Reg.SP_WD_KICK 1) → FieldsInRange Reg.SP_WD (setF v Reg.SP_WD_KICK 1) →
    flagF s.dev Reg.FAULT_INJECT Reg.FAULT_INJECT_PENDING = false →
    exec (.watchdogKick 2 v) s = .next (commit s (wrF s.dev Reg.SP_WD Reg.SP_WD_PERIOD_MS (getF v Reg.SP_WD_PERIOD_MS)))) ∧
  (∀ s agent v, agent ≠ 2 → ctlReset s.dev = false → flagF s.dev Reg.FAULT_INJECT Reg.FAULT_INJECT_PENDING = false →
    exec (.watchdogKick agent v) s = .next (commit s s.dev))

/-- R464 to R467: a valid HOLDUP_SENSE reading is kept and persistence is armed exactly when the four conditions of R465 hold; the
image is refreshed outside fallow while no record write runs; VERIFY marks a slot erased when each of its bytes reads 0xFF; a power
failure with persistence armed puts the device fallow and starts a record; TEST starts a record without fallow; a record of 64 pages
that ends clears BUSY, counts in WRITES, and each flash byte of the slot is ANDed with its record byte.
What rests on the model's own reading or choice in it is logged in notes/assumptions: 101. -/
def Obligations.LastBreath : Prop :=
  (∀ s mv, flagF s.dev Reg.FAULT_INJECT Reg.FAULT_INJECT_PENDING = false → mv ≤ 60000 →
    ∃ t, exec (.holdupEvaluate mv) s = .next t ∧ t.dev.rst.senseOk = true ∧
      rdF t.dev Reg.AON_HOLDUP_STATUS Reg.AON_HOLDUP_STATUS_V_MV = mv ∧
      (rdF t.dev Reg.AON_HOLDUP_STATUS Reg.AON_HOLDUP_STATUS_ARMED = 1 ↔
        rdF s.dev Reg.AON_HOLDUP_CFG Reg.AON_HOLDUP_CFG_ARM_EN = 1 ∧ rdF s.dev Reg.AON_HOLDUP_CFG Reg.AON_HOLDUP_CFG_MIN_MV ≤ mv ∧
          625000000000 ≤ rdF s.dev Reg.AON_HOLDUP_CFG Reg.AON_HOLDUP_CFG_CAP_UF * mv * mv ∧
          rdF s.dev Reg.AON_LB_STATUS Reg.AON_LB_STATUS_ERASED ≠ 0)) ∧
  (∀ s, s.dev.rst.fallow = false → ctlReset s.dev = false → s.dev.rst.lb = none →
    exec .recordImageRefresh s = .next (commit s { s.dev with rst := { s.dev.rst with image := imageNow s.dev } })) ∧
  (∀ s agent k, k < 2 → WriteReaches s.dev agent Reg.AON_LB_CTRL (setF (setF 0 Reg.AON_LB_CTRL_VERIFY 1) Reg.AON_LB_CTRL_SLOT k) →
    (∀ i, i < 0x4000 → memGet spFlash s.mem.flash (lbSlot s.dev k + i) = 0xFF) → s.wf = true →
    exec (.lbVerify agent k) s = .next (commit s (wrF s.dev Reg.AON_LB_STATUS Reg.AON_LB_STATUS_ERASED
      (setBits (rdF s.dev Reg.AON_LB_STATUS Reg.AON_LB_STATUS_ERASED) k 1 1)))) ∧
  (∀ s mv k, mv < rdF s.dev Reg.AON_HOLDUP_CFG Reg.AON_HOLDUP_CFG_PF_MV → armed s.dev = true → s.dev.rst.lb = none →
    s.dev.rst.fallow = false → bit (rdF s.dev Reg.AON_LB_STATUS Reg.AON_LB_STATUS_ERASED) k = true → k < 2 →
    ∃ t, exec (.powerFail mv) s = .next t ∧ t.dev.rst.fallow = true ∧ t.dev.rst.lb.isSome = true ∧
      rdF t.dev Reg.AON_LB_STATUS Reg.AON_LB_STATUS_BUSY = 1) ∧
  (∀ s agent, WriteReaches s.dev agent Reg.AON_LB_CTRL (setF 0 Reg.AON_LB_CTRL_TEST 1) →
    exec (.lbTest agent) s = .next (commit s (lbStart 2 (rdF s.dev Reg.AON_HOLDUP_STATUS Reg.AON_HOLDUP_STATUS_V_MV) s.dev))) ∧
  (∀ s k bs, s.dev.writes = [] → s.dev.rst.lb = some (k, bs) → bs.length = 0x4000 →
    ∃ t, exec (.lbWriteDone 64) s = .next t ∧ t.dev.rst.lb = none ∧ rdF t.dev Reg.AON_LB_STATUS Reg.AON_LB_STATUS_BUSY = 0 ∧
      rdF t.dev Reg.AON_LB_STATUS Reg.AON_LB_STATUS_LAST_CUT = 0 ∧
      (∀ i, i < 0x4000 → memGet spFlash t.mem.flash (lbSlot s.dev k + i) = bs.getD i 0 &&& memGet spFlash s.mem.flash (lbSlot s.dev k + i)) ∧
      ∀ a, a < lbSlot s.dev k ∨ lbSlot s.dev k + 0x4000 ≤ a → memGet spFlash t.mem.flash a = memGet spFlash s.mem.flash a)

/-- R422 to R424, R431, R435 to R437: a collected message leaves the ring, and one of LOG_MIN_SEV or more advances the log; an entry
at step 3 whose deadline passes with step 4 enabled locks FAULT_N and goes to step 4; a pulse ends and the pin follows HOLD; an
entry whose cause has gone is cleared by ONE and by ALL, and one whose cause is present is refused; FIRST clears the first-fault
record; TEST starts a pulse; ARM with injection enabled, an existing source and checker and allowed BITS leaves the injection
pending, and DISARM cancels it.
What rests on the model's own reading or choice in it is logged in notes/assumptions: 88 and 92. -/
def Obligations.FaultHandling : Prop :=
  (∀ s seg m rest, s.dev.flt.pending = m :: rest → flagF s.dev Reg.FAULT_INJECT Reg.FAULT_INJECT_PENDING = false →
    ∃ t, exec (.faultCollect [(seg, 0, false)]) s = .next t ∧ t.dev.flt.pending = rest ∧
      (rdF s.dev Reg.FAULT_CFG Reg.FAULT_CFG_LOG_MIN_SEV ≤ m.sev → rd t.dev Reg.FAULT_LOG_PROD = rd s.dev Reg.FAULT_LOG_PROD + 1)) ∧
  (∀ s e, e < 256 → devReset s.dev = false → actValid s.dev e = true → deadline s.dev e ≠ 0 → act s.dev e Reg.FAULT_ACTIVE_STEP = 3 →
    bit (rdF s.dev Reg.FAULT_LADDER Reg.FAULT_LADDER_STEPS) 3 = true →
    ∃ t, exec (.ladderStep [e]) s = .next t ∧ act t.dev e Reg.FAULT_ACTIVE_STEP = 4 ∧
      rdF t.dev Reg.FAULT_PIN Reg.FAULT_PIN_LOCKED = 1 ∧ rdF t.dev Reg.FAULT_PIN Reg.FAULT_PIN_HOLD = 1) ∧
  (∀ s, ∃ t, exec .faultPulseEnd s = .next t ∧ rdF t.dev Reg.FAULT_PIN Reg.FAULT_PIN_PULSE = 0 ∧
    rdF t.dev Reg.FAULT_PIN Reg.FAULT_PIN_ASSERTED = rdF s.dev Reg.FAULT_PIN Reg.FAULT_PIN_HOLD) ∧
  (∀ s agent e, e < 256 → actValid s.dev e = true →
    WriteReaches s.dev agent Reg.FAULT_CLEAR (setF (setF 0 Reg.FAULT_CLEAR_ENTRY e) Reg.FAULT_CLEAR_ONE 1) →
    ∃ t, exec (.faultClearOne agent e) s = .next t ∧ actValid t.dev e = causePresent s.dev e) ∧
  (∀ s agent e, e < 256 → actValid s.dev e = true → WriteReaches s.dev agent Reg.FAULT_CLEAR (setF 0 Reg.FAULT_CLEAR_ALL 1) →
    ∃ t, exec (.faultClearAll agent) s = .next t ∧ actValid t.dev e = causePresent s.dev e) ∧
  (∀ s agent, WriteReaches s.dev agent Reg.FAULT_CLEAR (setF 0 Reg.FAULT_CLEAR_FIRST 1) →
    ∃ t, exec (.faultClearFirst agent) s = .next t ∧ rd t.dev Reg.FAULT_FIRST_SRC = 0 ∧ rd t.dev Reg.FAULT_FIRST_ADDR = 0 ∧
      rd t.dev Reg.FAULT_FIRST_TIME = 0) ∧
  (∀ s agent v, WriteReaches s.dev agent Reg.FAULT_PIN (setF v Reg.FAULT_PIN_TEST 1) →
    FieldsInRange Reg.FAULT_PIN (setF v Reg.FAULT_PIN_TEST 1) → flagF s.dev Reg.FAULT_PIN Reg.FAULT_PIN_LOCKED = false →
    ∃ t, exec (.faultPinTest agent v) s = .next t ∧ rdF t.dev Reg.FAULT_PIN Reg.FAULT_PIN_PULSE = 1 ∧
      rdF t.dev Reg.FAULT_PIN Reg.FAULT_PIN_ASSERTED = 1) ∧
  (∀ s agent v, WriteReaches s.dev agent Reg.FAULT_INJECT (setF v Reg.FAULT_INJECT_ARM 1) →
    FieldsInRange Reg.FAULT_INJECT (setF v Reg.FAULT_INJECT_ARM 1) → flagF s.dev Reg.FAULT_CFG Reg.FAULT_CFG_INJ_EN = true →
    sourceExists s.dev (getF v Reg.FAULT_INJECT_SOURCE) = true → getF v Reg.FAULT_INJECT_DISARM = 0 →
    checkerAt (getF v Reg.FAULT_INJECT_CHECKER) (getF v Reg.FAULT_INJECT_SOURCE) = true →
    bitsOk (getF v Reg.FAULT_INJECT_CHECKER) (getF v Reg.FAULT_INJECT_BITS) = true →
    ∃ t, exec (.injectArm agent v) s = .next t ∧ rdF t.dev Reg.FAULT_INJECT Reg.FAULT_INJECT_PENDING = 1 ∧
      rdF t.dev Reg.FAULT_INJECT Reg.FAULT_INJECT_SOURCE = getF v Reg.FAULT_INJECT_SOURCE) ∧
  (∀ s agent, WriteReaches s.dev agent Reg.FAULT_INJECT (setF 0 Reg.FAULT_INJECT_DISARM 1) →
    ∃ t, exec (.injectDisarm agent) s = .next t ∧ rdF t.dev Reg.FAULT_INJECT Reg.FAULT_INJECT_PENDING = 0)

/-- R518, R519, R24: a write of PIN_FEAT that brings no new conflict enables its features, and each MFP follows the highest-ranked
feature that has all its pins; a feature that waits takes an MFP once it is free.
What rests on the model's own reading or choice in it is logged in notes/assumptions: 102. -/
def Obligations.SharedPins : Prop :=
  (∀ s agent v, WriteReaches s.dev agent Reg.PIN_FEAT v → FieldsInRange Reg.PIN_FEAT v →
    sourceExists s.dev (getF v Reg.PIN_FEAT_OBS_ISLAND) = true →
    ((pinConflicts v.toNat).all fun c => (pinConflicts (rd s.dev Reg.PIN_FEAT).toNat).contains c) = true →
    exec (.pinFeatWrite agent v) s = .next (commit s (pinSettle (wr s.dev Reg.PIN_FEAT (v &&& 0x1F3F))))) ∧
  (∀ s, ∃ t, exec .resourceRelease s = .next t ∧ rdF t.dev Reg.PIN_STATUS Reg.PIN_STATUS_DRIVER0 = pinDriver s.dev 0 ∧
    rdF t.dev Reg.PIN_STATUS Reg.PIN_STATUS_DRIVER3 = pinDriver s.dev 3)

/-- R391, R393 to R396, outside reset: link training brings the Serlet link UP and loss of lock returns it to
TRAINING; an accepted frame is a sign of life and is counted; a discarded frame is counted and raises FRAME_CRC; 1 µs without another
frame sends a BEAT; PAIR_ALIVE_OUT changes level in pair mode outside SOLO and HANDED, and stands
still in those states and in a warm reset; a level change on PAIR_ALIVE_IN less than 500 ns
after the last beat is counted and is no sign of life, and another one is; a sign of life lost in PAIRED enters SPLIT, and both back
in SPLIT enter PAIRED.
What rests on the model's own reading or choice in it is logged in notes/assumptions: 6. -/
def Obligations.PairSignsOfLife : Prop :=
  (∀ s, ctlReset s.dev = false → ∃ t, exec .serletLinkUp s = .next t ∧ linkUp t.dev = true) ∧
  (∀ s, ctlReset s.dev = false → linkUp s.dev = true →
    ∃ t, exec .serletLockLoss s = .next t ∧ linkUp t.dev = false ∧ pairF t.dev Reg.PAIR_STATUS_LINK_STATE = 1) ∧
  (∀ s, pairHeld s.dev = false →
    exec .serletFrameDiscarded s = .next (commit s (raise (bump s.dev (Reg.PAIR_CNT 2)) Fk.frameCrc 0 0 0 11))) ∧
  (∀ s ack, pairHeld s.dev = false → journalOn s.dev = false →
    ∃ t, exec (.beat ack) s = .next t ∧ pairF t.dev Reg.PAIR_STATUS_FRAMES_SEEN = 1 ∧ pairState t.dev = pairState s.dev ∧
      rd t.dev (Reg.PAIR_CNT 1) = rd s.dev (Reg.PAIR_CNT 1) + 1 ∧ t.dev.pair = s.dev.pair) ∧
  (∀ s, pairHeld s.dev = false → linkUp s.dev = true → flagF s.dev Reg.FAULT_INJECT Reg.FAULT_INJECT_PENDING = false →
    ∃ t, exec .beatSend s = .next t ∧ t.dev.pair.sent = s.dev.pair.sent ++ [serletFrame s.dev 0 0 0 0 []] ∧
      rd t.dev (Reg.PAIR_CNT 0) = rd s.dev (Reg.PAIR_CNT 0) + 1) ∧
  (∀ s, pairHeld s.dev = false → rdF s.dev Reg.PAIR_ROLE Reg.PAIR_ROLE_MODE = 1 → pairState s.dev ≠ 0 → pairState s.dev ≠ 6 →
    s.dev.pair.aliveStop = false → ∃ t, exec .aliveOutToggle s = .next t ∧ t.dev.pair.aliveOut = !s.dev.pair.aliveOut) ∧
  (∀ s, pairHeld s.dev = true ∨ pairState s.dev = 0 ∨ pairState s.dev = 6 → exec .aliveOutToggle s = .next (commit s s.dev)) ∧
  (∀ s x, pairHeld s.dev = false → s.dev.pair.beatAt = some x → s.dev.time < x + 500 →
    exec .aliveInBeat s = .next (commit s (bump s.dev (Reg.PAIR_CNT 11)))) ∧
  (∀ s, pairHeld s.dev = false → (∀ x, s.dev.pair.beatAt = some x → x + 500 ≤ s.dev.time) →
    ∃ t, exec .aliveInBeat s = .next t ∧ pairF t.dev Reg.PAIR_STATUS_BEAT_SEEN = 1 ∧ t.dev.pair.beatAt = some s.dev.time ∧
      pairState t.dev = if pairState s.dev = 4 ∧ pairF s.dev Reg.PAIR_STATUS_FRAMES_SEEN = 1 then 3 else pairState s.dev) ∧
  (∀ s, pairHeld s.dev = false → pairState s.dev = 3 → pairF s.dev Reg.PAIR_STATUS_FRAMES_SEEN = 1 →
    ∃ t, exec .beatTimeout s = .next t ∧ pairState t.dev = 4 ∧ pairF t.dev Reg.PAIR_STATUS_BEAT_SEEN = 0) ∧
  (∀ s, pairHeld s.dev = false → pairState s.dev = 3 → pairF s.dev Reg.PAIR_STATUS_BEAT_SEEN = 1 →
    ∃ t, exec .frameTimeout s = .next t ∧ pairState t.dev = 4 ∧ pairF t.dev Reg.PAIR_STATUS_FRAMES_SEEN = 0)

/-- R396, R397, R405: while the journal runs, losing the second sign of life makes the device SURVIVOR, and in SPLIT
PAIR_CTRL.CONFIRM_LOST does; in SURVIVOR the effective map gives this device every holding. A GOODBYE received while the
journal runs is accepted as a frame and starts the takeover. The duration that the takeover records is a free value (the model's
choice: the spec states no value).
What rests on the model's own reading or choice in it is logged in notes/assumptions: 84. -/
def Obligations.Takeover : Prop :=
  (∀ s, pairHeld s.dev = false → journalOn s.dev = true → pairF s.dev Reg.PAIR_STATUS_FRAMES_SEEN = 0 →
    ∃ t, exec .beatTimeout s = .next t ∧ pairState t.dev = 5 ∧ ∀ h, h < 256 → anchors t.dev h = true) ∧
  (∀ s, pairHeld s.dev = false → journalOn s.dev = true → pairF s.dev Reg.PAIR_STATUS_BEAT_SEEN = 0 →
    ∃ t, exec .frameTimeout s = .next t ∧ pairState t.dev = 5 ∧ ∀ h, h < 256 → anchors t.dev h = true) ∧
  (∀ s agent, pairState s.dev = 4 → WriteReaches s.dev agent Reg.PAIR_CTRL (setF 0 Reg.PAIR_CTRL_CONFIRM_LOST 1) →
    ∃ t, exec (.pairConfirmLost agent) s = .next t ∧ pairState t.dev = 5 ∧ ∀ h, h < 256 → anchors t.dev h = true) ∧
  (∀ s ack, pairHeld s.dev = false → journalOn (frameAccept ack s.dev) = true →
    exec (.goodbye ack) s = .next (commit s (takeover (frameAccept ack s.dev))))

/-- R399, R401, R410, outside reset and the journal is on: a frame's acknowledgement removes every entry below it
from the retransmit buffer; an expected entry is taken and advances the expected number by one; a checkpoint of an ESP association is
recorded with its number; SYNC_DONE outside an exchange marks the peer done; an entry that is not the expected one
changes no record; a NACK and an acknowledgement timeout send the buffered entries again.
What rests on the model's own reading or choice in it is logged in notes/assumptions: 83 and 85. -/
def Obligations.Journal : Prop :=
  (∀ s ack, pairHeld s.dev = false → journalOn s.dev = true → s.dev.pair.ckptWait = [] → s.dev.pair.syncQ = [] →
    ∃ t, exec (.beat ack) s = .next t ∧ t.dev.pair.buf = s.dev.pair.buf.filter (fun x => decide (ack ≤ x.1))) ∧
  (∀ s seq i pn final, pairHeld s.dev = false → pairState s.dev = 3 → i < 2 ^ 16 → pn < 2 ^ 64 → seq + 1 < 2 ^ 64 →
    (rd s.dev Reg.JOURNAL_RX_SEQ).toNat = seq →
    ∃ t, exec (.saCkpt 0 seq 2 i pn final) s = .next t ∧ (rd t.dev Reg.JOURNAL_RX_SEQ).toNat = seq + 1 ∧
      t.dev.pair.peerCkpt = spInsert s.dev.pair.peerCkpt i (pn, final) ∧ t.dev.pair.buf = s.dev.pair.buf) ∧
  (∀ s seq i pn final, pairHeld s.dev = false → pairState s.dev = 3 → seq < (rd s.dev Reg.JOURNAL_RX_SEQ).toNat →
    ∃ t, exec (.saCkpt 0 seq 2 i pn final) s = .next t ∧ t.dev.pair = s.dev.pair ∧
      rd t.dev (Reg.PAIR_CNT 7) = rd s.dev (Reg.PAIR_CNT 7) + 1) ∧
  (∀ s ack l, pairHeld s.dev = false → journalOn (frameAccept ack s.dev) = true →
    exec (.journal ack l) s = .next (commit s ((l.take 4).foldl entryReceive (frameAccept ack s.dev)))) ∧
  (∀ s seq, pairHeld s.dev = false → pairState s.dev = 3 → s.dev.pair.syncDone = none → seq + 1 < 2 ^ 64 →
    (rd s.dev Reg.JOURNAL_RX_SEQ).toNat = seq →
    ∃ t, exec (.syncDone 0 seq) s = .next t ∧ t.dev.pair.peerDone = true ∧ (rd t.dev Reg.JOURNAL_RX_SEQ).toNat = seq + 1) ∧
  (∀ s seq, pairHeld s.dev = false → pairState s.dev = 3 → s.dev.pair.syncing = true → seq + 1 < 2 ^ 64 →
    (rd s.dev Reg.JOURNAL_RX_SEQ).toNat = seq →
    ∃ t, exec (.syncBegin 0 seq) s = .next t ∧ t.dev.pair.peerDone = false ∧ (rd t.dev Reg.JOURNAL_RX_SEQ).toNat = seq + 1) ∧
  (∀ s ack, pairHeld s.dev = false → journalOn (frameAccept ack s.dev) = true →
    exec (.nack ack) s = .next (commit s (retransmit (frameAccept ack s.dev) ack))) ∧
  (∀ s, pairHeld s.dev = false → journalOn s.dev = true → s.dev.pair.buf ≠ [] → s.dev.pair.timeouts < 7 →
    ∃ t, exec .ackTimeout s = .next t ∧ t.dev.pair.buf = s.dev.pair.buf ∧ t.dev.pair.timeouts = s.dev.pair.timeouts + 1 ∧
      rd t.dev (Reg.PAIR_CNT 5) = rd s.dev (Reg.PAIR_CNT 5) + 1)

/-- R403, R411, outside reset, for the oldest entry of the learn FIFO when it came from the peer and its table b is
loaded, exact and learned, with no host command on it: it leaves the FIFO; a LEARN_REQ of a key that this device settles is settled as its own
learn, and of another key is counted and dropped; a LEARN_SET of a mirrored table replaces the action of a DYNAMIC entry, or removes
it when it is absent at the anchor; a REFRESH sets the hit bit of the entry that it names; and a HANDOVER brings its map into force and
advances the associations of the holdings that it adds to this device.
What rests on the model's own reading or choice in it is logged in notes/assumptions: 79 and 80. -/
def Obligations.PeerLearn : Prop :=
  (∀ s x rest b, pairHeld s.dev = false → s.dev.orch.learnQ = x :: rest → x.table < 64 → tbl s.dev x.table = some b →
    b.kind = 1 → b.learn = true → flagF s.dev Reg.PROFILE_STATUS Reg.PROFILE_STATUS_LOADED = true → tableBusy s.dev x.table = false →
    ∀ d, d = wrF (setLearnQ s.dev rest) Reg.LEARN_STATUS Reg.LEARN_STATUS_SEQ_HI x.seq →
    (x.src = .peerReq → settles d b (keyFor b x.key) = true →
      exec .learnReq s = .next (commit s (settleAnchor d b x (keyFor b x.key)))) ∧
    (x.src = .peerReq → settles d b (keyFor b x.key) = false →
      exec .learnReq s = .next (commit s (bump d (Reg.PAIR_CNT 14)))) ∧
    (∀ i, x.src = .peerSet false → mirrored d b = true → exactFind d b (keyFor b x.key) = some i → eType b (readUnit d b i) ≠ 1 →
      exec .learnSet s = .next (commit s (writeUnit d b i (setBits (readUnit d b i) 0 64 x.action.toNat)))) ∧
    (∀ i, x.src = .peerSet true → mirrored d b = true → exactFind d b (keyFor b x.key) = some i → eType b (readUnit d b i) ≠ 1 →
      exec .learnSet s = .next (commit s (exactRemove d b i))) ∧
    (∀ i, x.src = .peerRefresh → settles d b (keyFor b x.key) = true → exactFind d b (keyFor b x.key) = some i →
      ∃ t, exec .refresh s = .next t ∧ hitBit t.dev b.t i = true ∧ t.dev.orch.learnQ = rest)) ∧
  (∀ s x rest m, pairHeld s.dev = false → journalOn s.dev = true → s.dev.orch.learnQ = x :: rest → x.src = .handover m →
    ∃ d n, exec .handoverEntry s = .next (commit s (adoptAll (setEffective d m) n).2.2) ∧ d.orch.learnQ = rest ∧
      n = mapMine m (pairId s.dev) - (mapMine m (pairId s.dev) &&& mapMine (effective s.dev) (pairId s.dev)))

/-- R409, R410, outside reset: in LINKING a HELLO is sent every 10 µs while the link is UP; a received HELLO in LINKING whose
format, part code, identity, table configuration or calendar does not fit raises HELLO_MISMATCH and leaves LINKING in force; one that fits enters
SYNCING, releases the gates, expects the number that it gives, empties the retransmit buffer, and begins the exchange of R410. In a
state other than LINKING and SURVIVOR a HELLO is only a sign of life.
What rests on the model's own reading or choice in it is logged in notes/assumptions: 81. -/
def Obligations.Hello : Prop :=
  (∀ s, pairHeld s.dev = false → pairState s.dev = 1 → linkUp s.dev = true →
    flagF s.dev Reg.FAULT_INJECT Reg.FAULT_INJECT_PENDING = false →
    ∃ t, exec .helloSend s = .next t ∧ t.dev.pair.sent = s.dev.pair.sent ++ [serletFrame s.dev 3 0 0 0 (helloBody s.dev)]) ∧
  (∀ s ack f id st part crc cal map first, pairHeld s.dev = false → pairState s.dev = 1 →
    (f ≠ 1 ∨ part ≠ rdF s.dev Reg.GLOBAL_ID Reg.GLOBAL_ID_PART_CODE ∨ id = pairId s.dev ∨ crc ≠ cfgCrc s.dev ∨
      cal ≠ rdF s.dev Reg.PROFILE_STATUS Reg.PROFILE_STATUS_CALENDAR_ID) →
    exec (.hello ack f id st part crc cal map first) s = .next (commit s (raise (frameAccept ack s.dev) Fk.helloMismatch 0 0 0 0)) ∧
      pairState (raise (frameAccept ack s.dev) Fk.helloMismatch 0 0 0 0) = 1) ∧
  (∀ s ack id st map first, pairHeld s.dev = false → pairState s.dev = 1 → id ≠ pairId s.dev →
    map = effective s.dev → st ≠ 5 →
    ∃ d, exec (.hello ack 1 id st (rdF s.dev Reg.GLOBAL_ID Reg.GLOBAL_ID_PART_CODE) (cfgCrc s.dev)
        (rdF s.dev Reg.PROFILE_STATUS Reg.PROFILE_STATUS_CALENDAR_ID) map first) s = .next (commit s (syncStart d)) ∧
      pairState d = 2 ∧ pairF d Reg.PAIR_STATUS_GATE_FROZEN = 0 ∧ d.pair.buf = [] ∧ d.pair.syncQ = [] ∧
      rd d Reg.JOURNAL_RX_SEQ = BitVec.ofNat 64 first) ∧
  (∀ s ack f id st part crc cal map first, pairHeld s.dev = false → pairState (frameAccept ack s.dev) ≠ 1 →
    pairState (frameAccept ack s.dev) ≠ 5 →
    exec (.hello ack f id st part crc cal map first) s = .next (commit s (frameAccept ack s.dev)))

/-- R396, R397, R410, R411, R413: a write of PAIR_ROLE with MODE 1 in SOLO enters LINKING, in which a link that is not UP trains, and one with MODE 0 in PAIRED or one that
changes ID outside SOLO is rejected with the register as it was; RESYNC in PAIRED clears JOURNAL_LOST and begins the exchange again; after
HANDOVER with the journal on, this device anchors exactly the holdings that it anchored and that PAIR_ANCHOR_NEXT leaves to it; CONFIRM_LOST in
SURVIVOR releases the gates; PEER_RESET makes the request pending under the next tag.
What rests on the model's own reading or choice in it is logged in notes/assumptions: 81. -/
def Obligations.PairControl : Prop :=
  (∀ s agent v, WriteReaches s.dev agent Reg.PAIR_ROLE v → FieldsInRange Reg.PAIR_ROLE v →
    flagF s.dev Reg.FAULT_INJECT Reg.FAULT_INJECT_PENDING = false → pairState s.dev = 0 → getF v Reg.PAIR_ROLE_MODE = 1 →
    ∃ t, exec (.pairModeWrite agent v) s = .next t ∧ pairState t.dev = 1 ∧ pairId t.dev = getF v Reg.PAIR_ROLE_ID ∧
      effective t.dev = mapOf s.dev Reg.PAIR_ANCHOR ∧ (linkUp s.dev = false → pairF t.dev Reg.PAIR_STATUS_LINK_STATE = 1)) ∧
  (∀ s agent v, WriteReaches s.dev agent Reg.PAIR_ROLE v → FieldsInRange Reg.PAIR_ROLE v → pairState s.dev = 3 →
    getF v Reg.PAIR_ROLE_MODE = 0 ∨ getF v Reg.PAIR_ROLE_ID ≠ pairId s.dev →
    ∃ t, exec (.pairModeWrite agent v) s = .next t ∧ pairState t.dev = 3 ∧ rd t.dev Reg.PAIR_ROLE = rd s.dev Reg.PAIR_ROLE) ∧
  (∀ s agent, pairState s.dev = 3 → WriteReaches s.dev agent Reg.PAIR_CTRL (setF 0 Reg.PAIR_CTRL_RESYNC 1) →
    ∃ d, exec (.pairResync agent) s = .next (commit s (syncStart d)) ∧ pairF d Reg.PAIR_STATUS_JOURNAL_LOST = 0 ∧ d.pair = s.dev.pair) ∧
  (∀ s agent, journalOn s.dev = true → WriteReaches s.dev agent Reg.PAIR_CTRL (setF 0 Reg.PAIR_CTRL_HANDOVER 1) →
    ∃ t, exec (.pairHandover agent) s = .next t ∧ ∀ h, h < 256 →
      (anchors t.dev h = true ↔ anchors s.dev h = true ∧ bits (mapOf s.dev Reg.PAIR_ANCHOR_NEXT) h 1 = pairId s.dev)) ∧
  (∀ s agent, pairState s.dev = 5 → WriteReaches s.dev agent Reg.PAIR_CTRL (setF 0 Reg.PAIR_CTRL_CONFIRM_LOST 1) →
    exec (.pairConfirmLost agent) s = .next (commit s (setPairF s.dev Reg.PAIR_STATUS_GATE_FROZEN 0))) ∧
  (∀ s agent, WriteReaches s.dev agent Reg.PAIR_CTRL (setF 0 Reg.PAIR_CTRL_PEER_RESET 1) →
    ∃ t, exec (.pairPeerReset agent) s = .next t ∧ pairF t.dev Reg.PAIR_STATUS_RESET_RESULT = 1 ∧
      t.dev.pair.resetTag = s.dev.pair.nextTag ∧ t.dev.pair.nextTag = (s.dev.pair.nextTag + 1) % 65536)

/-- R394, R412, R413, outside reset: a peer access at an offset that is not 8 B aligned is rejected; another one outside the journal's states ends at once with RESULT 3, and in
them is BUSY under the next tag; a response with that tag ends it with its RESULT, and no response in 50 µs ends it with RESULT 2; an AGENT_REQ for
a block other than RIND and PAIR is answered with result 1, and a read of one of these is answered with the register as the pair peer reads
it, a write with how it was settled; a RESET_REQ is refused unless ACCEPT_RESET is 1 in PAIRED or SPLIT, and is otherwise accepted with
GOODBYE and a warm reset of source 8; the requester keeps the result, or TIMEOUT.
What rests on the model's own reading or choice in it is logged in notes/assumptions: 87 and 110. -/
def Obligations.PeerRequests : Prop :=
  (∀ s agent v w c, (c = .peerAccRead agent v ∧ w = setF v Reg.PEER_ACC_CMD_OP 1) ∨ (c = .peerAccWrite agent v ∧ w = setF v Reg.PEER_ACC_CMD_OP 2) →
    WriteReaches s.dev agent Reg.PEER_ACC_CMD w → FieldsInRange Reg.PEER_ACC_CMD w →
    (getF v Reg.PEER_ACC_CMD_OFFSET % 8 ≠ 0 → ∃ t, exec c s = .next t ∧ ∀ o, o ≠ Reg.HOST_REJECT → rd t.dev o = rd s.dev o) ∧
    (getF v Reg.PEER_ACC_CMD_OFFSET % 8 = 0 →
    ∃ t, exec c s = .next t ∧ rd t.dev Reg.PEER_ACC_CMD = stored s.dev Reg.PEER_ACC_CMD w ∧
      (journalOn s.dev = false → rdF t.dev Reg.PEER_ACC_STATUS Reg.PEER_ACC_STATUS_BUSY = 0 ∧
        rdF t.dev Reg.PEER_ACC_STATUS Reg.PEER_ACC_STATUS_RESULT = 3) ∧
      (journalOn s.dev = true → rdF t.dev Reg.PEER_ACC_STATUS Reg.PEER_ACC_STATUS_BUSY = 1 ∧ t.dev.pair.accTag = s.dev.pair.nextTag))) ∧
  (∀ s ack tag result v, pairHeld s.dev = false →
    flagF (frameAccept ack s.dev) Reg.PEER_ACC_STATUS Reg.PEER_ACC_STATUS_BUSY = true → tag = (frameAccept ack s.dev).pair.accTag → result < 8 →
    ∃ t, exec (.agentRsp ack tag result v) s = .next t ∧ rdF t.dev Reg.PEER_ACC_STATUS Reg.PEER_ACC_STATUS_BUSY = 0 ∧
      rdF t.dev Reg.PEER_ACC_STATUS Reg.PEER_ACC_STATUS_RESULT = result) ∧
  (∀ s, pairHeld s.dev = false → flagF s.dev Reg.PEER_ACC_STATUS Reg.PEER_ACC_STATUS_BUSY = true →
    ∃ t, exec (.agentTimeout false) s = .next t ∧ rdF t.dev Reg.PEER_ACC_STATUS Reg.PEER_ACC_STATUS_BUSY = 0 ∧
      rdF t.dev Reg.PEER_ACC_STATUS Reg.PEER_ACC_STATUS_RESULT = 2) ∧
  (∀ s ack tag op off v, pairHeld s.dev = false → journalOn (frameAccept ack s.dev) = true →
    (off / 0x100000 ≠ 7 → off / 0x100000 ≠ 26 →
      exec (.agentReq ack tag op off v) s = .next (commit s (agentReply tag 1 0 (frameAccept ack s.dev)))) ∧
    (off / 0x100000 = 7 ∨ off / 0x100000 = 26 → op = 1 →
      exec (.agentReq ack tag op off v) s = .next (commit s
        (agentReply tag 0 (regRead (frameAccept ack s.dev) 3 off).1 (regRead (frameAccept ack s.dev) 3 off).2))) ∧
    (off / 0x100000 = 7 ∨ off / 0x100000 = 26 → op = 2 → (regWriteR s.mem (frameAccept ack s.dev) 3 off v).1 = 1 →
      exec (.agentReq ack tag op off v) s = .next (commit s
        (agentReply tag 4 0 (regWriteR s.mem (frameAccept ack s.dev) 3 off v).2)))) ∧
  (∀ s ack tag, pairHeld s.dev = false → flagF (frameAccept ack s.dev) Reg.PAIR_CFG Reg.PAIR_CFG_ACCEPT_RESET = false →
    exec (.resetReq ack tag) s = .next (commit s (pairSend (frameAccept ack s.dev) 7 tag 0 (beBytes 1 1)))) ∧
  (∀ s ack tag, pairHeld s.dev = false → flagF (frameAccept ack s.dev) Reg.PAIR_CFG Reg.PAIR_CFG_ACCEPT_RESET = true →
    devReset s.dev = false → pairState (frameAccept ack s.dev) = 3 →
    ∃ t, exec (.resetReq ack tag) s = .next t ∧ t.dev.rst.warm = true ∧ rdF t.dev Reg.RSTC_SOURCE Reg.RSTC_SOURCE_SOURCE = 8) ∧
  (∀ s ack tag refused, pairHeld s.dev = false → pairF (frameAccept ack s.dev) Reg.PAIR_STATUS_RESET_RESULT = 1 →
    tag = (frameAccept ack s.dev).pair.resetTag →
    ∃ t, exec (.resetRsp ack tag refused) s = .next t ∧ pairF t.dev Reg.PAIR_STATUS_RESET_RESULT = if refused then 3 else 2) ∧
  (∀ s, pairHeld s.dev = false → pairF s.dev Reg.PAIR_STATUS_RESET_RESULT = 1 →
    ∃ t, exec (.agentTimeout true) s = .next t ∧ pairF t.dev Reg.PAIR_STATUS_RESET_RESULT = 4)

/-- R516: a write of word w of AON_PIN_OVR by any agent, which reaches the register and sets the valid bit of nibble j, where index
16 w + j has no ball (balls are indices 0 to 24 and 32 to 35), leaves that word and every register but HOST_REJECT as it was, and counts in
HOST_REJECT. -/
def Obligations.PinOverrideReject : Prop :=
  ∀ s agent w j v, w < 64 → j < 16 → bit v.toNat (4 * j + 3) = true → 24 < 16 * w + j → ¬ (32 ≤ 16 * w + j ∧ 16 * w + j ≤ 35) →
    WriteReaches s.dev agent (Reg.AON_PIN_OVR w) v →
    ∃ t, exec (.registerWrite agent (Reg.AON_PIN_OVR w) v false) s = .next t ∧ (∀ o, o ≠ Reg.HOST_REJECT → rd t.dev o = rd s.dev o) ∧
      rdF t.dev Reg.HOST_REJECT Reg.HOST_REJECT_COUNT = min (rdF s.dev Reg.HOST_REJECT Reg.HOST_REJECT_COUNT + 1) 32767

/-- R472, R477, R2: a write that reaches AGE_CFG, as an example of a register without a rule of its own, stores its writable fields; a write with
a field outside its stated range, to any register outside the RIND block, changes no register but HOST_REJECT, in which it counts; a write to an
island in reset or fallow is rejected in the same way; a 4 B write is discarded and counts; a write to an absent unit, to an array entry of an
absent unit, or while the control island is in reset, changes nothing.
What rests on the model's own reading or choice in it is logged in notes/assumptions: 105 and 106. -/
def Obligations.RegisterWrites : Prop :=
  (∀ s agent v, WriteReaches s.dev agent Reg.AGE_CFG v → FieldsInRange Reg.AGE_CFG v →
    ∃ t, exec (.registerWrite agent Reg.AGE_CFG v false) s = .next t ∧ rd t.dev Reg.AGE_CFG = stored s.dev Reg.AGE_CFG v ∧
      (∀ o, o ≠ Reg.AGE_CFG → rd t.dev o = rd s.dev o) ∧ t.dev.host = s.dev.host) ∧
  (∀ s agent off v p, WriteReaches s.dev agent off v → off < 0x1A00000 → off % 8 = 0 → (unpeek off).2 = false → regAt off = some p →
    rangeOk p.1.flds v = false →
    ∃ t, exec (.registerWrite agent off v false) s = .next t ∧ (∀ o, o ≠ Reg.HOST_REJECT → rd t.dev o = rd s.dev o) ∧
      rdF t.dev Reg.HOST_REJECT Reg.HOST_REJECT_COUNT = min (rdF s.dev Reg.HOST_REJECT Reg.HOST_REJECT_COUNT + 1) 32767 ∧
      t.dev.flt = s.dev.flt) ∧
  (∀ s agent off v, ctlReset s.dev = false → unitAbsent s.dev off = false → off % 8 = 0 → (unpeek off).2 = false →
    csrParity s.dev agent off 2 v = (false, s.dev) → (islandsOf s.dev off v).any (islandOff s.dev) = true →
    ∃ t, exec (.registerWrite agent off v false) s = .next t ∧ (∀ o, o ≠ Reg.HOST_REJECT → rd t.dev o = rd s.dev o) ∧
      rdF t.dev Reg.HOST_REJECT Reg.HOST_REJECT_COUNT = min (rdF s.dev Reg.HOST_REJECT Reg.HOST_REJECT_COUNT + 1) 32767) ∧
  (∀ s agent off v, ctlReset s.dev = false →
    ∃ t, exec (.registerWrite agent off v true) s = .next t ∧ (∀ o, o ≠ Reg.HOST_REJECT → rd t.dev o = rd s.dev o) ∧
      rdF t.dev Reg.HOST_REJECT Reg.HOST_REJECT_COUNT = min (rdF s.dev Reg.HOST_REJECT Reg.HOST_REJECT_COUNT + 1) 32767) ∧
  (∀ s agent off v half, ctlReset s.dev = true → exec (.registerWrite agent off v half) s = .next (commit s s.dev)) ∧
  (∀ s agent off v, unitAbsent s.dev off = true → exec (.registerWrite agent off v false) s = .next (commit s s.dev)) ∧
  (∀ s agent off v p, ctlReset s.dev = false → csrParity s.dev agent off 2 v = (false, s.dev) →
    (islandsOf s.dev off v).any (islandOff s.dev) = false → unitBusy s.dev off (islandsOf s.dev off v) = [] → regAt off = some p →
    indexAbsent s.dev p.1.base (p.2.getD 0 0) = true → off < 0x2000000 →
    exec (.registerWrite agent off v false) s = .next (commit s s.dev))

/-- R478, R482, R496, R314, with no parity injection pending and the control island running: a clearing read of ISLAND_OVERRUN answers its
value and clears it, while its peek alias answers the same and clears nothing; EVT_POP answers word 0 of the oldest entry, removes it and keeps its
other words for the agent, and answers 0 on an empty FIFO; UART_DATA answers the oldest received byte with its valid bit and removes it, and
answers 0 when there is none; RIND_DATA answers 0 to an agent that does not hold the lease.
What rests on the model's own reading or choice in it is logged in notes/assumptions: 116. -/
def Obligations.RegisterReads : Prop :=
  (∀ s agent, ctlReset s.dev = false → flagF s.dev Reg.FAULT_INJECT Reg.FAULT_INJECT_PENDING = false →
    (∃ t, exec (.clearingRead agent Reg.ISLAND_OVERRUN) s = .next t ∧
      spGet (fun _ => 0) t.dev.host.answer agent = rd s.dev Reg.ISLAND_OVERRUN ∧ rd t.dev Reg.ISLAND_OVERRUN &&& 0x1FFFF = 0) ∧
    (∃ t, exec (.clearingRead agent (Reg.ISLAND_OVERRUN + 0x80000)) s = .next t ∧
      spGet (fun _ => 0) t.dev.host.answer agent = rd s.dev Reg.ISLAND_OVERRUN ∧ t.dev.regs = s.dev.regs)) ∧
  (∀ s agent f, f < 3 → ctlReset s.dev = false → flagF s.dev Reg.FAULT_INJECT Reg.FAULT_INJECT_PENDING = false →
    (∀ x rest, (getEvt s.dev f).entries = x :: rest →
      ∃ t, exec (.evtPop agent f) s = .next t ∧ spGet (fun _ => 0) t.dev.host.answer agent = x.1 ∧ (getEvt t.dev f).entries = rest ∧
        spGet (fun _ => (0, 0, 0)) t.dev.host.latch (16 * f + agent) = x.2 ∧ t.dev.regs = s.dev.regs) ∧
    ((getEvt s.dev f).entries = [] →
      ∃ t, exec (.evtPop agent f) s = .next t ∧ spGet (fun _ => 0) t.dev.host.answer agent = 0 ∧ (getEvt t.dev f).entries = [])) ∧
  (∀ s agent, ctlReset s.dev = false → flagF s.dev Reg.FAULT_INJECT Reg.FAULT_INJECT_PENDING = false →
    (∀ x rest, s.dev.host.uartRx = x :: rest →
      ∃ t, exec (.uartDataRead agent) s = .next t ∧ spGet (fun _ => 0) t.dev.host.answer agent = BitVec.ofNat 64 (256 + x.toNat) ∧
        t.dev.host.uartRx = rest) ∧
    (s.dev.host.uartRx = [] →
      ∃ t, exec (.uartDataRead agent) s = .next t ∧ spGet (fun _ => 0) t.dev.host.answer agent = 0 ∧ t.dev.host.uartRx = [])) ∧
  (∀ s agent k, k < 16 → ctlReset s.dev = false → flagF s.dev Reg.FAULT_INJECT Reg.FAULT_INJECT_PENDING = false → leaseOwner s.dev ≠ agent →
    ∃ t, exec (.clearingRead agent (Reg.RIND_DATA k)) s = .next t ∧ spGet (fun _ => 0) t.dev.host.answer agent = 0)

/-- R483: posting an entry that makes the entries not yet signalled of FIFO f reach THRESH raises vector 128 + f, as its message when the vector is
unmasked and as its pending bit when it is masked, and posting one that does not reach it raises nothing; the expiry of HOLD_NS with an
entry not yet signalled raises it and leaves none unsignalled, and with none does nothing; a read that pops an entry sends no message and
sets no pending bit.
What rests on the model's own reading or choice in it is logged in notes/assumptions: 6. -/
def Obligations.EventVector : Prop :=
  (∀ d f w0 w1 w2 w3, f < 3 → (getEvt d f).entries.length < evtSize f →
    (rdF d (Reg.EVT_CFG f) Reg.EVT_CFG_THRESH ≤ (getEvt d f).unsignalled + 1 →
      (bit (rd d (Reg.MSIX_TABLE (128 + f) 1)).toNat 32 = false → (evtPost d f w0 w1 w2 w3).1.host.msi = d.host.msi ++ [128 + f]) ∧
      (bit (rd d (Reg.MSIX_TABLE (128 + f) 1)).toNat 32 = true →
        (evtPost d f w0 w1 w2 w3).1.host.msi = d.host.msi ∧ bit (rd (evtPost d f w0 w1 w2 w3).1 (Reg.MSIX_PBA 2)).toNat f = true)) ∧
    ((getEvt d f).unsignalled + 1 < rdF d (Reg.EVT_CFG f) Reg.EVT_CFG_THRESH →
      (evtPost d f w0 w1 w2 w3).1.host.msi = d.host.msi ∧ (evtPost d f w0 w1 w2 w3).1.regs = d.regs)) ∧
  (∀ s f, f < 3 → (getEvt s.dev f).unsignalled ≠ 0 →
    ∃ t, exec (.evtHoldExpiry f) s = .next t ∧ (getEvt t.dev f).unsignalled = 0 ∧
      (bit (rd s.dev (Reg.MSIX_TABLE (128 + f) 1)).toNat 32 = false → t.dev.host.msi = s.dev.host.msi ++ [128 + f]) ∧
      (bit (rd s.dev (Reg.MSIX_TABLE (128 + f) 1)).toNat 32 = true → bit (rd t.dev (Reg.MSIX_PBA 2)).toNat f = true)) ∧
  (∀ s f, (getEvt s.dev f).unsignalled = 0 → exec (.evtHoldExpiry f) s = .next (commit s s.dev)) ∧
  (∀ s agent f, f < 3 → flagF s.dev Reg.FAULT_INJECT Reg.FAULT_INJECT_PENDING = false →
    ∃ t, exec (.evtPop agent f) s = .next t ∧ t.dev.host.msi = s.dev.host.msi ∧ t.dev.regs = s.dev.regs)

/-- R474, R479: a function-level reset, and the loss of a PCIe link that is up, set every register of the HOST block to its reset value and
empty the event FIFOs, and leave every other register as it was when host software does not hold the Rind lease; the loss raises
PCIE_LINK_DOWN, whose condition ends when the link comes up; the voter sweep rewrites every copy that disagrees. -/
def Obligations.HostResets : Prop :=
  (∀ s, ctlReset s.dev = false → leaseOwner s.dev ≠ 1 →
    ∃ t, exec .functionLevelReset s = .next t ∧ (∀ o, rd t.dev o = if o / 0x100000 = 4 then resetVal s.dev.fuses.half o else rd s.dev o) ∧
      t.dev.host.evt = []) ∧
  (∀ s, ctlReset s.dev = false → leaseOwner s.dev ≠ 1 → s.dev.host.pcieUp = true →
    ∃ t, exec .pcieLinkLoss s = .next t ∧ (∀ o, rd t.dev o = if o / 0x100000 = 4 then resetVal s.dev.fuses.half o else rd s.dev o) ∧
      t.dev.host.evt = [] ∧ t.dev.host.pcieUp = false ∧ condPresent t.dev Fk.pcieLinkDown 0 = true) ∧
  (∀ s, ctlReset s.dev = false →
    ∃ t, exec .pcieLinkUp s = .next t ∧ t.dev.host.pcieUp = true ∧ condPresent t.dev Fk.pcieLinkDown 0 = false) ∧
  (∀ s, ∃ t, exec .voterSweep s = .next t ∧ t.dev.voteErr = [] ∧ t.dev.regs = s.dev.regs)

/-- R484, R485: the completion of a command unit's operation clears its BUSY, and counts DONE where the unit has it; one for a unit that is
not busy does nothing. HOST_HOLDING_CMD.REMOVE closes admission for the holding and is BUSY until no packet of the holding is in a furrow, which
counts in REMOVALS; a REMOVE while another removal runs is rejected.
What rests on the model's own reading or choice in it is logged in notes/assumptions: 107. -/
def Obligations.Completions : Prop :=
  (∀ s src st busy, (src, st, busy) ∈ [(1, Reg.ORCHARD_STATUS, Reg.ORCHARD_STATUS_BUSY), (2, Reg.ASSOC_STATUS, Reg.ASSOC_STATUS_BUSY),
      (3, Reg.RIND_STATUS, Reg.RIND_STATUS_BUSY), (4, Reg.MC_STATUS, Reg.MC_STATUS_BUSY), (5, Reg.QUEUE_STATUS, Reg.QUEUE_STATUS_BUSY),
      (6, Reg.DRILL_STATUS, Reg.DRILL_STATUS_BUSY), (7, Reg.DEEP_ACC_STATUS, Reg.DEEP_ACC_STATUS_BUSY)] →
    (flagF s.dev st busy = true → ∃ t, exec (.commandCompletion src) s = .next t ∧ flagF t.dev st busy = false) ∧
    (flagF s.dev st busy = false → exec (.commandCompletion src) s = .next (commit s s.dev))) ∧
  (∀ s src st busy done, (src, st, busy, done) ∈
      [(1, Reg.ORCHARD_STATUS, Reg.ORCHARD_STATUS_BUSY, Reg.ORCHARD_STATUS_DONE), (2, Reg.ASSOC_STATUS, Reg.ASSOC_STATUS_BUSY, Reg.ASSOC_STATUS_DONE),
       (3, Reg.RIND_STATUS, Reg.RIND_STATUS_BUSY, Reg.RIND_STATUS_DONE), (6, Reg.DRILL_STATUS, Reg.DRILL_STATUS_BUSY, Reg.DRILL_STATUS_DONE)] →
    flagF s.dev st busy = true →
    ∃ t, exec (.commandCompletion src) s = .next t ∧ rdF t.dev st done = (rdF s.dev st done + 1) % 2 ^ done.w) ∧
  (∀ s agent h, h < 256 → flagF s.dev Reg.HOST_HOLDING_STATUS Reg.HOST_HOLDING_STATUS_BUSY = false →
    WriteReaches s.dev agent Reg.HOST_HOLDING_CMD (setF (setF 0 Reg.HOST_HOLDING_CMD_HOLDING h) Reg.HOST_HOLDING_CMD_REMOVE 1) →
    ∃ t, exec (.holdingRemove agent h) s = .next t ∧ bit (rd t.dev (Reg.HOLDING_OPEN (h / 64))).toNat (h % 64) = false ∧
      flagF t.dev Reg.HOST_HOLDING_STATUS Reg.HOST_HOLDING_STATUS_BUSY = true ∧
      rdF t.dev Reg.HOST_HOLDING_STATUS Reg.HOST_HOLDING_STATUS_HOLDING = h) ∧
  (∀ s agent h, h < 256 → flagF s.dev Reg.HOST_HOLDING_STATUS Reg.HOST_HOLDING_STATUS_BUSY = true →
    WriteReaches s.dev agent Reg.HOST_HOLDING_CMD (setF (setF 0 Reg.HOST_HOLDING_CMD_HOLDING h) Reg.HOST_HOLDING_CMD_REMOVE 1) →
    ∃ t, exec (.holdingRemove agent h) s = .next t ∧ ∀ o, o ≠ Reg.HOST_REJECT → rd t.dev o = rd s.dev o) ∧
  (∀ s, flagF s.dev Reg.HOST_HOLDING_STATUS Reg.HOST_HOLDING_STATUS_BUSY = true →
    holdingInFurrow s.dev (rdF s.dev Reg.HOST_HOLDING_STATUS Reg.HOST_HOLDING_STATUS_HOLDING) = false →
    ∃ t, exec .holdingRemovalDone s = .next t ∧ flagF t.dev Reg.HOST_HOLDING_STATUS Reg.HOST_HOLDING_STATUS_BUSY = false ∧
      rdF t.dev Reg.HOST_HOLDING_STATUS Reg.HOST_HOLDING_STATUS_REMOVALS =
        (rdF s.dev Reg.HOST_HOLDING_STATUS Reg.HOST_HOLDING_STATUS_REMOVALS + 1) % 2 ^ 32)

/-- R486 to R492: the oldest packet of an enabled punt ring, laid into one good descriptor that holds it, leaves the ring's queue, its
bytes being the command's first write of host memory, and HEAD passes the descriptor; without posted descriptors it stays; after 1 ms it is
discarded and counted. A due notice writes HEAD where HEAD_ADDR points and leaves no notice due. An inject packet of a disabled ring stays;
one that fails a check of R490 is passed over and counted in FAILS; one that passes reaches Harrow's inject rank (PIPELINE) or
stage 1 of the acre of its queue's port (DIRECT), and HEAD passes its slots.
What rests on the model's own reading or choice in it is logged in notes/assumptions: 111 and 112. -/
def Obligations.Rings : Prop :=
  (∀ s r p w rest a len, getRingQ s.dev r = (p, w) :: rest → flagF s.dev (Reg.PUNT_RING r 1) Reg.PUNT_RING_ENABLE = true →
    flagF s.dev (Reg.PUNT_RING r 1) Reg.PUNT_RING_CTX_EN = false → descOk (a, len, false) = true → p.frame ≠ [] → p.frame.length ≤ len →
    rdF s.dev (Reg.PUNT_RING r 2) Reg.PUNT_RING_TAIL = (rdF s.dev (Reg.PUNT_RING r 3) Reg.PUNT_RING_HEAD + 1) % 2 ^ 32 →
    s.dev.writes = [] →
    ∃ t, ∃ ws : List MemWrite, exec (.puntDelivery r [(a, len, false)]) s = .next t ∧ getRingQ t.dev r = rest ∧
      t.mem = (⟨spHost, a, p.frame⟩ :: ws).foldl applyWrite s.mem) ∧
  (∀ s r p w rest, getRingQ s.dev r = (p, w) :: rest → p.frame ≠ [] → exec (.puntDelivery r []) s = .next (commit s s.dev)) ∧
  (∀ s r p w rest, getRingQ s.dev r = (p, w) :: rest →
    exec (.puntWaitTimeout r) s = .next (commit s
      (releaseFrame (bumpSat (putRingQ s.dev r rest) (Reg.PUNT_RING r 6) Reg.PUNT_RING_WAIT_TIMEOUT 1) p))) ∧
  (∀ s r, spGet (fun _ => 0) s.dev.host.ringDue r ≠ 0 → s.dev.writes = [] →
    ∃ t, ∃ ws : List MemWrite, exec (.puntNotice r) s = .next t ∧ spGet (fun _ => 0) t.dev.host.ringDue r = 0 ∧
      t.mem = ws.foldl applyWrite s.mem ∧
      ((rd s.dev (Reg.PUNT_RING r 4)).toNat ≠ 0 →
        ws.head? = some ⟨spHost, (rd s.dev (Reg.PUNT_RING r 4)).toNat, leBytes 8 (rd s.dev (Reg.PUNT_RING r 3)).toNat⟩)) ∧
  (∀ s c r h0 h1 els data dma, c = .pipeline r h0 h1 els data dma ∨ c = .direct r h0 h1 els data dma →
    injF s.dev r 1 Reg.INJ_RING_ENABLE = 0 → exec c s = .next (commit s s.dev)) ∧
  (∀ s r h0 h1 els data e c n, n = bits h0.toNat 0 4 + 1 → r < 16 → els.length = n → bit h0.toNat 4 = false →
    injF s.dev r 1 Reg.INJ_RING_ENABLE = 1 →
    n + 1 ≤ (injF s.dev r 2 Reg.INJ_RING_TAIL + 2 ^ 32 - injF s.dev r 3 Reg.INJ_RING_HEAD) % 2 ^ 32 →
    (injF s.dev r 6 Reg.INJ_RING_CPL_PROD + 2 ^ 32 - injF s.dev r 5 Reg.INJ_RING_CPL_CONS) % 2 ^ 32 < 2 ^ injF s.dev r 1 Reg.INJ_RING_CPL_LOG2 →
    (injFail s.dev r false h0 els = some (e, c) →
      ∃ t, exec (.pipeline r h0 h1 els data none) s = .next t ∧
        injF t.dev r 3 Reg.INJ_RING_HEAD = (injF s.dev r 3 Reg.INJ_RING_HEAD + n + 1) % 2 ^ 32 ∧
        injF t.dev r 10 Reg.INJ_RING_FAILS = satAdd Reg.INJ_RING_FAILS.w (injF s.dev r 10 Reg.INJ_RING_FAILS) 1) ∧
    (injFail s.dev r false h0 els = none → s.dev.host.injBuf + directWaiting s.dev + injTotal els ≤ 4194304 →
      ∃ t, exec (.pipeline r h0 h1 els data none) s = .next t ∧
        injF t.dev r 3 Reg.INJ_RING_HEAD = (injF s.dev r 3 Reg.INJ_RING_HEAD + n + 1) % 2 ^ 32 ∧
        inQ t.dev (bits h0.toNat 16 9 / 128) 3 = inQ s.dev (bits h0.toNat 16 9 / 128) 3 ++
          [{ newPkt ((List.range (injTotal els)).map fun k => data.getD k 0) (bits h0.toNat 16 9) s.dev.time with fromHost := true }])) ∧
  (∀ s r h0 h1 els data n a, n = bits h0.toNat 0 4 + 1 → els.length = n → bit h0.toNat 4 = true →
    injF s.dev r 1 Reg.INJ_RING_ENABLE = 1 →
    n + 1 ≤ (injF s.dev r 2 Reg.INJ_RING_TAIL + 2 ^ 32 - injF s.dev r 3 Reg.INJ_RING_HEAD) % 2 ^ 32 →
    (injF s.dev r 6 Reg.INJ_RING_CPL_PROD + 2 ^ 32 - injF s.dev r 5 Reg.INJ_RING_CPL_CONS) % 2 ^ 32 < 2 ^ injF s.dev r 1 Reg.INJ_RING_CPL_LOG2 →
    injFail s.dev r true h0 els = none → s.dev.host.injBuf + directWaiting s.dev + injTotal els ≤ 4194304 →
    a = queuePort (bumpWrap s.dev (Reg.INJ_RING r 3) Reg.INJ_RING_HEAD (n + 1)) (bits h0.toNat 48 16) / 128 →
    ∃ p, exec (.direct r h0 h1 els data none) s = .next (commit s
        (voqPush (bumpWrap s.dev (Reg.INJ_RING r 3) Reg.INJ_RING_HEAD (n + 1)) a a p)) ∧
      p.frame = ((List.range (injTotal els)).map fun k => data.getD k 0) ∧ pcGet p Pc.egressQueue = bits h0.toNat 48 16 ∧
      pcGet p Pc.disposition = 1)

/-- R493, R494, while the control island runs and no access of the port is in progress: a WRITE frame of 112 edges whose CRC-8 fits performs the
write as master 4 and reports REJECTED when it was rejected; a frame with a wrong CRC, or a wrong number of edges, performs nothing and is
counted; a READ_ADDR latches the register, READ_DATA drives the latched value, the status byte and their CRC after one byte of zeros; STATUS
drives the status byte and its CRC; a select held low for more than 1 ms is a TIMEOUT, and an unknown command byte is UNKNOWN_CMD. The CRC-8 of
the nine ASCII digits 1 to 9 is 0xF4.
What rests on the model's own reading or choice in it is logged in notes/assumptions: 114. -/
def Obligations.SpiSlave : Prop :=
  crc8 [0x31, 0x32, 0x33, 0x34, 0x35, 0x36, 0x37, 0x38, 0x39] = 0xF4 ∧
  (∀ s off v, ctlReset s.dev = false → s.dev.host.spisBusy = false →
    (regWriteR s.mem s.dev 4 (off % 2 ^ 32) v).1 = 1 →
    ∃ t, exec (.spisWrite off v (crc8 ([0x02] ++ beBytes 4 off ++ beBytes 8 v.toNat)) 112) s = .next t ∧ t.dev.host.spisResult = 5 ∧
      t.dev.flt = (regWriteR s.mem s.dev 4 (off % 2 ^ 32) v).2.flt) ∧
  (∀ s off v, ctlReset s.dev = false → s.dev.host.spisBusy = false →
    (regWriteR s.mem s.dev 4 (off % 2 ^ 32) v).1 = 0 →
    ∃ t, exec (.spisWrite off v (crc8 ([0x02] ++ beBytes 4 off ++ beBytes 8 v.toNat)) 112) s = .next t ∧ t.dev.host.spisResult = 0 ∧
      ∀ o, o ≠ Reg.SPIS_CNT → o ≠ Reg.SPIS_STATUS → rd t.dev o = rd (regWriteR s.mem s.dev 4 (off % 2 ^ 32) v).2 o) ∧
  (∀ s off v crc edges, ctlReset s.dev = false → s.dev.host.spisBusy = false →
    (edges ≠ 112 ∨ crc % 256 ≠ crc8 ([0x02] ++ beBytes 4 off ++ beBytes 8 v.toNat)) →
    ∃ t, exec (.spisWrite off v crc edges) s = .next t ∧ t.dev.host.spisResult = (if edges ≠ 112 then 2 else 1) ∧
      (∀ o, o ≠ Reg.SPIS_CNT → o ≠ Reg.SPIS_STATUS → rd t.dev o = rd s.dev o) ∧
      rdF t.dev Reg.SPIS_STATUS Reg.SPIS_STATUS_COUNT = satAdd Reg.SPIS_STATUS_COUNT.w (rdF s.dev Reg.SPIS_STATUS Reg.SPIS_STATUS_COUNT) 1) ∧
  (∀ s off, ctlReset s.dev = false → s.dev.host.spisBusy = false →
    ∃ t, exec (.spisReadAddr off (crc8 ([0x03] ++ beBytes 4 off)) 48) s = .next t ∧ t.dev.host.spisResult = 0 ∧
      t.dev.host.spisLatch = (regRead s.dev 4 (off % 2 ^ 32)).1) ∧
  (∀ s, ctlReset s.dev = false → s.dev.host.spisBusy = false → s.dev.host.spisResult < 128 →
    ∃ t, exec (.spisReadData 88) s = .next t ∧ t.dev.host.spisOut = [0x00] ++ beBytes 8 s.dev.host.spisLatch.toNat ++
      [BitVec.ofNat 8 s.dev.host.spisResult,
       BitVec.ofNat 8 (crc8 (beBytes 8 s.dev.host.spisLatch.toNat ++ [BitVec.ofNat 8 s.dev.host.spisResult]))] ∧
      t.dev.host.spisResult = s.dev.host.spisResult) ∧
  (∀ s, ctlReset s.dev = false → s.dev.host.spisBusy = false →
    ∃ t, exec (.spisStatus 24) s = .next t ∧ t.dev.host.spisOut = [0x00, BitVec.ofNat 8 s.dev.host.spisResult,
      BitVec.ofNat 8 (crc8 [0x05, BitVec.ofNat 8 s.dev.host.spisResult])]) ∧
  (∀ s, ctlReset s.dev = false → ∃ t, exec .spisSelectTimeout s = .next t ∧ t.dev.host.spisResult = 6) ∧
  (∀ s cmd edges, ctlReset s.dev = false → cmd < 256 → cmd ≠ 2 → cmd ≠ 3 → cmd ≠ 5 → cmd ≠ 0x0B → edges % 8 = 0 →
    ∃ t, exec (.spisUnknownCmd cmd edges) s = .next t ∧ t.dev.host.spisResult = 3)

/-- R495 to R497, R500: a byte sent enters the transmit FIFO when it holds fewer than 64, and a write is rejected when it is full; a good
character without parity enters the receive FIFO, one that finds 64 bytes there is lost and counted, one whose stop bit is low is counted as a
framing error; a break is counted once. A transaction of SPIM_CMD with a legal ADDR_BYTES outside the boot ROM's stages is BUSY; one
while a transaction runs is rejected with RESULT 2; when it completes BUSY falls with RESULT 0.
What rests on the model's own reading or choice in it is logged in notes/assumptions: 30, 109 and 113. -/
def Obligations.UartAndSpim : Prop :=
  (∀ s agent x, WriteReaches s.dev agent Reg.UART_DATA (BitVec.ofNat 64 (x : Byte).toNat) →
    FieldsInRange Reg.UART_DATA (BitVec.ofNat 64 x.toNat) →
    (s.dev.host.uartTx.length < 64 → ∃ t, exec (.uartSend agent x) s = .next t ∧ t.dev.host.uartTx = s.dev.host.uartTx ++ [x]) ∧
    (64 ≤ s.dev.host.uartTx.length →
      ∃ t, exec (.uartSend agent x) s = .next t ∧ t.dev.host.uartTx = s.dev.host.uartTx ∧ ∀ o, o ≠ Reg.HOST_REJECT → rd t.dev o = rd s.dev o)) ∧
  (∀ s (x : Byte) idle, ctlReset s.dev = false → flagF s.dev Reg.UART_CFG Reg.UART_CFG_ENABLE = true → s.dev.host.uartBreak = false →
    rdF s.dev Reg.UART_CFG Reg.UART_CFG_PARITY = 0 →
    (s.dev.host.uartRx.length < 64 →
      ∃ t, exec (.uartRxCharacter ([0] ++ ((List.range 8).map fun i => if bit x.toNat i then 7 else 0) ++ [7]) false idle false) s = .next t ∧
        t.dev.host.uartRx = s.dev.host.uartRx ++ [x] ∧ t.dev.regs = s.dev.regs) ∧
    (64 ≤ s.dev.host.uartRx.length →
      ∃ t, exec (.uartRxCharacter ([0] ++ ((List.range 8).map fun i => if bit x.toNat i then 7 else 0) ++ [7]) false idle false) s = .next t ∧
        t.dev.host.uartRx = s.dev.host.uartRx ∧ rdF t.dev Reg.UART_STATUS Reg.UART_STATUS_OVERRUN =
          satAdd Reg.UART_STATUS_OVERRUN.w (rdF s.dev Reg.UART_STATUS Reg.UART_STATUS_OVERRUN) 1) ∧
    (∃ t, exec (.uartRxCharacter ([0] ++ ((List.range 8).map fun i => if bit x.toNat i then 7 else 0) ++ [0]) false idle false) s = .next t ∧
        t.dev.host.uartRx = s.dev.host.uartRx ∧ rdF t.dev Reg.UART_STATUS Reg.UART_STATUS_FRAMING =
          satAdd Reg.UART_STATUS_FRAMING.w (rdF s.dev Reg.UART_STATUS Reg.UART_STATUS_FRAMING) 1)) ∧
  (∀ s t restart, ctlReset s.dev = false → flagF s.dev Reg.UART_CFG Reg.UART_CFG_ENABLE = true →
    ∃ t', exec (.uartRxCharacter t restart true true) s = .next t' ∧ t'.dev.host.uartBreak = true ∧
      rdF t'.dev Reg.UART_STATUS Reg.UART_STATUS_BREAKS = satAdd Reg.UART_STATUS_BREAKS.w (rdF s.dev Reg.UART_STATUS Reg.UART_STATUS_BREAKS) 1) ∧
  (∀ s agent v, WriteReaches s.dev agent Reg.SPIM_CMD v → FieldsInRange Reg.SPIM_CMD v → s.dev.rst.lb = none →
    rdF s.dev Reg.BOOT_STATUS Reg.BOOT_STATUS_STAGE = 3 → (getF v Reg.SPIM_CMD_ADDR_BYTES = 0 ∨ getF v Reg.SPIM_CMD_ADDR_BYTES = 3) →
    (flagF s.dev Reg.SPIM_STATUS Reg.SPIM_STATUS_BUSY = false →
      ∃ t, exec (.spimTransaction agent v) s = .next t ∧ flagF t.dev Reg.SPIM_STATUS Reg.SPIM_STATUS_BUSY = true ∧
        rd t.dev Reg.SPIM_CMD = stored s.dev Reg.SPIM_CMD v) ∧
    (flagF s.dev Reg.SPIM_STATUS Reg.SPIM_STATUS_BUSY = true →
      ∃ t, exec (.spimTransaction agent v) s = .next t ∧ rdF t.dev Reg.SPIM_STATUS Reg.SPIM_STATUS_RESULT = 2 ∧
        rd t.dev Reg.SPIM_CMD = rd s.dev Reg.SPIM_CMD)) ∧
  (∀ s, flagF s.dev Reg.SPIM_STATUS Reg.SPIM_STATUS_BUSY = true →
    ∃ t, exec (.commandCompletion 11) s = .next t ∧ flagF t.dev Reg.SPIM_STATUS Reg.SPIM_STATUS_BUSY = false ∧
      rdF t.dev Reg.SPIM_STATUS Reg.SPIM_STATUS_RESULT = 0)

/-- R498, R515: each instruction selects its register, IDCODE and the reset of the test logic the identification of the device; SAMPLE/PRELOAD and
EXTEST shift their cells in, and what they capture is a free value (the model's choice: the spec states none); CSR_ACCESS reads a register or
writes it as master 13; where the debug-lock fuse is blown it accesses nothing. JTAG touches no register otherwise.
What rests on the model's own reading or choice in it is logged in notes/assumptions: 115. -/
def Obligations.Jtag : Prop :=
  (∀ s c, c = .jtagIdcode ∨ c = .testLogicReset →
    ∃ t, exec c s = .next t ∧ t.dev.host.jtagIr = 1 ∧ t.dev.regs = s.dev.regs ∧
      t.dev.host.jtagDr = if s.dev.fuses.half then 0x162564B7 else 0x165124B7) ∧
  (∀ s c ir, (c, ir) ∈ [(Instr.jtagClamp, 4), (.jtagHighz, 5), (.jtagBypass, 0xFF)] →
    ∃ t, exec c s = .next t ∧ t.dev.host.jtagIr = ir ∧ t.dev.host.jtagDr = 0 ∧ t.dev.regs = s.dev.regs) ∧
  (∀ s x c ir, (c, ir) ∈ [(Instr.jtagSamplePreload x, 2), (.jtagExtest x, 3)] →
    ∃ t, exec c s = .next t ∧ t.dev.host.jtagIr = ir ∧ t.dev.host.jtagBsr = x ∧ t.dev.regs = s.dev.regs) ∧
  (∀ s op off v, s.dev.fuses.debugLock = true →
    ∃ t, exec (.jtagCsrAccess op off v) s = .next t ∧ t.dev.host.jtagDr = 0 ∧ t.dev.regs = s.dev.regs ∧ t.dev.flt = s.dev.flt ∧ t.mem = (commit s s.dev).mem) ∧
  (∀ s off v, s.dev.fuses.debugLock = false →
    (∃ t, exec (.jtagCsrAccess 1 off v) s = .next t ∧ t.dev.host.jtagDr = (regRead s.dev 13 (off % 2 ^ 32)).1.toNat ∧
      t.dev.regs = (regRead s.dev 13 (off % 2 ^ 32)).2.regs) ∧
    (∃ t, exec (.jtagCsrAccess 2 off v) s = .next t ∧ t.dev.regs = (regWrite 13 (off % 2 ^ 32) v s.mem s.dev).regs)) ∧
  (∀ s v, s.dev.fuses.debugLock = false → ctlReset s.dev = false → flagF s.dev Reg.FAULT_INJECT Reg.FAULT_INJECT_PENDING = false →
    ∃ t, exec (.jtagCsrAccess 2 Reg.RIND_CMD v) s = .next t ∧ t.dev.rind = s.dev.rind ∧
      (∀ o, o ≠ Reg.RIND_HEALTH → rd t.dev o = rd s.dev o))

/-- R503 to R506: a tally while a record write is BUSY, or in a warm reset, is missed and counted; another takes every word of the dump list as
its peek alias reads and begins a record, with DUMP_SEQ advanced and no clearing; DUMP_TALLY.NOW asks for an extra tally at the first multiple
of 1 µs at least 2 µs ahead; a record written to host memory makes its writes in order, the first with an invalid first word and the last
with a valid one, and BUSY falls; a write that ends with an error ends the record, raises DMA_ERR and counts in FAILED.
What rests on the model's own reading or choice in it is logged in notes/assumptions: 117 and 118. -/
def Obligations.TallyAndDump : Prop :=
  (∀ s, dumpOn s.dev = true → (s.dev.rst.warm = true ∨ flagF s.dev Reg.DUMP_STATUS Reg.DUMP_STATUS_BUSY = true) →
    ∃ t, exec .tally s = .next t ∧ rdF t.dev Reg.DUMP_STATUS Reg.DUMP_STATUS_MISSED =
      satAdd Reg.DUMP_STATUS_MISSED.w (rdF s.dev Reg.DUMP_STATUS Reg.DUMP_STATUS_MISSED) 1 ∧ rd t.dev Reg.DUMP_SEQ = rd s.dev Reg.DUMP_SEQ ∧
      t.dev.perf.record = s.dev.perf.record) ∧
  (∀ s, dumpOn s.dev = true → s.dev.rst.warm = false → ctlReset s.dev = false → flagF s.dev Reg.DUMP_STATUS Reg.DUMP_STATUS_BUSY = false →
    ∃ t, exec .tally s = .next t ∧ flagF t.dev Reg.DUMP_STATUS Reg.DUMP_STATUS_BUSY = true ∧ rd t.dev Reg.DUMP_SEQ = rd s.dev Reg.DUMP_SEQ + 1 ∧
      (t.dev.perf.record.map fun r => r.2.2) = some ((dumpOffsets s.dev).map fun o => (tallyWord s.dev o).1) ∧
      (∀ o, o ≠ Reg.DUMP_STATUS → o ≠ Reg.DUMP_SEQ → rd t.dev o = rd s.dev o)) ∧
  (∀ s agent, WriteReaches s.dev agent Reg.DUMP_TALLY (setF 0 Reg.DUMP_TALLY_NOW 1) →
    ∃ t n, exec (.tallyNow agent) s = .next t ∧ t.dev.perf.now = some (1000 * n) ∧ s.dev.time + 2000 ≤ 1000 * n ∧ 1000 * n < s.dev.time + 3000) ∧
  (∀ s head part data, s.dev.perf.record = some (head, part, data) → rdF s.dev Reg.DUMP_CTRL Reg.DUMP_CTRL_DEST = 0 → s.dev.writes = [] →
    ∃ base l, base = (rd s.dev Reg.DUMP_BASE).toNat +
        ((head.getD 0 0).toNat % 2 ^ rdF s.dev Reg.DUMP_CTRL Reg.DUMP_CTRL_LOG2_SLOTS) * dumpStride data.length ∧
      l = recordWrites base s.dev.time head part data ∧
      (∃ t, exec (.dumpRecordWrite none) s = .next t ∧ t.mem = (l.map fun x => ⟨spHost, x.1, x.2⟩).foldl applyWrite s.mem ∧
        flagF t.dev Reg.DUMP_STATUS Reg.DUMP_STATUS_BUSY = false ∧ t.dev.perf.record = none) ∧
      (∀ k, k < l.length → ∃ t, exec (.dumpRecordWrite (some k)) s = .next t ∧
        t.mem = ((l.take k).map fun x => ⟨spHost, x.1, x.2⟩).foldl applyWrite s.mem ∧ t.dev.perf.record = none ∧
        rdF t.dev Reg.DUMP_STATUS Reg.DUMP_STATUS_FAILED = satAdd Reg.DUMP_STATUS_FAILED.w (rdF s.dev Reg.DUMP_STATUS Reg.DUMP_STATUS_FAILED) 1)) ∧
  (∀ base done head part data, ∃ rest, recordWrites base done head part data =
    (base, leBytes 8 (recordW0 part false)) :: rest ∧ rest.getLast? = some (base, leBytes 8 (recordW0 part true)))

/-- R342, R361: a frame that arrives on a port in UP, RETRAIN or FALLBACK is dropped under the first of its rules that applies: an uncorrectable
codeword, a bad preamble, SFD or control character, fewer than 64 B, more than MAX_FRAME, a wrong FCS, a MAC control frame
that is no PFC frame; a port in another state drops nothing and takes nothing. R214, R343: a frame that passes MACsec into an acre that is
present, outside headland and with no injection pending, waits for Harrow in rank 4 of that acre without its FCS, with its port, priority and time stamp.
What rests on the model's own reading or choice in it is logged in notes/assumptions: 73. -/
def Obligations.FrameReceive : Prop :=
  (∀ s p w uncorr bad, portState s.dev p ≠ 3 → portState s.dev p ≠ 4 → portState s.dev p ≠ 5 →
    exec (.frameReceive p w uncorr bad) s = .next (commit s s.dev)) ∧
  (∀ s p w uncorr bad code, p < portCount s.dev → (portState s.dev p = 3 ∨ portState s.dev p = 4 ∨ portState s.dev p = 5) →
    code = (if uncorr then 4 else if bad then 3 else if w.length < 64 then 1
      else if modeF s.dev p Reg.PORT_MODE_MAX_FRAME < w.length then 2
      else if withFcs (w.take (w.length - 4)) ≠ w then 0
      else if beNat ((w.drop 12).take 2) = 0x8808 ∧ beNat ((w.drop 14).take 2) ≠ 0x0101 then 6 else 8) → code ≠ 8 →
    exec (.frameReceive p w uncorr bad) s = .next (commit s (stripDrop s.dev p code))) ∧
  (∀ s p f g d, p < portCount s.dev → (portState s.dev p = 3 ∨ portState s.dev p = 4 ∨ portState s.dev p = 5) →
    60 ≤ f.length → f.length + 4 ≤ modeF s.dev p Reg.PORT_MODE_MAX_FRAME → beNat ((f.drop 12).take 2) ≠ 0x8808 →
    isPdelay s.dev p f = false → stagingUsed s.dev (pS p) + modeF s.dev p Reg.PORT_MODE_MAX_FRAME ≤ stagingSize →
    macsecRx s.dev p f = (.ok g, d) → exec (.frameReceive p (withFcs f) false false) s = .next (commit s (stripAdmit d p g))) ∧
  (∀ d p g, acreUp d (p / 128) = true → flagF d Reg.FAULT_INJECT Reg.FAULT_INJECT_PENDING = false → rdF d (ppReg p (framePrio d p g)) Reg.PP_STATUS_STATE ≠ 2 →
    ∃ x, inQ (stripAdmit d p g) (p / 128) 4 = inQ d (p / 128) 4 ++ [x] ∧ x.frame = g ∧ inPort x = p % 512 ∧ x.prio = framePrio d p g ∧
      x.rxTime = d.time ∧ x.rxLen = g.length + 4) ∧
  (∀ d p g, acreUp d (p / 128) = false → stripAdmit d p g = bump d (Reg.RSTC_DROP 1))

/-- R277, R297, R339, R347: on an UP port the strip sends a PFC frame ahead of the port's packets, but for those already selected with a launch
time up to its own, and a packet otherwise; on a port with an enabled gate each waits for its stored launch time. The frame
leaves on the wire padded to 60 B and followed by its FCS, after MACsec for a packet, and leaves its queue; when the port is not UP a
frame is discarded under code 7 of R361. A port with nothing to send, or whose next frame waits, is left as it is.
What rests on the model's own reading or choice in it is logged in notes/assumptions: 162. -/
def Obligations.FrameTransmit : Prop :=
  (∀ s p f x t, (getPort s.dev p).pfcQ = (f, x) :: t → portState s.dev p = 3 → selectedBefore s.dev p x = false →
    (launchWaits s.dev p x = false →
      ∃ d, exec (.frameTransmit p) s = .next (commit s d) ∧ d.strip.wire = s.dev.strip.wire ++ [(p, withFcs (padFrame f))] ∧
        (getPort d p).pfcQ = t ∧ (getPort d p).txQ = (getPort s.dev p).txQ) ∧
    (launchWaits s.dev p x = true → exec (.frameTransmit p) s = .next (commit s s.dev))) ∧
  (∀ s p f x t, (getPort s.dev p).pfcQ = (f, x) :: t → portState s.dev p ≠ 3 →
    exec (.frameTransmit p) s = .next (commit s (stripDrop (putPort s.dev p { getPort s.dev p with pfcQ := t }) p 7))) ∧
  (∀ s p k t, (getPort s.dev p).pfcQ = [] ∨ (∃ f x u, (getPort s.dev p).pfcQ = (f, x) :: u ∧ selectedBefore s.dev p x = true) →
    (getPort s.dev p).txQ = k :: t → portState s.dev p = 3 → flagF s.dev Reg.FAULT_INJECT Reg.FAULT_INJECT_PENDING = false →
    (∀ f d, launchWaits s.dev p k.launch = false → macsecTx (putPort s.dev p { getPort s.dev p with txQ := t }) p k.frame = (.ok f, d) →
      ∃ e, exec (.frameTransmit p) s = .next (commit s e) ∧ e.strip.wire = d.strip.wire ++ [(p, withFcs (padFrame f))] ∧
        (getPort e p).txQ = (getPort d p).txQ) ∧
    (launchWaits s.dev p k.launch = true → exec (.frameTransmit p) s = .next (commit s s.dev))) ∧
  (∀ s p k t, (getPort s.dev p).pfcQ = [] → (getPort s.dev p).txQ = k :: t → portState s.dev p ≠ 3 →
    exec (.frameTransmit p) s = .next (commit s (txDrop (putPort s.dev p { getPort s.dev p with txQ := t }) p k))) ∧
  (∀ s p, (getPort s.dev p).pfcQ = [] → (getPort s.dev p).txQ = [] → exec (.frameTransmit p) s = .next (commit s s.dev)) ∧
  (∀ d p t0, launchWaits d p t0 = true ↔ portState d p = 3 ∧ (getGate d p).op.enable = true ∧ d.time * tick < t0) ∧
  (∀ f : List Byte, (withFcs f).length = f.length + 4 ∧ 60 ≤ (padFrame f).length ∧ (padFrame f).take f.length = f)

/-- R233, R344, R345, R357: a received PFC frame sets the pause bit of each enabled priority to whether its quanta are not 0, and leaves the others; a
pause that runs out clears its bit; on an UP port a change of lossless priorities, and the refresh of PAUSED ones, schedules one PFC frame
with the quanta of every PAUSED priority; nothing is sent when no change waits. A peer-delay request leaves an UP, enabled port under the
next sequenceId, and one without a complete response in 10 ms is counted and ended. A priority is PAUSED when its
cells reach XOFF and OPEN again when they are down to XON, each a change for the strip, and otherwise as it was; PFC_CFG makes it OPEN or LOSSY.
What rests on the model's own reading or choice in it is logged in notes/assumptions: 75, 76 and 134. -/
def Obligations.PfcAndPeerDelay : Prop :=
  (∀ d p f c, c < 8 → p < 512 → bit (rd (pfcConsume d p f) (Reg.PFC_RX_STATE (pS p) (pQ p))).toNat c =
    if bit (byteAt f 17) c then decide (beNat ((f.drop (18 + 2 * c)).take 2) ≠ 0)
    else bit (rd d (Reg.PFC_RX_STATE (pS p) (pQ p))).toNat c) ∧
  (∀ s p w, p < portCount s.dev → portState s.dev p = 3 → 64 ≤ w.length → w.length ≤ modeF s.dev p Reg.PORT_MODE_MAX_FRAME →
    withFcs (w.take (w.length - 4)) = w → beNat ((w.drop 12).take 2) = 0x8808 → beNat ((w.drop 14).take 2) = 0x0101 →
    exec (.frameReceive p w false false) s = .next (commit s (pfcConsume s.dev p (w.take (w.length - 4))))) ∧
  (∀ s p c, c < 8 → ∃ t, exec (.pauseExpiry p c) s = .next t ∧
    bit (rd t.dev (Reg.PFC_RX_STATE (pS p) (pQ p))).toNat c = false ∧ spGet (fun _ => 0) (getPort t.dev p).pause c = 0) ∧
  (∀ s p, spGet (fun _ => 0) s.dev.pfcDirty p = 0 → exec (.pfcFrameBuild p) s = .next (commit s s.dev)) ∧
  (∀ s p c, c < 8 → spGet (fun _ => 0) s.dev.pfcDirty p ≠ 0 → portState s.dev p = 3 → ppPaused s.dev p c = true →
    ∃ t f x, exec (.pfcFrameBuild p) s = .next t ∧ (getPort t.dev p).pfcQ = (getPort s.dev p).pfcQ ++ [(f, x)] ∧
      spGet (fun _ => 0) t.dev.pfcDirty p = 0 ∧ bit (byteAt f 17) c = true) ∧
  (∀ s p c, c < 8 → portState s.dev p = 3 → ppPaused s.dev p c = true →
    ∃ t f x, exec (.pfcRefresh p) s = .next t ∧ (getPort t.dev p).pfcQ = (getPort s.dev p).pfcQ ++ [(f, x)] ∧ bit (byteAt f 17) c = true) ∧
  (∀ s p, portState s.dev p = 3 → pdF s.dev p Reg.PDELAY_CFG_EN = 1 →
    ∃ t, exec (.pdelayRequest p) s = .next t ∧ (getPort t.dev p).pdReq = some ((getPort s.dev p).pdSeq, s.dev.time) ∧
      (getPort t.dev p).pdSeq = ((getPort s.dev p).pdSeq + 1) % 65536 ∧ t.dev.strip.wire.length = s.dev.strip.wire.length + 1) ∧
  (∀ s p r, p < 512 → (getPort s.dev p).pdReq = some r →
    ∃ t, exec (.pdelayTimeout p) s = .next t ∧ (getPort t.dev p).pdReq = none ∧
      rdF t.dev (Reg.PDELAY_STATUS (pS p) (pQ p)) Reg.PDELAY_STATUS_TIMEOUTS =
        satAdd Reg.PDELAY_STATUS_TIMEOUTS.w (rdF s.dev (Reg.PDELAY_STATUS (pS p) (pQ p)) Reg.PDELAY_STATUS_TIMEOUTS) 1) ∧
  (∀ d p c, p < 512 → c < 8 → rdF (evalPp d p c) (ppReg p c) Reg.PP_STATUS_STATE =
    if rdF d (ppReg p c) Reg.PP_STATUS_STATE = 1 ∧
      rdF d (Reg.PFC_CFG p c) Reg.PFC_CFG_XOFF_CELLS ≤ rdF d (ppReg p c) Reg.PP_STATUS_IPC then 2
    else if rdF d (ppReg p c) Reg.PP_STATUS_STATE = 2 ∧ rdF d (ppReg p c) Reg.PP_STATUS_IPC +
      rdF d (ppReg p c) Reg.PP_STATUS_HL_USED ≤ rdF d (Reg.PFC_CFG p c) Reg.PFC_CFG_XON_CELLS then 1
    else rdF d (ppReg p c) Reg.PP_STATUS_STATE) ∧
  (∀ d p c, p < 512 → c < 8 → rdF (evalPp d p c) (ppReg p c) Reg.PP_STATUS_STATE ≠ rdF d (ppReg p c) Reg.PP_STATUS_STATE →
    bit (spGet (fun _ => 0) (evalPp d p c).pfcDirty p) c = true) ∧
  (∀ d p c, rdF (ppConfigure d p c) (ppReg p c) Reg.PP_STATUS_STATE =
    if flagF d (Reg.PFC_CFG p c) Reg.PFC_CFG_LOSSLESS then max 1 (rdF d (ppReg p c) Reg.PP_STATUS_STATE) else 0)

/-- R340, R346 to R349, for a port p of the part whose frames at the strip name inject rings that exist: the configured mode resolved in clause 73 begins TRAIN;
success of an attempt of a port that holds its engine enters UP; a budget runs only while every lane detects a signal, and a spent one moves TRAIN and RETRAIN to FALLBACK with its first entry, and to
WITHDRAWN when the list is empty; loss of lock past the hold-off, and an error window past a limit, move UP to RETRAIN and a window
within the limits only counts; a withdrawn port is retried with its configured mode; an exchange without a compatible mode is counted; a change
of signal detect is shown in every state but FALLOW.
What rests on the model's own reading or choice in it is logged in notes/assumptions: 77. -/
def Obligations.PortStates : Prop :=
  (∀ s p, p < 512 → portState s.dev p = 1 →
    ∃ t, exec (.anResolved p) s = .next t ∧ portState t.dev p = 2 ∧ (getPort t.dev p).waiting = true) ∧
  (∀ s p, portState s.dev p = 1 → exec (.anExchangeFailed p) s = .next (commit s (stripCnt s.dev p 15 1))) ∧
  (∀ s p, p < 512 → (portState s.dev p = 2 ∨ portState s.dev p = 4 ∨ portState s.dev p = 5) → (getPort s.dev p).waiting = false →
    ∃ t, exec (.trainingSuccess p) s = .next t ∧ portState t.dev p = 3) ∧
  (∀ s p, portState s.dev p = 2 ∨ portState s.dev p = 4 ∨ portState s.dev p = 5 → stF s.dev p Reg.PORT_STATE_SIGNAL = 0 →
    exec (.budgetSpent p) s = .next (commit s s.dev)) ∧
  (∀ s p, p < 512 → portState s.dev p = 2 → stF s.dev p Reg.PORT_STATE_SIGNAL = 1 → attemptMode s.dev p 1 ≠ 0 →
    ∃ t, exec (.budgetSpent p) s = .next t ∧ portState t.dev p = 5 ∧ (getPort t.dev p).attempt = 1) ∧
  (∀ s p, p < 512 → (portState s.dev p = 2 ∨ portState s.dev p = 4) → stF s.dev p Reg.PORT_STATE_SIGNAL = 1 → attemptMode s.dev p 1 = 0 →
    ∃ t, exec (.budgetSpent p) s = .next t ∧ portState t.dev p = 6) ∧
  (∀ s p remote, p < 512 → portState s.dev p = 3 → (∀ k ∈ (getPort s.dev p).txQ, ∀ x, k.inject = some x → x.1 < 16) →
    ∃ t, exec (.lockLossHoldoff p remote) s = .next t ∧ portState t.dev p = 4 ∧ (getPort t.dev p).txQ = [] ∧ (getPort t.dev p).pfcQ = []) ∧
  (∀ s p u c l, p < 512 → portState s.dev p = 3 → (∀ k ∈ (getPort s.dev p).txQ, ∀ x, k.inject = some x → x.1 < 16) →
    rdF s.dev (Reg.LINK_CFG (pS p) (pQ p)) Reg.LINK_CFG_UNCORR_LIMIT < u →
    ∃ t, exec (.errorWindowEnd p u c l) s = .next t ∧ portState t.dev p = 4) ∧
  (∀ s p u c, p < 512 → u ≤ rdF s.dev (Reg.LINK_CFG (pS p) (pQ p)) Reg.LINK_CFG_UNCORR_LIMIT →
    ∃ t, exec (.errorWindowEnd p u c []) s = .next t ∧ (∀ q, portState t.dev q = portState s.dev q) ∧
      rd t.dev (Reg.STRIP_CNT (pS p) (pQ p) 7) = rd s.dev (Reg.STRIP_CNT (pS p) (pQ p) 7) + BitVec.ofNat 64 u) ∧
  (∀ s p, portState s.dev p = 6 → stF s.dev p Reg.PORT_STATE_RETRYING = 0 →
    ∃ t, exec (.withdrawRetry p) s = .next t ∧ portState t.dev p = 6 ∧ stF t.dev p Reg.PORT_STATE_RETRYING = 1 ∧
      (getPort t.dev p).attempt = 0 ∧ (getPort t.dev p).waiting = true) ∧
  (∀ s p all,
    (portState s.dev p ≠ 7 → ∃ t, exec (.signalDetectChange p all) s = .next t ∧ stF t.dev p Reg.PORT_STATE_SIGNAL = b2n all ∧
      portState t.dev p = portState s.dev p ∧ ∀ o, o ≠ stateReg p → rd t.dev o = rd s.dev o) ∧
    (portState s.dev p = 7 → exec (.signalDetectChange p all) s = .next (commit s s.dev)))

/-- R338, R351, R354, R355, R360, R439: a free engine takes a waiting port of its strip, and does nothing before the engines start; the sixteenth
lane update of an engine ends a pass; a write of PORT_MODE that changes the mode of an enabled port is rejected, and one that disables a port takes
it DOWN; the lowest group whose rewrite is due leaves the list and is counted, and a rewrite that is no
longer to be made leaves it unmade; a strip whose ports are all disabled enters fallow with its
PLLs unlocked, and one with an enabled port does not; PLLs that lock end fallow with the ports DOWN, and PLLs that lose lock outside fallow raise
PLL_UNLOCK.
What rests on the model's own reading or choice in it is logged in notes/assumptions: 74 and 169. -/
def Obligations.StripControl : Prop :=
  (∀ s n e, s.dev.strip.enginesOn = false → exec (.engineAssign n e) s = .next (commit s s.dev)) ∧
  (∀ s n e p, s.dev.strip.enginesOn = true → e < 4 → n < stripCount s.dev → rdF s.dev (Reg.ENGINE_STATUS n e) Reg.ENGINE_STATUS_TASK = 0 →
    p / 64 = n → (getPort s.dev p).waiting = true → portState s.dev p = 4 →
    (∀ q, q / 64 = n → q < p → ¬ ((getPort s.dev q).waiting = true ∧ portState s.dev q = 4)) →
    ∃ t, exec (.engineAssign n e) s = .next t ∧ rdF t.dev (Reg.ENGINE_STATUS n e) Reg.ENGINE_STATUS_TASK = 2 ∧
      stF t.dev p Reg.PORT_STATE_ENGINE = e ∧ (getPort t.dev p).waiting = false) ∧
  (∀ s n e, s.dev.strip.enginesOn = true → e < 4 → spGet (fun _ => 0) s.dev.strip.adapt (4 * n + e) = 15 →
    ∃ t, exec (.laneAdapt n e) s = .next t ∧ spGet (fun _ => 0) t.dev.strip.adapt (4 * n + e) = 0 ∧
      rdF t.dev (Reg.ENGINE_STATUS n e) Reg.ENGINE_STATUS_ADAPT_PASSES =
        satAdd Reg.ENGINE_STATUS_ADAPT_PASSES.w (rdF s.dev (Reg.ENGINE_STATUS n e) Reg.ENGINE_STATUS_ADAPT_PASSES) 1) ∧
  (∀ s agent n q v, n < 8 → q < 64 → WriteReaches s.dev agent (Reg.PORT_MODE n q) v → FieldsInRange (Reg.PORT_MODE n q) v →
    flagF s.dev Reg.FAULT_INJECT Reg.FAULT_INJECT_PENDING = false → flagF s.dev (Reg.STRIP_STATUS n) Reg.STRIP_STATUS_FALLOW = false →
    (portModeOk s.dev (64 * n + q) v = false →
      ∃ t, exec (.portModeWrite agent n q v) s = .next t ∧ ∀ o, o ≠ Reg.HOST_REJECT → rd t.dev o = rd s.dev o) ∧
    (portModeOk s.dev (64 * n + q) v = true → getF v Reg.PORT_MODE_ENABLE = 0 →
      (∀ k ∈ (getPort s.dev (64 * n + q)).txQ, ∀ x, k.inject = some x → x.1 < 16) →
      ∃ t, exec (.portModeWrite agent n q v) s = .next t ∧ portState t.dev (64 * n + q) = 0 ∧
        modeF t.dev (64 * n + q) Reg.PORT_MODE_SPEED = getF v Reg.PORT_MODE_SPEED)) ∧
  (∀ s g w rest b, (rewritePrune s.dev).strip.rewrite = (g, w) :: rest → flagF s.dev Reg.ORCHARD_STATUS Reg.ORCHARD_STATUS_BUSY = false →
    tbl s.dev (rdF s.dev Reg.AGG_CFG Reg.AGG_CFG_TABLE) = some b →
    ∃ t, exec .groupRewrite s = .next t ∧ t.dev.strip.rewrite = rest ∧
      flagF t.dev Reg.AGG_STATUS Reg.AGG_STATUS_BUSY = !rest.isEmpty) ∧
  (∀ s, flagF s.dev Reg.AGG_CFG Reg.AGG_CFG_EN = false ∨ (∀ e ∈ s.dev.strip.rewrite, flagF s.dev (Reg.AGG_GROUP e.1) Reg.AGG_GROUP_VALID = false) →
    ∃ t, exec .groupRewrite s = .next t ∧ t.dev.strip.rewrite = [] ∧ t.dev.orch = s.dev.orch ∧
      flagF t.dev Reg.AGG_STATUS Reg.AGG_STATUS_BUSY = false) ∧
  (∀ s agent n, n < 8 → WriteReaches s.dev agent (Reg.STRIP_CTRL n) (setF 0 Reg.STRIP_CTRL_FALLOW 1) →
    rdF s.dev (Reg.STRIP_CTRL n) Reg.STRIP_CTRL_FALLOW = 0 →
    ((∀ q, q < 64 → modeF s.dev (64 * n + q) Reg.PORT_MODE_ENABLE ≠ 1) →
      (∀ q, q < 64 → ∀ k ∈ (getPort s.dev (64 * n + q)).txQ, ∀ x, k.inject = some x → x.1 < 16) →
      ∃ t, exec (.stripFallowEnter agent n) s = .next t ∧ flagF t.dev (Reg.STRIP_STATUS n) Reg.STRIP_STATUS_FALLOW = true ∧
        stagingUsed t.dev n = 0 ∧ condPresent t.dev Fk.pllUnlock n = false) ∧
    (∀ q, q < 64 → modeF s.dev (64 * n + q) Reg.PORT_MODE_ENABLE = 1 →
      ∃ t, exec (.stripFallowEnter agent n) s = .next t ∧ ∀ o, o ≠ Reg.HOST_REJECT → rd t.dev o = rd s.dev o)) ∧
  (∀ s agent n, n < 8 → WriteReaches s.dev agent (Reg.STRIP_CTRL n) 0 → rdF s.dev (Reg.STRIP_CTRL n) Reg.STRIP_CTRL_FALLOW = 1 →
    exec (.stripFallowExit agent n) s = .next (commit s (wrF s.dev (Reg.STRIP_CTRL n) Reg.STRIP_CTRL_FALLOW 0))) ∧
  (∀ s n, n < stripCount s.dev → flagF s.dev (Reg.STRIP_CTRL n) Reg.STRIP_CTRL_FALLOW = false →
    (flagF s.dev (Reg.STRIP_STATUS n) Reg.STRIP_STATUS_FALLOW = true → ∀ q, q < 64 → portState s.dev (64 * n + q) = 7) →
    ∃ t, exec (.stripPllLocked n) s = .next t ∧ flagF t.dev (Reg.STRIP_STATUS n) Reg.STRIP_STATUS_PLL_LOCK = true ∧
      condPresent t.dev Fk.pllUnlock n = false) ∧
  (∀ s n, n < stripCount s.dev → flagF s.dev (Reg.STRIP_STATUS n) Reg.STRIP_STATUS_FALLOW = false →
    flagF s.dev (Reg.STRIP_STATUS n) Reg.STRIP_STATUS_PLL_LOCK = true →
    exec (.pllUnlock n) s = .next (commit s (raise (wrF s.dev (Reg.STRIP_STATUS n) Reg.STRIP_STATUS_PLL_LOCK 0) Fk.pllUnlock n 0 0 0)))

/-- R367, R368, R371, R386: while READY is 1, with no injection pending, no rank RETIRED and no earlier request at the HOST port, a BAR2 write
into the usable size stores each of its bytes at its deep-store address, whatever rank serves it, and leaves every other byte of the deep
store, host memory and the flash; a BAR2 read of a range whose bursts all have good check bits answers the bytes stored there with
result 0. A byte is read through the model's `deepByte`, which sees the free-page ring of R260 where it lies.
What rests on the model's own reading or choice in it is logged in notes/assumptions: 157 and 165. -/
def Obligations.DeepContents : Prop :=
  (∀ s off bs a, ctlReset s.dev = false → 0x2000000 ≤ off → off < 0x10000000 → islandOff s.dev 3 = false → s.dev.writes = [] →
    a = (rd s.dev Reg.HOST_BULK_BASE).toNat + (off - 0x2000000) → deepReady s.dev = true → a + bs.length ≤ deepSize s.dev →
    flagF s.dev Reg.FAULT_INJECT Reg.FAULT_INJECT_PENDING = false →
    (∀ k c x, k < 2 → c < 32 → x < 4 → rankState s.dev k c x ≠ 6) → (∀ r ∈ s.dev.deep.reqs, r.port ≠ 5) →
    ∃ t, exec (.bar2Write off bs) s = .next t ∧
      (∀ i, i < bs.length → deepByte t.mem t.dev (a + i) = bs.getD i 0) ∧
      (∀ b, b < a ∨ a + bs.length ≤ b → deepByte t.mem t.dev b = deepByte s.mem s.dev b) ∧
      t.mem.host = s.mem.host ∧ t.mem.flash = s.mem.flash) ∧
  (∀ s off n a, ctlReset s.dev = false → 0x2000000 ≤ off → off < 0x10000000 → islandOff s.dev 3 = false → s.dev.writes = [] →
    a = (rd s.dev Reg.HOST_BULK_BASE).toNat + (off - 0x2000000) → deepReady s.dev = true → a + n ≤ deepSize s.dev →
    flagF s.dev Reg.FAULT_INJECT Reg.FAULT_INJECT_PENDING = false →
    (∀ k c x, k < 2 → c < 32 → x < 4 → rankState s.dev k c x ≠ 6) → (∀ key, ecc s.dev .deep key = 0) →
    (∀ r ∈ s.dev.deep.reqs, r.port ≠ 5) →
    ∃ t, exec (.bar2Read off n) s = .next t ∧ t.dev.host.bar2Ans = (0, (List.range n).map fun i => deepByte s.mem s.dev (a + i)) ∧
      t.mem = s.mem)

/-- R367, R369, R372, R380: INIT starts the power-up once after a cold reset; its success makes the store READY with zeros everywhere and its
usable size shown, and a training failure sets INIT_FAIL, leaves READY at 0 and raises INIT_FAIL; a request before READY is counted in
DEEP_CNT[9] and one beyond the usable size in DEEP_CNT[10] with ADDR_RANGE, and neither waits, a read being answered with zeros; another waits
behind those that wait; a waiting request that times out leaves, is counted and raises REQ_TIMEOUT, a read being returned poisoned; a
DEEP_ACC access that times out answers RESULT 4. DEEP_STORE_REQUEST's operand x names port x mod 8 and the unit x / 8 that asks.
What rests on the model's own reading or choice in it is logged in notes/assumptions: 54, 64 and 165. -/
def Obligations.DeepInitAndRequests : Prop :=
  (∀ s agent, WriteReaches s.dev agent Reg.DEEP_CTRL (setF 0 Reg.DEEP_CTRL_INIT 1) →
    (getF (rd s.dev Reg.DEEP_STATUS) ⟨0, 3⟩ = 0 →
      exec (.deepInit agent) s = .next (commit s (wrF s.dev Reg.DEEP_STATUS Reg.DEEP_STATUS_INIT_BUSY 1))) ∧
    (deepReady s.dev = true → exec (.deepInit agent) s = .next (commit s s.dev))) ∧
  (∀ s fails t0 t1, flagF s.dev Reg.DEEP_STATUS Reg.DEEP_STATUS_INIT_BUSY = true → s.dev.writes = [] →
    ((∀ k, k < stackCount s.dev → bit fails k = false) →
      ∃ t, exec (.deepInitDone fails t0 t1) s = .next t ∧ deepReady t.dev = true ∧ t.mem = { s.mem with deep := [] } ∧
        rdF t.dev Reg.DEEP_STATUS Reg.DEEP_STATUS_USABLE_GIB = deepSize s.dev / 2 ^ 30 ∧
        flagF t.dev Reg.DEEP_STATUS Reg.DEEP_STATUS_INIT_BUSY = false) ∧
    ((∃ k, k < stackCount s.dev ∧ bit fails k = true) →
      ∃ t, exec (.deepInitDone fails t0 t1) s = .next t ∧ flagF t.dev Reg.DEEP_STATUS Reg.DEEP_STATUS_INIT_FAIL = true ∧
        flagF t.dev Reg.DEEP_STATUS Reg.DEEP_STATUS_INIT_BUSY = false ∧ deepReady t.dev = deepReady s.dev ∧ t.mem = s.mem ∧
        t.dev.flt = (((List.range (stackCount s.dev)).filter (bit fails)).foldl (fun d k => raise d Fk.initFail (128 * k) 0 0 0) s.dev).flt)) ∧
  (∀ s fails t0 t1, flagF s.dev Reg.DEEP_STATUS Reg.DEEP_STATUS_INIT_BUSY = false →
    exec (.deepInitDone fails t0 t1) s = .next (commit s s.dev)) ∧
  (∀ s x w a n bs, deepReady s.dev = false →
    ∃ t, exec (.deepStoreRequest x w a n bs) s = .next t ∧ rd t.dev (Reg.DEEP_CNT 9) = rd s.dev (Reg.DEEP_CNT 9) + 1 ∧
      t.dev.deep.reqs = s.dev.deep.reqs ∧
      (w = false → spGet (fun _ => ([], 0)) t.dev.deep.readData (x % 8) = (List.replicate n 0, 3))) ∧
  (∀ s x w a n bs, deepReady s.dev = true → deepSize s.dev < a + (if w then bs.length else n) →
    ∃ t, exec (.deepStoreRequest x w a n bs) s = .next t ∧ rd t.dev (Reg.DEEP_CNT 10) = rd s.dev (Reg.DEEP_CNT 10) + 1 ∧
      t.dev.deep.reqs = s.dev.deep.reqs ∧ t.dev.flt = (raise s.dev Fk.addrRange 0 a (portMaster (x % 8)) (portAccess (x % 8) w)).flt ∧
      (w = false → spGet (fun _ => ([], 0)) t.dev.deep.readData (x % 8) = (List.replicate n 0, 1))) ∧
  (∀ s x w a n bs len, deepReady s.dev = true → len = (if w then bs.length else n) → a + len ≤ deepSize s.dev →
    ∃ t, exec (.deepStoreRequest x w a n bs) s = .next t ∧ t.dev.deep.reqs = s.dev.deep.reqs ++
      [⟨x % 8, x / 8, w, a, bs, s.dev.time, burstsOf a len, List.replicate len 0, true⟩] ∧ t.dev.regs = s.dev.regs) ∧
  (∀ s i r, s.dev.deep.reqs[i]? = some r →
    ∃ t, exec (.reqTimeout i) s = .next t ∧ t.dev.deep.reqs = s.dev.deep.reqs.eraseIdx i ∧
      rd t.dev (Reg.DEEP_CNT 9) = rd s.dev (Reg.DEEP_CNT 9) + 1 ∧
      t.dev.flt = (raise s.dev Fk.reqTimeout (rankNo (deepLoc s.dev r.addr).k (deepLoc s.dev r.addr).c (servingSid s.dev (deepLoc s.dev r.addr)))
        r.addr (portMaster r.port) (portAccess r.port r.write)).flt ∧
      (r.write = false → spGet (fun _ => ([], 0)) t.dev.deep.readData r.port = (List.replicate r.got.length 0, 4)) ∧
      t.mem = (commit s s.dev).mem) ∧
  (∀ s i, s.dev.deep.reqs[i]? = none → flagF s.dev Reg.DEEP_ACC_STATUS Reg.DEEP_ACC_STATUS_BUSY = true →
    rdF s.dev Reg.DEEP_ACC_STATUS Reg.DEEP_ACC_STATUS_RESULT = 0 →
    ∃ t, exec (.reqTimeout i) s = .next t ∧ rdF t.dev Reg.DEEP_ACC_STATUS Reg.DEEP_ACC_STATUS_RESULT = 4 ∧
      rd t.dev (Reg.DEEP_CNT 9) = rd s.dev (Reg.DEEP_CNT 9) + 1 ∧
      (rdF s.dev Reg.DEEP_ACC_CMD Reg.DEEP_ACC_CMD_OP ≠ 2 → ∀ k, k < 8 → rd t.dev (Reg.DEEP_ACC_DATA k) = 0))

/-- R373, R375 to R379, with no injection pending: in a slot of a READY store a bank with 4 postponed refreshes is refreshed for one interval before
anything else; with no maintenance due, in a slot that is not reserved, the picked burst of the picked request is served; a refresh that falls due
is postponed while requests wait for its bank, at most 4 times, else it closes the bank's row; a row at its threshold has its neighbours refreshed, each
by an activate, and its count set to 0; RFM subtracts the threshold; the activate-count tables are cleared together, each else as it was; an idle
row that no waiting request addresses closes; a legal temperature is kept and a bad or missing one makes the stack hot, and a stack that the part does
not have is left alone; the patrol moves to the next burst.
What rests on the model's own reading or choice in it is logged in notes/assumptions: 59 and 60. -/
def Obligations.DeepMaintenance : Prop :=
  (∀ s k c p b, deepReady s.dev = true → k < stackCount s.dev → flagF s.dev Reg.FAULT_INJECT Reg.FAULT_INJECT_PENDING = false →
    (pchBanks k c p).find? (fun b => decide (4 ≤ (getDBank s.dev b).postponed)) = some b →
    ∃ t, exec (.slotArbitration k c p) s = .next t ∧ (getDBank t.dev b).postponed = (getDBank s.dev b).postponed - 1 ∧
      (getDBank t.dev b).openRow = none ∧ t.dev.deep.reqs = s.dev.deep.reqs) ∧
  (∀ s k c p i b d, deepReady s.dev = true → k < stackCount s.dev →
    (∀ b ∈ pchBanks k c p, (getDBank s.dev b).postponed < 4 ∧ (getDBank s.dev b).due = []) →
    spGet (fun _ => 0) s.dev.deep.slots (pchKey k c p) % 4096 < 4094 →
    d = { s.dev with deep := { s.dev.deep with
      panic := panicMask s.dev,
      slots := (spPut (fun _ => 0) s.dev.deep.slots (pchKey k c p) (spGet (fun _ => 0) s.dev.deep.slots (pchKey k c p) + 1)) } } →
    pickReq d k c p = some (i, b) →
    exec (.slotArbitration k c p) s = .next (commit s (serveReq s.mem (fun a => a == b) i d))) ∧
  (∀ s rank p bank, flagF s.dev Reg.FAULT_INJECT Reg.FAULT_INJECT_PENDING = false →
    (∀ r ∈ s.dev.deep.reqs, ∀ b ∈ r.left, (deepLoc s.dev b.1).bankOf s.dev ≠ bankKey rank p bank) →
    ∃ t, exec (.bankRefresh rank p bank) s = .next t ∧ (getDBank t.dev (bankKey rank p bank)).openRow = none ∧
      (getDBank t.dev (bankKey rank p bank)).postponed = (getDBank s.dev (bankKey rank p bank)).postponed) ∧
  (∀ s rank p bank r b, flagF s.dev Reg.FAULT_INJECT Reg.FAULT_INJECT_PENDING = false → r ∈ s.dev.deep.reqs → b ∈ r.left →
    (deepLoc s.dev b.1).bankOf s.dev = bankKey rank p bank →
    ((getDBank s.dev (bankKey rank p bank)).postponed < 4 → ∃ t, exec (.bankRefresh rank p bank) s = .next t ∧
      getDBank t.dev (bankKey rank p bank) =
        { getDBank s.dev (bankKey rank p bank) with postponed := (getDBank s.dev (bankKey rank p bank)).postponed + 1 }) ∧
    (4 ≤ (getDBank s.dev (bankKey rank p bank)).postponed → ∃ t, exec (.bankRefresh rank p bank) s = .next t ∧
      (getDBank t.dev (bankKey rank p bank)).openRow = none ∧
      (getDBank t.dev (bankKey rank p bank)).postponed = (getDBank s.dev (bankKey rank p bank)).postponed)) ∧
  (∀ s key r rest, flagF s.dev Reg.FAULT_INJECT Reg.FAULT_INJECT_PENDING = false → (getDBank s.dev key).due = r :: rest →
    ∃ t more, exec (.neighbourRefresh key) s = .next t ∧ (getDBank t.dev key).due = rest ++ more ∧
      (∀ e ∈ (getDBank t.dev key).acts, e.1 = r → e.2 = 0) ∧ (getDBank t.dev key).openRow = none ∧
      (getDBank t.dev key).raa = (getDBank s.dev key).raa + (neighbours r).length ∧
      rd t.dev (Reg.DEEP_CNT 4) = rd s.dev (Reg.DEEP_CNT 4) + 1) ∧
  (∀ s rank p bank n, flagF s.dev Reg.FAULT_INJECT Reg.FAULT_INJECT_PENDING = false →
    n = spGet (fun _ => 0) s.dev.deep.rfm (rank / 128) → n ≠ 0 → n ≤ (getDBank s.dev (bankKey rank p bank)).raa →
    ∃ t, exec (.rfm rank p bank) s = .next t ∧ (getDBank t.dev (bankKey rank p bank)).raa = (getDBank s.dev (bankKey rank p bank)).raa - n ∧
      rd t.dev (Reg.DEEP_CNT 5) = rd s.dev (Reg.DEEP_CNT 5) + 1) ∧
  (∀ s, ∃ t, exec .actTableClear s = .next t ∧ t.dev.regs = s.dev.regs ∧
    ∀ e ∈ t.dev.deep.banks, ∃ x ∈ s.dev.deep.banks, e = (x.1, { x.2 with acts := [] })) ∧
  (∀ s rank p bank, (bankWanted s.dev (bankKey rank p bank) (getDBank s.dev (bankKey rank p bank)).openRow = false →
      ∃ t, exec (.rowIdleClose rank p bank) s = .next t ∧ (getDBank t.dev (bankKey rank p bank)).openRow = none ∧ t.dev.regs = s.dev.regs) ∧
    (bankWanted s.dev (bankKey rank p bank) (getDBank s.dev (bankKey rank p bank)).openRow = true →
      exec (.rowIdleClose rank p bank) s = .next (commit s s.dev))) ∧
  (∀ s k t0 hot, k < stackCount s.dev → flagF s.dev Reg.FAULT_INJECT Reg.FAULT_INJECT_PENDING = false → -40 ≤ t0 → t0 ≤ 125 →
    exec (.stackTempRead k t0 hot) s = .next (commit s (wrFs s.dev (Reg.STACK_TEMP k)
      [(Reg.STACK_TEMP_TEMP_C, ofSigned 8 t0), (Reg.STACK_TEMP_HOT, b2n hot)]))) ∧
  (∀ s k c t0 hot, k < stackCount s.dev → flagF s.dev Reg.FAULT_INJECT Reg.FAULT_INJECT_PENDING = false →
    c = .tempReadMissing k ∨ (c = .stackTempRead k t0 hot ∧ (t0 < -40 ∨ 125 < t0)) →
    ∃ t, exec c s = .next t ∧ rdF t.dev (Reg.STACK_TEMP k) Reg.STACK_TEMP_HOT = 1 ∧
      rdF t.dev (Reg.STACK_TEMP k) Reg.STACK_TEMP_BAD_READINGS =
        satAdd 16 (rdF s.dev (Reg.STACK_TEMP k) Reg.STACK_TEMP_BAD_READINGS) 1) ∧
  (∀ s k c t0 hot, stackCount s.dev ≤ k → c = .tempReadMissing k ∨ c = .stackTempRead k t0 hot → exec c s = .next (commit s s.dev)) ∧
  (∀ s k c p n, deepReady s.dev = true → k < stackCount s.dev → flagF s.dev Reg.FAULT_INJECT Reg.FAULT_INJECT_PENDING = false →
    n = spGet (fun _ => 0) s.dev.deep.patrol (pchKey k c p) → n < 25165824 →
    ecc s.dev .deep (physBurst (rankNo k c (n / 6291456)) (2 * (n % 6291456 / 32) + p) (n % 32)) = 0 →
    ∃ t, exec (.patrolScrub k c p) s = .next t ∧
      spGet (fun _ => 0) t.dev.deep.patrol (pchKey k c p) = (n + 1) % 25165824 ∧ t.dev.upset = s.dev.upset)

/-- R370, R384 to R386: a due write-back restores the check bits of its burst; an ACTIVE rank with more than CE_LIMIT correctable errors in a second fails, and one in
another state keeps it and is reported: with a free spare it becomes the SOURCE of a migration to SID 3, without one it retires; a copy unit of a migration advances UNITS_DONE, and the last one
ends the migration with the source REPLACED and the spare STAND_IN; a migration changes no content.
What rests on the model's own reading or choice in it is logged in notes/assumptions: 59, 62 and 63. -/
def Obligations.DeepErrors : Prop :=
  (∀ s key, spGet (fun _ => 0) s.dev.deep.writeBack key = 1 → ecc s.dev .deep key = 1 →
    flagF s.dev Reg.FAULT_INJECT Reg.FAULT_INJECT_PENDING = false →
    ∃ t, exec (.ceWriteback key) s = .next t ∧ ecc t.dev .deep key = 0 ∧ spGet (fun _ => 0) t.dev.deep.writeBack key = 0 ∧
      ∀ o, o ≠ Reg.DEEP_CNT 2 → o ≠ Reg.DEEP_CNT 3 → o ≠ Reg.DEEP_CNT 4 → rd t.dev o = rd s.dev o) ∧
  (∀ s key, spGet (fun _ => 0) s.dev.deep.writeBack key ≠ 1 → exec (.ceWriteback key) s = .next (commit s s.dev)) ∧
  (∀ s k c r, k < 2 → c < 32 → r < 3 → rdF s.dev Reg.DEEP_CFG Reg.DEEP_CFG_CE_LIMIT ≠ 0 →
    rdF s.dev Reg.DEEP_CFG Reg.DEEP_CFG_CE_LIMIT < (spGet (fun _ => (0, 0)) s.dev.deep.ceWindow (rankNo k c r)).2 →
    rankState s.dev k c r = 0 →
    (bit (rdF s.dev Reg.DEEP_STATUS Reg.DEEP_STATUS_SPARE_FREE) k = true →
      ∃ t, exec (.ceLimit k c r) s = .next t ∧ rankState t.dev k c r = 2 ∧ rankState t.dev k c 3 = 3 ∧
        flagF t.dev (Reg.DEEP_MIG_STATUS k) Reg.DEEP_MIG_STATUS_ACTIVE = true ∧
        rdF t.dev (Reg.DEEP_MIG_STATUS k) Reg.DEEP_MIG_STATUS_UNITS_DONE = 0 ∧
        bit (rdF t.dev Reg.DEEP_STATUS Reg.DEEP_STATUS_SPARE_FREE) k = false) ∧
    (bit (rdF s.dev Reg.DEEP_STATUS Reg.DEEP_STATUS_SPARE_FREE) k = false →
      ∃ t, exec (.ceLimit k c r) s = .next t ∧ rankState t.dev k c r = 6)) ∧
  (∀ s k c r, rdF s.dev Reg.DEEP_CFG Reg.DEEP_CFG_CE_LIMIT ≠ 0 →
    rdF s.dev Reg.DEEP_CFG Reg.DEEP_CFG_CE_LIMIT < (spGet (fun _ => (0, 0)) s.dev.deep.ceWindow (rankNo k c r)).2 →
    rankState s.dev k c r ≠ 0 → ∃ t, exec (.ceLimit k c r) s = .next t ∧ t.dev.flt = (raise s.dev Fk.ceLimit (rankNo k c r) 0 0 0).flt ∧
      ∀ o, o ≠ Reg.DEEP_ERR_LAST → rd t.dev o = rd s.dev o) ∧
  (∀ s k c r, (spGet (fun _ => (0, 0)) s.dev.deep.ceWindow (rankNo k c r)).2 ≤ rdF s.dev Reg.DEEP_CFG Reg.DEEP_CFG_CE_LIMIT →
    exec (.ceLimit k c r) s = .next (commit s s.dev)) ∧
  (∀ s k, k < 2 → s.dev.writes = [] → flagF s.dev (Reg.DEEP_MIG_STATUS k) Reg.DEEP_MIG_STATUS_ACTIVE = true →
    flagF s.dev Reg.FAULT_INJECT Reg.FAULT_INJECT_PENDING = false →
    (rdF s.dev (Reg.DEEP_MIG_STATUS k) Reg.DEEP_MIG_STATUS_UNITS_DONE + 1 < 393216 →
      ∃ t, exec (.migrationCopyUnit k) s = .next t ∧ t.mem = s.mem ∧ flagF t.dev (Reg.DEEP_MIG_STATUS k) Reg.DEEP_MIG_STATUS_ACTIVE = true ∧
        rdF t.dev (Reg.DEEP_MIG_STATUS k) Reg.DEEP_MIG_STATUS_UNITS_DONE =
          rdF s.dev (Reg.DEEP_MIG_STATUS k) Reg.DEEP_MIG_STATUS_UNITS_DONE + 1) ∧
    (rdF s.dev (Reg.DEEP_MIG_STATUS k) Reg.DEEP_MIG_STATUS_UNITS_DONE = 393215 →
      rdF s.dev (Reg.DEEP_MIG_STATUS k) Reg.DEEP_MIG_STATUS_SRC_SID < 3 →
      ∃ t, exec (.migrationCopyUnit k) s = .next t ∧ t.mem = s.mem ∧ flagF t.dev (Reg.DEEP_MIG_STATUS k) Reg.DEEP_MIG_STATUS_ACTIVE = false ∧
        rankState t.dev k (rdF s.dev (Reg.DEEP_MIG_STATUS k) Reg.DEEP_MIG_STATUS_CHANNEL)
          (rdF s.dev (Reg.DEEP_MIG_STATUS k) Reg.DEEP_MIG_STATUS_SRC_SID) = 4 ∧
        rankState t.dev k (rdF s.dev (Reg.DEEP_MIG_STATUS k) Reg.DEEP_MIG_STATUS_CHANNEL) 3 = 5)) ∧
  (∀ s k, flagF s.dev (Reg.DEEP_MIG_STATUS k) Reg.DEEP_MIG_STATUS_ACTIVE = false →
    exec (.migrationCopyUnit k) s = .next (commit s s.dev))

/-- R383: a DEEP_ACC_CMD that reaches its register is BUSY with the result of its access; before READY a read answers result 3, and the data registers read
0; with no earlier request at the HOST port, a read of good bytes of a READY store answers them in DEEP_ACC_DATA, and a write inside its size stores
the 64 B of DEEP_ACC_DATA and no other byte, each with result 0. R473: a BAR2 write below 0x1FF_0000 reaches the MICRO window, one from 0x200_0000 on reaches the deep store at HOST_BULK_BASE plus its
offset there, as the host; one between them is discarded; a read answers the window's bytes, the deep store's bytes, or zeros.
What rests on the model's own reading or choice in it is logged in notes/assumptions: 111, 157 and 165. -/
def Obligations.BulkAccess : Prop :=
  (∀ s agent v, WriteReaches s.dev agent Reg.DEEP_ACC_CMD (setF v Reg.DEEP_ACC_CMD_OP 1) →
    FieldsInRange Reg.DEEP_ACC_CMD (setF v Reg.DEEP_ACC_CMD_OP 1) → deepReady s.dev = false →
    ∃ t, exec (.deepAccRead agent v) s = .next t ∧ flagF t.dev Reg.DEEP_ACC_STATUS Reg.DEEP_ACC_STATUS_BUSY = true ∧
      rdF t.dev Reg.DEEP_ACC_STATUS Reg.DEEP_ACC_STATUS_RESULT = 3 ∧ ∀ i, i < 8 → rd t.dev (Reg.DEEP_ACC_DATA i) = 0) ∧
  (∀ s agent v, WriteReaches s.dev agent Reg.DEEP_ACC_CMD (setF v Reg.DEEP_ACC_CMD_OP 1) →
    FieldsInRange Reg.DEEP_ACC_CMD (setF v Reg.DEEP_ACC_CMD_OP 1) → deepReady s.dev = true →
    64 * getF v Reg.DEEP_ACC_CMD_ADDR + 64 ≤ deepSize s.dev → flagF s.dev Reg.FAULT_INJECT Reg.FAULT_INJECT_PENDING = false →
    (∀ k c x, k < 2 → c < 32 → x < 4 → rankState s.dev k c x ≠ 6) → (∀ key, ecc s.dev .deep key = 0) →
    (∀ r ∈ s.dev.deep.reqs, r.port ≠ 5) → s.dev.writes = [] →
    ∃ t, exec (.deepAccRead agent v) s = .next t ∧ flagF t.dev Reg.DEEP_ACC_STATUS Reg.DEEP_ACC_STATUS_BUSY = true ∧
      rdF t.dev Reg.DEEP_ACC_STATUS Reg.DEEP_ACC_STATUS_RESULT = 0 ∧ t.mem = s.mem ∧
      ∀ i, i < 8 → rd t.dev (Reg.DEEP_ACC_DATA i) =
        BitVec.ofNat 64 (leNat (deepBytes s.mem s.dev (64 * getF v Reg.DEEP_ACC_CMD_ADDR + 8 * i) 8))) ∧
  (∀ s agent v, WriteReaches s.dev agent Reg.DEEP_ACC_CMD (setF v Reg.DEEP_ACC_CMD_OP 2) →
    FieldsInRange Reg.DEEP_ACC_CMD (setF v Reg.DEEP_ACC_CMD_OP 2) → deepReady s.dev = true →
    64 * getF v Reg.DEEP_ACC_CMD_ADDR + 64 ≤ deepSize s.dev → s.dev.writes = [] →
    flagF s.dev Reg.FAULT_INJECT Reg.FAULT_INJECT_PENDING = false →
    (∀ k c x, k < 2 → c < 32 → x < 4 → rankState s.dev k c x ≠ 6) → (∀ r ∈ s.dev.deep.reqs, r.port ≠ 5) →
    ∃ t, exec (.deepAccWrite agent v) s = .next t ∧ flagF t.dev Reg.DEEP_ACC_STATUS Reg.DEEP_ACC_STATUS_BUSY = true ∧
      rdF t.dev Reg.DEEP_ACC_STATUS Reg.DEEP_ACC_STATUS_RESULT = 0 ∧
      (∀ i, i < 64 → deepByte t.mem t.dev (64 * getF v Reg.DEEP_ACC_CMD_ADDR + i) = (accData s.dev).getD i 0) ∧
      ∀ b, b < 64 * getF v Reg.DEEP_ACC_CMD_ADDR ∨ 64 * getF v Reg.DEEP_ACC_CMD_ADDR + 64 ≤ b → deepByte t.mem t.dev b = deepByte s.mem s.dev b) ∧
  (∀ s off bs, ctlReset s.dev = false → off < 0x1FF0000 → islandOff s.dev 4 = false →
    exec (.bar2Write off bs) s = .next (commit s (windowWrite off bs s.dev))) ∧
  (∀ s off bs, ctlReset s.dev = false → 0x2000000 ≤ off → off < 0x10000000 → islandOff s.dev 3 = false →
    exec (.bar2Write off bs) s = .next (commit s (deepWrite s.mem s.dev 5 ((rd s.dev Reg.HOST_BULK_BASE).toNat + (off - 0x2000000)) bs 1 2).2)) ∧
  (∀ s off bs, 0x1FF0000 ≤ off → off < 0x2000000 → exec (.bar2Write off bs) s = .next (commit s s.dev)) ∧
  (∀ s off n, ctlReset s.dev = false → off < 0x1FF0000 → islandOff s.dev 4 = false →
    ∃ t, exec (.bar2Read off n) s = .next t ∧ t.dev.host.bar2Ans = (0, (List.range n).map fun k => windowRead s.dev (off + k)) ∧
      t.dev.regs = s.dev.regs) ∧
  (∀ s off n bs d, ctlReset s.dev = false → 0x2000000 ≤ off → off < 0x10000000 → islandOff s.dev 3 = false →
    deepRead s.mem s.dev 5 ((rd s.dev Reg.HOST_BULK_BASE).toNat + (off - 0x2000000)) n 1 1 = (bs, 0, d) →
    exec (.bar2Read off n) s = .next (commit s { d with host := { d.host with bar2Ans := (0, bs) } }))

/-- R314, R315: a request while no agent holds the lease grants it to the requester and counts the lease; one while another agent
holds it waits behind those that wait; the holder's release zeroes RIND_DATA words 0 to 9 and gives the lease to the agent that has
waited longest, or to none; a release by another agent does nothing; 10 ms without an access end a held lease with a count in EXPIRIES; and
a command by an agent without the lease changes nothing but LOCK_REJECTS. -/
def Obligations.RindLease : Prop :=
  (∀ s agent, 1 ≤ agent → agent ≤ 4 → WriteReaches s.dev agent Reg.RIND_LOCK (setF 0 Reg.RIND_LOCK_REQUEST 1) →
    (leaseOwner s.dev = 0 → ∃ t, exec (.rindRequest agent) s = .next t ∧ leaseOwner t.dev = agent ∧ t.dev.rind.leaseAt = s.dev.time ∧
      rdF t.dev Reg.RIND_LOCK Reg.RIND_LOCK_LEASES = (rdF s.dev Reg.RIND_LOCK Reg.RIND_LOCK_LEASES + 1) % 2 ^ 16) ∧
    (leaseOwner s.dev ≠ 0 → leaseOwner s.dev ≠ agent → agent ∉ s.dev.rind.waiting →
      ∃ t, exec (.rindRequest agent) s = .next t ∧ leaseOwner t.dev = leaseOwner s.dev ∧
        t.dev.rind.waiting = s.dev.rind.waiting ++ [agent])) ∧
  (∀ s agent, WriteReaches s.dev agent Reg.RIND_LOCK (setF 0 Reg.RIND_LOCK_RELEASE 1) → agent ≠ 0 → (∀ n ∈ s.dev.rind.waiting, n ≤ 4) →
    (leaseOwner s.dev = agent → ∃ t, exec (.rindRelease agent) s = .next t ∧ leaseOwner t.dev = s.dev.rind.waiting.headD 0 ∧
      t.dev.rind.waiting = s.dev.rind.waiting.tail ∧ (∀ i, i < 10 → rd t.dev (Reg.RIND_DATA i) = 0)) ∧
    (leaseOwner s.dev ≠ agent → exec (.rindRelease agent) s = .next (commit s s.dev))) ∧
  (∀ s, leaseOwner s.dev ≠ 0 → (∀ n ∈ s.dev.rind.waiting, n ≤ 4) →
    ∃ t, exec .leaseExpired s = .next t ∧ leaseOwner t.dev = s.dev.rind.waiting.headD 0 ∧
      (∀ i, i < 10 → rd t.dev (Reg.RIND_DATA i) = 0) ∧ t.dev.flt = (raise s.dev Fk.leaseExpired 14 0 0 0).flt ∧
      rdF t.dev Reg.RIND_LOCK Reg.RIND_LOCK_EXPIRIES = satAdd 16 (rdF s.dev Reg.RIND_LOCK Reg.RIND_LOCK_EXPIRIES) 1) ∧
  (∀ s agent v c, c ∈ [Instr.rindRead agent v, .rindWrite agent v, .rindUpdate agent v, .rindInvalidate agent v,
      .rindAdvancePn agent v, .rindZeroize agent v] → ctlReset s.dev = false →
    flagF s.dev Reg.FAULT_INJECT Reg.FAULT_INJECT_PENDING = false → leaseOwner s.dev ≠ agent ∨ agent = 0 →
    exec c s = .next (commit s (bumpSat s.dev Reg.RIND_HEALTH Reg.RIND_HEALTH_LOCK_REJECTS 1)))

/-- R312, R316, R317, for the lease holder and an entry whose check bits are good: READ answers words 8 to 15 without the salt, with NEXT_PN held at all ones past
its last number; WRITE, when its value checks hold and it replaces no outbound association in use, stores the entry that RIND_DATA
gives and zeroes words 0 to 9; UPDATE replaces REKEY_AT and the flags and keeps key, salt and number, and marks REKEY_DUE; INVALIDATE
clears VALID and zeroes the key; ADVANCE_PN raises the number of an outbound association; ZEROIZE of a keyed kind leaves no valid
entry and no key of it, and of the deep-store keys generates new ones; a failed WRITE leaves the store as it was with its RESULT.
What rests on the model's own reading or choice in it is logged in notes/assumptions: 69 and 72. -/
def Obligations.RindCommands : Prop :=
  ∀ s agent v k i e, k = getF v Reg.RIND_CMD_KIND → i = getF v Reg.RIND_CMD_INDEX → e = rindEnt s.dev k i → k ≤ 6 →
    let cmd := fun op => setF v Reg.RIND_CMD_OP op
    let result := fun (t : State) => rdF t.dev Reg.RIND_STATUS Reg.RIND_STATUS_RESULT
    (∀ op, 1 ≤ op → op ≤ 6 → WriteReaches s.dev agent Reg.RIND_CMD (cmd op) ∧ FieldsInRange Reg.RIND_CMD (cmd op)) →
    (rindIdxOk s.dev k i = true → ecc s.dev .rindEntry (saKey k i) = 0 →
      ∃ t, exec (.rindRead agent v) s = .next t ∧ result t = 0 ∧ t.dev.rind.ents = s.dev.rind.ents ∧
        (∀ w, w < 8 → w ≠ 2 → (k ≤ 2 → 2 ≤ w) → (rd t.dev (Reg.RIND_DATA (8 + w))).toNat = bits e (64 * (8 + w)) 64) ∧
        (k ≤ 2 → rd t.dev (Reg.RIND_DATA 8) = 0 ∧ (rd t.dev (Reg.RIND_DATA 9)).toNat = bits e 576 32) ∧
        (rd t.dev (Reg.RIND_DATA 10)).toNat = min (2 ^ 64 - 1) (nextPn e) ∧
        ∀ w, w < 8 → rd t.dev (Reg.RIND_DATA w) = rd s.dev (Reg.RIND_DATA w)) ∧
    (∀ x, x = entOf k (rindData s.dev) → rindIdxOk s.dev k i = true → entFits s.dev k i x = true → outbound k e = false →
      (k ≤ 1 → stripSas s.dev k (ePort x / 64) i < 1024) →
      ∃ t, exec (.rindWrite agent v) s = .next t ∧ result t = 0 ∧ rindEnt t.dev k i = x ∧ ∀ w, w < 10 → rd t.dev (Reg.RIND_DATA w) = 0) ∧
    (∀ x, x = entOf k (rindData s.dev) → rindIdxOk s.dev k i = true → entFits s.dev k i x = false →
      ∃ t, exec (.rindWrite agent v) s = .next t ∧ result t = 3 ∧ t.dev.rind.ents = s.dev.rind.ents) ∧
    (rindIdxOk s.dev k i = true → entFits s.dev k i (entOf k (rindData s.dev)) = true → outbound k e = true →
      ∃ t, exec (.rindWrite agent v) s = .next t ∧ result t = 5 ∧ t.dev.rind.ents = s.dev.rind.ents) ∧
    (k ≤ 2 → rindIdxOk s.dev k i = true → ecc s.dev .rindEntry (saKey k i) = 0 →
      (k = 2 → (rd s.dev (Reg.RIND_DATA 13)).toNat % 256 ≤ 128) →
      ∃ t, exec (.rindUpdate agent v) s = .next t ∧ result t = 0 ∧ rindEnt t.dev k i % 2 ^ 704 = e % 2 ^ 704 ∧
        entF (rindEnt t.dev k i) 11 0 64 = (rd s.dev (Reg.RIND_DATA 11)).toNat ∧
        (eVld e = true → (rd s.dev (Reg.RIND_DATA 11)).toNat ≤ nextPn e → bit (rindEnt t.dev k i) (64 * 12 + 61) = true)) ∧
    (k ≤ 3 → rindIdxOk s.dev k i = true → saInUse s.dev k i = false →
      ∃ t, exec (.rindInvalidate agent v) s = .next t ∧ result t = 0 ∧ eVld (rindEnt t.dev k i) = false ∧
        rindEnt t.dev k i % 2 ^ 512 = 0) ∧
    (rindIdxOk s.dev k i = true → saInUse s.dev k i = true → k ≤ 3 →
      ∃ t, exec (.rindInvalidate agent v) s = .next t ∧ result t = 5 ∧ t.dev.rind.ents = s.dev.rind.ents) ∧
    (rindIdxOk s.dev k i = true → ecc s.dev .rindEntry (saKey k i) = 0 → k = 0 ∨ k = 2 ∧ eOut e = true →
      ∃ t, exec (.rindAdvancePn agent v) s = .next t ∧ result t = 0 ∧
        nextPn (rindEnt t.dev k i) = min (2 ^ 64) (max (nextPn e) (rd s.dev (Reg.RIND_DATA 10)).toNat)) ∧
    (k ≤ 2 → ∃ t, exec (.rindZeroize agent v) s = .next t ∧ result t = 0 ∧
      ∀ j, j < 2 ^ 17 → eVld (rindEnt t.dev k j) = false ∧ rindEnt t.dev k j % 2 ^ 512 = 0) ∧
    (k = 3 → flagF s.dev Reg.RIND_HEALTH Reg.RIND_HEALTH_ENTROPY_OK = true →
      ∃ t, exec (.rindZeroize agent v) s = .next t ∧ result t = 0 ∧
        ∀ h, h < 256 → rindEnt t.dev 3 h = 2 ^ 831 + 2 ^ 823 + (s.dev.free + h))

/-- R311, R316: take two devices that differ only in one entry of the association store, and there only in its key words 0 to 7 and, for an SA, in its
salt in words 8 and 9. A READ of that entry by the lease holder leaves the same registers, the same events and
interrupt messages, and the same fault messages in both, whatever the state of the entry's check bits: nothing that the agents can read tells one key from another. -/
def Obligations.RindReadHidesKeys : Prop :=
  ∀ s agent v k i x, k = getF v Reg.RIND_CMD_KIND → i = getF v Reg.RIND_CMD_INDEX →
    WriteReaches s.dev agent Reg.RIND_CMD (setF v Reg.RIND_CMD_OP 1) → FieldsInRange Reg.RIND_CMD (setF v Reg.RIND_CMD_OP 1) →
    x / 2 ^ 640 = rindEnt s.dev k i / 2 ^ 640 → bits x 576 32 = bits (rindEnt s.dev k i) 576 32 →
    (2 < k → x / 2 ^ 512 = rindEnt s.dev k i / 2 ^ 512) →
    ∃ t u, exec (.rindRead agent v) s = .next t ∧ exec (.rindRead agent v) { s with dev := putEnt s.dev k i x } = .next u ∧
      u.dev.regs = t.dev.regs ∧ u.dev.host = t.dev.host ∧ u.dev.flt = t.dev.flt ∧ u.mem = t.mem

/-- R321, R325 to R328: a packet at the front of a strip's look-aside queue whose binding, association, port and gates allow it leaves encrypted
under the association's next number, which the association then never gives again; one whose association has no number left is dropped and
leaves the number as it was. A packet of RIND_A that decrypts returns to be reparsed with its plaintext and DECRYPTED; one whose tag fails returns with CIPHER_FAIL when the
association says so. An SA_STATE and a DEEP answer land in their result word (R324, R382); a DEEP request that names no element, that is lost or
that has not completed in time (R380) lands 0 with DEEP_ERR. A packet that enters decryption without an association is dropped and counted (R335). A failed health test clears ENTROPY_OK; when the
source is healthy again, the waiting deep-store keys are generated (R309, R333; their values are free).
What rests on the model's own reading or choice in it is logged in notes/assumptions: 12, 65, 66, 67, 68, 163 and 165. -/
def Obligations.RindTraffic : Prop :=
  (∀ s n p port rest i e b, laQ s.dev n = (p, port) :: rest → b = rindEnt s.dev 6 p.queue → i = entF b 8 0 16 → e = rindEnt s.dev 2 i →
    ecc s.dev .rindEntry (saKey 2 i) = 0 → bit b (64 * 8 + 63) = true → eVld e = true → eOut e = true → eHome e = n →
    eHolding e = pcGet p Pc.holding → bit (rindEnt s.dev 4 port) (64 * 9 + 55) = true → anchors s.dev (eHolding e) = true →
    bit (spGet (fun _ => (⟨⟨0, 0, 0, 0⟩, none, []⟩ : Gate)) s.dev.drl.gates port).op.w1.toNat 63 = false → gateClosed s.dev i e = false →
    (nextPn e ≤ pnLimit e → eExh e = false → eMirror e = false →
      (espSeal e (nextPn e) p.frame).length + 4 ≤ rdF s.dev (Reg.PORT_CFG port) Reg.PORT_CFG_MTU → port < 512 → n < 8 →
      ∃ t, exec (.espEncrypt n) s = .next t ∧ nextPn (rindEnt t.dev 2 i) = nextPn e + 1 ∧ laQ t.dev n = rest ∧
        (getPort t.dev port).txQ = (getPort s.dev port).txQ ++ [{ p with frame := espSeal e (nextPn e) p.frame }]) ∧
    (pnLimit e < nextPn e → p.inject = none →
      ∃ t, exec (.espEncrypt n) s = .next t ∧ nextPn (rindEnt t.dev 2 i) = nextPn e ∧ eExh (rindEnt t.dev 2 i) = true ∧
        laQ t.dev n = rest ∧ t.dev.strip.ports = s.dev.strip.ports)) ∧
  (∀ s a f slot gen m rest p ty i e, spGet (fun _ => []) s.dev.rind.decQ a = (f, slot, gen, m) :: rest → getPkt s.dev ⟨a, f, slot⟩ = some p →
    p.gen = gen → p.loc = .atRind → p.decSa = some (ty, i) → e = rindEnt s.dev 2 i → ecc s.dev .rindEntry (saKey 2 i) = 0 →
    eVld e = true → a < 4 →
    (∀ fr seq, espOpen s.dev p i e = (0, fr, seq) →
      ∃ t q, exec (.decrypt a) s = .next t ∧ getPkt t.dev ⟨a, f, slot⟩ = some q ∧ q.frame = fr ∧ q.loc = .reparse ∧
        pcGet q (Pc.flag flDecrypted) = 1 ∧ pcGet q (Pc.flag flCipherFail) = 0 ∧
        nextPn (rindEnt t.dev 2 i) = max (nextPn e) (seq + 1)) ∧
    (∀ fr seq, espOpen s.dev p i e = (10, fr, seq) → bit e (64 * 12 + 57) = true →
      ∃ t q, exec (.decrypt a) s = .next t ∧ getPkt t.dev ⟨a, f, slot⟩ = some q ∧ q.frame = p.frame ∧ q.loc = .reparse ∧
        pcGet q (Pc.flag flCipherFail) = 1 ∧ nextPn (rindEnt t.dev 2 i) = nextPn e)) ∧
  (∀ s a f k dest key num data fl p ty, (getFur s.dev a f).inFlight[k]? = some fl → landsAfter (getFur s.dev a f) k fl = false →
    fl.what = .request 2 dest ty key num data →
    getPkt s.dev ⟨a, f, fl.slot⟩ = some p → p.gen = fl.gen → p.reqs.getD 1 0 = num → dest < 4 → ty = 0 →
    (∀ i, i < 2 ^ 16 → ecc s.dev .rindEntry (saKey 2 i) = 0) →
    ∃ t q x, x = saStateWord s.dev (pcGet p Pc.holding) ty ((key.getD 0 0).toNat % 65536) ∧ exec (.saStateAnswer a f k) s = .next t ∧
      getPkt t.dev ⟨a, f, fl.slot⟩ = some q ∧ pcGet q (Pc.result dest) = x.1 % 2 ^ 64 ∧ bit q.conds 0x12 = true ∧ bit q.conds 0x17 = x.2 ∧
      (x.2 = true → q.decSa = none)) ∧
  (∀ s a f k dest num found fl p, (getFur s.dev a f).inFlight[k]? = some fl → landsAfter (getFur s.dev a f) k fl = false →
    fl.what = .deep dest num found → getPkt s.dev ⟨a, f, fl.slot⟩ = some p → p.gen = fl.gen → p.reqs.getD 0 0 = num → dest < 4 →
    (∀ x, found = .element x → deepReady s.dev = true → s.dev.writes = [] → flagF s.dev Reg.FAULT_INJECT Reg.FAULT_INJECT_PENDING = false →
      x + 8 ≤ deepSize s.dev → (∀ k c y, k < 2 → c < 32 → y < 4 → rankState s.dev k c y ≠ 6) → (∀ y, ecc s.dev .deep y = 0) →
      (∀ r ∈ s.dev.deep.reqs, r.port ≠ 2) →
      ∃ t q, exec (.deepAnswer a f k false) s = .next t ∧ getPkt t.dev ⟨a, f, fl.slot⟩ = some q ∧
        pcGet q (Pc.result dest) = leNat (deepBytes s.mem s.dev x 8) ∧ bit q.conds 0x11 = true ∧ bit q.conds 0x16 = false) ∧
    (∀ late, found = .invalid ∨ found = .poison ∨ late = true →
      ∃ t q, exec (.deepAnswer a f k late) s = .next t ∧ getPkt t.dev ⟨a, f, fl.slot⟩ = some q ∧ pcGet q (Pc.result dest) = 0 ∧
        bit q.conds 0x11 = true ∧ bit q.conds 0x16 = true)) ∧
  (∀ s a f slot gen m rest p k, spGet (fun _ => []) s.dev.rind.decQ a = (f, slot, gen, m) :: rest → getPkt s.dev ⟨a, f, slot⟩ = some p →
    p.gen = gen → p.loc = .atRind → p.decSa = none → a < 4 → f < 17 → k = rindCnt 12 →
    ∃ t, exec (.decrypt a) s = .next t ∧ getPkt t.dev ⟨a, f, slot⟩ = none ∧ rd t.dev (Reg.RIND_DROP 12) = rd s.dev (Reg.RIND_DROP 12) + 1 ∧
      rd t.dev (Reg.ENG_CNT (8 + a) k) = rd s.dev (Reg.ENG_CNT (8 + a) k) + 1) ∧
  (∀ s, ∃ t, exec .entropyFail s = .next t ∧ flagF t.dev Reg.RIND_HEALTH Reg.RIND_HEALTH_ENTROPY_OK = false ∧
    t.dev.flt = (raise s.dev Fk.entropy 14 0 0 0).flt) ∧
  (∀ s, s.dev.rind.keyWait ≠ [] → ∃ t, exec .deepKeyGenerate s = .next t ∧ flagF t.dev Reg.RIND_HEALTH Reg.RIND_HEALTH_ENTROPY_OK = true ∧
    rdF t.dev Reg.RIND_HEALTH Reg.RIND_HEALTH_KEYGEN_PENDING = 0 ∧ t.dev.rind.keyWait = [] ∧ t.dev.rind.keyBase = s.dev.free)

/-- R274 to R276, R278, for a port p of the part: with the port UP, nothing to purge and PORT_FREE near, the head that wins by band and start tag leaves its
sub-queue for EGQ with its launch time, and PORT_FREE moves to the end of its wire time; on a port that is DOWN or WITHDRAWN the first head is
dropped under code 2, and a purged or oversize head under codes 0 and 1. A refill tick fills a bucket up to its burst (R281); the sweep
marks an idle node FRESH (R280); a window's end sets PURGE_BEFORE (R289); a pending gate copy takes over, and marks the gated classes of an enabled one that it
replaces (R292); a priority paused too long raises a fault and, where configured, is disregarded until pause has cleared (R295); a meter is refilled and
colours the packet (R301, R302), its buckets never above their bursts (R303).
What rests on the model's own reading or choice in it is logged in notes/assumptions: 55, 56 and 57. -/
def Obligations.DrillActions : Prop :=
  (∀ s p h k1 k2 d cs, p < 512 → d = bumpN s.dev (Reg.QUEUE_CNT 8) (portStalls s.dev p) → drillSees d p = 0 →
    (∀ x ∈ portHeads s.dev p, purged d p (getNode d (nodeKey 2 x.1)) x.2.2 = false ∧ oversize d p (getNode d (nodeKey 2 x.1)) x.2.2 = false) →
    portFree d p < (d.time + 128) * 1600 → cs = candidates d p → bestNode d ((cs.map fun h => nodeOfQueue d h.1).eraseDups) = some k1 →
    bestNode d ((cs.filter fun h => nodeOfQueue d h.1 == k1).map fun h => nodeKey 2 h.1) = some k2 →
    (cs.find? fun h => nodeKey 2 h.1 == k2) = some h → moveF d (h.2.2.mapRef / 64) Reg.ACRE_MOVE_STATUS_PHASE ≠ 2 → h.2.2.mapRef < 256 →
    ∃ t x, exec (.drillSelect p) s = .next t ∧ getEgq t.dev h.2.1 (p / 128) = getEgq s.dev h.2.1 (p / 128) ++ [(x, p)] ∧
      x.frame = h.2.2.frame ∧ x.launch = launchTime s.dev p ∧ x.charged = chargedLen (getNode s.dev (nodeKey 2 h.1)) h.2.2 ∧
      portFree t.dev p = x.launch + wireTime s.dev p x.charged ∧ (getSub t.dev h.1 h.2.1).head = (getSub s.dev h.1 h.2.1).head.tail) ∧
  (∀ s p h d, d = bumpN s.dev (Reg.QUEUE_CNT 8) (portStalls s.dev p) →
    (drillSees d p = 2 → (portHeads s.dev p).head? = some h → exec (.drillSelect p) s = .next (commit s (headDrop d h 2))) ∧
    (drillSees d p ≠ 2 → (portHeads s.dev p).find? (fun h => purged d p (getNode d (nodeKey 2 h.1)) h.2.2) = some h →
      exec (.drillSelect p) s = .next (commit s (headDrop d h 0))) ∧
    (drillSees d p = 0 → (portHeads s.dev p).find? (fun h => purged d p (getNode d (nodeKey 2 h.1)) h.2.2) = none →
      (portHeads s.dev p).find? (fun h => oversize d p (getNode d (nodeKey 2 h.1)) h.2.2) = some h →
      exec (.drillSelect p) s = .next (commit s (headDrop d h 1)))) ∧
  (∀ s level n x, x = getNode s.dev (nodeKey level n) → x.rateKbps ≠ 0 →
    ∃ t, exec (.shaperRefill level n) s = .next t ∧ (getNode t.dev (nodeKey level n)).rate = x.rateKbps ∧
      (getNode t.dev (nodeKey level n)).tokens = min (x.tokens + refillOf level x.rateKbps) ((x.burst : Int) * 2 ^ 24)) ∧
  (∀ s n x, x = getNode s.dev (nodeKey 2 n) → x.count = 0 → vDiff x.s ((getNode s.dev (nodeKey 1 x.parent)).v.getD x.band 0) ≤ 0 →
    ∃ t, exec (.nodeSweep 2 n) s = .next t ∧ getNode t.dev (nodeKey 2 n) = { x with fresh := true }) ∧
  (∀ s p t0 k c, c = (getGate s.dev p).op → c.enable = true → t0 ≠ 0 → k < 8 → bit c.mask k = true → openAt s.dev c (t0 - 1) k = true →
    openAt s.dev c t0 k = false →
    ∃ t, exec (.gateChange p t0) s = .next t ∧ purgeOf (getGate t.dev p) k = some ((t0 + 2 ^ 32 - pathNs s.dev p) % 2 ^ 32) ∧
      (getGate t.dev p).op = c) ∧
  (∀ s p c, (getGate s.dev p).pend = some c →
    ∃ t, exec (.gateCopyChange p) s = .next t ∧ (getGate t.dev p).op = c ∧ (getGate t.dev p).pend = none ∧
      ((getGate s.dev p).op.enable = true → ∀ k, k < 8 → bit (getGate s.dev p).op.mask k = true →
        purgeOf (getGate t.dev p) k = some ((c.change + 2 ^ 32 - pathNs s.dev p) % 2 ^ 32))) ∧
  (∀ s p c, bit (rdF s.dev (Reg.PFC_RX_STATE (p / 64) (p % 64)) Reg.PFC_RX_STATE_PAUSED) c = true → p < 512 → c < 8 →
    rdF s.dev (Reg.PORT_CFG p) Reg.PORT_CFG_WD_US ≠ 0 → wdInactive s.dev p = false →
    ∃ t, exec (.pauseWatchdog p c) s = .next t ∧ t.dev.flt = (raise s.dev Fk.pauseWatchdog p p 0 0).flt ∧
      (flagF s.dev (Reg.PORT_CFG p) Reg.PORT_CFG_WD_ACTION = true → bit (spGet (fun _ => 0) t.dev.drl.disregard p) c = true)) ∧
  (∀ s p c, bit (rdF s.dev (Reg.PFC_RX_STATE (p / 64) (p % 64)) Reg.PFC_RX_STATE_PAUSED) c = false →
    ∃ t, exec (.pauseDisregardEnd p c) s = .next t ∧ bit (spGet (fun _ => 0) t.dev.drl.disregard p) c = false) ∧
  (∀ s n pr, pr = getMprof s.dev (getMeter s.dev n).profile →
    ∃ t, exec (.meterSweep n) s = .next t ∧ getMeter t.dev n = meterRefill s.dev s.dev.time (getMeter s.dev n) ∧
      (getMeter t.dev n).tc ≤ bits pr.1.toNat 32 24 * 2 ^ 24 ∧ (getMeter t.dev n).te ≤ bits pr.2.toNat 32 24 * 2 ^ 24) ∧
  (∀ s a f k i col len fl p x, (getFur s.dev a f).inFlight[k]? = some fl → fl.what = .meter i col len →
    getPkt s.dev ⟨a, f, fl.slot⟩ = some p → p.gen = fl.gen → landsAfter (getFur s.dev a f) k fl = false → x = meterColour s.dev (meterRefill s.dev s.dev.time (getMeter s.dev i)) col len →
    ∃ t q, exec (.meterUpdate a f k) s = .next t ∧ getMeter t.dev i = x.2 ∧ getPkt t.dev ⟨a, f, fl.slot⟩ = some q ∧ pcGet q Pc.color = x.1 ∧
      q.frame = p.frame)

/-- R272, R292, R293, R303, R305, R306, for a legal INDEX and entries whose check bits are good: each READ of a node, bucket, list entry, gate, meter or profile
answers it in DRILL_DATA with RESULT 0, and of an uncorrectable list entry, gate or profile RESULT 5; WRITE_NODE stores the fields of its level and keeps the start tag, and is refused NOT_EMPTY, with the node as it was,
when it would move a node that holds packets; WRITE_GCL stores a list entry, and is refused IN_USE, with the entry as it was, inside the range of a gate copy; WRITE_GATE
makes a pending copy whose CHANGE_TIME is the first time BASE + n CYCLE at least 10 µs from now, and leaves the operating copy; WRITE_METER fills both
buckets; WRITE_MPROF stores the profile.
What rests on the model's own reading or choice in it is logged in notes/assumptions: 58. -/
def Obligations.DrillCommands : Prop :=
  ∀ s agent v i lv, i = getF v Reg.DRILL_CMD_INDEX → lv = getF v Reg.DRILL_CMD_LEVEL →
    let cmd := fun op => setF v Reg.DRILL_CMD_OP op
    let result := fun (t : State) => rdF t.dev Reg.DRILL_STATUS Reg.DRILL_STATUS_RESULT
    let data := fun (t : State) (n : Nat) => rd t.dev (Reg.DRILL_DATA n)
    (∀ op, 1 ≤ op → op ≤ 11 → WriteReaches s.dev agent Reg.DRILL_CMD (cmd op) ∧ FieldsInRange Reg.DRILL_CMD (cmd op)) →
    (lv ≠ 0 → nodeExists s.dev lv i = true → ecc s.dev .node (nodeKey lv i) ≠ 2 →
      ∃ t, exec (.drillReadNode agent v) s = .next t ∧ result t = 0 ∧ data t 0 = (getNode s.dev (nodeKey lv i)).w0 ∧
        data t 1 = (getNode s.dev (nodeKey lv i)).w1) ∧
    (∀ n x, n = getNode s.dev (nodeKey lv i) → x = { n with
        w0 := BitVec.ofNat 64 ((data s 0).toNat &&& nodeMask lv), w1 := BitVec.ofNat 64 (bits (data s 1).toNat 0 56) } →
      nodeExists s.dev lv i = true → nodeFits s.dev lv x = true →
      (n.count = 0 → ∃ t, exec (.drillWriteNode agent v) s = .next t ∧ result t = 0 ∧ (getNode t.dev (nodeKey lv i)).w0 = x.w0 ∧
        (getNode t.dev (nodeKey lv i)).w1 = x.w1 ∧ (getNode t.dev (nodeKey lv i)).s = n.s) ∧
      (n.count ≠ 0 → x.band ≠ n.band → ∃ t, exec (.drillWriteNode agent v) s = .next t ∧ result t = 4 ∧ t.dev.drl = s.dev.drl)) ∧
    (nodeExists s.dev lv i = true → ecc s.dev .node (nodeKey lv i) ≠ 2 → ∃ t, exec (.drillReadShaper agent v) s = .next t ∧ result t = 0 ∧
      data t 0 = BitVec.ofNat 64 (ofSigned 64 (getNode s.dev (nodeKey lv i)).tokens)) ∧
    (i < 131072 → ecc s.dev .gcl i ≠ 2 → ∃ t, exec (.drillReadGcl agent v) s = .next t ∧ result t = 0 ∧ data t 0 = BitVec.ofNat 64 (gclEntry s.dev i)) ∧
    (i < 131072 → 32 ≤ bits (data s 0).toNat 8 32 → bits (data s 0).toNat 8 32 ≤ 1000000000 →
      (gclInUse s.dev i = false → ∃ t, exec (.drillWriteGcl agent v) s = .next t ∧ result t = 0 ∧
        ∀ j, gclEntry t.dev j = if j = i then bits (data s 0).toNat 0 40 else gclEntry s.dev j) ∧
      (gclInUse s.dev i = true → ∃ t, exec (.drillWriteGcl agent v) s = .next t ∧ result t = 3 ∧ t.dev.drl = s.dev.drl)) ∧
    (i < portCount s.dev → ecc s.dev .gate i ≠ 2 → ∃ t, exec (.drillReadGate agent v) s = .next t ∧ result t = 0 ∧ data t 0 = (getGate s.dev i).op.w0 ∧
      data t 1 = (getGate s.dev i).op.w1 ∧ data t 2 = (getGate s.dev i).op.w2 ∧ data t 3 = gateStatus s.dev (getGate s.dev i)) ∧
    (∀ w1 len cyc base, w1 = (data s 1).toNat → len = bits w1 47 11 → cyc = bits w1 0 30 → base = bits w1 30 17 → i < portCount s.dev →
      1 ≤ len → len ≤ 1024 → 1000 ≤ cyc → cyc ≤ 1000000000 → base + len ≤ 131072 →
      ∃ t c n, exec (.drillWriteGate agent v) s = .next t ∧ result t = 0 ∧ (getGate t.dev i).pend = some c ∧ (getGate t.dev i).op = (getGate s.dev i).op ∧
        c.change = (data s 0).toNat + n * cyc ∧ s.dev.time + 10000 ≤ c.change ∧
        (n ≠ 0 → c.change < s.dev.time + 10000 + cyc) ∧ c.len = len ∧ c.cycle = cyc ∧ c.base = base) ∧
    (ecc s.dev .meter i ≠ 2 → ∃ t, exec (.drillReadMeter agent v) s = .next t ∧ result t = 0 ∧
      data t 0 = BitVec.ofNat 64 ((getMeter s.dev i).tc / 2 ^ 24 % 2 ^ 24 * 2 ^ 32 + (getMeter s.dev i).profile) ∧
      data t 1 = BitVec.ofNat 64 ((getMeter s.dev i).te / 2 ^ 24 % 2 ^ 24 * 2 ^ 32 + (getMeter s.dev i).last)) ∧
    (∀ p, p = bits (data s 0).toNat 0 12 → ∃ t, exec (.drillWriteMeter agent v) s = .next t ∧ result t = 0 ∧
      getMeter t.dev i = ⟨p, bits (getMprof s.dev p).1.toNat 32 24 * 2 ^ 24, bits (getMprof s.dev p).2.toNat 32 24 * 2 ^ 24, s.dev.time % 2 ^ 32⟩) ∧
    (i < 4096 → ecc s.dev .mprof i ≠ 2 → ∃ t, exec (.drillReadMprof agent v) s = .next t ∧ result t = 0 ∧ data t 0 = (getMprof s.dev i).1 ∧
      data t 1 = (getMprof s.dev i).2) ∧
    ((i < 131072 → ecc s.dev .gcl i = 2 → ∃ t, exec (.drillReadGcl agent v) s = .next t ∧ result t = 5) ∧
      (i < portCount s.dev → ecc s.dev .gate i = 2 → ∃ t, exec (.drillReadGate agent v) s = .next t ∧ result t = 5) ∧
      (i < 4096 → ecc s.dev .mprof i = 2 → ∃ t, exec (.drillReadMprof agent v) s = .next t ∧ result t = 5)) ∧
    (i < 4096 → bits (data s 0).toNat 57 2 ≠ 3 → bits (data s 0).toNat 0 32 ≤ 2000000000 → bits (data s 1).toNat 0 32 ≤ 2000000000 →
      ∃ t, exec (.drillWriteMprof agent v) s = .next t ∧ result t = 0 ∧
        getMprof t.dev i = (data s 0 &&& 0x0EFFFFFFFFFFFFFF, data s 1 &&& 0x00FFFFFFFFFFFFFF))

/-- R252 to R256, R260: the spill engine moves the oldest tail packet's record to the open page, unless it is blocked, which is marked and counted
once; with good check bits and a valid key, a full page is written to its place in the deep store, encrypted under its holding's key with the page number as tweak, and is marked written; the
first record at hand joins the head with its own bytes and new cells, before the packets of the tail; one without cells for 10 µs is dropped
under code 3; a page cache below 32 takes 32 good pointers from the ring and one above 96 gives 32 back; SPILL_REGION rebuilds the ring while no sub-queue
is SPILLED, and is otherwise rejected.
What rests on the model's own reading or choice in it is logged in notes/assumptions: 12, 52, 157, 159 and 160. -/
def Obligations.SpillAndRefill : Prop :=
  (∀ s q m p rest x, x = getSub s.dev q m → x.spilled = true → x.tail = p :: rest → profF s.dev q 0 Reg.QPROF_TAIL_CELLS < cellsIn x.tail →
    ecc s.dev .rindEntry (saKey 3 (queueHolding s.dev q)) = 0 →
    (x.openBuf.length + (recordBytes p).length < 4064 → spillBlocked s.dev q m = false →
      ∃ t, exec (.spillMove q m) s = .next t ∧ (getSub t.dev q m).tail = rest ∧ (getSub t.dev q m).head = x.head ∧
        (getSub t.dev q m).openBuf = x.openBuf ++ recordBytes p ∧ (getSub t.dev q m).fill = x.fill + (recordBytes p).length ∧
        (getSub t.dev q m).recs = x.recs ++ [({ p with cells := [] }, x.fill, (recordBytes p).length, false)]) ∧
    (spillBlocked s.dev q m = true →
      ∃ t, exec (.spillMove q m) s = .next t ∧ getSub t.dev q m = { x with blocked := true } ∧
        rd t.dev (Reg.QUEUE_CNT 7) = rd s.dev (Reg.QUEUE_CNT 7) + (if x.blocked then 0 else 1))) ∧
  (∀ s q m x i pg k, x = getSub s.dev q m → (x.pages.findIdx? fun g => !g.written) = some i → x.pages[i]? = some pg → pg.stream.length = 4064 →
    k = deepKeys s.dev (queueHolding s.dev q) → s.dev.writes = [] → deepReady s.dev = true → 4096 * pg.ptr + 4096 ≤ deepSize s.dev →
    flagF s.dev Reg.FAULT_INJECT Reg.FAULT_INJECT_PENDING = false → (∀ k c r, k < 2 → c < 32 → r < 4 → rankState s.dev k c r ≠ 6) →
    ecc s.dev .rindEntry (saKey 3 (queueHolding s.dev q)) = 0 → eVld (rindEnt s.dev 3 (queueHolding s.dev q)) = true →
    (∀ r ∈ s.dev.deep.reqs, r.port ≠ 1) →
    ∃ t, exec (.pageWrite q m false) s = .next t ∧ (getSub t.dev q m).pages = x.pages.set i { pg with written := true, stream := [] } ∧
      deepBytes t.mem t.dev (4096 * pg.ptr) 4096 = xtsEnc k.1 k.2 pg.ptr (pageBytes q m pg 0) ∧
      ∀ b, b < 4096 * pg.ptr ∨ 4096 * pg.ptr + 4096 ≤ b → deepByte t.mem t.dev b = deepByte s.mem s.dev b) ∧
  (∀ s q m x p start len fl rest fr pool cs, x = getSub s.dev q m → x.spilled = true → x.recs = (p, start, len, fl) :: rest → refillReady x = true →
    cellsIn x.head < profF s.dev q 1 Reg.QPROF_REFILL_CELLS →
    fr = ((recordAt x start len).drop (16 + editHeaderLen p)).take p.frame.length →
    poolPick s.dev m p.pool (cellsOf { p with frame := fr }) = some pool →
    (cellsTake s.dev m (cellsOf { p with frame := fr })).1 = some cs →
    ∃ t y, exec (.refill q m) s = .next t ∧ y.frame = fr ∧ y.cells = cs ∧ y.pool = pool ∧ y.ctx = p.ctx ∧
      (getSub t.dev q m).head ++ (getSub t.dev q m).tail = x.head ++ [y] ++ x.tail ∧
      (rest ≠ [] → (getSub t.dev q m).head = x.head ++ [y])) ∧
  (∀ s q m r rest, (getSub s.dev q m).recs = r :: rest → refillReady (getSub s.dev q m) = true →
    poolPick s.dev m r.1.pool (cellsOf r.1) = none →
    exec (.refillNoCells q m) s = .next (commit s (queueDrop (recordDone s.dev q m) q m r.1 3 false))) ∧
  (∀ s m, (pageCache s.dev m).length < 32 → 32 ≤ s.dev.que.ringCount → 32 ≤ ringLen s.dev → s.dev.que.ringHead < ringLen s.dev →
    deepReady s.dev = true → 4096 * spillBase s.dev + 4 * ringLen s.dev ≤ deepSize s.dev →
    flagF s.dev Reg.FAULT_INJECT Reg.FAULT_INJECT_PENDING = false → (∀ k c r, k < 2 → c < 32 → r < 4 → rankState s.dev k c r ≠ 6) →
    (∀ y, ecc s.dev .deep y = 0) → (∀ y, ecc s.dev .pageRing y = 0) →
    (∀ j, j < 32 → pageOutside s.dev ((ringNow s.dev).word ((s.dev.que.ringHead + j) % ringLen s.dev)) = false) →
    ∃ t, exec (.pageCacheRefill m) s = .next t ∧ t.dev.que.ringCount = s.dev.que.ringCount - 32 ∧
      rd t.dev (Reg.DEEP_CNT 0) = rd s.dev (Reg.DEEP_CNT 0) + 32 ∧
      pageCache t.dev m = pageCache s.dev m ++ (List.range 32).map fun j =>
        (ringNow s.dev).word ((s.dev.que.ringHead + j) % ringLen s.dev)) ∧
  (∀ s m n, n = (pageCache s.dev m).length → 96 < n →
    ∃ t, exec (.pageCacheWriteback m) s = .next t ∧ pageCache t.dev m = (pageCache s.dev m).take (n - 32) ∧
      t.dev.que.ringCount = s.dev.que.ringCount + 32) ∧
  (∀ s agent v n, WriteReaches s.dev agent Reg.SPILL_REGION v → FieldsInRange Reg.SPILL_REGION v → n = getF v Reg.SPILL_REGION_PAGES →
    ((s.dev.que.subs.any fun e => e.2.spilled) = false → n ≤ 8388608 →
      4096 * (getF v Reg.SPILL_REGION_BASE + n) ≤ deepSize s.dev →
      ∃ t, exec (.spillRegionWrite agent v) s = .next t ∧ spillBase t.dev = getF v Reg.SPILL_REGION_BASE ∧ spillPages t.dev = n ∧
        t.dev.que.ring = [] ∧ t.dev.que.ringHead = 0 ∧ t.dev.que.ringCount = n - ceilDiv n 1024 ∧ t.dev.que.cache = [] ∧ t.dev.que.alloc = [] ∧
        t.dev.deep.areas = (if ringLen s.dev = 0 then s.dev.deep.areas else ringNow s.dev :: s.dev.deep.areas) ∧
        rdF t.dev Reg.SPILL_STATUS Reg.SPILL_STATUS_FREE = n - ceilDiv n 1024) ∧
    ((s.dev.que.subs.any fun e => e.2.spilled) = true →
      ∃ t, exec (.spillRegionWrite agent v) s = .next t ∧ rd t.dev Reg.SPILL_REGION = rd s.dev Reg.SPILL_REGION ∧ t.dev.que = s.dev.que))

/-- R269: READ_CFG answers a queue's configuration word; WRITE_CFG stores the word's ENABLE, PROFILE and HOLDING and leaves every other queue's; READ_STATE answers the
state of the four sub-queues and DEPTH, BLOCKED being 1 while a spill or its start is blocked; FLUSH of an enabled queue is refused with RESULT 2 and changes no sub-queue, and of a disabled one leaves its four sub-queues
empty. R267: a capture record whose ring lies in host memory is written to the slot of its sequence number, PROD moves on by one, and the record waits no longer. -/
def Obligations.QueueCommands : Prop :=
  (∀ s agent v q, q = getF v Reg.QUEUE_CMD_QUEUE →
    (∀ op, 1 ≤ op → op ≤ 4 → WriteReaches s.dev agent Reg.QUEUE_CMD (setF v Reg.QUEUE_CMD_OP op) ∧
      FieldsInRange Reg.QUEUE_CMD (setF v Reg.QUEUE_CMD_OP op)) →
    (∃ t, exec (.queueReadCfg agent v) s = .next t ∧ rd t.dev (Reg.QUEUE_DATA 0) = queueCfg s.dev q ∧ t.dev.que = s.dev.que) ∧
    (∃ t, exec (.queueWriteCfg agent v) s = .next t ∧ ∀ r, queueCfg t.dev r =
      if r = q then rd s.dev (Reg.QUEUE_DATA 0) &&& 0x8FFF000000000000 else queueCfg s.dev r) ∧
    (∃ t, exec (.queueReadState agent v) s = .next t ∧ t.dev.que.depth = s.dev.que.depth ∧ t.dev.que.cfg = s.dev.que.cfg ∧
      (∀ r m, { getSub t.dev r m with blocked := false } = { getSub s.dev r m with blocked := false }) ∧
      (depthOf s.dev q < 2 ^ 32 → rdF t.dev Reg.QUEUE_STATUS Reg.QUEUE_STATUS_DEPTH = depthOf s.dev q) ∧
      ∀ m, m < 4 → rd t.dev (Reg.QUEUE_DATA m) = BitVec.ofNat 64 (b2n (getSub s.dev q m).spilled * 2 ^ 63
        + b2n ((getSub s.dev q m).blocked && (spillWants s.dev q (getSub s.dev q m) && spillBlocked s.dev q m)) * 2 ^ 62
        + cellsIn (getSub s.dev q m).head % 2 ^ 19 * 2 ^ 43 + cellsIn (getSub s.dev q m).tail % 2 ^ 18 * 2 ^ 25 + (getSub s.dev q m).held)) ∧
    (queueEnable s.dev q = true → ∃ t, exec (.queueFlush agent v) s = .next t ∧ t.dev.que = s.dev.que ∧
      rdF t.dev Reg.QUEUE_STATUS Reg.QUEUE_STATUS_RESULT = 2) ∧
    (queueEnable s.dev q = false → ∃ t, exec (.queueFlush agent v) s = .next t ∧ ∀ m, m < 4 → getSub t.dev q m = subDef 0)) ∧
  (∀ s r c a, (s.dev.fab.caps.find? fun c => c.ring == r) = some c → r < 16 → c.acre < 4 → c.pool < 64 → s.dev.writes = [] →
    capField s.dev r 1 Reg.CAP_RING_DEST = 0 → capField s.dev r 1 Reg.CAP_RING_NOTICE_EVERY = 0 →
    a = capField s.dev r 0 Reg.CAP_RING_BASE + 160 * (c.seq % capField s.dev r 1 Reg.CAP_RING_SLOTS) →
    ∃ t, exec (.captureWrite r) s = .next t ∧ (∀ j, j < c.bytes.length → memGet spHost t.mem.host (a + j) = c.bytes.getD j 0) ∧
      (∀ b, b < a ∨ a + c.bytes.length ≤ b → memGet spHost t.mem.host b = memGet spHost s.mem.host b) ∧
      rd t.dev (Reg.CAP_RING r 2) = rd s.dev (Reg.CAP_RING r 2) + 1 ∧ t.dev.fab.caps = s.dev.fab.caps.erase c)

/-- R218: a stage-1 connection carries n cells, at most 16 and at most its credit: it admits the first packet of its VOQ, which then holds as many cells as its
edit header and frame need (R224) with its frame as it was, moves on through it into the write buffer, and hands it on with its last cell; without credit it carries
nothing; for an acre in reset the packet is dropped under code 8 (R239). A stage-2 connection carries a copy's cells on within its credit, and the copy with its last cells
to its editor, where it holds no cell. A free-pointer cache below 16 takes 16 good pointers from its ring and one above 48 gives 16 back (R230). The
replicator makes one copy for each member of a valid group that admits it, and none for an invalid group (R231). The egress editor
passes an edited packet to its port, or to ESP when its queue is bound; a packet without edits and mark keeps its bytes (R112, R113, R249, R320).
What rests on the model's own reading or choice in it is logged in notes/assumptions: 13, 49, 151 and 152. -/
def Obligations.FabricActions : Prop :=
  (∀ s a m n p rest d, getVoq s.dev a m = p :: rest → p.cells ≠ [] → n ≤ 16 → 0 < n → d = bankCycle m s.dev → n ≤ credit1 d a m →
    (n < p.cells.length - voqDone s.dev a m →
      ∃ t, exec (.stage1Transfer a m n) s = .next t ∧ voqDone t.dev a m = voqDone s.dev a m + n ∧ getVoq t.dev a m = p :: rest ∧
        (wbuf1 t.dev m).length = (wbuf1 d m).length + n ∧ rd t.dev (Reg.FABRIC_CNT m 1) = rd s.dev (Reg.FABRIC_CNT m 1) + BitVec.ofNat 64 n) ∧
    (n = p.cells.length - voqDone s.dev a m →
      exec (.stage1Transfer a m n) s = .next (commit s (stage1Done (setVoqDone (putVoq (bumpN (setWbuf1 d m (wbuf1 d m ++
        ((p.cells.drop (voqDone s.dev a m)).take n).map fun c => (a, bits c 8 18 % 24))) (Reg.FABRIC_CNT m 1) n) a m rest) a m 0) m p)))) ∧
  (∀ s a m n, credit1 (bankCycle m s.dev) a m = 0 → exec (.stage1Transfer a m n) s = .next (commit s (bankCycle m s.dev))) ∧
  (∀ s a m n p rest p' d', getVoq s.dev a m = p :: rest → p.cells = [] → n ≤ 16 → 0 < n → n ≤ credit1 (bankCycle m s.dev) a m →
    stage1Take (bankCycle m s.dev) m p = (some p', d') →
    p'.cells.length = cellsOf p ∧ p'.frame = p.frame ∧ p'.macre = m ∧
    (n < p'.cells.length → ∃ t, exec (.stage1Transfer a m n) s = .next t ∧ getVoq t.dev a m = p' :: rest ∧ voqDone t.dev a m = n)) ∧
  (∀ s a m n p, getVoq s.dev a m = [p] → p.cells = [] → 0 < n → credit1 (bankCycle m s.dev) a m ≠ 0 → acreUp s.dev m = false →
    flagF s.dev Reg.FAULT_INJECT Reg.FAULT_INJECT_PENDING = false →
    exec (.stage1Transfer a m n) s = .next (commit s (putVoq (fabricDrop (bankCycle m s.dev) p 8) a m []))) ∧
  (∀ s m e n x rest, getEgq s.dev m e = x :: rest → acreUp s.dev e = true → n ≤ 16 → 0 < n → n ≤ credit2 (editCycle e s.dev) m e →
    (n = x.1.cells.length - egqDone s.dev m e →
      ∃ t, exec (.stage2Transfer m e n) s = .next t ∧ getEgq t.dev m e = rest ∧
        getEditQ t.dev e = getEditQ s.dev e ++ [({ x.1 with cells := [] }, x.2)]) ∧
    (n < x.1.cells.length - egqDone s.dev m e →
      ∃ t, exec (.stage2Transfer m e n) s = .next t ∧ getEgq t.dev m e = x :: rest ∧ egqDone t.dev m e = egqDone s.dev m e + n)) ∧
  (∀ s m b k, k = getBank s.dev (24 * m + b) → m < 4 → b < 24 → k.cache.length < 16 → 16 ≤ k.count → k.head < bankSize b →
    (∀ j, j < 16 → ecc s.dev .freeRing ((24 * m + b) * 16384 + (k.head + j) % bankSize b) = 0 ∧
      ptrKind m b (spGet (ringInit (24 * m + b)) k.ring ((k.head + j) % bankSize b)) = none) →
    ∃ t, exec (.freeCacheRefill m b) s = .next t ∧ (getBank t.dev (24 * m + b)).count = k.count - 16 ∧
      (getBank t.dev (24 * m + b)).cache = k.cache ++ (List.range 16).map fun j =>
        spGet (ringInit (24 * m + b)) k.ring ((k.head + j) % bankSize b)) ∧
  (∀ s m b k, k = getBank s.dev (24 * m + b) → 48 < k.cache.length →
    ∃ t, exec (.freeCacheWriteback m b) s = .next t ∧ (getBank t.dev (24 * m + b)).cache = k.cache.take (k.cache.length - 16) ∧
      (getBank t.dev (24 * m + b)).count = k.count + 16) ∧
  (∀ s m p rest w d, spGet (fun _ => []) s.dev.fab.repl m = p :: rest → w = (getGroup s.dev m (pcGet p Pc.mcastGroup)).toNat →
    d = { s.dev with fab := { s.dev.fab with
      repl := (spPut (fun _ => []) s.dev.fab.repl m rest),
      floods := (if pcGet p Pc.disposition = 2 then s.dev.fab.floods + 1 else s.dev.fab.floods) } } →
    (bit w 63 = false → exec (.replicate m) s = .next (commit s (releaseCopy (bump d (Reg.FABRIC_DROP 7)) p))) ∧
    (∀ q c d', bit w 63 = true →
      ecc s.dev .group (groupKey m (pcGet p Pc.mcastGroup)) ≠ 2 → groupWalk d m (bits w 17 11) (bits w 0 17) = [q] →
      (pcGet p Pc.disposition == 2 && queuePort d q == inPort p) = false → queueAdmit d q m p = (none, c, d') →
      exec (.replicate m) s = .next (commit s (setPpRef (setRef (enqueue (bump (setPpRef (setRef d' p.refKey 2) p.ppRef 2)
        (Reg.FABRIC_CNT m 3)) q m c) p.refKey 1) p.ppRef 1)))) ∧
  (∀ s e p port rest, getEditQ s.dev e = (p, port) :: rest → espBound s.dev p.queue = false →
    ∃ t, exec (.egressEdit e) s = .next t ∧ getEditQ t.dev e = rest ∧ (getPort t.dev port).txQ =
      (getPort s.dev port).txQ ++ [{ p with frame := (editPacket p).1, edits := [], edata := [] }]) ∧
  (∀ s e p port rest, getEditQ s.dev e = (p, port) :: rest → espBound s.dev p.queue = true → (laQ s.dev (port / 64)).length < 512 →
    (laQ s.dev (port / 64)).foldl (fun n x => n + x.1.frame.length) 0 + (editPacket p).1.length ≤ 1048576 →
    ∃ t, exec (.egressEdit e) s = .next t ∧ getEditQ t.dev e = rest ∧ laQ t.dev (port / 64) =
      laQ s.dev (port / 64) ++ [({ p with frame := (editPacket p).1, edits := [], edata := [] }, port)]) ∧
  (∀ p : Pkt, p.edits = [] → p.ce = false → 60 ≤ p.frame.length → editPacket p = (p.frame, false))

/-- R220: an ACRE_MAP write that changes one entry to a present acre, with no move running, puts the entry's new acre into force, leaves every other entry of the acre, and
starts the move in HOLD; one that changes nothing does nothing; one during a move is rejected. When the old acre holds no packet of the
entry, or HOLD_NS has passed (the move is then STALE), the held packets enter the new VOQ in their order. R232: WRITE_GROUP and
WRITE_MEMBER write every replicator's copy, READ_GROUP and READ_MEMBER answer the entry of a good copy, and a READ of an uncorrectable one answers RESULT 2.
What rests on the model's own reading or choice in it is logged in notes/assumptions: 46, 47 and 156. -/
def Obligations.AcreMovesAndGroups : Prop :=
  (∀ s agent a k i v new, a < 4 → k < 32 → i < 2 → WriteReaches s.dev agent (Reg.ACRE_MAP a k) v → FieldsInRange (Reg.ACRE_MAP a k) v →
    new = bits v.toNat (32 * i) 2 → bits v.toNat (32 * (1 - i)) 2 = acreMap s.dev a (2 * k + (1 - i)) →
    (new ≠ acreMap s.dev a (2 * k + i) → new < acreCount s.dev → moveF s.dev a Reg.ACRE_MOVE_STATUS_PHASE = 0 →
      ∃ t, exec (.acreMapWrite agent a k v) s = .next t ∧ moveF t.dev a Reg.ACRE_MOVE_STATUS_PHASE = 1 ∧
        moveF t.dev a Reg.ACRE_MOVE_STATUS_ENTRY = 2 * k + i ∧ moveF t.dev a Reg.ACRE_MOVE_STATUS_FROM = acreMap s.dev a (2 * k + i) ∧
        moveF t.dev a Reg.ACRE_MOVE_STATUS_TO = new ∧
        ∀ j, j < 64 → acreMap t.dev a j = if j = 2 * k + i then new else acreMap s.dev a j) ∧
    (new = acreMap s.dev a (2 * k + i) → exec (.acreMapWrite agent a k v) s = .next (commit s s.dev)) ∧
    (new ≠ acreMap s.dev a (2 * k + i) → moveF s.dev a Reg.ACRE_MOVE_STATUS_PHASE ≠ 0 →
      ∃ t, exec (.acreMapWrite agent a k v) s = .next t ∧ rd t.dev (Reg.ACRE_MAP a k) = rd s.dev (Reg.ACRE_MAP a k) ∧
        rd t.dev (Reg.ACRE_MOVE_STATUS a) = rd s.dev (Reg.ACRE_MOVE_STATUS a))) ∧
  (∀ s a tm, a < 4 → moveF s.dev a Reg.ACRE_MOVE_STATUS_PHASE = 1 → tm = moveF s.dev a Reg.ACRE_MOVE_STATUS_TO →
    (getVoq s.dev a tm).length + (getAcre s.dev a).moveHold.length ≤ 512 →
    (moveHolds s.dev a (64 * a + moveF s.dev a Reg.ACRE_MOVE_STATUS_ENTRY) (moveF s.dev a Reg.ACRE_MOVE_STATUS_FROM) = false →
      ∃ t, exec (.acreMoveDrained a) s = .next t ∧ moveF t.dev a Reg.ACRE_MOVE_STATUS_PHASE = 0 ∧ (getAcre t.dev a).moveHold = [] ∧
        getVoq t.dev a tm = getVoq s.dev a tm ++ (getAcre s.dev a).moveHold) ∧
    (moveHolds s.dev a (64 * a + moveF s.dev a Reg.ACRE_MOVE_STATUS_ENTRY) (moveF s.dev a Reg.ACRE_MOVE_STATUS_FROM) = true →
      exec (.acreMoveDrained a) s = .next (commit s s.dev)) ∧
    (∃ t, exec (.acreMoveHoldExpiry a) s = .next t ∧ moveF t.dev a Reg.ACRE_MOVE_STATUS_PHASE = 2 ∧
      moveF t.dev a Reg.ACRE_MOVE_STATUS_EXPIRED = 1 ∧ (getAcre t.dev a).moveHold = [] ∧
      getVoq t.dev a tm = getVoq s.dev a tm ++ (getAcre s.dev a).moveHold)) ∧
  (∀ s agent v i, i = getF v Reg.MC_CMD_INDEX →
    (∀ op, 1 ≤ op → op ≤ 4 → WriteReaches s.dev agent Reg.MC_CMD (setF v Reg.MC_CMD_OP op) ∧
      FieldsInRange Reg.MC_CMD (setF v Reg.MC_CMD_OP op)) →
    (i < 65536 → ecc s.dev .group (groupKey 0 i) ≠ 2 → ∃ t, exec (.readGroup agent v) s = .next t ∧
      rdF t.dev Reg.MC_STATUS Reg.MC_STATUS_RESULT = 0 ∧ rd t.dev Reg.MC_DATA = getGroup s.dev 0 i ∧ t.dev.fab = s.dev.fab) ∧
    (i < 65536 → ecc s.dev .group (groupKey 0 i) = 2 → ∃ t, exec (.readGroup agent v) s = .next t ∧
      rdF t.dev Reg.MC_STATUS Reg.MC_STATUS_RESULT = 2 ∧ t.dev.fab = s.dev.fab) ∧
    (i < 65536 → ∃ t, exec (.writeGroup agent v) s = .next t ∧ rdF t.dev Reg.MC_STATUS Reg.MC_STATUS_RESULT = 0 ∧
      ∀ m, m < 4 → getGroup t.dev m i = rd s.dev Reg.MC_DATA &&& 0x800000000FFFFFFF) ∧
    (ecc s.dev .member (memberKey 0 i) ≠ 2 → ∃ t, exec (.readMember agent v) s = .next t ∧
      rdF t.dev Reg.MC_STATUS Reg.MC_STATUS_RESULT = 0 ∧ rd t.dev Reg.MC_DATA = getMember s.dev 0 i ∧ t.dev.fab = s.dev.fab) ∧
    (∃ t, exec (.writeMember agent v) s = .next t ∧ rdF t.dev Reg.MC_STATUS Reg.MC_STATUS_RESULT = 0 ∧
      ∀ m, m < 4 → getMember t.dev m i = rd s.dev Reg.MC_DATA &&& 0x1FFFFFFFF))

/-- R168, R171, R173, R175, R185, R187, for a valid table b with no profile change pending. READ answers a good unit; WRITE stores
the data at its index with its reserved bits zero (R155) and the hit bit clear, and leaves every other unit of the table; INSERT in an EXACT table replaces the action of a present key (RESULT 2) and otherwise
takes the first free way of the key's bucket with the tick of now (RESULT 0); DELETE makes the entry of a key invalid, and answers RESULT 1 for an
absent key; SEARCH answers the entry and changes nothing of Orchard's, its hit bits included; in an LPM table INSERT and DELETE run the
prefix rules of R175 and a key of R159's bad form ends in RESULT 6; AGE_SCAN visits an EXACT table; a visit invalidates a
stale DYNAMIC entry that this device settles. An absent table, or one of another kind, ends every operation in RESULT 4 and a pending profile in RESULT 8.
What rests on the model's own reading or choice in it is logged in notes/assumptions: 33, 34, 36, 38 and 39. -/
def Obligations.OrchardCommands : Prop :=
  (∀ s agent v b, tbl s.dev (getF v Reg.ORCHARD_CMD_TABLE) = some b → flagF s.dev Reg.PROFILE_STATUS Reg.PROFILE_STATUS_PENDING = false →
    let cmd := fun op => setF v Reg.ORCHARD_CMD_OP op
    let result := fun (t : State) => rdF t.dev Reg.ORCHARD_STATUS Reg.ORCHARD_STATUS_RESULT
    let index := fun (t : State) => rdF t.dev Reg.ORCHARD_STATUS Reg.ORCHARD_STATUS_INDEX
    let i := getF v Reg.ORCHARD_CMD_INDEX
    let begun := fun op => (orchBegin (startedBy s.dev 1 agent) (stored s.dev Reg.ORCHARD_CMD (cmd op))).1
    let key := keyFor b (orchKey s.dev)
    (∀ op, 1 ≤ op → op ≤ 6 → WriteReaches s.dev agent Reg.ORCHARD_CMD (cmd op) ∧ FieldsInRange Reg.ORCHARD_CMD (cmd op)) →
    (b.kind ∈ [1, 2, 3, 5, 6] → (b.kind = 2 → b.wide = false) → getF v Reg.ORCHARD_CMD_STASH = 0 → i < b.size → b.size ≤ stashBase →
      (unitBad s.dev b i = false → ∃ t, exec (.orchardRead agent v) s = .next t ∧ result t = 0 ∧ index t = i ∧ t.dev.orch = s.dev.orch ∧
        ∀ w, w < b.uw / 64 → rd t.dev (Reg.ORCHARD_DATA w) = BitVec.ofNat 64 (bits (readUnit s.dev b i) (64 * w) 64)) ∧
      (entryOk b (orchData s.dev b) = true → ∃ t, exec (.orchardWrite agent v) s = .next t ∧ result t = 0 ∧
        readUnit t.dev b i = entMask b (orchData s.dev b) ∧ hitBit t.dev b.t i = false ∧ ∀ j, j < b.size → j ≠ i → readUnit t.dev b j = readUnit s.dev b j)) ∧
    (b.kind = 1 → homeBad s.dev b key = false → eType b (orchData s.dev b) ≤ 1 →
      (∀ j, exactFind s.dev b key = some j → ∃ t, exec (.orchardInsert agent v) s = .next t ∧ result t = 2 ∧
        eAction (readUnit t.dev b j) = eAction (orchData s.dev b) ∧ eKey b (readUnit t.dev b j) = eKey b (readUnit s.dev b j)) ∧
      (∀ j, exactFind s.dev b key = none → freeWay s.dev b (bucketIdx b 0 (bucketOf b 0 key)) = some j → j < stashBase →
        ∃ t, exec (.orchardInsert agent v) s = .next t ∧ result t = 0 ∧ index t = j ∧
          readUnit t.dev b j = eSet b (mkEntry b (eType b (orchData s.dev b)) key (eAction (orchData s.dev b))) 163 12 (nowTick s.dev))) ∧
    (b.kind = 1 → homeBad s.dev b key = false →
      (∀ j, exactFind s.dev b key = some j → ∃ t, exec (.orchardDelete agent v) s = .next t ∧ result t = 0 ∧
        eValid b (readUnit t.dev b j) = false ∧ hitBit t.dev b.t j = false) ∧
      (exactFind s.dev b key = none → ∃ t, exec (.orchardDelete agent v) s = .next t ∧ result t = 1 ∧ t.dev.orch = s.dev.orch)) ∧
    (b.kind = 1 →
      (∀ j, exactLookup s.dev b key = some j → j < 2 ^ 25 →
        ∃ t, exec (.orchardSearch agent v) s = .next t ∧ result t = 0 ∧ index t = j ∧ t.dev.orch = s.dev.orch) ∧
      (exactLookup s.dev b key = none →
        ∃ t, exec (.orchardSearch agent v) s = .next t ∧ result t = (if homeBad s.dev b key then 7 else 1) ∧ t.dev.orch = s.dev.orch) ∧
      exec (.ageScan agent v) s = .next (commit s (orchEnd (ageTable (begun 6) b) 0 none))) ∧
    (b.kind = 2 ∨ b.kind = 3 →
      exec (.orchardInsert agent v) s = .next (commit s (lpmInsert (begun 3) b key (rd s.dev (Reg.ORCHARD_DATA 0)).toNat)) ∧
      exec (.orchardDelete agent v) s = .next (commit s (lpmDelete (begun 4) b key)) ∧
      (lpmKeyOk b key = false → ∃ t, exec (.orchardInsert agent v) s = .next t ∧ result t = 6 ∧ t.dev.orch = s.dev.orch))) ∧
  (∀ s agent v c op, (c, op) ∈ [(Instr.orchardRead agent v, 1), (.orchardWrite agent v, 2), (.orchardInsert agent v, 3), (.orchardDelete agent v, 4),
      (.orchardSearch agent v, 5), (.ageScan agent v, 6)] → WriteReaches s.dev agent Reg.ORCHARD_CMD (setF v Reg.ORCHARD_CMD_OP op) →
    FieldsInRange Reg.ORCHARD_CMD (setF v Reg.ORCHARD_CMD_OP op) →
    (flagF s.dev Reg.PROFILE_STATUS Reg.PROFILE_STATUS_PENDING = true →
      ∃ t, exec c s = .next t ∧ rdF t.dev Reg.ORCHARD_STATUS Reg.ORCHARD_STATUS_RESULT = 8 ∧ t.dev.orch = s.dev.orch) ∧
    (flagF s.dev Reg.PROFILE_STATUS Reg.PROFILE_STATUS_PENDING = false → (∀ b, tbl s.dev (getF v Reg.ORCHARD_CMD_TABLE) = some b → b.kind ∉ [1, 2, 3, 5, 6]) →
      ∃ t, exec c s = .next t ∧ rdF t.dev Reg.ORCHARD_STATUS Reg.ORCHARD_STATUS_RESULT = 4 ∧ t.dev.orch = s.dev.orch)) ∧
  (∀ d b i, i < stashBase → unitBad d b i = false → eValid b (readUnit d b i) = true → eType b (readUnit d b i) = 0 → settles d b (eKey b (readUnit d b i)) = true →
    hitBit d b.t i = false → 0 < b.uw → (b.wide = true → b.uw = 384) →
    rdF d Reg.AGE_CFG Reg.AGE_CFG_AGE_LIMIT ≤ (nowTick d + 4096 - eMeta b (readUnit d b i) 163 12) % 4096 →
    eValid b (readUnit (ageVisit b d i) b i) = false)

/-- R178 to R181: a LEARN that reaches the table island enters the learn FIFO with the next LEARN_SEQ, or is refused when the FIFO is full; the oldest learn of a
table is settled by the table of R181, and for a table that does not learn, or for a type without an EXACT table, is refused. Each DELETE from a table whose stash is not
empty makes one stash retry due, and each due retry runs once (R171); AUTO ages every REFRESH table (R185); the gleaner corrects a single-bit error and reports an uncorrectable quarter (R189); a marker rebuild
runs once. A PROFILE_SEL write that passes every check of R162 raises the quiesce and one that fails a check is refused with its number; once every
acre has reached the quiesce the slot changes, LOADED is 1, and a table that is the same in both slots keeps its stash (R163). FLOW_HASH_SEED is
written only while every holding is closed (R21).
What rests on the model's own reading or choice in it is logged in notes/assumptions: 35, 37 and 154. -/
def Obligations.OrchardEngines : Prop :=
  (∀ s a f k slot gen dest ty key num data due src table, (getFur s.dev a f).inFlight[k]? = some ⟨slot, gen, .request 3 dest ty key num data, due⟩ →
    src = LearnSrc.packet a f slot gen num dest → table = learnTable s.dev ty →
    flagF s.dev Reg.FAULT_INJECT Reg.FAULT_INJECT_PENDING = false →
    (s.dev.orch.learnQ.length < 65536 →
      ∃ t, exec (.learnEnqueue a f k) s = .next t ∧ t.dev.orch.learnSeq = (s.dev.orch.learnSeq + 1) % 2 ^ 64 ∧
        t.dev.orch.learnQ = s.dev.orch.learnQ ++ [⟨src, table, keyOfWords key, data, s.dev.orch.learnSeq⟩] ∧
        (getFur t.dev a f).inFlight = (getFur s.dev a f).inFlight.eraseIdx k) ∧
    (65536 ≤ s.dev.orch.learnQ.length →
      ∃ t, exec (.learnEnqueue a f k) s = .next t ∧ t.dev.orch = s.dev.orch ∧
        (getFur t.dev a f).inFlight = (getFur s.dev a f).inFlight.eraseIdx k ++ [⟨slot, gen, .learned dest num true, none⟩] ∧
        rd t.dev (Reg.ORCHARD_DEV_CNT 0) = rd s.dev (Reg.ORCHARD_DEV_CNT 0) + 1)) ∧
  (∀ s n x rest a f slot gen num dest d, s.dev.orch.learnQ = x :: rest → x.table = n → n < 64 → x.src = .packet a f slot gen num dest →
    tableBusy s.dev n = false → d = wrF (setLearnQ s.dev rest) Reg.LEARN_STATUS Reg.LEARN_STATUS_SEQ_HI x.seq →
    (∀ b, tbl s.dev n = some b → b.kind = 1 → b.learn = true → flagF s.dev Reg.PROFILE_STATUS Reg.PROFILE_STATUS_LOADED = true →
      settles d b (keyFor b x.key) = true → exec (.learnSettle n) s = .next (commit s (settleAnchor d b x (keyFor b x.key)))) ∧
    (∀ b, tbl s.dev n = some b → b.kind = 1 → b.learn = true → flagF s.dev Reg.PROFILE_STATUS Reg.PROFILE_STATUS_LOADED = true →
      settles d b (keyFor b x.key) = false → exec (.learnSettle n) s = .next (commit s (settleForward d b x (keyFor b x.key)))) ∧
    (∀ b, tbl s.dev n = some b → b.learn = false → exec (.learnSettle n) s = .next (commit s (learnReply d x.src true)))) ∧
  (∀ s n x rest a f slot gen num dest, s.dev.orch.learnQ = x :: rest → x.table = n + 64 → n < 64 → x.src = .packet a f slot gen num dest →
    tableBusy s.dev x.table = false →
    ∃ t, exec (.learnSettle n) s = .next t ∧ t.dev.orch.learnQ = rest ∧
      (getFur t.dev a f).inFlight = (getFur s.dev a f).inFlight ++ [⟨slot, gen, .learned dest num true, none⟩]) ∧
  (∀ d b key action seq i, exactFind d b key = some i → eType b (readUnit d b i) = 1 →
    (settle d b key action seq).2 = d ∧ ((settle d b key action seq).1.refused = false ↔
      (eAction (readUnit d b i) ^^^ action) &&& (rd d (Reg.MOVE_MASK (activeSlot d) b.t)).toNat = 0)) ∧
  (∀ d b i, i < stashBase → stashIdx d b ≠ [] → spGet (fun _ => 0) (exactRemove d b i).orch.retry b.t = spGet (fun _ => 0) d.orch.retry b.t + 1) ∧
  (∀ s n k b d, spGet (fun _ => 0) s.dev.orch.retry n = k + 1 → tbl s.dev n = some b → b.kind = 1 →
    d = { s.dev with orch := { s.dev.orch with retry := spPut (fun _ => 0) s.dev.orch.retry n k } } →
    exec (.stashRetry n) s = .next (commit s (stashRetry d b))) ∧
  (∀ s, flagF s.dev Reg.AGE_CFG Reg.AGE_CFG_AUTO = true → orchardBusy s.dev = false →
    flagF s.dev Reg.PROFILE_STATUS Reg.PROFILE_STATUS_PENDING = false →
    exec .autoAgeScan s = .next (commit s
      (((slotTables s.dev (activeSlot s.dev)).filter fun b => b.kind == 1 && b.refresh).foldl ageTable s.dev))) ∧
  (∀ s blk row q, blk < 2048 → row < 1024 → q < 4 → flagF s.dev Reg.FAULT_INJECT Reg.FAULT_INJECT_PENDING = false →
    (∀ r, r < 4 → r ≠ q → ecc s.dev .table ((blk * 1024 + row) * 4 + r) = 0) →
    (ecc s.dev .table ((blk * 1024 + row) * 4 + q) = 1 →
      ∃ t, exec (.gleanerRowScrub blk row) s = .next t ∧ ecc t.dev .table ((blk * 1024 + row) * 4 + q) = 0) ∧
    (ecc s.dev .table ((blk * 1024 + row) * 4 + q) = 2 → tblOfBlock s.dev blk = none →
      ∃ t, exec (.gleanerRowScrub blk row) s = .next t ∧ rdF t.dev Reg.GLEAN_STATUS Reg.GLEAN_STATUS_LOST = 1 ∧
        rdF t.dev Reg.GLEAN_STATUS Reg.GLEAN_STATUS_BLOCK = blk ∧ rdF t.dev Reg.GLEAN_STATUS Reg.GLEAN_STATUS_ROW = row ∧
        rdF t.dev Reg.GLEAN_STATUS Reg.GLEAN_STATUS_QUARTER = q)) ∧
  (∀ s n h, spGet (fun _ => 0) s.dev.orch.rebuild (256 * n + h) = 1 →
    ∃ t, exec (.markerRebuild n h) s = .next t ∧ spGet (fun _ => 0) t.dev.orch.rebuild (256 * n + h) = 0) ∧
  (∀ s agent slot, slot < 2 → slot ≠ activeSlot s.dev → WriteReaches s.dev agent Reg.PROFILE_SEL (setF 0 Reg.PROFILE_SEL_SLOT slot) →
    flagF s.dev Reg.PROFILE_STATUS Reg.PROFILE_STATUS_PENDING = false →
    (profileCheck s.dev slot = 0 → ∃ t, exec (.profileSelect agent slot) s = .next t ∧ activeSlot t.dev = activeSlot s.dev ∧
      flagF t.dev Reg.PROFILE_STATUS Reg.PROFILE_STATUS_PENDING = true ∧ rdF t.dev Reg.PROFILE_STATUS Reg.PROFILE_STATUS_ERROR = rdF s.dev Reg.PROFILE_STATUS Reg.PROFILE_STATUS_ERROR) ∧
    (profileCheck s.dev slot ≠ 0 → ∃ t, exec (.profileSelect agent slot) s = .next t ∧ activeSlot t.dev = activeSlot s.dev ∧
      flagF t.dev Reg.PROFILE_STATUS Reg.PROFILE_STATUS_PENDING = false ∧
      rdF t.dev Reg.PROFILE_STATUS Reg.PROFILE_STATUS_ERROR = profileCheck s.dev slot)) ∧
  (∀ s, profilePending s.dev = true → (List.range 4).all (reachedIn s.dev) = true →
    ∃ t, exec .profileApply s = .next t ∧ activeSlot t.dev = 1 - activeSlot s.dev ∧ profilePending t.dev = false ∧
      flagF t.dev Reg.PROFILE_STATUS Reg.PROFILE_STATUS_LOADED = true ∧
      ∀ n i, i < 64 → sameTable s.dev n = true → getStash t.dev n i = getStash s.dev n i) ∧
  (∀ s agent v, WriteReaches s.dev agent Reg.FLOW_HASH_SEED v → FieldsInRange Reg.FLOW_HASH_SEED v →
    (anyHoldingOpen s.dev = false → ∃ t, exec (.flowHashSeedWrite agent v) s = .next t ∧
      rd t.dev Reg.FLOW_HASH_SEED = stored s.dev Reg.FLOW_HASH_SEED v) ∧
    (anyHoldingOpen s.dev = true → ∃ t, exec (.flowHashSeedWrite agent v) s = .next t ∧
      rd t.dev Reg.FLOW_HASH_SEED = rd s.dev Reg.FLOW_HASH_SEED))

/-- R192, R193, R203 to R206: WRITE stores the data, with VALUE bits outside MASK and reserved tag bits at 0, in the copy and the array of every target acre (all present
acres in REPLICATED mode, the named one in PARTITIONED mode) and leaves every other entry; READ answers the copy, or the cells with RAW; INVALIDATE clears
VALID; MOVE copies an entry to another index and then clears the source, so that both are valid in between (R205). An operation
writes its target acres in order, one step at the command and the rest one by one, all of them by its end (assocFinish). SEARCH answers the winner with INDEX and COUNT, or RESULT 1. The mode is written only
while every holding is closed (R195); SEG_MAP takes at most 8 segments (R196). The gleaner makes a pending repair first and else reads
the next line of its walk (R208, R209), whichever line the command names; it marks an entry whose cells differ from a good copy, and its repair makes the cells equal to
the copy (R210). A write of an entry whose repair waits cancels the repair and has the line read again (R211).
What rests on the model's own reading or choice in it is logged in notes/assumptions: 40, 41, 42 and 138. -/
def Obligations.AssocArrays : Prop :=
  (∀ s agent v i a, i = getF v Reg.ASSOC_CMD_INDEX → a = getF v Reg.ASSOC_CMD_ACRE → a < acreCount s.dev →
    let cmd := fun op => setF v Reg.ASSOC_CMD_OP op
    let result := fun (t : State) => rdF t.dev Reg.ASSOC_STATUS Reg.ASSOC_STATUS_RESULT
    let shown := fun (t : State) (e : Nat) => ∀ w, w < 11 → rd t.dev (Reg.ASSOC_DATA w) = BitVec.ofNat 64 (bits e (64 * (10 - w)) 64)
    (∀ op, 1 ≤ op → op ≤ 5 → WriteReaches s.dev agent Reg.ASSOC_CMD (cmd op) ∧ FieldsInRange Reg.ASSOC_CMD (cmd op)) →
    flagF s.dev Reg.FAULT_INJECT Reg.FAULT_INJECT_PENDING = false →
    (getF v Reg.ASSOC_CMD_RAW = 0 → ecc s.dev .assocCopy (aKey a i) ≠ 2 →
      ∃ t, exec (.assocRead agent v) s = .next t ∧ result t = 0 ∧ shown t (getCopy s.dev a i) ∧ t.dev.asc = s.dev.asc) ∧
    (getF v Reg.ASSOC_CMD_RAW = 1 →
      ∃ t, exec (.assocRead agent v) s = .next t ∧ result t = 0 ∧ shown t (getCell s.dev a i) ∧ t.dev.asc = s.dev.asc) ∧
    (∃ t, exec (.assocWrite agent v) s = .next t ∧ result t = 0 ∧
      t.dev.asc.steps = ((aTargets s.dev v).map fun b => AssocStep.put b i (aData s.dev)).drop 1 ∧ ∀ b j, b < 4 → j < 32768 →
      getCopy (assocFinish t.dev) b j = (if b ∈ aTargets s.dev v ∧ j = i then aCanon (aData s.dev) else getCopy s.dev b j) ∧
      getCell (assocFinish t.dev) b j = (if b ∈ aTargets s.dev v ∧ j = i then aCanon (aData s.dev) else getCell s.dev b j)) ∧
    ((∀ b ∈ aTargets s.dev v, ecc s.dev .assocCopy (aKey b i) ≠ 2) →
      ∃ t, exec (.assocInvalidate agent v) s = .next t ∧ result t = 0 ∧ ∀ b ∈ aTargets s.dev v,
        aValid (getCopy (assocFinish t.dev) b i) = false ∧ aValid (getCell (assocFinish t.dev) b i) = false) ∧
    (∀ src, src = getF v Reg.ASSOC_CMD_SRC_INDEX → getF v Reg.ASSOC_CMD_KEEP_SRC = 0 →
      (∀ b ∈ aTargets s.dev v, ecc s.dev .assocCopy (aKey b src) ≠ 2 ∧ aValid (getCopy s.dev b src) = true) →
      ∃ t, exec (.assocMove agent v) s = .next t ∧ result t = 0 ∧
        (∀ b, (aTargets s.dev v).head? = some b → getCopy t.dev b i = aCanon (getCopy s.dev b src) ∧
          (src ≠ i → getCopy t.dev b src = getCopy s.dev b src)) ∧
        ∀ b ∈ aTargets s.dev v, aValid (getCopy (assocFinish t.dev) b src) = false ∧
          (src ≠ i → getCopy (assocFinish t.dev) b i = aCanon (getCopy s.dev b src))) ∧
    (∀ l, l = aMatches s.dev a (aOwner (aData s.dev)) (aValue (aData s.dev)) →
      (∀ w, aWinner (aOwner (aData s.dev)) l = some w → w.1 < 32768 → ∃ t, exec (.assocSearch agent v) s = .next t ∧ result t = 0 ∧ shown t w.2 ∧
        rdF t.dev Reg.ASSOC_STATUS Reg.ASSOC_STATUS_INDEX = w.1 ∧
        rdF t.dev Reg.ASSOC_STATUS Reg.ASSOC_STATUS_COUNT = min 255 l.length) ∧
      (aWinner (aOwner (aData s.dev)) l = none → ∃ t, exec (.assocSearch agent v) s = .next t ∧ result t = 1 ∧
        rdF t.dev Reg.ASSOC_STATUS Reg.ASSOC_STATUS_COUNT = 0))) ∧
  (∀ s agent mode, mode < 2 → WriteReaches s.dev agent Reg.ASSOC_CFG (setF 0 Reg.ASSOC_CFG_MODE mode) →
    (anyHoldingOpen s.dev = false → ∃ t, exec (.assocCfgWrite agent mode) s = .next t ∧ rdF t.dev Reg.ASSOC_CFG Reg.ASSOC_CFG_MODE = mode) ∧
    (anyHoldingOpen s.dev = true → ∃ t, exec (.assocCfgWrite agent mode) s = .next t ∧ rd t.dev Reg.ASSOC_CFG = rd s.dev Reg.ASSOC_CFG)) ∧
  (∀ s agent a h v, a < acreCount s.dev → h < 256 → WriteReaches s.dev agent (Reg.SEG_MAP a h) v →
    flagF s.dev Reg.FAULT_INJECT Reg.FAULT_INJECT_PENDING = false →
    (popCount 64 v.toNat ≤ 8 → ∃ t, exec (.segMapWrite agent a h v) s = .next t ∧ ∀ b, b < acreCount s.dev →
      rd t.dev (Reg.SEG_MAP b h) = if b = a ∨ flagF s.dev Reg.ASSOC_CFG Reg.ASSOC_CFG_MODE = false then v else rd s.dev (Reg.SEG_MAP b h)) ∧
    (8 < popCount 64 v.toNat → ∃ t, exec (.segMapWrite agent a h v) s = .next t ∧ rd t.dev (Reg.SEG_MAP a h) = rd s.dev (Reg.SEG_MAP a h))) ∧
  (∀ s a line k named, gleanPos s.dev a = line → k < 8 → (∀ n ∈ s.dev.asc.reread, n / 4096 ≠ a) → (∀ e ∈ s.dev.asc.repairs, e.1 / 32768 ≠ a) →
    getCell s.dev a (8 * line + k) ≠ getCopy s.dev a (8 * line + k) →
    ∃ t, exec (.assocGleanerLine a named) s = .next t ∧ repairDue t.dev a (8 * line + k) = true ∧ gleanPos t.dev a = (line + 1) % 4096) ∧
  (∀ s a e named, (∀ n ∈ s.dev.asc.reread, n / 4096 ≠ a) → (s.dev.asc.repairs.find? fun e => e.1 / 32768 == a) = some e →
    exec (.assocGleanerLine a named) s = .next (commit s (gleanRepair a (e.1 % 32768) s.dev))) ∧
  (∀ d a i e, repairDue d a i = true → flagF d Reg.FAULT_INJECT Reg.FAULT_INJECT_PENDING = false →
    repairDue (aPut d a i e) a i = false ∧ 4096 * a + i / 8 ∈ (aPut d a i e).asc.reread) ∧
  (∀ s a n, repairDue s.dev a n = true → flagF s.dev Reg.FAULT_INJECT Reg.FAULT_INJECT_PENDING = false →
    (ecc s.dev .assocCopy (aKey a n) ≠ 2 → ∃ t, exec (.assocGleanerRepair a n) s = .next t ∧ getCell t.dev a n = aCanon (getCopy s.dev a n) ∧
      getCopy t.dev a n = aCanon (getCopy s.dev a n) ∧ repairDue t.dev a n = false ∧ ecc t.dev .assocTag (aKey a n) = 0) ∧
    (ecc s.dev .assocCopy (aKey a n) = 2 → flagF s.dev Reg.ASSOC_CFG Reg.ASSOC_CFG_MODE = true →
      ∃ t, exec (.assocGleanerRepair a n) s = .next t ∧ aValid (getCell t.dev a n) = false ∧ repairDue t.dev a n = false ∧
        rdF t.dev Reg.ASSOC_GLEAN_STATUS Reg.ASSOC_GLEAN_STATUS_LOST = 1))

/-- R120: a pipe of an instance in service takes the next reparse first, in order of return, else a released fragment, of which a cycle
takes one, else an injected packet, else a received one. R127, R128: a walk never ends beyond byte
512 or its frame, and an invalid start state ends it with cause 1. R133: a closed holding drops a packet of class 0 under CLOSED and punts classes 1
and 2 with reasons 3 and 4; DROP, PUNT and no rule act in that order. R140, R142, R144: a held fragment whose wait has passed is released to its place in order of arrival; the sweep empties an entry that has
died; a reparsed packet joins its return queue without its edits, or is dropped past its deadline (R57). R135: HARROW_WCMD replaces the named entry and leaves it when the index or an encoding is bad. R132: HOLDING_OPEN is
stored. R147 to R149: the policer passes an open punt with both tokens, and drops it without; a microsecond refills each bucket up to its burst.
What rests on the model's own reading or choice in it is logged in notes/assumptions: 25, 26, 27 and 150. -/
def Obligations.HarrowActions : Prop :=
  (∀ s n c, acreUp s.dev n = true → c = cycleOf s.dev n →
    (∀ r, backNext s.dev n (spGet (fun _ => []) s.dev.har.backQ n) = some r →
      exec (.harrowParse n) s = .next (commit s (reparse n (setCycle s.dev n (c.1 + 1) c.2)))) ∧
    (backNext s.dev n (spGet (fun _ => []) s.dev.har.backQ n) = none →
      (∀ p t, inQ s.dev n 2 = p :: t → c.2 = false →
        exec (.harrowParse n) s = .next (commit s (harrowPacket (setInQ (setCycle s.dev n (c.1 + 1) true) n 2 t) n p))) ∧
      (∀ p t d, inQ s.dev n 2 = [] ∨ c.2 = true → inQ s.dev n 3 = p :: t → d = setInQ (setCycle s.dev n (c.1 + 1) c.2) n 3 t →
        exec (.harrowParse n) s = .next (commit s
          (harrowPacket { d with host := { d.host with injBuf := d.host.injBuf - p.frame.length } } n p))) ∧
      (∀ p t, inQ s.dev n 2 = [] ∨ c.2 = true → inQ s.dev n 3 = [] → inQ s.dev n 4 = p :: t →
        exec (.harrowParse n) s = .next (commit s (harrowPacket (setInQ (setCycle s.dev n (c.1 + 1) c.2) n 4 t) n p))))) ∧
  (∀ d n start p, (walk d n start p).cursor ≤ 512 ∧ (walk d n start p).cursor ≤ p.frame.length ∧
    (stValid d n start = false → (walk d n start p).err = 1)) ∧
  (∀ d n p k h act arg first,
    (p.fromHost = false → holdingOpen d h = false → harSettle d n p k h act arg first =
      if k.cls = 1 ∨ k.cls = 2 then puntEnqueue d n (pcSet (pcSet p Pc.holding h) Pc.puntReason (2 + k.cls))
      else releaseFrame (bump d (Reg.HARROW_DROP n 2)) p) ∧
    (holdingOpen d h = true → harSettle d n p k h 2 arg first = releaseFrame (bump d (Reg.HARROW_DROP n 1)) p ∧
      harSettle d n p k h 1 arg first = puntEnqueue d n (pcSet (pcSet p Pc.holding h) Pc.puntReason arg) ∧
      harSettle d n p k h 3 arg first = puntEnqueue d n (pcSet (pcSet p Pc.holding h) Pc.puntReason 2) ∧
      (k.err = 0 → first = none → harSettle d n p k h 0 arg first = steer d n (pcSet p Pc.holding h)))) ∧
  (∀ s n k e, n < 4 → (heldQ s.dev n)[k]? = some e → ∃ t, exec (.fragWaitExpiry n k) s = .next t ∧ heldQ t.dev n = (heldQ s.dev n).eraseIdx k ∧
    inQ t.dev n 2 = arrivalPut e.1 (inQ s.dev n 2) ∧ rd t.dev (Reg.HARROW_EVT n 12) = rd s.dev (Reg.HARROW_EVT n 12) + 1) ∧
  (∀ s n b, b < 2 ^ 14 → ∃ t, exec (.fragmentSweep n b) s = .next t ∧ ∀ w, w < 4 → getFrag t.dev (fragKey n b w) =
      if fragLive s.dev n (getFrag s.dev (fragKey n b w)) = true ∨ bit (getFrag s.dev (fragKey n b w)) 127 = false
      then getFrag s.dev (fragKey n b w) else 0) ∧
  (∀ s n l rest p, backNext s.dev n (spGet (fun _ => []) s.dev.har.backQ n) = some (l, rest) → getPkt s.dev l = some p → p.loc = .reparse →
    (pastDeadline s.dev l.a p = true → exec (.reparse n) s = .next (commit s (furDrop (setBackQ s.dev n rest) l p 0x40))) ∧
    (pastDeadline s.dev l.a p = false → (getFur s.dev l.a l.f).returnQ.length < 64 → (∀ st, ecc s.dev .harrow (harStateKey l.a st) = 0) →
      ∃ t q, exec (.reparse n) s = .next t ∧ getPkt t.dev l = some q ∧ q.loc = .returning ∧ q.edits = [] ∧ q.edata = [] ∧ q.frame = p.frame ∧
        spGet (fun _ => []) t.dev.har.backQ n = rest ∧
        (getFur t.dev l.a l.f).returnQ = (getFur s.dev l.a l.f).returnQ ++ [l.slot] ∧ pcGet q Pc.flowHash = pcGet p Pc.flowHash)) ∧
  (∀ s agent n v i w, n < 4 → i = getF v Reg.HARROW_WCMD_INDEX → w = harWdata s.dev n →
    (∀ x, x < 3 → WriteReaches s.dev agent (Reg.HARROW_WCMD n) (setF v Reg.HARROW_WCMD_TABLE x) ∧
      FieldsInRange (Reg.HARROW_WCMD n) (setF v Reg.HARROW_WCMD_TABLE x)) →
    (i < 256 → bits (w 0) 13 2 ≠ 3 → bits (w 0) 52 2 ≠ 3 → bits (w 1) 34 2 ≠ 3 → ∃ t, exec (.harrowWriteState agent n v) s = .next t ∧
      rd t.dev (Reg.HARROW_WCMD n) = setF (v &&& 0x1FFF) Reg.HARROW_WCMD_TABLE 0 ∧ stWord t.dev n i 0 = w 0 ∧ stWord t.dev n i 1 = bits (w 1) 0 62 ∧ stWord t.dev n i 2 = w 2 &&& 0x0000FFFF3FFFFFFF ∧
      ∀ j x, j < 256 → j ≠ i → x < 4 → stWord t.dev n j x = stWord s.dev n j x) ∧
    (i < 2048 → bits (w 0) 40 2 ≠ 3 → ∃ t, exec (.harrowWriteTrans agent n v) s = .next t ∧
      rd t.dev (Reg.HTRANS n i 0) = BitVec.ofNat 64 (w 0 &&& 0x8003FFFFFFFFFFFF) ∧ rd t.dev (Reg.HTRANS n i 1) = BitVec.ofNat 64 (bits (w 1) 0 40)) ∧
    (i < 1024 → bits (w 0) 44 2 ≠ 3 → ∃ t, exec (.harrowWriteHoldRule agent n v) s = .next t ∧
      rd t.dev (Reg.HOLD_RULE n i 0) = BitVec.ofNat 64 (w 0 &&& 0x803FFFFFFFFFFFFF) ∧
      rd t.dev (Reg.HOLD_RULE n i 1) = BitVec.ofNat 64 (bits (w 1) 0 44)) ∧
    (255 < i ∨ bits (w 0) 13 2 = 3 ∨ bits (w 0) 52 2 = 3 ∨ bits (w 1) 34 2 = 3 → ∃ t, exec (.harrowWriteState agent n v) s = .next t ∧
      (∀ j x, j < 256 → x < 4 → stWord t.dev n j x = stWord s.dev n j x) ∧
      rd t.dev (Reg.HARROW_EVT n 19) = rd s.dev (Reg.HARROW_EVT n 19) + 1)) ∧
  (∀ s agent n v, n < 4 → WriteReaches s.dev agent (Reg.HOLDING_OPEN n) v → FieldsInRange (Reg.HOLDING_OPEN n) v →
    flagF s.dev Reg.HOST_HOLDING_STATUS Reg.HOST_HOLDING_STATUS_BUSY = false →
    ∃ t, exec (.holdingOpenWrite agent n v) s = .next t ∧ rd t.dev (Reg.HOLDING_OPEN n) = v) ∧
  (∀ s p rest, spGet (fun _ => []) s.dev.har.puntQ 0 = p :: rest → (∀ a, 0 < a → a < 4 → spGet (fun _ => []) s.dev.har.puntQ a = []) →
    pcGet p Pc.puntReason ≠ 3 → pcGet p Pc.puntReason ≠ 4 →
    (hasToken s.dev (pcGet p Pc.puntReason) = true → hasToken s.dev 256 = true → exec .puntPolicer s = .next (commit s
      (ringEnqueue (bump (takeToken (takeToken { s.dev with har := { s.dev.har with puntQ := spPut (fun _ => []) s.dev.har.puntQ 0 rest } }
        (pcGet p Pc.puntReason)) 256) (Reg.PUNT_CNT (pcGet p Pc.puntReason) 0)) p))) ∧
    (hasToken s.dev (pcGet p Pc.puntReason) = false → exec .puntPolicer s = .next (commit s
      (releaseFrame (bump (bump { s.dev with har := { s.dev.har with puntQ := spPut (fun _ => []) s.dev.har.puntQ 0 rest } }
        (Reg.PUNT_CNT (pcGet p Pc.puntReason) 1)) (Reg.HARROW_DROP 0 4)) p)))) ∧
  (∀ s, ∃ t, exec .bucketRefill s = .next t ∧ ∀ k, k < 258 →
    tokens t.dev k = min (bucketBurst s.dev k * 2 ^ 20) (tokens s.dev k + bucketRate s.dev k * 2 ^ 20 / 1000000))

/-- R38: for a packet that may run its microword u in row r, PC.upc of the next row-step is stage S's, from the packet as it stood (R30):
NOP, NEXT, a WAIT that proceeds, and BRANCH, CALL-NEXT-ROW, EXIT, RECIRC and TRAP that are not taken go to PC.upc + 1; a taken BRANCH goes to TARGET, or to PC.ret
with IMM bit 0; a taken CALL-NEXT-ROW, EXIT or RECIRC to TARGET. Each of the eight completes in rows below 23: with a nanoword that asks for
nothing and no result due, the packet stands in row r + 1 with one more row-step since its safe point and its frame, conditions and flags as
before, every other packet and every register stand, and a taken EXIT or RECIRC makes it ride (R32); with any nanoword, what the nanoword
leaves goes on so. CALL-NEXT-ROW taken sets PC.ret to the address after its own. A packet that rides passes row by row without executing and meets its pass end in row 23:
DROP frees its slot, RECIRCULATE of a pass below 3 joins the return queue at the address that its EXIT or RECIRC gave (R46). An untaken WAIT parks in the row (R49), and with 64 parked packets
drops PARK_FULL (R50). A SAFE microword clears PC.safe_steps where no request drops the packet and no profile change holds it (R60, R62). A taken TRAP drops the packet and records it (R39). A
reserved nanoword traps with code 0xE (R115), and an uncorrectable microword drops STORE_ERR (R36). What rests on the model's own reading or choice in it is
logged in notes/assumptions: 7, 140, 141 and 142. -/
def Obligations.RowSteps : Prop :=
  (∀ p u taken, nextUpc p u taken =
    if uSeq u = 2 ∧ taken = true then (if bit (uImm u) 0 then pcGet p Pc.ret else uTarget u)
    else if (uSeq u = 4 ∨ uSeq u = 5 ∨ uSeq u = 6) ∧ taken = true then uTarget u else (pcGet p Pc.upc + 1) % 1024) ∧
  (∀ s l p r u c taken, RowReady s.dev l p r u → r < 23 → uSafe u = false → pcGet p Pc.safeSteps < 48 → taken = condTrue s.dev l p (uCond u) →
    NoFlights s.dev l → ecc s.dev .nano (nanoKey (storeCopy s.dev l.a l.f) (pcGet p Pc.epoch) r (uNano u)) = 0 →
    nanoWord s.dev (storeCopy s.dev l.a l.f) (pcGet p Pc.epoch) r (uNano u) = 0 →
    (c, uSeq u) ∈ [(Instr.nop l, 0), (.next l, 1), (.branch l, 2), (.wait l, 3), (.callNextRow l, 4), (.exit l, 5), (.recirc l, 6), (.trap l, 7)] →
    (uSeq u = 3 → taken = true) → (uSeq u = 7 → taken = false) →
    ∃ t q, exec c s = .next t ∧ getPkt t.dev l = some q ∧ q.loc = .row (r + 1) false ∧ pcGet q Pc.upc = nextUpc p u taken ∧
      pcGet q Pc.safeSteps = pcGet p Pc.safeSteps + 1 ∧ q.frame = p.frame ∧ q.conds = p.conds ∧
      (q.ride = if (uSeq u = 5 ∨ uSeq u = 6) ∧ taken = true then some (uTarget u, false) else none) ∧
      pcGet q Pc.ret = (if uSeq u = 4 ∧ taken = true then (pcGet p Pc.upc + 1) % 1024 else pcGet p Pc.ret) ∧
      pcGet q Pc.disposition = (if uSeq u = 6 ∧ taken = true then 6 else pcGet p Pc.disposition) ∧
      t.dev.regs = s.dev.regs ∧ (s.dev.writes = [] → t.mem = s.mem) ∧
      ∀ l', l' ≠ l → l.f < 32 → l'.f < 32 → getPkt t.dev l' = getPkt s.dev l') ∧
  (∀ s l p r u d q, RowReady s.dev l p r u → rowLand l r s.dev = d → getPkt d l = some q → r < 23 → uSafe u = false →
    pcGet q Pc.safeSteps < 48 → uSeq u = 0 → exec (.nop l) s = .next (commit s (putPkt d l (goesOn q r (nextUpc p u false))))) ∧
  (∀ s l p r u d q imm taken c, RowReady s.dev l p r u → r < 23 → uSafe u = false → NanoRuns s.dev l p r u imm d q →
    imm = (if uSeq u = 2 ∨ uSeq u = 7 then 0 else uImm u) → pcGet q Pc.safeSteps < 48 → taken = condTrue s.dev l p (uCond u) →
    ((c, uSeq u) ∈ [(Instr.next l, 1), (.branch l, 2)] ∨ ((c, uSeq u) = (Instr.wait l, 3) ∧ taken = true) ∨
      ((c, uSeq u) ∈ [(Instr.callNextRow l, 4), (.exit l, 5), (.recirc l, 6), (.trap l, 7)] ∧ taken = false) →
        exec c s = .next (commit s (putPkt d l (goesOn q r (nextUpc p u taken))))) ∧
    (uSeq u = 4 → taken = true → exec (.callNextRow l) s = .next (commit s
      (putPkt d l (goesOn (pcSet q Pc.ret ((pcGet q Pc.upc + 1) % 1024)) r (uTarget u))))) ∧
    (uSeq u = 5 → taken = true → exec (.exit l) s = .next (commit s
      (putPkt d l { goesOn q r (uTarget u) with ride := some (uTarget u, false) }))) ∧
    (uSeq u = 6 → taken = true → exec (.recirc l) s = .next (commit s
      (putPkt d l { goesOn (pcSet q Pc.disposition 6) r (uTarget u) with ride := some (uTarget u, false) })))) ∧
  (∀ s l p r start safe, getPkt s.dev l = some p → p.loc = .row r false → p.ride = some (start, safe) → NoFlights s.dev l →
    (r < 23 → ∃ t, exec (.nop l) s = .next t ∧ getPkt t.dev l = some { p with lastRow := r + 1, loc := .row (r + 1) false } ∧ t.dev.regs = s.dev.regs) ∧
    (r = 23 → pcGet p Pc.disposition = 5 → quiesceDrop s.dev l p = none →
      ∃ t, exec (.nop l) s = .next t ∧ getPkt t.dev l = none ∧
        spGet (fun _ => 0) (getFur t.dev l.a l.f).gens l.slot = (spGet (fun _ => 0) (getFur s.dev l.a l.f).gens l.slot + 1) % 16) ∧
    (r = 23 → pcGet p Pc.disposition = 6 → pcGet p Pc.pass < 3 → (getFur s.dev l.a l.f).returnQ.length < 64 →
      ∃ t q, exec (.nop l) s = .next t ∧ getPkt t.dev l = some q ∧ q.loc = .returning ∧ pcGet q Pc.pass = pcGet p Pc.pass + 1 ∧
        pcGet q Pc.upc = start % 1024 ∧ pcGet q Pc.epoch = pcGet p Pc.epoch ∧ pcGet q Pc.entryTime = pcGet p Pc.entryTime ∧
        (getFur t.dev l.a l.f).returnQ = (getFur s.dev l.a l.f).returnQ ++ [l.slot] ∧ t.dev.regs = s.dev.regs)) ∧
  (∀ d l p r u next taken, uSafe u = true → quiesceDrop d l p = none → profilePending d = false → r < 23 → uSeq u < 4 →
    rowFinish d l p r u next taken = putPkt d l { pcSet (pcSet p Pc.upc next) Pc.safeSteps 0 with
      lastRow := r + 1, loc := .row (r + 1) false, safeHold := false, waitTaken := false }) ∧
  (∀ s l p r u, RowReady s.dev l p r u → uSeq u = 3 → condTrue s.dev l p (uCond u) = false →
    (parkedIn (getFur s.dev l.a l.f) r < 64 → ∃ t q, exec (.wait l) s = .next t ∧ getPkt t.dev l = some q ∧
      q.loc = .park r (uCond u) ∧ q.ctx = p.ctx ∧ q.frame = p.frame ∧ t.dev.fab = s.dev.fab) ∧
    (64 ≤ parkedIn (getFur s.dev l.a l.f) r → exec (.wait l) s = .next (commit s (furDrop s.dev l { p with loc := .park r (uCond u) } 0x41)))) ∧
  (∀ s l p r u d q, getPkt s.dev l = some p → u = microWord s.dev (storeCopy s.dev l.a l.f) (pcGet p Pc.epoch) r (pcGet p Pc.upc) →
    ecc s.dev .micro (microKey (storeCopy s.dev l.a l.f) (pcGet p Pc.epoch) r (pcGet p Pc.upc)) = 0 → p.loc = .row r true → p.waitTaken = true →
    p.ride = none → uSeq u = 3 → r < 23 → uSafe u = false → NanoRuns s.dev l p r u (uImm u) d q → pcGet q Pc.safeSteps < 48 →
    exec (.wait l) s = .next (commit s (putPkt d l (goesOn q r ((pcGet p Pc.upc + 1) % 1024))))) ∧
  (∀ s l p r u, RowReady s.dev l p r u → uSeq u = 7 → condTrue s.dev l p (uCond u) = true → exec (.trap l) s = .next (commit s
    (furDrop (wrFs s.dev (Reg.FURROW_TRAP l.a l.f) [(Reg.FURROW_TRAP_COUNT, min (rdF s.dev (Reg.FURROW_TRAP l.a l.f) Reg.FURROW_TRAP_COUNT + 1) (2 ^ 32 - 1)),
      (Reg.FURROW_TRAP_ROW, r), (Reg.FURROW_TRAP_UPC, pcGet p Pc.upc), (Reg.FURROW_TRAP_CODE, uImm u), (Reg.FURROW_TRAP_VALID, 1)])
      l { p with lastRow := r + 1 } 0x46))) ∧
  (∀ s l p r u, RowReady s.dev l p r u → uSeq u = 1 →
    ecc s.dev .nano (nanoKey (storeCopy s.dev l.a l.f) (pcGet p Pc.epoch) r (uNano u)) = 0 →
    nanoBad p (nanoWord s.dev (storeCopy s.dev l.a l.f) (pcGet p Pc.epoch) r (uNano u)) = true →
    exec (.next l) s = .next (commit s (trapDrop (bump s.dev (Reg.FURROW_OPCNT l.a l.f 6)) l p r 0xE))) ∧
  (∀ s l p r, getPkt s.dev l = some p → p.loc = .row r true → p.ride = none → uSeq (microWord s.dev (storeCopy s.dev l.a l.f) (pcGet p Pc.epoch) r (pcGet p Pc.upc)) = 0 →
    ecc s.dev .micro (microKey (storeCopy s.dev l.a l.f) (pcGet p Pc.epoch) r (pcGet p Pc.upc)) = 2 →
    ∃ t, exec (.nop l) s = .next t ∧ getPkt t.dev l = none)

/-- R47: an ACTIVE furrow that runs, with no injection pending, takes first a packet from its return queue, which keeps its context and starts at row 0; else, with no profile change or bubble, a
packet that the rehash hold has released to it, and else a new packet, which gets a free slot, PC.entry_time, its domain, the active bank and its domain's next number, and starts pass 0 at address 0 of row 0 (R42, R54, R60);
with no active bank it is dropped NO_ROTATION (R48), and behind 64 packets of its domain DOMAIN_FULL (R56). R51, R53: the head of a domain queue whose condition holds
wakes into stage F in an empty cycle, the earliest parked first, or waits for one, and may ask for a forced bubble. R54, R76: a packet in the exit hold leaves once every
earlier packet of its domain has left; a straggler of an expired rehash is dropped there. R57, R62: a packet whose time in the furrow exceeds
PKT_DEADLINE, and one past 48 row-steps without a safe point, is dropped, the latter with a FATAL fault; a packet at RIND_A or before its reparse stays.
What rests on the model's own reading or choice in it is logged in notes/assumptions: 8, 11, 20, 143, 144 and 146. -/
def Obligations.FurrowFlow : Prop :=
  (∀ s a f x, x = getFur s.dev a f → a < 4 → f < 17 → roleOf s.dev a f = 0 → x.fatal = none →
    flagF s.dev Reg.FAULT_INJECT Reg.FAULT_INJECT_PENDING = false →
    (∀ k t p, x.returnQ = k :: t → getPkt s.dev ⟨a, f, k⟩ = some p → p.safeHold = false →
      ∃ t', exec (.furrowEntryAdmit a f) s = .next t' ∧ (getFur t'.dev a f).returnQ = t ∧
        getPkt t'.dev ⟨a, f, k⟩ = some { p with lastRow := 0, loc := .row 0 false, safeHold := false } ∧
        ∀ j, j ≠ k → getPkt t'.dev ⟨a, f, j⟩ = getPkt s.dev ⟨a, f, j⟩) ∧
    (∀ p t, x.returnQ = [] → x.bubble = false → profilePending s.dev = false → (getAcre s.dev a).released.find? (fun e => e.1 = f) = none →
      x.entryQ = p :: t → calendarStops s.dev = false →
      (flagF s.dev Reg.PROG_EPOCH Reg.PROG_EPOCH_ACTIVE_VALID = true → x.isolating = false →
        flagF s.dev Reg.HOST_HOLDING_STATUS Reg.HOST_HOLDING_STATUS_BUSY = false →
        (domainPkts x (pcGet p Pc.flowHash % 4096)).length < 64 → (freeCtxSlot x).isSome = true →
        ∃ t' k q, exec (.furrowEntryAdmit a f) s = .next t' ∧ getPkt s.dev ⟨a, f, k⟩ = none ∧ getPkt t'.dev ⟨a, f, k⟩ = some q ∧ k < 2048 ∧
          q.frame = p.frame ∧ q.loc = .row 0 false ∧ pcGet q Pc.entryTime = s.dev.time % 2 ^ 64 ∧ pcGet q Pc.flowHash = pcGet p Pc.flowHash ∧
          pcGet q Pc.domain = pcGet p Pc.flowHash % 4096 ∧ pcGet q Pc.epoch = rdF s.dev Reg.PROG_EPOCH Reg.PROG_EPOCH_EPOCH ∧
          pcGet q Pc.pass = 0 ∧ pcGet q Pc.upc = 0 ∧ pcGet q Pc.disposition = 0 ∧ q.edits = [] ∧
          q.seq = spGet (fun _ => 0) x.nextSeq (pcGet p Pc.flowHash % 4096) ∧ (getFur t'.dev a f).entryQ = t) ∧
      (flagF s.dev Reg.PROG_EPOCH Reg.PROG_EPOCH_ACTIVE_VALID = false → ∃ t', exec (.furrowEntryAdmit a f) s = .next t' ∧
        (getFur t'.dev a f).entryQ = t ∧ (getFur t'.dev a f).pkts = x.pkts) ∧
      (flagF s.dev Reg.PROG_EPOCH Reg.PROG_EPOCH_ACTIVE_VALID = true → 64 ≤ (domainPkts x (pcGet p Pc.flowHash % 4096)).length →
        ∃ t', exec (.furrowEntryAdmit a f) s = .next t' ∧ (getFur t'.dev a f).entryQ = t ∧ (getFur t'.dev a f).pkts = x.pkts)) ∧
    (∀ e, x.returnQ = [] → x.bubble = false → profilePending s.dev = false → (getAcre s.dev a).released.find? (fun e => e.1 = f) = some e →
      calendarStops s.dev = false → x.isolating = false → flagF s.dev Reg.HOST_HOLDING_STATUS Reg.HOST_HOLDING_STATUS_BUSY = false →
      (domainPkts x (pcGet e.2 Pc.flowHash % 4096)).length < 64 → (freeCtxSlot x).isSome = true →
      ∃ t' k q, exec (.furrowEntryAdmit a f) s = .next t' ∧ getPkt s.dev ⟨a, f, k⟩ = none ∧ getPkt t'.dev ⟨a, f, k⟩ = some q ∧ k < 2048 ∧
        q.frame = e.2.frame ∧ q.loc = .row 0 false ∧ (getAcre t'.dev a).released = (getAcre s.dev a).released.erase e ∧
        (getFur t'.dev a f).entryQ = x.entryQ ∧ rehashF t'.dev a Reg.REHASH_STATUS_HELD = min 1024 (holdCount (getAcre t'.dev a)))) ∧
  (∀ s l p r c, getPkt s.dev l = some p → p.loc = .park r c → c < 64 → condTrue s.dev l p c = true → isHead (getFur s.dev l.a l.f) l.slot r p = true →
    exec (.parkWake l 0) s = .next (commit s (putPkt s.dev l { p with safeHold := false, waitTaken := true, loc := .wokenWait r false })) ∧
    (wokenBefore s.dev l r p = true → exec (.parkWake l 1) s = .next (commit s
      (putPkt s.dev l { p with safeHold := false, waitTaken := true, loc := .wokenWait r false }))) ∧
    (wokenBefore s.dev l r p = false →
      ∃ t, exec (.parkWake l 1) s = .next t ∧ getPkt t.dev l = some { p with safeHold := false, waitTaken := true, loc := .row r true })) ∧
  (∀ s l p r b, getPkt s.dev l = some p → p.loc = .wokenWait r b →
    exec (.parkWake l 0) s = .next (commit s s.dev) ∧
    (wokenBefore s.dev l r p = true → exec (.parkWake l 1) s = .next (commit s s.dev)) ∧
    (wokenBefore s.dev l r p = false → ∃ t, exec (.parkWake l 1) s = .next t ∧ getPkt t.dev l = some { p with loc := .row r true })) ∧
  (∀ s l p r c cls, getPkt s.dev l = some p → p.loc = .park r c → c < 64 → condTrue s.dev l p c = false ∨ isHead (getFur s.dev l.a l.f) l.slot r p = false →
    exec (.parkWake l cls) s = .next (commit s s.dev)) ∧
  (∀ s l p r, getPkt s.dev l = some p → p.loc = .wokenWait r false → ∃ t, exec (.forcedBubble l) s = .next t ∧
    (getFur t.dev l.a l.f).bubble = true ∧ getPkt t.dev l = some { p with loc := .wokenWait r true }) ∧
  (∀ s l p, getPkt s.dev l = some p → p.loc = .exitHold →
    (hasEarlier (getFur s.dev l.a l.f) l.slot p = true → exec (.exitHoldRelease l) s = .next (commit s s.dev)) ∧
    (hasEarlier (getFur s.dev l.a l.f) l.slot p = false → p.rehashDrop = true →
      exec (.exitHoldRelease l) s = .next (commit s (furDrop s.dev l p 0x45))) ∧
    (hasEarlier (getFur s.dev l.a l.f) l.slot p = false → p.rehashDrop = false → pcGet p Pc.disposition ≠ 4 → p.mirrorTo = none →
      exec (.exitHoldRelease l) s = .next (commit s (enterStage1 (freeSlot (tdRetire s.dev l.a l.f p) l) l.a p))) ∧
    (hasEarlier (getFur s.dev l.a l.f) l.slot p = false → p.rehashDrop = false → pcGet p Pc.disposition = 4 →
      (spGet (fun _ => []) s.dev.har.puntQ l.a).length < 256 → ∃ t, exec (.exitHoldRelease l) s = .next t ∧ getPkt t.dev l = none ∧
        spGet (fun _ => []) t.dev.har.puntQ l.a = spGet (fun _ => []) s.dev.har.puntQ l.a ++ [{ p with edits := [], edata := [], grant := none }])) ∧
  (∀ s l p, getPkt s.dev l = some p →
    (p.loc = .atRind ∨ p.loc = .reparse ∨ s.dev.time - pcGet p Pc.entryTime ≤ rdF s.dev (Reg.PKT_DEADLINE l.a) Reg.PKT_DEADLINE_NS →
      exec (.late l) s = .next (commit s s.dev)) ∧
    (p.loc ≠ .atRind → p.loc ≠ .reparse → rdF s.dev (Reg.PKT_DEADLINE l.a) Reg.PKT_DEADLINE_NS < s.dev.time - pcGet p Pc.entryTime →
      exec (.late l) s = .next (commit s (releaseFrame (tdWaste (freeSlot (bump s.dev (Reg.FURROW_DROP l.a l.f 0)) l) l.a l.f p) p)))) ∧
  (∀ s l p r, getPkt s.dev l = some p → rowOf p = some r → p.ride = none → 48 ≤ pcGet p Pc.safeSteps →
    uSafe (microWord s.dev (storeCopy s.dev l.a l.f) (pcGet p Pc.epoch) r (pcGet p Pc.upc)) = false →
    ∃ t, exec (.safeBound l) s = .next t ∧ getPkt t.dev l = none ∧ ∃ m ∈ t.dev.flt.pending, m.source = 512 + (32 * l.a + l.f) % 256 ∧ m.sev = 3)

/-- R66: a write of the MICRO window while the window bank is LOADABLE puts the two microwords at its offset into the master copy and leaves every other microword; in
another state the stores stay and PROG_STATUS.ERROR is WINDOW. R65, R68: START of a LOADABLE window bank puts it in VERIFYING with ERROR 0; DISARM puts an ARMED one, with no switch
pending, back to LOADABLE, and both are refused in other states; verification of an image whose header is bad ends in LOADABLE with ERROR HEADER, one whose row image fails
its CRC with ERROR ROW_CRC and the row, and the bank ends ARMED exactly when the image passes each check and then every copy does; a copy
that an injection fails gives ERROR COPY_CRC. R69: PROG_BANK_SEL naming the ARMED bank makes a switch pending, another bank sets ERROR SELECT; at
the boundary the other bank becomes ACTIVE, the old one DRAINING and the epoch flips; with no packet of the old epoch left the old bank is LOADABLE.
What rests on the model's own reading or choice in it is logged in notes/assumptions: 12. -/
def Obligations.ProgramBanks : Prop :=
  (∀ s agent r k v b, r < 24 → k < 512 → b = windowBank s.dev → WriteReaches s.dev agent (0x2000000 + 8 * (0x2000 * r + k)) v →
    flagF s.dev Reg.FAULT_INJECT Reg.FAULT_INJECT_PENDING = false →
    (bankState s.dev b = 0 → ∃ t, exec (.microWindowWrite agent (0x2000 * r + k) v) s = .next t ∧
      microWord t.dev 0 b r (2 * k) = v.toNat % 2 ^ 32 ∧ microWord t.dev 0 b r (2 * k + 1) = v.toNat / 2 ^ 32 ∧
      (∀ c x q a, x < 2 → q < 24 → a < 1024 → (c, x, q, a / 2) ≠ (0, b, r, k) → microWord t.dev c x q a = microWord s.dev c x q a) ∧
      t.dev.prog.nano = s.dev.prog.nano ∧ t.dev.prog.header = s.dev.prog.header) ∧
    (bankState s.dev b ≠ 0 → ∃ t, exec (.microWindowWrite agent (0x2000 * r + k) v) s = .next t ∧ t.dev.prog = s.dev.prog ∧
      rdF t.dev Reg.PROG_STATUS Reg.PROG_STATUS_ERROR = 7 ∧ rdF t.dev Reg.PROG_STATUS Reg.PROG_STATUS_ERROR_ROW = 0x1F ∧
      rdF t.dev Reg.PROG_STATUS Reg.PROG_STATUS_WRITE_REJECTS = min (rdF s.dev Reg.PROG_STATUS Reg.PROG_STATUS_WRITE_REJECTS + 1) 65535)) ∧
  (∀ s agent b, b = windowBank s.dev → (∀ v, WriteReaches s.dev agent Reg.PROG_LOAD v) →
    (bankState s.dev b = 0 → ∃ t, exec (.progStart agent) s = .next t ∧ bankState t.dev b = 1 ∧ bankState t.dev (1 - b) = bankState s.dev (1 - b) ∧
      rdF t.dev Reg.PROG_STATUS Reg.PROG_STATUS_ERROR = 0 ∧ rdF t.dev Reg.PROG_STATUS Reg.PROG_STATUS_ERROR_ROW = 0x1F ∧ t.dev.prog.startedBy = agent) ∧
    (bankState s.dev b ≠ 0 → ∃ t, exec (.progStart agent) s = .next t ∧ rd t.dev Reg.PROG_STATUS = rd s.dev Reg.PROG_STATUS ∧ t.dev.prog = s.dev.prog) ∧
    (bankState s.dev b = 2 → flagF s.dev Reg.PROG_EPOCH Reg.PROG_EPOCH_SWITCH_PENDING = false →
      ∃ t, exec (.progDisarm agent) s = .next t ∧ bankState t.dev b = 0 ∧ bankState t.dev (1 - b) = bankState s.dev (1 - b)) ∧
    (bankState s.dev b ≠ 2 → ∃ t, exec (.progDisarm agent) s = .next t ∧ rd t.dev Reg.PROG_STATUS = rd s.dev Reg.PROG_STATUS)) ∧
  (∀ s b, b = windowBank s.dev → bankState s.dev b = 1 → flagF s.dev Reg.FAULT_INJECT Reg.FAULT_INJECT_PENDING = false →
    (leNat (headerBytes s.dev b 0 4) ≠ 0x54525A4E ∨ leNat (headerBytes s.dev b 4 2) ≠ 1 ∨ leNat (headerBytes s.dev b 6 2) ≠ 24 →
      ∃ t, exec .progVerifyDone s = .next t ∧ bankState t.dev b = 0 ∧ rdF t.dev Reg.PROG_STATUS Reg.PROG_STATUS_ERROR = 1 ∧ t.dev.prog = s.dev.prog) ∧
    (∀ r, leNat (headerBytes s.dev b 0 4) = 0x54525A4E → leNat (headerBytes s.dev b 4 2) = 1 → leNat (headerBytes s.dev b 6 2) = 24 →
      crcFail s.dev 0 b false = some r → ∃ t, exec .progVerifyDone s = .next t ∧ bankState t.dev b = 0 ∧
        rdF t.dev Reg.PROG_STATUS Reg.PROG_STATUS_ERROR = 2 ∧ rdF t.dev Reg.PROG_STATUS Reg.PROG_STATUS_ERROR_ROW = r ∧ t.dev.prog = s.dev.prog) ∧
    (∃ t, exec .progVerifyDone s = .next t ∧ t.dev.prog.header = s.dev.prog.header ∧ bankState t.dev b =
      if leNat (headerBytes s.dev b 0 4) = 0x54525A4E ∧ leNat (headerBytes s.dev b 4 2) = 1 ∧ leNat (headerBytes s.dev b 6 2) = 24 ∧
        crcFail s.dev 0 b false = none ∧ (s.dev.prog.rotKey.any fun key =>
          ecdsaOk key (sha384 (headerBytes s.dev b 0 0x80 ++ ((List.range 24).map (rowImage s.dev 0 b)).flatten))
            (beNat ((headerBytes s.dev b 0x80 96).take 48)) (beNat ((headerBytes s.dev b 0x80 96).drop 48))) = true ∧
        leNat (headerBytes s.dev b 0x10 4) = calendarId s.dev (activeSlot s.dev) ∧
        ((List.range 31).all fun c => (crcFail (replicateBank s.dev b) (c + 1) b false).isNone) = true then 2 else 0)) ∧
  (∀ d b c, b < 2 → c < 31 → bankState (verifyRun d b (some (c + 1))) b = 0 ∧
    (rdF (verifyRun d b (some (c + 1))) Reg.PROG_STATUS Reg.PROG_STATUS_ERROR,
        rdF (verifyRun d b (some (c + 1))) Reg.PROG_STATUS Reg.PROG_STATUS_ERROR_ROW) =
      if ¬ (leNat (headerBytes d b 0 4) = 0x54525A4E ∧ leNat (headerBytes d b 4 2) = 1 ∧ leNat (headerBytes d b 6 2) = 24) then (1, 0x1F)
      else if (crcFail d 0 b false).isSome = true then (2, (crcFail d 0 b false).getD 0)
      else if ¬ (d.prog.rotKey.any fun key => ecdsaOk key (sha384 (headerBytes d b 0 0x80 ++ ((List.range 24).map (rowImage d 0 b)).flatten))
        (beNat ((headerBytes d b 0x80 96).take 48)) (beNat ((headerBytes d b 0x80 96).drop 48))) = true then (3, 0x1F)
      else if leNat (headerBytes d b 0x10 4) ≠ calendarId d (activeSlot d) then (4, 0x1F)
      else (5, ((List.range c).findSome? fun k => crcFail (replicateBank d b) (k + 1) b false).getD 0)) ∧
  (∀ s agent b, b < 2 → (∀ v, WriteReaches s.dev agent Reg.PROG_BANK_SEL v) → flagF s.dev Reg.FAULT_INJECT Reg.FAULT_INJECT_PENDING = false →
    (bankState s.dev b = 2 → ∃ t, exec (.progBankSelWrite agent b) s = .next t ∧
      flagF t.dev Reg.PROG_EPOCH Reg.PROG_EPOCH_SWITCH_PENDING = true ∧ rdF t.dev Reg.PROG_BANK_SEL Reg.PROG_BANK_SEL_BANK = b ∧
      rdF t.dev Reg.PROG_EPOCH Reg.PROG_EPOCH_EPOCH = rdF s.dev Reg.PROG_EPOCH Reg.PROG_EPOCH_EPOCH) ∧
    (bankState s.dev b ≠ 2 → ∃ t, exec (.progBankSelWrite agent b) s = .next t ∧ rdF t.dev Reg.PROG_STATUS Reg.PROG_STATUS_ERROR = 6 ∧
      rd t.dev Reg.PROG_EPOCH = rd s.dev Reg.PROG_EPOCH)) ∧
  (∀ s b, b = windowBank s.dev → flagF s.dev Reg.PROG_EPOCH Reg.PROG_EPOCH_SWITCH_PENDING = true →
    ∃ t, exec .epochBoundary s = .next t ∧ rdF t.dev Reg.PROG_EPOCH Reg.PROG_EPOCH_EPOCH = b ∧ bankState t.dev b = 3 ∧
      bankState t.dev (1 - b) = (if flagF s.dev Reg.PROG_EPOCH Reg.PROG_EPOCH_ACTIVE_VALID then 4 else bankState s.dev (1 - b)) ∧
      flagF t.dev Reg.PROG_EPOCH Reg.PROG_EPOCH_ACTIVE_VALID = true ∧ flagF t.dev Reg.PROG_EPOCH Reg.PROG_EPOCH_SWITCH_PENDING = false ∧
      flagF t.dev Reg.PROG_EPOCH Reg.PROG_EPOCH_DRAINING = flagF s.dev Reg.PROG_EPOCH Reg.PROG_EPOCH_ACTIVE_VALID ∧ t.dev.furs = s.dev.furs) ∧
  (∀ s b, b = windowBank s.dev → bankState s.dev b = 4 →
    ((∀ e ∈ s.dev.furs, ∀ q ∈ furPkts e.2, pcGet q.2 Pc.epoch ≠ b) → ∃ t, exec .drainEnd s = .next t ∧ bankState t.dev b = 0 ∧
      flagF t.dev Reg.PROG_EPOCH Reg.PROG_EPOCH_DRAINING = false) ∧
    ((∃ e ∈ s.dev.furs, ∃ q ∈ furPkts e.2, pcGet q.2 Pc.epoch = b) → exec .drainEnd s = .next (commit s s.dev)))

/-- R71: ISOLATE of an ACTIVE furrow that no entry names makes it BUSY and isolating, and once it is empty ISOLATED; RETURN of a FAILED or ISOLATED one makes it TEST, whose pass
makes it SPARE and whose failure FAILED with LAST_ERR 4; TAKEOVER makes the spare ACTIVE, and ACTIVATE a SPARE; a request that the role does not accept sets LAST_ERR alone. R72, R73: a hang
is a FATAL fault that stops admission; its takeover makes an empty furrow FAILED and the spare ACTIVE, gives the spare each of its entries, and records itself in TAKEOVER_STATUS. R75, R77, R531: a write
that changes one entry to an ACTIVE furrow starts an ordered rehash; one that changes both is rejected; packets
that wait for their first admission join the hold; a drained domain's held packets are released in order; at REHASH_HOLD's end all are, and the packets of
the old furrow that entered by the entry before the write are marked for their drop.
What rests on the model's own reading or choice in it is logged in notes/assumptions: 9, 29, 144, 145 and 146. -/
def Obligations.FurrowRoles : Prop :=
  (∀ s agent a f, a < 4 → f < 17 → (∀ v, WriteReaches s.dev agent (Reg.FURROW_ROLE a f) v) → (getFur s.dev a f).fatal = none →
    flagF s.dev (Reg.FURROW_ROLE a f) Reg.FURROW_ROLE_BUSY = false → a < acreCount s.dev →
    let err := fun (t : State) => rdF t.dev (Reg.FURROW_ROLE a f) Reg.FURROW_ROLE_LAST_ERR
    let busy := fun (t : State) => flagF t.dev (Reg.FURROW_ROLE a f) Reg.FURROW_ROLE_BUSY
    (roleOf s.dev a f = 0 → entriesOf s.dev a f = [] → ∃ t, exec (.furrowIsolate agent a f) s = .next t ∧ roleOf t.dev a f = 0 ∧ busy t = true ∧
      (getFur t.dev a f).isolating = true ∧ (getFur t.dev a f).pkts = (getFur s.dev a f).pkts) ∧
    (roleOf s.dev a f = 0 → entriesOf s.dev a f ≠ [] → ∃ t, exec (.furrowIsolate agent a f) s = .next t ∧ roleOf t.dev a f = 0 ∧
      busy t = false ∧ err t = 2 ∧ t.dev.furs = s.dev.furs) ∧
    (roleOf s.dev a f = 2 ∨ roleOf s.dev a f = 3 → ∃ t, exec (.furrowReturn agent a f) s = .next t ∧ roleOf t.dev a f = 4 ∧ busy t = true) ∧
    (roleOf s.dev a f = 0 → ∃ t, exec (.furrowReturn agent a f) s = .next t ∧ roleOf t.dev a f = 0 ∧ err t = 1 ∧ t.dev.furs = s.dev.furs) ∧
    (∀ sp rest, roleOf s.dev a f = 0 → (furrowsWith s.dev a 1).filter (fun g => !flagF s.dev (Reg.FURROW_ROLE a g) Reg.FURROW_ROLE_BUSY) = sp :: rest →
      ∃ t, exec (.furrowTakeover agent a f) s = .next t ∧
      roleOf t.dev a sp = 0 ∧ busy t = true ∧ (getAcre t.dev a).takeoverOf = some f) ∧
    (roleOf s.dev a f = 0 → (furrowsWith s.dev a 1).filter (fun g => !flagF s.dev (Reg.FURROW_ROLE a g) Reg.FURROW_ROLE_BUSY) = [] →
      ∃ t, exec (.furrowTakeover agent a f) s = .next t ∧ err t = 3 ∧ t.dev.furs = s.dev.furs) ∧
    (roleOf s.dev a f = 1 → ∃ t, exec (.furrowActivate agent a f) s = .next t ∧ roleOf t.dev a f = 0 ∧ err t = 0)) ∧
  (∀ s a f, a < 4 → f < 17 →
    ((getFur s.dev a f).isolating = true → entriesOf s.dev a f = [] → furPkts (getFur s.dev a f) = [] → (getFur s.dev a f).entryQ = [] →
      (∀ e ∈ (getAcre s.dev a).released, e.1 ≠ f) → ∃ t, exec (.isolateComplete a f) s = .next t ∧ roleOf t.dev a f = 3 ∧
        flagF t.dev (Reg.FURROW_ROLE a f) Reg.FURROW_ROLE_BUSY = false ∧ (getFur t.dev a f).isolating = false) ∧
    (∀ pass, roleOf s.dev a f = 4 → ∃ t, exec (.selfTestDone a f pass) s = .next t ∧ roleOf t.dev a f = (if pass then 1 else 2) ∧
      flagF t.dev (Reg.FURROW_ROLE a f) Reg.FURROW_ROLE_BUSY = false ∧
      (pass = false → rdF t.dev (Reg.FURROW_ROLE a f) Reg.FURROW_ROLE_LAST_ERR = 4)) ∧
    (roleOf s.dev a f = 0 → (getFur s.dev a f).fatal = none → ∃ t, exec (.furrowHang a f) s = .next t ∧
      (getFur t.dev a f).fatal = some s.dev.time ∧ t.dev.regs = s.dev.regs) ∧
    (∀ sp rest t0, (getFur s.dev a f).fatal = some t0 → roleOf s.dev a f = 0 → furPkts (getFur s.dev a f) = [] →
      (getFur s.dev a f).entryQ = [] → (getAcre s.dev a).released = [] → furrowsWith s.dev a 1 = sp :: rest → rehashActive s.dev a = false →
      ∃ t, exec (.spareTakeover a f) s = .next t ∧ roleOf t.dev a f = 2 ∧ roleOf t.dev a sp = 0 ∧ (getFur t.dev a f).fatal = none ∧
        (getFur t.dev a sp).port = (getFur s.dev a f).port ∧
        (∀ i, i < 256 → furrowMap t.dev a i = if furrowMap s.dev a i = f then sp else furrowMap s.dev a i) ∧
        rdF t.dev (Reg.TAKEOVER_STATUS a) Reg.TAKEOVER_STATUS_FAILED = f ∧ rdF t.dev (Reg.TAKEOVER_STATUS a) Reg.TAKEOVER_STATUS_REPLACEMENT = sp ∧
        rdF t.dev (Reg.TAKEOVER_STATUS a) Reg.TAKEOVER_STATUS_DROPPED = min 65535 (getFur s.dev a f).tkDrops ∧
        rdF t.dev (Reg.TAKEOVER_STATUS a) Reg.TAKEOVER_STATUS_VALID = 1)) ∧
  (∀ s agent a k i v new, a < 4 → k < 128 → i < 2 → WriteReaches s.dev agent (Reg.FURROW_MAP a k) v → FieldsInRange (Reg.FURROW_MAP a k) v →
    a < acreCount s.dev → new = bits v.toNat (32 * i) 5 →
    (new ≠ furrowMap s.dev a (2 * k + i) → bits v.toNat (32 * (1 - i)) 5 = furrowMap s.dev a (2 * k + (1 - i)) → new < 17 →
      roleOf s.dev a new = 0 → flagF s.dev (Reg.FURROW_ROLE a new) Reg.FURROW_ROLE_BUSY = false → (getFur s.dev a new).fatal = none →
      roleOf s.dev a (furrowMap s.dev a (2 * k + i)) = 0 → furrowMap s.dev a (2 * k + i) < 17 →
      ∃ t, exec (.furrowMapWrite agent a k v) s = .next t ∧ rehashActive t.dev a = true ∧ rehashF t.dev a Reg.REHASH_STATUS_ENTRY = 2 * k + i ∧
        rehashF t.dev a Reg.REHASH_STATUS_TO = new ∧ rehashF t.dev a Reg.REHASH_STATUS_FROM = furrowMap s.dev a (2 * k + i) ∧
        (getAcre t.dev a).marks = (getFur s.dev a (furrowMap s.dev a (2 * k + i))).nextSeq ∧
        (getAcre t.dev a).rehashHold = ((getAcre s.dev a).released.filter fun e => e.1 == furrowMap s.dev a (2 * k + i) && mapEntry e.2 == 2 * k + i).map Prod.snd ++
          (getFur s.dev a (furrowMap s.dev a (2 * k + i))).entryQ.filter (fun p => mapEntry p == 2 * k + i) ∧
        ∀ j, j < 256 → furrowMap t.dev a j = if j = 2 * k + i then new else furrowMap s.dev a j) ∧
    (new ≠ furrowMap s.dev a (2 * k + i) → bits v.toNat (32 * (1 - i)) 5 ≠ furrowMap s.dev a (2 * k + (1 - i)) →
      ∃ t, exec (.furrowMapWrite agent a k v) s = .next t ∧ rd t.dev (Reg.FURROW_MAP a k) = rd s.dev (Reg.FURROW_MAP a k))) ∧
  (∀ s a dom dst, a < 4 → rehashActive s.dev a = true → dst = rehashF s.dev a Reg.REHASH_STATUS_TO →
    (drained s.dev a dom = true → roleOf s.dev a dst = 0 → ∃ t, exec (.rehashDomainDrained a dom) s = .next t ∧
      (getAcre t.dev a).released = (getAcre s.dev a).released ++ (((getAcre s.dev a).rehashHold.filter
        fun p => pcGet p Pc.flowHash % 4096 == dom).map fun p => (dst, p)) ∧
      (getAcre t.dev a).rehashHold = (getAcre s.dev a).rehashHold.filter fun p => !(pcGet p Pc.flowHash % 4096 == dom)) ∧
    (drained s.dev a dom = false → exec (.rehashDomainDrained a dom) s = .next (commit s s.dev)) ∧
    ((getAcre s.dev a).takeoverOf = none → roleOf s.dev a dst = 0 → ∃ t, exec (.rehashHoldExpiry a) s = .next t ∧ rehashActive t.dev a = false ∧
      rehashF t.dev a Reg.REHASH_STATUS_EXPIRED = 1 ∧ (getAcre t.dev a).rehashHold = [] ∧
      (getAcre t.dev a).released = (getAcre s.dev a).released ++ (getAcre s.dev a).rehashHold.map (fun p => (dst, p)) ∧
      ∀ slot q, getPkt s.dev ⟨a, rehashF s.dev a Reg.REHASH_STATUS_FROM, slot⟩ = some q → q.mapIdx = rehashF s.dev a Reg.REHASH_STATUS_ENTRY →
        belowMark (getAcre s.dev a) q = true → (getPkt t.dev ⟨a, rehashF s.dev a Reg.REHASH_STATUS_FROM, slot⟩).any (fun p => p.rehashDrop) = true))

/-- R86: extractor n latches its field in X[n] and no other latch. R89, R90: each ALU operation n latches its result in Y[n], and with FW writes Z, N, C and V of that ALU, else keeps
its flags: the table below gives each operation's result, C and V over operands A and B (R88); a sum of CSUM is the 16-bit one's-complement sum of the eight words. R91, R44: a
metadata write changes the writable bits of its field in its context word and nothing else. R105, R106: FSET and FCLR set and clear rotation flags, MIRROR_SET and MIRROR_CLR the mirror flag,
and DP the disposition with its reason. Each leaves everything else as it was: the rest of the packet, every other packet, the registers and the memories. -/
def Obligations.NanoData : Prop :=
  (∀ s l p, getPkt s.dev l = some p →
    (∀ n g, n < 4 → ∃ q, exec (.fieldExtract l n g) s = .next (commit s (putPkt s.dev l q)) ∧ xOut q n = extract p g ∧
      (∀ m, m < 4 → m ≠ n → xOut q m = xOut p m) ∧ { q with x0 := p.x0, x1 := p.x1, x2 := p.x2, x3 := p.x3 } = p) ∧
    (∀ n g imm a b c y cf vf, n < 2 → a = aluOperand p n g.sa g.cwa g.k imm → b = aluOperand p n g.sb g.cwb g.k imm →
      (c, y, cf, vf) ∈ [(Instr.aluMov l n g imm, a, false, false),
        (.aluAdd l n g imm, a + b, decide (2 ^ 64 ≤ a.toNat + b.toNat), decide (a.toInt + b.toInt < -(2 ^ 63) ∨ 2 ^ 63 ≤ a.toInt + b.toInt)),
        (.aluSub l n g imm, a - b, decide (a.toNat < b.toNat), decide (a.toInt - b.toInt < -(2 ^ 63) ∨ 2 ^ 63 ≤ a.toInt - b.toInt)),
        (.aluAnd l n g imm, a &&& b, false, false), (.aluOr l n g imm, a ||| b, false, false), (.aluXor l n g imm, a ^^^ b, false, false),
        (.aluAndn l n g imm, a &&& ~~~b, false, false), (.aluNot l n g imm, ~~~a, false, false),
        (.aluShl l n g imm, a <<< (b.toNat % 64), decide (b.toNat % 64 ≠ 0) && a.getLsbD (64 - b.toNat % 64), false),
        (.aluShr l n g imm, a >>> (b.toNat % 64), decide (b.toNat % 64 ≠ 0) && a.getLsbD (b.toNat % 64 - 1), false),
        (.aluSar l n g imm, a.sshiftRight (b.toNat % 64), decide (b.toNat % 64 ≠ 0) && a.getLsbD (b.toNat % 64 - 1), false),
        (.aluRol l n g imm, a.rotateLeft (b.toNat % 64), false, false),
        (.aluMin l n g imm, if b.toNat < a.toNat then b else a, decide (b.toNat < a.toNat), false),
        (.aluMax l n g imm, if a.toNat < b.toNat then b else a, decide (a.toNat < b.toNat), false),
        (.aluCsum l n g imm, (aluCsum a b).y, decide (0xFFFF < sum16 a.toNat + sum16 b.toNat), false),
        (.aluCrc l n g imm, BitVec.ofNat 64 (crcRun (b.toNat % 2 ^ 32) (beBytes 8 a.toNat)), false, false),
        (.aluPopc l n g imm, BitVec.ofNat 64 (popCount 64 a.toNat), false, false),
        (.aluClz l n g imm, BitVec.ofNat 64 (clz 64 a.toNat), false, false),
        (.aluScale l n g imm, BitVec.ofNat 64 ((a.toNat % 2 ^ 32) * (b.toNat % 2 ^ 32) / 2 ^ 32), false, false),
        (.aluAddsat l n g imm, if 2 ^ 64 ≤ a.toNat + b.toNat then BitVec.allOnes 64 else a + b, decide (2 ^ 64 ≤ a.toNat + b.toNat), false),
        (.aluSubsat l n g imm, if a.toNat < b.toNat then 0 else a - b, decide (a.toNat < b.toNat), false)] →
      exec c s = .next (commit s (putPkt s.dev l
        { p with
          y0 := if n = 0 then y else p.y0
          y1 := if n = 1 then y else p.y1
          flags0 := if n = 0 ∧ g.fw = true then b2n (y == 0) + 2 * b2n (y.getLsbD 63) + 4 * b2n cf + 8 * b2n vf else p.flags0
          flags1 := if n = 1 ∧ g.fw = true then b2n (y == 0) + 2 * b2n (y.getLsbD 63) + 4 * b2n cf + 8 * b2n vf else p.flags1 }))) ∧
    (∀ g k, g.src ≠ 7 → g.lsb < 64 → g.word < 32 → ∃ q, exec (.metadataWrite l g k) s = .next (commit s (putPkt s.dev l q)) ∧ { q with ctx := p.ctx } = p ∧
      ∀ w i, w < 32 → i < 64 → (ctxWord q w).getLsbD i =
        if w = g.word ∧ g.lsb ≤ i ∧ i < g.lsb + (g.width + 1) ∧ bit (writable w) i = true then bit (mwSource p g.src k) (i - g.lsb)
        else (ctxWord p w).getLsbD i) ∧
    (∀ c mask on, (c, mask, on) ∈ ([(.mirrorSet l, 2 ^ 16, true), (.mirrorClr l, 2 ^ 16, false)] : List (Instr × Nat × Bool)) ∨
        (mask < 2 ^ 16 ∧ (c, on) ∈ ([(.flagsSet l mask, true), (.flagsClear l mask, false)] : List (Instr × Bool))) →
      ∃ q, exec c s = .next (commit s (putPkt s.dev l q)) ∧ { q with ctx := p.ctx } = p ∧ ∀ w i, w < 32 → i < 64 →
        (ctxWord q w).getLsbD i = if w = 3 ∧ bit mask i = true then on else (ctxWord p w).getLsbD i) ∧
    (∀ v r, v < 16 → r < 256 → ∃ q, exec (.disposition l v r) s = .next (commit s (putPkt s.dev l q)) ∧ { q with ctx := p.ctx } = p ∧
      pcGet q Pc.disposition = v ∧ pcGet q Pc.dropReason = (if v = 5 then r else pcGet p Pc.dropReason) ∧
      pcGet q Pc.puntReason = (if v = 4 then r else pcGet p Pc.puntReason) ∧ pcGet q Pc.color = pcGet p Pc.color ∧
      ∀ w, w < 32 → w ≠ 2 → ctxWord q w = ctxWord p w)) ∧
  (∀ a b : W64, (aluCsum a b).y.toNat < 65536 ∧ (aluCsum a b).y.toNat % 65535 = (sum16 a.toNat + sum16 b.toNat) % 65535) ∧
  (∀ p g, (extract p g = 0 ∨ g.src ≠ 0) ∧ (g.src = 2 → g.sext = false → g.shl = 0 → extract p g = BitVec.ofNat 64 (bits p.ctx.toNat g.offset (g.width + 1))) ∧
    (g.src = 1 → hdrPresent p g.inst = false → extract p g = 0))

/-- R93, R97, R104: a lookup goes in flight with what it finds, and a COLLECT and a meter with the operands that the packet holds. R115: a
reserved encoding traps the packet with code 0xE, and an edit that overflows the list with code 0xF. R101: a request clears both conditions of its kind and supersedes
the earlier one. R367, R382: a DEEP request finds its element as it reaches the
controller. R45: a value whose packet has gone is counted as stale. R92: a result lands when no other of its packet and cycle lands before it. R95, R200: a hit in an EXACT table finds the action with HIT, a miss 0, a type that is absent or a row that it does not allow 0 with ERR, and an associative search its winner and count; the lookup lands what it found. R99: a
COLLECT lands 0 from its first faulting element on, with COLLECT_FAULT. R102, R229: an answer of the current LEARN sets LEARN_DONE, and REFUSED when it was; a BUF answer of a pool that cannot grant lands cause 1. R110, R111: an edit
that fits is appended with its data. R103: a counter update adds one packet and its length, or one of them, to its pair, and is discarded for a type that cannot take it.
What rests on the model's own reading or choice in it is logged in notes/assumptions: 10, 45, 149 and 165. -/
def Obligations.NanoRequests : Prop :=
  (∀ s l p r, getPkt s.dev l = some p → rowOf p = some r →
    let fl := fun (w : Flight) (due : Option (Nat × Nat × Nat)) => putFur s.dev l.a l.f
      { getFur s.dev l.a l.f with inFlight := (getFur s.dev l.a l.f).inFlight ++ [⟨l.slot, p.gen, w, due⟩] }
    (∀ n g w d, keyBad g.kmode g.ksrc = false → (w, d) = lookupRead l.a n g.dest g.ty (keyWords p g.kmode g.ksrc) r (pcGet p Pc.holding) s.dev →
      exec (.lookupIssue l n g) s = .next (commit s (putFur d l.a l.f
        { getFur d l.a l.f with inFlight := (getFur d l.a l.f).inFlight ++ [⟨l.slot, p.gen, w, dueAt p (r + distOf d g.ty)⟩] })) ∧ d.furs = s.dev.furs) ∧
    (∀ g, exec (.collect l g) s = .next (commit s (fl
      (.collect g.dest g.n (collectBase p g.bsrc) ((List.range (g.n + 1)).map (collectOffset p g.list)) g.ty r) (dueAt p (r + distOf s.dev g.ty))))) ∧
    (∀ isrc, exec (.meter l isrc) s = .next (commit s (fl
      (.meter ((indexSource p isrc).toNat % 2 ^ 20) (pcGet p Pc.color) p.rxLen) (dueAt p (r + 4))))) ∧
    (∀ g y b, g.mode < 3 → ltype s.dev g.ty = some y → tbl s.dev y.table = some b → y.kind = 6 → bit y.rowmask r = true →
      (indexSource p g.isrc).toNat < y.size → unitBad s.dev b (indexSource p g.isrc).toNat = false →
      exec (.counterUpdate l g) s = .next (commit s (writeUnit s.dev b (indexSource p g.isrc).toNat
        ((readUnit s.dev b (indexSource p g.isrc).toNat % 2 ^ 64 + (if g.mode = 2 then 0 else 1)) % 2 ^ 64 +
          (readUnit s.dev b (indexSource p g.isrc).toNat / 2 ^ 64 + (if g.mode = 1 then 0 else p.rxLen)) % 2 ^ 64 * 2 ^ 64)))) ∧
    (∀ g, g.mode ≠ 3 → ltype s.dev g.ty = none → exec (.counterUpdate l g) s = .next (commit s (bump s.dev (Reg.FURROW_OPCNT l.a l.f 3)))) ∧
    (∀ c n g h e op k, (c = .lookupIssue l n g ∧ keyBad g.kmode g.ksrc = true) ∨
        (c ∈ ([.deep l h, .saState l h, .learn l h, .buf l h] : List Instr) ∧ keyBad h.kmode h.ksrc = true) ∨
        ((c, op) ∈ ([(.rewrite l e, 1), (.push l e, 2), (.pop l e, 3), (.strip l e, 4), (.fixIp4 l e, 5), (.fixUdp l e, 6),
          (.fixIp6 l e, 7)] : List (Instr × Nat)) ∧ editBad p op e [] = true) ∨
        (∃ w, c = .metadataWrite l w k ∧ w.src = 7) ∨ (∃ w, c = .counterUpdate l w ∧ w.mode = 3) →
      exec c s = .next (commit s (trapDrop (bump s.dev (Reg.FURROW_OPCNT l.a l.f 6)) l p r 0xE)))) ∧
  (∀ d a n dest ty key row hold,
    let read := lookupRead a n dest ty key row hold d
    (ltype d ty = none → read = (noLookup n dest, d)) ∧
    (∀ y, ltype d ty = some y → bit y.rowmask row = false → read = (noLookup n dest, d)) ∧
    (∀ y b k, ltype d ty = some y → y.kind = 1 → bit y.rowmask row = true → tbl d y.table = some b → b.kind = 1 → k = keyFor b (keyOfWords key) →
      (∀ i, exactLookup d b k = some i → read.1 = .lookup n dest (BitVec.ofNat 64 (eAction (readUnit d b i))) true false false none ∧
        hitBit read.2 b.t i = (b.refresh || hitBit d b.t i)) ∧
      (exactLookup d b k = none → read.2.orch = d.orch ∧
        read.1 = (if homeBad d b k = true then .lookup n dest 0 false true true none else .lookup n dest 0 false false false none))) ∧
    (∀ y l, ltype d ty = some y → y.kind = 4 → bit y.rowmask row = true →
      l = aMatches d a hold ((List.range 5).foldl (fun x j => x * 2 ^ 64 + (key.getD j 0).toNat) 0) →
      (l = [] → read.1 = .lookup n dest 0 false false false (some 0)) ∧
      (∀ i e, aWinner hold l = some (i, e) → ecc d .assocTag (aKey a i) ≠ 2 →
        read.1 = .lookup n dest (BitVec.ofNat 64 (aAction e * 2 ^ 32 + min 255 l.length * 2 ^ 17 + aIndexName d a i)) true false false
          (some (min 255 l.length))))) ∧
  (∀ s l p g c kind num, getPkt s.dev l = some p → num = (getFur s.dev l.a l.f).reqCtr + 1 → p.reqs.length = 4 → keyBad g.kmode g.ksrc = false →
    (c, kind) ∈ ([(.deep l g, 1), (.saState l g, 2), (.learn l g, 3), (.buf l g, 4)] : List (Instr × Nat)) →
    ∃ t q, exec c s = .next t ∧ getPkt t.dev l = some q ∧ bit q.conds (0x10 + kind) = false ∧ bit q.conds (0x15 + kind) = false ∧
      (∀ k, k < 4 → q.reqs.getD k 0 = if k = kind - 1 then num else p.reqs.getD k 0) ∧ q.ctx = p.ctx ∧
      (getFur t.dev l.a l.f).reqCtr = num ∧ (getFur t.dev l.a l.f).inFlight = (getFur s.dev l.a l.f).inFlight ++
        [⟨l.slot, p.gen, if kind = 1 then .deep g.dest num (deepFind s.dev g.ty ((keyWords p g.kmode g.ksrc).getD 0 0).toNat).1
          else .request kind g.dest g.ty (keyWords p g.kmode g.ksrc) num (BitVec.ofNat 64 (pcGet p (Pc.result g.dest))), none⟩] ∧
      (kind ≠ 1 → t.dev.regs = s.dev.regs)) ∧
  (∀ d ty x, flagF d Reg.FAULT_INJECT Reg.FAULT_INJECT_PENDING = false →
    (deepReady d = false → (deepFind d ty x).1 = .poison ∧ rd (deepFind d ty x).2 (Reg.DEEP_CNT 9) = rd d (Reg.DEEP_CNT 9) + 1) ∧
    (deepReady d = true → rdF d (Reg.DEEP_TYPE ty 0) Reg.DEEP_TYPE_VALID = 0 ∨ rdF d (Reg.DEEP_TYPE ty 1) Reg.DEEP_TYPE_SIZE ≤ x % 2 ^ 40 →
      (deepFind d ty x).1 = .invalid ∧ rd (deepFind d ty x).2 (Reg.DEEP_CNT 14) = rd d (Reg.DEEP_CNT 14) + 1)) ∧
  (∀ s a f k e d, (getFur s.dev a f).inFlight[k]? = some e → landsAfter (getFur s.dev a f) k e = false →
    d = putFur s.dev a f { getFur s.dev a f with inFlight := (getFur s.dev a f).inFlight.eraseIdx k } →
    (getPkt s.dev ⟨a, f, e.slot⟩ = none →
      (∀ n dest v hit err poison count, e.what = .lookup n dest v hit err poison count →
        exec (.lookupResult a f k) s = .next (commit s (bump d (Reg.FURROW_OPCNT a f 5)))) ∧
      (∀ dest n base offs ty row, e.what = .collect dest n base offs ty row →
        exec (.collectLanding a f k) s = .next (commit s (bump d (Reg.FURROW_OPCNT a f 5))))) ∧
    (∀ p l, l = PktRef.mk a f e.slot → getPkt s.dev l = some p → p.gen = e.gen →
      (∀ n dest v hit err poison count, e.what = .lookup n dest v hit err poison count → n < 2 → dest < 4 →
        ∃ t q, exec (.lookupResult a f k) s = .next t ∧ getPkt t.dev l = some q ∧ pcGet q (Pc.result dest) = v.toNat ∧
          bit q.conds (0x0A + n) = hit ∧ bit q.conds (0x0C + n) = err ∧ q.frame = p.frame ∧
          (∀ m, count = some m → bit q.conds 0x0E = decide (1 ≤ m) ∧ bit q.conds 0x0F = decide (2 ≤ m) ∧ bit q.conds 0x10 = decide (m = 255)) ∧
          (count = none → ∀ c, c < 3 → bit q.conds (0x0E + c) = bit p.conds (0x0E + c))) ∧
      (∀ dest n base offs ty row x y b, e.what = .collect dest n base offs ty row → x = collectFault s.dev dest base offs ty row →
        dest + offs.length ≤ 16 → ltype s.dev ty = some y → tbl s.dev y.table = some b →
        ∃ t q, exec (.collectLanding a f k) s = .next t ∧ getPkt t.dev l = some q ∧ pcGet q Pc.collectFault = x % 32 ∧
          bit q.conds 0x15 = (x != 0x1F) ∧ ∀ j, j < offs.length → pcGet q (Pc.scratch (dest + j)) =
            if j < x then (arrayElem s.dev b (base + offs.getD j 0)).1.toNat else 0) ∧
      (∀ dest num refused, e.what = .learned dest num refused →
        (p.reqs.getD 2 0 = num → exec (.learnAnswer a f k) s = .next (commit s
          (putPkt d l (setCond (setCond p 0x13 true) 0x18 refused)))) ∧
        (p.reqs.getD 2 0 ≠ num → exec (.learnAnswer a f k) s = .next (commit s (bump d (Reg.FURROW_OPCNT a f 5))))) ∧
      (∀ dest pool key num o m, e.what = .request 4 dest pool key num o → dest < 4 → pool < 63 → p.grant = none → llNamed s.dev pool = false →
        lossless s.dev p = false → p.reqs.getD 3 0 = num → m = acreMap s.dev a (bits (pcGet p Pc.flowHash) 20 6) →
        poolPick s.dev m pool (cellsOf p) = none → ∃ t q, exec (.bufAnswer a f k) s = .next t ∧ getPkt t.dev l = some q ∧
          bit q.conds 0x14 = true ∧ bit q.conds 0x19 = true ∧ q.grant = none ∧
          pcGet q (Pc.result dest) = (2 ^ 14 + m * 2 ^ 6 + pool) % 2 ^ 64))) ∧
  (∀ s l p r g c op, getPkt s.dev l = some p → rowOf p = some r → editBad p op g [] = false → (c, op) ∈ ([(.rewrite l g, 1), (.push l g, 2), (.pop l g, 3), (.strip l g, 4), (.fixIp4 l g, 5),
      (.fixUdp l g, 6), (.fixIp6 l g, 7)] : List (Instr × Nat)) →
    (p.edits.length < 16 → p.edata.length + (if op ≤ 2 then g.len + 1 else 0) ≤ 128 → exec c s = .next (commit s (putPkt s.dev l
      { p with edits := p.edits ++ [editEntry p op g], edata := p.edata ++ ctxBytes p g.srcw (if op ≤ 2 then g.len + 1 else 0) }))) ∧
    (16 ≤ p.edits.length → exec c s = .next (commit s (trapDrop (bump s.dev (Reg.FURROW_OPCNT l.a l.f 6)) l p r 0xF))))

/-- For every command c and state s, a step of s with c at the front of its queue is exec of c on s with the queue's rest; on an empty queue it lets 1 ns of
device time pass and answers a next state whose queue is empty (the model's choice, notes/assumptions/4: R442 gives device time its resolution). No command changes the queue that it is given. -/
def Obligations.StepRunsFront : Prop :=
  (∀ (s : State) c rest, step { s with pending := c :: rest } = exec c { s with pending := rest }) ∧
  (∀ s : State, s.pending = [] → step s = .next (commit s (idleTick s.dev)) ∧ (commit s (idleTick s.dev)).pending = []) ∧
  (∀ s c, ∃ t, exec c s = .next t ∧ t.pending = s.pending)

/-- State.reset has its memories in canonical form with nothing listed, no command waiting and device time 0 (R442). Every register reads its reset value (R444): every holding is
closed (R132), PROG_EPOCH.EPOCH is 1 and ACTIVE_VALID 0 with both banks LOADABLE (R66), furrows 0 to 15 of every acre are ACTIVE and furrow 16 is SPARE (R71), and FURROW_MAP entry i
names furrow i mod 16. Every queue and hold is empty. That State.reset is the point at which the power-on reset's release is complete is the model's choice, notes/assumptions/2. -/
def Obligations.ResetState : Prop :=
  State.reset.wf = true ∧ State.reset.mem = ⟨[], [], []⟩ ∧ State.reset.pending = [] ∧ State.reset.dev.time = 0 ∧
  (∀ o, rd State.reset.dev o = resetVal State.reset.dev.fuses.half o) ∧ (∀ h, h < 256 → holdingOpen State.reset.dev h = false) ∧
  rdF State.reset.dev Reg.PROG_EPOCH Reg.PROG_EPOCH_EPOCH = 1 ∧ rdF State.reset.dev Reg.PROG_EPOCH Reg.PROG_EPOCH_ACTIVE_VALID = 0 ∧
  bankState State.reset.dev 0 = 0 ∧ bankState State.reset.dev 1 = 0 ∧
  (∀ a, a < 4 → roleOf State.reset.dev a 16 = 1 ∧ (∀ f, f < 16 → roleOf State.reset.dev a f = 0 ∧ furPkts (getFur State.reset.dev a f) = []) ∧
    ∀ i, i < 256 → furrowMap State.reset.dev a i = i % 16) ∧
  (∀ a m, getVoq State.reset.dev a m = []) ∧ (∀ n r, inQ State.reset.dev n r = []) ∧ State.reset.dev.orch.learnQ = []

/-- For every state whose memories are in canonical form with no write left over, a step answers a next state of the same kind, whatever command stands at
the front and whatever the device holds; the rest of the queue stands as it was. So no run of the machine, from any state, ever stops: the spec gives every command
an effect, and the memories that commands write (the deep store of R367, the host memory of R473 and the flash) stay plain data that compare as they read. -/
def Obligations.StepKeepsOrder : Prop :=
  (∀ s : State, s.wf = true → ∃ t, step s = .next t ∧ t.wf = true ∧ t.pending = s.pending.tail) ∧ (∀ s : State, Safe s)
end

