-- ==== Sys2Proof/Laws/Bits.lean ====
section
/-!
SUPPORT. What reading and writing a bit field does.
-/
namespace Sys2Proof.Machine

theorem bits_lt (x lo w : Nat) : bits x lo w < 2 ^ w := Nat.mod_lt _ (Nat.two_pow_pos w)

theorem testBit_bits (x lo w i : Nat) : (bits x lo w).testBit i = (decide (i < w) && x.testBit (lo + i)) := by
  simp [bits, Nat.testBit_mod_two_pow, Nat.testBit_div_two_pow, Nat.add_comm]

theorem setBits_eq_or (x lo w v : Nat) :
    setBits x lo w v = (x % 2 ^ lo) ||| ((v % 2 ^ w) <<< lo) ||| ((x / 2 ^ (lo + w)) <<< (lo + w)) := by
  have h1 : x % 2 ^ lo < 2 ^ lo := Nat.mod_lt _ (Nat.two_pow_pos lo)
  have h2 : v % 2 ^ w < 2 ^ w := Nat.mod_lt _ (Nat.two_pow_pos w)
  have h3 : x % 2 ^ lo + v % 2 ^ w * 2 ^ lo < 2 ^ (lo + w) := by
    have : v % 2 ^ w * 2 ^ lo + 2 ^ lo ≤ 2 ^ w * 2 ^ lo := by
      have := Nat.mul_le_mul_right (2 ^ lo) (Nat.succ_le_of_lt h2)
      rw [Nat.succ_mul] at this; exact this
    rw [Nat.add_comm lo w, Nat.pow_add]; omega
  have e1 : (x % 2 ^ lo) ||| ((v % 2 ^ w) <<< lo) = x % 2 ^ lo + v % 2 ^ w * 2 ^ lo := by
    rw [Nat.or_comm, ← Nat.shiftLeft_add_eq_or_of_lt h1, Nat.shiftLeft_eq]; omega
  rw [e1, Nat.or_comm, ← Nat.shiftLeft_add_eq_or_of_lt h3, Nat.shiftLeft_eq, setBits]; omega

theorem testBit_setBits (x lo w v i : Nat) :
    (setBits x lo w v).testBit i = if lo ≤ i ∧ i < lo + w then v.testBit (i - lo) else x.testBit i := by
  rw [setBits_eq_or]
  simp only [Nat.testBit_or, Nat.testBit_mod_two_pow, Nat.testBit_shiftLeft, Nat.testBit_div_two_pow]
  by_cases h1 : i < lo
  · have : ¬ lo ≤ i := by omega
    have h3 : ¬ lo + w ≤ i := by omega
    simp [h1, this, h3]
  · by_cases h2 : i < lo + w
    · have h3 : ¬ lo + w ≤ i := by omega
      have h4 : lo ≤ i := by omega
      have h5 : i - lo < w := by omega
      simp [h1, h2, h3, h4, h5]
    · have h3 : lo + w ≤ i := by omega
      have h4 : ¬ i - lo < w := by omega
      have h5 : i - (lo + w) + (lo + w) = i := by omega
      simp [h1, h2, h3, h4, h5]

/-- A field reads what was written to it, cut to its width. -/
theorem getF_setF (v : W64) (f : Fld) (x : Nat) (h : f.lo + f.w ≤ 64) : getF (setF v f x) f = x % 2 ^ f.w := by
  apply Nat.eq_of_testBit_eq; intro i
  simp only [getF, setF, testBit_bits, BitVec.toNat_ofNat, Nat.testBit_mod_two_pow, testBit_setBits]
  by_cases hi : i < f.w
  · have h1 : f.lo + i < 64 := by omega
    have h2 : f.lo ≤ f.lo + i ∧ f.lo + i < f.lo + f.w := by omega
    simp [hi, h1]
  · simp [hi]

/-- A field that lies outside the field written keeps its value. -/
theorem getF_setF_other (v : W64) (f g : Fld) (x : Nat) (h : g.lo + g.w ≤ f.lo ∨ f.lo + f.w ≤ g.lo) (hg : g.lo + g.w ≤ 64) :
    getF (setF v f x) g = getF v g := by
  apply Nat.eq_of_testBit_eq; intro i
  simp only [getF, setF, testBit_bits, BitVec.toNat_ofNat, Nat.testBit_mod_two_pow, testBit_setBits]
  by_cases hi : i < g.w
  · have h1 : g.lo + i < 64 := by omega
    have h2 : ¬ (f.lo ≤ g.lo + i ∧ g.lo + i < f.lo + f.w) := by omega
    simp [hi, h1, h2]
  · simp [hi]

end Sys2Proof.Machine
end

