-- ==== Sys2Proof/Laws/Sparse.lean ====
section
/-!
SUPPORT. What sparse storage does: what a key reads as after a write, and that writes keep the canonical form.
-/
namespace Sys2Proof.Machine

variable {α : Type}

theorem spGet_spErase_same (d : Nat → α) (m : Sp α) (a : Nat) : spGet d (spErase m a) a = d a := by
  induction m with
  | nil => rfl
  | cons e t ih =>
    obtain ⟨k, v⟩ := e
    by_cases h : a = k
    · simp only [spErase, if_pos h]; exact ih
    · simp only [spErase, if_neg h, spGet]; exact ih

theorem spGet_spErase_other (d : Nat → α) (m : Sp α) {a b : Nat} (h : b ≠ a) : spGet d (spErase m a) b = spGet d m b := by
  induction m with
  | nil => rfl
  | cons e t ih =>
    obtain ⟨k, v⟩ := e
    by_cases hk : a = k
    · subst hk; simp [spErase, spGet, h, ih]
    · simp only [spErase, if_neg hk, spGet, ih]

theorem spGet_spInsert_same (d : Nat → α) (m : Sp α) (a : Nat) (v : α) : spGet d (spInsert m a v) a = v := by
  induction m with
  | nil => simp [spInsert, spGet]
  | cons e t ih =>
    obtain ⟨k, u⟩ := e
    by_cases h1 : a < k
    · simp [spInsert, spGet, h1]
    · by_cases h2 : a = k
      · simp [spInsert, spGet, h2]
      · simp [spInsert, spGet, h1, h2, ih]

theorem spGet_spInsert_other (d : Nat → α) (m : Sp α) {a b : Nat} (v : α) (h : b ≠ a) :
    spGet d (spInsert m a v) b = spGet d m b := by
  induction m with
  | nil => simp [spInsert, spGet, h]
  | cons e t ih =>
    obtain ⟨k, u⟩ := e
    by_cases h1 : a < k
    · simp [spInsert, spGet, h1, h]
    · by_cases h2 : a = k
      · subst h2; simp [spInsert, spGet, h]
      · simp [spInsert, spGet, h1, h2, ih]

variable [DecidableEq α]

@[simp] theorem spGet_spPut_same (d : Nat → α) (m : Sp α) (a : Nat) (v : α) : spGet d (spPut d m a v) a = v := by
  unfold spPut; split
  · rename_i h; rw [spGet_spErase_same, h]
  · exact spGet_spInsert_same d m a v

theorem spGet_spPut_other (d : Nat → α) (m : Sp α) {a b : Nat} (v : α) (h : b ≠ a) :
    spGet d (spPut d m a v) b = spGet d m b := by
  unfold spPut; split
  · exact spGet_spErase_other d m h
  · exact spGet_spInsert_other d m v h

theorem spGet_spPut (d : Nat → α) (m : Sp α) (a b : Nat) (v : α) :
    spGet d (spPut d m a v) b = if b = a then v else spGet d m b := by
  by_cases h : b = a
  · subst h; simp
  · simp [h, spGet_spPut_other d m v h]

/-! The canonical form. -/

/-- Every key of a list is above a bound. -/
def spAbove (n : Nat) (m : Sp α) : Prop := ∀ e ∈ m, n < e.1

theorem spWf_cons {d : Nat → α} {k : Nat} {v : α} {t : Sp α} :
    spWf d ((k, v) :: t) = true ↔ v ≠ d k ∧ spAbove k t ∧ spWf d t = true := by
  induction t generalizing k v with
  | nil => simp [spWf, spAbove]
  | cons e t ih =>
    obtain ⟨k', v'⟩ := e
    simp only [spWf, Bool.and_eq_true, decide_eq_true_eq]
    constructor
    · rintro ⟨⟨hv, hk⟩, hw⟩
      refine ⟨hv, ?_, hw⟩
      intro e he
      rcases List.mem_cons.mp he with rfl | he
      · exact hk
      · have := (ih (k := k') (v := v')).mp (by simpa [spWf] using hw)
        exact Nat.lt_trans hk (this.2.1 e he)
    · rintro ⟨hv, ha, hw⟩
      exact ⟨⟨hv, ha (k', v') (by simp)⟩, hw⟩

omit [DecidableEq α] in
theorem spErase_above {n a : Nat} {m : Sp α} (h : spAbove n m) : spAbove n (spErase m a) := by
  induction m with
  | nil => exact h
  | cons e t ih =>
    obtain ⟨k, v⟩ := e
    have ht : spAbove n t := fun e he => h e (List.mem_cons_of_mem _ he)
    simp only [spErase]; split
    · exact ih ht
    · intro e he
      rcases List.mem_cons.mp he with rfl | he
      · exact h _ (by simp)
      · exact ih ht e he

theorem spErase_wf {d : Nat → α} {m : Sp α} (h : spWf d m = true) (a : Nat) : spWf d (spErase m a) = true := by
  induction m with
  | nil => rfl
  | cons e t ih =>
    obtain ⟨k, v⟩ := e
    obtain ⟨hv, ha, hw⟩ := spWf_cons.mp h
    simp only [spErase]; split
    · exact ih hw
    · exact spWf_cons.mpr ⟨hv, spErase_above ha, ih hw⟩

omit [DecidableEq α] in
theorem spInsert_above {n a : Nat} {v : α} {m : Sp α} (h : spAbove n m) (hn : n < a) : spAbove n (spInsert m a v) := by
  induction m with
  | nil => intro e he; simp only [spInsert, List.mem_singleton] at he; subst he; exact hn
  | cons e t ih =>
    obtain ⟨k, u⟩ := e
    have ht : spAbove n t := fun e he => h e (List.mem_cons_of_mem _ he)
    have hk : n < k := h (k, u) (by simp)
    simp only [spInsert]; split
    · intro e he
      rcases List.mem_cons.mp he with rfl | he
      · exact hn
      · exact h e he
    · split
      · intro e he
        rcases List.mem_cons.mp he with rfl | he
        · exact hn
        · exact ht e he
      · intro e he
        rcases List.mem_cons.mp he with rfl | he
        · exact hk
        · exact ih ht e he

theorem spInsert_wf {d : Nat → α} {m : Sp α} (h : spWf d m = true) {a : Nat} {v : α} (hv : v ≠ d a) :
    spWf d (spInsert m a v) = true := by
  induction m with
  | nil => simp [spInsert, spWf, hv]
  | cons e t ih =>
    obtain ⟨k, u⟩ := e
    obtain ⟨hu, ha, hw⟩ := spWf_cons.mp h
    simp only [spInsert]; split
    · rename_i hlt
      refine spWf_cons.mpr ⟨hv, ?_, h⟩
      intro e he
      rcases List.mem_cons.mp he with rfl | he
      · exact hlt
      · exact Nat.lt_trans hlt (ha e he)
    · split
      · rename_i _ heq; subst heq; exact spWf_cons.mpr ⟨hv, ha, hw⟩
      · rename_i h1 h2
        exact spWf_cons.mpr ⟨hu, spInsert_above ha (by omega), ih hw⟩

theorem spPut_wf {d : Nat → α} {m : Sp α} (h : spWf d m = true) (a : Nat) (v : α) : spWf d (spPut d m a v) = true := by
  unfold spPut; split
  · exact spErase_wf h a
  · exact spInsert_wf h ‹_›

end Sys2Proof.Machine
end

