-- ==== Sys2Proof/Laws/State.lean ====
section
/-!
SUPPORT. One lemma for each field of the device and each update: what the update leaves alone.
-/
namespace Sys2Proof.Machine

@[simp] theorem wr_time (d : Dev) (off : Nat) (v : W64) : (wr d off v).time = d.time := rfl
@[simp] theorem wr_free (d : Dev) (off : Nat) (v : W64) : (wr d off v).free = d.free := rfl
@[simp] theorem wr_fuses (d : Dev) (off : Nat) (v : W64) : (wr d off v).fuses = d.fuses := rfl
@[simp] theorem wr_voteErr (d : Dev) (off : Nat) (v : W64) : (wr d off v).voteErr = d.voteErr := rfl
@[simp] theorem wr_upset (d : Dev) (off : Nat) (v : W64) : (wr d off v).upset = d.upset := rfl
@[simp] theorem wr_writes (d : Dev) (off : Nat) (v : W64) : (wr d off v).writes = d.writes := rfl
@[simp] theorem wr_flt (d : Dev) (off : Nat) (v : W64) : (wr d off v).flt = d.flt := rfl
@[simp] theorem wr_host (d : Dev) (off : Nat) (v : W64) : (wr d off v).host = d.host := rfl
@[simp] theorem wr_prog (d : Dev) (off : Nat) (v : W64) : (wr d off v).prog = d.prog := rfl
@[simp] theorem wr_furs (d : Dev) (off : Nat) (v : W64) : (wr d off v).furs = d.furs := rfl
@[simp] theorem wr_acres (d : Dev) (off : Nat) (v : W64) : (wr d off v).acres = d.acres := rfl
@[simp] theorem wr_fab (d : Dev) (off : Nat) (v : W64) : (wr d off v).fab = d.fab := rfl
@[simp] theorem wr_orch (d : Dev) (off : Nat) (v : W64) : (wr d off v).orch = d.orch := rfl
@[simp] theorem wr_asc (d : Dev) (off : Nat) (v : W64) : (wr d off v).asc = d.asc := rfl
@[simp] theorem wr_har (d : Dev) (off : Nat) (v : W64) : (wr d off v).har = d.har := rfl
@[simp] theorem wr_deep (d : Dev) (off : Nat) (v : W64) : (wr d off v).deep = d.deep := rfl
@[simp] theorem wr_que (d : Dev) (off : Nat) (v : W64) : (wr d off v).que = d.que := rfl
@[simp] theorem wr_drl (d : Dev) (off : Nat) (v : W64) : (wr d off v).drl = d.drl := rfl
@[simp] theorem wr_rind (d : Dev) (off : Nat) (v : W64) : (wr d off v).rind = d.rind := rfl
@[simp] theorem wr_strip (d : Dev) (off : Nat) (v : W64) : (wr d off v).strip = d.strip := rfl
@[simp] theorem wr_pair (d : Dev) (off : Nat) (v : W64) : (wr d off v).pair = d.pair := rfl
@[simp] theorem wr_rst (d : Dev) (off : Nat) (v : W64) : (wr d off v).rst = d.rst := rfl
@[simp] theorem wr_perf (d : Dev) (off : Nat) (v : W64) : (wr d off v).perf = d.perf := rfl
@[simp] theorem wr_pfcDirty (d : Dev) (off : Nat) (v : W64) : (wr d off v).pfcDirty = d.pfcDirty := rfl

@[simp] theorem wrF_time (d : Dev) (off : Nat) (f : Fld) (v : Nat) : (wrF d off f v).time = d.time := rfl
@[simp] theorem wrF_free (d : Dev) (off : Nat) (f : Fld) (v : Nat) : (wrF d off f v).free = d.free := rfl
@[simp] theorem wrF_fuses (d : Dev) (off : Nat) (f : Fld) (v : Nat) : (wrF d off f v).fuses = d.fuses := rfl
@[simp] theorem wrF_voteErr (d : Dev) (off : Nat) (f : Fld) (v : Nat) : (wrF d off f v).voteErr = d.voteErr := rfl
@[simp] theorem wrF_upset (d : Dev) (off : Nat) (f : Fld) (v : Nat) : (wrF d off f v).upset = d.upset := rfl
@[simp] theorem wrF_writes (d : Dev) (off : Nat) (f : Fld) (v : Nat) : (wrF d off f v).writes = d.writes := rfl
@[simp] theorem wrF_flt (d : Dev) (off : Nat) (f : Fld) (v : Nat) : (wrF d off f v).flt = d.flt := rfl
@[simp] theorem wrF_host (d : Dev) (off : Nat) (f : Fld) (v : Nat) : (wrF d off f v).host = d.host := rfl
@[simp] theorem wrF_prog (d : Dev) (off : Nat) (f : Fld) (v : Nat) : (wrF d off f v).prog = d.prog := rfl
@[simp] theorem wrF_furs (d : Dev) (off : Nat) (f : Fld) (v : Nat) : (wrF d off f v).furs = d.furs := rfl
@[simp] theorem wrF_acres (d : Dev) (off : Nat) (f : Fld) (v : Nat) : (wrF d off f v).acres = d.acres := rfl
@[simp] theorem wrF_fab (d : Dev) (off : Nat) (f : Fld) (v : Nat) : (wrF d off f v).fab = d.fab := rfl
@[simp] theorem wrF_orch (d : Dev) (off : Nat) (f : Fld) (v : Nat) : (wrF d off f v).orch = d.orch := rfl
@[simp] theorem wrF_asc (d : Dev) (off : Nat) (f : Fld) (v : Nat) : (wrF d off f v).asc = d.asc := rfl
@[simp] theorem wrF_har (d : Dev) (off : Nat) (f : Fld) (v : Nat) : (wrF d off f v).har = d.har := rfl
@[simp] theorem wrF_deep (d : Dev) (off : Nat) (f : Fld) (v : Nat) : (wrF d off f v).deep = d.deep := rfl
@[simp] theorem wrF_que (d : Dev) (off : Nat) (f : Fld) (v : Nat) : (wrF d off f v).que = d.que := rfl
@[simp] theorem wrF_drl (d : Dev) (off : Nat) (f : Fld) (v : Nat) : (wrF d off f v).drl = d.drl := rfl
@[simp] theorem wrF_rind (d : Dev) (off : Nat) (f : Fld) (v : Nat) : (wrF d off f v).rind = d.rind := rfl
@[simp] theorem wrF_strip (d : Dev) (off : Nat) (f : Fld) (v : Nat) : (wrF d off f v).strip = d.strip := rfl
@[simp] theorem wrF_pair (d : Dev) (off : Nat) (f : Fld) (v : Nat) : (wrF d off f v).pair = d.pair := rfl
@[simp] theorem wrF_rst (d : Dev) (off : Nat) (f : Fld) (v : Nat) : (wrF d off f v).rst = d.rst := rfl
@[simp] theorem wrF_perf (d : Dev) (off : Nat) (f : Fld) (v : Nat) : (wrF d off f v).perf = d.perf := rfl
@[simp] theorem wrF_pfcDirty (d : Dev) (off : Nat) (f : Fld) (v : Nat) : (wrF d off f v).pfcDirty = d.pfcDirty := rfl

@[simp] theorem bumpN_time (d : Dev) (off n : Nat) : (bumpN d off n).time = d.time := rfl
@[simp] theorem bumpN_free (d : Dev) (off n : Nat) : (bumpN d off n).free = d.free := rfl
@[simp] theorem bumpN_fuses (d : Dev) (off n : Nat) : (bumpN d off n).fuses = d.fuses := rfl
@[simp] theorem bumpN_voteErr (d : Dev) (off n : Nat) : (bumpN d off n).voteErr = d.voteErr := rfl
@[simp] theorem bumpN_upset (d : Dev) (off n : Nat) : (bumpN d off n).upset = d.upset := rfl
@[simp] theorem bumpN_writes (d : Dev) (off n : Nat) : (bumpN d off n).writes = d.writes := rfl
@[simp] theorem bumpN_flt (d : Dev) (off n : Nat) : (bumpN d off n).flt = d.flt := rfl
@[simp] theorem bumpN_host (d : Dev) (off n : Nat) : (bumpN d off n).host = d.host := rfl
@[simp] theorem bumpN_prog (d : Dev) (off n : Nat) : (bumpN d off n).prog = d.prog := rfl
@[simp] theorem bumpN_furs (d : Dev) (off n : Nat) : (bumpN d off n).furs = d.furs := rfl
@[simp] theorem bumpN_acres (d : Dev) (off n : Nat) : (bumpN d off n).acres = d.acres := rfl
@[simp] theorem bumpN_fab (d : Dev) (off n : Nat) : (bumpN d off n).fab = d.fab := rfl
@[simp] theorem bumpN_orch (d : Dev) (off n : Nat) : (bumpN d off n).orch = d.orch := rfl
@[simp] theorem bumpN_asc (d : Dev) (off n : Nat) : (bumpN d off n).asc = d.asc := rfl
@[simp] theorem bumpN_har (d : Dev) (off n : Nat) : (bumpN d off n).har = d.har := rfl
@[simp] theorem bumpN_deep (d : Dev) (off n : Nat) : (bumpN d off n).deep = d.deep := rfl
@[simp] theorem bumpN_que (d : Dev) (off n : Nat) : (bumpN d off n).que = d.que := rfl
@[simp] theorem bumpN_drl (d : Dev) (off n : Nat) : (bumpN d off n).drl = d.drl := rfl
@[simp] theorem bumpN_rind (d : Dev) (off n : Nat) : (bumpN d off n).rind = d.rind := rfl
@[simp] theorem bumpN_strip (d : Dev) (off n : Nat) : (bumpN d off n).strip = d.strip := rfl
@[simp] theorem bumpN_pair (d : Dev) (off n : Nat) : (bumpN d off n).pair = d.pair := rfl
@[simp] theorem bumpN_rst (d : Dev) (off n : Nat) : (bumpN d off n).rst = d.rst := rfl
@[simp] theorem bumpN_perf (d : Dev) (off n : Nat) : (bumpN d off n).perf = d.perf := rfl
@[simp] theorem bumpN_pfcDirty (d : Dev) (off n : Nat) : (bumpN d off n).pfcDirty = d.pfcDirty := rfl

@[simp] theorem bump_time (d : Dev) (off : Nat) : (bump d off).time = d.time := rfl
@[simp] theorem bump_free (d : Dev) (off : Nat) : (bump d off).free = d.free := rfl
@[simp] theorem bump_fuses (d : Dev) (off : Nat) : (bump d off).fuses = d.fuses := rfl
@[simp] theorem bump_voteErr (d : Dev) (off : Nat) : (bump d off).voteErr = d.voteErr := rfl
@[simp] theorem bump_upset (d : Dev) (off : Nat) : (bump d off).upset = d.upset := rfl
@[simp] theorem bump_writes (d : Dev) (off : Nat) : (bump d off).writes = d.writes := rfl
@[simp] theorem bump_flt (d : Dev) (off : Nat) : (bump d off).flt = d.flt := rfl
@[simp] theorem bump_host (d : Dev) (off : Nat) : (bump d off).host = d.host := rfl
@[simp] theorem bump_prog (d : Dev) (off : Nat) : (bump d off).prog = d.prog := rfl
@[simp] theorem bump_furs (d : Dev) (off : Nat) : (bump d off).furs = d.furs := rfl
@[simp] theorem bump_acres (d : Dev) (off : Nat) : (bump d off).acres = d.acres := rfl
@[simp] theorem bump_fab (d : Dev) (off : Nat) : (bump d off).fab = d.fab := rfl
@[simp] theorem bump_orch (d : Dev) (off : Nat) : (bump d off).orch = d.orch := rfl
@[simp] theorem bump_asc (d : Dev) (off : Nat) : (bump d off).asc = d.asc := rfl
@[simp] theorem bump_har (d : Dev) (off : Nat) : (bump d off).har = d.har := rfl
@[simp] theorem bump_deep (d : Dev) (off : Nat) : (bump d off).deep = d.deep := rfl
@[simp] theorem bump_que (d : Dev) (off : Nat) : (bump d off).que = d.que := rfl
@[simp] theorem bump_drl (d : Dev) (off : Nat) : (bump d off).drl = d.drl := rfl
@[simp] theorem bump_rind (d : Dev) (off : Nat) : (bump d off).rind = d.rind := rfl
@[simp] theorem bump_strip (d : Dev) (off : Nat) : (bump d off).strip = d.strip := rfl
@[simp] theorem bump_pair (d : Dev) (off : Nat) : (bump d off).pair = d.pair := rfl
@[simp] theorem bump_rst (d : Dev) (off : Nat) : (bump d off).rst = d.rst := rfl
@[simp] theorem bump_perf (d : Dev) (off : Nat) : (bump d off).perf = d.perf := rfl
@[simp] theorem bump_pfcDirty (d : Dev) (off : Nat) : (bump d off).pfcDirty = d.pfcDirty := rfl

@[simp] theorem bumpSat_time (d : Dev) (off : Nat) (f : Fld) (n : Nat) : (bumpSat d off f n).time = d.time := rfl
@[simp] theorem bumpSat_free (d : Dev) (off : Nat) (f : Fld) (n : Nat) : (bumpSat d off f n).free = d.free := rfl
@[simp] theorem bumpSat_fuses (d : Dev) (off : Nat) (f : Fld) (n : Nat) : (bumpSat d off f n).fuses = d.fuses := rfl
@[simp] theorem bumpSat_voteErr (d : Dev) (off : Nat) (f : Fld) (n : Nat) : (bumpSat d off f n).voteErr = d.voteErr := rfl
@[simp] theorem bumpSat_upset (d : Dev) (off : Nat) (f : Fld) (n : Nat) : (bumpSat d off f n).upset = d.upset := rfl
@[simp] theorem bumpSat_writes (d : Dev) (off : Nat) (f : Fld) (n : Nat) : (bumpSat d off f n).writes = d.writes := rfl
@[simp] theorem bumpSat_flt (d : Dev) (off : Nat) (f : Fld) (n : Nat) : (bumpSat d off f n).flt = d.flt := rfl
@[simp] theorem bumpSat_host (d : Dev) (off : Nat) (f : Fld) (n : Nat) : (bumpSat d off f n).host = d.host := rfl
@[simp] theorem bumpSat_prog (d : Dev) (off : Nat) (f : Fld) (n : Nat) : (bumpSat d off f n).prog = d.prog := rfl
@[simp] theorem bumpSat_furs (d : Dev) (off : Nat) (f : Fld) (n : Nat) : (bumpSat d off f n).furs = d.furs := rfl
@[simp] theorem bumpSat_acres (d : Dev) (off : Nat) (f : Fld) (n : Nat) : (bumpSat d off f n).acres = d.acres := rfl
@[simp] theorem bumpSat_fab (d : Dev) (off : Nat) (f : Fld) (n : Nat) : (bumpSat d off f n).fab = d.fab := rfl
@[simp] theorem bumpSat_orch (d : Dev) (off : Nat) (f : Fld) (n : Nat) : (bumpSat d off f n).orch = d.orch := rfl
@[simp] theorem bumpSat_asc (d : Dev) (off : Nat) (f : Fld) (n : Nat) : (bumpSat d off f n).asc = d.asc := rfl
@[simp] theorem bumpSat_har (d : Dev) (off : Nat) (f : Fld) (n : Nat) : (bumpSat d off f n).har = d.har := rfl
@[simp] theorem bumpSat_deep (d : Dev) (off : Nat) (f : Fld) (n : Nat) : (bumpSat d off f n).deep = d.deep := rfl
@[simp] theorem bumpSat_que (d : Dev) (off : Nat) (f : Fld) (n : Nat) : (bumpSat d off f n).que = d.que := rfl
@[simp] theorem bumpSat_drl (d : Dev) (off : Nat) (f : Fld) (n : Nat) : (bumpSat d off f n).drl = d.drl := rfl
@[simp] theorem bumpSat_rind (d : Dev) (off : Nat) (f : Fld) (n : Nat) : (bumpSat d off f n).rind = d.rind := rfl
@[simp] theorem bumpSat_strip (d : Dev) (off : Nat) (f : Fld) (n : Nat) : (bumpSat d off f n).strip = d.strip := rfl
@[simp] theorem bumpSat_pair (d : Dev) (off : Nat) (f : Fld) (n : Nat) : (bumpSat d off f n).pair = d.pair := rfl
@[simp] theorem bumpSat_rst (d : Dev) (off : Nat) (f : Fld) (n : Nat) : (bumpSat d off f n).rst = d.rst := rfl
@[simp] theorem bumpSat_perf (d : Dev) (off : Nat) (f : Fld) (n : Nat) : (bumpSat d off f n).perf = d.perf := rfl
@[simp] theorem bumpSat_pfcDirty (d : Dev) (off : Nat) (f : Fld) (n : Nat) : (bumpSat d off f n).pfcDirty = d.pfcDirty := rfl

@[simp] theorem bumpWrap_time (d : Dev) (off : Nat) (f : Fld) (n : Nat) : (bumpWrap d off f n).time = d.time := rfl
@[simp] theorem bumpWrap_free (d : Dev) (off : Nat) (f : Fld) (n : Nat) : (bumpWrap d off f n).free = d.free := rfl
@[simp] theorem bumpWrap_fuses (d : Dev) (off : Nat) (f : Fld) (n : Nat) : (bumpWrap d off f n).fuses = d.fuses := rfl
@[simp] theorem bumpWrap_voteErr (d : Dev) (off : Nat) (f : Fld) (n : Nat) : (bumpWrap d off f n).voteErr = d.voteErr := rfl
@[simp] theorem bumpWrap_upset (d : Dev) (off : Nat) (f : Fld) (n : Nat) : (bumpWrap d off f n).upset = d.upset := rfl
@[simp] theorem bumpWrap_writes (d : Dev) (off : Nat) (f : Fld) (n : Nat) : (bumpWrap d off f n).writes = d.writes := rfl
@[simp] theorem bumpWrap_flt (d : Dev) (off : Nat) (f : Fld) (n : Nat) : (bumpWrap d off f n).flt = d.flt := rfl
@[simp] theorem bumpWrap_host (d : Dev) (off : Nat) (f : Fld) (n : Nat) : (bumpWrap d off f n).host = d.host := rfl
@[simp] theorem bumpWrap_prog (d : Dev) (off : Nat) (f : Fld) (n : Nat) : (bumpWrap d off f n).prog = d.prog := rfl
@[simp] theorem bumpWrap_furs (d : Dev) (off : Nat) (f : Fld) (n : Nat) : (bumpWrap d off f n).furs = d.furs := rfl
@[simp] theorem bumpWrap_acres (d : Dev) (off : Nat) (f : Fld) (n : Nat) : (bumpWrap d off f n).acres = d.acres := rfl
@[simp] theorem bumpWrap_fab (d : Dev) (off : Nat) (f : Fld) (n : Nat) : (bumpWrap d off f n).fab = d.fab := rfl
@[simp] theorem bumpWrap_orch (d : Dev) (off : Nat) (f : Fld) (n : Nat) : (bumpWrap d off f n).orch = d.orch := rfl
@[simp] theorem bumpWrap_asc (d : Dev) (off : Nat) (f : Fld) (n : Nat) : (bumpWrap d off f n).asc = d.asc := rfl
@[simp] theorem bumpWrap_har (d : Dev) (off : Nat) (f : Fld) (n : Nat) : (bumpWrap d off f n).har = d.har := rfl
@[simp] theorem bumpWrap_deep (d : Dev) (off : Nat) (f : Fld) (n : Nat) : (bumpWrap d off f n).deep = d.deep := rfl
@[simp] theorem bumpWrap_que (d : Dev) (off : Nat) (f : Fld) (n : Nat) : (bumpWrap d off f n).que = d.que := rfl
@[simp] theorem bumpWrap_drl (d : Dev) (off : Nat) (f : Fld) (n : Nat) : (bumpWrap d off f n).drl = d.drl := rfl
@[simp] theorem bumpWrap_rind (d : Dev) (off : Nat) (f : Fld) (n : Nat) : (bumpWrap d off f n).rind = d.rind := rfl
@[simp] theorem bumpWrap_strip (d : Dev) (off : Nat) (f : Fld) (n : Nat) : (bumpWrap d off f n).strip = d.strip := rfl
@[simp] theorem bumpWrap_pair (d : Dev) (off : Nat) (f : Fld) (n : Nat) : (bumpWrap d off f n).pair = d.pair := rfl
@[simp] theorem bumpWrap_rst (d : Dev) (off : Nat) (f : Fld) (n : Nat) : (bumpWrap d off f n).rst = d.rst := rfl
@[simp] theorem bumpWrap_perf (d : Dev) (off : Nat) (f : Fld) (n : Nat) : (bumpWrap d off f n).perf = d.perf := rfl
@[simp] theorem bumpWrap_pfcDirty (d : Dev) (off : Nat) (f : Fld) (n : Nat) : (bumpWrap d off f n).pfcDirty = d.pfcDirty := rfl

@[simp] theorem clearRegs_time (d : Dev) (p : Nat → Bool) : (clearRegs d p).time = d.time := rfl
@[simp] theorem clearRegs_free (d : Dev) (p : Nat → Bool) : (clearRegs d p).free = d.free := rfl
@[simp] theorem clearRegs_fuses (d : Dev) (p : Nat → Bool) : (clearRegs d p).fuses = d.fuses := rfl
@[simp] theorem clearRegs_voteErr (d : Dev) (p : Nat → Bool) : (clearRegs d p).voteErr = d.voteErr := rfl
@[simp] theorem clearRegs_upset (d : Dev) (p : Nat → Bool) : (clearRegs d p).upset = d.upset := rfl
@[simp] theorem clearRegs_writes (d : Dev) (p : Nat → Bool) : (clearRegs d p).writes = d.writes := rfl
@[simp] theorem clearRegs_flt (d : Dev) (p : Nat → Bool) : (clearRegs d p).flt = d.flt := rfl
@[simp] theorem clearRegs_host (d : Dev) (p : Nat → Bool) : (clearRegs d p).host = d.host := rfl
@[simp] theorem clearRegs_prog (d : Dev) (p : Nat → Bool) : (clearRegs d p).prog = d.prog := rfl
@[simp] theorem clearRegs_furs (d : Dev) (p : Nat → Bool) : (clearRegs d p).furs = d.furs := rfl
@[simp] theorem clearRegs_acres (d : Dev) (p : Nat → Bool) : (clearRegs d p).acres = d.acres := rfl
@[simp] theorem clearRegs_fab (d : Dev) (p : Nat → Bool) : (clearRegs d p).fab = d.fab := rfl
@[simp] theorem clearRegs_orch (d : Dev) (p : Nat → Bool) : (clearRegs d p).orch = d.orch := rfl
@[simp] theorem clearRegs_asc (d : Dev) (p : Nat → Bool) : (clearRegs d p).asc = d.asc := rfl
@[simp] theorem clearRegs_har (d : Dev) (p : Nat → Bool) : (clearRegs d p).har = d.har := rfl
@[simp] theorem clearRegs_deep (d : Dev) (p : Nat → Bool) : (clearRegs d p).deep = d.deep := rfl
@[simp] theorem clearRegs_que (d : Dev) (p : Nat → Bool) : (clearRegs d p).que = d.que := rfl
@[simp] theorem clearRegs_drl (d : Dev) (p : Nat → Bool) : (clearRegs d p).drl = d.drl := rfl
@[simp] theorem clearRegs_rind (d : Dev) (p : Nat → Bool) : (clearRegs d p).rind = d.rind := rfl
@[simp] theorem clearRegs_strip (d : Dev) (p : Nat → Bool) : (clearRegs d p).strip = d.strip := rfl
@[simp] theorem clearRegs_pair (d : Dev) (p : Nat → Bool) : (clearRegs d p).pair = d.pair := rfl
@[simp] theorem clearRegs_rst (d : Dev) (p : Nat → Bool) : (clearRegs d p).rst = d.rst := rfl
@[simp] theorem clearRegs_perf (d : Dev) (p : Nat → Bool) : (clearRegs d p).perf = d.perf := rfl
@[simp] theorem clearRegs_pfcDirty (d : Dev) (p : Nat → Bool) : (clearRegs d p).pfcDirty = d.pfcDirty := rfl

@[simp] theorem memWrite_time (d : Dev) (sp a : Nat) (bs : List Byte) : (memWrite d sp a bs).time = d.time := rfl
@[simp] theorem memWrite_free (d : Dev) (sp a : Nat) (bs : List Byte) : (memWrite d sp a bs).free = d.free := rfl
@[simp] theorem memWrite_fuses (d : Dev) (sp a : Nat) (bs : List Byte) : (memWrite d sp a bs).fuses = d.fuses := rfl
@[simp] theorem memWrite_regs (d : Dev) (sp a : Nat) (bs : List Byte) : (memWrite d sp a bs).regs = d.regs := rfl
@[simp] theorem memWrite_voteErr (d : Dev) (sp a : Nat) (bs : List Byte) : (memWrite d sp a bs).voteErr = d.voteErr := rfl
@[simp] theorem memWrite_upset (d : Dev) (sp a : Nat) (bs : List Byte) : (memWrite d sp a bs).upset = d.upset := rfl
@[simp] theorem memWrite_flt (d : Dev) (sp a : Nat) (bs : List Byte) : (memWrite d sp a bs).flt = d.flt := rfl
@[simp] theorem memWrite_host (d : Dev) (sp a : Nat) (bs : List Byte) : (memWrite d sp a bs).host = d.host := rfl
@[simp] theorem memWrite_prog (d : Dev) (sp a : Nat) (bs : List Byte) : (memWrite d sp a bs).prog = d.prog := rfl
@[simp] theorem memWrite_furs (d : Dev) (sp a : Nat) (bs : List Byte) : (memWrite d sp a bs).furs = d.furs := rfl
@[simp] theorem memWrite_acres (d : Dev) (sp a : Nat) (bs : List Byte) : (memWrite d sp a bs).acres = d.acres := rfl
@[simp] theorem memWrite_fab (d : Dev) (sp a : Nat) (bs : List Byte) : (memWrite d sp a bs).fab = d.fab := rfl
@[simp] theorem memWrite_orch (d : Dev) (sp a : Nat) (bs : List Byte) : (memWrite d sp a bs).orch = d.orch := rfl
@[simp] theorem memWrite_asc (d : Dev) (sp a : Nat) (bs : List Byte) : (memWrite d sp a bs).asc = d.asc := rfl
@[simp] theorem memWrite_har (d : Dev) (sp a : Nat) (bs : List Byte) : (memWrite d sp a bs).har = d.har := rfl
@[simp] theorem memWrite_deep (d : Dev) (sp a : Nat) (bs : List Byte) : (memWrite d sp a bs).deep = d.deep := rfl
@[simp] theorem memWrite_que (d : Dev) (sp a : Nat) (bs : List Byte) : (memWrite d sp a bs).que = d.que := rfl
@[simp] theorem memWrite_drl (d : Dev) (sp a : Nat) (bs : List Byte) : (memWrite d sp a bs).drl = d.drl := rfl
@[simp] theorem memWrite_rind (d : Dev) (sp a : Nat) (bs : List Byte) : (memWrite d sp a bs).rind = d.rind := rfl
@[simp] theorem memWrite_strip (d : Dev) (sp a : Nat) (bs : List Byte) : (memWrite d sp a bs).strip = d.strip := rfl
@[simp] theorem memWrite_pair (d : Dev) (sp a : Nat) (bs : List Byte) : (memWrite d sp a bs).pair = d.pair := rfl
@[simp] theorem memWrite_rst (d : Dev) (sp a : Nat) (bs : List Byte) : (memWrite d sp a bs).rst = d.rst := rfl
@[simp] theorem memWrite_perf (d : Dev) (sp a : Nat) (bs : List Byte) : (memWrite d sp a bs).perf = d.perf := rfl
@[simp] theorem memWrite_pfcDirty (d : Dev) (sp a : Nat) (bs : List Byte) : (memWrite d sp a bs).pfcDirty = d.pfcDirty := rfl

@[simp] theorem putFur_time (d : Dev) (a f : Nat) (x : Furrow) : (putFur d a f x).time = d.time := rfl
@[simp] theorem putFur_free (d : Dev) (a f : Nat) (x : Furrow) : (putFur d a f x).free = d.free := rfl
@[simp] theorem putFur_fuses (d : Dev) (a f : Nat) (x : Furrow) : (putFur d a f x).fuses = d.fuses := rfl
@[simp] theorem putFur_regs (d : Dev) (a f : Nat) (x : Furrow) : (putFur d a f x).regs = d.regs := rfl
@[simp] theorem putFur_voteErr (d : Dev) (a f : Nat) (x : Furrow) : (putFur d a f x).voteErr = d.voteErr := rfl
@[simp] theorem putFur_upset (d : Dev) (a f : Nat) (x : Furrow) : (putFur d a f x).upset = d.upset := rfl
@[simp] theorem putFur_writes (d : Dev) (a f : Nat) (x : Furrow) : (putFur d a f x).writes = d.writes := rfl
@[simp] theorem putFur_flt (d : Dev) (a f : Nat) (x : Furrow) : (putFur d a f x).flt = d.flt := rfl
@[simp] theorem putFur_host (d : Dev) (a f : Nat) (x : Furrow) : (putFur d a f x).host = d.host := rfl
@[simp] theorem putFur_prog (d : Dev) (a f : Nat) (x : Furrow) : (putFur d a f x).prog = d.prog := rfl
@[simp] theorem putFur_acres (d : Dev) (a f : Nat) (x : Furrow) : (putFur d a f x).acres = d.acres := rfl
@[simp] theorem putFur_fab (d : Dev) (a f : Nat) (x : Furrow) : (putFur d a f x).fab = d.fab := rfl
@[simp] theorem putFur_orch (d : Dev) (a f : Nat) (x : Furrow) : (putFur d a f x).orch = d.orch := rfl
@[simp] theorem putFur_asc (d : Dev) (a f : Nat) (x : Furrow) : (putFur d a f x).asc = d.asc := rfl
@[simp] theorem putFur_har (d : Dev) (a f : Nat) (x : Furrow) : (putFur d a f x).har = d.har := rfl
@[simp] theorem putFur_deep (d : Dev) (a f : Nat) (x : Furrow) : (putFur d a f x).deep = d.deep := rfl
@[simp] theorem putFur_que (d : Dev) (a f : Nat) (x : Furrow) : (putFur d a f x).que = d.que := rfl
@[simp] theorem putFur_drl (d : Dev) (a f : Nat) (x : Furrow) : (putFur d a f x).drl = d.drl := rfl
@[simp] theorem putFur_rind (d : Dev) (a f : Nat) (x : Furrow) : (putFur d a f x).rind = d.rind := rfl
@[simp] theorem putFur_strip (d : Dev) (a f : Nat) (x : Furrow) : (putFur d a f x).strip = d.strip := rfl
@[simp] theorem putFur_pair (d : Dev) (a f : Nat) (x : Furrow) : (putFur d a f x).pair = d.pair := rfl
@[simp] theorem putFur_rst (d : Dev) (a f : Nat) (x : Furrow) : (putFur d a f x).rst = d.rst := rfl
@[simp] theorem putFur_perf (d : Dev) (a f : Nat) (x : Furrow) : (putFur d a f x).perf = d.perf := rfl
@[simp] theorem putFur_pfcDirty (d : Dev) (a f : Nat) (x : Furrow) : (putFur d a f x).pfcDirty = d.pfcDirty := rfl

@[simp] theorem putPkt_time (d : Dev) (l : PktRef) (p : Pkt) : (putPkt d l p).time = d.time := rfl
@[simp] theorem putPkt_free (d : Dev) (l : PktRef) (p : Pkt) : (putPkt d l p).free = d.free := rfl
@[simp] theorem putPkt_fuses (d : Dev) (l : PktRef) (p : Pkt) : (putPkt d l p).fuses = d.fuses := rfl
@[simp] theorem putPkt_regs (d : Dev) (l : PktRef) (p : Pkt) : (putPkt d l p).regs = d.regs := rfl
@[simp] theorem putPkt_voteErr (d : Dev) (l : PktRef) (p : Pkt) : (putPkt d l p).voteErr = d.voteErr := rfl
@[simp] theorem putPkt_upset (d : Dev) (l : PktRef) (p : Pkt) : (putPkt d l p).upset = d.upset := rfl
@[simp] theorem putPkt_writes (d : Dev) (l : PktRef) (p : Pkt) : (putPkt d l p).writes = d.writes := rfl
@[simp] theorem putPkt_flt (d : Dev) (l : PktRef) (p : Pkt) : (putPkt d l p).flt = d.flt := rfl
@[simp] theorem putPkt_host (d : Dev) (l : PktRef) (p : Pkt) : (putPkt d l p).host = d.host := rfl
@[simp] theorem putPkt_prog (d : Dev) (l : PktRef) (p : Pkt) : (putPkt d l p).prog = d.prog := rfl
@[simp] theorem putPkt_acres (d : Dev) (l : PktRef) (p : Pkt) : (putPkt d l p).acres = d.acres := rfl
@[simp] theorem putPkt_fab (d : Dev) (l : PktRef) (p : Pkt) : (putPkt d l p).fab = d.fab := rfl
@[simp] theorem putPkt_orch (d : Dev) (l : PktRef) (p : Pkt) : (putPkt d l p).orch = d.orch := rfl
@[simp] theorem putPkt_asc (d : Dev) (l : PktRef) (p : Pkt) : (putPkt d l p).asc = d.asc := rfl
@[simp] theorem putPkt_har (d : Dev) (l : PktRef) (p : Pkt) : (putPkt d l p).har = d.har := rfl
@[simp] theorem putPkt_deep (d : Dev) (l : PktRef) (p : Pkt) : (putPkt d l p).deep = d.deep := rfl
@[simp] theorem putPkt_que (d : Dev) (l : PktRef) (p : Pkt) : (putPkt d l p).que = d.que := rfl
@[simp] theorem putPkt_drl (d : Dev) (l : PktRef) (p : Pkt) : (putPkt d l p).drl = d.drl := rfl
@[simp] theorem putPkt_rind (d : Dev) (l : PktRef) (p : Pkt) : (putPkt d l p).rind = d.rind := rfl
@[simp] theorem putPkt_strip (d : Dev) (l : PktRef) (p : Pkt) : (putPkt d l p).strip = d.strip := rfl
@[simp] theorem putPkt_pair (d : Dev) (l : PktRef) (p : Pkt) : (putPkt d l p).pair = d.pair := rfl
@[simp] theorem putPkt_rst (d : Dev) (l : PktRef) (p : Pkt) : (putPkt d l p).rst = d.rst := rfl
@[simp] theorem putPkt_perf (d : Dev) (l : PktRef) (p : Pkt) : (putPkt d l p).perf = d.perf := rfl
@[simp] theorem putPkt_pfcDirty (d : Dev) (l : PktRef) (p : Pkt) : (putPkt d l p).pfcDirty = d.pfcDirty := rfl

@[simp] theorem putAcre_time (d : Dev) (a : Nat) (x : AcreSt) : (putAcre d a x).time = d.time := rfl
@[simp] theorem putAcre_free (d : Dev) (a : Nat) (x : AcreSt) : (putAcre d a x).free = d.free := rfl
@[simp] theorem putAcre_fuses (d : Dev) (a : Nat) (x : AcreSt) : (putAcre d a x).fuses = d.fuses := rfl
@[simp] theorem putAcre_regs (d : Dev) (a : Nat) (x : AcreSt) : (putAcre d a x).regs = d.regs := rfl
@[simp] theorem putAcre_voteErr (d : Dev) (a : Nat) (x : AcreSt) : (putAcre d a x).voteErr = d.voteErr := rfl
@[simp] theorem putAcre_upset (d : Dev) (a : Nat) (x : AcreSt) : (putAcre d a x).upset = d.upset := rfl
@[simp] theorem putAcre_writes (d : Dev) (a : Nat) (x : AcreSt) : (putAcre d a x).writes = d.writes := rfl
@[simp] theorem putAcre_flt (d : Dev) (a : Nat) (x : AcreSt) : (putAcre d a x).flt = d.flt := rfl
@[simp] theorem putAcre_host (d : Dev) (a : Nat) (x : AcreSt) : (putAcre d a x).host = d.host := rfl
@[simp] theorem putAcre_prog (d : Dev) (a : Nat) (x : AcreSt) : (putAcre d a x).prog = d.prog := rfl
@[simp] theorem putAcre_furs (d : Dev) (a : Nat) (x : AcreSt) : (putAcre d a x).furs = d.furs := rfl
@[simp] theorem putAcre_fab (d : Dev) (a : Nat) (x : AcreSt) : (putAcre d a x).fab = d.fab := rfl
@[simp] theorem putAcre_orch (d : Dev) (a : Nat) (x : AcreSt) : (putAcre d a x).orch = d.orch := rfl
@[simp] theorem putAcre_asc (d : Dev) (a : Nat) (x : AcreSt) : (putAcre d a x).asc = d.asc := rfl
@[simp] theorem putAcre_har (d : Dev) (a : Nat) (x : AcreSt) : (putAcre d a x).har = d.har := rfl
@[simp] theorem putAcre_deep (d : Dev) (a : Nat) (x : AcreSt) : (putAcre d a x).deep = d.deep := rfl
@[simp] theorem putAcre_que (d : Dev) (a : Nat) (x : AcreSt) : (putAcre d a x).que = d.que := rfl
@[simp] theorem putAcre_drl (d : Dev) (a : Nat) (x : AcreSt) : (putAcre d a x).drl = d.drl := rfl
@[simp] theorem putAcre_rind (d : Dev) (a : Nat) (x : AcreSt) : (putAcre d a x).rind = d.rind := rfl
@[simp] theorem putAcre_strip (d : Dev) (a : Nat) (x : AcreSt) : (putAcre d a x).strip = d.strip := rfl
@[simp] theorem putAcre_pair (d : Dev) (a : Nat) (x : AcreSt) : (putAcre d a x).pair = d.pair := rfl
@[simp] theorem putAcre_rst (d : Dev) (a : Nat) (x : AcreSt) : (putAcre d a x).rst = d.rst := rfl
@[simp] theorem putAcre_perf (d : Dev) (a : Nat) (x : AcreSt) : (putAcre d a x).perf = d.perf := rfl
@[simp] theorem putAcre_pfcDirty (d : Dev) (a : Nat) (x : AcreSt) : (putAcre d a x).pfcDirty = d.pfcDirty := rfl

@[simp] theorem putEvt_time (d : Dev) (f : Nat) (e : EvtFifo) : (putEvt d f e).time = d.time := rfl
@[simp] theorem putEvt_free (d : Dev) (f : Nat) (e : EvtFifo) : (putEvt d f e).free = d.free := rfl
@[simp] theorem putEvt_fuses (d : Dev) (f : Nat) (e : EvtFifo) : (putEvt d f e).fuses = d.fuses := rfl
@[simp] theorem putEvt_regs (d : Dev) (f : Nat) (e : EvtFifo) : (putEvt d f e).regs = d.regs := rfl
@[simp] theorem putEvt_voteErr (d : Dev) (f : Nat) (e : EvtFifo) : (putEvt d f e).voteErr = d.voteErr := rfl
@[simp] theorem putEvt_upset (d : Dev) (f : Nat) (e : EvtFifo) : (putEvt d f e).upset = d.upset := rfl
@[simp] theorem putEvt_writes (d : Dev) (f : Nat) (e : EvtFifo) : (putEvt d f e).writes = d.writes := rfl
@[simp] theorem putEvt_flt (d : Dev) (f : Nat) (e : EvtFifo) : (putEvt d f e).flt = d.flt := rfl
@[simp] theorem putEvt_prog (d : Dev) (f : Nat) (e : EvtFifo) : (putEvt d f e).prog = d.prog := rfl
@[simp] theorem putEvt_furs (d : Dev) (f : Nat) (e : EvtFifo) : (putEvt d f e).furs = d.furs := rfl
@[simp] theorem putEvt_acres (d : Dev) (f : Nat) (e : EvtFifo) : (putEvt d f e).acres = d.acres := rfl
@[simp] theorem putEvt_fab (d : Dev) (f : Nat) (e : EvtFifo) : (putEvt d f e).fab = d.fab := rfl
@[simp] theorem putEvt_orch (d : Dev) (f : Nat) (e : EvtFifo) : (putEvt d f e).orch = d.orch := rfl
@[simp] theorem putEvt_asc (d : Dev) (f : Nat) (e : EvtFifo) : (putEvt d f e).asc = d.asc := rfl
@[simp] theorem putEvt_har (d : Dev) (f : Nat) (e : EvtFifo) : (putEvt d f e).har = d.har := rfl
@[simp] theorem putEvt_deep (d : Dev) (f : Nat) (e : EvtFifo) : (putEvt d f e).deep = d.deep := rfl
@[simp] theorem putEvt_que (d : Dev) (f : Nat) (e : EvtFifo) : (putEvt d f e).que = d.que := rfl
@[simp] theorem putEvt_drl (d : Dev) (f : Nat) (e : EvtFifo) : (putEvt d f e).drl = d.drl := rfl
@[simp] theorem putEvt_rind (d : Dev) (f : Nat) (e : EvtFifo) : (putEvt d f e).rind = d.rind := rfl
@[simp] theorem putEvt_strip (d : Dev) (f : Nat) (e : EvtFifo) : (putEvt d f e).strip = d.strip := rfl
@[simp] theorem putEvt_pair (d : Dev) (f : Nat) (e : EvtFifo) : (putEvt d f e).pair = d.pair := rfl
@[simp] theorem putEvt_rst (d : Dev) (f : Nat) (e : EvtFifo) : (putEvt d f e).rst = d.rst := rfl
@[simp] theorem putEvt_perf (d : Dev) (f : Nat) (e : EvtFifo) : (putEvt d f e).perf = d.perf := rfl
@[simp] theorem putEvt_pfcDirty (d : Dev) (f : Nat) (e : EvtFifo) : (putEvt d f e).pfcDirty = d.pfcDirty := rfl

@[simp] theorem setEcc_time (d : Dev) (r : Ram) (i v : Nat) : (setEcc d r i v).time = d.time := rfl
@[simp] theorem setEcc_free (d : Dev) (r : Ram) (i v : Nat) : (setEcc d r i v).free = d.free := rfl
@[simp] theorem setEcc_fuses (d : Dev) (r : Ram) (i v : Nat) : (setEcc d r i v).fuses = d.fuses := rfl
@[simp] theorem setEcc_regs (d : Dev) (r : Ram) (i v : Nat) : (setEcc d r i v).regs = d.regs := rfl
@[simp] theorem setEcc_voteErr (d : Dev) (r : Ram) (i v : Nat) : (setEcc d r i v).voteErr = d.voteErr := rfl
@[simp] theorem setEcc_writes (d : Dev) (r : Ram) (i v : Nat) : (setEcc d r i v).writes = d.writes := rfl
@[simp] theorem setEcc_flt (d : Dev) (r : Ram) (i v : Nat) : (setEcc d r i v).flt = d.flt := rfl
@[simp] theorem setEcc_host (d : Dev) (r : Ram) (i v : Nat) : (setEcc d r i v).host = d.host := rfl
@[simp] theorem setEcc_prog (d : Dev) (r : Ram) (i v : Nat) : (setEcc d r i v).prog = d.prog := rfl
@[simp] theorem setEcc_furs (d : Dev) (r : Ram) (i v : Nat) : (setEcc d r i v).furs = d.furs := rfl
@[simp] theorem setEcc_acres (d : Dev) (r : Ram) (i v : Nat) : (setEcc d r i v).acres = d.acres := rfl
@[simp] theorem setEcc_fab (d : Dev) (r : Ram) (i v : Nat) : (setEcc d r i v).fab = d.fab := rfl
@[simp] theorem setEcc_orch (d : Dev) (r : Ram) (i v : Nat) : (setEcc d r i v).orch = d.orch := rfl
@[simp] theorem setEcc_asc (d : Dev) (r : Ram) (i v : Nat) : (setEcc d r i v).asc = d.asc := rfl
@[simp] theorem setEcc_har (d : Dev) (r : Ram) (i v : Nat) : (setEcc d r i v).har = d.har := rfl
@[simp] theorem setEcc_deep (d : Dev) (r : Ram) (i v : Nat) : (setEcc d r i v).deep = d.deep := rfl
@[simp] theorem setEcc_que (d : Dev) (r : Ram) (i v : Nat) : (setEcc d r i v).que = d.que := rfl
@[simp] theorem setEcc_drl (d : Dev) (r : Ram) (i v : Nat) : (setEcc d r i v).drl = d.drl := rfl
@[simp] theorem setEcc_rind (d : Dev) (r : Ram) (i v : Nat) : (setEcc d r i v).rind = d.rind := rfl
@[simp] theorem setEcc_strip (d : Dev) (r : Ram) (i v : Nat) : (setEcc d r i v).strip = d.strip := rfl
@[simp] theorem setEcc_pair (d : Dev) (r : Ram) (i v : Nat) : (setEcc d r i v).pair = d.pair := rfl
@[simp] theorem setEcc_rst (d : Dev) (r : Ram) (i v : Nat) : (setEcc d r i v).rst = d.rst := rfl
@[simp] theorem setEcc_perf (d : Dev) (r : Ram) (i v : Nat) : (setEcc d r i v).perf = d.perf := rfl
@[simp] theorem setEcc_pfcDirty (d : Dev) (r : Ram) (i v : Nat) : (setEcc d r i v).pfcDirty = d.pfcDirty := rfl

@[simp] theorem wrFs_time (d : Dev) (off : Nat) (l : List (Fld × Nat)) : (wrFs d off l).time = d.time := rfl
@[simp] theorem wrFs_free (d : Dev) (off : Nat) (l : List (Fld × Nat)) : (wrFs d off l).free = d.free := rfl
@[simp] theorem wrFs_fuses (d : Dev) (off : Nat) (l : List (Fld × Nat)) : (wrFs d off l).fuses = d.fuses := rfl
@[simp] theorem wrFs_voteErr (d : Dev) (off : Nat) (l : List (Fld × Nat)) : (wrFs d off l).voteErr = d.voteErr := rfl
@[simp] theorem wrFs_upset (d : Dev) (off : Nat) (l : List (Fld × Nat)) : (wrFs d off l).upset = d.upset := rfl
@[simp] theorem wrFs_writes (d : Dev) (off : Nat) (l : List (Fld × Nat)) : (wrFs d off l).writes = d.writes := rfl
@[simp] theorem wrFs_flt (d : Dev) (off : Nat) (l : List (Fld × Nat)) : (wrFs d off l).flt = d.flt := rfl
@[simp] theorem wrFs_host (d : Dev) (off : Nat) (l : List (Fld × Nat)) : (wrFs d off l).host = d.host := rfl
@[simp] theorem wrFs_prog (d : Dev) (off : Nat) (l : List (Fld × Nat)) : (wrFs d off l).prog = d.prog := rfl
@[simp] theorem wrFs_furs (d : Dev) (off : Nat) (l : List (Fld × Nat)) : (wrFs d off l).furs = d.furs := rfl
@[simp] theorem wrFs_acres (d : Dev) (off : Nat) (l : List (Fld × Nat)) : (wrFs d off l).acres = d.acres := rfl
@[simp] theorem wrFs_fab (d : Dev) (off : Nat) (l : List (Fld × Nat)) : (wrFs d off l).fab = d.fab := rfl
@[simp] theorem wrFs_orch (d : Dev) (off : Nat) (l : List (Fld × Nat)) : (wrFs d off l).orch = d.orch := rfl
@[simp] theorem wrFs_asc (d : Dev) (off : Nat) (l : List (Fld × Nat)) : (wrFs d off l).asc = d.asc := rfl
@[simp] theorem wrFs_har (d : Dev) (off : Nat) (l : List (Fld × Nat)) : (wrFs d off l).har = d.har := rfl
@[simp] theorem wrFs_deep (d : Dev) (off : Nat) (l : List (Fld × Nat)) : (wrFs d off l).deep = d.deep := rfl
@[simp] theorem wrFs_que (d : Dev) (off : Nat) (l : List (Fld × Nat)) : (wrFs d off l).que = d.que := rfl
@[simp] theorem wrFs_drl (d : Dev) (off : Nat) (l : List (Fld × Nat)) : (wrFs d off l).drl = d.drl := rfl
@[simp] theorem wrFs_rind (d : Dev) (off : Nat) (l : List (Fld × Nat)) : (wrFs d off l).rind = d.rind := rfl
@[simp] theorem wrFs_strip (d : Dev) (off : Nat) (l : List (Fld × Nat)) : (wrFs d off l).strip = d.strip := rfl
@[simp] theorem wrFs_pair (d : Dev) (off : Nat) (l : List (Fld × Nat)) : (wrFs d off l).pair = d.pair := rfl
@[simp] theorem wrFs_rst (d : Dev) (off : Nat) (l : List (Fld × Nat)) : (wrFs d off l).rst = d.rst := rfl
@[simp] theorem wrFs_perf (d : Dev) (off : Nat) (l : List (Fld × Nat)) : (wrFs d off l).perf = d.perf := rfl
@[simp] theorem wrFs_pfcDirty (d : Dev) (off : Nat) (l : List (Fld × Nat)) : (wrFs d off l).pfcDirty = d.pfcDirty := rfl

@[simp] theorem setPairF_time (d : Dev) (f : Fld) (v : Nat) : (setPairF d f v).time = d.time := rfl
@[simp] theorem setPairF_free (d : Dev) (f : Fld) (v : Nat) : (setPairF d f v).free = d.free := rfl
@[simp] theorem setPairF_fuses (d : Dev) (f : Fld) (v : Nat) : (setPairF d f v).fuses = d.fuses := rfl
@[simp] theorem setPairF_voteErr (d : Dev) (f : Fld) (v : Nat) : (setPairF d f v).voteErr = d.voteErr := rfl
@[simp] theorem setPairF_upset (d : Dev) (f : Fld) (v : Nat) : (setPairF d f v).upset = d.upset := rfl
@[simp] theorem setPairF_writes (d : Dev) (f : Fld) (v : Nat) : (setPairF d f v).writes = d.writes := rfl
@[simp] theorem setPairF_flt (d : Dev) (f : Fld) (v : Nat) : (setPairF d f v).flt = d.flt := rfl
@[simp] theorem setPairF_host (d : Dev) (f : Fld) (v : Nat) : (setPairF d f v).host = d.host := rfl
@[simp] theorem setPairF_prog (d : Dev) (f : Fld) (v : Nat) : (setPairF d f v).prog = d.prog := rfl
@[simp] theorem setPairF_furs (d : Dev) (f : Fld) (v : Nat) : (setPairF d f v).furs = d.furs := rfl
@[simp] theorem setPairF_acres (d : Dev) (f : Fld) (v : Nat) : (setPairF d f v).acres = d.acres := rfl
@[simp] theorem setPairF_fab (d : Dev) (f : Fld) (v : Nat) : (setPairF d f v).fab = d.fab := rfl
@[simp] theorem setPairF_orch (d : Dev) (f : Fld) (v : Nat) : (setPairF d f v).orch = d.orch := rfl
@[simp] theorem setPairF_asc (d : Dev) (f : Fld) (v : Nat) : (setPairF d f v).asc = d.asc := rfl
@[simp] theorem setPairF_har (d : Dev) (f : Fld) (v : Nat) : (setPairF d f v).har = d.har := rfl
@[simp] theorem setPairF_deep (d : Dev) (f : Fld) (v : Nat) : (setPairF d f v).deep = d.deep := rfl
@[simp] theorem setPairF_que (d : Dev) (f : Fld) (v : Nat) : (setPairF d f v).que = d.que := rfl
@[simp] theorem setPairF_drl (d : Dev) (f : Fld) (v : Nat) : (setPairF d f v).drl = d.drl := rfl
@[simp] theorem setPairF_rind (d : Dev) (f : Fld) (v : Nat) : (setPairF d f v).rind = d.rind := rfl
@[simp] theorem setPairF_strip (d : Dev) (f : Fld) (v : Nat) : (setPairF d f v).strip = d.strip := rfl
@[simp] theorem setPairF_pair (d : Dev) (f : Fld) (v : Nat) : (setPairF d f v).pair = d.pair := rfl
@[simp] theorem setPairF_rst (d : Dev) (f : Fld) (v : Nat) : (setPairF d f v).rst = d.rst := rfl
@[simp] theorem setPairF_perf (d : Dev) (f : Fld) (v : Nat) : (setPairF d f v).perf = d.perf := rfl
@[simp] theorem setPairF_pfcDirty (d : Dev) (f : Fld) (v : Nat) : (setPairF d f v).pfcDirty = d.pfcDirty := rfl

@[simp] theorem putPort_time (d : Dev) (p : Nat) (x : PortSt) : (putPort d p x).time = d.time := rfl
@[simp] theorem putPort_free (d : Dev) (p : Nat) (x : PortSt) : (putPort d p x).free = d.free := rfl
@[simp] theorem putPort_fuses (d : Dev) (p : Nat) (x : PortSt) : (putPort d p x).fuses = d.fuses := rfl
@[simp] theorem putPort_regs (d : Dev) (p : Nat) (x : PortSt) : (putPort d p x).regs = d.regs := rfl
@[simp] theorem putPort_voteErr (d : Dev) (p : Nat) (x : PortSt) : (putPort d p x).voteErr = d.voteErr := rfl
@[simp] theorem putPort_upset (d : Dev) (p : Nat) (x : PortSt) : (putPort d p x).upset = d.upset := rfl
@[simp] theorem putPort_writes (d : Dev) (p : Nat) (x : PortSt) : (putPort d p x).writes = d.writes := rfl
@[simp] theorem putPort_flt (d : Dev) (p : Nat) (x : PortSt) : (putPort d p x).flt = d.flt := rfl
@[simp] theorem putPort_host (d : Dev) (p : Nat) (x : PortSt) : (putPort d p x).host = d.host := rfl
@[simp] theorem putPort_prog (d : Dev) (p : Nat) (x : PortSt) : (putPort d p x).prog = d.prog := rfl
@[simp] theorem putPort_furs (d : Dev) (p : Nat) (x : PortSt) : (putPort d p x).furs = d.furs := rfl
@[simp] theorem putPort_acres (d : Dev) (p : Nat) (x : PortSt) : (putPort d p x).acres = d.acres := rfl
@[simp] theorem putPort_fab (d : Dev) (p : Nat) (x : PortSt) : (putPort d p x).fab = d.fab := rfl
@[simp] theorem putPort_orch (d : Dev) (p : Nat) (x : PortSt) : (putPort d p x).orch = d.orch := rfl
@[simp] theorem putPort_asc (d : Dev) (p : Nat) (x : PortSt) : (putPort d p x).asc = d.asc := rfl
@[simp] theorem putPort_har (d : Dev) (p : Nat) (x : PortSt) : (putPort d p x).har = d.har := rfl
@[simp] theorem putPort_deep (d : Dev) (p : Nat) (x : PortSt) : (putPort d p x).deep = d.deep := rfl
@[simp] theorem putPort_que (d : Dev) (p : Nat) (x : PortSt) : (putPort d p x).que = d.que := rfl
@[simp] theorem putPort_drl (d : Dev) (p : Nat) (x : PortSt) : (putPort d p x).drl = d.drl := rfl
@[simp] theorem putPort_rind (d : Dev) (p : Nat) (x : PortSt) : (putPort d p x).rind = d.rind := rfl
@[simp] theorem putPort_pair (d : Dev) (p : Nat) (x : PortSt) : (putPort d p x).pair = d.pair := rfl
@[simp] theorem putPort_rst (d : Dev) (p : Nat) (x : PortSt) : (putPort d p x).rst = d.rst := rfl
@[simp] theorem putPort_perf (d : Dev) (p : Nat) (x : PortSt) : (putPort d p x).perf = d.perf := rfl
@[simp] theorem putPort_pfcDirty (d : Dev) (p : Nat) (x : PortSt) : (putPort d p x).pfcDirty = d.pfcDirty := rfl

@[simp] theorem putBank_time (d : Dev) (k : Nat) (b : FreeBank) : (putBank d k b).time = d.time := rfl
@[simp] theorem putBank_free (d : Dev) (k : Nat) (b : FreeBank) : (putBank d k b).free = d.free := rfl
@[simp] theorem putBank_fuses (d : Dev) (k : Nat) (b : FreeBank) : (putBank d k b).fuses = d.fuses := rfl
@[simp] theorem putBank_regs (d : Dev) (k : Nat) (b : FreeBank) : (putBank d k b).regs = d.regs := rfl
@[simp] theorem putBank_voteErr (d : Dev) (k : Nat) (b : FreeBank) : (putBank d k b).voteErr = d.voteErr := rfl
@[simp] theorem putBank_upset (d : Dev) (k : Nat) (b : FreeBank) : (putBank d k b).upset = d.upset := rfl
@[simp] theorem putBank_writes (d : Dev) (k : Nat) (b : FreeBank) : (putBank d k b).writes = d.writes := rfl
@[simp] theorem putBank_flt (d : Dev) (k : Nat) (b : FreeBank) : (putBank d k b).flt = d.flt := rfl
@[simp] theorem putBank_host (d : Dev) (k : Nat) (b : FreeBank) : (putBank d k b).host = d.host := rfl
@[simp] theorem putBank_prog (d : Dev) (k : Nat) (b : FreeBank) : (putBank d k b).prog = d.prog := rfl
@[simp] theorem putBank_furs (d : Dev) (k : Nat) (b : FreeBank) : (putBank d k b).furs = d.furs := rfl
@[simp] theorem putBank_acres (d : Dev) (k : Nat) (b : FreeBank) : (putBank d k b).acres = d.acres := rfl
@[simp] theorem putBank_orch (d : Dev) (k : Nat) (b : FreeBank) : (putBank d k b).orch = d.orch := rfl
@[simp] theorem putBank_asc (d : Dev) (k : Nat) (b : FreeBank) : (putBank d k b).asc = d.asc := rfl
@[simp] theorem putBank_har (d : Dev) (k : Nat) (b : FreeBank) : (putBank d k b).har = d.har := rfl
@[simp] theorem putBank_deep (d : Dev) (k : Nat) (b : FreeBank) : (putBank d k b).deep = d.deep := rfl
@[simp] theorem putBank_que (d : Dev) (k : Nat) (b : FreeBank) : (putBank d k b).que = d.que := rfl
@[simp] theorem putBank_drl (d : Dev) (k : Nat) (b : FreeBank) : (putBank d k b).drl = d.drl := rfl
@[simp] theorem putBank_rind (d : Dev) (k : Nat) (b : FreeBank) : (putBank d k b).rind = d.rind := rfl
@[simp] theorem putBank_strip (d : Dev) (k : Nat) (b : FreeBank) : (putBank d k b).strip = d.strip := rfl
@[simp] theorem putBank_pair (d : Dev) (k : Nat) (b : FreeBank) : (putBank d k b).pair = d.pair := rfl
@[simp] theorem putBank_rst (d : Dev) (k : Nat) (b : FreeBank) : (putBank d k b).rst = d.rst := rfl
@[simp] theorem putBank_perf (d : Dev) (k : Nat) (b : FreeBank) : (putBank d k b).perf = d.perf := rfl
@[simp] theorem putBank_pfcDirty (d : Dev) (k : Nat) (b : FreeBank) : (putBank d k b).pfcDirty = d.pfcDirty := rfl

@[simp] theorem putVoq_time (d : Dev) (a m : Nat) (l : List Pkt) : (putVoq d a m l).time = d.time := rfl
@[simp] theorem putVoq_free (d : Dev) (a m : Nat) (l : List Pkt) : (putVoq d a m l).free = d.free := rfl
@[simp] theorem putVoq_fuses (d : Dev) (a m : Nat) (l : List Pkt) : (putVoq d a m l).fuses = d.fuses := rfl
@[simp] theorem putVoq_regs (d : Dev) (a m : Nat) (l : List Pkt) : (putVoq d a m l).regs = d.regs := rfl
@[simp] theorem putVoq_voteErr (d : Dev) (a m : Nat) (l : List Pkt) : (putVoq d a m l).voteErr = d.voteErr := rfl
@[simp] theorem putVoq_upset (d : Dev) (a m : Nat) (l : List Pkt) : (putVoq d a m l).upset = d.upset := rfl
@[simp] theorem putVoq_writes (d : Dev) (a m : Nat) (l : List Pkt) : (putVoq d a m l).writes = d.writes := rfl
@[simp] theorem putVoq_flt (d : Dev) (a m : Nat) (l : List Pkt) : (putVoq d a m l).flt = d.flt := rfl
@[simp] theorem putVoq_host (d : Dev) (a m : Nat) (l : List Pkt) : (putVoq d a m l).host = d.host := rfl
@[simp] theorem putVoq_prog (d : Dev) (a m : Nat) (l : List Pkt) : (putVoq d a m l).prog = d.prog := rfl
@[simp] theorem putVoq_furs (d : Dev) (a m : Nat) (l : List Pkt) : (putVoq d a m l).furs = d.furs := rfl
@[simp] theorem putVoq_acres (d : Dev) (a m : Nat) (l : List Pkt) : (putVoq d a m l).acres = d.acres := rfl
@[simp] theorem putVoq_orch (d : Dev) (a m : Nat) (l : List Pkt) : (putVoq d a m l).orch = d.orch := rfl
@[simp] theorem putVoq_asc (d : Dev) (a m : Nat) (l : List Pkt) : (putVoq d a m l).asc = d.asc := rfl
@[simp] theorem putVoq_har (d : Dev) (a m : Nat) (l : List Pkt) : (putVoq d a m l).har = d.har := rfl
@[simp] theorem putVoq_deep (d : Dev) (a m : Nat) (l : List Pkt) : (putVoq d a m l).deep = d.deep := rfl
@[simp] theorem putVoq_que (d : Dev) (a m : Nat) (l : List Pkt) : (putVoq d a m l).que = d.que := rfl
@[simp] theorem putVoq_drl (d : Dev) (a m : Nat) (l : List Pkt) : (putVoq d a m l).drl = d.drl := rfl
@[simp] theorem putVoq_rind (d : Dev) (a m : Nat) (l : List Pkt) : (putVoq d a m l).rind = d.rind := rfl
@[simp] theorem putVoq_strip (d : Dev) (a m : Nat) (l : List Pkt) : (putVoq d a m l).strip = d.strip := rfl
@[simp] theorem putVoq_pair (d : Dev) (a m : Nat) (l : List Pkt) : (putVoq d a m l).pair = d.pair := rfl
@[simp] theorem putVoq_rst (d : Dev) (a m : Nat) (l : List Pkt) : (putVoq d a m l).rst = d.rst := rfl
@[simp] theorem putVoq_perf (d : Dev) (a m : Nat) (l : List Pkt) : (putVoq d a m l).perf = d.perf := rfl
@[simp] theorem putVoq_pfcDirty (d : Dev) (a m : Nat) (l : List Pkt) : (putVoq d a m l).pfcDirty = d.pfcDirty := rfl

@[simp] theorem putNode_time (d : Dev) (k : Nat) (n : Node) : (putNode d k n).time = d.time := rfl
@[simp] theorem putNode_free (d : Dev) (k : Nat) (n : Node) : (putNode d k n).free = d.free := rfl
@[simp] theorem putNode_fuses (d : Dev) (k : Nat) (n : Node) : (putNode d k n).fuses = d.fuses := rfl
@[simp] theorem putNode_regs (d : Dev) (k : Nat) (n : Node) : (putNode d k n).regs = d.regs := rfl
@[simp] theorem putNode_voteErr (d : Dev) (k : Nat) (n : Node) : (putNode d k n).voteErr = d.voteErr := rfl
@[simp] theorem putNode_upset (d : Dev) (k : Nat) (n : Node) : (putNode d k n).upset = d.upset := rfl
@[simp] theorem putNode_writes (d : Dev) (k : Nat) (n : Node) : (putNode d k n).writes = d.writes := rfl
@[simp] theorem putNode_flt (d : Dev) (k : Nat) (n : Node) : (putNode d k n).flt = d.flt := rfl
@[simp] theorem putNode_host (d : Dev) (k : Nat) (n : Node) : (putNode d k n).host = d.host := rfl
@[simp] theorem putNode_prog (d : Dev) (k : Nat) (n : Node) : (putNode d k n).prog = d.prog := rfl
@[simp] theorem putNode_furs (d : Dev) (k : Nat) (n : Node) : (putNode d k n).furs = d.furs := rfl
@[simp] theorem putNode_acres (d : Dev) (k : Nat) (n : Node) : (putNode d k n).acres = d.acres := rfl
@[simp] theorem putNode_fab (d : Dev) (k : Nat) (n : Node) : (putNode d k n).fab = d.fab := rfl
@[simp] theorem putNode_orch (d : Dev) (k : Nat) (n : Node) : (putNode d k n).orch = d.orch := rfl
@[simp] theorem putNode_asc (d : Dev) (k : Nat) (n : Node) : (putNode d k n).asc = d.asc := rfl
@[simp] theorem putNode_har (d : Dev) (k : Nat) (n : Node) : (putNode d k n).har = d.har := rfl
@[simp] theorem putNode_deep (d : Dev) (k : Nat) (n : Node) : (putNode d k n).deep = d.deep := rfl
@[simp] theorem putNode_que (d : Dev) (k : Nat) (n : Node) : (putNode d k n).que = d.que := rfl
@[simp] theorem putNode_rind (d : Dev) (k : Nat) (n : Node) : (putNode d k n).rind = d.rind := rfl
@[simp] theorem putNode_strip (d : Dev) (k : Nat) (n : Node) : (putNode d k n).strip = d.strip := rfl
@[simp] theorem putNode_pair (d : Dev) (k : Nat) (n : Node) : (putNode d k n).pair = d.pair := rfl
@[simp] theorem putNode_rst (d : Dev) (k : Nat) (n : Node) : (putNode d k n).rst = d.rst := rfl
@[simp] theorem putNode_perf (d : Dev) (k : Nat) (n : Node) : (putNode d k n).perf = d.perf := rfl
@[simp] theorem putNode_pfcDirty (d : Dev) (k : Nat) (n : Node) : (putNode d k n).pfcDirty = d.pfcDirty := rfl

@[simp] theorem putGate_time (d : Dev) (p : Nat) (g : Gate) : (putGate d p g).time = d.time := rfl
@[simp] theorem putGate_free (d : Dev) (p : Nat) (g : Gate) : (putGate d p g).free = d.free := rfl
@[simp] theorem putGate_fuses (d : Dev) (p : Nat) (g : Gate) : (putGate d p g).fuses = d.fuses := rfl
@[simp] theorem putGate_regs (d : Dev) (p : Nat) (g : Gate) : (putGate d p g).regs = d.regs := rfl
@[simp] theorem putGate_voteErr (d : Dev) (p : Nat) (g : Gate) : (putGate d p g).voteErr = d.voteErr := rfl
@[simp] theorem putGate_upset (d : Dev) (p : Nat) (g : Gate) : (putGate d p g).upset = d.upset := rfl
@[simp] theorem putGate_writes (d : Dev) (p : Nat) (g : Gate) : (putGate d p g).writes = d.writes := rfl
@[simp] theorem putGate_flt (d : Dev) (p : Nat) (g : Gate) : (putGate d p g).flt = d.flt := rfl
@[simp] theorem putGate_host (d : Dev) (p : Nat) (g : Gate) : (putGate d p g).host = d.host := rfl
@[simp] theorem putGate_prog (d : Dev) (p : Nat) (g : Gate) : (putGate d p g).prog = d.prog := rfl
@[simp] theorem putGate_furs (d : Dev) (p : Nat) (g : Gate) : (putGate d p g).furs = d.furs := rfl
@[simp] theorem putGate_acres (d : Dev) (p : Nat) (g : Gate) : (putGate d p g).acres = d.acres := rfl
@[simp] theorem putGate_fab (d : Dev) (p : Nat) (g : Gate) : (putGate d p g).fab = d.fab := rfl
@[simp] theorem putGate_orch (d : Dev) (p : Nat) (g : Gate) : (putGate d p g).orch = d.orch := rfl
@[simp] theorem putGate_asc (d : Dev) (p : Nat) (g : Gate) : (putGate d p g).asc = d.asc := rfl
@[simp] theorem putGate_har (d : Dev) (p : Nat) (g : Gate) : (putGate d p g).har = d.har := rfl
@[simp] theorem putGate_deep (d : Dev) (p : Nat) (g : Gate) : (putGate d p g).deep = d.deep := rfl
@[simp] theorem putGate_que (d : Dev) (p : Nat) (g : Gate) : (putGate d p g).que = d.que := rfl
@[simp] theorem putGate_rind (d : Dev) (p : Nat) (g : Gate) : (putGate d p g).rind = d.rind := rfl
@[simp] theorem putGate_strip (d : Dev) (p : Nat) (g : Gate) : (putGate d p g).strip = d.strip := rfl
@[simp] theorem putGate_pair (d : Dev) (p : Nat) (g : Gate) : (putGate d p g).pair = d.pair := rfl
@[simp] theorem putGate_rst (d : Dev) (p : Nat) (g : Gate) : (putGate d p g).rst = d.rst := rfl
@[simp] theorem putGate_perf (d : Dev) (p : Nat) (g : Gate) : (putGate d p g).perf = d.perf := rfl
@[simp] theorem putGate_pfcDirty (d : Dev) (p : Nat) (g : Gate) : (putGate d p g).pfcDirty = d.pfcDirty := rfl

@[simp] theorem putMeter_time (d : Dev) (i : Nat) (x : Meter) : (putMeter d i x).time = d.time := rfl
@[simp] theorem putMeter_free (d : Dev) (i : Nat) (x : Meter) : (putMeter d i x).free = d.free := rfl
@[simp] theorem putMeter_fuses (d : Dev) (i : Nat) (x : Meter) : (putMeter d i x).fuses = d.fuses := rfl
@[simp] theorem putMeter_regs (d : Dev) (i : Nat) (x : Meter) : (putMeter d i x).regs = d.regs := rfl
@[simp] theorem putMeter_voteErr (d : Dev) (i : Nat) (x : Meter) : (putMeter d i x).voteErr = d.voteErr := rfl
@[simp] theorem putMeter_upset (d : Dev) (i : Nat) (x : Meter) : (putMeter d i x).upset = d.upset := rfl
@[simp] theorem putMeter_writes (d : Dev) (i : Nat) (x : Meter) : (putMeter d i x).writes = d.writes := rfl
@[simp] theorem putMeter_flt (d : Dev) (i : Nat) (x : Meter) : (putMeter d i x).flt = d.flt := rfl
@[simp] theorem putMeter_host (d : Dev) (i : Nat) (x : Meter) : (putMeter d i x).host = d.host := rfl
@[simp] theorem putMeter_prog (d : Dev) (i : Nat) (x : Meter) : (putMeter d i x).prog = d.prog := rfl
@[simp] theorem putMeter_furs (d : Dev) (i : Nat) (x : Meter) : (putMeter d i x).furs = d.furs := rfl
@[simp] theorem putMeter_acres (d : Dev) (i : Nat) (x : Meter) : (putMeter d i x).acres = d.acres := rfl
@[simp] theorem putMeter_fab (d : Dev) (i : Nat) (x : Meter) : (putMeter d i x).fab = d.fab := rfl
@[simp] theorem putMeter_orch (d : Dev) (i : Nat) (x : Meter) : (putMeter d i x).orch = d.orch := rfl
@[simp] theorem putMeter_asc (d : Dev) (i : Nat) (x : Meter) : (putMeter d i x).asc = d.asc := rfl
@[simp] theorem putMeter_har (d : Dev) (i : Nat) (x : Meter) : (putMeter d i x).har = d.har := rfl
@[simp] theorem putMeter_deep (d : Dev) (i : Nat) (x : Meter) : (putMeter d i x).deep = d.deep := rfl
@[simp] theorem putMeter_que (d : Dev) (i : Nat) (x : Meter) : (putMeter d i x).que = d.que := rfl
@[simp] theorem putMeter_rind (d : Dev) (i : Nat) (x : Meter) : (putMeter d i x).rind = d.rind := rfl
@[simp] theorem putMeter_strip (d : Dev) (i : Nat) (x : Meter) : (putMeter d i x).strip = d.strip := rfl
@[simp] theorem putMeter_pair (d : Dev) (i : Nat) (x : Meter) : (putMeter d i x).pair = d.pair := rfl
@[simp] theorem putMeter_rst (d : Dev) (i : Nat) (x : Meter) : (putMeter d i x).rst = d.rst := rfl
@[simp] theorem putMeter_perf (d : Dev) (i : Nat) (x : Meter) : (putMeter d i x).perf = d.perf := rfl
@[simp] theorem putMeter_pfcDirty (d : Dev) (i : Nat) (x : Meter) : (putMeter d i x).pfcDirty = d.pfcDirty := rfl

@[simp] theorem putFrag_time (d : Dev) (k v : Nat) : (putFrag d k v).time = d.time := rfl
@[simp] theorem putFrag_free (d : Dev) (k v : Nat) : (putFrag d k v).free = d.free := rfl
@[simp] theorem putFrag_fuses (d : Dev) (k v : Nat) : (putFrag d k v).fuses = d.fuses := rfl
@[simp] theorem putFrag_regs (d : Dev) (k v : Nat) : (putFrag d k v).regs = d.regs := rfl
@[simp] theorem putFrag_voteErr (d : Dev) (k v : Nat) : (putFrag d k v).voteErr = d.voteErr := rfl
@[simp] theorem putFrag_upset (d : Dev) (k v : Nat) : (putFrag d k v).upset = d.upset := rfl
@[simp] theorem putFrag_writes (d : Dev) (k v : Nat) : (putFrag d k v).writes = d.writes := rfl
@[simp] theorem putFrag_flt (d : Dev) (k v : Nat) : (putFrag d k v).flt = d.flt := rfl
@[simp] theorem putFrag_host (d : Dev) (k v : Nat) : (putFrag d k v).host = d.host := rfl
@[simp] theorem putFrag_prog (d : Dev) (k v : Nat) : (putFrag d k v).prog = d.prog := rfl
@[simp] theorem putFrag_furs (d : Dev) (k v : Nat) : (putFrag d k v).furs = d.furs := rfl
@[simp] theorem putFrag_acres (d : Dev) (k v : Nat) : (putFrag d k v).acres = d.acres := rfl
@[simp] theorem putFrag_fab (d : Dev) (k v : Nat) : (putFrag d k v).fab = d.fab := rfl
@[simp] theorem putFrag_orch (d : Dev) (k v : Nat) : (putFrag d k v).orch = d.orch := rfl
@[simp] theorem putFrag_asc (d : Dev) (k v : Nat) : (putFrag d k v).asc = d.asc := rfl
@[simp] theorem putFrag_deep (d : Dev) (k v : Nat) : (putFrag d k v).deep = d.deep := rfl
@[simp] theorem putFrag_que (d : Dev) (k v : Nat) : (putFrag d k v).que = d.que := rfl
@[simp] theorem putFrag_drl (d : Dev) (k v : Nat) : (putFrag d k v).drl = d.drl := rfl
@[simp] theorem putFrag_rind (d : Dev) (k v : Nat) : (putFrag d k v).rind = d.rind := rfl
@[simp] theorem putFrag_strip (d : Dev) (k v : Nat) : (putFrag d k v).strip = d.strip := rfl
@[simp] theorem putFrag_pair (d : Dev) (k v : Nat) : (putFrag d k v).pair = d.pair := rfl
@[simp] theorem putFrag_rst (d : Dev) (k v : Nat) : (putFrag d k v).rst = d.rst := rfl
@[simp] theorem putFrag_perf (d : Dev) (k v : Nat) : (putFrag d k v).perf = d.perf := rfl
@[simp] theorem putFrag_pfcDirty (d : Dev) (k v : Nat) : (putFrag d k v).pfcDirty = d.pfcDirty := rfl

@[simp] theorem putDBank_time (d : Dev) (k : Nat) (b : DeepBank) : (putDBank d k b).time = d.time := rfl
@[simp] theorem putDBank_free (d : Dev) (k : Nat) (b : DeepBank) : (putDBank d k b).free = d.free := rfl
@[simp] theorem putDBank_fuses (d : Dev) (k : Nat) (b : DeepBank) : (putDBank d k b).fuses = d.fuses := rfl
@[simp] theorem putDBank_regs (d : Dev) (k : Nat) (b : DeepBank) : (putDBank d k b).regs = d.regs := rfl
@[simp] theorem putDBank_voteErr (d : Dev) (k : Nat) (b : DeepBank) : (putDBank d k b).voteErr = d.voteErr := rfl
@[simp] theorem putDBank_upset (d : Dev) (k : Nat) (b : DeepBank) : (putDBank d k b).upset = d.upset := rfl
@[simp] theorem putDBank_writes (d : Dev) (k : Nat) (b : DeepBank) : (putDBank d k b).writes = d.writes := rfl
@[simp] theorem putDBank_flt (d : Dev) (k : Nat) (b : DeepBank) : (putDBank d k b).flt = d.flt := rfl
@[simp] theorem putDBank_host (d : Dev) (k : Nat) (b : DeepBank) : (putDBank d k b).host = d.host := rfl
@[simp] theorem putDBank_prog (d : Dev) (k : Nat) (b : DeepBank) : (putDBank d k b).prog = d.prog := rfl
@[simp] theorem putDBank_furs (d : Dev) (k : Nat) (b : DeepBank) : (putDBank d k b).furs = d.furs := rfl
@[simp] theorem putDBank_acres (d : Dev) (k : Nat) (b : DeepBank) : (putDBank d k b).acres = d.acres := rfl
@[simp] theorem putDBank_fab (d : Dev) (k : Nat) (b : DeepBank) : (putDBank d k b).fab = d.fab := rfl
@[simp] theorem putDBank_orch (d : Dev) (k : Nat) (b : DeepBank) : (putDBank d k b).orch = d.orch := rfl
@[simp] theorem putDBank_asc (d : Dev) (k : Nat) (b : DeepBank) : (putDBank d k b).asc = d.asc := rfl
@[simp] theorem putDBank_har (d : Dev) (k : Nat) (b : DeepBank) : (putDBank d k b).har = d.har := rfl
@[simp] theorem putDBank_que (d : Dev) (k : Nat) (b : DeepBank) : (putDBank d k b).que = d.que := rfl
@[simp] theorem putDBank_drl (d : Dev) (k : Nat) (b : DeepBank) : (putDBank d k b).drl = d.drl := rfl
@[simp] theorem putDBank_rind (d : Dev) (k : Nat) (b : DeepBank) : (putDBank d k b).rind = d.rind := rfl
@[simp] theorem putDBank_strip (d : Dev) (k : Nat) (b : DeepBank) : (putDBank d k b).strip = d.strip := rfl
@[simp] theorem putDBank_pair (d : Dev) (k : Nat) (b : DeepBank) : (putDBank d k b).pair = d.pair := rfl
@[simp] theorem putDBank_rst (d : Dev) (k : Nat) (b : DeepBank) : (putDBank d k b).rst = d.rst := rfl
@[simp] theorem putDBank_perf (d : Dev) (k : Nat) (b : DeepBank) : (putDBank d k b).perf = d.perf := rfl
@[simp] theorem putDBank_pfcDirty (d : Dev) (k : Nat) (b : DeepBank) : (putDBank d k b).pfcDirty = d.pfcDirty := rfl

@[simp] theorem putEnt_time (d : Dev) (kind i e : Nat) : (putEnt d kind i e).time = d.time := rfl
@[simp] theorem putEnt_free (d : Dev) (kind i e : Nat) : (putEnt d kind i e).free = d.free := rfl
@[simp] theorem putEnt_fuses (d : Dev) (kind i e : Nat) : (putEnt d kind i e).fuses = d.fuses := rfl
@[simp] theorem putEnt_regs (d : Dev) (kind i e : Nat) : (putEnt d kind i e).regs = d.regs := rfl
@[simp] theorem putEnt_voteErr (d : Dev) (kind i e : Nat) : (putEnt d kind i e).voteErr = d.voteErr := rfl
@[simp] theorem putEnt_upset (d : Dev) (kind i e : Nat) : (putEnt d kind i e).upset = d.upset := rfl
@[simp] theorem putEnt_writes (d : Dev) (kind i e : Nat) : (putEnt d kind i e).writes = d.writes := rfl
@[simp] theorem putEnt_flt (d : Dev) (kind i e : Nat) : (putEnt d kind i e).flt = d.flt := rfl
@[simp] theorem putEnt_host (d : Dev) (kind i e : Nat) : (putEnt d kind i e).host = d.host := rfl
@[simp] theorem putEnt_prog (d : Dev) (kind i e : Nat) : (putEnt d kind i e).prog = d.prog := rfl
@[simp] theorem putEnt_furs (d : Dev) (kind i e : Nat) : (putEnt d kind i e).furs = d.furs := rfl
@[simp] theorem putEnt_acres (d : Dev) (kind i e : Nat) : (putEnt d kind i e).acres = d.acres := rfl
@[simp] theorem putEnt_fab (d : Dev) (kind i e : Nat) : (putEnt d kind i e).fab = d.fab := rfl
@[simp] theorem putEnt_orch (d : Dev) (kind i e : Nat) : (putEnt d kind i e).orch = d.orch := rfl
@[simp] theorem putEnt_asc (d : Dev) (kind i e : Nat) : (putEnt d kind i e).asc = d.asc := rfl
@[simp] theorem putEnt_har (d : Dev) (kind i e : Nat) : (putEnt d kind i e).har = d.har := rfl
@[simp] theorem putEnt_deep (d : Dev) (kind i e : Nat) : (putEnt d kind i e).deep = d.deep := rfl
@[simp] theorem putEnt_que (d : Dev) (kind i e : Nat) : (putEnt d kind i e).que = d.que := rfl
@[simp] theorem putEnt_drl (d : Dev) (kind i e : Nat) : (putEnt d kind i e).drl = d.drl := rfl
@[simp] theorem putEnt_strip (d : Dev) (kind i e : Nat) : (putEnt d kind i e).strip = d.strip := rfl
@[simp] theorem putEnt_pair (d : Dev) (kind i e : Nat) : (putEnt d kind i e).pair = d.pair := rfl
@[simp] theorem putEnt_rst (d : Dev) (kind i e : Nat) : (putEnt d kind i e).rst = d.rst := rfl
@[simp] theorem putEnt_perf (d : Dev) (kind i e : Nat) : (putEnt d kind i e).perf = d.perf := rfl
@[simp] theorem putEnt_pfcDirty (d : Dev) (kind i e : Nat) : (putEnt d kind i e).pfcDirty = d.pfcDirty := rfl

@[simp] theorem putSub_time (d : Dev) (q m : Nat) (x : SubQ) : (putSub d q m x).time = d.time := rfl
@[simp] theorem putSub_free (d : Dev) (q m : Nat) (x : SubQ) : (putSub d q m x).free = d.free := rfl
@[simp] theorem putSub_fuses (d : Dev) (q m : Nat) (x : SubQ) : (putSub d q m x).fuses = d.fuses := rfl
@[simp] theorem putSub_regs (d : Dev) (q m : Nat) (x : SubQ) : (putSub d q m x).regs = d.regs := rfl
@[simp] theorem putSub_voteErr (d : Dev) (q m : Nat) (x : SubQ) : (putSub d q m x).voteErr = d.voteErr := rfl
@[simp] theorem putSub_upset (d : Dev) (q m : Nat) (x : SubQ) : (putSub d q m x).upset = d.upset := rfl
@[simp] theorem putSub_writes (d : Dev) (q m : Nat) (x : SubQ) : (putSub d q m x).writes = d.writes := rfl
@[simp] theorem putSub_flt (d : Dev) (q m : Nat) (x : SubQ) : (putSub d q m x).flt = d.flt := rfl
@[simp] theorem putSub_host (d : Dev) (q m : Nat) (x : SubQ) : (putSub d q m x).host = d.host := rfl
@[simp] theorem putSub_prog (d : Dev) (q m : Nat) (x : SubQ) : (putSub d q m x).prog = d.prog := rfl
@[simp] theorem putSub_furs (d : Dev) (q m : Nat) (x : SubQ) : (putSub d q m x).furs = d.furs := rfl
@[simp] theorem putSub_acres (d : Dev) (q m : Nat) (x : SubQ) : (putSub d q m x).acres = d.acres := rfl
@[simp] theorem putSub_fab (d : Dev) (q m : Nat) (x : SubQ) : (putSub d q m x).fab = d.fab := rfl
@[simp] theorem putSub_orch (d : Dev) (q m : Nat) (x : SubQ) : (putSub d q m x).orch = d.orch := rfl
@[simp] theorem putSub_asc (d : Dev) (q m : Nat) (x : SubQ) : (putSub d q m x).asc = d.asc := rfl
@[simp] theorem putSub_har (d : Dev) (q m : Nat) (x : SubQ) : (putSub d q m x).har = d.har := rfl
@[simp] theorem putSub_deep (d : Dev) (q m : Nat) (x : SubQ) : (putSub d q m x).deep = d.deep := rfl
@[simp] theorem putSub_drl (d : Dev) (q m : Nat) (x : SubQ) : (putSub d q m x).drl = d.drl := rfl
@[simp] theorem putSub_rind (d : Dev) (q m : Nat) (x : SubQ) : (putSub d q m x).rind = d.rind := rfl
@[simp] theorem putSub_strip (d : Dev) (q m : Nat) (x : SubQ) : (putSub d q m x).strip = d.strip := rfl
@[simp] theorem putSub_pair (d : Dev) (q m : Nat) (x : SubQ) : (putSub d q m x).pair = d.pair := rfl
@[simp] theorem putSub_rst (d : Dev) (q m : Nat) (x : SubQ) : (putSub d q m x).rst = d.rst := rfl
@[simp] theorem putSub_perf (d : Dev) (q m : Nat) (x : SubQ) : (putSub d q m x).perf = d.perf := rfl
@[simp] theorem putSub_pfcDirty (d : Dev) (q m : Nat) (x : SubQ) : (putSub d q m x).pfcDirty = d.pfcDirty := rfl

@[simp] theorem takeFree_time (d : Dev) (w : Nat) : (takeFree d w).2.time = d.time := rfl
@[simp] theorem takeFree_fuses (d : Dev) (w : Nat) : (takeFree d w).2.fuses = d.fuses := rfl
@[simp] theorem takeFree_regs (d : Dev) (w : Nat) : (takeFree d w).2.regs = d.regs := rfl
@[simp] theorem takeFree_voteErr (d : Dev) (w : Nat) : (takeFree d w).2.voteErr = d.voteErr := rfl
@[simp] theorem takeFree_upset (d : Dev) (w : Nat) : (takeFree d w).2.upset = d.upset := rfl
@[simp] theorem takeFree_writes (d : Dev) (w : Nat) : (takeFree d w).2.writes = d.writes := rfl
@[simp] theorem takeFree_flt (d : Dev) (w : Nat) : (takeFree d w).2.flt = d.flt := rfl
@[simp] theorem takeFree_host (d : Dev) (w : Nat) : (takeFree d w).2.host = d.host := rfl
@[simp] theorem takeFree_prog (d : Dev) (w : Nat) : (takeFree d w).2.prog = d.prog := rfl
@[simp] theorem takeFree_furs (d : Dev) (w : Nat) : (takeFree d w).2.furs = d.furs := rfl
@[simp] theorem takeFree_acres (d : Dev) (w : Nat) : (takeFree d w).2.acres = d.acres := rfl
@[simp] theorem takeFree_fab (d : Dev) (w : Nat) : (takeFree d w).2.fab = d.fab := rfl
@[simp] theorem takeFree_orch (d : Dev) (w : Nat) : (takeFree d w).2.orch = d.orch := rfl
@[simp] theorem takeFree_asc (d : Dev) (w : Nat) : (takeFree d w).2.asc = d.asc := rfl
@[simp] theorem takeFree_har (d : Dev) (w : Nat) : (takeFree d w).2.har = d.har := rfl
@[simp] theorem takeFree_deep (d : Dev) (w : Nat) : (takeFree d w).2.deep = d.deep := rfl
@[simp] theorem takeFree_que (d : Dev) (w : Nat) : (takeFree d w).2.que = d.que := rfl
@[simp] theorem takeFree_drl (d : Dev) (w : Nat) : (takeFree d w).2.drl = d.drl := rfl
@[simp] theorem takeFree_rind (d : Dev) (w : Nat) : (takeFree d w).2.rind = d.rind := rfl
@[simp] theorem takeFree_strip (d : Dev) (w : Nat) : (takeFree d w).2.strip = d.strip := rfl
@[simp] theorem takeFree_pair (d : Dev) (w : Nat) : (takeFree d w).2.pair = d.pair := rfl
@[simp] theorem takeFree_rst (d : Dev) (w : Nat) : (takeFree d w).2.rst = d.rst := rfl
@[simp] theorem takeFree_perf (d : Dev) (w : Nat) : (takeFree d w).2.perf = d.perf := rfl
@[simp] theorem takeFree_pfcDirty (d : Dev) (w : Nat) : (takeFree d w).2.pfcDirty = d.pfcDirty := rfl
@[simp] theorem takeFree_free (d : Dev) (w : Nat) : (takeFree d w).2.free = d.free + 1 := rfl

/-! The state. -/

@[simp] theorem commit_pending (s : State) (d : Dev) : (commit s d).pending = s.pending := rfl
@[simp] theorem commit_writes (s : State) (d : Dev) : (commit s d).dev.writes = [] := rfl
@[simp] theorem commit_time (s : State) (d : Dev) : (commit s d).dev.time = d.time := rfl
@[simp] theorem commit_free (s : State) (d : Dev) : (commit s d).dev.free = d.free := rfl
@[simp] theorem commit_fuses (s : State) (d : Dev) : (commit s d).dev.fuses = d.fuses := rfl
@[simp] theorem commit_regs (s : State) (d : Dev) : (commit s d).dev.regs = d.regs := rfl
@[simp] theorem commit_voteErr (s : State) (d : Dev) : (commit s d).dev.voteErr = d.voteErr := rfl
@[simp] theorem commit_upset (s : State) (d : Dev) : (commit s d).dev.upset = d.upset := rfl
@[simp] theorem commit_flt (s : State) (d : Dev) : (commit s d).dev.flt = d.flt := rfl
@[simp] theorem commit_host (s : State) (d : Dev) : (commit s d).dev.host = d.host := rfl
@[simp] theorem commit_prog (s : State) (d : Dev) : (commit s d).dev.prog = d.prog := rfl
@[simp] theorem commit_furs (s : State) (d : Dev) : (commit s d).dev.furs = d.furs := rfl
@[simp] theorem commit_acres (s : State) (d : Dev) : (commit s d).dev.acres = d.acres := rfl
@[simp] theorem commit_fab (s : State) (d : Dev) : (commit s d).dev.fab = d.fab := rfl
@[simp] theorem commit_orch (s : State) (d : Dev) : (commit s d).dev.orch = d.orch := rfl
@[simp] theorem commit_asc (s : State) (d : Dev) : (commit s d).dev.asc = d.asc := rfl
@[simp] theorem commit_har (s : State) (d : Dev) : (commit s d).dev.har = d.har := rfl
@[simp] theorem commit_deep (s : State) (d : Dev) : (commit s d).dev.deep = d.deep := rfl
@[simp] theorem commit_que (s : State) (d : Dev) : (commit s d).dev.que = d.que := rfl
@[simp] theorem commit_drl (s : State) (d : Dev) : (commit s d).dev.drl = d.drl := rfl
@[simp] theorem commit_rind (s : State) (d : Dev) : (commit s d).dev.rind = d.rind := rfl
@[simp] theorem commit_strip (s : State) (d : Dev) : (commit s d).dev.strip = d.strip := rfl
@[simp] theorem commit_pair (s : State) (d : Dev) : (commit s d).dev.pair = d.pair := rfl
@[simp] theorem commit_rst (s : State) (d : Dev) : (commit s d).dev.rst = d.rst := rfl
@[simp] theorem commit_perf (s : State) (d : Dev) : (commit s d).dev.perf = d.perf := rfl
@[simp] theorem commit_pfcDirty (s : State) (d : Dev) : (commit s d).dev.pfcDirty = d.pfcDirty := rfl
@[simp] theorem commit_mem (s : State) (d : Dev) : (commit s d).mem = d.writes.foldl applyWrite s.mem := rfl

end Sys2Proof.Machine
end

