-- ==== Sys2Proof/Laws/Ops.lean ====
section
/-!
SUPPORT. What the shared operations do: registers, counters, sparse parts of the state, and the memories.
-/
namespace Sys2Proof.Machine

/-! Registers. -/

@[simp] theorem rd_wr_same (d : Dev) (off : Nat) (v : W64) : rd (wr d off v) off = v := by simp [rd, wr]

theorem rd_wr_other (d : Dev) {off o : Nat} (v : W64) (h : o ≠ off) : rd (wr d off v) o = rd d o := by
  simp [rd, wr, spGet_spPut_other _ _ _ h]

theorem rd_wr (d : Dev) (off o : Nat) (v : W64) : rd (wr d off v) o = if o = off then v else rd d o := by
  by_cases h : o = off
  · subst h; simp
  · simp [h, rd_wr_other d v h]

theorem rd_wrF (d : Dev) (off o : Nat) (f : Fld) (v : Nat) :
    rd (wrF d off f v) o = if o = off then setF (rd d off) f v else rd d o := rd_wr ..

theorem rdF_wrF_same (d : Dev) (off : Nat) (f : Fld) (v : Nat) (h : f.lo + f.w ≤ 64) : rdF (wrF d off f v) off f = v % 2 ^ f.w := by
  simp [rdF, wrF, getF_setF _ _ _ h]

/-- A field keeps its value when another register, or another field of the register, is written. -/
theorem rdF_wrF_other (d : Dev) {off o : Nat} {f g : Fld} (v : Nat)
    (h : o ≠ off ∨ ((g.lo + g.w ≤ f.lo ∨ f.lo + f.w ≤ g.lo) ∧ g.lo + g.w ≤ 64)) :
    rdF (wrF d off f v) o g = rdF d o g := by
  rcases h with h | ⟨h, hg⟩
  · simp [rdF, wrF, rd_wr_other d _ h]
  · by_cases ho : o = off
    · subst ho; simp [rdF, wrF, getF_setF_other _ _ _ _ h hg]
    · simp [rdF, wrF, rd_wr_other d _ ho]

theorem rd_wrFs (d : Dev) (off o : Nat) (l : List (Fld × Nat)) :
    rd (wrFs d off l) o = if o = off then l.foldl (fun v x => setF v x.1 x.2) (rd d off) else rd d o := rd_wr ..

@[simp] theorem rd_bump_same (d : Dev) (off : Nat) : rd (bump d off) off = rd d off + 1 := by simp [bump, bumpN]
@[simp] theorem rd_bumpN_same (d : Dev) (off n : Nat) : rd (bumpN d off n) off = rd d off + BitVec.ofNat 64 n := by simp [bumpN]

theorem rd_bumpN_other (d : Dev) {off o : Nat} (n : Nat) (h : o ≠ off) : rd (bumpN d off n) o = rd d o := rd_wr_other d _ h
theorem rd_bump_other (d : Dev) {off o : Nat} (h : o ≠ off) : rd (bump d off) o = rd d o := rd_wr_other d _ h

theorem rdF_bumpSat_same (d : Dev) (off : Nat) (f : Fld) (n : Nat) (h : f.lo + f.w ≤ 64) :
    rdF (bumpSat d off f n) off f = min (rdF d off f + n) (2 ^ f.w - 1) := by
  rw [bumpSat, rdF_wrF_same _ _ _ _ h, satAdd, Nat.mod_eq_of_lt]
  have := Nat.two_pow_pos f.w; omega

theorem rdF_bumpWrap_same (d : Dev) (off : Nat) (f : Fld) (n : Nat) (h : f.lo + f.w ≤ 64) :
    rdF (bumpWrap d off f n) off f = (rdF d off f + n) % 2 ^ f.w := by
  rw [bumpWrap, rdF_wrF_same _ _ _ _ h]

/-- Registers other than those whose storage an update touches read as before. -/
theorem rd_congr {d e : Dev} (h : e.regs = d.regs) (hf : e.fuses = d.fuses) (o : Nat) : rd e o = rd d o := by simp [rd, h, hf]

/-! Furrows and packets. -/

@[simp] theorem getFur_putFur_same (d : Dev) (a f : Nat) (x : Furrow) : getFur (putFur d a f x) a f = x := by simp [getFur, putFur]

@[simp] theorem getPkt_putPkt_same (d : Dev) (l : PktRef) (p : Pkt) : getPkt (putPkt d l p) l = some p := by
  simp [getPkt, putPkt, furPut]

@[simp] theorem getAcre_putAcre_same (d : Dev) (a : Nat) (x : AcreSt) : getAcre (putAcre d a x) a = x := by simp [getAcre, putAcre]

@[simp] theorem getEvt_putEvt_same (d : Dev) (f : Nat) (e : EvtFifo) : getEvt (putEvt d f e) f = e := by simp [getEvt, putEvt]

@[simp] theorem getPort_putPort_same (d : Dev) (p : Nat) (x : PortSt) : getPort (putPort d p x) p = x := by simp [getPort, putPort]

@[simp] theorem getMeter_putMeter_same (d : Dev) (i : Nat) (x : Meter) : getMeter (putMeter d i x) i = x := by simp [getMeter, putMeter]

/-! The memories. -/

theorem memGet_memStore_below (sp : Nat) (m : Memory) {a b : Nat} (bs : List Byte) (h : b < a) :
    memGet sp (memStore sp m a bs) b = memGet sp m b := by
  induction bs generalizing m a with
  | nil => rfl
  | cons x t ih =>
    rw [memStore, ih (m := spPut _ m a x) (by omega)]
    exact spGet_spPut_other _ _ _ (by omega)

/-- A stored byte reads back. -/
theorem memGet_memStore_same (sp : Nat) (m : Memory) (a : Nat) (bs : List Byte) (i : Nat) (h : i < bs.length) :
    memGet sp (memStore sp m a bs) (a + i) = bs.getD i 0 := by
  induction bs generalizing m a i with
  | nil => simp at h
  | cons x t ih =>
    cases i with
    | zero =>
      rw [Nat.add_zero, memStore, memGet_memStore_below sp _ t (by omega)]
      simp [memGet]
    | succ i =>
      have := ih (m := spPut (fun _ => memDefault sp) m a x) (a := a + 1) (i := i) (by simpa using h)
      rw [memStore, show a + (i + 1) = a + 1 + i by omega, this]; simp

/-- A byte outside the stored range reads as before. -/
theorem memGet_memStore_other (sp : Nat) (m : Memory) (a b : Nat) (bs : List Byte) (h : b < a ∨ a + bs.length ≤ b) :
    memGet sp (memStore sp m a bs) b = memGet sp m b := by
  induction bs generalizing m a with
  | nil => rfl
  | cons x t ih =>
    rw [memStore, ih (spPut (fun _ => memDefault sp) m a x) (a + 1) (by simp only [List.length_cons] at h; omega)]
    refine spGet_spPut_other _ _ _ ?_
    simp only [List.length_cons] at h; omega

theorem memStore_wf (sp : Nat) (m : Memory) (a : Nat) (bs : List Byte) (h : Memory.wf sp m = true) :
    Memory.wf sp (memStore sp m a bs) = true := by
  induction bs generalizing m a with
  | nil => exact h
  | cons x t ih => exact ih (m := spPut _ m a x) (a := a + 1) (spPut_wf h a x)

/-- The three memories are in canonical form. -/
def Mem.wf (m : Mem) : Prop := Memory.wf spDeep m.deep = true ∧ Memory.wf spHost m.host = true ∧ Memory.wf spFlash m.flash = true

theorem applyWrite_wf {m : Mem} (w : MemWrite) (h : m.wf) : (applyWrite m w).wf := by
  obtain ⟨h1, h2, h3⟩ := h
  unfold applyWrite
  split
  · exact ⟨memStore_wf _ _ _ _ h1, h2, h3⟩
  · split
    · exact ⟨rfl, h2, h3⟩
    · split
      · exact ⟨h1, memStore_wf _ _ _ _ h2, h3⟩
      · exact ⟨h1, h2, memStore_wf _ _ _ _ h3⟩

/-- Whatever a command writes, the memories stay in canonical form. -/
theorem applyWrites_wf (l : List MemWrite) {m : Mem} (h : m.wf) : (l.foldl applyWrite m).wf := by
  induction l generalizing m with
  | nil => exact h
  | cons w t ih => exact ih (applyWrite_wf w h)

/-- A command that writes no memory leaves the memories as they were. -/
theorem commit_mem_nil (s : State) {d : Dev} (h : d.writes = []) : (commit s d).mem = s.mem := by simp [h]

theorem commit_mem_wf (s : State) (d : Dev) (h : s.mem.wf) : (commit s d).mem.wf := applyWrites_wf d.writes h

end Sys2Proof.Machine
end

