-- ==== Sys2Proof/Laws/Exec.lean ====
section
/-!
SUPPORT. What every command and every step has in common.
-/
namespace Sys2Proof.Machine

/-- Every command answers the state with some device committed to it. -/
theorem exec_commit (i : Instr) (s : State) : ∃ d, exec i s = .next (commit s d) := by
  cases i <;> exact ⟨_, rfl⟩

/-- A step on an empty queue lets 1 ns pass. -/
theorem step_idle {s : State} (h : s.pending = []) : step s = .next (commit s (idleTick s.dev)) := by
  simp [step, h, run]

/-- A step takes the command at the front of the queue. -/
theorem step_cons {s : State} {c : Instr} {t : List Instr} (h : s.pending = c :: t) :
    step s = exec c { s with pending := t } := by
  simp [step, h]

theorem State.wf_iff (s : State) : s.wf = true ↔ s.mem.wf ∧ s.dev.writes = [] := by
  simp [State.wf, Mem.wf, and_assoc]

/-- A committed state is in order when the memories were. -/
theorem commit_wf (s : State) (d : Dev) (h : s.mem.wf) : (commit s d).wf = true :=
  (State.wf_iff _).mpr ⟨commit_mem_wf s d h, rfl⟩

end Sys2Proof.Machine
end

