-- ==== Sys2Proof/Laws/Fault.lean ====
section
/-!
SUPPORT. What raising a fault, ending its condition, interrupts, events, resets' log and pins leave alone.
-/
namespace Sys2Proof.Machine

/-- A run of register writes changes registers alone. -/
theorem foldl_wr_shape {α : Type} (l : List α) (g : α → Nat) (v : α → W64) (d : Dev) :
    ∃ r, l.foldl (fun d x => wr d (g x) (v x)) d = { d with regs := r } := by
  induction l generalizing d with
  | nil => exact ⟨d.regs, rfl⟩
  | cons x t ih => obtain ⟨r, h⟩ := ih (wr d (g x) (v x)); exact ⟨r, h⟩

theorem resetLog_shape (d : Dev) (c : Nat) (b : Bool) : ∃ r, resetLog d c b = { d with regs := r } :=
  foldl_wr_shape _ (fun x : W64 × Nat => Reg.AON_RESET_LOG x.2) Prod.fst d

/-- Raising a fault changes the collector and the furrows alone. -/
theorem raise_shape (d : Dev) (k : FaultKind) (i x m c : Nat) : ∃ fl fu, raise d k i x m c = { d with flt := fl, furs := fu } := by
  simp only [raise]
  by_cases h : k.cls = 2 ∧ k.sev = 3
  · rw [if_pos h]; split <;> exact ⟨_, _, rfl⟩
  · rw [if_neg h]; exact ⟨_, _, rfl⟩

@[simp] theorem raise_time (d : Dev) (k : FaultKind) (i x m c : Nat) : (raise d k i x m c).time = d.time := by
  obtain ⟨_, _, h⟩ := raise_shape d k i x m c; rw [h]
@[simp] theorem raise_free (d : Dev) (k : FaultKind) (i x m c : Nat) : (raise d k i x m c).free = d.free := by
  obtain ⟨_, _, h⟩ := raise_shape d k i x m c; rw [h]
@[simp] theorem raise_fuses (d : Dev) (k : FaultKind) (i x m c : Nat) : (raise d k i x m c).fuses = d.fuses := by
  obtain ⟨_, _, h⟩ := raise_shape d k i x m c; rw [h]
@[simp] theorem raise_regs (d : Dev) (k : FaultKind) (i x m c : Nat) : (raise d k i x m c).regs = d.regs := by
  obtain ⟨_, _, h⟩ := raise_shape d k i x m c; rw [h]
@[simp] theorem raise_voteErr (d : Dev) (k : FaultKind) (i x m c : Nat) : (raise d k i x m c).voteErr = d.voteErr := by
  obtain ⟨_, _, h⟩ := raise_shape d k i x m c; rw [h]
@[simp] theorem raise_upset (d : Dev) (k : FaultKind) (i x m c : Nat) : (raise d k i x m c).upset = d.upset := by
  obtain ⟨_, _, h⟩ := raise_shape d k i x m c; rw [h]
@[simp] theorem raise_writes (d : Dev) (k : FaultKind) (i x m c : Nat) : (raise d k i x m c).writes = d.writes := by
  obtain ⟨_, _, h⟩ := raise_shape d k i x m c; rw [h]
@[simp] theorem raise_host (d : Dev) (k : FaultKind) (i x m c : Nat) : (raise d k i x m c).host = d.host := by
  obtain ⟨_, _, h⟩ := raise_shape d k i x m c; rw [h]
@[simp] theorem raise_prog (d : Dev) (k : FaultKind) (i x m c : Nat) : (raise d k i x m c).prog = d.prog := by
  obtain ⟨_, _, h⟩ := raise_shape d k i x m c; rw [h]
@[simp] theorem raise_acres (d : Dev) (k : FaultKind) (i x m c : Nat) : (raise d k i x m c).acres = d.acres := by
  obtain ⟨_, _, h⟩ := raise_shape d k i x m c; rw [h]
@[simp] theorem raise_fab (d : Dev) (k : FaultKind) (i x m c : Nat) : (raise d k i x m c).fab = d.fab := by
  obtain ⟨_, _, h⟩ := raise_shape d k i x m c; rw [h]
@[simp] theorem raise_orch (d : Dev) (k : FaultKind) (i x m c : Nat) : (raise d k i x m c).orch = d.orch := by
  obtain ⟨_, _, h⟩ := raise_shape d k i x m c; rw [h]
@[simp] theorem raise_asc (d : Dev) (k : FaultKind) (i x m c : Nat) : (raise d k i x m c).asc = d.asc := by
  obtain ⟨_, _, h⟩ := raise_shape d k i x m c; rw [h]
@[simp] theorem raise_har (d : Dev) (k : FaultKind) (i x m c : Nat) : (raise d k i x m c).har = d.har := by
  obtain ⟨_, _, h⟩ := raise_shape d k i x m c; rw [h]
@[simp] theorem raise_deep (d : Dev) (k : FaultKind) (i x m c : Nat) : (raise d k i x m c).deep = d.deep := by
  obtain ⟨_, _, h⟩ := raise_shape d k i x m c; rw [h]
@[simp] theorem raise_que (d : Dev) (k : FaultKind) (i x m c : Nat) : (raise d k i x m c).que = d.que := by
  obtain ⟨_, _, h⟩ := raise_shape d k i x m c; rw [h]
@[simp] theorem raise_drl (d : Dev) (k : FaultKind) (i x m c : Nat) : (raise d k i x m c).drl = d.drl := by
  obtain ⟨_, _, h⟩ := raise_shape d k i x m c; rw [h]
@[simp] theorem raise_rind (d : Dev) (k : FaultKind) (i x m c : Nat) : (raise d k i x m c).rind = d.rind := by
  obtain ⟨_, _, h⟩ := raise_shape d k i x m c; rw [h]
@[simp] theorem raise_strip (d : Dev) (k : FaultKind) (i x m c : Nat) : (raise d k i x m c).strip = d.strip := by
  obtain ⟨_, _, h⟩ := raise_shape d k i x m c; rw [h]
@[simp] theorem raise_pair (d : Dev) (k : FaultKind) (i x m c : Nat) : (raise d k i x m c).pair = d.pair := by
  obtain ⟨_, _, h⟩ := raise_shape d k i x m c; rw [h]
@[simp] theorem raise_rst (d : Dev) (k : FaultKind) (i x m c : Nat) : (raise d k i x m c).rst = d.rst := by
  obtain ⟨_, _, h⟩ := raise_shape d k i x m c; rw [h]
@[simp] theorem raise_perf (d : Dev) (k : FaultKind) (i x m c : Nat) : (raise d k i x m c).perf = d.perf := by
  obtain ⟨_, _, h⟩ := raise_shape d k i x m c; rw [h]
@[simp] theorem raise_pfcDirty (d : Dev) (k : FaultKind) (i x m c : Nat) : (raise d k i x m c).pfcDirty = d.pfcDirty := by
  obtain ⟨_, _, h⟩ := raise_shape d k i x m c; rw [h]

@[simp] theorem endCond_time (d : Dev) (k : FaultKind) (i : Nat) : (endCond d k i).time = d.time := rfl
@[simp] theorem endCond_free (d : Dev) (k : FaultKind) (i : Nat) : (endCond d k i).free = d.free := rfl
@[simp] theorem endCond_fuses (d : Dev) (k : FaultKind) (i : Nat) : (endCond d k i).fuses = d.fuses := rfl
@[simp] theorem endCond_regs (d : Dev) (k : FaultKind) (i : Nat) : (endCond d k i).regs = d.regs := rfl
@[simp] theorem endCond_voteErr (d : Dev) (k : FaultKind) (i : Nat) : (endCond d k i).voteErr = d.voteErr := rfl
@[simp] theorem endCond_upset (d : Dev) (k : FaultKind) (i : Nat) : (endCond d k i).upset = d.upset := rfl
@[simp] theorem endCond_writes (d : Dev) (k : FaultKind) (i : Nat) : (endCond d k i).writes = d.writes := rfl
@[simp] theorem endCond_host (d : Dev) (k : FaultKind) (i : Nat) : (endCond d k i).host = d.host := rfl
@[simp] theorem endCond_prog (d : Dev) (k : FaultKind) (i : Nat) : (endCond d k i).prog = d.prog := rfl
@[simp] theorem endCond_furs (d : Dev) (k : FaultKind) (i : Nat) : (endCond d k i).furs = d.furs := rfl
@[simp] theorem endCond_acres (d : Dev) (k : FaultKind) (i : Nat) : (endCond d k i).acres = d.acres := rfl
@[simp] theorem endCond_fab (d : Dev) (k : FaultKind) (i : Nat) : (endCond d k i).fab = d.fab := rfl
@[simp] theorem endCond_orch (d : Dev) (k : FaultKind) (i : Nat) : (endCond d k i).orch = d.orch := rfl
@[simp] theorem endCond_asc (d : Dev) (k : FaultKind) (i : Nat) : (endCond d k i).asc = d.asc := rfl
@[simp] theorem endCond_har (d : Dev) (k : FaultKind) (i : Nat) : (endCond d k i).har = d.har := rfl
@[simp] theorem endCond_deep (d : Dev) (k : FaultKind) (i : Nat) : (endCond d k i).deep = d.deep := rfl
@[simp] theorem endCond_que (d : Dev) (k : FaultKind) (i : Nat) : (endCond d k i).que = d.que := rfl
@[simp] theorem endCond_drl (d : Dev) (k : FaultKind) (i : Nat) : (endCond d k i).drl = d.drl := rfl
@[simp] theorem endCond_rind (d : Dev) (k : FaultKind) (i : Nat) : (endCond d k i).rind = d.rind := rfl
@[simp] theorem endCond_strip (d : Dev) (k : FaultKind) (i : Nat) : (endCond d k i).strip = d.strip := rfl
@[simp] theorem endCond_pair (d : Dev) (k : FaultKind) (i : Nat) : (endCond d k i).pair = d.pair := rfl
@[simp] theorem endCond_rst (d : Dev) (k : FaultKind) (i : Nat) : (endCond d k i).rst = d.rst := rfl
@[simp] theorem endCond_perf (d : Dev) (k : FaultKind) (i : Nat) : (endCond d k i).perf = d.perf := rfl
@[simp] theorem endCond_pfcDirty (d : Dev) (k : FaultKind) (i : Nat) : (endCond d k i).pfcDirty = d.pfcDirty := rfl

@[simp] theorem msi_time (d : Dev) (v : Nat) : (msi d v).time = d.time := by
  simp only [msi]; split <;> rfl
@[simp] theorem msi_free (d : Dev) (v : Nat) : (msi d v).free = d.free := by
  simp only [msi]; split <;> rfl
@[simp] theorem msi_fuses (d : Dev) (v : Nat) : (msi d v).fuses = d.fuses := by
  simp only [msi]; split <;> rfl
@[simp] theorem msi_voteErr (d : Dev) (v : Nat) : (msi d v).voteErr = d.voteErr := by
  simp only [msi]; split <;> rfl
@[simp] theorem msi_upset (d : Dev) (v : Nat) : (msi d v).upset = d.upset := by
  simp only [msi]; split <;> rfl
@[simp] theorem msi_flt (d : Dev) (v : Nat) : (msi d v).flt = d.flt := by
  simp only [msi]; split <;> rfl
@[simp] theorem msi_prog (d : Dev) (v : Nat) : (msi d v).prog = d.prog := by
  simp only [msi]; split <;> rfl
@[simp] theorem msi_furs (d : Dev) (v : Nat) : (msi d v).furs = d.furs := by
  simp only [msi]; split <;> rfl
@[simp] theorem msi_acres (d : Dev) (v : Nat) : (msi d v).acres = d.acres := by
  simp only [msi]; split <;> rfl
@[simp] theorem msi_fab (d : Dev) (v : Nat) : (msi d v).fab = d.fab := by
  simp only [msi]; split <;> rfl
@[simp] theorem msi_orch (d : Dev) (v : Nat) : (msi d v).orch = d.orch := by
  simp only [msi]; split <;> rfl
@[simp] theorem msi_asc (d : Dev) (v : Nat) : (msi d v).asc = d.asc := by
  simp only [msi]; split <;> rfl
@[simp] theorem msi_har (d : Dev) (v : Nat) : (msi d v).har = d.har := by
  simp only [msi]; split <;> rfl
@[simp] theorem msi_deep (d : Dev) (v : Nat) : (msi d v).deep = d.deep := by
  simp only [msi]; split <;> rfl
@[simp] theorem msi_que (d : Dev) (v : Nat) : (msi d v).que = d.que := by
  simp only [msi]; split <;> rfl
@[simp] theorem msi_drl (d : Dev) (v : Nat) : (msi d v).drl = d.drl := by
  simp only [msi]; split <;> rfl
@[simp] theorem msi_rind (d : Dev) (v : Nat) : (msi d v).rind = d.rind := by
  simp only [msi]; split <;> rfl
@[simp] theorem msi_strip (d : Dev) (v : Nat) : (msi d v).strip = d.strip := by
  simp only [msi]; split <;> rfl
@[simp] theorem msi_pair (d : Dev) (v : Nat) : (msi d v).pair = d.pair := by
  simp only [msi]; split <;> rfl
@[simp] theorem msi_rst (d : Dev) (v : Nat) : (msi d v).rst = d.rst := by
  simp only [msi]; split <;> rfl
@[simp] theorem msi_perf (d : Dev) (v : Nat) : (msi d v).perf = d.perf := by
  simp only [msi]; split <;> rfl
@[simp] theorem msi_pfcDirty (d : Dev) (v : Nat) : (msi d v).pfcDirty = d.pfcDirty := by
  simp only [msi]; split <;> rfl

@[simp] theorem pinSettle_time (d : Dev) : (pinSettle d).time = d.time := rfl
@[simp] theorem pinSettle_free (d : Dev) : (pinSettle d).free = d.free := rfl
@[simp] theorem pinSettle_fuses (d : Dev) : (pinSettle d).fuses = d.fuses := rfl
@[simp] theorem pinSettle_voteErr (d : Dev) : (pinSettle d).voteErr = d.voteErr := rfl
@[simp] theorem pinSettle_upset (d : Dev) : (pinSettle d).upset = d.upset := rfl
@[simp] theorem pinSettle_writes (d : Dev) : (pinSettle d).writes = d.writes := rfl
@[simp] theorem pinSettle_flt (d : Dev) : (pinSettle d).flt = d.flt := rfl
@[simp] theorem pinSettle_host (d : Dev) : (pinSettle d).host = d.host := rfl
@[simp] theorem pinSettle_prog (d : Dev) : (pinSettle d).prog = d.prog := rfl
@[simp] theorem pinSettle_furs (d : Dev) : (pinSettle d).furs = d.furs := rfl
@[simp] theorem pinSettle_acres (d : Dev) : (pinSettle d).acres = d.acres := rfl
@[simp] theorem pinSettle_fab (d : Dev) : (pinSettle d).fab = d.fab := rfl
@[simp] theorem pinSettle_orch (d : Dev) : (pinSettle d).orch = d.orch := rfl
@[simp] theorem pinSettle_asc (d : Dev) : (pinSettle d).asc = d.asc := rfl
@[simp] theorem pinSettle_har (d : Dev) : (pinSettle d).har = d.har := rfl
@[simp] theorem pinSettle_deep (d : Dev) : (pinSettle d).deep = d.deep := rfl
@[simp] theorem pinSettle_que (d : Dev) : (pinSettle d).que = d.que := rfl
@[simp] theorem pinSettle_drl (d : Dev) : (pinSettle d).drl = d.drl := rfl
@[simp] theorem pinSettle_rind (d : Dev) : (pinSettle d).rind = d.rind := rfl
@[simp] theorem pinSettle_strip (d : Dev) : (pinSettle d).strip = d.strip := rfl
@[simp] theorem pinSettle_pair (d : Dev) : (pinSettle d).pair = d.pair := rfl
@[simp] theorem pinSettle_rst (d : Dev) : (pinSettle d).rst = d.rst := rfl
@[simp] theorem pinSettle_perf (d : Dev) : (pinSettle d).perf = d.perf := rfl
@[simp] theorem pinSettle_pfcDirty (d : Dev) : (pinSettle d).pfcDirty = d.pfcDirty := rfl

@[simp] theorem resetLog_time (d : Dev) (c : Nat) (b : Bool) : (resetLog d c b).time = d.time := by
  obtain ⟨_, h⟩ := resetLog_shape d c b; rw [h]
@[simp] theorem resetLog_free (d : Dev) (c : Nat) (b : Bool) : (resetLog d c b).free = d.free := by
  obtain ⟨_, h⟩ := resetLog_shape d c b; rw [h]
@[simp] theorem resetLog_fuses (d : Dev) (c : Nat) (b : Bool) : (resetLog d c b).fuses = d.fuses := by
  obtain ⟨_, h⟩ := resetLog_shape d c b; rw [h]
@[simp] theorem resetLog_voteErr (d : Dev) (c : Nat) (b : Bool) : (resetLog d c b).voteErr = d.voteErr := by
  obtain ⟨_, h⟩ := resetLog_shape d c b; rw [h]
@[simp] theorem resetLog_upset (d : Dev) (c : Nat) (b : Bool) : (resetLog d c b).upset = d.upset := by
  obtain ⟨_, h⟩ := resetLog_shape d c b; rw [h]
@[simp] theorem resetLog_writes (d : Dev) (c : Nat) (b : Bool) : (resetLog d c b).writes = d.writes := by
  obtain ⟨_, h⟩ := resetLog_shape d c b; rw [h]
@[simp] theorem resetLog_flt (d : Dev) (c : Nat) (b : Bool) : (resetLog d c b).flt = d.flt := by
  obtain ⟨_, h⟩ := resetLog_shape d c b; rw [h]
@[simp] theorem resetLog_host (d : Dev) (c : Nat) (b : Bool) : (resetLog d c b).host = d.host := by
  obtain ⟨_, h⟩ := resetLog_shape d c b; rw [h]
@[simp] theorem resetLog_prog (d : Dev) (c : Nat) (b : Bool) : (resetLog d c b).prog = d.prog := by
  obtain ⟨_, h⟩ := resetLog_shape d c b; rw [h]
@[simp] theorem resetLog_furs (d : Dev) (c : Nat) (b : Bool) : (resetLog d c b).furs = d.furs := by
  obtain ⟨_, h⟩ := resetLog_shape d c b; rw [h]
@[simp] theorem resetLog_acres (d : Dev) (c : Nat) (b : Bool) : (resetLog d c b).acres = d.acres := by
  obtain ⟨_, h⟩ := resetLog_shape d c b; rw [h]
@[simp] theorem resetLog_fab (d : Dev) (c : Nat) (b : Bool) : (resetLog d c b).fab = d.fab := by
  obtain ⟨_, h⟩ := resetLog_shape d c b; rw [h]
@[simp] theorem resetLog_orch (d : Dev) (c : Nat) (b : Bool) : (resetLog d c b).orch = d.orch := by
  obtain ⟨_, h⟩ := resetLog_shape d c b; rw [h]
@[simp] theorem resetLog_asc (d : Dev) (c : Nat) (b : Bool) : (resetLog d c b).asc = d.asc := by
  obtain ⟨_, h⟩ := resetLog_shape d c b; rw [h]
@[simp] theorem resetLog_har (d : Dev) (c : Nat) (b : Bool) : (resetLog d c b).har = d.har := by
  obtain ⟨_, h⟩ := resetLog_shape d c b; rw [h]
@[simp] theorem resetLog_deep (d : Dev) (c : Nat) (b : Bool) : (resetLog d c b).deep = d.deep := by
  obtain ⟨_, h⟩ := resetLog_shape d c b; rw [h]
@[simp] theorem resetLog_que (d : Dev) (c : Nat) (b : Bool) : (resetLog d c b).que = d.que := by
  obtain ⟨_, h⟩ := resetLog_shape d c b; rw [h]
@[simp] theorem resetLog_drl (d : Dev) (c : Nat) (b : Bool) : (resetLog d c b).drl = d.drl := by
  obtain ⟨_, h⟩ := resetLog_shape d c b; rw [h]
@[simp] theorem resetLog_rind (d : Dev) (c : Nat) (b : Bool) : (resetLog d c b).rind = d.rind := by
  obtain ⟨_, h⟩ := resetLog_shape d c b; rw [h]
@[simp] theorem resetLog_strip (d : Dev) (c : Nat) (b : Bool) : (resetLog d c b).strip = d.strip := by
  obtain ⟨_, h⟩ := resetLog_shape d c b; rw [h]
@[simp] theorem resetLog_pair (d : Dev) (c : Nat) (b : Bool) : (resetLog d c b).pair = d.pair := by
  obtain ⟨_, h⟩ := resetLog_shape d c b; rw [h]
@[simp] theorem resetLog_rst (d : Dev) (c : Nat) (b : Bool) : (resetLog d c b).rst = d.rst := by
  obtain ⟨_, h⟩ := resetLog_shape d c b; rw [h]
@[simp] theorem resetLog_perf (d : Dev) (c : Nat) (b : Bool) : (resetLog d c b).perf = d.perf := by
  obtain ⟨_, h⟩ := resetLog_shape d c b; rw [h]
@[simp] theorem resetLog_pfcDirty (d : Dev) (c : Nat) (b : Bool) : (resetLog d c b).pfcDirty = d.pfcDirty := by
  obtain ⟨_, h⟩ := resetLog_shape d c b; rw [h]

/-- The collector after a fault is raised. -/
theorem raise_flt (d : Dev) (k : FaultKind) (i x m c : Nat) : (raise d k i x m c).flt = raiseFlt d.flt k i x m c := by
  simp only [raise]
  by_cases h : k.cls = 2 ∧ k.sev = 3
  · rw [if_pos h]; split <;> rfl
  · rw [if_neg h]

@[simp] theorem rd_raise (d : Dev) (k : FaultKind) (i x m c o : Nat) : rd (raise d k i x m c) o = rd d o := rd_congr (by simp) (by simp) o
@[simp] theorem rdF_raise (d : Dev) (k : FaultKind) (i x m c o : Nat) (f : Fld) : rdF (raise d k i x m c) o f = rdF d o f := by simp [rdF]
@[simp] theorem rd_endCond (d : Dev) (k : FaultKind) (i o : Nat) : rd (endCond d k i) o = rd d o := rfl
@[simp] theorem rdF_endCond (d : Dev) (k : FaultKind) (i o : Nat) (f : Fld) : rdF (endCond d k i) o f = rdF d o f := rfl

/-- A raised fault of a kind with a cause leaves that cause present. -/
theorem condPresent_raise (d : Dev) (k : FaultKind) (i x m c : Nat) (h : k.cond = true) : condPresent (raise d k i x m c) k i = true := by
  have : (raise d k i x m c).flt.present = spPut (fun _ => 0) d.flt.present ((256 * k.cls + i % 256) * 256 + k.kind) 1 := by
    simp [raise_flt, raiseFlt, h]
  simp [condPresent, this]

theorem condPresent_endCond (d : Dev) (k : FaultKind) (i : Nat) : condPresent (endCond d k i) k i = false := by
  simp [condPresent, endCond]

/-- The message of a raised fault enters the ring. -/
theorem raise_pending (d : Dev) (k : FaultKind) (i x m c : Nat) :
    (raise d k i x m c).flt.pending = mergeMsg ⟨256 * k.cls + i % 256, k.kind, k.sev, x % 2 ^ 48, m, c, 0, false⟩ d.flt.pending := by
  simp [raise_flt, raiseFlt]

end Sys2Proof.Machine
end

