-- ==== Sys2Proof/Laws/RegWrite.lean ====
section
/-!
SUPPORT. The path of a register write.
-/
namespace Sys2Proof.Machine

theorem injectAt_idle {d : Dev} (h : flagF d Reg.FAULT_INJECT Reg.FAULT_INJECT_PENDING = false) (c src a : Nat) :
    injectAt d c src a = (0, d) := by
  simp [injectAt, h]

theorem csrParity_idle {d : Dev} (h : flagF d Reg.FAULT_INJECT Reg.FAULT_INJECT_PENDING = false) (agent off c : Nat) (v : W64) :
    csrParity d agent off c v = (false, d) := by
  simp [csrParity, injectAt_idle h]

/-- A write that reaches a register outside Rind's lease is settled by that register's own rule. -/
theorem regWrite_reaches {m : Mem} {d : Dev} {agent off : Nat} {v : W64} {s : RegSpec} {x : List Nat}
    (h : WriteReaches d agent off v) (hr : regAt off = some (s, x)) (hf : FieldsInRange off v)
    (ho : off < 0x2000000 ∨ 0x3FF0000 ≤ off) (hp : (unpeek off).2 = false) (h8 : off % 8 = 0) (hl : off / 0x100000 ≠ 26) :
    regWrite agent off v m d =
      (let r := regEffect ⟨agent, off, s.base, x.getD 0 0, x.getD 1 0, v, stored d off v⟩ m d
       if r.1 then voterWrite r.2 s.base off ((islandsOf d off v).headD 0) else hostReject r.2 agent off (islandsOf d off v)) := by
  obtain ⟨h1, h2, h3, h4, h5, h6, h7⟩ := h
  have hi := h7 _ hr
  have hf' : rangeOk s.flds v = true := by simpa [FieldsInRange, hr] using hf
  have hw : ¬ (0x2000000 ≤ off ∧ off < 0x3FF0000) := by omega
  simp only [regWrite, regWriteR, h1, h2, hp, h8, h3, h4, h5, regStore, hw, hr, h6, hl, hf', stored]
  have hi' : indexAbsent d s.base (x[0]?.getD 0) = false := by simpa using hi
  simp
  split
  · exact absurd ‹_› (by simp [hi'])
  · split <;> rfl

theorem voterWrite_plain (d : Dev) (b off i : Nat) (h : votedReg b = false) : voterWrite d b off i = d := by simp [voterWrite, h]

end Sys2Proof.Machine
end

