-- ==== Sys2Proof/Laws/Reset.lean ====
section
/-!
SUPPORT. What the resets keep and clear.
-/
namespace Sys2Proof.Machine

theorem spGet_filter {α : Type} (f : Nat → α) (p : Nat → Bool) (l : Sp α) (o : Nat) :
    spGet f (l.filter fun x => p x.1) o = if p o then spGet f l o else f o := by
  induction l with
  | nil => simp [spGet]
  | cons e t ih =>
    obtain ⟨k, v⟩ := e
    by_cases hk : p k
    · simp only [List.filter, hk, spGet, ih]
      by_cases h : o = k
      · subst h; simp [hk]
      · simp [h]
    · simp only [List.filter, hk, spGet, ih]
      by_cases h : o = k
      · subst h; simp [hk]
      · simp [h]

theorem foldl_putEnt_shape (l : List Nat) (d : Dev) : ∃ r, l.foldl (fun d h => putEnt d 3 h 0) d = { d with rind := r } := by
  induction l generalizing d with
  | nil => exact ⟨d.rind, rfl⟩
  | cons x t ih => obtain ⟨r, h⟩ := ih (putEnt d 3 x 0); exact ⟨r, h⟩

/-- New deep-store keys change Rind's entries, the count of free values and one field of RIND_HEALTH. -/
theorem keysGenerate_shape (d : Dev) : ∃ fr ri v,
    keysGenerate d = { wrF d Reg.RIND_HEALTH Reg.RIND_HEALTH_KEYGEN_PENDING v with free := fr, rind := ri } := by
  unfold keysGenerate
  dsimp only
  split
  · exact ⟨_, _, _, rfl⟩
  · obtain ⟨r, h⟩ := foldl_putEnt_shape (List.range 256)
      (wrF { d with rind := { d.rind with ents := d.rind.ents.filter fun x => x.1 / 2 ^ 17 ≠ 3,
                                          keyWait := (List.range 256).map fun h => (h, 1) } }
        Reg.RIND_HEALTH Reg.RIND_HEALTH_KEYGEN_PENDING 1)
    exact ⟨_, _, _, h⟩

theorem rd_keysGenerate (d : Dev) {o : Nat} (h : o ≠ Reg.RIND_HEALTH) : rd (keysGenerate d) o = rd d o := by
  obtain ⟨fr, ri, v, hk⟩ := keysGenerate_shape d
  rw [hk]; exact rd_wr_other d _ h

theorem rd_pinSettle (d : Dev) {o : Nat} (h : o ≠ Reg.PIN_STATUS) : rd (pinSettle d) o = rd d o := rd_wr_other d _ h

/-- Registers of the always-on island, but for PIN_STATUS, are kept by a cold reset. -/
theorem rd_coldClear (d : Dev) {o : Nat} (h : o / 2 ^ 20 = 3) (hp : o ≠ Reg.PIN_STATUS) : rd (coldClear d) o = rd d o := by
  have hr : o ≠ Reg.RIND_HEALTH := by rintro rfl; revert h; decide
  have : rd (coldClear d) o = rd (coldBase d) o := by
    rw [← rd_keysGenerate (coldBase d) hr, ← rd_pinSettle (keysGenerate (coldBase d)) hp]; rfl
  rw [this]
  simp only [rd, coldBase]
  rw [spGet_filter _ (fun x => x / 2 ^ 20 == 3), if_pos (by simpa using h)]

/-- The shape of the state that a cold reset leaves. -/
theorem coldClear_shape (d : Dev) : ∃ fr ri re, coldClear d =
    { coldBase d with free := fr, rind := ri, regs := re, writes := d.writes ++ [⟨spClear, 0, []⟩] } := by
  obtain ⟨fr, ri, v, hk⟩ := keysGenerate_shape (coldBase d)
  refine ⟨fr, ri, (pinSettle (keysGenerate (coldBase d))).regs, ?_⟩
  unfold coldClear; rw [hk]; rfl

theorem warmClear_shape (d : Dev) : ∃ re, warmClear d = { warmBase d with regs := re } := ⟨_, rfl⟩

/-- Registers that a warm reset keeps hold their values; the others go back to their reset values. -/
theorem rd_warmClear (d : Dev) {o : Nat} (h : o ≠ Reg.PAIR_STATUS) (hr : o ≠ Reg.RIND_HEALTH) :
    rd (warmClear d) o = if warmKeeps o then rd d o else resetVal d.fuses.half o := by
  rw [warmClear, rd_wrFs, if_neg h, rd_wrF, if_neg hr]
  simp only [rd, warmBase]
  rw [spGet_filter _ warmKeeps]

theorem rd_foldl_wr_other {α : Type} (l : List α) (g : α → Nat) (v : α → W64) (d : Dev) {o : Nat} (h : ∀ x ∈ l, o ≠ g x) :
    rd (l.foldl (fun d x => wr d (g x) (v x)) d) o = rd d o := by
  induction l generalizing d with
  | nil => rfl
  | cons x t ih =>
    rw [List.foldl_cons, ih _ (fun y hy => h y (List.mem_cons_of_mem _ hy)), rd_wr_other _ _ (h x (by simp))]

theorem rd_resetLog_other (d : Dev) (c : Nat) (b : Bool) {o : Nat} (h : o < Reg.AON_RESET_LOG 0 ∨ Reg.AON_RESET_LOG 15 < o) :
    rd (resetLog d c b) o = rd d o := by
  refine rd_foldl_wr_other _ (fun x : W64 × Nat => Reg.AON_RESET_LOG x.2) Prod.fst d ?_
  rintro ⟨w, i⟩ hx
  have : i < 16 := by
    have := (List.mem_zipIdx hx).2.1
    simpa using this
  simp only [Reg.AON_RESET_LOG] at h ⊢
  omega

/-- The newest entry of AON_RESET_LOG. -/
theorem rd_resetLog_newest (d : Dev) (c : Nat) (b : Bool) :
    rd (resetLog d c b) (Reg.AON_RESET_LOG 0) = BitVec.ofNat 64 (b2n b * 2 ^ 63 + c * 2 ^ 56 + d.time % 2 ^ 56) := by
  unfold resetLog
  dsimp only
  rw [List.zipIdx_cons, List.foldl_cons]
  rw [rd_foldl_wr_other _ (fun x : W64 × Nat => Reg.AON_RESET_LOG x.2) Prod.fst]
  · simp
  · rintro ⟨w, i⟩ hx
    have := (List.mem_zipIdx hx).1
    simp only [Reg.AON_RESET_LOG]
    omega

/-! What new keys leave alone. -/

@[simp] theorem keysGenerate_time (d : Dev) : (keysGenerate d).time = d.time := by
  obtain ⟨_, _, _, h⟩ := keysGenerate_shape d; rw [h]; rfl
@[simp] theorem keysGenerate_fuses (d : Dev) : (keysGenerate d).fuses = d.fuses := by
  obtain ⟨_, _, _, h⟩ := keysGenerate_shape d; rw [h]; rfl
@[simp] theorem keysGenerate_voteErr (d : Dev) : (keysGenerate d).voteErr = d.voteErr := by
  obtain ⟨_, _, _, h⟩ := keysGenerate_shape d; rw [h]; rfl
@[simp] theorem keysGenerate_upset (d : Dev) : (keysGenerate d).upset = d.upset := by
  obtain ⟨_, _, _, h⟩ := keysGenerate_shape d; rw [h]; rfl
@[simp] theorem keysGenerate_writes (d : Dev) : (keysGenerate d).writes = d.writes := by
  obtain ⟨_, _, _, h⟩ := keysGenerate_shape d; rw [h]; rfl
@[simp] theorem keysGenerate_flt (d : Dev) : (keysGenerate d).flt = d.flt := by
  obtain ⟨_, _, _, h⟩ := keysGenerate_shape d; rw [h]; rfl
@[simp] theorem keysGenerate_host (d : Dev) : (keysGenerate d).host = d.host := by
  obtain ⟨_, _, _, h⟩ := keysGenerate_shape d; rw [h]; rfl
@[simp] theorem keysGenerate_prog (d : Dev) : (keysGenerate d).prog = d.prog := by
  obtain ⟨_, _, _, h⟩ := keysGenerate_shape d; rw [h]; rfl
@[simp] theorem keysGenerate_furs (d : Dev) : (keysGenerate d).furs = d.furs := by
  obtain ⟨_, _, _, h⟩ := keysGenerate_shape d; rw [h]; rfl
@[simp] theorem keysGenerate_acres (d : Dev) : (keysGenerate d).acres = d.acres := by
  obtain ⟨_, _, _, h⟩ := keysGenerate_shape d; rw [h]; rfl
@[simp] theorem keysGenerate_fab (d : Dev) : (keysGenerate d).fab = d.fab := by
  obtain ⟨_, _, _, h⟩ := keysGenerate_shape d; rw [h]; rfl
@[simp] theorem keysGenerate_orch (d : Dev) : (keysGenerate d).orch = d.orch := by
  obtain ⟨_, _, _, h⟩ := keysGenerate_shape d; rw [h]; rfl
@[simp] theorem keysGenerate_asc (d : Dev) : (keysGenerate d).asc = d.asc := by
  obtain ⟨_, _, _, h⟩ := keysGenerate_shape d; rw [h]; rfl
@[simp] theorem keysGenerate_har (d : Dev) : (keysGenerate d).har = d.har := by
  obtain ⟨_, _, _, h⟩ := keysGenerate_shape d; rw [h]; rfl
@[simp] theorem keysGenerate_deep (d : Dev) : (keysGenerate d).deep = d.deep := by
  obtain ⟨_, _, _, h⟩ := keysGenerate_shape d; rw [h]; rfl
@[simp] theorem keysGenerate_que (d : Dev) : (keysGenerate d).que = d.que := by
  obtain ⟨_, _, _, h⟩ := keysGenerate_shape d; rw [h]; rfl
@[simp] theorem keysGenerate_drl (d : Dev) : (keysGenerate d).drl = d.drl := by
  obtain ⟨_, _, _, h⟩ := keysGenerate_shape d; rw [h]; rfl
@[simp] theorem keysGenerate_strip (d : Dev) : (keysGenerate d).strip = d.strip := by
  obtain ⟨_, _, _, h⟩ := keysGenerate_shape d; rw [h]; rfl
@[simp] theorem keysGenerate_pair (d : Dev) : (keysGenerate d).pair = d.pair := by
  obtain ⟨_, _, _, h⟩ := keysGenerate_shape d; rw [h]; rfl
@[simp] theorem keysGenerate_rst (d : Dev) : (keysGenerate d).rst = d.rst := by
  obtain ⟨_, _, _, h⟩ := keysGenerate_shape d; rw [h]; rfl
@[simp] theorem keysGenerate_perf (d : Dev) : (keysGenerate d).perf = d.perf := by
  obtain ⟨_, _, _, h⟩ := keysGenerate_shape d; rw [h]; rfl
@[simp] theorem keysGenerate_pfcDirty (d : Dev) : (keysGenerate d).pfcDirty = d.pfcDirty := by
  obtain ⟨_, _, _, h⟩ := keysGenerate_shape d; rw [h]; rfl

end Sys2Proof.Machine
end

