-- ==== Sys2Proof/Laws/Units.lean ====
section
/-!
SUPPORT. One lemma for each field of the device and each update of one queue, table or count of a unit: what the update leaves alone.
-/
namespace Sys2Proof.Machine

@[simp] theorem setInQ_time (d : Dev) (n rank : Nat) (l : List Pkt) : (setInQ d n rank l).time = d.time := rfl
@[simp] theorem setInQ_free (d : Dev) (n rank : Nat) (l : List Pkt) : (setInQ d n rank l).free = d.free := rfl
@[simp] theorem setInQ_fuses (d : Dev) (n rank : Nat) (l : List Pkt) : (setInQ d n rank l).fuses = d.fuses := rfl
@[simp] theorem setInQ_regs (d : Dev) (n rank : Nat) (l : List Pkt) : (setInQ d n rank l).regs = d.regs := rfl
@[simp] theorem setInQ_voteErr (d : Dev) (n rank : Nat) (l : List Pkt) : (setInQ d n rank l).voteErr = d.voteErr := rfl
@[simp] theorem setInQ_upset (d : Dev) (n rank : Nat) (l : List Pkt) : (setInQ d n rank l).upset = d.upset := rfl
@[simp] theorem setInQ_writes (d : Dev) (n rank : Nat) (l : List Pkt) : (setInQ d n rank l).writes = d.writes := rfl
@[simp] theorem setInQ_flt (d : Dev) (n rank : Nat) (l : List Pkt) : (setInQ d n rank l).flt = d.flt := rfl
@[simp] theorem setInQ_host (d : Dev) (n rank : Nat) (l : List Pkt) : (setInQ d n rank l).host = d.host := rfl
@[simp] theorem setInQ_prog (d : Dev) (n rank : Nat) (l : List Pkt) : (setInQ d n rank l).prog = d.prog := rfl
@[simp] theorem setInQ_furs (d : Dev) (n rank : Nat) (l : List Pkt) : (setInQ d n rank l).furs = d.furs := rfl
@[simp] theorem setInQ_acres (d : Dev) (n rank : Nat) (l : List Pkt) : (setInQ d n rank l).acres = d.acres := rfl
@[simp] theorem setInQ_fab (d : Dev) (n rank : Nat) (l : List Pkt) : (setInQ d n rank l).fab = d.fab := rfl
@[simp] theorem setInQ_orch (d : Dev) (n rank : Nat) (l : List Pkt) : (setInQ d n rank l).orch = d.orch := rfl
@[simp] theorem setInQ_asc (d : Dev) (n rank : Nat) (l : List Pkt) : (setInQ d n rank l).asc = d.asc := rfl
@[simp] theorem setInQ_deep (d : Dev) (n rank : Nat) (l : List Pkt) : (setInQ d n rank l).deep = d.deep := rfl
@[simp] theorem setInQ_que (d : Dev) (n rank : Nat) (l : List Pkt) : (setInQ d n rank l).que = d.que := rfl
@[simp] theorem setInQ_drl (d : Dev) (n rank : Nat) (l : List Pkt) : (setInQ d n rank l).drl = d.drl := rfl
@[simp] theorem setInQ_rind (d : Dev) (n rank : Nat) (l : List Pkt) : (setInQ d n rank l).rind = d.rind := rfl
@[simp] theorem setInQ_strip (d : Dev) (n rank : Nat) (l : List Pkt) : (setInQ d n rank l).strip = d.strip := rfl
@[simp] theorem setInQ_pair (d : Dev) (n rank : Nat) (l : List Pkt) : (setInQ d n rank l).pair = d.pair := rfl
@[simp] theorem setInQ_rst (d : Dev) (n rank : Nat) (l : List Pkt) : (setInQ d n rank l).rst = d.rst := rfl
@[simp] theorem setInQ_perf (d : Dev) (n rank : Nat) (l : List Pkt) : (setInQ d n rank l).perf = d.perf := rfl
@[simp] theorem setInQ_pfcDirty (d : Dev) (n rank : Nat) (l : List Pkt) : (setInQ d n rank l).pfcDirty = d.pfcDirty := rfl

@[simp] theorem setHeldQ_time (d : Dev) (n : Nat) (l : List (Pkt × Nat)) : (setHeldQ d n l).time = d.time := rfl
@[simp] theorem setHeldQ_free (d : Dev) (n : Nat) (l : List (Pkt × Nat)) : (setHeldQ d n l).free = d.free := rfl
@[simp] theorem setHeldQ_fuses (d : Dev) (n : Nat) (l : List (Pkt × Nat)) : (setHeldQ d n l).fuses = d.fuses := rfl
@[simp] theorem setHeldQ_regs (d : Dev) (n : Nat) (l : List (Pkt × Nat)) : (setHeldQ d n l).regs = d.regs := rfl
@[simp] theorem setHeldQ_voteErr (d : Dev) (n : Nat) (l : List (Pkt × Nat)) : (setHeldQ d n l).voteErr = d.voteErr := rfl
@[simp] theorem setHeldQ_upset (d : Dev) (n : Nat) (l : List (Pkt × Nat)) : (setHeldQ d n l).upset = d.upset := rfl
@[simp] theorem setHeldQ_writes (d : Dev) (n : Nat) (l : List (Pkt × Nat)) : (setHeldQ d n l).writes = d.writes := rfl
@[simp] theorem setHeldQ_flt (d : Dev) (n : Nat) (l : List (Pkt × Nat)) : (setHeldQ d n l).flt = d.flt := rfl
@[simp] theorem setHeldQ_host (d : Dev) (n : Nat) (l : List (Pkt × Nat)) : (setHeldQ d n l).host = d.host := rfl
@[simp] theorem setHeldQ_prog (d : Dev) (n : Nat) (l : List (Pkt × Nat)) : (setHeldQ d n l).prog = d.prog := rfl
@[simp] theorem setHeldQ_furs (d : Dev) (n : Nat) (l : List (Pkt × Nat)) : (setHeldQ d n l).furs = d.furs := rfl
@[simp] theorem setHeldQ_acres (d : Dev) (n : Nat) (l : List (Pkt × Nat)) : (setHeldQ d n l).acres = d.acres := rfl
@[simp] theorem setHeldQ_fab (d : Dev) (n : Nat) (l : List (Pkt × Nat)) : (setHeldQ d n l).fab = d.fab := rfl
@[simp] theorem setHeldQ_orch (d : Dev) (n : Nat) (l : List (Pkt × Nat)) : (setHeldQ d n l).orch = d.orch := rfl
@[simp] theorem setHeldQ_asc (d : Dev) (n : Nat) (l : List (Pkt × Nat)) : (setHeldQ d n l).asc = d.asc := rfl
@[simp] theorem setHeldQ_deep (d : Dev) (n : Nat) (l : List (Pkt × Nat)) : (setHeldQ d n l).deep = d.deep := rfl
@[simp] theorem setHeldQ_que (d : Dev) (n : Nat) (l : List (Pkt × Nat)) : (setHeldQ d n l).que = d.que := rfl
@[simp] theorem setHeldQ_drl (d : Dev) (n : Nat) (l : List (Pkt × Nat)) : (setHeldQ d n l).drl = d.drl := rfl
@[simp] theorem setHeldQ_rind (d : Dev) (n : Nat) (l : List (Pkt × Nat)) : (setHeldQ d n l).rind = d.rind := rfl
@[simp] theorem setHeldQ_strip (d : Dev) (n : Nat) (l : List (Pkt × Nat)) : (setHeldQ d n l).strip = d.strip := rfl
@[simp] theorem setHeldQ_pair (d : Dev) (n : Nat) (l : List (Pkt × Nat)) : (setHeldQ d n l).pair = d.pair := rfl
@[simp] theorem setHeldQ_rst (d : Dev) (n : Nat) (l : List (Pkt × Nat)) : (setHeldQ d n l).rst = d.rst := rfl
@[simp] theorem setHeldQ_perf (d : Dev) (n : Nat) (l : List (Pkt × Nat)) : (setHeldQ d n l).perf = d.perf := rfl
@[simp] theorem setHeldQ_pfcDirty (d : Dev) (n : Nat) (l : List (Pkt × Nat)) : (setHeldQ d n l).pfcDirty = d.pfcDirty := rfl

@[simp] theorem setBackQ_time (d : Dev) (n : Nat) (l : List (Nat × Nat × Nat)) : (setBackQ d n l).time = d.time := rfl
@[simp] theorem setBackQ_free (d : Dev) (n : Nat) (l : List (Nat × Nat × Nat)) : (setBackQ d n l).free = d.free := rfl
@[simp] theorem setBackQ_fuses (d : Dev) (n : Nat) (l : List (Nat × Nat × Nat)) : (setBackQ d n l).fuses = d.fuses := rfl
@[simp] theorem setBackQ_regs (d : Dev) (n : Nat) (l : List (Nat × Nat × Nat)) : (setBackQ d n l).regs = d.regs := rfl
@[simp] theorem setBackQ_voteErr (d : Dev) (n : Nat) (l : List (Nat × Nat × Nat)) : (setBackQ d n l).voteErr = d.voteErr := rfl
@[simp] theorem setBackQ_upset (d : Dev) (n : Nat) (l : List (Nat × Nat × Nat)) : (setBackQ d n l).upset = d.upset := rfl
@[simp] theorem setBackQ_writes (d : Dev) (n : Nat) (l : List (Nat × Nat × Nat)) : (setBackQ d n l).writes = d.writes := rfl
@[simp] theorem setBackQ_flt (d : Dev) (n : Nat) (l : List (Nat × Nat × Nat)) : (setBackQ d n l).flt = d.flt := rfl
@[simp] theorem setBackQ_host (d : Dev) (n : Nat) (l : List (Nat × Nat × Nat)) : (setBackQ d n l).host = d.host := rfl
@[simp] theorem setBackQ_prog (d : Dev) (n : Nat) (l : List (Nat × Nat × Nat)) : (setBackQ d n l).prog = d.prog := rfl
@[simp] theorem setBackQ_furs (d : Dev) (n : Nat) (l : List (Nat × Nat × Nat)) : (setBackQ d n l).furs = d.furs := rfl
@[simp] theorem setBackQ_acres (d : Dev) (n : Nat) (l : List (Nat × Nat × Nat)) : (setBackQ d n l).acres = d.acres := rfl
@[simp] theorem setBackQ_fab (d : Dev) (n : Nat) (l : List (Nat × Nat × Nat)) : (setBackQ d n l).fab = d.fab := rfl
@[simp] theorem setBackQ_orch (d : Dev) (n : Nat) (l : List (Nat × Nat × Nat)) : (setBackQ d n l).orch = d.orch := rfl
@[simp] theorem setBackQ_asc (d : Dev) (n : Nat) (l : List (Nat × Nat × Nat)) : (setBackQ d n l).asc = d.asc := rfl
@[simp] theorem setBackQ_deep (d : Dev) (n : Nat) (l : List (Nat × Nat × Nat)) : (setBackQ d n l).deep = d.deep := rfl
@[simp] theorem setBackQ_que (d : Dev) (n : Nat) (l : List (Nat × Nat × Nat)) : (setBackQ d n l).que = d.que := rfl
@[simp] theorem setBackQ_drl (d : Dev) (n : Nat) (l : List (Nat × Nat × Nat)) : (setBackQ d n l).drl = d.drl := rfl
@[simp] theorem setBackQ_rind (d : Dev) (n : Nat) (l : List (Nat × Nat × Nat)) : (setBackQ d n l).rind = d.rind := rfl
@[simp] theorem setBackQ_strip (d : Dev) (n : Nat) (l : List (Nat × Nat × Nat)) : (setBackQ d n l).strip = d.strip := rfl
@[simp] theorem setBackQ_pair (d : Dev) (n : Nat) (l : List (Nat × Nat × Nat)) : (setBackQ d n l).pair = d.pair := rfl
@[simp] theorem setBackQ_rst (d : Dev) (n : Nat) (l : List (Nat × Nat × Nat)) : (setBackQ d n l).rst = d.rst := rfl
@[simp] theorem setBackQ_perf (d : Dev) (n : Nat) (l : List (Nat × Nat × Nat)) : (setBackQ d n l).perf = d.perf := rfl
@[simp] theorem setBackQ_pfcDirty (d : Dev) (n : Nat) (l : List (Nat × Nat × Nat)) : (setBackQ d n l).pfcDirty = d.pfcDirty := rfl

@[simp] theorem setCycle_time (d : Dev) (n k : Nat) (frag : Bool) : (setCycle d n k frag).time = d.time := rfl
@[simp] theorem setCycle_free (d : Dev) (n k : Nat) (frag : Bool) : (setCycle d n k frag).free = d.free := rfl
@[simp] theorem setCycle_fuses (d : Dev) (n k : Nat) (frag : Bool) : (setCycle d n k frag).fuses = d.fuses := rfl
@[simp] theorem setCycle_regs (d : Dev) (n k : Nat) (frag : Bool) : (setCycle d n k frag).regs = d.regs := rfl
@[simp] theorem setCycle_voteErr (d : Dev) (n k : Nat) (frag : Bool) : (setCycle d n k frag).voteErr = d.voteErr := rfl
@[simp] theorem setCycle_upset (d : Dev) (n k : Nat) (frag : Bool) : (setCycle d n k frag).upset = d.upset := rfl
@[simp] theorem setCycle_writes (d : Dev) (n k : Nat) (frag : Bool) : (setCycle d n k frag).writes = d.writes := rfl
@[simp] theorem setCycle_flt (d : Dev) (n k : Nat) (frag : Bool) : (setCycle d n k frag).flt = d.flt := rfl
@[simp] theorem setCycle_host (d : Dev) (n k : Nat) (frag : Bool) : (setCycle d n k frag).host = d.host := rfl
@[simp] theorem setCycle_prog (d : Dev) (n k : Nat) (frag : Bool) : (setCycle d n k frag).prog = d.prog := rfl
@[simp] theorem setCycle_furs (d : Dev) (n k : Nat) (frag : Bool) : (setCycle d n k frag).furs = d.furs := rfl
@[simp] theorem setCycle_acres (d : Dev) (n k : Nat) (frag : Bool) : (setCycle d n k frag).acres = d.acres := rfl
@[simp] theorem setCycle_fab (d : Dev) (n k : Nat) (frag : Bool) : (setCycle d n k frag).fab = d.fab := rfl
@[simp] theorem setCycle_orch (d : Dev) (n k : Nat) (frag : Bool) : (setCycle d n k frag).orch = d.orch := rfl
@[simp] theorem setCycle_asc (d : Dev) (n k : Nat) (frag : Bool) : (setCycle d n k frag).asc = d.asc := rfl
@[simp] theorem setCycle_deep (d : Dev) (n k : Nat) (frag : Bool) : (setCycle d n k frag).deep = d.deep := rfl
@[simp] theorem setCycle_que (d : Dev) (n k : Nat) (frag : Bool) : (setCycle d n k frag).que = d.que := rfl
@[simp] theorem setCycle_drl (d : Dev) (n k : Nat) (frag : Bool) : (setCycle d n k frag).drl = d.drl := rfl
@[simp] theorem setCycle_rind (d : Dev) (n k : Nat) (frag : Bool) : (setCycle d n k frag).rind = d.rind := rfl
@[simp] theorem setCycle_strip (d : Dev) (n k : Nat) (frag : Bool) : (setCycle d n k frag).strip = d.strip := rfl
@[simp] theorem setCycle_pair (d : Dev) (n k : Nat) (frag : Bool) : (setCycle d n k frag).pair = d.pair := rfl
@[simp] theorem setCycle_rst (d : Dev) (n k : Nat) (frag : Bool) : (setCycle d n k frag).rst = d.rst := rfl
@[simp] theorem setCycle_perf (d : Dev) (n k : Nat) (frag : Bool) : (setCycle d n k frag).perf = d.perf := rfl
@[simp] theorem setCycle_pfcDirty (d : Dev) (n k : Nat) (frag : Bool) : (setCycle d n k frag).pfcDirty = d.pfcDirty := rfl

@[simp] theorem setTokens_time (d : Dev) (k n : Nat) : (setTokens d k n).time = d.time := rfl
@[simp] theorem setTokens_free (d : Dev) (k n : Nat) : (setTokens d k n).free = d.free := rfl
@[simp] theorem setTokens_fuses (d : Dev) (k n : Nat) : (setTokens d k n).fuses = d.fuses := rfl
@[simp] theorem setTokens_regs (d : Dev) (k n : Nat) : (setTokens d k n).regs = d.regs := rfl
@[simp] theorem setTokens_voteErr (d : Dev) (k n : Nat) : (setTokens d k n).voteErr = d.voteErr := rfl
@[simp] theorem setTokens_upset (d : Dev) (k n : Nat) : (setTokens d k n).upset = d.upset := rfl
@[simp] theorem setTokens_writes (d : Dev) (k n : Nat) : (setTokens d k n).writes = d.writes := rfl
@[simp] theorem setTokens_flt (d : Dev) (k n : Nat) : (setTokens d k n).flt = d.flt := rfl
@[simp] theorem setTokens_host (d : Dev) (k n : Nat) : (setTokens d k n).host = d.host := rfl
@[simp] theorem setTokens_prog (d : Dev) (k n : Nat) : (setTokens d k n).prog = d.prog := rfl
@[simp] theorem setTokens_furs (d : Dev) (k n : Nat) : (setTokens d k n).furs = d.furs := rfl
@[simp] theorem setTokens_acres (d : Dev) (k n : Nat) : (setTokens d k n).acres = d.acres := rfl
@[simp] theorem setTokens_fab (d : Dev) (k n : Nat) : (setTokens d k n).fab = d.fab := rfl
@[simp] theorem setTokens_orch (d : Dev) (k n : Nat) : (setTokens d k n).orch = d.orch := rfl
@[simp] theorem setTokens_asc (d : Dev) (k n : Nat) : (setTokens d k n).asc = d.asc := rfl
@[simp] theorem setTokens_deep (d : Dev) (k n : Nat) : (setTokens d k n).deep = d.deep := rfl
@[simp] theorem setTokens_que (d : Dev) (k n : Nat) : (setTokens d k n).que = d.que := rfl
@[simp] theorem setTokens_drl (d : Dev) (k n : Nat) : (setTokens d k n).drl = d.drl := rfl
@[simp] theorem setTokens_rind (d : Dev) (k n : Nat) : (setTokens d k n).rind = d.rind := rfl
@[simp] theorem setTokens_strip (d : Dev) (k n : Nat) : (setTokens d k n).strip = d.strip := rfl
@[simp] theorem setTokens_pair (d : Dev) (k n : Nat) : (setTokens d k n).pair = d.pair := rfl
@[simp] theorem setTokens_rst (d : Dev) (k n : Nat) : (setTokens d k n).rst = d.rst := rfl
@[simp] theorem setTokens_perf (d : Dev) (k n : Nat) : (setTokens d k n).perf = d.perf := rfl
@[simp] theorem setTokens_pfcDirty (d : Dev) (k n : Nat) : (setTokens d k n).pfcDirty = d.pfcDirty := rfl

@[simp] theorem setRepair_time (d : Dev) (a i v : Nat) : (setRepair d a i v).time = d.time := rfl
@[simp] theorem setRepair_free (d : Dev) (a i v : Nat) : (setRepair d a i v).free = d.free := rfl
@[simp] theorem setRepair_fuses (d : Dev) (a i v : Nat) : (setRepair d a i v).fuses = d.fuses := rfl
@[simp] theorem setRepair_regs (d : Dev) (a i v : Nat) : (setRepair d a i v).regs = d.regs := rfl
@[simp] theorem setRepair_voteErr (d : Dev) (a i v : Nat) : (setRepair d a i v).voteErr = d.voteErr := rfl
@[simp] theorem setRepair_upset (d : Dev) (a i v : Nat) : (setRepair d a i v).upset = d.upset := rfl
@[simp] theorem setRepair_writes (d : Dev) (a i v : Nat) : (setRepair d a i v).writes = d.writes := rfl
@[simp] theorem setRepair_flt (d : Dev) (a i v : Nat) : (setRepair d a i v).flt = d.flt := rfl
@[simp] theorem setRepair_host (d : Dev) (a i v : Nat) : (setRepair d a i v).host = d.host := rfl
@[simp] theorem setRepair_prog (d : Dev) (a i v : Nat) : (setRepair d a i v).prog = d.prog := rfl
@[simp] theorem setRepair_furs (d : Dev) (a i v : Nat) : (setRepair d a i v).furs = d.furs := rfl
@[simp] theorem setRepair_acres (d : Dev) (a i v : Nat) : (setRepair d a i v).acres = d.acres := rfl
@[simp] theorem setRepair_fab (d : Dev) (a i v : Nat) : (setRepair d a i v).fab = d.fab := rfl
@[simp] theorem setRepair_orch (d : Dev) (a i v : Nat) : (setRepair d a i v).orch = d.orch := rfl
@[simp] theorem setRepair_har (d : Dev) (a i v : Nat) : (setRepair d a i v).har = d.har := rfl
@[simp] theorem setRepair_deep (d : Dev) (a i v : Nat) : (setRepair d a i v).deep = d.deep := rfl
@[simp] theorem setRepair_que (d : Dev) (a i v : Nat) : (setRepair d a i v).que = d.que := rfl
@[simp] theorem setRepair_drl (d : Dev) (a i v : Nat) : (setRepair d a i v).drl = d.drl := rfl
@[simp] theorem setRepair_rind (d : Dev) (a i v : Nat) : (setRepair d a i v).rind = d.rind := rfl
@[simp] theorem setRepair_strip (d : Dev) (a i v : Nat) : (setRepair d a i v).strip = d.strip := rfl
@[simp] theorem setRepair_pair (d : Dev) (a i v : Nat) : (setRepair d a i v).pair = d.pair := rfl
@[simp] theorem setRepair_rst (d : Dev) (a i v : Nat) : (setRepair d a i v).rst = d.rst := rfl
@[simp] theorem setRepair_perf (d : Dev) (a i v : Nat) : (setRepair d a i v).perf = d.perf := rfl
@[simp] theorem setRepair_pfcDirty (d : Dev) (a i v : Nat) : (setRepair d a i v).pfcDirty = d.pfcDirty := rfl

@[simp] theorem setStaging_time (d : Dev) (s n : Nat) : (setStaging d s n).time = d.time := rfl
@[simp] theorem setStaging_free (d : Dev) (s n : Nat) : (setStaging d s n).free = d.free := rfl
@[simp] theorem setStaging_fuses (d : Dev) (s n : Nat) : (setStaging d s n).fuses = d.fuses := rfl
@[simp] theorem setStaging_regs (d : Dev) (s n : Nat) : (setStaging d s n).regs = d.regs := rfl
@[simp] theorem setStaging_voteErr (d : Dev) (s n : Nat) : (setStaging d s n).voteErr = d.voteErr := rfl
@[simp] theorem setStaging_upset (d : Dev) (s n : Nat) : (setStaging d s n).upset = d.upset := rfl
@[simp] theorem setStaging_writes (d : Dev) (s n : Nat) : (setStaging d s n).writes = d.writes := rfl
@[simp] theorem setStaging_flt (d : Dev) (s n : Nat) : (setStaging d s n).flt = d.flt := rfl
@[simp] theorem setStaging_host (d : Dev) (s n : Nat) : (setStaging d s n).host = d.host := rfl
@[simp] theorem setStaging_prog (d : Dev) (s n : Nat) : (setStaging d s n).prog = d.prog := rfl
@[simp] theorem setStaging_furs (d : Dev) (s n : Nat) : (setStaging d s n).furs = d.furs := rfl
@[simp] theorem setStaging_acres (d : Dev) (s n : Nat) : (setStaging d s n).acres = d.acres := rfl
@[simp] theorem setStaging_orch (d : Dev) (s n : Nat) : (setStaging d s n).orch = d.orch := rfl
@[simp] theorem setStaging_asc (d : Dev) (s n : Nat) : (setStaging d s n).asc = d.asc := rfl
@[simp] theorem setStaging_har (d : Dev) (s n : Nat) : (setStaging d s n).har = d.har := rfl
@[simp] theorem setStaging_deep (d : Dev) (s n : Nat) : (setStaging d s n).deep = d.deep := rfl
@[simp] theorem setStaging_que (d : Dev) (s n : Nat) : (setStaging d s n).que = d.que := rfl
@[simp] theorem setStaging_drl (d : Dev) (s n : Nat) : (setStaging d s n).drl = d.drl := rfl
@[simp] theorem setStaging_rind (d : Dev) (s n : Nat) : (setStaging d s n).rind = d.rind := rfl
@[simp] theorem setStaging_strip (d : Dev) (s n : Nat) : (setStaging d s n).strip = d.strip := rfl
@[simp] theorem setStaging_pair (d : Dev) (s n : Nat) : (setStaging d s n).pair = d.pair := rfl
@[simp] theorem setStaging_rst (d : Dev) (s n : Nat) : (setStaging d s n).rst = d.rst := rfl
@[simp] theorem setStaging_perf (d : Dev) (s n : Nat) : (setStaging d s n).perf = d.perf := rfl
@[simp] theorem setStaging_pfcDirty (d : Dev) (s n : Nat) : (setStaging d s n).pfcDirty = d.pfcDirty := rfl

@[simp] theorem setLookaside_time (d : Dev) (a n : Nat) : (setLookaside d a n).time = d.time := rfl
@[simp] theorem setLookaside_free (d : Dev) (a n : Nat) : (setLookaside d a n).free = d.free := rfl
@[simp] theorem setLookaside_fuses (d : Dev) (a n : Nat) : (setLookaside d a n).fuses = d.fuses := rfl
@[simp] theorem setLookaside_regs (d : Dev) (a n : Nat) : (setLookaside d a n).regs = d.regs := rfl
@[simp] theorem setLookaside_voteErr (d : Dev) (a n : Nat) : (setLookaside d a n).voteErr = d.voteErr := rfl
@[simp] theorem setLookaside_upset (d : Dev) (a n : Nat) : (setLookaside d a n).upset = d.upset := rfl
@[simp] theorem setLookaside_writes (d : Dev) (a n : Nat) : (setLookaside d a n).writes = d.writes := rfl
@[simp] theorem setLookaside_flt (d : Dev) (a n : Nat) : (setLookaside d a n).flt = d.flt := rfl
@[simp] theorem setLookaside_host (d : Dev) (a n : Nat) : (setLookaside d a n).host = d.host := rfl
@[simp] theorem setLookaside_prog (d : Dev) (a n : Nat) : (setLookaside d a n).prog = d.prog := rfl
@[simp] theorem setLookaside_furs (d : Dev) (a n : Nat) : (setLookaside d a n).furs = d.furs := rfl
@[simp] theorem setLookaside_acres (d : Dev) (a n : Nat) : (setLookaside d a n).acres = d.acres := rfl
@[simp] theorem setLookaside_fab (d : Dev) (a n : Nat) : (setLookaside d a n).fab = d.fab := rfl
@[simp] theorem setLookaside_orch (d : Dev) (a n : Nat) : (setLookaside d a n).orch = d.orch := rfl
@[simp] theorem setLookaside_asc (d : Dev) (a n : Nat) : (setLookaside d a n).asc = d.asc := rfl
@[simp] theorem setLookaside_har (d : Dev) (a n : Nat) : (setLookaside d a n).har = d.har := rfl
@[simp] theorem setLookaside_deep (d : Dev) (a n : Nat) : (setLookaside d a n).deep = d.deep := rfl
@[simp] theorem setLookaside_que (d : Dev) (a n : Nat) : (setLookaside d a n).que = d.que := rfl
@[simp] theorem setLookaside_drl (d : Dev) (a n : Nat) : (setLookaside d a n).drl = d.drl := rfl
@[simp] theorem setLookaside_strip (d : Dev) (a n : Nat) : (setLookaside d a n).strip = d.strip := rfl
@[simp] theorem setLookaside_pair (d : Dev) (a n : Nat) : (setLookaside d a n).pair = d.pair := rfl
@[simp] theorem setLookaside_rst (d : Dev) (a n : Nat) : (setLookaside d a n).rst = d.rst := rfl
@[simp] theorem setLookaside_perf (d : Dev) (a n : Nat) : (setLookaside d a n).perf = d.perf := rfl
@[simp] theorem setLookaside_pfcDirty (d : Dev) (a n : Nat) : (setLookaside d a n).pfcDirty = d.pfcDirty := rfl

@[simp] theorem setStRef_time (d : Dev) (k n : Nat) : (setStRef d k n).time = d.time := rfl
@[simp] theorem setStRef_free (d : Dev) (k n : Nat) : (setStRef d k n).free = d.free := rfl
@[simp] theorem setStRef_fuses (d : Dev) (k n : Nat) : (setStRef d k n).fuses = d.fuses := rfl
@[simp] theorem setStRef_regs (d : Dev) (k n : Nat) : (setStRef d k n).regs = d.regs := rfl
@[simp] theorem setStRef_voteErr (d : Dev) (k n : Nat) : (setStRef d k n).voteErr = d.voteErr := rfl
@[simp] theorem setStRef_upset (d : Dev) (k n : Nat) : (setStRef d k n).upset = d.upset := rfl
@[simp] theorem setStRef_writes (d : Dev) (k n : Nat) : (setStRef d k n).writes = d.writes := rfl
@[simp] theorem setStRef_flt (d : Dev) (k n : Nat) : (setStRef d k n).flt = d.flt := rfl
@[simp] theorem setStRef_host (d : Dev) (k n : Nat) : (setStRef d k n).host = d.host := rfl
@[simp] theorem setStRef_prog (d : Dev) (k n : Nat) : (setStRef d k n).prog = d.prog := rfl
@[simp] theorem setStRef_furs (d : Dev) (k n : Nat) : (setStRef d k n).furs = d.furs := rfl
@[simp] theorem setStRef_acres (d : Dev) (k n : Nat) : (setStRef d k n).acres = d.acres := rfl
@[simp] theorem setStRef_orch (d : Dev) (k n : Nat) : (setStRef d k n).orch = d.orch := rfl
@[simp] theorem setStRef_asc (d : Dev) (k n : Nat) : (setStRef d k n).asc = d.asc := rfl
@[simp] theorem setStRef_har (d : Dev) (k n : Nat) : (setStRef d k n).har = d.har := rfl
@[simp] theorem setStRef_deep (d : Dev) (k n : Nat) : (setStRef d k n).deep = d.deep := rfl
@[simp] theorem setStRef_que (d : Dev) (k n : Nat) : (setStRef d k n).que = d.que := rfl
@[simp] theorem setStRef_drl (d : Dev) (k n : Nat) : (setStRef d k n).drl = d.drl := rfl
@[simp] theorem setStRef_rind (d : Dev) (k n : Nat) : (setStRef d k n).rind = d.rind := rfl
@[simp] theorem setStRef_strip (d : Dev) (k n : Nat) : (setStRef d k n).strip = d.strip := rfl
@[simp] theorem setStRef_pair (d : Dev) (k n : Nat) : (setStRef d k n).pair = d.pair := rfl
@[simp] theorem setStRef_rst (d : Dev) (k n : Nat) : (setStRef d k n).rst = d.rst := rfl
@[simp] theorem setStRef_perf (d : Dev) (k n : Nat) : (setStRef d k n).perf = d.perf := rfl
@[simp] theorem setStRef_pfcDirty (d : Dev) (k n : Nat) : (setStRef d k n).pfcDirty = d.pfcDirty := rfl

@[simp] theorem setAlloc_time (d : Dev) (m c v : Nat) : (setAlloc d m c v).time = d.time := rfl
@[simp] theorem setAlloc_free (d : Dev) (m c v : Nat) : (setAlloc d m c v).free = d.free := rfl
@[simp] theorem setAlloc_fuses (d : Dev) (m c v : Nat) : (setAlloc d m c v).fuses = d.fuses := rfl
@[simp] theorem setAlloc_regs (d : Dev) (m c v : Nat) : (setAlloc d m c v).regs = d.regs := rfl
@[simp] theorem setAlloc_voteErr (d : Dev) (m c v : Nat) : (setAlloc d m c v).voteErr = d.voteErr := rfl
@[simp] theorem setAlloc_upset (d : Dev) (m c v : Nat) : (setAlloc d m c v).upset = d.upset := rfl
@[simp] theorem setAlloc_writes (d : Dev) (m c v : Nat) : (setAlloc d m c v).writes = d.writes := rfl
@[simp] theorem setAlloc_flt (d : Dev) (m c v : Nat) : (setAlloc d m c v).flt = d.flt := rfl
@[simp] theorem setAlloc_host (d : Dev) (m c v : Nat) : (setAlloc d m c v).host = d.host := rfl
@[simp] theorem setAlloc_prog (d : Dev) (m c v : Nat) : (setAlloc d m c v).prog = d.prog := rfl
@[simp] theorem setAlloc_furs (d : Dev) (m c v : Nat) : (setAlloc d m c v).furs = d.furs := rfl
@[simp] theorem setAlloc_acres (d : Dev) (m c v : Nat) : (setAlloc d m c v).acres = d.acres := rfl
@[simp] theorem setAlloc_orch (d : Dev) (m c v : Nat) : (setAlloc d m c v).orch = d.orch := rfl
@[simp] theorem setAlloc_asc (d : Dev) (m c v : Nat) : (setAlloc d m c v).asc = d.asc := rfl
@[simp] theorem setAlloc_har (d : Dev) (m c v : Nat) : (setAlloc d m c v).har = d.har := rfl
@[simp] theorem setAlloc_deep (d : Dev) (m c v : Nat) : (setAlloc d m c v).deep = d.deep := rfl
@[simp] theorem setAlloc_que (d : Dev) (m c v : Nat) : (setAlloc d m c v).que = d.que := rfl
@[simp] theorem setAlloc_drl (d : Dev) (m c v : Nat) : (setAlloc d m c v).drl = d.drl := rfl
@[simp] theorem setAlloc_rind (d : Dev) (m c v : Nat) : (setAlloc d m c v).rind = d.rind := rfl
@[simp] theorem setAlloc_strip (d : Dev) (m c v : Nat) : (setAlloc d m c v).strip = d.strip := rfl
@[simp] theorem setAlloc_pair (d : Dev) (m c v : Nat) : (setAlloc d m c v).pair = d.pair := rfl
@[simp] theorem setAlloc_rst (d : Dev) (m c v : Nat) : (setAlloc d m c v).rst = d.rst := rfl
@[simp] theorem setAlloc_perf (d : Dev) (m c v : Nat) : (setAlloc d m c v).perf = d.perf := rfl
@[simp] theorem setAlloc_pfcDirty (d : Dev) (m c v : Nat) : (setAlloc d m c v).pfcDirty = d.pfcDirty := rfl

@[simp] theorem setRef_time (d : Dev) (k n : Nat) : (setRef d k n).time = d.time := rfl
@[simp] theorem setRef_free (d : Dev) (k n : Nat) : (setRef d k n).free = d.free := rfl
@[simp] theorem setRef_fuses (d : Dev) (k n : Nat) : (setRef d k n).fuses = d.fuses := rfl
@[simp] theorem setRef_regs (d : Dev) (k n : Nat) : (setRef d k n).regs = d.regs := rfl
@[simp] theorem setRef_voteErr (d : Dev) (k n : Nat) : (setRef d k n).voteErr = d.voteErr := rfl
@[simp] theorem setRef_upset (d : Dev) (k n : Nat) : (setRef d k n).upset = d.upset := rfl
@[simp] theorem setRef_writes (d : Dev) (k n : Nat) : (setRef d k n).writes = d.writes := rfl
@[simp] theorem setRef_flt (d : Dev) (k n : Nat) : (setRef d k n).flt = d.flt := rfl
@[simp] theorem setRef_host (d : Dev) (k n : Nat) : (setRef d k n).host = d.host := rfl
@[simp] theorem setRef_prog (d : Dev) (k n : Nat) : (setRef d k n).prog = d.prog := rfl
@[simp] theorem setRef_furs (d : Dev) (k n : Nat) : (setRef d k n).furs = d.furs := rfl
@[simp] theorem setRef_acres (d : Dev) (k n : Nat) : (setRef d k n).acres = d.acres := rfl
@[simp] theorem setRef_orch (d : Dev) (k n : Nat) : (setRef d k n).orch = d.orch := rfl
@[simp] theorem setRef_asc (d : Dev) (k n : Nat) : (setRef d k n).asc = d.asc := rfl
@[simp] theorem setRef_har (d : Dev) (k n : Nat) : (setRef d k n).har = d.har := rfl
@[simp] theorem setRef_deep (d : Dev) (k n : Nat) : (setRef d k n).deep = d.deep := rfl
@[simp] theorem setRef_que (d : Dev) (k n : Nat) : (setRef d k n).que = d.que := rfl
@[simp] theorem setRef_drl (d : Dev) (k n : Nat) : (setRef d k n).drl = d.drl := rfl
@[simp] theorem setRef_rind (d : Dev) (k n : Nat) : (setRef d k n).rind = d.rind := rfl
@[simp] theorem setRef_strip (d : Dev) (k n : Nat) : (setRef d k n).strip = d.strip := rfl
@[simp] theorem setRef_pair (d : Dev) (k n : Nat) : (setRef d k n).pair = d.pair := rfl
@[simp] theorem setRef_rst (d : Dev) (k n : Nat) : (setRef d k n).rst = d.rst := rfl
@[simp] theorem setRef_perf (d : Dev) (k n : Nat) : (setRef d k n).perf = d.perf := rfl
@[simp] theorem setRef_pfcDirty (d : Dev) (k n : Nat) : (setRef d k n).pfcDirty = d.pfcDirty := rfl

@[simp] theorem setPpRef_time (d : Dev) (k n : Nat) : (setPpRef d k n).time = d.time := rfl
@[simp] theorem setPpRef_free (d : Dev) (k n : Nat) : (setPpRef d k n).free = d.free := rfl
@[simp] theorem setPpRef_fuses (d : Dev) (k n : Nat) : (setPpRef d k n).fuses = d.fuses := rfl
@[simp] theorem setPpRef_regs (d : Dev) (k n : Nat) : (setPpRef d k n).regs = d.regs := rfl
@[simp] theorem setPpRef_voteErr (d : Dev) (k n : Nat) : (setPpRef d k n).voteErr = d.voteErr := rfl
@[simp] theorem setPpRef_upset (d : Dev) (k n : Nat) : (setPpRef d k n).upset = d.upset := rfl
@[simp] theorem setPpRef_writes (d : Dev) (k n : Nat) : (setPpRef d k n).writes = d.writes := rfl
@[simp] theorem setPpRef_flt (d : Dev) (k n : Nat) : (setPpRef d k n).flt = d.flt := rfl
@[simp] theorem setPpRef_host (d : Dev) (k n : Nat) : (setPpRef d k n).host = d.host := rfl
@[simp] theorem setPpRef_prog (d : Dev) (k n : Nat) : (setPpRef d k n).prog = d.prog := rfl
@[simp] theorem setPpRef_furs (d : Dev) (k n : Nat) : (setPpRef d k n).furs = d.furs := rfl
@[simp] theorem setPpRef_acres (d : Dev) (k n : Nat) : (setPpRef d k n).acres = d.acres := rfl
@[simp] theorem setPpRef_orch (d : Dev) (k n : Nat) : (setPpRef d k n).orch = d.orch := rfl
@[simp] theorem setPpRef_asc (d : Dev) (k n : Nat) : (setPpRef d k n).asc = d.asc := rfl
@[simp] theorem setPpRef_har (d : Dev) (k n : Nat) : (setPpRef d k n).har = d.har := rfl
@[simp] theorem setPpRef_deep (d : Dev) (k n : Nat) : (setPpRef d k n).deep = d.deep := rfl
@[simp] theorem setPpRef_que (d : Dev) (k n : Nat) : (setPpRef d k n).que = d.que := rfl
@[simp] theorem setPpRef_drl (d : Dev) (k n : Nat) : (setPpRef d k n).drl = d.drl := rfl
@[simp] theorem setPpRef_rind (d : Dev) (k n : Nat) : (setPpRef d k n).rind = d.rind := rfl
@[simp] theorem setPpRef_strip (d : Dev) (k n : Nat) : (setPpRef d k n).strip = d.strip := rfl
@[simp] theorem setPpRef_pair (d : Dev) (k n : Nat) : (setPpRef d k n).pair = d.pair := rfl
@[simp] theorem setPpRef_rst (d : Dev) (k n : Nat) : (setPpRef d k n).rst = d.rst := rfl
@[simp] theorem setPpRef_perf (d : Dev) (k n : Nat) : (setPpRef d k n).perf = d.perf := rfl
@[simp] theorem setPpRef_pfcDirty (d : Dev) (k n : Nat) : (setPpRef d k n).pfcDirty = d.pfcDirty := rfl

@[simp] theorem setDepth_time (d : Dev) (q n : Nat) : (setDepth d q n).time = d.time := rfl
@[simp] theorem setDepth_free (d : Dev) (q n : Nat) : (setDepth d q n).free = d.free := rfl
@[simp] theorem setDepth_fuses (d : Dev) (q n : Nat) : (setDepth d q n).fuses = d.fuses := rfl
@[simp] theorem setDepth_regs (d : Dev) (q n : Nat) : (setDepth d q n).regs = d.regs := rfl
@[simp] theorem setDepth_voteErr (d : Dev) (q n : Nat) : (setDepth d q n).voteErr = d.voteErr := rfl
@[simp] theorem setDepth_upset (d : Dev) (q n : Nat) : (setDepth d q n).upset = d.upset := rfl
@[simp] theorem setDepth_writes (d : Dev) (q n : Nat) : (setDepth d q n).writes = d.writes := rfl
@[simp] theorem setDepth_flt (d : Dev) (q n : Nat) : (setDepth d q n).flt = d.flt := rfl
@[simp] theorem setDepth_host (d : Dev) (q n : Nat) : (setDepth d q n).host = d.host := rfl
@[simp] theorem setDepth_prog (d : Dev) (q n : Nat) : (setDepth d q n).prog = d.prog := rfl
@[simp] theorem setDepth_furs (d : Dev) (q n : Nat) : (setDepth d q n).furs = d.furs := rfl
@[simp] theorem setDepth_acres (d : Dev) (q n : Nat) : (setDepth d q n).acres = d.acres := rfl
@[simp] theorem setDepth_fab (d : Dev) (q n : Nat) : (setDepth d q n).fab = d.fab := rfl
@[simp] theorem setDepth_orch (d : Dev) (q n : Nat) : (setDepth d q n).orch = d.orch := rfl
@[simp] theorem setDepth_asc (d : Dev) (q n : Nat) : (setDepth d q n).asc = d.asc := rfl
@[simp] theorem setDepth_har (d : Dev) (q n : Nat) : (setDepth d q n).har = d.har := rfl
@[simp] theorem setDepth_deep (d : Dev) (q n : Nat) : (setDepth d q n).deep = d.deep := rfl
@[simp] theorem setDepth_drl (d : Dev) (q n : Nat) : (setDepth d q n).drl = d.drl := rfl
@[simp] theorem setDepth_rind (d : Dev) (q n : Nat) : (setDepth d q n).rind = d.rind := rfl
@[simp] theorem setDepth_strip (d : Dev) (q n : Nat) : (setDepth d q n).strip = d.strip := rfl
@[simp] theorem setDepth_pair (d : Dev) (q n : Nat) : (setDepth d q n).pair = d.pair := rfl
@[simp] theorem setDepth_rst (d : Dev) (q n : Nat) : (setDepth d q n).rst = d.rst := rfl
@[simp] theorem setDepth_perf (d : Dev) (q n : Nat) : (setDepth d q n).perf = d.perf := rfl
@[simp] theorem setDepth_pfcDirty (d : Dev) (q n : Nat) : (setDepth d q n).pfcDirty = d.pfcDirty := rfl

@[simp] theorem setInflight_time (d : Dev) (ref m n : Nat) : (setInflight d ref m n).time = d.time := rfl
@[simp] theorem setInflight_free (d : Dev) (ref m n : Nat) : (setInflight d ref m n).free = d.free := rfl
@[simp] theorem setInflight_fuses (d : Dev) (ref m n : Nat) : (setInflight d ref m n).fuses = d.fuses := rfl
@[simp] theorem setInflight_regs (d : Dev) (ref m n : Nat) : (setInflight d ref m n).regs = d.regs := rfl
@[simp] theorem setInflight_voteErr (d : Dev) (ref m n : Nat) : (setInflight d ref m n).voteErr = d.voteErr := rfl
@[simp] theorem setInflight_upset (d : Dev) (ref m n : Nat) : (setInflight d ref m n).upset = d.upset := rfl
@[simp] theorem setInflight_writes (d : Dev) (ref m n : Nat) : (setInflight d ref m n).writes = d.writes := rfl
@[simp] theorem setInflight_flt (d : Dev) (ref m n : Nat) : (setInflight d ref m n).flt = d.flt := rfl
@[simp] theorem setInflight_host (d : Dev) (ref m n : Nat) : (setInflight d ref m n).host = d.host := rfl
@[simp] theorem setInflight_prog (d : Dev) (ref m n : Nat) : (setInflight d ref m n).prog = d.prog := rfl
@[simp] theorem setInflight_furs (d : Dev) (ref m n : Nat) : (setInflight d ref m n).furs = d.furs := rfl
@[simp] theorem setInflight_acres (d : Dev) (ref m n : Nat) : (setInflight d ref m n).acres = d.acres := rfl
@[simp] theorem setInflight_orch (d : Dev) (ref m n : Nat) : (setInflight d ref m n).orch = d.orch := rfl
@[simp] theorem setInflight_asc (d : Dev) (ref m n : Nat) : (setInflight d ref m n).asc = d.asc := rfl
@[simp] theorem setInflight_har (d : Dev) (ref m n : Nat) : (setInflight d ref m n).har = d.har := rfl
@[simp] theorem setInflight_deep (d : Dev) (ref m n : Nat) : (setInflight d ref m n).deep = d.deep := rfl
@[simp] theorem setInflight_que (d : Dev) (ref m n : Nat) : (setInflight d ref m n).que = d.que := rfl
@[simp] theorem setInflight_drl (d : Dev) (ref m n : Nat) : (setInflight d ref m n).drl = d.drl := rfl
@[simp] theorem setInflight_rind (d : Dev) (ref m n : Nat) : (setInflight d ref m n).rind = d.rind := rfl
@[simp] theorem setInflight_strip (d : Dev) (ref m n : Nat) : (setInflight d ref m n).strip = d.strip := rfl
@[simp] theorem setInflight_pair (d : Dev) (ref m n : Nat) : (setInflight d ref m n).pair = d.pair := rfl
@[simp] theorem setInflight_rst (d : Dev) (ref m n : Nat) : (setInflight d ref m n).rst = d.rst := rfl
@[simp] theorem setInflight_perf (d : Dev) (ref m n : Nat) : (setInflight d ref m n).perf = d.perf := rfl
@[simp] theorem setInflight_pfcDirty (d : Dev) (ref m n : Nat) : (setInflight d ref m n).pfcDirty = d.pfcDirty := rfl

@[simp] theorem setPageCache_time (d : Dev) (m : Nat) (l : List Nat) : (setPageCache d m l).time = d.time := rfl
@[simp] theorem setPageCache_free (d : Dev) (m : Nat) (l : List Nat) : (setPageCache d m l).free = d.free := rfl
@[simp] theorem setPageCache_fuses (d : Dev) (m : Nat) (l : List Nat) : (setPageCache d m l).fuses = d.fuses := rfl
@[simp] theorem setPageCache_regs (d : Dev) (m : Nat) (l : List Nat) : (setPageCache d m l).regs = d.regs := rfl
@[simp] theorem setPageCache_voteErr (d : Dev) (m : Nat) (l : List Nat) : (setPageCache d m l).voteErr = d.voteErr := rfl
@[simp] theorem setPageCache_upset (d : Dev) (m : Nat) (l : List Nat) : (setPageCache d m l).upset = d.upset := rfl
@[simp] theorem setPageCache_writes (d : Dev) (m : Nat) (l : List Nat) : (setPageCache d m l).writes = d.writes := rfl
@[simp] theorem setPageCache_flt (d : Dev) (m : Nat) (l : List Nat) : (setPageCache d m l).flt = d.flt := rfl
@[simp] theorem setPageCache_host (d : Dev) (m : Nat) (l : List Nat) : (setPageCache d m l).host = d.host := rfl
@[simp] theorem setPageCache_prog (d : Dev) (m : Nat) (l : List Nat) : (setPageCache d m l).prog = d.prog := rfl
@[simp] theorem setPageCache_furs (d : Dev) (m : Nat) (l : List Nat) : (setPageCache d m l).furs = d.furs := rfl
@[simp] theorem setPageCache_acres (d : Dev) (m : Nat) (l : List Nat) : (setPageCache d m l).acres = d.acres := rfl
@[simp] theorem setPageCache_fab (d : Dev) (m : Nat) (l : List Nat) : (setPageCache d m l).fab = d.fab := rfl
@[simp] theorem setPageCache_orch (d : Dev) (m : Nat) (l : List Nat) : (setPageCache d m l).orch = d.orch := rfl
@[simp] theorem setPageCache_asc (d : Dev) (m : Nat) (l : List Nat) : (setPageCache d m l).asc = d.asc := rfl
@[simp] theorem setPageCache_har (d : Dev) (m : Nat) (l : List Nat) : (setPageCache d m l).har = d.har := rfl
@[simp] theorem setPageCache_deep (d : Dev) (m : Nat) (l : List Nat) : (setPageCache d m l).deep = d.deep := rfl
@[simp] theorem setPageCache_drl (d : Dev) (m : Nat) (l : List Nat) : (setPageCache d m l).drl = d.drl := rfl
@[simp] theorem setPageCache_rind (d : Dev) (m : Nat) (l : List Nat) : (setPageCache d m l).rind = d.rind := rfl
@[simp] theorem setPageCache_strip (d : Dev) (m : Nat) (l : List Nat) : (setPageCache d m l).strip = d.strip := rfl
@[simp] theorem setPageCache_pair (d : Dev) (m : Nat) (l : List Nat) : (setPageCache d m l).pair = d.pair := rfl
@[simp] theorem setPageCache_rst (d : Dev) (m : Nat) (l : List Nat) : (setPageCache d m l).rst = d.rst := rfl
@[simp] theorem setPageCache_perf (d : Dev) (m : Nat) (l : List Nat) : (setPageCache d m l).perf = d.perf := rfl
@[simp] theorem setPageCache_pfcDirty (d : Dev) (m : Nat) (l : List Nat) : (setPageCache d m l).pfcDirty = d.pfcDirty := rfl

@[simp] theorem setPageAlloc_time (d : Dev) (p v : Nat) : (setPageAlloc d p v).time = d.time := rfl
@[simp] theorem setPageAlloc_free (d : Dev) (p v : Nat) : (setPageAlloc d p v).free = d.free := rfl
@[simp] theorem setPageAlloc_fuses (d : Dev) (p v : Nat) : (setPageAlloc d p v).fuses = d.fuses := rfl
@[simp] theorem setPageAlloc_regs (d : Dev) (p v : Nat) : (setPageAlloc d p v).regs = d.regs := rfl
@[simp] theorem setPageAlloc_voteErr (d : Dev) (p v : Nat) : (setPageAlloc d p v).voteErr = d.voteErr := rfl
@[simp] theorem setPageAlloc_upset (d : Dev) (p v : Nat) : (setPageAlloc d p v).upset = d.upset := rfl
@[simp] theorem setPageAlloc_writes (d : Dev) (p v : Nat) : (setPageAlloc d p v).writes = d.writes := rfl
@[simp] theorem setPageAlloc_flt (d : Dev) (p v : Nat) : (setPageAlloc d p v).flt = d.flt := rfl
@[simp] theorem setPageAlloc_host (d : Dev) (p v : Nat) : (setPageAlloc d p v).host = d.host := rfl
@[simp] theorem setPageAlloc_prog (d : Dev) (p v : Nat) : (setPageAlloc d p v).prog = d.prog := rfl
@[simp] theorem setPageAlloc_furs (d : Dev) (p v : Nat) : (setPageAlloc d p v).furs = d.furs := rfl
@[simp] theorem setPageAlloc_acres (d : Dev) (p v : Nat) : (setPageAlloc d p v).acres = d.acres := rfl
@[simp] theorem setPageAlloc_fab (d : Dev) (p v : Nat) : (setPageAlloc d p v).fab = d.fab := rfl
@[simp] theorem setPageAlloc_orch (d : Dev) (p v : Nat) : (setPageAlloc d p v).orch = d.orch := rfl
@[simp] theorem setPageAlloc_asc (d : Dev) (p v : Nat) : (setPageAlloc d p v).asc = d.asc := rfl
@[simp] theorem setPageAlloc_har (d : Dev) (p v : Nat) : (setPageAlloc d p v).har = d.har := rfl
@[simp] theorem setPageAlloc_deep (d : Dev) (p v : Nat) : (setPageAlloc d p v).deep = d.deep := rfl
@[simp] theorem setPageAlloc_drl (d : Dev) (p v : Nat) : (setPageAlloc d p v).drl = d.drl := rfl
@[simp] theorem setPageAlloc_rind (d : Dev) (p v : Nat) : (setPageAlloc d p v).rind = d.rind := rfl
@[simp] theorem setPageAlloc_strip (d : Dev) (p v : Nat) : (setPageAlloc d p v).strip = d.strip := rfl
@[simp] theorem setPageAlloc_pair (d : Dev) (p v : Nat) : (setPageAlloc d p v).pair = d.pair := rfl
@[simp] theorem setPageAlloc_rst (d : Dev) (p v : Nat) : (setPageAlloc d p v).rst = d.rst := rfl
@[simp] theorem setPageAlloc_perf (d : Dev) (p v : Nat) : (setPageAlloc d p v).perf = d.perf := rfl
@[simp] theorem setPageAlloc_pfcDirty (d : Dev) (p v : Nat) : (setPageAlloc d p v).pfcDirty = d.pfcDirty := rfl

@[simp] theorem setVoqDone_time (d : Dev) (a m n : Nat) : (setVoqDone d a m n).time = d.time := rfl
@[simp] theorem setVoqDone_free (d : Dev) (a m n : Nat) : (setVoqDone d a m n).free = d.free := rfl
@[simp] theorem setVoqDone_fuses (d : Dev) (a m n : Nat) : (setVoqDone d a m n).fuses = d.fuses := rfl
@[simp] theorem setVoqDone_regs (d : Dev) (a m n : Nat) : (setVoqDone d a m n).regs = d.regs := rfl
@[simp] theorem setVoqDone_voteErr (d : Dev) (a m n : Nat) : (setVoqDone d a m n).voteErr = d.voteErr := rfl
@[simp] theorem setVoqDone_upset (d : Dev) (a m n : Nat) : (setVoqDone d a m n).upset = d.upset := rfl
@[simp] theorem setVoqDone_writes (d : Dev) (a m n : Nat) : (setVoqDone d a m n).writes = d.writes := rfl
@[simp] theorem setVoqDone_flt (d : Dev) (a m n : Nat) : (setVoqDone d a m n).flt = d.flt := rfl
@[simp] theorem setVoqDone_host (d : Dev) (a m n : Nat) : (setVoqDone d a m n).host = d.host := rfl
@[simp] theorem setVoqDone_prog (d : Dev) (a m n : Nat) : (setVoqDone d a m n).prog = d.prog := rfl
@[simp] theorem setVoqDone_furs (d : Dev) (a m n : Nat) : (setVoqDone d a m n).furs = d.furs := rfl
@[simp] theorem setVoqDone_acres (d : Dev) (a m n : Nat) : (setVoqDone d a m n).acres = d.acres := rfl
@[simp] theorem setVoqDone_orch (d : Dev) (a m n : Nat) : (setVoqDone d a m n).orch = d.orch := rfl
@[simp] theorem setVoqDone_asc (d : Dev) (a m n : Nat) : (setVoqDone d a m n).asc = d.asc := rfl
@[simp] theorem setVoqDone_har (d : Dev) (a m n : Nat) : (setVoqDone d a m n).har = d.har := rfl
@[simp] theorem setVoqDone_deep (d : Dev) (a m n : Nat) : (setVoqDone d a m n).deep = d.deep := rfl
@[simp] theorem setVoqDone_que (d : Dev) (a m n : Nat) : (setVoqDone d a m n).que = d.que := rfl
@[simp] theorem setVoqDone_drl (d : Dev) (a m n : Nat) : (setVoqDone d a m n).drl = d.drl := rfl
@[simp] theorem setVoqDone_rind (d : Dev) (a m n : Nat) : (setVoqDone d a m n).rind = d.rind := rfl
@[simp] theorem setVoqDone_strip (d : Dev) (a m n : Nat) : (setVoqDone d a m n).strip = d.strip := rfl
@[simp] theorem setVoqDone_pair (d : Dev) (a m n : Nat) : (setVoqDone d a m n).pair = d.pair := rfl
@[simp] theorem setVoqDone_rst (d : Dev) (a m n : Nat) : (setVoqDone d a m n).rst = d.rst := rfl
@[simp] theorem setVoqDone_perf (d : Dev) (a m n : Nat) : (setVoqDone d a m n).perf = d.perf := rfl
@[simp] theorem setVoqDone_pfcDirty (d : Dev) (a m n : Nat) : (setVoqDone d a m n).pfcDirty = d.pfcDirty := rfl

@[simp] theorem setWbuf1_time (d : Dev) (m : Nat) (l : List (Nat × Nat)) : (setWbuf1 d m l).time = d.time := rfl
@[simp] theorem setWbuf1_free (d : Dev) (m : Nat) (l : List (Nat × Nat)) : (setWbuf1 d m l).free = d.free := rfl
@[simp] theorem setWbuf1_fuses (d : Dev) (m : Nat) (l : List (Nat × Nat)) : (setWbuf1 d m l).fuses = d.fuses := rfl
@[simp] theorem setWbuf1_regs (d : Dev) (m : Nat) (l : List (Nat × Nat)) : (setWbuf1 d m l).regs = d.regs := rfl
@[simp] theorem setWbuf1_voteErr (d : Dev) (m : Nat) (l : List (Nat × Nat)) : (setWbuf1 d m l).voteErr = d.voteErr := rfl
@[simp] theorem setWbuf1_upset (d : Dev) (m : Nat) (l : List (Nat × Nat)) : (setWbuf1 d m l).upset = d.upset := rfl
@[simp] theorem setWbuf1_writes (d : Dev) (m : Nat) (l : List (Nat × Nat)) : (setWbuf1 d m l).writes = d.writes := rfl
@[simp] theorem setWbuf1_flt (d : Dev) (m : Nat) (l : List (Nat × Nat)) : (setWbuf1 d m l).flt = d.flt := rfl
@[simp] theorem setWbuf1_host (d : Dev) (m : Nat) (l : List (Nat × Nat)) : (setWbuf1 d m l).host = d.host := rfl
@[simp] theorem setWbuf1_prog (d : Dev) (m : Nat) (l : List (Nat × Nat)) : (setWbuf1 d m l).prog = d.prog := rfl
@[simp] theorem setWbuf1_furs (d : Dev) (m : Nat) (l : List (Nat × Nat)) : (setWbuf1 d m l).furs = d.furs := rfl
@[simp] theorem setWbuf1_acres (d : Dev) (m : Nat) (l : List (Nat × Nat)) : (setWbuf1 d m l).acres = d.acres := rfl
@[simp] theorem setWbuf1_orch (d : Dev) (m : Nat) (l : List (Nat × Nat)) : (setWbuf1 d m l).orch = d.orch := rfl
@[simp] theorem setWbuf1_asc (d : Dev) (m : Nat) (l : List (Nat × Nat)) : (setWbuf1 d m l).asc = d.asc := rfl
@[simp] theorem setWbuf1_har (d : Dev) (m : Nat) (l : List (Nat × Nat)) : (setWbuf1 d m l).har = d.har := rfl
@[simp] theorem setWbuf1_deep (d : Dev) (m : Nat) (l : List (Nat × Nat)) : (setWbuf1 d m l).deep = d.deep := rfl
@[simp] theorem setWbuf1_que (d : Dev) (m : Nat) (l : List (Nat × Nat)) : (setWbuf1 d m l).que = d.que := rfl
@[simp] theorem setWbuf1_drl (d : Dev) (m : Nat) (l : List (Nat × Nat)) : (setWbuf1 d m l).drl = d.drl := rfl
@[simp] theorem setWbuf1_rind (d : Dev) (m : Nat) (l : List (Nat × Nat)) : (setWbuf1 d m l).rind = d.rind := rfl
@[simp] theorem setWbuf1_strip (d : Dev) (m : Nat) (l : List (Nat × Nat)) : (setWbuf1 d m l).strip = d.strip := rfl
@[simp] theorem setWbuf1_pair (d : Dev) (m : Nat) (l : List (Nat × Nat)) : (setWbuf1 d m l).pair = d.pair := rfl
@[simp] theorem setWbuf1_rst (d : Dev) (m : Nat) (l : List (Nat × Nat)) : (setWbuf1 d m l).rst = d.rst := rfl
@[simp] theorem setWbuf1_perf (d : Dev) (m : Nat) (l : List (Nat × Nat)) : (setWbuf1 d m l).perf = d.perf := rfl
@[simp] theorem setWbuf1_pfcDirty (d : Dev) (m : Nat) (l : List (Nat × Nat)) : (setWbuf1 d m l).pfcDirty = d.pfcDirty := rfl

@[simp] theorem setWbuf2_time (d : Dev) (e : Nat) (l : List Nat) : (setWbuf2 d e l).time = d.time := rfl
@[simp] theorem setWbuf2_free (d : Dev) (e : Nat) (l : List Nat) : (setWbuf2 d e l).free = d.free := rfl
@[simp] theorem setWbuf2_fuses (d : Dev) (e : Nat) (l : List Nat) : (setWbuf2 d e l).fuses = d.fuses := rfl
@[simp] theorem setWbuf2_regs (d : Dev) (e : Nat) (l : List Nat) : (setWbuf2 d e l).regs = d.regs := rfl
@[simp] theorem setWbuf2_voteErr (d : Dev) (e : Nat) (l : List Nat) : (setWbuf2 d e l).voteErr = d.voteErr := rfl
@[simp] theorem setWbuf2_upset (d : Dev) (e : Nat) (l : List Nat) : (setWbuf2 d e l).upset = d.upset := rfl
@[simp] theorem setWbuf2_writes (d : Dev) (e : Nat) (l : List Nat) : (setWbuf2 d e l).writes = d.writes := rfl
@[simp] theorem setWbuf2_flt (d : Dev) (e : Nat) (l : List Nat) : (setWbuf2 d e l).flt = d.flt := rfl
@[simp] theorem setWbuf2_host (d : Dev) (e : Nat) (l : List Nat) : (setWbuf2 d e l).host = d.host := rfl
@[simp] theorem setWbuf2_prog (d : Dev) (e : Nat) (l : List Nat) : (setWbuf2 d e l).prog = d.prog := rfl
@[simp] theorem setWbuf2_furs (d : Dev) (e : Nat) (l : List Nat) : (setWbuf2 d e l).furs = d.furs := rfl
@[simp] theorem setWbuf2_acres (d : Dev) (e : Nat) (l : List Nat) : (setWbuf2 d e l).acres = d.acres := rfl
@[simp] theorem setWbuf2_orch (d : Dev) (e : Nat) (l : List Nat) : (setWbuf2 d e l).orch = d.orch := rfl
@[simp] theorem setWbuf2_asc (d : Dev) (e : Nat) (l : List Nat) : (setWbuf2 d e l).asc = d.asc := rfl
@[simp] theorem setWbuf2_har (d : Dev) (e : Nat) (l : List Nat) : (setWbuf2 d e l).har = d.har := rfl
@[simp] theorem setWbuf2_deep (d : Dev) (e : Nat) (l : List Nat) : (setWbuf2 d e l).deep = d.deep := rfl
@[simp] theorem setWbuf2_que (d : Dev) (e : Nat) (l : List Nat) : (setWbuf2 d e l).que = d.que := rfl
@[simp] theorem setWbuf2_drl (d : Dev) (e : Nat) (l : List Nat) : (setWbuf2 d e l).drl = d.drl := rfl
@[simp] theorem setWbuf2_rind (d : Dev) (e : Nat) (l : List Nat) : (setWbuf2 d e l).rind = d.rind := rfl
@[simp] theorem setWbuf2_strip (d : Dev) (e : Nat) (l : List Nat) : (setWbuf2 d e l).strip = d.strip := rfl
@[simp] theorem setWbuf2_pair (d : Dev) (e : Nat) (l : List Nat) : (setWbuf2 d e l).pair = d.pair := rfl
@[simp] theorem setWbuf2_rst (d : Dev) (e : Nat) (l : List Nat) : (setWbuf2 d e l).rst = d.rst := rfl
@[simp] theorem setWbuf2_perf (d : Dev) (e : Nat) (l : List Nat) : (setWbuf2 d e l).perf = d.perf := rfl
@[simp] theorem setWbuf2_pfcDirty (d : Dev) (e : Nat) (l : List Nat) : (setWbuf2 d e l).pfcDirty = d.pfcDirty := rfl

@[simp] theorem putEgq_time (d : Dev) (m e : Nat) (l : List (Pkt × Nat)) : (putEgq d m e l).time = d.time := rfl
@[simp] theorem putEgq_free (d : Dev) (m e : Nat) (l : List (Pkt × Nat)) : (putEgq d m e l).free = d.free := rfl
@[simp] theorem putEgq_fuses (d : Dev) (m e : Nat) (l : List (Pkt × Nat)) : (putEgq d m e l).fuses = d.fuses := rfl
@[simp] theorem putEgq_regs (d : Dev) (m e : Nat) (l : List (Pkt × Nat)) : (putEgq d m e l).regs = d.regs := rfl
@[simp] theorem putEgq_voteErr (d : Dev) (m e : Nat) (l : List (Pkt × Nat)) : (putEgq d m e l).voteErr = d.voteErr := rfl
@[simp] theorem putEgq_upset (d : Dev) (m e : Nat) (l : List (Pkt × Nat)) : (putEgq d m e l).upset = d.upset := rfl
@[simp] theorem putEgq_writes (d : Dev) (m e : Nat) (l : List (Pkt × Nat)) : (putEgq d m e l).writes = d.writes := rfl
@[simp] theorem putEgq_flt (d : Dev) (m e : Nat) (l : List (Pkt × Nat)) : (putEgq d m e l).flt = d.flt := rfl
@[simp] theorem putEgq_host (d : Dev) (m e : Nat) (l : List (Pkt × Nat)) : (putEgq d m e l).host = d.host := rfl
@[simp] theorem putEgq_prog (d : Dev) (m e : Nat) (l : List (Pkt × Nat)) : (putEgq d m e l).prog = d.prog := rfl
@[simp] theorem putEgq_furs (d : Dev) (m e : Nat) (l : List (Pkt × Nat)) : (putEgq d m e l).furs = d.furs := rfl
@[simp] theorem putEgq_acres (d : Dev) (m e : Nat) (l : List (Pkt × Nat)) : (putEgq d m e l).acres = d.acres := rfl
@[simp] theorem putEgq_orch (d : Dev) (m e : Nat) (l : List (Pkt × Nat)) : (putEgq d m e l).orch = d.orch := rfl
@[simp] theorem putEgq_asc (d : Dev) (m e : Nat) (l : List (Pkt × Nat)) : (putEgq d m e l).asc = d.asc := rfl
@[simp] theorem putEgq_har (d : Dev) (m e : Nat) (l : List (Pkt × Nat)) : (putEgq d m e l).har = d.har := rfl
@[simp] theorem putEgq_deep (d : Dev) (m e : Nat) (l : List (Pkt × Nat)) : (putEgq d m e l).deep = d.deep := rfl
@[simp] theorem putEgq_que (d : Dev) (m e : Nat) (l : List (Pkt × Nat)) : (putEgq d m e l).que = d.que := rfl
@[simp] theorem putEgq_drl (d : Dev) (m e : Nat) (l : List (Pkt × Nat)) : (putEgq d m e l).drl = d.drl := rfl
@[simp] theorem putEgq_rind (d : Dev) (m e : Nat) (l : List (Pkt × Nat)) : (putEgq d m e l).rind = d.rind := rfl
@[simp] theorem putEgq_strip (d : Dev) (m e : Nat) (l : List (Pkt × Nat)) : (putEgq d m e l).strip = d.strip := rfl
@[simp] theorem putEgq_pair (d : Dev) (m e : Nat) (l : List (Pkt × Nat)) : (putEgq d m e l).pair = d.pair := rfl
@[simp] theorem putEgq_rst (d : Dev) (m e : Nat) (l : List (Pkt × Nat)) : (putEgq d m e l).rst = d.rst := rfl
@[simp] theorem putEgq_perf (d : Dev) (m e : Nat) (l : List (Pkt × Nat)) : (putEgq d m e l).perf = d.perf := rfl
@[simp] theorem putEgq_pfcDirty (d : Dev) (m e : Nat) (l : List (Pkt × Nat)) : (putEgq d m e l).pfcDirty = d.pfcDirty := rfl

@[simp] theorem setEgqDone_time (d : Dev) (m e n : Nat) : (setEgqDone d m e n).time = d.time := rfl
@[simp] theorem setEgqDone_free (d : Dev) (m e n : Nat) : (setEgqDone d m e n).free = d.free := rfl
@[simp] theorem setEgqDone_fuses (d : Dev) (m e n : Nat) : (setEgqDone d m e n).fuses = d.fuses := rfl
@[simp] theorem setEgqDone_regs (d : Dev) (m e n : Nat) : (setEgqDone d m e n).regs = d.regs := rfl
@[simp] theorem setEgqDone_voteErr (d : Dev) (m e n : Nat) : (setEgqDone d m e n).voteErr = d.voteErr := rfl
@[simp] theorem setEgqDone_upset (d : Dev) (m e n : Nat) : (setEgqDone d m e n).upset = d.upset := rfl
@[simp] theorem setEgqDone_writes (d : Dev) (m e n : Nat) : (setEgqDone d m e n).writes = d.writes := rfl
@[simp] theorem setEgqDone_flt (d : Dev) (m e n : Nat) : (setEgqDone d m e n).flt = d.flt := rfl
@[simp] theorem setEgqDone_host (d : Dev) (m e n : Nat) : (setEgqDone d m e n).host = d.host := rfl
@[simp] theorem setEgqDone_prog (d : Dev) (m e n : Nat) : (setEgqDone d m e n).prog = d.prog := rfl
@[simp] theorem setEgqDone_furs (d : Dev) (m e n : Nat) : (setEgqDone d m e n).furs = d.furs := rfl
@[simp] theorem setEgqDone_acres (d : Dev) (m e n : Nat) : (setEgqDone d m e n).acres = d.acres := rfl
@[simp] theorem setEgqDone_orch (d : Dev) (m e n : Nat) : (setEgqDone d m e n).orch = d.orch := rfl
@[simp] theorem setEgqDone_asc (d : Dev) (m e n : Nat) : (setEgqDone d m e n).asc = d.asc := rfl
@[simp] theorem setEgqDone_har (d : Dev) (m e n : Nat) : (setEgqDone d m e n).har = d.har := rfl
@[simp] theorem setEgqDone_deep (d : Dev) (m e n : Nat) : (setEgqDone d m e n).deep = d.deep := rfl
@[simp] theorem setEgqDone_que (d : Dev) (m e n : Nat) : (setEgqDone d m e n).que = d.que := rfl
@[simp] theorem setEgqDone_drl (d : Dev) (m e n : Nat) : (setEgqDone d m e n).drl = d.drl := rfl
@[simp] theorem setEgqDone_rind (d : Dev) (m e n : Nat) : (setEgqDone d m e n).rind = d.rind := rfl
@[simp] theorem setEgqDone_strip (d : Dev) (m e n : Nat) : (setEgqDone d m e n).strip = d.strip := rfl
@[simp] theorem setEgqDone_pair (d : Dev) (m e n : Nat) : (setEgqDone d m e n).pair = d.pair := rfl
@[simp] theorem setEgqDone_rst (d : Dev) (m e n : Nat) : (setEgqDone d m e n).rst = d.rst := rfl
@[simp] theorem setEgqDone_perf (d : Dev) (m e n : Nat) : (setEgqDone d m e n).perf = d.perf := rfl
@[simp] theorem setEgqDone_pfcDirty (d : Dev) (m e n : Nat) : (setEgqDone d m e n).pfcDirty = d.pfcDirty := rfl

@[simp] theorem putEditQ_time (d : Dev) (e : Nat) (l : List (Pkt × Nat)) : (putEditQ d e l).time = d.time := rfl
@[simp] theorem putEditQ_free (d : Dev) (e : Nat) (l : List (Pkt × Nat)) : (putEditQ d e l).free = d.free := rfl
@[simp] theorem putEditQ_fuses (d : Dev) (e : Nat) (l : List (Pkt × Nat)) : (putEditQ d e l).fuses = d.fuses := rfl
@[simp] theorem putEditQ_regs (d : Dev) (e : Nat) (l : List (Pkt × Nat)) : (putEditQ d e l).regs = d.regs := rfl
@[simp] theorem putEditQ_voteErr (d : Dev) (e : Nat) (l : List (Pkt × Nat)) : (putEditQ d e l).voteErr = d.voteErr := rfl
@[simp] theorem putEditQ_upset (d : Dev) (e : Nat) (l : List (Pkt × Nat)) : (putEditQ d e l).upset = d.upset := rfl
@[simp] theorem putEditQ_writes (d : Dev) (e : Nat) (l : List (Pkt × Nat)) : (putEditQ d e l).writes = d.writes := rfl
@[simp] theorem putEditQ_flt (d : Dev) (e : Nat) (l : List (Pkt × Nat)) : (putEditQ d e l).flt = d.flt := rfl
@[simp] theorem putEditQ_host (d : Dev) (e : Nat) (l : List (Pkt × Nat)) : (putEditQ d e l).host = d.host := rfl
@[simp] theorem putEditQ_prog (d : Dev) (e : Nat) (l : List (Pkt × Nat)) : (putEditQ d e l).prog = d.prog := rfl
@[simp] theorem putEditQ_furs (d : Dev) (e : Nat) (l : List (Pkt × Nat)) : (putEditQ d e l).furs = d.furs := rfl
@[simp] theorem putEditQ_acres (d : Dev) (e : Nat) (l : List (Pkt × Nat)) : (putEditQ d e l).acres = d.acres := rfl
@[simp] theorem putEditQ_orch (d : Dev) (e : Nat) (l : List (Pkt × Nat)) : (putEditQ d e l).orch = d.orch := rfl
@[simp] theorem putEditQ_asc (d : Dev) (e : Nat) (l : List (Pkt × Nat)) : (putEditQ d e l).asc = d.asc := rfl
@[simp] theorem putEditQ_har (d : Dev) (e : Nat) (l : List (Pkt × Nat)) : (putEditQ d e l).har = d.har := rfl
@[simp] theorem putEditQ_deep (d : Dev) (e : Nat) (l : List (Pkt × Nat)) : (putEditQ d e l).deep = d.deep := rfl
@[simp] theorem putEditQ_que (d : Dev) (e : Nat) (l : List (Pkt × Nat)) : (putEditQ d e l).que = d.que := rfl
@[simp] theorem putEditQ_drl (d : Dev) (e : Nat) (l : List (Pkt × Nat)) : (putEditQ d e l).drl = d.drl := rfl
@[simp] theorem putEditQ_rind (d : Dev) (e : Nat) (l : List (Pkt × Nat)) : (putEditQ d e l).rind = d.rind := rfl
@[simp] theorem putEditQ_strip (d : Dev) (e : Nat) (l : List (Pkt × Nat)) : (putEditQ d e l).strip = d.strip := rfl
@[simp] theorem putEditQ_pair (d : Dev) (e : Nat) (l : List (Pkt × Nat)) : (putEditQ d e l).pair = d.pair := rfl
@[simp] theorem putEditQ_rst (d : Dev) (e : Nat) (l : List (Pkt × Nat)) : (putEditQ d e l).rst = d.rst := rfl
@[simp] theorem putEditQ_perf (d : Dev) (e : Nat) (l : List (Pkt × Nat)) : (putEditQ d e l).perf = d.perf := rfl
@[simp] theorem putEditQ_pfcDirty (d : Dev) (e : Nat) (l : List (Pkt × Nat)) : (putEditQ d e l).pfcDirty = d.pfcDirty := rfl

@[simp] theorem setLaQ_time (d : Dev) (s : Nat) (l : List (Pkt × Nat)) : (setLaQ d s l).time = d.time := rfl
@[simp] theorem setLaQ_free (d : Dev) (s : Nat) (l : List (Pkt × Nat)) : (setLaQ d s l).free = d.free := rfl
@[simp] theorem setLaQ_fuses (d : Dev) (s : Nat) (l : List (Pkt × Nat)) : (setLaQ d s l).fuses = d.fuses := rfl
@[simp] theorem setLaQ_regs (d : Dev) (s : Nat) (l : List (Pkt × Nat)) : (setLaQ d s l).regs = d.regs := rfl
@[simp] theorem setLaQ_voteErr (d : Dev) (s : Nat) (l : List (Pkt × Nat)) : (setLaQ d s l).voteErr = d.voteErr := rfl
@[simp] theorem setLaQ_upset (d : Dev) (s : Nat) (l : List (Pkt × Nat)) : (setLaQ d s l).upset = d.upset := rfl
@[simp] theorem setLaQ_writes (d : Dev) (s : Nat) (l : List (Pkt × Nat)) : (setLaQ d s l).writes = d.writes := rfl
@[simp] theorem setLaQ_flt (d : Dev) (s : Nat) (l : List (Pkt × Nat)) : (setLaQ d s l).flt = d.flt := rfl
@[simp] theorem setLaQ_host (d : Dev) (s : Nat) (l : List (Pkt × Nat)) : (setLaQ d s l).host = d.host := rfl
@[simp] theorem setLaQ_prog (d : Dev) (s : Nat) (l : List (Pkt × Nat)) : (setLaQ d s l).prog = d.prog := rfl
@[simp] theorem setLaQ_furs (d : Dev) (s : Nat) (l : List (Pkt × Nat)) : (setLaQ d s l).furs = d.furs := rfl
@[simp] theorem setLaQ_acres (d : Dev) (s : Nat) (l : List (Pkt × Nat)) : (setLaQ d s l).acres = d.acres := rfl
@[simp] theorem setLaQ_fab (d : Dev) (s : Nat) (l : List (Pkt × Nat)) : (setLaQ d s l).fab = d.fab := rfl
@[simp] theorem setLaQ_orch (d : Dev) (s : Nat) (l : List (Pkt × Nat)) : (setLaQ d s l).orch = d.orch := rfl
@[simp] theorem setLaQ_asc (d : Dev) (s : Nat) (l : List (Pkt × Nat)) : (setLaQ d s l).asc = d.asc := rfl
@[simp] theorem setLaQ_har (d : Dev) (s : Nat) (l : List (Pkt × Nat)) : (setLaQ d s l).har = d.har := rfl
@[simp] theorem setLaQ_deep (d : Dev) (s : Nat) (l : List (Pkt × Nat)) : (setLaQ d s l).deep = d.deep := rfl
@[simp] theorem setLaQ_que (d : Dev) (s : Nat) (l : List (Pkt × Nat)) : (setLaQ d s l).que = d.que := rfl
@[simp] theorem setLaQ_drl (d : Dev) (s : Nat) (l : List (Pkt × Nat)) : (setLaQ d s l).drl = d.drl := rfl
@[simp] theorem setLaQ_strip (d : Dev) (s : Nat) (l : List (Pkt × Nat)) : (setLaQ d s l).strip = d.strip := rfl
@[simp] theorem setLaQ_pair (d : Dev) (s : Nat) (l : List (Pkt × Nat)) : (setLaQ d s l).pair = d.pair := rfl
@[simp] theorem setLaQ_rst (d : Dev) (s : Nat) (l : List (Pkt × Nat)) : (setLaQ d s l).rst = d.rst := rfl
@[simp] theorem setLaQ_perf (d : Dev) (s : Nat) (l : List (Pkt × Nat)) : (setLaQ d s l).perf = d.perf := rfl
@[simp] theorem setLaQ_pfcDirty (d : Dev) (s : Nat) (l : List (Pkt × Nat)) : (setLaQ d s l).pfcDirty = d.pfcDirty := rfl

@[simp] theorem setPortFree_time (d : Dev) (p t : Nat) : (setPortFree d p t).time = d.time := rfl
@[simp] theorem setPortFree_free (d : Dev) (p t : Nat) : (setPortFree d p t).free = d.free := rfl
@[simp] theorem setPortFree_fuses (d : Dev) (p t : Nat) : (setPortFree d p t).fuses = d.fuses := rfl
@[simp] theorem setPortFree_regs (d : Dev) (p t : Nat) : (setPortFree d p t).regs = d.regs := rfl
@[simp] theorem setPortFree_voteErr (d : Dev) (p t : Nat) : (setPortFree d p t).voteErr = d.voteErr := rfl
@[simp] theorem setPortFree_upset (d : Dev) (p t : Nat) : (setPortFree d p t).upset = d.upset := rfl
@[simp] theorem setPortFree_writes (d : Dev) (p t : Nat) : (setPortFree d p t).writes = d.writes := rfl
@[simp] theorem setPortFree_flt (d : Dev) (p t : Nat) : (setPortFree d p t).flt = d.flt := rfl
@[simp] theorem setPortFree_host (d : Dev) (p t : Nat) : (setPortFree d p t).host = d.host := rfl
@[simp] theorem setPortFree_prog (d : Dev) (p t : Nat) : (setPortFree d p t).prog = d.prog := rfl
@[simp] theorem setPortFree_furs (d : Dev) (p t : Nat) : (setPortFree d p t).furs = d.furs := rfl
@[simp] theorem setPortFree_acres (d : Dev) (p t : Nat) : (setPortFree d p t).acres = d.acres := rfl
@[simp] theorem setPortFree_fab (d : Dev) (p t : Nat) : (setPortFree d p t).fab = d.fab := rfl
@[simp] theorem setPortFree_orch (d : Dev) (p t : Nat) : (setPortFree d p t).orch = d.orch := rfl
@[simp] theorem setPortFree_asc (d : Dev) (p t : Nat) : (setPortFree d p t).asc = d.asc := rfl
@[simp] theorem setPortFree_har (d : Dev) (p t : Nat) : (setPortFree d p t).har = d.har := rfl
@[simp] theorem setPortFree_deep (d : Dev) (p t : Nat) : (setPortFree d p t).deep = d.deep := rfl
@[simp] theorem setPortFree_que (d : Dev) (p t : Nat) : (setPortFree d p t).que = d.que := rfl
@[simp] theorem setPortFree_rind (d : Dev) (p t : Nat) : (setPortFree d p t).rind = d.rind := rfl
@[simp] theorem setPortFree_strip (d : Dev) (p t : Nat) : (setPortFree d p t).strip = d.strip := rfl
@[simp] theorem setPortFree_pair (d : Dev) (p t : Nat) : (setPortFree d p t).pair = d.pair := rfl
@[simp] theorem setPortFree_rst (d : Dev) (p t : Nat) : (setPortFree d p t).rst = d.rst := rfl
@[simp] theorem setPortFree_perf (d : Dev) (p t : Nat) : (setPortFree d p t).perf = d.perf := rfl
@[simp] theorem setPortFree_pfcDirty (d : Dev) (p t : Nat) : (setPortFree d p t).pfcDirty = d.pfcDirty := rfl

@[simp] theorem putRow_time (d : Dev) (blk row v : Nat) : (putRow d blk row v).time = d.time := rfl
@[simp] theorem putRow_free (d : Dev) (blk row v : Nat) : (putRow d blk row v).free = d.free := rfl
@[simp] theorem putRow_fuses (d : Dev) (blk row v : Nat) : (putRow d blk row v).fuses = d.fuses := rfl
@[simp] theorem putRow_regs (d : Dev) (blk row v : Nat) : (putRow d blk row v).regs = d.regs := rfl
@[simp] theorem putRow_voteErr (d : Dev) (blk row v : Nat) : (putRow d blk row v).voteErr = d.voteErr := rfl
@[simp] theorem putRow_upset (d : Dev) (blk row v : Nat) : (putRow d blk row v).upset = d.upset := rfl
@[simp] theorem putRow_writes (d : Dev) (blk row v : Nat) : (putRow d blk row v).writes = d.writes := rfl
@[simp] theorem putRow_flt (d : Dev) (blk row v : Nat) : (putRow d blk row v).flt = d.flt := rfl
@[simp] theorem putRow_host (d : Dev) (blk row v : Nat) : (putRow d blk row v).host = d.host := rfl
@[simp] theorem putRow_prog (d : Dev) (blk row v : Nat) : (putRow d blk row v).prog = d.prog := rfl
@[simp] theorem putRow_furs (d : Dev) (blk row v : Nat) : (putRow d blk row v).furs = d.furs := rfl
@[simp] theorem putRow_acres (d : Dev) (blk row v : Nat) : (putRow d blk row v).acres = d.acres := rfl
@[simp] theorem putRow_fab (d : Dev) (blk row v : Nat) : (putRow d blk row v).fab = d.fab := rfl
@[simp] theorem putRow_asc (d : Dev) (blk row v : Nat) : (putRow d blk row v).asc = d.asc := rfl
@[simp] theorem putRow_har (d : Dev) (blk row v : Nat) : (putRow d blk row v).har = d.har := rfl
@[simp] theorem putRow_deep (d : Dev) (blk row v : Nat) : (putRow d blk row v).deep = d.deep := rfl
@[simp] theorem putRow_que (d : Dev) (blk row v : Nat) : (putRow d blk row v).que = d.que := rfl
@[simp] theorem putRow_drl (d : Dev) (blk row v : Nat) : (putRow d blk row v).drl = d.drl := rfl
@[simp] theorem putRow_rind (d : Dev) (blk row v : Nat) : (putRow d blk row v).rind = d.rind := rfl
@[simp] theorem putRow_strip (d : Dev) (blk row v : Nat) : (putRow d blk row v).strip = d.strip := rfl
@[simp] theorem putRow_pair (d : Dev) (blk row v : Nat) : (putRow d blk row v).pair = d.pair := rfl
@[simp] theorem putRow_rst (d : Dev) (blk row v : Nat) : (putRow d blk row v).rst = d.rst := rfl
@[simp] theorem putRow_perf (d : Dev) (blk row v : Nat) : (putRow d blk row v).perf = d.perf := rfl
@[simp] theorem putRow_pfcDirty (d : Dev) (blk row v : Nat) : (putRow d blk row v).pfcDirty = d.pfcDirty := rfl

@[simp] theorem putStash_time (d : Dev) (t s v : Nat) : (putStash d t s v).time = d.time := rfl
@[simp] theorem putStash_free (d : Dev) (t s v : Nat) : (putStash d t s v).free = d.free := rfl
@[simp] theorem putStash_fuses (d : Dev) (t s v : Nat) : (putStash d t s v).fuses = d.fuses := rfl
@[simp] theorem putStash_regs (d : Dev) (t s v : Nat) : (putStash d t s v).regs = d.regs := rfl
@[simp] theorem putStash_voteErr (d : Dev) (t s v : Nat) : (putStash d t s v).voteErr = d.voteErr := rfl
@[simp] theorem putStash_upset (d : Dev) (t s v : Nat) : (putStash d t s v).upset = d.upset := rfl
@[simp] theorem putStash_writes (d : Dev) (t s v : Nat) : (putStash d t s v).writes = d.writes := rfl
@[simp] theorem putStash_flt (d : Dev) (t s v : Nat) : (putStash d t s v).flt = d.flt := rfl
@[simp] theorem putStash_host (d : Dev) (t s v : Nat) : (putStash d t s v).host = d.host := rfl
@[simp] theorem putStash_prog (d : Dev) (t s v : Nat) : (putStash d t s v).prog = d.prog := rfl
@[simp] theorem putStash_furs (d : Dev) (t s v : Nat) : (putStash d t s v).furs = d.furs := rfl
@[simp] theorem putStash_acres (d : Dev) (t s v : Nat) : (putStash d t s v).acres = d.acres := rfl
@[simp] theorem putStash_fab (d : Dev) (t s v : Nat) : (putStash d t s v).fab = d.fab := rfl
@[simp] theorem putStash_asc (d : Dev) (t s v : Nat) : (putStash d t s v).asc = d.asc := rfl
@[simp] theorem putStash_har (d : Dev) (t s v : Nat) : (putStash d t s v).har = d.har := rfl
@[simp] theorem putStash_deep (d : Dev) (t s v : Nat) : (putStash d t s v).deep = d.deep := rfl
@[simp] theorem putStash_que (d : Dev) (t s v : Nat) : (putStash d t s v).que = d.que := rfl
@[simp] theorem putStash_drl (d : Dev) (t s v : Nat) : (putStash d t s v).drl = d.drl := rfl
@[simp] theorem putStash_rind (d : Dev) (t s v : Nat) : (putStash d t s v).rind = d.rind := rfl
@[simp] theorem putStash_strip (d : Dev) (t s v : Nat) : (putStash d t s v).strip = d.strip := rfl
@[simp] theorem putStash_pair (d : Dev) (t s v : Nat) : (putStash d t s v).pair = d.pair := rfl
@[simp] theorem putStash_rst (d : Dev) (t s v : Nat) : (putStash d t s v).rst = d.rst := rfl
@[simp] theorem putStash_perf (d : Dev) (t s v : Nat) : (putStash d t s v).perf = d.perf := rfl
@[simp] theorem putStash_pfcDirty (d : Dev) (t s v : Nat) : (putStash d t s v).pfcDirty = d.pfcDirty := rfl

@[simp] theorem setHealed_time (d : Dev) (w v : Nat) : (setHealed d w v).time = d.time := rfl
@[simp] theorem setHealed_free (d : Dev) (w v : Nat) : (setHealed d w v).free = d.free := rfl
@[simp] theorem setHealed_fuses (d : Dev) (w v : Nat) : (setHealed d w v).fuses = d.fuses := rfl
@[simp] theorem setHealed_regs (d : Dev) (w v : Nat) : (setHealed d w v).regs = d.regs := rfl
@[simp] theorem setHealed_voteErr (d : Dev) (w v : Nat) : (setHealed d w v).voteErr = d.voteErr := rfl
@[simp] theorem setHealed_upset (d : Dev) (w v : Nat) : (setHealed d w v).upset = d.upset := rfl
@[simp] theorem setHealed_writes (d : Dev) (w v : Nat) : (setHealed d w v).writes = d.writes := rfl
@[simp] theorem setHealed_flt (d : Dev) (w v : Nat) : (setHealed d w v).flt = d.flt := rfl
@[simp] theorem setHealed_host (d : Dev) (w v : Nat) : (setHealed d w v).host = d.host := rfl
@[simp] theorem setHealed_prog (d : Dev) (w v : Nat) : (setHealed d w v).prog = d.prog := rfl
@[simp] theorem setHealed_furs (d : Dev) (w v : Nat) : (setHealed d w v).furs = d.furs := rfl
@[simp] theorem setHealed_acres (d : Dev) (w v : Nat) : (setHealed d w v).acres = d.acres := rfl
@[simp] theorem setHealed_fab (d : Dev) (w v : Nat) : (setHealed d w v).fab = d.fab := rfl
@[simp] theorem setHealed_asc (d : Dev) (w v : Nat) : (setHealed d w v).asc = d.asc := rfl
@[simp] theorem setHealed_har (d : Dev) (w v : Nat) : (setHealed d w v).har = d.har := rfl
@[simp] theorem setHealed_deep (d : Dev) (w v : Nat) : (setHealed d w v).deep = d.deep := rfl
@[simp] theorem setHealed_que (d : Dev) (w v : Nat) : (setHealed d w v).que = d.que := rfl
@[simp] theorem setHealed_drl (d : Dev) (w v : Nat) : (setHealed d w v).drl = d.drl := rfl
@[simp] theorem setHealed_rind (d : Dev) (w v : Nat) : (setHealed d w v).rind = d.rind := rfl
@[simp] theorem setHealed_strip (d : Dev) (w v : Nat) : (setHealed d w v).strip = d.strip := rfl
@[simp] theorem setHealed_pair (d : Dev) (w v : Nat) : (setHealed d w v).pair = d.pair := rfl
@[simp] theorem setHealed_rst (d : Dev) (w v : Nat) : (setHealed d w v).rst = d.rst := rfl
@[simp] theorem setHealed_perf (d : Dev) (w v : Nat) : (setHealed d w v).perf = d.perf := rfl
@[simp] theorem setHealed_pfcDirty (d : Dev) (w v : Nat) : (setHealed d w v).pfcDirty = d.pfcDirty := rfl

@[simp] theorem setHit_time (d : Dev) (t i v : Nat) : (setHit d t i v).time = d.time := rfl
@[simp] theorem setHit_free (d : Dev) (t i v : Nat) : (setHit d t i v).free = d.free := rfl
@[simp] theorem setHit_fuses (d : Dev) (t i v : Nat) : (setHit d t i v).fuses = d.fuses := rfl
@[simp] theorem setHit_regs (d : Dev) (t i v : Nat) : (setHit d t i v).regs = d.regs := rfl
@[simp] theorem setHit_voteErr (d : Dev) (t i v : Nat) : (setHit d t i v).voteErr = d.voteErr := rfl
@[simp] theorem setHit_upset (d : Dev) (t i v : Nat) : (setHit d t i v).upset = d.upset := rfl
@[simp] theorem setHit_writes (d : Dev) (t i v : Nat) : (setHit d t i v).writes = d.writes := rfl
@[simp] theorem setHit_flt (d : Dev) (t i v : Nat) : (setHit d t i v).flt = d.flt := rfl
@[simp] theorem setHit_host (d : Dev) (t i v : Nat) : (setHit d t i v).host = d.host := rfl
@[simp] theorem setHit_prog (d : Dev) (t i v : Nat) : (setHit d t i v).prog = d.prog := rfl
@[simp] theorem setHit_furs (d : Dev) (t i v : Nat) : (setHit d t i v).furs = d.furs := rfl
@[simp] theorem setHit_acres (d : Dev) (t i v : Nat) : (setHit d t i v).acres = d.acres := rfl
@[simp] theorem setHit_fab (d : Dev) (t i v : Nat) : (setHit d t i v).fab = d.fab := rfl
@[simp] theorem setHit_asc (d : Dev) (t i v : Nat) : (setHit d t i v).asc = d.asc := rfl
@[simp] theorem setHit_har (d : Dev) (t i v : Nat) : (setHit d t i v).har = d.har := rfl
@[simp] theorem setHit_deep (d : Dev) (t i v : Nat) : (setHit d t i v).deep = d.deep := rfl
@[simp] theorem setHit_que (d : Dev) (t i v : Nat) : (setHit d t i v).que = d.que := rfl
@[simp] theorem setHit_drl (d : Dev) (t i v : Nat) : (setHit d t i v).drl = d.drl := rfl
@[simp] theorem setHit_rind (d : Dev) (t i v : Nat) : (setHit d t i v).rind = d.rind := rfl
@[simp] theorem setHit_strip (d : Dev) (t i v : Nat) : (setHit d t i v).strip = d.strip := rfl
@[simp] theorem setHit_pair (d : Dev) (t i v : Nat) : (setHit d t i v).pair = d.pair := rfl
@[simp] theorem setHit_rst (d : Dev) (t i v : Nat) : (setHit d t i v).rst = d.rst := rfl
@[simp] theorem setHit_perf (d : Dev) (t i v : Nat) : (setHit d t i v).perf = d.perf := rfl
@[simp] theorem setHit_pfcDirty (d : Dev) (t i v : Nat) : (setHit d t i v).pfcDirty = d.pfcDirty := rfl

@[simp] theorem setCkptWait_time (d : Dev) (kind i v : Nat) : (setCkptWait d kind i v).time = d.time := rfl
@[simp] theorem setCkptWait_free (d : Dev) (kind i v : Nat) : (setCkptWait d kind i v).free = d.free := rfl
@[simp] theorem setCkptWait_fuses (d : Dev) (kind i v : Nat) : (setCkptWait d kind i v).fuses = d.fuses := rfl
@[simp] theorem setCkptWait_regs (d : Dev) (kind i v : Nat) : (setCkptWait d kind i v).regs = d.regs := rfl
@[simp] theorem setCkptWait_voteErr (d : Dev) (kind i v : Nat) : (setCkptWait d kind i v).voteErr = d.voteErr := rfl
@[simp] theorem setCkptWait_upset (d : Dev) (kind i v : Nat) : (setCkptWait d kind i v).upset = d.upset := rfl
@[simp] theorem setCkptWait_writes (d : Dev) (kind i v : Nat) : (setCkptWait d kind i v).writes = d.writes := rfl
@[simp] theorem setCkptWait_flt (d : Dev) (kind i v : Nat) : (setCkptWait d kind i v).flt = d.flt := rfl
@[simp] theorem setCkptWait_host (d : Dev) (kind i v : Nat) : (setCkptWait d kind i v).host = d.host := rfl
@[simp] theorem setCkptWait_prog (d : Dev) (kind i v : Nat) : (setCkptWait d kind i v).prog = d.prog := rfl
@[simp] theorem setCkptWait_furs (d : Dev) (kind i v : Nat) : (setCkptWait d kind i v).furs = d.furs := rfl
@[simp] theorem setCkptWait_acres (d : Dev) (kind i v : Nat) : (setCkptWait d kind i v).acres = d.acres := rfl
@[simp] theorem setCkptWait_fab (d : Dev) (kind i v : Nat) : (setCkptWait d kind i v).fab = d.fab := rfl
@[simp] theorem setCkptWait_orch (d : Dev) (kind i v : Nat) : (setCkptWait d kind i v).orch = d.orch := rfl
@[simp] theorem setCkptWait_asc (d : Dev) (kind i v : Nat) : (setCkptWait d kind i v).asc = d.asc := rfl
@[simp] theorem setCkptWait_har (d : Dev) (kind i v : Nat) : (setCkptWait d kind i v).har = d.har := rfl
@[simp] theorem setCkptWait_deep (d : Dev) (kind i v : Nat) : (setCkptWait d kind i v).deep = d.deep := rfl
@[simp] theorem setCkptWait_que (d : Dev) (kind i v : Nat) : (setCkptWait d kind i v).que = d.que := rfl
@[simp] theorem setCkptWait_drl (d : Dev) (kind i v : Nat) : (setCkptWait d kind i v).drl = d.drl := rfl
@[simp] theorem setCkptWait_rind (d : Dev) (kind i v : Nat) : (setCkptWait d kind i v).rind = d.rind := rfl
@[simp] theorem setCkptWait_strip (d : Dev) (kind i v : Nat) : (setCkptWait d kind i v).strip = d.strip := rfl
@[simp] theorem setCkptWait_rst (d : Dev) (kind i v : Nat) : (setCkptWait d kind i v).rst = d.rst := rfl
@[simp] theorem setCkptWait_perf (d : Dev) (kind i v : Nat) : (setCkptWait d kind i v).perf = d.perf := rfl
@[simp] theorem setCkptWait_pfcDirty (d : Dev) (kind i v : Nat) : (setCkptWait d kind i v).pfcDirty = d.pfcDirty := rfl

@[simp] theorem putRingQ_time (d : Dev) (r : Nat) (q : List (Pkt × Nat)) : (putRingQ d r q).time = d.time := rfl
@[simp] theorem putRingQ_free (d : Dev) (r : Nat) (q : List (Pkt × Nat)) : (putRingQ d r q).free = d.free := rfl
@[simp] theorem putRingQ_fuses (d : Dev) (r : Nat) (q : List (Pkt × Nat)) : (putRingQ d r q).fuses = d.fuses := rfl
@[simp] theorem putRingQ_regs (d : Dev) (r : Nat) (q : List (Pkt × Nat)) : (putRingQ d r q).regs = d.regs := rfl
@[simp] theorem putRingQ_voteErr (d : Dev) (r : Nat) (q : List (Pkt × Nat)) : (putRingQ d r q).voteErr = d.voteErr := rfl
@[simp] theorem putRingQ_upset (d : Dev) (r : Nat) (q : List (Pkt × Nat)) : (putRingQ d r q).upset = d.upset := rfl
@[simp] theorem putRingQ_writes (d : Dev) (r : Nat) (q : List (Pkt × Nat)) : (putRingQ d r q).writes = d.writes := rfl
@[simp] theorem putRingQ_flt (d : Dev) (r : Nat) (q : List (Pkt × Nat)) : (putRingQ d r q).flt = d.flt := rfl
@[simp] theorem putRingQ_prog (d : Dev) (r : Nat) (q : List (Pkt × Nat)) : (putRingQ d r q).prog = d.prog := rfl
@[simp] theorem putRingQ_furs (d : Dev) (r : Nat) (q : List (Pkt × Nat)) : (putRingQ d r q).furs = d.furs := rfl
@[simp] theorem putRingQ_acres (d : Dev) (r : Nat) (q : List (Pkt × Nat)) : (putRingQ d r q).acres = d.acres := rfl
@[simp] theorem putRingQ_fab (d : Dev) (r : Nat) (q : List (Pkt × Nat)) : (putRingQ d r q).fab = d.fab := rfl
@[simp] theorem putRingQ_orch (d : Dev) (r : Nat) (q : List (Pkt × Nat)) : (putRingQ d r q).orch = d.orch := rfl
@[simp] theorem putRingQ_asc (d : Dev) (r : Nat) (q : List (Pkt × Nat)) : (putRingQ d r q).asc = d.asc := rfl
@[simp] theorem putRingQ_har (d : Dev) (r : Nat) (q : List (Pkt × Nat)) : (putRingQ d r q).har = d.har := rfl
@[simp] theorem putRingQ_deep (d : Dev) (r : Nat) (q : List (Pkt × Nat)) : (putRingQ d r q).deep = d.deep := rfl
@[simp] theorem putRingQ_que (d : Dev) (r : Nat) (q : List (Pkt × Nat)) : (putRingQ d r q).que = d.que := rfl
@[simp] theorem putRingQ_drl (d : Dev) (r : Nat) (q : List (Pkt × Nat)) : (putRingQ d r q).drl = d.drl := rfl
@[simp] theorem putRingQ_rind (d : Dev) (r : Nat) (q : List (Pkt × Nat)) : (putRingQ d r q).rind = d.rind := rfl
@[simp] theorem putRingQ_strip (d : Dev) (r : Nat) (q : List (Pkt × Nat)) : (putRingQ d r q).strip = d.strip := rfl
@[simp] theorem putRingQ_pair (d : Dev) (r : Nat) (q : List (Pkt × Nat)) : (putRingQ d r q).pair = d.pair := rfl
@[simp] theorem putRingQ_rst (d : Dev) (r : Nat) (q : List (Pkt × Nat)) : (putRingQ d r q).rst = d.rst := rfl
@[simp] theorem putRingQ_perf (d : Dev) (r : Nat) (q : List (Pkt × Nat)) : (putRingQ d r q).perf = d.perf := rfl
@[simp] theorem putRingQ_pfcDirty (d : Dev) (r : Nat) (q : List (Pkt × Nat)) : (putRingQ d r q).pfcDirty = d.pfcDirty := rfl

@[simp] theorem setWaiting_time (d : Dev) (l : List Nat) : (setWaiting d l).time = d.time := rfl
@[simp] theorem setWaiting_free (d : Dev) (l : List Nat) : (setWaiting d l).free = d.free := rfl
@[simp] theorem setWaiting_fuses (d : Dev) (l : List Nat) : (setWaiting d l).fuses = d.fuses := rfl
@[simp] theorem setWaiting_voteErr (d : Dev) (l : List Nat) : (setWaiting d l).voteErr = d.voteErr := rfl
@[simp] theorem setWaiting_upset (d : Dev) (l : List Nat) : (setWaiting d l).upset = d.upset := rfl
@[simp] theorem setWaiting_writes (d : Dev) (l : List Nat) : (setWaiting d l).writes = d.writes := rfl
@[simp] theorem setWaiting_flt (d : Dev) (l : List Nat) : (setWaiting d l).flt = d.flt := rfl
@[simp] theorem setWaiting_host (d : Dev) (l : List Nat) : (setWaiting d l).host = d.host := rfl
@[simp] theorem setWaiting_prog (d : Dev) (l : List Nat) : (setWaiting d l).prog = d.prog := rfl
@[simp] theorem setWaiting_furs (d : Dev) (l : List Nat) : (setWaiting d l).furs = d.furs := rfl
@[simp] theorem setWaiting_acres (d : Dev) (l : List Nat) : (setWaiting d l).acres = d.acres := rfl
@[simp] theorem setWaiting_fab (d : Dev) (l : List Nat) : (setWaiting d l).fab = d.fab := rfl
@[simp] theorem setWaiting_orch (d : Dev) (l : List Nat) : (setWaiting d l).orch = d.orch := rfl
@[simp] theorem setWaiting_asc (d : Dev) (l : List Nat) : (setWaiting d l).asc = d.asc := rfl
@[simp] theorem setWaiting_har (d : Dev) (l : List Nat) : (setWaiting d l).har = d.har := rfl
@[simp] theorem setWaiting_deep (d : Dev) (l : List Nat) : (setWaiting d l).deep = d.deep := rfl
@[simp] theorem setWaiting_que (d : Dev) (l : List Nat) : (setWaiting d l).que = d.que := rfl
@[simp] theorem setWaiting_drl (d : Dev) (l : List Nat) : (setWaiting d l).drl = d.drl := rfl
@[simp] theorem setWaiting_strip (d : Dev) (l : List Nat) : (setWaiting d l).strip = d.strip := rfl
@[simp] theorem setWaiting_pair (d : Dev) (l : List Nat) : (setWaiting d l).pair = d.pair := rfl
@[simp] theorem setWaiting_rst (d : Dev) (l : List Nat) : (setWaiting d l).rst = d.rst := rfl
@[simp] theorem setWaiting_perf (d : Dev) (l : List Nat) : (setWaiting d l).perf = d.perf := rfl
@[simp] theorem setWaiting_pfcDirty (d : Dev) (l : List Nat) : (setWaiting d l).pfcDirty = d.pfcDirty := rfl

@[simp] theorem setLearnQ_time (d : Dev) (q : List Learn) : (setLearnQ d q).time = d.time := by rw [setLearnQ, wrF_time]
@[simp] theorem setLearnQ_free (d : Dev) (q : List Learn) : (setLearnQ d q).free = d.free := by rw [setLearnQ, wrF_free]
@[simp] theorem setLearnQ_fuses (d : Dev) (q : List Learn) : (setLearnQ d q).fuses = d.fuses := by rw [setLearnQ, wrF_fuses]
@[simp] theorem setLearnQ_voteErr (d : Dev) (q : List Learn) : (setLearnQ d q).voteErr = d.voteErr := by rw [setLearnQ, wrF_voteErr]
@[simp] theorem setLearnQ_upset (d : Dev) (q : List Learn) : (setLearnQ d q).upset = d.upset := by rw [setLearnQ, wrF_upset]
@[simp] theorem setLearnQ_writes (d : Dev) (q : List Learn) : (setLearnQ d q).writes = d.writes := by rw [setLearnQ, wrF_writes]
@[simp] theorem setLearnQ_flt (d : Dev) (q : List Learn) : (setLearnQ d q).flt = d.flt := by rw [setLearnQ, wrF_flt]
@[simp] theorem setLearnQ_host (d : Dev) (q : List Learn) : (setLearnQ d q).host = d.host := by rw [setLearnQ, wrF_host]
@[simp] theorem setLearnQ_prog (d : Dev) (q : List Learn) : (setLearnQ d q).prog = d.prog := by rw [setLearnQ, wrF_prog]
@[simp] theorem setLearnQ_furs (d : Dev) (q : List Learn) : (setLearnQ d q).furs = d.furs := by rw [setLearnQ, wrF_furs]
@[simp] theorem setLearnQ_acres (d : Dev) (q : List Learn) : (setLearnQ d q).acres = d.acres := by rw [setLearnQ, wrF_acres]
@[simp] theorem setLearnQ_fab (d : Dev) (q : List Learn) : (setLearnQ d q).fab = d.fab := by rw [setLearnQ, wrF_fab]
@[simp] theorem setLearnQ_asc (d : Dev) (q : List Learn) : (setLearnQ d q).asc = d.asc := by rw [setLearnQ, wrF_asc]
@[simp] theorem setLearnQ_har (d : Dev) (q : List Learn) : (setLearnQ d q).har = d.har := by rw [setLearnQ, wrF_har]
@[simp] theorem setLearnQ_deep (d : Dev) (q : List Learn) : (setLearnQ d q).deep = d.deep := by rw [setLearnQ, wrF_deep]
@[simp] theorem setLearnQ_que (d : Dev) (q : List Learn) : (setLearnQ d q).que = d.que := by rw [setLearnQ, wrF_que]
@[simp] theorem setLearnQ_drl (d : Dev) (q : List Learn) : (setLearnQ d q).drl = d.drl := by rw [setLearnQ, wrF_drl]
@[simp] theorem setLearnQ_rind (d : Dev) (q : List Learn) : (setLearnQ d q).rind = d.rind := by rw [setLearnQ, wrF_rind]
@[simp] theorem setLearnQ_strip (d : Dev) (q : List Learn) : (setLearnQ d q).strip = d.strip := by rw [setLearnQ, wrF_strip]
@[simp] theorem setLearnQ_pair (d : Dev) (q : List Learn) : (setLearnQ d q).pair = d.pair := by rw [setLearnQ, wrF_pair]
@[simp] theorem setLearnQ_rst (d : Dev) (q : List Learn) : (setLearnQ d q).rst = d.rst := by rw [setLearnQ, wrF_rst]
@[simp] theorem setLearnQ_perf (d : Dev) (q : List Learn) : (setLearnQ d q).perf = d.perf := by rw [setLearnQ, wrF_perf]
@[simp] theorem setLearnQ_pfcDirty (d : Dev) (q : List Learn) : (setLearnQ d q).pfcDirty = d.pfcDirty := by rw [setLearnQ, wrF_pfcDirty]

end Sys2Proof.Machine
end

