-- ==== Sys2Proof/Tests/Setup.lean ====
section
/-!
SUPPORT. The small states that the tests and the witnesses start from: reset's device with one thing changed.
-/
namespace Sys2Proof.Tests
open Sys2Proof Sys2Proof.Machine


/-- A state whose device is reset's with a change. -/
def onDev (f : Dev → Dev) : State := { State.reset with dev := f State.reset.dev }

/-- A packet with a 60-byte frame of zeros and nothing held. -/
def pk : Pkt :=
  { frame := List.replicate 60 0, rxLen := 64, rxTime := 0, staged := none, prio := 0, ppCells := 0, headland := false, ctx := 0, gen := 0,
    seq := 0, mapIdx := 0, loc := .row 0 false, parkSeq := 0, lastRow := 0, flags0 := 0, flags1 := 0, x0 := 0, x1 := 0, x2 := 0, x3 := 0,
    y0 := 0, y1 := 0, conds := 0, reqs := [0, 0, 0, 0], edits := [], edata := [], rehashDrop := false, decSa := none, grant := none,
    mapRef := 0, cells := [], pool := 0, macre := 0, refKey := 0, queue := 0, enqTime := 0, ce := false, ect := false, asRx := false,
    inject := none, noEdit := false, mirrorTo := none, safeHold := false, waitTaken := false, fromHost := false, fragHeld := none, ppRef := 0, stRef := 0,
    ride := none, lossless := false,
    lookaside := none, ecnOff := 0, ecnFam := 0, launch := 0, charged := 0 }

/-- The checks of `WriteReaches` as one test; no injection pending stands for its parity clause. -/
def reaches (d : Dev) (agent off : Nat) (v : W64) : Bool :=
  !ctlReset d && !unitAbsent d off && !flagF d Reg.FAULT_INJECT Reg.FAULT_INJECT_PENDING
    && !((islandsOf d off v).any (islandOff d)) && decide (unitBusy d off (islandsOf d off v) = []) && (agentDrop d agent off).isNone
    && (regAt off).all fun p => !indexAbsent d p.1.base (p.2.getD 0 0)

theorem reaches_ok {d : Dev} {agent off : Nat} {v : W64} (h : reaches d agent off v = true) : WriteReaches d agent off v := by
  simp only [reaches, Bool.and_eq_true, Bool.not_eq_true', decide_eq_true_eq, Option.isNone_iff_eq_none] at h
  obtain ⟨⟨⟨⟨⟨⟨h1, h2⟩, h3⟩, h4⟩, h5⟩, h6⟩, h7⟩ := h
  refine ⟨h1, h2, csrParity_idle h3 .., h4, h5, h6, fun p hp => ?_⟩
  simpa [hp] using h7

/-- A loaded profile in which table 3 is of a kind, with two blocks, that learns and refreshes. -/
def tabd (k : Nat) (d : Dev) : Dev :=
  wrF (wr d (Reg.TABLE_DESC 0 3) (mkWord [(Reg.TABLE_DESC_VALID, 1), (Reg.TABLE_DESC_LEARN, 1), (Reg.TABLE_DESC_REFRESH, 1),
    (Reg.TABLE_DESC_KEYBITS, 96), (Reg.TABLE_DESC_KIND, k), (Reg.TABLE_DESC_NBLK, 2)])) Reg.PROFILE_STATUS Reg.PROFILE_STATUS_LOADED 1

/-- That table, of a kind. -/
def tb (k : Nat) : Tbl := ⟨3, k, 0, 2, false, 96, true, true, 32, 0, 0⟩

/-- With it as EXACT, and an entry of a type for key 0 and action 9 in way 0 of its bucket. -/
def hitd (ty : Nat) (d : Dev) : Dev := writeUnit (tabd 1 d) (tb 1) ((homeIdx (tb 1) 0).headD 0) (mkEntry (tb 1) ty 0 9)

/-- A peer learn at the front of the learn FIFO. -/
def learnd (src : LearnSrc) (d : Dev) : Dev := setLearnQ d [⟨src, 3, 0, 5, 7⟩]


/-- A packet in slot 0 of furrow 0 of acre 0 with one flight of it. -/
def infl (w : Flight) (d : Dev) : Dev :=
  putFur d 0 0 { getFur d 0 0 with pkts := spPut (fun _ => none) (getFur d 0 0).pkts 0 (some pk), inFlight := [⟨0, 0, w, none⟩] }

/-- Queue 0, a level-1 node and port 0 above it, all valid, and the port UP. -/
def drilld (d : Dev) : Dev :=
  wrF (putNode (putNode (putNode d (nodeKey 2 0) { nodeDef 0 with w0 := 0x8000000000100000 }) (nodeKey 1 0)
    { nodeDef 0 with w0 := 0x8000000000100000 }) (nodeKey 0 0) (nodeDef 0)) (stateReg 0) Reg.PORT_STATE_STATE 3

/-- The lease of Rind held by an agent. -/
def leased (n : Nat) (d : Dev) : Dev := wrF d Reg.RIND_LOCK Reg.RIND_LOCK_OWNER n

/-- The deep store ready. -/
def deepUp (d : Dev) : Dev := wrF d Reg.DEEP_STATUS Reg.DEEP_STATUS_READY 1

/-- An outbound association 0 of holding 0 with its home at strip 0, next number 1, that queue 0 and port 0 use. -/
def sad (e : Nat) (d : Dev) : Dev :=
  putEnt (putEnt (putEnt d 2 0 e) 6 0 (2 ^ 575)) 4 0 (2 ^ 631)
def outSa : Nat := 2 ^ 831 + 2 ^ 827 + 2 ^ 640 + 2 ^ 800 * 0 + 14 * 2 ^ 785 + 34 * 2 ^ 794

/-- An ESP frame: SPI 0, number 1, the payload byte 0xAB with one byte of padding, sealed with the key of zeros. -/
def espFrame : List Byte :=
  let r := gcmSeal 0 (List.replicate 12 0) [0, 0, 0, 0, 0, 0, 0, 1] [0xAB, 1, 1, 4]
  [0, 0, 0, 0, 0, 0, 0, 1] ++ List.replicate 8 0 ++ r.1 ++ r.2

/-- A packet at the decryption engine of acre 0 with an ESP header at the front of its frame, for inbound association 0. -/
def decPkt (f : List Byte) : Pkt :=
  { pcSet pk (Pc.hdr 0) (0x8000 + 512 * rdF State.reset.dev Reg.RIND_CFG Reg.RIND_CFG_ESP_KIND) with
    frame := f, loc := .atRind, decSa := some (0, 0) }

def decd (e : Nat) (f : List Byte) (d : Dev) : Dev :=
  putEnt { putPkt d ⟨0, 0, 0⟩ (decPkt f) with rind := { d.rind with decQ := [(0, [(0, 0, 0, 60)])] } } 2 0 e

theorem pairSome {α β : Type} {x : Option α × β} {p : α} (h : x.1.isSome = true) : x = (some (x.1.getD p), x.2) := by
  obtain ⟨_ | a, b⟩ := x
  · cases h
  · rfl

theorem tripleIs {α β γ : Type} {x : α × β × γ} {a : α} (h : x.1 = a) : x = (a, x.2.1, x.2.2) := by cases h; rfl

/-- A packet in row 0 of furrow 0 of acre 0, woken, with a microword before it. -/
def rowd (u : Nat) (p : Pkt) (d : Dev) : Dev :=
  let d := putPkt d ⟨0, 0, 0⟩ { p with loc := .row 0 true }
  { d with prog := { d.prog with micro := spPut (fun _ => 0) d.prog.micro (microKey 0 0 0 0) u } }

theorem pairWith {α β : Type} {x : α × β} {b : β} (h : x.2 = b) : x = (x.1, b) := by cases h; rfl

theorem optSome {α : Type} {o : Option α} {p : α} (h : o.isSome = true) : o = some (o.getD p) := by
  cases o
  · cases h
  · rfl

/-- A bank under verification whose header is good and whose first ROW_CRC is n. -/
def hdrd (n : Nat) (d : Dev) : Dev :=
  { setBank d 0 1 with prog := { d.prog with header := [(0, 0x4E), (1, 0x5A), (2, 0x52), (3, 0x54), (4, 1), (6, 24), (24, n)] } }

theorem firstIdx_zero {n : Nat} {p : Nat → Bool} (h : p 0 = true) : firstIdx (n + 1) p = some 0 := by
  simp [firstIdx, List.range_succ_eq_map, h]

/-- Lookup type 3 of a kind, on table 3, from every row, with 10 elements. -/
def typed (k : Nat) (d : Dev) : Dev :=
  wr (wr d (Reg.TYPE_DESC 0 3 0) (mkWord [(Reg.TYPE_DESC_VALID, 1), (Reg.TYPE_DESC_KIND, k), (Reg.TYPE_DESC_TABLE, 3),
    (Reg.TYPE_DESC_ROWMASK, 0xFFFFFF)])) (Reg.TYPE_DESC 0 3 1) 10

/-- A packet in row 5 of furrow 0 of acre 0. -/
def rowPkt : Pkt := { pk with loc := .row 5 false }

end Sys2Proof.Tests
end

