-- ==== Sys2Proof/Tests/Slice0.lean ====
section
/-!
SUPPORT. Tests. First, an ill-formed term for each check of WellFormed, which the check refuses. Then values that the spec's own
worked examples give: each comment names the example.
-/
namespace Sys2Proof.Tests
open Sys2Proof Sys2Proof.Machine
set_option Elab.async false
set_option maxRecDepth 10000

/-! Ill-formed commands are refused, one for each check. -/

def slot0 : PktRef := ⟨0, 0, 0⟩

theorem test_wf_agent : (Instr.progStart 5).wf = false := by decide
theorem test_wf_acre : (Instr.acreMoveDrained 4).wf = false := by decide
theorem test_wf_strip : (Instr.espEncrypt 8).wf = false := by decide
theorem test_wf_port : (Instr.frameTransmit 512).wf = false := by decide
theorem test_wf_packet_acre : (Instr.nop ⟨4, 0, 0⟩).wf = false := by decide
theorem test_wf_packet_furrow : (Instr.nop ⟨0, 17, 0⟩).wf = false := by decide
theorem test_wf_packet_slot : (Instr.nop ⟨0, 0, 2048⟩).wf = false := by decide
theorem test_wf_furrow : (Instr.furrowHang 0 17).wf = false := by decide
theorem test_wf_extractor : (Instr.fieldExtract slot0 0 ⟨false, 0, 0, 0, 0, 4⟩).wf = false := by decide
theorem test_wf_extractor_number : (Instr.fieldExtract slot0 4 ⟨false, 0, 0, 0, 0, 0⟩).wf = false := by decide
theorem test_wf_alu : (Instr.aluAdd slot0 0 ⟨false, 0, 0, 0, 8, 0⟩ 0).wf = false := by decide
theorem test_wf_alu_immediate : (Instr.aluAdd slot0 0 ⟨false, 0, 0, 0, 0, 0⟩ (2 ^ 64)).wf = false := by decide
theorem test_wf_metadata : (Instr.metadataWrite slot0 ⟨0, 0, 0, 32⟩ 0).wf = false := by decide
theorem test_wf_lookup : (Instr.lookupIssue slot0 0 ⟨0, 0, false, 64⟩).wf = false := by decide
theorem test_wf_collect : (Instr.collect slot0 ⟨16, 0, 0, 0, 0⟩).wf = false := by decide
theorem test_wf_request : (Instr.deep slot0 ⟨4, 0, false, 0⟩).wf = false := by decide
theorem test_wf_edit : (Instr.rewrite slot0 ⟨0, 128, 0, 0⟩).wf = false := by decide
theorem test_wf_counter : (Instr.counterUpdate slot0 ⟨4, 0, 0⟩).wf = false := by decide
theorem test_wf_flags : (Instr.flagsSet slot0 (2 ^ 16)).wf = false := by decide
theorem test_wf_disposition : (Instr.disposition slot0 16 0).wf = false := by decide
theorem test_wf_table : (Instr.learnSettle 64).wf = false := by decide
theorem test_wf_row : (Instr.gleanerRowScrub 0 1024).wf = false := by decide
theorem test_wf_segment : (Instr.segMapWrite 1 0 256 0).wf = false := by decide
theorem test_wf_transfer : (Instr.stage1Transfer 0 0 17).wf = false := by decide
theorem test_wf_bank : (Instr.freeCacheRefill 0 24).wf = false := by decide
theorem test_wf_queue : (Instr.refill 65536 0).wf = false := by decide
theorem test_wf_ring : (Instr.captureWrite 16).wf = false := by decide
theorem test_wf_class : (Instr.pauseWatchdog 0 8).wf = false := by decide
theorem test_wf_level : (Instr.shaperRefill 4 0).wf = false := by decide
theorem test_wf_meter : (Instr.meterSweep 1048576).wf = false := by decide
theorem test_wf_engine : (Instr.laneAdapt 0 4).wf = false := by decide
theorem test_wf_deep_request : (Instr.deepStoreRequest 6 true 0 0 []).wf = false := by decide
theorem test_wf_channel : (Instr.patrolScrub 0 32 0).wf = false := by decide
theorem test_wf_journal : (Instr.journal 0 [(0, ⟨256, 0, 0, 0, 0, 0, 0⟩)]).wf = false := by decide
theorem test_wf_journal_length : (Instr.journal 0 (List.replicate 5 (0, ⟨0, 0, 0, 0, 0, 0, 0⟩))).wf = false := by decide
theorem test_wf_tag : (Instr.agentReq 0 65536 0 0 0).wf = false := by decide
theorem test_wf_entry : (Instr.faultClearOne 1 256).wf = false := by decide
theorem test_wf_offset : (Instr.registerWrite 1 (2 ^ 32) 0 false).wf = false := by decide
theorem test_wf_window : (Instr.bar2Read (2 ^ 28) 8).wf = false := by decide
theorem test_wf_fifo : (Instr.evtPop 1 3).wf = false := by decide
theorem test_wf_source : (Instr.commandCompletion 12).wf = false := by decide
theorem test_wf_punt_ring : (Instr.puntNotice 64).wf = false := by decide
theorem test_wf_spi_crc : (Instr.spisWrite 0 0 256 0).wf = false := by decide
theorem test_wf_jtag : (Instr.jtagCsrAccess 4 0 0).wf = false := by decide
theorem test_wf_uart : (Instr.uartRxCharacter (List.replicate 12 1) false false false).wf = false := by decide

/-! Encodings. -/

/-- The example under R39: WAIT on DEEP_RESULT_VALID with nanoword 0x2C. -/
theorem test_microword_wait :
    let u := 0x68800580
    (uSeq u, uCond u, uTarget u, uNano u, uImm u, uSafe u) = (3, 0x11, 0, 0x2C, 0, false) := by decide +kernel

/-- The example under R39: BRANCH on ASSOC_MULTI to 0x1A0 with nanoword 0x10, a safe point. -/
theorem test_microword_branch :
    let u := 0x47B40201
    (uSeq u, uCond u, uTarget u, uNano u, uImm u, uSafe u) = (2, 0x0F, 0x1A0, 0x10, 0, true) := by decide +kernel

/-- The worked fragment of chapter 3: bits [282:261] of the nanoword of row 10 are 0x7D0B. -/
theorem test_nanoword_collect : nanoCl (0x7D0B * 2 ^ 261) = ⟨0, 1, 30, 2, 5⟩ ∧ nanoClEn (0x7D0B * 2 ^ 261) = true := by decide +kernel

/-- The example under R87: ctx[117:8] is PC.holding. -/
theorem test_extract_holding : extract (pcSet pk Pc.holding 0xA5) ⟨false, 0, 7, 117, 0, 2⟩ = 0xA5 := by decide +kernel

/-- The example under R87: byte 7 of instance 2, the hop limit of an IPv6 header. -/
theorem test_extract_hop_limit :
    extract { pcSet pk (Pc.hdr 2) 0x800E with frame := List.replicate 21 0 ++ [0x40] ++ List.replicate 38 0 } ⟨false, 0, 7, 56, 2, 1⟩
      = 0x40 := by
  decide +kernel

/-- The example under R16: the offsets of FURROW_TRAP of acre 1 furrow 16 and of PKT_DEADLINE of acre 3. -/
theorem test_offsets : Reg.FURROW_TRAP 1 16 = 0x01140008 ∧ Reg.PKT_DEADLINE 3 = 0x01350900 := by decide

/-- R19: the nine ASCII bytes "123456789" hash to 0xE3069283. -/
theorem test_flow_hash : crc32c 0xFFFFFFFF [0x31, 0x32, 0x33, 0x34, 0x35, 0x36, 0x37, 0x38, 0x39] = 0xE3069283 := by decide +kernel

/-- The example under R26: a strip timer's conflict in GLOBAL_CONFLICT. -/
theorem test_conflict_word :
    rd (recordConflict State.reset.dev 1 515 0x04 0x11 8) Reg.GLOBAL_CONFLICT = 0x8000000111040603 := by decide +kernel

/-! The furrow machine. -/

/-- The example under R81: host software reads PROG_EPOCH as 0x1 before the first load. -/
theorem test_first_epoch : rd State.reset.dev Reg.PROG_EPOCH = 1 := by decide +kernel

/-- The worked fragment, row 9: SCALE of flow hash 0x9E371B05 by 4 members is member 2. -/
theorem test_scale : (aluScale 0x9E371B05 4).y = 2 := by decide +kernel

/-- The worked fragment, row 0: the hop limit 64 less 1, and a hop limit of 0 stays 0. -/
theorem test_subsat : (aluSubsat 64 1).y = 63 ∧ (aluSubsat 0 1).y = 0 := by decide +kernel

/-- The example under R531: flow hash 0x5C3A97E4 selects domain 2,020 and FURROW_MAP entry 169. -/
theorem test_first_entry :
    let p := firstEntry State.reset.dev (getFur State.reset.dev 0 5) 0 (pcSet pk Pc.flowHash 0x5C3A97E4)
    pcGet p Pc.domain = 2020 ∧ p.mapIdx = 169 := by
  decide +kernel

/-- A table with 256 blocks of ARRAY storage and lookup type 7 over it, as in the example under R100. -/
def arrayed (d : Dev) : Dev :=
  let d := wr d (Reg.TABLE_DESC 0 1) (mkWord [(Reg.TABLE_DESC_VALID, 1), (Reg.TABLE_DESC_KIND, 5), (Reg.TABLE_DESC_NBLK, 256)])
  wr (wr d (Reg.TYPE_DESC 0 7 0) (mkWord [(Reg.TYPE_DESC_VALID, 1), (Reg.TYPE_DESC_KIND, 5), (Reg.TYPE_DESC_TABLE, 1),
    (Reg.TYPE_DESC_ROWMASK, 0xFFFFFF), (Reg.TYPE_DESC_NMAX, 15)])) (Reg.TYPE_DESC 0 7 1) 65536

/-- The example under R100: the sixth element of the list lies out of range. -/
theorem test_collect_range :
    collectFault (arrayed State.reset.dev) 0 0xF800 [0x0000, 0x0010, 0x0020, 0x0030, 0x0040, 0x0900, 0x0060, 0x0070, 0x0080, 0x0090,
      0x00A0, 0x00B0, 0x00C0, 0x00D0, 0x00E0, 0x00F0] 7 5 = 5 := by
  decide +kernel

/-- The same with the offset as it should be: no element faults. -/
theorem test_collect_good :
    collectFault (arrayed State.reset.dev) 0 0xF800 [0x0000, 0x0010, 0x0020, 0x0030, 0x0040, 0x0050] 7 5 = 0x1F := by
  decide +kernel

/-! Orchard: the example under R177. -/

/-- An LPM4 table and the four routes of holding 12. -/
def lpmDev : Dev := wr State.reset.dev (Reg.TABLE_DESC 0 1) (mkWord [(Reg.TABLE_DESC_VALID, 1), (Reg.TABLE_DESC_KIND, 2),
  (Reg.TABLE_DESC_NBLK, 16), (Reg.TABLE_DESC_KEYBITS, 48)])
def lpmTbl : Tbl := ⟨1, 2, 0, 16, false, 48, false, false, 32, 0, 0⟩
def route (len pfx act : Nat) (d : Dev) : Dev := lpmInsert d lpmTbl (lpmKey lpmTbl 12 len pfx) act
def fourRoutes : Dev :=
  route 24 0x0A016000 0xA3 (route 20 0x0A014000 0xA2 (route 16 0x0A010000 0xA1 (route 0 0 0xA0 lpmDev)))
def lpmAction (d : Dev) (x : Nat) : Option Nat := (lpmSearch d lpmTbl 12 x).best.map fun i => eAction (readUnit d lpmTbl i)

theorem test_lpm_table : tbl lpmDev 1 = some lpmTbl := by decide +kernel

/-- 10.1.96.7, 10.1.97.5, 10.1.70.1 and 10.2.0.1. -/
theorem test_lpm_four :
    [0x0A016007, 0x0A016105, 0x0A014601, 0x0A020001].map (lpmAction fourRoutes) = [some 0xA3, some 0xA1, some 0xA2, some 0xA0] := by
  decide +kernel

/-- After 10.1.96.0/22 is inserted: 10.1.97.5, 10.1.96.7, 10.1.70.1, 10.1.5.1 and 10.2.0.1. -/
theorem test_lpm_five :
    [0x0A016105, 0x0A016007, 0x0A014601, 0x0A010501, 0x0A020001].map (lpmAction (route 22 0x0A016000 0xA4 fourRoutes))
      = [some 0xA4, some 0xA3, some 0xA2, some 0xA1, some 0xA0] := by
  decide +kernel

/-! Associative search: the example under R202. -/

def assocEntry (owner prio act : Nat) : Nat := 2 ^ 63 + owner * 2 ^ 48 + prio * 2 ^ 32 + act
def fourEntries (h : Nat) : Dev :=
  let put := fun (i p a : Nat) (d : Dev) => aWrite d 1 i (assocEntry h p a)
  wr (put 6701 500 0xA03 (put 6700 500 0xA02 (put 6200 100 0xA04 (put 6150 200 0xA01 State.reset.dev)))) (Reg.SEG_MAP 1 h) 0x3000

/-- A tenant holding: the highest priority, and the lower index of two. -/
theorem test_assoc_tenant : (aLookup (fourEntries 40) 1 40 0).1 = 0x00000A0200081A2C := by decide +kernel
/-- An operator holding: the lowest index. -/
theorem test_assoc_operator : (aLookup (fourEntries 3) 1 3 0).1.toNat / 2 ^ 32 = 0xA01 := by decide +kernel
/-- PARTITIONED mode: the index counts from the acre's own range. -/
theorem test_assoc_partitioned :
    (aLookup (wrF (fourEntries 40) Reg.ASSOC_CFG Reg.ASSOC_CFG_MODE 1) 1 40 0).1.toNat % 2 ^ 17 = 39468 := by decide +kernel

/-! The headland: the example under R237. -/

def losslessPort (p : Nat) (d : Dev) : Dev :=
  let d := wrFs d (stateReg p) [(Reg.PORT_STATE_STATE, 3), (Reg.PORT_STATE_CUR_SPEED, 5)]
  let d := wrF d (Reg.PORT_MODE (p / 64) (p % 64)) Reg.PORT_MODE_MAX_FRAME 2048
  headlandRecompute (wr d (Reg.PFC_CFG p 3) (BitVec.ofNat 64 (2 ^ 63))) p
def fivePorts : Dev := [256, 260, 264, 268, 272].foldl (fun d p => losslessPort p d) State.reset.dev
def measured : Dev := headlandRecompute (wrFs fivePorts (Reg.PDELAY_STATUS 4 0) [(Reg.PDELAY_STATUS_MEASURED, 1),
  (Reg.PDELAY_STATUS_D_NS, 4900)]) 256

theorem test_headland_need : headlandNeed fivePorts 256 = 29017 ∧ headlandNeed measured 256 = 3392 := by decide +kernel
theorem test_headland_short :
    rdF fivePorts Reg.HEADLAND_STATUS Reg.HEADLAND_STATUS_RESERVED = 116068 ∧ rdF fivePorts (ppReg 272 3) Reg.PP_STATUS_SHORT = 1 := by
  decide +kernel
theorem test_headland_measured :
    rdF measured Reg.HEADLAND_STATUS Reg.HEADLAND_STATUS_RESERVED = 119460 ∧ rdF measured Reg.HEADLAND_STATUS Reg.HEADLAND_STATUS_SHORT = 0 := by
  decide +kernel

/-! Queues: the example under R261, a packet of LEN 1,500 with an edit header of 29 B. -/

def spilledPkt : Pkt :=
  { pk with frame := List.replicate 1496 0, rxLen := 1500, edits := [1809, 17104897, 117769729], edata := List.replicate 13 0 }

theorem test_spill_cells : editHeaderLen spilledPkt = 29 ∧ cellsOf spilledPkt = 6 := by decide +kernel
theorem test_spill_record : (recordBytes spilledPkt).length = 1552 := by decide +kernel

/-! Drill. -/

/-- The example under R285: queue 700 in debt after a charge of 9,000 B, and after three ticks at 10 Gb/s. -/
def shaped : Dev := wrF (putNode State.reset.dev (nodeKey 2 700) { nodeDef 0 with
  w0 := BitVec.ofNat 64 (2 ^ 63 + 2 ^ 44), w1 := BitVec.ofNat 64 (16000 * 2 ^ 32 + 10000000), rate := 10000000, tokens := 100 * 2 ^ 24 })
  (Reg.PORT_CFG 5) Reg.PORT_CFG_MTU 9216
def tokensOf (d : Dev) : Int := (getNode d (nodeKey 2 700)).tokens / 2 ^ 24

theorem test_shaper_debt : tokensOf (shaperCharge shaped 5 9000 (nodeKey 2 700)) = -8900 := by decide +kernel
theorem test_shaper_refill :
    tokensOf ((List.range 3).foldl (fun d _ => shaperRefill 2 700 d) (shaperCharge shaped 5 9000 (nodeKey 2 700))) = -5060 := by
  decide +kernel

/-- The example under R280: what a packet of 1,500 B costs at a child of weight 3. -/
theorem test_virtual_time :
    (getNode (vtAdvance (putNode State.reset.dev (nodeKey 2 2609) { nodeDef 0 with w0 := BitVec.ofNat 64 (3 * 2 ^ 20 + 40) })
      (nodeKey 1 40) (nodeKey 2 2609) 1500) (nodeKey 2 2609)).s = 32767500 := by
  decide +kernel

/-- The example under R293: port 12 with a window of class 7 from 0 to 20 µs of a cycle of 250 µs. -/
def gated (t : Nat) : Dev :=
  let d := wrFs { State.reset.dev with time := t } (stateReg 12) [(Reg.PORT_STATE_STATE, 3), (Reg.PORT_STATE_CUR_SPEED, 5)]
  let d := { d with drl := { d.drl with gcl := [(0, 0x80 + 20000 * 2 ^ 8), (1, 0x7F + 230000 * 2 ^ 8)] } }
  putGate d 12 ⟨⟨0, BitVec.ofNat 64 (2 ^ 63 + 2 ^ 61 + 2 * 2 ^ 47 + 250000), 0x80, 0⟩, none, []⟩
def class7 : Node := { nodeDef 0 with w0 := BitVec.ofNat 64 (2 ^ 63 + 2 ^ 20 + 7 * 2 ^ 38) }

theorem test_gate_opens :
    gateAdmits (gated 249903) 12 class7 { pk with rxLen := 300 } = false ∧
      gateAdmits (gated 249904) 12 class7 { pk with rxLen := 300 } = true := by
  decide +kernel
/-- Frame 780 begins at 269.968 µs and still fits; frame 781, at 269.9936 µs, does not. -/
theorem test_gate_guard :
    gateAdmits (setPortFree (gated 269870) 12 431948800) 12 class7 { pk with rxLen := 300 } = true ∧
      gateAdmits (setPortFree (gated 269890) 12 431989760) 12 class7 { pk with rxLen := 300 } = false := by
  decide +kernel
theorem test_gate_purge : purgeOf (getGate (gateChange 12 270000 (gated 269904)) 12) 7 = some 269904 := by decide +kernel

/-- The example under R303: meter 5,000 with profile 9. -/
def metered : Dev := { State.reset.dev with drl := { State.reset.dev.drl with
  mprofs := [(9, (BitVec.ofNat 64 (2 * 2 ^ 57 + 3000 * 2 ^ 32 + 1000000), BitVec.ofNat 64 (3000 * 2 ^ 32 + 1000000)))] } }
def meter0 : Meter := ⟨9, 1000 * 2 ^ 24, 3000 * 2 ^ 24, 0⟩

theorem test_meter_green :
    meterColour metered (meterRefill metered 8000 meter0) 0 1500 = (0, ⟨9, 500 * 2 ^ 24, 3000 * 2 ^ 24, 8000⟩) := by decide +kernel
theorem test_meter_yellow :
    meterColour metered (meterRefill metered 8800 ⟨9, 500 * 2 ^ 24, 3000 * 2 ^ 24, 8000⟩) 0 1500
      = (1, ⟨9, 600 * 2 ^ 24, 1500 * 2 ^ 24, 8800⟩) := by
  decide +kernel

/-! Strips: the example under R353. -/

/-- Group 7 of ports 320, 328 and 336, with port 320 in a state. -/
def grouped (st : Nat) : Dev :=
  let d := wr State.reset.dev (Reg.TABLE_DESC 0 1) (mkWord [(Reg.TABLE_DESC_VALID, 1), (Reg.TABLE_DESC_KIND, 5), (Reg.TABLE_DESC_NBLK, 256)])
  let d := wrF (wrFs d Reg.AGG_CFG [(Reg.AGG_CFG_EN, 1), (Reg.AGG_CFG_TABLE, 1)]) (Reg.AGG_GROUP 7) Reg.AGG_GROUP_VALID 1
  let d := [(320, 0xA00, st), (328, 0xA40, 3), (336, 0xA80, 3)].foldl (fun d e =>
    wr (wrFs (wrF d (stateReg e.1) Reg.PORT_STATE_STATE e.2.2) (Reg.AGG_PORT e.1 0) [(Reg.AGG_PORT_VALID, 1), (Reg.AGG_PORT_GROUP, 7)])
      (Reg.AGG_PORT e.1 1) (BitVec.ofNat 64 e.2.1)) d
  groupRewrite (rewriteDue d 7 1)
def element (d : Dev) (i : Nat) : Nat := readUnit d ⟨1, 5, 0, 256, false, 0, false, false, 32, 0, 0⟩ (112 + i)

theorem test_group_three :
    [0, 1, 3].map (element (grouped 3)) = [0x1800000000000A00, 0x1800000000000A40, 0x1800000000000A00] := by decide +kernel
/-- Port 320 in FALLBACK has left the live set. -/
theorem test_group_two : [0, 1].map (element (grouped 5)) = [0x1000000000000A40, 0x1000000000000A80] := by decide +kernel

/-! The deep store: the example under R369. -/

theorem test_deep_place : deepLoc State.reset.dev 0x000246813A00 = ⟨0, 26, 1, 1, 2, 0, 1553, 0⟩ := by decide +kernel
theorem test_deep_rank : rankNo 0 26 1 = 0x69 := by decide

/-! Pair operation: association 900 of the example under R408. -/

def withCkpt : Dev :=
  putEnt { State.reset.dev with pair := { State.reset.dev.pair with peerCkpt := [(900, 314572800, false)] } } 2 900
    (2 ^ 831 + 2 ^ 827 + 40 * 2 ^ 816)

theorem test_adopted_number : bits (rindEnt (adoptSa withCkpt 900).2 2 900) 640 64 = 316669952 := by decide +kernel

/-! Faults: the worked example of chapter 14. -/

def fourFaults : Dev :=
  faultRun [⟨0xA69, 0, 1, 0, 0, 0, 0, false⟩, ⟨0x244, 0, 1, 0, 0, 0, 0, false⟩, ⟨0x47D, 1, 2, 0, 0, 0, 0, false⟩,
    ⟨0xD00, 2, 3, 0, 0, 0, 0, false⟩]
    (wr (wr { State.reset.dev with time := 73000000000 } Reg.FAULT_LOG_PROD 5120) Reg.FAULT_LOG_CONS 5120)

theorem test_first_fault : rd fourFaults Reg.FAULT_FIRST_SRC = 0x83C0B40000000000 := by decide +kernel
/-- SEQ 5,120 to 5,123 hold sources 0xD00, 0x47D, 0x244 and 0xA69; the last three carry SIMULTANEOUS. -/
theorem test_fault_log :
    (List.range 4).map (fun i => ((rd fourFaults (Reg.FAULT_LOG (1024 + i) 3)).toNat, bits (rd fourFaults (Reg.FAULT_LOG (1024 + i) 0)).toNat 38 12,
      bit (rd fourFaults (Reg.FAULT_LOG (1024 + i) 0)).toNat 62))
      = [(5120, 0xD00, false), (5121, 0x47D, true), (5122, 0x244, true), (5123, 0xA69, true)] := by
  decide +kernel
/-- The deadline of the FATAL entry is 100 µs away. -/
theorem test_fault_deadline : deadline fourFaults 0 = 73000100000 := by decide +kernel

/-! Power: the example under R467. -/

def heldUp (uf : Nat) : Dev :=
  holdupEvaluate 12000 (wrFs (wrF State.reset.dev Reg.AON_LB_STATUS Reg.AON_LB_STATUS_ERASED 1) Reg.AON_HOLDUP_CFG
    [(Reg.AON_HOLDUP_CFG_ARM_EN, 1), (Reg.AON_HOLDUP_CFG_CAP_UF, uf), (Reg.AON_HOLDUP_CFG_MIN_MV, 9000), (Reg.AON_HOLDUP_CFG_PF_MV, 10500)])

theorem test_holdup_arms : armed (heldUp 15000) = true ∧ rdF (heldUp 15000) Reg.AON_HOLDUP_STATUS Reg.AON_HOLDUP_STATUS_E_MJ = 1080 := by
  decide +kernel
theorem test_holdup_disarms : armed (heldUp 4000) = false := by decide +kernel

/-! The host: the example under R490. -/

def injected : Dev := wr (wr State.reset.dev (Reg.INJ_RING 3 7) 0x1000000000) (Reg.INJ_RING 3 8) 0x1040000000
def sixteen (f : Nat → Nat) : List (W64 × W64) := (List.range 16).map fun k => (BitVec.ofNat 64 (f k), 96)

theorem test_inject_range :
    injFail injected 3 false 15 (sixteen fun k => if k = 9 then 0x2000000000 else 0x1000002DC0 + 0x60 * k) = some (9, 1) := by
  decide +kernel
theorem test_inject_align :
    injFail injected 3 false 15 (sixteen fun k => if k = 9 then 0x2000000000 else if k = 5 then 0x1000002FC0 else 0x1000002DC0 + 0x60 * k)
      = some (5, 2) := by
  decide +kernel

/-! Pins: the example under R519. -/

def pinned : Dev :=
  (pinFeatWrite State.reset.dev (mkWord [(Reg.PIN_FEAT_LB_BUSY, 1), (Reg.PIN_FEAT_PPS_OUT, 1), (Reg.PIN_FEAT_CLKOBS, 1),
    (Reg.PIN_FEAT_ALARM_OUT, 1)])).getD State.reset.dev

theorem test_pin_conflict : rd pinned Reg.GLOBAL_CONFLICT = 0xC000000263610020 := by decide +kernel
theorem test_pin_drivers : rd pinned Reg.PIN_STATUS = 0x0501 := by decide +kernel

end Sys2Proof.Tests
end

