-- ==== Sys2Proof/Tests/Witness1.lean ====
section
/-!
SUPPORT. Witnesses, part 1: for each clause of O1 to O30 that has hypotheses, a state and operands that meet all of
them together. `wit_<Name>_<k>` is clause k, counted from 0, of the obligation of that name.
-/
namespace Sys2Proof.Tests
open Sys2Proof Sys2Proof.Machine
set_option Elab.async false
set_option maxRecDepth 10000
set_option linter.unusedVariables false

/-! O1, ComparatorConditions. -/

theorem wit_ComparatorConditions_0 :
    ∃ (s : State), condPresent s.dev Fk.xtalFail 4 = false :=
  ⟨State.reset, (by decide +kernel)⟩

theorem wit_ComparatorConditions_1 :
    ∃ (s : State), condPresent s.dev Fk.xtalFail 4 = true ∧ bit (rdF s.dev Reg.AON_COMP_CFG Reg.AON_COMP_CFG_WAKE_MASK) 4 = false :=
  ⟨onDev fun d => { d with flt := { d.flt with present := spPut (fun _ => 0) d.flt.present ((256 * Fk.xtalFail.cls + 4) * 256 + Fk.xtalFail.kind) 1 } }, (by decide +kernel), (by decide +kernel)⟩

theorem wit_ComparatorConditions_2 :
    ∃ (s : State), condPresent s.dev Fk.ppsLost 3 = false :=
  ⟨State.reset, (by decide +kernel)⟩

theorem wit_ComparatorConditions_3 :
    ∃ (s : State), condPresent s.dev Fk.supplyWindow 0 = false :=
  ⟨State.reset, (by decide +kernel)⟩

theorem wit_ComparatorConditions_4 :
    ∃ (s : State), condPresent s.dev Fk.supplyWindow 0 = true ∧ bit (rdF s.dev Reg.AON_COMP_CFG Reg.AON_COMP_CFG_WAKE_MASK) 0 = false :=
  ⟨onDev fun d => { d with flt := { d.flt with present := spPut (fun _ => 0) d.flt.present ((256 * Fk.supplyWindow.cls + 0) * 256 + Fk.supplyWindow.kind) 1 } }, (by decide +kernel), (by decide +kernel)⟩

theorem wit_ComparatorConditions_5 :
    ∃ (s : State) (t0 : Int) (t1 : Int), flagF s.dev Reg.FAULT_INJECT Reg.FAULT_INJECT_PENDING = false ∧ s.dev.rst.temp = some t0 ∧
      -40 ≤ t1 ∧ t1 ≤ 150 ∧ (rdF s.dev Reg.AON_COMP_CFG Reg.AON_COMP_CFG_HIGH_C : Int) < t0 ∧
      (rdF s.dev Reg.AON_COMP_CFG Reg.AON_COMP_CFG_HIGH_C : Int) < t1 ∧ t1 ≤ rdF s.dev Reg.AON_COMP_CFG Reg.AON_COMP_CFG_CRIT_C ∧
      condPresent s.dev Fk.dieTempHigh 1 = false ∧ condPresent s.dev Fk.dieTempCrit 1 = false :=
  ⟨onDev fun d => { wrFs d Reg.AON_COMP_CFG [(Reg.AON_COMP_CFG_HIGH_C, 80), (Reg.AON_COMP_CFG_CRIT_C, 100)] with rst := { d.rst with temp := some 81 } }, 81, 100, (by decide +kernel), (by decide +kernel), (by decide +kernel), (by decide +kernel), (by decide +kernel), (by decide +kernel), (by decide +kernel), (by decide +kernel), (by decide +kernel)⟩

/-! O2, ReferencesAndTime. -/

theorem wit_ReferencesAndTime_0 :
    ∃ (s : State) (b : Bool), (if b then s.dev.rst.refA else s.dev.rst.refB) = true :=
  ⟨State.reset, true, (by decide +kernel)⟩

theorem wit_ReferencesAndTime_1 :
    ∃ (s : State) (b : Bool), (if b then s.dev.rst.refA else s.dev.rst.refB) = false :=
  ⟨onDev fun d => { d with rst := { d.rst with refB := false } }, false, (by decide +kernel)⟩

theorem wit_ReferencesAndTime_2 :
    ∃ (s : State) (b : Bool), ((s.dev.rst.refA = true ∨ s.dev.rst.refB = true)) :=
  ⟨State.reset, false, (by decide +kernel)⟩

theorem wit_ReferencesAndTime_3 :
    ∃ (s : State), flagF s.dev Reg.AON_DISC_STATUS Reg.AON_DISC_STATUS_REF_PRESENT = true :=
  ⟨onDev fun d => wrF d Reg.AON_DISC_STATUS Reg.AON_DISC_STATUS_REF_PRESENT 1, (by decide +kernel)⟩

theorem wit_ReferencesAndTime_5 :
    ∃ (s : State), ((∀ x, s.dev.rst.ppsAt = some x → 999900000 ≤ (s.dev.time : Int) - x ∧ (s.dev.time : Int) - x ≤ 1000100000)) ∧
      condPresent s.dev Fk.ppsLost 3 = false :=
  ⟨onDev fun d => { d with time := 2000000000, rst := { d.rst with ppsAt := none } }, (by intro x h; cases h), (by decide +kernel)⟩

theorem wit_ReferencesAndTime_6 :
    ∃ (s : State) (x : Int), s.dev.rst.ppsAt = some x ∧ (s.dev.time : Int) - x < 999900000 :=
  ⟨onDev fun d => { d with time := 999900000, rst := { d.rst with ppsAt := some 1 } }, 1, (by decide +kernel), (by decide +kernel)⟩

theorem wit_ReferencesAndTime_7 :
    ∃ (s : State) (agent : Nat) (v : W64), WriteReaches s.dev agent Reg.AON_TIME_SET v ∧ FieldsInRange Reg.AON_TIME_SET v ∧
      anyHoldingOpen s.dev = false :=
  ⟨State.reset, 1, 0xFFFFFFFFFFFF, reaches_ok (by decide +kernel), (by rfl), (by decide +kernel)⟩

theorem wit_ReferencesAndTime_8 :
    ∃ (s : State), s.dev.rst.fallow = false :=
  ⟨State.reset, (by decide +kernel)⟩

theorem wit_ReferencesAndTime_10 :
    ∃ (s : State) (c : Instr), c ∈ ([.resetN, .warmN, .warmRelease, .spWatchdog] : List Instr) :=
  ⟨State.reset, .spWatchdog, (by decide +kernel)⟩

theorem wit_ReferencesAndTime_12 :
    ∃ (s : State), s.pending = [] :=
  ⟨State.reset, (by decide +kernel)⟩

/-! O3, DeviceResets. -/

theorem wit_DeviceResets_0 :
    ∃ (s : State), s.wf = true :=
  ⟨State.reset, (by decide +kernel)⟩

theorem wit_DeviceResets_1 :
    ∃ (s : State), s.wf = true ∧ ((ctlReset s.dev = false ∨ s.dev.rst.fallow = true)) :=
  ⟨State.reset, (by decide +kernel), (by decide +kernel)⟩

theorem wit_DeviceResets_2 :
    ∃ (s : State), s.wf = true ∧ devReset s.dev = false :=
  ⟨State.reset, (by decide +kernel), (by decide +kernel)⟩

theorem wit_DeviceResets_3 :
    ∃ (s : State), devReset s.dev = true :=
  ⟨onDev fun d => { d with rst := { d.rst with held := 0xFFFF } }, (by decide +kernel)⟩

theorem wit_DeviceResets_4 :
    ∃ (s : State) (agent : Nat), WriteReaches s.dev agent Reg.RSTC_CTRL (setF (setF 0 Reg.RSTC_CTRL_WARM 1) Reg.RSTC_CTRL_KEY 0xA5) :=
  ⟨State.reset, 1, reaches_ok (by decide +kernel)⟩

theorem wit_DeviceResets_5 :
    ∃ (s : State), ctlReset s.dev = false ∧ devReset s.dev = false :=
  ⟨State.reset, (by decide +kernel), (by decide +kernel)⟩

theorem wit_DeviceResets_6 :
    ∃ (s : State), s.dev.rst.warm = true :=
  ⟨onDev fun d => { d with rst := { d.rst with warm := true, held := 2 } }, (by decide +kernel)⟩

/-! O4, PartialResets. -/

theorem wit_PartialResets_0 :
    ∃ (s : State) (agent : Nat) (n : Nat), n < stripCount s.dev ∧ devReset s.dev = false ∧
      bit (partF s.dev Reg.RSTC_PARTIAL_STATUS_STRIP_BUSY) n = false ∧
      WriteReaches s.dev agent Reg.RSTC_PARTIAL (setF 0 Reg.RSTC_PARTIAL_STRIP_RESET (2 ^ n)) :=
  ⟨State.reset, 1, 7, (by decide +kernel), (by decide +kernel), (by decide +kernel), reaches_ok (by decide +kernel)⟩

theorem wit_PartialResets_1 :
    ∃ (s : State) (agent : Nat) (n : Nat), n < stripCount s.dev ∧ devReset s.dev = false ∧
      bit (partF s.dev Reg.RSTC_PARTIAL_STATUS_STRIP_BUSY) n = false ∧
      WriteReaches s.dev agent Reg.RSTC_PARTIAL (setF 0 Reg.RSTC_PARTIAL_STRIP_HOLD (2 ^ n)) :=
  ⟨State.reset, 1, 7, (by decide +kernel), (by decide +kernel), (by decide +kernel), reaches_ok (by decide +kernel)⟩

theorem wit_PartialResets_2 :
    ∃ (s : State) (agent : Nat) (n : Nat), n < acreCount s.dev ∧ devReset s.dev = false ∧
      bit (partF s.dev Reg.RSTC_PARTIAL_STATUS_ACRE_BUSY) n = false ∧
      WriteReaches s.dev agent Reg.RSTC_PARTIAL (setF 0 Reg.RSTC_PARTIAL_ACRE_RESET (2 ^ n)) :=
  ⟨State.reset, 1, 3, (by decide +kernel), (by decide +kernel), (by decide +kernel), reaches_ok (by decide +kernel)⟩

theorem wit_PartialResets_3 :
    ∃ (s : State) (agent : Nat) (n : Nat), n < acreCount s.dev ∧ devReset s.dev = false ∧
      bit (partF s.dev Reg.RSTC_PARTIAL_STATUS_ACRE_BUSY) n = false ∧
      WriteReaches s.dev agent Reg.RSTC_PARTIAL (setF 0 Reg.RSTC_PARTIAL_ACRE_HOLD (2 ^ n)) :=
  ⟨State.reset, 1, 3, (by decide +kernel), (by decide +kernel), (by decide +kernel), reaches_ok (by decide +kernel)⟩

theorem wit_PartialResets_4 :
    ∃ (s : State) (agent : Nat) (n : Nat), n < stripCount s.dev ∧ bit (partF s.dev Reg.RSTC_PARTIAL_STATUS_STRIP_HELD) n = true ∧
      WriteReaches s.dev agent Reg.RSTC_PARTIAL (setF 0 Reg.RSTC_PARTIAL_STRIP_RELEASE (2 ^ n)) ∧
      bit (partF s.dev Reg.RSTC_PARTIAL_STATUS_STRIP_BUSY) n = true :=
  ⟨onDev fun d => wrFs d Reg.RSTC_PARTIAL_STATUS [(Reg.RSTC_PARTIAL_STATUS_STRIP_HELD, 128), (Reg.RSTC_PARTIAL_STATUS_STRIP_BUSY,
    128)], 1, 7, (by decide +kernel), (by decide +kernel), reaches_ok (by decide +kernel), (by decide +kernel)⟩

theorem wit_PartialResets_5 :
    ∃ (s : State) (agent : Nat) (n : Nat), n < acreCount s.dev ∧ bit (partF s.dev Reg.RSTC_PARTIAL_STATUS_ACRE_HELD) n = true ∧
      WriteReaches s.dev agent Reg.RSTC_PARTIAL (setF 0 Reg.RSTC_PARTIAL_ACRE_RELEASE (2 ^ n)) ∧
      bit (partF s.dev Reg.RSTC_PARTIAL_STATUS_ACRE_BUSY) n = false :=
  ⟨onDev fun d => wrF d Reg.RSTC_PARTIAL_STATUS Reg.RSTC_PARTIAL_STATUS_ACRE_HELD 8, 1, 3, (by decide +kernel), (by decide +kernel),
    reaches_ok (by decide +kernel), (by decide +kernel)⟩

theorem wit_PartialResets_6 :
    ∃ (s : State) (i : Nat), bit (partF s.dev Reg.RSTC_PARTIAL_STATUS_ACRE_BUSY) i = true ∧ bit s.dev.rst.autoAcres i = false :=
  ⟨onDev fun d => wrF d Reg.RSTC_PARTIAL_STATUS Reg.RSTC_PARTIAL_STATUS_ACRE_BUSY 8, 3, (by decide +kernel), (by decide +kernel)⟩

theorem wit_PartialResets_7 :
    ∃ (s : State) (i : Nat), bit (partF s.dev Reg.RSTC_PARTIAL_STATUS_STRIP_BUSY) i = true ∧ bit s.dev.rst.autoStrips i = false :=
  ⟨onDev fun d => wrF d Reg.RSTC_PARTIAL_STATUS Reg.RSTC_PARTIAL_STATUS_STRIP_BUSY 128, 7, (by decide +kernel), (by decide +kernel)⟩

/-! O5, PowerUpSequence. -/

theorem wit_PowerUpSequence_0 :
    ∃ (s : State), ctlReset s.dev = true ∧ s.dev.rst.fallow = false ∧ s.dev.rst.refA = true ∧
      condPresent s.dev Fk.supplyWindow 0 = false :=
  ⟨onDev fun d => { d with rst := { d.rst with held := 0xFFFF } }, (by decide +kernel), (by decide +kernel), (by decide +kernel),
    (by decide +kernel)⟩

theorem wit_PowerUpSequence_1 :
    ∃ (s : State) (slot : Nat), ctlReset s.dev = false ∧ rdF s.dev Reg.BOOT_STATUS Reg.BOOT_STATUS_STAGE = 1 ∧
      slot = (if imageCheck s.dev (slotImage s.mem 0) = 0 then 0 else if imageCheck s.dev (slotImage s.mem 1) = 0 then 1 else 2) :=
  ⟨onDev fun d => wrF d Reg.BOOT_STATUS Reg.BOOT_STATUS_STAGE 1,
    (if imageCheck (onDev fun d => wrF d Reg.BOOT_STATUS Reg.BOOT_STATUS_STAGE 1).dev (slotImage (onDev fun d => wrF d Reg.BOOT_STATUS Reg.BOOT_STATUS_STAGE 1).mem 0) = 0 then 0 else if imageCheck (onDev fun d => wrF d Reg.BOOT_STATUS Reg.BOOT_STATUS_STAGE 1).dev (slotImage (onDev fun d => wrF d Reg.BOOT_STATUS Reg.BOOT_STATUS_STAGE 1).mem 1) = 0 then 1 else 2), (by decide +kernel), (by decide +kernel), rfl⟩

theorem wit_PowerUpSequence_2 :
    ∃ (s : State), ctlReset s.dev = false ∧ devReset s.dev = true ∧ s.dev.rst.warm = false ∧
      rdF s.dev Reg.BOOT_STATUS Reg.BOOT_STATUS_STAGE = 3 :=
  ⟨onDev fun d => { wrF d Reg.BOOT_STATUS Reg.BOOT_STATUS_STAGE 3 with rst := { d.rst with held := 0xFFFE } }, (by decide +kernel),
    (by decide +kernel), (by decide +kernel), (by decide +kernel)⟩

theorem wit_PowerUpSequence_3 :
    ∃ (s : State), rdF s.dev Reg.BOOT_STATUS Reg.BOOT_STATUS_STAGE ≠ 3 :=
  ⟨onDev fun d => wrF d Reg.BOOT_STATUS Reg.BOOT_STATUS_STAGE 4, (by decide +kernel)⟩

theorem wit_PowerUpSequence_4 :
    ∃ (s : State) (r : List Byte), s.dev.rst.cfgDue = true ∧ devReset s.dev = false ∧ imgNat s.dev.rst.copy 0x18 4 = 1 ∧
      r = ((imgBody s.dev.rst.copy).drop (imgNat s.dev.rst.copy 0x14 4)).take 16 ∧
      (regWriteR s.mem { s.dev with rst := { s.dev.rst with cfgDue := false } } 2 (leNat (r.take 8)) (BitVec.ofNat 64 (leNat (r.drop 8)))).1 ≠ 1 :=
  ⟨onDev fun d => { d with rst := { d.rst with cfgDue := true, copy := List.replicate 0x18 0 ++ [1] ++ List.replicate 200 0 } },
    ((imgBody (onDev fun d => { d with rst := { d.rst with cfgDue := true, copy := List.replicate 0x18 0 ++ [1] ++ List.replicate 200 0 } }).dev.rst.copy).drop (imgNat (onDev fun d => { d with rst := { d.rst with cfgDue := true, copy := List.replicate 0x18 0 ++ [1] ++ List.replicate 200 0 } }).dev.rst.copy 0x14 4)).take 16, (by decide +kernel), (by decide +kernel), (by decide +kernel), rfl, (by decide +kernel)⟩

theorem wit_PowerUpSequence_5 :
    ∃ (s : State), devReset s.dev = false ∧ s.dev.strip.enginesOn = false :=
  ⟨onDev fun d => { d with strip := { d.strip with enginesOn := false } }, (by decide +kernel), (by decide +kernel)⟩

/-! O6, FallowAndWatchdog. -/

theorem wit_FallowAndWatchdog_0 :
    ∃ (s : State) (agent : Nat), s.dev.rst.fallow = false ∧
      WriteReaches s.dev agent Reg.AON_FALLOW (setF (setF 0 Reg.AON_FALLOW_ENTER 1) Reg.AON_FALLOW_KEY 0xA5) :=
  ⟨State.reset, 1, (by decide +kernel), reaches_ok (by decide +kernel)⟩

theorem wit_FallowAndWatchdog_1 :
    ∃ (s : State) (n : Nat), s.dev.rst.fallow = true ∧ bit (rdF s.dev Reg.AON_WAKE Reg.AON_WAKE_ENABLE) n = true :=
  ⟨onDev fun d => { wrF d Reg.AON_WAKE Reg.AON_WAKE_ENABLE 4 with rst := { d.rst with fallow := true, held := 0xFFFF } }, 2,
    (by decide +kernel), (by decide +kernel)⟩

theorem wit_FallowAndWatchdog_2 :
    ∃ (s : State) (n : Nat), bit (rdF s.dev Reg.AON_WAKE Reg.AON_WAKE_ENABLE) n = false :=
  ⟨onDev fun d => wrF d Reg.AON_WAKE Reg.AON_WAKE_ENABLE 3, 2, (by decide +kernel)⟩

theorem wit_FallowAndWatchdog_3 :
    ∃ (s : State) (v : W64), WriteReaches s.dev 2 Reg.SP_WD (setF v Reg.SP_WD_KICK 1) ∧
      FieldsInRange Reg.SP_WD (setF v Reg.SP_WD_KICK 1) ∧ flagF s.dev Reg.FAULT_INJECT Reg.FAULT_INJECT_PENDING = false :=
  ⟨State.reset, 0x1F4, reaches_ok (by decide +kernel), (by rfl), (by decide +kernel)⟩

theorem wit_FallowAndWatchdog_4 :
    ∃ (s : State) (agent : Nat) (v : W64), agent ≠ 2 ∧ ctlReset s.dev = false ∧
      flagF s.dev Reg.FAULT_INJECT Reg.FAULT_INJECT_PENDING = false :=
  ⟨State.reset, 1, 1, (by decide +kernel), (by decide +kernel), (by decide +kernel)⟩

/-! O7, LastBreath. -/

theorem wit_LastBreath_0 :
    ∃ (s : State) (mv : Nat), flagF s.dev Reg.FAULT_INJECT Reg.FAULT_INJECT_PENDING = false ∧ mv ≤ 60000 :=
  ⟨onDev fun d => wrF (wrFs d Reg.AON_HOLDUP_CFG [(Reg.AON_HOLDUP_CFG_ARM_EN, 1), (Reg.AON_HOLDUP_CFG_MIN_MV, 9000),
    (Reg.AON_HOLDUP_CFG_CAP_UF, 10000)]) Reg.AON_LB_STATUS Reg.AON_LB_STATUS_ERASED 1, 60000, (by decide +kernel), (by decide +kernel)⟩

theorem wit_LastBreath_1 :
    ∃ (s : State), s.dev.rst.fallow = false ∧ ctlReset s.dev = false ∧ s.dev.rst.lb = none :=
  ⟨State.reset, (by decide +kernel), (by decide +kernel), (by decide +kernel)⟩

theorem wit_LastBreath_2 :
    ∃ (s : State) (agent : Nat) (k : Nat), k < 2 ∧
      WriteReaches s.dev agent Reg.AON_LB_CTRL (setF (setF 0 Reg.AON_LB_CTRL_VERIFY 1) Reg.AON_LB_CTRL_SLOT k) ∧ ((∀ i,
      i < 0x4000 → memGet spFlash s.mem.flash (lbSlot s.dev k + i) = 0xFF)) ∧ s.wf = true :=
  ⟨State.reset, 1, 1, (by decide +kernel), reaches_ok (by decide +kernel), (by intro i _; rfl), (by decide +kernel)⟩

theorem wit_LastBreath_3 :
    ∃ (s : State) (mv : Nat) (k : Nat), mv < rdF s.dev Reg.AON_HOLDUP_CFG Reg.AON_HOLDUP_CFG_PF_MV ∧ armed s.dev = true ∧
      s.dev.rst.lb = none ∧ s.dev.rst.fallow = false ∧ bit (rdF s.dev Reg.AON_LB_STATUS Reg.AON_LB_STATUS_ERASED) k = true ∧ k < 2 :=
  ⟨onDev fun d => wrFs (wrFs (wrFs d Reg.AON_HOLDUP_STATUS [(Reg.AON_HOLDUP_STATUS_ARMED, 1), (Reg.AON_HOLDUP_STATUS_V_MV,
    12000)]) Reg.AON_HOLDUP_CFG [(Reg.AON_HOLDUP_CFG_PF_MV, 8000), (Reg.AON_HOLDUP_CFG_ARM_EN, 1), (Reg.AON_HOLDUP_CFG_MIN_MV, 9000),
    (Reg.AON_HOLDUP_CFG_CAP_UF, 10000)]) Reg.AON_LB_STATUS [(Reg.AON_LB_STATUS_ERASED, 2)], 7999, 1, (by decide +kernel),
    (by decide +kernel), (by decide +kernel), (by decide +kernel), (by decide +kernel), (by decide +kernel)⟩

theorem wit_LastBreath_4 :
    ∃ (s : State) (agent : Nat), WriteReaches s.dev agent Reg.AON_LB_CTRL (setF 0 Reg.AON_LB_CTRL_TEST 1) :=
  ⟨State.reset, 1, reaches_ok (by decide +kernel)⟩

theorem wit_LastBreath_5 :
    ∃ (s : State) (k : Nat) (bs : List Byte), s.dev.writes = [] ∧ s.dev.rst.lb = some (k, bs) ∧ bs.length = 0x4000 :=
  ⟨onDev fun d => { d with rst := { d.rst with lb := some (1, List.replicate 0x4000 1) } }, 1, List.replicate 0x4000 1,
    (by decide +kernel), (by decide +kernel), List.length_replicate⟩

/-! O8, FaultHandling. -/

theorem wit_FaultHandling_0 :
    ∃ (s : State) (seg : Nat) (m : FaultMsg) (rest : List FaultMsg), s.dev.flt.pending = m :: rest ∧
      flagF s.dev Reg.FAULT_INJECT Reg.FAULT_INJECT_PENDING = false :=
  ⟨onDev fun d => raise d Fk.hang 0 0 0 0, 0, ⟨512, 3, 3, 0, 0, 0, 0, false⟩, [], (by decide +kernel), (by decide +kernel)⟩

theorem wit_FaultHandling_1 :
    ∃ (s : State) (e : Nat), e < 256 ∧ devReset s.dev = false ∧ actValid s.dev e = true ∧ deadline s.dev e ≠ 0 ∧
      act s.dev e Reg.FAULT_ACTIVE_STEP = 3 ∧ bit (rdF s.dev Reg.FAULT_LADDER Reg.FAULT_LADDER_STEPS) 3 = true :=
  ⟨onDev fun d => wrFs (wrF (wrF d Reg.FAULT_LADDER Reg.FAULT_LADDER_STEPS 8) (Reg.FAULT_ACTIVE 255 3) Reg.FAULT_ACTIVE_DEADLINE 7) (Reg.FAULT_ACTIVE 255 0) [(Reg.FAULT_ACTIVE_VALID, 1), (Reg.FAULT_ACTIVE_STEP, 3), (Reg.FAULT_ACTIVE_SOURCE, 512)], 255, (by decide +kernel), (by decide +kernel), (by decide +kernel), (by decide +kernel), (by decide +kernel), (by decide +kernel)⟩

theorem wit_FaultHandling_3 :
    ∃ (s : State) (agent : Nat) (e : Nat), e < 256 ∧ actValid s.dev e = true ∧
      WriteReaches s.dev agent Reg.FAULT_CLEAR (setF (setF 0 Reg.FAULT_CLEAR_ENTRY e) Reg.FAULT_CLEAR_ONE 1) :=
  ⟨onDev fun d => wrFs (wrF d (Reg.FAULT_ACTIVE 255 3) Reg.FAULT_ACTIVE_DEADLINE 7) (Reg.FAULT_ACTIVE 255 0) [(Reg.FAULT_ACTIVE_VALID,
    1), (Reg.FAULT_ACTIVE_STEP, 3), (Reg.FAULT_ACTIVE_SOURCE, 512)], 1, 255, (by decide +kernel), (by decide +kernel),
    reaches_ok (by decide +kernel)⟩

theorem wit_FaultHandling_4 :
    ∃ (s : State) (agent : Nat) (e : Nat), e < 256 ∧ actValid s.dev e = true ∧
      WriteReaches s.dev agent Reg.FAULT_CLEAR (setF 0 Reg.FAULT_CLEAR_ALL 1) :=
  ⟨onDev fun d => wrFs (wrF d (Reg.FAULT_ACTIVE 255 3) Reg.FAULT_ACTIVE_DEADLINE 7) (Reg.FAULT_ACTIVE 255 0) [(Reg.FAULT_ACTIVE_VALID,
    1), (Reg.FAULT_ACTIVE_STEP, 3), (Reg.FAULT_ACTIVE_SOURCE, 512)], 1, 255, (by decide +kernel), (by decide +kernel),
    reaches_ok (by decide +kernel)⟩

theorem wit_FaultHandling_5 :
    ∃ (s : State) (agent : Nat), WriteReaches s.dev agent Reg.FAULT_CLEAR (setF 0 Reg.FAULT_CLEAR_FIRST 1) :=
  ⟨State.reset, 1, reaches_ok (by decide +kernel)⟩

theorem wit_FaultHandling_6 :
    ∃ (s : State) (agent : Nat) (v : W64), WriteReaches s.dev agent Reg.FAULT_PIN (setF v Reg.FAULT_PIN_TEST 1) ∧
      FieldsInRange Reg.FAULT_PIN (setF v Reg.FAULT_PIN_TEST 1) ∧ flagF s.dev Reg.FAULT_PIN Reg.FAULT_PIN_LOCKED = false :=
  ⟨State.reset, 1, 0x3E80000, reaches_ok (by decide +kernel), (by rfl), (by decide +kernel)⟩

theorem wit_FaultHandling_7 :
    ∃ (s : State) (agent : Nat) (v : W64), WriteReaches s.dev agent Reg.FAULT_INJECT (setF v Reg.FAULT_INJECT_ARM 1) ∧
      FieldsInRange Reg.FAULT_INJECT (setF v Reg.FAULT_INJECT_ARM 1) ∧ flagF s.dev Reg.FAULT_CFG Reg.FAULT_CFG_INJ_EN = true ∧
      sourceExists s.dev (getF v Reg.FAULT_INJECT_SOURCE) = true ∧ getF v Reg.FAULT_INJECT_DISARM = 0 ∧
      checkerAt (getF v Reg.FAULT_INJECT_CHECKER) (getF v Reg.FAULT_INJECT_SOURCE) = true ∧
      bitsOk (getF v Reg.FAULT_INJECT_CHECKER) (getF v Reg.FAULT_INJECT_BITS) = true :=
  ⟨onDev fun d => wrF d Reg.FAULT_CFG Reg.FAULT_CFG_INJ_EN 1, 1,
    setF (setF (setF 0 Reg.FAULT_INJECT_SOURCE 512) Reg.FAULT_INJECT_CHECKER 7) Reg.FAULT_INJECT_BITS 1,
    reaches_ok (by decide +kernel), (by rfl), (by decide +kernel), (by decide +kernel), (by decide +kernel), (by decide +kernel),
    (by decide +kernel)⟩

theorem wit_FaultHandling_8 :
    ∃ (s : State) (agent : Nat), WriteReaches s.dev agent Reg.FAULT_INJECT (setF 0 Reg.FAULT_INJECT_DISARM 1) :=
  ⟨State.reset, 1, reaches_ok (by decide +kernel)⟩

/-! O9, SharedPins. -/

theorem wit_SharedPins_0 :
    ∃ (s : State) (agent : Nat) (v : W64), WriteReaches s.dev agent Reg.PIN_FEAT v ∧ FieldsInRange Reg.PIN_FEAT v ∧
      sourceExists s.dev (getF v Reg.PIN_FEAT_OBS_ISLAND) = true ∧
      ((pinConflicts v.toNat).all fun c => (pinConflicts (rd s.dev Reg.PIN_FEAT).toNat).contains c) = true :=
  ⟨State.reset, 1, 0x100, reaches_ok (by decide +kernel), (by rfl), (by decide +kernel), (by decide +kernel)⟩

/-! O10, PairSignsOfLife. -/

theorem wit_PairSignsOfLife_0 :
    ∃ (s : State), ctlReset s.dev = false :=
  ⟨State.reset, (by decide +kernel)⟩

theorem wit_PairSignsOfLife_1 :
    ∃ (s : State), ctlReset s.dev = false ∧ linkUp s.dev = true :=
  ⟨onDev fun d => wrF d Reg.PAIR_STATUS Reg.PAIR_STATUS_LINK_STATE 2, (by decide +kernel), (by decide +kernel)⟩

theorem wit_PairSignsOfLife_2 :
    ∃ (s : State), pairHeld s.dev = false :=
  ⟨State.reset, (by decide +kernel)⟩

theorem wit_PairSignsOfLife_3 :
    ∃ (s : State) (ack : Nat), pairHeld s.dev = false ∧ journalOn s.dev = false :=
  ⟨State.reset, 5, (by decide +kernel), (by decide +kernel)⟩

theorem wit_PairSignsOfLife_4 :
    ∃ (s : State), pairHeld s.dev = false ∧ linkUp s.dev = true ∧ flagF s.dev Reg.FAULT_INJECT Reg.FAULT_INJECT_PENDING = false :=
  ⟨onDev fun d => wrF d Reg.PAIR_STATUS Reg.PAIR_STATUS_LINK_STATE 2, (by decide +kernel), (by decide +kernel), (by decide +kernel)⟩

theorem wit_PairSignsOfLife_5 :
    ∃ (s : State), pairHeld s.dev = false ∧ rdF s.dev Reg.PAIR_ROLE Reg.PAIR_ROLE_MODE = 1 ∧ pairState s.dev ≠ 0 ∧
      pairState s.dev ≠ 6 ∧ s.dev.pair.aliveStop = false :=
  ⟨onDev fun d => wrF (wrF d Reg.PAIR_STATUS Reg.PAIR_STATUS_STATE 1) Reg.PAIR_ROLE Reg.PAIR_ROLE_MODE 1, (by decide +kernel),
    (by decide +kernel), (by decide +kernel), (by decide +kernel), (by decide +kernel)⟩

theorem wit_PairSignsOfLife_6 :
    ∃ (s : State), (pairHeld s.dev = true ∨ pairState s.dev = 0 ∨ pairState s.dev = 6) :=
  ⟨State.reset, (by decide +kernel)⟩

theorem wit_PairSignsOfLife_7 :
    ∃ (s : State) (x : Nat), pairHeld s.dev = false ∧ s.dev.pair.beatAt = some x ∧ s.dev.time < x + 500 :=
  ⟨onDev fun d => { d with time := 500, pair := { d.pair with beatAt := some 1 } }, 1, (by decide +kernel), (by decide +kernel),
    (by decide +kernel)⟩

theorem wit_PairSignsOfLife_8 :
    ∃ (s : State), pairHeld s.dev = false ∧ ((∀ x, s.dev.pair.beatAt = some x → x + 500 ≤ s.dev.time)) :=
  ⟨onDev fun d => { wrFs d Reg.PAIR_STATUS [(Reg.PAIR_STATUS_STATE, 4), (Reg.PAIR_STATUS_FRAMES_SEEN, 1)] with time := 500, pair := { d.pair with beatAt := some 0 } }, (by decide +kernel), (by intro x h; cases h; decide +kernel)⟩

theorem wit_PairSignsOfLife_9 :
    ∃ (s : State), pairHeld s.dev = false ∧ pairState s.dev = 3 ∧ pairF s.dev Reg.PAIR_STATUS_FRAMES_SEEN = 1 :=
  ⟨onDev fun d => wrFs d Reg.PAIR_STATUS [(Reg.PAIR_STATUS_STATE, 3), (Reg.PAIR_STATUS_FRAMES_SEEN, 1)], (by decide +kernel),
    (by decide +kernel), (by decide +kernel)⟩

theorem wit_PairSignsOfLife_10 :
    ∃ (s : State), pairHeld s.dev = false ∧ pairState s.dev = 3 ∧ pairF s.dev Reg.PAIR_STATUS_BEAT_SEEN = 1 :=
  ⟨onDev fun d => wrFs d Reg.PAIR_STATUS [(Reg.PAIR_STATUS_STATE, 3), (Reg.PAIR_STATUS_BEAT_SEEN, 1)], (by decide +kernel),
    (by decide +kernel), (by decide +kernel)⟩

/-! O11, Takeover. -/

theorem wit_Takeover_0 :
    ∃ (s : State), pairHeld s.dev = false ∧ journalOn s.dev = true ∧ pairF s.dev Reg.PAIR_STATUS_FRAMES_SEEN = 0 :=
  ⟨onDev fun d => wrF d Reg.PAIR_STATUS Reg.PAIR_STATUS_STATE 3, (by decide +kernel), (by decide +kernel), (by decide +kernel)⟩

theorem wit_Takeover_1 :
    ∃ (s : State), pairHeld s.dev = false ∧ journalOn s.dev = true ∧ pairF s.dev Reg.PAIR_STATUS_BEAT_SEEN = 0 :=
  ⟨onDev fun d => wrF d Reg.PAIR_STATUS Reg.PAIR_STATUS_STATE 3, (by decide +kernel), (by decide +kernel), (by decide +kernel)⟩

theorem wit_Takeover_2 :
    ∃ (s : State) (agent : Nat), pairState s.dev = 4 ∧ WriteReaches s.dev agent Reg.PAIR_CTRL (setF 0 Reg.PAIR_CTRL_CONFIRM_LOST 1) :=
  ⟨onDev fun d => wrF d Reg.PAIR_STATUS Reg.PAIR_STATUS_STATE 4, 1, (by decide +kernel), reaches_ok (by decide +kernel)⟩

theorem wit_Takeover_3 :
    ∃ (s : State) (ack : Nat), pairHeld s.dev = false ∧ journalOn (frameAccept ack s.dev) = true :=
  ⟨onDev fun d => wrF d Reg.PAIR_STATUS Reg.PAIR_STATUS_STATE 3, 1, (by decide +kernel), (by decide +kernel)⟩

/-! O12, Journal. -/

theorem wit_Journal_0 :
    ∃ (s : State) (ack : Nat), pairHeld s.dev = false ∧ journalOn s.dev = true ∧ s.dev.pair.ckptWait = [] ∧ s.dev.pair.syncQ = [] :=
  ⟨onDev fun d => wrF d Reg.PAIR_STATUS Reg.PAIR_STATUS_STATE 3, 1, (by decide +kernel), (by decide +kernel), (by decide +kernel),
    (by decide +kernel)⟩

theorem wit_Journal_1 :
    ∃ (s : State) (seq : Nat) (i : Nat) (pn : Nat) (final : Bool), pairHeld s.dev = false ∧ pairState s.dev = 3 ∧ i < 2 ^ 16 ∧
      pn < 2 ^ 64 ∧ seq + 1 < 2 ^ 64 ∧ (rd s.dev Reg.JOURNAL_RX_SEQ).toNat = seq :=
  ⟨onDev fun d => wr (wrF d Reg.PAIR_STATUS Reg.PAIR_STATUS_STATE 3) Reg.JOURNAL_RX_SEQ (BitVec.ofNat 64 (2 ^ 64 - 2)), 2 ^ 64 - 2,
    65535, 2 ^ 64 - 1, true, (by decide +kernel), (by decide +kernel), (by decide +kernel), (by decide +kernel), (by decide +kernel),
    (by decide +kernel)⟩

theorem wit_Journal_2 :
    ∃ (s : State) (seq : Nat) (i : Nat) (pn : Nat) (final : Bool), pairHeld s.dev = false ∧ pairState s.dev = 3 ∧
      seq < (rd s.dev Reg.JOURNAL_RX_SEQ).toNat :=
  ⟨onDev fun d => wr (wrF d Reg.PAIR_STATUS Reg.PAIR_STATUS_STATE 3) Reg.JOURNAL_RX_SEQ 9, 8, 1, 1, false, (by decide +kernel),
    (by decide +kernel), (by decide +kernel)⟩

theorem wit_Journal_3 :
    ∃ (s : State) (ack : Nat) (l : List (Nat × JEntry)), pairHeld s.dev = false ∧ journalOn (frameAccept ack s.dev) = true :=
  ⟨onDev fun d => wrF d Reg.PAIR_STATUS Reg.PAIR_STATUS_STATE 3, 0, [], (by decide +kernel), (by decide +kernel)⟩

theorem wit_Journal_4 :
    ∃ (s : State) (seq : Nat), pairHeld s.dev = false ∧ pairState s.dev = 3 ∧ s.dev.pair.syncDone = none ∧ seq + 1 < 2 ^ 64 ∧
      (rd s.dev Reg.JOURNAL_RX_SEQ).toNat = seq :=
  ⟨onDev fun d => wrF d Reg.PAIR_STATUS Reg.PAIR_STATUS_STATE 3, 0, (by decide +kernel), (by decide +kernel), (by decide +kernel),
    (by decide +kernel), (by decide +kernel)⟩

theorem wit_Journal_5 :
    ∃ (s : State) (seq : Nat), pairHeld s.dev = false ∧ pairState s.dev = 3 ∧ s.dev.pair.syncing = true ∧ seq + 1 < 2 ^ 64 ∧
      (rd s.dev Reg.JOURNAL_RX_SEQ).toNat = seq :=
  ⟨onDev fun d => { wrF d Reg.PAIR_STATUS Reg.PAIR_STATUS_STATE 3 with pair := { d.pair with syncing := true } }, 0,
    (by decide +kernel), (by decide +kernel), (by decide +kernel), (by decide +kernel), (by decide +kernel)⟩

theorem wit_Journal_6 :
    ∃ (s : State) (ack : Nat), pairHeld s.dev = false ∧ journalOn (frameAccept ack s.dev) = true :=
  ⟨onDev fun d => wrF d Reg.PAIR_STATUS Reg.PAIR_STATUS_STATE 3, 0, (by decide +kernel), (by decide +kernel)⟩

theorem wit_Journal_7 :
    ∃ (s : State), pairHeld s.dev = false ∧ journalOn s.dev = true ∧ s.dev.pair.buf ≠ [] ∧ s.dev.pair.timeouts < 7 :=
  ⟨onDev fun d => { wrF d Reg.PAIR_STATUS Reg.PAIR_STATUS_STATE 3 with pair := { d.pair with buf := [(0, ⟨2, 0, 0, 0, 1, 5, 0⟩)], timeouts := 6 } }, (by decide +kernel), (by decide +kernel), (by decide +kernel), (by decide +kernel)⟩

/-! O13, PeerLearn. -/

theorem wit_PeerLearn_0 :
    ∃ (s : State) (x : Learn) (rest : List Learn) (b : Tbl), ∃ (d : Dev), pairHeld s.dev = false ∧ s.dev.orch.learnQ = x :: rest ∧
      x.table < 64 ∧ tbl s.dev x.table = some b ∧ b.kind = 1 ∧ b.learn = true ∧
      flagF s.dev Reg.PROFILE_STATUS Reg.PROFILE_STATUS_LOADED = true ∧ tableBusy s.dev x.table = false ∧
      d = wrF (setLearnQ s.dev rest) Reg.LEARN_STATUS Reg.LEARN_STATUS_SEQ_HI x.seq ∧ x.src = .peerReq ∧
      settles d b (keyFor b x.key) = true :=
  ⟨onDev fun d => learnd .peerReq (tabd 1 d), Learn.mk (.peerReq) 3 0 5 7, [], tb 1,
    wrF (setLearnQ (onDev fun d => learnd .peerReq (tabd 1 d)).dev ([])) Reg.LEARN_STATUS Reg.LEARN_STATUS_SEQ_HI (Learn.mk (.peerReq) 3 0 5 7).seq,
    (by decide +kernel), (by decide +kernel), (by decide +kernel), (by decide +kernel), (by decide +kernel), (by decide +kernel),
    (by decide +kernel), (by decide +kernel), rfl, (by decide +kernel), (by decide +kernel)⟩

theorem wit_PeerLearn_1 :
    ∃ (s : State) (x : Learn) (rest : List Learn) (b : Tbl), ∃ (d : Dev), pairHeld s.dev = false ∧ s.dev.orch.learnQ = x :: rest ∧
      x.table < 64 ∧ tbl s.dev x.table = some b ∧ b.kind = 1 ∧ b.learn = true ∧
      flagF s.dev Reg.PROFILE_STATUS Reg.PROFILE_STATUS_LOADED = true ∧ tableBusy s.dev x.table = false ∧
      d = wrF (setLearnQ s.dev rest) Reg.LEARN_STATUS Reg.LEARN_STATUS_SEQ_HI x.seq ∧ x.src = .peerReq ∧
      settles d b (keyFor b x.key) = false :=
  ⟨onDev fun d => wrF (wrF (wr (learnd .peerReq (tabd 1 d)) (Reg.PAIR_EFFECTIVE 0) (BitVec.allOnes 64)) (Reg.PAIR_TABLE_CFG 3) Reg.PAIR_TABLE_CFG_MIRROR 1) Reg.PAIR_STATUS Reg.PAIR_STATUS_STATE 3,
    Learn.mk (.peerReq) 3 0 5 7, [], tb 1,
    wrF (setLearnQ (onDev fun d => wrF (wrF (wr (learnd .peerReq (tabd 1 d)) (Reg.PAIR_EFFECTIVE 0) (BitVec.allOnes 64)) (Reg.PAIR_TABLE_CFG 3) Reg.PAIR_TABLE_CFG_MIRROR 1) Reg.PAIR_STATUS Reg.PAIR_STATUS_STATE 3).dev ([])) Reg.LEARN_STATUS Reg.LEARN_STATUS_SEQ_HI (Learn.mk (.peerReq) 3 0 5 7).seq,
    (by decide +kernel), (by decide +kernel), (by decide +kernel), (by decide +kernel), (by decide +kernel), (by decide +kernel),
    (by decide +kernel), (by decide +kernel), rfl, (by decide +kernel), (by decide +kernel)⟩

theorem wit_PeerLearn_2 :
    ∃ (s : State) (x : Learn) (rest : List Learn) (b : Tbl), ∃ (d : Dev), ∃ (i : Nat), pairHeld s.dev = false ∧
      s.dev.orch.learnQ = x :: rest ∧ x.table < 64 ∧ tbl s.dev x.table = some b ∧ b.kind = 1 ∧ b.learn = true ∧
      flagF s.dev Reg.PROFILE_STATUS Reg.PROFILE_STATUS_LOADED = true ∧ tableBusy s.dev x.table = false ∧
      d = wrF (setLearnQ s.dev rest) Reg.LEARN_STATUS Reg.LEARN_STATUS_SEQ_HI x.seq ∧ x.src = .peerSet false ∧ mirrored d b = true ∧
      exactFind d b (keyFor b x.key) = some i ∧ eType b (readUnit d b i) ≠ 1 :=
  ⟨onDev fun d => wrF (learnd (.peerSet false) (hitd 0 d)) (Reg.PAIR_TABLE_CFG 3) Reg.PAIR_TABLE_CFG_MIRROR 1,
    Learn.mk (.peerSet false) 3 0 5 7, [], tb 1,
    wrF (setLearnQ (onDev fun d => wrF (learnd (.peerSet false) (hitd 0 d)) (Reg.PAIR_TABLE_CFG 3) Reg.PAIR_TABLE_CFG_MIRROR 1).dev ([])) Reg.LEARN_STATUS Reg.LEARN_STATUS_SEQ_HI (Learn.mk (.peerSet false) 3 0 5 7).seq,
    4092, (by decide +kernel), (by decide +kernel), (by decide +kernel), (by decide +kernel), (by decide +kernel), (by decide +kernel),
    (by decide +kernel), (by decide +kernel), rfl, (by decide +kernel), (by decide +kernel), (by decide +kernel), (by decide +kernel)⟩

theorem wit_PeerLearn_3 :
    ∃ (s : State) (x : Learn) (rest : List Learn) (b : Tbl), ∃ (d : Dev), ∃ (i : Nat), pairHeld s.dev = false ∧
      s.dev.orch.learnQ = x :: rest ∧ x.table < 64 ∧ tbl s.dev x.table = some b ∧ b.kind = 1 ∧ b.learn = true ∧
      flagF s.dev Reg.PROFILE_STATUS Reg.PROFILE_STATUS_LOADED = true ∧ tableBusy s.dev x.table = false ∧
      d = wrF (setLearnQ s.dev rest) Reg.LEARN_STATUS Reg.LEARN_STATUS_SEQ_HI x.seq ∧ x.src = .peerSet true ∧ mirrored d b = true ∧
      exactFind d b (keyFor b x.key) = some i ∧ eType b (readUnit d b i) ≠ 1 :=
  ⟨onDev fun d => wrF (learnd (.peerSet true) (hitd 0 d)) (Reg.PAIR_TABLE_CFG 3) Reg.PAIR_TABLE_CFG_MIRROR 1,
    Learn.mk (.peerSet true) 3 0 5 7, [], tb 1,
    wrF (setLearnQ (onDev fun d => wrF (learnd (.peerSet true) (hitd 0 d)) (Reg.PAIR_TABLE_CFG 3) Reg.PAIR_TABLE_CFG_MIRROR 1).dev ([])) Reg.LEARN_STATUS Reg.LEARN_STATUS_SEQ_HI (Learn.mk (.peerSet true) 3 0 5 7).seq,
    4092, (by decide +kernel), (by decide +kernel), (by decide +kernel), (by decide +kernel), (by decide +kernel), (by decide +kernel),
    (by decide +kernel), (by decide +kernel), rfl, (by decide +kernel), (by decide +kernel), (by decide +kernel), (by decide +kernel)⟩

theorem wit_PeerLearn_4 :
    ∃ (s : State) (x : Learn) (rest : List Learn) (b : Tbl), ∃ (d : Dev), ∃ (i : Nat), pairHeld s.dev = false ∧
      s.dev.orch.learnQ = x :: rest ∧ x.table < 64 ∧ tbl s.dev x.table = some b ∧ b.kind = 1 ∧ b.learn = true ∧
      flagF s.dev Reg.PROFILE_STATUS Reg.PROFILE_STATUS_LOADED = true ∧ tableBusy s.dev x.table = false ∧
      d = wrF (setLearnQ s.dev rest) Reg.LEARN_STATUS Reg.LEARN_STATUS_SEQ_HI x.seq ∧ x.src = .peerRefresh ∧
      settles d b (keyFor b x.key) = true ∧ exactFind d b (keyFor b x.key) = some i :=
  ⟨onDev fun d => learnd .peerRefresh (hitd 0 d), Learn.mk (.peerRefresh) 3 0 5 7, [], tb 1,
    wrF (setLearnQ (onDev fun d => learnd .peerRefresh (hitd 0 d)).dev ([])) Reg.LEARN_STATUS Reg.LEARN_STATUS_SEQ_HI (Learn.mk (.peerRefresh) 3 0 5 7).seq,
    4092, (by decide +kernel), (by decide +kernel), (by decide +kernel), (by decide +kernel), (by decide +kernel), (by decide +kernel),
    (by decide +kernel), (by decide +kernel), rfl, (by decide +kernel), (by decide +kernel), (by decide +kernel)⟩

theorem wit_PeerLearn_5 :
    ∃ (s : State) (x : Learn) (rest : List Learn) (m : Nat), pairHeld s.dev = false ∧ journalOn s.dev = true ∧
      s.dev.orch.learnQ = x :: rest ∧ x.src = .handover m :=
  ⟨onDev fun d => wrF (learnd (.handover 5) d) Reg.PAIR_STATUS Reg.PAIR_STATUS_STATE 3, Learn.mk (.handover 5) 3 0 5 7, [], 5,
    (by decide +kernel), (by decide +kernel), (by decide +kernel), (by decide +kernel)⟩

/-! O14, Hello. -/

theorem wit_Hello_0 :
    ∃ (s : State), pairHeld s.dev = false ∧ pairState s.dev = 1 ∧ linkUp s.dev = true ∧
      flagF s.dev Reg.FAULT_INJECT Reg.FAULT_INJECT_PENDING = false :=
  ⟨onDev fun d => wrFs d Reg.PAIR_STATUS [(Reg.PAIR_STATUS_STATE, 1), (Reg.PAIR_STATUS_LINK_STATE, 2)], (by decide +kernel),
    (by decide +kernel), (by decide +kernel), (by decide +kernel)⟩

theorem wit_Hello_1 :
    ∃ (s : State) (ack : Nat) (f : Nat) (id : Nat) (st : Nat) (part : Nat) (crc : Nat) (cal : Nat) (map : Nat) (first : Nat),
      pairHeld s.dev = false ∧ pairState s.dev = 1 ∧
      ((f ≠ 1 ∨ part ≠ rdF s.dev Reg.GLOBAL_ID Reg.GLOBAL_ID_PART_CODE ∨ id = pairId s.dev ∨ crc ≠ cfgCrc s.dev ∨ cal ≠ rdF s.dev Reg.PROFILE_STATUS Reg.PROFILE_STATUS_CALENDAR_ID)) :=
  ⟨onDev fun d => wrFs d Reg.PAIR_STATUS [(Reg.PAIR_STATUS_STATE, 1)], 0, 1, 0, 0, 0, 0, 0, 0, 0, (by decide +kernel),
    (by decide +kernel), (by decide +kernel)⟩

theorem wit_Hello_2 :
    ∃ (s : State) (ack : Nat) (id : Nat) (st : Nat) (map : Nat) (first : Nat), pairHeld s.dev = false ∧ pairState s.dev = 1 ∧
      id ≠ pairId s.dev ∧ map = effective s.dev ∧ st ≠ 5 :=
  ⟨onDev fun d => wrFs d Reg.PAIR_STATUS [(Reg.PAIR_STATUS_STATE, 1)], 0, 1, 1,
    effective (onDev fun d => wrFs d Reg.PAIR_STATUS [(Reg.PAIR_STATUS_STATE, 1)]).dev, 0, (by decide +kernel), (by decide +kernel),
    (by decide +kernel), (by decide +kernel), (by decide +kernel)⟩

theorem wit_Hello_3 :
    ∃ (s : State) (ack : Nat) (f : Nat) (id : Nat) (st : Nat) (part : Nat) (crc : Nat) (cal : Nat) (map : Nat) (first : Nat),
      pairHeld s.dev = false ∧ pairState (frameAccept ack s.dev) ≠ 1 ∧ pairState (frameAccept ack s.dev) ≠ 5 :=
  ⟨onDev fun d => wrFs d Reg.PAIR_STATUS [(Reg.PAIR_STATUS_STATE, 3)], 0, 1, 0, 0, 0, 0, 0, 0, 0, (by decide +kernel),
    (by decide +kernel), (by decide +kernel)⟩

/-! O15, PairControl. -/

theorem wit_PairControl_0 :
    ∃ (s : State) (agent : Nat) (v : W64), WriteReaches s.dev agent Reg.PAIR_ROLE v ∧ FieldsInRange Reg.PAIR_ROLE v ∧
      flagF s.dev Reg.FAULT_INJECT Reg.FAULT_INJECT_PENDING = false ∧ pairState s.dev = 0 ∧ getF v Reg.PAIR_ROLE_MODE = 1 :=
  ⟨State.reset, 1, setF (setF 0 Reg.PAIR_ROLE_MODE 1) Reg.PAIR_ROLE_ID 1, reaches_ok (by decide +kernel), (by rfl),
    (by decide +kernel), (by decide +kernel), (by decide +kernel)⟩

theorem wit_PairControl_1 :
    ∃ (s : State) (agent : Nat) (v : W64), WriteReaches s.dev agent Reg.PAIR_ROLE v ∧ FieldsInRange Reg.PAIR_ROLE v ∧
      pairState s.dev = 3 ∧ (getF v Reg.PAIR_ROLE_MODE = 0 ∨ getF v Reg.PAIR_ROLE_ID ≠ pairId s.dev) :=
  ⟨onDev fun d => wrF d Reg.PAIR_STATUS Reg.PAIR_STATUS_STATE 3, 1, 0, reaches_ok (by decide +kernel), (by rfl), (by decide +kernel),
    (by decide +kernel)⟩

theorem wit_PairControl_2 :
    ∃ (s : State) (agent : Nat), pairState s.dev = 3 ∧ WriteReaches s.dev agent Reg.PAIR_CTRL (setF 0 Reg.PAIR_CTRL_RESYNC 1) :=
  ⟨onDev fun d => wrF d Reg.PAIR_STATUS Reg.PAIR_STATUS_STATE 3, 1, (by decide +kernel), reaches_ok (by decide +kernel)⟩

theorem wit_PairControl_3 :
    ∃ (s : State) (agent : Nat), journalOn s.dev = true ∧ WriteReaches s.dev agent Reg.PAIR_CTRL (setF 0 Reg.PAIR_CTRL_HANDOVER 1) :=
  ⟨onDev fun d => wrF d Reg.PAIR_STATUS Reg.PAIR_STATUS_STATE 3, 1, (by decide +kernel), reaches_ok (by decide +kernel)⟩

theorem wit_PairControl_4 :
    ∃ (s : State) (agent : Nat), pairState s.dev = 5 ∧ WriteReaches s.dev agent Reg.PAIR_CTRL (setF 0 Reg.PAIR_CTRL_CONFIRM_LOST 1) :=
  ⟨onDev fun d => wrF d Reg.PAIR_STATUS Reg.PAIR_STATUS_STATE 5, 1, (by decide +kernel), reaches_ok (by decide +kernel)⟩

theorem wit_PairControl_5 :
    ∃ (s : State) (agent : Nat), WriteReaches s.dev agent Reg.PAIR_CTRL (setF 0 Reg.PAIR_CTRL_PEER_RESET 1) :=
  ⟨onDev fun d => wrF d Reg.PAIR_STATUS Reg.PAIR_STATUS_STATE 3, 1, reaches_ok (by decide +kernel)⟩

/-! O16, PeerRequests. -/

theorem wit_PeerRequests_0 :
    ∃ (s : State) (agent : Nat) (v : W64) (w : W64) (c : Instr),
      ((c = .peerAccRead agent v ∧ w = setF v Reg.PEER_ACC_CMD_OP 1) ∨ (c = .peerAccWrite agent v ∧ w = setF v Reg.PEER_ACC_CMD_OP 2)) ∧
      WriteReaches s.dev agent Reg.PEER_ACC_CMD w ∧ FieldsInRange Reg.PEER_ACC_CMD w ∧ getF v Reg.PEER_ACC_CMD_OFFSET % 8 ≠ 0 :=
  ⟨onDev fun d => wrF d Reg.PAIR_STATUS Reg.PAIR_STATUS_STATE 3, 1, 0x70000400000000, setF 0x70000400000000 Reg.PEER_ACC_CMD_OP 2,
    .peerAccWrite 1 0x70000400000000, (by decide +kernel), reaches_ok (by decide +kernel), (by rfl), (by decide +kernel)⟩

theorem wit_PeerRequests_1 :
    ∃ (s : State) (agent : Nat) (v : W64) (w : W64) (c : Instr),
      ((c = .peerAccRead agent v ∧ w = setF v Reg.PEER_ACC_CMD_OP 1) ∨ (c = .peerAccWrite agent v ∧ w = setF v Reg.PEER_ACC_CMD_OP 2)) ∧
      WriteReaches s.dev agent Reg.PEER_ACC_CMD w ∧ FieldsInRange Reg.PEER_ACC_CMD w ∧ getF v Reg.PEER_ACC_CMD_OFFSET % 8 = 0 :=
  ⟨onDev fun d => wrF d Reg.PAIR_STATUS Reg.PAIR_STATUS_STATE 3, 1, 0x700000, setF 0x700000 Reg.PEER_ACC_CMD_OP 1,
    .peerAccRead 1 0x700000, (by decide +kernel), reaches_ok (by decide +kernel), (by rfl), (by decide +kernel)⟩

theorem wit_PeerRequests_2 :
    ∃ (s : State) (ack : Nat) (tag : Nat) (result : Nat) (v : W64), pairHeld s.dev = false ∧
      flagF (frameAccept ack s.dev) Reg.PEER_ACC_STATUS Reg.PEER_ACC_STATUS_BUSY = true ∧ tag = (frameAccept ack s.dev).pair.accTag ∧
      result < 8 :=
  ⟨onDev fun d => wrF d Reg.PEER_ACC_STATUS Reg.PEER_ACC_STATUS_BUSY 1, 0,
    (frameAccept (0) (onDev fun d => wrF d Reg.PEER_ACC_STATUS Reg.PEER_ACC_STATUS_BUSY 1).dev).pair.accTag, 7, 5, (by decide +kernel),
    (by decide +kernel), rfl, (by decide +kernel)⟩

theorem wit_PeerRequests_3 :
    ∃ (s : State), pairHeld s.dev = false ∧ flagF s.dev Reg.PEER_ACC_STATUS Reg.PEER_ACC_STATUS_BUSY = true :=
  ⟨onDev fun d => wrF d Reg.PEER_ACC_STATUS Reg.PEER_ACC_STATUS_BUSY 1, (by decide +kernel), (by decide +kernel)⟩

theorem wit_PeerRequests_4 :
    ∃ (s : State) (ack : Nat) (tag : Nat) (op : Nat) (off : Nat) (v : W64), pairHeld s.dev = false ∧
      journalOn (frameAccept ack s.dev) = true ∧ off / 0x100000 ≠ 7 ∧ off / 0x100000 ≠ 26 :=
  ⟨onDev fun d => wrF d Reg.PAIR_STATUS Reg.PAIR_STATUS_STATE 3, 0, 1, 1, 0x600000, 0, (by decide +kernel), (by decide +kernel),
    (by decide +kernel), (by decide +kernel)⟩

theorem wit_PeerRequests_5 :
    ∃ (s : State) (ack : Nat) (tag : Nat) (op : Nat) (off : Nat) (v : W64), pairHeld s.dev = false ∧
      journalOn (frameAccept ack s.dev) = true ∧ (off / 0x100000 = 7 ∨ off / 0x100000 = 26) ∧ op = 1 :=
  ⟨onDev fun d => wrF d Reg.PAIR_STATUS Reg.PAIR_STATUS_STATE 3, 0, 1, 1, 0x700000, 0, (by decide +kernel), (by decide +kernel),
    (by decide +kernel), (by decide +kernel)⟩

theorem wit_PeerRequests_6 :
    ∃ (s : State) (ack : Nat) (tag : Nat) (op : Nat) (off : Nat) (v : W64), pairHeld s.dev = false ∧
      journalOn (frameAccept ack s.dev) = true ∧ (off / 0x100000 = 7 ∨ off / 0x100000 = 26) ∧ op = 2 ∧
      (regWriteR s.mem (frameAccept ack s.dev) 3 off v).1 = 1 :=
  ⟨onDev fun d => wrF d Reg.PAIR_STATUS Reg.PAIR_STATUS_STATE 3, 0, 1, 2, 0x700000, 0, (by decide +kernel), (by decide +kernel),
    (by decide +kernel), (by decide +kernel), (by decide +kernel)⟩

theorem wit_PeerRequests_7 :
    ∃ (s : State) (ack : Nat) (tag : Nat), pairHeld s.dev = false ∧
      flagF (frameAccept ack s.dev) Reg.PAIR_CFG Reg.PAIR_CFG_ACCEPT_RESET = false :=
  ⟨onDev fun d => wrF d Reg.PAIR_STATUS Reg.PAIR_STATUS_STATE 3, 0, 1, (by decide +kernel), (by decide +kernel)⟩

theorem wit_PeerRequests_8 :
    ∃ (s : State) (ack : Nat) (tag : Nat), pairHeld s.dev = false ∧
      flagF (frameAccept ack s.dev) Reg.PAIR_CFG Reg.PAIR_CFG_ACCEPT_RESET = true ∧ devReset s.dev = false ∧
      pairState (frameAccept ack s.dev) = 3 :=
  ⟨onDev fun d => wrF (wrF d Reg.PAIR_STATUS Reg.PAIR_STATUS_STATE 3) Reg.PAIR_CFG Reg.PAIR_CFG_ACCEPT_RESET 1, 0, 1,
    (by decide +kernel), (by decide +kernel), (by decide +kernel), (by decide +kernel)⟩

theorem wit_PeerRequests_9 :
    ∃ (s : State) (ack : Nat) (tag : Nat) (refused : Bool), pairHeld s.dev = false ∧
      pairF (frameAccept ack s.dev) Reg.PAIR_STATUS_RESET_RESULT = 1 ∧ tag = (frameAccept ack s.dev).pair.resetTag :=
  ⟨onDev fun d => wrF d Reg.PAIR_STATUS Reg.PAIR_STATUS_RESET_RESULT 1, 0,
    (frameAccept (0) (onDev fun d => wrF d Reg.PAIR_STATUS Reg.PAIR_STATUS_RESET_RESULT 1).dev).pair.resetTag, true,
    (by decide +kernel), (by decide +kernel), rfl⟩

theorem wit_PeerRequests_10 :
    ∃ (s : State), pairHeld s.dev = false ∧ pairF s.dev Reg.PAIR_STATUS_RESET_RESULT = 1 :=
  ⟨onDev fun d => wrF d Reg.PAIR_STATUS Reg.PAIR_STATUS_RESET_RESULT 1, (by decide +kernel), (by decide +kernel)⟩

/-! O17, PinOverrideReject. -/

theorem wit_PinOverrideReject_0 :
    ∃ (s : State) (agent : Nat) (w : Nat) (j : Nat) (v : W64), w < 64 ∧ j < 16 ∧ bit v.toNat (4 * j + 3) = true ∧ 24 < 16 * w + j ∧
      ¬ (32 ≤ 16 * w + j ∧ 16 * w + j ≤ 35) ∧ WriteReaches s.dev agent (Reg.AON_PIN_OVR w) v :=
  ⟨State.reset, 1, 2, 4, 0x80000, (by decide +kernel), (by decide +kernel), (by decide +kernel), (by decide +kernel),
    (by decide +kernel), reaches_ok (by decide +kernel)⟩

/-! O18, RegisterWrites. -/

theorem wit_RegisterWrites_0 :
    ∃ (s : State) (agent : Nat) (v : W64), WriteReaches s.dev agent Reg.AGE_CFG v ∧ FieldsInRange Reg.AGE_CFG v :=
  ⟨State.reset, 1, 0x100001, reaches_ok (by decide +kernel), (by rfl)⟩

theorem wit_RegisterWrites_1 :
    ∃ (s : State) (agent : Nat) (off : Nat) (v : W64) (p : RegSpec × List Nat), WriteReaches s.dev agent off v ∧ off < 0x1A00000 ∧
      off % 8 = 0 ∧ (unpeek off).2 = false ∧ regAt off = some p ∧ rangeOk p.1.flds v = false :=
  ⟨State.reset, 1, Reg.AGE_CFG, BitVec.allOnes 64, (regAt Reg.AGE_CFG).get (by decide), reaches_ok (by decide +kernel),
    (by decide +kernel), (by decide +kernel), (by decide +kernel), (Option.some_get _).symm, (by decide +kernel)⟩

theorem wit_RegisterWrites_2 :
    ∃ (s : State) (agent : Nat) (off : Nat) (v : W64), ctlReset s.dev = false ∧ unitAbsent s.dev off = false ∧ off % 8 = 0 ∧
      (unpeek off).2 = false ∧ csrParity s.dev agent off 2 v = (false, s.dev) ∧ (islandsOf s.dev off v).any (islandOff s.dev) = true :=
  ⟨onDev fun d => { d with rst := { d.rst with held := 2 ^ 17 - 2 } }, 1, Reg.AGE_CFG, 0, (by decide +kernel), (by decide +kernel),
    (by decide +kernel), (by decide +kernel), csrParity_idle (by decide +kernel) .., (by decide +kernel)⟩

theorem wit_RegisterWrites_3 :
    ∃ (s : State) (agent : Nat) (off : Nat) (v : W64), ctlReset s.dev = false :=
  ⟨State.reset, 1, 0, 0, (by decide +kernel)⟩

theorem wit_RegisterWrites_4 :
    ∃ (s : State) (agent : Nat) (off : Nat) (v : W64) (half : Bool), ctlReset s.dev = true :=
  ⟨onDev fun d => { d with rst := { d.rst with held := 1 } }, 1, 0, 0, false, (by decide +kernel)⟩

theorem wit_RegisterWrites_5 :
    ∃ (s : State) (agent : Nat) (off : Nat) (v : W64), unitAbsent s.dev off = true :=
  ⟨onDev fun d => { d with fuses := { d.fuses with half := true } }, 1, 0xE00000, 0, (by decide +kernel)⟩

theorem wit_RegisterWrites_6 :
    ∃ (s : State) (agent : Nat) (off : Nat) (v : W64) (p : RegSpec × List Nat), ctlReset s.dev = false ∧
      csrParity s.dev agent off 2 v = (false, s.dev) ∧ (islandsOf s.dev off v).any (islandOff s.dev) = false ∧
      unitBusy s.dev off (islandsOf s.dev off v) = [] ∧ regAt off = some p ∧ indexAbsent s.dev p.1.base (p.2.getD 0 0) = true ∧
      off < 0x2000000 :=
  ⟨onDev fun d => { d with fuses := { d.fuses with half := true } }, 1, Reg.PORT_CFG 300, 0, (regAt (Reg.PORT_CFG 300)).get (by decide),
    (by decide +kernel), csrParity_idle (by decide +kernel) .., (by decide +kernel), (by decide +kernel), (Option.some_get _).symm,
    (by decide +kernel), (by decide +kernel)⟩

/-! O19, RegisterReads. -/

theorem wit_RegisterReads_0 :
    ∃ (s : State) (agent : Nat), ctlReset s.dev = false ∧ flagF s.dev Reg.FAULT_INJECT Reg.FAULT_INJECT_PENDING = false :=
  ⟨onDev fun d => wr d Reg.ISLAND_OVERRUN 5, 1, (by decide +kernel), (by decide +kernel)⟩

theorem wit_RegisterReads_1 :
    ∃ (s : State) (agent : Nat) (f : Nat), ∃ (x : W64 × W64 × W64 × W64) (rest : List (W64 × W64 × W64 × W64)), f < 3 ∧
      ctlReset s.dev = false ∧ flagF s.dev Reg.FAULT_INJECT Reg.FAULT_INJECT_PENDING = false ∧ (getEvt s.dev f).entries = x :: rest :=
  ⟨onDev fun d => putEvt d 1 { getEvt d 1 with entries := [(7, 1, 2, 3)] }, 1, 1, (7, 1, 2, 3), [], (by decide +kernel),
    (by decide +kernel), (by decide +kernel), (by decide +kernel)⟩

theorem wit_RegisterReads_2 :
    ∃ (s : State) (agent : Nat) (f : Nat), f < 3 ∧ ctlReset s.dev = false ∧
      flagF s.dev Reg.FAULT_INJECT Reg.FAULT_INJECT_PENDING = false ∧ (getEvt s.dev f).entries = [] :=
  ⟨State.reset, 1, 2, (by decide +kernel), (by decide +kernel), (by decide +kernel), (by decide +kernel)⟩

theorem wit_RegisterReads_3 :
    ∃ (s : State) (agent : Nat), ∃ (x : Byte) (rest : List Byte), ctlReset s.dev = false ∧
      flagF s.dev Reg.FAULT_INJECT Reg.FAULT_INJECT_PENDING = false ∧ s.dev.host.uartRx = x :: rest :=
  ⟨onDev fun d => { d with host := { d.host with uartRx := [0x41] } }, 1, 0x41, [], (by decide +kernel), (by decide +kernel),
    (by decide +kernel)⟩

theorem wit_RegisterReads_4 :
    ∃ (s : State) (agent : Nat), ctlReset s.dev = false ∧ flagF s.dev Reg.FAULT_INJECT Reg.FAULT_INJECT_PENDING = false ∧
      s.dev.host.uartRx = [] :=
  ⟨State.reset, 1, (by decide +kernel), (by decide +kernel), (by decide +kernel)⟩

theorem wit_RegisterReads_5 :
    ∃ (s : State) (agent : Nat) (k : Nat), k < 16 ∧ ctlReset s.dev = false ∧
      flagF s.dev Reg.FAULT_INJECT Reg.FAULT_INJECT_PENDING = false ∧ leaseOwner s.dev ≠ agent :=
  ⟨State.reset, 1, 15, (by decide +kernel), (by decide +kernel), (by decide +kernel), (by decide +kernel)⟩

/-! O20, EventVector. -/

theorem wit_EventVector_0 :
    ∃ (d : Dev) (f : Nat) (w0 : W64) (w1 : W64) (w2 : W64) (w3 : W64), f < 3 ∧ (getEvt d f).entries.length < evtSize f ∧
      rdF d (Reg.EVT_CFG f) Reg.EVT_CFG_THRESH ≤ (getEvt d f).unsignalled + 1 ∧
      bit (rd d (Reg.MSIX_TABLE (128 + f) 1)).toNat 32 = false :=
  ⟨wr State.reset.dev (Reg.MSIX_TABLE 130 1) 0, 2, 1, 2, 3, 4, (by decide +kernel), (by decide +kernel), (by decide +kernel),
    (by decide +kernel)⟩

theorem wit_EventVector_1 :
    ∃ (d : Dev) (f : Nat) (w0 : W64) (w1 : W64) (w2 : W64) (w3 : W64), f < 3 ∧ (getEvt d f).entries.length < evtSize f ∧
      rdF d (Reg.EVT_CFG f) Reg.EVT_CFG_THRESH ≤ (getEvt d f).unsignalled + 1 ∧ bit (rd d (Reg.MSIX_TABLE (128 + f) 1)).toNat 32 = true :=
  ⟨wr State.reset.dev (Reg.MSIX_TABLE 130 1) 0x100000000, 2, 1, 2, 3, 4, (by decide +kernel), (by decide +kernel), (by decide +kernel),
    (by decide +kernel)⟩

theorem wit_EventVector_2 :
    ∃ (d : Dev) (f : Nat) (w0 : W64) (w1 : W64) (w2 : W64) (w3 : W64), f < 3 ∧ (getEvt d f).entries.length < evtSize f ∧
      (getEvt d f).unsignalled + 1 < rdF d (Reg.EVT_CFG f) Reg.EVT_CFG_THRESH :=
  ⟨wrF State.reset.dev (Reg.EVT_CFG 2) Reg.EVT_CFG_THRESH 4, 2, 1, 2, 3, 4, (by decide +kernel), (by decide +kernel), (by decide +kernel)⟩

theorem wit_EventVector_3 :
    ∃ (s : State) (f : Nat), f < 3 ∧ (getEvt s.dev f).unsignalled ≠ 0 :=
  ⟨onDev fun d => putEvt d 1 { getEvt d 1 with unsignalled := 2 }, 1, (by decide +kernel), (by decide +kernel)⟩

theorem wit_EventVector_4 :
    ∃ (s : State) (f : Nat), (getEvt s.dev f).unsignalled = 0 :=
  ⟨State.reset, 0, (by decide +kernel)⟩

theorem wit_EventVector_5 :
    ∃ (s : State) (agent : Nat) (f : Nat), f < 3 ∧ flagF s.dev Reg.FAULT_INJECT Reg.FAULT_INJECT_PENDING = false :=
  ⟨State.reset, 1, 1, (by decide +kernel), (by decide +kernel)⟩

/-! O21, HostResets. -/

theorem wit_HostResets_0 :
    ∃ (s : State), ctlReset s.dev = false ∧ leaseOwner s.dev ≠ 1 :=
  ⟨State.reset, (by decide +kernel), (by decide +kernel)⟩

theorem wit_HostResets_1 :
    ∃ (s : State), ctlReset s.dev = false ∧ leaseOwner s.dev ≠ 1 ∧ s.dev.host.pcieUp = true :=
  ⟨onDev fun d => { d with host := { d.host with pcieUp := true } }, (by decide +kernel), (by decide +kernel), (by decide +kernel)⟩

theorem wit_HostResets_2 :
    ∃ (s : State), ctlReset s.dev = false :=
  ⟨State.reset, (by decide +kernel)⟩

/-! O22, Completions. -/

theorem wit_Completions_0 :
    ∃ (s : State) (src : Nat) (st : Nat) (busy : Fld), (src, st, busy) ∈ [(1, Reg.ORCHARD_STATUS, Reg.ORCHARD_STATUS_BUSY), (2,
      Reg.ASSOC_STATUS, Reg.ASSOC_STATUS_BUSY), (3, Reg.RIND_STATUS, Reg.RIND_STATUS_BUSY), (4, Reg.MC_STATUS, Reg.MC_STATUS_BUSY), (5,
      Reg.QUEUE_STATUS, Reg.QUEUE_STATUS_BUSY), (6, Reg.DRILL_STATUS, Reg.DRILL_STATUS_BUSY), (7, Reg.DEEP_ACC_STATUS,
      Reg.DEEP_ACC_STATUS_BUSY)] ∧ flagF s.dev st busy = true :=
  ⟨onDev fun d => wrF d Reg.ORCHARD_STATUS Reg.ORCHARD_STATUS_BUSY 1, 1, Reg.ORCHARD_STATUS, Reg.ORCHARD_STATUS_BUSY,
    (by decide +kernel), (by decide +kernel)⟩

theorem wit_Completions_1 :
    ∃ (s : State) (src : Nat) (st : Nat) (busy : Fld), (src, st, busy) ∈ [(1, Reg.ORCHARD_STATUS, Reg.ORCHARD_STATUS_BUSY), (2,
      Reg.ASSOC_STATUS, Reg.ASSOC_STATUS_BUSY), (3, Reg.RIND_STATUS, Reg.RIND_STATUS_BUSY), (4, Reg.MC_STATUS, Reg.MC_STATUS_BUSY), (5,
      Reg.QUEUE_STATUS, Reg.QUEUE_STATUS_BUSY), (6, Reg.DRILL_STATUS, Reg.DRILL_STATUS_BUSY), (7, Reg.DEEP_ACC_STATUS,
      Reg.DEEP_ACC_STATUS_BUSY)] ∧ flagF s.dev st busy = false :=
  ⟨State.reset, 1, Reg.ORCHARD_STATUS, Reg.ORCHARD_STATUS_BUSY, (by decide +kernel), (by decide +kernel)⟩

theorem wit_Completions_2 :
    ∃ (s : State) (src : Nat) (st : Nat) (busy : Fld) (done : Fld), (src, st, busy, done) ∈ [(1, Reg.ORCHARD_STATUS,
      Reg.ORCHARD_STATUS_BUSY, Reg.ORCHARD_STATUS_DONE), (2, Reg.ASSOC_STATUS, Reg.ASSOC_STATUS_BUSY, Reg.ASSOC_STATUS_DONE), (3,
      Reg.RIND_STATUS, Reg.RIND_STATUS_BUSY, Reg.RIND_STATUS_DONE), (6, Reg.DRILL_STATUS, Reg.DRILL_STATUS_BUSY,
      Reg.DRILL_STATUS_DONE)] ∧ flagF s.dev st busy = true :=
  ⟨onDev fun d => wrF d Reg.ORCHARD_STATUS Reg.ORCHARD_STATUS_BUSY 1, 1, Reg.ORCHARD_STATUS, Reg.ORCHARD_STATUS_BUSY,
    Reg.ORCHARD_STATUS_DONE, (by decide +kernel), (by decide +kernel)⟩

theorem wit_Completions_3 :
    ∃ (s : State) (agent : Nat) (h : Nat), h < 256 ∧ flagF s.dev Reg.HOST_HOLDING_STATUS Reg.HOST_HOLDING_STATUS_BUSY = false ∧
      WriteReaches s.dev agent Reg.HOST_HOLDING_CMD (setF (setF 0 Reg.HOST_HOLDING_CMD_HOLDING h) Reg.HOST_HOLDING_CMD_REMOVE 1) :=
  ⟨onDev fun d => wr d (Reg.HOLDING_OPEN 3) (BitVec.allOnes 64), 1, 200, (by decide +kernel), (by decide +kernel),
    reaches_ok (by decide +kernel)⟩

theorem wit_Completions_4 :
    ∃ (s : State) (agent : Nat) (h : Nat), h < 256 ∧ flagF s.dev Reg.HOST_HOLDING_STATUS Reg.HOST_HOLDING_STATUS_BUSY = true ∧
      WriteReaches s.dev agent Reg.HOST_HOLDING_CMD (setF (setF 0 Reg.HOST_HOLDING_CMD_HOLDING h) Reg.HOST_HOLDING_CMD_REMOVE 1) :=
  ⟨onDev fun d => wrFs d Reg.HOST_HOLDING_STATUS [(Reg.HOST_HOLDING_STATUS_BUSY, 1), (Reg.HOST_HOLDING_STATUS_HOLDING, 9)], 1, 200,
    (by decide +kernel), (by decide +kernel), reaches_ok (by decide +kernel)⟩

theorem wit_Completions_5 :
    ∃ (s : State), flagF s.dev Reg.HOST_HOLDING_STATUS Reg.HOST_HOLDING_STATUS_BUSY = true ∧
      holdingInFurrow s.dev (rdF s.dev Reg.HOST_HOLDING_STATUS Reg.HOST_HOLDING_STATUS_HOLDING) = false :=
  ⟨onDev fun d => wrFs d Reg.HOST_HOLDING_STATUS [(Reg.HOST_HOLDING_STATUS_BUSY, 1), (Reg.HOST_HOLDING_STATUS_HOLDING, 9)],
    (by decide +kernel), (by decide +kernel)⟩

/-! O23, Rings. -/

theorem wit_Rings_0 :
    ∃ (s : State) (r : Nat) (p : Pkt) (w : Nat) (rest : List (Pkt × Nat)) (a : Nat) (len : Nat), getRingQ s.dev r = (p, w) :: rest ∧
      flagF s.dev (Reg.PUNT_RING r 1) Reg.PUNT_RING_ENABLE = true ∧ flagF s.dev (Reg.PUNT_RING r 1) Reg.PUNT_RING_CTX_EN = false ∧
      descOk (a, len, false) = true ∧ p.frame ≠ [] ∧ p.frame.length ≤ len ∧
      rdF s.dev (Reg.PUNT_RING r 2) Reg.PUNT_RING_TAIL = (rdF s.dev (Reg.PUNT_RING r 3) Reg.PUNT_RING_HEAD + 1) % 2 ^ 32 ∧
      s.dev.writes = [] :=
  ⟨onDev fun d => wrF (wrF (putRingQ d 0 [({ pk with frame := [1, 2, 3] },
    0)]) (Reg.PUNT_RING 0 1) Reg.PUNT_RING_ENABLE 1) (Reg.PUNT_RING 0 2) Reg.PUNT_RING_TAIL 1, 0, { pk with frame := [1, 2, 3] }, 0,
    [], 4096, 256, (by decide +kernel), (by decide +kernel), (by decide +kernel), (by decide +kernel), (by decide +kernel),
    (by decide +kernel), (by decide +kernel), (by decide +kernel)⟩

theorem wit_Rings_1 :
    ∃ (s : State) (r : Nat) (p : Pkt) (w : Nat) (rest : List (Pkt × Nat)), getRingQ s.dev r = (p, w) :: rest ∧ p.frame ≠ [] :=
  ⟨onDev fun d => wrF (wrF (putRingQ d 0 [({ pk with frame := [1, 2, 3] },
    0)]) (Reg.PUNT_RING 0 1) Reg.PUNT_RING_ENABLE 1) (Reg.PUNT_RING 0 2) Reg.PUNT_RING_TAIL 1, 0, { pk with frame := [1, 2, 3] }, 0,
    [], (by decide +kernel), (by decide +kernel)⟩

theorem wit_Rings_2 :
    ∃ (s : State) (r : Nat) (p : Pkt) (w : Nat) (rest : List (Pkt × Nat)), getRingQ s.dev r = (p, w) :: rest :=
  ⟨onDev fun d => wrF (wrF (putRingQ d 0 [({ pk with frame := [1, 2, 3] },
    0)]) (Reg.PUNT_RING 0 1) Reg.PUNT_RING_ENABLE 1) (Reg.PUNT_RING 0 2) Reg.PUNT_RING_TAIL 1, 0, { pk with frame := [1, 2, 3] }, 0,
    [], (by decide +kernel)⟩

theorem wit_Rings_3 :
    ∃ (s : State) (r : Nat), spGet (fun _ => 0) s.dev.host.ringDue r ≠ 0 ∧ s.dev.writes = [] :=
  ⟨onDev fun d => { wr (wr d (Reg.PUNT_RING 0 4) 64) (Reg.PUNT_RING 0 3) 3 with host := { d.host with ringDue := spPut (fun _ => 0) d.host.ringDue 0 1 } }, 0, (by decide +kernel), (by decide +kernel)⟩

theorem wit_Rings_4 :
    ∃ (s : State) (c : Instr) (r : Nat) (h0 : W64) (h1 : W64) (els : List (W64 × W64)) (data : List Byte) (dma : Option Nat),
      (c = .pipeline r h0 h1 els data dma ∨ c = .direct r h0 h1 els data dma) ∧ injF s.dev r 1 Reg.INJ_RING_ENABLE = 0 :=
  ⟨State.reset, Instr.pipeline 0 0 0 [] [] none, 0, 0, 0, [], [], none, (by decide +kernel), (by decide +kernel)⟩

theorem wit_Rings_5 :
    ∃ (s : State) (r : Nat) (h0 : W64) (h1 : W64) (els : List (W64 × W64)) (data : List Byte) (e : Nat) (c : Nat) (n : Nat),
      n = bits h0.toNat 0 4 + 1 ∧ r < 16 ∧ els.length = n ∧ bit h0.toNat 4 = false ∧ injF s.dev r 1 Reg.INJ_RING_ENABLE = 1 ∧
      n + 1 ≤ (injF s.dev r 2 Reg.INJ_RING_TAIL + 2 ^ 32 - injF s.dev r 3 Reg.INJ_RING_HEAD) % 2 ^ 32 ∧
      (injF s.dev r 6 Reg.INJ_RING_CPL_PROD + 2 ^ 32 - injF s.dev r 5 Reg.INJ_RING_CPL_CONS) % 2 ^ 32 < 2 ^ injF s.dev r 1 Reg.INJ_RING_CPL_LOG2 ∧ injFail s.dev r false h0 els = some (e, c) :=
  ⟨onDev fun d => wrF (wrF (wr d (Reg.INJ_RING 0 8) 4096) (Reg.INJ_RING 0 1) Reg.INJ_RING_ENABLE 1) (Reg.INJ_RING 0 2) Reg.INJ_RING_TAIL 2, 0, 0, 0, [(0, 0)], List.replicate 64 0, 0, 3, 1, (by decide +kernel), (by decide +kernel), (by decide +kernel), (by decide +kernel), (by decide +kernel), (by decide +kernel), (by decide +kernel), (by decide +kernel)⟩

theorem wit_Rings_6 :
    ∃ (s : State) (r : Nat) (h0 : W64) (h1 : W64) (els : List (W64 × W64)) (data : List Byte) (e : Nat) (c : Nat) (n : Nat),
      n = bits h0.toNat 0 4 + 1 ∧ r < 16 ∧ els.length = n ∧ bit h0.toNat 4 = false ∧ injF s.dev r 1 Reg.INJ_RING_ENABLE = 1 ∧
      n + 1 ≤ (injF s.dev r 2 Reg.INJ_RING_TAIL + 2 ^ 32 - injF s.dev r 3 Reg.INJ_RING_HEAD) % 2 ^ 32 ∧
      (injF s.dev r 6 Reg.INJ_RING_CPL_PROD + 2 ^ 32 - injF s.dev r 5 Reg.INJ_RING_CPL_CONS) % 2 ^ 32 < 2 ^ injF s.dev r 1 Reg.INJ_RING_CPL_LOG2 ∧ injFail s.dev r false h0 els = none ∧ s.dev.host.injBuf + directWaiting s.dev + injTotal els ≤ 4194304 :=
  ⟨onDev fun d => wrF (wrF (wr d (Reg.INJ_RING 0 8) 4096) (Reg.INJ_RING 0 1) Reg.INJ_RING_ENABLE 1) (Reg.INJ_RING 0 2) Reg.INJ_RING_TAIL 2, 0, 0, 0, [(0, 64)], List.replicate 64 0, 0, 0, 1, (by decide +kernel), (by decide +kernel), (by decide +kernel), (by decide +kernel), (by decide +kernel), (by decide +kernel), (by decide +kernel), (by decide +kernel), (by decide +kernel)⟩

theorem wit_Rings_7 :
    ∃ (s : State) (r : Nat) (h0 : W64) (h1 : W64) (els : List (W64 × W64)) (data : List Byte) (n : Nat) (a : Nat),
      n = bits h0.toNat 0 4 + 1 ∧ els.length = n ∧ bit h0.toNat 4 = true ∧ injF s.dev r 1 Reg.INJ_RING_ENABLE = 1 ∧
      n + 1 ≤ (injF s.dev r 2 Reg.INJ_RING_TAIL + 2 ^ 32 - injF s.dev r 3 Reg.INJ_RING_HEAD) % 2 ^ 32 ∧
      (injF s.dev r 6 Reg.INJ_RING_CPL_PROD + 2 ^ 32 - injF s.dev r 5 Reg.INJ_RING_CPL_CONS) % 2 ^ 32 < 2 ^ injF s.dev r 1 Reg.INJ_RING_CPL_LOG2 ∧ injFail s.dev r true h0 els = none ∧ s.dev.host.injBuf + directWaiting s.dev + injTotal els ≤ 4194304 ∧ a = queuePort (bumpWrap s.dev (Reg.INJ_RING r 3) Reg.INJ_RING_HEAD (n + 1)) (bits h0.toNat 48 16) / 128 :=
  ⟨onDev fun d => wrF (wrF (wr d (Reg.INJ_RING 0 8) 4096) (Reg.INJ_RING 0 1) Reg.INJ_RING_ENABLE 1) (Reg.INJ_RING 0 2) Reg.INJ_RING_TAIL 2, 0, 16#64, 0, [(0, 64)], List.replicate 64 0, 1, 0, (by decide +kernel), (by decide +kernel), (by decide +kernel), (by decide +kernel), (by decide +kernel), (by decide +kernel), (by decide +kernel), (by decide +kernel), (by decide +kernel)⟩

/-! O24, SpiSlave. -/

theorem wit_SpiSlave_1 :
    ∃ (s : State) (off : Nat) (v : W64), ctlReset s.dev = false ∧ s.dev.host.spisBusy = false ∧
      (regWriteR s.mem s.dev 4 (off % 2 ^ 32) v).1 = 1 :=
  ⟨onDev fun d => wrF d Reg.ORCHARD_STATUS Reg.ORCHARD_STATUS_BUSY 1, Reg.AGE_CFG, 0, (by decide +kernel), (by decide +kernel),
    (by decide +kernel)⟩

theorem wit_SpiSlave_2 :
    ∃ (s : State) (off : Nat) (v : W64), ctlReset s.dev = false ∧ s.dev.host.spisBusy = false ∧
      (regWriteR s.mem s.dev 4 (off % 2 ^ 32) v).1 = 0 :=
  ⟨State.reset, Reg.AGE_CFG, 0x100001, (by decide +kernel), (by decide +kernel), (by decide +kernel)⟩

theorem wit_SpiSlave_3 :
    ∃ (s : State) (off : Nat) (v : W64) (crc : Nat) (edges : Nat), ctlReset s.dev = false ∧ s.dev.host.spisBusy = false ∧
      ((edges ≠ 112 ∨ crc % 256 ≠ crc8 ([0x02] ++ beBytes 4 off ++ beBytes 8 v.toNat))) :=
  ⟨State.reset, Reg.AGE_CFG, 0x100001, 0, 112, (by decide +kernel), (by decide +kernel), (by decide +kernel)⟩

theorem wit_SpiSlave_4 :
    ∃ (s : State) (off : Nat), ctlReset s.dev = false ∧ s.dev.host.spisBusy = false :=
  ⟨State.reset, Reg.AGE_CFG, (by decide +kernel), (by decide +kernel)⟩

theorem wit_SpiSlave_5 :
    ∃ (s : State), ctlReset s.dev = false ∧ s.dev.host.spisBusy = false ∧ s.dev.host.spisResult < 128 :=
  ⟨State.reset, (by decide +kernel), (by decide +kernel), (by decide +kernel)⟩

theorem wit_SpiSlave_6 :
    ∃ (s : State), ctlReset s.dev = false ∧ s.dev.host.spisBusy = false :=
  ⟨State.reset, (by decide +kernel), (by decide +kernel)⟩

theorem wit_SpiSlave_7 :
    ∃ (s : State), ctlReset s.dev = false :=
  ⟨State.reset, (by decide +kernel)⟩

theorem wit_SpiSlave_8 :
    ∃ (s : State) (cmd : Nat) (edges : Nat), ctlReset s.dev = false ∧ cmd < 256 ∧ cmd ≠ 2 ∧ cmd ≠ 3 ∧ cmd ≠ 5 ∧ cmd ≠ 0x0B ∧
      edges % 8 = 0 :=
  ⟨State.reset, 255, 16, (by decide +kernel), (by decide +kernel), (by decide +kernel), (by decide +kernel), (by decide +kernel),
    (by decide +kernel), (by decide +kernel)⟩

/-! O25, UartAndSpim. -/

theorem wit_UartAndSpim_0 :
    ∃ (s : State) (agent : Nat) (x : Byte), WriteReaches s.dev agent Reg.UART_DATA (BitVec.ofNat 64 (x : Byte).toNat) ∧
      FieldsInRange Reg.UART_DATA (BitVec.ofNat 64 x.toNat) ∧ s.dev.host.uartTx.length < 64 :=
  ⟨State.reset, 1, 0x41, reaches_ok (by decide +kernel), (by rfl), (by decide +kernel)⟩

theorem wit_UartAndSpim_1 :
    ∃ (s : State) (agent : Nat) (x : Byte), WriteReaches s.dev agent Reg.UART_DATA (BitVec.ofNat 64 (x : Byte).toNat) ∧
      FieldsInRange Reg.UART_DATA (BitVec.ofNat 64 x.toNat) ∧ 64 ≤ s.dev.host.uartTx.length :=
  ⟨onDev fun d => { d with host := { d.host with uartTx := List.replicate 64 0x42 } }, 1, 0x41, reaches_ok (by decide +kernel),
    (by rfl), (by decide +kernel)⟩

theorem wit_UartAndSpim_2 :
    ∃ (s : State) (x : Byte) (idle : Bool), ctlReset s.dev = false ∧ flagF s.dev Reg.UART_CFG Reg.UART_CFG_ENABLE = true ∧
      s.dev.host.uartBreak = false ∧ rdF s.dev Reg.UART_CFG Reg.UART_CFG_PARITY = 0 ∧ s.dev.host.uartRx.length < 64 :=
  ⟨onDev fun d => wrF (wrF d Reg.UART_CFG Reg.UART_CFG_ENABLE 1) Reg.UART_CFG Reg.UART_CFG_PARITY 0, 0xA5, false, (by decide +kernel),
    (by decide +kernel), (by decide +kernel), (by decide +kernel), (by decide +kernel)⟩

theorem wit_UartAndSpim_3 :
    ∃ (s : State) (x : Byte) (idle : Bool), ctlReset s.dev = false ∧ flagF s.dev Reg.UART_CFG Reg.UART_CFG_ENABLE = true ∧
      s.dev.host.uartBreak = false ∧ rdF s.dev Reg.UART_CFG Reg.UART_CFG_PARITY = 0 ∧ 64 ≤ s.dev.host.uartRx.length :=
  ⟨onDev fun d => { wrF (wrF d Reg.UART_CFG Reg.UART_CFG_ENABLE 1) Reg.UART_CFG Reg.UART_CFG_PARITY 0 with host := { d.host with uartRx := List.replicate 64 0x42 } }, 0xA5, false, (by decide +kernel), (by decide +kernel), (by decide +kernel), (by decide +kernel), (by decide +kernel)⟩

theorem wit_UartAndSpim_4 :
    ∃ (s : State) (x : Byte) (idle : Bool), ctlReset s.dev = false ∧ flagF s.dev Reg.UART_CFG Reg.UART_CFG_ENABLE = true ∧
      s.dev.host.uartBreak = false ∧ rdF s.dev Reg.UART_CFG Reg.UART_CFG_PARITY = 0 :=
  ⟨onDev fun d => wrF (wrF d Reg.UART_CFG Reg.UART_CFG_ENABLE 1) Reg.UART_CFG Reg.UART_CFG_PARITY 0, 0xA5, false, (by decide +kernel),
    (by decide +kernel), (by decide +kernel), (by decide +kernel)⟩

theorem wit_UartAndSpim_5 :
    ∃ (s : State) (t : List Nat) (restart : Bool), ctlReset s.dev = false ∧ flagF s.dev Reg.UART_CFG Reg.UART_CFG_ENABLE = true :=
  ⟨onDev fun d => wrF (wrF d Reg.UART_CFG Reg.UART_CFG_ENABLE 1) Reg.UART_CFG Reg.UART_CFG_PARITY 0, List.replicate 11 0, false,
    (by decide +kernel), (by decide +kernel)⟩

theorem wit_UartAndSpim_6 :
    ∃ (s : State) (agent : Nat) (v : W64), WriteReaches s.dev agent Reg.SPIM_CMD v ∧ FieldsInRange Reg.SPIM_CMD v ∧
      s.dev.rst.lb = none ∧ rdF s.dev Reg.BOOT_STATUS Reg.BOOT_STATUS_STAGE = 3 ∧
      ((getF v Reg.SPIM_CMD_ADDR_BYTES = 0 ∨ getF v Reg.SPIM_CMD_ADDR_BYTES = 3)) ∧
      flagF s.dev Reg.SPIM_STATUS Reg.SPIM_STATUS_BUSY = false :=
  ⟨onDev fun d => wrF d Reg.BOOT_STATUS Reg.BOOT_STATUS_STAGE 3, 1, 0x9F, reaches_ok (by decide +kernel), (by rfl),
    (by decide +kernel), (by decide +kernel), (by decide +kernel), (by decide +kernel)⟩

theorem wit_UartAndSpim_7 :
    ∃ (s : State) (agent : Nat) (v : W64), WriteReaches s.dev agent Reg.SPIM_CMD v ∧ FieldsInRange Reg.SPIM_CMD v ∧
      s.dev.rst.lb = none ∧ rdF s.dev Reg.BOOT_STATUS Reg.BOOT_STATUS_STAGE = 3 ∧
      ((getF v Reg.SPIM_CMD_ADDR_BYTES = 0 ∨ getF v Reg.SPIM_CMD_ADDR_BYTES = 3)) ∧
      flagF s.dev Reg.SPIM_STATUS Reg.SPIM_STATUS_BUSY = true :=
  ⟨onDev fun d => wrF (wrF d Reg.BOOT_STATUS Reg.BOOT_STATUS_STAGE 3) Reg.SPIM_STATUS Reg.SPIM_STATUS_BUSY 1, 1, 0x9F,
    reaches_ok (by decide +kernel), (by rfl), (by decide +kernel), (by decide +kernel), (by decide +kernel), (by decide +kernel)⟩

theorem wit_UartAndSpim_8 :
    ∃ (s : State), flagF s.dev Reg.SPIM_STATUS Reg.SPIM_STATUS_BUSY = true :=
  ⟨onDev fun d => wrF d Reg.SPIM_STATUS Reg.SPIM_STATUS_BUSY 1, (by decide +kernel)⟩

/-! O26, Jtag. -/

theorem wit_Jtag_0 :
    ∃ (s : State) (c : Instr), (c = .jtagIdcode ∨ c = .testLogicReset) :=
  ⟨State.reset, Instr.jtagIdcode, (by decide +kernel)⟩

theorem wit_Jtag_1 :
    ∃ (s : State) (c : Instr) (ir : Nat), (c, ir) ∈ [(Instr.jtagClamp, 4), (.jtagHighz, 5), (.jtagBypass, 0xFF)] :=
  ⟨State.reset, Instr.jtagHighz, 5, (by decide +kernel)⟩

theorem wit_Jtag_2 :
    ∃ (s : State) (x : Nat) (c : Instr) (ir : Nat), (c, ir) ∈ [(Instr.jtagSamplePreload x, 2), (.jtagExtest x, 3)] :=
  ⟨State.reset, 9, Instr.jtagExtest 9, 3, (by decide +kernel)⟩

theorem wit_Jtag_3 :
    ∃ (s : State) (op : Nat) (off : Nat) (v : W64), s.dev.fuses.debugLock = true :=
  ⟨onDev fun d => { d with fuses := { d.fuses with debugLock := true } }, 2, Reg.AGE_CFG, 0x100001, (by decide +kernel)⟩

theorem wit_Jtag_4 :
    ∃ (s : State) (off : Nat) (v : W64), s.dev.fuses.debugLock = false :=
  ⟨State.reset, Reg.AGE_CFG, 0x100001, (by decide +kernel)⟩

theorem wit_Jtag_5 :
    ∃ (s : State) (v : W64), s.dev.fuses.debugLock = false ∧ ctlReset s.dev = false ∧
      flagF s.dev Reg.FAULT_INJECT Reg.FAULT_INJECT_PENDING = false :=
  ⟨State.reset, 1, (by decide +kernel), (by decide +kernel), (by decide +kernel)⟩

/-! O27, TallyAndDump. -/

theorem wit_TallyAndDump_0 :
    ∃ (s : State), dumpOn s.dev = true ∧ ((s.dev.rst.warm = true ∨ flagF s.dev Reg.DUMP_STATUS Reg.DUMP_STATUS_BUSY = true)) :=
  ⟨onDev fun d => wrF (wrF d Reg.DUMP_CTRL Reg.DUMP_CTRL_ENABLE 1) Reg.DUMP_STATUS Reg.DUMP_STATUS_BUSY 1, (by decide +kernel),
    (by decide +kernel)⟩

theorem wit_TallyAndDump_1 :
    ∃ (s : State), dumpOn s.dev = true ∧ s.dev.rst.warm = false ∧ ctlReset s.dev = false ∧
      flagF s.dev Reg.DUMP_STATUS Reg.DUMP_STATUS_BUSY = false :=
  ⟨onDev fun d => wrF d Reg.DUMP_CTRL Reg.DUMP_CTRL_ENABLE 1, (by decide +kernel), (by decide +kernel), (by decide +kernel),
    (by decide +kernel)⟩

theorem wit_TallyAndDump_2 :
    ∃ (s : State) (agent : Nat), WriteReaches s.dev agent Reg.DUMP_TALLY (setF 0 Reg.DUMP_TALLY_NOW 1) :=
  ⟨State.reset, 1, reaches_ok (by decide +kernel)⟩

theorem wit_TallyAndDump_3 :
    ∃ (s : State) (head : List W64) (part : Bool) (data : List W64), s.dev.perf.record = some (head, part, data) ∧
      rdF s.dev Reg.DUMP_CTRL Reg.DUMP_CTRL_DEST = 0 ∧ s.dev.writes = [] :=
  ⟨onDev fun d => { wrF d Reg.DUMP_CTRL Reg.DUMP_CTRL_DEST 0 with perf := { d.perf with record := some ([1, 2], false, [3, 4]) } }, [1,
    2], false, [3, 4], (by decide +kernel), (by decide +kernel), (by decide +kernel)⟩

/-! O28, FrameReceive. -/

theorem wit_FrameReceive_0 :
    ∃ (s : State) (p : Nat) (w : List Byte) (uncorr : Bool) (bad : Bool), portState s.dev p ≠ 3 ∧ portState s.dev p ≠ 4 ∧
      portState s.dev p ≠ 5 :=
  ⟨State.reset, 3, [], false, false, (by decide +kernel), (by decide +kernel), (by decide +kernel)⟩

theorem wit_FrameReceive_1 :
    ∃ (s : State) (p : Nat) (w : List Byte) (uncorr : Bool) (bad : Bool) (code : Nat), p < portCount s.dev ∧
      ((portState s.dev p = 3 ∨ portState s.dev p = 4 ∨ portState s.dev p = 5)) ∧
      code = (if uncorr then 4 else if bad then 3 else if w.length < 64 then 1 else if modeF s.dev p Reg.PORT_MODE_MAX_FRAME < w.length then 2 else if withFcs (w.take (w.length - 4)) ≠ w then 0 else if beNat ((w.drop 12).take 2) = 0x8808 ∧ beNat ((w.drop 14).take 2) ≠ 0x0101 then 6 else 8) ∧ code ≠ 8 :=
  ⟨onDev fun d => wrF d (stateReg 0) Reg.PORT_STATE_STATE 3, 0, List.replicate 63 0, false, false, 1, (by decide +kernel),
    (by decide +kernel), (by decide +kernel), (by decide +kernel)⟩

theorem wit_FrameReceive_2 :
    ∃ (s : State) (p : Nat) (f : List Byte) (g : List Byte) (d : Dev), p < portCount s.dev ∧
      ((portState s.dev p = 3 ∨ portState s.dev p = 4 ∨ portState s.dev p = 5)) ∧ 60 ≤ f.length ∧
      f.length + 4 ≤ modeF s.dev p Reg.PORT_MODE_MAX_FRAME ∧ beNat ((f.drop 12).take 2) ≠ 0x8808 ∧ isPdelay s.dev p f = false ∧
      stagingUsed s.dev (pS p) + modeF s.dev p Reg.PORT_MODE_MAX_FRAME ≤ stagingSize ∧ macsecRx s.dev p f = (.ok g, d) :=
  ⟨onDev fun d => wrF d (stateReg 0) Reg.PORT_STATE_STATE 3, 0, List.replicate 60 0x11, (List.replicate 60 0x11),
    (onDev fun d => wrF d (stateReg 0) Reg.PORT_STATE_STATE 3).dev, (by decide +kernel), (by decide +kernel), (by decide +kernel),
    (by decide +kernel), (by decide +kernel), (by decide +kernel), (by decide +kernel), (by decide +kernel)⟩

theorem wit_FrameReceive_3 :
    ∃ (d : Dev) (p : Nat) (g : List Byte), acreUp d (p / 128) = true ∧ flagF d Reg.FAULT_INJECT Reg.FAULT_INJECT_PENDING = false ∧
      rdF d (ppReg p (framePrio d p g)) Reg.PP_STATUS_STATE ≠ 2 :=
  ⟨State.reset.dev, 3, List.replicate 60 0x11, (by decide +kernel), (by decide +kernel), (by decide +kernel)⟩

theorem wit_FrameReceive_4 :
    ∃ (d : Dev) (p : Nat) (g : List Byte), acreUp d (p / 128) = false :=
  ⟨wrF State.reset.dev Reg.RSTC_PARTIAL_STATUS Reg.RSTC_PARTIAL_STATUS_ACRE_HELD 1, 3, List.replicate 60 0x11, (by decide +kernel)⟩

/-! O29, FrameTransmit. -/

theorem wit_FrameTransmit_0 :
    ∃ (s : State) (p : Nat) (f : List Byte) (x : Nat) (t : List (List Byte × Nat)), (getPort s.dev p).pfcQ = (f, x) :: t ∧
      portState s.dev p = 3 ∧ selectedBefore s.dev p x = false ∧ launchWaits s.dev p x = false :=
  ⟨onDev fun d => wrF (putPort d 0 { getPort d 0 with pfcQ := [([1, 2], 5)] }) (stateReg 0) Reg.PORT_STATE_STATE 3, 0, [1, 2], 5, [],
    (by decide +kernel), (by decide +kernel), (by decide +kernel), (by decide +kernel)⟩

theorem wit_FrameTransmit_1 :
    ∃ (s : State) (p : Nat) (f : List Byte) (x : Nat) (t : List (List Byte × Nat)), (getPort s.dev p).pfcQ = (f, x) :: t ∧
      portState s.dev p = 3 ∧ selectedBefore s.dev p x = false ∧ launchWaits s.dev p x = true :=
  ⟨onDev fun d => wrF ({ putPort d 0 { getPort d 0 with pfcQ := [([1, 2], 50)] } with drl := { d.drl with gates := spPut gateDef d.drl.gates 0 ⟨⟨0, 2 ^ 63, 0, 0⟩, none, []⟩ } }) (stateReg 0) Reg.PORT_STATE_STATE 3,
    0, [1, 2], 50, [], (by decide +kernel), (by decide +kernel), (by decide +kernel), (by decide +kernel)⟩

theorem wit_FrameTransmit_2 :
    ∃ (s : State) (p : Nat) (f : List Byte) (x : Nat) (t : List (List Byte × Nat)), (getPort s.dev p).pfcQ = (f, x) :: t ∧
      portState s.dev p ≠ 3 :=
  ⟨onDev fun d => putPort d 0 { getPort d 0 with pfcQ := [([1, 2], 5)] }, 0, [1, 2], 5, [], (by decide +kernel), (by decide +kernel)⟩

theorem wit_FrameTransmit_3 :
    ∃ (s : State) (p : Nat) (k : Pkt) (t : List Pkt), ∃ (f : List Byte) (d : Dev),
      ((getPort s.dev p).pfcQ = [] ∨ (∃ f x u, (getPort s.dev p).pfcQ = (f, x) :: u ∧ selectedBefore s.dev p x = true)) ∧
      (getPort s.dev p).txQ = k :: t ∧ portState s.dev p = 3 ∧ flagF s.dev Reg.FAULT_INJECT Reg.FAULT_INJECT_PENDING = false ∧
      launchWaits s.dev p k.launch = false ∧ macsecTx (putPort s.dev p { getPort s.dev p with txQ := t }) p k.frame = (.ok f, d) :=
  ⟨onDev fun d => wrF (putPort d 0 { getPort d 0 with txQ := [pk] }) (stateReg 0) Reg.PORT_STATE_STATE 3, 0, pk, [], pk.frame,
    putPort (onDev fun d => wrF (putPort d 0 { getPort d 0 with txQ := [pk] }) (stateReg 0) Reg.PORT_STATE_STATE 3).dev 0 { getPort (onDev fun d => wrF (putPort d 0 { getPort d 0 with txQ := [pk] }) (stateReg 0) Reg.PORT_STATE_STATE 3).dev 0 with txQ := [] },
    .inl (by decide +kernel), (by decide +kernel), (by decide +kernel), (by decide +kernel), (by decide +kernel), (by decide +kernel)⟩

theorem wit_FrameTransmit_4 :
    ∃ (s : State) (p : Nat) (k : Pkt) (t : List Pkt),
      ((getPort s.dev p).pfcQ = [] ∨ (∃ f x u, (getPort s.dev p).pfcQ = (f, x) :: u ∧ selectedBefore s.dev p x = true)) ∧
      (getPort s.dev p).txQ = k :: t ∧ portState s.dev p = 3 ∧ flagF s.dev Reg.FAULT_INJECT Reg.FAULT_INJECT_PENDING = false ∧
      launchWaits s.dev p k.launch = true :=
  ⟨onDev fun d => wrF ({ putPort d 0 { getPort d 0 with txQ := [{ pk with launch := 50 }] } with drl := { d.drl with gates := spPut gateDef d.drl.gates 0 ⟨⟨0, 2 ^ 63, 0, 0⟩, none, []⟩ } }) (stateReg 0) Reg.PORT_STATE_STATE 3,
    0, { pk with launch := 50 }, [], .inl (by decide +kernel), (by decide +kernel), (by decide +kernel), (by decide +kernel),
    (by decide +kernel)⟩

theorem wit_FrameTransmit_5 :
    ∃ (s : State) (p : Nat) (k : Pkt) (t : List Pkt), (getPort s.dev p).pfcQ = [] ∧ (getPort s.dev p).txQ = k :: t ∧
      portState s.dev p ≠ 3 :=
  ⟨onDev fun d => putPort d 0 { getPort d 0 with txQ := [pk] }, 0, pk, [], (by decide +kernel), (by decide +kernel), (by decide +kernel)⟩

theorem wit_FrameTransmit_6 :
    ∃ (s : State) (p : Nat), (getPort s.dev p).pfcQ = [] ∧ (getPort s.dev p).txQ = [] :=
  ⟨State.reset, 0, (by decide +kernel), (by decide +kernel)⟩

/-! O30, PfcAndPeerDelay. -/

theorem wit_PfcAndPeerDelay_0 :
    ∃ (d : Dev) (p : Nat) (f : List Byte) (c : Nat), c < 8 ∧ p < 512 :=
  ⟨State.reset.dev, 0, (List.replicate 12 0 ++ [0x88, 0x08, 0x01, 0x01, 0, 4, 0, 0, 0, 0, 0, 9] ++ List.replicate 36 0), 2,
    (by decide +kernel), (by decide +kernel)⟩

theorem wit_PfcAndPeerDelay_1 :
    ∃ (s : State) (p : Nat) (w : List Byte), p < portCount s.dev ∧ portState s.dev p = 3 ∧ 64 ≤ w.length ∧
      w.length ≤ modeF s.dev p Reg.PORT_MODE_MAX_FRAME ∧ withFcs (w.take (w.length - 4)) = w ∧ beNat ((w.drop 12).take 2) = 0x8808 ∧
      beNat ((w.drop 14).take 2) = 0x0101 :=
  ⟨onDev fun d => wrF (d) (stateReg 0) Reg.PORT_STATE_STATE 3, 0, withFcs (List.replicate 12 0 ++ [0x88, 0x08, 0x01, 0x01, 0, 4, 0, 0,
    0, 0, 0, 9] ++ List.replicate 36 0), (by decide +kernel), (by decide +kernel), (by decide +kernel), (by decide +kernel),
    (by decide +kernel), (by decide +kernel), (by decide +kernel)⟩

theorem wit_PfcAndPeerDelay_2 :
    ∃ (s : State) (p : Nat) (c : Nat), c < 8 :=
  ⟨State.reset, 5, 7, (by decide +kernel)⟩

theorem wit_PfcAndPeerDelay_3 :
    ∃ (s : State) (p : Nat), spGet (fun _ => 0) s.dev.pfcDirty p = 0 :=
  ⟨State.reset, 5, (by decide +kernel)⟩

theorem wit_PfcAndPeerDelay_4 :
    ∃ (s : State) (p : Nat) (c : Nat), c < 8 ∧ spGet (fun _ => 0) s.dev.pfcDirty p ≠ 0 ∧ portState s.dev p = 3 ∧
      ppPaused s.dev p c = true :=
  ⟨onDev fun d => { wrF (wrF d (ppReg 0 2) Reg.PP_STATUS_STATE 2) (stateReg 0) Reg.PORT_STATE_STATE 3 with pfcDirty := spPut (fun _ => 0) d.pfcDirty 0 4 }, 0, 2, (by decide +kernel), (by decide +kernel), (by decide +kernel), (by decide +kernel)⟩

theorem wit_PfcAndPeerDelay_5 :
    ∃ (s : State) (p : Nat) (c : Nat), c < 8 ∧ portState s.dev p = 3 ∧ ppPaused s.dev p c = true :=
  ⟨onDev fun d => wrF (wrF d (ppReg 0 2) Reg.PP_STATUS_STATE 2) (stateReg 0) Reg.PORT_STATE_STATE 3, 0, 2, (by decide +kernel),
    (by decide +kernel), (by decide +kernel)⟩

theorem wit_PfcAndPeerDelay_6 :
    ∃ (s : State) (p : Nat), portState s.dev p = 3 ∧ pdF s.dev p Reg.PDELAY_CFG_EN = 1 :=
  ⟨onDev fun d => wrF (wrF d (Reg.PDELAY_CFG 0 0) Reg.PDELAY_CFG_EN 1) (stateReg 0) Reg.PORT_STATE_STATE 3, 0, (by decide +kernel),
    (by decide +kernel)⟩

theorem wit_PfcAndPeerDelay_7 :
    ∃ (s : State) (p : Nat) (r : Nat × Nat), p < 512 ∧ (getPort s.dev p).pdReq = some r :=
  ⟨onDev fun d => putPort d 0 { getPort d 0 with pdReq := some (1, 2) }, 0, (1, 2), (by decide +kernel), (by decide +kernel)⟩

theorem wit_PfcAndPeerDelay_8 :
    ∃ (d : Dev) (p : Nat) (c : Nat), p < 512 ∧ c < 8 :=
  ⟨State.reset.dev, 511, 7, (by decide +kernel), (by decide +kernel)⟩

theorem wit_PfcAndPeerDelay_9 :
    ∃ (d : Dev) (p : Nat) (c : Nat), p < 512 ∧ c < 8 ∧
      rdF (evalPp d p c) (ppReg p c) Reg.PP_STATUS_STATE ≠ rdF d (ppReg p c) Reg.PP_STATUS_STATE :=
  ⟨wr (wrF State.reset.dev (ppReg 0 2) Reg.PP_STATUS_STATE 1) (Reg.PFC_CFG 0 2) 0, 0, 2, (by decide +kernel), (by decide +kernel),
    (by decide +kernel)⟩

end Sys2Proof.Tests
end

