-- ==== Sys2Proof/Tests/Witness2.lean ====
section
/-!
SUPPORT. Witnesses, part 2: for each clause of O31 to O43 that has hypotheses, a state and operands that meet all of
them together. `wit_<Name>_<k>` is clause k, counted from 0, of the obligation of that name.
-/
namespace Sys2Proof.Tests
open Sys2Proof Sys2Proof.Machine
set_option Elab.async false
set_option maxRecDepth 10000
set_option linter.unusedVariables false

/-! O31, PortStates. -/

theorem wit_PortStates_0 :
    ∃ (s : State) (p : Nat), p < 512 ∧ portState s.dev p = 1 :=
  ⟨onDev fun d => wrF (d) (stateReg 0) Reg.PORT_STATE_STATE 1, 0, (by decide +kernel), (by decide +kernel)⟩

theorem wit_PortStates_1 :
    ∃ (s : State) (p : Nat), portState s.dev p = 1 :=
  ⟨onDev fun d => wrF (d) (stateReg 0) Reg.PORT_STATE_STATE 1, 0, (by decide +kernel)⟩

theorem wit_PortStates_2 :
    ∃ (s : State) (p : Nat), p < 512 ∧ ((portState s.dev p = 2 ∨ portState s.dev p = 4 ∨ portState s.dev p = 5)) ∧
      (getPort s.dev p).waiting = false :=
  ⟨onDev fun d => wrF (d) (stateReg 0) Reg.PORT_STATE_STATE 5, 0, (by decide +kernel), (by decide +kernel), (by decide +kernel)⟩

theorem wit_PortStates_3 :
    ∃ (s : State) (p : Nat), (portState s.dev p = 2 ∨ portState s.dev p = 4 ∨ portState s.dev p = 5) ∧
      stF s.dev p Reg.PORT_STATE_SIGNAL = 0 :=
  ⟨onDev fun d => wrF (d) (stateReg 0) Reg.PORT_STATE_STATE 2, 0, (by decide +kernel), (by decide +kernel)⟩

theorem wit_PortStates_4 :
    ∃ (s : State) (p : Nat), p < 512 ∧ portState s.dev p = 2 ∧ stF s.dev p Reg.PORT_STATE_SIGNAL = 1 ∧ attemptMode s.dev p 1 ≠ 0 :=
  ⟨onDev fun d => wrF (wrF (wr d (Reg.FALLBACK 0 0) 2) (stateReg 0) Reg.PORT_STATE_SIGNAL 1) (stateReg 0) Reg.PORT_STATE_STATE 2, 0,
    (by decide +kernel), (by decide +kernel), (by decide +kernel), (by decide +kernel)⟩

theorem wit_PortStates_5 :
    ∃ (s : State) (p : Nat), p < 512 ∧ ((portState s.dev p = 2 ∨ portState s.dev p = 4)) ∧ stF s.dev p Reg.PORT_STATE_SIGNAL = 1 ∧
      attemptMode s.dev p 1 = 0 :=
  ⟨onDev fun d => wrF (wrF (d) (stateReg 0) Reg.PORT_STATE_SIGNAL 1) (stateReg 0) Reg.PORT_STATE_STATE 4, 0, (by decide +kernel),
    (by decide +kernel), (by decide +kernel), (by decide +kernel)⟩

theorem wit_PortStates_6 :
    ∃ (s : State) (p : Nat) (remote : Bool), p < 512 ∧ portState s.dev p = 3 ∧ ((∀ k ∈ (getPort s.dev p).txQ, ∀ x,
      k.inject = some x → x.1 < 16)) :=
  ⟨onDev fun d => wrF (putPort d 0 { getPort d 0 with txQ := [pk], pfcQ := [([1], 2)] }) (stateReg 0) Reg.PORT_STATE_STATE 3, 0, true,
    (by decide +kernel), (by decide +kernel),
    (by intro k hk x hx; rw [(show ∀ k ∈ (getPort (onDev fun d => wrF (putPort d 0 { getPort d 0 with txQ := [pk], pfcQ := [([1], 2)] }) (stateReg 0) Reg.PORT_STATE_STATE 3).dev 0).txQ, k.inject = none from by decide +kernel) k hk] at hx; cases hx)⟩

theorem wit_PortStates_7 :
    ∃ (s : State) (p : Nat) (u : Nat) (c : Nat) (l : List Nat), p < 512 ∧ portState s.dev p = 3 ∧ ((∀ k ∈ (getPort s.dev p).txQ, ∀ x,
      k.inject = some x → x.1 < 16)) ∧ rdF s.dev (Reg.LINK_CFG (pS p) (pQ p)) Reg.LINK_CFG_UNCORR_LIMIT < u :=
  ⟨onDev fun d => wrF (putPort d 0 { getPort d 0 with txQ := [pk], pfcQ := [([1], 2)] }) (stateReg 0) Reg.PORT_STATE_STATE 3, 0,
    0x100000000, 4, [1], (by decide +kernel), (by decide +kernel),
    (by intro k hk x hx; rw [(show ∀ k ∈ (getPort (onDev fun d => wrF (putPort d 0 { getPort d 0 with txQ := [pk], pfcQ := [([1], 2)] }) (stateReg 0) Reg.PORT_STATE_STATE 3).dev 0).txQ, k.inject = none from by decide +kernel) k hk] at hx; cases hx), (by decide +kernel)⟩

theorem wit_PortStates_8 :
    ∃ (s : State) (p : Nat) (u : Nat) (c : Nat), p < 512 ∧ u ≤ rdF s.dev (Reg.LINK_CFG (pS p) (pQ p)) Reg.LINK_CFG_UNCORR_LIMIT :=
  ⟨onDev fun d => wrF (d) (stateReg 0) Reg.PORT_STATE_STATE 3, 0, 0, 4, (by decide +kernel), (by decide +kernel)⟩

theorem wit_PortStates_9 :
    ∃ (s : State) (p : Nat), portState s.dev p = 6 ∧ stF s.dev p Reg.PORT_STATE_RETRYING = 0 :=
  ⟨onDev fun d => wrF (d) (stateReg 0) Reg.PORT_STATE_STATE 6, 0, (by decide +kernel), (by decide +kernel)⟩

theorem wit_PortStates_10 :
    ∃ (s : State) (p : Nat) (all : Bool), portState s.dev p ≠ 7 :=
  ⟨onDev fun d => wrF (d) (stateReg 0) Reg.PORT_STATE_STATE 2, 0, true, (by decide +kernel)⟩

theorem wit_PortStates_11 :
    ∃ (s : State) (p : Nat) (all : Bool), portState s.dev p = 7 :=
  ⟨onDev fun d => wrF (d) (stateReg 0) Reg.PORT_STATE_STATE 7, 0, true, (by decide +kernel)⟩

/-! O32, StripControl. -/

theorem wit_StripControl_0 :
    ∃ (s : State) (n : Nat) (e : Nat), s.dev.strip.enginesOn = false :=
  ⟨onDev fun d => { d with strip := { d.strip with enginesOn := false } }, 1, 0, (by decide +kernel)⟩

theorem wit_StripControl_1 :
    ∃ (s : State) (n : Nat) (e : Nat) (p : Nat), s.dev.strip.enginesOn = true ∧ e < 4 ∧ n < stripCount s.dev ∧
      rdF s.dev (Reg.ENGINE_STATUS n e) Reg.ENGINE_STATUS_TASK = 0 ∧ p / 64 = n ∧ (getPort s.dev p).waiting = true ∧
      portState s.dev p = 4 ∧ ((∀ q, q / 64 = n → q < p → ¬ ((getPort s.dev q).waiting = true ∧ portState s.dev q = 4))) :=
  ⟨onDev fun d => putPort (wrF d (stateReg 65) Reg.PORT_STATE_STATE 4) 65 { getPort d 65 with waiting := true }, 1, 3, 65,
    (by decide +kernel), (by decide +kernel), (by decide +kernel), (by decide +kernel), (by decide +kernel), (by decide +kernel),
    (by decide +kernel), (by intro q h1 h2 ⟨h3, h4⟩; revert h3; have : q = 64 := (by omega); subst this; decide +kernel)⟩

theorem wit_StripControl_2 :
    ∃ (s : State) (n : Nat) (e : Nat), s.dev.strip.enginesOn = true ∧ e < 4 ∧ spGet (fun _ => 0) s.dev.strip.adapt (4 * n + e) = 15 :=
  ⟨onDev fun d => { d with strip := { d.strip with adapt := spPut (fun _ => 0) d.strip.adapt 7 15 } }, 1, 3, (by decide +kernel),
    (by decide +kernel), (by decide +kernel)⟩

theorem wit_StripControl_3 :
    ∃ (s : State) (agent : Nat) (n : Nat) (q : Nat) (v : W64), n < 8 ∧ q < 64 ∧ WriteReaches s.dev agent (Reg.PORT_MODE n q) v ∧
      FieldsInRange (Reg.PORT_MODE n q) v ∧ flagF s.dev Reg.FAULT_INJECT Reg.FAULT_INJECT_PENDING = false ∧
      flagF s.dev (Reg.STRIP_STATUS n) Reg.STRIP_STATUS_FALLOW = false ∧ portModeOk s.dev (64 * n + q) v = false :=
  ⟨State.reset, 1, 0, 1, setF (rd State.reset.dev (Reg.PORT_MODE 0 1)) Reg.PORT_MODE_SPEED 15, (by decide +kernel),
    (by decide +kernel), reaches_ok (by decide +kernel), (by rfl), (by decide +kernel), (by decide +kernel), (by decide +kernel)⟩

theorem wit_StripControl_4 :
    ∃ (s : State) (agent : Nat) (n : Nat) (q : Nat) (v : W64), n < 8 ∧ q < 64 ∧ WriteReaches s.dev agent (Reg.PORT_MODE n q) v ∧
      FieldsInRange (Reg.PORT_MODE n q) v ∧ flagF s.dev Reg.FAULT_INJECT Reg.FAULT_INJECT_PENDING = false ∧
      flagF s.dev (Reg.STRIP_STATUS n) Reg.STRIP_STATUS_FALLOW = false ∧ portModeOk s.dev (64 * n + q) v = true ∧
      getF v Reg.PORT_MODE_ENABLE = 0 ∧ ((∀ k ∈ (getPort s.dev (64 * n + q)).txQ, ∀ x, k.inject = some x → x.1 < 16)) :=
  ⟨State.reset, 1, 0, 1, rd State.reset.dev (Reg.PORT_MODE 0 1), (by decide +kernel), (by decide +kernel),
    reaches_ok (by decide +kernel), (by rfl), (by decide +kernel), (by decide +kernel), (by decide +kernel), (by decide +kernel),
    (by intro k hk; cases hk)⟩

theorem wit_StripControl_5 :
    ∃ (s : State) (g : Nat) (w : Nat) (rest : List (Nat × Nat)) (b : Tbl), (rewritePrune s.dev).strip.rewrite = (g, w) :: rest ∧
      flagF s.dev Reg.ORCHARD_STATUS Reg.ORCHARD_STATUS_BUSY = false ∧ tbl s.dev (rdF s.dev Reg.AGG_CFG Reg.AGG_CFG_TABLE) = some b :=
  ⟨onDev fun d => { wrF (wrF (wrF (tabd 5 d) Reg.AGG_CFG Reg.AGG_CFG_EN 1) Reg.AGG_CFG Reg.AGG_CFG_TABLE 3) (Reg.AGG_GROUP 1) Reg.AGG_GROUP_VALID 1 with strip := { d.strip with rewrite := [(1, 2)] } },
    1, 2, [], ⟨3, 5, 0, 2, false, 96, true, true, 32, 0, 0⟩, (by decide +kernel), (by decide +kernel), (by decide +kernel)⟩

theorem wit_StripControl_6 :
    ∃ (s : State),
      (flagF s.dev Reg.AGG_CFG Reg.AGG_CFG_EN = false ∨ (∀ e ∈ s.dev.strip.rewrite, flagF s.dev (Reg.AGG_GROUP e.1) Reg.AGG_GROUP_VALID = false)) :=
  ⟨onDev fun d => { d with strip := { d.strip with rewrite := [(1, 2)] } }, .inl (by decide +kernel)⟩

theorem wit_StripControl_7 :
    ∃ (s : State) (agent : Nat) (n : Nat), n < 8 ∧ WriteReaches s.dev agent (Reg.STRIP_CTRL n) (setF 0 Reg.STRIP_CTRL_FALLOW 1) ∧
      rdF s.dev (Reg.STRIP_CTRL n) Reg.STRIP_CTRL_FALLOW = 0 ∧ ((∀ q, q < 64 → modeF s.dev (64 * n + q) Reg.PORT_MODE_ENABLE ≠ 1)) ∧
      ((∀ q, q < 64 → ∀ k ∈ (getPort s.dev (64 * n + q)).txQ, ∀ x, k.inject = some x → x.1 < 16)) :=
  ⟨State.reset, 1, 7, (by decide +kernel), reaches_ok (by decide +kernel), (by decide +kernel), (by decide +kernel),
    (by intro q _ k hk; cases hk)⟩

theorem wit_StripControl_8 :
    ∃ (s : State) (agent : Nat) (n : Nat), ∃ (q : Nat), n < 8 ∧
      WriteReaches s.dev agent (Reg.STRIP_CTRL n) (setF 0 Reg.STRIP_CTRL_FALLOW 1) ∧
      rdF s.dev (Reg.STRIP_CTRL n) Reg.STRIP_CTRL_FALLOW = 0 ∧ q < 64 ∧ modeF s.dev (64 * n + q) Reg.PORT_MODE_ENABLE = 1 :=
  ⟨onDev fun d => wrF d (Reg.PORT_MODE 7 63) Reg.PORT_MODE_ENABLE 1, 1, 7, 63, (by decide +kernel), reaches_ok (by decide +kernel),
    (by decide +kernel), (by decide +kernel), (by decide +kernel)⟩

theorem wit_StripControl_9 :
    ∃ (s : State) (agent : Nat) (n : Nat), n < 8 ∧ WriteReaches s.dev agent (Reg.STRIP_CTRL n) 0 ∧
      rdF s.dev (Reg.STRIP_CTRL n) Reg.STRIP_CTRL_FALLOW = 1 :=
  ⟨onDev fun d => wrF d (Reg.STRIP_CTRL 7) Reg.STRIP_CTRL_FALLOW 1, 1, 7, (by decide +kernel), reaches_ok (by decide +kernel),
    (by decide +kernel)⟩

theorem wit_StripControl_10 :
    ∃ (s : State) (n : Nat), n < stripCount s.dev ∧ flagF s.dev (Reg.STRIP_CTRL n) Reg.STRIP_CTRL_FALLOW = false ∧
      ((flagF s.dev (Reg.STRIP_STATUS n) Reg.STRIP_STATUS_FALLOW = true → ∀ q, q < 64 → portState s.dev (64 * n + q) = 7)) :=
  ⟨State.reset, 7, (by decide +kernel), (by decide +kernel), (by decide +kernel)⟩

theorem wit_StripControl_11 :
    ∃ (s : State) (n : Nat), n < stripCount s.dev ∧ flagF s.dev (Reg.STRIP_STATUS n) Reg.STRIP_STATUS_FALLOW = false ∧
      flagF s.dev (Reg.STRIP_STATUS n) Reg.STRIP_STATUS_PLL_LOCK = true :=
  ⟨onDev fun d => wrF d (Reg.STRIP_STATUS 7) Reg.STRIP_STATUS_PLL_LOCK 1, 7, (by decide +kernel), (by decide +kernel),
    (by decide +kernel)⟩

/-! O33, DeepContents. -/

theorem wit_DeepContents_0 :
    ∃ (s : State) (off : Nat) (bs : List Byte) (a : Nat), ctlReset s.dev = false ∧ 0x2000000 ≤ off ∧ off < 0x10000000 ∧
      islandOff s.dev 3 = false ∧ s.dev.writes = [] ∧ a = (rd s.dev Reg.HOST_BULK_BASE).toNat + (off - 0x2000000) ∧
      deepReady s.dev = true ∧ a + bs.length ≤ deepSize s.dev ∧ flagF s.dev Reg.FAULT_INJECT Reg.FAULT_INJECT_PENDING = false ∧
      ((∀ k c x, k < 2 → c < 32 → x < 4 → rankState s.dev k c x ≠ 6)) ∧ (∀ r ∈ s.dev.deep.reqs, r.port ≠ 5) :=
  ⟨onDev fun d => wrF d Reg.DEEP_STATUS Reg.DEEP_STATUS_READY 1, 0x2000010, [1, 2, 3],
    (rd (onDev fun d => wrF d Reg.DEEP_STATUS Reg.DEEP_STATUS_READY 1).dev Reg.HOST_BULK_BASE).toNat + ((0x2000010) - 0x2000000),
    (by decide +kernel), (by decide +kernel), (by decide +kernel), (by decide +kernel), (by decide +kernel), rfl, (by decide +kernel),
    (by decide +kernel), (by decide +kernel),
    (by intro k c x hk hc hx; exact (show ∀ k < 2, ∀ c < 32, ∀ x < 4, rankState (onDev fun d => wrF d Reg.DEEP_STATUS Reg.DEEP_STATUS_READY 1).dev k c x ≠ 6 from by decide +kernel) k hk c hc x hx),
    (by decide +kernel)⟩

theorem wit_DeepContents_1 :
    ∃ (s : State) (off : Nat) (n : Nat) (a : Nat), ctlReset s.dev = false ∧ 0x2000000 ≤ off ∧ off < 0x10000000 ∧
      islandOff s.dev 3 = false ∧ s.dev.writes = [] ∧ a = (rd s.dev Reg.HOST_BULK_BASE).toNat + (off - 0x2000000) ∧
      deepReady s.dev = true ∧ a + n ≤ deepSize s.dev ∧ flagF s.dev Reg.FAULT_INJECT Reg.FAULT_INJECT_PENDING = false ∧
      ((∀ k c x, k < 2 → c < 32 → x < 4 → rankState s.dev k c x ≠ 6)) ∧ (∀ key, ecc s.dev .deep key = 0) ∧
      (∀ r ∈ s.dev.deep.reqs, r.port ≠ 5) :=
  ⟨onDev fun d => wrF d Reg.DEEP_STATUS Reg.DEEP_STATUS_READY 1, 0x2000010, 3,
    (rd (onDev fun d => wrF d Reg.DEEP_STATUS Reg.DEEP_STATUS_READY 1).dev Reg.HOST_BULK_BASE).toNat + ((0x2000010) - 0x2000000),
    (by decide +kernel), (by decide +kernel), (by decide +kernel), (by decide +kernel), (by decide +kernel), rfl, (by decide +kernel),
    (by decide +kernel), (by decide +kernel),
    (by intro k c x hk hc hx; exact (show ∀ k < 2, ∀ c < 32, ∀ x < 4, rankState (onDev fun d => wrF d Reg.DEEP_STATUS Reg.DEEP_STATUS_READY 1).dev k c x ≠ 6 from by decide +kernel) k hk c hc x hx),
    (by intro key; rfl), (by decide +kernel)⟩

/-! O34, DeepInitAndRequests. -/

theorem wit_DeepInitAndRequests_0 :
    ∃ (s : State) (agent : Nat), WriteReaches s.dev agent Reg.DEEP_CTRL (setF 0 Reg.DEEP_CTRL_INIT 1) ∧
      getF (rd s.dev Reg.DEEP_STATUS) ⟨0, 3⟩ = 0 :=
  ⟨State.reset, 1, reaches_ok (by decide +kernel), (by decide +kernel)⟩

theorem wit_DeepInitAndRequests_1 :
    ∃ (s : State) (agent : Nat), WriteReaches s.dev agent Reg.DEEP_CTRL (setF 0 Reg.DEEP_CTRL_INIT 1) ∧ deepReady s.dev = true :=
  ⟨onDev fun d => wrF d Reg.DEEP_STATUS Reg.DEEP_STATUS_READY 1, 1, reaches_ok (by decide +kernel), (by decide +kernel)⟩

theorem wit_DeepInitAndRequests_2 :
    ∃ (s : State) (fails : Nat) (t0 : Nat) (t1 : Nat), flagF s.dev Reg.DEEP_STATUS Reg.DEEP_STATUS_INIT_BUSY = true ∧ s.dev.writes = [] ∧
      ((∀ k, k < stackCount s.dev → bit fails k = false)) :=
  ⟨onDev fun d => wrF d Reg.DEEP_STATUS Reg.DEEP_STATUS_INIT_BUSY 1, 0, 30, 40, (by decide +kernel), (by decide +kernel),
    (by decide +kernel)⟩

theorem wit_DeepInitAndRequests_3 :
    ∃ (s : State) (fails : Nat) (t0 : Nat) (t1 : Nat), flagF s.dev Reg.DEEP_STATUS Reg.DEEP_STATUS_INIT_BUSY = true ∧ s.dev.writes = [] ∧
      (∃ k, k < stackCount s.dev ∧ bit fails k = true) :=
  ⟨onDev fun d => wrF d Reg.DEEP_STATUS Reg.DEEP_STATUS_INIT_BUSY 1, 2, 30, 40, (by decide +kernel), (by decide +kernel),
    ⟨1, by decide +kernel, by decide +kernel⟩⟩

theorem wit_DeepInitAndRequests_4 :
    ∃ (s : State) (fails : Nat) (t0 : Nat) (t1 : Nat), flagF s.dev Reg.DEEP_STATUS Reg.DEEP_STATUS_INIT_BUSY = false :=
  ⟨State.reset, 0, 30, 40, (by decide +kernel)⟩

theorem wit_DeepInitAndRequests_5 :
    ∃ (s : State) (x : Nat) (w : Bool) (a : Nat) (n : Nat) (bs : List Byte), deepReady s.dev = false :=
  ⟨State.reset, 8, false, 0, 64, [], (by decide +kernel)⟩

theorem wit_DeepInitAndRequests_6 :
    ∃ (s : State) (x : Nat) (w : Bool) (a : Nat) (n : Nat) (bs : List Byte), deepReady s.dev = true ∧
      deepSize s.dev < a + (if w then bs.length else n) :=
  ⟨onDev fun d => wrF d Reg.DEEP_STATUS Reg.DEEP_STATUS_READY 1, 8, false, 2 ^ 38, 64, [], (by decide +kernel), (by decide +kernel)⟩

theorem wit_DeepInitAndRequests_7 :
    ∃ (s : State) (x : Nat) (w : Bool) (a : Nat) (n : Nat) (bs : List Byte) (len : Nat), deepReady s.dev = true ∧
      len = (if w then bs.length else n) ∧ a + len ≤ deepSize s.dev :=
  ⟨onDev fun d => wrF d Reg.DEEP_STATUS Reg.DEEP_STATUS_READY 1, 8, false, 64, 64, [], (if (false) then ([]).length else (64)),
    (by decide +kernel), rfl, (by decide +kernel)⟩

theorem wit_DeepInitAndRequests_8 :
    ∃ (s : State) (i : Nat) (r : DeepReq), s.dev.deep.reqs[i]? = some r :=
  ⟨onDev fun d => { d with deep := { d.deep with reqs := [⟨0, 1, false, 64, [], 0, burstsOf 64 64, List.replicate 64 0, true⟩] } }, 0,
    ⟨0, 1, false, 64, [], 0, burstsOf 64 64, List.replicate 64 0, true⟩, (by decide +kernel)⟩

theorem wit_DeepInitAndRequests_9 :
    ∃ (s : State) (i : Nat), s.dev.deep.reqs[i]? = none ∧ flagF s.dev Reg.DEEP_ACC_STATUS Reg.DEEP_ACC_STATUS_BUSY = true ∧
      rdF s.dev Reg.DEEP_ACC_STATUS Reg.DEEP_ACC_STATUS_RESULT = 0 :=
  ⟨onDev fun d => wrF (wrF d Reg.DEEP_ACC_STATUS Reg.DEEP_ACC_STATUS_BUSY 1) Reg.DEEP_ACC_CMD Reg.DEEP_ACC_CMD_OP 1, 0,
    (by decide +kernel), (by decide +kernel), (by decide +kernel)⟩

/-! O35, DeepMaintenance. -/

theorem wit_DeepMaintenance_0 :
    ∃ (s : State) (k : Nat) (c : Nat) (p : Nat) (b : Nat), deepReady s.dev = true ∧ k < stackCount s.dev ∧
      flagF s.dev Reg.FAULT_INJECT Reg.FAULT_INJECT_PENDING = false ∧
      (pchBanks k c p).find? (fun b => decide (4 ≤ (getDBank s.dev b).postponed)) = some b :=
  ⟨onDev fun d => wrF (putDBank d 0 { bankDef 0 with postponed := 4 }) Reg.DEEP_STATUS Reg.DEEP_STATUS_READY 1, 0, 0, 0, 0,
    (by decide +kernel), (by decide +kernel), (by decide +kernel), (by decide +kernel)⟩

theorem wit_DeepMaintenance_1 :
    ∃ (s : State) (k : Nat) (c : Nat) (p : Nat) (i : Nat) (b : Nat) (d : Dev), deepReady s.dev = true ∧ k < stackCount s.dev ∧
      (∀ b ∈ pchBanks k c p, (getDBank s.dev b).postponed < 4 ∧ (getDBank s.dev b).due = []) ∧
      spGet (fun _ => 0) s.dev.deep.slots (pchKey k c p) % 4096 < 4094 ∧
      d = { s.dev with deep := { s.dev.deep with panic := panicMask s.dev, slots := (spPut (fun _ => 0) s.dev.deep.slots (pchKey k c p) (spGet (fun _ => 0) s.dev.deep.slots (pchKey k c p) + 1)) } } ∧
      pickReq d k c p = some (i, b) :=
  ⟨onDev fun d => wrF ({ d with deep := { (d).deep with reqs := [DeepReq.mk 0 1 false 0 [] 0 (burstsOf 0 64) (List.replicate 64 0) true] } }) Reg.DEEP_STATUS Reg.DEEP_STATUS_READY 1,
    0, 0, 0, 0, 0,
    { (onDev fun d => wrF ({ d with deep := { (d).deep with reqs := [DeepReq.mk 0 1 false 0 [] 0 (burstsOf 0 64) (List.replicate 64 0) true] } }) Reg.DEEP_STATUS Reg.DEEP_STATUS_READY 1).dev with deep := { (onDev fun d => wrF ({ d with deep := { (d).deep with reqs := [DeepReq.mk 0 1 false 0 [] 0 (burstsOf 0 64) (List.replicate 64 0) true] } }) Reg.DEEP_STATUS Reg.DEEP_STATUS_READY 1).dev.deep with panic := panicMask (onDev fun d => wrF ({ d with deep := { (d).deep with reqs := [DeepReq.mk 0 1 false 0 [] 0 (burstsOf 0 64) (List.replicate 64 0) true] } }) Reg.DEEP_STATUS Reg.DEEP_STATUS_READY 1).dev, slots := (spPut (fun _ => 0) (onDev fun d => wrF ({ d with deep := { (d).deep with reqs := [DeepReq.mk 0 1 false 0 [] 0 (burstsOf 0 64) (List.replicate 64 0) true] } }) Reg.DEEP_STATUS Reg.DEEP_STATUS_READY 1).dev.deep.slots (pchKey (0) (0) (0)) (spGet (fun _ => 0) (onDev fun d => wrF ({ d with deep := { (d).deep with reqs := [DeepReq.mk 0 1 false 0 [] 0 (burstsOf 0 64) (List.replicate 64 0) true] } }) Reg.DEEP_STATUS Reg.DEEP_STATUS_READY 1).dev.deep.slots (pchKey (0) (0) (0)) + 1)) } },
    (by decide +kernel), (by decide +kernel), (by decide +kernel), (by decide +kernel), rfl, (by decide +kernel)⟩

theorem wit_DeepMaintenance_2 :
    ∃ (s : State) (rank : Nat) (p : Nat) (bank : Nat), flagF s.dev Reg.FAULT_INJECT Reg.FAULT_INJECT_PENDING = false ∧
      (∀ r ∈ s.dev.deep.reqs, ∀ b ∈ r.left, (deepLoc s.dev b.1).bankOf s.dev ≠ bankKey rank p bank) :=
  ⟨State.reset, 0, 0, 0, (by decide +kernel), (by intro r hr; cases hr)⟩

theorem wit_DeepMaintenance_3 :
    ∃ (s : State) (rank : Nat) (p : Nat) (bank : Nat) (r : DeepReq) (b : Nat × Nat × Nat),
      flagF s.dev Reg.FAULT_INJECT Reg.FAULT_INJECT_PENDING = false ∧ r ∈ s.dev.deep.reqs ∧ b ∈ r.left ∧
      (deepLoc s.dev b.1).bankOf s.dev = bankKey rank p bank ∧ (getDBank s.dev (bankKey rank p bank)).postponed < 4 :=
  ⟨onDev fun d => { d with deep := { (d).deep with reqs := [DeepReq.mk 0 1 false 0 [] 0 (burstsOf 0 64) (List.replicate 64 0) true] } },
    0, 0, 0, DeepReq.mk 0 1 false 0 [] 0 (burstsOf 0 64) (List.replicate 64 0) true, (burstsOf 0 64).headD (0, 0, 0), (by decide +kernel),
    List.mem_singleton.mpr rfl, (by decide +kernel), (by decide +kernel), (by decide +kernel)⟩

theorem wit_DeepMaintenance_4 :
    ∃ (s : State) (rank : Nat) (p : Nat) (bank : Nat) (r : DeepReq) (b : Nat × Nat × Nat),
      flagF s.dev Reg.FAULT_INJECT Reg.FAULT_INJECT_PENDING = false ∧ r ∈ s.dev.deep.reqs ∧ b ∈ r.left ∧
      (deepLoc s.dev b.1).bankOf s.dev = bankKey rank p bank ∧ 4 ≤ (getDBank s.dev (bankKey rank p bank)).postponed :=
  ⟨onDev fun d => { putDBank d 0 { bankDef 0 with postponed := 4 } with deep := { (putDBank d 0 { bankDef 0 with postponed := 4 }).deep with reqs := [DeepReq.mk 0 1 false 0 [] 0 (burstsOf 0 64) (List.replicate 64 0) true] } },
    0, 0, 0, DeepReq.mk 0 1 false 0 [] 0 (burstsOf 0 64) (List.replicate 64 0) true, (burstsOf 0 64).headD (0, 0, 0), (by decide +kernel),
    List.mem_singleton.mpr rfl, (by decide +kernel), (by decide +kernel), (by decide +kernel)⟩

theorem wit_DeepMaintenance_5 :
    ∃ (s : State) (key : Nat) (r : Nat) (rest : List Nat), flagF s.dev Reg.FAULT_INJECT Reg.FAULT_INJECT_PENDING = false ∧
      (getDBank s.dev key).due = r :: rest :=
  ⟨onDev fun d => putDBank d 0 { bankDef 0 with due := [7, 8], acts := [(7, 5)] }, 0, 7, [8], (by decide +kernel), (by decide +kernel)⟩

theorem wit_DeepMaintenance_6 :
    ∃ (s : State) (rank : Nat) (p : Nat) (bank : Nat) (n : Nat), flagF s.dev Reg.FAULT_INJECT Reg.FAULT_INJECT_PENDING = false ∧
      n = spGet (fun _ => 0) s.dev.deep.rfm (rank / 128) ∧ n ≠ 0 ∧ n ≤ (getDBank s.dev (bankKey rank p bank)).raa :=
  ⟨onDev fun d => { putDBank d 0 { bankDef 0 with raa := 6 } with deep := { (putDBank d 0 { bankDef 0 with raa := 6 }).deep with rfm := spPut (fun _ => 0) d.deep.rfm 0 5 } },
    0, 0, 0,
    spGet (fun _ => 0) (onDev fun d => { putDBank d 0 { bankDef 0 with raa := 6 } with deep := { (putDBank d 0 { bankDef 0 with raa := 6 }).deep with rfm := spPut (fun _ => 0) d.deep.rfm 0 5 } }).dev.deep.rfm ((0) / 128),
    (by decide +kernel), rfl, (by decide +kernel), (by decide +kernel)⟩

theorem wit_DeepMaintenance_8 :
    ∃ (s : State) (rank : Nat) (p : Nat) (bank : Nat),
      bankWanted s.dev (bankKey rank p bank) (getDBank s.dev (bankKey rank p bank)).openRow = false :=
  ⟨onDev fun d => putDBank d 0 { bankDef 0 with openRow := some 9 }, 0, 0, 0, (by decide +kernel)⟩

theorem wit_DeepMaintenance_9 :
    ∃ (s : State) (rank : Nat) (p : Nat) (bank : Nat),
      bankWanted s.dev (bankKey rank p bank) (getDBank s.dev (bankKey rank p bank)).openRow = true :=
  ⟨onDev fun d => { putDBank d 0 { bankDef 0 with openRow := some 0 } with deep := { (putDBank d 0 { bankDef 0 with openRow := some 0 }).deep with reqs := [DeepReq.mk 0 1 false 0 [] 0 (burstsOf 0 64) (List.replicate 64 0) true] } },
    0, 0, 0, (by decide +kernel)⟩

theorem wit_DeepMaintenance_10 :
    ∃ (s : State) (k : Nat) (t0 : Int) (hot : Bool), k < stackCount s.dev ∧
      flagF s.dev Reg.FAULT_INJECT Reg.FAULT_INJECT_PENDING = false ∧ -40 ≤ t0 ∧ t0 ≤ 125 :=
  ⟨State.reset, 1, -40, true, (by decide +kernel), (by decide +kernel), (by decide +kernel), (by decide +kernel)⟩

theorem wit_DeepMaintenance_11 :
    ∃ (s : State) (k : Nat) (c : Instr) (t0 : Int) (hot : Bool), k < stackCount s.dev ∧
      flagF s.dev Reg.FAULT_INJECT Reg.FAULT_INJECT_PENDING = false ∧
      (c = .tempReadMissing k ∨ (c = .stackTempRead k t0 hot ∧ (t0 < -40 ∨ 125 < t0))) :=
  ⟨State.reset, 1, Instr.stackTempRead 1 126 false, 126, false, (by decide +kernel), (by decide +kernel), .inr ⟨rfl, .inr (by decide)⟩⟩

theorem wit_DeepMaintenance_12 :
    ∃ (s : State) (k : Nat) (c : Instr) (t0 : Int) (hot : Bool), stackCount s.dev ≤ k ∧
      (c = .tempReadMissing k ∨ c = .stackTempRead k t0 hot) :=
  ⟨onDev fun d => { d with fuses := { d.fuses with half := true } }, 1, .tempReadMissing 1, 5, true, (by decide +kernel), .inl rfl⟩

theorem wit_DeepMaintenance_13 :
    ∃ (s : State) (k : Nat) (c : Nat) (p : Nat) (n : Nat), deepReady s.dev = true ∧ k < stackCount s.dev ∧
      flagF s.dev Reg.FAULT_INJECT Reg.FAULT_INJECT_PENDING = false ∧ n = spGet (fun _ => 0) s.dev.deep.patrol (pchKey k c p) ∧
      n < 25165824 ∧ ecc s.dev .deep (physBurst (rankNo k c (n / 6291456)) (2 * (n % 6291456 / 32) + p) (n % 32)) = 0 :=
  ⟨onDev fun d => wrF (d) Reg.DEEP_STATUS Reg.DEEP_STATUS_READY 1, 1, 31, 1,
    spGet (fun _ => 0) (onDev fun d => wrF (d) Reg.DEEP_STATUS Reg.DEEP_STATUS_READY 1).dev.deep.patrol (pchKey (1) (31) (1)),
    (by decide +kernel), (by decide +kernel), (by decide +kernel), rfl, (by decide +kernel), (by decide +kernel)⟩

/-! O36, DeepErrors. -/

theorem wit_DeepErrors_0 :
    ∃ (s : State) (key : Nat), spGet (fun _ => 0) s.dev.deep.writeBack key = 1 ∧ ecc s.dev .deep key = 1 ∧
      flagF s.dev Reg.FAULT_INJECT Reg.FAULT_INJECT_PENDING = false :=
  ⟨onDev fun d => setEcc { d with deep := { d.deep with writeBack := spPut (fun _ => 0) d.deep.writeBack 9 1 } } .deep 9 1, 9,
    (by decide +kernel), (by decide +kernel), (by decide +kernel)⟩

theorem wit_DeepErrors_1 :
    ∃ (s : State) (key : Nat), spGet (fun _ => 0) s.dev.deep.writeBack key ≠ 1 :=
  ⟨State.reset, 9, (by decide +kernel)⟩

theorem wit_DeepErrors_2 :
    ∃ (s : State) (k : Nat) (c : Nat) (r : Nat), k < 2 ∧ c < 32 ∧ r < 3 ∧ rdF s.dev Reg.DEEP_CFG Reg.DEEP_CFG_CE_LIMIT ≠ 0 ∧
      rdF s.dev Reg.DEEP_CFG Reg.DEEP_CFG_CE_LIMIT < (spGet (fun _ => (0, 0)) s.dev.deep.ceWindow (rankNo k c r)).2 ∧
      rankState s.dev k c r = 0 ∧ bit (rdF s.dev Reg.DEEP_STATUS Reg.DEEP_STATUS_SPARE_FREE) k = true :=
  ⟨onDev fun d => { wrF (wrF d Reg.DEEP_CFG Reg.DEEP_CFG_CE_LIMIT 5) Reg.DEEP_STATUS Reg.DEEP_STATUS_SPARE_FREE 3 with deep := { d.deep with ceWindow := spPut (fun _ => (0, 0)) d.deep.ceWindow (rankNo 1 31 2) (0, 6) } }, 1, 31, 2, (by decide +kernel), (by decide +kernel), (by decide +kernel), (by decide +kernel), (by decide +kernel), (by decide +kernel), (by decide +kernel)⟩

theorem wit_DeepErrors_3 :
    ∃ (s : State) (k : Nat) (c : Nat) (r : Nat), k < 2 ∧ c < 32 ∧ r < 3 ∧ rdF s.dev Reg.DEEP_CFG Reg.DEEP_CFG_CE_LIMIT ≠ 0 ∧
      rdF s.dev Reg.DEEP_CFG Reg.DEEP_CFG_CE_LIMIT < (spGet (fun _ => (0, 0)) s.dev.deep.ceWindow (rankNo k c r)).2 ∧
      rankState s.dev k c r = 0 ∧ bit (rdF s.dev Reg.DEEP_STATUS Reg.DEEP_STATUS_SPARE_FREE) k = false :=
  ⟨onDev fun d => { wrF (wrF d Reg.DEEP_CFG Reg.DEEP_CFG_CE_LIMIT 5) Reg.DEEP_STATUS Reg.DEEP_STATUS_SPARE_FREE 0 with deep := { d.deep with ceWindow := spPut (fun _ => (0, 0)) d.deep.ceWindow (rankNo 1 31 2) (0, 6) } }, 1, 31, 2, (by decide +kernel), (by decide +kernel), (by decide +kernel), (by decide +kernel), (by decide +kernel), (by decide +kernel), (by decide +kernel)⟩

theorem wit_DeepErrors_4 :
    ∃ (s : State) (k : Nat) (c : Nat) (r : Nat), rdF s.dev Reg.DEEP_CFG Reg.DEEP_CFG_CE_LIMIT ≠ 0 ∧
      rdF s.dev Reg.DEEP_CFG Reg.DEEP_CFG_CE_LIMIT < (spGet (fun _ => (0, 0)) s.dev.deep.ceWindow (rankNo k c r)).2 ∧
      rankState s.dev k c r ≠ 0 :=
  ⟨onDev fun d => wrF ({ wrF d Reg.DEEP_CFG Reg.DEEP_CFG_CE_LIMIT 5 with deep := { d.deep with ceWindow := spPut (fun _ => (0, 0)) d.deep.ceWindow (rankNo 1 31 2) (0, 6) } }) (Reg.RANK_STATE 1 31 2) Reg.RANK_STATE_STATE 3,
    1, 31, 2, (by decide +kernel), (by decide +kernel), (by decide +kernel)⟩

theorem wit_DeepErrors_5 :
    ∃ (s : State) (k : Nat) (c : Nat) (r : Nat), (spGet (fun _ => (0,
      0)) s.dev.deep.ceWindow (rankNo k c r)).2 ≤ rdF s.dev Reg.DEEP_CFG Reg.DEEP_CFG_CE_LIMIT :=
  ⟨State.reset, 1, 31, 2, (by decide +kernel)⟩

theorem wit_DeepErrors_6 :
    ∃ (s : State) (k : Nat), k < 2 ∧ s.dev.writes = [] ∧ flagF s.dev (Reg.DEEP_MIG_STATUS k) Reg.DEEP_MIG_STATUS_ACTIVE = true ∧
      flagF s.dev Reg.FAULT_INJECT Reg.FAULT_INJECT_PENDING = false ∧
      rdF s.dev (Reg.DEEP_MIG_STATUS k) Reg.DEEP_MIG_STATUS_UNITS_DONE + 1 < 393216 :=
  ⟨onDev fun d => wrFs d (Reg.DEEP_MIG_STATUS 1) [(Reg.DEEP_MIG_STATUS_ACTIVE, 1), (Reg.DEEP_MIG_STATUS_UNITS_DONE, 393214)], 1,
    (by decide +kernel), (by decide +kernel), (by decide +kernel), (by decide +kernel), (by decide +kernel)⟩

theorem wit_DeepErrors_7 :
    ∃ (s : State) (k : Nat), k < 2 ∧ s.dev.writes = [] ∧ flagF s.dev (Reg.DEEP_MIG_STATUS k) Reg.DEEP_MIG_STATUS_ACTIVE = true ∧
      flagF s.dev Reg.FAULT_INJECT Reg.FAULT_INJECT_PENDING = false ∧
      rdF s.dev (Reg.DEEP_MIG_STATUS k) Reg.DEEP_MIG_STATUS_UNITS_DONE = 393215 ∧
      rdF s.dev (Reg.DEEP_MIG_STATUS k) Reg.DEEP_MIG_STATUS_SRC_SID < 3 :=
  ⟨onDev fun d => wrFs d (Reg.DEEP_MIG_STATUS 1) [(Reg.DEEP_MIG_STATUS_ACTIVE, 1), (Reg.DEEP_MIG_STATUS_UNITS_DONE, 393215)], 1,
    (by decide +kernel), (by decide +kernel), (by decide +kernel), (by decide +kernel), (by decide +kernel), (by decide +kernel)⟩

theorem wit_DeepErrors_8 :
    ∃ (s : State) (k : Nat), flagF s.dev (Reg.DEEP_MIG_STATUS k) Reg.DEEP_MIG_STATUS_ACTIVE = false :=
  ⟨State.reset, 1, (by decide +kernel)⟩

/-! O37, BulkAccess. -/

theorem wit_BulkAccess_0 :
    ∃ (s : State) (agent : Nat) (v : W64), WriteReaches s.dev agent Reg.DEEP_ACC_CMD (setF v Reg.DEEP_ACC_CMD_OP 1) ∧
      FieldsInRange Reg.DEEP_ACC_CMD (setF v Reg.DEEP_ACC_CMD_OP 1) ∧ deepReady s.dev = false :=
  ⟨State.reset, 1, 0, reaches_ok (by decide +kernel), (by rfl), (by decide +kernel)⟩

theorem wit_BulkAccess_1 :
    ∃ (s : State) (agent : Nat) (v : W64), WriteReaches s.dev agent Reg.DEEP_ACC_CMD (setF v Reg.DEEP_ACC_CMD_OP 1) ∧
      FieldsInRange Reg.DEEP_ACC_CMD (setF v Reg.DEEP_ACC_CMD_OP 1) ∧ deepReady s.dev = true ∧
      64 * getF v Reg.DEEP_ACC_CMD_ADDR + 64 ≤ deepSize s.dev ∧ flagF s.dev Reg.FAULT_INJECT Reg.FAULT_INJECT_PENDING = false ∧
      ((∀ k c x, k < 2 → c < 32 → x < 4 → rankState s.dev k c x ≠ 6)) ∧ (∀ key, ecc s.dev .deep key = 0) ∧
      (∀ r ∈ s.dev.deep.reqs, r.port ≠ 5) ∧ s.dev.writes = [] :=
  ⟨onDev fun d => wrF d Reg.DEEP_STATUS Reg.DEEP_STATUS_READY 1, 1, 0x500, reaches_ok (by decide +kernel), (by rfl), (by decide +kernel),
    (by decide +kernel), (by decide +kernel),
    (by intro k c x hk hc hx; exact (show ∀ k < 2, ∀ c < 32, ∀ x < 4, rankState (onDev fun d => wrF d Reg.DEEP_STATUS Reg.DEEP_STATUS_READY 1).dev k c x ≠ 6 from by decide +kernel) k hk c hc x hx),
    (by intro key; rfl), (by decide +kernel), (by decide +kernel)⟩

theorem wit_BulkAccess_2 :
    ∃ (s : State) (agent : Nat) (v : W64), WriteReaches s.dev agent Reg.DEEP_ACC_CMD (setF v Reg.DEEP_ACC_CMD_OP 2) ∧
      FieldsInRange Reg.DEEP_ACC_CMD (setF v Reg.DEEP_ACC_CMD_OP 2) ∧ deepReady s.dev = true ∧
      64 * getF v Reg.DEEP_ACC_CMD_ADDR + 64 ≤ deepSize s.dev ∧ s.dev.writes = [] ∧
      flagF s.dev Reg.FAULT_INJECT Reg.FAULT_INJECT_PENDING = false ∧ ((∀ k c x, k < 2 → c < 32 → x < 4 → rankState s.dev k c x ≠ 6)) ∧
      (∀ r ∈ s.dev.deep.reqs, r.port ≠ 5) :=
  ⟨onDev fun d => wrF d Reg.DEEP_STATUS Reg.DEEP_STATUS_READY 1, 1, 0x500, reaches_ok (by decide +kernel), (by rfl), (by decide +kernel),
    (by decide +kernel), (by decide +kernel), (by decide +kernel),
    (by intro k c x hk hc hx; exact (show ∀ k < 2, ∀ c < 32, ∀ x < 4, rankState (onDev fun d => wrF d Reg.DEEP_STATUS Reg.DEEP_STATUS_READY 1).dev k c x ≠ 6 from by decide +kernel) k hk c hc x hx),
    (by decide +kernel)⟩

theorem wit_BulkAccess_3 :
    ∃ (s : State) (off : Nat) (bs : List Byte), ctlReset s.dev = false ∧ off < 0x1FF0000 ∧ islandOff s.dev 4 = false :=
  ⟨State.reset, 0x1FEFFFF, [1, 2], (by decide +kernel), (by decide +kernel), (by decide +kernel)⟩

theorem wit_BulkAccess_4 :
    ∃ (s : State) (off : Nat) (bs : List Byte), ctlReset s.dev = false ∧ 0x2000000 ≤ off ∧ off < 0x10000000 ∧ islandOff s.dev 3 = false :=
  ⟨State.reset, 0x2000000, [1], (by decide +kernel), (by decide +kernel), (by decide +kernel), (by decide +kernel)⟩

theorem wit_BulkAccess_5 :
    ∃ (s : State) (off : Nat) (bs : List Byte), 0x1FF0000 ≤ off ∧ off < 0x2000000 :=
  ⟨State.reset, 0x1FF0000, [1], (by decide +kernel), (by decide +kernel)⟩

theorem wit_BulkAccess_6 :
    ∃ (s : State) (off : Nat) (n : Nat), ctlReset s.dev = false ∧ off < 0x1FF0000 ∧ islandOff s.dev 4 = false :=
  ⟨State.reset, 0x1FEFFFF, 2, (by decide +kernel), (by decide +kernel), (by decide +kernel)⟩

theorem wit_BulkAccess_7 :
    ∃ (s : State) (off : Nat) (n : Nat) (bs : List Byte) (d : Dev), ctlReset s.dev = false ∧ 0x2000000 ≤ off ∧ off < 0x10000000 ∧
      islandOff s.dev 3 = false ∧ deepRead s.mem s.dev 5 ((rd s.dev Reg.HOST_BULK_BASE).toNat + (off - 0x2000000)) n 1 1 = (bs, 0, d) :=
  ⟨onDev fun d => wrF d Reg.DEEP_STATUS Reg.DEEP_STATUS_READY 1, 0x2000000, 2, [0, 0],
    (deepRead (onDev fun d => wrF d Reg.DEEP_STATUS Reg.DEEP_STATUS_READY 1).mem (onDev fun d => wrF d Reg.DEEP_STATUS Reg.DEEP_STATUS_READY 1).dev 5 ((rd (onDev fun d => wrF d Reg.DEEP_STATUS Reg.DEEP_STATUS_READY 1).dev Reg.HOST_BULK_BASE).toNat) 2 1 1).2.2,
    (by decide +kernel), (by decide +kernel), (by decide +kernel), (by decide +kernel), (by decide +kernel)⟩

/-! O38, RindLease. -/

theorem wit_RindLease_0 :
    ∃ (s : State) (agent : Nat), 1 ≤ agent ∧ agent ≤ 4 ∧ WriteReaches s.dev agent Reg.RIND_LOCK (setF 0 Reg.RIND_LOCK_REQUEST 1) ∧
      leaseOwner s.dev = 0 :=
  ⟨State.reset, 4, (by decide +kernel), (by decide +kernel), reaches_ok (by decide +kernel), (by decide +kernel)⟩

theorem wit_RindLease_1 :
    ∃ (s : State) (agent : Nat), 1 ≤ agent ∧ agent ≤ 4 ∧ WriteReaches s.dev agent Reg.RIND_LOCK (setF 0 Reg.RIND_LOCK_REQUEST 1) ∧
      leaseOwner s.dev ≠ 0 ∧ leaseOwner s.dev ≠ agent ∧ agent ∉ s.dev.rind.waiting :=
  ⟨onDev fun d => { leased 1 d with rind := { d.rind with waiting := [] } }, 2, (by decide +kernel), (by decide +kernel),
    reaches_ok (by decide +kernel), (by decide +kernel), (by decide +kernel), (by decide +kernel)⟩

theorem wit_RindLease_2 :
    ∃ (s : State) (agent : Nat), WriteReaches s.dev agent Reg.RIND_LOCK (setF 0 Reg.RIND_LOCK_RELEASE 1) ∧ agent ≠ 0 ∧
      (∀ n ∈ s.dev.rind.waiting, n ≤ 4) ∧ leaseOwner s.dev = agent :=
  ⟨onDev fun d => { leased 2 d with rind := { d.rind with waiting := [1, 3] } }, 2, reaches_ok (by decide +kernel),
    (by decide +kernel), (by decide +kernel), (by decide +kernel)⟩

theorem wit_RindLease_3 :
    ∃ (s : State) (agent : Nat), WriteReaches s.dev agent Reg.RIND_LOCK (setF 0 Reg.RIND_LOCK_RELEASE 1) ∧ agent ≠ 0 ∧
      (∀ n ∈ s.dev.rind.waiting, n ≤ 4) ∧ leaseOwner s.dev ≠ agent :=
  ⟨onDev fun d => { leased 1 d with rind := { d.rind with waiting := [3] } }, 2, reaches_ok (by decide +kernel), (by decide +kernel),
    (by decide +kernel), (by decide +kernel)⟩

theorem wit_RindLease_4 :
    ∃ (s : State), leaseOwner s.dev ≠ 0 ∧ (∀ n ∈ s.dev.rind.waiting, n ≤ 4) :=
  ⟨onDev fun d => { leased 1 d with rind := { d.rind with waiting := [3] } }, (by decide +kernel), (by decide +kernel)⟩

theorem wit_RindLease_5 :
    ∃ (s : State) (agent : Nat) (v : W64) (c : Instr), c ∈ [Instr.rindRead agent v, .rindWrite agent v, .rindUpdate agent v,
      .rindInvalidate agent v, .rindAdvancePn agent v, .rindZeroize agent v] ∧ ctlReset s.dev = false ∧
      flagF s.dev Reg.FAULT_INJECT Reg.FAULT_INJECT_PENDING = false ∧ (leaseOwner s.dev ≠ agent ∨ agent = 0) :=
  ⟨onDev fun d => { leased 2 d with rind := { d.rind with waiting := [] } }, 1, 1, Instr.rindRead 1 1, (by decide +kernel),
    (by decide +kernel), (by decide +kernel), (by decide +kernel)⟩

/-! O39, RindCommands. -/

theorem wit_RindCommands_0 :
    ∃ (s : State) (agent : Nat) (v : W64) (k : Nat) (i : Nat) (e : Nat), let cmd := fun op => setF v Reg.RIND_CMD_OP op;
      let result := fun (t : State) => rdF t.dev Reg.RIND_STATUS Reg.RIND_STATUS_RESULT; k = getF v Reg.RIND_CMD_KIND ∧
      i = getF v Reg.RIND_CMD_INDEX ∧ e = rindEnt s.dev k i ∧ k ≤ 6 ∧
      ((∀ op, 1 ≤ op → op ≤ 6 → WriteReaches s.dev agent Reg.RIND_CMD (cmd op) ∧ FieldsInRange Reg.RIND_CMD (cmd op))) ∧
      rindIdxOk s.dev k i = true ∧ ecc s.dev .rindEntry (saKey k i) = 0 :=
  ⟨onDev fun d => putEnt (leased 1 d) 2 0 (2 ^ 831 + 2 ^ 827 + 2 ^ 640 + 77), 1, 32, getF (32) Reg.RIND_CMD_KIND,
    getF (32) Reg.RIND_CMD_INDEX,
    rindEnt (onDev fun d => putEnt (leased 1 d) 2 0 (2 ^ 831 + 2 ^ 827 + 2 ^ 640 + 77)).dev (getF (32) Reg.RIND_CMD_KIND) (getF (32) Reg.RIND_CMD_INDEX),
    rfl, rfl, rfl, (by decide +kernel),
    (by intro op h1 h6; have h : op = 1 ∨ op = 2 ∨ op = 3 ∨ op = 4 ∨ op = 5 ∨ op = 6 := (by omega); rcases h with rfl | rfl | rfl | rfl | rfl | rfl <;> exact ⟨reaches_ok (by decide +kernel), by rfl⟩),
    (by decide +kernel), (by decide +kernel)⟩

theorem wit_RindCommands_1 :
    ∃ (s : State) (agent : Nat) (v : W64) (k : Nat) (i : Nat) (e : Nat), let cmd := fun op => setF v Reg.RIND_CMD_OP op;
      let result := fun (t : State) => rdF t.dev Reg.RIND_STATUS Reg.RIND_STATUS_RESULT; ∃ (x : Nat), k = getF v Reg.RIND_CMD_KIND ∧
      i = getF v Reg.RIND_CMD_INDEX ∧ e = rindEnt s.dev k i ∧ k ≤ 6 ∧
      ((∀ op, 1 ≤ op → op ≤ 6 → WriteReaches s.dev agent Reg.RIND_CMD (cmd op) ∧ FieldsInRange Reg.RIND_CMD (cmd op))) ∧
      x = entOf k (rindData s.dev) ∧ rindIdxOk s.dev k i = true ∧ entFits s.dev k i x = true ∧ outbound k e = false ∧
      ((k ≤ 1 → stripSas s.dev k (ePort x / 64) i < 1024)) :=
  ⟨onDev fun d => wr (leased 1 d) (Reg.RIND_DATA 10) 5, 1, 0, getF (0) Reg.RIND_CMD_KIND, getF (0) Reg.RIND_CMD_INDEX,
    rindEnt (onDev fun d => wr (leased 1 d) (Reg.RIND_DATA 10) 5).dev (getF (0) Reg.RIND_CMD_KIND) (getF (0) Reg.RIND_CMD_INDEX),
    entOf (getF (0) Reg.RIND_CMD_KIND) (rindData (onDev fun d => wr (leased 1 d) (Reg.RIND_DATA 10) 5).dev), rfl, rfl, rfl,
    (by decide +kernel),
    (by intro op h1 h6; have h : op = 1 ∨ op = 2 ∨ op = 3 ∨ op = 4 ∨ op = 5 ∨ op = 6 := (by omega); rcases h with rfl | rfl | rfl | rfl | rfl | rfl <;> exact ⟨reaches_ok (by decide +kernel), by rfl⟩),
    rfl, (by decide +kernel), (by decide +kernel), (by decide +kernel), (by decide +kernel)⟩

theorem wit_RindCommands_2 :
    ∃ (s : State) (agent : Nat) (v : W64) (k : Nat) (i : Nat) (e : Nat), let cmd := fun op => setF v Reg.RIND_CMD_OP op;
      let result := fun (t : State) => rdF t.dev Reg.RIND_STATUS Reg.RIND_STATUS_RESULT; ∃ (x : Nat), k = getF v Reg.RIND_CMD_KIND ∧
      i = getF v Reg.RIND_CMD_INDEX ∧ e = rindEnt s.dev k i ∧ k ≤ 6 ∧
      ((∀ op, 1 ≤ op → op ≤ 6 → WriteReaches s.dev agent Reg.RIND_CMD (cmd op) ∧ FieldsInRange Reg.RIND_CMD (cmd op))) ∧
      x = entOf k (rindData s.dev) ∧ rindIdxOk s.dev k i = true ∧ entFits s.dev k i x = false :=
  ⟨onDev fun d => leased 1 d, 1, 0, getF (0) Reg.RIND_CMD_KIND, getF (0) Reg.RIND_CMD_INDEX,
    rindEnt (onDev fun d => leased 1 d).dev (getF (0) Reg.RIND_CMD_KIND) (getF (0) Reg.RIND_CMD_INDEX),
    entOf (getF (0) Reg.RIND_CMD_KIND) (rindData (onDev fun d => leased 1 d).dev), rfl, rfl, rfl, (by decide +kernel),
    (by intro op h1 h6; have h : op = 1 ∨ op = 2 ∨ op = 3 ∨ op = 4 ∨ op = 5 ∨ op = 6 := (by omega); rcases h with rfl | rfl | rfl | rfl | rfl | rfl <;> exact ⟨reaches_ok (by decide +kernel), by rfl⟩),
    rfl, (by decide +kernel), (by decide +kernel)⟩

theorem wit_RindCommands_3 :
    ∃ (s : State) (agent : Nat) (v : W64) (k : Nat) (i : Nat) (e : Nat), let cmd := fun op => setF v Reg.RIND_CMD_OP op;
      let result := fun (t : State) => rdF t.dev Reg.RIND_STATUS Reg.RIND_STATUS_RESULT; k = getF v Reg.RIND_CMD_KIND ∧
      i = getF v Reg.RIND_CMD_INDEX ∧ e = rindEnt s.dev k i ∧ k ≤ 6 ∧
      ((∀ op, 1 ≤ op → op ≤ 6 → WriteReaches s.dev agent Reg.RIND_CMD (cmd op) ∧ FieldsInRange Reg.RIND_CMD (cmd op))) ∧
      rindIdxOk s.dev k i = true ∧ entFits s.dev k i (entOf k (rindData s.dev)) = true ∧ outbound k e = true :=
  ⟨onDev fun d => wr (wr (wr (putEnt (leased 1 d) 2 0 (2 ^ 831 + 2 ^ 827 + 2 ^ 640 + 77)) (Reg.RIND_DATA 12) 0) (Reg.RIND_DATA 13) 0) (Reg.RIND_DATA 10) 5,
    1, 32, getF (32) Reg.RIND_CMD_KIND, getF (32) Reg.RIND_CMD_INDEX,
    rindEnt (onDev fun d => wr (wr (wr (putEnt (leased 1 d) 2 0 (2 ^ 831 + 2 ^ 827 + 2 ^ 640 + 77)) (Reg.RIND_DATA 12) 0) (Reg.RIND_DATA 13) 0) (Reg.RIND_DATA 10) 5).dev (getF (32) Reg.RIND_CMD_KIND) (getF (32) Reg.RIND_CMD_INDEX),
    rfl, rfl, rfl, (by decide +kernel),
    (by intro op h1 h6; have h : op = 1 ∨ op = 2 ∨ op = 3 ∨ op = 4 ∨ op = 5 ∨ op = 6 := (by omega); rcases h with rfl | rfl | rfl | rfl | rfl | rfl <;> exact ⟨reaches_ok (by decide +kernel), by rfl⟩),
    (by decide +kernel), (by decide +kernel), (by decide +kernel)⟩

theorem wit_RindCommands_4 :
    ∃ (s : State) (agent : Nat) (v : W64) (k : Nat) (i : Nat) (e : Nat), let cmd := fun op => setF v Reg.RIND_CMD_OP op;
      let result := fun (t : State) => rdF t.dev Reg.RIND_STATUS Reg.RIND_STATUS_RESULT; k = getF v Reg.RIND_CMD_KIND ∧
      i = getF v Reg.RIND_CMD_INDEX ∧ e = rindEnt s.dev k i ∧ k ≤ 6 ∧
      ((∀ op, 1 ≤ op → op ≤ 6 → WriteReaches s.dev agent Reg.RIND_CMD (cmd op) ∧ FieldsInRange Reg.RIND_CMD (cmd op))) ∧ k ≤ 2 ∧
      rindIdxOk s.dev k i = true ∧ ecc s.dev .rindEntry (saKey k i) = 0 ∧ ((k = 2 → (rd s.dev (Reg.RIND_DATA 13)).toNat % 256 ≤ 128)) :=
  ⟨onDev fun d => wr (putEnt (leased 1 d) 1 0 (2 ^ 831 + 2 ^ 827 + 2 ^ 640 + 77)) (Reg.RIND_DATA 11) 9, 1, 16,
    getF (16) Reg.RIND_CMD_KIND, getF (16) Reg.RIND_CMD_INDEX,
    rindEnt (onDev fun d => wr (putEnt (leased 1 d) 1 0 (2 ^ 831 + 2 ^ 827 + 2 ^ 640 + 77)) (Reg.RIND_DATA 11) 9).dev (getF (16) Reg.RIND_CMD_KIND) (getF (16) Reg.RIND_CMD_INDEX),
    rfl, rfl, rfl, (by decide +kernel),
    (by intro op h1 h6; have h : op = 1 ∨ op = 2 ∨ op = 3 ∨ op = 4 ∨ op = 5 ∨ op = 6 := (by omega); rcases h with rfl | rfl | rfl | rfl | rfl | rfl <;> exact ⟨reaches_ok (by decide +kernel), by rfl⟩),
    (by decide +kernel), (by decide +kernel), (by decide +kernel), (by decide +kernel)⟩

theorem wit_RindCommands_5 :
    ∃ (s : State) (agent : Nat) (v : W64) (k : Nat) (i : Nat) (e : Nat), let cmd := fun op => setF v Reg.RIND_CMD_OP op;
      let result := fun (t : State) => rdF t.dev Reg.RIND_STATUS Reg.RIND_STATUS_RESULT; k = getF v Reg.RIND_CMD_KIND ∧
      i = getF v Reg.RIND_CMD_INDEX ∧ e = rindEnt s.dev k i ∧ k ≤ 6 ∧
      ((∀ op, 1 ≤ op → op ≤ 6 → WriteReaches s.dev agent Reg.RIND_CMD (cmd op) ∧ FieldsInRange Reg.RIND_CMD (cmd op))) ∧ k ≤ 3 ∧
      rindIdxOk s.dev k i = true ∧ saInUse s.dev k i = false :=
  ⟨onDev fun d => putEnt (leased 1 d) 0 0 (2 ^ 831 + 2 ^ 827 + 2 ^ 640 + 77), 1, 0, getF (0) Reg.RIND_CMD_KIND,
    getF (0) Reg.RIND_CMD_INDEX,
    rindEnt (onDev fun d => putEnt (leased 1 d) 0 0 (2 ^ 831 + 2 ^ 827 + 2 ^ 640 + 77)).dev (getF (0) Reg.RIND_CMD_KIND) (getF (0) Reg.RIND_CMD_INDEX),
    rfl, rfl, rfl, (by decide +kernel),
    (by intro op h1 h6; have h : op = 1 ∨ op = 2 ∨ op = 3 ∨ op = 4 ∨ op = 5 ∨ op = 6 := (by omega); rcases h with rfl | rfl | rfl | rfl | rfl | rfl <;> exact ⟨reaches_ok (by decide +kernel), by rfl⟩),
    (by decide +kernel), (by decide +kernel), (by decide +kernel)⟩

theorem wit_RindCommands_6 :
    ∃ (s : State) (agent : Nat) (v : W64) (k : Nat) (i : Nat) (e : Nat), let cmd := fun op => setF v Reg.RIND_CMD_OP op;
      let result := fun (t : State) => rdF t.dev Reg.RIND_STATUS Reg.RIND_STATUS_RESULT; k = getF v Reg.RIND_CMD_KIND ∧
      i = getF v Reg.RIND_CMD_INDEX ∧ e = rindEnt s.dev k i ∧ k ≤ 6 ∧
      ((∀ op, 1 ≤ op → op ≤ 6 → WriteReaches s.dev agent Reg.RIND_CMD (cmd op) ∧ FieldsInRange Reg.RIND_CMD (cmd op))) ∧
      rindIdxOk s.dev k i = true ∧ saInUse s.dev k i = true ∧ k ≤ 3 :=
  ⟨onDev fun d => sad outSa (leased 1 d), 1, 32, getF (32) Reg.RIND_CMD_KIND, getF (32) Reg.RIND_CMD_INDEX,
    rindEnt (onDev fun d => sad outSa (leased 1 d)).dev (getF (32) Reg.RIND_CMD_KIND) (getF (32) Reg.RIND_CMD_INDEX), rfl, rfl, rfl,
    (by decide +kernel),
    (by intro op h1 h6; have h : op = 1 ∨ op = 2 ∨ op = 3 ∨ op = 4 ∨ op = 5 ∨ op = 6 := (by omega); rcases h with rfl | rfl | rfl | rfl | rfl | rfl <;> exact ⟨reaches_ok (by decide +kernel), by rfl⟩),
    (by decide +kernel), (by decide +kernel), (by decide +kernel)⟩

theorem wit_RindCommands_7 :
    ∃ (s : State) (agent : Nat) (v : W64) (k : Nat) (i : Nat) (e : Nat), let cmd := fun op => setF v Reg.RIND_CMD_OP op;
      let result := fun (t : State) => rdF t.dev Reg.RIND_STATUS Reg.RIND_STATUS_RESULT; k = getF v Reg.RIND_CMD_KIND ∧
      i = getF v Reg.RIND_CMD_INDEX ∧ e = rindEnt s.dev k i ∧ k ≤ 6 ∧
      ((∀ op, 1 ≤ op → op ≤ 6 → WriteReaches s.dev agent Reg.RIND_CMD (cmd op) ∧ FieldsInRange Reg.RIND_CMD (cmd op))) ∧
      rindIdxOk s.dev k i = true ∧ ecc s.dev .rindEntry (saKey k i) = 0 ∧ (k = 0 ∨ k = 2 ∧ eOut e = true) :=
  ⟨onDev fun d => wr (putEnt (leased 1 d) 2 0 (2 ^ 831 + 2 ^ 827 + 2 ^ 640 + 77)) (Reg.RIND_DATA 10) 5, 1, 32,
    getF (32) Reg.RIND_CMD_KIND, getF (32) Reg.RIND_CMD_INDEX,
    rindEnt (onDev fun d => wr (putEnt (leased 1 d) 2 0 (2 ^ 831 + 2 ^ 827 + 2 ^ 640 + 77)) (Reg.RIND_DATA 10) 5).dev (getF (32) Reg.RIND_CMD_KIND) (getF (32) Reg.RIND_CMD_INDEX),
    rfl, rfl, rfl, (by decide +kernel),
    (by intro op h1 h6; have h : op = 1 ∨ op = 2 ∨ op = 3 ∨ op = 4 ∨ op = 5 ∨ op = 6 := (by omega); rcases h with rfl | rfl | rfl | rfl | rfl | rfl <;> exact ⟨reaches_ok (by decide +kernel), by rfl⟩),
    (by decide +kernel), (by decide +kernel), (by decide +kernel)⟩

theorem wit_RindCommands_8 :
    ∃ (s : State) (agent : Nat) (v : W64) (k : Nat) (i : Nat) (e : Nat), let cmd := fun op => setF v Reg.RIND_CMD_OP op;
      let result := fun (t : State) => rdF t.dev Reg.RIND_STATUS Reg.RIND_STATUS_RESULT; k = getF v Reg.RIND_CMD_KIND ∧
      i = getF v Reg.RIND_CMD_INDEX ∧ e = rindEnt s.dev k i ∧ k ≤ 6 ∧
      ((∀ op, 1 ≤ op → op ≤ 6 → WriteReaches s.dev agent Reg.RIND_CMD (cmd op) ∧ FieldsInRange Reg.RIND_CMD (cmd op))) ∧ k ≤ 2 :=
  ⟨onDev fun d => putEnt (leased 1 d) 1 0 (2 ^ 831 + 2 ^ 827 + 2 ^ 640 + 77), 1, 16, getF (16) Reg.RIND_CMD_KIND,
    getF (16) Reg.RIND_CMD_INDEX,
    rindEnt (onDev fun d => putEnt (leased 1 d) 1 0 (2 ^ 831 + 2 ^ 827 + 2 ^ 640 + 77)).dev (getF (16) Reg.RIND_CMD_KIND) (getF (16) Reg.RIND_CMD_INDEX),
    rfl, rfl, rfl, (by decide +kernel),
    (by intro op h1 h6; have h : op = 1 ∨ op = 2 ∨ op = 3 ∨ op = 4 ∨ op = 5 ∨ op = 6 := (by omega); rcases h with rfl | rfl | rfl | rfl | rfl | rfl <;> exact ⟨reaches_ok (by decide +kernel), by rfl⟩),
    (by decide +kernel)⟩

theorem wit_RindCommands_9 :
    ∃ (s : State) (agent : Nat) (v : W64) (k : Nat) (i : Nat) (e : Nat), let cmd := fun op => setF v Reg.RIND_CMD_OP op;
      let result := fun (t : State) => rdF t.dev Reg.RIND_STATUS Reg.RIND_STATUS_RESULT; k = getF v Reg.RIND_CMD_KIND ∧
      i = getF v Reg.RIND_CMD_INDEX ∧ e = rindEnt s.dev k i ∧ k ≤ 6 ∧
      ((∀ op, 1 ≤ op → op ≤ 6 → WriteReaches s.dev agent Reg.RIND_CMD (cmd op) ∧ FieldsInRange Reg.RIND_CMD (cmd op))) ∧ k = 3 ∧
      flagF s.dev Reg.RIND_HEALTH Reg.RIND_HEALTH_ENTROPY_OK = true :=
  ⟨onDev fun d => wrF (leased 1 d) Reg.RIND_HEALTH Reg.RIND_HEALTH_ENTROPY_OK 1, 1, 48, getF (48) Reg.RIND_CMD_KIND,
    getF (48) Reg.RIND_CMD_INDEX,
    rindEnt (onDev fun d => wrF (leased 1 d) Reg.RIND_HEALTH Reg.RIND_HEALTH_ENTROPY_OK 1).dev (getF (48) Reg.RIND_CMD_KIND) (getF (48) Reg.RIND_CMD_INDEX),
    rfl, rfl, rfl, (by decide +kernel),
    (by intro op h1 h6; have h : op = 1 ∨ op = 2 ∨ op = 3 ∨ op = 4 ∨ op = 5 ∨ op = 6 := (by omega); rcases h with rfl | rfl | rfl | rfl | rfl | rfl <;> exact ⟨reaches_ok (by decide +kernel), by rfl⟩),
    rfl, (by decide +kernel)⟩

/-! O40, RindReadHidesKeys. -/

theorem wit_RindReadHidesKeys_0 :
    ∃ (s : State) (agent : Nat) (v : W64) (k : Nat) (i : Nat) (x : Nat), k = getF v Reg.RIND_CMD_KIND ∧ i = getF v Reg.RIND_CMD_INDEX ∧
      WriteReaches s.dev agent Reg.RIND_CMD (setF v Reg.RIND_CMD_OP 1) ∧ FieldsInRange Reg.RIND_CMD (setF v Reg.RIND_CMD_OP 1) ∧
      x / 2 ^ 640 = rindEnt s.dev k i / 2 ^ 640 ∧ bits x 576 32 = bits (rindEnt s.dev k i) 576 32 ∧
      ((2 < k → x / 2 ^ 512 = rindEnt s.dev k i / 2 ^ 512)) :=
  ⟨onDev fun d => putEnt (leased 1 d) 2 0 (2 ^ 831 + 2 ^ 640 + 77), 1, 32, getF (32) Reg.RIND_CMD_KIND, getF (32) Reg.RIND_CMD_INDEX,
    2 ^ 831 + 2 ^ 640 + 12345, rfl, rfl, reaches_ok (by decide +kernel), (by rfl), (by decide +kernel), (by decide +kernel),
    (by decide +kernel)⟩

/-! O41, RindTraffic. -/

theorem wit_RindTraffic_0 :
    ∃ (s : State) (n : Nat) (p : Pkt) (port : Nat) (rest : List (Pkt × Nat)) (i : Nat) (e : Nat) (b : Nat), laQ s.dev n = (p,
      port) :: rest ∧ b = rindEnt s.dev 6 p.queue ∧ i = entF b 8 0 16 ∧ e = rindEnt s.dev 2 i ∧ ecc s.dev .rindEntry (saKey 2 i) = 0 ∧
      bit b (64 * 8 + 63) = true ∧ eVld e = true ∧ eOut e = true ∧ eHome e = n ∧ eHolding e = pcGet p Pc.holding ∧
      bit (rindEnt s.dev 4 port) (64 * 9 + 55) = true ∧ anchors s.dev (eHolding e) = true ∧ bit (spGet (fun _ => (⟨⟨0, 0, 0, 0⟩, none,
      []⟩ : Gate)) s.dev.drl.gates port).op.w1.toNat 63 = false ∧ gateClosed s.dev i e = false ∧ nextPn e ≤ pnLimit e ∧
      eExh e = false ∧ eMirror e = false ∧ (espSeal e (nextPn e) p.frame).length + 4 ≤ rdF s.dev (Reg.PORT_CFG port) Reg.PORT_CFG_MTU ∧
      port < 512 ∧ n < 8 :=
  ⟨onDev fun d => setLaQ (sad outSa d) 0 [(pk, 0)], 0, pk, 0, [], 0, outSa, 2 ^ 575, (by decide +kernel), (by decide +kernel),
    (by decide +kernel), (by decide +kernel), (by decide +kernel), (by decide +kernel), (by decide +kernel), (by decide +kernel),
    (by decide +kernel), (by decide +kernel), (by decide +kernel), (by decide +kernel), (by decide +kernel), (by decide +kernel),
    (by decide +kernel), (by decide +kernel), (by decide +kernel), (by decide +kernel), (by decide +kernel), (by decide +kernel)⟩

theorem wit_RindTraffic_1 :
    ∃ (s : State) (n : Nat) (p : Pkt) (port : Nat) (rest : List (Pkt × Nat)) (i : Nat) (e : Nat) (b : Nat), laQ s.dev n = (p,
      port) :: rest ∧ b = rindEnt s.dev 6 p.queue ∧ i = entF b 8 0 16 ∧ e = rindEnt s.dev 2 i ∧ ecc s.dev .rindEntry (saKey 2 i) = 0 ∧
      bit b (64 * 8 + 63) = true ∧ eVld e = true ∧ eOut e = true ∧ eHome e = n ∧ eHolding e = pcGet p Pc.holding ∧
      bit (rindEnt s.dev 4 port) (64 * 9 + 55) = true ∧ anchors s.dev (eHolding e) = true ∧ bit (spGet (fun _ => (⟨⟨0, 0, 0, 0⟩, none,
      []⟩ : Gate)) s.dev.drl.gates port).op.w1.toNat 63 = false ∧ gateClosed s.dev i e = false ∧ pnLimit e < nextPn e ∧ p.inject = none :=
  ⟨onDev fun d => setLaQ (sad (outSa - 2 ^ 640 + 2 ^ 672) d) 0 [(pk, 0)], 0, pk, 0, [], 0, outSa - 2 ^ 640 + 2 ^ 672, 2 ^ 575,
    (by decide +kernel), (by decide +kernel), (by decide +kernel), (by decide +kernel), (by decide +kernel), (by decide +kernel),
    (by decide +kernel), (by decide +kernel), (by decide +kernel), (by decide +kernel), (by decide +kernel), (by decide +kernel),
    (by decide +kernel), (by decide +kernel), (by decide +kernel), (by decide +kernel)⟩

theorem wit_RindTraffic_2 :
    ∃ (s : State) (a : Nat) (f : Nat) (slot : Nat) (gen : Nat) (m : Nat) (rest : List (Nat × Nat × Nat × Nat)) (p : Pkt) (ty : Nat) (i : Nat) (e : Nat), ∃ (fr : List Byte) (seq : Nat), spGet (fun _ => []) s.dev.rind.decQ a = (f, slot, gen, m) :: rest ∧ getPkt s.dev ⟨a, f, slot⟩ = some p ∧ p.gen = gen ∧ p.loc = .atRind ∧ p.decSa = some (ty, i) ∧ e = rindEnt s.dev 2 i ∧ ecc s.dev .rindEntry (saKey 2 i) = 0 ∧ eVld e = true ∧ a < 4 ∧ espOpen s.dev p i e = (0, fr, seq) :=
  ⟨onDev fun d => decd (2 ^ 831 + 2 ^ 640) (espFrame) d, 0, 0, 0, 0, 60, [], decPkt (espFrame), 0, 0, 2 ^ 831 + 2 ^ 640, [0, 0, 0, 0,
    0, 0, 0, 1, 4, 1, 0, 0, 0, 0, 0, 0, 0xAB], 1, (by decide +kernel), (by decide +kernel), (by decide +kernel), (by decide +kernel),
    (by decide +kernel), (by decide +kernel), (by decide +kernel), (by decide +kernel), (by decide +kernel), (by decide +kernel)⟩

theorem wit_RindTraffic_3 :
    ∃ (s : State) (a : Nat) (f : Nat) (slot : Nat) (gen : Nat) (m : Nat) (rest : List (Nat × Nat × Nat × Nat)) (p : Pkt) (ty : Nat) (i : Nat) (e : Nat), ∃ (fr : List Byte) (seq : Nat), spGet (fun _ => []) s.dev.rind.decQ a = (f, slot, gen, m) :: rest ∧ getPkt s.dev ⟨a, f, slot⟩ = some p ∧ p.gen = gen ∧ p.loc = .atRind ∧ p.decSa = some (ty, i) ∧ e = rindEnt s.dev 2 i ∧ ecc s.dev .rindEntry (saKey 2 i) = 0 ∧ eVld e = true ∧ a < 4 ∧ espOpen s.dev p i e = (10, fr, seq) ∧ bit e (64 * 12 + 57) = true :=
  ⟨onDev fun d => decd (2 ^ 831 + 2 ^ 640 + 2 ^ 825) (espFrame.set 16 0) d, 0, 0, 0, 0, 60, [], decPkt (espFrame.set 16 0), 0, 0,
    2 ^ 831 + 2 ^ 640 + 2 ^ 825, [], 0, (by decide +kernel), (by decide +kernel), (by decide +kernel), (by decide +kernel),
    (by decide +kernel), (by decide +kernel), (by decide +kernel), (by decide +kernel), (by decide +kernel), (by decide +kernel),
    (by decide +kernel)⟩

theorem wit_RindTraffic_4 :
    ∃ (s : State) (a : Nat) (f : Nat) (k : Nat) (dest : Nat) (key : List W64) (num : Nat) (data : W64) (fl : InFlight) (p : Pkt) (ty : Nat),
      (getFur s.dev a f).inFlight[k]? = some fl ∧ landsAfter (getFur s.dev a f) k fl = false ∧ fl.what = .request 2 dest ty key num data ∧
      getPkt s.dev ⟨a, f, fl.slot⟩ = some p ∧ p.gen = fl.gen ∧ p.reqs.getD 1 0 = num ∧ dest < 4 ∧ ty = 0 ∧
      ((∀ i, i < 2 ^ 16 → ecc s.dev .rindEntry (saKey 2 i) = 0)) :=
  ⟨onDev fun d => infl (.request 2 1 0 [5] 0 0) (d), 0, 0, 0, 1, [5], 0, 0, InFlight.mk 0 0 (.request 2 1 0 [5] 0 0) none, pk, 0,
    (by decide +kernel), (by decide +kernel), rfl, (by decide +kernel), (by decide +kernel), (by decide +kernel), (by decide +kernel),
    (by decide +kernel), (by intro i _; rfl)⟩

theorem wit_RindTraffic_5 :
    ∃ (s : State) (a : Nat) (f : Nat) (k : Nat) (dest : Nat) (num : Nat) (found : DeepFound) (fl : InFlight) (p : Pkt), ∃ (x : Nat),
      (getFur s.dev a f).inFlight[k]? = some fl ∧ landsAfter (getFur s.dev a f) k fl = false ∧ fl.what = .deep dest num found ∧
      getPkt s.dev ⟨a, f, fl.slot⟩ = some p ∧ p.gen = fl.gen ∧ p.reqs.getD 0 0 = num ∧ dest < 4 ∧ found = .element x ∧
      deepReady s.dev = true ∧ s.dev.writes = [] ∧ flagF s.dev Reg.FAULT_INJECT Reg.FAULT_INJECT_PENDING = false ∧
      x + 8 ≤ deepSize s.dev ∧ ((∀ k c y, k < 2 → c < 32 → y < 4 → rankState s.dev k c y ≠ 6)) ∧ (∀ y, ecc s.dev .deep y = 0) ∧
      (∀ r ∈ s.dev.deep.reqs, r.port ≠ 2) :=
  ⟨onDev fun d => infl (.deep 1 0 (.element 4096)) (deepUp d), 0, 0, 0, 1, 0, .element 4096,
    InFlight.mk 0 0 (.deep 1 0 (.element 4096)) none, pk, 4096, (by decide +kernel), (by decide +kernel), rfl, (by decide +kernel),
    (by decide +kernel), (by decide +kernel), (by decide +kernel), rfl, (by decide +kernel), (by decide +kernel), (by decide +kernel),
    (by decide +kernel),
    (by intro k c x hk hc hx; exact (show ∀ k < 2, ∀ c < 32, ∀ x < 4, rankState (onDev fun d => infl (.deep 1 0 (.element 4096)) (deepUp d)).dev k c x ≠ 6 from by decide +kernel) k hk c hc x hx),
    (by intro y; rfl), (by intro r hr; cases hr)⟩

theorem wit_RindTraffic_6 :
    ∃ (s : State) (a : Nat) (f : Nat) (k : Nat) (dest : Nat) (num : Nat) (found : DeepFound) (fl : InFlight) (p : Pkt), ∃ (late : Bool),
      (getFur s.dev a f).inFlight[k]? = some fl ∧ landsAfter (getFur s.dev a f) k fl = false ∧ fl.what = .deep dest num found ∧
      getPkt s.dev ⟨a, f, fl.slot⟩ = some p ∧ p.gen = fl.gen ∧ p.reqs.getD 0 0 = num ∧ dest < 4 ∧
      (found = .invalid ∨ found = .poison ∨ late = true) :=
  ⟨onDev fun d => infl (.deep 1 0 .invalid) (d), 0, 0, 0, 1, 0, .invalid, InFlight.mk 0 0 (.deep 1 0 .invalid) none, pk, false,
    (by decide +kernel), (by decide +kernel), rfl, (by decide +kernel), (by decide +kernel), (by decide +kernel), (by decide +kernel),
    .inl rfl⟩

theorem wit_RindTraffic_7 :
    ∃ (s : State) (a : Nat) (f : Nat) (slot : Nat) (gen : Nat) (m : Nat) (rest : List (Nat × Nat × Nat × Nat)) (p : Pkt) (k : Nat),
      spGet (fun _ => []) s.dev.rind.decQ a = (f, slot, gen, m) :: rest ∧ getPkt s.dev ⟨a, f, slot⟩ = some p ∧ p.gen = gen ∧
      p.loc = .atRind ∧ p.decSa = none ∧ a < 4 ∧ f < 17 ∧ k = rindCnt 12 :=
  ⟨onDev fun d => { putPkt d ⟨0, 0, 0⟩ { pk with loc := .atRind } with rind := { d.rind with decQ := [(0, [(0, 0, 0, 60)])] } }, 0, 0, 0,
    0, 60, [], { pk with loc := .atRind }, rindCnt 12, (by decide +kernel), (by decide +kernel), (by decide +kernel), (by decide +kernel),
    (by decide +kernel), (by decide +kernel), (by decide +kernel), rfl⟩

theorem wit_RindTraffic_9 :
    ∃ (s : State), s.dev.rind.keyWait ≠ [] :=
  ⟨onDev fun d => { d with rind := { d.rind with keyWait := [(3, 1)] } }, (by decide +kernel)⟩

/-! O42, DrillActions. -/

theorem wit_DrillActions_0 :
    ∃ (s : State) (p : Nat) (h : Nat × Nat × Pkt) (k1 : Nat) (k2 : Nat) (d : Dev) (cs : List (Nat × Nat × Pkt)), p < 512 ∧
      d = bumpN s.dev (Reg.QUEUE_CNT 8) (portStalls s.dev p) ∧ drillSees d p = 0 ∧ (∀ x ∈ portHeads s.dev p,
      purged d p (getNode d (nodeKey 2 x.1)) x.2.2 = false ∧ oversize d p (getNode d (nodeKey 2 x.1)) x.2.2 = false) ∧
      portFree d p < (d.time + 128) * 1600 ∧ cs = candidates d p ∧
      bestNode d ((cs.map fun h => nodeOfQueue d h.1).eraseDups) = some k1 ∧
      bestNode d ((cs.filter fun h => nodeOfQueue d h.1 == k1).map fun h => nodeKey 2 h.1) = some k2 ∧
      (cs.find? fun h => nodeKey 2 h.1 == k2) = some h ∧ moveF d (h.2.2.mapRef / 64) Reg.ACRE_MOVE_STATUS_PHASE ≠ 2 ∧
      h.2.2.mapRef < 256 :=
  ⟨onDev fun d => putSub (drilld d) 0 0 { subDef 0 with head := [pk] }, 0, (0, 0, pk), nodeKey 1 0, nodeKey 2 0,
    bumpN (onDev fun d => putSub (drilld d) 0 0 { subDef 0 with head := [pk] }).dev (Reg.QUEUE_CNT 8) (portStalls (onDev fun d => putSub (drilld d) 0 0 { subDef 0 with head := [pk] }).dev (0)), candidates (bumpN (onDev fun d => putSub (drilld d) 0 0 { subDef 0 with head := [pk] }).dev (Reg.QUEUE_CNT 8) (portStalls (onDev fun d => putSub (drilld d) 0 0 { subDef 0 with head := [pk] }).dev (0))) (0), (by decide +kernel), rfl, (by decide +kernel), (by decide +kernel), (by decide +kernel), rfl, (by decide +kernel), (by decide +kernel), (by decide +kernel), (by decide +kernel), (by decide +kernel)⟩

theorem wit_DrillActions_1 :
    ∃ (s : State) (p : Nat) (h : Nat × Nat × Pkt) (d : Dev), d = bumpN s.dev (Reg.QUEUE_CNT 8) (portStalls s.dev p) ∧
      drillSees d p = 2 ∧ (portHeads s.dev p).head? = some h :=
  ⟨onDev fun d => wrF (putSub (drilld d) 0 0 { subDef 0 with head := [pk] }) (stateReg 0) Reg.PORT_STATE_STATE 0, 0, (0, 0, pk),
    bumpN (onDev fun d => wrF (putSub (drilld d) 0 0 { subDef 0 with head := [pk] }) (stateReg 0) Reg.PORT_STATE_STATE 0).dev (Reg.QUEUE_CNT 8) (portStalls (onDev fun d => wrF (putSub (drilld d) 0 0 { subDef 0 with head := [pk] }) (stateReg 0) Reg.PORT_STATE_STATE 0).dev (0)), rfl, (by decide +kernel), (by decide +kernel)⟩

theorem wit_DrillActions_2 :
    ∃ (s : State) (p : Nat) (h : Nat × Nat × Pkt) (d : Dev), d = bumpN s.dev (Reg.QUEUE_CNT 8) (portStalls s.dev p) ∧
      drillSees d p ≠ 2 ∧ (portHeads s.dev p).find? (fun h => purged d p (getNode d (nodeKey 2 h.1)) h.2.2) = some h :=
  ⟨onDev fun d => putGate (putSub (drilld d) 0 0 { subDef 0 with head := [pk] }) 0 { gateDef 0 with op := ⟨0, 0x8000000000000000, 1, 0⟩, purge := [(0, some 5)] }, 0, (0, 0, pk), bumpN (onDev fun d => putGate (putSub (drilld d) 0 0 { subDef 0 with head := [pk] }) 0 { gateDef 0 with op := ⟨0, 0x8000000000000000, 1, 0⟩, purge := [(0, some 5)] }).dev (Reg.QUEUE_CNT 8) (portStalls (onDev fun d => putGate (putSub (drilld d) 0 0 { subDef 0 with head := [pk] }) 0 { gateDef 0 with op := ⟨0, 0x8000000000000000, 1, 0⟩, purge := [(0, some 5)] }).dev (0)), rfl, (by decide +kernel), (by decide +kernel)⟩

theorem wit_DrillActions_3 :
    ∃ (s : State) (p : Nat) (h : Nat × Nat × Pkt) (d : Dev), d = bumpN s.dev (Reg.QUEUE_CNT 8) (portStalls s.dev p) ∧
      drillSees d p = 0 ∧ (portHeads s.dev p).find? (fun h => purged d p (getNode d (nodeKey 2 h.1)) h.2.2) = none ∧
      (portHeads s.dev p).find? (fun h => oversize d p (getNode d (nodeKey 2 h.1)) h.2.2) = some h :=
  ⟨onDev fun d => putGate (putSub (drilld d) 0 0 { subDef 0 with head := [pk] }) 0 { gateDef 0 with op := ⟨0, 0x8000000000000000, 1, 0⟩ }, 0, (0, 0, pk), bumpN (onDev fun d => putGate (putSub (drilld d) 0 0 { subDef 0 with head := [pk] }) 0 { gateDef 0 with op := ⟨0, 0x8000000000000000, 1, 0⟩ }).dev (Reg.QUEUE_CNT 8) (portStalls (onDev fun d => putGate (putSub (drilld d) 0 0 { subDef 0 with head := [pk] }) 0 { gateDef 0 with op := ⟨0, 0x8000000000000000, 1, 0⟩ }).dev (0)), rfl, (by decide +kernel), (by decide +kernel), (by decide +kernel)⟩

theorem wit_DrillActions_4 :
    ∃ (s : State) (level : Nat) (n : Nat) (x : Node), x = getNode s.dev (nodeKey level n) ∧ x.rateKbps ≠ 0 :=
  ⟨onDev fun d => putNode d (nodeKey 1 7) { nodeDef 0 with w1 := 0x00010000000F4240 }, 1, 7,
    getNode (onDev fun d => putNode d (nodeKey 1 7) { nodeDef 0 with w1 := 0x00010000000F4240 }).dev (nodeKey (1) (7)), rfl,
    (by decide +kernel)⟩

theorem wit_DrillActions_5 :
    ∃ (s : State) (n : Nat) (x : Node), x = getNode s.dev (nodeKey 2 n) ∧ x.count = 0 ∧
      vDiff x.s ((getNode s.dev (nodeKey 1 x.parent)).v.getD x.band 0) ≤ 0 :=
  ⟨State.reset, 9, getNode (State.reset).dev (nodeKey 2 (9)), rfl, (by decide +kernel), (by decide +kernel)⟩

theorem wit_DrillActions_6 :
    ∃ (s : State) (p : Nat) (t0 : Nat) (k : Nat) (c : GateCopy), c = (getGate s.dev p).op ∧ c.enable = true ∧ t0 ≠ 0 ∧ k < 8 ∧
      bit c.mask k = true ∧ openAt s.dev c (t0 - 1) k = true ∧ openAt s.dev c t0 k = false :=
  ⟨onDev fun d => { putGate (d) 0 { gateDef 0 with op := ⟨0, 0x80010000000000C8, 1, 0⟩ } with drl := { (putGate (d) 0 { gateDef 0 with op := ⟨0, 0x80010000000000C8, 1, 0⟩ }).drl with gcl := [(0, 0x6401), (1, 0x6400)] } }, 0, 300, 0, (getGate (onDev fun d => { putGate (d) 0 { gateDef 0 with op := ⟨0, 0x80010000000000C8, 1, 0⟩ } with drl := { (putGate (d) 0 { gateDef 0 with op := ⟨0, 0x80010000000000C8, 1, 0⟩ }).drl with gcl := [(0, 0x6401), (1, 0x6400)] } }).dev (0)).op, rfl, (by decide +kernel), (by decide +kernel), (by decide +kernel), (by decide +kernel), (by decide +kernel), (by decide +kernel)⟩

theorem wit_DrillActions_7 :
    ∃ (s : State) (p : Nat) (c : GateCopy), (getGate s.dev p).pend = some c :=
  ⟨onDev fun d => putGate d 5 { gateDef 0 with pend := some ⟨1, 2, 3, 4⟩ }, 5, GateCopy.mk 1 2 3 4, (by decide +kernel)⟩

theorem wit_DrillActions_8 :
    ∃ (s : State) (p : Nat) (c : Nat), bit (rdF s.dev (Reg.PFC_RX_STATE (p / 64) (p % 64)) Reg.PFC_RX_STATE_PAUSED) c = true ∧
      p < 512 ∧ c < 8 ∧ rdF s.dev (Reg.PORT_CFG p) Reg.PORT_CFG_WD_US ≠ 0 ∧ wdInactive s.dev p = false :=
  ⟨onDev fun d => wrF (wrF d (Reg.PFC_RX_STATE 0 5) Reg.PFC_RX_STATE_PAUSED 4) (Reg.PORT_CFG 5) Reg.PORT_CFG_WD_US 100, 5, 2,
    (by decide +kernel), (by decide +kernel), (by decide +kernel), (by decide +kernel), (by decide +kernel)⟩

theorem wit_DrillActions_9 :
    ∃ (s : State) (p : Nat) (c : Nat), bit (rdF s.dev (Reg.PFC_RX_STATE (p / 64) (p % 64)) Reg.PFC_RX_STATE_PAUSED) c = false :=
  ⟨State.reset, 5, 2, (by decide +kernel)⟩

theorem wit_DrillActions_10 :
    ∃ (s : State) (n : Nat) (pr : W64 × W64), pr = getMprof s.dev (getMeter s.dev n).profile :=
  ⟨onDev fun d => { d with drl := { d.drl with mprofs := [(0, (0x0200000100000005, 7))] } }, 0,
    getMprof (onDev fun d => { d with drl := { d.drl with mprofs := [(0, (0x0200000100000005, 7))] } }).dev (getMeter (onDev fun d => { d with drl := { d.drl with mprofs := [(0, (0x0200000100000005, 7))] } }).dev (0)).profile,
    rfl⟩

theorem wit_DrillActions_11 :
    ∃ (s : State) (a : Nat) (f : Nat) (k : Nat) (i : Nat) (col : Nat) (len : Nat) (fl : InFlight) (p : Pkt) (x : Nat × Meter),
      (getFur s.dev a f).inFlight[k]? = some fl ∧ fl.what = .meter i col len ∧ getPkt s.dev ⟨a, f, fl.slot⟩ = some p ∧ p.gen = fl.gen ∧
      landsAfter (getFur s.dev a f) k fl = false ∧ x = meterColour s.dev (meterRefill s.dev s.dev.time (getMeter s.dev i)) col len :=
  ⟨onDev fun d => infl (.meter 4 1 64) d, 0, 0, 0, 4, 1, 64, InFlight.mk 0 0 (.meter 4 1 64) none, pk,
    meterColour (onDev fun d => infl (.meter 4 1 64) d).dev (meterRefill (onDev fun d => infl (.meter 4 1 64) d).dev (onDev fun d => infl (.meter 4 1 64) d).dev.time (getMeter (onDev fun d => infl (.meter 4 1 64) d).dev (4))) (1) (64),
    (by decide +kernel), (by decide +kernel), rfl, (by decide +kernel), (by decide +kernel), rfl⟩

/-! O43, DrillCommands. -/

theorem wit_DrillCommands_0 :
    ∃ (s : State) (agent : Nat) (v : W64) (i : Nat) (lv : Nat),
      let cmd := fun op => setF v Reg.DRILL_CMD_OP op; let result := fun (t : State) => rdF t.dev Reg.DRILL_STATUS Reg.DRILL_STATUS_RESULT; let data := fun (t : State) (n : Nat) => rd t.dev (Reg.DRILL_DATA n); i = getF v Reg.DRILL_CMD_INDEX ∧ lv = getF v Reg.DRILL_CMD_LEVEL ∧ ((∀ op, 1 ≤ op → op ≤ 11 → WriteReaches s.dev agent Reg.DRILL_CMD (cmd op) ∧ FieldsInRange Reg.DRILL_CMD (cmd op))) ∧ lv ≠ 0 ∧ nodeExists s.dev lv i = true ∧ ecc s.dev .node (nodeKey lv i) ≠ 2 :=
  ⟨State.reset, 1, mkWord [(Reg.DRILL_CMD_INDEX, 5), (Reg.DRILL_CMD_LEVEL, 2)], getF (mkWord [(Reg.DRILL_CMD_INDEX, 5),
    (Reg.DRILL_CMD_LEVEL, 2)]) Reg.DRILL_CMD_INDEX, getF (mkWord [(Reg.DRILL_CMD_INDEX, 5), (Reg.DRILL_CMD_LEVEL,
    2)]) Reg.DRILL_CMD_LEVEL, rfl, rfl,
    (by intro op h1 h6; have h : op = 1 ∨ op = 2 ∨ op = 3 ∨ op = 4 ∨ op = 5 ∨ op = 6 ∨ op = 7 ∨ op = 8 ∨ op = 9 ∨ op = 10 ∨ op = 11 := (by omega); rcases h with rfl | rfl | rfl | rfl | rfl | rfl | rfl | rfl | rfl | rfl | rfl <;> exact ⟨reaches_ok (by decide +kernel), by rfl⟩), (by decide +kernel), (by decide +kernel), (by decide +kernel)⟩

theorem wit_DrillCommands_1 :
    ∃ (s : State) (agent : Nat) (v : W64) (i : Nat) (lv : Nat),
      let cmd := fun op => setF v Reg.DRILL_CMD_OP op; let result := fun (t : State) => rdF t.dev Reg.DRILL_STATUS Reg.DRILL_STATUS_RESULT; let data := fun (t : State) (n : Nat) => rd t.dev (Reg.DRILL_DATA n); ∃ (n : Node) (x : Node), i = getF v Reg.DRILL_CMD_INDEX ∧ lv = getF v Reg.DRILL_CMD_LEVEL ∧ ((∀ op, 1 ≤ op → op ≤ 11 → WriteReaches s.dev agent Reg.DRILL_CMD (cmd op) ∧ FieldsInRange Reg.DRILL_CMD (cmd op))) ∧ n = getNode s.dev (nodeKey lv i) ∧ x = { n with w0 := BitVec.ofNat 64 ((data s 0).toNat &&& nodeMask lv), w1 := BitVec.ofNat 64 (bits (data s 1).toNat 0 56) } ∧ nodeExists s.dev lv i = true ∧ nodeFits s.dev lv x = true ∧ n.count = 0 :=
  ⟨onDev fun d => wr (wr d (Reg.DRILL_DATA 0) 0x8000000000100000) (Reg.DRILL_DATA 1) 0, 1, mkWord [(Reg.DRILL_CMD_INDEX, 5),
    (Reg.DRILL_CMD_LEVEL, 2)], getF (mkWord [(Reg.DRILL_CMD_INDEX, 5), (Reg.DRILL_CMD_LEVEL, 2)]) Reg.DRILL_CMD_INDEX,
    getF (mkWord [(Reg.DRILL_CMD_INDEX, 5), (Reg.DRILL_CMD_LEVEL, 2)]) Reg.DRILL_CMD_LEVEL, nodeDef 0,
    { nodeDef 0 with w0 := 0x8000000000100000 }, rfl, rfl,
    (by intro op h1 h6; have h : op = 1 ∨ op = 2 ∨ op = 3 ∨ op = 4 ∨ op = 5 ∨ op = 6 ∨ op = 7 ∨ op = 8 ∨ op = 9 ∨ op = 10 ∨ op = 11 := (by omega); rcases h with rfl | rfl | rfl | rfl | rfl | rfl | rfl | rfl | rfl | rfl | rfl <;> exact ⟨reaches_ok (by decide +kernel), by rfl⟩), (by decide +kernel), (by decide +kernel), (by decide +kernel), (by decide +kernel), (by decide +kernel)⟩

theorem wit_DrillCommands_2 :
    ∃ (s : State) (agent : Nat) (v : W64) (i : Nat) (lv : Nat),
      let cmd := fun op => setF v Reg.DRILL_CMD_OP op; let result := fun (t : State) => rdF t.dev Reg.DRILL_STATUS Reg.DRILL_STATUS_RESULT; let data := fun (t : State) (n : Nat) => rd t.dev (Reg.DRILL_DATA n); ∃ (n : Node) (x : Node), i = getF v Reg.DRILL_CMD_INDEX ∧ lv = getF v Reg.DRILL_CMD_LEVEL ∧ ((∀ op, 1 ≤ op → op ≤ 11 → WriteReaches s.dev agent Reg.DRILL_CMD (cmd op) ∧ FieldsInRange Reg.DRILL_CMD (cmd op))) ∧ n = getNode s.dev (nodeKey lv i) ∧ x = { n with w0 := BitVec.ofNat 64 ((data s 0).toNat &&& nodeMask lv), w1 := BitVec.ofNat 64 (bits (data s 1).toNat 0 56) } ∧ nodeExists s.dev lv i = true ∧ nodeFits s.dev lv x = true ∧ n.count ≠ 0 ∧ x.band ≠ n.band :=
  ⟨onDev fun d => putNode (wr d (Reg.DRILL_DATA 0) 0x8000000000140000) (nodeKey 2 5) { nodeDef 0 with count := 1 }, 1,
    mkWord [(Reg.DRILL_CMD_INDEX, 5), (Reg.DRILL_CMD_LEVEL, 2)], getF (mkWord [(Reg.DRILL_CMD_INDEX, 5), (Reg.DRILL_CMD_LEVEL,
    2)]) Reg.DRILL_CMD_INDEX, getF (mkWord [(Reg.DRILL_CMD_INDEX, 5), (Reg.DRILL_CMD_LEVEL, 2)]) Reg.DRILL_CMD_LEVEL,
    { nodeDef 0 with count := 1 }, { nodeDef 0 with count := 1, w0 := 0x8000000000140000 }, rfl, rfl,
    (by intro op h1 h6; have h : op = 1 ∨ op = 2 ∨ op = 3 ∨ op = 4 ∨ op = 5 ∨ op = 6 ∨ op = 7 ∨ op = 8 ∨ op = 9 ∨ op = 10 ∨ op = 11 := (by omega); rcases h with rfl | rfl | rfl | rfl | rfl | rfl | rfl | rfl | rfl | rfl | rfl <;> exact ⟨reaches_ok (by decide +kernel), by rfl⟩), (by decide +kernel), (by decide +kernel), (by decide +kernel), (by decide +kernel), (by decide +kernel), (by decide +kernel)⟩

theorem wit_DrillCommands_3 :
    ∃ (s : State) (agent : Nat) (v : W64) (i : Nat) (lv : Nat),
      let cmd := fun op => setF v Reg.DRILL_CMD_OP op; let result := fun (t : State) => rdF t.dev Reg.DRILL_STATUS Reg.DRILL_STATUS_RESULT; let data := fun (t : State) (n : Nat) => rd t.dev (Reg.DRILL_DATA n); i = getF v Reg.DRILL_CMD_INDEX ∧ lv = getF v Reg.DRILL_CMD_LEVEL ∧ ((∀ op, 1 ≤ op → op ≤ 11 → WriteReaches s.dev agent Reg.DRILL_CMD (cmd op) ∧ FieldsInRange Reg.DRILL_CMD (cmd op))) ∧ nodeExists s.dev lv i = true ∧ ecc s.dev .node (nodeKey lv i) ≠ 2 :=
  ⟨State.reset, 1, mkWord [(Reg.DRILL_CMD_INDEX, 5), (Reg.DRILL_CMD_LEVEL, 1)], getF (mkWord [(Reg.DRILL_CMD_INDEX, 5),
    (Reg.DRILL_CMD_LEVEL, 1)]) Reg.DRILL_CMD_INDEX, getF (mkWord [(Reg.DRILL_CMD_INDEX, 5), (Reg.DRILL_CMD_LEVEL,
    1)]) Reg.DRILL_CMD_LEVEL, rfl, rfl,
    (by intro op h1 h6; have h : op = 1 ∨ op = 2 ∨ op = 3 ∨ op = 4 ∨ op = 5 ∨ op = 6 ∨ op = 7 ∨ op = 8 ∨ op = 9 ∨ op = 10 ∨ op = 11 := (by omega); rcases h with rfl | rfl | rfl | rfl | rfl | rfl | rfl | rfl | rfl | rfl | rfl <;> exact ⟨reaches_ok (by decide +kernel), by rfl⟩), (by decide +kernel), (by decide +kernel)⟩

theorem wit_DrillCommands_4 :
    ∃ (s : State) (agent : Nat) (v : W64) (i : Nat) (lv : Nat), let cmd := fun op => setF v Reg.DRILL_CMD_OP op;
      let result := fun (t : State) => rdF t.dev Reg.DRILL_STATUS Reg.DRILL_STATUS_RESULT;
      let data := fun (t : State) (n : Nat) => rd t.dev (Reg.DRILL_DATA n); i = getF v Reg.DRILL_CMD_INDEX ∧
      lv = getF v Reg.DRILL_CMD_LEVEL ∧
      ((∀ op, 1 ≤ op → op ≤ 11 → WriteReaches s.dev agent Reg.DRILL_CMD (cmd op) ∧ FieldsInRange Reg.DRILL_CMD (cmd op))) ∧ i < 131072 ∧
      ecc s.dev .gcl i ≠ 2 :=
  ⟨State.reset, 1, mkWord [(Reg.DRILL_CMD_INDEX, 131071), (Reg.DRILL_CMD_LEVEL, 0)],
    getF (mkWord [(Reg.DRILL_CMD_INDEX, 131071), (Reg.DRILL_CMD_LEVEL, 0)]) Reg.DRILL_CMD_INDEX,
    getF (mkWord [(Reg.DRILL_CMD_INDEX, 131071), (Reg.DRILL_CMD_LEVEL, 0)]) Reg.DRILL_CMD_LEVEL, rfl, rfl,
    (by intro op h1 h6; have h : op = 1 ∨ op = 2 ∨ op = 3 ∨ op = 4 ∨ op = 5 ∨ op = 6 ∨ op = 7 ∨ op = 8 ∨ op = 9 ∨ op = 10 ∨ op = 11 := (by omega); rcases h with rfl | rfl | rfl | rfl | rfl | rfl | rfl | rfl | rfl | rfl | rfl <;> exact ⟨reaches_ok (by decide +kernel), by rfl⟩),
    (by decide +kernel), (by decide +kernel)⟩

theorem wit_DrillCommands_5 :
    ∃ (s : State) (agent : Nat) (v : W64) (i : Nat) (lv : Nat),
      let cmd := fun op => setF v Reg.DRILL_CMD_OP op; let result := fun (t : State) => rdF t.dev Reg.DRILL_STATUS Reg.DRILL_STATUS_RESULT; let data := fun (t : State) (n : Nat) => rd t.dev (Reg.DRILL_DATA n); i = getF v Reg.DRILL_CMD_INDEX ∧ lv = getF v Reg.DRILL_CMD_LEVEL ∧ ((∀ op, 1 ≤ op → op ≤ 11 → WriteReaches s.dev agent Reg.DRILL_CMD (cmd op) ∧ FieldsInRange Reg.DRILL_CMD (cmd op))) ∧ i < 131072 ∧ 32 ≤ bits (data s 0).toNat 8 32 ∧ bits (data s 0).toNat 8 32 ≤ 1000000000 ∧ gclInUse s.dev i = false :=
  ⟨onDev fun d => wr (wr d (Reg.DRILL_DATA 0) 0x6401) (Reg.DRILL_DATA 1) 0, 1, mkWord [(Reg.DRILL_CMD_INDEX, 131071),
    (Reg.DRILL_CMD_LEVEL, 0)], getF (mkWord [(Reg.DRILL_CMD_INDEX, 131071), (Reg.DRILL_CMD_LEVEL, 0)]) Reg.DRILL_CMD_INDEX,
    getF (mkWord [(Reg.DRILL_CMD_INDEX, 131071), (Reg.DRILL_CMD_LEVEL, 0)]) Reg.DRILL_CMD_LEVEL, rfl, rfl,
    (by intro op h1 h6; have h : op = 1 ∨ op = 2 ∨ op = 3 ∨ op = 4 ∨ op = 5 ∨ op = 6 ∨ op = 7 ∨ op = 8 ∨ op = 9 ∨ op = 10 ∨ op = 11 := (by omega); rcases h with rfl | rfl | rfl | rfl | rfl | rfl | rfl | rfl | rfl | rfl | rfl <;> exact ⟨reaches_ok (by decide +kernel), by rfl⟩), (by decide +kernel), (by decide +kernel), (by decide +kernel), (by decide +kernel)⟩

theorem wit_DrillCommands_6 :
    ∃ (s : State) (agent : Nat) (v : W64) (i : Nat) (lv : Nat),
      let cmd := fun op => setF v Reg.DRILL_CMD_OP op; let result := fun (t : State) => rdF t.dev Reg.DRILL_STATUS Reg.DRILL_STATUS_RESULT; let data := fun (t : State) (n : Nat) => rd t.dev (Reg.DRILL_DATA n); i = getF v Reg.DRILL_CMD_INDEX ∧ lv = getF v Reg.DRILL_CMD_LEVEL ∧ ((∀ op, 1 ≤ op → op ≤ 11 → WriteReaches s.dev agent Reg.DRILL_CMD (cmd op) ∧ FieldsInRange Reg.DRILL_CMD (cmd op))) ∧ i < 131072 ∧ 32 ≤ bits (data s 0).toNat 8 32 ∧ bits (data s 0).toNat 8 32 ≤ 1000000000 ∧ gclInUse s.dev i = true :=
  ⟨onDev fun d => putGate (wr d (Reg.DRILL_DATA 0) 0x6401) 0 { gateDef 0 with op := ⟨0, 0x8001000000000000, 0, 0⟩ }, 1,
    mkWord [(Reg.DRILL_CMD_INDEX, 0), (Reg.DRILL_CMD_LEVEL, 0)], getF (mkWord [(Reg.DRILL_CMD_INDEX, 0), (Reg.DRILL_CMD_LEVEL,
    0)]) Reg.DRILL_CMD_INDEX, getF (mkWord [(Reg.DRILL_CMD_INDEX, 0), (Reg.DRILL_CMD_LEVEL, 0)]) Reg.DRILL_CMD_LEVEL, rfl, rfl,
    (by intro op h1 h6; have h : op = 1 ∨ op = 2 ∨ op = 3 ∨ op = 4 ∨ op = 5 ∨ op = 6 ∨ op = 7 ∨ op = 8 ∨ op = 9 ∨ op = 10 ∨ op = 11 := (by omega); rcases h with rfl | rfl | rfl | rfl | rfl | rfl | rfl | rfl | rfl | rfl | rfl <;> exact ⟨reaches_ok (by decide +kernel), by rfl⟩), (by decide +kernel), (by decide +kernel), (by decide +kernel), (by decide +kernel)⟩

theorem wit_DrillCommands_7 :
    ∃ (s : State) (agent : Nat) (v : W64) (i : Nat) (lv : Nat), let cmd := fun op => setF v Reg.DRILL_CMD_OP op;
      let result := fun (t : State) => rdF t.dev Reg.DRILL_STATUS Reg.DRILL_STATUS_RESULT;
      let data := fun (t : State) (n : Nat) => rd t.dev (Reg.DRILL_DATA n); i = getF v Reg.DRILL_CMD_INDEX ∧
      lv = getF v Reg.DRILL_CMD_LEVEL ∧
      ((∀ op, 1 ≤ op → op ≤ 11 → WriteReaches s.dev agent Reg.DRILL_CMD (cmd op) ∧ FieldsInRange Reg.DRILL_CMD (cmd op))) ∧
      i < portCount s.dev ∧ ecc s.dev .gate i ≠ 2 :=
  ⟨State.reset, 1, mkWord [(Reg.DRILL_CMD_INDEX, 255), (Reg.DRILL_CMD_LEVEL, 0)],
    getF (mkWord [(Reg.DRILL_CMD_INDEX, 255), (Reg.DRILL_CMD_LEVEL, 0)]) Reg.DRILL_CMD_INDEX,
    getF (mkWord [(Reg.DRILL_CMD_INDEX, 255), (Reg.DRILL_CMD_LEVEL, 0)]) Reg.DRILL_CMD_LEVEL, rfl, rfl,
    (by intro op h1 h6; have h : op = 1 ∨ op = 2 ∨ op = 3 ∨ op = 4 ∨ op = 5 ∨ op = 6 ∨ op = 7 ∨ op = 8 ∨ op = 9 ∨ op = 10 ∨ op = 11 := (by omega); rcases h with rfl | rfl | rfl | rfl | rfl | rfl | rfl | rfl | rfl | rfl | rfl <;> exact ⟨reaches_ok (by decide +kernel), by rfl⟩),
    (by decide +kernel), (by decide +kernel)⟩

theorem wit_DrillCommands_8 :
    ∃ (s : State) (agent : Nat) (v : W64) (i : Nat) (lv : Nat),
      let cmd := fun op => setF v Reg.DRILL_CMD_OP op; let result := fun (t : State) => rdF t.dev Reg.DRILL_STATUS Reg.DRILL_STATUS_RESULT; let data := fun (t : State) (n : Nat) => rd t.dev (Reg.DRILL_DATA n); ∃ (w1 : Nat) (len : Nat) (cyc : Nat) (base : Nat), i = getF v Reg.DRILL_CMD_INDEX ∧ lv = getF v Reg.DRILL_CMD_LEVEL ∧ ((∀ op, 1 ≤ op → op ≤ 11 → WriteReaches s.dev agent Reg.DRILL_CMD (cmd op) ∧ FieldsInRange Reg.DRILL_CMD (cmd op))) ∧ w1 = (data s 1).toNat ∧ len = bits w1 47 11 ∧ cyc = bits w1 0 30 ∧ base = bits w1 30 17 ∧ i < portCount s.dev ∧ 1 ≤ len ∧ len ≤ 1024 ∧ 1000 ≤ cyc ∧ cyc ≤ 1000000000 ∧ base + len ≤ 131072 :=
  ⟨onDev fun d => wr (wr d (Reg.DRILL_DATA 0) 77) (Reg.DRILL_DATA 1) 0x80008000000007D0, 1, mkWord [(Reg.DRILL_CMD_INDEX, 5),
    (Reg.DRILL_CMD_LEVEL, 0)], getF (mkWord [(Reg.DRILL_CMD_INDEX, 5), (Reg.DRILL_CMD_LEVEL, 0)]) Reg.DRILL_CMD_INDEX,
    getF (mkWord [(Reg.DRILL_CMD_INDEX, 5), (Reg.DRILL_CMD_LEVEL, 0)]) Reg.DRILL_CMD_LEVEL, 0x80008000000007D0, 1, 2000, 0, rfl, rfl,
    (by intro op h1 h6; have h : op = 1 ∨ op = 2 ∨ op = 3 ∨ op = 4 ∨ op = 5 ∨ op = 6 ∨ op = 7 ∨ op = 8 ∨ op = 9 ∨ op = 10 ∨ op = 11 := (by omega); rcases h with rfl | rfl | rfl | rfl | rfl | rfl | rfl | rfl | rfl | rfl | rfl <;> exact ⟨reaches_ok (by decide +kernel), by rfl⟩), (by decide +kernel), (by decide +kernel), (by decide +kernel), (by decide +kernel), (by decide +kernel), (by decide +kernel), (by decide +kernel), (by decide +kernel), (by decide +kernel), (by decide +kernel)⟩

theorem wit_DrillCommands_9 :
    ∃ (s : State) (agent : Nat) (v : W64) (i : Nat) (lv : Nat),
      let cmd := fun op => setF v Reg.DRILL_CMD_OP op; let result := fun (t : State) => rdF t.dev Reg.DRILL_STATUS Reg.DRILL_STATUS_RESULT; let data := fun (t : State) (n : Nat) => rd t.dev (Reg.DRILL_DATA n); i = getF v Reg.DRILL_CMD_INDEX ∧ lv = getF v Reg.DRILL_CMD_LEVEL ∧ ((∀ op, 1 ≤ op → op ≤ 11 → WriteReaches s.dev agent Reg.DRILL_CMD (cmd op) ∧ FieldsInRange Reg.DRILL_CMD (cmd op))) ∧ ecc s.dev .meter i ≠ 2 :=
  ⟨State.reset, 1, mkWord [(Reg.DRILL_CMD_INDEX, 1048575), (Reg.DRILL_CMD_LEVEL, 0)], getF (mkWord [(Reg.DRILL_CMD_INDEX, 1048575),
    (Reg.DRILL_CMD_LEVEL, 0)]) Reg.DRILL_CMD_INDEX, getF (mkWord [(Reg.DRILL_CMD_INDEX, 1048575), (Reg.DRILL_CMD_LEVEL,
    0)]) Reg.DRILL_CMD_LEVEL, rfl, rfl,
    (by intro op h1 h6; have h : op = 1 ∨ op = 2 ∨ op = 3 ∨ op = 4 ∨ op = 5 ∨ op = 6 ∨ op = 7 ∨ op = 8 ∨ op = 9 ∨ op = 10 ∨ op = 11 := (by omega); rcases h with rfl | rfl | rfl | rfl | rfl | rfl | rfl | rfl | rfl | rfl | rfl <;> exact ⟨reaches_ok (by decide +kernel), by rfl⟩), (by decide +kernel)⟩

theorem wit_DrillCommands_10 :
    ∃ (s : State) (agent : Nat) (v : W64) (i : Nat) (lv : Nat),
      let cmd := fun op => setF v Reg.DRILL_CMD_OP op; let result := fun (t : State) => rdF t.dev Reg.DRILL_STATUS Reg.DRILL_STATUS_RESULT; let data := fun (t : State) (n : Nat) => rd t.dev (Reg.DRILL_DATA n); ∃ (p : Nat), i = getF v Reg.DRILL_CMD_INDEX ∧ lv = getF v Reg.DRILL_CMD_LEVEL ∧ ((∀ op, 1 ≤ op → op ≤ 11 → WriteReaches s.dev agent Reg.DRILL_CMD (cmd op) ∧ FieldsInRange Reg.DRILL_CMD (cmd op))) ∧ p = bits (data s 0).toNat 0 12 :=
  ⟨onDev fun d => wr (wr d (Reg.DRILL_DATA 0) 3) (Reg.DRILL_DATA 1) 0, 1, mkWord [(Reg.DRILL_CMD_INDEX, 9), (Reg.DRILL_CMD_LEVEL, 0)],
    getF (mkWord [(Reg.DRILL_CMD_INDEX, 9), (Reg.DRILL_CMD_LEVEL, 0)]) Reg.DRILL_CMD_INDEX, getF (mkWord [(Reg.DRILL_CMD_INDEX, 9),
    (Reg.DRILL_CMD_LEVEL, 0)]) Reg.DRILL_CMD_LEVEL, 3, rfl, rfl,
    (by intro op h1 h6; have h : op = 1 ∨ op = 2 ∨ op = 3 ∨ op = 4 ∨ op = 5 ∨ op = 6 ∨ op = 7 ∨ op = 8 ∨ op = 9 ∨ op = 10 ∨ op = 11 := (by omega); rcases h with rfl | rfl | rfl | rfl | rfl | rfl | rfl | rfl | rfl | rfl | rfl <;> exact ⟨reaches_ok (by decide +kernel), by rfl⟩), (by decide +kernel)⟩

theorem wit_DrillCommands_11 :
    ∃ (s : State) (agent : Nat) (v : W64) (i : Nat) (lv : Nat), let cmd := fun op => setF v Reg.DRILL_CMD_OP op;
      let result := fun (t : State) => rdF t.dev Reg.DRILL_STATUS Reg.DRILL_STATUS_RESULT;
      let data := fun (t : State) (n : Nat) => rd t.dev (Reg.DRILL_DATA n); i = getF v Reg.DRILL_CMD_INDEX ∧
      lv = getF v Reg.DRILL_CMD_LEVEL ∧
      ((∀ op, 1 ≤ op → op ≤ 11 → WriteReaches s.dev agent Reg.DRILL_CMD (cmd op) ∧ FieldsInRange Reg.DRILL_CMD (cmd op))) ∧ i < 4096 ∧
      ecc s.dev .mprof i ≠ 2 :=
  ⟨State.reset, 1, mkWord [(Reg.DRILL_CMD_INDEX, 4095), (Reg.DRILL_CMD_LEVEL, 0)],
    getF (mkWord [(Reg.DRILL_CMD_INDEX, 4095), (Reg.DRILL_CMD_LEVEL, 0)]) Reg.DRILL_CMD_INDEX,
    getF (mkWord [(Reg.DRILL_CMD_INDEX, 4095), (Reg.DRILL_CMD_LEVEL, 0)]) Reg.DRILL_CMD_LEVEL, rfl, rfl,
    (by intro op h1 h6; have h : op = 1 ∨ op = 2 ∨ op = 3 ∨ op = 4 ∨ op = 5 ∨ op = 6 ∨ op = 7 ∨ op = 8 ∨ op = 9 ∨ op = 10 ∨ op = 11 := (by omega); rcases h with rfl | rfl | rfl | rfl | rfl | rfl | rfl | rfl | rfl | rfl | rfl <;> exact ⟨reaches_ok (by decide +kernel), by rfl⟩),
    (by decide +kernel), (by decide +kernel)⟩

theorem wit_DrillCommands_12 :
    ∃ (s : State) (agent : Nat) (v : W64) (i : Nat) (lv : Nat), let cmd := fun op => setF v Reg.DRILL_CMD_OP op;
      let result := fun (t : State) => rdF t.dev Reg.DRILL_STATUS Reg.DRILL_STATUS_RESULT;
      let data := fun (t : State) (n : Nat) => rd t.dev (Reg.DRILL_DATA n); i = getF v Reg.DRILL_CMD_INDEX ∧
      lv = getF v Reg.DRILL_CMD_LEVEL ∧
      ((∀ op, 1 ≤ op → op ≤ 11 → WriteReaches s.dev agent Reg.DRILL_CMD (cmd op) ∧ FieldsInRange Reg.DRILL_CMD (cmd op))) ∧ i < 131072 ∧
      ecc s.dev .gcl i = 2 :=
  ⟨onDev fun d => setEcc d .gcl 131071 2, 1, mkWord [(Reg.DRILL_CMD_INDEX, 131071), (Reg.DRILL_CMD_LEVEL, 0)],
    getF (mkWord [(Reg.DRILL_CMD_INDEX, 131071), (Reg.DRILL_CMD_LEVEL, 0)]) Reg.DRILL_CMD_INDEX,
    getF (mkWord [(Reg.DRILL_CMD_INDEX, 131071), (Reg.DRILL_CMD_LEVEL, 0)]) Reg.DRILL_CMD_LEVEL, rfl, rfl,
    (by intro op h1 h6; have h : op = 1 ∨ op = 2 ∨ op = 3 ∨ op = 4 ∨ op = 5 ∨ op = 6 ∨ op = 7 ∨ op = 8 ∨ op = 9 ∨ op = 10 ∨ op = 11 := (by omega); rcases h with rfl | rfl | rfl | rfl | rfl | rfl | rfl | rfl | rfl | rfl | rfl <;> exact ⟨reaches_ok (by decide +kernel), by rfl⟩),
    (by decide +kernel), (by decide +kernel)⟩

theorem wit_DrillCommands_13 :
    ∃ (s : State) (agent : Nat) (v : W64) (i : Nat) (lv : Nat), let cmd := fun op => setF v Reg.DRILL_CMD_OP op;
      let result := fun (t : State) => rdF t.dev Reg.DRILL_STATUS Reg.DRILL_STATUS_RESULT;
      let data := fun (t : State) (n : Nat) => rd t.dev (Reg.DRILL_DATA n); i = getF v Reg.DRILL_CMD_INDEX ∧
      lv = getF v Reg.DRILL_CMD_LEVEL ∧
      ((∀ op, 1 ≤ op → op ≤ 11 → WriteReaches s.dev agent Reg.DRILL_CMD (cmd op) ∧ FieldsInRange Reg.DRILL_CMD (cmd op))) ∧
      i < portCount s.dev ∧ ecc s.dev .gate i = 2 :=
  ⟨onDev fun d => setEcc d .gate 255 2, 1, mkWord [(Reg.DRILL_CMD_INDEX, 255), (Reg.DRILL_CMD_LEVEL, 0)],
    getF (mkWord [(Reg.DRILL_CMD_INDEX, 255), (Reg.DRILL_CMD_LEVEL, 0)]) Reg.DRILL_CMD_INDEX,
    getF (mkWord [(Reg.DRILL_CMD_INDEX, 255), (Reg.DRILL_CMD_LEVEL, 0)]) Reg.DRILL_CMD_LEVEL, rfl, rfl,
    (by intro op h1 h6; have h : op = 1 ∨ op = 2 ∨ op = 3 ∨ op = 4 ∨ op = 5 ∨ op = 6 ∨ op = 7 ∨ op = 8 ∨ op = 9 ∨ op = 10 ∨ op = 11 := (by omega); rcases h with rfl | rfl | rfl | rfl | rfl | rfl | rfl | rfl | rfl | rfl | rfl <;> exact ⟨reaches_ok (by decide +kernel), by rfl⟩),
    (by decide +kernel), (by decide +kernel)⟩

theorem wit_DrillCommands_14 :
    ∃ (s : State) (agent : Nat) (v : W64) (i : Nat) (lv : Nat), let cmd := fun op => setF v Reg.DRILL_CMD_OP op;
      let result := fun (t : State) => rdF t.dev Reg.DRILL_STATUS Reg.DRILL_STATUS_RESULT;
      let data := fun (t : State) (n : Nat) => rd t.dev (Reg.DRILL_DATA n); i = getF v Reg.DRILL_CMD_INDEX ∧
      lv = getF v Reg.DRILL_CMD_LEVEL ∧
      ((∀ op, 1 ≤ op → op ≤ 11 → WriteReaches s.dev agent Reg.DRILL_CMD (cmd op) ∧ FieldsInRange Reg.DRILL_CMD (cmd op))) ∧ i < 4096 ∧
      ecc s.dev .mprof i = 2 :=
  ⟨onDev fun d => setEcc d .mprof 4095 2, 1, mkWord [(Reg.DRILL_CMD_INDEX, 4095), (Reg.DRILL_CMD_LEVEL, 0)],
    getF (mkWord [(Reg.DRILL_CMD_INDEX, 4095), (Reg.DRILL_CMD_LEVEL, 0)]) Reg.DRILL_CMD_INDEX,
    getF (mkWord [(Reg.DRILL_CMD_INDEX, 4095), (Reg.DRILL_CMD_LEVEL, 0)]) Reg.DRILL_CMD_LEVEL, rfl, rfl,
    (by intro op h1 h6; have h : op = 1 ∨ op = 2 ∨ op = 3 ∨ op = 4 ∨ op = 5 ∨ op = 6 ∨ op = 7 ∨ op = 8 ∨ op = 9 ∨ op = 10 ∨ op = 11 := (by omega); rcases h with rfl | rfl | rfl | rfl | rfl | rfl | rfl | rfl | rfl | rfl | rfl <;> exact ⟨reaches_ok (by decide +kernel), by rfl⟩),
    (by decide +kernel), (by decide +kernel)⟩

theorem wit_DrillCommands_15 :
    ∃ (s : State) (agent : Nat) (v : W64) (i : Nat) (lv : Nat),
      let cmd := fun op => setF v Reg.DRILL_CMD_OP op; let result := fun (t : State) => rdF t.dev Reg.DRILL_STATUS Reg.DRILL_STATUS_RESULT; let data := fun (t : State) (n : Nat) => rd t.dev (Reg.DRILL_DATA n); i = getF v Reg.DRILL_CMD_INDEX ∧ lv = getF v Reg.DRILL_CMD_LEVEL ∧ ((∀ op, 1 ≤ op → op ≤ 11 → WriteReaches s.dev agent Reg.DRILL_CMD (cmd op) ∧ FieldsInRange Reg.DRILL_CMD (cmd op))) ∧ i < 4096 ∧ bits (data s 0).toNat 57 2 ≠ 3 ∧ bits (data s 0).toNat 0 32 ≤ 2000000000 ∧ bits (data s 1).toNat 0 32 ≤ 2000000000 :=
  ⟨onDev fun d => wr (wr d (Reg.DRILL_DATA 0) 0x0400000177359400) (Reg.DRILL_DATA 1) 5, 1, mkWord [(Reg.DRILL_CMD_INDEX, 9),
    (Reg.DRILL_CMD_LEVEL, 0)], getF (mkWord [(Reg.DRILL_CMD_INDEX, 9), (Reg.DRILL_CMD_LEVEL, 0)]) Reg.DRILL_CMD_INDEX,
    getF (mkWord [(Reg.DRILL_CMD_INDEX, 9), (Reg.DRILL_CMD_LEVEL, 0)]) Reg.DRILL_CMD_LEVEL, rfl, rfl,
    (by intro op h1 h6; have h : op = 1 ∨ op = 2 ∨ op = 3 ∨ op = 4 ∨ op = 5 ∨ op = 6 ∨ op = 7 ∨ op = 8 ∨ op = 9 ∨ op = 10 ∨ op = 11 := (by omega); rcases h with rfl | rfl | rfl | rfl | rfl | rfl | rfl | rfl | rfl | rfl | rfl <;> exact ⟨reaches_ok (by decide +kernel), by rfl⟩), (by decide +kernel), (by decide +kernel), (by decide +kernel), (by decide +kernel)⟩

end Sys2Proof.Tests
end

