-- ==== Sys2Proof/Tests/Witness3.lean ====
section
/-!
SUPPORT. Witnesses, part 3: for each clause of O44 to O50 that has hypotheses, a state and operands that meet all of
them together. `wit_<Name>_<k>` is clause k, counted from 0, of the obligation of that name.
-/
namespace Sys2Proof.Tests
open Sys2Proof Sys2Proof.Machine
set_option Elab.async false
set_option maxRecDepth 10000
set_option linter.unusedVariables false

/-! O44, SpillAndRefill. -/

theorem wit_SpillAndRefill_0 :
    ∃ (s : State) (q : Nat) (m : Nat) (p : Pkt) (rest : List Pkt) (x : SubQ), x = getSub s.dev q m ∧ x.spilled = true ∧
      x.tail = p :: rest ∧ profF s.dev q 0 Reg.QPROF_TAIL_CELLS < cellsIn x.tail ∧
      ecc s.dev .rindEntry (saKey 3 (queueHolding s.dev q)) = 0 ∧ x.openBuf.length + (recordBytes p).length < 4064 ∧
      spillBlocked s.dev q m = false :=
  ⟨onDev fun d => putSub ({ wrF (wrF d (Reg.QPROF 0 1) Reg.QPROF_MAX_PAGES 100) (Reg.QPROF 0 0) Reg.QPROF_TAIL_CELLS 0 with que := { d.que with ringCount := 100 } }) 5 2 { subDef 0 with spilled := true, tail := [{ pk with cells := [1], pool := 1 }] },
    5, 2, { pk with cells := [1], pool := 1 }, [], { subDef 0 with spilled := true, tail := [{ pk with cells := [1], pool := 1 }] },
    (by decide +kernel), (by decide +kernel), (by decide +kernel), (by decide +kernel), (by decide +kernel), (by decide +kernel),
    (by decide +kernel)⟩

theorem wit_SpillAndRefill_1 :
    ∃ (s : State) (q : Nat) (m : Nat) (p : Pkt) (rest : List Pkt) (x : SubQ), x = getSub s.dev q m ∧ x.spilled = true ∧
      x.tail = p :: rest ∧ profF s.dev q 0 Reg.QPROF_TAIL_CELLS < cellsIn x.tail ∧
      ecc s.dev .rindEntry (saKey 3 (queueHolding s.dev q)) = 0 ∧ spillBlocked s.dev q m = true :=
  ⟨onDev fun d => putSub (wrF d (Reg.QPROF 0 0) Reg.QPROF_TAIL_CELLS 0) 5 2 { subDef 0 with spilled := true, tail := [{ pk with cells := [1], pool := 1 }] },
    5, 2, { pk with cells := [1], pool := 1 }, [], { subDef 0 with spilled := true, tail := [{ pk with cells := [1], pool := 1 }] },
    (by decide +kernel), (by decide +kernel), (by decide +kernel), (by decide +kernel), (by decide +kernel), (by decide +kernel)⟩

theorem wit_SpillAndRefill_2 :
    ∃ (s : State) (q : Nat) (m : Nat) (x : SubQ) (i : Nat) (pg : Page) (k : Nat × Nat), x = getSub s.dev q m ∧
      (x.pages.findIdx? fun g => !g.written) = some i ∧ x.pages[i]? = some pg ∧ pg.stream.length = 4064 ∧
      k = deepKeys s.dev (queueHolding s.dev q) ∧ s.dev.writes = [] ∧ deepReady s.dev = true ∧ 4096 * pg.ptr + 4096 ≤ deepSize s.dev ∧
      flagF s.dev Reg.FAULT_INJECT Reg.FAULT_INJECT_PENDING = false ∧ ((∀ k c r, k < 2 → c < 32 → r < 4 → rankState s.dev k c r ≠ 6)) ∧
      ecc s.dev .rindEntry (saKey 3 (queueHolding s.dev q)) = 0 ∧ eVld (rindEnt s.dev 3 (queueHolding s.dev q)) = true ∧
      (∀ r ∈ s.dev.deep.reqs, r.port ≠ 1) :=
  ⟨onDev fun d => putSub (putEnt (deepUp d) 3 (queueHolding (deepUp d) 5) (2 ^ 831)) 5 2 { subDef 0 with pages := [Page.mk 7 0 0 0 (List.replicate 4064 1) false] },
    5, 2, { subDef 0 with pages := [Page.mk 7 0 0 0 (List.replicate 4064 1) false] }, 0, Page.mk 7 0 0 0 (List.replicate 4064 1) false,
    deepKeys (onDev fun d => putSub (putEnt (deepUp d) 3 (queueHolding (deepUp d) 5) (2 ^ 831)) 5 2 { subDef 0 with pages := [Page.mk 7 0 0 0 (List.replicate 4064 1) false] }).dev (queueHolding (onDev fun d => putSub (putEnt (deepUp d) 3 (queueHolding (deepUp d) 5) (2 ^ 831)) 5 2 { subDef 0 with pages := [Page.mk 7 0 0 0 (List.replicate 4064 1) false] }).dev (5)),
    (by decide +kernel), (by decide +kernel), (by decide +kernel), (by decide +kernel), rfl, (by decide +kernel), (by decide +kernel),
    (by decide +kernel), (by decide +kernel),
    (by intro k c r h1 h2 h3; exact (show ∀ k < 2, ∀ c < 32, ∀ x < 4, rankState (onDev fun d => putSub (putEnt (deepUp d) 3 (queueHolding (deepUp d) 5) (2 ^ 831)) 5 2 { subDef 0 with pages := [Page.mk 7 0 0 0 (List.replicate 4064 1) false] }).dev k c x ≠ 6 from by decide +kernel) _ h1 _ h2 _ h3),
    (by decide +kernel), (by decide +kernel), (by intro r hr; cases hr)⟩

theorem wit_SpillAndRefill_3 :
    ∃ (s : State) (q : Nat) (m : Nat) (x : SubQ) (p : Pkt) (start : Nat) (len : Nat) (fl : Bool) (rest : List (Pkt × Nat × Nat × Bool)) (fr : List Byte) (pool : Nat) (cs : List Nat), x = getSub s.dev q m ∧ x.spilled = true ∧ x.recs = (p, start, len, fl) :: rest ∧ refillReady x = true ∧ cellsIn x.head < profF s.dev q 1 Reg.QPROF_REFILL_CELLS ∧ fr = ((recordAt x start len).drop (16 + editHeaderLen p)).take p.frame.length ∧ poolPick s.dev m p.pool (cellsOf { p with frame := fr }) = some pool ∧ (cellsTake s.dev m (cellsOf { p with frame := fr })).1 = some cs :=
  ⟨onDev fun d => putSub (wrF d (Reg.QPROF 0 1) Reg.QPROF_REFILL_CELLS 9) 5 2 { subDef 0 with spilled := true, recs := [(pk, 0, 96, false)], openBuf := List.replicate 200 0 }, 5, 2, { subDef 0 with spilled := true, recs := [(pk, 0, 96, false)], openBuf := List.replicate 200 0 }, pk, 0, 96, false, [], ((recordAt ({ subDef 0 with spilled := true, recs := [(pk, 0, 96, false)], openBuf := List.replicate 200 0 }) (0) (96)).drop (16 + editHeaderLen (pk))).take (pk).frame.length, 0, [0x8000000], (by decide +kernel), (by decide +kernel), (by decide +kernel), (by decide +kernel), (by decide +kernel), rfl, (by decide +kernel), (by decide +kernel)⟩

theorem wit_SpillAndRefill_4 :
    ∃ (s : State) (q : Nat) (m : Nat) (r : Pkt × Nat × Nat × Bool) (rest : List (Pkt × Nat × Nat × Bool)),
      (getSub s.dev q m).recs = r :: rest ∧ refillReady (getSub s.dev q m) = true ∧ poolPick s.dev m r.1.pool (cellsOf r.1) = none :=
  ⟨onDev fun d => putSub (d) 5 2 { subDef 0 with spilled := true, recs := [({ pk with pool := 1 }, 0, 96, false)], openBuf := List.replicate 200 0 }, 5, 2, ({ pk with pool := 1 }, 0, 96, false), [], (by decide +kernel), (by decide +kernel), (by decide +kernel)⟩

theorem wit_SpillAndRefill_5 :
    ∃ (s : State) (m : Nat), (pageCache s.dev m).length < 32 ∧ 32 ≤ s.dev.que.ringCount ∧ 32 ≤ ringLen s.dev ∧
      s.dev.que.ringHead < ringLen s.dev ∧ deepReady s.dev = true ∧ 4096 * spillBase s.dev + 4 * ringLen s.dev ≤ deepSize s.dev ∧
      flagF s.dev Reg.FAULT_INJECT Reg.FAULT_INJECT_PENDING = false ∧ ((∀ k c r, k < 2 → c < 32 → r < 4 → rankState s.dev k c r ≠ 6)) ∧
      (∀ y, ecc s.dev .deep y = 0) ∧ (∀ y, ecc s.dev .pageRing y = 0) ∧
      ((∀ j, j < 32 → pageOutside s.dev ((ringNow s.dev).word ((s.dev.que.ringHead + j) % ringLen s.dev)) = false)) :=
  ⟨onDev fun d => { wrF (deepUp d) Reg.SPILL_REGION Reg.SPILL_REGION_PAGES 1000 with que := { d.que with ringCount := 999 } }, 2,
    (by decide +kernel), (by decide +kernel), (by decide +kernel), (by decide +kernel), (by decide +kernel), (by decide +kernel),
    (by decide +kernel),
    (by intro k c r h1 h2 h3; exact (show ∀ k < 2, ∀ c < 32, ∀ x < 4, rankState (onDev fun d => { wrF (deepUp d) Reg.SPILL_REGION Reg.SPILL_REGION_PAGES 1000 with que := { d.que with ringCount := 999 } }).dev k c x ≠ 6 from by decide +kernel) _ h1 _ h2 _ h3),
    (by intro y; rfl), (by intro y; rfl), (by decide +kernel)⟩

theorem wit_SpillAndRefill_6 :
    ∃ (s : State) (m : Nat) (n : Nat), n = (pageCache s.dev m).length ∧ 96 < n :=
  ⟨onDev fun d => setPageCache d 2 (List.replicate 97 5), 2,
    (pageCache (onDev fun d => setPageCache d 2 (List.replicate 97 5)).dev (2)).length, rfl, (by decide +kernel)⟩

theorem wit_SpillAndRefill_7 :
    ∃ (s : State) (agent : Nat) (v : W64) (n : Nat), WriteReaches s.dev agent Reg.SPILL_REGION v ∧ FieldsInRange Reg.SPILL_REGION v ∧
      n = getF v Reg.SPILL_REGION_PAGES ∧ (s.dev.que.subs.any fun e => e.2.spilled) = false ∧ n ≤ 8388608 ∧
      4096 * (getF v Reg.SPILL_REGION_BASE + n) ≤ deepSize s.dev :=
  ⟨State.reset, 1, setF 0x10 Reg.SPILL_REGION_PAGES 2048, getF (setF 0x10 Reg.SPILL_REGION_PAGES 2048) Reg.SPILL_REGION_PAGES,
    reaches_ok (by decide +kernel), (by rfl), rfl, (by decide +kernel), (by decide +kernel), (by decide +kernel)⟩

theorem wit_SpillAndRefill_8 :
    ∃ (s : State) (agent : Nat) (v : W64) (n : Nat), WriteReaches s.dev agent Reg.SPILL_REGION v ∧ FieldsInRange Reg.SPILL_REGION v ∧
      n = getF v Reg.SPILL_REGION_PAGES ∧ (s.dev.que.subs.any fun e => e.2.spilled) = true :=
  ⟨onDev fun d => putSub (d) 5 2 { subDef 0 with spilled := true }, 1, setF 0x10 Reg.SPILL_REGION_PAGES 2048,
    getF (setF 0x10 Reg.SPILL_REGION_PAGES 2048) Reg.SPILL_REGION_PAGES, reaches_ok (by decide +kernel), (by rfl), rfl,
    (by decide +kernel)⟩

/-! O45, QueueCommands. -/

theorem wit_QueueCommands_0 :
    ∃ (s : State) (agent : Nat) (v : W64) (q : Nat), q = getF v Reg.QUEUE_CMD_QUEUE ∧ ((∀ op,
      1 ≤ op → op ≤ 4 → WriteReaches s.dev agent Reg.QUEUE_CMD (setF v Reg.QUEUE_CMD_OP op) ∧
      FieldsInRange Reg.QUEUE_CMD (setF v Reg.QUEUE_CMD_OP op))) :=
  ⟨State.reset, 1, setF 0 Reg.QUEUE_CMD_QUEUE 65535, getF (setF 0 Reg.QUEUE_CMD_QUEUE 65535) Reg.QUEUE_CMD_QUEUE, rfl,
    (by intro op h1 h6; have h : op = 1 ∨ op = 2 ∨ op = 3 ∨ op = 4 := (by omega); rcases h with rfl | rfl | rfl | rfl <;> exact ⟨reaches_ok (by decide +kernel), by rfl⟩)⟩

theorem wit_QueueCommands_1 :
    ∃ (s : State) (agent : Nat) (v : W64) (q : Nat), q = getF v Reg.QUEUE_CMD_QUEUE ∧ ((∀ op,
      1 ≤ op → op ≤ 4 → WriteReaches s.dev agent Reg.QUEUE_CMD (setF v Reg.QUEUE_CMD_OP op) ∧
      FieldsInRange Reg.QUEUE_CMD (setF v Reg.QUEUE_CMD_OP op))) :=
  ⟨onDev fun d => wr d (Reg.QUEUE_DATA 0) (BitVec.allOnes 64), 1, setF 0 Reg.QUEUE_CMD_QUEUE 65535,
    getF (setF 0 Reg.QUEUE_CMD_QUEUE 65535) Reg.QUEUE_CMD_QUEUE, rfl,
    (by intro op h1 h6; have h : op = 1 ∨ op = 2 ∨ op = 3 ∨ op = 4 := (by omega); rcases h with rfl | rfl | rfl | rfl <;> exact ⟨reaches_ok (by decide +kernel), by rfl⟩)⟩

theorem wit_QueueCommands_2 :
    ∃ (s : State) (agent : Nat) (v : W64) (q : Nat), q = getF v Reg.QUEUE_CMD_QUEUE ∧ ((∀ op,
      1 ≤ op → op ≤ 4 → WriteReaches s.dev agent Reg.QUEUE_CMD (setF v Reg.QUEUE_CMD_OP op) ∧
      FieldsInRange Reg.QUEUE_CMD (setF v Reg.QUEUE_CMD_OP op))) :=
  ⟨State.reset, 1, setF 0 Reg.QUEUE_CMD_QUEUE 65535, getF (setF 0 Reg.QUEUE_CMD_QUEUE 65535) Reg.QUEUE_CMD_QUEUE, rfl,
    (by intro op h1 h6; have h : op = 1 ∨ op = 2 ∨ op = 3 ∨ op = 4 := (by omega); rcases h with rfl | rfl | rfl | rfl <;> exact ⟨reaches_ok (by decide +kernel), by rfl⟩)⟩

theorem wit_QueueCommands_3 :
    ∃ (s : State) (agent : Nat) (v : W64) (q : Nat), q = getF v Reg.QUEUE_CMD_QUEUE ∧ ((∀ op,
      1 ≤ op → op ≤ 4 → WriteReaches s.dev agent Reg.QUEUE_CMD (setF v Reg.QUEUE_CMD_OP op) ∧
      FieldsInRange Reg.QUEUE_CMD (setF v Reg.QUEUE_CMD_OP op))) ∧ queueEnable s.dev q = true :=
  ⟨onDev fun d => { d with que := { d.que with cfg := [(65535, 0x8000000000000000)] } }, 1, setF 0 Reg.QUEUE_CMD_QUEUE 65535,
    getF (setF 0 Reg.QUEUE_CMD_QUEUE 65535) Reg.QUEUE_CMD_QUEUE, rfl,
    (by intro op h1 h6; have h : op = 1 ∨ op = 2 ∨ op = 3 ∨ op = 4 := (by omega); rcases h with rfl | rfl | rfl | rfl <;> exact ⟨reaches_ok (by decide +kernel), by rfl⟩), (by decide +kernel)⟩

theorem wit_QueueCommands_4 :
    ∃ (s : State) (agent : Nat) (v : W64) (q : Nat), q = getF v Reg.QUEUE_CMD_QUEUE ∧ ((∀ op,
      1 ≤ op → op ≤ 4 → WriteReaches s.dev agent Reg.QUEUE_CMD (setF v Reg.QUEUE_CMD_OP op) ∧
      FieldsInRange Reg.QUEUE_CMD (setF v Reg.QUEUE_CMD_OP op))) ∧ queueEnable s.dev q = false :=
  ⟨onDev fun d => putSub d 65535 1 { subDef 0 with head := [{ pk with cells := [0] }] }, 1, setF 0 Reg.QUEUE_CMD_QUEUE 65535,
    getF (setF 0 Reg.QUEUE_CMD_QUEUE 65535) Reg.QUEUE_CMD_QUEUE, rfl,
    (by intro op h1 h6; have h : op = 1 ∨ op = 2 ∨ op = 3 ∨ op = 4 := (by omega); rcases h with rfl | rfl | rfl | rfl <;> exact ⟨reaches_ok (by decide +kernel), by rfl⟩), (by decide +kernel)⟩

theorem wit_QueueCommands_5 :
    ∃ (s : State) (r : Nat) (c : CapRec) (a : Nat), (s.dev.fab.caps.find? fun c => c.ring == r) = some c ∧ r < 16 ∧ c.acre < 4 ∧
      c.pool < 64 ∧ s.dev.writes = [] ∧ capField s.dev r 1 Reg.CAP_RING_DEST = 0 ∧ capField s.dev r 1 Reg.CAP_RING_NOTICE_EVERY = 0 ∧
      a = capField s.dev r 0 Reg.CAP_RING_BASE + 160 * (c.seq % capField s.dev r 1 Reg.CAP_RING_SLOTS) :=
  ⟨onDev fun d => { wrF (wrF d (Reg.CAP_RING 15 0) Reg.CAP_RING_BASE 4096) (Reg.CAP_RING 15 1) Reg.CAP_RING_SLOTS 4 with fab := { d.fab with caps := [⟨15, 5, [1, 2], 0, 0, 0⟩] } }, 15, CapRec.mk 15 5 [1, 2] 0 0 0, capField (onDev fun d => { wrF (wrF d (Reg.CAP_RING 15 0) Reg.CAP_RING_BASE 4096) (Reg.CAP_RING 15 1) Reg.CAP_RING_SLOTS 4 with fab := { d.fab with caps := [⟨15, 5, [1, 2], 0, 0, 0⟩] } }).dev (15) 0 Reg.CAP_RING_BASE + 160 * ((CapRec.mk 15 5 [1, 2] 0 0 0).seq % capField (onDev fun d => { wrF (wrF d (Reg.CAP_RING 15 0) Reg.CAP_RING_BASE 4096) (Reg.CAP_RING 15 1) Reg.CAP_RING_SLOTS 4 with fab := { d.fab with caps := [⟨15, 5, [1, 2], 0, 0, 0⟩] } }).dev (15) 1 Reg.CAP_RING_SLOTS), (by decide +kernel), (by decide +kernel), (by decide +kernel), (by decide +kernel), (by decide +kernel), (by decide +kernel), (by decide +kernel), rfl⟩

/-! O46, FabricActions. -/

theorem wit_FabricActions_0 :
    ∃ (s : State) (a : Nat) (m : Nat) (n : Nat) (p : Pkt) (rest : List Pkt) (d : Dev), getVoq s.dev a m = p :: rest ∧ p.cells ≠ [] ∧
      n ≤ 16 ∧ 0 < n ∧ d = bankCycle m s.dev ∧ n ≤ credit1 d a m ∧ n < p.cells.length - voqDone s.dev a m :=
  ⟨onDev fun d => putVoq d 1 2 [{ pk with cells := [256, 512, 768] }], 1, 2, 2, { pk with cells := [256, 512, 768] }, [],
    bankCycle (2) (onDev fun d => putVoq d 1 2 [{ pk with cells := [256, 512, 768] }]).dev, (by decide +kernel), (by decide +kernel),
    (by decide +kernel), (by decide +kernel), rfl, (by decide +kernel), (by decide +kernel)⟩

theorem wit_FabricActions_1 :
    ∃ (s : State) (a : Nat) (m : Nat) (n : Nat) (p : Pkt) (rest : List Pkt) (d : Dev), getVoq s.dev a m = p :: rest ∧ p.cells ≠ [] ∧
      n ≤ 16 ∧ 0 < n ∧ d = bankCycle m s.dev ∧ n ≤ credit1 d a m ∧ n = p.cells.length - voqDone s.dev a m :=
  ⟨onDev fun d => putVoq d 1 2 [{ pk with cells := [256, 512, 768] }], 1, 2, 3, { pk with cells := [256, 512, 768] }, [],
    bankCycle (2) (onDev fun d => putVoq d 1 2 [{ pk with cells := [256, 512, 768] }]).dev, (by decide +kernel), (by decide +kernel),
    (by decide +kernel), (by decide +kernel), rfl, (by decide +kernel), (by decide +kernel)⟩

theorem wit_FabricActions_2 :
    ∃ (s : State) (a : Nat) (m : Nat) (n : Nat), credit1 (bankCycle m s.dev) a m = 0 :=
  ⟨onDev fun d => setWbuf1 d 2 (List.replicate 200 (1, 5)), 1, 2, 3, (by decide +kernel)⟩

theorem wit_FabricActions_3 :
    ∃ (s : State) (a : Nat) (m : Nat) (n : Nat) (p : Pkt) (rest : List Pkt) (p' : Pkt) (d' : Dev), getVoq s.dev a m = p :: rest ∧
      p.cells = [] ∧ n ≤ 16 ∧ 0 < n ∧ n ≤ credit1 (bankCycle m s.dev) a m ∧ stage1Take (bankCycle m s.dev) m p = (some p', d') :=
  ⟨onDev fun d => putVoq d 1 2 [{ pk with frame := List.replicate 600 0 }], 1, 2, 1, { pk with frame := List.replicate 600 0 }, [],
    ((stage1Take (bankCycle (2) (onDev fun d => putVoq d 1 2 [{ pk with frame := List.replicate 600 0 }]).dev) (2) ({ pk with frame := List.replicate 600 0 })).1).getD pk,
    (stage1Take (bankCycle (2) (onDev fun d => putVoq d 1 2 [{ pk with frame := List.replicate 600 0 }]).dev) (2) ({ pk with frame := List.replicate 600 0 })).2,
    (by decide +kernel), (by decide +kernel), (by decide +kernel), (by decide +kernel), (by decide +kernel), pairSome (by decide +kernel)⟩

theorem wit_FabricActions_4 :
    ∃ (s : State) (a : Nat) (m : Nat) (n : Nat) (p : Pkt) (rest : List Pkt) (p' : Pkt) (d' : Dev), getVoq s.dev a m = p :: rest ∧
      p.cells = [] ∧ n ≤ 16 ∧ 0 < n ∧ n ≤ credit1 (bankCycle m s.dev) a m ∧ stage1Take (bankCycle m s.dev) m p = (some p', d') :=
  ⟨onDev fun d => putVoq d 1 2 [{ pk with frame := List.replicate 600 0 }], 1, 2, 1, { pk with frame := List.replicate 600 0 }, [],
    ((stage1Take (bankCycle (2) (onDev fun d => putVoq d 1 2 [{ pk with frame := List.replicate 600 0 }]).dev) (2) ({ pk with frame := List.replicate 600 0 })).1).getD pk,
    (stage1Take (bankCycle (2) (onDev fun d => putVoq d 1 2 [{ pk with frame := List.replicate 600 0 }]).dev) (2) ({ pk with frame := List.replicate 600 0 })).2,
    (by decide +kernel), (by decide +kernel), (by decide +kernel), (by decide +kernel), (by decide +kernel), pairSome (by decide +kernel)⟩

theorem wit_FabricActions_5 :
    ∃ (s : State) (a : Nat) (m : Nat) (n : Nat) (p : Pkt) (rest : List Pkt) (p' : Pkt) (d' : Dev), getVoq s.dev a m = p :: rest ∧
      p.cells = [] ∧ n ≤ 16 ∧ 0 < n ∧ n ≤ credit1 (bankCycle m s.dev) a m ∧ stage1Take (bankCycle m s.dev) m p = (some p', d') :=
  ⟨onDev fun d => putVoq d 1 2 [{ pk with frame := List.replicate 600 0 }], 1, 2, 1, { pk with frame := List.replicate 600 0 }, [],
    ((stage1Take (bankCycle (2) (onDev fun d => putVoq d 1 2 [{ pk with frame := List.replicate 600 0 }]).dev) (2) ({ pk with frame := List.replicate 600 0 })).1).getD pk,
    (stage1Take (bankCycle (2) (onDev fun d => putVoq d 1 2 [{ pk with frame := List.replicate 600 0 }]).dev) (2) ({ pk with frame := List.replicate 600 0 })).2,
    (by decide +kernel), (by decide +kernel), (by decide +kernel), (by decide +kernel), (by decide +kernel), pairSome (by decide +kernel)⟩

theorem wit_FabricActions_6 :
    ∃ (s : State) (a : Nat) (m : Nat) (n : Nat) (p : Pkt) (rest : List Pkt) (p' : Pkt) (d' : Dev), getVoq s.dev a m = p :: rest ∧
      p.cells = [] ∧ n ≤ 16 ∧ 0 < n ∧ n ≤ credit1 (bankCycle m s.dev) a m ∧ stage1Take (bankCycle m s.dev) m p = (some p', d') ∧
      n < p'.cells.length :=
  ⟨onDev fun d => putVoq d 1 2 [{ pk with frame := List.replicate 600 0 }], 1, 2, 1, { pk with frame := List.replicate 600 0 }, [],
    ((stage1Take (bankCycle (2) (onDev fun d => putVoq d 1 2 [{ pk with frame := List.replicate 600 0 }]).dev) (2) ({ pk with frame := List.replicate 600 0 })).1).getD pk,
    (stage1Take (bankCycle (2) (onDev fun d => putVoq d 1 2 [{ pk with frame := List.replicate 600 0 }]).dev) (2) ({ pk with frame := List.replicate 600 0 })).2,
    (by decide +kernel), (by decide +kernel), (by decide +kernel), (by decide +kernel), (by decide +kernel), pairSome (by decide +kernel),
    (by decide +kernel)⟩

theorem wit_FabricActions_7 :
    ∃ (s : State) (a : Nat) (m : Nat) (n : Nat) (p : Pkt), getVoq s.dev a m = [p] ∧ p.cells = [] ∧ 0 < n ∧
      credit1 (bankCycle m s.dev) a m ≠ 0 ∧ acreUp s.dev m = false ∧ flagF s.dev Reg.FAULT_INJECT Reg.FAULT_INJECT_PENDING = false :=
  ⟨onDev fun d => wrF (putVoq d 1 2 [pk]) Reg.RSTC_PARTIAL_STATUS Reg.RSTC_PARTIAL_STATUS_ACRE_HELD 4, 1, 2, 1, pk, (by decide +kernel),
    (by decide +kernel), (by decide +kernel), (by decide +kernel), (by decide +kernel), (by decide +kernel)⟩

theorem wit_FabricActions_8 :
    ∃ (s : State) (m : Nat) (e : Nat) (n : Nat) (x : Pkt × Nat) (rest : List (Pkt × Nat)), getEgq s.dev m e = x :: rest ∧
      acreUp s.dev e = true ∧ n ≤ 16 ∧ 0 < n ∧ n ≤ credit2 (editCycle e s.dev) m e ∧ n = x.1.cells.length - egqDone s.dev m e :=
  ⟨onDev fun d => putEgq d 1 2 [({ pk with cells := [256, 512, 768] }, 7)], 1, 2, 3, ({ pk with cells := [256, 512, 768] }, 7), [],
    (by decide +kernel), (by decide +kernel), (by decide +kernel), (by decide +kernel), (by decide +kernel), (by decide +kernel)⟩

theorem wit_FabricActions_9 :
    ∃ (s : State) (m : Nat) (e : Nat) (n : Nat) (x : Pkt × Nat) (rest : List (Pkt × Nat)), getEgq s.dev m e = x :: rest ∧
      acreUp s.dev e = true ∧ n ≤ 16 ∧ 0 < n ∧ n ≤ credit2 (editCycle e s.dev) m e ∧ n < x.1.cells.length - egqDone s.dev m e :=
  ⟨onDev fun d => putEgq d 1 2 [({ pk with cells := [256, 512, 768] }, 7)], 1, 2, 2, ({ pk with cells := [256, 512, 768] }, 7), [],
    (by decide +kernel), (by decide +kernel), (by decide +kernel), (by decide +kernel), (by decide +kernel), (by decide +kernel)⟩

theorem wit_FabricActions_10 :
    ∃ (s : State) (m : Nat) (b : Nat) (k : FreeBank), k = getBank s.dev (24 * m + b) ∧ m < 4 ∧ b < 24 ∧ k.cache.length < 16 ∧
      16 ≤ k.count ∧ k.head < bankSize b ∧ ((∀ j, j < 16 → ecc s.dev .freeRing ((24 * m + b) * 16384 + (k.head + j) % bankSize b) = 0 ∧
      ptrKind m b (spGet (ringInit (24 * m + b)) k.ring ((k.head + j) % bankSize b)) = none)) :=
  ⟨State.reset, 3, 23, getBank (State.reset).dev (24 * (3) + (23)), rfl, (by decide +kernel), (by decide +kernel), (by decide +kernel),
    (by decide +kernel), (by decide +kernel), (by decide +kernel)⟩

theorem wit_FabricActions_11 :
    ∃ (s : State) (m : Nat) (b : Nat) (k : FreeBank), k = getBank s.dev (24 * m + b) ∧ 48 < k.cache.length :=
  ⟨onDev fun d => putBank d 95 { bankReset 95 with cache := List.replicate 49 0xC001700 }, 3, 23,
    getBank (onDev fun d => putBank d 95 { bankReset 95 with cache := List.replicate 49 0xC001700 }).dev (24 * (3) + (23)), rfl,
    (by decide +kernel)⟩

theorem wit_FabricActions_12 :
    ∃ (s : State) (m : Nat) (p : Pkt) (rest : List Pkt) (w : Nat) (d : Dev), spGet (fun _ => []) s.dev.fab.repl m = p :: rest ∧
      w = (getGroup s.dev m (pcGet p Pc.mcastGroup)).toNat ∧
      d = { s.dev with fab := { s.dev.fab with repl := (spPut (fun _ => []) s.dev.fab.repl m rest), floods := (if pcGet p Pc.disposition = 2 then s.dev.fab.floods + 1 else s.dev.fab.floods) } } ∧
      bit w 63 = false :=
  ⟨onDev fun d => { d with fab := { d.fab with repl := [(2, [pk])] } }, 2, pk, [], 0,
    { (onDev fun d => { d with fab := { d.fab with repl := [(2, [pk])] } }).dev with fab := { (onDev fun d => { d with fab := { d.fab with repl := [(2, [pk])] } }).dev.fab with repl := (spPut (fun _ => []) (onDev fun d => { d with fab := { d.fab with repl := [(2, [pk])] } }).dev.fab.repl (2) ([])), floods := (if pcGet (pk) Pc.disposition = 2 then (onDev fun d => { d with fab := { d.fab with repl := [(2, [pk])] } }).dev.fab.floods + 1 else (onDev fun d => { d with fab := { d.fab with repl := [(2, [pk])] } }).dev.fab.floods) } },
    (by decide +kernel), (by decide +kernel), rfl, (by decide +kernel)⟩

theorem wit_FabricActions_13 :
    ∃ (s : State) (m : Nat) (p : Pkt) (rest : List Pkt) (w : Nat) (d : Dev), ∃ (q : Nat) (c : Pkt) (d' : Dev),
      spGet (fun _ => []) s.dev.fab.repl m = p :: rest ∧ w = (getGroup s.dev m (pcGet p Pc.mcastGroup)).toNat ∧
      d = { s.dev with fab := { s.dev.fab with repl := (spPut (fun _ => []) s.dev.fab.repl m rest), floods := (if pcGet p Pc.disposition = 2 then s.dev.fab.floods + 1 else s.dev.fab.floods) } } ∧
      bit w 63 = true ∧ ecc s.dev .group (groupKey m (pcGet p Pc.mcastGroup)) ≠ 2 ∧ groupWalk d m (bits w 17 11) (bits w 0 17) = [q] ∧
      (pcGet p Pc.disposition == 2 && queuePort d q == inPort p) = false ∧ queueAdmit d q m p = (none, c, d') :=
  ⟨onDev fun d => wrF (wrF ({ { d with fab := { d.fab with repl := [(2, [pk])], groups := [(groupKey 2 0, 0x8000000000020007)], members := [(memberKey 2 7, 9)] } } with que := { d.que with cfg := [(9, 0x8000000000000000)] } }) (Reg.QPROF 0 3) Reg.QPROF_MAX_DEPTH 100) (Reg.QPROF 0 3) Reg.QPROF_DROP_THRESHOLD 100,
    2, pk, [], 0x8000000000020007, _, 9, _, _, (by decide +kernel), (by decide +kernel), rfl, (by decide +kernel), (by decide +kernel),
    (by decide +kernel), (by decide +kernel), tripleIs (by decide +kernel)⟩

theorem wit_FabricActions_14 :
    ∃ (s : State) (e : Nat) (p : Pkt) (port : Nat) (rest : List (Pkt × Nat)), getEditQ s.dev e = (p, port) :: rest ∧
      espBound s.dev p.queue = false :=
  ⟨onDev fun d => putEditQ d 2 [(pk, 7)], 2, pk, 7, [], (by decide +kernel), (by decide +kernel)⟩

theorem wit_FabricActions_15 :
    ∃ (s : State) (e : Nat) (p : Pkt) (port : Nat) (rest : List (Pkt × Nat)), getEditQ s.dev e = (p, port) :: rest ∧
      espBound s.dev p.queue = true ∧ (laQ s.dev (port / 64)).length < 512 ∧
      (laQ s.dev (port / 64)).foldl (fun n x => n + x.1.frame.length) 0 + (editPacket p).1.length ≤ 1048576 :=
  ⟨onDev fun d => putEnt (putEditQ d 2 [(pk, 7)]) 6 0 (2 ^ 575), 2, pk, 7, [], (by decide +kernel), (by decide +kernel),
    (by decide +kernel), (by decide +kernel)⟩

theorem wit_FabricActions_16 :
    ∃ (p : Pkt), p.edits = [] ∧ p.ce = false ∧ 60 ≤ p.frame.length :=
  ⟨pk, (by decide +kernel), (by decide +kernel), (by decide +kernel)⟩

/-! O47, AcreMovesAndGroups. -/

theorem wit_AcreMovesAndGroups_0 :
    ∃ (s : State) (agent : Nat) (a : Nat) (k : Nat) (i : Nat) (v : W64) (new : Nat), a < 4 ∧ k < 32 ∧ i < 2 ∧
      WriteReaches s.dev agent (Reg.ACRE_MAP a k) v ∧ FieldsInRange (Reg.ACRE_MAP a k) v ∧ new = bits v.toNat (32 * i) 2 ∧
      bits v.toNat (32 * (1 - i)) 2 = acreMap s.dev a (2 * k + (1 - i)) ∧ new ≠ acreMap s.dev a (2 * k + i) ∧ new < acreCount s.dev ∧
      moveF s.dev a Reg.ACRE_MOVE_STATUS_PHASE = 0 :=
  ⟨State.reset, 1, 1, 31, 1, ((rd State.reset.dev (Reg.ACRE_MAP 1 31)) ^^^ 0x100000000),
    bits (((rd State.reset.dev (Reg.ACRE_MAP 1 31)) ^^^ 0x100000000)).toNat (32 * (1)) 2, (by decide +kernel), (by decide +kernel),
    (by decide +kernel), reaches_ok (by decide +kernel), (by rfl), rfl, (by decide +kernel), (by decide +kernel), (by decide +kernel),
    (by decide +kernel)⟩

theorem wit_AcreMovesAndGroups_1 :
    ∃ (s : State) (agent : Nat) (a : Nat) (k : Nat) (i : Nat) (v : W64) (new : Nat), a < 4 ∧ k < 32 ∧ i < 2 ∧
      WriteReaches s.dev agent (Reg.ACRE_MAP a k) v ∧ FieldsInRange (Reg.ACRE_MAP a k) v ∧ new = bits v.toNat (32 * i) 2 ∧
      bits v.toNat (32 * (1 - i)) 2 = acreMap s.dev a (2 * k + (1 - i)) ∧ new = acreMap s.dev a (2 * k + i) :=
  ⟨State.reset, 1, 1, 31, 1, (rd State.reset.dev (Reg.ACRE_MAP 1 31)),
    bits ((rd State.reset.dev (Reg.ACRE_MAP 1 31))).toNat (32 * (1)) 2, (by decide +kernel), (by decide +kernel), (by decide +kernel),
    reaches_ok (by decide +kernel), (by rfl), rfl, (by decide +kernel), rfl⟩

theorem wit_AcreMovesAndGroups_2 :
    ∃ (s : State) (agent : Nat) (a : Nat) (k : Nat) (i : Nat) (v : W64) (new : Nat), a < 4 ∧ k < 32 ∧ i < 2 ∧
      WriteReaches s.dev agent (Reg.ACRE_MAP a k) v ∧ FieldsInRange (Reg.ACRE_MAP a k) v ∧ new = bits v.toNat (32 * i) 2 ∧
      bits v.toNat (32 * (1 - i)) 2 = acreMap s.dev a (2 * k + (1 - i)) ∧ new ≠ acreMap s.dev a (2 * k + i) ∧
      moveF s.dev a Reg.ACRE_MOVE_STATUS_PHASE ≠ 0 :=
  ⟨onDev fun d => wrFs d (Reg.ACRE_MOVE_STATUS 1) [(Reg.ACRE_MOVE_STATUS_PHASE, 1), (Reg.ACRE_MOVE_STATUS_TO, 3),
    (Reg.ACRE_MOVE_STATUS_FROM, 1), (Reg.ACRE_MOVE_STATUS_ENTRY, 5)], 1, 1, 31, 1,
    ((rd State.reset.dev (Reg.ACRE_MAP 1 31)) ^^^ 0x100000000),
    bits (((rd State.reset.dev (Reg.ACRE_MAP 1 31)) ^^^ 0x100000000)).toNat (32 * (1)) 2, (by decide +kernel), (by decide +kernel),
    (by decide +kernel), reaches_ok (by decide +kernel), (by rfl), rfl, (by decide +kernel), (by decide +kernel), (by decide +kernel)⟩

theorem wit_AcreMovesAndGroups_3 :
    ∃ (s : State) (a : Nat) (tm : Nat), a < 4 ∧ moveF s.dev a Reg.ACRE_MOVE_STATUS_PHASE = 1 ∧
      tm = moveF s.dev a Reg.ACRE_MOVE_STATUS_TO ∧ (getVoq s.dev a tm).length + (getAcre s.dev a).moveHold.length ≤ 512 ∧
      moveHolds s.dev a (64 * a + moveF s.dev a Reg.ACRE_MOVE_STATUS_ENTRY) (moveF s.dev a Reg.ACRE_MOVE_STATUS_FROM) = false :=
  ⟨onDev fun d => wrFs d (Reg.ACRE_MOVE_STATUS 1) [(Reg.ACRE_MOVE_STATUS_PHASE, 1), (Reg.ACRE_MOVE_STATUS_TO, 3), (Reg.ACRE_MOVE_STATUS_FROM, 1), (Reg.ACRE_MOVE_STATUS_ENTRY, 5)],
    1,
    moveF (onDev fun d => wrFs d (Reg.ACRE_MOVE_STATUS 1) [(Reg.ACRE_MOVE_STATUS_PHASE, 1), (Reg.ACRE_MOVE_STATUS_TO, 3), (Reg.ACRE_MOVE_STATUS_FROM, 1), (Reg.ACRE_MOVE_STATUS_ENTRY, 5)]).dev (1) Reg.ACRE_MOVE_STATUS_TO,
    (by decide +kernel), (by decide +kernel), rfl, (by decide +kernel), (by decide +kernel)⟩

theorem wit_AcreMovesAndGroups_4 :
    ∃ (s : State) (a : Nat) (tm : Nat), a < 4 ∧ moveF s.dev a Reg.ACRE_MOVE_STATUS_PHASE = 1 ∧
      tm = moveF s.dev a Reg.ACRE_MOVE_STATUS_TO ∧ (getVoq s.dev a tm).length + (getAcre s.dev a).moveHold.length ≤ 512 ∧
      moveHolds s.dev a (64 * a + moveF s.dev a Reg.ACRE_MOVE_STATUS_ENTRY) (moveF s.dev a Reg.ACRE_MOVE_STATUS_FROM) = true :=
  ⟨onDev fun d => wrFs (putVoq d 1 1 [{ pk with mapRef := 69 }]) (Reg.ACRE_MOVE_STATUS 1) [(Reg.ACRE_MOVE_STATUS_PHASE, 1), (Reg.ACRE_MOVE_STATUS_TO, 3), (Reg.ACRE_MOVE_STATUS_FROM, 1), (Reg.ACRE_MOVE_STATUS_ENTRY, 5)],
    1,
    moveF (onDev fun d => wrFs (putVoq d 1 1 [{ pk with mapRef := 69 }]) (Reg.ACRE_MOVE_STATUS 1) [(Reg.ACRE_MOVE_STATUS_PHASE, 1), (Reg.ACRE_MOVE_STATUS_TO, 3), (Reg.ACRE_MOVE_STATUS_FROM, 1), (Reg.ACRE_MOVE_STATUS_ENTRY, 5)]).dev (1) Reg.ACRE_MOVE_STATUS_TO,
    (by decide +kernel), (by decide +kernel), rfl, (by decide +kernel), (by decide +kernel)⟩

theorem wit_AcreMovesAndGroups_5 :
    ∃ (s : State) (a : Nat) (tm : Nat), a < 4 ∧ moveF s.dev a Reg.ACRE_MOVE_STATUS_PHASE = 1 ∧
      tm = moveF s.dev a Reg.ACRE_MOVE_STATUS_TO ∧ (getVoq s.dev a tm).length + (getAcre s.dev a).moveHold.length ≤ 512 :=
  ⟨onDev fun d => wrFs { d with acres := d.acres } (Reg.ACRE_MOVE_STATUS 1) [(Reg.ACRE_MOVE_STATUS_PHASE, 1), (Reg.ACRE_MOVE_STATUS_TO,
    3), (Reg.ACRE_MOVE_STATUS_FROM, 1), (Reg.ACRE_MOVE_STATUS_ENTRY, 5)], 1,
    moveF (onDev fun d => wrFs { d with acres := d.acres } (Reg.ACRE_MOVE_STATUS 1) [(Reg.ACRE_MOVE_STATUS_PHASE, 1),
    (Reg.ACRE_MOVE_STATUS_TO, 3), (Reg.ACRE_MOVE_STATUS_FROM, 1), (Reg.ACRE_MOVE_STATUS_ENTRY, 5)]).dev (1) Reg.ACRE_MOVE_STATUS_TO,
    (by decide +kernel), (by decide +kernel), rfl, (by decide +kernel)⟩

theorem wit_AcreMovesAndGroups_6 :
    ∃ (s : State) (agent : Nat) (v : W64) (i : Nat), i = getF v Reg.MC_CMD_INDEX ∧ ((∀ op,
      1 ≤ op → op ≤ 4 → WriteReaches s.dev agent Reg.MC_CMD (setF v Reg.MC_CMD_OP op) ∧
      FieldsInRange Reg.MC_CMD (setF v Reg.MC_CMD_OP op))) ∧ i < 65536 ∧ ecc s.dev .group (groupKey 0 i) ≠ 2 :=
  ⟨State.reset, 1, setF 0 Reg.MC_CMD_INDEX 65535, getF (setF 0 Reg.MC_CMD_INDEX 65535) Reg.MC_CMD_INDEX, rfl,
    (by intro op h1 h6; have h : op = 1 ∨ op = 2 ∨ op = 3 ∨ op = 4 := (by omega); rcases h with rfl | rfl | rfl | rfl <;> exact ⟨reaches_ok (by decide +kernel), by rfl⟩), (by decide +kernel), (by decide +kernel)⟩

theorem wit_AcreMovesAndGroups_7 :
    ∃ (s : State) (agent : Nat) (v : W64) (i : Nat), i = getF v Reg.MC_CMD_INDEX ∧ ((∀ op,
      1 ≤ op → op ≤ 4 → WriteReaches s.dev agent Reg.MC_CMD (setF v Reg.MC_CMD_OP op) ∧
      FieldsInRange Reg.MC_CMD (setF v Reg.MC_CMD_OP op))) ∧ i < 65536 ∧ ecc s.dev .group (groupKey 0 i) = 2 :=
  ⟨onDev fun d => setEcc d .group (groupKey 0 5) 2, 1, setF 0 Reg.MC_CMD_INDEX 5, getF (setF 0 Reg.MC_CMD_INDEX 5) Reg.MC_CMD_INDEX,
    rfl, (by intro op h1 h6; have h : op = 1 ∨ op = 2 ∨ op = 3 ∨ op = 4 := (by omega); rcases h with rfl | rfl | rfl | rfl <;> exact ⟨reaches_ok (by decide +kernel), by rfl⟩), (by decide +kernel), (by decide +kernel)⟩

theorem wit_AcreMovesAndGroups_8 :
    ∃ (s : State) (agent : Nat) (v : W64) (i : Nat), i = getF v Reg.MC_CMD_INDEX ∧ ((∀ op,
      1 ≤ op → op ≤ 4 → WriteReaches s.dev agent Reg.MC_CMD (setF v Reg.MC_CMD_OP op) ∧
      FieldsInRange Reg.MC_CMD (setF v Reg.MC_CMD_OP op))) ∧ i < 65536 :=
  ⟨onDev fun d => wr d Reg.MC_DATA (BitVec.allOnes 64), 1, setF 0 Reg.MC_CMD_INDEX 5,
    getF (setF 0 Reg.MC_CMD_INDEX 5) Reg.MC_CMD_INDEX, rfl,
    (by intro op h1 h6; have h : op = 1 ∨ op = 2 ∨ op = 3 ∨ op = 4 := (by omega); rcases h with rfl | rfl | rfl | rfl <;> exact ⟨reaches_ok (by decide +kernel), by rfl⟩), (by decide +kernel)⟩

theorem wit_AcreMovesAndGroups_9 :
    ∃ (s : State) (agent : Nat) (v : W64) (i : Nat), i = getF v Reg.MC_CMD_INDEX ∧ ((∀ op,
      1 ≤ op → op ≤ 4 → WriteReaches s.dev agent Reg.MC_CMD (setF v Reg.MC_CMD_OP op) ∧
      FieldsInRange Reg.MC_CMD (setF v Reg.MC_CMD_OP op))) ∧ ecc s.dev .member (memberKey 0 i) ≠ 2 :=
  ⟨State.reset, 1, setF 0 Reg.MC_CMD_INDEX 131071, getF (setF 0 Reg.MC_CMD_INDEX 131071) Reg.MC_CMD_INDEX, rfl,
    (by intro op h1 h6; have h : op = 1 ∨ op = 2 ∨ op = 3 ∨ op = 4 := (by omega); rcases h with rfl | rfl | rfl | rfl <;> exact ⟨reaches_ok (by decide +kernel), by rfl⟩), (by decide +kernel)⟩

theorem wit_AcreMovesAndGroups_10 :
    ∃ (s : State) (agent : Nat) (v : W64) (i : Nat), i = getF v Reg.MC_CMD_INDEX ∧ ((∀ op,
      1 ≤ op → op ≤ 4 → WriteReaches s.dev agent Reg.MC_CMD (setF v Reg.MC_CMD_OP op) ∧
      FieldsInRange Reg.MC_CMD (setF v Reg.MC_CMD_OP op))) :=
  ⟨State.reset, 1, setF 0 Reg.MC_CMD_INDEX 131071, getF (setF 0 Reg.MC_CMD_INDEX 131071) Reg.MC_CMD_INDEX, rfl,
    (by intro op h1 h6; have h : op = 1 ∨ op = 2 ∨ op = 3 ∨ op = 4 := (by omega); rcases h with rfl | rfl | rfl | rfl <;> exact ⟨reaches_ok (by decide +kernel), by rfl⟩)⟩

/-! O48, OrchardCommands. -/

theorem wit_OrchardCommands_0 :
    ∃ (s : State) (agent : Nat) (v : W64) (b : Tbl),
      let cmd := fun op => setF v Reg.ORCHARD_CMD_OP op; let result := fun (t : State) => rdF t.dev Reg.ORCHARD_STATUS Reg.ORCHARD_STATUS_RESULT; let index := fun (t : State) => rdF t.dev Reg.ORCHARD_STATUS Reg.ORCHARD_STATUS_INDEX; let i := getF v Reg.ORCHARD_CMD_INDEX; let begun := fun op => (orchBegin (startedBy s.dev 1 agent) (stored s.dev Reg.ORCHARD_CMD (cmd op))).1; let key := keyFor b (orchKey s.dev); tbl s.dev (getF v Reg.ORCHARD_CMD_TABLE) = some b ∧ flagF s.dev Reg.PROFILE_STATUS Reg.PROFILE_STATUS_PENDING = false ∧ ((∀ op, 1 ≤ op → op ≤ 6 → WriteReaches s.dev agent Reg.ORCHARD_CMD (cmd op) ∧ FieldsInRange Reg.ORCHARD_CMD (cmd op))) ∧ b.kind ∈ [1, 2, 3, 5, 6] ∧ ((b.kind = 2 → b.wide = false)) ∧ getF v Reg.ORCHARD_CMD_STASH = 0 ∧ i < b.size ∧ b.size ≤ stashBase ∧ unitBad s.dev b i = false :=
  ⟨onDev fun d => hitd 0 d, 1, mkWord [(Reg.ORCHARD_CMD_TABLE, 3), (Reg.ORCHARD_CMD_INDEX, 4092)], tb 1, (by decide +kernel),
    (by decide +kernel),
    (by intro op h1 h6; have h : op = 1 ∨ op = 2 ∨ op = 3 ∨ op = 4 ∨ op = 5 ∨ op = 6 := (by omega); rcases h with rfl | rfl | rfl | rfl | rfl | rfl <;> exact ⟨reaches_ok (by decide +kernel), by rfl⟩), (by decide +kernel), (by decide +kernel), (by decide +kernel), (by decide +kernel), (by decide +kernel), (by decide +kernel)⟩

theorem wit_OrchardCommands_1 :
    ∃ (s : State) (agent : Nat) (v : W64) (b : Tbl),
      let cmd := fun op => setF v Reg.ORCHARD_CMD_OP op; let result := fun (t : State) => rdF t.dev Reg.ORCHARD_STATUS Reg.ORCHARD_STATUS_RESULT; let index := fun (t : State) => rdF t.dev Reg.ORCHARD_STATUS Reg.ORCHARD_STATUS_INDEX; let i := getF v Reg.ORCHARD_CMD_INDEX; let begun := fun op => (orchBegin (startedBy s.dev 1 agent) (stored s.dev Reg.ORCHARD_CMD (cmd op))).1; let key := keyFor b (orchKey s.dev); tbl s.dev (getF v Reg.ORCHARD_CMD_TABLE) = some b ∧ flagF s.dev Reg.PROFILE_STATUS Reg.PROFILE_STATUS_PENDING = false ∧ ((∀ op, 1 ≤ op → op ≤ 6 → WriteReaches s.dev agent Reg.ORCHARD_CMD (cmd op) ∧ FieldsInRange Reg.ORCHARD_CMD (cmd op))) ∧ b.kind ∈ [1, 2, 3, 5, 6] ∧ ((b.kind = 2 → b.wide = false)) ∧ getF v Reg.ORCHARD_CMD_STASH = 0 ∧ i < b.size ∧ b.size ≤ stashBase ∧ entryOk b (orchData s.dev b) = true :=
  ⟨onDev fun d => tabd 1 d, 1, mkWord [(Reg.ORCHARD_CMD_TABLE, 3), (Reg.ORCHARD_CMD_INDEX, 8191)], tb 1, (by decide +kernel),
    (by decide +kernel),
    (by intro op h1 h6; have h : op = 1 ∨ op = 2 ∨ op = 3 ∨ op = 4 ∨ op = 5 ∨ op = 6 := (by omega); rcases h with rfl | rfl | rfl | rfl | rfl | rfl <;> exact ⟨reaches_ok (by decide +kernel), by rfl⟩), (by decide +kernel), (by decide +kernel), (by decide +kernel), (by decide +kernel), (by decide +kernel), (by decide +kernel)⟩

theorem wit_OrchardCommands_2 :
    ∃ (s : State) (agent : Nat) (v : W64) (b : Tbl),
      let cmd := fun op => setF v Reg.ORCHARD_CMD_OP op; let result := fun (t : State) => rdF t.dev Reg.ORCHARD_STATUS Reg.ORCHARD_STATUS_RESULT; let index := fun (t : State) => rdF t.dev Reg.ORCHARD_STATUS Reg.ORCHARD_STATUS_INDEX; let i := getF v Reg.ORCHARD_CMD_INDEX; let begun := fun op => (orchBegin (startedBy s.dev 1 agent) (stored s.dev Reg.ORCHARD_CMD (cmd op))).1; let key := keyFor b (orchKey s.dev); ∃ (j : Nat), tbl s.dev (getF v Reg.ORCHARD_CMD_TABLE) = some b ∧ flagF s.dev Reg.PROFILE_STATUS Reg.PROFILE_STATUS_PENDING = false ∧ ((∀ op, 1 ≤ op → op ≤ 6 → WriteReaches s.dev agent Reg.ORCHARD_CMD (cmd op) ∧ FieldsInRange Reg.ORCHARD_CMD (cmd op))) ∧ b.kind = 1 ∧ homeBad s.dev b key = false ∧ eType b (orchData s.dev b) ≤ 1 ∧ exactFind s.dev b key = some j :=
  ⟨onDev fun d => wr (hitd 0 d) (Reg.ORCHARD_DATA 0) 77, 1, mkWord [(Reg.ORCHARD_CMD_TABLE, 3), (Reg.ORCHARD_CMD_INDEX, 0)], tb 1,
    4092, (by decide +kernel), (by decide +kernel),
    (by intro op h1 h6; have h : op = 1 ∨ op = 2 ∨ op = 3 ∨ op = 4 ∨ op = 5 ∨ op = 6 := (by omega); rcases h with rfl | rfl | rfl | rfl | rfl | rfl <;> exact ⟨reaches_ok (by decide +kernel), by rfl⟩), (by decide +kernel), (by decide +kernel), (by decide +kernel), (by decide +kernel)⟩

theorem wit_OrchardCommands_3 :
    ∃ (s : State) (agent : Nat) (v : W64) (b : Tbl),
      let cmd := fun op => setF v Reg.ORCHARD_CMD_OP op; let result := fun (t : State) => rdF t.dev Reg.ORCHARD_STATUS Reg.ORCHARD_STATUS_RESULT; let index := fun (t : State) => rdF t.dev Reg.ORCHARD_STATUS Reg.ORCHARD_STATUS_INDEX; let i := getF v Reg.ORCHARD_CMD_INDEX; let begun := fun op => (orchBegin (startedBy s.dev 1 agent) (stored s.dev Reg.ORCHARD_CMD (cmd op))).1; let key := keyFor b (orchKey s.dev); ∃ (j : Nat), tbl s.dev (getF v Reg.ORCHARD_CMD_TABLE) = some b ∧ flagF s.dev Reg.PROFILE_STATUS Reg.PROFILE_STATUS_PENDING = false ∧ ((∀ op, 1 ≤ op → op ≤ 6 → WriteReaches s.dev agent Reg.ORCHARD_CMD (cmd op) ∧ FieldsInRange Reg.ORCHARD_CMD (cmd op))) ∧ b.kind = 1 ∧ homeBad s.dev b key = false ∧ eType b (orchData s.dev b) ≤ 1 ∧ exactFind s.dev b key = none ∧ freeWay s.dev b (bucketIdx b 0 (bucketOf b 0 key)) = some j ∧ j < stashBase :=
  ⟨onDev fun d => tabd 1 d, 1, mkWord [(Reg.ORCHARD_CMD_TABLE, 3), (Reg.ORCHARD_CMD_INDEX, 0)], tb 1, 4092, (by decide +kernel),
    (by decide +kernel),
    (by intro op h1 h6; have h : op = 1 ∨ op = 2 ∨ op = 3 ∨ op = 4 ∨ op = 5 ∨ op = 6 := (by omega); rcases h with rfl | rfl | rfl | rfl | rfl | rfl <;> exact ⟨reaches_ok (by decide +kernel), by rfl⟩), (by decide +kernel), (by decide +kernel), (by decide +kernel), (by decide +kernel), (by decide +kernel), (by decide +kernel)⟩

theorem wit_OrchardCommands_4 :
    ∃ (s : State) (agent : Nat) (v : W64) (b : Tbl),
      let cmd := fun op => setF v Reg.ORCHARD_CMD_OP op; let result := fun (t : State) => rdF t.dev Reg.ORCHARD_STATUS Reg.ORCHARD_STATUS_RESULT; let index := fun (t : State) => rdF t.dev Reg.ORCHARD_STATUS Reg.ORCHARD_STATUS_INDEX; let i := getF v Reg.ORCHARD_CMD_INDEX; let begun := fun op => (orchBegin (startedBy s.dev 1 agent) (stored s.dev Reg.ORCHARD_CMD (cmd op))).1; let key := keyFor b (orchKey s.dev); ∃ (j : Nat), tbl s.dev (getF v Reg.ORCHARD_CMD_TABLE) = some b ∧ flagF s.dev Reg.PROFILE_STATUS Reg.PROFILE_STATUS_PENDING = false ∧ ((∀ op, 1 ≤ op → op ≤ 6 → WriteReaches s.dev agent Reg.ORCHARD_CMD (cmd op) ∧ FieldsInRange Reg.ORCHARD_CMD (cmd op))) ∧ b.kind = 1 ∧ homeBad s.dev b key = false ∧ exactFind s.dev b key = some j :=
  ⟨onDev fun d => hitd 0 d, 1, mkWord [(Reg.ORCHARD_CMD_TABLE, 3), (Reg.ORCHARD_CMD_INDEX, 0)], tb 1, 4092, (by decide +kernel),
    (by decide +kernel),
    (by intro op h1 h6; have h : op = 1 ∨ op = 2 ∨ op = 3 ∨ op = 4 ∨ op = 5 ∨ op = 6 := (by omega); rcases h with rfl | rfl | rfl | rfl | rfl | rfl <;> exact ⟨reaches_ok (by decide +kernel), by rfl⟩), (by decide +kernel), (by decide +kernel), (by decide +kernel)⟩

theorem wit_OrchardCommands_5 :
    ∃ (s : State) (agent : Nat) (v : W64) (b : Tbl),
      let cmd := fun op => setF v Reg.ORCHARD_CMD_OP op; let result := fun (t : State) => rdF t.dev Reg.ORCHARD_STATUS Reg.ORCHARD_STATUS_RESULT; let index := fun (t : State) => rdF t.dev Reg.ORCHARD_STATUS Reg.ORCHARD_STATUS_INDEX; let i := getF v Reg.ORCHARD_CMD_INDEX; let begun := fun op => (orchBegin (startedBy s.dev 1 agent) (stored s.dev Reg.ORCHARD_CMD (cmd op))).1; let key := keyFor b (orchKey s.dev); tbl s.dev (getF v Reg.ORCHARD_CMD_TABLE) = some b ∧ flagF s.dev Reg.PROFILE_STATUS Reg.PROFILE_STATUS_PENDING = false ∧ ((∀ op, 1 ≤ op → op ≤ 6 → WriteReaches s.dev agent Reg.ORCHARD_CMD (cmd op) ∧ FieldsInRange Reg.ORCHARD_CMD (cmd op))) ∧ b.kind = 1 ∧ homeBad s.dev b key = false ∧ exactFind s.dev b key = none :=
  ⟨onDev fun d => tabd 1 d, 1, mkWord [(Reg.ORCHARD_CMD_TABLE, 3), (Reg.ORCHARD_CMD_INDEX, 0)], tb 1, (by decide +kernel),
    (by decide +kernel),
    (by intro op h1 h6; have h : op = 1 ∨ op = 2 ∨ op = 3 ∨ op = 4 ∨ op = 5 ∨ op = 6 := (by omega); rcases h with rfl | rfl | rfl | rfl | rfl | rfl <;> exact ⟨reaches_ok (by decide +kernel), by rfl⟩), (by decide +kernel), (by decide +kernel), (by decide +kernel)⟩

theorem wit_OrchardCommands_6 :
    ∃ (s : State) (agent : Nat) (v : W64) (b : Tbl), let cmd := fun op => setF v Reg.ORCHARD_CMD_OP op;
      let result := fun (t : State) => rdF t.dev Reg.ORCHARD_STATUS Reg.ORCHARD_STATUS_RESULT;
      let index := fun (t : State) => rdF t.dev Reg.ORCHARD_STATUS Reg.ORCHARD_STATUS_INDEX; let i := getF v Reg.ORCHARD_CMD_INDEX;
      let begun := fun op => (orchBegin (startedBy s.dev 1 agent) (stored s.dev Reg.ORCHARD_CMD (cmd op))).1;
      let key := keyFor b (orchKey s.dev); ∃ (j : Nat), tbl s.dev (getF v Reg.ORCHARD_CMD_TABLE) = some b ∧
      flagF s.dev Reg.PROFILE_STATUS Reg.PROFILE_STATUS_PENDING = false ∧
      ((∀ op, 1 ≤ op → op ≤ 6 → WriteReaches s.dev agent Reg.ORCHARD_CMD (cmd op) ∧ FieldsInRange Reg.ORCHARD_CMD (cmd op))) ∧
      b.kind = 1 ∧ exactLookup s.dev b key = some j ∧ j < 2 ^ 25 :=
  ⟨onDev fun d => hitd 1 d, 1, mkWord [(Reg.ORCHARD_CMD_TABLE, 3), (Reg.ORCHARD_CMD_INDEX, 0)], tb 1, 4092, (by decide +kernel),
    (by decide +kernel),
    (by intro op h1 h6; have h : op = 1 ∨ op = 2 ∨ op = 3 ∨ op = 4 ∨ op = 5 ∨ op = 6 := (by omega); rcases h with rfl | rfl | rfl | rfl | rfl | rfl <;> exact ⟨reaches_ok (by decide +kernel), by rfl⟩),
    (by decide +kernel), (by decide +kernel), (by decide +kernel)⟩

theorem wit_OrchardCommands_7 :
    ∃ (s : State) (agent : Nat) (v : W64) (b : Tbl), let cmd := fun op => setF v Reg.ORCHARD_CMD_OP op;
      let result := fun (t : State) => rdF t.dev Reg.ORCHARD_STATUS Reg.ORCHARD_STATUS_RESULT;
      let index := fun (t : State) => rdF t.dev Reg.ORCHARD_STATUS Reg.ORCHARD_STATUS_INDEX; let i := getF v Reg.ORCHARD_CMD_INDEX;
      let begun := fun op => (orchBegin (startedBy s.dev 1 agent) (stored s.dev Reg.ORCHARD_CMD (cmd op))).1;
      let key := keyFor b (orchKey s.dev); tbl s.dev (getF v Reg.ORCHARD_CMD_TABLE) = some b ∧
      flagF s.dev Reg.PROFILE_STATUS Reg.PROFILE_STATUS_PENDING = false ∧
      ((∀ op, 1 ≤ op → op ≤ 6 → WriteReaches s.dev agent Reg.ORCHARD_CMD (cmd op) ∧ FieldsInRange Reg.ORCHARD_CMD (cmd op))) ∧
      b.kind = 1 ∧ exactLookup s.dev b key = none :=
  ⟨onDev fun d => tabd 1 d, 1, mkWord [(Reg.ORCHARD_CMD_TABLE, 3), (Reg.ORCHARD_CMD_INDEX, 0)], tb 1, (by decide +kernel),
    (by decide +kernel),
    (by intro op h1 h6; have h : op = 1 ∨ op = 2 ∨ op = 3 ∨ op = 4 ∨ op = 5 ∨ op = 6 := (by omega); rcases h with rfl | rfl | rfl | rfl | rfl | rfl <;> exact ⟨reaches_ok (by decide +kernel), by rfl⟩),
    (by decide +kernel), (by decide +kernel)⟩

theorem wit_OrchardCommands_8 :
    ∃ (s : State) (agent : Nat) (v : W64) (b : Tbl),
      let cmd := fun op => setF v Reg.ORCHARD_CMD_OP op; let result := fun (t : State) => rdF t.dev Reg.ORCHARD_STATUS Reg.ORCHARD_STATUS_RESULT; let index := fun (t : State) => rdF t.dev Reg.ORCHARD_STATUS Reg.ORCHARD_STATUS_INDEX; let i := getF v Reg.ORCHARD_CMD_INDEX; let begun := fun op => (orchBegin (startedBy s.dev 1 agent) (stored s.dev Reg.ORCHARD_CMD (cmd op))).1; let key := keyFor b (orchKey s.dev); tbl s.dev (getF v Reg.ORCHARD_CMD_TABLE) = some b ∧ flagF s.dev Reg.PROFILE_STATUS Reg.PROFILE_STATUS_PENDING = false ∧ ((∀ op, 1 ≤ op → op ≤ 6 → WriteReaches s.dev agent Reg.ORCHARD_CMD (cmd op) ∧ FieldsInRange Reg.ORCHARD_CMD (cmd op))) ∧ b.kind = 1 :=
  ⟨onDev fun d => hitd 0 d, 1, mkWord [(Reg.ORCHARD_CMD_TABLE, 3), (Reg.ORCHARD_CMD_INDEX, 0)], tb 1, (by decide +kernel),
    (by decide +kernel),
    (by intro op h1 h6; have h : op = 1 ∨ op = 2 ∨ op = 3 ∨ op = 4 ∨ op = 5 ∨ op = 6 := (by omega); rcases h with rfl | rfl | rfl | rfl | rfl | rfl <;> exact ⟨reaches_ok (by decide +kernel), by rfl⟩), (by decide +kernel)⟩

theorem wit_OrchardCommands_9 :
    ∃ (s : State) (agent : Nat) (v : W64) (b : Tbl),
      let cmd := fun op => setF v Reg.ORCHARD_CMD_OP op; let result := fun (t : State) => rdF t.dev Reg.ORCHARD_STATUS Reg.ORCHARD_STATUS_RESULT; let index := fun (t : State) => rdF t.dev Reg.ORCHARD_STATUS Reg.ORCHARD_STATUS_INDEX; let i := getF v Reg.ORCHARD_CMD_INDEX; let begun := fun op => (orchBegin (startedBy s.dev 1 agent) (stored s.dev Reg.ORCHARD_CMD (cmd op))).1; let key := keyFor b (orchKey s.dev); tbl s.dev (getF v Reg.ORCHARD_CMD_TABLE) = some b ∧ flagF s.dev Reg.PROFILE_STATUS Reg.PROFILE_STATUS_PENDING = false ∧ ((∀ op, 1 ≤ op → op ≤ 6 → WriteReaches s.dev agent Reg.ORCHARD_CMD (cmd op) ∧ FieldsInRange Reg.ORCHARD_CMD (cmd op))) ∧ (b.kind = 2 ∨ b.kind = 3) :=
  ⟨onDev fun d => tabd 2 d, 1, mkWord [(Reg.ORCHARD_CMD_TABLE, 3), (Reg.ORCHARD_CMD_INDEX, 0)], tb 2, (by decide +kernel),
    (by decide +kernel),
    (by intro op h1 h6; have h : op = 1 ∨ op = 2 ∨ op = 3 ∨ op = 4 ∨ op = 5 ∨ op = 6 := (by omega); rcases h with rfl | rfl | rfl | rfl | rfl | rfl <;> exact ⟨reaches_ok (by decide +kernel), by rfl⟩), (by decide +kernel)⟩

theorem wit_OrchardCommands_10 :
    ∃ (s : State) (agent : Nat) (v : W64) (b : Tbl),
      let cmd := fun op => setF v Reg.ORCHARD_CMD_OP op; let result := fun (t : State) => rdF t.dev Reg.ORCHARD_STATUS Reg.ORCHARD_STATUS_RESULT; let index := fun (t : State) => rdF t.dev Reg.ORCHARD_STATUS Reg.ORCHARD_STATUS_INDEX; let i := getF v Reg.ORCHARD_CMD_INDEX; let begun := fun op => (orchBegin (startedBy s.dev 1 agent) (stored s.dev Reg.ORCHARD_CMD (cmd op))).1; let key := keyFor b (orchKey s.dev); tbl s.dev (getF v Reg.ORCHARD_CMD_TABLE) = some b ∧ flagF s.dev Reg.PROFILE_STATUS Reg.PROFILE_STATUS_PENDING = false ∧ ((∀ op, 1 ≤ op → op ≤ 6 → WriteReaches s.dev agent Reg.ORCHARD_CMD (cmd op) ∧ FieldsInRange Reg.ORCHARD_CMD (cmd op))) ∧ (b.kind = 2 ∨ b.kind = 3) :=
  ⟨onDev fun d => tabd 3 d, 1, mkWord [(Reg.ORCHARD_CMD_TABLE, 3), (Reg.ORCHARD_CMD_INDEX, 0)], tb 3, (by decide +kernel),
    (by decide +kernel),
    (by intro op h1 h6; have h : op = 1 ∨ op = 2 ∨ op = 3 ∨ op = 4 ∨ op = 5 ∨ op = 6 := (by omega); rcases h with rfl | rfl | rfl | rfl | rfl | rfl <;> exact ⟨reaches_ok (by decide +kernel), by rfl⟩), (by decide +kernel)⟩

theorem wit_OrchardCommands_11 :
    ∃ (s : State) (agent : Nat) (v : W64) (b : Tbl),
      let cmd := fun op => setF v Reg.ORCHARD_CMD_OP op; let result := fun (t : State) => rdF t.dev Reg.ORCHARD_STATUS Reg.ORCHARD_STATUS_RESULT; let index := fun (t : State) => rdF t.dev Reg.ORCHARD_STATUS Reg.ORCHARD_STATUS_INDEX; let i := getF v Reg.ORCHARD_CMD_INDEX; let begun := fun op => (orchBegin (startedBy s.dev 1 agent) (stored s.dev Reg.ORCHARD_CMD (cmd op))).1; let key := keyFor b (orchKey s.dev); tbl s.dev (getF v Reg.ORCHARD_CMD_TABLE) = some b ∧ flagF s.dev Reg.PROFILE_STATUS Reg.PROFILE_STATUS_PENDING = false ∧ ((∀ op, 1 ≤ op → op ≤ 6 → WriteReaches s.dev agent Reg.ORCHARD_CMD (cmd op) ∧ FieldsInRange Reg.ORCHARD_CMD (cmd op))) ∧ (b.kind = 2 ∨ b.kind = 3) ∧ lpmKeyOk b key = false :=
  ⟨onDev fun d => wr (wr (wr (wr (wr (tabd 2 d) (Reg.ORCHARD_KEY 0) (BitVec.allOnes 64)) (Reg.ORCHARD_KEY 1) (BitVec.allOnes 64)) (Reg.ORCHARD_KEY 2) (BitVec.allOnes 64)) (Reg.ORCHARD_KEY 3) (BitVec.allOnes 64)) (Reg.ORCHARD_KEY 4) (BitVec.allOnes 64), 1, mkWord [(Reg.ORCHARD_CMD_TABLE, 3), (Reg.ORCHARD_CMD_INDEX, 0)], tb 2, (by decide +kernel), (by decide +kernel), (by intro op h1 h6; have h : op = 1 ∨ op = 2 ∨ op = 3 ∨ op = 4 ∨ op = 5 ∨ op = 6 := (by omega); rcases h with rfl | rfl | rfl | rfl | rfl | rfl <;> exact ⟨reaches_ok (by decide +kernel), by rfl⟩), (by decide +kernel), (by decide +kernel)⟩

theorem wit_OrchardCommands_12 :
    ∃ (s : State) (agent : Nat) (v : W64) (c : Instr) (op : Nat), (c, op) ∈ [(Instr.orchardRead agent v, 1), (.orchardWrite agent v,
      2), (.orchardInsert agent v, 3), (.orchardDelete agent v, 4), (.orchardSearch agent v, 5), (.ageScan agent v, 6)] ∧
      WriteReaches s.dev agent Reg.ORCHARD_CMD (setF v Reg.ORCHARD_CMD_OP op) ∧
      FieldsInRange Reg.ORCHARD_CMD (setF v Reg.ORCHARD_CMD_OP op) ∧ flagF s.dev Reg.PROFILE_STATUS Reg.PROFILE_STATUS_PENDING = true :=
  ⟨onDev fun d => wrF d Reg.PROFILE_STATUS Reg.PROFILE_STATUS_PENDING 1, 1, 0, Instr.orchardRead 1 0, 1, (by decide +kernel),
    reaches_ok (by decide +kernel), (by rfl), (by decide +kernel)⟩

theorem wit_OrchardCommands_13 :
    ∃ (s : State) (agent : Nat) (v : W64) (c : Instr) (op : Nat),
      (c, op) ∈ [(Instr.orchardRead agent v, 1), (.orchardWrite agent v, 2), (.orchardInsert agent v, 3), (.orchardDelete agent v, 4), (.orchardSearch agent v, 5), (.ageScan agent v, 6)] ∧
      WriteReaches s.dev agent Reg.ORCHARD_CMD (setF v Reg.ORCHARD_CMD_OP op) ∧
      FieldsInRange Reg.ORCHARD_CMD (setF v Reg.ORCHARD_CMD_OP op) ∧ flagF s.dev Reg.PROFILE_STATUS Reg.PROFILE_STATUS_PENDING = false ∧
      ((∀ b, tbl s.dev (getF v Reg.ORCHARD_CMD_TABLE) = some b → b.kind ∉ [1, 2, 3, 5, 6])) :=
  ⟨State.reset, 1, 0, Instr.ageScan 1 0, 6, (by decide +kernel), reaches_ok (by decide +kernel), (by rfl), (by decide +kernel),
    (by decide +kernel)⟩

theorem wit_OrchardCommands_14 :
    ∃ (d : Dev) (b : Tbl) (i : Nat), i < stashBase ∧ unitBad d b i = false ∧ eValid b (readUnit d b i) = true ∧
      eType b (readUnit d b i) = 0 ∧ settles d b (eKey b (readUnit d b i)) = true ∧ hitBit d b.t i = false ∧ 0 < b.uw ∧
      ((b.wide = true → b.uw = 384)) ∧
      rdF d Reg.AGE_CFG Reg.AGE_CFG_AGE_LIMIT ≤ (nowTick d + 4096 - eMeta b (readUnit d b i) 163 12) % 4096 :=
  ⟨{ hitd 0 State.reset.dev with time := 10 ^ 12 }, tb 1, 4092, (by decide), (by decide +kernel), (by decide +kernel),
    (by decide +kernel), (by decide +kernel), (by decide +kernel), (by decide +kernel), (by decide +kernel), (by decide +kernel)⟩

/-! O49, OrchardEngines. -/

theorem wit_OrchardEngines_0 :
    ∃ (s : State) (a : Nat) (f : Nat) (k : Nat) (slot : Nat) (gen : Nat) (dest : Nat) (ty : Nat) (key : List W64) (num : Nat) (data : W64) (due : Option (Nat × Nat × Nat)) (src : LearnSrc) (table : Nat),
      (getFur s.dev a f).inFlight[k]? = some ⟨slot, gen, .request 3 dest ty key num data, due⟩ ∧
      src = LearnSrc.packet a f slot gen num dest ∧ table = learnTable s.dev ty ∧
      flagF s.dev Reg.FAULT_INJECT Reg.FAULT_INJECT_PENDING = false ∧ s.dev.orch.learnQ.length < 65536 :=
  ⟨onDev fun d => infl (.request 3 1 3 [0] 0 5) (d), 0, 0, 0, 0, 0, 1, 3, [0], 0, 5, none, LearnSrc.packet (0) (0) (0) (0) (0) (1),
    learnTable (onDev fun d => infl (.request 3 1 3 [0] 0 5) (d)).dev (3), (by decide +kernel), rfl, rfl, (by decide +kernel),
    (by decide +kernel)⟩

theorem wit_OrchardEngines_1 :
    ∃ (s : State) (a : Nat) (f : Nat) (k : Nat) (slot : Nat) (gen : Nat) (dest : Nat) (ty : Nat) (key : List W64) (num : Nat) (data : W64) (due : Option (Nat × Nat × Nat)) (src : LearnSrc) (table : Nat),
      (getFur s.dev a f).inFlight[k]? = some ⟨slot, gen, .request 3 dest ty key num data, due⟩ ∧
      src = LearnSrc.packet a f slot gen num dest ∧ table = learnTable s.dev ty ∧
      flagF s.dev Reg.FAULT_INJECT Reg.FAULT_INJECT_PENDING = false ∧ 65536 ≤ s.dev.orch.learnQ.length :=
  ⟨onDev fun d => { infl (.request 3 1 3 [0] 0 5) d with orch := { d.orch with learnQ := List.replicate 65536 ⟨.packet 0 0 0 0 0 1, 3, 0, 5, 7⟩ } },
    0, 0, 0, 0, 0, 1, 3, [0], 0, 5, none, LearnSrc.packet (0) (0) (0) (0) (0) (1),
    learnTable (onDev fun d => { infl (.request 3 1 3 [0] 0 5) d with orch := { d.orch with learnQ := List.replicate 65536 ⟨.packet 0 0 0 0 0 1, 3, 0, 5, 7⟩ } }).dev (3),
    (by decide +kernel), rfl, rfl, (by decide +kernel), (by decide +kernel)⟩

theorem wit_OrchardEngines_2 :
    ∃ (s : State) (n : Nat) (x : Learn) (rest : List Learn) (a : Nat) (f : Nat) (slot : Nat) (gen : Nat) (num : Nat) (dest : Nat) (d : Dev),
      ∃ (b : Tbl), s.dev.orch.learnQ = x :: rest ∧ x.table = n ∧ n < 64 ∧ x.src = .packet a f slot gen num dest ∧
      tableBusy s.dev n = false ∧ d = wrF (setLearnQ s.dev rest) Reg.LEARN_STATUS Reg.LEARN_STATUS_SEQ_HI x.seq ∧ tbl s.dev n = some b ∧
      b.kind = 1 ∧ b.learn = true ∧ flagF s.dev Reg.PROFILE_STATUS Reg.PROFILE_STATUS_LOADED = true ∧ settles d b (keyFor b x.key) = true :=
  ⟨onDev fun d => setLearnQ (tabd 1 d) [⟨.packet 0 0 0 0 0 1, 3, 0, 5, 7⟩], 3, Learn.mk (.packet 0 0 0 0 0 1) 3 0 5 7, [], 0, 0, 0, 0, 0,
    1,
    wrF (setLearnQ (onDev fun d => setLearnQ (tabd 1 d) [⟨.packet 0 0 0 0 0 1, 3, 0, 5, 7⟩]).dev ([])) Reg.LEARN_STATUS Reg.LEARN_STATUS_SEQ_HI (Learn.mk (.packet 0 0 0 0 0 1) 3 0 5 7).seq,
    tb 1, (by decide +kernel), (by decide +kernel), (by decide +kernel), (by decide +kernel), (by decide +kernel), rfl,
    (by decide +kernel), (by decide +kernel), (by decide +kernel), (by decide +kernel), (by decide +kernel)⟩

theorem wit_OrchardEngines_3 :
    ∃ (s : State) (n : Nat) (x : Learn) (rest : List Learn) (a : Nat) (f : Nat) (slot : Nat) (gen : Nat) (num : Nat) (dest : Nat) (d : Dev),
      ∃ (b : Tbl), s.dev.orch.learnQ = x :: rest ∧ x.table = n ∧ n < 64 ∧ x.src = .packet a f slot gen num dest ∧
      tableBusy s.dev n = false ∧ d = wrF (setLearnQ s.dev rest) Reg.LEARN_STATUS Reg.LEARN_STATUS_SEQ_HI x.seq ∧ tbl s.dev n = some b ∧
      b.kind = 1 ∧ b.learn = true ∧ flagF s.dev Reg.PROFILE_STATUS Reg.PROFILE_STATUS_LOADED = true ∧ settles d b (keyFor b x.key) = false :=
  ⟨onDev fun d => setLearnQ (wrF (wrF (wr (tabd 1 d) (Reg.PAIR_EFFECTIVE 0) (BitVec.allOnes 64)) (Reg.PAIR_TABLE_CFG 3) Reg.PAIR_TABLE_CFG_MIRROR 1) Reg.PAIR_STATUS Reg.PAIR_STATUS_STATE 3) [⟨.packet 0 0 0 0 0 1, 3, 0, 5, 7⟩],
    3, Learn.mk (.packet 0 0 0 0 0 1) 3 0 5 7, [], 0, 0, 0, 0, 0, 1,
    wrF (setLearnQ (onDev fun d => setLearnQ (wrF (wrF (wr (tabd 1 d) (Reg.PAIR_EFFECTIVE 0) (BitVec.allOnes 64)) (Reg.PAIR_TABLE_CFG 3) Reg.PAIR_TABLE_CFG_MIRROR 1) Reg.PAIR_STATUS Reg.PAIR_STATUS_STATE 3) [⟨.packet 0 0 0 0 0 1, 3, 0, 5, 7⟩]).dev ([])) Reg.LEARN_STATUS Reg.LEARN_STATUS_SEQ_HI (Learn.mk (.packet 0 0 0 0 0 1) 3 0 5 7).seq,
    tb 1, (by decide +kernel), (by decide +kernel), (by decide +kernel), (by decide +kernel), (by decide +kernel), rfl,
    (by decide +kernel), (by decide +kernel), (by decide +kernel), (by decide +kernel), (by decide +kernel)⟩

theorem wit_OrchardEngines_4 :
    ∃ (s : State) (n : Nat) (x : Learn) (rest : List Learn) (a : Nat) (f : Nat) (slot : Nat) (gen : Nat) (num : Nat) (dest : Nat) (d : Dev),
      ∃ (b : Tbl), s.dev.orch.learnQ = x :: rest ∧ x.table = n ∧ n < 64 ∧ x.src = .packet a f slot gen num dest ∧
      tableBusy s.dev n = false ∧ d = wrF (setLearnQ s.dev rest) Reg.LEARN_STATUS Reg.LEARN_STATUS_SEQ_HI x.seq ∧ tbl s.dev n = some b ∧
      b.learn = false :=
  ⟨onDev fun d => setLearnQ (wrF (tabd 1 d) (Reg.TABLE_DESC 0 3) Reg.TABLE_DESC_LEARN 0) [⟨.packet 0 0 0 0 0 1, 3, 0, 5, 7⟩], 3,
    Learn.mk (.packet 0 0 0 0 0 1) 3 0 5 7, [], 0, 0, 0, 0, 0, 1,
    wrF (setLearnQ (onDev fun d => setLearnQ (wrF (tabd 1 d) (Reg.TABLE_DESC 0 3) Reg.TABLE_DESC_LEARN 0) [⟨.packet 0 0 0 0 0 1, 3, 0, 5, 7⟩]).dev ([])) Reg.LEARN_STATUS Reg.LEARN_STATUS_SEQ_HI (Learn.mk (.packet 0 0 0 0 0 1) 3 0 5 7).seq,
    { tb 1 with learn := false }, (by decide +kernel), (by decide +kernel), (by decide +kernel), (by decide +kernel), (by decide +kernel),
    rfl, (by decide +kernel), (by decide +kernel)⟩

theorem wit_OrchardEngines_5 :
    ∃ (s : State) (n : Nat) (x : Learn) (rest : List Learn) (a : Nat) (f : Nat) (slot : Nat) (gen : Nat) (num : Nat) (dest : Nat),
      s.dev.orch.learnQ = x :: rest ∧ x.table = n + 64 ∧ n < 64 ∧ x.src = .packet a f slot gen num dest ∧ tableBusy s.dev x.table = false :=
  ⟨onDev fun d => setLearnQ d [⟨.packet 0 0 0 0 0 1, 67, 0, 5, 7⟩], 3, Learn.mk (.packet 0 0 0 0 0 1) 67 0 5 7, [], 0, 0, 0, 0, 0, 1,
    (by decide +kernel), (by decide +kernel), (by decide +kernel), (by decide +kernel), (by decide +kernel)⟩

theorem wit_OrchardEngines_6 :
    ∃ (d : Dev) (b : Tbl) (key : Nat) (action : Nat) (seq : Nat) (i : Nat), exactFind d b key = some i ∧ eType b (readUnit d b i) = 1 :=
  ⟨hitd 1 State.reset.dev, tb 1, 0, 10, 5, 4092, (by decide +kernel), (by decide +kernel)⟩

theorem wit_OrchardEngines_7 :
    ∃ (d : Dev) (b : Tbl) (i : Nat), i < stashBase ∧ stashIdx d b ≠ [] :=
  ⟨writeUnit (hitd 1 State.reset.dev) (tb 1) stashBase (mkEntry (tb 1) 1 0 9), tb 1, 0, (by decide +kernel), (by decide +kernel)⟩

theorem wit_OrchardEngines_8 :
    ∃ (s : State) (n : Nat) (k : Nat) (b : Tbl) (d : Dev), spGet (fun _ => 0) s.dev.orch.retry n = k + 1 ∧ tbl s.dev n = some b ∧
      b.kind = 1 ∧ d = { s.dev with orch := { s.dev.orch with retry := spPut (fun _ => 0) s.dev.orch.retry n k } } :=
  ⟨onDev fun d => { tabd 1 d with orch := { (tabd 1 d).orch with retry := [(3, 1)] } }, 3, 0, tb 1,
    { (onDev fun d => { tabd 1 d with orch := { (tabd 1 d).orch with retry := [(3, 1)] } }).dev with orch := { (onDev fun d => { tabd 1 d with orch := { (tabd 1 d).orch with retry := [(3, 1)] } }).dev.orch with retry := spPut (fun _ => 0) (onDev fun d => { tabd 1 d with orch := { (tabd 1 d).orch with retry := [(3, 1)] } }).dev.orch.retry (3) (0) } },
    (by decide +kernel), (by decide +kernel), (by decide +kernel), rfl⟩

theorem wit_OrchardEngines_9 :
    ∃ (s : State), flagF s.dev Reg.AGE_CFG Reg.AGE_CFG_AUTO = true ∧ orchardBusy s.dev = false ∧
      flagF s.dev Reg.PROFILE_STATUS Reg.PROFILE_STATUS_PENDING = false :=
  ⟨onDev fun d => wrF d Reg.AGE_CFG Reg.AGE_CFG_AUTO 1, (by decide +kernel), (by decide +kernel), (by decide +kernel)⟩

theorem wit_OrchardEngines_10 :
    ∃ (s : State) (blk : Nat) (row : Nat) (q : Nat), blk < 2048 ∧ row < 1024 ∧ q < 4 ∧
      flagF s.dev Reg.FAULT_INJECT Reg.FAULT_INJECT_PENDING = false ∧ ((∀ r,
      r < 4 → r ≠ q → ecc s.dev .table ((blk * 1024 + row) * 4 + r) = 0)) ∧ ecc s.dev .table ((blk * 1024 + row) * 4 + q) = 1 :=
  ⟨onDev fun d => setEcc d .table ((2047 * 1024 + 1023) * 4 + 2) 1, 2047, 1023, 2, (by decide +kernel), (by decide +kernel),
    (by decide +kernel), (by decide +kernel),
    (by intro r hr hn; have h : r = 0 ∨ r = 1 ∨ r = 3 := (by omega); rcases h with rfl | rfl | rfl <;> decide +kernel),
    (by decide +kernel)⟩

theorem wit_OrchardEngines_11 :
    ∃ (s : State) (blk : Nat) (row : Nat) (q : Nat), blk < 2048 ∧ row < 1024 ∧ q < 4 ∧
      flagF s.dev Reg.FAULT_INJECT Reg.FAULT_INJECT_PENDING = false ∧ ((∀ r,
      r < 4 → r ≠ q → ecc s.dev .table ((blk * 1024 + row) * 4 + r) = 0)) ∧ ecc s.dev .table ((blk * 1024 + row) * 4 + q) = 2 ∧
      tblOfBlock s.dev blk = none :=
  ⟨onDev fun d => setEcc d .table ((2047 * 1024 + 1023) * 4 + 2) 2, 2047, 1023, 2, (by decide +kernel), (by decide +kernel),
    (by decide +kernel), (by decide +kernel),
    (by intro r hr hn; have h : r = 0 ∨ r = 1 ∨ r = 3 := (by omega); rcases h with rfl | rfl | rfl <;> decide +kernel),
    (by decide +kernel), (by decide +kernel)⟩

theorem wit_OrchardEngines_12 :
    ∃ (s : State) (n : Nat) (h : Nat), spGet (fun _ => 0) s.dev.orch.rebuild (256 * n + h) = 1 :=
  ⟨onDev fun d => { d with orch := { d.orch with rebuild := [(256 * 3 + 9, 1)] } }, 3, 9, (by decide +kernel)⟩

theorem wit_OrchardEngines_13 :
    ∃ (s : State) (agent : Nat) (slot : Nat), slot < 2 ∧ slot ≠ activeSlot s.dev ∧
      WriteReaches s.dev agent Reg.PROFILE_SEL (setF 0 Reg.PROFILE_SEL_SLOT slot) ∧
      flagF s.dev Reg.PROFILE_STATUS Reg.PROFILE_STATUS_PENDING = false ∧ profileCheck s.dev slot = 0 :=
  ⟨State.reset, 1, 1, (by decide +kernel), (by decide +kernel), reaches_ok (by decide +kernel), (by decide +kernel), (by decide +kernel)⟩

theorem wit_OrchardEngines_14 :
    ∃ (s : State) (agent : Nat) (slot : Nat), slot < 2 ∧ slot ≠ activeSlot s.dev ∧
      WriteReaches s.dev agent Reg.PROFILE_SEL (setF 0 Reg.PROFILE_SEL_SLOT slot) ∧
      flagF s.dev Reg.PROFILE_STATUS Reg.PROFILE_STATUS_PENDING = false ∧ profileCheck s.dev slot ≠ 0 :=
  ⟨onDev fun d => wr d (Reg.TABLE_DESC 1 0) (mkWord [(Reg.TABLE_DESC_VALID, 1), (Reg.TABLE_DESC_KIND, 1), (Reg.TABLE_DESC_NBLK, 3)]),
    1, 1, (by decide +kernel), (by decide +kernel), reaches_ok (by decide +kernel), (by decide +kernel), (by decide +kernel)⟩

theorem wit_OrchardEngines_15 :
    ∃ (s : State), profilePending s.dev = true ∧ (List.range 4).all (reachedIn s.dev) = true :=
  ⟨onDev fun d => wrF d Reg.PROFILE_STATUS Reg.PROFILE_STATUS_PENDING 1, (by decide +kernel), (by decide +kernel)⟩

theorem wit_OrchardEngines_16 :
    ∃ (s : State) (agent : Nat) (v : W64), WriteReaches s.dev agent Reg.FLOW_HASH_SEED v ∧ FieldsInRange Reg.FLOW_HASH_SEED v ∧
      anyHoldingOpen s.dev = false :=
  ⟨State.reset, 1, 5, reaches_ok (by decide +kernel), (by rfl), (by decide +kernel)⟩

theorem wit_OrchardEngines_17 :
    ∃ (s : State) (agent : Nat) (v : W64), WriteReaches s.dev agent Reg.FLOW_HASH_SEED v ∧ FieldsInRange Reg.FLOW_HASH_SEED v ∧
      anyHoldingOpen s.dev = true :=
  ⟨onDev fun d => wr d (Reg.HOLDING_OPEN 3) 1, 1, 5, reaches_ok (by decide +kernel), (by rfl), (by decide +kernel)⟩

/-! O50, AssocArrays. -/

theorem wit_AssocArrays_0 :
    ∃ (s : State) (agent : Nat) (v : W64) (i : Nat) (a : Nat),
      let cmd := fun op => setF v Reg.ASSOC_CMD_OP op; let result := fun (t : State) => rdF t.dev Reg.ASSOC_STATUS Reg.ASSOC_STATUS_RESULT; let shown := fun (t : State) (e : Nat) => ∀ w, w < 11 → rd t.dev (Reg.ASSOC_DATA w) = BitVec.ofNat 64 (bits e (64 * (10 - w)) 64); i = getF v Reg.ASSOC_CMD_INDEX ∧ a = getF v Reg.ASSOC_CMD_ACRE ∧ a < acreCount s.dev ∧ ((∀ op, 1 ≤ op → op ≤ 5 → WriteReaches s.dev agent Reg.ASSOC_CMD (cmd op) ∧ FieldsInRange Reg.ASSOC_CMD (cmd op))) ∧ flagF s.dev Reg.FAULT_INJECT Reg.FAULT_INJECT_PENDING = false ∧ getF v Reg.ASSOC_CMD_RAW = 0 ∧ ecc s.dev .assocCopy (aKey a i) ≠ 2 :=
  ⟨State.reset, 1, mkWord [(Reg.ASSOC_CMD_ACRE, 3), (Reg.ASSOC_CMD_INDEX, 32767)], getF (mkWord [(Reg.ASSOC_CMD_ACRE, 3),
    (Reg.ASSOC_CMD_INDEX, 32767)]) Reg.ASSOC_CMD_INDEX, getF (mkWord [(Reg.ASSOC_CMD_ACRE, 3), (Reg.ASSOC_CMD_INDEX,
    32767)]) Reg.ASSOC_CMD_ACRE, rfl, rfl, (by decide +kernel),
    (by intro op h1 h6; have h : op = 1 ∨ op = 2 ∨ op = 3 ∨ op = 4 ∨ op = 5 := (by omega); rcases h with rfl | rfl | rfl | rfl | rfl <;> exact ⟨reaches_ok (by decide +kernel), by rfl⟩), (by decide +kernel), (by decide +kernel), (by decide +kernel)⟩

theorem wit_AssocArrays_1 :
    ∃ (s : State) (agent : Nat) (v : W64) (i : Nat) (a : Nat),
      let cmd := fun op => setF v Reg.ASSOC_CMD_OP op; let result := fun (t : State) => rdF t.dev Reg.ASSOC_STATUS Reg.ASSOC_STATUS_RESULT; let shown := fun (t : State) (e : Nat) => ∀ w, w < 11 → rd t.dev (Reg.ASSOC_DATA w) = BitVec.ofNat 64 (bits e (64 * (10 - w)) 64); i = getF v Reg.ASSOC_CMD_INDEX ∧ a = getF v Reg.ASSOC_CMD_ACRE ∧ a < acreCount s.dev ∧ ((∀ op, 1 ≤ op → op ≤ 5 → WriteReaches s.dev agent Reg.ASSOC_CMD (cmd op) ∧ FieldsInRange Reg.ASSOC_CMD (cmd op))) ∧ flagF s.dev Reg.FAULT_INJECT Reg.FAULT_INJECT_PENDING = false ∧ getF v Reg.ASSOC_CMD_RAW = 1 :=
  ⟨State.reset, 1, mkWord [(Reg.ASSOC_CMD_ACRE, 3), (Reg.ASSOC_CMD_INDEX, 32767), (Reg.ASSOC_CMD_RAW, 1)],
    getF (mkWord [(Reg.ASSOC_CMD_ACRE, 3), (Reg.ASSOC_CMD_INDEX, 32767), (Reg.ASSOC_CMD_RAW, 1)]) Reg.ASSOC_CMD_INDEX,
    getF (mkWord [(Reg.ASSOC_CMD_ACRE, 3), (Reg.ASSOC_CMD_INDEX, 32767), (Reg.ASSOC_CMD_RAW, 1)]) Reg.ASSOC_CMD_ACRE, rfl, rfl,
    (by decide +kernel),
    (by intro op h1 h6; have h : op = 1 ∨ op = 2 ∨ op = 3 ∨ op = 4 ∨ op = 5 := (by omega); rcases h with rfl | rfl | rfl | rfl | rfl <;> exact ⟨reaches_ok (by decide +kernel), by rfl⟩), (by decide +kernel), (by decide +kernel)⟩

theorem wit_AssocArrays_2 :
    ∃ (s : State) (agent : Nat) (v : W64) (i : Nat) (a : Nat),
      let cmd := fun op => setF v Reg.ASSOC_CMD_OP op; let result := fun (t : State) => rdF t.dev Reg.ASSOC_STATUS Reg.ASSOC_STATUS_RESULT; let shown := fun (t : State) (e : Nat) => ∀ w, w < 11 → rd t.dev (Reg.ASSOC_DATA w) = BitVec.ofNat 64 (bits e (64 * (10 - w)) 64); i = getF v Reg.ASSOC_CMD_INDEX ∧ a = getF v Reg.ASSOC_CMD_ACRE ∧ a < acreCount s.dev ∧ ((∀ op, 1 ≤ op → op ≤ 5 → WriteReaches s.dev agent Reg.ASSOC_CMD (cmd op) ∧ FieldsInRange Reg.ASSOC_CMD (cmd op))) ∧ flagF s.dev Reg.FAULT_INJECT Reg.FAULT_INJECT_PENDING = false :=
  ⟨onDev fun d => wr d (Reg.ASSOC_DATA 0) (BitVec.allOnes 64), 1, mkWord [(Reg.ASSOC_CMD_ACRE, 3), (Reg.ASSOC_CMD_INDEX, 7)],
    getF (mkWord [(Reg.ASSOC_CMD_ACRE, 3), (Reg.ASSOC_CMD_INDEX, 7)]) Reg.ASSOC_CMD_INDEX, getF (mkWord [(Reg.ASSOC_CMD_ACRE, 3),
    (Reg.ASSOC_CMD_INDEX, 7)]) Reg.ASSOC_CMD_ACRE, rfl, rfl, (by decide +kernel),
    (by intro op h1 h6; have h : op = 1 ∨ op = 2 ∨ op = 3 ∨ op = 4 ∨ op = 5 := (by omega); rcases h with rfl | rfl | rfl | rfl | rfl <;> exact ⟨reaches_ok (by decide +kernel), by rfl⟩), (by decide +kernel)⟩

theorem wit_AssocArrays_3 :
    ∃ (s : State) (agent : Nat) (v : W64) (i : Nat) (a : Nat),
      let cmd := fun op => setF v Reg.ASSOC_CMD_OP op; let result := fun (t : State) => rdF t.dev Reg.ASSOC_STATUS Reg.ASSOC_STATUS_RESULT; let shown := fun (t : State) (e : Nat) => ∀ w, w < 11 → rd t.dev (Reg.ASSOC_DATA w) = BitVec.ofNat 64 (bits e (64 * (10 - w)) 64); i = getF v Reg.ASSOC_CMD_INDEX ∧ a = getF v Reg.ASSOC_CMD_ACRE ∧ a < acreCount s.dev ∧ ((∀ op, 1 ≤ op → op ≤ 5 → WriteReaches s.dev agent Reg.ASSOC_CMD (cmd op) ∧ FieldsInRange Reg.ASSOC_CMD (cmd op))) ∧ flagF s.dev Reg.FAULT_INJECT Reg.FAULT_INJECT_PENDING = false ∧ (∀ b ∈ aTargets s.dev v, ecc s.dev .assocCopy (aKey b i) ≠ 2) :=
  ⟨State.reset, 1, mkWord [(Reg.ASSOC_CMD_ACRE, 0), (Reg.ASSOC_CMD_INDEX, 9)], getF (mkWord [(Reg.ASSOC_CMD_ACRE, 0),
    (Reg.ASSOC_CMD_INDEX, 9)]) Reg.ASSOC_CMD_INDEX, getF (mkWord [(Reg.ASSOC_CMD_ACRE, 0), (Reg.ASSOC_CMD_INDEX,
    9)]) Reg.ASSOC_CMD_ACRE, rfl, rfl, (by decide +kernel),
    (by intro op h1 h6; have h : op = 1 ∨ op = 2 ∨ op = 3 ∨ op = 4 ∨ op = 5 := (by omega); rcases h with rfl | rfl | rfl | rfl | rfl <;> exact ⟨reaches_ok (by decide +kernel), by rfl⟩), (by decide +kernel), (by decide +kernel)⟩

theorem wit_AssocArrays_4 :
    ∃ (s : State) (agent : Nat) (v : W64) (i : Nat) (a : Nat), let cmd := fun op => setF v Reg.ASSOC_CMD_OP op;
      let result := fun (t : State) => rdF t.dev Reg.ASSOC_STATUS Reg.ASSOC_STATUS_RESULT;
      let shown := fun (t : State) (e : Nat) => ∀ w, w < 11 → rd t.dev (Reg.ASSOC_DATA w) = BitVec.ofNat 64 (bits e (64 * (10 - w)) 64);
      ∃ (src : Nat), i = getF v Reg.ASSOC_CMD_INDEX ∧ a = getF v Reg.ASSOC_CMD_ACRE ∧ a < acreCount s.dev ∧
      ((∀ op, 1 ≤ op → op ≤ 5 → WriteReaches s.dev agent Reg.ASSOC_CMD (cmd op) ∧ FieldsInRange Reg.ASSOC_CMD (cmd op))) ∧
      flagF s.dev Reg.FAULT_INJECT Reg.FAULT_INJECT_PENDING = false ∧ src = getF v Reg.ASSOC_CMD_SRC_INDEX ∧
      getF v Reg.ASSOC_CMD_KEEP_SRC = 0 ∧
      (∀ b ∈ aTargets s.dev v, ecc s.dev .assocCopy (aKey b src) ≠ 2 ∧ aValid (getCopy s.dev b src) = true) :=
  ⟨onDev fun d => { d with asc := { d.asc with copy := [(aKey 0 5, 2 ^ 63), (aKey 1 5, 2 ^ 63), (aKey 2 5, 2 ^ 63), (aKey 3 5, 2 ^ 63)] } },
    1, mkWord [(Reg.ASSOC_CMD_ACRE, 0), (Reg.ASSOC_CMD_INDEX, 9), (Reg.ASSOC_CMD_SRC_INDEX, 5)],
    getF (mkWord [(Reg.ASSOC_CMD_ACRE, 0), (Reg.ASSOC_CMD_INDEX, 9), (Reg.ASSOC_CMD_SRC_INDEX, 5)]) Reg.ASSOC_CMD_INDEX,
    getF (mkWord [(Reg.ASSOC_CMD_ACRE, 0), (Reg.ASSOC_CMD_INDEX, 9), (Reg.ASSOC_CMD_SRC_INDEX, 5)]) Reg.ASSOC_CMD_ACRE,
    getF (mkWord [(Reg.ASSOC_CMD_ACRE, 0), (Reg.ASSOC_CMD_INDEX, 9), (Reg.ASSOC_CMD_SRC_INDEX, 5)]) Reg.ASSOC_CMD_SRC_INDEX, rfl, rfl,
    (by decide +kernel),
    (by intro op h1 h6; have h : op = 1 ∨ op = 2 ∨ op = 3 ∨ op = 4 ∨ op = 5 := (by omega); rcases h with rfl | rfl | rfl | rfl | rfl <;> exact ⟨reaches_ok (by decide +kernel), by rfl⟩),
    (by decide +kernel), rfl, (by decide +kernel), (by decide +kernel)⟩

theorem wit_AssocArrays_5 :
    ∃ (s : State) (agent : Nat) (v : W64) (i : Nat) (a : Nat),
      let cmd := fun op => setF v Reg.ASSOC_CMD_OP op; let result := fun (t : State) => rdF t.dev Reg.ASSOC_STATUS Reg.ASSOC_STATUS_RESULT; let shown := fun (t : State) (e : Nat) => ∀ w, w < 11 → rd t.dev (Reg.ASSOC_DATA w) = BitVec.ofNat 64 (bits e (64 * (10 - w)) 64); ∃ (l : List (Nat × Nat)), ∃ (w : Nat × Nat), i = getF v Reg.ASSOC_CMD_INDEX ∧ a = getF v Reg.ASSOC_CMD_ACRE ∧ a < acreCount s.dev ∧ ((∀ op, 1 ≤ op → op ≤ 5 → WriteReaches s.dev agent Reg.ASSOC_CMD (cmd op) ∧ FieldsInRange Reg.ASSOC_CMD (cmd op))) ∧ flagF s.dev Reg.FAULT_INJECT Reg.FAULT_INJECT_PENDING = false ∧ l = aMatches s.dev a (aOwner (aData s.dev)) (aValue (aData s.dev)) ∧ aWinner (aOwner (aData s.dev)) l = some w ∧ w.1 < 32768 :=
  ⟨onDev fun d => wr ({ d with asc := { d.asc with cells := [(aKey 3 32767, 2 ^ 63 + 77)] } }) (Reg.SEG_MAP 3 0) (BitVec.allOnes 64),
    1, mkWord [(Reg.ASSOC_CMD_ACRE, 3), (Reg.ASSOC_CMD_INDEX, 0)], getF (mkWord [(Reg.ASSOC_CMD_ACRE, 3), (Reg.ASSOC_CMD_INDEX,
    0)]) Reg.ASSOC_CMD_INDEX, getF (mkWord [(Reg.ASSOC_CMD_ACRE, 3), (Reg.ASSOC_CMD_INDEX, 0)]) Reg.ASSOC_CMD_ACRE,
    aMatches (onDev fun d => wr ({ d with asc := { d.asc with cells := [(aKey 3 32767, 2 ^ 63 + 77)] } }) (Reg.SEG_MAP 3 0) (BitVec.allOnes 64)).dev (getF (mkWord [(Reg.ASSOC_CMD_ACRE, 3), (Reg.ASSOC_CMD_INDEX, 0)]) Reg.ASSOC_CMD_ACRE) (aOwner (aData (onDev fun d => wr ({ d with asc := { d.asc with cells := [(aKey 3 32767, 2 ^ 63 + 77)] } }) (Reg.SEG_MAP 3 0) (BitVec.allOnes 64)).dev)) (aValue (aData (onDev fun d => wr ({ d with asc := { d.asc with cells := [(aKey 3 32767, 2 ^ 63 + 77)] } }) (Reg.SEG_MAP 3 0) (BitVec.allOnes 64)).dev)), (32767, 2 ^ 63 + 77), rfl, rfl, (by decide +kernel), (by intro op h1 h6; have h : op = 1 ∨ op = 2 ∨ op = 3 ∨ op = 4 ∨ op = 5 := (by omega); rcases h with rfl | rfl | rfl | rfl | rfl <;> exact ⟨reaches_ok (by decide +kernel), by rfl⟩), (by decide +kernel), rfl, (by decide +kernel), (by decide +kernel)⟩

theorem wit_AssocArrays_6 :
    ∃ (s : State) (agent : Nat) (v : W64) (i : Nat) (a : Nat),
      let cmd := fun op => setF v Reg.ASSOC_CMD_OP op; let result := fun (t : State) => rdF t.dev Reg.ASSOC_STATUS Reg.ASSOC_STATUS_RESULT; let shown := fun (t : State) (e : Nat) => ∀ w, w < 11 → rd t.dev (Reg.ASSOC_DATA w) = BitVec.ofNat 64 (bits e (64 * (10 - w)) 64); ∃ (l : List (Nat × Nat)), i = getF v Reg.ASSOC_CMD_INDEX ∧ a = getF v Reg.ASSOC_CMD_ACRE ∧ a < acreCount s.dev ∧ ((∀ op, 1 ≤ op → op ≤ 5 → WriteReaches s.dev agent Reg.ASSOC_CMD (cmd op) ∧ FieldsInRange Reg.ASSOC_CMD (cmd op))) ∧ flagF s.dev Reg.FAULT_INJECT Reg.FAULT_INJECT_PENDING = false ∧ l = aMatches s.dev a (aOwner (aData s.dev)) (aValue (aData s.dev)) ∧ aWinner (aOwner (aData s.dev)) l = none :=
  ⟨State.reset, 1, mkWord [(Reg.ASSOC_CMD_ACRE, 3), (Reg.ASSOC_CMD_INDEX, 0)], getF (mkWord [(Reg.ASSOC_CMD_ACRE, 3),
    (Reg.ASSOC_CMD_INDEX, 0)]) Reg.ASSOC_CMD_INDEX, getF (mkWord [(Reg.ASSOC_CMD_ACRE, 3), (Reg.ASSOC_CMD_INDEX,
    0)]) Reg.ASSOC_CMD_ACRE, aMatches (State.reset).dev (getF (mkWord [(Reg.ASSOC_CMD_ACRE, 3), (Reg.ASSOC_CMD_INDEX,
    0)]) Reg.ASSOC_CMD_ACRE) (aOwner (aData (State.reset).dev)) (aValue (aData (State.reset).dev)), rfl, rfl, (by decide +kernel),
    (by intro op h1 h6; have h : op = 1 ∨ op = 2 ∨ op = 3 ∨ op = 4 ∨ op = 5 := (by omega); rcases h with rfl | rfl | rfl | rfl | rfl <;> exact ⟨reaches_ok (by decide +kernel), by rfl⟩), (by decide +kernel), rfl, (by decide +kernel)⟩

theorem wit_AssocArrays_7 :
    ∃ (s : State) (agent : Nat) (mode : Nat), mode < 2 ∧ WriteReaches s.dev agent Reg.ASSOC_CFG (setF 0 Reg.ASSOC_CFG_MODE mode) ∧
      anyHoldingOpen s.dev = false :=
  ⟨State.reset, 1, 1, (by decide +kernel), reaches_ok (by decide +kernel), (by decide +kernel)⟩

theorem wit_AssocArrays_8 :
    ∃ (s : State) (agent : Nat) (mode : Nat), mode < 2 ∧ WriteReaches s.dev agent Reg.ASSOC_CFG (setF 0 Reg.ASSOC_CFG_MODE mode) ∧
      anyHoldingOpen s.dev = true :=
  ⟨onDev fun d => wr d (Reg.HOLDING_OPEN 3) 1, 1, 1, (by decide +kernel), reaches_ok (by decide +kernel), (by decide +kernel)⟩

theorem wit_AssocArrays_9 :
    ∃ (s : State) (agent : Nat) (a : Nat) (h : Nat) (v : W64), a < acreCount s.dev ∧ h < 256 ∧
      WriteReaches s.dev agent (Reg.SEG_MAP a h) v ∧ flagF s.dev Reg.FAULT_INJECT Reg.FAULT_INJECT_PENDING = false ∧
      popCount 64 v.toNat ≤ 8 :=
  ⟨State.reset, 1, 3, 255, 0xFF, (by decide +kernel), (by decide +kernel), reaches_ok (by decide +kernel), (by decide +kernel),
    (by decide +kernel)⟩

theorem wit_AssocArrays_10 :
    ∃ (s : State) (agent : Nat) (a : Nat) (h : Nat) (v : W64), a < acreCount s.dev ∧ h < 256 ∧
      WriteReaches s.dev agent (Reg.SEG_MAP a h) v ∧ flagF s.dev Reg.FAULT_INJECT Reg.FAULT_INJECT_PENDING = false ∧
      8 < popCount 64 v.toNat :=
  ⟨State.reset, 1, 3, 255, 0x1FF, (by decide +kernel), (by decide +kernel), reaches_ok (by decide +kernel), (by decide +kernel),
    (by decide +kernel)⟩

theorem wit_AssocArrays_11 :
    ∃ (s : State) (a : Nat) (line : Nat) (k : Nat), gleanPos s.dev a = line ∧ k < 8 ∧ (∀ n ∈ s.dev.asc.reread, n / 4096 ≠ a) ∧
      (∀ e ∈ s.dev.asc.repairs, e.1 / 32768 ≠ a) ∧ getCell s.dev a (8 * line + k) ≠ getCopy s.dev a (8 * line + k) :=
  ⟨onDev fun d => { d with asc := { d.asc with cells := [(aKey 3 32767, 5)], pos := [(3, 4095)] } }, 3, 4095, 7, (by decide +kernel),
    (by decide +kernel), (by intro n hn; cases hn), (by intro e he; cases he), (by decide +kernel)⟩

theorem wit_AssocArrays_12 :
    ∃ (s : State) (a : Nat) (e : Nat × Nat), (∀ n ∈ s.dev.asc.reread, n / 4096 ≠ a) ∧
      (s.dev.asc.repairs.find? fun e => e.1 / 32768 == a) = some e :=
  ⟨onDev fun d => setRepair d 3 9 1, 3, (3 * 32768 + 9, 1), (by intro n hn; cases hn), (by decide +kernel)⟩

theorem wit_AssocArrays_13 :
    ∃ (d : Dev) (a : Nat) (i : Nat) (e : Nat), repairDue d a i = true ∧ flagF d Reg.FAULT_INJECT Reg.FAULT_INJECT_PENDING = false :=
  ⟨setRepair State.reset.dev 3 9 1, 3, 9, 5, (by decide +kernel), (by decide +kernel)⟩

theorem wit_AssocArrays_14 :
    ∃ (s : State) (a : Nat) (n : Nat), repairDue s.dev a n = true ∧ flagF s.dev Reg.FAULT_INJECT Reg.FAULT_INJECT_PENDING = false ∧
      ecc s.dev .assocCopy (aKey a n) ≠ 2 :=
  ⟨onDev fun d => setRepair d 3 9 1, 3, 9, (by decide +kernel), (by decide +kernel), (by decide +kernel)⟩

theorem wit_AssocArrays_15 :
    ∃ (s : State) (a : Nat) (n : Nat), repairDue s.dev a n = true ∧ flagF s.dev Reg.FAULT_INJECT Reg.FAULT_INJECT_PENDING = false ∧
      ecc s.dev .assocCopy (aKey a n) = 2 ∧ flagF s.dev Reg.ASSOC_CFG Reg.ASSOC_CFG_MODE = true :=
  ⟨onDev fun d => wrF (setEcc (setRepair d 3 9 1) .assocCopy (aKey 3 9) 2) Reg.ASSOC_CFG Reg.ASSOC_CFG_MODE 1, 3, 9,
    (by decide +kernel), (by decide +kernel), (by decide +kernel), (by decide +kernel)⟩

end Sys2Proof.Tests
end

