-- ==== Sys2Proof/Tests/Witness4.lean ====
section
/-!
SUPPORT. Witnesses, part 4: for each clause of O51 to O60 that has hypotheses, a state and operands that meet all of
them together. `wit_<Name>_<k>` is clause k, counted from 0, of the obligation of that name.
-/
namespace Sys2Proof.Tests
open Sys2Proof Sys2Proof.Machine
set_option Elab.async false
set_option maxRecDepth 10000
set_option linter.unusedVariables false

/-! O51, HarrowActions. -/

theorem wit_HarrowActions_0 :
    ∃ (s : State) (n : Nat) (c : Nat × Bool), ∃ (r : PktRef × List (Nat × Nat × Nat)), acreUp s.dev n = true ∧ c = cycleOf s.dev n ∧
      backNext s.dev n (spGet (fun _ => []) s.dev.har.backQ n) = some r :=
  ⟨onDev fun d => setBackQ (putPkt d ⟨2, 1, 0⟩ { pk with loc := .reparse }) 2 [(1, 0, 0)], 2,
    cycleOf (onDev fun d => setBackQ (putPkt d ⟨2, 1, 0⟩ { pk with loc := .reparse }) 2 [(1, 0, 0)]).dev (2), (PktRef.mk 2 1 0, []),
    (by decide +kernel), rfl, (by decide +kernel)⟩

theorem wit_HarrowActions_1 :
    ∃ (s : State) (n : Nat) (c : Nat × Bool), ∃ (p : Pkt) (t : List Pkt), acreUp s.dev n = true ∧ c = cycleOf s.dev n ∧
      backNext s.dev n (spGet (fun _ => []) s.dev.har.backQ n) = none ∧ inQ s.dev n 2 = p :: t ∧ c.2 = false :=
  ⟨onDev fun d => setInQ d 2 2 [pk], 2, cycleOf (onDev fun d => setInQ d 2 2 [pk]).dev (2), pk, [], (by decide +kernel), rfl,
    (by decide +kernel), (by decide +kernel), (by decide +kernel)⟩

theorem wit_HarrowActions_2 :
    ∃ (s : State) (n : Nat) (c : Nat × Bool), ∃ (p : Pkt) (t : List Pkt) (d : Dev), acreUp s.dev n = true ∧ c = cycleOf s.dev n ∧
      backNext s.dev n (spGet (fun _ => []) s.dev.har.backQ n) = none ∧ (inQ s.dev n 2 = [] ∨ c.2 = true) ∧ inQ s.dev n 3 = p :: t ∧
      d = setInQ (setCycle s.dev n (c.1 + 1) c.2) n 3 t :=
  ⟨onDev fun d => setInQ d 2 3 [pk], 2, cycleOf (onDev fun d => setInQ d 2 3 [pk]).dev (2), pk, [],
    setInQ (setCycle (onDev fun d => setInQ d 2 3 [pk]).dev (2) ((cycleOf (onDev fun d => setInQ d 2 3 [pk]).dev (2)).1 + 1) (cycleOf (onDev fun d => setInQ d 2 3 [pk]).dev (2)).2) (2) 3 ([]),
    (by decide +kernel), rfl, (by decide +kernel), .inl (by decide +kernel), (by decide +kernel), rfl⟩

theorem wit_HarrowActions_3 :
    ∃ (s : State) (n : Nat) (c : Nat × Bool), ∃ (p : Pkt) (t : List Pkt), acreUp s.dev n = true ∧ c = cycleOf s.dev n ∧
      backNext s.dev n (spGet (fun _ => []) s.dev.har.backQ n) = none ∧ (inQ s.dev n 2 = [] ∨ c.2 = true) ∧ inQ s.dev n 3 = [] ∧
      inQ s.dev n 4 = p :: t :=
  ⟨onDev fun d => setInQ d 2 4 [pk], 2, cycleOf (onDev fun d => setInQ d 2 4 [pk]).dev (2), pk, [], (by decide +kernel), rfl,
    (by decide +kernel), .inl (by decide +kernel), (by decide +kernel), (by decide +kernel)⟩

theorem wit_HarrowActions_6 :
    ∃ (d : Dev) (n : Nat) (start : Nat) (p : Pkt), stValid d n start = false :=
  ⟨State.reset.dev, 2, 0, pk, (by decide +kernel)⟩

theorem wit_HarrowActions_7 :
    ∃ (d : Dev) (n : Nat) (p : Pkt) (k : Walk) (h : Nat) (act : Nat) (arg : Nat) (first : Option Nat), p.fromHost = false ∧
      holdingOpen d h = false :=
  ⟨State.reset.dev, 2, pk, walk State.reset.dev 2 0 pk, 0, 1, 9, none, (by decide +kernel), (by decide +kernel)⟩

theorem wit_HarrowActions_8 :
    ∃ (d : Dev) (n : Nat) (p : Pkt) (k : Walk) (h : Nat) (act : Nat) (arg : Nat) (first : Option Nat), holdingOpen d h = true :=
  ⟨wr State.reset.dev (Reg.HOLDING_OPEN 0) 1, 2, pk, walk State.reset.dev 2 0 pk, 0, 2, 9, none, (by decide +kernel)⟩

theorem wit_HarrowActions_9 :
    ∃ (d : Dev) (n : Nat) (p : Pkt) (k : Walk) (h : Nat) (act : Nat) (arg : Nat) (first : Option Nat), holdingOpen d h = true :=
  ⟨wr State.reset.dev (Reg.HOLDING_OPEN 0) 1, 2, pk, walk State.reset.dev 2 0 pk, 0, 2, 9, none, (by decide +kernel)⟩

theorem wit_HarrowActions_10 :
    ∃ (d : Dev) (n : Nat) (p : Pkt) (k : Walk) (h : Nat) (act : Nat) (arg : Nat) (first : Option Nat), holdingOpen d h = true :=
  ⟨wr State.reset.dev (Reg.HOLDING_OPEN 0) 1, 2, pk, walk State.reset.dev 2 0 pk, 0, 2, 9, none, (by decide +kernel)⟩

theorem wit_HarrowActions_11 :
    ∃ (d : Dev) (n : Nat) (p : Pkt) (k : Walk) (h : Nat) (act : Nat) (arg : Nat) (first : Option Nat), holdingOpen d h = true ∧
      k.err = 0 ∧ first = none :=
  ⟨wr State.reset.dev (Reg.HOLDING_OPEN 0) 1, 2, pk, { walk State.reset.dev 2 0 pk with err := 0 }, 0, 2, 9, none, (by decide +kernel),
    (by decide +kernel), (by decide +kernel)⟩

theorem wit_HarrowActions_12 :
    ∃ (s : State) (n : Nat) (k : Nat) (e : Pkt × Nat), n < 4 ∧ (heldQ s.dev n)[k]? = some e :=
  ⟨onDev fun d => setHeldQ d 3 [(pk, 5)], 3, 0, (pk, 5), (by decide +kernel), (by decide +kernel)⟩

theorem wit_HarrowActions_13 :
    ∃ (s : State) (n : Nat) (b : Nat), b < 2 ^ 14 :=
  ⟨State.reset, 3, 16383, (by decide +kernel)⟩

theorem wit_HarrowActions_14 :
    ∃ (s : State) (n : Nat) (l : PktRef) (rest : List (Nat × Nat × Nat)) (p : Pkt),
      backNext s.dev n (spGet (fun _ => []) s.dev.har.backQ n) = some (l, rest) ∧ getPkt s.dev l = some p ∧ p.loc = .reparse ∧
      pastDeadline s.dev l.a p = true :=
  ⟨onDev fun d => { setBackQ (putPkt d ⟨2, 1, 0⟩ { pk with loc := .reparse }) 2 [(1, 0, 0)] with time := 10000000 }, 2, PktRef.mk 2 1 0,
    [], { pk with loc := .reparse }, (by decide +kernel), (by decide +kernel), (by decide +kernel), (by decide +kernel)⟩

theorem wit_HarrowActions_15 :
    ∃ (s : State) (n : Nat) (l : PktRef) (rest : List (Nat × Nat × Nat)) (p : Pkt),
      backNext s.dev n (spGet (fun _ => []) s.dev.har.backQ n) = some (l, rest) ∧ getPkt s.dev l = some p ∧ p.loc = .reparse ∧
      pastDeadline s.dev l.a p = false ∧ (getFur s.dev l.a l.f).returnQ.length < 64 ∧ (∀ st, ecc s.dev .harrow (harStateKey l.a st) = 0) :=
  ⟨onDev fun d => setBackQ (putPkt d ⟨2, 1, 0⟩ { pk with loc := .reparse }) 2 [(1, 0, 0)], 2, PktRef.mk 2 1 0, [],
    { pk with loc := .reparse }, (by decide +kernel), (by decide +kernel), (by decide +kernel), (by decide +kernel), (by decide +kernel),
    (by intro st; rfl)⟩

theorem wit_HarrowActions_16 :
    ∃ (s : State) (agent : Nat) (n : Nat) (v : W64) (i : Nat) (w : Nat → Nat), n < 4 ∧ i = getF v Reg.HARROW_WCMD_INDEX ∧
      w = harWdata s.dev n ∧ ((∀ x, x < 3 → WriteReaches s.dev agent (Reg.HARROW_WCMD n) (setF v Reg.HARROW_WCMD_TABLE x) ∧
      FieldsInRange (Reg.HARROW_WCMD n) (setF v Reg.HARROW_WCMD_TABLE x))) ∧ i < 256 ∧ bits (w 0) 13 2 ≠ 3 ∧ bits (w 0) 52 2 ≠ 3 ∧
      bits (w 1) 34 2 ≠ 3 :=
  ⟨State.reset, 1, 3, setF 0 Reg.HARROW_WCMD_INDEX 255, getF (setF 0 Reg.HARROW_WCMD_INDEX 255) Reg.HARROW_WCMD_INDEX,
    harWdata (State.reset).dev (3), (by decide +kernel), rfl, rfl,
    (by intro x hx; have h : x = 0 ∨ x = 1 ∨ x = 2 := (by omega); rcases h with rfl | rfl | rfl <;> exact ⟨reaches_ok (by decide +kernel), by rfl⟩), (by decide +kernel), (by decide +kernel), (by decide +kernel), (by decide +kernel)⟩

theorem wit_HarrowActions_17 :
    ∃ (s : State) (agent : Nat) (n : Nat) (v : W64) (i : Nat) (w : Nat → Nat), n < 4 ∧ i = getF v Reg.HARROW_WCMD_INDEX ∧
      w = harWdata s.dev n ∧ ((∀ x, x < 3 → WriteReaches s.dev agent (Reg.HARROW_WCMD n) (setF v Reg.HARROW_WCMD_TABLE x) ∧
      FieldsInRange (Reg.HARROW_WCMD n) (setF v Reg.HARROW_WCMD_TABLE x))) ∧ i < 2048 ∧ bits (w 0) 40 2 ≠ 3 :=
  ⟨State.reset, 1, 3, setF 0 Reg.HARROW_WCMD_INDEX 2047, getF (setF 0 Reg.HARROW_WCMD_INDEX 2047) Reg.HARROW_WCMD_INDEX,
    harWdata (State.reset).dev (3), (by decide +kernel), rfl, rfl,
    (by intro x hx; have h : x = 0 ∨ x = 1 ∨ x = 2 := (by omega); rcases h with rfl | rfl | rfl <;> exact ⟨reaches_ok (by decide +kernel), by rfl⟩), (by decide +kernel), (by decide +kernel)⟩

theorem wit_HarrowActions_18 :
    ∃ (s : State) (agent : Nat) (n : Nat) (v : W64) (i : Nat) (w : Nat → Nat), n < 4 ∧ i = getF v Reg.HARROW_WCMD_INDEX ∧
      w = harWdata s.dev n ∧ ((∀ x, x < 3 → WriteReaches s.dev agent (Reg.HARROW_WCMD n) (setF v Reg.HARROW_WCMD_TABLE x) ∧
      FieldsInRange (Reg.HARROW_WCMD n) (setF v Reg.HARROW_WCMD_TABLE x))) ∧ i < 1024 ∧ bits (w 0) 44 2 ≠ 3 :=
  ⟨State.reset, 1, 3, setF 0 Reg.HARROW_WCMD_INDEX 1023, getF (setF 0 Reg.HARROW_WCMD_INDEX 1023) Reg.HARROW_WCMD_INDEX,
    harWdata (State.reset).dev (3), (by decide +kernel), rfl, rfl,
    (by intro x hx; have h : x = 0 ∨ x = 1 ∨ x = 2 := (by omega); rcases h with rfl | rfl | rfl <;> exact ⟨reaches_ok (by decide +kernel), by rfl⟩), (by decide +kernel), (by decide +kernel)⟩

theorem wit_HarrowActions_19 :
    ∃ (s : State) (agent : Nat) (n : Nat) (v : W64) (i : Nat) (w : Nat → Nat), n < 4 ∧ i = getF v Reg.HARROW_WCMD_INDEX ∧
      w = harWdata s.dev n ∧ ((∀ x, x < 3 → WriteReaches s.dev agent (Reg.HARROW_WCMD n) (setF v Reg.HARROW_WCMD_TABLE x) ∧
      FieldsInRange (Reg.HARROW_WCMD n) (setF v Reg.HARROW_WCMD_TABLE x))) ∧
      (255 < i ∨ bits (w 0) 13 2 = 3 ∨ bits (w 0) 52 2 = 3 ∨ bits (w 1) 34 2 = 3) :=
  ⟨State.reset, 1, 3, setF 0 Reg.HARROW_WCMD_INDEX 256, getF (setF 0 Reg.HARROW_WCMD_INDEX 256) Reg.HARROW_WCMD_INDEX,
    harWdata (State.reset).dev (3), (by decide +kernel), rfl, rfl,
    (by intro x hx; have h : x = 0 ∨ x = 1 ∨ x = 2 := (by omega); rcases h with rfl | rfl | rfl <;> exact ⟨reaches_ok (by decide +kernel), by rfl⟩), (by decide +kernel)⟩

theorem wit_HarrowActions_20 :
    ∃ (s : State) (agent : Nat) (n : Nat) (v : W64), n < 4 ∧ WriteReaches s.dev agent (Reg.HOLDING_OPEN n) v ∧
      FieldsInRange (Reg.HOLDING_OPEN n) v ∧ flagF s.dev Reg.HOST_HOLDING_STATUS Reg.HOST_HOLDING_STATUS_BUSY = false :=
  ⟨State.reset, 1, 3, BitVec.allOnes 64, (by decide +kernel), reaches_ok (by decide +kernel), (by rfl), (by decide +kernel)⟩

theorem wit_HarrowActions_21 :
    ∃ (s : State) (p : Pkt) (rest : List Pkt), spGet (fun _ => []) s.dev.har.puntQ 0 = p :: rest ∧ ((∀ a,
      0 < a → a < 4 → spGet (fun _ => []) s.dev.har.puntQ a = [])) ∧ pcGet p Pc.puntReason ≠ 3 ∧ pcGet p Pc.puntReason ≠ 4 ∧
      hasToken s.dev (pcGet p Pc.puntReason) = true ∧ hasToken s.dev 256 = true :=
  ⟨onDev fun d => { d with har := { d.har with puntQ := [(0, [pk])] } }, pk, [], (by decide +kernel),
    (by intro a h1 h2; have h : a = 1 ∨ a = 2 ∨ a = 3 := (by omega); rcases h with rfl | rfl | rfl <;> decide +kernel),
    (by decide +kernel), (by decide +kernel), (by decide +kernel), (by decide +kernel)⟩

theorem wit_HarrowActions_22 :
    ∃ (s : State) (p : Pkt) (rest : List Pkt), spGet (fun _ => []) s.dev.har.puntQ 0 = p :: rest ∧ ((∀ a,
      0 < a → a < 4 → spGet (fun _ => []) s.dev.har.puntQ a = [])) ∧ pcGet p Pc.puntReason ≠ 3 ∧ pcGet p Pc.puntReason ≠ 4 ∧
      hasToken s.dev (pcGet p Pc.puntReason) = false :=
  ⟨onDev fun d => { d with har := { d.har with puntQ := [(0, [pk])], tokens := [(0, 5)] } }, pk, [], (by decide +kernel),
    (by intro a h1 h2; have h : a = 1 ∨ a = 2 ∨ a = 3 := (by omega); rcases h with rfl | rfl | rfl <;> decide +kernel),
    (by decide +kernel), (by decide +kernel), (by decide +kernel)⟩

/-! O52, RowSteps. -/

theorem wit_RowSteps_1 :
    ∃ (s : State) (l : PktRef) (p : Pkt) (r : Nat) (u : Nat) (c : Instr) (taken : Bool), RowReady s.dev l p r u ∧ r < 23 ∧
      uSafe u = false ∧ pcGet p Pc.safeSteps < 48 ∧ taken = condTrue s.dev l p (uCond u) ∧ NoFlights s.dev l ∧
      ecc s.dev .nano (nanoKey (storeCopy s.dev l.a l.f) (pcGet p Pc.epoch) r (uNano u)) = 0 ∧
      nanoWord s.dev (storeCopy s.dev l.a l.f) (pcGet p Pc.epoch) r (uNano u) = 0 ∧
      (c, uSeq u) ∈ [(Instr.nop l, 0), (.next l, 1), (.branch l, 2), (.wait l, 3), (.callNextRow l, 4), (.exit l, 5), (.recirc l, 6), (.trap l, 7)] ∧
      ((uSeq u = 3 → taken = true)) ∧ ((uSeq u = 7 → taken = false)) :=
  ⟨onDev fun d => rowd 0xA0000000 pk (d), PktRef.mk 0 0 0, { pk with loc := .row 0 true }, 0, 0xA0000000, Instr.exit ⟨0, 0, 0⟩,
    condTrue (onDev fun d => rowd 0xA0000000 pk (d)).dev (PktRef.mk 0 0 0) ({ pk with loc := .row 0 true }) (uCond (0xA0000000)),
    ⟨(by decide +kernel), (by decide +kernel), (by decide +kernel), (by decide +kernel), .inl (by decide +kernel)⟩, (by decide +kernel),
    (by decide +kernel), (by decide +kernel), rfl,
    (show ∀ e ∈ (getFur (onDev fun d => rowd 0xA0000000 pk (d)).dev 0 0).inFlight, e.slot ≠ 0 from by decide +kernel),
    (by decide +kernel), (by decide +kernel), (by decide +kernel), (by decide +kernel), (by decide +kernel)⟩

theorem wit_RowSteps_2 :
    ∃ (s : State) (l : PktRef) (p : Pkt) (r : Nat) (u : Nat) (d : Dev) (q : Pkt), RowReady s.dev l p r u ∧ rowLand l r s.dev = d ∧
      getPkt d l = some q ∧ r < 23 ∧ uSafe u = false ∧ pcGet q Pc.safeSteps < 48 ∧ uSeq u = 0 :=
  ⟨onDev fun d => rowd 0 pk (d), PktRef.mk 0 0 0, { pk with loc := .row 0 true }, 0, 0, _, _,
    ⟨(by decide +kernel), (by decide +kernel), (by decide +kernel), (by decide +kernel), .inl (by decide +kernel)⟩, rfl,
    optSome (p := pk) (by decide +kernel), (by decide +kernel), (by decide +kernel), (by decide +kernel), (by decide +kernel)⟩

theorem wit_RowSteps_3 :
    ∃ (s : State) (l : PktRef) (p : Pkt) (r : Nat) (u : Nat) (d : Dev) (q : Pkt) (imm : Nat) (taken : Bool) (c : Instr),
      RowReady s.dev l p r u ∧ r < 23 ∧ uSafe u = false ∧ NanoRuns s.dev l p r u imm d q ∧
      (imm = (if uSeq u = 2 ∨ uSeq u = 7 then 0 else uImm u)) ∧ pcGet q Pc.safeSteps < 48 ∧ taken = condTrue s.dev l p (uCond u) ∧
      ((c, uSeq u) ∈ [(Instr.next l, 1), (.branch l, 2)] ∨ ((c, uSeq u) = (Instr.wait l, 3) ∧ taken = true) ∨ ((c, uSeq u) ∈ [(Instr.callNextRow l, 4), (.exit l, 5), (.recirc l, 6), (.trap l, 7)] ∧ taken = false)) :=
  ⟨onDev fun d => rowd 0x20000000 pk (d), PktRef.mk 0 0 0, { pk with loc := .row 0 true }, 0, 0x20000000, _, _,
    (if uSeq (0x20000000) = 2 ∨ uSeq (0x20000000) = 7 then 0 else uImm (0x20000000)),
    condTrue (onDev fun d => rowd 0x20000000 pk (d)).dev (PktRef.mk 0 0 0) ({ pk with loc := .row 0 true }) (uCond (0x20000000)),
    Instr.next ⟨0, 0, 0⟩, ⟨(by decide +kernel), (by decide +kernel), (by decide +kernel), (by decide +kernel), .inl (by decide +kernel)⟩,
    (by decide +kernel), (by decide +kernel),
    ⟨(by decide +kernel), (by decide +kernel), pairWith (by decide +kernel), optSome (p := pk) (by decide +kernel)⟩, rfl,
    (by decide +kernel), rfl, .inl (by decide +kernel)⟩

theorem wit_RowSteps_4 :
    ∃ (s : State) (l : PktRef) (p : Pkt) (r : Nat) (u : Nat) (d : Dev) (q : Pkt) (imm : Nat) (taken : Bool) (c : Instr),
      RowReady s.dev l p r u ∧ r < 23 ∧ uSafe u = false ∧ NanoRuns s.dev l p r u imm d q ∧
      (imm = (if uSeq u = 2 ∨ uSeq u = 7 then 0 else uImm u)) ∧ pcGet q Pc.safeSteps < 48 ∧ taken = condTrue s.dev l p (uCond u) ∧
      uSeq u = 4 ∧ taken = true :=
  ⟨onDev fun d => rowd 0x80000000 pk (d), PktRef.mk 0 0 0, { pk with loc := .row 0 true }, 0, 0x80000000, _, _,
    (if uSeq (0x80000000) = 2 ∨ uSeq (0x80000000) = 7 then 0 else uImm (0x80000000)),
    condTrue (onDev fun d => rowd 0x80000000 pk (d)).dev (PktRef.mk 0 0 0) ({ pk with loc := .row 0 true }) (uCond (0x80000000)),
    Instr.callNextRow ⟨0, 0, 0⟩,
    ⟨(by decide +kernel), (by decide +kernel), (by decide +kernel), (by decide +kernel), .inl (by decide +kernel)⟩, (by decide +kernel),
    (by decide +kernel), ⟨(by decide +kernel), (by decide +kernel), pairWith (by decide +kernel), optSome (p := pk) (by decide +kernel)⟩,
    rfl, (by decide +kernel), rfl, (by decide +kernel), rfl⟩

theorem wit_RowSteps_5 :
    ∃ (s : State) (l : PktRef) (p : Pkt) (r : Nat) (u : Nat) (d : Dev) (q : Pkt) (imm : Nat) (taken : Bool) (c : Instr),
      RowReady s.dev l p r u ∧ r < 23 ∧ uSafe u = false ∧ NanoRuns s.dev l p r u imm d q ∧
      (imm = (if uSeq u = 2 ∨ uSeq u = 7 then 0 else uImm u)) ∧ pcGet q Pc.safeSteps < 48 ∧ taken = condTrue s.dev l p (uCond u) ∧
      uSeq u = 5 ∧ taken = true :=
  ⟨onDev fun d => rowd 0xA0000000 pk (d), PktRef.mk 0 0 0, { pk with loc := .row 0 true }, 0, 0xA0000000, _, _,
    (if uSeq (0xA0000000) = 2 ∨ uSeq (0xA0000000) = 7 then 0 else uImm (0xA0000000)),
    condTrue (onDev fun d => rowd 0xA0000000 pk (d)).dev (PktRef.mk 0 0 0) ({ pk with loc := .row 0 true }) (uCond (0xA0000000)),
    Instr.exit ⟨0, 0, 0⟩, ⟨(by decide +kernel), (by decide +kernel), (by decide +kernel), (by decide +kernel), .inl (by decide +kernel)⟩,
    (by decide +kernel), (by decide +kernel),
    ⟨(by decide +kernel), (by decide +kernel), pairWith (by decide +kernel), optSome (p := pk) (by decide +kernel)⟩, rfl,
    (by decide +kernel), rfl, (by decide +kernel), rfl⟩

theorem wit_RowSteps_6 :
    ∃ (s : State) (l : PktRef) (p : Pkt) (r : Nat) (u : Nat) (d : Dev) (q : Pkt) (imm : Nat) (taken : Bool) (c : Instr),
      RowReady s.dev l p r u ∧ r < 23 ∧ uSafe u = false ∧ NanoRuns s.dev l p r u imm d q ∧
      (imm = (if uSeq u = 2 ∨ uSeq u = 7 then 0 else uImm u)) ∧ pcGet q Pc.safeSteps < 48 ∧ taken = condTrue s.dev l p (uCond u) ∧
      uSeq u = 6 ∧ taken = true :=
  ⟨onDev fun d => rowd 0xC0000000 pk (d), PktRef.mk 0 0 0, { pk with loc := .row 0 true }, 0, 0xC0000000, _, _,
    (if uSeq (0xC0000000) = 2 ∨ uSeq (0xC0000000) = 7 then 0 else uImm (0xC0000000)),
    condTrue (onDev fun d => rowd 0xC0000000 pk (d)).dev (PktRef.mk 0 0 0) ({ pk with loc := .row 0 true }) (uCond (0xC0000000)),
    Instr.recirc ⟨0, 0, 0⟩,
    ⟨(by decide +kernel), (by decide +kernel), (by decide +kernel), (by decide +kernel), .inl (by decide +kernel)⟩, (by decide +kernel),
    (by decide +kernel), ⟨(by decide +kernel), (by decide +kernel), pairWith (by decide +kernel), optSome (p := pk) (by decide +kernel)⟩,
    rfl, (by decide +kernel), rfl, (by decide +kernel), rfl⟩

theorem wit_RowSteps_7 :
    ∃ (s : State) (l : PktRef) (p : Pkt) (r : Nat) (start : Nat) (safe : Bool), getPkt s.dev l = some p ∧ p.loc = .row r false ∧
      p.ride = some (start, safe) ∧ NoFlights s.dev l ∧ r < 23 :=
  ⟨onDev fun d => putPkt d ⟨0, 0, 0⟩ { pcSet pk Pc.disposition 5 with loc := .row 22 false, ride := some (5, false) }, PktRef.mk 0 0 0,
    { pcSet pk Pc.disposition 5 with loc := .row 22 false, ride := some (5, false) }, 22, 5, false, (by decide +kernel),
    (by decide +kernel), (by decide +kernel),
    (show ∀ e ∈ (getFur (onDev fun d => putPkt d ⟨0, 0, 0⟩ { pcSet pk Pc.disposition 5 with loc := .row 22 false, ride := some (5, false) }).dev 0 0).inFlight, e.slot ≠ 0 from by decide +kernel),
    (by decide +kernel)⟩

theorem wit_RowSteps_8 :
    ∃ (s : State) (l : PktRef) (p : Pkt) (r : Nat) (start : Nat) (safe : Bool), getPkt s.dev l = some p ∧ p.loc = .row r false ∧
      p.ride = some (start, safe) ∧ NoFlights s.dev l ∧ r = 23 ∧ pcGet p Pc.disposition = 5 ∧ quiesceDrop s.dev l p = none :=
  ⟨onDev fun d => putPkt d ⟨0, 0, 0⟩ { pcSet pk Pc.disposition 5 with loc := .row 23 false, ride := some (5, false) }, PktRef.mk 0 0 0,
    { pcSet pk Pc.disposition 5 with loc := .row 23 false, ride := some (5, false) }, 23, 5, false, (by decide +kernel),
    (by decide +kernel), (by decide +kernel),
    (show ∀ e ∈ (getFur (onDev fun d => putPkt d ⟨0, 0, 0⟩ { pcSet pk Pc.disposition 5 with loc := .row 23 false, ride := some (5, false) }).dev 0 0).inFlight, e.slot ≠ 0 from by decide +kernel),
    (by decide +kernel), (by decide +kernel), (by decide +kernel)⟩

theorem wit_RowSteps_9 :
    ∃ (s : State) (l : PktRef) (p : Pkt) (r : Nat) (start : Nat) (safe : Bool), getPkt s.dev l = some p ∧ p.loc = .row r false ∧
      p.ride = some (start, safe) ∧ NoFlights s.dev l ∧ r = 23 ∧ pcGet p Pc.disposition = 6 ∧ pcGet p Pc.pass < 3 ∧
      (getFur s.dev l.a l.f).returnQ.length < 64 :=
  ⟨onDev fun d => putPkt d ⟨0, 0, 0⟩ { pcSet pk Pc.disposition 6 with loc := .row 23 false, ride := some (5, false) }, PktRef.mk 0 0 0,
    { pcSet pk Pc.disposition 6 with loc := .row 23 false, ride := some (5, false) }, 23, 5, false, (by decide +kernel),
    (by decide +kernel), (by decide +kernel),
    (show ∀ e ∈ (getFur (onDev fun d => putPkt d ⟨0, 0, 0⟩ { pcSet pk Pc.disposition 6 with loc := .row 23 false, ride := some (5, false) }).dev 0 0).inFlight, e.slot ≠ 0 from by decide +kernel),
    (by decide +kernel), (by decide +kernel), (by decide +kernel), (by decide +kernel)⟩

theorem wit_RowSteps_10 :
    ∃ (d : Dev) (l : PktRef) (p : Pkt) (r : Nat) (u : Nat) (next : Nat) (taken : Bool), uSafe u = true ∧ quiesceDrop d l p = none ∧
      profilePending d = false ∧ r < 23 ∧ uSeq u < 4 :=
  ⟨State.reset.dev, PktRef.mk 0 0 0, pk, 22, 1, 7, false, (by decide +kernel), (by decide +kernel), (by decide +kernel),
    (by decide +kernel), (by decide +kernel)⟩

theorem wit_RowSteps_11 :
    ∃ (s : State) (l : PktRef) (p : Pkt) (r : Nat) (u : Nat), RowReady s.dev l p r u ∧ uSeq u = 3 ∧ condTrue s.dev l p (uCond u) = false ∧
      parkedIn (getFur s.dev l.a l.f) r < 64 :=
  ⟨onDev fun d => rowd 0x60800000 pk (d), PktRef.mk 0 0 0, { pk with loc := .row 0 true }, 0, 0x60800000,
    ⟨(by decide +kernel), (by decide +kernel), (by decide +kernel), (by decide +kernel), .inl (by decide +kernel)⟩, (by decide +kernel),
    (by decide +kernel), (by decide +kernel)⟩

theorem wit_RowSteps_12 :
    ∃ (s : State) (l : PktRef) (p : Pkt) (r : Nat) (u : Nat), RowReady s.dev l p r u ∧ uSeq u = 3 ∧ condTrue s.dev l p (uCond u) = false ∧
      64 ≤ parkedIn (getFur s.dev l.a l.f) r :=
  ⟨onDev fun d => rowd 0x60800000 pk (putFur d 0 0 { getFur d 0 0 with pkts := (List.range 64).map fun i => (i + 1, some { pk with loc := .park 0 5 }) }),
    PktRef.mk 0 0 0, { pk with loc := .row 0 true }, 0, 0x60800000,
    ⟨(by decide +kernel), (by decide +kernel), (by decide +kernel), (by decide +kernel), .inl (by decide +kernel)⟩, (by decide +kernel),
    (by decide +kernel), (by decide +kernel)⟩

theorem wit_RowSteps_13 :
    ∃ (s : State) (l : PktRef) (p : Pkt) (r : Nat) (u : Nat) (d : Dev) (q : Pkt), getPkt s.dev l = some p ∧
      u = microWord s.dev (storeCopy s.dev l.a l.f) (pcGet p Pc.epoch) r (pcGet p Pc.upc) ∧
      ecc s.dev .micro (microKey (storeCopy s.dev l.a l.f) (pcGet p Pc.epoch) r (pcGet p Pc.upc)) = 0 ∧ p.loc = .row r true ∧
      p.waitTaken = true ∧ p.ride = none ∧ uSeq u = 3 ∧ r < 23 ∧ uSafe u = false ∧ NanoRuns s.dev l p r u (uImm u) d q ∧
      pcGet q Pc.safeSteps < 48 :=
  ⟨onDev fun d => rowd 0x60800000 ({ pk with waitTaken := true }) (d), PktRef.mk 0 0 0,
    { { pk with waitTaken := true } with loc := .row 0 true }, 0, 0x60800000, _, _, (by decide +kernel), (by decide +kernel),
    (by decide +kernel), (by decide +kernel), (by decide +kernel), (by decide +kernel), (by decide +kernel), (by decide +kernel),
    (by decide +kernel), ⟨(by decide +kernel), (by decide +kernel), pairWith (by decide +kernel), optSome (p := pk) (by decide +kernel)⟩,
    (by decide +kernel)⟩

theorem wit_RowSteps_14 :
    ∃ (s : State) (l : PktRef) (p : Pkt) (r : Nat) (u : Nat), RowReady s.dev l p r u ∧ uSeq u = 7 ∧ condTrue s.dev l p (uCond u) = true :=
  ⟨onDev fun d => rowd 0xE0000000 pk (d), PktRef.mk 0 0 0, { pk with loc := .row 0 true }, 0, 0xE0000000,
    ⟨(by decide +kernel), (by decide +kernel), (by decide +kernel), (by decide +kernel), .inl (by decide +kernel)⟩, (by decide +kernel),
    (by decide +kernel)⟩

theorem wit_RowSteps_15 :
    ∃ (s : State) (l : PktRef) (p : Pkt) (r : Nat) (u : Nat), RowReady s.dev l p r u ∧ uSeq u = 1 ∧
      ecc s.dev .nano (nanoKey (storeCopy s.dev l.a l.f) (pcGet p Pc.epoch) r (uNano u)) = 0 ∧
      nanoBad p (nanoWord s.dev (storeCopy s.dev l.a l.f) (pcGet p Pc.epoch) r (uNano u)) = true :=
  ⟨onDev fun d => rowd 0x20000000 pk ({ d with prog := { d.prog with nano := [(nanoKey 0 0 0 0, 2 ^ 512 - 1)] } }), PktRef.mk 0 0 0,
    { pk with loc := .row 0 true }, 0, 0x20000000,
    ⟨(by decide +kernel), (by decide +kernel), (by decide +kernel), (by decide +kernel), .inl (by decide +kernel)⟩, (by decide +kernel),
    (by decide +kernel), (by decide +kernel)⟩

theorem wit_RowSteps_16 :
    ∃ (s : State) (l : PktRef) (p : Pkt) (r : Nat), getPkt s.dev l = some p ∧ p.loc = .row r true ∧ p.ride = none ∧
      uSeq (microWord s.dev (storeCopy s.dev l.a l.f) (pcGet p Pc.epoch) r (pcGet p Pc.upc)) = 0 ∧
      ecc s.dev .micro (microKey (storeCopy s.dev l.a l.f) (pcGet p Pc.epoch) r (pcGet p Pc.upc)) = 2 :=
  ⟨onDev fun d => setEcc (rowd 0 pk d) .micro (microKey 0 0 0 0) 2, PktRef.mk 0 0 0, { pk with loc := .row 0 true }, 0,
    (by decide +kernel), (by decide +kernel), (by decide +kernel), (by decide +kernel), (by decide +kernel)⟩

/-! O53, FurrowFlow. -/

theorem wit_FurrowFlow_0 :
    ∃ (s : State) (a : Nat) (f : Nat) (x : Furrow), ∃ (k : Nat) (t : List Nat) (p : Pkt), x = getFur s.dev a f ∧ a < 4 ∧ f < 17 ∧
      roleOf s.dev a f = 0 ∧ x.fatal = none ∧ flagF s.dev Reg.FAULT_INJECT Reg.FAULT_INJECT_PENDING = false ∧ x.returnQ = k :: t ∧
      getPkt s.dev ⟨a, f, k⟩ = some p ∧ p.safeHold = false :=
  ⟨onDev fun d => putFur d 0 3 { getFur d 0 3 with returnQ := [5], pkts := [(5, some { pk with loc := .returning })] }, 0, 3,
    getFur (onDev fun d => putFur d 0 3 { getFur d 0 3 with returnQ := [5], pkts := [(5, some { pk with loc := .returning })] }).dev (0) (3), 5, [], { pk with loc := .returning }, rfl, (by decide +kernel), (by decide +kernel), (by decide +kernel), (by decide +kernel), (by decide +kernel), (by decide +kernel), (by decide +kernel), (by decide +kernel)⟩

theorem wit_FurrowFlow_1 :
    ∃ (s : State) (a : Nat) (f : Nat) (x : Furrow), ∃ (p : Pkt) (t : List Pkt), x = getFur s.dev a f ∧ a < 4 ∧ f < 17 ∧
      roleOf s.dev a f = 0 ∧ x.fatal = none ∧ flagF s.dev Reg.FAULT_INJECT Reg.FAULT_INJECT_PENDING = false ∧ x.returnQ = [] ∧
      x.bubble = false ∧ profilePending s.dev = false ∧ (getAcre s.dev a).released.find? (fun e => e.1 = f) = none ∧
      x.entryQ = p :: t ∧ calendarStops s.dev = false ∧ flagF s.dev Reg.PROG_EPOCH Reg.PROG_EPOCH_ACTIVE_VALID = true ∧
      x.isolating = false ∧ flagF s.dev Reg.HOST_HOLDING_STATUS Reg.HOST_HOLDING_STATUS_BUSY = false ∧
      (domainPkts x (pcGet p Pc.flowHash % 4096)).length < 64 ∧ (freeCtxSlot x).isSome = true :=
  ⟨onDev fun d => wrF (putFur d 0 3 { getFur d 0 3 with entryQ := [pk] }) Reg.PROG_EPOCH Reg.PROG_EPOCH_ACTIVE_VALID 1, 0, 3,
    getFur (onDev fun d => wrF (putFur d 0 3 { getFur d 0 3 with entryQ := [pk] }) Reg.PROG_EPOCH Reg.PROG_EPOCH_ACTIVE_VALID 1).dev (0) (3), pk, [], rfl, (by decide +kernel), (by decide +kernel), (by decide +kernel), (by decide +kernel), (by decide +kernel), (by decide +kernel), (by decide +kernel), (by decide +kernel), (by decide +kernel), (by decide +kernel), (by decide +kernel), (by decide +kernel), (by decide +kernel), (by decide +kernel), (by decide +kernel), (by decide +kernel)⟩

theorem wit_FurrowFlow_2 :
    ∃ (s : State) (a : Nat) (f : Nat) (x : Furrow), ∃ (p : Pkt) (t : List Pkt), x = getFur s.dev a f ∧ a < 4 ∧ f < 17 ∧
      roleOf s.dev a f = 0 ∧ x.fatal = none ∧ flagF s.dev Reg.FAULT_INJECT Reg.FAULT_INJECT_PENDING = false ∧ x.returnQ = [] ∧
      x.bubble = false ∧ profilePending s.dev = false ∧ (getAcre s.dev a).released.find? (fun e => e.1 = f) = none ∧
      x.entryQ = p :: t ∧ calendarStops s.dev = false ∧ flagF s.dev Reg.PROG_EPOCH Reg.PROG_EPOCH_ACTIVE_VALID = false :=
  ⟨onDev fun d => putFur d 0 3 { getFur d 0 3 with entryQ := [pk] }, 0, 3,
    getFur (onDev fun d => putFur d 0 3 { getFur d 0 3 with entryQ := [pk] }).dev (0) (3), pk, [], rfl, (by decide +kernel),
    (by decide +kernel), (by decide +kernel), (by decide +kernel), (by decide +kernel), (by decide +kernel), (by decide +kernel),
    (by decide +kernel), (by decide +kernel), (by decide +kernel), (by decide +kernel), (by decide +kernel)⟩

theorem wit_FurrowFlow_3 :
    ∃ (s : State) (a : Nat) (f : Nat) (x : Furrow), ∃ (p : Pkt) (t : List Pkt), x = getFur s.dev a f ∧ a < 4 ∧ f < 17 ∧
      roleOf s.dev a f = 0 ∧ x.fatal = none ∧ flagF s.dev Reg.FAULT_INJECT Reg.FAULT_INJECT_PENDING = false ∧ x.returnQ = [] ∧
      x.bubble = false ∧ profilePending s.dev = false ∧ (getAcre s.dev a).released.find? (fun e => e.1 = f) = none ∧
      x.entryQ = p :: t ∧ calendarStops s.dev = false ∧ flagF s.dev Reg.PROG_EPOCH Reg.PROG_EPOCH_ACTIVE_VALID = true ∧
      64 ≤ (domainPkts x (pcGet p Pc.flowHash % 4096)).length :=
  ⟨onDev fun d => wrF (putFur d 0 3 { getFur d 0 3 with entryQ := [pk], pkts := (List.range 64).map fun i => (i, some pk) }) Reg.PROG_EPOCH Reg.PROG_EPOCH_ACTIVE_VALID 1, 0, 3, getFur (onDev fun d => wrF (putFur d 0 3 { getFur d 0 3 with entryQ := [pk], pkts := (List.range 64).map fun i => (i, some pk) }) Reg.PROG_EPOCH Reg.PROG_EPOCH_ACTIVE_VALID 1).dev (0) (3), pk, [], rfl, (by decide +kernel), (by decide +kernel), (by decide +kernel), (by decide +kernel), (by decide +kernel), (by decide +kernel), (by decide +kernel), (by decide +kernel), (by decide +kernel), (by decide +kernel), (by decide +kernel), (by decide +kernel), (by decide +kernel)⟩

theorem wit_FurrowFlow_4 :
    ∃ (s : State) (a : Nat) (f : Nat) (x : Furrow), ∃ (e : Nat × Pkt), x = getFur s.dev a f ∧ a < 4 ∧ f < 17 ∧ roleOf s.dev a f = 0 ∧
      x.fatal = none ∧ flagF s.dev Reg.FAULT_INJECT Reg.FAULT_INJECT_PENDING = false ∧ x.returnQ = [] ∧ x.bubble = false ∧
      profilePending s.dev = false ∧ (getAcre s.dev a).released.find? (fun e => e.1 = f) = some e ∧ calendarStops s.dev = false ∧
      x.isolating = false ∧ flagF s.dev Reg.HOST_HOLDING_STATUS Reg.HOST_HOLDING_STATUS_BUSY = false ∧
      (domainPkts x (pcGet e.2 Pc.flowHash % 4096)).length < 64 ∧ (freeCtxSlot x).isSome = true :=
  ⟨onDev fun d => putAcre d 0 { getAcre d 0 with released := [(3, pk)] }, 0, 3,
    getFur (onDev fun d => putAcre d 0 { getAcre d 0 with released := [(3, pk)] }).dev (0) (3), (3, pk), rfl, (by decide +kernel),
    (by decide +kernel), (by decide +kernel), (by decide +kernel), (by decide +kernel), (by decide +kernel), (by decide +kernel),
    (by decide +kernel), (by decide +kernel), (by decide +kernel), (by decide +kernel), (by decide +kernel), (by decide +kernel),
    (by decide +kernel)⟩

theorem wit_FurrowFlow_5 :
    ∃ (s : State) (l : PktRef) (p : Pkt) (r : Nat) (c : Nat), getPkt s.dev l = some p ∧ p.loc = .park r c ∧ c < 64 ∧
      condTrue s.dev l p c = true ∧ isHead (getFur s.dev l.a l.f) l.slot r p = true :=
  ⟨onDev fun d => putPkt d ⟨0, 3, 0⟩ { pk with loc := .park 7 0 }, PktRef.mk 0 3 0, { pk with loc := .park 7 0 }, 7, 0,
    (by decide +kernel), (by decide +kernel), (by decide +kernel), (by decide +kernel), (by decide +kernel)⟩

theorem wit_FurrowFlow_6 :
    ∃ (s : State) (l : PktRef) (p : Pkt) (r : Nat) (c : Nat), getPkt s.dev l = some p ∧ p.loc = .park r c ∧ c < 64 ∧
      condTrue s.dev l p c = true ∧ isHead (getFur s.dev l.a l.f) l.slot r p = true ∧ wokenBefore s.dev l r p = true :=
  ⟨onDev fun d => putPkt (putPkt d ⟨0, 3, 0⟩ { pk with loc := .park 7 0, parkSeq := 2 }) ⟨0, 3, 1⟩ { pcSet pk Pc.domain 5 with loc := .wokenWait 7 false, parkSeq := 1 },
    PktRef.mk 0 3 0, { pk with loc := .park 7 0, parkSeq := 2 }, 7, 0, (by decide +kernel), (by decide +kernel), (by decide +kernel),
    (by decide +kernel), (by decide +kernel), (by decide +kernel)⟩

theorem wit_FurrowFlow_7 :
    ∃ (s : State) (l : PktRef) (p : Pkt) (r : Nat) (c : Nat), getPkt s.dev l = some p ∧ p.loc = .park r c ∧ c < 64 ∧
      condTrue s.dev l p c = true ∧ isHead (getFur s.dev l.a l.f) l.slot r p = true ∧ wokenBefore s.dev l r p = false :=
  ⟨onDev fun d => putPkt d ⟨0, 3, 0⟩ { pk with loc := .park 7 0 }, PktRef.mk 0 3 0, { pk with loc := .park 7 0 }, 7, 0,
    (by decide +kernel), (by decide +kernel), (by decide +kernel), (by decide +kernel), (by decide +kernel), (by decide +kernel)⟩

theorem wit_FurrowFlow_8 :
    ∃ (s : State) (l : PktRef) (p : Pkt) (r : Nat) (b : Bool), getPkt s.dev l = some p ∧ p.loc = .wokenWait r b :=
  ⟨onDev fun d => putPkt d ⟨0, 3, 0⟩ { pk with loc := .wokenWait 7 true }, PktRef.mk 0 3 0, { pk with loc := .wokenWait 7 true }, 7, true,
    (by decide +kernel), (by decide +kernel)⟩

theorem wit_FurrowFlow_9 :
    ∃ (s : State) (l : PktRef) (p : Pkt) (r : Nat) (b : Bool), getPkt s.dev l = some p ∧ p.loc = .wokenWait r b ∧
      wokenBefore s.dev l r p = true :=
  ⟨onDev fun d => putPkt (putPkt d ⟨0, 3, 0⟩ { pk with loc := .wokenWait 7 true, parkSeq := 2 }) ⟨0, 3, 1⟩ { pcSet pk Pc.domain 5 with loc := .wokenWait 7 false, parkSeq := 1 },
    PktRef.mk 0 3 0, { pk with loc := .wokenWait 7 true, parkSeq := 2 }, 7, true, (by decide +kernel), (by decide +kernel),
    (by decide +kernel)⟩

theorem wit_FurrowFlow_10 :
    ∃ (s : State) (l : PktRef) (p : Pkt) (r : Nat) (b : Bool), getPkt s.dev l = some p ∧ p.loc = .wokenWait r b ∧
      wokenBefore s.dev l r p = false :=
  ⟨onDev fun d => putPkt d ⟨0, 3, 0⟩ { pk with loc := .wokenWait 7 true }, PktRef.mk 0 3 0, { pk with loc := .wokenWait 7 true }, 7, true,
    (by decide +kernel), (by decide +kernel), (by decide +kernel)⟩

theorem wit_FurrowFlow_11 :
    ∃ (s : State) (l : PktRef) (p : Pkt) (r : Nat) (c : Nat) (cls : Nat), getPkt s.dev l = some p ∧ p.loc = .park r c ∧ c < 64 ∧
      (condTrue s.dev l p c = false ∨ isHead (getFur s.dev l.a l.f) l.slot r p = false) :=
  ⟨onDev fun d => putPkt d ⟨0, 3, 0⟩ { pk with loc := .park 7 1 }, PktRef.mk 0 3 0, { pk with loc := .park 7 1 }, 7, 1, 1,
    (by decide +kernel), (by decide +kernel), (by decide +kernel), .inl (by decide +kernel)⟩

theorem wit_FurrowFlow_12 :
    ∃ (s : State) (l : PktRef) (p : Pkt) (r : Nat), getPkt s.dev l = some p ∧ p.loc = .wokenWait r false :=
  ⟨onDev fun d => putPkt d ⟨0, 3, 0⟩ { pk with loc := .wokenWait 7 false }, PktRef.mk 0 3 0, { pk with loc := .wokenWait 7 false }, 7,
    (by decide +kernel), (by decide +kernel)⟩

theorem wit_FurrowFlow_13 :
    ∃ (s : State) (l : PktRef) (p : Pkt), getPkt s.dev l = some p ∧ p.loc = .exitHold ∧
      hasEarlier (getFur s.dev l.a l.f) l.slot p = true :=
  ⟨onDev fun d => putPkt (putPkt d ⟨0, 3, 0⟩ { pk with loc := .exitHold, seq := 1 }) ⟨0, 3, 1⟩ { pk with seq := 0 }, PktRef.mk 0 3 0,
    { pk with loc := .exitHold, seq := 1 }, (by decide +kernel), (by decide +kernel), (by decide +kernel)⟩

theorem wit_FurrowFlow_14 :
    ∃ (s : State) (l : PktRef) (p : Pkt), getPkt s.dev l = some p ∧ p.loc = .exitHold ∧
      hasEarlier (getFur s.dev l.a l.f) l.slot p = false ∧ p.rehashDrop = true :=
  ⟨onDev fun d => putPkt d ⟨0, 3, 0⟩ { { pk with rehashDrop := true } with loc := .exitHold }, PktRef.mk 0 3 0,
    { { pk with rehashDrop := true } with loc := .exitHold }, (by decide +kernel), (by decide +kernel), (by decide +kernel),
    (by decide +kernel)⟩

theorem wit_FurrowFlow_15 :
    ∃ (s : State) (l : PktRef) (p : Pkt), getPkt s.dev l = some p ∧ p.loc = .exitHold ∧
      hasEarlier (getFur s.dev l.a l.f) l.slot p = false ∧ p.rehashDrop = false ∧ pcGet p Pc.disposition ≠ 4 ∧ p.mirrorTo = none :=
  ⟨onDev fun d => putPkt d ⟨0, 3, 0⟩ { pk with loc := .exitHold }, PktRef.mk 0 3 0, { pk with loc := .exitHold }, (by decide +kernel),
    (by decide +kernel), (by decide +kernel), (by decide +kernel), (by decide +kernel), (by decide +kernel)⟩

theorem wit_FurrowFlow_16 :
    ∃ (s : State) (l : PktRef) (p : Pkt), getPkt s.dev l = some p ∧ p.loc = .exitHold ∧
      hasEarlier (getFur s.dev l.a l.f) l.slot p = false ∧ p.rehashDrop = false ∧ pcGet p Pc.disposition = 4 ∧
      (spGet (fun _ => []) s.dev.har.puntQ l.a).length < 256 :=
  ⟨onDev fun d => putPkt d ⟨0, 3, 0⟩ { pcSet pk Pc.disposition 4 with loc := .exitHold }, PktRef.mk 0 3 0,
    { pcSet pk Pc.disposition 4 with loc := .exitHold }, (by decide +kernel), (by decide +kernel), (by decide +kernel),
    (by decide +kernel), (by decide +kernel), (by decide +kernel)⟩

theorem wit_FurrowFlow_17 :
    ∃ (s : State) (l : PktRef) (p : Pkt), getPkt s.dev l = some p ∧
      (p.loc = .atRind ∨ p.loc = .reparse ∨ s.dev.time - pcGet p Pc.entryTime ≤ rdF s.dev (Reg.PKT_DEADLINE l.a) Reg.PKT_DEADLINE_NS) :=
  ⟨onDev fun d => putPkt d ⟨0, 3, 0⟩ { pk with loc := .row 7 false }, PktRef.mk 0 3 0, { pk with loc := .row 7 false },
    (by decide +kernel), .inr (.inr (by decide +kernel))⟩

theorem wit_FurrowFlow_18 :
    ∃ (s : State) (l : PktRef) (p : Pkt), getPkt s.dev l = some p ∧ p.loc ≠ .atRind ∧ p.loc ≠ .reparse ∧
      rdF s.dev (Reg.PKT_DEADLINE l.a) Reg.PKT_DEADLINE_NS < s.dev.time - pcGet p Pc.entryTime :=
  ⟨onDev fun d => { putPkt d ⟨0, 3, 0⟩ { pk with loc := .row 7 false } with time := 2 ^ 40 }, PktRef.mk 0 3 0,
    { pk with loc := .row 7 false }, (by decide +kernel), (by decide +kernel), (by decide +kernel), (by decide +kernel)⟩

theorem wit_FurrowFlow_19 :
    ∃ (s : State) (l : PktRef) (p : Pkt) (r : Nat), getPkt s.dev l = some p ∧ rowOf p = some r ∧ p.ride = none ∧
      48 ≤ pcGet p Pc.safeSteps ∧ uSafe (microWord s.dev (storeCopy s.dev l.a l.f) (pcGet p Pc.epoch) r (pcGet p Pc.upc)) = false :=
  ⟨onDev fun d => putPkt d ⟨0, 3, 0⟩ { pcSet pk Pc.safeSteps 48 with loc := .row 7 false }, PktRef.mk 0 3 0,
    { pcSet pk Pc.safeSteps 48 with loc := .row 7 false }, 7, (by decide +kernel), (by decide +kernel), (by decide +kernel),
    (by decide +kernel), (by decide +kernel)⟩

/-! O54, ProgramBanks. -/

theorem wit_ProgramBanks_0 :
    ∃ (s : State) (agent : Nat) (r : Nat) (k : Nat) (v : W64) (b : Nat), r < 24 ∧ k < 512 ∧ b = windowBank s.dev ∧
      WriteReaches s.dev agent (0x2000000 + 8 * (0x2000 * r + k)) v ∧ flagF s.dev Reg.FAULT_INJECT Reg.FAULT_INJECT_PENDING = false ∧
      bankState s.dev b = 0 :=
  ⟨State.reset, 1, 23, 511, 5, windowBank (State.reset).dev, (by decide +kernel), (by decide +kernel), rfl,
    reaches_ok (by decide +kernel), (by decide +kernel), (by decide +kernel)⟩

theorem wit_ProgramBanks_1 :
    ∃ (s : State) (agent : Nat) (r : Nat) (k : Nat) (v : W64) (b : Nat), r < 24 ∧ k < 512 ∧ b = windowBank s.dev ∧
      WriteReaches s.dev agent (0x2000000 + 8 * (0x2000 * r + k)) v ∧ flagF s.dev Reg.FAULT_INJECT Reg.FAULT_INJECT_PENDING = false ∧
      bankState s.dev b ≠ 0 :=
  ⟨onDev fun d => setBank d 0 2, 1, 23, 511, 5, windowBank (onDev fun d => setBank d 0 2).dev, (by decide +kernel),
    (by decide +kernel), rfl, reaches_ok (by decide +kernel), (by decide +kernel), (by decide +kernel)⟩

theorem wit_ProgramBanks_2 :
    ∃ (s : State) (agent : Nat) (b : Nat), b = windowBank s.dev ∧ (∀ v, WriteReaches s.dev agent Reg.PROG_LOAD v) ∧
      bankState s.dev b = 0 :=
  ⟨State.reset, 1, windowBank (State.reset).dev, rfl,
    (by intro v; exact ⟨(by decide +kernel), (by decide +kernel), csrParity_idle (by decide +kernel) .., (by rfl), (by rfl), (by decide +kernel)⟩), (by decide +kernel)⟩

theorem wit_ProgramBanks_3 :
    ∃ (s : State) (agent : Nat) (b : Nat), b = windowBank s.dev ∧ (∀ v, WriteReaches s.dev agent Reg.PROG_LOAD v) ∧
      bankState s.dev b ≠ 0 :=
  ⟨onDev fun d => setBank d 0 2, 1, windowBank (onDev fun d => setBank d 0 2).dev, rfl,
    (by intro v; exact ⟨(by decide +kernel), (by decide +kernel), csrParity_idle (by decide +kernel) .., (by rfl), (by rfl), (by decide +kernel)⟩), (by decide +kernel)⟩

theorem wit_ProgramBanks_4 :
    ∃ (s : State) (agent : Nat) (b : Nat), b = windowBank s.dev ∧ (∀ v, WriteReaches s.dev agent Reg.PROG_LOAD v) ∧
      bankState s.dev b = 2 ∧ flagF s.dev Reg.PROG_EPOCH Reg.PROG_EPOCH_SWITCH_PENDING = false :=
  ⟨onDev fun d => setBank d 0 2, 1, windowBank (onDev fun d => setBank d 0 2).dev, rfl,
    (by intro v; exact ⟨(by decide +kernel), (by decide +kernel), csrParity_idle (by decide +kernel) .., (by rfl), (by rfl), (by decide +kernel)⟩), (by decide +kernel), (by decide +kernel)⟩

theorem wit_ProgramBanks_5 :
    ∃ (s : State) (agent : Nat) (b : Nat), b = windowBank s.dev ∧ (∀ v, WriteReaches s.dev agent Reg.PROG_LOAD v) ∧
      bankState s.dev b ≠ 2 :=
  ⟨State.reset, 1, windowBank (State.reset).dev, rfl,
    (by intro v; exact ⟨(by decide +kernel), (by decide +kernel), csrParity_idle (by decide +kernel) .., (by rfl), (by rfl), (by decide +kernel)⟩), (by decide +kernel)⟩

theorem wit_ProgramBanks_6 :
    ∃ (s : State) (b : Nat), b = windowBank s.dev ∧ bankState s.dev b = 1 ∧
      flagF s.dev Reg.FAULT_INJECT Reg.FAULT_INJECT_PENDING = false ∧
      (leNat (headerBytes s.dev b 0 4) ≠ 0x54525A4E ∨ leNat (headerBytes s.dev b 4 2) ≠ 1 ∨ leNat (headerBytes s.dev b 6 2) ≠ 24) :=
  ⟨onDev fun d => setBank d 0 1, windowBank (onDev fun d => setBank d 0 1).dev, rfl, (by decide +kernel), (by decide +kernel),
    (by decide +kernel)⟩

theorem wit_ProgramBanks_7 :
    ∃ (s : State) (b r : Nat), b = windowBank s.dev ∧ bankState s.dev b = 1 ∧
      flagF s.dev Reg.FAULT_INJECT Reg.FAULT_INJECT_PENDING = false ∧ leNat (headerBytes s.dev b 0 4) = 0x54525A4E ∧
      leNat (headerBytes s.dev b 4 2) = 1 ∧ leNat (headerBytes s.dev b 6 2) = 24 ∧ crcFail s.dev 0 b false = some r := by
  have key : ∀ n : Nat, crc32c 0xFFFFFFFF (rowImage State.reset.dev 0 0 0) ≠ leNat (headerBytes (hdrd n State.reset.dev) 0 0x18 4) →
      crcFail (hdrd n State.reset.dev) 0 0 false = some 0 := fun n h => firstIdx_zero (bne_iff_ne.mpr h)
  by_cases h : crc32c 0xFFFFFFFF (rowImage State.reset.dev 0 0 0) = 0
  · exact ⟨onDev (hdrd 1), 0, 0, (by decide +kernel), (by decide +kernel), (by decide +kernel), (by decide +kernel), (by decide +kernel), (by decide +kernel), key 1 (by rw [h]; decide +kernel)⟩
  · exact ⟨onDev (hdrd 0), 0, 0, (by decide +kernel), (by decide +kernel), (by decide +kernel), (by decide +kernel), (by decide +kernel), (by decide +kernel), key 0 (by rw [show leNat (headerBytes (hdrd 0 State.reset.dev) 0 0x18 4) = 0 from by decide +kernel]; exact h)⟩

theorem wit_ProgramBanks_8 :
    ∃ (s : State) (b : Nat), b = windowBank s.dev ∧ bankState s.dev b = 1 ∧
      flagF s.dev Reg.FAULT_INJECT Reg.FAULT_INJECT_PENDING = false :=
  ⟨onDev fun d => setBank d 0 1, windowBank (onDev fun d => setBank d 0 1).dev, rfl, (by decide +kernel), (by decide +kernel)⟩

theorem wit_ProgramBanks_9 :
    ∃ (d : Dev) (b : Nat) (c : Nat), b < 2 ∧ c < 31 :=
  ⟨State.reset.dev, 1, 30, (by decide +kernel), (by decide +kernel)⟩

theorem wit_ProgramBanks_10 :
    ∃ (s : State) (agent : Nat) (b : Nat), b < 2 ∧ (∀ v, WriteReaches s.dev agent Reg.PROG_BANK_SEL v) ∧
      flagF s.dev Reg.FAULT_INJECT Reg.FAULT_INJECT_PENDING = false ∧ bankState s.dev b = 2 :=
  ⟨onDev fun d => setBank d 0 2, 1, 0, (by decide +kernel),
    (by intro v; exact ⟨(by decide +kernel), (by decide +kernel), csrParity_idle (by decide +kernel) .., (by rfl), (by rfl), (by decide +kernel)⟩), (by decide +kernel), (by decide +kernel)⟩

theorem wit_ProgramBanks_11 :
    ∃ (s : State) (agent : Nat) (b : Nat), b < 2 ∧ (∀ v, WriteReaches s.dev agent Reg.PROG_BANK_SEL v) ∧
      flagF s.dev Reg.FAULT_INJECT Reg.FAULT_INJECT_PENDING = false ∧ bankState s.dev b ≠ 2 :=
  ⟨State.reset, 1, 1, (by decide +kernel),
    (by intro v; exact ⟨(by decide +kernel), (by decide +kernel), csrParity_idle (by decide +kernel) .., (by rfl), (by rfl), (by decide +kernel)⟩), (by decide +kernel), (by decide +kernel)⟩

theorem wit_ProgramBanks_12 :
    ∃ (s : State) (b : Nat), b = windowBank s.dev ∧ flagF s.dev Reg.PROG_EPOCH Reg.PROG_EPOCH_SWITCH_PENDING = true :=
  ⟨onDev fun d => wrF (setBank d 0 2) Reg.PROG_EPOCH Reg.PROG_EPOCH_SWITCH_PENDING 1,
    windowBank (onDev fun d => wrF (setBank d 0 2) Reg.PROG_EPOCH Reg.PROG_EPOCH_SWITCH_PENDING 1).dev, rfl, (by decide +kernel)⟩

theorem wit_ProgramBanks_13 :
    ∃ (s : State) (b : Nat), b = windowBank s.dev ∧ bankState s.dev b = 4 ∧ (∀ e ∈ s.dev.furs, ∀ q ∈ furPkts e.2,
      pcGet q.2 Pc.epoch ≠ b) :=
  ⟨onDev fun d => setBank d 0 4, windowBank (onDev fun d => setBank d 0 4).dev, rfl, (by decide +kernel), (by intro e he; cases he)⟩

theorem wit_ProgramBanks_14 :
    ∃ (s : State) (b : Nat), b = windowBank s.dev ∧ bankState s.dev b = 4 ∧ (∃ e ∈ s.dev.furs, ∃ q ∈ furPkts e.2,
      pcGet q.2 Pc.epoch = b) :=
  ⟨onDev fun d => setBank (putPkt d ⟨0, 3, 0⟩ pk) 0 4, windowBank (onDev fun d => setBank (putPkt d ⟨0, 3, 0⟩ pk) 0 4).dev, rfl,
    (by decide +kernel), (by decide +kernel)⟩

/-! O55, FurrowRoles. -/

theorem wit_FurrowRoles_0 :
    ∃ (s : State) (agent : Nat) (a : Nat) (f : Nat),
      let err := fun (t : State) => rdF t.dev (Reg.FURROW_ROLE a f) Reg.FURROW_ROLE_LAST_ERR; let busy := fun (t : State) => flagF t.dev (Reg.FURROW_ROLE a f) Reg.FURROW_ROLE_BUSY; a < 4 ∧ f < 17 ∧ (∀ v, WriteReaches s.dev agent (Reg.FURROW_ROLE a f) v) ∧ (getFur s.dev a f).fatal = none ∧ flagF s.dev (Reg.FURROW_ROLE a f) Reg.FURROW_ROLE_BUSY = false ∧ a < acreCount s.dev ∧ roleOf s.dev a f = 0 ∧ entriesOf s.dev a f = [] :=
  ⟨onDev fun d => (List.range 128).foldl (fun d k => wr d (Reg.FURROW_MAP 1 k) 0) d, 1, 1, 5, (by decide +kernel), (by decide +kernel),
    (by intro v; exact ⟨(by decide +kernel), (by decide +kernel), csrParity_idle (by decide +kernel) .., (by rfl), (by rfl), (by decide +kernel)⟩), (by decide +kernel), (by decide +kernel), (by decide +kernel), (by decide +kernel), (by decide +kernel)⟩

theorem wit_FurrowRoles_1 :
    ∃ (s : State) (agent : Nat) (a : Nat) (f : Nat),
      let err := fun (t : State) => rdF t.dev (Reg.FURROW_ROLE a f) Reg.FURROW_ROLE_LAST_ERR; let busy := fun (t : State) => flagF t.dev (Reg.FURROW_ROLE a f) Reg.FURROW_ROLE_BUSY; a < 4 ∧ f < 17 ∧ (∀ v, WriteReaches s.dev agent (Reg.FURROW_ROLE a f) v) ∧ (getFur s.dev a f).fatal = none ∧ flagF s.dev (Reg.FURROW_ROLE a f) Reg.FURROW_ROLE_BUSY = false ∧ a < acreCount s.dev ∧ roleOf s.dev a f = 0 ∧ entriesOf s.dev a f ≠ [] :=
  ⟨State.reset, 1, 1, 5, (by decide +kernel), (by decide +kernel),
    (by intro v; exact ⟨(by decide +kernel), (by decide +kernel), csrParity_idle (by decide +kernel) .., (by rfl), (by rfl), (by decide +kernel)⟩), (by decide +kernel), (by decide +kernel), (by decide +kernel), (by decide +kernel), (by decide +kernel)⟩

theorem wit_FurrowRoles_2 :
    ∃ (s : State) (agent : Nat) (a : Nat) (f : Nat),
      let err := fun (t : State) => rdF t.dev (Reg.FURROW_ROLE a f) Reg.FURROW_ROLE_LAST_ERR; let busy := fun (t : State) => flagF t.dev (Reg.FURROW_ROLE a f) Reg.FURROW_ROLE_BUSY; a < 4 ∧ f < 17 ∧ (∀ v, WriteReaches s.dev agent (Reg.FURROW_ROLE a f) v) ∧ (getFur s.dev a f).fatal = none ∧ flagF s.dev (Reg.FURROW_ROLE a f) Reg.FURROW_ROLE_BUSY = false ∧ a < acreCount s.dev ∧ (roleOf s.dev a f = 2 ∨ roleOf s.dev a f = 3) :=
  ⟨onDev fun d => setRole d 1 5 3, 1, 1, 5, (by decide +kernel), (by decide +kernel),
    (by intro v; exact ⟨(by decide +kernel), (by decide +kernel), csrParity_idle (by decide +kernel) .., (by rfl), (by rfl), (by decide +kernel)⟩), (by decide +kernel), (by decide +kernel), (by decide +kernel), (by decide +kernel)⟩

theorem wit_FurrowRoles_3 :
    ∃ (s : State) (agent : Nat) (a : Nat) (f : Nat),
      let err := fun (t : State) => rdF t.dev (Reg.FURROW_ROLE a f) Reg.FURROW_ROLE_LAST_ERR; let busy := fun (t : State) => flagF t.dev (Reg.FURROW_ROLE a f) Reg.FURROW_ROLE_BUSY; a < 4 ∧ f < 17 ∧ (∀ v, WriteReaches s.dev agent (Reg.FURROW_ROLE a f) v) ∧ (getFur s.dev a f).fatal = none ∧ flagF s.dev (Reg.FURROW_ROLE a f) Reg.FURROW_ROLE_BUSY = false ∧ a < acreCount s.dev ∧ roleOf s.dev a f = 0 :=
  ⟨State.reset, 1, 1, 5, (by decide +kernel), (by decide +kernel),
    (by intro v; exact ⟨(by decide +kernel), (by decide +kernel), csrParity_idle (by decide +kernel) .., (by rfl), (by rfl), (by decide +kernel)⟩), (by decide +kernel), (by decide +kernel), (by decide +kernel), (by decide +kernel)⟩

theorem wit_FurrowRoles_4 :
    ∃ (s : State) (agent : Nat) (a : Nat) (f : Nat),
      let err := fun (t : State) => rdF t.dev (Reg.FURROW_ROLE a f) Reg.FURROW_ROLE_LAST_ERR;
      let busy := fun (t : State) => flagF t.dev (Reg.FURROW_ROLE a f) Reg.FURROW_ROLE_BUSY; ∃ (sp : Nat) (rest : List Nat), a < 4 ∧
      f < 17 ∧ (∀ v, WriteReaches s.dev agent (Reg.FURROW_ROLE a f) v) ∧ (getFur s.dev a f).fatal = none ∧
      flagF s.dev (Reg.FURROW_ROLE a f) Reg.FURROW_ROLE_BUSY = false ∧ a < acreCount s.dev ∧ roleOf s.dev a f = 0 ∧
      (furrowsWith s.dev a 1).filter (fun g => !flagF s.dev (Reg.FURROW_ROLE a g) Reg.FURROW_ROLE_BUSY) = sp :: rest :=
  ⟨State.reset, 1, 1, 5, 16, [], (by decide +kernel), (by decide +kernel),
    (by intro v; exact ⟨(by decide +kernel), (by decide +kernel), csrParity_idle (by decide +kernel) .., (by rfl), (by rfl), (by decide +kernel)⟩),
    (by decide +kernel), (by decide +kernel), (by decide +kernel), (by decide +kernel), (by decide +kernel)⟩

theorem wit_FurrowRoles_5 :
    ∃ (s : State) (agent : Nat) (a : Nat) (f : Nat),
      let err := fun (t : State) => rdF t.dev (Reg.FURROW_ROLE a f) Reg.FURROW_ROLE_LAST_ERR;
      let busy := fun (t : State) => flagF t.dev (Reg.FURROW_ROLE a f) Reg.FURROW_ROLE_BUSY; a < 4 ∧ f < 17 ∧
      (∀ v, WriteReaches s.dev agent (Reg.FURROW_ROLE a f) v) ∧ (getFur s.dev a f).fatal = none ∧
      flagF s.dev (Reg.FURROW_ROLE a f) Reg.FURROW_ROLE_BUSY = false ∧ a < acreCount s.dev ∧ roleOf s.dev a f = 0 ∧
      (furrowsWith s.dev a 1).filter (fun g => !flagF s.dev (Reg.FURROW_ROLE a g) Reg.FURROW_ROLE_BUSY) = [] :=
  ⟨onDev fun d => setRole d 1 16 2, 1, 1, 5, (by decide +kernel), (by decide +kernel),
    (by intro v; exact ⟨(by decide +kernel), (by decide +kernel), csrParity_idle (by decide +kernel) .., (by rfl), (by rfl), (by decide +kernel)⟩),
    (by decide +kernel), (by decide +kernel), (by decide +kernel), (by decide +kernel), (by decide +kernel)⟩

theorem wit_FurrowRoles_6 :
    ∃ (s : State) (agent : Nat) (a : Nat) (f : Nat),
      let err := fun (t : State) => rdF t.dev (Reg.FURROW_ROLE a f) Reg.FURROW_ROLE_LAST_ERR; let busy := fun (t : State) => flagF t.dev (Reg.FURROW_ROLE a f) Reg.FURROW_ROLE_BUSY; a < 4 ∧ f < 17 ∧ (∀ v, WriteReaches s.dev agent (Reg.FURROW_ROLE a f) v) ∧ (getFur s.dev a f).fatal = none ∧ flagF s.dev (Reg.FURROW_ROLE a f) Reg.FURROW_ROLE_BUSY = false ∧ a < acreCount s.dev ∧ roleOf s.dev a f = 1 :=
  ⟨onDev fun d => setRole d 1 5 1, 1, 1, 5, (by decide +kernel), (by decide +kernel),
    (by intro v; exact ⟨(by decide +kernel), (by decide +kernel), csrParity_idle (by decide +kernel) .., (by rfl), (by rfl), (by decide +kernel)⟩), (by decide +kernel), (by decide +kernel), (by decide +kernel), (by decide +kernel)⟩

theorem wit_FurrowRoles_7 :
    ∃ (s : State) (a : Nat) (f : Nat), a < 4 ∧ f < 17 ∧ (getFur s.dev a f).isolating = true ∧ entriesOf s.dev a f = [] ∧
      furPkts (getFur s.dev a f) = [] ∧ (getFur s.dev a f).entryQ = [] ∧ (∀ e ∈ (getAcre s.dev a).released, e.1 ≠ f) :=
  ⟨onDev fun d => putFur ((List.range 128).foldl (fun d k => wr d (Reg.FURROW_MAP 1 k) 0) d) 1 5 { getFur d 1 5 with isolating := true },
    1, 5, (by decide +kernel), (by decide +kernel), (by decide +kernel), (by decide +kernel), (by decide +kernel), (by decide +kernel),
    (by intro e he; cases he)⟩

theorem wit_FurrowRoles_8 :
    ∃ (s : State) (a : Nat) (f : Nat), ∃ (pass : Bool), a < 4 ∧ f < 17 ∧ roleOf s.dev a f = 4 :=
  ⟨onDev fun d => setRole d 1 5 4, 1, 5, false, (by decide +kernel), (by decide +kernel), (by decide +kernel)⟩

theorem wit_FurrowRoles_9 :
    ∃ (s : State) (a : Nat) (f : Nat), a < 4 ∧ f < 17 ∧ roleOf s.dev a f = 0 ∧ (getFur s.dev a f).fatal = none :=
  ⟨State.reset, 1, 5, (by decide +kernel), (by decide +kernel), (by decide +kernel), (by decide +kernel)⟩

theorem wit_FurrowRoles_10 :
    ∃ (s : State) (a : Nat) (f : Nat), ∃ (sp : Nat) (rest : List Nat) (t0 : Nat), a < 4 ∧ f < 17 ∧ (getFur s.dev a f).fatal = some t0 ∧
      roleOf s.dev a f = 0 ∧ furPkts (getFur s.dev a f) = [] ∧ (getFur s.dev a f).entryQ = [] ∧ (getAcre s.dev a).released = [] ∧
      furrowsWith s.dev a 1 = sp :: rest ∧ rehashActive s.dev a = false :=
  ⟨onDev fun d => putFur d 1 5 { getFur d 1 5 with fatal := some 3 }, 1, 5, 16, [], 3, (by decide +kernel), (by decide +kernel),
    (by decide +kernel), (by decide +kernel), (by decide +kernel), (by decide +kernel), (by decide +kernel), (by decide +kernel),
    (by decide +kernel)⟩

theorem wit_FurrowRoles_11 :
    ∃ (s : State) (agent : Nat) (a : Nat) (k : Nat) (i : Nat) (v : W64) (new : Nat), a < 4 ∧ k < 128 ∧ i < 2 ∧
      WriteReaches s.dev agent (Reg.FURROW_MAP a k) v ∧ FieldsInRange (Reg.FURROW_MAP a k) v ∧ a < acreCount s.dev ∧
      new = bits v.toNat (32 * i) 5 ∧ new ≠ furrowMap s.dev a (2 * k + i) ∧
      bits v.toNat (32 * (1 - i)) 5 = furrowMap s.dev a (2 * k + (1 - i)) ∧ new < 17 ∧ roleOf s.dev a new = 0 ∧
      flagF s.dev (Reg.FURROW_ROLE a new) Reg.FURROW_ROLE_BUSY = false ∧ (getFur s.dev a new).fatal = none ∧
      roleOf s.dev a (furrowMap s.dev a (2 * k + i)) = 0 ∧ furrowMap s.dev a (2 * k + i) < 17 :=
  ⟨State.reset, 1, 1, 127, 1, 0x30000000E#64, bits (0x30000000E#64).toNat (32 * (1)) 5, (by decide +kernel), (by decide +kernel),
    (by decide +kernel), reaches_ok (by decide +kernel), (by rfl), (by decide +kernel), rfl, (by decide +kernel), (by decide +kernel),
    (by decide +kernel), (by decide +kernel), (by decide +kernel), (by decide +kernel), (by decide +kernel), (by decide +kernel)⟩

theorem wit_FurrowRoles_12 :
    ∃ (s : State) (agent : Nat) (a : Nat) (k : Nat) (i : Nat) (v : W64) (new : Nat), a < 4 ∧ k < 128 ∧ i < 2 ∧
      WriteReaches s.dev agent (Reg.FURROW_MAP a k) v ∧ FieldsInRange (Reg.FURROW_MAP a k) v ∧ a < acreCount s.dev ∧
      new = bits v.toNat (32 * i) 5 ∧ new ≠ furrowMap s.dev a (2 * k + i) ∧
      bits v.toNat (32 * (1 - i)) 5 ≠ furrowMap s.dev a (2 * k + (1 - i)) :=
  ⟨State.reset, 1, 1, 127, 1, 0x300000003#64, bits (0x300000003#64).toNat (32 * (1)) 5, (by decide +kernel), (by decide +kernel),
    (by decide +kernel), reaches_ok (by decide +kernel), (by rfl), (by decide +kernel), rfl, (by decide +kernel), (by decide +kernel)⟩

theorem wit_FurrowRoles_13 :
    ∃ (s : State) (a : Nat) (dom : Nat) (dst : Nat), a < 4 ∧ rehashActive s.dev a = true ∧ dst = rehashF s.dev a Reg.REHASH_STATUS_TO ∧
      drained s.dev a dom = true ∧ roleOf s.dev a dst = 0 :=
  ⟨onDev fun d => wrFs d (Reg.REHASH_STATUS 1) [(Reg.REHASH_STATUS_ACTIVE, 1), (Reg.REHASH_STATUS_FROM, 5), (Reg.REHASH_STATUS_TO, 6)], 1,
    4095,
    rehashF (onDev fun d => wrFs d (Reg.REHASH_STATUS 1) [(Reg.REHASH_STATUS_ACTIVE, 1), (Reg.REHASH_STATUS_FROM, 5), (Reg.REHASH_STATUS_TO, 6)]).dev (1) Reg.REHASH_STATUS_TO,
    (by decide +kernel), (by decide +kernel), rfl, (by decide +kernel), (by decide +kernel)⟩

theorem wit_FurrowRoles_14 :
    ∃ (s : State) (a : Nat) (dom : Nat) (dst : Nat), a < 4 ∧ rehashActive s.dev a = true ∧ dst = rehashF s.dev a Reg.REHASH_STATUS_TO ∧
      drained s.dev a dom = false :=
  ⟨onDev fun d => putPkt (wrFs d (Reg.REHASH_STATUS 1) [(Reg.REHASH_STATUS_ACTIVE, 1), (Reg.REHASH_STATUS_FROM, 5), (Reg.REHASH_STATUS_TO, 6)]) ⟨1, 5, 0⟩ { pk with seq := 4095 },
    1, 0,
    rehashF (onDev fun d => putPkt (wrFs d (Reg.REHASH_STATUS 1) [(Reg.REHASH_STATUS_ACTIVE, 1), (Reg.REHASH_STATUS_FROM, 5), (Reg.REHASH_STATUS_TO, 6)]) ⟨1, 5, 0⟩ { pk with seq := 4095 }).dev (1) Reg.REHASH_STATUS_TO,
    (by decide +kernel), (by decide +kernel), rfl, (by decide +kernel)⟩

theorem wit_FurrowRoles_15 :
    ∃ (s : State) (a : Nat) (dom : Nat) (dst : Nat), a < 4 ∧ rehashActive s.dev a = true ∧ dst = rehashF s.dev a Reg.REHASH_STATUS_TO ∧
      (getAcre s.dev a).takeoverOf = none ∧ roleOf s.dev a dst = 0 :=
  ⟨onDev fun d => wrFs d (Reg.REHASH_STATUS 1) [(Reg.REHASH_STATUS_ACTIVE, 1), (Reg.REHASH_STATUS_FROM, 5), (Reg.REHASH_STATUS_TO, 6)], 1,
    0,
    rehashF (onDev fun d => wrFs d (Reg.REHASH_STATUS 1) [(Reg.REHASH_STATUS_ACTIVE, 1), (Reg.REHASH_STATUS_FROM, 5), (Reg.REHASH_STATUS_TO, 6)]).dev (1) Reg.REHASH_STATUS_TO,
    (by decide +kernel), (by decide +kernel), rfl, (by decide +kernel), (by decide +kernel)⟩

/-! O56, NanoData. -/

theorem wit_NanoData_0 :
    ∃ (s : State) (l : PktRef) (p : Pkt), ∃ (n : Nat) (g : XGroup), getPkt s.dev l = some p ∧ n < 4 :=
  ⟨onDev fun d => putPkt d ⟨0, 0, 0⟩ pk, PktRef.mk 0 0 0, pk, 3, XGroup.mk true 5 63 100 1 2, (by decide +kernel), (by decide +kernel)⟩

theorem wit_NanoData_1 :
    ∃ (s : State) (l : PktRef) (p : Pkt),
      ∃ (n : Nat) (g : AluGroup) (imm : Nat) (a : W64) (b : W64) (c : Instr) (y : W64) (cf : Bool) (vf : Bool),
      getPkt s.dev l = some p ∧ n < 2 ∧ a = aluOperand p n g.sa g.cwa g.k imm ∧ b = aluOperand p n g.sb g.cwb g.k imm ∧ ((c, y, cf,
      vf) ∈ [(Instr.aluMov l n g imm, a, false, false), (.aluAdd l n g imm, a + b, decide (2 ^ 64 ≤ a.toNat + b.toNat),
      decide (a.toInt + b.toInt < -(2 ^ 63) ∨ 2 ^ 63 ≤ a.toInt + b.toInt)), (.aluSub l n g imm, a - b, decide (a.toNat < b.toNat),
      decide (a.toInt - b.toInt < -(2 ^ 63) ∨ 2 ^ 63 ≤ a.toInt - b.toInt)), (.aluAnd l n g imm, a &&& b, false, false),
      (.aluOr l n g imm, a ||| b, false, false), (.aluXor l n g imm, a ^^^ b, false, false), (.aluAndn l n g imm, a &&& ~~~b, false,
      false), (.aluNot l n g imm, ~~~a, false, false), (.aluShl l n g imm, a <<< (b.toNat % 64),
      decide (b.toNat % 64 ≠ 0) && a.getLsbD (64 - b.toNat % 64), false), (.aluShr l n g imm, a >>> (b.toNat % 64),
      decide (b.toNat % 64 ≠ 0) && a.getLsbD (b.toNat % 64 - 1), false), (.aluSar l n g imm, a.sshiftRight (b.toNat % 64),
      decide (b.toNat % 64 ≠ 0) && a.getLsbD (b.toNat % 64 - 1), false), (.aluRol l n g imm, a.rotateLeft (b.toNat % 64), false,
      false), (.aluMin l n g imm, if b.toNat < a.toNat then b else a, decide (b.toNat < a.toNat), false), (.aluMax l n g imm,
      if a.toNat < b.toNat then b else a, decide (a.toNat < b.toNat), false), (.aluCsum l n g imm, (aluCsum a b).y,
      decide (0xFFFF < sum16 a.toNat + sum16 b.toNat), false), (.aluCrc l n g imm,
      BitVec.ofNat 64 (crcRun (b.toNat % 2 ^ 32) (beBytes 8 a.toNat)), false, false), (.aluPopc l n g imm,
      BitVec.ofNat 64 (popCount 64 a.toNat), false, false), (.aluClz l n g imm, BitVec.ofNat 64 (clz 64 a.toNat), false, false),
      (.aluScale l n g imm, BitVec.ofNat 64 ((a.toNat % 2 ^ 32) * (b.toNat % 2 ^ 32) / 2 ^ 32), false, false), (.aluAddsat l n g imm,
      if 2 ^ 64 ≤ a.toNat + b.toNat then BitVec.allOnes 64 else a + b, decide (2 ^ 64 ≤ a.toNat + b.toNat), false),
      (.aluSubsat l n g imm, if a.toNat < b.toNat then 0 else a - b, decide (a.toNat < b.toNat), false)]) :=
  ⟨onDev fun d => putPkt d ⟨0, 0, 0⟩ pk, PktRef.mk 0 0 0, pk, 1, AluGroup.mk true 7 0 0 6 6, 3,
    aluOperand (pk) (1) (AluGroup.mk true 7 0 0 6 6).sa (AluGroup.mk true 7 0 0 6 6).cwa (AluGroup.mk true 7 0 0 6 6).k (3),
    aluOperand (pk) (1) (AluGroup.mk true 7 0 0 6 6).sb (AluGroup.mk true 7 0 0 6 6).cwb (AluGroup.mk true 7 0 0 6 6).k (3),
    Instr.aluAnd ⟨0, 0, 0⟩ 1 (AluGroup.mk true 7 0 0 6 6) (3),
    (aluOperand (pk) (1) (AluGroup.mk true 7 0 0 6 6).sa (AluGroup.mk true 7 0 0 6 6).cwa (AluGroup.mk true 7 0 0 6 6).k (3)) &&& (aluOperand (pk) (1) (AluGroup.mk true 7 0 0 6 6).sb (AluGroup.mk true 7 0 0 6 6).cwb (AluGroup.mk true 7 0 0 6 6).k (3)), false, false, (by decide +kernel), (by decide +kernel), rfl, rfl, (by decide +kernel)⟩

theorem wit_NanoData_2 :
    ∃ (s : State) (l : PktRef) (p : Pkt), ∃ (g : MwGroup) (k : Nat), getPkt s.dev l = some p ∧ g.src ≠ 7 ∧ g.lsb < 64 ∧ g.word < 32 :=
  ⟨onDev fun d => putPkt d ⟨0, 0, 0⟩ pk, PktRef.mk 0 0 0, pk, MwGroup.mk 6 63 63 31, 5, (by decide +kernel), (by decide +kernel),
    (by decide +kernel), (by decide +kernel)⟩

theorem wit_NanoData_3 :
    ∃ (s : State) (l : PktRef) (p : Pkt), ∃ (c : Instr) (mask : Nat) (on : Bool), getPkt s.dev l = some p ∧ ((c, mask,
      on) ∈ ([(.mirrorSet l, 2 ^ 16, true), (.mirrorClr l, 2 ^ 16, false)] : List (Instr × Nat × Bool)) ∨ (mask < 2 ^ 16 ∧ (c,
      on) ∈ ([(.flagsSet l mask, true), (.flagsClear l mask, false)] : List (Instr × Bool)))) :=
  ⟨onDev fun d => putPkt d ⟨0, 0, 0⟩ pk, PktRef.mk 0 0 0, pk, Instr.flagsSet (PktRef.mk 0 0 0) 65535, 65535, true, (by decide +kernel),
    (by decide +kernel)⟩

theorem wit_NanoData_4 :
    ∃ (s : State) (l : PktRef) (p : Pkt), ∃ (v : Nat) (r : Nat), getPkt s.dev l = some p ∧ v < 16 ∧ r < 256 :=
  ⟨onDev fun d => putPkt d ⟨0, 0, 0⟩ pk, PktRef.mk 0 0 0, pk, 15, 255, (by decide +kernel), (by decide +kernel), (by decide +kernel)⟩

theorem wit_NanoData_7 :
    ∃ (p : Pkt) (g : XGroup), g.src = 2 ∧ g.sext = false ∧ g.shl = 0 :=
  ⟨pk, XGroup.mk false 0 63 2040 0 2, (by decide +kernel), (by decide +kernel), (by decide +kernel)⟩

theorem wit_NanoData_8 :
    ∃ (p : Pkt) (g : XGroup), g.src = 1 ∧ hdrPresent p g.inst = false :=
  ⟨pk, XGroup.mk false 0 63 2040 31 1, (by decide +kernel), (by decide +kernel)⟩

/-! O57, NanoRequests. -/

theorem wit_NanoRequests_0 :
    ∃ (s : State) (l : PktRef) (p : Pkt) (r : Nat),
      let fl := fun (w : Flight) (due : Option (Nat × Nat × Nat)) => putFur s.dev l.a l.f { getFur s.dev l.a l.f with inFlight := (getFur s.dev l.a l.f).inFlight ++ [⟨l.slot, p.gen, w, due⟩] };
      ∃ (n : Nat) (g : LGroup) (w : Flight) (d : Dev), getPkt s.dev l = some p ∧ rowOf p = some r ∧ keyBad g.kmode g.ksrc = false ∧
      (w, d) = lookupRead l.a n g.dest g.ty (keyWords p g.kmode g.ksrc) r (pcGet p Pc.holding) s.dev :=
  ⟨onDev fun d => putPkt (d) ⟨0, 0, 0⟩ rowPkt, PktRef.mk 0 0 0, rowPkt, 5, 1, LGroup.mk 3 0 false 3, noLookup 1 3,
    State.reset.dev |> fun d => putPkt d ⟨0, 0, 0⟩ rowPkt, (by decide +kernel), (by decide +kernel), (by decide +kernel),
    (by decide +kernel)⟩

theorem wit_NanoRequests_1 :
    ∃ (s : State) (l : PktRef) (p : Pkt) (r : Nat),
      let fl := fun (w : Flight) (due : Option (Nat × Nat × Nat)) => putFur s.dev l.a l.f { getFur s.dev l.a l.f with inFlight := (getFur s.dev l.a l.f).inFlight ++ [⟨l.slot, p.gen, w, due⟩] };
      ∃ (g : ClGroup), getPkt s.dev l = some p ∧ rowOf p = some r :=
  ⟨onDev fun d => putPkt (d) ⟨0, 0, 0⟩ rowPkt, PktRef.mk 0 0 0, rowPkt, 5, ClGroup.mk 13 3 1 1 3, (by decide +kernel),
    (by decide +kernel)⟩

theorem wit_NanoRequests_2 :
    ∃ (s : State) (l : PktRef) (p : Pkt) (r : Nat),
      let fl := fun (w : Flight) (due : Option (Nat × Nat × Nat)) => putFur s.dev l.a l.f { getFur s.dev l.a l.f with inFlight := (getFur s.dev l.a l.f).inFlight ++ [⟨l.slot, p.gen, w, due⟩] };
      ∃ (isrc : Nat), getPkt s.dev l = some p ∧ rowOf p = some r :=
  ⟨onDev fun d => putPkt (d) ⟨0, 0, 0⟩ rowPkt, PktRef.mk 0 0 0, rowPkt, 5, 2, (by decide +kernel), (by decide +kernel)⟩

theorem wit_NanoRequests_3 :
    ∃ (s : State) (l : PktRef) (p : Pkt) (r : Nat),
      let fl := fun (w : Flight) (due : Option (Nat × Nat × Nat)) => putFur s.dev l.a l.f { getFur s.dev l.a l.f with inFlight := (getFur s.dev l.a l.f).inFlight ++ [⟨l.slot, p.gen, w, due⟩] };
      ∃ (g : CGroup) (y : Ltype) (b : Tbl), getPkt s.dev l = some p ∧ rowOf p = some r ∧ g.mode < 3 ∧ ltype s.dev g.ty = some y ∧
      tbl s.dev y.table = some b ∧ y.kind = 6 ∧ bit y.rowmask r = true ∧ (indexSource p g.isrc).toNat < y.size ∧
      unitBad s.dev b (indexSource p g.isrc).toNat = false :=
  ⟨onDev fun d => putPkt (typed 6 (tabd 6 d)) ⟨0, 0, 0⟩ rowPkt, PktRef.mk 0 0 0, rowPkt, 5, CGroup.mk 0 0 3,
    Ltype.mk 6 3 0 0xFFFFFF 1 1 10, tb 6, (by decide +kernel), (by decide +kernel), (by decide +kernel), (by decide +kernel),
    (by decide +kernel), (by decide +kernel), (by decide +kernel), (by decide +kernel), (by decide +kernel)⟩

theorem wit_NanoRequests_4 :
    ∃ (s : State) (l : PktRef) (p : Pkt) (r : Nat),
      let fl := fun (w : Flight) (due : Option (Nat × Nat × Nat)) => putFur s.dev l.a l.f { getFur s.dev l.a l.f with inFlight := (getFur s.dev l.a l.f).inFlight ++ [⟨l.slot, p.gen, w, due⟩] };
      ∃ (g : CGroup), getPkt s.dev l = some p ∧ rowOf p = some r ∧ g.mode ≠ 3 ∧ ltype s.dev g.ty = none :=
  ⟨onDev fun d => putPkt (d) ⟨0, 0, 0⟩ rowPkt, PktRef.mk 0 0 0, rowPkt, 5, CGroup.mk 0 0 3, (by decide +kernel), (by decide +kernel),
    (by decide +kernel), (by decide +kernel)⟩

theorem wit_NanoRequests_5 :
    ∃ (s : State) (l : PktRef) (p : Pkt) (r : Nat),
      let fl := fun (w : Flight) (due : Option (Nat × Nat × Nat)) => putFur s.dev l.a l.f { getFur s.dev l.a l.f with inFlight := (getFur s.dev l.a l.f).inFlight ++ [⟨l.slot, p.gen, w, due⟩] };
      ∃ (c : Instr) (n : Nat) (g : LGroup) (h : RqGroup) (e : EGroup) (op : Nat) (k : Nat), getPkt s.dev l = some p ∧ rowOf p = some r ∧
      ((c = .lookupIssue l n g ∧ keyBad g.kmode g.ksrc = true) ∨ (c ∈ ([.deep l h, .saState l h, .learn l h, .buf l h] : List Instr) ∧ keyBad h.kmode h.ksrc = true) ∨ ((c, op) ∈ ([(.rewrite l e, 1), (.push l e, 2), (.pop l e, 3), (.strip l e, 4), (.fixIp4 l e, 5), (.fixUdp l e, 6), (.fixIp6 l e, 7)] : List (Instr × Nat)) ∧ editBad p op e [] = true) ∨ (∃ w, c = .metadataWrite l w k ∧ w.src = 7) ∨ (∃ w, c = .counterUpdate l w ∧ w.mode = 3)) :=
  ⟨onDev fun d => putPkt (d) ⟨0, 0, 0⟩ rowPkt, PktRef.mk 0 0 0, rowPkt, 5, Instr.learn ⟨0, 0, 0⟩ (RqGroup.mk 3 128 false 3), 1,
    LGroup.mk 3 0 false 3, RqGroup.mk 3 128 false 3, EGroup.mk 31 63 0 0, 1, 0, (by decide +kernel), (by decide +kernel),
    .inr (.inl ⟨(by decide +kernel), (by decide +kernel)⟩)⟩

theorem wit_NanoRequests_6 :
    ∃ (d : Dev) (a : Nat) (n : Nat) (dest : Nat) (ty : Nat) (key : List W64) (row : Nat) (hold : Nat),
      let read := lookupRead a n dest ty key row hold d; ltype d ty = none :=
  ⟨State.reset.dev, 0, 1, 3, 3, [(0 : W64)], 5, 9, (by decide +kernel)⟩

theorem wit_NanoRequests_7 :
    ∃ (d : Dev) (a : Nat) (n : Nat) (dest : Nat) (ty : Nat) (key : List W64) (row : Nat) (hold : Nat),
      let read := lookupRead a n dest ty key row hold d; ∃ (y : Ltype), ltype d ty = some y ∧ bit y.rowmask row = false :=
  ⟨typed 1 State.reset.dev, 0, 1, 3, 3, [(0 : W64)], 30, 9, Ltype.mk 1 3 0 0xFFFFFF 1 1 10, (by decide +kernel), (by decide +kernel)⟩

theorem wit_NanoRequests_8 :
    ∃ (d : Dev) (a : Nat) (n : Nat) (dest : Nat) (ty : Nat) (key : List W64) (row : Nat) (hold : Nat),
      let read := lookupRead a n dest ty key row hold d; ∃ (y : Ltype) (b : Tbl) (k : Nat), ∃ (i : Nat), ltype d ty = some y ∧
      y.kind = 1 ∧ bit y.rowmask row = true ∧ tbl d y.table = some b ∧ b.kind = 1 ∧ k = keyFor b (keyOfWords key) ∧
      exactLookup d b k = some i :=
  ⟨typed 1 (hitd 0 State.reset.dev), 0, 1, 3, 3, [(0 : W64)], 5, 9, Ltype.mk 1 3 0 0xFFFFFF 1 1 10, tb 1,
    keyFor (tb 1) (keyOfWords ([(0 : W64)])), 4092, (by decide +kernel), (by decide +kernel), (by decide +kernel), (by decide +kernel),
    (by decide +kernel), rfl, (by decide +kernel)⟩

theorem wit_NanoRequests_9 :
    ∃ (d : Dev) (a : Nat) (n : Nat) (dest : Nat) (ty : Nat) (key : List W64) (row : Nat) (hold : Nat),
      let read := lookupRead a n dest ty key row hold d; ∃ (y : Ltype) (b : Tbl) (k : Nat), ltype d ty = some y ∧ y.kind = 1 ∧
      bit y.rowmask row = true ∧ tbl d y.table = some b ∧ b.kind = 1 ∧ k = keyFor b (keyOfWords key) ∧ exactLookup d b k = none :=
  ⟨typed 1 (tabd 1 State.reset.dev), 0, 1, 3, 3, [(0 : W64)], 5, 9, Ltype.mk 1 3 0 0xFFFFFF 1 1 10, tb 1,
    keyFor (tb 1) (keyOfWords ([(0 : W64)])), (by decide +kernel), (by decide +kernel), (by decide +kernel), (by decide +kernel),
    (by decide +kernel), rfl, (by decide +kernel)⟩

theorem wit_NanoRequests_10 :
    ∃ (d : Dev) (a : Nat) (n : Nat) (dest : Nat) (ty : Nat) (key : List W64) (row : Nat) (hold : Nat),
      let read := lookupRead a n dest ty key row hold d; ∃ (y : Ltype) (l : List (Nat × Nat)), ltype d ty = some y ∧ y.kind = 4 ∧
      bit y.rowmask row = true ∧ l = aMatches d a hold ((List.range 5).foldl (fun x j => x * 2 ^ 64 + (key.getD j 0).toNat) 0) ∧ l = [] :=
  ⟨typed 4 State.reset.dev, 0, 1, 3, 3, [(0 : W64)], 5, 9, Ltype.mk 4 3 0 0xFFFFFF 1 1 10,
    aMatches (typed 4 State.reset.dev) (0) (9) ((List.range 5).foldl (fun x j => x * 2 ^ 64 + (([(0 : W64)]).getD j 0).toNat) 0),
    (by decide +kernel), (by decide +kernel), (by decide +kernel), rfl, rfl⟩

theorem wit_NanoRequests_11 :
    ∃ (d : Dev) (a : Nat) (n : Nat) (dest : Nat) (ty : Nat) (key : List W64) (row : Nat) (hold : Nat),
      let read := lookupRead a n dest ty key row hold d; ∃ (y : Ltype) (l : List (Nat × Nat)), ∃ (i : Nat) (e : Nat),
      ltype d ty = some y ∧ y.kind = 4 ∧ bit y.rowmask row = true ∧
      l = aMatches d a hold ((List.range 5).foldl (fun x j => x * 2 ^ 64 + (key.getD j 0).toNat) 0) ∧ aWinner hold l = some (i, e) ∧
      ecc d .assocTag (aKey a i) ≠ 2 :=
  ⟨wr { typed 4 State.reset.dev with asc := { State.reset.dev.asc with cells := [(5, 0x800900000000004D)] } } (Reg.SEG_MAP 0 9) 1, 0,
    1, 3, 3, [(0 : W64)], 5, 9, Ltype.mk 4 3 0 0xFFFFFF 1 1 10,
    aMatches (wr { typed 4 State.reset.dev with asc := { State.reset.dev.asc with cells := [(5, 0x800900000000004D)] } } (Reg.SEG_MAP 0 9) 1) (0) (9) ((List.range 5).foldl (fun x j => x * 2 ^ 64 + (([(0 : W64)]).getD j 0).toNat) 0), 5, 0x800900000000004D, (by decide +kernel), (by decide +kernel), (by decide +kernel), rfl, (by decide +kernel), (by decide +kernel)⟩

theorem wit_NanoRequests_12 :
    ∃ (s : State) (l : PktRef) (p : Pkt) (g : RqGroup) (c : Instr) (kind : Nat) (num : Nat), getPkt s.dev l = some p ∧
      num = (getFur s.dev l.a l.f).reqCtr + 1 ∧ p.reqs.length = 4 ∧ keyBad g.kmode g.ksrc = false ∧ (c, kind) ∈ ([(.deep l g, 1),
      (.saState l g, 2), (.learn l g, 3), (.buf l g, 4)] : List (Instr × Nat)) :=
  ⟨onDev fun d => putPkt (d) ⟨0, 0, 0⟩ rowPkt, PktRef.mk 0 0 0, rowPkt, RqGroup.mk 3 0 false 3, Instr.buf ⟨0, 0,
    0⟩ (RqGroup.mk 3 0 false 3), 4, (getFur (onDev fun d => putPkt (d) ⟨0, 0,
    0⟩ rowPkt).dev (PktRef.mk 0 0 0).a (PktRef.mk 0 0 0).f).reqCtr + 1, (by decide +kernel), rfl, (by decide +kernel),
    (by decide +kernel), (by decide +kernel)⟩

theorem wit_NanoRequests_13 :
    ∃ (d : Dev) (ty : Nat) (x : Nat), flagF d Reg.FAULT_INJECT Reg.FAULT_INJECT_PENDING = false ∧ deepReady d = false :=
  ⟨State.reset.dev, 1, 5, (by decide +kernel), (by decide +kernel)⟩

theorem wit_NanoRequests_14 :
    ∃ (d : Dev) (ty : Nat) (x : Nat), flagF d Reg.FAULT_INJECT Reg.FAULT_INJECT_PENDING = false ∧ deepReady d = true ∧
      (rdF d (Reg.DEEP_TYPE ty 0) Reg.DEEP_TYPE_VALID = 0 ∨ rdF d (Reg.DEEP_TYPE ty 1) Reg.DEEP_TYPE_SIZE ≤ x % 2 ^ 40) :=
  ⟨deepUp State.reset.dev, 1, 5, (by decide +kernel), (by decide +kernel), .inl (by decide +kernel)⟩

theorem wit_NanoRequests_15 :
    ∃ (s : State) (a : Nat) (f : Nat) (k : Nat) (e : InFlight) (d : Dev),
      ∃ (n : Nat) (dest : Nat) (v : W64) (hit : Bool) (err : Bool) (poison : Bool) (count : Option Nat),
      (getFur s.dev a f).inFlight[k]? = some e ∧ landsAfter (getFur s.dev a f) k e = false ∧
      d = putFur s.dev a f { getFur s.dev a f with inFlight := (getFur s.dev a f).inFlight.eraseIdx k } ∧
      getPkt s.dev ⟨a, f, e.slot⟩ = none ∧ e.what = .lookup n dest v hit err poison count :=
  ⟨onDev fun d => putFur d 0 0 { getFur d 0 0 with inFlight := [⟨0, 0, .lookup 1 3 9 true false false (some 255), none⟩] }, 0, 0, 0,
    InFlight.mk 0 0 (.lookup 1 3 9 true false false (some 255)) none,
    putFur (onDev fun d => putFur d 0 0 { getFur d 0 0 with inFlight := [⟨0, 0, .lookup 1 3 9 true false false (some 255), none⟩] }).dev (0) (0) { getFur (onDev fun d => putFur d 0 0 { getFur d 0 0 with inFlight := [⟨0, 0, .lookup 1 3 9 true false false (some 255), none⟩] }).dev (0) (0) with inFlight := (getFur (onDev fun d => putFur d 0 0 { getFur d 0 0 with inFlight := [⟨0, 0, .lookup 1 3 9 true false false (some 255), none⟩] }).dev (0) (0)).inFlight.eraseIdx (0) },
    1, 3, 9, true, false, false, some 255, (by decide +kernel), (by decide +kernel), rfl, (by decide +kernel), (by decide +kernel)⟩

theorem wit_NanoRequests_16 :
    ∃ (s : State) (a : Nat) (f : Nat) (k : Nat) (e : InFlight) (d : Dev),
      ∃ (dest : Nat) (n : Nat) (base : Nat) (offs : List Nat) (ty : Nat) (row : Nat), (getFur s.dev a f).inFlight[k]? = some e ∧
      landsAfter (getFur s.dev a f) k e = false ∧
      d = putFur s.dev a f { getFur s.dev a f with inFlight := (getFur s.dev a f).inFlight.eraseIdx k } ∧
      getPkt s.dev ⟨a, f, e.slot⟩ = none ∧ e.what = .collect dest n base offs ty row :=
  ⟨onDev fun d => putFur d 0 0 { getFur d 0 0 with inFlight := [⟨0, 0, .collect 13 3 0 [0, 1, 2] 3 5, none⟩] }, 0, 0, 0,
    InFlight.mk 0 0 (.collect 13 3 0 [0, 1, 2] 3 5) none,
    putFur (onDev fun d => putFur d 0 0 { getFur d 0 0 with inFlight := [⟨0, 0, .collect 13 3 0 [0, 1, 2] 3 5, none⟩] }).dev (0) (0) { getFur (onDev fun d => putFur d 0 0 { getFur d 0 0 with inFlight := [⟨0, 0, .collect 13 3 0 [0, 1, 2] 3 5, none⟩] }).dev (0) (0) with inFlight := (getFur (onDev fun d => putFur d 0 0 { getFur d 0 0 with inFlight := [⟨0, 0, .collect 13 3 0 [0, 1, 2] 3 5, none⟩] }).dev (0) (0)).inFlight.eraseIdx (0) },
    13, 3, 0, [0, 1, 2], 3, 5, (by decide +kernel), (by decide +kernel), rfl, (by decide +kernel), (by decide +kernel)⟩

theorem wit_NanoRequests_17 :
    ∃ (s : State) (a : Nat) (f : Nat) (k : Nat) (e : InFlight) (d : Dev), ∃ (p : Pkt) (l : PktRef),
      ∃ (n : Nat) (dest : Nat) (v : W64) (hit : Bool) (err : Bool) (poison : Bool) (count : Option Nat),
      (getFur s.dev a f).inFlight[k]? = some e ∧ landsAfter (getFur s.dev a f) k e = false ∧
      d = putFur s.dev a f { getFur s.dev a f with inFlight := (getFur s.dev a f).inFlight.eraseIdx k } ∧ l = PktRef.mk a f e.slot ∧
      getPkt s.dev l = some p ∧ p.gen = e.gen ∧ e.what = .lookup n dest v hit err poison count ∧ n < 2 ∧ dest < 4 :=
  ⟨onDev fun d => infl (.lookup 1 3 9 true false false (some 255)) (d), 0, 0, 0,
    InFlight.mk 0 0 (.lookup 1 3 9 true false false (some 255)) none,
    putFur (onDev fun d => infl (.lookup 1 3 9 true false false (some 255)) (d)).dev (0) (0) { getFur (onDev fun d => infl (.lookup 1 3 9 true false false (some 255)) (d)).dev (0) (0) with inFlight := (getFur (onDev fun d => infl (.lookup 1 3 9 true false false (some 255)) (d)).dev (0) (0)).inFlight.eraseIdx (0) },
    pk, PktRef.mk 0 0 0, 1, 3, 9, true, false, false, some 255, (by decide +kernel), (by decide +kernel), rfl, (by decide +kernel),
    (by decide +kernel), (by decide +kernel), (by decide +kernel), (by decide +kernel), (by decide +kernel)⟩

theorem wit_NanoRequests_18 :
    ∃ (s : State) (a : Nat) (f : Nat) (k : Nat) (e : InFlight) (d : Dev), ∃ (p : Pkt) (l : PktRef),
      ∃ (dest : Nat) (n : Nat) (base : Nat) (offs : List Nat) (ty : Nat) (row : Nat) (x : Nat) (y : Ltype) (b : Tbl),
      (getFur s.dev a f).inFlight[k]? = some e ∧ landsAfter (getFur s.dev a f) k e = false ∧
      d = putFur s.dev a f { getFur s.dev a f with inFlight := (getFur s.dev a f).inFlight.eraseIdx k } ∧ l = PktRef.mk a f e.slot ∧
      getPkt s.dev l = some p ∧ p.gen = e.gen ∧ e.what = .collect dest n base offs ty row ∧ x = collectFault s.dev dest base offs ty row ∧
      dest + offs.length ≤ 16 ∧ ltype s.dev ty = some y ∧ tbl s.dev y.table = some b :=
  ⟨onDev fun d => infl (.collect 13 3 0 [0, 1, 2] 3 5) (typed 5 (tabd 5 d)), 0, 0, 0,
    InFlight.mk 0 0 (.collect 13 3 0 [0, 1, 2] 3 5) none,
    putFur (onDev fun d => infl (.collect 13 3 0 [0, 1, 2] 3 5) (typed 5 (tabd 5 d))).dev (0) (0) { getFur (onDev fun d => infl (.collect 13 3 0 [0, 1, 2] 3 5) (typed 5 (tabd 5 d))).dev (0) (0) with inFlight := (getFur (onDev fun d => infl (.collect 13 3 0 [0, 1, 2] 3 5) (typed 5 (tabd 5 d))).dev (0) (0)).inFlight.eraseIdx (0) },
    pk, PktRef.mk 0 0 0, 13, 3, 0, [0, 1, 2], 3, 5,
    collectFault (onDev fun d => infl (.collect 13 3 0 [0, 1, 2] 3 5) (typed 5 (tabd 5 d))).dev (13) (0) ([0, 1, 2]) (3) (5),
    Ltype.mk 5 3 0 0xFFFFFF 1 1 10, tb 5, (by decide +kernel), (by decide +kernel), rfl, (by decide +kernel), (by decide +kernel),
    (by decide +kernel), (by decide +kernel), rfl, (by decide +kernel), (by decide +kernel), (by decide +kernel)⟩

theorem wit_NanoRequests_19 :
    ∃ (s : State) (a : Nat) (f : Nat) (k : Nat) (e : InFlight) (d : Dev), ∃ (p : Pkt) (l : PktRef),
      ∃ (dest : Nat) (num : Nat) (refused : Bool), (getFur s.dev a f).inFlight[k]? = some e ∧ landsAfter (getFur s.dev a f) k e = false ∧
      d = putFur s.dev a f { getFur s.dev a f with inFlight := (getFur s.dev a f).inFlight.eraseIdx k } ∧ l = PktRef.mk a f e.slot ∧
      getPkt s.dev l = some p ∧ p.gen = e.gen ∧ e.what = .learned dest num refused ∧ p.reqs.getD 2 0 = num :=
  ⟨onDev fun d => infl (.learned 1 0 true) (d), 0, 0, 0, InFlight.mk 0 0 (.learned 1 0 true) none,
    putFur (onDev fun d => infl (.learned 1 0 true) (d)).dev (0) (0) { getFur (onDev fun d => infl (.learned 1 0 true) (d)).dev (0) (0) with inFlight := (getFur (onDev fun d => infl (.learned 1 0 true) (d)).dev (0) (0)).inFlight.eraseIdx (0) },
    pk, PktRef.mk 0 0 0, 1, 0, true, (by decide +kernel), (by decide +kernel), rfl, (by decide +kernel), (by decide +kernel),
    (by decide +kernel), (by decide +kernel), (by decide +kernel)⟩

theorem wit_NanoRequests_20 :
    ∃ (s : State) (a : Nat) (f : Nat) (k : Nat) (e : InFlight) (d : Dev), ∃ (p : Pkt) (l : PktRef),
      ∃ (dest : Nat) (num : Nat) (refused : Bool), (getFur s.dev a f).inFlight[k]? = some e ∧ landsAfter (getFur s.dev a f) k e = false ∧
      d = putFur s.dev a f { getFur s.dev a f with inFlight := (getFur s.dev a f).inFlight.eraseIdx k } ∧ l = PktRef.mk a f e.slot ∧
      getPkt s.dev l = some p ∧ p.gen = e.gen ∧ e.what = .learned dest num refused ∧ p.reqs.getD 2 0 ≠ num :=
  ⟨onDev fun d => infl (.learned 1 9 true) (d), 0, 0, 0, InFlight.mk 0 0 (.learned 1 9 true) none,
    putFur (onDev fun d => infl (.learned 1 9 true) (d)).dev (0) (0) { getFur (onDev fun d => infl (.learned 1 9 true) (d)).dev (0) (0) with inFlight := (getFur (onDev fun d => infl (.learned 1 9 true) (d)).dev (0) (0)).inFlight.eraseIdx (0) },
    pk, PktRef.mk 0 0 0, 1, 9, true, (by decide +kernel), (by decide +kernel), rfl, (by decide +kernel), (by decide +kernel),
    (by decide +kernel), (by decide +kernel), (by decide +kernel)⟩

theorem wit_NanoRequests_21 :
    ∃ (s : State) (a : Nat) (f : Nat) (k : Nat) (e : InFlight) (d : Dev), ∃ (p : Pkt) (l : PktRef),
      ∃ (dest : Nat) (pool : Nat) (key : List W64) (num : Nat) (o : W64) (m : Nat), (getFur s.dev a f).inFlight[k]? = some e ∧
      landsAfter (getFur s.dev a f) k e = false ∧
      d = putFur s.dev a f { getFur s.dev a f with inFlight := (getFur s.dev a f).inFlight.eraseIdx k } ∧ l = PktRef.mk a f e.slot ∧
      getPkt s.dev l = some p ∧ p.gen = e.gen ∧ e.what = .request 4 dest pool key num o ∧ dest < 4 ∧ pool < 63 ∧ p.grant = none ∧
      llNamed s.dev pool = false ∧ lossless s.dev p = false ∧ p.reqs.getD 3 0 = num ∧
      m = acreMap s.dev a (bits (pcGet p Pc.flowHash) 20 6) ∧ poolPick s.dev m pool (cellsOf p) = none :=
  ⟨onDev fun d => infl (.request 4 1 62 [0] 0 9) (setPoolUse d 0 0 5), 0, 0, 0, InFlight.mk 0 0 (.request 4 1 62 [0] 0 9) none,
    putFur (onDev fun d => infl (.request 4 1 62 [0] 0 9) (setPoolUse d 0 0 5)).dev (0) (0) { getFur (onDev fun d => infl (.request 4 1 62 [0] 0 9) (setPoolUse d 0 0 5)).dev (0) (0) with inFlight := (getFur (onDev fun d => infl (.request 4 1 62 [0] 0 9) (setPoolUse d 0 0 5)).dev (0) (0)).inFlight.eraseIdx (0) },
    pk, PktRef.mk 0 0 0, 1, 62, [0], 0, 9,
    acreMap (onDev fun d => infl (.request 4 1 62 [0] 0 9) (setPoolUse d 0 0 5)).dev (0) (bits (pcGet (pk) Pc.flowHash) 20 6),
    (by decide +kernel), (by decide +kernel), rfl, (by decide +kernel), (by decide +kernel), (by decide +kernel), (by decide +kernel),
    (by decide +kernel), (by decide +kernel), (by decide +kernel), (by decide +kernel), (by decide +kernel), (by decide +kernel), rfl,
    (by decide +kernel)⟩

theorem wit_NanoRequests_22 :
    ∃ (s : State) (l : PktRef) (p : Pkt) (r : Nat) (g : EGroup) (c : Instr) (op : Nat), getPkt s.dev l = some p ∧ rowOf p = some r ∧
      editBad p op g [] = false ∧ (c, op) ∈ ([(.rewrite l g, 1), (.push l g, 2), (.pop l g, 3), (.strip l g, 4), (.fixIp4 l g, 5),
      (.fixUdp l g, 6), (.fixIp6 l g, 7)] : List (Instr × Nat)) ∧ p.edits.length < 16 ∧
      p.edata.length + (if op ≤ 2 then g.len + 1 else 0) ≤ 128 :=
  ⟨onDev fun d => putPkt d ⟨0, 0, 0⟩ { pcSet rowPkt (Pc.hdr 0) 0x8000 with edits := List.replicate 15 7 }, PktRef.mk 0 0 0,
    { pcSet rowPkt (Pc.hdr 0) 0x8000 with edits := List.replicate 15 7 }, 5, EGroup.mk 24 63 0 0, Instr.push ⟨0, 0,
    0⟩ (EGroup.mk 24 63 0 0), 2, (by decide +kernel), (by decide +kernel), (by decide +kernel), (by decide +kernel),
    (by decide +kernel), (by decide +kernel)⟩

theorem wit_NanoRequests_23 :
    ∃ (s : State) (l : PktRef) (p : Pkt) (r : Nat) (g : EGroup) (c : Instr) (op : Nat), getPkt s.dev l = some p ∧ rowOf p = some r ∧
      editBad p op g [] = false ∧ (c, op) ∈ ([(.rewrite l g, 1), (.push l g, 2), (.pop l g, 3), (.strip l g, 4), (.fixIp4 l g, 5),
      (.fixUdp l g, 6), (.fixIp6 l g, 7)] : List (Instr × Nat)) ∧ 16 ≤ p.edits.length :=
  ⟨onDev fun d => putPkt d ⟨0, 0, 0⟩ { pcSet rowPkt (Pc.hdr 0) 0x8000 with edits := List.replicate 16 7 }, PktRef.mk 0 0 0,
    { pcSet rowPkt (Pc.hdr 0) 0x8000 with edits := List.replicate 16 7 }, 5, EGroup.mk 0 63 0 0, Instr.fixIp6 ⟨0, 0,
    0⟩ (EGroup.mk 0 63 0 0), 7, (by decide +kernel), (by decide +kernel), (by decide +kernel), (by decide +kernel), (by decide +kernel)⟩

/-! O58, StepRunsFront. -/

theorem wit_StepRunsFront_1 :
    ∃ (s : State), s.pending = [] :=
  ⟨State.reset, (by decide +kernel)⟩

/-! O59, ResetState. -/

theorem wit_ResetState_5 :
    ∃ h, h < 256 :=
  ⟨255, (by decide +kernel)⟩

/-! O60, StepKeepsOrder. -/

theorem wit_StepKeepsOrder_0 :
    ∃ (s : State), s.wf = true :=
  ⟨State.reset, (by decide +kernel)⟩

end Sys2Proof.Tests
end

section
/-!
PROOF. Register writes that are turned away: rejected and counted in HOST_REJECT (R472, R477), or ignored (R2). With them the
obligation on stored, rejected and ignored writes is settled.
-/
namespace Sys2Proof.Machine

/-! Fields of one register set together. -/

/-- A field outside every field that is set keeps its value. -/
theorem getF_foldl_setF_other (l : List (Fld × Nat)) (v : W64) {g : Fld} (hg : g.lo + g.w ≤ 64)
    (h : ∀ x ∈ l, g.lo + g.w ≤ x.1.lo ∨ x.1.lo + x.1.w ≤ g.lo) :
    getF (l.foldl (fun v x => setF v x.1 x.2) v) g = getF v g := by
  induction l generalizing v with
  | nil => rfl
  | cons x t ih =>
    obtain ⟨hx, ht⟩ := List.forall_mem_cons.mp h
    rw [List.foldl_cons, ih _ ht, getF_setF_other _ _ _ _ hx hg]

theorem rdF_wrFs_disjoint (d : Dev) (off : Nat) (l : List (Fld × Nat)) {g : Fld} (hg : g.lo + g.w ≤ 64)
    (h : ∀ x ∈ l, g.lo + g.w ≤ x.1.lo ∨ x.1.lo + x.1.w ≤ g.lo) : rdF (wrFs d off l) off g = rdF d off g := by
  rw [rdF, rd_wrFs, if_pos rfl, getF_foldl_setF_other l _ hg h, rdF]

/-! What a rejected write leaves: HOST_REJECT counts it, and nothing else changes (R477). -/

/-- The first rejected write is recorded beside its count; a later one is counted alone. -/
theorem hostReject_cases (d : Dev) (agent off : Nat) (isl : List Nat) :
    hostReject d agent off isl = bumpSat d Reg.HOST_REJECT Reg.HOST_REJECT_COUNT 1 ∨
      hostReject d agent off isl = wrFs (bumpSat d Reg.HOST_REJECT Reg.HOST_REJECT_COUNT 1) Reg.HOST_REJECT
        [(Reg.HOST_REJECT_VALID, 1), (Reg.HOST_REJECT_ISLAND, isl.headD 0), (Reg.HOST_REJECT_MASTER, agent),
          (Reg.HOST_REJECT_OFFSET, off)] :=
  ite_eq_or_eq ..

theorem rd_hostReject_other (d : Dev) (agent off : Nat) (isl : List Nat) {o : Nat} (h : o ≠ Reg.HOST_REJECT) :
    rd (hostReject d agent off isl) o = rd d o := by
  have hb : rd (bumpSat d Reg.HOST_REJECT Reg.HOST_REJECT_COUNT 1) o = rd d o := rd_wr_other d _ h
  obtain e | e := hostReject_cases d agent off isl
  · rw [e, hb]
  · rw [e, rd_wrFs, if_neg h, hb]

/-- The record of the first rejected write lies in the fields beside COUNT, which stops at its greatest value. -/
theorem rdF_hostReject_count (d : Dev) (agent off : Nat) (isl : List Nat) :
    rdF (hostReject d agent off isl) Reg.HOST_REJECT Reg.HOST_REJECT_COUNT =
      min (rdF d Reg.HOST_REJECT Reg.HOST_REJECT_COUNT + 1) 32767 := by
  have hb : rdF (bumpSat d Reg.HOST_REJECT Reg.HOST_REJECT_COUNT 1) Reg.HOST_REJECT Reg.HOST_REJECT_COUNT =
      min (rdF d Reg.HOST_REJECT Reg.HOST_REJECT_COUNT + 1) 32767 := by
    rw [rdF_bumpSat_same d _ _ 1 (by decide)]
    norm_num [Reg.HOST_REJECT_COUNT]
  obtain e | e := hostReject_cases d agent off isl
  · rw [e, hb]
  · rw [e, rdF_wrFs_disjoint _ _ _ (by decide), hb]
    simp [Reg.HOST_REJECT_COUNT, Reg.HOST_REJECT_VALID, Reg.HOST_REJECT_ISLAND, Reg.HOST_REJECT_MASTER, Reg.HOST_REJECT_OFFSET]

@[simp] theorem hostReject_flt (d : Dev) (agent off : Nat) (isl : List Nat) : (hostReject d agent off isl).flt = d.flt := by
  obtain e | e := hostReject_cases d agent off isl
  · rw [e, bumpSat_flt]
  · rw [e, wrFs_flt, bumpSat_flt]

/-! Where the path of a write ends (R2, R3, R475 to R477). -/

section
variable {m : Mem} {d : Dev} {agent off : Nat} {v : W64}

theorem regWrite_of_ctlReset (h : ctlReset d = true) : regWrite agent off v m d = d := by
  simp [regWrite, regWriteR, h]

theorem halfWrite_of_ctlReset (h : ctlReset d = true) : halfWrite agent off d = d := by
  simp [halfWrite, h]

theorem halfWrite_rejected (h : ctlReset d = false) :
    halfWrite agent off d = hostReject d agent off (islandsOf d (off / 8 * 8) 0) := by
  simp [halfWrite, h]

/-- A write of an absent unit, of an offset that is not aligned, or of a register's second offset that only reads serve, is ignored. -/
theorem regWrite_ignored (h : (unpeek off).2 = true ∨ unitAbsent d off = true ∨ off % 8 ≠ 0) : regWrite agent off v m d = d := by
  cases hc : ctlReset d with
  | true => exact regWrite_of_ctlReset hc
  | false => simp only [regWrite, regWriteR, hc, Bool.false_eq_true, if_false, if_pos h]

/-- A write of a present unit, with no parity injection due at it, goes on to the islands that it reaches. -/
theorem regWrite_addressed (hc : ctlReset d = false) (ha : ¬ ((unpeek off).2 = true ∨ unitAbsent d off = true ∨ off % 8 ≠ 0))
    (hp : csrParity d agent off 2 v = (false, d)) :
    regWrite agent off v m d =
      if (islandsOf d off v).any (islandOff d) then hostReject d agent off (islandsOf d off v)
      else if unitBusy d off (islandsOf d off v) ≠ [] then islandDrop d agent off (unitBusy d off (islandsOf d off v))
      else (regStore m d agent off v (islandsOf d off v)).2 := by
  simp only [regWrite, regWriteR, hc, Bool.false_eq_true, if_false, if_neg ha, hp]
  split
  · rfl
  · split <;> rfl

/-- The register of an absent array entry ignores what is written to it. -/
theorem regStore_indexAbsent {p : RegSpec × List Nat} (isl : List Nat) (hw : off < 0x2000000) (hr : regAt off = some p)
    (hi : indexAbsent d p.1.base (p.2.getD 0 0) = true) : regStore m d agent off v isl = (3, d) := by
  have hw' : ¬ (0x2000000 ≤ off ∧ off < 0x3FF0000) := by omega
  simp only [regStore, if_neg hw', hr, if_pos hi]

/-- A value outside a field's range is rejected; below Rind's block no lease is renewed on the way. -/
theorem regStore_outOfRange {p : RegSpec × List Nat} (isl : List Nat) (hw : off < 0x1A00000) (hr : regAt off = some p)
    (hi : indexAbsent d p.1.base (p.2.getD 0 0) = false) (ha : agentDrop d agent off = none) (hv : rangeOk p.1.flds v = false) :
    regStore m d agent off v isl = (1, hostReject d agent off isl) := by
  have hw' : ¬ (0x2000000 ≤ off ∧ off < 0x3FF0000) := by omega
  have hl : off / 0x100000 ≠ 26 := by omega
  simp only [regStore, if_neg hw', hr, hi, Bool.false_eq_true, if_false, ha]
  simp [hl, hv]

theorem regWrite_outOfRange {p : RegSpec × List Nat} (h : WriteReaches d agent off v) (hw : off < 0x1A00000) (h8 : off % 8 = 0)
    (hk : (unpeek off).2 = false) (hr : regAt off = some p) (hv : rangeOk p.1.flds v = false) :
    regWrite agent off v m d = hostReject d agent off (islandsOf d off v) := by
  obtain ⟨hc, hu, hp, hisl, hb, ha, hi⟩ := h
  rw [regWrite_addressed hc (by simp [hk, hu, h8]) hp, if_neg (by simp [hisl]), if_neg (by simp [hb]),
    regStore_outOfRange _ hw hr (hi p hr) ha hv]

theorem regWrite_islandOff (hc : ctlReset d = false) (hu : unitAbsent d off = false) (h8 : off % 8 = 0) (hk : (unpeek off).2 = false)
    (hp : csrParity d agent off 2 v = (false, d)) (hisl : (islandsOf d off v).any (islandOff d) = true) :
    regWrite agent off v m d = hostReject d agent off (islandsOf d off v) := by
  rw [regWrite_addressed hc (by simp [hk, hu, h8]) hp, if_pos hisl]

theorem regWrite_indexAbsent {p : RegSpec × List Nat} (hc : ctlReset d = false) (hp : csrParity d agent off 2 v = (false, d))
    (hisl : (islandsOf d off v).any (islandOff d) = false) (hb : unitBusy d off (islandsOf d off v) = []) (hr : regAt off = some p)
    (hi : indexAbsent d p.1.base (p.2.getD 0 0) = true) (hw : off < 0x2000000) : regWrite agent off v m d = d := by
  by_cases hk : (unpeek off).2 = true ∨ unitAbsent d off = true ∨ off % 8 ≠ 0
  · exact regWrite_ignored hk
  · rw [regWrite_addressed hc hk hp, if_neg (by simp [hisl]), if_neg (by simp [hb]), regStore_indexAbsent _ hw hr hi]

theorem regEffect_AGE_CFG (i j : Nat) (x : W64) :
    regEffect ⟨agent, Reg.AGE_CFG, Reg.AGE_CFG, i, j, v, x⟩ m d = (true, wr d Reg.AGE_CFG x) := by
  simp [regEffect, effOrchard, storeIf, Reg.AGE_CFG, Reg.ORCHARD_CMD, Reg.PROFILE_SEL]

/-- AGE_CFG has no rule of its own: its writable fields are stored. -/
theorem regWrite_AGE_CFG (h : WriteReaches d agent Reg.AGE_CFG v) (hf : FieldsInRange Reg.AGE_CFG v) :
    regWrite agent Reg.AGE_CFG v m d = wr d Reg.AGE_CFG (stored d Reg.AGE_CFG v) := by
  obtain ⟨p, hp, hb⟩ : ∃ p, regAt Reg.AGE_CFG = some p ∧ p.1.base = Reg.AGE_CFG :=
    ⟨(regAt Reg.AGE_CFG).get (by decide), (Option.some_get _).symm, by decide⟩
  rw [regWrite_reaches h hp hf (by decide) (by decide) (by decide) (by decide), hb]
  have hvote : votedReg Reg.AGE_CFG = false := by decide
  simp only [regEffect_AGE_CFG, if_true, voterWrite_plain _ _ _ _ hvote]

end

/-! The command. -/

theorem exec_registerWrite (s : State) (agent off : Nat) (v : W64) (half : Bool) :
    exec (.registerWrite agent off v half) s = execRegisterWrite agent off v half s := rfl

theorem exec_registerWrite_full (s : State) (agent off : Nat) (v : W64) :
    exec (.registerWrite agent off v false) s = .next (commit s (regWrite agent off v s.mem s.dev)) := by
  rw [exec_registerWrite, execRegisterWrite, runMem, if_neg Bool.false_ne_true]

theorem exec_registerWrite_half (s : State) (agent off : Nat) (v : W64) :
    exec (.registerWrite agent off v true) s = .next (commit s (halfWrite agent off s.dev)) := by
  rw [exec_registerWrite, execRegisterWrite, runMem, if_pos rfl]

@[simp] theorem rd_commit (s : State) (d : Dev) (o : Nat) : rd (commit s d).dev o = rd d o :=
  rd_congr (commit_regs s d) (commit_fuses s d) o

@[simp] theorem rdF_commit (s : State) (d : Dev) (o : Nat) (f : Fld) : rdF (commit s d).dev o f = rdF d o f := by simp [rdF]

/-- The state after a rejected write: HOST_REJECT counts it, no other register changes, and no fault is raised. -/
theorem commit_hostReject (s : State) (agent off : Nat) (isl : List Nat) :
    (∀ o, o ≠ Reg.HOST_REJECT → rd (commit s (hostReject s.dev agent off isl)).dev o = rd s.dev o) ∧
      rdF (commit s (hostReject s.dev agent off isl)).dev Reg.HOST_REJECT Reg.HOST_REJECT_COUNT =
        min (rdF s.dev Reg.HOST_REJECT Reg.HOST_REJECT_COUNT + 1) 32767 ∧
      (commit s (hostReject s.dev agent off isl)).dev.flt = s.dev.flt :=
  ⟨fun o h => by rw [rd_commit, rd_hostReject_other s.dev agent off isl h], by rw [rdF_commit, rdF_hostReject_count],
    by rw [commit_flt, hostReject_flt]⟩

/-- Settles O18: each clause is the end of the path that its write takes. -/
theorem registerWrites : Obligations.RegisterWrites := by
  unfold Obligations.RegisterWrites
  refine ⟨?stored, ?outOfRange, ?islandOff, ?half, ?ctlReset, ?unitAbsent, ?indexAbsent⟩
  case stored =>
    intro s agent v hreach hrange
    rw [exec_registerWrite_full, regWrite_AGE_CFG hreach hrange]
    exact ⟨_, rfl, by rw [rd_commit, rd_wr_same], fun o ho => by rw [rd_commit, rd_wr_other s.dev _ ho],
      by rw [commit_host, wr_host]⟩
  case outOfRange =>
    intro s agent off v p hreach hoff h8 hpeek hreg hrange
    rw [exec_registerWrite_full, regWrite_outOfRange hreach hoff h8 hpeek hreg hrange]
    exact ⟨_, rfl, commit_hostReject ..⟩
  case islandOff =>
    intro s agent off v hctl hunit h8 hpeek hparity hoff
    rw [exec_registerWrite_full, regWrite_islandOff hctl hunit h8 hpeek hparity hoff]
    obtain ⟨hregs, hcount, -⟩ := commit_hostReject s agent off (islandsOf s.dev off v)
    exact ⟨_, rfl, hregs, hcount⟩
  case half =>
    intro s agent off v hctl
    rw [exec_registerWrite_half, halfWrite_rejected hctl]
    obtain ⟨hregs, hcount, -⟩ := commit_hostReject s agent off (islandsOf s.dev (off / 8 * 8) 0)
    exact ⟨_, rfl, hregs, hcount⟩
  case ctlReset =>
    intro s agent off v half hctl
    cases half with
    | false => rw [exec_registerWrite_full, regWrite_of_ctlReset hctl]
    | true => rw [exec_registerWrite_half, halfWrite_of_ctlReset hctl]
  case unitAbsent =>
    intro s agent off v hunit
    rw [exec_registerWrite_full, regWrite_ignored (.inr (.inl hunit))]
  case indexAbsent =>
    intro s agent off v p hctl hparity hisl hbusy hreg hindex hoff
    rw [exec_registerWrite_full, regWrite_indexAbsent hctl hparity hisl hbusy hreg hindex hoff]

end Sys2Proof.Machine
end

section
/-!
PROOF. Words built from fields, the committed state, and the path of a write to a register that has a rule of its own.
-/
namespace Sys2Proof.Machine

/-! Fields of a word. -/

/-- A field reads what a list of field writes gives it last. -/
theorem getF_foldl_setF_last (l r : List (Fld × Nat)) (v : W64) {g : Fld} {x : Nat} (hg : g.lo + g.w ≤ 64)
    (h : ∀ y ∈ r, g.lo + g.w ≤ y.1.lo ∨ y.1.lo + y.1.w ≤ g.lo) :
    getF ((l ++ (g, x) :: r).foldl (fun v x => setF v x.1 x.2) v) g = x % 2 ^ g.w := by
  rw [List.foldl_append, List.foldl_cons, getF_foldl_setF_other r _ hg h, getF_setF _ _ _ hg]

theorem rdF_wrFs_last (d : Dev) (off : Nat) (l r : List (Fld × Nat)) {g : Fld} {x : Nat} (hg : g.lo + g.w ≤ 64)
    (h : ∀ y ∈ r, g.lo + g.w ≤ y.1.lo ∨ y.1.lo + y.1.w ≤ g.lo) : rdF (wrFs d off (l ++ (g, x) :: r)) off g = x % 2 ^ g.w := by
  rw [rdF, rd_wrFs, if_pos rfl, getF_foldl_setF_last l r _ hg h]

theorem rd_wrFs_other (d : Dev) {off o : Nat} (l : List (Fld × Nat)) (h : o ≠ off) : rd (wrFs d off l) o = rd d o :=
  rd_wr_other d _ h

theorem rdF_congr {d e : Dev} {o : Nat} (h : rd e o = rd d o) (f : Fld) : rdF e o f = rdF d o f := by rw [rdF, rdF, h]

/-! What a committed state shows of its device. -/

@[simp] theorem moveF_commit (s : State) (d : Dev) (a : Nat) (f : Fld) : moveF (commit s d).dev a f = moveF d a f := rfl
@[simp] theorem getVoq_commit (s : State) (d : Dev) (a m : Nat) : getVoq (commit s d).dev a m = getVoq d a m := rfl
@[simp] theorem getAcre_commit (s : State) (d : Dev) (a : Nat) : getAcre (commit s d).dev a = getAcre d a := rfl
@[simp] theorem acreMap_commit (s : State) (d : Dev) (a j : Nat) : acreMap (commit s d).dev a j = acreMap d a j := rfl
@[simp] theorem activeSlot_commit (s : State) (d : Dev) : activeSlot (commit s d).dev = activeSlot d := rfl
@[simp] theorem profilePending_commit (s : State) (d : Dev) : profilePending (commit s d).dev = profilePending d := rfl
@[simp] theorem getStash_commit (s : State) (d : Dev) (n i : Nat) : getStash (commit s d).dev n i = getStash d n i := rfl
@[simp] theorem getFur_commit (s : State) (d : Dev) (a f : Nat) : getFur (commit s d).dev a f = getFur d a f := rfl
@[simp] theorem ecc_commit (s : State) (d : Dev) (r : Ram) (i : Nat) : ecc (commit s d).dev r i = ecc d r i := rfl
@[simp] theorem flagF_commit (s : State) (d : Dev) (o : Nat) (f : Fld) : flagF (commit s d).dev o f = flagF d o f := by simp [flagF]

/-! A register with a rule of its own. -/

/-- The offset is that of entry i, j of the register array at b, outside the MICRO window and Rind's lease. -/
def isOwnReg (off b i j : Nat) : Bool :=
  (regAt off).map (fun p => (p.1.base, p.2.getD 0 0, p.2.getD 1 0)) == some (b, i, j)
    && decide (off < 0x2000000 ∨ 0x3FF0000 ≤ off) && !(unpeek off).2 && off % 8 == 0 && off / 0x100000 != 26

section
variable {m : Mem} {d d' : Dev} {agent off b i j : Nat} {v : W64}

/-- A write that reaches such a register is settled by the register's own rule. -/
theorem regWrite_own (hp : isOwnReg off b i j = true) (h : WriteReaches d agent off v) (hf : FieldsInRange off v) :
    regWrite agent off v m d =
      (let r := regEffect ⟨agent, off, b, i, j, v, stored d off v⟩ m d
       if r.1 then voterWrite r.2 b off ((islandsOf d off v).headD 0) else hostReject r.2 agent off (islandsOf d off v)) := by
  simp only [isOwnReg, Bool.and_eq_true, beq_iff_eq, decide_eq_true_eq, Bool.not_eq_true', bne_iff_ne, Option.map_eq_some_iff,
    Prod.mk.injEq] at hp
  obtain ⟨⟨⟨⟨⟨p, hr, rfl, rfl, rfl⟩, ho⟩, hk⟩, h8⟩, hl⟩ := hp
  exact regWrite_reaches h hr hf ho hk h8 hl

theorem regWrite_accepted (hp : isOwnReg off b i j = true) (hv : votedReg b = false) (h : WriteReaches d agent off v)
    (hf : FieldsInRange off v) (he : regEffect ⟨agent, off, b, i, j, v, stored d off v⟩ m d = (true, d')) :
    regWrite agent off v m d = d' := by
  rw [regWrite_own hp h hf]
  simp only [he, if_true, voterWrite_plain _ _ _ _ hv]

theorem regWrite_refused (hp : isOwnReg off b i j = true) (h : WriteReaches d agent off v)
    (hf : FieldsInRange off v) (he : regEffect ⟨agent, off, b, i, j, v, stored d off v⟩ m d = (false, d')) :
    regWrite agent off v m d = hostReject d' agent off (islandsOf d off v) := by
  rw [regWrite_own hp h hf]
  simp only [he, Bool.false_eq_true, if_false]

end

/-! Soft-error injection (R437): it changes FAULT_INJECT and the collector's record of it. -/

/-- Two writes of one register change the registers alone, and of them that one. -/
theorem wr_wr_shape (d : Dev) (off : Nat) (v w : W64) : ∃ re, wr (wr d off v) off w = { d with regs := re } ∧
    ∀ o, o ≠ off → spGet (resetVal d.fuses.half) re o = rd d o :=
  ⟨_, rfl, fun _ h => (rd_wr_other (wr d off v) w h).trans (rd_wr_other d v h)⟩

/-- An injection leaves every register but FAULT_INJECT, and every part of the device but the collector. -/
theorem injectAt_shape (d : Dev) (c src a : Nat) : ∃ re fl, (injectAt d c src a).2 = { d with regs := re, flt := fl } ∧
    ∀ o, o ≠ Reg.FAULT_INJECT → spGet (resetVal d.fuses.half) re o = rd d o := by
  rw [injectAt]
  split
  · dsimp only
    rw [bumpWrap, wrF]
    obtain ⟨re, hre, hrd⟩ := wr_wr_shape d Reg.FAULT_INJECT (setF (rd d Reg.FAULT_INJECT) Reg.FAULT_INJECT_PENDING 0) _
    rw [wrF, hre]
    exact ⟨re, _, rfl, hrd⟩
  · exact ⟨d.regs, d.flt, rfl, fun o _ => rfl⟩

theorem rd_injectAt (d : Dev) (c src a : Nat) {o : Nat} (ho : o ≠ Reg.FAULT_INJECT) : rd (injectAt d c src a).2 o = rd d o := by
  obtain ⟨re, fl, h, hr⟩ := injectAt_shape d c src a
  rw [h]
  exact hr o ho

@[simp] theorem injectAt_fab (d : Dev) (c src a : Nat) : (injectAt d c src a).2.fab = d.fab := by
  obtain ⟨re, fl, h, -⟩ := injectAt_shape d c src a
  rw [h]

@[simp] theorem injectAt_orch (d : Dev) (c src a : Nat) : (injectAt d c src a).2.orch = d.orch := by
  obtain ⟨re, fl, h, -⟩ := injectAt_shape d c src a
  rw [h]

theorem rd_eccWrite (d : Dev) (r : Ram) (i src a : Nat) {o : Nat} (ho : o ≠ Reg.FAULT_INJECT) : rd (eccWrite d r i src a) o = rd d o :=
  (rd_congr (setEcc_regs ..) (setEcc_fuses ..) o).trans (rd_injectAt d 0 src a ho)

@[simp] theorem eccWrite_fab (d : Dev) (r : Ram) (i src a : Nat) : (eccWrite d r i src a).fab = d.fab := injectAt_fab ..

@[simp] theorem eccWrite_orch (d : Dev) (r : Ram) (i src a : Nat) : (eccWrite d r i src a).orch = d.orch := injectAt_orch ..

@[simp] theorem rd_startedBy (d : Dev) (src agent o : Nat) : rd (startedBy d src agent) o = rd d o := rfl
@[simp] theorem startedBy_fab (d : Dev) (src agent : Nat) : (startedBy d src agent).fab = d.fab := rfl

end Sys2Proof.Machine
end

section
/-!
PROOF. Shared pins (R24, R518, R519): what PIN_STATUS shows after the pins are settled, and the write of PIN_FEAT.
-/
namespace Sys2Proof.Machine

theorem pinClaims_lt {feat p r : Nat} (h : r ∈ pinClaims feat p) : r < 16 := by
  simp only [pinClaims, List.mem_filter, List.mem_map, List.mem_range] at h
  obtain ⟨⟨k, hk, rfl⟩, -⟩ := h
  omega

/-- A driver is 0 or a feature's rank, so it fits its field. -/
theorem pinDriver_lt (d : Dev) (p : Nat) : pinDriver d p < 16 := by
  unfold pinDriver
  dsimp only
  split
  · decide
  · rename_i r t hr
    have hlt := pinClaims_lt (hr ▸ List.mem_cons_self)
    split
    · exact hlt
    · decide

theorem rdF_pinSettle_DRIVER0 (d : Dev) : rdF (pinSettle d) Reg.PIN_STATUS Reg.PIN_STATUS_DRIVER0 = pinDriver d 0 := by
  refine (rdF_wrFs_last d _ [] _ (by decide) ?_).trans (Nat.mod_eq_of_lt (pinDriver_lt d 0))
  simp [Reg.PIN_STATUS_DRIVER0, Reg.PIN_STATUS_DRIVER1, Reg.PIN_STATUS_DRIVER2, Reg.PIN_STATUS_DRIVER3]

theorem rdF_pinSettle_DRIVER3 (d : Dev) : rdF (pinSettle d) Reg.PIN_STATUS Reg.PIN_STATUS_DRIVER3 = pinDriver d 3 :=
  (rdF_wrFs_last d _ [_, _, _] [] (by decide) (by simp)).trans (Nat.mod_eq_of_lt (pinDriver_lt d 3))

/-- A write that takes no pin from a feature records no conflict. -/
theorem pinFeatWrite_noConflict {d : Dev} {v : W64} (hs : sourceExists d (getF v Reg.PIN_FEAT_OBS_ISLAND) = true)
    (hn : ((pinConflicts v.toNat).all fun c => (pinConflicts (rd d Reg.PIN_FEAT).toNat).contains c) = true) :
    pinFeatWrite d v = some (pinSettle (wr d Reg.PIN_FEAT (v &&& 0x1F3F))) := by
  have hnone : ((pinConflicts v.toNat).filter fun c => !(pinConflicts (rd d Reg.PIN_FEAT).toNat).contains c) = [] := by
    rw [List.filter_eq_nil_iff]
    intro c hc
    rw [List.all_eq_true.mp hn c hc]
    decide
  simp only [pinFeatWrite, hs, not_true_eq_false, if_false, hnone, List.foldl_nil]

theorem regEffect_PIN_FEAT (agent i j : Nat) (v x : W64) (m : Mem) (d : Dev) :
    regEffect ⟨agent, Reg.PIN_FEAT, Reg.PIN_FEAT, i, j, v, x⟩ m d = orReject d (pinFeatWrite d v) := by
  simp [regEffect, effAon, Reg.PIN_FEAT, Reg.AON_TIME_SET, Reg.AON_TIME_ADJ, Reg.AON_COMP_CFG, Reg.AON_FALLOW, Reg.AON_ALARM,
    Reg.AON_HOLDUP_CFG, Reg.AON_LB_CFG, Reg.AON_LB_CTRL, Reg.AON_PIN_OVR]

theorem regWrite_PIN_FEAT {m : Mem} {d d' : Dev} {agent : Nat} {v : W64} (h : WriteReaches d agent Reg.PIN_FEAT v)
    (hf : FieldsInRange Reg.PIN_FEAT v) (hw : pinFeatWrite d v = some d') : regWrite agent Reg.PIN_FEAT v m d = d' :=
  regWrite_accepted (b := Reg.PIN_FEAT) (i := 0) (j := 0) (by decide) (by decide) h hf (by rw [regEffect_PIN_FEAT, hw]; rfl)

theorem exec_pinFeatWrite (s : State) (agent : Nat) (v : W64) :
    exec (.pinFeatWrite agent v) s = .next (commit s (regWrite agent Reg.PIN_FEAT v s.mem s.dev)) := rfl

theorem exec_resourceRelease (s : State) : exec .resourceRelease s = .next (commit s (pinSettle s.dev)) := rfl

/-- Settles O9: a write that brings no new conflict settles the pins, and so does a release; PIN_STATUS then names each pin's driver. -/
theorem sharedPins : Obligations.SharedPins := by
  unfold Obligations.SharedPins
  refine ⟨?write, ?release⟩
  case write =>
    intro s agent v hreach hrange hsrc hconf
    rw [exec_pinFeatWrite, regWrite_PIN_FEAT hreach hrange (pinFeatWrite_noConflict hsrc hconf)]
  case release =>
    intro s
    exact ⟨_, exec_resourceRelease s, by rw [rdF_commit, rdF_pinSettle_DRIVER0], by rw [rdF_commit, rdF_pinSettle_DRIVER3]⟩

end Sys2Proof.Machine
end

section
/-!
PROOF. Ordered acre moves (R220): the write of ACRE_MAP, and the end of a hold, by drain or by time.
-/
namespace Sys2Proof.Machine

/-! The write of ACRE_MAP. -/

/-- Entry j of the map is a field of its word. -/
theorem acreMap_eq_getF (d : Dev) (a j : Nat) : acreMap d a j = getF (rd d (Reg.ACRE_MAP a (j / 2))) ⟨32 * (j % 2), 2⟩ := rfl

theorem acreMap_lt (d : Dev) (a j : Nat) : acreMap d a j < 4 := bits_lt _ _ 2

theorem acreMap_congr {d e : Dev} {a j : Nat} (h : rd e (Reg.ACRE_MAP a (j / 2)) = rd d (Reg.ACRE_MAP a (j / 2))) :
    acreMap e a j = acreMap d a j := by rw [acreMap, acreMap, h]

theorem isOwnReg_ACRE_MAP : ∀ a < 4, ∀ k < 32, isOwnReg (Reg.ACRE_MAP a k) (Reg.ACRE_MAP 0 0) a k = true := by decide +kernel

theorem regEffect_acreBlock {c : RegW} {m : Mem} {d : Dev} (h : 16 ≤ c.off / 0x100000 ∧ c.off / 0x100000 < 20) :
    regEffect c m d = effAcre c d := by
  simp only [regEffect]
  repeat rw [if_neg (by omega)]
  rw [if_pos h.2]

theorem regEffect_ACRE_MAP {agent a k : Nat} (v x : W64) (m : Mem) (d : Dev) (ha : a < 4) (hk : k < 32) :
    regEffect ⟨agent, Reg.ACRE_MAP a k, Reg.ACRE_MAP 0 0, a, k, v, x⟩ m d = orReject d (acreMapWrite d a k v) := by
  rw [regEffect_acreBlock (by simp only [Reg.ACRE_MAP]; omega), effAcre, if_neg (show Reg.ACRE_MAP 0 0 ≠ Reg.FURROW_MAP 0 0 by decide),
    if_pos rfl]

section
variable {d : Dev} {a k i : Nat} {v : W64}

/-- The entries that a write changes: one alone, when the other is written as it is. -/
theorem mapChanged_one (hi : i < 2) (ho : bits v.toNat (32 * (1 - i)) 2 = acreMap d a (2 * k + (1 - i))) :
    ((List.range 2).filter fun j => bits v.toNat (32 * j) 2 != acreMap d a (2 * k + j)) =
      if bits v.toNat (32 * i) 2 = acreMap d a (2 * k + i) then [] else [i] := by
  rw [show List.range 2 = [0, 1] from rfl]
  obtain rfl | rfl : i = 0 ∨ i = 1 := by omega
  · by_cases h : bits v.toNat (32 * 0) 2 = acreMap d a (2 * k + 0) <;> simp_all
  · by_cases h : bits v.toNat (32 * 1) 2 = acreMap d a (2 * k + 1) <;> simp_all

/-- The device after the write that starts a move: the entry's word, and ACRE_MOVE_STATUS in HOLD. -/
def moveBegun (d : Dev) (a k i new : Nat) : Dev :=
  wr (wr d (Reg.ACRE_MAP a k) (setF (rd d (Reg.ACRE_MAP a k)) ⟨32 * i, 2⟩ new)) (Reg.ACRE_MOVE_STATUS a)
    (mkWord [(Reg.ACRE_MOVE_STATUS_ENTRY, 2 * k + i), (Reg.ACRE_MOVE_STATUS_FROM, acreMap d a (2 * k + i)),
      (Reg.ACRE_MOVE_STATUS_TO, new), (Reg.ACRE_MOVE_STATUS_PHASE, 1)])

/-- What a write does that names one entry anew at most. -/
theorem acreMapWrite_one (hi : i < 2) (ho : bits v.toNat (32 * (1 - i)) 2 = acreMap d a (2 * k + (1 - i))) :
    acreMapWrite d a k v =
      if bits v.toNat (32 * i) 2 = acreMap d a (2 * k + i) then some d
      else if moveF d a Reg.ACRE_MOVE_STATUS_PHASE ≠ 0 ∨ acreCount d ≤ bits v.toNat (32 * i) 2 then none
      else some (moveBegun d a k i (bits v.toNat (32 * i) 2)) := by
  rw [acreMapWrite]
  dsimp only
  rw [mapChanged_one hi ho]
  by_cases h : bits v.toNat (32 * i) 2 = acreMap d a (2 * k + i)
  · rw [if_pos h, if_pos h, if_pos rfl]
  · simp [h, moveBegun, setF]

/-! What the start of a move leaves. -/

theorem ACRE_MAP_ne_status (a a' k : Nat) (hk : k < 32) (ha' : a' < 4) : Reg.ACRE_MAP a k ≠ Reg.ACRE_MOVE_STATUS a' := by
  simp only [Reg.ACRE_MAP, Reg.ACRE_MOVE_STATUS]
  omega

/-- The entry has its new acre, and every other entry of the acre its own. -/
theorem acreMap_moveBegun {new : Nat} (ha : a < 4) (hi : i < 2) (hn : new < 4) {j : Nat} (hj : j < 64) :
    acreMap (moveBegun d a k i new) a j = if j = 2 * k + i then new else acreMap d a j := by
  have hs : rd (moveBegun d a k i new) (Reg.ACRE_MAP a (j / 2)) =
      if j / 2 = k then setF (rd d (Reg.ACRE_MAP a k)) ⟨32 * i, 2⟩ new else rd d (Reg.ACRE_MAP a (j / 2)) := by
    rw [moveBegun, rd_wr_other _ _ (ACRE_MAP_ne_status a a _ (by omega) ha), rd_wr]
    congr 1
    simp [Reg.ACRE_MAP]
  rw [acreMap_eq_getF, hs]
  by_cases hk : j / 2 = k
  · rw [if_pos hk]
    by_cases hji : j % 2 = i
    · rw [if_pos (by omega), hji, getF_setF _ _ _ (by dsimp only; omega)]
      exact Nat.mod_eq_of_lt hn
    · rw [if_neg (by omega), getF_setF_other _ _ _ _ (by dsimp only; omega) (by dsimp only; omega), ← hk, acreMap_eq_getF]
  · rw [if_neg hk, if_neg (by omega), acreMap_eq_getF]

theorem moveF_moveBegun (d : Dev) (a k i new : Nat) (l r : List (Fld × Nat)) {g : Fld} {x : Nat}
    (hl : l ++ (g, x) :: r = [(Reg.ACRE_MOVE_STATUS_ENTRY, 2 * k + i), (Reg.ACRE_MOVE_STATUS_FROM, acreMap d a (2 * k + i)),
      (Reg.ACRE_MOVE_STATUS_TO, new), (Reg.ACRE_MOVE_STATUS_PHASE, 1)])
    (hg : g.lo + g.w ≤ 64) (hr : ∀ y ∈ r, g.lo + g.w ≤ y.1.lo ∨ y.1.lo + y.1.w ≤ g.lo) :
    moveF (moveBegun d a k i new) a g = x % 2 ^ g.w := by
  rw [moveF, rdF, moveBegun, rd_wr_same, ← hl]
  exact getF_foldl_setF_last l r 0 hg hr

end

section
variable {m : Mem} {d d' : Dev} {agent a k : Nat} {v : W64} (ha : a < 4) (hk : k < 32)
  (h : WriteReaches d agent (Reg.ACRE_MAP a k) v) (hf : FieldsInRange (Reg.ACRE_MAP a k) v)
include ha hk h hf

theorem regWrite_ACRE_MAP (hw : acreMapWrite d a k v = some d') : regWrite agent (Reg.ACRE_MAP a k) v m d = d' :=
  regWrite_accepted (isOwnReg_ACRE_MAP a ha k hk) (by decide) h hf (by rw [regEffect_ACRE_MAP _ _ _ _ ha hk, hw]; rfl)

theorem regWrite_ACRE_MAP_refused (hw : acreMapWrite d a k v = none) : regWrite agent (Reg.ACRE_MAP a k) v m d =
    hostReject d agent (Reg.ACRE_MAP a k) (islandsOf d (Reg.ACRE_MAP a k) v) :=
  regWrite_refused (isOwnReg_ACRE_MAP a ha k hk) h hf (by rw [regEffect_ACRE_MAP _ _ _ _ ha hk, hw]; rfl)

end

theorem exec_acreMapWrite (s : State) (agent a k : Nat) (v : W64) :
    exec (.acreMapWrite agent a k v) s = .next (commit s (regWrite agent (Reg.ACRE_MAP a k) v s.mem s.dev)) := rfl

/-- The three ends of a write that names one entry anew: it starts a move, it changes nothing, or it is rejected. -/
theorem exec_acreMapWrite_one {s : State} {agent a k i new : Nat} {v : W64} (ha : a < 4) (hk : k < 32) (hi : i < 2)
    (hreach : WriteReaches s.dev agent (Reg.ACRE_MAP a k) v) (hrange : FieldsInRange (Reg.ACRE_MAP a k) v)
    (hn : new = bits v.toNat (32 * i) 2) (ho : bits v.toNat (32 * (1 - i)) 2 = acreMap s.dev a (2 * k + (1 - i))) :
    (new ≠ acreMap s.dev a (2 * k + i) → new < acreCount s.dev → moveF s.dev a Reg.ACRE_MOVE_STATUS_PHASE = 0 →
      exec (.acreMapWrite agent a k v) s = .next (commit s (moveBegun s.dev a k i new))) ∧
    (new = acreMap s.dev a (2 * k + i) → exec (.acreMapWrite agent a k v) s = .next (commit s s.dev)) ∧
    (new ≠ acreMap s.dev a (2 * k + i) → moveF s.dev a Reg.ACRE_MOVE_STATUS_PHASE ≠ 0 →
      exec (.acreMapWrite agent a k v) s =
        .next (commit s (hostReject s.dev agent (Reg.ACRE_MAP a k) (islandsOf s.dev (Reg.ACRE_MAP a k) v)))) := by
  have hw := acreMapWrite_one (k := k) hi ho
  rw [← hn] at hw
  refine ⟨fun hne hlt hph => ?_, fun heq => ?_, fun hne hph => ?_⟩
  · rw [exec_acreMapWrite, regWrite_ACRE_MAP ha hk hreach hrange (hw.trans ?_)]
    rw [if_neg hne, if_neg (by omega)]
  · rw [exec_acreMapWrite, regWrite_ACRE_MAP ha hk hreach hrange (hw.trans (if_pos heq))]
  · rw [exec_acreMapWrite, regWrite_ACRE_MAP_refused ha hk hreach hrange (hw.trans ?_)]
    rw [if_neg hne, if_pos (.inl hph)]

/-! The end of a hold. -/

theorem getVoq_putVoq_same (d : Dev) (a m : Nat) (l : List Pkt) : getVoq (putVoq d a m l) a m = l := by simp [getVoq, putVoq]

@[simp] theorem moveF_putVoq (d : Dev) (a m : Nat) (l : List Pkt) (b : Nat) (f : Fld) : moveF (putVoq d a m l) b f = moveF d b f := rfl

/-- Packets that fit enter the VOQ of the move's new acre in their order, and change nothing else. -/
theorem foldl_voqPush (l : List Pkt) (d : Dev) {a m : Nat} (hm : moveF d a Reg.ACRE_MOVE_STATUS_TO = m)
    (hl : (getVoq d a m).length + l.length ≤ 512) :
    ∃ fab, l.foldl (fun d p => voqPush d a (moveF d a Reg.ACRE_MOVE_STATUS_TO) p) d = { d with fab := fab } ∧
      getVoq { d with fab := fab } a m = getVoq d a m ++ l := by
  induction l generalizing d with
  | nil => exact ⟨d.fab, rfl, (List.append_nil _).symm⟩
  | cons p t ih =>
    have hroom : ¬ (getVoq d a m).length ≥ 512 := by simp only [List.length_cons] at hl; omega
    have hpush : voqPush d a m p = putVoq d a m (getVoq d a m ++ [p]) := by rw [voqPush, if_neg hroom]
    obtain ⟨fab, hfold, hq⟩ := ih (putVoq d a m (getVoq d a m ++ [p])) hm
      (by rw [getVoq_putVoq_same]; simp only [List.length_append, List.length_cons, List.length_nil] at hl ⊢; omega)
    refine ⟨fab, ?_, ?_⟩
    · rw [List.foldl_cons, hm, hpush, hfold]
      rfl
    · rw [getVoq_putVoq_same, List.append_assoc] at hq
      exact hq

/-- The held packets have entered the VOQ of the move's new acre, and no register has changed. -/
theorem moveRelease_spec {d : Dev} {a m : Nat} (hm : moveF d a Reg.ACRE_MOVE_STATUS_TO = m)
    (hl : (getVoq d a m).length + (getAcre d a).moveHold.length ≤ 512) :
    (∀ f, moveF (moveRelease d a) a f = moveF d a f) ∧ (getAcre (moveRelease d a) a).moveHold = [] ∧
      getVoq (moveRelease d a) a m = getVoq d a m ++ (getAcre d a).moveHold := by
  obtain ⟨fab, hfold, hq⟩ := foldl_voqPush (getAcre d a).moveHold (putAcre d a { getAcre d a with moveHold := [] }) hm hl
  rw [moveRelease, hfold]
  refine ⟨fun f => rfl, ?_, hq⟩
  exact congrArg AcreSt.moveHold (getAcre_putAcre_same d a _)

theorem acreMoveDrained_hold {d : Dev} {a : Nat} (hp : moveF d a Reg.ACRE_MOVE_STATUS_PHASE = 1)
    (hh : moveHolds d a (64 * a + moveF d a Reg.ACRE_MOVE_STATUS_ENTRY) (moveF d a Reg.ACRE_MOVE_STATUS_FROM) = false) :
    acreMoveDrained a d = moveRelease (wrF d (Reg.ACRE_MOVE_STATUS a) Reg.ACRE_MOVE_STATUS_PHASE 0) a := by
  rw [acreMoveDrained]
  simp only [hp, hh, Nat.one_ne_zero, Bool.false_eq_true, or_self, if_false, if_true]

theorem acreMoveDrained_waits {d : Dev} {a : Nat}
    (hh : moveHolds d a (64 * a + moveF d a Reg.ACRE_MOVE_STATUS_ENTRY) (moveF d a Reg.ACRE_MOVE_STATUS_FROM) = true) :
    acreMoveDrained a d = d := by
  rw [acreMoveDrained]
  exact if_pos (.inr hh)

theorem acreMoveExpiry_hold {d : Dev} {a : Nat} (hp : moveF d a Reg.ACRE_MOVE_STATUS_PHASE = 1) :
    acreMoveExpiry a d =
      moveRelease (wrFs d (Reg.ACRE_MOVE_STATUS a) [(Reg.ACRE_MOVE_STATUS_PHASE, 2), (Reg.ACRE_MOVE_STATUS_EXPIRED, 1)]) a := by
  rw [acreMoveExpiry, if_neg (by simp [hp])]

theorem exec_acreMoveDrained (s : State) (a : Nat) : exec (.acreMoveDrained a) s = .next (commit s (acreMoveDrained a s.dev)) := rfl

theorem exec_acreMoveHoldExpiry (s : State) (a : Nat) : exec (.acreMoveHoldExpiry a) s = .next (commit s (acreMoveExpiry a s.dev)) := rfl

end Sys2Proof.Machine
end

section
/-!
PROOF. The multicast tables (R232): the commands of MC_CMD and the copies that they write. With the acre moves the obligation on both is
settled.
-/
namespace Sys2Proof.Machine

/-! The command as its register holds it. -/

theorem isOwnReg_MC_CMD : isOwnReg Reg.MC_CMD Reg.MC_CMD 0 0 = true := by decide +kernel

/-- Both fields of MC_CMD are taken from the value written. -/
theorem stored_MC_CMD (d : Dev) (v : W64) : stored d Reg.MC_CMD v =
    setF (setF (rd d Reg.MC_CMD) Reg.MC_CMD_INDEX (getF v Reg.MC_CMD_INDEX)) Reg.MC_CMD_OP (getF v Reg.MC_CMD_OP) := rfl

theorem regEffect_MC_CMD (agent i j : Nat) (v x : W64) (m : Mem) (d : Dev) :
    regEffect ⟨agent, Reg.MC_CMD, Reg.MC_CMD, i, j, v, x⟩ m d = (true, mcCmd x (startedBy d 4 agent)) := by
  simp [regEffect, effFabric, Reg.MC_CMD, Reg.POOL_CFG, Reg.HOLDING_POOL, Reg.LL_POOL, Reg.CAPTURE_POOL]

section
variable (d : Dev) (v : W64) {op : Nat} (h : op ≤ 4)

theorem getF_stored_MC_CMD_INDEX (op : Nat) :
    getF (stored d Reg.MC_CMD (setF v Reg.MC_CMD_OP op)) Reg.MC_CMD_INDEX = getF v Reg.MC_CMD_INDEX := by
  rw [stored_MC_CMD, getF_setF_other _ _ _ _ (by decide) (by decide), getF_setF _ _ _ (by decide),
    getF_setF_other _ _ _ _ (by decide) (by decide)]
  exact Nat.mod_eq_of_lt (bits_lt _ _ _)

include h in
theorem getF_stored_MC_CMD_OP : getF (stored d Reg.MC_CMD (setF v Reg.MC_CMD_OP op)) Reg.MC_CMD_OP = op := by
  rw [stored_MC_CMD, getF_setF _ _ _ (by decide), getF_setF _ _ _ (by decide)]
  simp only [Reg.MC_CMD_OP]
  omega

end

/-- The write of a command performs it. -/
theorem regWrite_MC_CMD {m : Mem} {d : Dev} {agent : Nat} {v : W64} (h : WriteReaches d agent Reg.MC_CMD v)
    (hf : FieldsInRange Reg.MC_CMD v) : regWrite agent Reg.MC_CMD v m d = mcCmd (stored d Reg.MC_CMD v) (startedBy d 4 agent) :=
  regWrite_accepted isOwnReg_MC_CMD (by decide) h hf (regEffect_MC_CMD ..)

section
variable {v : W64} (d : Dev)

theorem mcCmd_readGroup (h : getF v Reg.MC_CMD_OP = 1) : mcCmd v d = readGroup v d := by simp [mcCmd, h]
theorem mcCmd_writeGroup (h : getF v Reg.MC_CMD_OP = 2) : mcCmd v d = writeGroup v d := by simp [mcCmd, h]
theorem mcCmd_readMember (h : getF v Reg.MC_CMD_OP = 3) : mcCmd v d = readMember v d := by simp [mcCmd, h]
theorem mcCmd_writeMember (h : getF v Reg.MC_CMD_OP = 4) : mcCmd v d = writeMember v d := by simp [mcCmd, h]

end

/-! The begin of a command. -/

section
variable (d : Dev) (v : W64) (op r : Nat)

@[simp] theorem mcBegin_fab : (mcBegin d v op r).fab = d.fab := rfl

theorem rdF_mcBegin_RESULT (hr : r < 16) : rdF (mcBegin d v op r) Reg.MC_STATUS Reg.MC_STATUS_RESULT = r :=
  (rdF_wrFs_last _ _ [_] [] (by decide) (by simp)).trans (Nat.mod_eq_of_lt hr)

theorem rd_mcBegin_MC_DATA : rd (mcBegin d v op r) Reg.MC_DATA = rd d Reg.MC_DATA := by
  rw [mcBegin, rd_wrFs_other _ _ (by decide), rd_wr_other _ _ (by decide)]

end

/-! The copies. -/

/-- What every step keeps holds at the end of a run of steps, and each step's own reading is still there. -/
theorem foldl_each_reads {α β : Type} (f : β → α → β) (get : β → α → W64) (w : W64) (keep : β → Prop)
    (hkeep : ∀ b a, keep b → keep (f b a)) (hsame : ∀ b a, keep b → get (f b a) a = w)
    (hother : ∀ b a c, c ≠ a → get (f b a) c = get b c) (l : List α) :
    ∀ b, keep b → keep (l.foldl f b) ∧ ∀ a ∈ l, get (l.foldl f b) a = w := by
  have hold : ∀ (l : List α) b a, keep b → get b a = w → get (l.foldl f b) a = w := by
    intro l
    induction l with
    | nil => exact fun b a _ h => h
    | cons x t ih =>
      intro b a hb h
      refine ih (f b x) a (hkeep b x hb) ?_
      by_cases hax : a = x
      · rw [hax, hsame b x hb]
      · rw [hother b x a hax, h]
  induction l with
  | nil => exact fun b hb => ⟨hb, by simp⟩
  | cons x t ih =>
    intro b hb
    obtain ⟨hk, ht⟩ := ih (f b x) (hkeep b x hb)
    refine ⟨hk, fun a ha => ?_⟩
    obtain rfl | hat := List.mem_cons.mp ha
    · exact hold t _ a (hkeep b a hb) (hsame b a hb)
    · exact ht a hat

/-- One replicator's copy of a group entry is written from MC_DATA. -/
def groupCopy (i : Nat) (d : Dev) (m : Nat) : Dev :=
  let w := BitVec.ofNat 64 ((rd d Reg.MC_DATA).toNat &&& 0x800000000FFFFFFF)
  eccWrite { d with fab := { d.fab with groups := spPut (fun _ => 0) d.fab.groups (groupKey m i) w } } .group (groupKey m i)
    (256 * 6 + m) 0

/-- One replicator's copy of a member entry is written from MC_DATA. -/
def memberCopy (i : Nat) (d : Dev) (m : Nat) : Dev :=
  let w := BitVec.ofNat 64 (bits (rd d Reg.MC_DATA).toNat 0 33)
  eccWrite { d with fab := { d.fab with members := spPut (fun _ => 0) d.fab.members (memberKey m i) w } } .member (memberKey m i)
    (256 * 6 + m) 0

theorem writeGroup_eq {v : W64} (h : getF v Reg.MC_CMD_INDEX < 65536) (d : Dev) :
    writeGroup v d = (List.range 4).foldl (groupCopy (getF v Reg.MC_CMD_INDEX)) (mcBegin d v 2 0) :=
  if_neg (by omega)

theorem writeMember_eq (v : W64) (d : Dev) :
    writeMember v d = (List.range 4).foldl (memberCopy (getF v Reg.MC_CMD_INDEX)) (mcBegin d v 4 0) := rfl

theorem rd_groupCopy (i m : Nat) (d : Dev) {o : Nat} (h : o ≠ Reg.FAULT_INJECT) : rd (groupCopy i d m) o = rd d o :=
  rd_eccWrite _ _ _ _ _ h
theorem rd_memberCopy (i m : Nat) (d : Dev) {o : Nat} (h : o ≠ Reg.FAULT_INJECT) : rd (memberCopy i d m) o = rd d o :=
  rd_eccWrite _ _ _ _ _ h

theorem groupWord_eq (x : W64) : BitVec.ofNat 64 (x.toNat &&& 0x800000000FFFFFFF) = x &&& 0x800000000FFFFFFF := by
  apply BitVec.eq_of_toNat_eq
  rw [BitVec.toNat_ofNat, BitVec.toNat_and, Nat.mod_eq_of_lt (Nat.and_lt_two_pow _ (by decide))]
  rfl

theorem memberWord_eq (x : W64) : BitVec.ofNat 64 (bits x.toNat 0 33) = x &&& 0x1FFFFFFFF := by
  apply BitVec.eq_of_toNat_eq
  rw [BitVec.toNat_ofNat, BitVec.toNat_and, Nat.mod_eq_of_lt (Nat.lt_trans (bits_lt _ _ _) (by decide)), bits, Nat.pow_zero, Nat.div_one]
  exact (Nat.and_two_pow_sub_one_eq_mod x.toNat 33).symm

theorem getGroup_groupCopy (i m n : Nat) (d : Dev) : getGroup (groupCopy i d m) n i =
    if n = m then rd d Reg.MC_DATA &&& 0x800000000FFFFFFF else getGroup d n i := by
  rw [getGroup, groupCopy, eccWrite_fab, spGet_spPut, groupWord_eq, getGroup]
  simp [groupKey]

theorem getMember_memberCopy (i m n : Nat) (d : Dev) : getMember (memberCopy i d m) n i =
    if n = m then rd d Reg.MC_DATA &&& 0x1FFFFFFFF else getMember d n i := by
  rw [getMember, memberCopy, eccWrite_fab, spGet_spPut, memberWord_eq, getMember]
  simp [memberKey]

/-- What the write of a copy leaves: the data, and the result of the command. -/
def McKept (x : W64) (d : Dev) : Prop := rd d Reg.MC_DATA = x ∧ rdF d Reg.MC_STATUS Reg.MC_STATUS_RESULT = 0

theorem mcKept_mcBegin (d : Dev) (v : W64) (op : Nat) : McKept (rd d Reg.MC_DATA) (mcBegin d v op 0) :=
  ⟨rd_mcBegin_MC_DATA .., rdF_mcBegin_RESULT d v op 0 (by decide)⟩

theorem McKept.congr {x : W64} {d e : Dev} (h : McKept x d) (he : ∀ o, o ≠ Reg.FAULT_INJECT → rd e o = rd d o) : McKept x e :=
  ⟨(he _ (by decide)).trans h.1, (rdF_congr (he _ (by decide)) _).trans h.2⟩

/-! What the commands answer. -/

section
variable {v : W64} {i : Nat} (hi : getF v Reg.MC_CMD_INDEX = i) (d : Dev)
include hi

theorem readGroup_good (h : i < 65536) (he : ecc d .group (groupKey 0 i) ≠ 2) :
    rdF (readGroup v d) Reg.MC_STATUS Reg.MC_STATUS_RESULT = 0 ∧ rd (readGroup v d) Reg.MC_DATA = getGroup d 0 i ∧
      (readGroup v d).fab = d.fab := by
  have hr : readGroup v d = wr (mcBegin d v 1 0) Reg.MC_DATA (getGroup d 0 i) := by
    rw [readGroup, hi]
    rw [if_neg (by omega), if_neg he]
  rw [hr]
  exact ⟨(rdF_congr (rd_wr_other _ _ (by decide)) _).trans (rdF_mcBegin_RESULT d v 1 0 (by decide)), rd_wr_same .., wr_fab ..⟩

theorem readGroup_bad (h : i < 65536) (he : ecc d .group (groupKey 0 i) = 2) :
    rdF (readGroup v d) Reg.MC_STATUS Reg.MC_STATUS_RESULT = 2 ∧ (readGroup v d).fab = d.fab := by
  have hr : readGroup v d = mcBegin d v 1 2 := by
    rw [readGroup, hi]
    rw [if_neg (by omega), if_pos he]
  rw [hr]
  exact ⟨rdF_mcBegin_RESULT d v 1 2 (by decide), rfl⟩

theorem readMember_good (he : ecc d .member (memberKey 0 i) ≠ 2) :
    rdF (readMember v d) Reg.MC_STATUS Reg.MC_STATUS_RESULT = 0 ∧ rd (readMember v d) Reg.MC_DATA = getMember d 0 i ∧
      (readMember v d).fab = d.fab := by
  have hr : readMember v d = wr (mcBegin d v 3 0) Reg.MC_DATA (getMember d 0 i) := by
    rw [readMember, hi]
    exact if_neg he
  rw [hr]
  exact ⟨(rdF_congr (rd_wr_other _ _ (by decide)) _).trans (rdF_mcBegin_RESULT d v 3 0 (by decide)), rd_wr_same .., wr_fab ..⟩

theorem writeGroup_good (h : i < 65536) : rdF (writeGroup v d) Reg.MC_STATUS Reg.MC_STATUS_RESULT = 0 ∧
    ∀ m, m < 4 → getGroup (writeGroup v d) m i = rd d Reg.MC_DATA &&& 0x800000000FFFFFFF := by
  rw [writeGroup_eq (hi ▸ h), hi]
  obtain ⟨hk, hall⟩ := foldl_each_reads (groupCopy i) (fun d m => getGroup d m i) (rd d Reg.MC_DATA &&& 0x800000000FFFFFFF)
    (McKept (rd d Reg.MC_DATA)) (fun b a hb => hb.congr fun o ho => rd_groupCopy i a b ho)
    (fun b a hb => by rw [getGroup_groupCopy, if_pos rfl, hb.1]) (fun b a c hc => by rw [getGroup_groupCopy, if_neg hc])
    (List.range 4) (mcBegin d v 2 0) (mcKept_mcBegin d v 2)
  exact ⟨hk.2, fun m hm => hall m (List.mem_range.mpr hm)⟩

theorem writeMember_good : rdF (writeMember v d) Reg.MC_STATUS Reg.MC_STATUS_RESULT = 0 ∧
    ∀ m, m < 4 → getMember (writeMember v d) m i = rd d Reg.MC_DATA &&& 0x1FFFFFFFF := by
  rw [writeMember_eq, hi]
  obtain ⟨hk, hall⟩ := foldl_each_reads (memberCopy i) (fun d m => getMember d m i) (rd d Reg.MC_DATA &&& 0x1FFFFFFFF)
    (McKept (rd d Reg.MC_DATA)) (fun b a hb => hb.congr fun o ho => rd_memberCopy i a b ho)
    (fun b a hb => by rw [getMember_memberCopy, if_pos rfl, hb.1]) (fun b a c hc => by rw [getMember_memberCopy, if_neg hc])
    (List.range 4) (mcBegin d v 4 0) (mcKept_mcBegin d v 4)
  exact ⟨hk.2, fun m hm => hall m (List.mem_range.mpr hm)⟩

end

/-! The commands. -/

section
variable (s : State) (agent : Nat) (v : W64)

theorem exec_readGroup : exec (.readGroup agent v) s =
    .next (commit s (regWrite agent Reg.MC_CMD (setF v Reg.MC_CMD_OP 1) s.mem s.dev)) := rfl
theorem exec_writeGroup : exec (.writeGroup agent v) s =
    .next (commit s (regWrite agent Reg.MC_CMD (setF v Reg.MC_CMD_OP 2) s.mem s.dev)) := rfl
theorem exec_readMember : exec (.readMember agent v) s =
    .next (commit s (regWrite agent Reg.MC_CMD (setF v Reg.MC_CMD_OP 3) s.mem s.dev)) := rfl
theorem exec_writeMember : exec (.writeMember agent v) s =
    .next (commit s (regWrite agent Reg.MC_CMD (setF v Reg.MC_CMD_OP 4) s.mem s.dev)) := rfl

end

/-- A command of MC_CMD is performed with the index of its value. -/
theorem regWrite_MC_CMD_op {s : State} {agent op : Nat} {v : W64} (hop : op ≤ 4)
    (h : WriteReaches s.dev agent Reg.MC_CMD (setF v Reg.MC_CMD_OP op) ∧ FieldsInRange Reg.MC_CMD (setF v Reg.MC_CMD_OP op)) :
    ∃ w, getF w Reg.MC_CMD_INDEX = getF v Reg.MC_CMD_INDEX ∧ getF w Reg.MC_CMD_OP = op ∧
      regWrite agent Reg.MC_CMD (setF v Reg.MC_CMD_OP op) s.mem s.dev = mcCmd w (startedBy s.dev 4 agent) :=
  ⟨_, getF_stored_MC_CMD_INDEX s.dev v op, getF_stored_MC_CMD_OP s.dev v hop, regWrite_MC_CMD h.1 h.2⟩

/-- Settles O47: a write of one entry begins its move, the end of a hold releases the held packets, and each MC_CMD command reaches the
copies of its entry. -/
theorem acreMovesAndGroups : Obligations.AcreMovesAndGroups := by
  unfold Obligations.AcreMovesAndGroups
  refine ⟨?mapWrite, ?holdEnd, ?groups⟩
  case mapWrite =>
    intro s agent a k i v new ha hk hi hreach hrange hn ho
    obtain ⟨hmove, hsame, hrej⟩ := exec_acreMapWrite_one ha hk hi hreach hrange hn ho
    refine ⟨fun hne hlt hph => ?_, hsame, fun hne hph => ?_⟩
    · have hn4 : new < 4 := hn ▸ bits_lt _ _ 2
      refine ⟨_, hmove hne hlt hph, ?phase, ?entry, ?old, ?next, fun j hj => ?_⟩
      case phase => exact moveF_moveBegun s.dev a k i new [_, _, _] [] rfl (by decide) (by simp)
      case entry =>
        refine (moveF_moveBegun s.dev a k i new [] _ rfl (by decide) ?_).trans (Nat.mod_eq_of_lt ?_)
        · simp [Reg.ACRE_MOVE_STATUS_ENTRY, Reg.ACRE_MOVE_STATUS_FROM, Reg.ACRE_MOVE_STATUS_TO, Reg.ACRE_MOVE_STATUS_PHASE]
        · simp only [Reg.ACRE_MOVE_STATUS_ENTRY]; omega
      case old =>
        refine (moveF_moveBegun s.dev a k i new [_] _ rfl (by decide) ?_).trans (Nat.mod_eq_of_lt (acreMap_lt ..))
        simp [Reg.ACRE_MOVE_STATUS_FROM, Reg.ACRE_MOVE_STATUS_TO, Reg.ACRE_MOVE_STATUS_PHASE]
      case next =>
        refine (moveF_moveBegun s.dev a k i new [_, _] _ rfl (by decide) ?_).trans (Nat.mod_eq_of_lt hn4)
        simp [Reg.ACRE_MOVE_STATUS_TO, Reg.ACRE_MOVE_STATUS_PHASE]
      rw [acreMap_commit, acreMap_moveBegun ha hi hn4 hj]
    · refine ⟨_, hrej hne hph, ?_, ?_⟩
      · rw [rd_commit, rd_hostReject_other _ _ _ _ (by simp only [Reg.ACRE_MAP, Reg.HOST_REJECT]; omega)]
      · rw [rd_commit, rd_hostReject_other _ _ _ _ (by simp only [Reg.ACRE_MOVE_STATUS, Reg.HOST_REJECT]; omega)]
  case holdEnd =>
    intro s a tm ha hph htm hlen
    refine ⟨fun hdrained => ?_, fun hholds => ?_, ?_⟩
    · obtain ⟨hF, hhold, hq⟩ := moveRelease_spec (d := wrF s.dev (Reg.ACRE_MOVE_STATUS a) Reg.ACRE_MOVE_STATUS_PHASE 0)
        (m := tm) ((rdF_wrF_other _ _ (.inr (by decide))).trans htm.symm) hlen
      refine ⟨_, (exec_acreMoveDrained s a).trans (by rw [acreMoveDrained_hold hph hdrained]), ?_, hhold, hq⟩
      rw [moveF_commit, hF]
      exact rdF_wrF_same s.dev _ _ 0 (by decide)
    · rw [exec_acreMoveDrained, acreMoveDrained_waits hholds]
    · have hTO : moveF (wrFs s.dev (Reg.ACRE_MOVE_STATUS a) [(Reg.ACRE_MOVE_STATUS_PHASE, 2), (Reg.ACRE_MOVE_STATUS_EXPIRED, 1)]) a
          Reg.ACRE_MOVE_STATUS_TO = tm :=
        (rdF_wrFs_disjoint s.dev _ _ (by decide) (by decide)).trans htm.symm
      obtain ⟨hF, hhold, hq⟩ := moveRelease_spec hTO hlen
      refine ⟨_, (exec_acreMoveHoldExpiry s a).trans (by rw [acreMoveExpiry_hold hph]), ?_, ?_, hhold, hq⟩
      · rw [moveF_commit, hF]
        exact rdF_wrFs_last s.dev _ [] [_] (by decide) (by decide)
      · rw [moveF_commit, hF]
        exact rdF_wrFs_last s.dev _ [_] [] (by decide) (by simp)
  case groups =>
    intro s agent v i hi hops
    refine ⟨fun hi16 hecc => ?_, fun hi16 hecc => ?_, fun hi16 => ?_, fun hecc => ?_, ?_⟩
    · obtain ⟨w, hwi, hop, hw⟩ := regWrite_MC_CMD_op (by decide) (hops 1 (by decide) (by decide))
      rw [exec_readGroup, hw, mcCmd_readGroup _ hop]
      exact ⟨_, rfl, readGroup_good (hwi.trans hi.symm) (startedBy s.dev 4 agent) hi16 hecc⟩
    · obtain ⟨w, hwi, hop, hw⟩ := regWrite_MC_CMD_op (by decide) (hops 1 (by decide) (by decide))
      rw [exec_readGroup, hw, mcCmd_readGroup _ hop]
      exact ⟨_, rfl, readGroup_bad (hwi.trans hi.symm) (startedBy s.dev 4 agent) hi16 hecc⟩
    · obtain ⟨w, hwi, hop, hw⟩ := regWrite_MC_CMD_op (by decide) (hops 2 (by decide) (by decide))
      rw [exec_writeGroup, hw, mcCmd_writeGroup _ hop]
      exact ⟨_, rfl, writeGroup_good (hwi.trans hi.symm) (startedBy s.dev 4 agent) hi16⟩
    · obtain ⟨w, hwi, hop, hw⟩ := regWrite_MC_CMD_op (by decide) (hops 3 (by decide) (by decide))
      rw [exec_readMember, hw, mcCmd_readMember _ hop]
      exact ⟨_, rfl, readMember_good (hwi.trans hi.symm) (startedBy s.dev 4 agent) hecc⟩
    · obtain ⟨w, hwi, hop, hw⟩ := regWrite_MC_CMD_op (by decide) (hops 4 (by decide) (by decide))
      rw [exec_writeMember, hw, mcCmd_writeMember _ hop]
      exact ⟨_, rfl, writeMember_good (hwi.trans hi.symm) (startedBy s.dev 4 agent)⟩

end Sys2Proof.Machine
end

section
/-!
PROOF. Orchard's tables: what a write of a unit leaves alone, and what the descriptors' registers decide.
-/
namespace Sys2Proof.Machine

/-! A write of a unit. -/

/-- The quarters of a unit that is written change its words' marks alone, of all that Orchard holds. -/
theorem quarterWrite_orch (src : Nat) (ws : List Nat) (d : Dev) (q : Nat) :
    ∃ hl, (quarterWrite src ws d q).orch = { d.orch with healed := hl } := by
  have hfold (l : List Nat) (v : Nat) (e : Dev) : ∃ hl, (l.foldl (fun d w => setHealed d w v) e).orch = { e.orch with healed := hl } :=
    List.foldlRecOn (motive := fun x : Dev => ∃ hl, x.orch = { e.orch with healed := hl }) l _ ⟨_, rfl⟩
      fun x ⟨hl, hx⟩ w _ => ⟨_, by rw [setHealed, hx]⟩
  rw [quarterWrite]
  dsimp only
  split
  · split
    · obtain ⟨hl, h⟩ := hfold (((List.range 3).map fun k => 3 * q + k).filter ws.contains) 1 (injectAt d 0 src 0).2
      exact ⟨hl, h.trans (by rw [injectAt_orch])⟩
    · exact ⟨d.orch.healed, injectAt_orch ..⟩
  · obtain ⟨hl, h⟩ := hfold ((List.range 3).map fun k => 3 * q + k) 0 (eccWrite d .table q src 0)
    exact ⟨hl, h.trans (by rw [eccWrite_orch])⟩

/-- A unit outside the stash is written in its row, and its words' marks are set. -/
theorem writeUnit_orch {d : Dev} {b : Tbl} {i : Nat} (hi : i < stashBase) (v : Nat) :
    ∃ rows hl, (writeUnit d b i v).orch = { d.orch with rows := rows, healed := hl } := by
  rw [writeUnit, if_neg (by omega)]
  dsimp only
  exact List.foldlRecOn (motive := fun x : Dev => ∃ rows hl, x.orch = { d.orch with rows := rows, healed := hl }) _ _ ⟨_, _, rfl⟩
    fun x ⟨rows, hl, hx⟩ q _ => by
      obtain ⟨hl', h⟩ := quarterWrite_orch (256 * 4 + blkInst (b.place i).1) (unitWords b i) x q
      exact ⟨rows, hl', by rw [h, hx]⟩

theorem writeUnit_stashUnit {d : Dev} {b : Tbl} {i : Nat} (hi : stashBase ≤ i) (v : Nat) :
    writeUnit d b i v = putStash d b.t (i - stashBase) v := if_pos hi

@[simp] theorem writeUnit_rebuild (d : Dev) (b : Tbl) (i v : Nat) : (writeUnit d b i v).orch.rebuild = d.orch.rebuild := by
  obtain hi | hi := Nat.lt_or_ge i stashBase
  · obtain ⟨rows, hl, h⟩ := writeUnit_orch (d := d) (b := b) hi v
    rw [h]
  · rw [writeUnit_stashUnit hi, putStash]

/-! The tables of the descriptors. -/

section
variable {d e : Dev} (hs : rd e Reg.PROFILE_SEL = rd d Reg.PROFILE_SEL) (h : ∀ o, 0x1510000 ≤ o → rd e o = rd d o)

include hs in
theorem activeSlot_congr : activeSlot e = activeSlot d := rdF_congr hs _

include h in
theorem tblOf_congr (s t : Nat) : tblOf e s t = tblOf d s t := by
  rw [tblOf, h (Reg.TABLE_DESC s t) (by simp only [Reg.TABLE_DESC]; omega), h (Reg.TABLE_SEED s t) (by simp only [Reg.TABLE_SEED]; omega),
    tblOf]

include hs h

theorem tbl_congr (t : Nat) : tbl e t = tbl d t := by
  rw [tbl, activeSlot_congr hs, tblOf_congr h, tbl]

theorem tblOfBlock_congr (blk : Nat) : tblOfBlock e blk = tblOfBlock d blk := by
  rw [tblOfBlock, tblOfBlock, slotTables, slotTables, activeSlot_congr hs]
  simp only [tblOf_congr h]

end

end Sys2Proof.Machine
end

section
/-!
PROOF. The learn FIFO (R178 to R181): a LEARN that crosses, and the engine's taking of the oldest learn of a table.
-/
namespace Sys2Proof.Machine

/-- With no injection pending, a crossing changes nothing (R13, R437). -/
theorem crossIn_idle {d : Dev} (h : flagF d Reg.FAULT_INJECT Reg.FAULT_INJECT_PENDING = false) (island : Nat) : crossIn d island = d := by
  rw [crossIn, injectAt_idle h]
  exact if_pos rfl

/-! A LEARN that crosses. -/

section
variable {d : Dev} {a f k slot gen dest ty num : Nat} {key : List W64} {data : W64} {due : Option (Nat × Nat × Nat)}
  (hk : (getFur d a f).inFlight[k]? = some ⟨slot, gen, .request 3 dest ty key num data, due⟩)
  (hi : flagF d Reg.FAULT_INJECT Reg.FAULT_INJECT_PENDING = false)
include hk hi

/-- The request leaves the furrow's flights; what follows depends on the FIFO's room alone. -/
theorem learnEnqueue_eq : learnEnqueue a f k d =
    let d' := putFur d a f { getFur d a f with inFlight := (getFur d a f).inFlight.eraseIdx k }
    if learnRoom d then learnPut d' (.packet a f slot gen num dest) (learnTable d ty) (keyOfWords key) data
    else learnReply (bump d' (Reg.ORCHARD_DEV_CNT 0)) (.packet a f slot gen num dest) true := by
  rw [learnEnqueue, hk]
  dsimp only
  rw [crossIn_idle (d := putFur d a f { getFur d a f with inFlight := (getFur d a f).inFlight.eraseIdx k }) hi]
  rfl

theorem learnEnqueue_room (hr : d.orch.learnQ.length < 65536) :
    (learnEnqueue a f k d).orch.learnSeq = (d.orch.learnSeq + 1) % 2 ^ 64 ∧
      (learnEnqueue a f k d).orch.learnQ =
        d.orch.learnQ ++ [⟨.packet a f slot gen num dest, learnTable d ty, keyOfWords key, data, d.orch.learnSeq⟩] ∧
      (getFur (learnEnqueue a f k d) a f).inFlight = (getFur d a f).inFlight.eraseIdx k := by
  rw [learnEnqueue_eq hk hi]
  dsimp only
  rw [if_pos (show learnRoom d = true from decide_eq_true hr)]
  exact ⟨rfl, rfl, congrArg Furrow.inFlight (getFur_putFur_same d a f _)⟩

theorem learnEnqueue_full (hr : 65536 ≤ d.orch.learnQ.length) :
    (learnEnqueue a f k d).orch = d.orch ∧
      (getFur (learnEnqueue a f k d) a f).inFlight =
        (getFur d a f).inFlight.eraseIdx k ++ [⟨slot, gen, .learned dest num true, none⟩] ∧
      rd (learnEnqueue a f k d) (Reg.ORCHARD_DEV_CNT 0) = rd d (Reg.ORCHARD_DEV_CNT 0) + 1 := by
  rw [learnEnqueue_eq hk hi]
  dsimp only
  have hfull : ¬ learnRoom d = true := by simp only [learnRoom, decide_eq_true_eq]; omega
  rw [if_neg hfull]
  refine ⟨rfl, ?_, rd_bump_same (putFur d a f _) _⟩
  rw [learnReply, getFur_putFur_same]
  exact congrArg (· ++ _) (congrArg Furrow.inFlight (getFur_putFur_same d a f _))

end

/-! The engine takes a learn. -/

section
variable {d : Dev} {x : Learn} {rest : List Learn}

/-- The device as the engine takes the first learn of the FIFO. -/
def learnTaken (d : Dev) (x : Learn) (rest : List Learn) : Dev := wrF (setLearnQ d rest) Reg.LEARN_STATUS Reg.LEARN_STATUS_SEQ_HI x.seq

/-- The oldest learn is the first that its table's settlement finds. -/
theorem learnSettle_oldest {n : Nat} (hq : d.orch.learnQ = x :: rest) (hx : x.table % 64 = n) (hh : x.isHandover = false)
    (hb : tableBusy d x.table = false) : learnSettle n d = learnTake (learnTaken d x rest) x := by
  simp [learnSettle, learnFirst, hq, hh, List.findIdx?_cons, hx, hb, learnTaken]

theorem isHandover_packet {a f slot gen num dest : Nat} (h : x.src = .packet a f slot gen num dest) : x.isHandover = false := by
  rw [Learn.isHandover, h]

theorem rd_learnTaken {o : Nat} (h : o ≠ Reg.LEARN_STATUS) : rd (learnTaken d x rest) o = rd d o := by
  rw [learnTaken, wrF, rd_wr_other _ _ h, setLearnQ, wrF, rd_wr_other _ _ h]
  rfl

theorem tbl_learnTaken (t : Nat) : tbl (learnTaken d x rest) t = tbl d t :=
  tbl_congr (rd_learnTaken (by decide)) (fun o ho => rd_learnTaken (by simp only [Reg.LEARN_STATUS]; omega)) t

theorem learnQ_learnTaken : (learnTaken d x rest).orch.learnQ = rest := rfl

theorem getFur_learnTaken (a f : Nat) : getFur (learnTaken d x rest) a f = getFur d a f := by
  rw [getFur, learnTaken, wrF_furs, setLearnQ_furs, getFur]

theorem loaded_learnTaken : flagF (learnTaken d x rest) Reg.PROFILE_STATUS Reg.PROFILE_STATUS_LOADED =
    flagF d Reg.PROFILE_STATUS Reg.PROFILE_STATUS_LOADED := by
  rw [flagF, flagF, rdF_congr (rd_learnTaken (by decide))]

/-- A learn without a table is refused. -/
theorem learnTake_noTable (h : 64 ≤ x.table) : learnTake d x = learnReply d x.src true := by
  rw [learnTake, if_neg (by omega)]
  rfl

section
variable {b : Tbl} (ht : x.table < 64) (hb : tbl d x.table = some b)
include ht hb

/-- A table that does not learn refuses. -/
theorem learnTake_noLearn (hl : b.learn = false) : learnTake d x = learnReply d x.src true := by
  rw [learnTake, if_pos ht, hb]
  simp [Option.filter_some, hl]

/-- A packet's learn of an EXACT table that learns is settled here, or forwarded to the anchor. -/
theorem learnTake_packet {a f slot gen num dest : Nat} (hs : x.src = .packet a f slot gen num dest) (hk : b.kind = 1)
    (hl : b.learn = true) (hp : flagF d Reg.PROFILE_STATUS Reg.PROFILE_STATUS_LOADED = true) :
    learnTake d x =
      if settles d b (keyFor b x.key) then settleAnchor d b x (keyFor b x.key) else settleForward d b x (keyFor b x.key) := by
  rw [learnTake, if_pos ht, hb]
  simp [Option.filter_some, hk, hl, hp, hs]

end

@[simp] theorem learnReply_orch (src : LearnSrc) (refused : Bool) : (learnReply d src refused).orch = d.orch := by
  cases src <;> rfl

/-- A packet's refusal stands behind its furrow's other flights. -/
theorem inFlight_learnReply {a f slot gen num dest : Nat} (refused : Bool) :
    (getFur (learnReply d (.packet a f slot gen num dest) refused) a f).inFlight =
      (getFur d a f).inFlight ++ [⟨slot, gen, .learned dest num refused, none⟩] := by
  rw [learnReply, getFur_putFur_same]

end

/-! The settlement (R181). -/

/-- A STATIC entry is not changed; a learn that agrees with it, but for the bits of MOVE_MASK, is not refused. -/
theorem settle_static {d : Dev} {b : Tbl} {key i : Nat} (action seq : Nat) (hf : exactFind d b key = some i)
    (ht : eType b (readUnit d b i) = 1) : (settle d b key action seq).2 = d ∧ ((settle d b key action seq).1.refused = false ↔
      (eAction (readUnit d b i) ^^^ action) &&& (rd d (Reg.MOVE_MASK (activeSlot d) b.t)).toNat = 0) := by
  simp [settle, hf, ht]

/-! The retry of the stash (R171), and ageing (R185). -/

theorem stashIdx_congr {d e : Dev} (h : e.orch.stash = d.orch.stash) (b : Tbl) : stashIdx e b = stashIdx d b := by
  rw [stashIdx, h, stashIdx]

/-- A removal from a table whose stash is not empty makes one more retry due. -/
theorem retry_exactRemove {d : Dev} {b : Tbl} {i : Nat} (hi : i < stashBase) (hs : stashIdx d b ≠ []) :
    spGet (fun _ => 0) (exactRemove d b i).orch.retry b.t = spGet (fun _ => 0) d.orch.retry b.t + 1 := by
  obtain ⟨rows, hl, h⟩ := writeUnit_orch (d := d) (b := b) hi (eSet b (readUnit d b i) 191 1 0)
  have hst : stashIdx (setHit (writeUnit d b i (eSet b (readUnit d b i) 191 1 0)) b.t i 0) b ≠ [] := by
    rw [stashIdx_congr (d := d) (by rw [setHit, h])]
    exact hs
  rw [exactRemove]
  dsimp only
  rw [if_neg hst, spGet_spPut_same, setHit, h]

theorem stashRetryDue_succ {d : Dev} {n k : Nat} {b : Tbl} (hr : spGet (fun _ => 0) d.orch.retry n = k + 1) (hb : tbl d n = some b)
    (hk : b.kind = 1) : stashRetryDue n d =
      stashRetry { d with orch := { d.orch with retry := spPut (fun _ => 0) d.orch.retry n k } } b := by
  have hb' : tbl { d with orch := { d.orch with retry := spPut (fun _ => 0) d.orch.retry n k } } n = some b := hb
  rw [stashRetryDue]
  simp only [hr, Nat.add_sub_cancel, hb', hk, ne_eq, Nat.add_one_ne_zero, not_false_eq_true, if_true]

theorem autoAgeScan_due {d : Dev} (ha : flagF d Reg.AGE_CFG Reg.AGE_CFG_AUTO = true) (ho : orchardBusy d = false)
    (hp : flagF d Reg.PROFILE_STATUS Reg.PROFILE_STATUS_PENDING = false) :
    autoAgeScan d = ((slotTables d (activeSlot d)).filter fun b => b.kind == 1 && b.refresh).foldl ageTable d := by
  rw [autoAgeScan, if_pos (by simp [ha, ho, hp])]

/-! The commands. -/

section
variable (s : State)

theorem exec_learnEnqueue (a f k : Nat) : exec (.learnEnqueue a f k) s = .next (commit s (learnEnqueue a f k s.dev)) := rfl
theorem exec_learnSettle (n : Nat) : exec (.learnSettle n) s = .next (commit s (learnSettle n s.dev)) := rfl
theorem exec_stashRetry (n : Nat) : exec (.stashRetry n) s = .next (commit s (stashRetryDue n s.dev)) := rfl
theorem exec_autoAgeScan : exec .autoAgeScan s = .next (commit s (autoAgeScan s.dev)) := rfl

end

end Sys2Proof.Machine
end

section
/-!
PROOF. Orchard's gleaner and the rebuild of markers (R186, R189).
-/
namespace Sys2Proof.Machine

/-! A quarter whose check bits are good. -/

theorem ecc_congr {d e : Dev} (h : e.upset = d.upset) (r : Ram) (i : Nat) : ecc e r i = ecc d r i := by rw [ecc, h, ecc]

theorem ecc_setEcc (d : Dev) (r : Ram) (i j v : Nat) : ecc (setEcc d r i v) r j = if j = i then v else ecc d r j := by
  rw [ecc, setEcc, spGet_spPut, ecc]
  simp [ramKey]

/-- Quarter k of the tables has good check bits, and no injection waits. -/
def QuarterGood (k : Nat) (d : Dev) : Prop := ecc d .table k = 0 ∧ flagF d Reg.FAULT_INJECT Reg.FAULT_INJECT_PENDING = false

section
variable {k : Nat} {d e : Dev}

theorem QuarterGood.congr (h : QuarterGood k d) (hu : e.upset = d.upset) (hr : e.regs = d.regs) (hf : e.fuses = d.fuses) :
    QuarterGood k e := by
  obtain ⟨he, hp⟩ := h
  exact ⟨(ecc_congr hu _ _).trans he, by rw [flagF, rdF_congr (rd_congr hr hf _)]; exact hp⟩

theorem QuarterGood.setHealed (h : QuarterGood k d) (l : List Nat) (v : Nat) : QuarterGood k (l.foldl (fun d w => setHealed d w v) d) :=
  List.foldlRecOn l _ h fun _ hx _ _ => hx.congr rfl rfl rfl

/-- A write sets the check bits of a quarter to good ones, or leaves them. -/
theorem QuarterGood.quarterWrite (h : QuarterGood k d) (src : Nat) (ws : List Nat) (q : Nat) : QuarterGood k (quarterWrite src ws d q) := by
  have hwrite : QuarterGood k (eccWrite d .table q src 0) := by
    rw [eccWrite, injectAt_idle h.2]
    refine ⟨?_, h.2⟩
    rw [ecc_setEcc, h.1]
    exact ite_self 0
  rw [Machine.quarterWrite, injectAt_idle h.2]
  dsimp only
  split
  · rw [if_pos rfl]
    exact h.setHealed _ 1
  · exact hwrite.setHealed _ 0

theorem QuarterGood.writeUnit (h : QuarterGood k d) (b : Tbl) (i v : Nat) : QuarterGood k (writeUnit d b i v) := by
  obtain hi | hi := Nat.lt_or_ge i stashBase
  · rw [Machine.writeUnit, if_neg (by omega)]
    have hrow : QuarterGood k (putRow d (b.place i).1 (b.place i).2.1
      (setBits (getRow d (b.place i).1 (b.place i).2.1) (b.place i).2.2 b.uw v)) := h.congr rfl rfl rfl
    exact List.foldlRecOn _ _ hrow fun _ hx q _ => hx.quarterWrite _ _ q
  · rw [writeUnit_stashUnit hi]
    exact h.congr rfl rfl rfl

theorem QuarterGood.gleanAge (h : QuarterGood k d) (b : Tbl) (i : Nat) : QuarterGood k (gleanAge d b i) := by
  rw [Machine.gleanAge]
  split
  · exact h.writeUnit ..
  · exact h

/-- The visits of a row's ages leave the quarter good. -/
theorem QuarterGood.gleanAges (h : QuarterGood k d) (b : Tbl) (l : List Nat) :
    QuarterGood k (l.foldl (fun d i => Machine.gleanAge d b i) d) :=
  List.foldlRecOn l _ h fun _ hx i _ => hx.gleanAge b i

theorem QuarterGood.bumpSat (h : QuarterGood k d) {o : Nat} (ho : Reg.FAULT_INJECT ≠ o) (f : Fld) (n : Nat) :
    QuarterGood k (bumpSat d o f n) := by
  obtain ⟨he, hp⟩ := h
  exact ⟨he, by rw [flagF, Machine.bumpSat, wrF, rdF_congr (rd_wr_other d _ ho)]; exact hp⟩

end

/-! The quarters of a row. -/

section
variable {d : Dev} {blk row q : Nat}

theorem gleanQuarter_good (h : ecc d .table ((blk * 1024 + row) * 4 + q) = 0) : gleanQuarter blk row d q = d := by
  rw [gleanQuarter]
  simp [h]

/-- A single-bit error is corrected, counted and reported. -/
theorem gleanQuarter_single (h : ecc d .table ((blk * 1024 + row) * 4 + q) = 1) : gleanQuarter blk row d q =
    raise (bump (setEcc d .table ((blk * 1024 + row) * 4 + q) 0) (Reg.ORCHARD_DEV_CNT 2)) Fk.gleanCe (blkInst blk) 0 8 6 := by
  rw [gleanQuarter]
  exact if_pos h

/-- The device after the report of an uncorrectable quarter. -/
def gleanLost (d : Dev) (blk row q : Nat) : Dev :=
  raise (bump (wrFs d Reg.GLEAN_STATUS [(Reg.GLEAN_STATUS_BLOCK, blk), (Reg.GLEAN_STATUS_ROW, row), (Reg.GLEAN_STATUS_QUARTER, q),
    (Reg.GLEAN_STATUS_LOST, 1)]) (Reg.ORCHARD_DEV_CNT 3)) Fk.gleanUe (blkInst blk) 0 8 6

theorem gleanLost_upset (d : Dev) (blk row q : Nat) : (gleanLost d blk row q).upset = d.upset := by
  rw [gleanLost, raise_upset, bump_upset, wrFs_upset]

theorem rd_gleanLost_other {o : Nat} (hg : o ≠ Reg.GLEAN_STATUS) (hc : o ≠ Reg.ORCHARD_DEV_CNT 3) :
    rd (gleanLost d blk row q) o = rd d o := by
  rw [gleanLost, rd_congr (raise_regs ..) (raise_fuses ..), rd_bump_other _ hc, rd_wrFs_other _ _ hg]

theorem rdF_gleanLost (f : Fld) : rdF (gleanLost d blk row q) Reg.GLEAN_STATUS f = rdF (wrFs d Reg.GLEAN_STATUS
    [(Reg.GLEAN_STATUS_BLOCK, blk), (Reg.GLEAN_STATUS_ROW, row), (Reg.GLEAN_STATUS_QUARTER, q), (Reg.GLEAN_STATUS_LOST, 1)])
      Reg.GLEAN_STATUS f := by
  refine rdF_congr ?_ f
  rw [gleanLost, rd_congr (raise_regs ..) (raise_fuses ..), rd_bump_other _ (by decide)]

theorem tblOfBlock_gleanLost (k : Nat) : tblOfBlock (gleanLost d blk row q) k = tblOfBlock d k := by
  refine tblOfBlock_congr (rd_gleanLost_other (by decide) (by decide)) (fun o ho => rd_gleanLost_other ?_ ?_) k
  · simp only [Reg.GLEAN_STATUS]; omega
  · simp only [Reg.ORCHARD_DEV_CNT]; omega

/-- An uncorrectable quarter of a block that no table has is recorded, counted and reported. -/
theorem gleanQuarter_lost (h : ecc d .table ((blk * 1024 + row) * 4 + q) = 2) (hb : tblOfBlock d blk = none) :
    gleanQuarter blk row d q = gleanLost d blk row q := by
  have hn := (tblOfBlock_gleanLost (d := d) (blk := blk) (row := row) (q := q) blk).trans hb
  rw [gleanLost] at hn
  rw [gleanQuarter, gleanLost]
  simp only [h, hn, OfNat.ofNat_ne_one, if_false, if_true]

/-- When one quarter alone has an error, before and after its visit, its visit is all that a row's visits do. -/
theorem gleanQuarters_one (hq : q < 4) (hb : ∀ r, r < 4 → r ≠ q → ecc d .table ((blk * 1024 + row) * 4 + r) = 0)
    (ha : ∀ r, r < 4 → r ≠ q → ecc (gleanQuarter blk row d q) .table ((blk * 1024 + row) * 4 + r) = 0) :
    (List.range 4).foldl (gleanQuarter blk row) d = gleanQuarter blk row d q := by
  have hbefore : ∀ r, r < 4 → r ≠ q → gleanQuarter blk row d r = d := fun r hr hne => gleanQuarter_good (hb r hr hne)
  have hafter : ∀ r, r < 4 → r ≠ q → gleanQuarter blk row (gleanQuarter blk row d q) r = gleanQuarter blk row d q :=
    fun r hr hne => gleanQuarter_good (ha r hr hne)
  interval_cases q <;> simp [List.range_succ, hbefore, hafter]

end

/-! The rest of a row's visit. -/

/-- The ages of the row's entries are visited, and behind the table's last row those of its stash. -/
def rowAges (blk row : Nat) (d : Dev) : Dev :=
  match tblOfBlock d blk with
  | some b =>
    if b.kind = 1 then
      let d := (rowUnits b blk row).foldl (fun d i => gleanAge d b i) d
      if blk + 1 = b.base + b.nblk ∧ row = 1023 then (stashIdx d b).foldl (fun d i => gleanAge d b i) d else d
    else d
  | none => d

theorem gleanRow_eq (blk row : Nat) (d : Dev) : gleanRow blk row d =
    let d' := rowAges blk row ((List.range 4).foldl (gleanQuarter blk row) d)
    if blk = 2047 ∧ row = 1023 then bumpSat d' Reg.GLEAN_STATUS Reg.GLEAN_STATUS_PASSES 1 else d' := rfl

theorem rowAges_noTable {blk row : Nat} {d : Dev} (h : tblOfBlock d blk = none) : rowAges blk row d = d := by
  rw [rowAges, h]

theorem QuarterGood.rowAges {k : Nat} {d : Dev} (h : QuarterGood k d) (blk row : Nat) : QuarterGood k (rowAges blk row d) := by
  rw [Machine.rowAges]
  split
  next b _ =>
    have hages := h.gleanAges b (rowUnits b blk row)
    split
    · dsimp only
      split
      · exact hages.gleanAges b _
      · exact hages
    · exact h
  next => exact h

/-- A quarter that is good after the visits of the row's quarters is good at the row's end. -/
theorem gleanRow_quarterGood {k blk row : Nat} {d : Dev} (h : QuarterGood k ((List.range 4).foldl (gleanQuarter blk row) d)) :
    QuarterGood k (gleanRow blk row d) := by
  rw [gleanRow_eq]
  dsimp only
  split
  · exact (h.rowAges blk row).bumpSat (by decide) _ _
  · exact h.rowAges blk row

/-! The two errors of one quarter. -/

section
variable {d : Dev} {blk row q : Nat} (hq : q < 4) (hi : flagF d Reg.FAULT_INJECT Reg.FAULT_INJECT_PENDING = false)
  (hothers : ∀ r, r < 4 → r ≠ q → ecc d .table ((blk * 1024 + row) * 4 + r) = 0)
include hq hothers

include hi in
/-- A single-bit error is gone at the row's end. -/
theorem gleanRow_single (h : ecc d .table ((blk * 1024 + row) * 4 + q) = 1) :
    ecc (gleanRow blk row d) .table ((blk * 1024 + row) * 4 + q) = 0 := by
  have hup (r : Nat) : ecc (gleanQuarter blk row d q) .table ((blk * 1024 + row) * 4 + r) =
      if (blk * 1024 + row) * 4 + r = (blk * 1024 + row) * 4 + q then 0 else ecc d .table ((blk * 1024 + row) * 4 + r) := by
    rw [gleanQuarter_single h, ecc_congr (raise_upset ..), ecc_congr (bump_upset ..), ecc_setEcc]
  have hgood : QuarterGood ((blk * 1024 + row) * 4 + q) (gleanQuarter blk row d q) := by
    refine ⟨by rw [hup, if_pos rfl], ?_⟩
    rw [gleanQuarter_single h, flagF, rdF_congr ((rd_congr (raise_regs ..) (raise_fuses ..) _).trans (rd_bump_other _ (by decide)))]
    exact hi
  have hfold := gleanQuarters_one hq hothers fun r hr hne => by rw [hup, if_neg (by omega), hothers r hr hne]
  exact (gleanRow_quarterGood (hfold ▸ hgood)).1

/-- An uncorrectable quarter of a block without a table is named in GLEAN_STATUS. -/
theorem gleanRow_lost (hblk : blk < 2048) (hrow : row < 1024) (h : ecc d .table ((blk * 1024 + row) * 4 + q) = 2)
    (hb : tblOfBlock d blk = none) :
    rdF (gleanRow blk row d) Reg.GLEAN_STATUS Reg.GLEAN_STATUS_LOST = 1 ∧
      rdF (gleanRow blk row d) Reg.GLEAN_STATUS Reg.GLEAN_STATUS_BLOCK = blk ∧
      rdF (gleanRow blk row d) Reg.GLEAN_STATUS Reg.GLEAN_STATUS_ROW = row ∧
      rdF (gleanRow blk row d) Reg.GLEAN_STATUS Reg.GLEAN_STATUS_QUARTER = q := by
  have hfold : (List.range 4).foldl (gleanQuarter blk row) d = gleanLost d blk row q := by
    rw [gleanQuarters_one hq hothers (fun r hr hne => ?_), gleanQuarter_lost h hb]
    rw [gleanQuarter_lost h hb, ecc_congr (gleanLost_upset ..), hothers r hr hne]
  have hend : gleanRow blk row d = gleanLost d blk row q ∨
      gleanRow blk row d = bumpSat (gleanLost d blk row q) Reg.GLEAN_STATUS Reg.GLEAN_STATUS_PASSES 1 := by
    rw [gleanRow_eq, hfold, rowAges_noTable ((tblOfBlock_gleanLost blk).trans hb)]
    exact (ite_eq_or_eq ..).symm
  have hfield (f : Fld) (hf : f.lo + f.w ≤ 32) : rdF (gleanRow blk row d) Reg.GLEAN_STATUS f = rdF (wrFs d Reg.GLEAN_STATUS
      [(Reg.GLEAN_STATUS_BLOCK, blk), (Reg.GLEAN_STATUS_ROW, row), (Reg.GLEAN_STATUS_QUARTER, q), (Reg.GLEAN_STATUS_LOST, 1)])
        Reg.GLEAN_STATUS f := by
    rw [← rdF_gleanLost]
    obtain he | he := hend
    · rw [he]
    · rw [he, bumpSat, rdF_wrF_other _ _ (.inr ⟨.inl hf, by omega⟩)]
  refine ⟨?_, ?_, ?_, ?_⟩
  · exact (hfield _ (by decide)).trans (rdF_wrFs_last d _ [_, _, _] [] (by decide) (by simp))
  · refine (hfield _ (by decide)).trans ((rdF_wrFs_last d _ [] _ (by decide) ?_).trans (Nat.mod_eq_of_lt hblk))
    simp [Reg.GLEAN_STATUS_BLOCK, Reg.GLEAN_STATUS_ROW, Reg.GLEAN_STATUS_QUARTER, Reg.GLEAN_STATUS_LOST]
  · refine (hfield _ (by decide)).trans ((rdF_wrFs_last d _ [_] _ (by decide) ?_).trans (Nat.mod_eq_of_lt hrow))
    simp [Reg.GLEAN_STATUS_ROW, Reg.GLEAN_STATUS_QUARTER, Reg.GLEAN_STATUS_LOST]
  · refine (hfield _ (by decide)).trans ((rdF_wrFs_last d _ [_, _] _ (by decide) ?_).trans (Nat.mod_eq_of_lt hq))
    simp [Reg.GLEAN_STATUS_QUARTER, Reg.GLEAN_STATUS_LOST]

end

/-! The rebuild of markers (R189). -/

section
variable (b : Tbl) (h : Nat) (routes : List Route) (need : List (Nat × Nat))

/-- The entry that a place holds may draw a free value, and leaves Orchard alone. -/
theorem lpmEntryFor_orch (d : Dev) (m x : Nat) : (lpmEntryFor d b h routes need m x).2.orch = d.orch := by
  rw [lpmEntryFor]
  split
  · split <;> rfl
  · split
    · rfl
    · split <;> rfl

theorem lpmNewEntry_orch (own : Option (Nat × Nat)) (d : Dev) (e : Nat) : (lpmNewEntry b h routes need own d e).2.orch = d.orch := by
  rw [lpmNewEntry]
  split
  · split <;> rfl
  · split
    · rfl
    · split
      · rfl
      · have hf := lpmEntryFor_orch b h routes need d (kLen b (eKey b e)) (kPfx b (eKey b e))
        split
        · rename_i heq
          rw [heq] at hf
          exact hf
        · rename_i heq
          rw [heq] at hf
          exact hf

/-- An entry that is added keeps the record of rebuilds that are due. -/
theorem lpmAdd_rebuild {d e : Dev} {q : Nat × Nat} (ha : lpmAdd b h routes need (some d) q = some e) :
    e.orch.rebuild = d.orch.rebuild := by
  have hf := lpmEntryFor_orch b h routes need d q.1 q.2
  simp only [lpmAdd] at ha
  split at ha
  · rw [← Option.some.inj ha]
  · split at ha
    next _ d' heq =>
      rw [heq] at hf
      rw [← Option.some.inj ha, hf]
    next _ en d' heq =>
      rw [heq] at hf
      split at ha
      · rw [← Option.some.inj ha, writeUnit_rebuild, hf]
      · exact absurd ha (by simp)

theorem lpmAdds_rebuild {d e : Dev} (l : List (Nat × Nat)) (ha : l.foldl (lpmAdd b h routes need) (some d) = some e) :
    e.orch.rebuild = d.orch.rebuild := by
  refine List.foldlRecOn (motive := fun o : Option Dev => ∀ e, o = some e → e.orch.rebuild = d.orch.rebuild) l
    (lpmAdd b h routes need) (fun e he => by rw [Option.some.inj he]) (fun o ho q _ e he => ?_) e ha
  cases o with
  | none => exact absurd he (by simp [lpmAdd])
  | some x => rw [lpmAdd_rebuild b h routes need he, ho x rfl]

theorem lpmSettle_rebuild (own : Option (Nat × Nat)) (d : Dev) : (lpmSettle b h routes need own d).orch.rebuild = d.orch.rebuild :=
  List.foldlRecOn (motive := fun x : Dev => x.orch.rebuild = d.orch.rebuild) _ _ rfl fun x hx ie _ => by
    dsimp only
    split
    · rw [lpmNewEntry_orch, hx]
    · rw [writeUnit_rebuild, lpmNewEntry_orch, hx]

/-- A change of a holding's routes keeps the record of rebuilds that are due. -/
theorem lpmChange_rebuild {d e : Dev} {v : Nat} {own : Option (Nat × Nat)} (hc : lpmChange d b h routes v own = some e) :
    e.orch.rebuild = d.orch.rebuild := by
  rw [lpmChange] at hc
  dsimp only at hc
  split at hc
  · exact absurd hc (by simp)
  next _ d' hadd =>
    rw [← Option.some.inj hc, lpmSettle_rebuild, ← lpmAdds_rebuild b h routes _ _ hadd]
    split <;> rfl

end

/-- A rebuild that is due runs once: it is due no longer. -/
theorem markerRebuild_done {d : Dev} {n h : Nat} (hr : spGet (fun _ => 0) d.orch.rebuild (256 * n + h) = 1) :
    spGet (fun _ => 0) (markerRebuild n h d).orch.rebuild (256 * n + h) = 0 := by
  have hput : spGet (fun _ => 0) (spPut (fun _ => 0) d.orch.rebuild (256 * n + h) 0) (256 * n + h) = 0 := spGet_spPut_same ..
  rw [markerRebuild, if_pos hr]
  dsimp only
  split
  · exact hput
  next b _ =>
    split
    · generalize hc : lpmChange _ b h _ _ none = o
      cases o with
      | none => exact hput
      | some e =>
        rw [Option.getD_some, lpmChange_rebuild b h _ hc]
        exact hput
    · exact hput

theorem exec_gleanerRowScrub (s : State) (blk row : Nat) :
    exec (.gleanerRowScrub blk row) s = .next (commit s (gleanRow blk row s.dev)) := rfl

theorem exec_markerRebuild (s : State) (n h : Nat) : exec (.markerRebuild n h) s = .next (commit s (markerRebuild n h s.dev)) := rfl

end Sys2Proof.Machine
end

section
/-!
PROOF. Table profiles (R160 to R163) and FLOW_HASH_SEED (R21). With the learn FIFO and the gleaner the obligation on Orchard's own engines
is settled.
-/
namespace Sys2Proof.Machine

/-! The write of PROFILE_SEL. -/

theorem activeSlot_wrF (d : Dev) {o : Nat} (f : Fld) (v : Nat) (h : Reg.PROFILE_SEL ≠ o) : activeSlot (wrF d o f v) = activeSlot d :=
  activeSlot_congr (rd_wr_other d _ h)

theorem rd_voterWrite (d : Dev) (b off island : Nat) {o : Nat} (ho : o ≠ Reg.FAULT_INJECT) :
    rd (voterWrite d b off island) o = rd d o := by
  have hinj := rd_injectAt { d with voteErr := spErase d.voteErr off } 2 island off ho
  rw [voterWrite]
  dsimp only
  split
  · split <;> exact hinj
  · rfl

theorem fieldsInRange_PROFILE_SEL (v : W64) : FieldsInRange Reg.PROFILE_SEL v := by
  have hb := bits_lt v.toNat 0 1
  show rangeOk [⟨0, 1, .rwv, 0, 1⟩] v = true
  simp only [rangeOk, List.all_cons, List.all_nil, Bool.and_true, Nat.zero_le, decide_true, Bool.true_and, Bool.or_eq_true,
    decide_eq_true_eq]
  omega

theorem isOwnReg_PROFILE_SEL : isOwnReg Reg.PROFILE_SEL Reg.PROFILE_SEL 0 0 = true := by decide +kernel

theorem regEffect_PROFILE_SEL (agent i j : Nat) (v x : W64) (m : Mem) (d : Dev) :
    regEffect ⟨agent, Reg.PROFILE_SEL, Reg.PROFILE_SEL, i, j, v, x⟩ m d =
      (!flagF d Reg.PROFILE_STATUS Reg.PROFILE_STATUS_PENDING
        && (getF v Reg.PROFILE_SEL_SLOT == activeSlot d || profileCheck d (getF v Reg.PROFILE_SEL_SLOT) == 0),
        profileSelect d (getF v Reg.PROFILE_SEL_SLOT)) := by
  simp [regEffect, effOrchard, Reg.PROFILE_SEL, Reg.ORCHARD_CMD]

theorem activeSlot_lt (d : Dev) : activeSlot d < 2 := bits_lt _ _ 1

section
variable {m : Mem} {d : Dev} {agent slot : Nat} (hs : slot < 2) (hne : slot ≠ activeSlot d)
  (h : WriteReaches d agent Reg.PROFILE_SEL (setF 0 Reg.PROFILE_SEL_SLOT slot))
  (hp : flagF d Reg.PROFILE_STATUS Reg.PROFILE_STATUS_PENDING = false)
include hs

theorem getF_PROFILE_SEL_SLOT : getF (setF 0 Reg.PROFILE_SEL_SLOT slot) Reg.PROFILE_SEL_SLOT = slot :=
  (getF_setF _ _ _ (by decide)).trans (Nat.mod_eq_of_lt hs)

include hne h hp

/-- A slot that passes every check raises the quiesce, and the write's copies are voted. -/
theorem regWrite_PROFILE_SEL_ok (hc : profileCheck d slot = 0) :
    regWrite agent Reg.PROFILE_SEL (setF 0 Reg.PROFILE_SEL_SLOT slot) m d =
      voterWrite (wrF d Reg.PROFILE_STATUS Reg.PROFILE_STATUS_PENDING 1) Reg.PROFILE_SEL Reg.PROFILE_SEL
        ((islandsOf d Reg.PROFILE_SEL (setF 0 Reg.PROFILE_SEL_SLOT slot)).headD 0) := by
  rw [regWrite_own isOwnReg_PROFILE_SEL h (fieldsInRange_PROFILE_SEL _), regEffect_PROFILE_SEL, getF_PROFILE_SEL_SLOT hs, profileSelect]
  simp only [hp, hne, hc, Bool.not_false, Bool.true_and, BEq.rfl, Bool.or_true, Bool.false_eq_true, if_true, if_false]

/-- A slot that fails a check is refused with the check's number. -/
theorem regWrite_PROFILE_SEL_fails (hc : profileCheck d slot ≠ 0) :
    regWrite agent Reg.PROFILE_SEL (setF 0 Reg.PROFILE_SEL_SLOT slot) m d =
      hostReject (profileReject (wrF d Reg.PROFILE_STATUS Reg.PROFILE_STATUS_ERROR (profileCheck d slot))) agent Reg.PROFILE_SEL
        (islandsOf d Reg.PROFILE_SEL (setF 0 Reg.PROFILE_SEL_SLOT slot)) := by
  refine regWrite_refused isOwnReg_PROFILE_SEL h (fieldsInRange_PROFILE_SEL _) ?_
  rw [regEffect_PROFILE_SEL, getF_PROFILE_SEL_SLOT hs, profileSelect]
  simp [hp, hne, hc]

end

/-- The checks of R162 are ten. -/
theorem profileCheck_lt (d : Dev) (s : Nat) : profileCheck d s < 16 := by
  have hfind (l : List Bool) : ((l.findIdx? id).map (· + 1)).getD 0 ≤ l.length := by
    cases hl : l.findIdx? id with
    | none => simp
    | some i =>
      obtain ⟨hi, -⟩ := List.findIdx?_eq_some_iff_getElem.mp hl
      exact hi
  rw [profileCheck]
  exact Nat.lt_of_le_of_lt (hfind _) (show 10 < 16 by decide)

/-- The raised quiesce is PENDING; the slot and ERROR are as before. -/
theorem quiesceRaised_spec (d : Dev) (b off island : Nat) :
    activeSlot (voterWrite (wrF d Reg.PROFILE_STATUS Reg.PROFILE_STATUS_PENDING 1) b off island) = activeSlot d ∧
      flagF (voterWrite (wrF d Reg.PROFILE_STATUS Reg.PROFILE_STATUS_PENDING 1) b off island) Reg.PROFILE_STATUS
        Reg.PROFILE_STATUS_PENDING = true ∧
      rdF (voterWrite (wrF d Reg.PROFILE_STATUS Reg.PROFILE_STATUS_PENDING 1) b off island) Reg.PROFILE_STATUS
        Reg.PROFILE_STATUS_ERROR = rdF d Reg.PROFILE_STATUS Reg.PROFILE_STATUS_ERROR := by
  have hstatus := rd_voterWrite (wrF d Reg.PROFILE_STATUS Reg.PROFILE_STATUS_PENDING 1) b off island
    (o := Reg.PROFILE_STATUS) (by decide)
  refine ⟨?_, ?_, ?_⟩
  · rw [activeSlot_congr (rd_voterWrite _ _ _ _ (by decide)), activeSlot_wrF _ _ _ (by decide)]
  · rw [flagF, rdF_congr hstatus, rdF_wrF_same _ _ _ _ (by decide)]
    rfl
  · rw [rdF_congr hstatus, rdF_wrF_other _ _ (.inr (by decide))]

/-- A refusal with number e leaves the slot and PENDING, and ERROR is e. -/
theorem profileRefused_spec {d : Dev} {e off : Nat} (agent : Nat) (isl : List Nat)
    (hp : flagF d Reg.PROFILE_STATUS Reg.PROFILE_STATUS_PENDING = false) (he : e < 16) :
    activeSlot (hostReject (profileReject (wrF d Reg.PROFILE_STATUS Reg.PROFILE_STATUS_ERROR e)) agent off isl) = activeSlot d ∧
      flagF (hostReject (profileReject (wrF d Reg.PROFILE_STATUS Reg.PROFILE_STATUS_ERROR e)) agent off isl) Reg.PROFILE_STATUS
        Reg.PROFILE_STATUS_PENDING = false ∧
      rdF (hostReject (profileReject (wrF d Reg.PROFILE_STATUS Reg.PROFILE_STATUS_ERROR e)) agent off isl) Reg.PROFILE_STATUS
        Reg.PROFILE_STATUS_ERROR = e := by
  have hstatus := rd_hostReject_other (profileReject (wrF d Reg.PROFILE_STATUS Reg.PROFILE_STATUS_ERROR e)) agent off isl
    (o := Reg.PROFILE_STATUS) (by decide)
  refine ⟨?_, ?_, ?_⟩
  · rw [activeSlot_congr (rd_hostReject_other _ _ _ _ (by decide)), profileReject, bumpSat, activeSlot_wrF _ _ _ (by decide),
      activeSlot_wrF _ _ _ (by decide)]
  · rw [flagF, rdF_congr hstatus, profileReject, bumpSat, rdF_wrF_other _ _ (.inr (by decide)), rdF_wrF_other _ _ (.inr (by decide))]
    exact hp
  · rw [rdF_congr hstatus, profileReject, bumpSat, rdF_wrF_other _ _ (.inr (by decide)), rdF_wrF_same _ _ _ _ (by decide)]
    exact Nat.mod_eq_of_lt he

theorem exec_profileSelect (s : State) (agent slot : Nat) : exec (.profileSelect agent slot) s =
    .next (commit s (regWrite agent Reg.PROFILE_SEL (setF 0 Reg.PROFILE_SEL_SLOT slot) s.mem s.dev)) := rfl

/-! The change of the slot (R163). -/

theorem rd_rewriteDue (d : Dev) (g why : Nat) {o : Nat} (ho : o ≠ Reg.AGG_STATUS) : rd (rewriteDue d g why) o = rd d o := by
  rw [rewriteDue]
  split
  · rw [wrF, rd_wr_other _ _ ho]
    rfl
  · rfl

@[simp] theorem rewriteDue_orch (d : Dev) (g why : Nat) : (rewriteDue d g why).orch = d.orch := by
  rw [rewriteDue]
  split
  · rw [wrF_orch]
  · rfl

/-- What a change means for the member sets (R351) touches AGG_STATUS alone of the registers, and nothing of Orchard's. -/
theorem aggAfterProfile_frame (d : Dev) :
    (aggAfterProfile d).orch = d.orch ∧ ∀ o, o ≠ Reg.AGG_STATUS → rd (aggAfterProfile d) o = rd d o := by
  have hall : (rewriteAll d).orch = d.orch ∧ ∀ o, o ≠ Reg.AGG_STATUS → rd (rewriteAll d) o = rd d o :=
    List.foldlRecOn (motive := fun x : Dev => x.orch = d.orch ∧ ∀ o, o ≠ Reg.AGG_STATUS → rd x o = rd d o) _ _
      ⟨rfl, fun _ _ => rfl⟩ fun x ⟨hx, hr⟩ g _ =>
        ⟨(rewriteDue_orch x g 1).trans hx, fun o ho => (rd_rewriteDue x g 1 ho).trans (hr o ho)⟩
  rw [aggAfterProfile]
  split
  · exact ⟨rfl, fun _ _ => rfl⟩
  · split
    · exact hall
    · refine ⟨by rw [raise_orch, wrFs_orch], fun o ho => ?_⟩
      rw [rd_congr (raise_regs ..) (raise_fuses ..), rd_wrFs_other _ _ ho]
      rfl

/-- The learns that are answered change furrows alone. -/
theorem foldl_refuseLearn_shape (l : List Learn) (d : Dev) : ∃ fu, l.foldl refuseLearn d = { d with furs := fu } := by
  refine List.foldlRecOn (motive := fun x : Dev => ∃ fu, x = { d with furs := fu }) l refuseLearn ⟨d.furs, rfl⟩ ?_
  rintro _ ⟨fu, rfl⟩ x _
  rw [refuseLearn]
  split
  · exact ⟨_, rfl⟩
  · exact ⟨fu, rfl⟩

/-- The registers and Orchard's stores as a change of the slot leaves them. -/
theorem profileApply_spec {d : Dev} (hp : profilePending d = true) (hr : (List.range 4).all (reachedIn d) = true) :
    activeSlot (profileApply d) = 1 - activeSlot d ∧ profilePending (profileApply d) = false ∧
      flagF (profileApply d) Reg.PROFILE_STATUS Reg.PROFILE_STATUS_LOADED = true ∧
      (profileApply d).orch.stash = d.orch.stash.filter fun e => sameTable d (e.1 / 64) := by
  rw [profileApply, if_pos ⟨hp, hr⟩]
  dsimp only
  obtain ⟨fu, hfu⟩ := foldl_refuseLearn_shape (d.orch.learnQ.filter _) d
  rw [hfu]
  refine ⟨?slot, ?pending, ?loaded, ?stash⟩
  case slot =>
    rw [activeSlot, rdF, rd_wrFs_other _ _ (by decide), rd_wr_same]
    obtain h | h : activeSlot d = 0 ∨ activeSlot d = 1 := by have := activeSlot_lt d; omega
    · rw [h]; decide
    · rw [h]; decide
  case pending =>
    rw [profilePending, flagF]
    refine congrArg (· == 1) (rdF_wrFs_last _ _ [_] [_, _] (by decide) ?_)
    simp [Reg.PROFILE_STATUS_PENDING, Reg.PROFILE_STATUS_LOADED, Reg.PROFILE_STATUS_SLOT]
  case loaded =>
    rw [flagF]
    refine congrArg (· == 1) (rdF_wrFs_last _ _ [_, _] [_] (by decide) ?_)
    simp [Reg.PROFILE_STATUS_LOADED, Reg.PROFILE_STATUS_SLOT]
  case stash =>
    exact congrArg (List.filter · _) (funext fun e => Bool.not_not _)

/-- The effect on the member sets leaves what the change of the slot has set. -/
theorem profileApplied_spec {d : Dev} (hp : profilePending d = true) (hr : (List.range 4).all (reachedIn d) = true) :
    activeSlot (profileApplied d) = 1 - activeSlot d ∧ profilePending (profileApplied d) = false ∧
      flagF (profileApplied d) Reg.PROFILE_STATUS Reg.PROFILE_STATUS_LOADED = true ∧
      ∀ n i, i < 64 → sameTable d n = true → getStash (profileApplied d) n i = getStash d n i := by
  obtain ⟨hslot, hpend, hload, hstash⟩ := profileApply_spec hp hr
  obtain ⟨horch, hregs⟩ := aggAfterProfile_frame (profileApply d)
  have he : profileApplied d = aggAfterProfile (profileApply d) := by
    rw [profileApplied]
    exact if_pos ⟨hp, by rw [hpend]; decide⟩
  have hstatus := hregs Reg.PROFILE_STATUS (by decide)
  rw [he]
  refine ⟨(activeSlot_congr (hregs _ (by decide))).trans hslot, ?_, ?_, fun n i hi hsame => ?_⟩
  · rw [profilePending, flagF, rdF_congr hstatus]
    exact hpend
  · rw [flagF, rdF_congr hstatus]
    exact hload
  · have hn : (64 * n + i) / 64 = n := by omega
    rw [getStash, horch, hstash, spGet_filter _ (fun k => sameTable d (k / 64)), hn, if_pos hsame, getStash]

theorem exec_profileApply (s : State) : exec .profileApply s = .next (commit s (profileApplied s.dev)) := rfl

/-! FLOW_HASH_SEED (R21). -/

theorem isOwnReg_FLOW_HASH_SEED : isOwnReg Reg.FLOW_HASH_SEED Reg.FLOW_HASH_SEED 0 0 = true := by decide +kernel

theorem regEffect_FLOW_HASH_SEED (agent i j : Nat) (v x : W64) (m : Mem) (d : Dev) :
    regEffect ⟨agent, Reg.FLOW_HASH_SEED, Reg.FLOW_HASH_SEED, i, j, v, x⟩ m d =
      if anyHoldingOpen d then (false, d) else (true, wr d Reg.FLOW_HASH_SEED x) := by
  cases h : anyHoldingOpen d <;> simp [regEffect, effGlobal, storeIf, Reg.FLOW_HASH_SEED, h]

section
variable {m : Mem} {d : Dev} {agent : Nat} {v : W64} (h : WriteReaches d agent Reg.FLOW_HASH_SEED v)
  (hf : FieldsInRange Reg.FLOW_HASH_SEED v)
include h hf

theorem regWrite_FLOW_HASH_SEED_closed (ho : anyHoldingOpen d = false) :
    regWrite agent Reg.FLOW_HASH_SEED v m d = wr d Reg.FLOW_HASH_SEED (stored d Reg.FLOW_HASH_SEED v) :=
  regWrite_accepted isOwnReg_FLOW_HASH_SEED (by decide) h hf (by rw [regEffect_FLOW_HASH_SEED, ho]; rfl)

theorem regWrite_FLOW_HASH_SEED_open (ho : anyHoldingOpen d = true) :
    regWrite agent Reg.FLOW_HASH_SEED v m d =
      hostReject d agent Reg.FLOW_HASH_SEED (islandsOf d Reg.FLOW_HASH_SEED v) :=
  regWrite_refused isOwnReg_FLOW_HASH_SEED h hf (by rw [regEffect_FLOW_HASH_SEED, ho]; rfl)

end

theorem exec_flowHashSeedWrite (s : State) (agent : Nat) (v : W64) : exec (.flowHashSeedWrite agent v) s =
    .next (commit s (regWrite agent Reg.FLOW_HASH_SEED v s.mem s.dev)) := rfl

/-- Settles O49: each engine's command is the end of one path of its definition. -/
theorem orchardEngines : Obligations.OrchardEngines := by
  unfold Obligations.OrchardEngines
  refine ⟨?enqueue, ?oldest, ?noTable, ?static, ?retryDue, ?retryRun, ?autoAge, ?glean, ?rebuild, ?select, ?apply, ?seed⟩
  case enqueue =>
    rintro s a f k slot gen dest ty key num data due src table hk rfl rfl hinj
    refine ⟨fun hroom => ⟨_, exec_learnEnqueue s a f k, ?_⟩, fun hfull => ⟨_, exec_learnEnqueue s a f k, ?_⟩⟩
    · rw [commit_orch, getFur_commit]
      exact learnEnqueue_room hk hinj hroom
    · rw [commit_orch, getFur_commit, rd_commit]
      exact learnEnqueue_full hk hinj hfull
  case oldest =>
    rintro s n x rest a f slot gen num dest d hq rfl hn hsrc hbusy hd
    obtain rfl : d = learnTaken s.dev x rest := hd
    have htake : exec (.learnSettle x.table) s = .next (commit s (learnTake (learnTaken s.dev x rest) x)) := by
      rw [exec_learnSettle, learnSettle_oldest hq (Nat.mod_eq_of_lt hn) (isHandover_packet hsrc) hbusy]
    have htbl {b : Tbl} (hb : tbl s.dev x.table = some b) : tbl (learnTaken s.dev x rest) x.table = some b :=
      (tbl_learnTaken _).trans hb
    refine ⟨fun b hb hk hl hp hset => ?_, fun b hb hk hl hp hset => ?_, fun b hb hl => ?_⟩
    · rw [htake, learnTake_packet hn (htbl hb) hsrc hk hl (loaded_learnTaken.trans hp)]
      exact congrArg (fun d => Host.Outcome.next (commit s d)) (if_pos hset)
    · rw [htake, learnTake_packet hn (htbl hb) hsrc hk hl (loaded_learnTaken.trans hp)]
      exact congrArg (fun d => Host.Outcome.next (commit s d)) (if_neg (Bool.eq_false_iff.mp hset))
    · rw [htake, learnTake_noLearn hn (htbl hb) hl]
  case noTable =>
    intro s n x rest a f slot gen num dest hq hx hn hsrc hbusy
    have htake : learnSettle n s.dev = learnReply (learnTaken s.dev x rest) (.packet a f slot gen num dest) true := by
      rw [learnSettle_oldest hq (by omega) (isHandover_packet hsrc) hbusy, learnTake_noTable (by omega), hsrc]
    refine ⟨_, (exec_learnSettle s n).trans (by rw [htake]), ?_, ?_⟩
    · rw [commit_orch, learnReply_orch, learnQ_learnTaken]
    · rw [getFur_commit, inFlight_learnReply, getFur_learnTaken]
  case static => exact fun d b key action seq i hf ht => settle_static action seq hf ht
  case retryDue => exact fun d b i hi hs => retry_exactRemove hi hs
  case retryRun =>
    rintro s n k b d hr hb hk rfl
    rw [exec_stashRetry, stashRetryDue_succ hr hb hk]
  case autoAge =>
    intro s ha hb hp
    rw [exec_autoAgeScan, autoAgeScan_due ha hb hp]
  case glean =>
    intro s blk row q hblk hrow hq hinj hothers
    refine ⟨fun h1 => ⟨_, exec_gleanerRowScrub s blk row, ?_⟩, fun h2 hb => ⟨_, exec_gleanerRowScrub s blk row, ?_⟩⟩
    · rw [ecc_commit]
      exact gleanRow_single hq hinj hothers h1
    · simp only [rdF_commit]
      exact gleanRow_lost hq hothers hblk hrow h2 hb
  case rebuild => exact fun s n h hr => ⟨_, exec_markerRebuild s n h, by rw [commit_orch, markerRebuild_done hr]⟩
  case select =>
    intro s agent slot hs hne hreach hpend
    refine ⟨fun hok => ⟨_, exec_profileSelect s agent slot, ?_⟩, fun hfail => ⟨_, exec_profileSelect s agent slot, ?_⟩⟩
    · rw [activeSlot_commit, flagF_commit, rdF_commit, regWrite_PROFILE_SEL_ok hs hne hreach hpend hok]
      exact quiesceRaised_spec ..
    · rw [activeSlot_commit, flagF_commit, rdF_commit, regWrite_PROFILE_SEL_fails hs hne hreach hpend hfail]
      exact profileRefused_spec agent _ hpend (profileCheck_lt s.dev slot)
  case apply =>
    intro s hp hr
    refine ⟨_, exec_profileApply s, ?_⟩
    simp only [activeSlot_commit, profilePending_commit, flagF_commit, getStash_commit]
    exact profileApplied_spec hp hr
  case seed =>
    intro s agent v hreach hrange
    refine ⟨fun ho => ?_, fun ho => ?_⟩
    · rw [exec_flowHashSeedWrite, regWrite_FLOW_HASH_SEED_closed hreach hrange ho]
      exact ⟨_, rfl, by rw [rd_commit, rd_wr_same]⟩
    · rw [exec_flowHashSeedWrite, regWrite_FLOW_HASH_SEED_open hreach hrange ho]
      exact ⟨_, rfl, by rw [rd_commit, rd_hostReject_other _ _ _ _ (by decide)]⟩

end Sys2Proof.Machine
end

section
/-!
PROOF. The machine at reset (R442, R444): every register reads its reset value, so what the register map states of one is what it holds.
-/
namespace Sys2Proof.Machine

theorem rd_reset (o : Nat) : rd State.reset.dev o = resetVal State.reset.dev.fuses.half o := rfl

theorem resetVal_HOLDING_OPEN : ∀ p, ∀ i < 4, resetVal p (Reg.HOLDING_OPEN i) = 0 := by decide

theorem getF_resetVal_FURROW_ROLE :
    ∀ p, ∀ a < 4, ∀ f < 17, getF (resetVal p (Reg.FURROW_ROLE a f)) Reg.FURROW_ROLE_ROLE = if f < 16 then 0 else 1 := by
  decide +kernel

theorem bits_resetVal_FURROW_MAP :
    ∀ p, ∀ a < 4, ∀ i < 256, bits (resetVal p (Reg.FURROW_MAP a (i / 2))).toNat (32 * (i % 2)) 5 = i % 16 := by
  decide +kernel

/-- With its word 0, no holding of the word is open. -/
theorem holdingOpen_reset {h : Nat} (hh : h < 256) : holdingOpen State.reset.dev h = false := by
  rw [holdingOpen, rd_reset, resetVal_HOLDING_OPEN _ _ (by omega)]
  simp [bit]

theorem roleOf_reset {a f : Nat} (ha : a < 4) (hf : f < 17) : roleOf State.reset.dev a f = if f < 16 then 0 else 1 := by
  rw [roleOf, rdF, rd_reset, getF_resetVal_FURROW_ROLE _ a ha f hf]

theorem furrowMap_reset {a i : Nat} (ha : a < 4) (hi : i < 256) : furrowMap State.reset.dev a i = i % 16 := by
  rw [furrowMap, rd_reset, bits_resetVal_FURROW_MAP _ a ha i hi]

/-- Settles O59: the state is written out, and its registers read as the register map says. -/
theorem resetState : Obligations.ResetState := by
  unfold Obligations.ResetState
  refine ⟨by decide, rfl, rfl, rfl, rd_reset, fun h hh => holdingOpen_reset hh, by decide, by decide, by decide, by decide, ?acres,
    fun _ _ => rfl, fun _ _ => rfl, rfl⟩
  case acres =>
    intro a ha
    refine ⟨?spare, ?active, ?map⟩
    case spare => rw [roleOf_reset ha (by decide), if_neg (by decide)]
    case active => exact fun f hf => ⟨by rw [roleOf_reset ha (by omega), if_pos hf], rfl⟩
    case map => exact fun i hi => furrowMap_reset ha hi

end Sys2Proof.Machine
end

section
/-!
PROOF. The packet context (R42): what a field, a word, a flag or a condition reads after a field is set.
-/
namespace Sys2Proof.Machine

theorem bit_eq_testBit (x i : Nat) : bit x i = x.testBit i := by
  rw [bit, Nat.testBit_eq_decide_div_mod_eq]
  exact beq_eq_decide ..

theorem bit_toNat (x : W64) (i : Nat) : bit x.toNat i = x.getLsbD i := bit_eq_testBit ..

theorem bit_setBits_same (x i : Nat) (b : Bool) : bit (setBits x i 1 (b2n b)) i = b := by
  rw [bit_eq_testBit, testBit_setBits, if_pos (by omega), Nat.sub_self]
  cases b <;> rfl

theorem bit_setBits_other (x v : Nat) {i j : Nat} (h : j ≠ i) : bit (setBits x i 1 v) j = bit x j := by
  rw [bit_eq_testBit, bit_eq_testBit, testBit_setBits, if_neg (by omega)]

/-! Conditions. -/

theorem bit_setCond (p : Pkt) (c j : Nat) (v : Bool) : bit (setCond p c v).conds j = if j = c then v else bit p.conds j := by
  split
  · rename_i h; subst h; exact bit_setBits_same ..
  · rename_i h; exact bit_setBits_other _ _ h

@[simp] theorem setCond_ctx (p : Pkt) (c : Nat) (v : Bool) : (setCond p c v).ctx = p.ctx := rfl
@[simp] theorem setCond_frame (p : Pkt) (c : Nat) (v : Bool) : (setCond p c v).frame = p.frame := rfl
@[simp] theorem setCond_grant (p : Pkt) (c : Nat) (v : Bool) : (setCond p c v).grant = p.grant := rfl
@[simp] theorem setCond_reqs (p : Pkt) (c : Nat) (v : Bool) : (setCond p c v).reqs = p.reqs := rfl
@[simp] theorem pcGet_setCond (p : Pkt) (c : Nat) (v : Bool) (f : Fld) : pcGet (setCond p c v) f = pcGet p f := rfl

/-! Fields. -/

theorem pcGet_congr {p q : Pkt} (h : q.ctx = p.ctx) (f : Fld) : pcGet q f = pcGet p f := by rw [pcGet, pcGet, h]

theorem pcGet_lt (p : Pkt) (f : Fld) : pcGet p f < 2 ^ f.w := bits_lt ..

theorem testBit_pcGet (p : Pkt) (f : Fld) (i : Nat) : (pcGet p f).testBit i = (decide (i < f.w) && p.ctx.getLsbD (f.lo + i)) := testBit_bits ..

theorem ctx_pcSet (p : Pkt) (f : Fld) (v i : Nat) (hi : i < 2048) : (pcSet p f v).ctx.getLsbD i =
    if f.lo ≤ i ∧ i < f.lo + f.w then v.testBit (i - f.lo) else p.ctx.getLsbD i := by
  simp only [pcSet, BitVec.getLsbD_ofNat, hi, decide_true, Bool.true_and, testBit_setBits]
  rfl

theorem pcGet_pcSet_same (p : Pkt) (f : Fld) (v : Nat) (h : f.lo + f.w ≤ 2048) : pcGet (pcSet p f v) f = v % 2 ^ f.w := by
  apply Nat.eq_of_testBit_eq
  intro i
  rw [testBit_pcGet, Nat.testBit_mod_two_pow]
  by_cases hi : i < f.w
  · rw [ctx_pcSet _ _ _ _ (by omega), if_pos (by omega), Nat.add_sub_cancel_left]
  · simp [hi]

theorem pcGet_pcSet_other (p : Pkt) {f g : Fld} (v : Nat) (h : g.lo + g.w ≤ f.lo ∨ f.lo + f.w ≤ g.lo) (hg : g.lo + g.w ≤ 2048) :
    pcGet (pcSet p f v) g = pcGet p g := by
  apply Nat.eq_of_testBit_eq
  intro i
  rw [testBit_pcGet, testBit_pcGet]
  by_cases hi : i < g.w
  · rw [ctx_pcSet _ _ _ _ (by omega), if_neg (by omega)]
  · simp [hi]

/-! Words. -/

theorem getLsbD_ctxWord (p : Pkt) {w i : Nat} (hw : w < 32) (hi : i < 64) : (ctxWord p w).getLsbD i = p.ctx.getLsbD (64 * w + i) := by
  simp only [ctxWord, hw, if_true, BitVec.getLsbD_ofNat, hi, decide_true, Bool.true_and, testBit_bits]
  rfl

/-- A word after a field of some word is set: the field's bits show what was set, the others stand. -/
theorem getLsbD_ctxWord_pcSet (p : Pkt) {w i k lo n : Nat} (v : Nat) (hw : w < 32) (hi : i < 64) (hn : lo + n ≤ 64) :
    (ctxWord (pcSet p (ctxFld k lo n) v) w).getLsbD i =
      if w = k ∧ lo ≤ i ∧ i < lo + n then v.testBit (i - lo) else (ctxWord p w).getLsbD i := by
  rw [getLsbD_ctxWord _ hw hi, getLsbD_ctxWord _ hw hi, ctx_pcSet _ _ _ _ (by omega)]
  by_cases h : w = k ∧ lo ≤ i ∧ i < lo + n
  · rw [if_pos h, if_pos (by simp only [ctxFld]; omega)]
    congr 1
    simp only [ctxFld]
    omega
  · rw [if_neg h, if_neg (by simp only [ctxFld]; omega)]

theorem ctxWord_pcSet_other (p : Pkt) {w k lo n : Nat} (v : Nat) (hw : w < 32) (hk : w ≠ k) (hn : lo + n ≤ 64) :
    ctxWord (pcSet p (ctxFld k lo n) v) w = ctxWord p w := by
  apply BitVec.eq_of_getLsbD_eq
  intro i hi
  rw [getLsbD_ctxWord_pcSet _ _ hw hi hn, if_neg (by omega)]

/-! Setting a field leaves the packet's other parts. -/

@[simp] theorem pcSet_frame (p : Pkt) (f : Fld) (v : Nat) : (pcSet p f v).frame = p.frame := rfl
@[simp] theorem pcSet_conds (p : Pkt) (f : Fld) (v : Nat) : (pcSet p f v).conds = p.conds := rfl
@[simp] theorem pcSet_ride (p : Pkt) (f : Fld) (v : Nat) : (pcSet p f v).ride = p.ride := rfl
@[simp] theorem pcSet_loc (p : Pkt) (f : Fld) (v : Nat) : (pcSet p f v).loc = p.loc := rfl
@[simp] theorem pcSet_edits (p : Pkt) (f : Fld) (v : Nat) : (pcSet p f v).edits = p.edits := rfl
@[simp] theorem pcSet_gen (p : Pkt) (f : Fld) (v : Nat) : (pcSet p f v).gen = p.gen := rfl
@[simp] theorem pcSet_reqs (p : Pkt) (f : Fld) (v : Nat) : (pcSet p f v).reqs = p.reqs := rfl
@[simp] theorem pcSet_grant (p : Pkt) (f : Fld) (v : Nat) : (pcSet p f v).grant = p.grant := rfl

end Sys2Proof.Machine
end

section
/-!
PROOF. The data operations of a nanoword (R86 to R91, R105, R106): each changes the packet in its slot, and of it the latches, the flags
or one field of the context.
-/
namespace Sys2Proof.Machine

theorem onPkt_some {d : Dev} {l : PktRef} {p : Pkt} (h : getPkt d l = some p) (g : Pkt → Pkt) : onPkt l g d = putPkt d l (g p) := by
  rw [onPkt, h]

theorem run_onPkt {s : State} {l : PktRef} {p : Pkt} (h : getPkt s.dev l = some p) (g : Pkt → Pkt) :
    run (onPkt l g) s = .next (commit s (putPkt s.dev l (g p))) := by
  rw [run, onPkt_some h]

/-! Extractors (R86). -/

theorem xOut_pkExtract_same (n : Nat) (g : XGroup) (p : Pkt) (hn : n < 4) : xOut (pkExtract n g p) n = extract p g := by
  interval_cases n <;> rfl

theorem xOut_pkExtract_other {n m : Nat} (g : XGroup) (p : Pkt) (hn : n < 4) (hm : m < 4) (h : m ≠ n) :
    xOut (pkExtract n g p) m = xOut p m := by
  interval_cases n <;> interval_cases m <;> first | exact absurd rfl h | rfl

theorem pkExtract_latches (n : Nat) (g : XGroup) (p : Pkt) :
    { pkExtract n g p with x0 := p.x0, x1 := p.x1, x2 := p.x2, x3 := p.x3 } = p := by
  rw [pkExtract]
  dsimp only
  split_ifs <;> rfl

/-! The ALUs (R89, R90). -/

theorem sval_eq_toInt (a : W64) : sval a = a.toInt := by
  rw [sval, toSigned, BitVec.toInt_eq_toNat_cond, Nat.mod_eq_of_lt a.isLt]
  have : a.toNat < 2 ^ (64 - 1) ↔ 2 * a.toNat < 2 ^ 64 := by omega
  simp only [this]
  rfl

theorem aluFlags_eq (o : AluOut) : aluFlags o = b2n (o.y == 0) + 2 * b2n (o.y.getLsbD 63) + 4 * b2n o.c + 8 * b2n o.v := by
  rw [aluFlags, bit_toNat]

/-- The latch of the ALU takes the result, and with FW its flags. -/
theorem aluStep_eq (p : Pkt) {n : Nat} (hn : n < 2) (g : AluGroup) (imm : Nat) (f : W64 → W64 → AluOut) {o : AluOut}
    (ho : f (aluOperand p n g.sa g.cwa g.k imm) (aluOperand p n g.sb g.cwb g.k imm) = o) :
    aluStep p n g imm f = { p with
      y0 := if n = 0 then o.y else p.y0
      y1 := if n = 1 then o.y else p.y1
      flags0 := if n = 0 ∧ g.fw = true then aluFlags o else p.flags0
      flags1 := if n = 1 ∧ g.fw = true then aluFlags o else p.flags1 } := by
  rw [aluStep, ho]
  cases g.fw <;> interval_cases n <;> rfl

theorem aluAdd_eq (a b : W64) : aluAdd a b =
    ⟨a + b, decide (2 ^ 64 ≤ a.toNat + b.toNat), decide (a.toInt + b.toInt < -(2 ^ 63) ∨ 2 ^ 63 ≤ a.toInt + b.toInt)⟩ := by
  rw [aluAdd, signedOverflow, sval_eq_toInt, sval_eq_toInt]

theorem aluSub_eq (a b : W64) : aluSub a b =
    ⟨a - b, decide (a.toNat < b.toNat), decide (a.toInt - b.toInt < -(2 ^ 63) ∨ 2 ^ 63 ≤ a.toInt - b.toInt)⟩ := by
  rw [aluSub, signedOverflow, sval_eq_toInt, sval_eq_toInt]

theorem aluShl_eq (a b : W64) : aluShl a b =
    ⟨a <<< (b.toNat % 64), decide (b.toNat % 64 ≠ 0) && a.getLsbD (64 - b.toNat % 64), false⟩ := by
  simp only [aluShl, shAmt, bit_toNat]
  rfl

theorem aluShr_eq (a b : W64) : aluShr a b =
    ⟨a >>> (b.toNat % 64), decide (b.toNat % 64 ≠ 0) && a.getLsbD (b.toNat % 64 - 1), false⟩ := by
  simp only [aluShr, shAmt, bit_toNat]
  rfl

theorem aluSar_eq (a b : W64) : aluSar a b =
    ⟨a.sshiftRight (b.toNat % 64), decide (b.toNat % 64 ≠ 0) && a.getLsbD (b.toNat % 64 - 1), false⟩ := by
  simp only [aluSar, shAmt, bit_toNat]
  rfl

theorem aluMin_eq (a b : W64) : aluMin a b = ⟨if b.toNat < a.toNat then b else a, decide (b.toNat < a.toNat), false⟩ := by
  by_cases h : b.toNat < a.toNat <;> simp [aluMin, h]

theorem aluMax_eq (a b : W64) : aluMax a b = ⟨if a.toNat < b.toNat then b else a, decide (a.toNat < b.toNat), false⟩ := by
  by_cases h : a.toNat < b.toNat <;> simp [aluMax, h]

theorem aluAddsat_eq (a b : W64) : aluAddsat a b =
    ⟨if 2 ^ 64 ≤ a.toNat + b.toNat then BitVec.allOnes 64 else a + b, decide (2 ^ 64 ≤ a.toNat + b.toNat), false⟩ := by
  rw [aluAddsat]
  split <;> simp_all

theorem aluSubsat_eq (a b : W64) : aluSubsat a b = ⟨if a.toNat < b.toNat then 0 else a - b, decide (a.toNat < b.toNat), false⟩ := by
  by_cases h : a.toNat < b.toNat <;> simp [aluSubsat, h]

theorem sum16_le (x : Nat) : sum16 x ≤ 4 * 65535 := by
  have h := fun lo => bits_lt x lo 16
  have h0 := h 0; have h1 := h 16; have h2 := h 32; have h3 := h 48
  rw [sum16]
  omega

/-- Two end-around carries bring the sum of eight words into 16 bits, and each keeps it modulo 65535. -/
theorem foldCarry_two {t : Nat} (h : t ≤ 8 * 65535) : foldCarry 2 t < 65536 ∧ foldCarry 2 t % 65535 = t % 65535 := by
  simp only [foldCarry]
  omega

theorem aluCsum_sum (a b : W64) :
    (aluCsum a b).y.toNat < 65536 ∧ (aluCsum a b).y.toNat % 65535 = (sum16 a.toNat + sum16 b.toNat) % 65535 := by
  have ha := sum16_le a.toNat
  have hb := sum16_le b.toNat
  obtain ⟨hlt, hmod⟩ := foldCarry_two (t := sum16 a.toNat + sum16 b.toNat) (by omega)
  have hy : (aluCsum a b).y.toNat = foldCarry 2 (sum16 a.toNat + sum16 b.toNat) := Nat.mod_eq_of_lt (by omega)
  rw [hy]
  exact ⟨hlt, hmod⟩

/-! The metadata write (R91), the flags (R105) and the disposition (R106). -/

theorem writable_lt (w : Nat) : writable w < 2 ^ 64 := by
  unfold writable
  split_ifs <;> decide

/-- Bits of a mask come from `new`, the others from `old`. -/
theorem testBit_masked {old new m i : Nat} (hm : m < 2 ^ 64) (hi : i < 64) :
    ((old &&& (2 ^ 64 - 1 - m)) ||| (new &&& m)).testBit i = if m.testBit i then new.testBit i else old.testBit i := by
  rw [show 2 ^ 64 - 1 - m = 2 ^ 64 - (m + 1) by omega, Nat.testBit_or, Nat.testBit_and, Nat.testBit_and, Nat.testBit_two_pow_sub_succ hm]
  cases m.testBit i <;> simp [hi]

theorem pcSet_withCtx (p : Pkt) (f : Fld) (v : Nat) (c : BitVec 2048) : { pcSet p f v with ctx := c } = { p with ctx := c } := rfl

theorem pcSet_ctx (p : Pkt) (f : Fld) (v : Nat) : { pcSet p f v with ctx := p.ctx } = p := rfl

theorem pkMw_ctx (g : MwGroup) (k : Nat) (p : Pkt) : { pkMw g k p with ctx := p.ctx } = p := pcSet_ctx ..

theorem getLsbD_pkMw (g : MwGroup) (k : Nat) (p : Pkt) (hl : g.lsb < 64) {w i : Nat} (hw : w < 32) (hi : i < 64) :
    (ctxWord (pkMw g k p) w).getLsbD i =
      if w = g.word ∧ g.lsb ≤ i ∧ i < g.lsb + (g.width + 1) ∧ bit (writable w) i = true then bit (mwSource p g.src k) (i - g.lsb)
      else (ctxWord p w).getLsbD i := by
  rw [pkMw, getLsbD_ctxWord_pcSet _ _ hw hi (by decide)]
  by_cases hk : w = g.word
  · subst hk
    rw [if_pos (by omega), Nat.sub_zero, testBit_masked (writable_lt _) hi, testBit_setBits, bit_eq_testBit, bit_eq_testBit]
    have hold : (ctxWord p g.word).toNat.testBit i = (ctxWord p g.word).getLsbD i := rfl
    have hwd : (g.lsb ≤ i ∧ i < g.lsb + min (g.width + 1) (64 - g.lsb)) ↔ (g.lsb ≤ i ∧ i < g.lsb + (g.width + 1)) := by omega
    cases (writable g.word).testBit i <;> simp [hold, hwd]
  · rw [if_neg (fun h => hk h.1), if_neg (fun h => hk h.1)]

theorem getLsbD_pkMirror (v : Bool) (p : Pkt) {w i : Nat} (hw : w < 32) (hi : i < 64) :
    (ctxWord (pkMirror v p) w).getLsbD i = if w = 3 ∧ bit (2 ^ 16) i = true then v else (ctxWord p w).getLsbD i := by
  have hb : bit (2 ^ 16) i = decide (16 = i) := by rw [bit_eq_testBit, Nat.testBit_two_pow]
  rw [pkMirror, Pc.flag, flMirror, getLsbD_ctxWord_pcSet _ _ hw hi (by decide), hb]
  by_cases h : w = 3 ∧ i = 16
  · obtain ⟨rfl, rfl⟩ := h
    cases v <;> rfl
  · rw [if_neg (by omega), if_neg (by rw [decide_eq_true_eq]; omega)]

theorem lt_of_testBit {m n i : Nat} (hm : m < 2 ^ n) (hb : m.testBit i = true) : i < n := by
  by_contra h
  rw [Nat.testBit_lt_two_pow (lt_of_lt_of_le hm (Nat.pow_le_pow_right (by decide) (by omega)))] at hb
  contradiction

theorem testBit_flags (p : Pkt) {i : Nat} (hi : i < 16) : (pcGet p (ctxFld 3 0 16)).testBit i = (ctxWord p 3).getLsbD i := by
  rw [testBit_pcGet, getLsbD_ctxWord _ (by decide) (by omega)]
  simp [ctxFld, hi]

theorem getLsbD_pkFlagsSet {mask : Nat} (hm : mask < 2 ^ 16) (p : Pkt) {w i : Nat} (hw : w < 32) (hi : i < 64) :
    (ctxWord (pkFlagsSet mask p) w).getLsbD i = if w = 3 ∧ bit mask i = true then true else (ctxWord p w).getLsbD i := by
  rw [pkFlagsSet, Nat.mod_eq_of_lt hm, getLsbD_ctxWord_pcSet _ _ hw hi (by decide), bit_eq_testBit]
  by_cases h : w = 3 ∧ i < 16
  · obtain ⟨rfl, h16⟩ := h
    rw [if_pos (by omega), Nat.sub_zero, Nat.testBit_or, testBit_flags p h16]
    cases mask.testBit i <;> simp
  · rw [if_neg (by omega), if_neg]
    rintro ⟨rfl, hb⟩
    exact h ⟨rfl, lt_of_testBit hm hb⟩

theorem getLsbD_pkFlagsClear {mask : Nat} (hm : mask < 2 ^ 16) (p : Pkt) {w i : Nat} (hw : w < 32) (hi : i < 64) :
    (ctxWord (pkFlagsClear mask p) w).getLsbD i = if w = 3 ∧ bit mask i = true then false else (ctxWord p w).getLsbD i := by
  rw [pkFlagsClear, Nat.mod_eq_of_lt hm, getLsbD_ctxWord_pcSet _ _ hw hi (by decide), bit_eq_testBit]
  by_cases h : w = 3 ∧ i < 16
  · obtain ⟨rfl, h16⟩ := h
    rw [if_pos (by omega), Nat.sub_zero, Nat.testBit_and, testBit_flags p h16, show 2 ^ 16 - 1 - mask = 2 ^ 16 - (mask + 1) by omega,
      Nat.testBit_two_pow_sub_succ hm]
    cases mask.testBit i <;> simp [h16]
  · rw [if_neg (by omega), if_neg]
    rintro ⟨rfl, hb⟩
    exact h ⟨rfl, lt_of_testBit hm hb⟩

/-- DP writes the disposition, and the reason that goes with DROP or PUNT. -/
theorem pkDisposition_spec (p : Pkt) {v r : Nat} (hv : v < 16) (hr : r < 256) :
    pcGet (pkDisposition v r p) Pc.disposition = v ∧
      pcGet (pkDisposition v r p) Pc.dropReason = (if v = 5 then r else pcGet p Pc.dropReason) ∧
      pcGet (pkDisposition v r p) Pc.puntReason = (if v = 4 then r else pcGet p Pc.puntReason) ∧
      pcGet (pkDisposition v r p) Pc.color = pcGet p Pc.color := by
  have hset : pcGet (pcSet p Pc.disposition v) Pc.disposition = v :=
    (pcGet_pcSet_same p _ v (by decide)).trans (Nat.mod_eq_of_lt hv)
  have hkeep : ∀ {g : Fld}, g.lo + g.w ≤ Pc.disposition.lo ∨ Pc.disposition.lo + Pc.disposition.w ≤ g.lo → g.lo + g.w ≤ 2048 →
      pcGet (pcSet p Pc.disposition v) g = pcGet p g := fun h hg => pcGet_pcSet_other p v h hg
  rw [pkDisposition]
  by_cases h5 : v = 5
  · simp only [h5, if_true]
    subst h5
    refine ⟨?_, ?_, ?_, ?_⟩
    · rw [pcGet_pcSet_other _ _ (by decide) (by decide), hset]
    · rw [pcGet_pcSet_same _ _ _ (by decide)]
      exact Nat.mod_eq_of_lt hr
    · rw [pcGet_pcSet_other _ _ (by decide) (by decide), hkeep (by decide) (by decide), if_neg (by decide)]
    · rw [pcGet_pcSet_other _ _ (by decide) (by decide), hkeep (by decide) (by decide)]
  by_cases h4 : v = 4
  · subst h4
    simp only [if_true, if_neg h5]
    refine ⟨?_, ?_, ?_, ?_⟩
    · rw [pcGet_pcSet_other _ _ (by decide) (by decide), hset]
    · rw [pcGet_pcSet_other _ _ (by decide) (by decide), hkeep (by decide) (by decide)]
    · rw [pcGet_pcSet_same _ _ _ (by decide)]
      exact Nat.mod_eq_of_lt hr
    · rw [pcGet_pcSet_other _ _ (by decide) (by decide), hkeep (by decide) (by decide)]
  · simp only [if_neg h5, if_neg h4]
    exact ⟨hset, hkeep (by decide) (by decide), hkeep (by decide) (by decide), hkeep (by decide) (by decide)⟩

theorem pkDisposition_ctx (p : Pkt) (v r : Nat) : { pkDisposition v r p with ctx := p.ctx } = p := by
  rw [pkDisposition]
  split_ifs
  · exact (pcSet_withCtx ..).trans (pcSet_ctx ..)
  · exact (pcSet_withCtx ..).trans (pcSet_ctx ..)
  · exact pcSet_ctx ..

theorem ctxWord_pkDisposition (p : Pkt) (v r : Nat) {w : Nat} (hw : w < 32) (h2 : w ≠ 2) : ctxWord (pkDisposition v r p) w = ctxWord p w := by
  have h : ∀ (q : Pkt) {lo n : Nat} (x : Nat), lo + n ≤ 64 → ctxWord (pcSet q (ctxFld 2 lo n) x) w = ctxWord q w :=
    fun q _ _ x hn => ctxWord_pcSet_other q x hw h2 hn
  rw [pkDisposition]
  split_ifs
  · rw [Pc.dropReason, h _ _ (by decide), Pc.disposition, h _ _ (by decide)]
  · rw [Pc.puntReason, h _ _ (by decide), Pc.disposition, h _ _ (by decide)]
  · rw [Pc.disposition, h _ _ (by decide)]

/-! What an extractor reads (R86). -/

theorem extract_none {p : Pkt} {g : XGroup} (h : g.src = 0) : extract p g = 0 := by simp [extract, h]

theorem extract_ctx {p : Pkt} {g : XGroup} (h : g.src = 2) (hs : g.sext = false) (hl : g.shl = 0) :
    extract p g = BitVec.ofNat 64 (bits p.ctx.toNat g.offset (g.width + 1)) := by simp [extract, h, hs, hl]

theorem extract_absent {p : Pkt} {g : XGroup} (h : g.src = 1) (hp : hdrPresent p g.inst = false) : extract p g = 0 := by
  simp [extract, h, hp, ofSigned, toSigned]

/-! The commands. -/

section
variable {s : State} {l : PktRef} {p : Pkt} (hp : getPkt s.dev l = some p)
include hp

theorem exec_alu {n : Nat} (hn : n < 2) {g : AluGroup} {imm : Nat} {c : Instr} {y : W64} {cf vf : Bool} (f : W64 → W64 → AluOut)
    (hc : exec c s = run (onPkt l fun p => aluStep p n g imm f) s)
    (hf : f (aluOperand p n g.sa g.cwa g.k imm) (aluOperand p n g.sb g.cwb g.k imm) = ⟨y, cf, vf⟩) :
    exec c s = .next (commit s (putPkt s.dev l
      { p with
        y0 := if n = 0 then y else p.y0
        y1 := if n = 1 then y else p.y1
        flags0 := if n = 0 ∧ g.fw = true then b2n (y == 0) + 2 * b2n (y.getLsbD 63) + 4 * b2n cf + 8 * b2n vf else p.flags0
        flags1 := if n = 1 ∧ g.fw = true then b2n (y == 0) + 2 * b2n (y.getLsbD 63) + 4 * b2n cf + 8 * b2n vf else p.flags1 })) := by
  rw [hc, run_onPkt hp, aluStep_eq p hn g imm f hf, aluFlags_eq]

theorem exec_metadataWrite (g : MwGroup) (k : Nat) (hg : g.src ≠ 7) :
    exec (.metadataWrite l g k) s = .next (commit s (putPkt s.dev l (pkMw g k p))) := by
  have hb : (g.src == 7) = false := by simpa using hg
  have he : exec (.metadataWrite l g k) s =
      .next (commit s (nanoPart l (fun _ => g.src == 7) (fun _ => false) (onPkt l (pkMw g k)) s.dev)) := rfl
  rw [he, nanoPart, hp]
  simp only [hb, Bool.or_self, Bool.false_eq_true, if_false]
  rw [onPkt_some hp]

end

end Sys2Proof.Machine

namespace Sys2Proof
open Machine

/-- Settles O56: every clause is the command's one change of its packet. -/
theorem nanoData : Obligations.NanoData := by
  unfold Obligations.NanoData
  refine ⟨?ops, aluCsum_sum, ?extracts⟩
  case extracts =>
    exact fun p g => ⟨or_iff_not_imp_right.mpr fun h => extract_none (not_not.mp h), extract_ctx, extract_absent⟩
  case ops =>
    intro s l p hp
    refine ⟨?extract, ?alu, ?metadata, ?flags, ?disposition⟩
    case extract =>
      intro n g hn
      exact ⟨_, run_onPkt hp _, xOut_pkExtract_same n g p hn, fun m hm h => xOut_pkExtract_other g p hn hm h, pkExtract_latches n g p⟩
    case alu =>
      intro n g imm a b c y cf vf hn ha hb hmem
      subst ha hb
      simp only [List.mem_cons, List.not_mem_nil, or_false, Prod.mk.injEq] at hmem
      rcases hmem with ⟨rfl, rfl, rfl, rfl⟩ | ⟨rfl, rfl, rfl, rfl⟩ | ⟨rfl, rfl, rfl, rfl⟩ | ⟨rfl, rfl, rfl, rfl⟩ | ⟨rfl, rfl, rfl, rfl⟩ |
        ⟨rfl, rfl, rfl, rfl⟩ | ⟨rfl, rfl, rfl, rfl⟩ | ⟨rfl, rfl, rfl, rfl⟩ | ⟨rfl, rfl, rfl, rfl⟩ | ⟨rfl, rfl, rfl, rfl⟩ |
        ⟨rfl, rfl, rfl, rfl⟩ | ⟨rfl, rfl, rfl, rfl⟩ | ⟨rfl, rfl, rfl, rfl⟩ | ⟨rfl, rfl, rfl, rfl⟩ | ⟨rfl, rfl, rfl, rfl⟩ |
        ⟨rfl, rfl, rfl, rfl⟩ | ⟨rfl, rfl, rfl, rfl⟩ | ⟨rfl, rfl, rfl, rfl⟩ | ⟨rfl, rfl, rfl, rfl⟩ | ⟨rfl, rfl, rfl, rfl⟩ |
        ⟨rfl, rfl, rfl, rfl⟩
      · exact exec_alu hp hn aluMov rfl rfl
      · exact exec_alu hp hn aluAdd rfl (aluAdd_eq ..)
      · exact exec_alu hp hn aluSub rfl (aluSub_eq ..)
      · exact exec_alu hp hn aluAnd rfl rfl
      · exact exec_alu hp hn aluOr rfl rfl
      · exact exec_alu hp hn aluXor rfl rfl
      · exact exec_alu hp hn aluAndn rfl rfl
      · exact exec_alu hp hn aluNot rfl rfl
      · exact exec_alu hp hn aluShl rfl (aluShl_eq ..)
      · exact exec_alu hp hn aluShr rfl (aluShr_eq ..)
      · exact exec_alu hp hn aluSar rfl (aluSar_eq ..)
      · exact exec_alu hp hn aluRol rfl rfl
      · exact exec_alu hp hn aluMin rfl (aluMin_eq ..)
      · exact exec_alu hp hn aluMax rfl (aluMax_eq ..)
      · exact exec_alu hp hn aluCsum rfl rfl
      · exact exec_alu hp hn aluCrc rfl rfl
      · exact exec_alu hp hn aluPopc rfl rfl
      · exact exec_alu hp hn aluClz rfl rfl
      · exact exec_alu hp hn aluScale rfl rfl
      · exact exec_alu hp hn aluAddsat rfl (aluAddsat_eq ..)
      · exact exec_alu hp hn aluSubsat rfl (aluSubsat_eq ..)
    case metadata =>
      intro g k hsrc hlsb hword
      exact ⟨_, exec_metadataWrite hp g k hsrc, pkMw_ctx g k p, fun w i hw hi => getLsbD_pkMw g k p hlsb hw hi⟩
    case flags =>
      intro c mask on hc
      simp only [List.mem_cons, List.not_mem_nil, or_false, Prod.mk.injEq] at hc
      rcases hc with (⟨rfl, rfl, rfl⟩ | ⟨rfl, rfl, rfl⟩) | ⟨hm, ⟨rfl, rfl⟩ | ⟨rfl, rfl⟩⟩
      · exact ⟨_, run_onPkt hp _, pcSet_ctx .., fun w i hw hi => getLsbD_pkMirror true p hw hi⟩
      · exact ⟨_, run_onPkt hp _, pcSet_ctx .., fun w i hw hi => getLsbD_pkMirror false p hw hi⟩
      · exact ⟨_, run_onPkt hp _, pcSet_ctx .., fun w i hw hi => getLsbD_pkFlagsSet hm p hw hi⟩
      · exact ⟨_, run_onPkt hp _, pcSet_ctx .., fun w i hw hi => getLsbD_pkFlagsClear hm p hw hi⟩
    case disposition =>
      intro v r hv hr
      obtain ⟨hdisp, hdrop, hpunt, hcolor⟩ := pkDisposition_spec p hv hr
      exact ⟨_, run_onPkt hp _, pkDisposition_ctx p v r, hdisp, hdrop, hpunt, hcolor,
        fun w hw h2 => ctxWord_pkDisposition p v r hw h2⟩

end Sys2Proof
end

section
/-!
PROOF. Furrows and the packets in their slots: what each reads after a furrow or a packet is replaced, and which operations of the other
units leave every furrow as it was.
-/
namespace Sys2Proof.Machine

/-! Furrows. -/

theorem getFur_putFur (d : Dev) (a f b g : Nat) (x : Furrow) :
    getFur (putFur d a f x) b g = if 32 * b + g = 32 * a + f then x else getFur d b g := spGet_spPut ..

theorem getFur_putFur_other (d : Dev) {a f b g : Nat} (x : Furrow) (h : 32 * b + g ≠ 32 * a + f) :
    getFur (putFur d a f x) b g = getFur d b g := by rw [getFur_putFur, if_neg h]

theorem getFur_congr {d e : Dev} (h : e.furs = d.furs) (a f : Nat) : getFur e a f = getFur d a f := by rw [getFur, getFur, h]

theorem getPkt_congr {d e : Dev} {l : PktRef} (h : getFur e l.a l.f = getFur d l.a l.f) : getPkt e l = getPkt d l := by
  rw [getPkt, getPkt, h]

theorem getPkt_congr_furs {d e : Dev} (h : e.furs = d.furs) (l : PktRef) : getPkt e l = getPkt d l := getPkt_congr (getFur_congr h ..)

@[simp] theorem getPkt_commit (s : State) (d : Dev) (l : PktRef) : getPkt (commit s d).dev l = getPkt d l := rfl

/-- A change of a furrow beside its packets leaves every packet. -/
theorem getPkt_putFur_pkts (d : Dev) {a f : Nat} {x : Furrow} (h : x.pkts = (getFur d a f).pkts) (l : PktRef) :
    getPkt (putFur d a f x) l = getPkt d l := by
  rw [getPkt, getPkt, getFur_putFur]
  split
  · rename_i hk
    rw [h, getFur, getFur, hk]
  · rfl

/-! Packets. -/

theorem getFur_putPkt_same (d : Dev) (l : PktRef) (p : Pkt) : getFur (putPkt d l p) l.a l.f = furPut (getFur d l.a l.f) l.slot (some p) :=
  getFur_putFur_same ..

theorem getPkt_putPkt_slot (d : Dev) {a f k j : Nat} (p : Pkt) (h : j ≠ k) : getPkt (putPkt d ⟨a, f, k⟩ p) ⟨a, f, j⟩ = getPkt d ⟨a, f, j⟩ := by
  rw [getPkt, putPkt, getFur_putFur_same]
  exact spGet_spPut_other (fun _ => none) (getFur d a f).pkts (some p) h

theorem getPkt_putPkt_other (d : Dev) {l l' : PktRef} (p : Pkt) (h : l' ≠ l) (hf : l.f < 32) (hf' : l'.f < 32) :
    getPkt (putPkt d l p) l' = getPkt d l' := by
  obtain ⟨a, f, k⟩ := l
  obtain ⟨b, g, j⟩ := l'
  by_cases hfur : 32 * b + g = 32 * a + f
  · obtain ⟨rfl, rfl⟩ : b = a ∧ g = f := by
      dsimp only at hf hf'
      omega
    exact getPkt_putPkt_slot d p (by rintro rfl; exact h rfl)
  · exact getPkt_congr (getFur_putFur_other d _ hfur)

/-! What the units around a furrow leave of it. -/

/-- Only a fault of a furrow can change one. -/
theorem raise_furs (d : Dev) {k : FaultKind} (h : k.cls ≠ 2) (i x m c : Nat) : (raise d k i x m c).furs = d.furs := by
  rw [raise]
  simp only [h, false_and, if_false]

theorem getPkt_raise (d : Dev) (k : FaultKind) (i x m c : Nat) (l : PktRef) : getPkt (raise d k i x m c) l = getPkt d l := by
  rw [raise]
  dsimp only
  split
  · split
    · exact getPkt_putFur_pkts _ (by rfl) l
    · rfl
  · rfl

@[simp] theorem injectAt_furs (d : Dev) (c src a : Nat) : (injectAt d c src a).2.furs = d.furs := by
  obtain ⟨re, fl, h, -⟩ := injectAt_shape d c src a
  rw [h]

@[simp] theorem eccWrite_furs (d : Dev) (r : Ram) (i src a : Nat) : (eccWrite d r i src a).furs = d.furs := injectAt_furs ..

/-! A write of registers alone, and how such writes follow one another. -/

theorem wrF_shape (d : Dev) (o : Nat) (f : Fld) (v : Nat) : ∃ re, wrF d o f v = { d with regs := re } := ⟨_, rfl⟩
theorem bump_shape (d : Dev) (o : Nat) : ∃ re, bump d o = { d with regs := re } := ⟨_, rfl⟩

@[simp] theorem recordConflict_furs (d : Dev) (kind index winner loser inst : Nat) :
    (recordConflict d kind index winner loser inst).furs = d.furs := by
  simp only [recordConflict]
  rw [raise_furs _ (by decide)]
  split
  · exact (bumpSat_furs ..).trans (wrF_furs ..)
  · exact wrFs_furs ..

/-- A run of register writes changes registers alone. -/
theorem foldl_regs_shape {α : Type} (f : Dev → α → Dev) (h : ∀ d x, ∃ re, f d x = { d with regs := re }) (l : List α) (d : Dev) :
    ∃ re, l.foldl f d = { d with regs := re } := by
  induction l generalizing d with
  | nil => exact ⟨d.regs, rfl⟩
  | cons x t ih =>
    obtain ⟨re, hx⟩ := h d x
    obtain ⟨re', ht⟩ := ih (f d x)
    exact ⟨re', by rw [List.foldl_cons, ht, hx]⟩

theorem leaveStaging_shape (d : Dev) (p : Pkt) : ∃ fa ri, leaveStaging d p = { d with fab := fa, rind := ri } := by
  rw [leaveStaging]
  split
  · exact ⟨_, d.rind, rfl⟩
  · cases p.staged <;> cases p.lookaside <;> exact ⟨_, _, rfl⟩

/-- A state that changes is written and passed to the strip. -/
theorem markPfc_wrF_shape (d : Dev) (o : Nat) (f : Fld) (v p c : Nat) :
    ∃ re pf, markPfc (wrF d o f v) p c = { d with regs := re, pfcDirty := pf } := ⟨_, _, rfl⟩

theorem evalPp_shape (d : Dev) (p c : Nat) : ∃ re pf, evalPp d p c = { d with regs := re, pfcDirty := pf } := by
  simp only [evalPp]
  split
  · obtain ⟨re, pf, h⟩ := markPfc_wrF_shape d (ppReg p c) Reg.PP_STATUS_STATE 2 p c
    obtain ⟨re', h'⟩ := bump_shape { d with regs := re, pfcDirty := pf } (Reg.FABRIC_CNT (p / 128) 6)
    exact ⟨re', pf, by rw [h, h']⟩
  · split
    · exact markPfc_wrF_shape ..
    · exact ⟨d.regs, d.pfcDirty, rfl⟩

theorem reserveStep_shape (x : Nat × Nat × Dev) (pc : Nat × Nat) : ∃ re, (reserveStep x pc).2.2 = { x.2.2 with regs := re } := by
  simp only [reserveStep]
  split
  · exact wrF_shape ..
  · exact wrF_shape ..

theorem foldl_reserveStep_shape (l : List (Nat × Nat)) (x : Nat × Nat × Dev) :
    ∃ re, (l.foldl reserveStep x).2.2 = { x.2.2 with regs := re } := by
  induction l generalizing x with
  | nil => exact ⟨x.2.2.regs, rfl⟩
  | cons y t ih =>
    obtain ⟨re, hy⟩ := reserveStep_shape x y
    obtain ⟨re', ht⟩ := ih (reserveStep x y)
    exact ⟨re', by rw [List.foldl_cons, ht, hy]⟩

theorem wrFs_shape (d : Dev) (o : Nat) (l : List (Fld × Nat)) : ∃ re, wrFs d o l = { d with regs := re } := ⟨_, rfl⟩

theorem headlandOrder_shape (d : Dev) : ∃ re, headlandOrder d = { d with regs := re } := by
  obtain ⟨re, h⟩ := foldl_reserveStep_shape (losslessList d) (0, 0, d)
  simp only [headlandOrder, h]
  exact wrFs_shape { d with regs := re } ..

theorem releasePpN_shape (d : Dev) (port c n : Nat) (hl : Bool) : ∃ re pf, releasePpN d port c n hl = { d with regs := re, pfcDirty := pf } := by
  simp only [releasePpN]
  split
  · exact ⟨d.regs, d.pfcDirty, rfl⟩
  · split
    · obtain ⟨re, h⟩ := wrF_shape d (ppReg port c) Reg.PP_STATUS_HL_USED (rdF d (ppReg port c) Reg.PP_STATUS_HL_USED - n)
      obtain ⟨re₂, h₂⟩ := wrF_shape { d with regs := re } Reg.HEADLAND_STATUS Reg.HEADLAND_STATUS_USED
        (rdF d Reg.HEADLAND_STATUS Reg.HEADLAND_STATUS_USED - n)
      obtain ⟨re₃, h₃⟩ := headlandOrder_shape { d with regs := re₂ }
      rw [h, h₂, h₃]
      exact evalPp_shape { d with regs := re₃ } ..
    · obtain ⟨re, h⟩ := wrF_shape d (ppReg port c) Reg.PP_STATUS_IPC (rdF d (ppReg port c) Reg.PP_STATUS_IPC - n)
      rw [h]
      exact evalPp_shape { d with regs := re } ..

theorem returnGrant_shape (d : Dev) (p : Pkt) : ∃ re, returnGrant d p = { d with regs := re } := by
  rw [returnGrant]
  cases p.grant <;> exact ⟨_, rfl⟩

/-- What a packet holds before it has cells goes back to the registers, to staging and to the look-aside store. -/
theorem releaseFrame_shape (d : Dev) (p : Pkt) :
    ∃ re fa ri pf, releaseFrame d p = { d with regs := re, fab := fa, rind := ri, pfcDirty := pf } := by
  obtain ⟨fa, ri, h1⟩ := leaveStaging_shape d p
  obtain ⟨re, pf, h2⟩ := releasePpN_shape (leaveStaging d p) (inPort p) p.prio p.ppCells p.headland
  obtain ⟨re', h3⟩ := returnGrant_shape (releasePp (leaveStaging d p) p) p
  refine ⟨re', fa, ri, pf, ?_⟩
  rw [releaseFrame, h3, releasePp, h2, h1]

@[simp] theorem releaseFrame_furs (d : Dev) (p : Pkt) : (releaseFrame d p).furs = d.furs := by
  obtain ⟨_, _, _, _, h⟩ := releaseFrame_shape d p
  rw [h]
@[simp] theorem releaseFrame_flt (d : Dev) (p : Pkt) : (releaseFrame d p).flt = d.flt := by
  obtain ⟨_, _, _, _, h⟩ := releaseFrame_shape d p
  rw [h]
@[simp] theorem releaseFrame_acres (d : Dev) (p : Pkt) : (releaseFrame d p).acres = d.acres := by
  obtain ⟨_, _, _, _, h⟩ := releaseFrame_shape d p
  rw [h]

/-! The top-down account (R508, R509) is kept in registers. -/

theorem tdFrom_shape (d : Dev) (a f r c : Nat) (up : Bool) : ∃ re, tdFrom d a f r c up = { d with regs := re } :=
  foldl_regs_shape _ (fun _ _ => ⟨_, rfl⟩) _ d

theorem tdAll_shape (d : Dev) (a f c n : Nat) : ∃ re, tdAll d a f c n = { d with regs := re } :=
  foldl_regs_shape _ (fun _ _ => ⟨_, rfl⟩) _ d

theorem tdRetire_shape (d : Dev) (a f : Nat) (p : Pkt) : ∃ re, tdRetire d a f p = { d with regs := re } := by
  obtain ⟨re, h⟩ := tdAll_shape d a f 0 1
  obtain ⟨re', h'⟩ := tdAll_shape (tdAll d a f 0 1) a f 1 (pcGet p Pc.pass)
  exact ⟨re', by rw [tdRetire, h', h]⟩

theorem tdWaste_shape (d : Dev) (a f : Nat) (p : Pkt) : ∃ re, tdWaste d a f p = { d with regs := re } := by
  obtain ⟨re, h⟩ := tdAll_shape d a f 1 (pcGet p Pc.pass)
  obtain ⟨re', h'⟩ := foldl_regs_shape (fun d r => bumpN d (Reg.FURROW_TD a f r 1) 1) (fun _ _ => ⟨_, rfl⟩) (List.range p.lastRow)
    (tdAll d a f 1 (pcGet p Pc.pass))
  rw [tdWaste, h', h]
  split
  · obtain ⟨re'', h''⟩ := tdFrom_shape { d with regs := re' } a f p.lastRow 3 true
    exact ⟨re'', h''⟩
  · exact ⟨re', rfl⟩

@[simp] theorem tdFrom_furs (d : Dev) (a f r c : Nat) (up : Bool) : (tdFrom d a f r c up).furs = d.furs := by
  obtain ⟨_, h⟩ := tdFrom_shape d a f r c up
  rw [h]
@[simp] theorem tdFrom_fab (d : Dev) (a f r c : Nat) (up : Bool) : (tdFrom d a f r c up).fab = d.fab := by
  obtain ⟨_, h⟩ := tdFrom_shape d a f r c up
  rw [h]
@[simp] theorem tdAll_furs (d : Dev) (a f c n : Nat) : (tdAll d a f c n).furs = d.furs := by
  obtain ⟨_, h⟩ := tdAll_shape d a f c n
  rw [h]
@[simp] theorem tdAll_acres (d : Dev) (a f c n : Nat) : (tdAll d a f c n).acres = d.acres := by
  obtain ⟨_, h⟩ := tdAll_shape d a f c n
  rw [h]
@[simp] theorem tdRetire_furs (d : Dev) (a f : Nat) (p : Pkt) : (tdRetire d a f p).furs = d.furs := by
  obtain ⟨_, h⟩ := tdRetire_shape d a f p
  rw [h]
@[simp] theorem tdRetire_har (d : Dev) (a f : Nat) (p : Pkt) : (tdRetire d a f p).har = d.har := by
  obtain ⟨_, h⟩ := tdRetire_shape d a f p
  rw [h]
@[simp] theorem tdWaste_furs (d : Dev) (a f : Nat) (p : Pkt) : (tdWaste d a f p).furs = d.furs := by
  obtain ⟨_, h⟩ := tdWaste_shape d a f p
  rw [h]
@[simp] theorem tdWaste_flt (d : Dev) (a f : Nat) (p : Pkt) : (tdWaste d a f p).flt = d.flt := by
  obtain ⟨_, h⟩ := tdWaste_shape d a f p
  rw [h]

/-! A slot that is freed, and a packet that is dropped (R45, R59). -/

theorem getPkt_freeSlot (d : Dev) (l : PktRef) : getPkt (freeSlot d l) l = none := by
  rw [getPkt, freeSlot, getFur_putFur_same]
  exact spGet_spPut_same (fun _ => none) (getFur d l.a l.f).pkts l.slot none

theorem gens_freeSlot (d : Dev) (l : PktRef) : spGet (fun _ => 0) (getFur (freeSlot d l) l.a l.f).gens l.slot =
    (spGet (fun _ => 0) (getFur d l.a l.f).gens l.slot + 1) % 16 := by
  rw [freeSlot, getFur_putFur_same]
  exact spGet_spPut_same ..

theorem freeSlot_furs_congr {d e : Dev} (h : e.furs = d.furs) (l : PktRef) : (freeSlot e l).furs = (freeSlot d l).furs := by
  rw [freeSlot, freeSlot, getFur_congr h]
  simp only [putFur, h]

@[simp] theorem rehashCnt_furs (d : Dev) (l : PktRef) (p : Pkt) (c : Nat) : (rehashCnt d l p c).furs = d.furs := by
  simp only [rehashCnt]
  split
  · exact bumpSat_furs ..
  · rfl

@[simp] theorem rehashCnt_flt (d : Dev) (l : PktRef) (p : Pkt) (c : Nat) : (rehashCnt d l p c).flt = d.flt := by
  simp only [rehashCnt]
  split
  · exact bumpSat_flt ..
  · rfl

theorem rehashCnt_of_ne (d : Dev) (l : PktRef) (p : Pkt) {c : Nat} (h : c ≠ 0x45) : rehashCnt d l p c = d := by
  rw [rehashCnt]
  simp [h]

theorem furDrop_furs (d : Dev) (l : PktRef) (p : Pkt) (c : Nat) : (furDrop d l p c).furs = (freeSlot d l).furs := by
  rw [furDrop, releaseFrame_furs, tdWaste_furs]
  exact freeSlot_furs_congr (rehashCnt_furs ..) l

theorem getPkt_furDrop (d : Dev) (l : PktRef) (p : Pkt) (c : Nat) : getPkt (furDrop d l p c) l = none :=
  (getPkt_congr_furs (furDrop_furs d l p c) l).trans (getPkt_freeSlot d l)

end Sys2Proof.Machine
end

section
/-!
PROOF. What a lookup finds at its issue (R95, R166, R200): the answer of each kind of type, and what its counters and its hit bit leave.
-/
namespace Sys2Proof.Machine

section
variable {d : Dev} {a n dest ty row hold : Nat} {key : List W64} {y : Ltype} {b : Tbl}

theorem lookupRead_typeAbsent (h : ltype d ty = none) : lookupRead a n dest ty key row hold d = (noLookup n dest, d) := by
  rw [lookupRead, h]

theorem lookupRead_rowOff (h : ltype d ty = some y) (hr : bit y.rowmask row = false) :
    lookupRead a n dest ty key row hold d = (noLookup n dest, d) := by
  rw [lookupRead, h]
  simp [hr]

/-! Associative types. -/

/-- A search counts in registers of its acre alone. -/
theorem bump_if_shape (c : Prop) [Decidable c] (d : Dev) (o : Nat) :
    ∃ re, (if c then bump d o else d) = { d with regs := re } ∧ ∀ o', o' ≠ o → spGet (resetVal d.fuses.half) re o' = rd d o' := by
  split
  · exact ⟨_, rfl, fun o' h => rd_bump_other d h⟩
  · exact ⟨d.regs, rfl, fun _ _ => rfl⟩

/-- The device after the counters of a search (R213). -/
def searchCounted (d : Dev) (a n : Nat) : Dev :=
  let d := bump d (Reg.ASSOC_CNT a 0)
  let d := if 1 ≤ n then bump d (Reg.ASSOC_CNT a 1) else d
  let d := if 2 ≤ n then bump d (Reg.ASSOC_CNT a 2) else d
  if n = 255 then bump d (Reg.ASSOC_CNT a 3) else d

theorem searchCounted_shape (d : Dev) (a n : Nat) :
    ∃ re, searchCounted d a n = { d with regs := re } ∧ spGet (resetVal d.fuses.half) re Reg.ASSOC_CFG = rd d Reg.ASSOC_CFG := by
  have hne : ∀ k, Reg.ASSOC_CFG ≠ Reg.ASSOC_CNT a k := fun k => by simp only [Reg.ASSOC_CFG, Reg.ASSOC_CNT]; omega
  obtain ⟨r0, h0, e0⟩ : ∃ re, bump d (Reg.ASSOC_CNT a 0) = { d with regs := re } ∧
      spGet (resetVal d.fuses.half) re Reg.ASSOC_CFG = rd d Reg.ASSOC_CFG := ⟨_, rfl, rd_bump_other d (hne 0)⟩
  obtain ⟨r1, h1, e1⟩ := bump_if_shape (1 ≤ n) { d with regs := r0 } (Reg.ASSOC_CNT a 1)
  obtain ⟨r2, h2, e2⟩ := bump_if_shape (2 ≤ n) { d with regs := r1 } (Reg.ASSOC_CNT a 2)
  obtain ⟨r3, h3, e3⟩ := bump_if_shape (n = 255) { d with regs := r2 } (Reg.ASSOC_CNT a 3)
  refine ⟨r3, ?_, ?_⟩
  · simp only [searchCounted, h0, h1, h2, h3]
  · exact (e3 _ (hne 3)).trans ((e2 _ (hne 2)).trans ((e1 _ (hne 1)).trans e0))

theorem aIndexName_congr {e : Dev} (h : rd e Reg.ASSOC_CFG = rd d Reg.ASSOC_CFG) (a i : Nat) : aIndexName e a i = aIndexName d a i := by
  rw [aIndexName, aIndexName, flagF, flagF, rdF, rdF, h]

theorem aLookup_eq (d : Dev) (a h key : Nat) : aLookup d a h key =
    match aWinner h (aMatches d a h key) with
    | none => (0, 0, false, searchCounted d a (min 255 (aMatches d a h key).length))
    | some (i, e) =>
      if ecc d .assocTag (aKey a i) = 2 then
        (0, min 255 (aMatches d a h key).length, true, searchCounted d a (min 255 (aMatches d a h key).length))
      else (BitVec.ofNat 64 (aAction e * 2 ^ 32 + min 255 (aMatches d a h key).length * 2 ^ 17 + aIndexName d a i),
        min 255 (aMatches d a h key).length, false, searchCounted d a (min 255 (aMatches d a h key).length)) := by
  obtain ⟨re, hs, hc⟩ := searchCounted_shape d a (min 255 (aMatches d a h key).length)
  have hecc : ∀ i, ecc (searchCounted d a (min 255 (aMatches d a h key).length)) .assocTag i = ecc d .assocTag i := by
    intro i
    rw [hs]
    rfl
  have hname : ∀ i, aIndexName (searchCounted d a (min 255 (aMatches d a h key).length)) a i = aIndexName d a i := by
    intro i
    rw [hs]
    exact aIndexName_congr (e := { d with regs := re }) hc a i
  cases hw : aWinner h (aMatches d a h key) with
  | none =>
    simp only [aLookup, hw]
    rfl
  | some x =>
    obtain ⟨i, e⟩ := x
    dsimp only
    rw [← hecc, ← hname i]
    simp only [aLookup, hw]
    rfl

theorem aWinner_nil (h : Nat) : aWinner h [] = none := by
  rw [aWinner]
  split <;> rfl

theorem aLookup_furs (d : Dev) (a h key : Nat) : (aLookup d a h key).2.2.2.furs = d.furs := by
  obtain ⟨re, hs, -⟩ := searchCounted_shape d a (min 255 (aMatches d a h key).length)
  rw [aLookup_eq]
  split
  · rw [hs]
  · split
    · rw [hs]
    · rw [hs]

theorem lookupRead_assoc (h : ltype d ty = some y) (hk : y.kind = 4) (hr : bit y.rowmask row = true) :
    (lookupRead a n dest ty key row hold d).1 =
      let x := aLookup d a hold ((List.range 5).foldl (fun x j => x * 2 ^ 64 + (key.getD j 0).toNat) 0)
      .lookup n dest x.1 (decide (1 ≤ x.2.1) && !x.2.2.1) x.2.2.1 x.2.2.1 (some x.2.1) := by
  rw [lookupRead, h]
  simp only [hr, hk, not_true_eq_false, if_false, if_true]

/-! Exact types. -/

theorem tableSearch_exact (hk : b.kind = 1) : tableSearch d b key hold =
    match exactLookup d b (keyFor b (keyOfWords key)) with
    | some i => (some i, false)
    | none => (none, homeBad d b (keyFor b (keyOfWords key))) := by
  rw [tableSearch, if_pos hk] <;> rfl

theorem lookupRead_exact (h : ltype d ty = some y) (hk : y.kind = 1) (hr : bit y.rowmask row = true) (hb : tbl d y.table = some b) :
    lookupRead a n dest ty key row hold d =
      match tableSearch d b key hold with
      | (some i, _) =>
        let d := tblCnt d b.t 0 1
        let d := if b.refresh then setHit d b.t i 1 else d
        (.lookup n dest (BitVec.ofNat 64 (eAction (readUnit d b i))) true false false none, d)
      | (none, true) => (.lookup n dest 0 false true true none, d)
      | (none, false) => (.lookup n dest 0 false false false none, tblCnt d b.t 1 1) := by
  rw [lookupRead, h]
  simp only [hr, hk, hb, not_true_eq_false, if_false, true_or, if_true, Nat.reduceEqDiff] <;> rfl

/-- The rows and the stash stand when a hit is counted and its hit bit set. -/
theorem readUnit_congr {e : Dev} (hr : e.orch.rows = d.orch.rows) (hs : e.orch.stash = d.orch.stash) (i : Nat) :
    readUnit e b i = readUnit d b i := by
  simp only [readUnit, getStash, getRow, hr, hs]

theorem hitBit_congr {e : Dev} (h : e.orch = d.orch) (t i : Nat) : hitBit e t i = hitBit d t i := by rw [hitBit, hitBit, h]

theorem hitBit_setHit (d : Dev) (t i : Nat) : hitBit (setHit d t i 1) t i = true := by
  rw [hitBit, setHit, spGet_spPut_same]
  rfl

theorem tblCnt_orch (d : Dev) (t k n : Nat) : (tblCnt d t k n).orch = d.orch := rfl
theorem tblCnt_furs (d : Dev) (t k n : Nat) : (tblCnt d t k n).furs = d.furs := rfl

theorem readUnit_hit (t i : Nat) (r : Bool) : readUnit (if r then setHit (tblCnt d t 0 1) t i 1 else tblCnt d t 0 1) b i = readUnit d b i := by
  cases r <;> exact readUnit_congr rfl rfl i

theorem hitBit_hit (t i : Nat) (r : Bool) :
    hitBit (if r then setHit (tblCnt d t 0 1) t i 1 else tblCnt d t 0 1) t i = (r || hitBit d t i) := by
  cases r with
  | false => exact hitBit_congr (tblCnt_orch ..) t i
  | true => exact hitBit_setHit ..

end

/-! The furrows stand through every lookup. -/

theorem lookupRead_furs (a n dest ty : Nat) (key : List W64) (row hold : Nat) (d : Dev) :
    (lookupRead a n dest ty key row hold d).2.furs = d.furs := by
  simp only [lookupRead]
  split
  · rfl
  · split
    · rfl
    · split
      · exact aLookup_furs ..
      · split
        · split
          · rfl
          · split
            · split <;> rfl
            · rfl
            · exact tblCnt_furs ..
        · rfl

end Sys2Proof.Machine
end

section
/-!
PROOF. The requests, edits and counters of a nanoword (R93 to R104, R110 to R115): what leaves the row, and the trap of a reserved encoding.
-/
namespace Sys2Proof.Machine

/-! A part of a nanoword acts in the packet's row, or traps. -/

section
variable {d : Dev} {l : PktRef} {p : Pkt} {r : Nat}

theorem inRow_some (hp : getPkt d l = some p) (hr : rowOf p = some r) (g : Pkt → Nat → Dev) : inRow l d g = g p r := by
  rw [inRow, hp]
  dsimp only
  rw [hr]

variable {bad full : Pkt → Bool} {act : Dev → Dev}

theorem nanoPart_acts (hp : getPkt d l = some p) (hb : bad p = false) (hf : full p = false) : nanoPart l bad full act d = act d := by
  rw [nanoPart, hp]
  simp [hb, hf]

theorem nanoPart_traps (hp : getPkt d l = some p) (hr : rowOf p = some r) (h : bad p = true ∨ full p = true) :
    nanoPart l bad full act d = trapDrop (bump d (Reg.FURROW_OPCNT l.a l.f 6)) l p r (if bad p then 0xE else 0xF) := by
  rw [nanoPart, hp]
  simp only [Bool.or_eq_true, h, if_true, hr]
  rfl

theorem nanoPart_bad (hp : getPkt d l = some p) (hr : rowOf p = some r) (hb : bad p = true) :
    nanoPart l bad full act d = trapDrop (bump d (Reg.FURROW_OPCNT l.a l.f 6)) l p r 0xE := by
  rw [nanoPart_traps hp hr (.inl hb), if_pos hb]

end

/-! Counters (R103). -/

section
variable {s : State} {l : PktRef} {p : Pkt} {r : Nat} (hp : getPkt s.dev l = some p) (hr : rowOf p = some r)
include hp hr

theorem exec_lookupIssue {n : Nat} {g : LGroup} (hk : keyBad g.kmode g.ksrc = false) {w : Flight} {d : Dev}
    (hw : (w, d) = lookupRead l.a n g.dest g.ty (keyWords p g.kmode g.ksrc) r (pcGet p Pc.holding) s.dev) :
    exec (.lookupIssue l n g) s = .next (commit s (addFlight d l p.gen w (dueAt p (r + distOf d g.ty)))) := by
  have he : exec (.lookupIssue l n g) s =
      .next (commit s (nanoPart l (fun _ => keyBad g.kmode g.ksrc) (fun _ => false) (issueLookup l n g) s.dev)) := rfl
  rw [he, nanoPart_acts hp hk rfl, issueLookup, inRow_some hp hr, ← hw]

theorem exec_collect (g : ClGroup) : exec (.collect l g) s = .next (commit s (addFlight s.dev l p.gen
    (.collect g.dest g.n (collectBase p g.bsrc) ((List.range (g.n + 1)).map (collectOffset p g.list)) g.ty r)
    (dueAt p (r + distOf s.dev g.ty)))) := by
  have he : exec (.collect l g) s = .next (commit s (issueCollect l g s.dev)) := rfl
  rw [he, issueCollect, inRow_some hp hr]

theorem exec_meter (isrc : Nat) : exec (.meter l isrc) s = .next (commit s (addFlight s.dev l p.gen
    (.meter ((indexSource p isrc).toNat % 2 ^ 20) (pcGet p Pc.color) p.rxLen) (dueAt p (r + 4)))) := by
  have he : exec (.meter l isrc) s = .next (commit s (meterOp l isrc s.dev)) := rfl
  rw [he, meterOp, inRow_some hp hr, countLen]

theorem exec_counterUpdate {g : CGroup} (hg : g.mode ≠ 3) :
    exec (.counterUpdate l g) s = .next (commit s (countUpdate s.dev l p g.mode g.ty (indexSource p g.isrc).toNat r)) := by
  have he : exec (.counterUpdate l g) s =
      .next (commit s (nanoPart l (fun _ => g.mode == 3) (fun _ => false) (counterOp l g) s.dev)) := rfl
  rw [he, nanoPart_acts hp (by simpa using hg) rfl, counterOp, inRow_some hp hr]

omit hp hr in
theorem countUpdate_pair {d : Dev} {mode ty i : Nat} {y : Ltype} {b : Tbl} (hy : ltype d ty = some y) (hb : tbl d y.table = some b)
    (hk : y.kind = 6) (hrow : bit y.rowmask r = true) (hi : i < y.size) (hu : unitBad d b i = false) :
    countUpdate d l p mode ty i r = writeUnit d b i
      ((readUnit d b i % 2 ^ 64 + (if mode = 2 then 0 else 1)) % 2 ^ 64 +
        (readUnit d b i / 2 ^ 64 + (if mode = 1 then 0 else p.rxLen)) % 2 ^ 64 * 2 ^ 64) := by
  rw [countUpdate, hy]
  dsimp only
  rw [hb]
  simp only [hk, hrow, hi, and_self, if_true, countPair, hu, Bool.false_eq_true, if_false, countLen]

omit hp hr in
theorem countUpdate_typeAbsent {d : Dev} {mode ty i : Nat} (hy : ltype d ty = none) :
    countUpdate d l p mode ty i r = bump d (Reg.FURROW_OPCNT l.a l.f 3) := by
  rw [countUpdate, hy]
  rfl

/-- A reserved encoding in the group that acts (R115). -/
theorem exec_reserved {c : Instr} {n k op : Nat} {g : LGroup} {h : RqGroup} {e : EGroup}
    (hc : (c = .lookupIssue l n g ∧ keyBad g.kmode g.ksrc = true) ∨
      (c ∈ ([.deep l h, .saState l h, .learn l h, .buf l h] : List Instr) ∧ keyBad h.kmode h.ksrc = true) ∨
      ((c, op) ∈ ([(.rewrite l e, 1), (.push l e, 2), (.pop l e, 3), (.strip l e, 4), (.fixIp4 l e, 5), (.fixUdp l e, 6),
        (.fixIp6 l e, 7)] : List (Instr × Nat)) ∧ editBad p op e [] = true) ∨
      (∃ w, c = .metadataWrite l w k ∧ w.src = 7) ∨ (∃ w, c = .counterUpdate l w ∧ w.mode = 3)) :
    exec c s = .next (commit s (trapDrop (bump s.dev (Reg.FURROW_OPCNT l.a l.f 6)) l p r 0xE)) := by
  have trap : ∀ {bad full : Pkt → Bool} {act : Dev → Dev}, exec c s = .next (commit s (nanoPart l bad full act s.dev)) → bad p = true →
      exec c s = .next (commit s (trapDrop (bump s.dev (Reg.FURROW_OPCNT l.a l.f 6)) l p r 0xE)) := by
    intro bad full act he hb
    rw [he, nanoPart_bad hp hr hb]
  simp only [List.mem_cons, List.not_mem_nil, or_false, Prod.mk.injEq] at hc
  rcases hc with ⟨rfl, hk⟩ | ⟨rfl | rfl | rfl | rfl, hk⟩ |
    ⟨⟨rfl, rfl⟩ | ⟨rfl, rfl⟩ | ⟨rfl, rfl⟩ | ⟨rfl, rfl⟩ | ⟨rfl, rfl⟩ | ⟨rfl, rfl⟩ | ⟨rfl, rfl⟩, he⟩ | ⟨w, rfl, hw⟩ | ⟨w, rfl, hw⟩
  · exact trap (bad := fun _ => keyBad g.kmode g.ksrc) (full := fun _ => false) (act := issueLookup l n g) rfl hk
  · exact trap (bad := fun _ => keyBad h.kmode h.ksrc) (full := fun _ => false) (act := issueRequest l 1 h) rfl hk
  · exact trap (bad := fun _ => keyBad h.kmode h.ksrc) (full := fun _ => false) (act := issueRequest l 2 h) rfl hk
  · exact trap (bad := fun _ => keyBad h.kmode h.ksrc) (full := fun _ => false) (act := issueRequest l 3 h) rfl hk
  · exact trap (bad := fun _ => keyBad h.kmode h.ksrc) (full := fun _ => false) (act := issueRequest l 4 h) rfl hk
  · exact trap (bad := fun p => editBad p 1 e []) (full := fun p => editFull p 1 e) (act := onPkt l (pkEdit 1 e)) rfl he
  · exact trap (bad := fun p => editBad p 2 e []) (full := fun p => editFull p 2 e) (act := onPkt l (pkEdit 2 e)) rfl he
  · exact trap (bad := fun p => editBad p 3 e []) (full := fun p => editFull p 3 e) (act := onPkt l (pkEdit 3 e)) rfl he
  · exact trap (bad := fun p => editBad p 4 e []) (full := fun p => editFull p 4 e) (act := onPkt l (pkEdit 4 e)) rfl he
  · exact trap (bad := fun p => editBad p 5 e []) (full := fun p => editFull p 5 e) (act := onPkt l (pkEdit 5 e)) rfl he
  · exact trap (bad := fun p => editBad p 6 e []) (full := fun p => editFull p 6 e) (act := onPkt l (pkEdit 6 e)) rfl he
  · exact trap (bad := fun p => editBad p 7 e []) (full := fun p => editFull p 7 e) (act := onPkt l (pkEdit 7 e)) rfl he
  · exact trap (bad := fun _ => w.src == 7) (full := fun _ => false) (act := onPkt l (pkMw w k)) rfl (by simpa using hw)
  · exact trap (bad := fun _ => w.mode == 3) (full := fun _ => false) (act := counterOp l w) rfl (by simpa using hw)

/-- The commands that append an edit run the part of their operation code. -/
theorem exec_edit {c : Instr} {op : Nat} {g : EGroup} (hc : (c, op) ∈ ([(.rewrite l g, 1), (.push l g, 2), (.pop l g, 3), (.strip l g, 4),
    (.fixIp4 l g, 5), (.fixUdp l g, 6), (.fixIp6 l g, 7)] : List (Instr × Nat))) (hb : editBad p op g [] = false) :
    (p.edits.length < 16 → p.edata.length + (if op ≤ 2 then g.len + 1 else 0) ≤ 128 → exec c s = .next (commit s (putPkt s.dev l
      { p with edits := p.edits ++ [editEntry p op g], edata := p.edata ++ ctxBytes p g.srcw (if op ≤ 2 then g.len + 1 else 0) }))) ∧
    (16 ≤ p.edits.length → exec c s = .next (commit s (trapDrop (bump s.dev (Reg.FURROW_OPCNT l.a l.f 6)) l p r 0xF))) := by
  obtain ⟨he, h1, h7⟩ : exec c s = .next (commit s (editPart l op g s.dev)) ∧ 1 ≤ op ∧ op ≤ 7 := by
    simp only [List.mem_cons, List.not_mem_nil, or_false, Prod.mk.injEq] at hc
    rcases hc with ⟨rfl, rfl⟩ | ⟨rfl, rfl⟩ | ⟨rfl, rfl⟩ | ⟨rfl, rfl⟩ | ⟨rfl, rfl⟩ | ⟨rfl, rfl⟩ | ⟨rfl, rfl⟩ <;>
      exact ⟨rfl, by decide, by decide⟩
  have hdata : editData op g.len = if op ≤ 2 then g.len + 1 else 0 := by
    rw [editData]
    congr 1
    exact propext (by omega)
  refine ⟨?fits, ?full⟩
  case fits =>
    intro hlen hbytes
    have hfull : editFull p op g = false := by
      rw [editFull, hdata]
      simp only [decide_eq_false_iff_not]
      omega
    rw [he, editPart, nanoPart_acts hp hb hfull, onPkt_some hp, pkEdit, if_neg (by omega), hdata]
  case full =>
    intro hlen
    have hfull : editFull p op g = true := by
      rw [editFull, decide_eq_true_eq]
      exact .inl hlen
    rw [he, editPart, nanoPart_traps hp hr (.inr hfull), if_neg (by simp [hb])]

end

/-! DEEP requests (R367, R369, R382). -/

/-- What the controller makes of a DEEP request, from the registers alone. -/
def deepFound (d : Dev) (ty key : Nat) : DeepFound :=
  let i := key % 2 ^ 40
  let a := rdF d (Reg.DEEP_TYPE ty 0) Reg.DEEP_TYPE_BASE + 8 * i
  if ¬ deepReady d then .poison
  else if rdF d (Reg.DEEP_TYPE ty 0) Reg.DEEP_TYPE_VALID = 0 ∨ rdF d (Reg.DEEP_TYPE ty 1) Reg.DEEP_TYPE_SIZE ≤ i then .invalid
  else if deepSize d < a + 8 then .poison
  else .element a

/-- A crossing does nothing, or finds an injection and raises its fault (R437, R439). -/
theorem crossIn_cases (d : Dev) (island : Nat) : crossIn d island = d ∨ ∃ k : FaultKind, k.cls ≠ 2 ∧
    crossIn d island = raise (injectAt d 1 island 0).2 k island 0 0 0 := by
  rw [crossIn]
  exact (ite_eq_or_eq ..).imp_right fun h => ⟨_, by decide, h⟩

theorem rd_crossIn (d : Dev) (island : Nat) {o : Nat} (h : o ≠ Reg.FAULT_INJECT) : rd (crossIn d island) o = rd d o := by
  rcases crossIn_cases d island with he | ⟨k, -, he⟩
  · rw [he]
  · rw [he, rd_raise]
    exact rd_injectAt d 1 island 0 h

theorem injectAt_fuses (d : Dev) (c src a : Nat) : (injectAt d c src a).2.fuses = d.fuses := by
  obtain ⟨re, fl, h, -⟩ := injectAt_shape d c src a
  rw [h]

theorem crossIn_fuses (d : Dev) (island : Nat) : (crossIn d island).fuses = d.fuses := by
  rcases crossIn_cases d island with he | ⟨k, -, he⟩
  · rw [he]
  · rw [he, raise_fuses]
    exact injectAt_fuses ..

theorem crossIn_furs (d : Dev) (island : Nat) : (crossIn d island).furs = d.furs := by
  rcases crossIn_cases d island with he | ⟨k, hk, he⟩
  · rw [he]
  · rw [he, raise_furs _ hk]
    exact injectAt_furs ..

theorem deepReady_congr {d e : Dev} (h : rd e Reg.DEEP_STATUS = rd d Reg.DEEP_STATUS) : deepReady e = deepReady d := by
  rw [deepReady, deepReady, flagF, flagF, rdF_congr h]

theorem deepSize_congr {d e : Dev} (h : rd e Reg.DEEP_SPARE_CFG = rd d Reg.DEEP_SPARE_CFG) (hf : e.fuses = d.fuses) :
    deepSize e = deepSize d := by
  have hs : hasSpare e = hasSpare d := funext fun k => by rw [hasSpare, hasSpare, rdF_congr h]
  have hc : stackCount e = stackCount d := by rw [stackCount, stackCount, hf]
  rw [deepSize, deepSize, stackBytes, stackBytes, stackBytes, stackBytes, hs, hc]

theorem deepCheck_cases (d : Dev) (addr n master access : Nat) : deepCheck d addr n master access =
    if ¬ deepReady d then (3, bump d (Reg.DEEP_CNT 9))
    else if deepSize d < addr + n then (1, deepFault (bump d (Reg.DEEP_CNT 10)) Fk.addrRange 0 addr master access) else (0, d) := rfl

theorem deepFault_furs (d : Dev) {k : FaultKind} (h : k.cls ≠ 2) (rank addr master access : Nat) :
    (deepFault d k rank addr master access).furs = d.furs := by
  rw [deepFault, raise_furs _ h, wr_furs]

theorem deepCheck_furs (d : Dev) (addr n master access : Nat) : (deepCheck d addr n master access).2.furs = d.furs := by
  rw [deepCheck_cases]
  split
  · exact bumpN_furs ..
  · split
    · exact (deepFault_furs _ (by decide) ..).trans (bumpN_furs ..)
    · rfl

theorem deepFind_furs (d : Dev) (ty key : Nat) : (deepFind d ty key).2.furs = d.furs := by
  simp only [deepFind]
  split
  · exact (bumpN_furs ..).trans (crossIn_furs ..)
  · split
    · exact (bumpN_furs ..).trans (crossIn_furs ..)
    · exact (deepCheck_furs ..).trans (crossIn_furs ..)

theorem DEEP_TYPE_ne_inject (ty k : Nat) : Reg.DEEP_TYPE ty k ≠ Reg.FAULT_INJECT := by
  simp only [Reg.DEEP_TYPE, Reg.FAULT_INJECT]
  omega

theorem deepFind_found (d : Dev) (ty key : Nat) : (deepFind d ty key).1 = deepFound d ty key := by
  have hready : deepReady (crossIn d 3) = deepReady d := deepReady_congr (rd_crossIn d 3 (by decide))
  have hsize : deepSize (crossIn d 3) = deepSize d := deepSize_congr (rd_crossIn d 3 (by decide)) (crossIn_fuses d 3)
  have htype : ∀ k f, rdF (crossIn d 3) (Reg.DEEP_TYPE ty k) f = rdF d (Reg.DEEP_TYPE ty k) f :=
    fun k f => rdF_congr (rd_crossIn d 3 (DEEP_TYPE_ne_inject ty k)) f
  simp only [deepFind, deepFound, hready, htype, deepCheck_cases, hsize]
  split_ifs <;> simp_all

theorem deepFound_congr {d e : Dev} (hr : ∀ o, rd e o = rd d o) (hf : e.fuses = d.fuses) (ty key : Nat) :
    deepFound e ty key = deepFound d ty key := by
  have hrdF : ∀ o f, rdF e o f = rdF d o f := fun o f => rdF_congr (hr o) f
  rw [deepFound, deepFound, deepReady_congr (hr _), deepSize_congr (hr _) hf, hrdF, hrdF, hrdF]

/-! Requests (R101). -/

/-- The packet after a request of a kind with its number: both conditions of the kind are clear. -/
def requested (p : Pkt) (kind num : Nat) : Pkt :=
  { setCond (setCond p (condValid kind) false) (condErr kind) false with reqs := setAt p.reqs (kind - 1) num }

theorem getFur_addFlight (d : Dev) (l : PktRef) (gen : Nat) (w : Flight) (due : Option (Nat × Nat × Nat)) :
    getFur (addFlight d l gen w due) l.a l.f =
      { getFur d l.a l.f with inFlight := (getFur d l.a l.f).inFlight ++ [⟨l.slot, gen, w, due⟩] } := getFur_putFur_same ..

/-- A request's flight is the last of its furrow's, its number the furrow's count, and its packet waits for the answer. -/
theorem issueRequest_spec {d : Dev} {l : PktRef} {p : Pkt} (hp : getPkt d l = some p) {kind num : Nat} (hn : num = (getFur d l.a l.f).reqCtr + 1)
    (g : RqGroup) : ∃ e, issueRequest l kind g d = e ∧ getPkt e l = some (requested p kind num) ∧ (getFur e l.a l.f).reqCtr = num ∧
      (getFur e l.a l.f).inFlight = (getFur d l.a l.f).inFlight ++ [⟨l.slot, p.gen,
        if kind = 1 then .deep g.dest num (deepFind d g.ty ((keyWords p g.kmode g.ksrc).getD 0 0).toNat).1
        else .request kind g.dest g.ty (keyWords p g.kmode g.ksrc) num (BitVec.ofNat 64 (pcGet p (Pc.result g.dest))), none⟩] ∧
      (kind ≠ 1 → e.regs = d.regs) := by
  subst hn
  let x := getFur d l.a l.f
  let d₁ := putPkt (putFur d l.a l.f { x with reqCtr := x.reqCtr + 1 }) l (requested p kind (x.reqCtr + 1))
  have hx : getFur d₁ l.a l.f = furPut { x with reqCtr := x.reqCtr + 1 } l.slot (some (requested p kind (x.reqCtr + 1))) := by
    rw [getFur_putPkt_same, getFur_putFur_same]
  have flown : ∀ {e : Dev} (w : Flight), e.furs = d₁.furs → getPkt (addFlight e l p.gen w none) l = some (requested p kind (x.reqCtr + 1)) ∧
      (getFur (addFlight e l p.gen w none) l.a l.f).reqCtr = x.reqCtr + 1 ∧
      (getFur (addFlight e l p.gen w none) l.a l.f).inFlight = x.inFlight ++ [⟨l.slot, p.gen, w, none⟩] := by
    intro e w he
    rw [getFur_addFlight, getFur_congr he, hx]
    refine ⟨?_, rfl, rfl⟩
    rw [getPkt, getFur_addFlight, getFur_congr he, hx]
    exact spGet_spPut_same (fun _ => none) x.pkts l.slot (some (requested p kind (x.reqCtr + 1)))
  have hsplit : issueRequest l kind g d =
      if kind = 1 then addFlight (deepFind d₁ g.ty ((keyWords p g.kmode g.ksrc).getD 0 0).toNat).2 l p.gen
        (.deep g.dest (x.reqCtr + 1) (deepFind d₁ g.ty ((keyWords p g.kmode g.ksrc).getD 0 0).toNat).1) none
      else addFlight d₁ l p.gen (.request kind g.dest g.ty (keyWords p g.kmode g.ksrc) (x.reqCtr + 1)
        (BitVec.ofNat 64 (pcGet p (Pc.result g.dest)))) none := by
    rw [issueRequest, hp]
    rfl
  by_cases hk : kind = 1
  · obtain ⟨hpkt, hctr, hfl⟩ := flown (.deep g.dest (x.reqCtr + 1) (deepFind d₁ g.ty ((keyWords p g.kmode g.ksrc).getD 0 0).toNat).1)
      (deepFind_furs d₁ g.ty ((keyWords p g.kmode g.ksrc).getD 0 0).toNat)
    rw [if_pos hk] at hsplit
    refine ⟨_, hsplit, hpkt, hctr, ?_, fun h => absurd hk h⟩
    have hsame : (deepFind d₁ g.ty ((keyWords p g.kmode g.ksrc).getD 0 0).toNat).1 =
        (deepFind d g.ty ((keyWords p g.kmode g.ksrc).getD 0 0).toNat).1 := by
      rw [deepFind_found, deepFind_found]
      exact deepFound_congr (fun _ => rfl) rfl ..
    rw [hfl, if_pos hk, hsame]
  · obtain ⟨hpkt, hctr, hfl⟩ := flown (e := d₁) (.request kind g.dest g.ty (keyWords p g.kmode g.ksrc) (x.reqCtr + 1)
      (BitVec.ofNat 64 (pcGet p (Pc.result g.dest)))) rfl
    rw [if_neg hk] at hsplit
    refine ⟨_, hsplit, hpkt, hctr, ?_, fun _ => rfl⟩
    rw [hfl, if_neg hk]

theorem requested_conds (p : Pkt) {kind : Nat} (num : Nat) :
    bit (requested p kind num).conds (0x10 + kind) = false ∧ bit (requested p kind num).conds (0x15 + kind) = false := by
  have h : (requested p kind num).conds = (setCond (setCond p (condValid kind) false) (condErr kind) false).conds := rfl
  rw [h, bit_setCond, bit_setCond, bit_setCond, condValid, condErr]
  simp

theorem requested_reqs (p : Pkt) {kind : Nat} (num : Nat) (hl : p.reqs.length = 4) {k : Nat} (hk : k < 4) :
    (requested p kind num).reqs.getD k 0 = if k = kind - 1 then num else p.reqs.getD k 0 := by
  have h : (requested p kind num).reqs = p.reqs.set (kind - 1) num := rfl
  rw [h, List.getD_eq_getElem?_getD, List.getElem?_set, List.getD_eq_getElem?_getD]
  by_cases he : kind - 1 = k
  · rw [if_pos he, if_pos (by omega), if_pos he.symm]
    rfl
  · rw [if_neg he, if_neg (fun h => he h.symm)]

end Sys2Proof.Machine
end

section
/-!
PROOF. The landing of results and answers in a packet's context (R33, R45, R92 to R102, R229), and the statement of the nanoword's requests.
-/
namespace Sys2Proof.Machine

/-! What reads the registers and the memories of the lookup engine alone does not depend on the furrows. -/

theorem ltype_withFurs (d : Dev) (fs : List (Nat × Furrow)) (t : Nat) : ltype { d with furs := fs } t = ltype d t := rfl
theorem tbl_withFurs (d : Dev) (fs : List (Nat × Furrow)) (t : Nat) : tbl { d with furs := fs } t = tbl d t := rfl
theorem unitBad_withFurs (d : Dev) (fs : List (Nat × Furrow)) (b : Tbl) (i : Nat) : unitBad { d with furs := fs } b i = unitBad d b i := rfl
theorem readUnit_withFurs (d : Dev) (fs : List (Nat × Furrow)) (b : Tbl) (i : Nat) : readUnit { d with furs := fs } b i = readUnit d b i := rfl
theorem arrayElem_withFurs (d : Dev) (fs : List (Nat × Furrow)) (b : Tbl) (i : Nat) : arrayElem { d with furs := fs } b i = arrayElem d b i := by
  rw [arrayElem, arrayElem, readUnit_withFurs, unitBad_withFurs]
theorem collectFault_withFurs (d : Dev) (fs : List (Nat × Furrow)) (dest base : Nat) (offs : List Nat) (ty row : Nat) :
    collectFault { d with furs := fs } dest base offs ty row = collectFault d dest base offs ty row := by
  simp only [collectFault, ltype_withFurs, tbl_withFurs, arrayElem_withFurs]
theorem poolPick_withFurs (d : Dev) (fs : List (Nat × Furrow)) (m s n : Nat) : poolPick { d with furs := fs } m s n = poolPick d m s n := rfl
theorem llNamed_withFurs (d : Dev) (fs : List (Nat × Furrow)) (m : Nat) : llNamed { d with furs := fs } m = llNamed d m := rfl
theorem lossless_withFurs (d : Dev) (fs : List (Nat × Furrow)) (p : Pkt) : lossless { d with furs := fs } p = lossless d p := rfl
theorem acreMap_withFurs (d : Dev) (fs : List (Nat × Furrow)) (a j : Nat) : acreMap { d with furs := fs } a j = acreMap d a j := rfl

/-- The device once flight k of a furrow has left the list. -/
def unflown (d : Dev) (a f k : Nat) : Dev := putFur d a f { getFur d a f with inFlight := (getFur d a f).inFlight.eraseIdx k }

theorem unflown_shape (d : Dev) (a f k : Nat) : ∃ fs, unflown d a f k = { d with furs := fs } := ⟨_, rfl⟩

theorem getPkt_unflown (d : Dev) (a f k : Nat) (l : PktRef) : getPkt (unflown d a f k) l = getPkt d l := by
  rw [unflown]
  exact getPkt_putFur_pkts d (x := { getFur d a f with inFlight := (getFur d a f).inFlight.eraseIdx k }) rfl l

section
variable {d : Dev} {a f k : Nat} {e : InFlight} (hk : (getFur d a f).inFlight[k]? = some e)
include hk

theorem flightAt_first (hl : landsAfter (getFur d a f) k e = false) : flightAt d a f k = some e.what := by
  rw [flightAt]
  simp [hk, hl]

theorem land_live {p : Pkt} (hp : getPkt d ⟨a, f, e.slot⟩ = some p) (hg : p.gen = e.gen) (stale : List Nat) (g : Dev → PktRef → Pkt → Dev) :
    land a f k stale d g = g (unflown d a f k) ⟨a, f, e.slot⟩ p := by
  have hu := (getPkt_unflown d a f k ⟨a, f, e.slot⟩).trans hp
  rw [unflown] at hu
  rw [land]
  simp [hk, hu, hg, unflown]

theorem land_gone (hp : getPkt d ⟨a, f, e.slot⟩ = none) (g : Dev → PktRef → Pkt → Dev) :
    land a f k [5] d g = bump (unflown d a f k) (Reg.FURROW_OPCNT a f 5) := by
  have hu := (getPkt_unflown d a f k ⟨a, f, e.slot⟩).trans hp
  rw [unflown] at hu
  rw [land]
  simp only [hk, hu]
  rfl

end

/-! Lookups (R95, R200). -/

theorem setCond_conds_congr {p q : Pkt} (h : q.conds = p.conds) (c : Nat) (v : Bool) : (setCond q c v).conds = (setCond p c v).conds := by
  rw [setCond, setCond, h]

theorem getPkt_landLookup (d : Dev) (l : PktRef) (p : Pkt) (port dest : Nat) (v : W64) (hit err poison : Bool) :
    ∃ q, getPkt (landLookup d l p port dest v hit err poison) l = some q ∧ q.frame = p.frame ∧
      q.conds = (setCond (setCond p (0x0A + port) hit) (0x0C + port) err).conds ∧
      (dest < 4 → pcGet q (Pc.result dest) = v.toNat) := by
  obtain ⟨w, hw⟩ : ∃ w, w = setCond (setCond (pcSet p (Pc.result dest) v.toNat) (0x0A + port) hit) (0x0C + port) err := ⟨_, rfl⟩
  have hframe : w.frame = p.frame := by rw [hw, setCond_frame, setCond_frame, pcSet_frame]
  have hconds : w.conds = (setCond (setCond p (0x0A + port) hit) (0x0C + port) err).conds := by
    rw [hw]
    exact setCond_conds_congr (setCond_conds_congr (pcSet_conds ..) ..) ..
  have hlo : dest < 4 → (Pc.result dest).lo + (Pc.result dest).w ≤ 2048 := fun hd => by
    simp only [Pc.result, ctxFld]
    omega
  have hres : dest < 4 → pcGet w (Pc.result dest) = v.toNat := fun hd => by
    rw [hw, pcGet_setCond, pcGet_setCond, pcGet_pcSet_same _ _ _ (hlo hd)]
    exact Nat.mod_eq_of_lt v.isLt
  rw [landLookup, ← hw, getPkt_putPkt_same]
  refine ⟨_, rfl, ?_⟩
  cases poison with
  | false => exact ⟨hframe, hconds, hres⟩
  | true =>
    refine ⟨(pcSet_frame ..).trans hframe, (pcSet_conds ..).trans hconds, fun hd => ?_⟩
    refine (pcGet_pcSet_other _ _ ?_ (hlo hd)).trans (hres hd)
    simp only [Pc.result, Pc.flag, flPoison, ctxFld]
    omega

theorem bit_setAssoc (p : Pkt) (m j : Nat) : bit (setAssoc p m).conds j =
    if j = 0x10 then m == 255 else if j = 0x0F then decide (2 ≤ m) else if j = 0x0E then decide (1 ≤ m) else bit p.conds j := by
  rw [setAssoc, bit_setCond, bit_setCond, bit_setCond]

theorem lookupLand_spec (d : Dev) (l : PktRef) (p : Pkt) {n dest : Nat} (hn : n < 2) (hd : dest < 4) (v : W64) (hit err poison : Bool)
    (count : Option Nat) : ∃ q, getPkt (lookupLand n dest v hit err poison count d l p) l = some q ∧ pcGet q (Pc.result dest) = v.toNat ∧
      bit q.conds (0x0A + n) = hit ∧ bit q.conds (0x0C + n) = err ∧ q.frame = p.frame ∧
      (∀ m, count = some m → bit q.conds 0x0E = decide (1 ≤ m) ∧ bit q.conds 0x0F = decide (2 ≤ m) ∧ bit q.conds 0x10 = decide (m = 255)) ∧
      (count = none → ∀ c, c < 3 → bit q.conds (0x0E + c) = bit p.conds (0x0E + c)) := by
  have ports : ∀ (w : Pkt) (j : Nat), bit (setCond (setCond w (0x0A + n) hit) (0x0C + n) err).conds j =
      if j = 0x0C + n then err else if j = 0x0A + n then hit else bit w.conds j := fun w j => by rw [bit_setCond, bit_setCond]
  cases count with
  | none =>
    obtain ⟨q, hq, hf, hc, hr⟩ := getPkt_landLookup d l p n dest v hit err poison
    refine ⟨q, hq, hr hd, ?_, ?_, hf, fun m hm => (by simp at hm), fun _ c hc3 => ?_⟩
    · rw [hc, ports, if_neg (by omega), if_pos rfl]
    · rw [hc, ports, if_pos rfl]
    · rw [hc, ports, if_neg (by omega), if_neg (by omega)]
  | some m =>
    obtain ⟨q, hq, hf, hc, hr⟩ := getPkt_landLookup (if err then bump d (Reg.ASSOC_CNT l.a 4) else d) l (setAssoc p m) n dest v hit err poison
    refine ⟨q, hq, hr hd, ?_, ?_, hf, ?_, fun h => (by simp at h)⟩
    · rw [hc, ports, if_neg (by omega), if_pos rfl]
    · rw [hc, ports, if_pos rfl]
    · intro m' hm
      obtain rfl := Option.some.inj hm
      refine ⟨?_, ?_, ?_⟩ <;> rw [hc, ports, if_neg (by omega), if_neg (by omega), bit_setAssoc]
      · rfl
      · rfl
      · exact beq_eq_decide ..

/-! COLLECT (R98, R99). -/

theorem scratch_in (j : Nat) (h : j < 16) : (Pc.scratch j).lo + (Pc.scratch j).w ≤ 2048 := by
  simp only [Pc.scratch, ctxFld]
  omega

theorem scratch_apart {i j : Nat} (h : i ≠ j) :
    (Pc.scratch i).lo + (Pc.scratch i).w ≤ (Pc.scratch j).lo ∨ (Pc.scratch j).lo + (Pc.scratch j).w ≤ (Pc.scratch i).lo := by
  simp only [Pc.scratch, ctxFld]
  omega

/-- The packet with n scratch words written from word dest on, none past the last (R99). -/
def scratchWords (dest n : Nat) (v : Nat → Nat) (p : Pkt) : Pkt :=
  (List.range n).foldl (fun p k => if dest + k ≤ 15 then pcSet p (Pc.scratch (dest + k)) (v k) else p) p

theorem pcGet_scratchWords (dest : Nat) (v : Nat → Nat) (p : Pkt) {n : Nat} (hn : dest + n ≤ 16) {j : Nat} (hj : j < n) :
    pcGet (scratchWords dest n v p) (Pc.scratch (dest + j)) = v j % 2 ^ 64 := by
  induction n with
  | zero => omega
  | succ n ih =>
    rw [scratchWords, List.range_succ, List.foldl_append, List.foldl_cons, List.foldl_nil, if_pos (by omega), ← scratchWords]
    by_cases h : j = n
    · subst h
      exact pcGet_pcSet_same _ _ _ (scratch_in _ (by omega))
    · rw [pcGet_pcSet_other _ _ (scratch_apart (by omega)) (scratch_in _ (by omega))]
      exact ih (by omega) (by omega)

/-- The packet that a COLLECT's words, its first faulting element and its condition have landed in. -/
def collected (dest n : Nat) (v : Nat → Nat) (x : Nat) (p : Pkt) : Pkt :=
  setCond (pcSet (scratchWords dest n v p) Pc.collectFault x) 0x15 (x != 0x1F)

theorem pcGet_collectFault_collected (dest n : Nat) (v : Nat → Nat) (x : Nat) (p : Pkt) :
    pcGet (collected dest n v x p) Pc.collectFault = x % 32 := by
  rw [collected, pcGet_setCond, pcGet_pcSet_same _ _ _ (by decide)]
  rfl

theorem bit_collected (dest n : Nat) (v : Nat → Nat) (x : Nat) (p : Pkt) : bit (collected dest n v x p).conds 0x15 = (x != 0x1F) := by
  rw [collected, bit_setCond, if_pos rfl]

theorem pcGet_scratch_collected (dest : Nat) (v : Nat → Nat) (x : Nat) (p : Pkt) {n : Nat} (hn : dest + n ≤ 16) {j : Nat} (hj : j < n) :
    pcGet (collected dest n v x p) (Pc.scratch (dest + j)) = v j % 2 ^ 64 := by
  rw [collected, pcGet_setCond, pcGet_pcSet_other _ _ (by simp only [Pc.scratch, Pc.collectFault, ctxFld]; omega) (scratch_in _ (by omega)),
    pcGet_scratchWords dest v p hn hj]

theorem pcGet_pkPoison (p : Pkt) {g : Fld} (h : g.lo + g.w ≤ 64 * 3 ∨ 64 * 4 ≤ g.lo) (hg : g.lo + g.w ≤ 2048) :
    pcGet (pkPoison p) g = pcGet p g := by
  refine pcGet_pcSet_other _ _ ?_ hg
  simp only [Pc.flag, flPoison, ctxFld]
  omega

/-- The value of element k of a COLLECT, zero from the first faulting one on. -/
def collectValue (d : Dev) (b : Tbl) (base : Nat) (offs : List Nat) (x k : Nat) : Nat :=
  if k < x then (arrayElem d b (base + offs.getD k 0)).1.toNat else 0

theorem collectValue_lt (d : Dev) (b : Tbl) (base : Nat) (offs : List Nat) (x k : Nat) : collectValue d b base offs x k < 2 ^ 64 := by
  rw [collectValue]
  split
  · exact BitVec.isLt _
  · decide

section
variable {d : Dev} {ty : Nat} {y : Ltype} {b : Tbl} (hy : ltype d ty = some y) (hb : tbl d y.table = some b)
include hy hb

theorem collectLand_eq (l : PktRef) (p : Pkt) {dest base row x : Nat} {offs : List Nat} (hx : x = collectFault d dest base offs ty row) :
    ∃ n, collectLand dest base offs ty row d l p = if x = 0x1F
      then putPkt d l (collected dest offs.length (collectValue d b base offs x) x p)
      else putPkt (opCnt (opCnt d l 0 1) l 1 n) l (pkPoison (collected dest offs.length (collectValue d b base offs x) x p)) := by
  subst hx
  simp only [collectLand, hy, hb, Option.bind_some, collected, scratchWords, collectValue]
  exact ⟨_, rfl⟩

theorem collectLand_spec (l : PktRef) (p : Pkt) {dest base row x : Nat} {offs : List Nat} (hx : x = collectFault d dest base offs ty row)
    (hn : dest + offs.length ≤ 16) : ∃ q, getPkt (collectLand dest base offs ty row d l p) l = some q ∧ pcGet q Pc.collectFault = x % 32 ∧
      bit q.conds 0x15 = (x != 0x1F) ∧ ∀ j, j < offs.length → pcGet q (Pc.scratch (dest + j)) =
        if j < x then (arrayElem d b (base + offs.getD j 0)).1.toNat else 0 := by
  obtain ⟨q, hq⟩ : ∃ q, q = collected dest offs.length (collectValue d b base offs x) x p := ⟨_, rfl⟩
  have hfault : pcGet q Pc.collectFault = x % 32 := hq ▸ pcGet_collectFault_collected ..
  have hcond : bit q.conds 0x15 = (x != 0x1F) := hq ▸ bit_collected ..
  have hword : ∀ j, j < offs.length → pcGet q (Pc.scratch (dest + j)) = collectValue d b base offs x j := by
    intro j hj
    rw [hq, pcGet_scratch_collected _ _ _ _ hn hj, Nat.mod_eq_of_lt (collectValue_lt ..)]
  obtain ⟨e, he⟩ := collectLand_eq hy hb l p hx
  rw [he, ← hq]
  split
  · exact ⟨q, getPkt_putPkt_same .., hfault, hcond, hword⟩
  · refine ⟨pkPoison q, getPkt_putPkt_same .., ?_, (congrArg (bit · 0x15) (pcSet_conds ..)).trans hcond, fun j hj => ?_⟩
    · rw [pcGet_pkPoison q (by decide) (by decide), hfault]
    · rw [pcGet_pkPoison q (by simp only [Pc.scratch, ctxFld]; omega) (scratch_in _ (by omega)), hword j hj, collectValue]

end

/-! LEARN and BUF (R102, R229). -/

theorem result_in {dest : Nat} (hd : dest < 4) : (Pc.result dest).lo + (Pc.result dest).w ≤ 2048 := by
  simp only [Pc.result, ctxFld]
  omega

/-- The word of a request that is denied for want of cells (R229). -/
theorem toNat_grantWord_denied (m pool : Nat) : (grantWord false 0 1 m pool).toNat = (2 ^ 14 + m * 2 ^ 6 + pool) % 2 ^ 64 := by
  rw [grantWord, BitVec.toNat_ofNat]
  congr 1

theorem getPkt_answer {d : Dev} {l : PktRef} {p : Pkt} {kind num : Nat} (hr : p.reqs.getD (kind - 1) 0 = num) (err : Bool) (g : Pkt → Pkt) :
    ∃ q, getPkt (answer d l p kind num err g) l = some q ∧ q.grant = (g p).grant ∧ q.ctx = (g p).ctx ∧
      bit q.conds (condValid kind) = true ∧ bit q.conds (condErr kind) = err := by
  rw [answer, if_pos hr, getPkt_putPkt_same]
  refine ⟨_, rfl, setCond_grant .., setCond_ctx .., ?_, ?_⟩
  · rw [bit_setCond, bit_setCond, condValid, condErr, if_neg (by omega), if_pos rfl]
  · rw [bit_setCond, if_pos rfl]

/-- A BUF request of a pool that cannot grant is denied with cause 1. -/
theorem bufLand_denied_eq {d : Dev} (l : PktRef) {p : Pkt} (dest : Nat) {pool num m : Nat} (hpool : pool < 63) (hg : p.grant = none)
    (hn : llNamed d pool = false) (hl : lossless d p = false) (hr : p.reqs.getD 3 0 = num)
    (hm : m = acreMap d l.a (bits (pcGet p Pc.flowHash) 20 6)) (hpick : poolPick d m pool (cellsOf p) = none) :
    bufLand dest pool num d l p =
      answer d l { p with grant := none } 4 num true fun p => pcSet p (Pc.result dest) (grantWord false 0 1 m pool).toNat := by
  have hret : returnGrant d p = d := by rw [returnGrant, hg]
  have hl' : lossless d { p with grant := none } = false := hl
  have hne : ¬ (pool = 63 ∨ llNamed d pool = true) := by
    rw [hn]
    simp only [Bool.false_eq_true, or_false]
    omega
  rw [bufLand, if_neg (not_not.mpr hr)]
  simp only [hret, hl', Bool.false_eq_true, if_false, if_neg hne, ← hm, hpick]

theorem bufLand_denied {d : Dev} {l : PktRef} {p : Pkt} {dest pool num m : Nat} (hd : dest < 4) (hpool : pool < 63) (hg : p.grant = none)
    (hn : llNamed d pool = false) (hl : lossless d p = false) (hr : p.reqs.getD 3 0 = num)
    (hm : m = acreMap d l.a (bits (pcGet p Pc.flowHash) 20 6)) (hpick : poolPick d m pool (cellsOf p) = none) :
    ∃ q, getPkt (bufLand dest pool num d l p) l = some q ∧ bit q.conds 0x14 = true ∧ bit q.conds 0x19 = true ∧ q.grant = none ∧
      pcGet q (Pc.result dest) = (2 ^ 14 + m * 2 ^ 6 + pool) % 2 ^ 64 := by
  obtain ⟨q, hq, hgrant, hctx, hv, he⟩ := getPkt_answer (d := d) (l := l) (p := { p with grant := none }) (kind := 4) (num := num) hr true
    fun p => pcSet p (Pc.result dest) (grantWord false 0 1 m pool).toNat
  rw [bufLand_denied_eq l dest hpool hg hn hl hr hm hpick]
  refine ⟨q, hq, hv, he, hgrant.trans (pcSet_grant ..), ?_⟩
  rw [pcGet_congr hctx, pcGet_pcSet_same _ _ _ (result_in hd), toNat_grantWord_denied]
  exact Nat.mod_mod ..

end Sys2Proof.Machine
end

section
/-!
PROOF. The statement of the nanoword's requests: what leaves the row, what lands and what an edit leaves.
-/
namespace Sys2Proof.Machine

/-! A DEEP request at an idle crossing (R367, R369). -/

section
variable {d : Dev} (hi : flagF d Reg.FAULT_INJECT Reg.FAULT_INJECT_PENDING = false) (ty x : Nat)
include hi

theorem deepFind_notReady (h : deepReady d = false) :
    (deepFind d ty x).1 = .poison ∧ rd (deepFind d ty x).2 (Reg.DEEP_CNT 9) = rd d (Reg.DEEP_CNT 9) + 1 := by
  have hf : deepFind d ty x = (.poison, bump d (Reg.DEEP_CNT 9)) := by
    rw [deepFind, crossIn_idle hi]
    exact if_pos (by simp [h])
  rw [hf]
  exact ⟨rfl, rd_bump_same ..⟩

theorem deepFind_invalid (h : deepReady d = true)
    (hv : rdF d (Reg.DEEP_TYPE ty 0) Reg.DEEP_TYPE_VALID = 0 ∨ rdF d (Reg.DEEP_TYPE ty 1) Reg.DEEP_TYPE_SIZE ≤ x % 2 ^ 40) :
    (deepFind d ty x).1 = .invalid ∧ rd (deepFind d ty x).2 (Reg.DEEP_CNT 14) = rd d (Reg.DEEP_CNT 14) + 1 := by
  have hf : deepFind d ty x = (.invalid, bump d (Reg.DEEP_CNT 14)) := by
    rw [deepFind, crossIn_idle hi]
    exact (if_neg (by simp [h])).trans (if_pos hv)
  rw [hf]
  exact ⟨rfl, rd_bump_same ..⟩

end

/-! The lookup of an EXACT table (R95). -/

section
variable {d : Dev} {a n dest ty row hold k : Nat} {key : List W64} {y : Ltype} {b : Tbl}
  (hy : ltype d ty = some y) (hkind : y.kind = 1) (hrow : bit y.rowmask row = true) (hb : tbl d y.table = some b) (hx : b.kind = 1)
  (hk : k = keyFor b (keyOfWords key))
include hy hkind hrow hb hx hk

theorem lookupRead_exactHit {i : Nat} (h : exactLookup d b k = some i) :
    (lookupRead a n dest ty key row hold d).1 = .lookup n dest (BitVec.ofNat 64 (eAction (readUnit d b i))) true false false none ∧
      hitBit (lookupRead a n dest ty key row hold d).2 b.t i = (b.refresh || hitBit d b.t i) := by
  subst hk
  rw [lookupRead_exact hy hkind hrow hb, tableSearch_exact hx, h]
  exact ⟨by simp only [readUnit_hit], hitBit_hit ..⟩

theorem lookupRead_exactMiss (h : exactLookup d b k = none) :
    (lookupRead a n dest ty key row hold d).2.orch = d.orch ∧ (lookupRead a n dest ty key row hold d).1 =
      if homeBad d b k = true then .lookup n dest 0 false true true none else .lookup n dest 0 false false false none := by
  subst hk
  rw [lookupRead_exact hy hkind hrow hb, tableSearch_exact hx, h]
  cases homeBad d b (keyFor b (keyOfWords key)) with
  | false => exact ⟨tblCnt_orch d b.t 1 1, rfl⟩
  | true => exact ⟨rfl, rfl⟩

end

/-! The lookup in flight of an associative search (R200). -/

section
variable {d : Dev} {a n dest ty row hold : Nat} {key : List W64} {y : Ltype} {l : List (Nat × Nat)}
  (hy : ltype d ty = some y) (hkind : y.kind = 4) (hrow : bit y.rowmask row = true)
  (hl : l = aMatches d a hold ((List.range 5).foldl (fun x j => x * 2 ^ 64 + (key.getD j 0).toNat) 0))
include hy hkind hrow hl

theorem lookupRead_assocNone (h : l = []) : (lookupRead a n dest ty key row hold d).1 = .lookup n dest 0 false false false (some 0) := by
  rw [lookupRead_assoc hy hkind hrow, aLookup_eq, ← hl, h, aWinner_nil]
  rfl

theorem lookupRead_assocWinner {i : Nat} {e : Nat} (h : aWinner hold l = some (i, e)) (he : ecc d .assocTag (aKey a i) ≠ 2) :
    (lookupRead a n dest ty key row hold d).1 =
      .lookup n dest (BitVec.ofNat 64 (aAction e * 2 ^ 32 + min 255 l.length * 2 ^ 17 + aIndexName d a i)) true false false
        (some (min 255 l.length)) := by
  have hne : l ≠ [] := fun h0 => by rw [h0, aWinner_nil] at h; cases h
  have hlen : 1 ≤ min 255 l.length := by
    have := List.length_pos_iff.mpr hne
    omega
  rw [lookupRead_assoc hy hkind hrow, aLookup_eq, ← hl, h]
  simp only [if_neg he, hlen, decide_true, Bool.not_false, Bool.and_self]

end

/-! The landings of a furrow's flight. -/

section
variable {s : State} {a f k : Nat} {e : InFlight} (hk : (getFur s.dev a f).inFlight[k]? = some e)
  (hl : landsAfter (getFur s.dev a f) k e = false)
include hk hl

section
variable {n dest : Nat} {v : W64} {hit err poison : Bool} {count : Option Nat} (hw : e.what = .lookup n dest v hit err poison count)
include hw

theorem lookupResult_first : exec (.lookupResult a f k) s = .next (commit s (land a f k [5] s.dev (lookupLand n dest v hit err poison count))) := by
  have he : exec (.lookupResult a f k) s = .next (commit s (lookupResult a f k s.dev)) := rfl
  rw [he, lookupResult, flightAt_first hk hl, hw]

theorem lookupResult_live {p : Pkt} (hp : getPkt s.dev ⟨a, f, e.slot⟩ = some p) (hg : p.gen = e.gen) : exec (.lookupResult a f k) s =
    .next (commit s (lookupLand n dest v hit err poison count (unflown s.dev a f k) ⟨a, f, e.slot⟩ p)) := by
  rw [lookupResult_first hk hl hw, land_live hk hp hg]

end

section
variable {dest n base ty row : Nat} {offs : List Nat} (hw : e.what = .collect dest n base offs ty row)
include hw

theorem collectLanding_first : exec (.collectLanding a f k) s = .next (commit s (land a f k [5] s.dev (collectLand dest base offs ty row))) := by
  have he : exec (.collectLanding a f k) s = .next (commit s (collectLanding a f k s.dev)) := rfl
  rw [he, collectLanding, flightAt_first hk hl, hw]

theorem collectLanding_live {p : Pkt} (hp : getPkt s.dev ⟨a, f, e.slot⟩ = some p) (hg : p.gen = e.gen) {x : Nat}
    (hx : x = collectFault s.dev dest base offs ty row) (hn : dest + offs.length ≤ 16) {y : Ltype} {b : Tbl}
    (hy : ltype s.dev ty = some y) (hb : tbl s.dev y.table = some b) :
    ∃ t q, exec (.collectLanding a f k) s = .next t ∧ getPkt t.dev ⟨a, f, e.slot⟩ = some q ∧ pcGet q Pc.collectFault = x % 32 ∧
      bit q.conds 0x15 = (x != 0x1F) ∧ ∀ j, j < offs.length → pcGet q (Pc.scratch (dest + j)) =
        if j < x then (arrayElem s.dev b (base + offs.getD j 0)).1.toNat else 0 := by
  obtain ⟨fs, hu⟩ := unflown_shape s.dev a f k
  obtain ⟨q, hq, hfault, hcond, hword⟩ := collectLand_spec (d := unflown s.dev a f k) (x := x) (row := row) (offs := offs)
    (by rw [hu, ltype_withFurs]; exact hy) (by rw [hu, tbl_withFurs]; exact hb) ⟨a, f, e.slot⟩ p
    (by rw [hu, collectFault_withFurs]; exact hx) hn
  refine ⟨_, q, (collectLanding_first hk hl hw).trans (by rw [land_live hk hp hg]), (getPkt_commit ..).trans hq, hfault, hcond, ?_⟩
  intro j hj
  rw [hword j hj, hu, arrayElem_withFurs]

end

theorem learnAnswer_live {dest num : Nat} {refused : Bool} (hw : e.what = .learned dest num refused) {p : Pkt}
    (hp : getPkt s.dev ⟨a, f, e.slot⟩ = some p) (hg : p.gen = e.gen) : exec (.learnAnswer a f k) s =
      .next (commit s (answer (unflown s.dev a f k) ⟨a, f, e.slot⟩ p 3 num refused id)) := by
  have he : exec (.learnAnswer a f k) s = .next (commit s (learnAnswer a f k s.dev)) := rfl
  rw [he, learnAnswer, flightAt_first hk hl, hw]
  dsimp only
  rw [land_live hk hp hg]

theorem bufAnswer_denied {dest pool num m : Nat} {key : List W64} {o : W64} (hw : e.what = .request 4 dest pool key num o) {p : Pkt}
    (hp : getPkt s.dev ⟨a, f, e.slot⟩ = some p) (hgen : p.gen = e.gen) (hd : dest < 4) (hpool : pool < 63) (hg : p.grant = none)
    (hn : llNamed s.dev pool = false) (hll : lossless s.dev p = false) (hr : p.reqs.getD 3 0 = num)
    (hm : m = acreMap s.dev a (bits (pcGet p Pc.flowHash) 20 6)) (hpick : poolPick s.dev m pool (cellsOf p) = none) :
    ∃ t q, exec (.bufAnswer a f k) s = .next t ∧ getPkt t.dev ⟨a, f, e.slot⟩ = some q ∧ bit q.conds 0x14 = true ∧
      bit q.conds 0x19 = true ∧ q.grant = none ∧ pcGet q (Pc.result dest) = (2 ^ 14 + m * 2 ^ 6 + pool) % 2 ^ 64 := by
  have he : exec (.bufAnswer a f k) s = .next (commit s (bufAnswer a f k s.dev)) := rfl
  obtain ⟨fs, hu⟩ := unflown_shape s.dev a f k
  obtain ⟨q, hq, hv, herr, hgrant, hres⟩ := bufLand_denied (d := unflown s.dev a f k) (l := ⟨a, f, e.slot⟩) (m := m) hd hpool hg
    (by rw [hu, llNamed_withFurs]; exact hn) (by rw [hu, lossless_withFurs]; exact hll) hr (by rw [hu, acreMap_withFurs]; exact hm)
    (by rw [hu, poolPick_withFurs]; exact hpick)
  refine ⟨commit s (bufLand dest pool num (unflown s.dev a f k) ⟨a, f, e.slot⟩ p), q, ?_, (getPkt_commit ..).trans hq, hv, herr, hgrant, hres⟩
  rw [he, bufAnswer, flightAt_first hk hl, hw]
  exact congrArg (Host.Outcome.next ∘ commit s) (land_live hk hp hgen [5] (bufLand dest pool num))

end

/-- A request clears its conditions, takes its furrow's next number and goes in flight (R101). -/
theorem exec_request {s : State} {l : PktRef} {p : Pkt} {g : RqGroup} {c : Instr} {kind num : Nat} (hp : getPkt s.dev l = some p)
    (hn : num = (getFur s.dev l.a l.f).reqCtr + 1) (hlen : p.reqs.length = 4) (hb : keyBad g.kmode g.ksrc = false)
    (hc : (c, kind) ∈ ([(.deep l g, 1), (.saState l g, 2), (.learn l g, 3), (.buf l g, 4)] : List (Instr × Nat))) :
    ∃ t q, exec c s = .next t ∧ getPkt t.dev l = some q ∧ bit q.conds (0x10 + kind) = false ∧ bit q.conds (0x15 + kind) = false ∧
      (∀ k, k < 4 → q.reqs.getD k 0 = if k = kind - 1 then num else p.reqs.getD k 0) ∧ q.ctx = p.ctx ∧
      (getFur t.dev l.a l.f).reqCtr = num ∧ (getFur t.dev l.a l.f).inFlight = (getFur s.dev l.a l.f).inFlight ++
        [⟨l.slot, p.gen, if kind = 1 then .deep g.dest num (deepFind s.dev g.ty ((keyWords p g.kmode g.ksrc).getD 0 0).toNat).1
          else .request kind g.dest g.ty (keyWords p g.kmode g.ksrc) num (BitVec.ofNat 64 (pcGet p (Pc.result g.dest))), none⟩] ∧
      (kind ≠ 1 → t.dev.regs = s.dev.regs) := by
  have he : exec c s = .next (commit s (nanoPart l (fun _ => keyBad g.kmode g.ksrc) (fun _ => false) (issueRequest l kind g) s.dev)) := by
    simp only [List.mem_cons, List.not_mem_nil, or_false, Prod.mk.injEq] at hc
    rcases hc with ⟨rfl, rfl⟩ | ⟨rfl, rfl⟩ | ⟨rfl, rfl⟩ | ⟨rfl, rfl⟩ <;> rfl
  obtain ⟨e, hissue, hpkt, hctr, hfl, hregs⟩ := issueRequest_spec hp (kind := kind) hn g
  obtain ⟨hv, herr⟩ := requested_conds p (kind := kind) num
  refine ⟨commit s e, requested p kind num, ?_, (getPkt_commit ..).trans hpkt, hv, herr, fun k hk => requested_reqs p num hlen hk, rfl,
    ?_, ?_, ?_⟩
  · rw [he, nanoPart_acts hp hb rfl, hissue]
  · rw [getFur_commit]
    exact hctr
  · rw [getFur_commit]
    exact hfl
  · intro hk
    exact hregs hk

end Sys2Proof.Machine

namespace Sys2Proof
open Machine

/-- Settles O57: what each part leaves (lookups, COLLECT, meters, counters, requests, edits, or the trap of a reserved encoding), what a
DEEP request finds, and what lands in the packet's context. -/
theorem nanoRequests : Obligations.NanoRequests := by
  unfold Obligations.NanoRequests
  refine ⟨?issues, ?reads, ?requests, ?deep, ?landings, ?edits⟩
  case issues =>
    intro s l p r hp hr
    refine ⟨fun n g w d hk hw => ⟨exec_lookupIssue hp hr hk hw, ?_⟩, exec_collect hp hr, exec_meter hp hr, ?pair, ?absent, ?reserved⟩
    · have hd : d = (lookupRead l.a n g.dest g.ty (keyWords p g.kmode g.ksrc) r (pcGet p Pc.holding) s.dev).2 := congrArg Prod.snd hw
      rw [hd]
      exact lookupRead_furs ..
    case pair =>
      intro g y b hg hy hb hk hrow hi hu
      rw [exec_counterUpdate hp hr (by omega), countUpdate_pair hy hb hk hrow hi hu]
    case absent =>
      intro g hg hy
      rw [exec_counterUpdate hp hr hg, countUpdate_typeAbsent hy]
    case reserved =>
      intro c n g h e op k hc
      exact exec_reserved hp hr hc
  case reads =>
    intro d a n dest ty key row hold
    refine ⟨lookupRead_typeAbsent, fun y hy hr => lookupRead_rowOff hy hr, ?exact, ?assoc⟩
    case exact =>
      intro y b k hy hkind hrow hb hx hk
      exact ⟨fun i h => lookupRead_exactHit hy hkind hrow hb hx hk h, lookupRead_exactMiss hy hkind hrow hb hx hk⟩
    case assoc =>
      intro y l hy hkind hrow hl
      exact ⟨lookupRead_assocNone hy hkind hrow hl, fun i e h he => lookupRead_assocWinner hy hkind hrow hl h he⟩
  case requests =>
    intro s l p g c kind num hp hn hlen hb hc
    exact exec_request hp hn hlen hb hc
  case deep =>
    intro d ty x hi
    exact ⟨deepFind_notReady hi ty x, deepFind_invalid hi ty x⟩
  case landings =>
    rintro s a f k e d hk hl rfl
    refine ⟨fun hp => ⟨?staleLookup, ?staleCollect⟩, ?live⟩
    case staleLookup =>
      intro n dest v hit err poison count hw
      rw [lookupResult_first hk hl hw, land_gone hk hp]
      rfl
    case staleCollect =>
      intro dest n base offs ty row hw
      rw [collectLanding_first hk hl hw, land_gone hk hp]
      rfl
    case live =>
      rintro p l rfl hp hg
      refine ⟨?lookup, ?collect, ?learn, ?buf⟩
      case lookup =>
        intro n dest v hit err poison count hw hn hd
        obtain ⟨q, hq, hspec⟩ := lookupLand_spec (unflown s.dev a f k) ⟨a, f, e.slot⟩ p hn hd v hit err poison count
        exact ⟨_, q, lookupResult_live hk hl hw hp hg, (getPkt_commit ..).trans hq, hspec⟩
      case collect =>
        intro dest n base offs ty row x y b hw hx hn hy hb
        exact collectLanding_live hk hl hw hp hg hx hn hy hb
      case learn =>
        intro dest num refused hw
        rw [learnAnswer_live hk hl hw hp hg, answer]
        exact ⟨fun h => by rw [if_pos h]; rfl, fun h => by rw [if_neg h]; rfl⟩
      case buf =>
        intro dest pool key num o m hw hd hpool hgrant hn hll hr hm hpick
        exact bufAnswer_denied hk hl hw hp hg hd hpool hgrant hn hll hr hm hpick
  case edits =>
    intro s l p r g c op hp hr hb hc
    exact exec_edit hp hr hc hb

end Sys2Proof
end

section
/-!
PROOF. The row-step (R30, R38, R49, R85): what a packet that may run its microword meets, by the microword's operation.
-/
namespace Sys2Proof.Machine

/-! Nothing lands for a packet that waits for nothing. -/

section
variable {d : Dev} {l : PktRef}

theorem nextDue_noFlights (h : NoFlights d l) (p : Pkt) (r : Nat) : nextDue (getFur d l.a l.f) l p r = none := by
  have hnone : ∀ g : InFlight → Bool, ((getFur d l.a l.f).inFlight.findIdx? fun e => e.slot == l.slot && g e) = none := by
    intro g
    rw [List.findIdx?_eq_none_iff]
    intro e he
    have : (e.slot == l.slot) = false := by simpa using h e he
    rw [this, Bool.false_and]
  have hmine := hnone fun e => e.gen == p.gen && e.due == dueAt p (r + 1)
  have hlookup := hnone fun e => e.gen == p.gen && e.due == dueAt p (r + 1) && !isCollect e.what
  simp only [Bool.and_assoc] at hmine hlookup
  simp only [nextDue, Bool.and_assoc, hlookup, hmine]

theorem landDue_noFlights (h : NoFlights d l) (r n : Nat) : landDue l r n d = d := by
  cases n with
  | zero => rfl
  | succ n =>
    rw [landDue]
    cases hp : getPkt d l with
    | none => rfl
    | some p =>
      rw [Option.bind_some, nextDue_noFlights h]

theorem rowLand_noFlights (h : NoFlights d l) (r : Nat) : rowLand l r d = d := landDue_noFlights h ..

theorem noFlights_putPkt (h : NoFlights d l) (p : Pkt) : NoFlights (putPkt d l p) l := by
  intro e he
  rw [getFur_putPkt_same] at he
  exact h e he

theorem landThen_noFlights (h : NoFlights d l) {p : Pkt} (hp : getPkt d l = some p) (r : Nat) (g : Dev → Pkt → Dev) :
    landThen d l r g = g d p := by
  rw [landThen, rowLand_noFlights h, hp]

end

/-! The microword of a packet in its row. -/

section
variable {d : Dev} {l : PktRef} {bank r a : Nat}

theorem microRead_clean (h : ecc d .micro (microKey (storeCopy d l.a l.f) bank r a) = 0) : microRead d l bank r a = (true, d) := by
  rw [microRead, storeRead]
  exact if_pos h

theorem nanoRead_clean (h : ecc d .nano (nanoKey (storeCopy d l.a l.f) bank r a) = 0) : nanoRead d l bank r a = (true, d) := by
  rw [nanoRead, storeRead]
  exact if_pos h

theorem microRead_uncorrectable (h : ecc d .micro (microKey (storeCopy d l.a l.f) bank r a) = 2) : ∃ e, microRead d l bank r a = (false, e) := by
  rw [microRead, storeRead]
  simp only [h]
  exact ⟨_, rfl⟩

end

/-- The nanoword's part of a row-step whose microword u is neither NOP nor a taken TRAP nor an untaken WAIT (R36, R85, R115). -/
def rowNano (d : Dev) (l : PktRef) (p : Pkt) (r u : Nat) (taken : Bool) : Dev :=
  match nanoRead d l (pcGet p Pc.epoch) r (uNano u) with
  | (false, d) => furDrop d l { p with lastRow := r + 1 } 0x47
  | (true, d) =>
    let nw := nanoWord d (storeCopy d l.a l.f) (pcGet p Pc.epoch) r (uNano u)
    if nanoBad p nw then trapDrop (opCnt d l 6 1) l p r 0xE
    else
      let (d, full) := nanoRun l nw (if uSeq u = 2 ∨ uSeq u = 7 then 0 else uImm u) d
      match getPkt d l with
      | none => d
      | some q => if full then trapDrop (opCnt d l 6 1) l q r 0xF else rowFinish d l q r u (nextUpc p u taken) taken

/-- What the microword u makes of a packet that may run it (R38). -/
def rowMain (d : Dev) (l : PktRef) (p : Pkt) (r u : Nat) (woken taken : Bool) : Dev :=
  if uSeq u = 0 then landThen d l r fun d q => rowFinish d l q r u (nextUpc p u taken) taken
  else if uSeq u = 7 ∧ taken then trapDrop d l p r (uImm u)
  else if uSeq u = 3 ∧ ¬ taken then park d l p r (uCond u) woken
  else rowNano d l p r u taken

section
variable {d : Dev} {l : PktRef} {p : Pkt} {r u : Nat}

theorem rowStep_main {woken : Bool} (hp : getPkt d l = some p) (hloc : p.loc = .row r woken) (hride : p.ride = none)
    (hu : u = microWord d (storeCopy d l.a l.f) (pcGet p Pc.epoch) r (pcGet p Pc.upc))
    (hecc : ecc d .micro (microKey (storeCopy d l.a l.f) (pcGet p Pc.epoch) r (pcGet p Pc.upc)) = 0)
    (hord : woken = false → orderWait (getFur d l.a l.f) l.slot r p = false) {taken : Bool}
    (ht : taken = (condTrue d l p (uCond u) || (woken && p.waitTaken && uSeq u == 3))) :
    rowStep l (uSeq u) d = rowMain d l p r u woken taken := by
  have hread : microRead d l (pcGet p Pc.epoch) r (pcGet p Pc.upc) = (true, d) := microRead_clean hecc
  have hord' : ¬ ((¬ woken = true) ∧ orderWait (getFur d l.a l.f) l.slot r p = true) := by
    rintro ⟨hw, ho⟩
    rw [hord (by simpa using hw)] at ho
    cases ho
  subst ht
  rw [rowStep, hp]
  dsimp only
  split
  · rename_i r' woken' hloc'
    obtain ⟨rfl, rfl⟩ := Loc.row.inj (hloc'.symm.trans hloc)
    split
    · rename_i hride'
      exact nomatch hride'.symm.trans hride
    · rw [← hu, if_neg (not_not.mpr rfl), if_neg hord', hread]
      rfl
  · exact absurd hloc (by rename_i h; exact h r woken)

theorem rowStep_uncorrectable (hp : getPkt d l = some p) (hloc : p.loc = .row r true) (hride : p.ride = none)
    (hecc : ecc d .micro (microKey (storeCopy d l.a l.f) (pcGet p Pc.epoch) r (pcGet p Pc.upc)) = 2) :
    ∃ e, rowStep l (uSeq (microWord d (storeCopy d l.a l.f) (pcGet p Pc.epoch) r (pcGet p Pc.upc))) d =
      furDrop e l { p with lastRow := r + 1 } 0x47 := by
  obtain ⟨e, hread⟩ := microRead_uncorrectable hecc
  refine ⟨e, ?_⟩
  rw [rowStep, hp]
  dsimp only
  split
  · rename_i r' woken' hloc'
    obtain ⟨rfl, rfl⟩ := Loc.row.inj (hloc'.symm.trans hloc)
    split
    · rename_i hride'
      exact nomatch hride'.symm.trans hride
    · rw [if_neg (not_not.mpr rfl), if_neg (fun h => h.1 rfl), hread]
  · exact absurd hloc (by rename_i h; exact h r true)

theorem rowStep_ready (h : RowReady d l p r u) {seq : Nat} (hs : uSeq u = seq) {taken : Bool} (ht : taken = condTrue d l p (uCond u)) :
    ∃ woken, p.loc = .row r woken ∧ rowStep l seq d = rowMain d l p r u woken taken := by
  obtain ⟨hp, hride, hu, hecc, hrow⟩ := h
  subst hs ht
  rcases hrow with ⟨hloc, hw⟩ | ⟨hloc, hord⟩
  · exact ⟨true, hloc, rowStep_main hp hloc hride hu hecc (fun h => by cases h) (by rw [hw]; simp)⟩
  · exact ⟨false, hloc, rowStep_main hp hloc hride hu hecc (fun _ => hord) (by simp)⟩

end

end Sys2Proof.Machine
end

section
/-!
PROOF. What a nanoword that asks for nothing leaves, and the end of a row-step (R38, R60, R62).
-/
namespace Sys2Proof.Machine

/-! A nanoword that asks for nothing. -/

theorem zero_bits (lo w : Nat) : bits 0 lo w = 0 := by rw [bits, Nat.zero_div, Nat.zero_mod]

theorem zero_bit (i : Nat) : bit 0 i = false := by rw [bit_eq_testBit, Nat.zero_testBit]

/-- The packets agree in the context, the frame, the conditions, the place and the ride. -/
def SameStanding (q p : Pkt) : Prop := q.ctx = p.ctx ∧ q.frame = p.frame ∧ q.conds = p.conds ∧ q.loc = p.loc ∧ q.ride = p.ride

theorem SameStanding.refl (p : Pkt) : SameStanding p p := ⟨rfl, rfl, rfl, rfl, rfl⟩

theorem SameStanding.trans {p q r : Pkt} (h : SameStanding r q) (h' : SameStanding q p) : SameStanding r p :=
  ⟨h.1.trans h'.1, h.2.1.trans h'.2.1, h.2.2.1.trans h'.2.2.1, h.2.2.2.1.trans h'.2.2.2.1, h.2.2.2.2.trans h'.2.2.2.2⟩

theorem sameStanding_pkExtract (n : Nat) (g : XGroup) (p : Pkt) : SameStanding (pkExtract n g p) p := by
  rw [pkExtract]
  split_ifs <;> exact SameStanding.refl p

theorem sameStanding_aluStep (p : Pkt) (n : Nat) (g : AluGroup) (imm : Nat) (f : W64 → W64 → AluOut) : SameStanding (aluStep p n g imm f) p := by
  rw [aluStep]
  split_ifs <;> exact SameStanding.refl p

theorem sameStanding_nanoData (nw imm : Nat) (p : Pkt) : SameStanding (nanoData nw imm p) p := by
  have hx : ∀ (ns : List Nat) (q : Pkt), SameStanding (ns.foldl (fun q n => pkExtract n (nanoX nw n) q) q) q := by
    intro ns
    induction ns with
    | nil => exact SameStanding.refl
    | cons n ns ih => exact fun q => (ih _).trans (sameStanding_pkExtract ..)
  have halu : ∀ (n : Nat) (q : Pkt), SameStanding (match aluOp (nanoAluOp nw n) with
      | some f => aluStep q n (nanoAlu nw n) imm f
      | none => q) q := by
    intro n q
    split
    · exact sameStanding_aluStep ..
    · exact SameStanding.refl q
  exact (halu 1 _).trans ((halu 0 _).trans (hx ..))

theorem pkFlagsSet_shape (m : Nat) (p : Pkt) : ∃ v, pkFlagsSet m p = pcSet p (ctxFld 3 0 16) v := ⟨_, rfl⟩

theorem pkFlagsClear_shape (m : Nat) (p : Pkt) : ∃ v, pkFlagsClear m p = pcSet p (ctxFld 3 0 16) v := ⟨_, rfl⟩

theorem nanoWrites_zero (p : Pkt) : nanoWrites 0 p = pkFlagsClear 0 (pkFlagsSet 0 p) := by
  simp [nanoWrites, nanoMwEn, nanoFclr, nanoFset, nanoMir, nanoDpEn, zero_bits, zero_bit]

/-- The rotation flags are the only field that a nanoword that asks for nothing writes. -/
theorem nanoWrites_zero_spec (p : Pkt) : (nanoWrites 0 p).frame = p.frame ∧ (nanoWrites 0 p).conds = p.conds ∧
    (nanoWrites 0 p).ride = p.ride ∧ ∀ g : Fld, g.lo + g.w ≤ 64 * 3 ∨ 64 * 3 + 16 ≤ g.lo → g.lo + g.w ≤ 2048 →
      pcGet (nanoWrites 0 p) g = pcGet p g := by
  obtain ⟨v, hv⟩ := pkFlagsSet_shape 0 p
  obtain ⟨w, hw⟩ := pkFlagsClear_shape 0 (pcSet p (ctxFld 3 0 16) v)
  rw [nanoWrites_zero, hv, hw]
  refine ⟨by rw [pcSet_frame, pcSet_frame], by rw [pcSet_conds, pcSet_conds], by rw [pcSet_ride, pcSet_ride], fun g hg hin => ?_⟩
  rw [pcGet_pcSet_other _ _ hg hin, pcGet_pcSet_other _ _ hg hin]

/-- A nanoword that asks for nothing changes the packet alone. -/
theorem nanoRun_zero {d : Dev} {l : PktRef} {p : Pkt} (hp : getPkt d l = some p) (hn : NoFlights d l) (imm : Nat) :
    ∃ e q, nanoRun l 0 imm d = (e, false) ∧ getPkt e l = some q ∧ e.regs = d.regs ∧ e.writes = d.writes ∧
      q.frame = p.frame ∧ q.conds = p.conds ∧ q.ride = p.ride ∧
      (∀ g : Fld, g.lo + g.w ≤ 64 * 3 ∨ 64 * 3 + 16 ≤ g.lo → g.lo + g.w ≤ 2048 → pcGet q g = pcGet p g) ∧
      ∀ l', l' ≠ l → l.f < 32 → l'.f < 32 → getPkt e l' = getPkt d l' := by
  obtain ⟨p₁, hp₁⟩ : ∃ p₁, p₁ = nanoData 0 imm p := ⟨_, rfl⟩
  obtain ⟨hctx, hframe, hconds, -, hride⟩ : SameStanding p₁ p := hp₁ ▸ sameStanding_nanoData ..
  obtain ⟨hframe', hconds', hride', hfld⟩ := nanoWrites_zero_spec p₁
  let d₁ := putPkt d l p₁
  let d₂ := putPkt d₁ l p₁
  have hn₂ : NoFlights d₂ l := noFlights_putPkt (noFlights_putPkt hn p₁) p₁
  have hrow : inRow l d₂ (fun _ r => rowLand l r d₂) = d₂ := by
    rw [inRow]
    split
    · rfl
    · split
      · exact rowLand_noFlights hn₂ _
      · rfl
  have hget : ∀ (e : Dev) (q : Pkt), getPkt (putPkt e l q) l = some q := fun e q => getPkt_putPkt_same ..
  have hrun : nanoRun l 0 imm d = (putPkt d₂ l (nanoWrites 0 p₁), false) := by
    have hdata : onPkt l (nanoData 0 imm) d = d₁ := by rw [onPkt_some hp, ← hp₁]
    have hissue : nanoIssue l 0 d₁ = d₁ := by simp [nanoIssue, nanoLEn, nanoClEn, nanoRqKind, zero_bits, zero_bit]
    have hedits : nanoEdits 0 p₁ = some p₁ := by simp [nanoEdits, nanoEOp, zero_bits]
    have hcount : counterPairOp l 0 d₂ = d₂ := by simp [counterPairOp, nanoCEn, zero_bit]
    have hme : nanoMeEn 0 = false := zero_bit 381
    rw [nanoRun, hdata]
    dsimp only
    rw [hissue, hget d p₁]
    dsimp only
    rw [hedits]
    dsimp only
    rw [hcount, hme, if_neg Bool.false_ne_true, hrow, onPkt_some (hget d₁ p₁)]
  have hother : ∀ (e : Dev) (q : Pkt) (l' : PktRef), l' ≠ l → l.f < 32 → l'.f < 32 → getPkt (putPkt e l q) l' = getPkt e l' :=
    fun e q l' h hf hf' => getPkt_putPkt_other e q h hf hf'
  refine ⟨putPkt d₂ l (nanoWrites 0 p₁), nanoWrites 0 p₁, hrun, hget d₂ _, rfl, rfl, hframe'.trans hframe, hconds'.trans hconds,
    hride'.trans hride, fun g hg hw => (hfld g hg hw).trans (pcGet_congr hctx g), fun l' h hf hf' => ?_⟩
  exact (hother d₂ _ l' h hf hf').trans ((hother d₁ _ l' h hf hf').trans (hother d _ l' h hf hf'))

end Sys2Proof.Machine
end

section
/-!
PROOF. The end of a row-step (R38, R60, R62), the park slots (R49, R50) and the pass end of a packet that rides (R32, R46).
-/
namespace Sys2Proof.Machine

@[simp] theorem pcSet_rehashDrop (p : Pkt) (f : Fld) (v : Nat) : (pcSet p f v).rehashDrop = p.rehashDrop := rfl

/-! The end of a row-step below row 23 whose microword is not SAFE. -/

/-- PC.ret of a taken CALL-NEXT-ROW and PC.disposition of a taken RECIRC (R38). -/
def stageS (q : Pkt) (u : Nat) (taken : Bool) : Pkt :=
  let q := if uSeq u = 4 ∧ taken then pcSet q Pc.ret ((pcGet q Pc.upc + 1) % 1024) else q
  if uSeq u = 6 ∧ taken then pcSet q Pc.disposition 6 else q

theorem pcGet_stageS (q : Pkt) (u : Nat) (taken : Bool) {g : Fld} (hr : g.lo + g.w ≤ Pc.ret.lo ∨ Pc.ret.lo + Pc.ret.w ≤ g.lo)
    (hd : g.lo + g.w ≤ Pc.disposition.lo ∨ Pc.disposition.lo + Pc.disposition.w ≤ g.lo) (hg : g.lo + g.w ≤ 2048) :
    pcGet (stageS q u taken) g = pcGet q g := by
  have h : ∀ {f : Fld} {c : Prop} [Decidable c] (x : Pkt) (v : Nat), g.lo + g.w ≤ f.lo ∨ f.lo + f.w ≤ g.lo →
      pcGet (if c then pcSet x f v else x) g = pcGet x g := by
    intro f c _ x v hf
    split
    · exact pcGet_pcSet_other _ _ hf hg
    · rfl
  exact (h _ _ hd).trans (h _ _ hr)

theorem stageS_goes {q : Pkt} {u : Nat} {taken : Bool} (h : taken = true → uSeq u ≠ 4 ∧ uSeq u ≠ 6) : stageS q u taken = q := by
  cases taken with
  | false => simp [stageS]
  | true => simp [stageS, h rfl]

section
variable {d : Dev} {l : PktRef} {q : Pkt} {r u next : Nat} {taken : Bool}
  (hsafe : uSafe u = false) (hsteps : pcGet q Pc.safeSteps < 48) (hr : r < 23)
include hsafe hsteps hr

theorem rowFinish_unsafe : rowFinish d l q r u next taken = putPkt d l
    (if (uSeq u = 5 ∨ uSeq u = 6) ∧ taken then { goesOn (stageS q u taken) r next with ride := some (next, false) }
      else goesOn (stageS q u taken) r next) := by
  have hs : pcGet (stageS q u taken) Pc.safeSteps = pcGet q Pc.safeSteps := pcGet_stageS q u taken (by decide) (by decide) (by decide)
  have h48 : ¬ 48 < pcGet (stageS q u taken) Pc.safeSteps + 1 := by omega
  have h23 : ¬ r = 23 := by omega
  have hr' : ¬ 23 ≤ r := by omega
  rw [rowFinish, ← stageS]
  simp only [hsafe, Bool.false_eq_true, if_false, h48, h23, or_false, Bool.false_and, rideOn, hr', goesOn]
  split <;> rfl

theorem rowFinish_goesOn (h : taken = true → uSeq u ≠ 4 ∧ uSeq u ≠ 5 ∧ uSeq u ≠ 6) :
    rowFinish d l q r u next taken = putPkt d l (goesOn q r next) := by
  have hno : ¬ ((uSeq u = 5 ∨ uSeq u = 6) ∧ taken = true) := fun ⟨h56, ht⟩ => h56.elim (h ht).2.1 (h ht).2.2
  rw [rowFinish_unsafe hsafe hsteps hr, if_neg hno, stageS_goes fun ht => ⟨(h ht).1, (h ht).2.2⟩]

end

/-- No request's drop depends on what the end of a row-step writes. -/
theorem quiesceDrop_congr {d : Dev} {l : PktRef} {p x : Pkt} (hh : pcGet x Pc.holding = pcGet p Pc.holding) (hd : x.rehashDrop = p.rehashDrop) :
    quiesceDrop d l x = quiesceDrop d l p := by
  rw [quiesceDrop, quiesceDrop, hh, hd]

theorem pcGet_stepped (p : Pkt) (next steps : Nat) {g : Fld} (h : g.lo + g.w ≤ 224 ∨ 256 ≤ g.lo) (hg : g.lo + g.w ≤ 2048) :
    pcGet (pcSet (pcSet p Pc.upc next) Pc.safeSteps steps) g = pcGet p g := by
  rw [pcGet_pcSet_other _ _ _ hg, pcGet_pcSet_other _ _ _ hg]
  · simp only [Pc.upc, ctxFld]
    omega
  · simp only [Pc.safeSteps, ctxFld]
    omega

/-- A SAFE microword that no request and no profile change meets (R60, R62). -/
theorem rowFinish_safe {d : Dev} {l : PktRef} {p : Pkt} {r u next : Nat} {taken : Bool} (hs : uSafe u = true)
    (hq : quiesceDrop d l p = none) (hp : profilePending d = false) (hr : r < 23) (hu : uSeq u < 4) :
    rowFinish d l p r u next taken = putPkt d l { pcSet (pcSet p Pc.upc next) Pc.safeSteps 0 with
      lastRow := r + 1, loc := .row (r + 1) false, safeHold := false, waitTaken := false } := by
  have hst : stageS p u taken = p := stageS_goes fun _ => ⟨by omega, by omega⟩
  have hno : ¬ (((uSeq u = 5 ∨ uSeq u = 6) ∧ taken = true) ∨ r = 23) := by omega
  obtain ⟨w, hw⟩ : ∃ w, w = pcSet (pcSet p Pc.upc next) Pc.safeSteps 0 := ⟨_, rfl⟩
  have hhold : pcGet w Pc.holding = pcGet p Pc.holding := hw ▸ pcGet_stepped p next 0 (by decide) (by decide)
  have hdrop : w.rehashDrop = p.rehashDrop := by rw [hw, pcSet_rehashDrop, pcSet_rehashDrop]
  have hx : quiesceDrop d l { w with lastRow := r + 1, loc := .row r false, waitTaken := false, safeHold := false } = none :=
    (quiesceDrop_congr hhold hdrop).trans hq
  rw [rowFinish, ← stageS]
  simp only [hst, hs, if_true, ← hw, hx, hp, Bool.and_false, Bool.false_eq_true, Nat.not_lt_zero, if_false, if_neg hno]

/-! The park slots. -/

theorem park_full {d : Dev} {l : PktRef} (p : Pkt) {r : Nat} (h : 64 ≤ parkedIn (getFur d l.a l.f) r) (c : Nat) (keep : Bool) :
    park d l p r c keep = furDrop d l { p with loc := .park r c } 0x41 := by
  rw [park]
  exact if_pos h

theorem park_room {d : Dev} {l : PktRef} (p : Pkt) {r : Nat} (h : parkedIn (getFur d l.a l.f) r < 64) (c : Nat) (keep : Bool) :
    ∃ k, getPkt (park d l p r c keep) l = some { p with loc := .park r c, waitTaken := false, parkSeq := k } ∧
      (park d l p r c keep).fab = d.fab := by
  let k := if keep then p.parkSeq else (getFur d l.a l.f).parkCtr
  let e := putPkt (putFur d l.a l.f { getFur d l.a l.f with parkCtr := (getFur d l.a l.f).parkCtr + 1 }) l
    { p with loc := .park r c, waitTaken := false, parkSeq := k }
  have hpark : park d l p r c keep = tdFrom e l.a l.f r 3 true := by
    rw [park]
    exact if_neg (by omega)
  obtain ⟨re, hre⟩ := tdFrom_shape e l.a l.f r 3 true
  rw [hpark, getPkt_congr_furs (tdFrom_furs ..), hre]
  exact ⟨k, getPkt_putPkt_same .., rfl⟩

end Sys2Proof.Machine
end

section
/-!
PROOF. The free store, captures and samples leave the furrows as they are (R230, R262 to R266).
-/
namespace Sys2Proof.Machine

theorem ite_furs {c : Prop} [Decidable c] {d x y : Dev} (hx : x.furs = d.furs) (hy : y.furs = d.furs) : (if c then x else y).furs = d.furs := by
  split
  · exact hx
  · exact hy

theorem foldl_furs {α : Type} {f : Dev → α → Dev} (h : ∀ d x, (f d x).furs = d.furs) (l : List α) (d : Dev) : (l.foldl f d).furs = d.furs := by
  induction l generalizing d with
  | nil => rfl
  | cons x t ih => exact (ih _).trans (h d x)

/-! The free store. -/

theorem ptrFault_furs (d : Dev) (m kind ptr master access : Nat) : (ptrFault d m kind ptr master access).furs = d.furs := by
  have hcls : (if kind = 0 then Fk.ptrEcc else if kind = 1 then Fk.ptrUncorrectable else if kind = 2 then Fk.ptrRange
      else if kind = 3 then Fk.ptrAlign else Fk.ptrDouble).cls ≠ 2 := by split_ifs <;> decide
  rw [ptrFault, raise_furs _ hcls]
  exact ite_furs ((wrF_furs ..).trans ((bumpN_furs ..).trans (wrFs_furs ..))) ((bumpN_furs ..).trans (wrFs_furs ..))


theorem ringPop_furs (d : Dev) (m b : Nat) : (ringPop d m b).2.furs = d.furs := by
  obtain ⟨e, he⟩ : ∃ e, e = setEcc (putBank d (24 * m + b) { getBank d (24 * m + b) with
    head := ((getBank d (24 * m + b)).head + 1) % bankSize b, count := (getBank d (24 * m + b)).count - 1 }) .freeRing
    ((24 * m + b) * 16384 + (getBank d (24 * m + b)).head) 0 := ⟨_, rfl⟩
  have hfurs : e.furs = d.furs := by rw [he, setEcc_furs, putBank_furs]
  simp only [ringPop, ← he]
  split
  · rfl
  · split
    · exact (wrF_furs ..).trans ((ptrFault_furs ..).trans hfurs)
    · split
      · exact (wrF_furs ..).trans ((ptrFault_furs ..).trans (ite_furs ((ptrFault_furs ..).trans hfurs) hfurs))
      · exact ite_furs ((ptrFault_furs ..).trans hfurs) hfurs

theorem ringPush_furs (d : Dev) (m b ptr : Nat) : (ringPush d m b ptr).furs = d.furs := by
  rw [ringPush, eccWrite_furs, putBank_furs]

theorem freeCacheWriteback_furs (m b : Nat) (d : Dev) : (freeCacheWriteback m b d).furs = d.furs := by
  rw [freeCacheWriteback]
  exact ite_furs rfl ((foldl_furs (fun d p => ringPush_furs d m b p) _ _).trans (putBank_furs ..))

theorem ringTake_furs (d : Dev) (m b n : Nat) : (ringTake d m b n).2.furs = d.furs := by
  induction n generalizing d with
  | zero => rfl
  | succ n ih =>
    have hpop := ringPop_furs d m b
    rw [ringTake]
    split
    · rename_i h
      rw [h] at hpop
      exact hpop
    · rename_i h
      rw [h] at hpop
      exact (ih _).trans hpop

theorem bankTake_furs (d : Dev) (m b : Nat) : (bankTake d m b).2.furs = d.furs := by
  rw [bankTake]
  split
  · exact putBank_furs ..
  · exact ringTake_furs ..

theorem cellTake_furs (d : Dev) (m : Nat) (bs : List Nat) : (cellTake d m bs).2.furs = d.furs := by
  induction bs generalizing d with
  | nil => rfl
  | cons b t ih =>
    have htake := bankTake_furs d m b
    rw [cellTake]
    split
    · rename_i h
      rw [h] at htake
      exact (wrF_furs ..).trans ((setAlloc_furs ..).trans htake)
    · rename_i h
      rw [h] at htake
      exact (ih _).trans htake

theorem cellFree_furs (d : Dev) (ptr : Nat) : (cellFree d ptr).furs = d.furs := by
  have hin := injectAt_furs d 9 (256 * 6 + bits ptr 26 2) 0
  simp only [cellFree]
  generalize (if (injectAt d 9 (256 * 6 + bits ptr 26 2) 0).1 = 0 then ptr else ptr + 1) = q
  split
  · exact (ptrFault_furs ..).trans hin
  · split
    · exact (ptrFault_furs ..).trans hin
    · rw [wrF_furs, putBank_furs, setAlloc_furs]
      exact ite_furs ((freeCacheWriteback_furs ..).trans hin) hin

theorem cellsTake_furs (d : Dev) (m n : Nat) : (cellsTake d m n).2.furs = d.furs := by
  induction n with
  | zero => rfl
  | succ n ih =>
    rw [cellsTake]
    split
    · rename_i h
      rw [h] at ih
      exact ih
    · rename_i l e h
      rw [h] at ih
      have htake := cellTake_furs e m ((List.range 24).map fun i => (n + i) % 24)
      split
      · rename_i h'
        rw [h'] at htake
        exact htake.trans ih
      · rename_i h'
        rw [h'] at htake
        exact (foldl_furs cellFree_furs _ _).trans (htake.trans ih)

/-! Captures and samples. -/

theorem poolCharge_furs (d : Dev) (m p n : Nat) : (poolCharge d m p n).furs = d.furs := by rw [poolCharge, setPoolUse, wr_furs]

theorem capCharge_furs (d : Dev) (a q : Nat) (fa : FabricSt) :
    ({ bump (poolCharge d a q 1) (Reg.QUEUE_CNT 11) with fab := fa } : Dev).furs = d.furs := by
  dsimp only
  rw [bump_furs, poolCharge_furs]

theorem capture_furs (d : Dev) (a r : Nat) (p : Pkt) (sampled mirrored : Bool) : (capture d a r p sampled mirrored).furs = d.furs := by
  have hlost : ∀ e : Dev, e.furs = d.furs → (bumpSat e (Reg.CAP_RING r 4) Reg.CAP_RING_LOST 1).furs = d.furs :=
    fun e he => (bumpSat_furs ..).trans he
  rw [capture]
  refine ite_furs rfl (ite_furs (bumpSat_furs ..) ?_)
  have hrec := ite_furs (c := (flagF d Reg.CAPTURE_POOL Reg.CAPTURE_POOL_VALID &&
    llNamed d (rdF d Reg.CAPTURE_POOL Reg.CAPTURE_POOL_POOL)) = true)
    (recordConflict_furs d 2 (rdF d Reg.CAPTURE_POOL Reg.CAPTURE_POOL_POOL) 0x02 0x05 2) rfl
  refine ite_furs (hlost _ hrec) ?_
  split
  · exact hlost _ hrec
  · rename_i q _
    have htake := (cellsTake_furs (if (flagF d Reg.CAPTURE_POOL Reg.CAPTURE_POOL_VALID &&
      llNamed d (rdF d Reg.CAPTURE_POOL Reg.CAPTURE_POOL_POOL)) = true then
        recordConflict d 2 (rdF d Reg.CAPTURE_POOL Reg.CAPTURE_POOL_POOL) 0x02 0x05 2 else d) a 1).trans hrec
    split
    · rename_i h
      rw [h] at htake
      exact (capCharge_furs ..).trans htake
    · rename_i _ h
      rw [h] at htake
      exact hlost _ htake

theorem sampleMirror_furs (d : Dev) (l : PktRef) (p : Pkt) : (sampleMirror d l p).1.furs = d.furs := by
  have hcap : ∀ (c : Bool) (e : Dev) (r : Nat) (x y : Bool), e.furs = d.furs → (if c then capture e l.a r p x y else e).furs = d.furs :=
    fun c e r x y he => ite_furs ((capture_furs ..).trans he) he
  have hcopy : ∀ (c c' : Bool) (e : Dev) (o : Nat) (q q' q'' : Pkt), e.furs = d.furs →
      (if c then (if c' then (e, q) else (bump e o, q')) else (e, q'')).1.furs = d.furs := by
    intro c c' e o q q' q'' he
    cases c with
    | false => exact he
    | true => cases c' with
      | false => exact (bump_furs ..).trans he
      | true => exact he
  rw [sampleMirror]
  exact hcopy _ _ _ _ _ _ _ (hcap _ _ _ _ _ (hcap _ _ _ _ _ (ite_furs (bump_furs ..) rfl)))

theorem rotDrop_furs (d : Dev) (l : PktRef) (p : Pkt) : (rotDrop d l p).furs = (freeSlot d l).furs := by
  rw [rotDrop, releaseFrame_furs, tdWaste_furs]
  exact freeSlot_furs_congr (bumpN_furs ..) l

end Sys2Proof.Machine
end

section
/-!
PROOF. The statement of the row-step: the operations of a microword, the ride to a pass end and what stops a packet in its row.
-/
namespace Sys2Proof.Machine

/-! A packet that rides (R32, R46). -/

theorem pcSet_ctx_congr {p q : Pkt} (h : q.ctx = p.ctx) (f : Fld) (v : Nat) : (pcSet q f v).ctx = (pcSet p f v).ctx := by
  rw [pcSet, pcSet, h]

section
variable {d : Dev} {l : PktRef} {p : Pkt} {r start : Nat} {safe : Bool}

theorem rowStep_ride (hp : getPkt d l = some p) (hloc : p.loc = .row r false) (hride : p.ride = some (start, safe)) (hn : NoFlights d l) :
    rowStep l 0 d = rideOn d l { p with lastRow := r + 1 } r start safe := by
  rw [rowStep, hp]
  dsimp only
  split
  · rename_i r' woken' hloc'
    obtain ⟨rfl, rfl⟩ := Loc.row.inj (hloc'.symm.trans hloc)
    split
    · rename_i start' safe' hride'
      obtain ⟨rfl, rfl⟩ := Prod.mk.inj (Option.some.inj (hride'.symm.trans hride))
      rw [if_pos rfl, landThen_noFlights hn hp]
    · rename_i hride'
      exact nomatch hride'.symm.trans hride
  · exact absurd hloc (by rename_i h; exact h r false)

/-- A packet whose disposition is DROP leaves its slot at its pass end (R107). -/
theorem passEnd_drop (hd : pcGet p Pc.disposition = 5) (hq : quiesceDrop d l p = none) :
    (passEnd d l p start safe).furs = (freeSlot d l).furs := by
  obtain ⟨x, hx⟩ : ∃ x : Pkt, x = { p with lastRow := 24, loc := .exitHold, ride := none } := ⟨_, rfl⟩
  have hctx : x.ctx = p.ctx := by rw [hx]
  have hmark : x.rehashDrop = p.rehashDrop := by rw [hx]
  have hdx : pcGet x Pc.disposition = 5 := (pcGet_congr hctx _).trans hd
  have hqx : quiesceDrop d l x = none := (quiesceDrop_congr (pcGet_congr hctx _) hmark).trans hq
  have hfurs := sampleMirror_furs d l (pcSet x Pc.safeSteps 0)
  rcases hs : sampleMirror d l (pcSet x Pc.safeSteps 0) with ⟨e, y⟩
  rw [hs] at hfurs
  have hend : passEnd d l p start safe = rotDrop e l y := by
    rw [passEnd, ← hx, if_neg (by rw [hdx]; decide), hqx, hs]
    exact (if_neg (by rw [hdx]; decide)).trans (if_pos hdx)
  rw [hend, rotDrop_furs]
  exact freeSlot_furs_congr hfurs l

/-- A packet whose disposition is RECIRCULATE joins the return queue, one pass on (R46). -/
theorem passEnd_recirculate (hd : pcGet p Pc.disposition = 6) (hpass : pcGet p Pc.pass < 3) (hroom : (getFur d l.a l.f).returnQ.length < 64) :
    ∃ q, passEnd d l p start safe = putPkt (putFur d l.a l.f { getFur d l.a l.f with returnQ := (getFur d l.a l.f).returnQ ++ [l.slot] }) l q ∧
      q.loc = .returning ∧ q.ctx = (pcSet (pcSet p Pc.pass (pcGet p Pc.pass + 1)) Pc.upc start).ctx := by
  obtain ⟨x, hx⟩ : ∃ x : Pkt, x = { p with lastRow := 24, loc := .exitHold, ride := none } := ⟨_, rfl⟩
  have hctx : x.ctx = p.ctx := by rw [hx]
  have hdx : pcGet x Pc.disposition = 6 := (pcGet_congr hctx _).trans hd
  have hpx : pcGet x Pc.pass = pcGet p Pc.pass := pcGet_congr hctx _
  have hpass' : ¬ pcGet p Pc.pass = 3 := by omega
  have hroom' : ¬ 64 ≤ (getFur d l.a l.f).returnQ.length := by omega
  obtain ⟨w, hw⟩ : ∃ w, w = pcSet (pcSet x Pc.pass (pcGet p Pc.pass + 1)) Pc.upc start := ⟨_, rfl⟩
  have hwctx : w.ctx = (pcSet (pcSet p Pc.pass (pcGet p Pc.pass + 1)) Pc.upc start).ctx := by
    rw [hw]
    exact pcSet_ctx_congr (pcSet_ctx_congr hctx ..) ..
  refine ⟨{ w with safeHold := safe && profilePending d, lastRow := 0, loc := .returning }, ?_, rfl, hwctx⟩
  rw [passEnd, ← hx, hpx, ← hw, if_pos (.inl hdx), if_neg hpass', if_neg (by rw [hdx]; decide), if_neg hroom']

end

theorem pcGet_recirculated (p : Pkt) (start : Nat) :
    let q := pcSet (pcSet p Pc.pass (pcGet p Pc.pass + 1)) Pc.upc start
    (pcGet p Pc.pass < 3 → pcGet q Pc.pass = pcGet p Pc.pass + 1) ∧ pcGet q Pc.upc = start % 1024 ∧ pcGet q Pc.epoch = pcGet p Pc.epoch ∧
      pcGet q Pc.entryTime = pcGet p Pc.entryTime := by
  refine ⟨fun h => ?_, ?_, ?_, ?_⟩
  · rw [pcGet_pcSet_other _ _ (by decide) (by decide), pcGet_pcSet_same _ _ _ (by decide)]
    exact Nat.mod_eq_of_lt (by simp only [Pc.pass, ctxFld] at h ⊢; omega)
  · exact pcGet_pcSet_same _ _ _ (by decide)
  · rw [pcGet_pcSet_other _ _ (by decide) (by decide), pcGet_pcSet_other _ _ (by decide) (by decide)]
  · rw [pcGet_pcSet_other _ _ (by decide) (by decide), pcGet_pcSet_other _ _ (by decide) (by decide)]

/-! The nanoword of a packet's microword. -/

section
variable {d d' : Dev} {l : PktRef} {p q : Pkt} {r u imm : Nat} {taken : Bool}

theorem rowNano_runs (h : NanoRuns d l p r u imm d' q) (hi : imm = if uSeq u = 2 ∨ uSeq u = 7 then 0 else uImm u) :
    rowNano d l p r u taken = rowFinish d' l q r u (nextUpc p u taken) taken := by
  obtain ⟨hecc, hbad, hrun, hq⟩ := h
  subst hi
  rw [rowNano, nanoRead_clean hecc]
  simp only [hbad, Bool.false_eq_true, if_false, hrun, hq]

theorem rowNano_reserved (hecc : ecc d .nano (nanoKey (storeCopy d l.a l.f) (pcGet p Pc.epoch) r (uNano u)) = 0)
    (hbad : nanoBad p (nanoWord d (storeCopy d l.a l.f) (pcGet p Pc.epoch) r (uNano u)) = true) :
    rowNano d l p r u taken = trapDrop (bump d (Reg.FURROW_OPCNT l.a l.f 6)) l p r 0xE := by
  rw [rowNano, nanoRead_clean hecc]
  simp only [hbad, if_true]
  rfl

theorem rowMain_nano {woken : Bool} (h0 : uSeq u ≠ 0) (h7 : uSeq u = 7 → taken = false) (h3 : uSeq u = 3 → taken = true) :
    rowMain d l p r u woken taken = rowNano d l p r u taken := by
  have h7' : ¬ (uSeq u = 7 ∧ taken = true) := fun ⟨h, ht⟩ => by rw [h7 h] at ht; cases ht
  have h3' : ¬ (uSeq u = 3 ∧ ¬ taken = true) := fun ⟨h, ht⟩ => ht (h3 h)
  rw [rowMain, if_neg h0, if_neg h7', if_neg h3']

end

/-- The eight commands run the row-step of their operation. -/
theorem exec_rowStep {c : Instr} {l : PktRef} {k : Nat} (hc : (c, k) ∈ [(Instr.nop l, 0), (.next l, 1), (.branch l, 2), (.wait l, 3),
    (.callNextRow l, 4), (.exit l, 5), (.recirc l, 6), (.trap l, 7)]) (s : State) : exec c s = .next (commit s (rowStep l k s.dev)) := by
  simp only [List.mem_cons, List.not_mem_nil, or_false, Prod.mk.injEq] at hc
  rcases hc with ⟨rfl, rfl⟩ | ⟨rfl, rfl⟩ | ⟨rfl, rfl⟩ | ⟨rfl, rfl⟩ | ⟨rfl, rfl⟩ | ⟨rfl, rfl⟩ | ⟨rfl, rfl⟩ | ⟨rfl, rfl⟩ <;> rfl

/-- What a packet that completes in its row leaves with any nanoword. -/
theorem exec_nanoRuns {s : State} {c : Instr} {l : PktRef} {p q : Pkt} {r u : Nat} {d : Dev} {imm : Nat} {taken : Bool}
    (h : RowReady s.dev l p r u) (hrun : NanoRuns s.dev l p r u imm d q) (hi : imm = if uSeq u = 2 ∨ uSeq u = 7 then 0 else uImm u)
    (ht : taken = condTrue s.dev l p (uCond u)) (h0 : uSeq u ≠ 0) (h7 : uSeq u = 7 → taken = false) (h3 : uSeq u = 3 → taken = true)
    (hc : (c, uSeq u) ∈ [(Instr.nop l, 0), (.next l, 1), (.branch l, 2), (.wait l, 3), (.callNextRow l, 4), (.exit l, 5), (.recirc l, 6),
      (.trap l, 7)]) : exec c s = .next (commit s (rowFinish d l q r u (nextUpc p u taken) taken)) := by
  obtain ⟨woken, -, hrow⟩ := rowStep_ready h rfl ht
  rw [exec_rowStep hc, hrow, rowMain_nano h0 h7 h3, rowNano_runs hrun hi]

theorem nextUpc_target {p : Pkt} {u : Nat} {taken : Bool} (h : 4 ≤ uSeq u ∧ uSeq u ≤ 6) (ht : taken = true) :
    nextUpc p u taken = uTarget u := by
  have h2 : ¬ uSeq u = 2 := by omega
  have h456 : (uSeq u = 4 ∨ uSeq u = 5 ∨ uSeq u = 6) ∧ taken = true := ⟨by omega, ht⟩
  simp only [nextUpc, if_neg h2, if_pos h456]

theorem pcGet_ret_stageS (q : Pkt) (u : Nat) (taken : Bool) :
    pcGet (stageS q u taken) Pc.ret = if uSeq u = 4 ∧ taken = true then (pcGet q Pc.upc + 1) % 1024 else pcGet q Pc.ret := by
  have hdisp : ∀ x : Pkt, pcGet (if uSeq u = 6 ∧ taken = true then pcSet x Pc.disposition 6 else x) Pc.ret = pcGet x Pc.ret := by
    intro x
    split
    · exact pcGet_pcSet_other _ _ (by decide) (by decide)
    · rfl
  rw [stageS, hdisp]
  split
  · rw [pcGet_pcSet_same _ _ _ (by decide)]
    exact Nat.mod_mod ..
  · rfl

theorem pcGet_disposition_stageS (q : Pkt) (u : Nat) (taken : Bool) :
    pcGet (stageS q u taken) Pc.disposition = if uSeq u = 6 ∧ taken = true then 6 else pcGet q Pc.disposition := by
  rw [stageS]
  split
  · exact pcGet_pcSet_same _ _ _ (by decide)
  · split
    · exact pcGet_pcSet_other _ _ (by decide) (by decide)
    · rfl

theorem stageS_same (q : Pkt) (u : Nat) (taken : Bool) :
    (stageS q u taken).frame = q.frame ∧ (stageS q u taken).conds = q.conds ∧ (stageS q u taken).ride = q.ride := by
  have h : ∀ {c : Prop} [Decidable c] (x : Pkt) (f : Fld) (v : Nat),
      (if c then pcSet x f v else x).frame = x.frame ∧ (if c then pcSet x f v else x).conds = x.conds ∧
        (if c then pcSet x f v else x).ride = x.ride := by
    intro c _ x f v
    split
    · exact ⟨pcSet_frame .., pcSet_conds .., pcSet_ride ..⟩
    · exact ⟨rfl, rfl, rfl⟩
  rw [stageS]
  exact ⟨(h ..).1.trans (h ..).1, (h ..).2.1.trans (h ..).2.1, (h ..).2.2.trans (h ..).2.2⟩

/-- The next PC.upc fits its field. -/
theorem nextUpc_lt (p : Pkt) (u : Nat) (taken : Bool) : nextUpc p u taken < 1024 := by
  have htarget : uTarget u < 1024 := bits_lt u 13 10
  have hret : pcGet p Pc.ret < 1024 := pcGet_lt p Pc.ret
  simp only [nextUpc]
  split_ifs <;> omega

/-- The packet that a row-step below row 23 leaves, whose microword is not SAFE, and what it takes over from q. -/
theorem rowFinish_spec {e : Dev} {l : PktRef} {q : Pkt} {r u next : Nat} {taken : Bool} (hsafe : uSafe u = false)
    (hsteps : pcGet q Pc.safeSteps < 48) (hr : r < 23) (hnext : next < 1024) :
    ∃ x, rowFinish e l q r u next taken = putPkt e l x ∧ x.loc = .row (r + 1) false ∧ pcGet x Pc.upc = next ∧
      pcGet x Pc.safeSteps = pcGet q Pc.safeSteps + 1 ∧ x.frame = q.frame ∧ x.conds = q.conds ∧
      x.ride = (if (uSeq u = 5 ∨ uSeq u = 6) ∧ taken = true then some (next, false) else q.ride) ∧
      pcGet x Pc.ret = (if uSeq u = 4 ∧ taken = true then (pcGet q Pc.upc + 1) % 1024 else pcGet q Pc.ret) ∧
      pcGet x Pc.disposition = (if uSeq u = 6 ∧ taken = true then 6 else pcGet q Pc.disposition) := by
  obtain ⟨y, hy⟩ : ∃ y, y = stageS q u taken := ⟨_, rfl⟩
  have hsteps' : pcGet y Pc.safeSteps = pcGet q Pc.safeSteps := by
    rw [hy]
    exact pcGet_stageS q u taken (by decide) (by decide) (by decide)
  obtain ⟨hframe, hconds, hride⟩ : y.frame = q.frame ∧ y.conds = q.conds ∧ y.ride = q.ride := by
    rw [hy]
    exact stageS_same q u taken
  have hret : pcGet y Pc.ret = if uSeq u = 4 ∧ taken = true then (pcGet q Pc.upc + 1) % 1024 else pcGet q Pc.ret :=
    by rw [hy, pcGet_ret_stageS]
  have hdisp : pcGet y Pc.disposition = if uSeq u = 6 ∧ taken = true then 6 else pcGet q Pc.disposition :=
    by rw [hy, pcGet_disposition_stageS]
  obtain ⟨w, hw⟩ : ∃ w, w = pcSet (pcSet y Pc.upc next) Pc.safeSteps (pcGet y Pc.safeSteps + 1) := ⟨_, rfl⟩
  have hupc : pcGet w Pc.upc = next := by
    rw [hw, pcGet_pcSet_other _ _ (by decide) (by decide), pcGet_pcSet_same _ _ _ (by decide)]
    exact Nat.mod_eq_of_lt hnext
  have hst : pcGet w Pc.safeSteps = pcGet q Pc.safeSteps + 1 := by
    rw [hw, pcGet_pcSet_same _ _ _ (by decide), hsteps']
    refine Nat.mod_eq_of_lt ?_
    simp only [Pc.safeSteps, ctxFld] at hsteps ⊢
    omega
  have hret' : pcGet w Pc.ret = pcGet y Pc.ret := by
    rw [hw, pcGet_pcSet_other _ _ (by decide) (by decide), pcGet_pcSet_other _ _ (by decide) (by decide)]
  have hdisp' : pcGet w Pc.disposition = pcGet y Pc.disposition := by
    rw [hw, pcGet_pcSet_other _ _ (by decide) (by decide), pcGet_pcSet_other _ _ (by decide) (by decide)]
  obtain ⟨hframe', hconds', hride'⟩ : w.frame = q.frame ∧ w.conds = q.conds ∧ w.ride = q.ride := by
    rw [hw, pcSet_frame, pcSet_frame, pcSet_conds, pcSet_conds, pcSet_ride, pcSet_ride]
    exact ⟨hframe, hconds, hride⟩
  have hgo : goesOn y r next = { w with lastRow := r + 1, loc := .row (r + 1) false, safeHold := false, waitTaken := false } := by
    rw [goesOn, ← hw]
  rw [rowFinish_unsafe hsafe hsteps hr, ← hy, hgo]
  by_cases hc : (uSeq u = 5 ∨ uSeq u = 6) ∧ taken = true
  · rw [if_pos hc, if_pos hc]
    exact ⟨_, rfl, rfl, hupc, hst, hframe', hconds', rfl, hret'.trans hret, hdisp'.trans hdisp⟩
  · rw [if_neg hc, if_neg hc]
    exact ⟨_, rfl, rfl, hupc, hst, hframe', hconds', hride', hret'.trans hret, hdisp'.trans hdisp⟩

theorem nanoBad_zero (p : Pkt) : nanoBad p 0 = false := by
  simp [nanoBad, nanoAluOp, nanoMwEn, nanoRqKind, nanoMir, nanoLEn, nanoCEn, nanoEOp, zero_bits, zero_bit]

section
variable {s : State} {l : PktRef} {p : Pkt} {r u : Nat} {c : Instr} {taken : Bool} (h : RowReady s.dev l p r u)
  (hn : NoFlights s.dev l) (ht : taken = condTrue s.dev l p (uCond u))
  (hecc : ecc s.dev .nano (nanoKey (storeCopy s.dev l.a l.f) (pcGet p Pc.epoch) r (uNano u)) = 0)
  (hzero : nanoWord s.dev (storeCopy s.dev l.a l.f) (pcGet p Pc.epoch) r (uNano u) = 0)
  (hc : (c, uSeq u) ∈ [(Instr.nop l, 0), (.next l, 1), (.branch l, 2), (.wait l, 3), (.callNextRow l, 4), (.exit l, 5), (.recirc l, 6),
    (.trap l, 7)]) (h3 : uSeq u = 3 → taken = true) (h7 : uSeq u = 7 → taken = false)
include h hn ht hecc hzero hc h3 h7

/-- With a nanoword that asks for nothing, a command leaves the end of the row-step of a packet that stands as before. -/
theorem exec_nanoZero : ∃ e q, exec c s = .next (commit s (rowFinish e l q r u (nextUpc p u taken) taken)) ∧
    e.regs = s.dev.regs ∧ e.writes = s.dev.writes ∧ q.frame = p.frame ∧ q.conds = p.conds ∧ q.ride = p.ride ∧
    (∀ g : Fld, g.lo + g.w ≤ 64 * 3 ∨ 64 * 3 + 16 ≤ g.lo → g.lo + g.w ≤ 2048 → pcGet q g = pcGet p g) ∧
    ∀ l', l' ≠ l → l.f < 32 → l'.f < 32 → getPkt e l' = getPkt s.dev l' := by
  have hp : getPkt s.dev l = some p := h.1
  by_cases h0 : uSeq u = 0
  · obtain ⟨woken, -, hrow⟩ := rowStep_ready h rfl ht
    refine ⟨s.dev, p, ?_, rfl, rfl, rfl, rfl, rfl, fun _ _ _ => rfl, fun _ _ _ _ => rfl⟩
    rw [exec_rowStep hc, hrow, rowMain, if_pos h0, landThen_noFlights hn hp]
  · obtain ⟨e, q, hrun, hq, hregs, hwrites, hframe, hconds, hride, hfld, hother⟩ :=
      nanoRun_zero hp hn (if uSeq u = 2 ∨ uSeq u = 7 then 0 else uImm u)
    refine ⟨e, q, exec_nanoRuns h ⟨hecc, ?_, ?_, hq⟩ rfl ht h0 h7 h3 hc, hregs, hwrites, hframe, hconds, hride, hfld, hother⟩
    · rw [hzero]
      exact nanoBad_zero p
    · rw [hzero]
      exact hrun

theorem exec_nanoZero_spec (hr : r < 23) (hsafe : uSafe u = false) (hsteps : pcGet p Pc.safeSteps < 48) :
    ∃ t q, exec c s = .next t ∧ getPkt t.dev l = some q ∧ q.loc = .row (r + 1) false ∧ pcGet q Pc.upc = nextUpc p u taken ∧
      pcGet q Pc.safeSteps = pcGet p Pc.safeSteps + 1 ∧ q.frame = p.frame ∧ q.conds = p.conds ∧
      (q.ride = if (uSeq u = 5 ∨ uSeq u = 6) ∧ taken = true then some (uTarget u, false) else none) ∧
      pcGet q Pc.ret = (if uSeq u = 4 ∧ taken = true then (pcGet p Pc.upc + 1) % 1024 else pcGet p Pc.ret) ∧
      pcGet q Pc.disposition = (if uSeq u = 6 ∧ taken = true then 6 else pcGet p Pc.disposition) ∧
      t.dev.regs = s.dev.regs ∧ (s.dev.writes = [] → t.mem = s.mem) ∧
      ∀ l', l' ≠ l → l.f < 32 → l'.f < 32 → getPkt t.dev l' = getPkt s.dev l' := by
  obtain ⟨e, q, hexec, hregs, hwrites, hframe, hconds, hride, hfld, hother⟩ := exec_nanoZero h hn ht hecc hzero hc h3 h7
  have hq := fun (g : Fld) hg hin => hfld g (.inr hg) hin
  have hst : pcGet q Pc.safeSteps = pcGet p Pc.safeSteps := hq _ (by decide) (by decide)
  have hupc : pcGet q Pc.upc = pcGet p Pc.upc := hq _ (by decide) (by decide)
  have hret : pcGet q Pc.ret = pcGet p Pc.ret := hq _ (by decide) (by decide)
  have hdisp : pcGet q Pc.disposition = pcGet p Pc.disposition := hfld _ (.inl (by decide)) (by decide)
  obtain ⟨x, hx, hloc, hxupc, hxst, hxframe, hxconds, hxride, hxret, hxdisp⟩ :=
    rowFinish_spec (e := e) (l := l) (q := q) (taken := taken) hsafe (by rw [hst]; exact hsteps) hr (nextUpc_lt p u taken)
  rw [hx] at hexec
  refine ⟨_, x, hexec, (getPkt_commit ..).trans (getPkt_putPkt_same ..), hloc, hxupc, by rw [hxst, hst], hxframe.trans hframe,
    hxconds.trans hconds, ?_, by rw [hxret, hupc, hret], by rw [hxdisp, hdisp], hregs, fun hw => ?_, fun l' hl hf hf' => ?_⟩
  · rw [hxride, hride, h.2.1]
    by_cases hc : (uSeq u = 5 ∨ uSeq u = 6) ∧ taken = true
    · rw [if_pos hc, if_pos hc, nextUpc_target (by omega) hc.2]
    · rw [if_neg hc, if_neg hc]
  · exact commit_mem_nil s (hwrites.trans hw)
  · rw [getPkt_commit, getPkt_putPkt_other e x hl hf hf']
    exact hother l' hl hf hf'

end

/-! A packet that rides, and one that its row stops. -/

section
variable {s : State} {l : PktRef} {p : Pkt} {r start : Nat} {safe : Bool} (hp : getPkt s.dev l = some p) (hloc : p.loc = .row r false)
  (hride : p.ride = some (start, safe)) (hn : NoFlights s.dev l)
include hp hloc hride hn

theorem exec_ride : exec (.nop l) s = .next (commit s (rideOn s.dev l { p with lastRow := r + 1 } r start safe)) := by
  have he : exec (.nop l) s = .next (commit s (rowStep l 0 s.dev)) := rfl
  rw [he, rowStep_ride hp hloc hride hn]

theorem exec_ride_on (hr : r < 23) : ∃ t, exec (.nop l) s = .next t ∧
    getPkt t.dev l = some { p with lastRow := r + 1, loc := .row (r + 1) false } ∧ t.dev.regs = s.dev.regs := by
  have hride' : rideOn s.dev l { p with lastRow := r + 1 } r start safe = putPkt s.dev l { p with lastRow := r + 1, loc := .row (r + 1) false } := by
    rw [rideOn, if_neg (by omega), ← hride]
  rw [exec_ride hp hloc hride hn, hride']
  exact ⟨_, rfl, (getPkt_commit ..).trans (getPkt_putPkt_same ..), rfl⟩

theorem exec_ride_drop (hr : r = 23) (hd : pcGet p Pc.disposition = 5) (hq : quiesceDrop s.dev l p = none) :
    ∃ t, exec (.nop l) s = .next t ∧ getPkt t.dev l = none ∧
      spGet (fun _ => 0) (getFur t.dev l.a l.f).gens l.slot = (spGet (fun _ => 0) (getFur s.dev l.a l.f).gens l.slot + 1) % 16 := by
  obtain ⟨x, hx⟩ : ∃ x : Pkt, x = { p with lastRow := r + 1 } := ⟨_, rfl⟩
  have hctx : x.ctx = p.ctx := by rw [hx]
  have hmark : x.rehashDrop = p.rehashDrop := by rw [hx]
  have hfurs : (rideOn s.dev l x r start safe).furs = (freeSlot s.dev l).furs := by
    rw [rideOn, if_pos (by omega)]
    exact passEnd_drop ((pcGet_congr hctx _).trans hd) ((quiesceDrop_congr (pcGet_congr hctx _) hmark).trans hq)
  have hexec := exec_ride hp hloc hride hn
  rw [← hx] at hexec
  refine ⟨_, hexec, ?_, ?_⟩
  · rw [getPkt_commit, getPkt_congr_furs hfurs, getPkt_freeSlot]
  · rw [getFur_commit, getFur_congr hfurs, gens_freeSlot]

theorem exec_ride_recirculate (hr : r = 23) (hd : pcGet p Pc.disposition = 6) (hpass : pcGet p Pc.pass < 3)
    (hroom : (getFur s.dev l.a l.f).returnQ.length < 64) : ∃ t q, exec (.nop l) s = .next t ∧ getPkt t.dev l = some q ∧ q.loc = .returning ∧
      pcGet q Pc.pass = pcGet p Pc.pass + 1 ∧ pcGet q Pc.upc = start % 1024 ∧ pcGet q Pc.epoch = pcGet p Pc.epoch ∧
      pcGet q Pc.entryTime = pcGet p Pc.entryTime ∧ (getFur t.dev l.a l.f).returnQ = (getFur s.dev l.a l.f).returnQ ++ [l.slot] ∧
      t.dev.regs = s.dev.regs := by
  obtain ⟨x, hx⟩ : ∃ x : Pkt, x = { p with lastRow := r + 1 } := ⟨_, rfl⟩
  have hctx : x.ctx = p.ctx := by rw [hx]
  have hsame : ∀ g, pcGet x g = pcGet p g := pcGet_congr hctx
  obtain ⟨q, hend, hq, hqctx⟩ := passEnd_recirculate (d := s.dev) (l := l) (p := x) (start := start) (safe := safe) ((hsame _).trans hd)
    (by rw [hsame]; exact hpass) hroom
  obtain ⟨hpass', hupc, hepoch, hentry⟩ := pcGet_recirculated x start
  have hexec := exec_ride hp hloc hride hn
  rw [← hx, rideOn, if_pos (by omega), hend] at hexec
  refine ⟨_, q, hexec, (getPkt_commit ..).trans (getPkt_putPkt_same ..), hq, ?_, ?_, ?_, ?_, ?_, rfl⟩
  · rw [pcGet_congr hqctx, hpass' (by rw [hsame]; exact hpass), hsame]
  · rw [pcGet_congr hqctx, hupc]
  · rw [pcGet_congr hqctx, hepoch, hsame]
  · rw [pcGet_congr hqctx, hentry, hsame]
  · rw [getFur_commit, getFur_putPkt_same, getFur_putFur_same]
    rfl

end

section
variable {s : State} {l : PktRef} {p : Pkt} {r u : Nat} (h : RowReady s.dev l p r u)
include h

theorem exec_wait_parks (hs : uSeq u = 3) (hc : condTrue s.dev l p (uCond u) = false) :
    ∃ woken, exec (.wait l) s = .next (commit s (park s.dev l p r (uCond u) woken)) := by
  obtain ⟨woken, -, hrow⟩ := rowStep_ready h hs rfl
  have he : exec (.wait l) s = .next (commit s (rowStep l 3 s.dev)) := rfl
  refine ⟨woken, ?_⟩
  rw [he, hrow, rowMain, if_neg (by omega), if_neg (by omega), if_pos ⟨hs, by rw [hc]; exact Bool.false_ne_true⟩]

theorem exec_trap_taken (hs : uSeq u = 7) (hc : condTrue s.dev l p (uCond u) = true) :
    exec (.trap l) s = .next (commit s (trapDrop s.dev l p r (uImm u))) := by
  obtain ⟨woken, -, hrow⟩ := rowStep_ready h hs rfl
  have he : exec (.trap l) s = .next (commit s (rowStep l 7 s.dev)) := rfl
  rw [he, hrow, rowMain, if_neg (by omega), if_pos ⟨hs, hc⟩]

theorem exec_next_reserved (hs : uSeq u = 1) (hecc : ecc s.dev .nano (nanoKey (storeCopy s.dev l.a l.f) (pcGet p Pc.epoch) r (uNano u)) = 0)
    (hbad : nanoBad p (nanoWord s.dev (storeCopy s.dev l.a l.f) (pcGet p Pc.epoch) r (uNano u)) = true) :
    exec (.next l) s = .next (commit s (trapDrop (bump s.dev (Reg.FURROW_OPCNT l.a l.f 6)) l p r 0xE)) := by
  obtain ⟨woken, -, hrow⟩ := rowStep_ready h hs rfl
  have he : exec (.next l) s = .next (commit s (rowStep l 1 s.dev)) := rfl
  rw [he, hrow, rowMain_nano (by omega) (by omega) (by omega), rowNano_reserved hecc hbad]

end

end Sys2Proof.Machine

namespace Sys2Proof
open Machine

/-- Settles O52: the row-step runs through the microword of a packet that may run it; its end, its parking, its drops and the ride to a
pass end are the lemmas above. -/
theorem rowSteps : Obligations.RowSteps := by
  unfold Obligations.RowSteps
  refine ⟨?upc, ?zero, ?nop, ?nano, ?ride, fun d l p r u next taken hs hq hp hr hu => rowFinish_safe hs hq hp hr hu, ?wait, ?waitTaken,
    ?trap, ?reserved, ?uncorrectable⟩
  case upc =>
    intro p u taken
    rw [nextUpc]
    cases taken <;> simp
  case zero =>
    intro s l p r u c taken h hr hsafe hsteps ht hn hecc hzero hc h3 h7
    exact exec_nanoZero_spec h hn ht hecc hzero hc h3 h7 hr hsafe hsteps
  case nop =>
    intro s l p r u d q h hland hq hr hsafe hsteps hs
    obtain ⟨woken, -, hrow⟩ := rowStep_ready h hs rfl
    have he : exec (.nop l) s = .next (commit s (rowStep l 0 s.dev)) := rfl
    have hnext : ∀ taken, nextUpc p u taken = nextUpc p u false := by
      intro taken
      simp [nextUpc, hs]
    rw [he, hrow, rowMain, if_pos hs, landThen, hland, hq, hnext]
    exact congrArg (Host.Outcome.next ∘ commit s) (rowFinish_goesOn hsafe hsteps hr fun _ => ⟨by omega, by omega, by omega⟩)
  case nano =>
    intro s l p r u d q imm taken c h hr hsafe hrun hi hsteps ht
    have hruns := fun {c : Instr} => exec_nanoRuns (c := c) h hrun hi ht
    refine ⟨fun hc => ?goes, fun hs htk => ?call, fun hs htk => ?exit, fun hs htk => ?recirc⟩
    case goes =>
      have hgo : ∀ k, uSeq u = k → (c, k) ∈ [(Instr.nop l, 0), (.next l, 1), (.branch l, 2), (.wait l, 3), (.callNextRow l, 4), (.exit l, 5),
          (.recirc l, 6), (.trap l, 7)] → k ≠ 0 → (k = 3 → taken = true) → (4 ≤ k → taken = false) →
          exec c s = .next (commit s (putPkt d l (goesOn q r (nextUpc p u taken)))) := by
        rintro k rfl hc h0 h3 h4
        rw [hruns h0 (fun h => h4 (by omega)) h3 hc, rowFinish_goesOn hsafe hsteps hr fun htk => ?_]
        have hlt : ¬ 4 ≤ uSeq u := fun h => Bool.noConfusion ((h4 h).symm.trans htk)
        omega
      simp only [List.mem_cons, List.not_mem_nil, or_false, Prod.mk.injEq] at hc hgo
      rcases hc with hc | ⟨⟨rfl, hs⟩, htk⟩ | ⟨hc, htk⟩
      · rcases hc with ⟨rfl, hs⟩ | ⟨rfl, hs⟩ <;> exact hgo _ hs (by simp) (by decide) (by simp) (by simp)
      · exact hgo _ hs (by simp) (by decide) (fun _ => htk) (by simp)
      · rcases hc with ⟨rfl, hs⟩ | ⟨rfl, hs⟩ | ⟨rfl, hs⟩ | ⟨rfl, hs⟩ <;> exact hgo _ hs (by simp) (by decide) (by simp) (fun _ => htk)
    case call =>
      rw [hruns (by omega) (by omega) (by omega) (by rw [hs]; simp), rowFinish_unsafe hsafe hsteps hr, nextUpc_target (by omega) htk]
      simp [hs, htk, stageS]
    case exit =>
      rw [hruns (by omega) (by omega) (by omega) (by rw [hs]; simp), rowFinish_unsafe hsafe hsteps hr, nextUpc_target (by omega) htk]
      simp [hs, htk, stageS]
    case recirc =>
      rw [hruns (by omega) (by omega) (by omega) (by rw [hs]; simp), rowFinish_unsafe hsafe hsteps hr, nextUpc_target (by omega) htk]
      simp [hs, htk, stageS]
  case ride =>
    intro s l p r start safe hp hloc hride hn
    exact ⟨exec_ride_on hp hloc hride hn, exec_ride_drop hp hloc hride hn, exec_ride_recirculate hp hloc hride hn⟩
  case wait =>
    intro s l p r u h hs hc
    obtain ⟨woken, hexec⟩ := exec_wait_parks h hs hc
    refine ⟨fun hroom => ?_, fun hfull => ?_⟩
    · obtain ⟨k, hpkt, hfab⟩ := park_room p hroom (uCond u) woken
      exact ⟨_, _, hexec, (getPkt_commit ..).trans hpkt, rfl, rfl, rfl, hfab⟩
    · rw [hexec, park_full p hfull]
  case waitTaken =>
    intro s l p r u d q hp hu hecc hloc hw hride hs hr hsafe hrun hsteps
    have he : exec (.wait l) s = .next (commit s (rowStep l (uSeq u) s.dev)) := by rw [hs]; rfl
    have hnext : nextUpc p u true = (pcGet p Pc.upc + 1) % 1024 := by simp [nextUpc, hs]
    rw [he, rowStep_main (taken := true) hp hloc hride hu hecc (fun h => by cases h) (by rw [hw, hs]; simp),
      rowMain_nano (by omega) (by omega) (fun _ => rfl), rowNano_runs hrun (by rw [if_neg (by omega)]), hnext,
      rowFinish_goesOn hsafe hsteps hr fun _ => ⟨by omega, by omega, by omega⟩]
  case trap =>
    intro s l p r u h hs hc
    rw [exec_trap_taken h hs hc, trapDrop, satAdd]
  case reserved =>
    intro s l p r u h hs hecc hbad
    exact exec_next_reserved h hs hecc hbad
  case uncorrectable =>
    intro s l p r hp hloc hride hs hecc
    obtain ⟨e, hrow⟩ := rowStep_uncorrectable hp hloc hride hecc
    have he : exec (.nop l) s = .next (commit s (rowStep l 0 s.dev)) := rfl
    rw [hs] at hrow
    exact ⟨_, he.trans (by rw [hrow]), (getPkt_commit ..).trans (getPkt_furDrop ..)⟩

end Sys2Proof
end

section
/-!
PROOF. The furrow's entry (R42, R47, R48, R54, R56, R60): one admission cycle, and the packet that it makes.
-/
namespace Sys2Proof.Machine

/-! What a domain and a free slot depend on. -/

theorem domainPkts_congr {x y : Furrow} (h : x.pkts = y.pkts) (dom : Nat) : domainPkts x dom = domainPkts y dom := by
  rw [domainPkts, domainPkts, furPkts, furPkts, h]

theorem freeCtxSlot_congr {x y : Furrow} (h : x.pkts = y.pkts) : freeCtxSlot x = freeCtxSlot y := by rw [freeCtxSlot, freeCtxSlot, h]

theorem freeCtxSlot_some {x : Furrow} {k : Nat} (h : freeCtxSlot x = some k) : k < 2048 ∧ spGet (fun _ => none) x.pkts k = none := by
  rw [freeCtxSlot, firstIdx] at h
  have hmem := List.mem_of_find?_eq_some h
  have hfree := List.find?_some h
  exact ⟨List.mem_range.mp hmem, Option.isNone_iff_eq_none.mp hfree⟩

theorem calendarStops_congr {d e : Dev} (h : ∀ o, 0x1500000 ≤ o → rd e o = rd d o) (hp : e.prog.header = d.prog.header) :
    calendarStops e = calendarStops d := by
  have hbank : rdF e Reg.PROG_EPOCH Reg.PROG_EPOCH_EPOCH = rdF d Reg.PROG_EPOCH Reg.PROG_EPOCH_EPOCH := rdF_congr (h _ (by decide)) _
  have hslot : activeSlot e = activeSlot d := activeSlot_congr (h _ (by decide))
  have hdesc : ∀ y w, rd e (Reg.TYPE_DESC (activeSlot d) y w) = rd d (Reg.TYPE_DESC (activeSlot d) y w) :=
    fun y w => h _ (by simp only [Reg.TYPE_DESC]; omega)
  have htype : ∀ y, typeOf e (activeSlot d) y = typeOf d (activeSlot d) y := fun y => by rw [typeOf, typeOf, hdesc, hdesc]
  have htypes : slotTypes e (activeSlot d) = slotTypes d (activeSlot d) := by
    rw [slotTypes, slotTypes]
    exact congrArg (List.filterMap · _) (funext htype)
  rw [calendarStops, calendarStops, hbank, hp, hslot, calendarId, calendarId, htypes]
  simp only [hdesc]

/-! The packet as first entry makes it. -/

/-- Two fields that share no bit. -/
abbrev Apart (g f : Fld) : Prop := g.lo + g.w ≤ f.lo ∨ f.lo + f.w ≤ g.lo

theorem pcGet_foldl_other {g : Fld} (hg : g.lo + g.w ≤ 2048) (l : List (Fld × Nat)) (h : ∀ f ∈ l.map Prod.fst, Apart g f) (p : Pkt) :
    pcGet (l.foldl (fun p e => pcSet p e.1 e.2) p) g = pcGet p g := by
  induction l generalizing p with
  | nil => rfl
  | cons e t ih =>
    rw [List.map_cons, List.forall_mem_cons] at h
    rw [List.foldl_cons, ih h.2, pcGet_pcSet_other _ _ h.1 hg]

/-- A field holds what the last write of it in a run of writes put there. -/
theorem pcGet_foldl_at {g : Fld} (hg : g.lo + g.w ≤ 2048) {l : List (Fld × Nat)} {i v : Nat} (hi : l[i]? = some (g, v))
    (h : ∀ f ∈ (l.map Prod.fst).drop (i + 1), Apart g f) (p : Pkt) :
    pcGet (l.foldl (fun p e => pcSet p e.1 e.2) p) g = v % 2 ^ g.w := by
  obtain ⟨hlt, hget⟩ := List.getElem?_eq_some_iff.mp hi
  have hsplit : l = l.take i ++ (g, v) :: l.drop (i + 1) := by
    rw [← hget, List.getElem_cons_drop, List.take_append_drop]
  rw [← List.map_drop] at h
  rw [hsplit, List.foldl_append, List.foldl_cons, pcGet_foldl_other hg _ h, pcGet_pcSet_same _ _ _ hg]

/-- The fields that first entry writes, in its order. -/
def entryFields : List Fld := [Pc.entryTime, Pc.domain, Pc.epoch, Pc.pass, Pc.upc, Pc.ret, Pc.safeSteps, Pc.egressQueue, Pc.mcastGroup,
  Pc.disposition, Pc.color, Pc.puntReason, Pc.dropReason, Pc.collectFault, ctxFld 12 0 1280]

theorem firstEntry_spec (d : Dev) (x : Furrow) (k : Nat) (p : Pkt) : (firstEntry d x k p).frame = p.frame ∧
    (firstEntry d x k p).loc = .row 0 false ∧ (firstEntry d x k p).edits = [] ∧ (firstEntry d x k p).rehashDrop = false ∧
    (firstEntry d x k p).seq = spGet (fun _ => 0) x.nextSeq (pcGet p Pc.flowHash % 4096) ∧
    pcGet (firstEntry d x k p) Pc.entryTime = d.time % 2 ^ 64 ∧ pcGet (firstEntry d x k p) Pc.flowHash = pcGet p Pc.flowHash ∧
    pcGet (firstEntry d x k p) Pc.domain = pcGet p Pc.flowHash % 4096 ∧
    pcGet (firstEntry d x k p) Pc.epoch = rdF d Reg.PROG_EPOCH Reg.PROG_EPOCH_EPOCH ∧ pcGet (firstEntry d x k p) Pc.pass = 0 ∧
    pcGet (firstEntry d x k p) Pc.upc = 0 ∧ pcGet (firstEntry d x k p) Pc.disposition = 0 := by
  obtain ⟨l, hl⟩ : ∃ l : List (Fld × Nat), l = [(Pc.entryTime, d.time), (Pc.domain, pcGet p Pc.flowHash % 4096),
    (Pc.epoch, rdF d Reg.PROG_EPOCH Reg.PROG_EPOCH_EPOCH), (Pc.pass, 0), (Pc.upc, 0), (Pc.ret, 0), (Pc.safeSteps, 0), (Pc.egressQueue, 0),
    (Pc.mcastGroup, 0), (Pc.disposition, 0), (Pc.color, 0), (Pc.puntReason, 0), (Pc.dropReason, 0), (Pc.collectFault, 0x1F),
    (ctxFld 12 0 1280, 0)] := ⟨_, rfl⟩
  have hfields : l.map Prod.fst = entryFields := by rw [hl]; rfl
  obtain ⟨w, hw⟩ : ∃ w, w = l.foldl (fun p e => pcSet p e.1 e.2) p := ⟨_, rfl⟩
  have hframe : w.frame = p.frame := by
    rw [hw]
    clear hl hfields hw
    induction l generalizing p with
    | nil => rfl
    | cons e t ih => rw [List.foldl_cons, ih, pcSet_frame]
  have hctx : (firstEntry d x k p).ctx = w.ctx := by rw [firstEntry, ← hl, ← hw]
  have hget : ∀ g, pcGet (firstEntry d x k p) g = pcGet w g := pcGet_congr hctx
  have hat : ∀ {i v : Nat} {g : Fld}, l[i]? = some (g, v) → g.lo + g.w ≤ 2048 → (∀ f ∈ entryFields.drop (i + 1), Apart g f) →
      pcGet (firstEntry d x k p) g = v % 2 ^ g.w := by
    intro i v g hi hg h
    rw [hget, hw]
    exact pcGet_foldl_at hg hi (hfields ▸ h) p
  refine ⟨?_, ?_, ?_, ?_, ?_, ?_, ?_, ?_, ?_, ?_, ?_, ?_⟩
  · rw [firstEntry, ← hl, ← hw, hframe]
  · rw [firstEntry]
  · rw [firstEntry]
  · rw [firstEntry]
  · rw [firstEntry]
  · exact hat (i := 0) (by rw [hl]; rfl) (by decide) (by decide)
  · rw [hget, hw]
    exact pcGet_foldl_other (by decide) l (hfields ▸ by decide) p
  · rw [hat (i := 1) (v := pcGet p Pc.flowHash % 4096) (by rw [hl]; rfl) (by decide) (by decide)]
    exact Nat.mod_mod ..
  · rw [hat (i := 2) (v := rdF d Reg.PROG_EPOCH Reg.PROG_EPOCH_EPOCH) (by rw [hl]; rfl) (by decide) (by decide)]
    exact Nat.mod_eq_of_lt (bits_lt ..)
  · exact hat (i := 3) (by rw [hl]; rfl) (by decide) (by decide)
  · exact hat (i := 4) (by rw [hl]; rfl) (by decide) (by decide)
  · exact hat (i := 9) (by rw [hl]; rfl) (by decide) (by decide)

end Sys2Proof.Machine
end

section
/-!
PROOF. One admission cycle of a furrow (R47): the return queue, the rehash hold's releases, new packets, and the drops before admission.
-/
namespace Sys2Proof.Machine

theorem flagF_congr {d e : Dev} {o : Nat} (h : rd e o = rd d o) (f : Fld) : flagF e o f = flagF d o f := by
  rw [flagF, flagF, rdF_congr h]

/-! What an admission cycle meets first. -/

/-- The cycle of an ACTIVE furrow with no FATAL fault, after its tick and its count (R47). -/
def entryTurn (a f : Nat) (x : Furrow) (d : Dev) : Dev :=
  match x.returnQ with
  | s :: t =>
    let d := putFur d a f { x with returnQ := t }
    let l : PktRef := ⟨a, f, s⟩
    match getPkt d l with
    | none => emptyCycle d a f 3
    | some p =>
      if p.safeHold && profilePending d then park d l { p with lastRow := 0 } 0 65 false
      else putPkt d l { p with lastRow := 0, loc := .row 0 false, safeHold := false }
  | [] =>
    if x.bubble then emptyCycle (putFur d a f { x with bubble := false }) a f 3
    else if profilePending d then
      emptyCycle d a f (if ((getAcre d a).released.find? fun e => e.1 = f).isSome ∨ x.entryQ ≠ [] then 3 else 2)
    else match (getAcre d a).released.find? fun e => e.1 = f with
      | some e =>
        let ac := getAcre d a
        let d := setHeld (putAcre d a { ac with released := ac.released.erase e }) a
        if calendarStops d then emptyCycle (entryDrop d a f e.2 0x4D) a f 3 else admitNew d a f e.2
      | none =>
        match x.entryQ with
        | [] => emptyCycle d a f (if (getAcre d a).rehashHold = [] then 2 else 3)
        | p :: t =>
          let d := putFur d a f { x with entryQ := t }
          if ¬ flagF d Reg.PROG_EPOCH Reg.PROG_EPOCH_ACTIVE_VALID ∨ calendarStops d then
            emptyCycle (entryDrop d a f p 0x4D) a f 3
          else admitNew d a f p

/-- The furrow and the device that the cycle begins with: the LFSR has stepped and the cycle is counted. -/
def ticked (x : Furrow) : Furrow := { x with lfsr := lfsrStep x.lfsr }
def entryDev (d : Dev) (a f : Nat) : Dev := bump (putFur d a f (ticked (getFur d a f))) (Reg.FURROW_CYCLES a f)

section
variable {d : Dev} {a f : Nat}

theorem furInject_idle (h : flagF d Reg.FAULT_INJECT Reg.FAULT_INJECT_PENDING = false) : furInject a f d = d := by
  rw [furInject, injectAt_idle h]
  simp only [if_true]
  rw [injectAt_idle h]
  rfl

theorem entryAdmit_turn (hr : roleOf d a f = 0) (hx : (getFur d a f).fatal = none)
    (hi : flagF d Reg.FAULT_INJECT Reg.FAULT_INJECT_PENDING = false) :
    entryAdmit a f d = entryTurn a f (ticked (getFur d a f)) (entryDev d a f) := by
  have hfatal : ¬ (getFur (furTick d a f) a f).fatal.isSome = true := by
    rw [furTick, getFur_putFur_same]
    simp [hx]
  have hrole : ¬ rdF (furTick d a f) (Reg.FURROW_ROLE a f) Reg.FURROW_ROLE_ROLE ≠ 0 := not_not.mpr hr
  rw [entryAdmit, furInject_idle hi, if_neg hrole, if_neg hfatal, furTick, getFur_putFur_same]
  rfl

theorem entryDev_furs : (entryDev d a f).furs = (putFur d a f (ticked (getFur d a f))).furs := bump_furs ..

theorem entryDev_time : (entryDev d a f).time = d.time := bump_time ..

theorem getPkt_entryDev (l : PktRef) : getPkt (entryDev d a f) l = getPkt d l :=
  (getPkt_congr_furs entryDev_furs l).trans (getPkt_putFur_pkts d (x := ticked (getFur d a f)) rfl l)

theorem rd_entryDev {o : Nat} (h : o ≠ Reg.FURROW_CYCLES a f) : rd (entryDev d a f) o = rd d o := rd_bump_other _ h

theorem rd_entryDev_high (ha : a < 4) (hf : f < 17) {o : Nat} (h : o < 0x1000000 ∨ 0x1500000 ≤ o) : rd (entryDev d a f) o = rd d o := by
  refine rd_entryDev ?_
  simp only [Reg.FURROW_CYCLES]
  omega

theorem getAcre_entryDev (b : Nat) : getAcre (entryDev d a f) b = getAcre d b := rfl

end

/-! A packet of the return queue. -/

theorem entryTurn_return {d : Dev} {a f k : Nat} {x : Furrow} {t : List Nat} {p : Pkt} (hq : x.returnQ = k :: t)
    (hx : x.pkts = (getFur d a f).pkts) (hp : getPkt d ⟨a, f, k⟩ = some p) (hs : p.safeHold = false) :
    entryTurn a f x d = putPkt (putFur d a f { x with returnQ := t }) ⟨a, f, k⟩ { p with lastRow := 0, loc := .row 0 false, safeHold := false } := by
  have hp' : getPkt (putFur d a f { x with returnQ := t }) ⟨a, f, k⟩ = some p :=
    (getPkt_putFur_pkts d (x := { x with returnQ := t }) hx _).trans hp
  rw [entryTurn, hq]
  dsimp only
  rw [hp']
  dsimp only
  rw [hs, Bool.false_and, if_neg Bool.false_ne_true]

/-! A packet of a later rank: the rehash hold's first release, else the head of the entry queue. -/

section
variable {d : Dev} {a f : Nat} {x : Furrow} (hret : x.returnQ = []) (hbub : x.bubble = false) (hprof : profilePending d = false)
include hret hbub hprof

theorem entryTurn_rank3 {e : Nat × Pkt} (hrel : (getAcre d a).released.find? (fun e => e.1 = f) = some e) : entryTurn a f x d =
    if calendarStops (setHeld (putAcre d a { getAcre d a with released := (getAcre d a).released.erase e }) a) = true
    then emptyCycle (entryDrop (setHeld (putAcre d a { getAcre d a with released := (getAcre d a).released.erase e }) a) a f e.2 0x4D) a f 3
    else admitNew (setHeld (putAcre d a { getAcre d a with released := (getAcre d a).released.erase e }) a) a f e.2 := by
  rw [entryTurn, hret]
  dsimp only
  rw [hbub, if_neg Bool.false_ne_true, hprof, if_neg Bool.false_ne_true, hrel]

theorem entryTurn_rank4 (hrel : (getAcre d a).released.find? (fun e => e.1 = f) = none) {p : Pkt} {t : List Pkt} (hq : x.entryQ = p :: t) :
    entryTurn a f x d = if ¬ flagF (putFur d a f { x with entryQ := t }) Reg.PROG_EPOCH Reg.PROG_EPOCH_ACTIVE_VALID = true ∨
        calendarStops (putFur d a f { x with entryQ := t }) = true
      then emptyCycle (entryDrop (putFur d a f { x with entryQ := t }) a f p 0x4D) a f 3
      else admitNew (putFur d a f { x with entryQ := t }) a f p := by
  cases x
  subst hret hbub hq
  rw [entryTurn]
  dsimp only
  rw [if_neg Bool.false_ne_true, hprof, if_neg Bool.false_ne_true, hrel]

end

/-! A new packet (R42, R54, R56, R60). -/

theorem contextCheck_idle {d : Dev} (h : flagF d Reg.FAULT_INJECT Reg.FAULT_INJECT_PENDING = false) (a f : Nat) : contextCheck d a f = d := by
  rw [contextCheck, injectAt_idle h]
  exact if_neg (show ¬ 0 = 2 by decide)

theorem emptyCycle_entryDrop_furs (d : Dev) (a f b g c code : Nat) (p : Pkt) : (emptyCycle (entryDrop d a f p code) b g c).furs = d.furs := by
  rw [emptyCycle, tdAll_furs, entryDrop, releaseFrame_furs]
  exact bump_furs ..

theorem admitNew_full {d : Dev} {a f : Nat} {p : Pkt} (h : 64 ≤ (domainPkts (getFur d a f) (pcGet p Pc.flowHash % 4096)).length) :
    (admitNew d a f p).furs = d.furs := by
  rw [admitNew, if_pos h]
  exact emptyCycle_entryDrop_furs ..

section
variable {d : Dev} {a f : Nat} {p : Pkt} (hi : flagF d Reg.FAULT_INJECT Reg.FAULT_INJECT_PENDING = false)
  (hb : flagF d Reg.HOST_HOLDING_STATUS Reg.HOST_HOLDING_STATUS_BUSY = false) (hiso : (getFur d a f).isolating = false)
  (hroom : (domainPkts (getFur d a f) (pcGet p Pc.flowHash % 4096)).length < 64) {k : Nat} (hk : freeCtxSlot (getFur d a f) = some k)
include hi hb hiso hroom hk

theorem admitNew_admits : ∃ v, admitNew d a f p = putPkt (putFur d a f { getFur d a f with nextSeq := v }) ⟨a, f, k⟩
    (firstEntry d (getFur d a f) k p) := by
  obtain ⟨q, hq⟩ : ∃ q, q = firstEntry d (getFur d a f) k p := ⟨_, rfl⟩
  have hdrop : q.rehashDrop = false := by
    rw [hq]
    exact (firstEntry_spec ..).2.2.2.1
  have hquiet : quiesceDrop d ⟨a, f, k⟩ q = none := by
    rw [quiesceDrop, hb, hiso, hdrop]
    simp
  rw [admitNew, if_neg (by omega), hk]
  dsimp only
  rw [← hq, hquiet]
  dsimp only
  rw [contextCheck_idle (d := putFur d a f _) hi]
  exact ⟨_, rfl⟩

end

/-! The cycle's new packet: from the entry queue, or from the rehash hold's releases. -/

section
variable {s : State} {a f : Nat} (ha : a < 4) (hf : f < 17) (hrole : roleOf s.dev a f = 0) (hfatal : (getFur s.dev a f).fatal = none)
  (hi : flagF s.dev Reg.FAULT_INJECT Reg.FAULT_INJECT_PENDING = false)
include ha hf hrole hfatal hi

omit ha hf in
theorem exec_entryAdmit : exec (.furrowEntryAdmit a f) s =
    .next (commit s (entryTurn a f (ticked (getFur s.dev a f)) (entryDev s.dev a f))) := by
  have he : exec (.furrowEntryAdmit a f) s = .next (commit s (entryAdmit a f s.dev)) := rfl
  rw [he, entryAdmit_turn hrole hfatal hi]

omit ha hf in
theorem exec_entryAdmit_return {k : Nat} {t : List Nat} {p : Pkt} (hq : (getFur s.dev a f).returnQ = k :: t)
    (hp : getPkt s.dev ⟨a, f, k⟩ = some p) (hs : p.safeHold = false) :
    ∃ t', exec (.furrowEntryAdmit a f) s = .next t' ∧ (getFur t'.dev a f).returnQ = t ∧
      getPkt t'.dev ⟨a, f, k⟩ = some { p with lastRow := 0, loc := .row 0 false, safeHold := false } ∧
      ∀ j, j ≠ k → getPkt t'.dev ⟨a, f, j⟩ = getPkt s.dev ⟨a, f, j⟩ := by
  have hpkts : (ticked (getFur s.dev a f)).pkts = (getFur (entryDev s.dev a f) a f).pkts := by
    rw [getFur_congr entryDev_furs, getFur_putFur_same]
  have hexec := exec_entryAdmit hrole hfatal hi
  rw [entryTurn_return (x := ticked (getFur s.dev a f)) hq hpkts ((getPkt_entryDev _).trans hp) hs] at hexec
  refine ⟨_, hexec, ?_, (getPkt_commit ..).trans (getPkt_putPkt_same ..), fun j hj => ?_⟩
  · rw [getFur_commit, getFur_putPkt_same, getFur_putFur_same]
    rfl
  · rw [getPkt_commit, getPkt_putPkt_slot _ _ hj, getPkt_putFur_pkts _ (x := { ticked (getFur s.dev a f) with returnQ := t }) hpkts,
      getPkt_entryDev]

/-- The device from which the head of the entry queue is admitted. -/
def newDev (d : Dev) (a f : Nat) (t : List Pkt) : Dev := putFur (entryDev d a f) a f { ticked (getFur d a f) with entryQ := t }

/-- The device from which a packet that the rehash hold has released is admitted. -/
def releasedDev (d : Dev) (a f : Nat) (e : Nat × Pkt) : Dev :=
  setHeld (putAcre (entryDev d a f) a { getAcre d a with released := (getAcre d a).released.erase e }) a

omit ha hf hrole hfatal hi in
theorem getFur_newDev (t : List Pkt) : getFur (newDev s.dev a f t) a f = { ticked (getFur s.dev a f) with entryQ := t } := getFur_putFur_same ..

omit hrole hfatal hi in
theorem rd_newDev (t : List Pkt) {o : Nat} (h : o < 0x1000000 ∨ 0x1500000 ≤ o) : rd (newDev s.dev a f t) o = rd s.dev o :=
  rd_entryDev_high ha hf h

omit hrole hfatal hi in
theorem calendarStops_newDev (t : List Pkt) : calendarStops (newDev s.dev a f t) = calendarStops s.dev :=
  calendarStops_congr (fun _ h => rd_newDev ha hf t (.inr h)) rfl

omit ha hf hrole hfatal hi in
theorem getFur_releasedDev (e : Nat × Pkt) : getFur (releasedDev s.dev a f e) a f = ticked (getFur s.dev a f) := by
  have hfurs : (releasedDev s.dev a f e).furs = (entryDev s.dev a f).furs := wrF_furs ..
  rw [getFur_congr hfurs, getFur_congr entryDev_furs, getFur_putFur_same]

omit hrole hfatal hi in
theorem rd_releasedDev (e : Nat × Pkt) {o : Nat} (h : o < 0x1000000 ∨ 0x1500000 ≤ o) : rd (releasedDev s.dev a f e) o = rd s.dev o := by
  refine (rd_wr_other _ _ ?_).trans (rd_entryDev_high ha hf h)
  simp only [Reg.REHASH_STATUS]
  omega

omit ha hf hrole hfatal hi in
theorem releasedDev_prog (e : Nat × Pkt) : (releasedDev s.dev a f e).prog = s.dev.prog := by
  have hentry : (entryDev s.dev a f).prog = s.dev.prog := bump_prog ..
  rw [releasedDev, setHeld, wrF_prog]
  exact hentry

omit hrole hfatal hi in
theorem calendarStops_releasedDev (e : Nat × Pkt) : calendarStops (releasedDev s.dev a f e) = calendarStops s.dev :=
  calendarStops_congr (fun _ h => rd_releasedDev ha hf e (.inr h)) (congrArg ProgSt.header (releasedDev_prog e))

section
variable (hret : (getFur s.dev a f).returnQ = []) (hbub : (getFur s.dev a f).bubble = false) (hprof : profilePending s.dev = false)
include hret hbub hprof

omit hrole hfatal hi in
theorem entryTurn_new (hrel : (getAcre s.dev a).released.find? (fun e => e.1 = f) = none) {p : Pkt} {t : List Pkt}
    (hq : (getFur s.dev a f).entryQ = p :: t) (hcal : calendarStops s.dev = false) :
    entryTurn a f (ticked (getFur s.dev a f)) (entryDev s.dev a f) =
      if flagF s.dev Reg.PROG_EPOCH Reg.PROG_EPOCH_ACTIVE_VALID = true then admitNew (newDev s.dev a f t) a f p
      else emptyCycle (entryDrop (newDev s.dev a f t) a f p 0x4D) a f 3 := by
  have hprof' : profilePending (entryDev s.dev a f) = false :=
    (flagF_congr (rd_entryDev_high ha hf (.inr (by decide))) _).trans hprof
  have hvalid : flagF (newDev s.dev a f t) Reg.PROG_EPOCH Reg.PROG_EPOCH_ACTIVE_VALID = flagF s.dev Reg.PROG_EPOCH Reg.PROG_EPOCH_ACTIVE_VALID :=
    flagF_congr (rd_newDev ha hf t (.inr (by decide))) _
  rw [entryTurn_rank4 (x := ticked (getFur s.dev a f)) hret hbub hprof' hrel hq, ← newDev, hvalid, calendarStops_newDev ha hf, hcal]
  cases flagF s.dev Reg.PROG_EPOCH Reg.PROG_EPOCH_ACTIVE_VALID <;> rfl

omit hrole hfatal hi in
theorem entryTurn_released {e : Nat × Pkt} (hrel : (getAcre s.dev a).released.find? (fun e => e.1 = f) = some e)
    (hcal : calendarStops s.dev = false) :
    entryTurn a f (ticked (getFur s.dev a f)) (entryDev s.dev a f) = admitNew (releasedDev s.dev a f e) a f e.2 := by
  have hprof' : profilePending (entryDev s.dev a f) = false :=
    (flagF_congr (rd_entryDev_high ha hf (.inr (by decide))) _).trans hprof
  rw [entryTurn_rank3 (x := ticked (getFur s.dev a f)) hret hbub hprof' hrel, getAcre_entryDev, ← releasedDev,
    calendarStops_releasedDev ha hf, hcal, if_neg Bool.false_ne_true]

end

end

end Sys2Proof.Machine
end

section
/-!
PROOF. The statement of the furrow's flow: admission, wakes, the exit hold, the deadline and the safe-point bound.
-/
namespace Sys2Proof.Machine

/-! Admission of a new packet. -/

section
variable {s : State} {a f : Nat} (ha : a < 4) (hf : f < 17) (hrole : roleOf s.dev a f = 0) (hfatal : (getFur s.dev a f).fatal = none)
  (hi : flagF s.dev Reg.FAULT_INJECT Reg.FAULT_INJECT_PENDING = false) (hret : (getFur s.dev a f).returnQ = [])
  (hbub : (getFur s.dev a f).bubble = false) (hprof : profilePending s.dev = false) (hcal : calendarStops s.dev = false)
include ha hf hrole hfatal hi hret hbub hprof hcal

omit ha hf hrole hfatal hret hbub hprof hcal in
/-- What an admission from a device that differs from the state's in the cycle's count and the queues alone leaves. -/
theorem admitted_spec {d : Dev} {x : Furrow} {p : Pkt} (hd : getFur d a f = x) (hpkts : x.pkts = (getFur s.dev a f).pkts)
    (hseq : x.nextSeq = (getFur s.dev a f).nextSeq) (hx : x.isolating = (getFur s.dev a f).isolating) (htime : d.time = s.dev.time)
    (hrd : ∀ o, o < 0x1000000 ∨ 0x1500000 ≤ o → rd d o = rd s.dev o) (hiso : (getFur s.dev a f).isolating = false)
    (hb : flagF s.dev Reg.HOST_HOLDING_STATUS Reg.HOST_HOLDING_STATUS_BUSY = false)
    (hroom : (domainPkts (getFur s.dev a f) (pcGet p Pc.flowHash % 4096)).length < 64) (hfree : (freeCtxSlot (getFur s.dev a f)).isSome = true) :
    ∃ k q v, admitNew d a f p = putPkt (putFur d a f { x with nextSeq := v }) ⟨a, f, k⟩ q ∧ getPkt s.dev ⟨a, f, k⟩ = none ∧ k < 2048 ∧
      q.frame = p.frame ∧ q.loc = .row 0 false ∧ pcGet q Pc.entryTime = s.dev.time % 2 ^ 64 ∧ pcGet q Pc.flowHash = pcGet p Pc.flowHash ∧
      pcGet q Pc.domain = pcGet p Pc.flowHash % 4096 ∧ pcGet q Pc.epoch = rdF s.dev Reg.PROG_EPOCH Reg.PROG_EPOCH_EPOCH ∧
      pcGet q Pc.pass = 0 ∧ pcGet q Pc.upc = 0 ∧ pcGet q Pc.disposition = 0 ∧ q.edits = [] ∧
      q.seq = spGet (fun _ => 0) (getFur s.dev a f).nextSeq (pcGet p Pc.flowHash % 4096) := by
  obtain ⟨k, hk⟩ := Option.isSome_iff_exists.mp hfree
  obtain ⟨hlt, hnone⟩ := freeCtxSlot_some hk
  obtain ⟨v, hadm⟩ := admitNew_admits (d := d) (a := a) (f := f) (p := p)
    ((flagF_congr (hrd _ (.inl (by decide))) _).trans hi) ((flagF_congr (hrd _ (.inl (by decide))) _).trans hb)
    (by rw [hd, hx, hiso]) (by rw [hd, domainPkts_congr hpkts]; exact hroom) (k := k) (by rw [hd, freeCtxSlot_congr hpkts]; exact hk)
  obtain ⟨hframe, hloc, hedits, -, hnum, htm, hhash, hdom, hepoch, hpass, hupc, hdisp⟩ := firstEntry_spec d x k p
  rw [hd] at hadm
  refine ⟨k, firstEntry d x k p, v, hadm, hnone, hlt, hframe, hloc, by rw [htm, htime], hhash, hdom, ?_, hpass, hupc, hdisp, hedits,
    by rw [hnum, hseq]⟩
  rw [hepoch]
  exact rdF_congr (hrd _ (.inr (by decide))) _

section
variable (hrel : (getAcre s.dev a).released.find? (fun e => e.1 = f) = none) {p : Pkt} {t : List Pkt}
  (hq : (getFur s.dev a f).entryQ = p :: t)
include hrel hq

theorem exec_entry_new (hv : flagF s.dev Reg.PROG_EPOCH Reg.PROG_EPOCH_ACTIVE_VALID = true) (hiso : (getFur s.dev a f).isolating = false)
    (hb : flagF s.dev Reg.HOST_HOLDING_STATUS Reg.HOST_HOLDING_STATUS_BUSY = false)
    (hroom : (domainPkts (getFur s.dev a f) (pcGet p Pc.flowHash % 4096)).length < 64) (hfree : (freeCtxSlot (getFur s.dev a f)).isSome = true) :
    ∃ t' k q, exec (.furrowEntryAdmit a f) s = .next t' ∧ getPkt s.dev ⟨a, f, k⟩ = none ∧ getPkt t'.dev ⟨a, f, k⟩ = some q ∧ k < 2048 ∧
      q.frame = p.frame ∧ q.loc = .row 0 false ∧ pcGet q Pc.entryTime = s.dev.time % 2 ^ 64 ∧ pcGet q Pc.flowHash = pcGet p Pc.flowHash ∧
      pcGet q Pc.domain = pcGet p Pc.flowHash % 4096 ∧ pcGet q Pc.epoch = rdF s.dev Reg.PROG_EPOCH Reg.PROG_EPOCH_EPOCH ∧
      pcGet q Pc.pass = 0 ∧ pcGet q Pc.upc = 0 ∧ pcGet q Pc.disposition = 0 ∧ q.edits = [] ∧
      q.seq = spGet (fun _ => 0) (getFur s.dev a f).nextSeq (pcGet p Pc.flowHash % 4096) ∧ (getFur t'.dev a f).entryQ = t := by
  obtain ⟨k, q, v, hadm, hnone, hlt, hframe, hloc, htm, hhash, hdom, hepoch, hpass, hupc, hdisp, hedits, hnum⟩ :=
    admitted_spec (x := { ticked (getFur s.dev a f) with entryQ := t }) (p := p) hi
      (getFur_newDev t) rfl rfl rfl (entryDev_time (d := s.dev) (a := a) (f := f)) (fun _ h => rd_newDev ha hf t h) hiso hb hroom hfree
  have hexec := exec_entryAdmit hrole hfatal hi
  rw [entryTurn_new ha hf hret hbub hprof hrel hq hcal, if_pos hv, hadm] at hexec
  refine ⟨_, k, q, hexec, hnone, (getPkt_commit ..).trans (getPkt_putPkt_same ..), hlt, hframe, hloc, htm, hhash, hdom, hepoch, hpass, hupc,
    hdisp, hedits, hnum, ?_⟩
  rw [getFur_commit, getFur_putPkt_same, getFur_putFur_same]
  rfl

omit ha hf hret hbub hprof hcal hrel hq in
/-- The head of the entry queue is dropped before its first admission: the furrow keeps its packets. -/
theorem exec_entry_dropped {d : Dev} (hturn : entryTurn a f (ticked (getFur s.dev a f)) (entryDev s.dev a f) = d)
    (hfurs : d.furs = (newDev s.dev a f t).furs) :
    ∃ t', exec (.furrowEntryAdmit a f) s = .next t' ∧ (getFur t'.dev a f).entryQ = t ∧ (getFur t'.dev a f).pkts = (getFur s.dev a f).pkts := by
  have hexec := exec_entryAdmit hrole hfatal hi
  rw [hturn] at hexec
  refine ⟨_, hexec, ?_, ?_⟩ <;> rw [getFur_commit, getFur_congr hfurs, getFur_newDev]
  rfl

theorem exec_entry_noRotation (hv : flagF s.dev Reg.PROG_EPOCH Reg.PROG_EPOCH_ACTIVE_VALID = false) :
    ∃ t', exec (.furrowEntryAdmit a f) s = .next t' ∧ (getFur t'.dev a f).entryQ = t ∧ (getFur t'.dev a f).pkts = (getFur s.dev a f).pkts := by
  refine exec_entry_dropped hrole hfatal hi
    (entryTurn_new ha hf hret hbub hprof hrel hq hcal) ?_
  rw [if_neg (by rw [hv]; exact Bool.false_ne_true)]
  exact emptyCycle_entryDrop_furs ..

theorem exec_entry_domainFull (hv : flagF s.dev Reg.PROG_EPOCH Reg.PROG_EPOCH_ACTIVE_VALID = true)
    (hfull : 64 ≤ (domainPkts (getFur s.dev a f) (pcGet p Pc.flowHash % 4096)).length) :
    ∃ t', exec (.furrowEntryAdmit a f) s = .next t' ∧ (getFur t'.dev a f).entryQ = t ∧ (getFur t'.dev a f).pkts = (getFur s.dev a f).pkts := by
  refine exec_entry_dropped hrole hfatal hi
    (entryTurn_new ha hf hret hbub hprof hrel hq hcal) ?_
  rw [if_pos hv]
  refine admitNew_full ?_
  have hpkts := domainPkts_congr (x := { ticked (getFur s.dev a f) with entryQ := t }) (y := getFur s.dev a f) rfl
  rw [getFur_newDev, hpkts]
  exact hfull

end

theorem exec_entry_released {e : Nat × Pkt} (hrel : (getAcre s.dev a).released.find? (fun e => e.1 = f) = some e)
    (hiso : (getFur s.dev a f).isolating = false) (hb : flagF s.dev Reg.HOST_HOLDING_STATUS Reg.HOST_HOLDING_STATUS_BUSY = false)
    (hroom : (domainPkts (getFur s.dev a f) (pcGet e.2 Pc.flowHash % 4096)).length < 64) (hfree : (freeCtxSlot (getFur s.dev a f)).isSome = true) :
    ∃ t' k q, exec (.furrowEntryAdmit a f) s = .next t' ∧ getPkt s.dev ⟨a, f, k⟩ = none ∧ getPkt t'.dev ⟨a, f, k⟩ = some q ∧ k < 2048 ∧
      q.frame = e.2.frame ∧ q.loc = .row 0 false ∧ (getAcre t'.dev a).released = (getAcre s.dev a).released.erase e ∧
      (getFur t'.dev a f).entryQ = (getFur s.dev a f).entryQ ∧ rehashF t'.dev a Reg.REHASH_STATUS_HELD = min 1024 (holdCount (getAcre t'.dev a)) := by
  obtain ⟨d, hd⟩ : ∃ d, d = releasedDev s.dev a f e := ⟨_, rfl⟩
  have htime : d.time = s.dev.time := by
    rw [hd, releasedDev, setHeld, wrF_time]
    exact entryDev_time (d := s.dev) (a := a) (f := f)
  have hacre : getAcre d a = { getAcre s.dev a with released := (getAcre s.dev a).released.erase e } := by
    rw [hd, releasedDev, setHeld, getAcre, wrF_acres, ← getAcre]
    exact getAcre_putAcre_same ..
  have hheld : rehashF d a Reg.REHASH_STATUS_HELD = min 1024 (holdCount (getAcre d a)) := by
    rw [hacre, hd, releasedDev, setHeld, rehashF, rdF_wrF_same _ _ _ _ (by decide), getAcre_putAcre_same]
    exact Nat.mod_eq_of_lt (lt_of_le_of_lt (Nat.min_le_left ..) (by decide))
  obtain ⟨k, q, v, hadm, hnone, hlt, hframe, hloc, -⟩ :=
    admitted_spec (d := d) (x := ticked (getFur s.dev a f)) (p := e.2) hi
      (by rw [hd, getFur_releasedDev]) rfl rfl rfl htime (fun _ h => by rw [hd]; exact rd_releasedDev ha hf e h) hiso hb hroom hfree
  have hexec := exec_entryAdmit hrole hfatal hi
  rw [entryTurn_released ha hf hret hbub hprof hrel hcal, ← hd, hadm] at hexec
  refine ⟨_, k, q, hexec, hnone, (getPkt_commit ..).trans (getPkt_putPkt_same ..), hlt, hframe, hloc, congrArg AcreSt.released hacre, ?_, hheld⟩
  rw [getFur_commit, getFur_putPkt_same, getFur_putFur_same]
  rfl

end

/-! Wakes (R51, R53). -/

section
variable {d : Dev} {l : PktRef} {p : Pkt} {r c cls : Nat} (hp : getPkt d l = some p)

theorem wakeDue_cond (hc : c < 64) : wakeDue d l p c = condTrue d l p c := by
  rw [wakeDue, if_neg (by omega), if_neg (by omega)]

theorem getPkt_reenter : getPkt (reenter d l p r cls) l = some { p with loc := .row r true } := by
  rw [reenter, getPkt_congr_furs (tdFrom_furs ..), getPkt_putPkt_same]

include hp

theorem parkWake_parked (hloc : p.loc = .park r c) (hc : c < 64) : parkWake l cls d =
    if condTrue d l p c = true ∧ isHead (getFur d l.a l.f) l.slot r p = true then
      if cls = 0 ∨ wokenBefore d l r { p with safeHold := false, waitTaken := true } = true
      then putPkt d l { p with safeHold := false, waitTaken := true, loc := .wokenWait r false }
      else reenter d l { p with safeHold := false, waitTaken := true } r (min cls 2)
    else d := by
  rw [parkWake, hp]
  dsimp only
  split
  · rename_i r' c' hloc'
    obtain ⟨rfl, rfl⟩ := Loc.park.inj (hloc'.symm.trans hloc)
    rw [wakeDue_cond hc, decide_eq_true hc]
  · rename_i hloc'
    exact nomatch hloc'.symm.trans hloc
  · exact absurd hloc (by rename_i h _; exact h r c)

theorem parkWake_woken {b : Bool} (hloc : p.loc = .wokenWait r b) : parkWake l cls d =
    if cls = 0 ∨ wokenBefore d l r p = true then d else reenter d l p r (min cls 2) := by
  rw [parkWake, hp]
  dsimp only
  split
  · rename_i hloc'
    exact nomatch hloc'.symm.trans hloc
  · rename_i r' b' hloc'
    obtain ⟨rfl, rfl⟩ := Loc.wokenWait.inj (hloc'.symm.trans hloc)
    rfl
  · exact absurd hloc (by rename_i _ h; exact h r b)

theorem forcedBubble_asks (hloc : p.loc = .wokenWait r false) : (getFur (forcedBubble l d) l.a l.f).bubble = true ∧
    getPkt (forcedBubble l d) l = some { p with loc := .wokenWait r true } := by
  have he : forcedBubble l d = putFur (putPkt d l { p with loc := .wokenWait r true }) l.a l.f
      { getFur (putPkt d l { p with loc := .wokenWait r true }) l.a l.f with bubble := true } := by
    rw [forcedBubble, hp]
    dsimp only
    split
    · rename_i r' hloc'
      obtain ⟨rfl, -⟩ := Loc.wokenWait.inj (hloc'.symm.trans hloc)
      rfl
    · exact absurd hloc (by rename_i h; exact h r)
  rw [he]
  refine ⟨by rw [getFur_putFur_same], ?_⟩
  rw [getPkt_putFur_pkts _ (x := { getFur (putPkt d l { p with loc := .wokenWait r true }) l.a l.f with bubble := true }) rfl,
    getPkt_putPkt_same]

/-! The exit hold (R54, R76) and the deadline (R57). -/

theorem exitRelease_eq (hloc : p.loc = .exitHold) : exitRelease l d =
    if hasEarlier (getFur d l.a l.f) l.slot p = true then d else if p.rehashDrop = true then furDrop d l p 0x45 else furLeave d l p := by
  rw [exitRelease, hp]
  simp only [hloc, true_and]
  cases hasEarlier (getFur d l.a l.f) l.slot p <;> rfl

theorem lateDrop_eq : lateDrop l d =
    if p.loc = .atRind ∨ p.loc = .reparse ∨ ¬ pastDeadline d l.a p = true then d else furDrop d l p 0x40 := by
  rw [lateDrop, hp]

end

theorem freeSlot_har (d : Dev) (l : PktRef) : (freeSlot d l).har = d.har := rfl

/-- A punt joins its acre's punt queue and leaves its slot (R146). -/
theorem furLeave_punt {d : Dev} {l : PktRef} {p : Pkt} (hd : pcGet p Pc.disposition = 4)
    (hroom : (spGet (fun _ => []) d.har.puntQ l.a).length < 256) : getPkt (furLeave d l p) l = none ∧
    spGet (fun _ => []) (furLeave d l p).har.puntQ l.a = spGet (fun _ => []) d.har.puntQ l.a ++ [{ p with edits := [], edata := [], grant := none }] := by
  obtain ⟨e, he⟩ : ∃ e, e = freeSlot (tdRetire d l.a l.f p) l := ⟨_, rfl⟩
  have hgone : getPkt e l = none := by rw [he, getPkt_freeSlot]
  have hhar : e.har = d.har := by
    rw [he, freeSlot_har, tdRetire_har]
  obtain ⟨re, hret⟩ := returnGrant_shape e p
  have hroom' : ¬ 256 ≤ (spGet (fun _ => []) d.har.puntQ l.a).length := by omega
  rw [furLeave, ← he, if_pos hd, hret, puntEnqueue]
  dsimp only
  rw [hhar, if_neg hroom']
  exact ⟨hgone, spGet_spPut_same ..⟩

theorem mem_mergeMsg (m : FaultMsg) (l : List FaultMsg) : ∃ x ∈ mergeMsg m l, x.source = m.source ∧ x.sev = m.sev := by
  induction l with
  | nil => exact ⟨m, List.mem_singleton_self m, rfl, rfl⟩
  | cons p t ih =>
    rw [mergeMsg]
    split
    · rename_i h
      exact ⟨_, List.mem_cons_self .., h⟩
    · obtain ⟨x, hx, h⟩ := ih
      exact ⟨x, List.mem_cons_of_mem _ hx, h⟩

end Sys2Proof.Machine

namespace Sys2Proof
open Machine

/-- Settles O53: the admission cycle, the wakes, the exit hold, the deadline and the safe-point bound, by the lemmas above. -/
theorem furrowFlow : Obligations.FurrowFlow := by
  unfold Obligations.FurrowFlow
  refine ⟨?entry, ?parked, ?woken, ?waits, ?bubble, ?exitHold, ?late, ?bound⟩
  case entry =>
    rintro s a f x rfl ha hf hrole hfatal hi
    refine ⟨fun k t p hq hp hs => exec_entryAdmit_return hrole hfatal hi hq hp hs, ?new, ?released⟩
    case new =>
      intro p t hret hbub hprof hrel hq hcal
      exact ⟨exec_entry_new ha hf hrole hfatal hi hret hbub hprof hcal hrel hq,
        exec_entry_noRotation ha hf hrole hfatal hi hret hbub hprof hcal hrel hq,
        exec_entry_domainFull ha hf hrole hfatal hi hret hbub hprof hcal hrel hq⟩
    case released =>
      intro e hret hbub hprof hrel hcal hiso hb hroom hfree
      exact exec_entry_released ha hf hrole hfatal hi hret hbub hprof hcal hrel hiso hb hroom hfree
  case parked =>
    intro s l p r c hp hloc hc hcond hhead
    have hwake : ∀ cls, exec (.parkWake l cls) s = .next (commit s (parkWake l cls s.dev)) := fun _ => rfl
    have hbefore : wokenBefore s.dev l r { p with safeHold := false, waitTaken := true } = wokenBefore s.dev l r p := rfl
    simp only [hwake, parkWake_parked hp hloc hc, hcond, hhead, and_self, if_true, hbefore]
    refine ⟨rfl, fun h => ?_, fun h => ⟨_, rfl, ?_⟩⟩
    · rw [if_pos (.inr h)]
    · rw [if_neg (by rw [h]; decide), getPkt_commit, getPkt_reenter]
  case woken =>
    intro s l p r b hp hloc
    have hwake : ∀ cls, exec (.parkWake l cls) s = .next (commit s (parkWake l cls s.dev)) := fun _ => rfl
    simp only [hwake, parkWake_woken hp hloc]
    refine ⟨rfl, fun h => ?_, fun h => ⟨_, rfl, ?_⟩⟩
    · rw [if_pos (.inr h)]
    · rw [if_neg (by rw [h]; decide), getPkt_commit, getPkt_reenter]
  case waits =>
    intro s l p r c cls hp hloc hc h
    have hwake : exec (.parkWake l cls) s = .next (commit s (parkWake l cls s.dev)) := rfl
    have hno : ¬ (condTrue s.dev l p c = true ∧ isHead (getFur s.dev l.a l.f) l.slot r p = true) := by
      rintro ⟨hcond, hhead⟩
      rw [hcond, hhead] at h
      simp at h
    rw [hwake, parkWake_parked hp hloc hc, if_neg hno]
  case bubble =>
    intro s l p r hp hloc
    have he : exec (.forcedBubble l) s = .next (commit s (forcedBubble l s.dev)) := rfl
    obtain ⟨hb, hpkt⟩ := forcedBubble_asks hp hloc
    refine ⟨_, he, ?_, (getPkt_commit ..).trans hpkt⟩
    rw [getFur_commit]
    exact hb
  case exitHold =>
    intro s l p hp hloc
    have he : exec (.exitHoldRelease l) s = .next (commit s (exitRelease l s.dev)) := rfl
    rw [he, exitRelease_eq hp hloc]
    refine ⟨fun h => by rw [if_pos h], fun h hd => ?_, fun h hd hdisp hm => ?_, fun h hd hdisp hroom => ?_⟩
    · rw [if_neg (by rw [h]; exact Bool.false_ne_true), if_pos hd]
    · rw [if_neg (by rw [h]; exact Bool.false_ne_true), if_neg (by rw [hd]; exact Bool.false_ne_true), furLeave, if_neg hdisp, hm]
    · rw [if_neg (by rw [h]; exact Bool.false_ne_true), if_neg (by rw [hd]; exact Bool.false_ne_true)]
      obtain ⟨hgone, hpunt⟩ := furLeave_punt (l := l) hdisp hroom
      exact ⟨_, rfl, (getPkt_commit ..).trans hgone, hpunt⟩
  case late =>
    intro s l p hp
    have he : exec (.late l) s = .next (commit s (lateDrop l s.dev)) := rfl
    have hpast : pastDeadline s.dev l.a p = true ↔
        rdF s.dev (Reg.PKT_DEADLINE l.a) Reg.PKT_DEADLINE_NS < s.dev.time - pcGet p Pc.entryTime := by rw [pastDeadline, decide_eq_true_eq]
    rw [he, lateDrop_eq hp]
    refine ⟨fun h => ?_, fun h1 h2 h3 => ?_⟩
    · rw [if_pos (h.imp_right (.imp_right fun h => hpast.not.mpr (Nat.not_lt.mpr h)))]
    · rw [if_neg (by simp only [h1, h2, false_or, not_not]; exact hpast.mpr h3), furDrop, rehashCnt_of_ne _ _ _ (by decide)]
      rfl
  case bound =>
    intro s l p r hp hr hride hsteps hsafe
    have he : exec (.safeBound l) s = .next (commit s (safeBoundDrop l s.dev)) := rfl
    have hdrop : safeBoundDrop l s.dev = raise (furDrop s.dev l p 0x48) Fk.safeBound (32 * l.a + l.f) 0 0 0 := by
      rw [safeBoundDrop, inRow_some hp hr, if_pos ⟨hride, hsteps, by rw [hsafe]; exact Bool.false_ne_true⟩]
    rw [he, hdrop]
    refine ⟨_, rfl, ?_, ?_⟩
    · rw [getPkt_commit, getPkt_raise, getPkt_furDrop]
    · rw [commit_flt, raise_flt]
      obtain ⟨m, hm, hsrc, hsev⟩ := mem_mergeMsg ⟨256 * Fk.safeBound.cls + (32 * l.a + l.f) % 256, Fk.safeBound.kind, Fk.safeBound.sev,
        0 % 2 ^ 48, 0, 0, 0, false⟩ (furDrop s.dev l p 0x48).flt.pending
      exact ⟨m, hm, hsrc, hsev⟩

end Sys2Proof
end

section
/-!
PROOF. Program banks: the fields of PROG_STATUS, the window of the master copy (R66), and what a completion leaves of both.
-/
namespace Sys2Proof.Machine

/-! The states of the banks and the error in PROG_STATUS. -/

theorem windowBank_lt (d : Dev) : windowBank d < 2 := by
  unfold windowBank
  omega

theorem bankFld_cases (b : Nat) : bankFld b = ⟨0, 3⟩ ∨ bankFld b = ⟨4, 3⟩ := by
  unfold bankFld
  split
  · exact .inl rfl
  · exact .inr rfl

theorem bankFld_apart {b : Nat} (hb : b < 2) : (bankFld (1 - b)).lo + (bankFld (1 - b)).w ≤ (bankFld b).lo ∨
    (bankFld b).lo + (bankFld b).w ≤ (bankFld (1 - b)).lo := by
  obtain rfl | rfl : b = 0 ∨ b = 1 := by omega
  · exact .inr (by decide)
  · exact .inl (by decide)

theorem bankFld_low (b : Nat) : (bankFld b).lo + (bankFld b).w ≤ 7 := by
  obtain h | h := bankFld_cases b <;> rw [h] <;> decide

theorem bankState_congr {d e : Dev} (h : rd e Reg.PROG_STATUS = rd d Reg.PROG_STATUS) (b : Nat) : bankState e b = bankState d b :=
  rdF_congr h _

theorem bankState_setBank_same (d : Dev) (b n : Nat) : bankState (setBank d b n) b = n % 8 := by
  rw [bankState, setBank, rdF_wrF_same _ _ _ _ (by have := bankFld_low b; omega)]
  obtain h | h := bankFld_cases b <;> rw [h] <;> rfl

theorem bankState_setBank_other (d : Dev) {b : Nat} (hb : b < 2) (n : Nat) : bankState (setBank d b n) (1 - b) = bankState d (1 - b) :=
  rdF_wrF_other d n (.inr ⟨bankFld_apart hb, by have := bankFld_low (1 - b); omega⟩)

/-- A bank's state shares its register with fields from bit 7 on, which it leaves. -/
theorem rdF_setBank (d : Dev) (b n : Nat) {g : Fld} (hl : 7 ≤ g.lo) (hg : g.lo + g.w ≤ 64) :
    rdF (setBank d b n) Reg.PROG_STATUS g = rdF d Reg.PROG_STATUS g :=
  rdF_wrF_other d n (.inr ⟨.inr (by have := bankFld_low b; omega), hg⟩)

theorem rd_setBank_other (d : Dev) (b n : Nat) {o : Nat} (h : o ≠ Reg.PROG_STATUS) : rd (setBank d b n) o = rd d o := rd_wr_other d _ h

theorem bankState_progError (d : Dev) (e row b : Nat) : bankState (progError d e row) b = bankState d b :=
  rdF_wrFs_disjoint d _ _ (by have := bankFld_low b; omega) (by
    have := bankFld_low b
    simp only [List.mem_cons, List.not_mem_nil, or_false, forall_eq_or_imp, forall_eq, Reg.PROG_STATUS_ERROR, Reg.PROG_STATUS_ERROR_ROW]
    omega)

theorem rdF_progError_ERROR (d : Dev) (e row : Nat) : rdF (progError d e row) Reg.PROG_STATUS Reg.PROG_STATUS_ERROR = e % 16 :=
  rdF_wrFs_last d _ [] [(Reg.PROG_STATUS_ERROR_ROW, row)] (by decide) (by simp [Reg.PROG_STATUS_ERROR, Reg.PROG_STATUS_ERROR_ROW])

theorem rdF_progError_ERROR_ROW (d : Dev) (e row : Nat) : rdF (progError d e row) Reg.PROG_STATUS Reg.PROG_STATUS_ERROR_ROW = row % 32 :=
  rdF_wrFs_last d _ [(Reg.PROG_STATUS_ERROR, e)] [] (by decide) (by decide)

theorem rd_progError_other (d : Dev) (e row : Nat) {o : Nat} (h : o ≠ Reg.PROG_STATUS) : rd (progError d e row) o = rd d o := rd_wr_other d _ h

/-! The words of the stores (R66). -/

theorem microKey_inj {c x q a c' x' q' a' : Nat} (hx : x < 2) (hq : q < 24) (ha : a < 1024) (hx' : x' < 2) (hq' : q' < 24) (ha' : a' < 1024) :
    microKey c x q a = microKey c' x' q' a' ↔ c = c' ∧ x = x' ∧ q = q' ∧ a = a' := by
  unfold microKey
  omega

theorem injectAt_prog (d : Dev) (c src a : Nat) : (injectAt d c src a).2.prog = d.prog := by
  obtain ⟨re, fl, h, -⟩ := injectAt_shape d c src a
  rw [h]

theorem storeMicro_prog (d : Dev) (b r a v : Nat) : (storeMicro d b r a v).prog =
    { d.prog with micro := spPut (fun _ => 0) d.prog.micro (microKey 0 b r a) v } := injectAt_prog ..

theorem microWord_storeMicro (d : Dev) {b r a v c x q y : Nat} (hb : b < 2) (hr : r < 24) (ha : a < 1024) (hx : x < 2) (hq : q < 24)
    (hy : y < 1024) : microWord (storeMicro d b r a v) c x q y = if c = 0 ∧ x = b ∧ q = r ∧ y = a then v else microWord d c x q y := by
  rw [microWord, storeMicro_prog, microWord]
  dsimp only
  rw [spGet_spPut]
  exact if_congr (microKey_inj hx hq hy hb hr ha) rfl rfl

/-- A byte of the window among the microwords changes its byte of its word. -/
theorem windowByte_micro (d : Dev) (b : Nat) {r k i : Nat} (x : Byte) (hr : r < 24) (hk : k < 512) (hi : i < 8) :
    windowByte b d (0x10000 * r + 8 * k + i, x) = storeMicro d b r (2 * k + i / 4)
      (setBits (microWord d 0 b r (2 * k + i / 4)) (8 * (i % 4)) 8 x.toNat % 2 ^ 32) := by
  have h1 : (0x10000 * r + 8 * k + i) / 0x10000 = r := by omega
  have h2 : (0x10000 * r + 8 * k + i) % 0x10000 = 8 * k + i := by omega
  have h3 : (8 * k + i) / 4 = 2 * k + i / 4 := by omega
  have h4 : (8 * k + i) % 4 = i % 4 := by omega
  rw [windowByte]
  dsimp only
  rw [h1, h2, if_pos ⟨hr, by omega⟩, h3, h4]

/-- A device after bytes were written into the two microwords at 2 k and 2 k + 1 of row r of bank b: they are lo and hi, and every other
word is as it was. -/
structure WordsWritten (d : Dev) (b r k lo hi : Nat) (e : Dev) : Prop where
  low : microWord e 0 b r (2 * k) = lo
  high : microWord e 0 b r (2 * k + 1) = hi
  rest : ∀ c x q a, x < 2 → q < 24 → a < 1024 → (c, x, q, a / 2) ≠ (0, b, r, k) → microWord e c x q a = microWord d c x q a
  nano : e.prog.nano = d.prog.nano
  header : e.prog.header = d.prog.header

section
variable {d e : Dev} {b r k i lo hi : Nat} {x : Byte} (hb : b < 2) (hr : r < 24) (hk : k < 512)
include hb hr hk

theorem WordsWritten.storeMicro (h : WordsWritten d b r k lo hi e) (hi2 : i < 2) (v : Nat) :
    WordsWritten d b r k (if i = 0 then v else lo) (if i = 1 then v else hi) (storeMicro e b r (2 * k + i) v) where
  low := by
    rw [microWord_storeMicro e hb hr (by omega) hb hr (by omega), h.low]
    exact if_congr (by omega) rfl rfl
  high := by
    rw [microWord_storeMicro e hb hr (by omega) hb hr (by omega), h.high]
    exact if_congr (by omega) rfl rfl
  rest c x q a hx hq ha hne := by
    rw [microWord_storeMicro e hb hr (by omega) hx hq ha, if_neg, h.rest c x q a hx hq ha hne]
    rintro ⟨rfl, rfl, rfl, rfl⟩
    exact hne (by simp only [Prod.mk.injEq, true_and]; omega)
  nano := by rw [storeMicro_prog, ← h.nano]
  header := by rw [storeMicro_prog, ← h.header]

/-- A byte of the low word. -/
theorem WordsWritten.lowByte (h : WordsWritten d b r k lo hi e) (hi4 : i < 4) :
    WordsWritten d b r k (setBits lo (8 * i) 8 x.toNat % 2 ^ 32) hi (windowByte b e (0x10000 * r + 8 * k + i, x)) := by
  rw [windowByte_micro e b x hr hk (by omega), show i / 4 = 0 by omega, show i % 4 = i by omega, Nat.add_zero, h.low]
  exact h.storeMicro hb hr hk (i := 0) (by omega) _

/-- A byte of the high word. -/
theorem WordsWritten.highByte (h : WordsWritten d b r k lo hi e) (hi4 : i < 4) :
    WordsWritten d b r k lo (setBits hi (8 * i) 8 x.toNat % 2 ^ 32) (windowByte b e (0x10000 * r + 8 * k + (4 + i), x)) := by
  rw [windowByte_micro e b x hr hk (by omega), show (4 + i) / 4 = 1 by omega, show (4 + i) % 4 = i by omega, h.high]
  exact h.storeMicro hb hr hk (i := 1) (by omega) _

end

/-- Four bytes that are written into a word, lowest first, make the word. -/
theorem setBits_bytes (w n : Nat) :
    setBits (setBits (setBits (setBits w (8 * 0) 8 (BitVec.ofNat 8 n).toNat % 2 ^ 32) (8 * 1) 8 (BitVec.ofNat 8 (n / 256)).toNat % 2 ^ 32)
      (8 * 2) 8 (BitVec.ofNat 8 (n / 256 / 256)).toNat % 2 ^ 32) (8 * 3) 8 (BitVec.ofNat 8 (n / 256 / 256 / 256)).toNat % 2 ^ 32 = n % 2 ^ 32 := by
  simp only [setBits, BitVec.toNat_ofNat]
  omega

/-- The four bytes of a number, lowest first, with their offsets from o on. -/
def wordBytes (o n : Nat) : List (Nat × Byte) :=
  [(o + 0, BitVec.ofNat 8 n), (o + 1, BitVec.ofNat 8 (n / 256)), (o + 2, BitVec.ofNat 8 (n / 256 / 256)),
    (o + 3, BitVec.ofNat 8 (n / 256 / 256 / 256))]

section
variable {d e : Dev} {b r k lo hi : Nat} (hb : b < 2) (hr : r < 24) (hk : k < 512) (h : WordsWritten d b r k lo hi e) (n : Nat)
include hb hr hk h

theorem WordsWritten.lowWord : WordsWritten d b r k (n % 2 ^ 32) hi ((wordBytes (0x10000 * r + 8 * k) n).foldl (windowByte b) e) :=
  setBits_bytes lo n ▸ (((h.lowByte hb hr hk (i := 0) (by omega)).lowByte hb hr hk (i := 1) (by omega)).lowByte hb hr hk (i := 2)
    (by omega)).lowByte hb hr hk (i := 3) (by omega)

theorem WordsWritten.highWord : WordsWritten d b r k lo (n % 2 ^ 32) ((wordBytes (0x10000 * r + 8 * k + 4) n).foldl (windowByte b) e) :=
  setBits_bytes hi n ▸ (((h.highByte hb hr hk (i := 0) (by omega)).highByte hb hr hk (i := 1) (by omega)).highByte hb hr hk (i := 2)
    (by omega)).highByte hb hr hk (i := 3) (by omega)

end

theorem zip_leBytes_8 (o n : Nat) : List.zip ((List.range 8).map (o + ·)) (leBytes 8 n) =
    wordBytes o n ++ wordBytes (o + 4) (n / 256 / 256 / 256 / 256) := rfl

/-- A write of eight bytes among the microwords of a LOADABLE window bank. -/
theorem windowWrite_micro {d : Dev} {r k : Nat} (hl : bankState d (windowBank d) = 0) (hr : r < 24) (hk : k < 512) (v : W64) :
    WordsWritten d (windowBank d) r k (v.toNat % 2 ^ 32) (v.toNat / 2 ^ 32) (windowWrite (0x10000 * r + 8 * k) (leBytes 8 v.toNat) d) := by
  have hb := windowBank_lt d
  have h0 : WordsWritten d (windowBank d) r k (microWord d 0 (windowBank d) r (2 * k)) (microWord d 0 (windowBank d) r (2 * k + 1)) d :=
    ⟨rfl, rfl, fun _ _ _ _ _ _ _ _ => rfl, rfl, rfl⟩
  have h8 := (h0.lowWord hb hr hk v.toNat).highWord hb hr hk (v.toNat / 256 / 256 / 256 / 256)
  have hv : v.toNat / 256 / 256 / 256 / 256 % 2 ^ 32 = v.toNat / 2 ^ 32 := by
    have := v.isLt
    omega
  rw [hv] at h8
  rw [windowWrite, if_neg (not_not.mpr hl), show (leBytes 8 v.toNat).length = 8 from rfl, zip_leBytes_8, List.foldl_append]
  exact h8

/-- A write of the window in another state: the stores stay, and ERROR is WINDOW. -/
theorem windowWrite_rejected {d : Dev} (hl : bankState d (windowBank d) ≠ 0) (off : Nat) (bs : List Byte) :
    windowWrite off bs d = progError (bumpSat d Reg.PROG_STATUS Reg.PROG_STATUS_WRITE_REJECTS 1) 7 0x1F := by
  rw [windowWrite]
  exact if_pos hl

theorem hostReject_prog (d : Dev) (agent off : Nat) (isl : List Nat) : (hostReject d agent off isl).prog = d.prog := by
  obtain e | e := hostReject_cases d agent off isl
  · rw [e, bumpSat_prog]
  · rw [e, wrFs_prog, bumpSat_prog]

/-- A write that reaches the MICRO window. -/
theorem regWrite_window {m : Mem} {d : Dev} {agent r k : Nat} {v : W64} (hr : r < 24) (hk : k < 512)
    (h : WriteReaches d agent (0x2000000 + 8 * (0x2000 * r + k)) v) :
    regWrite agent (0x2000000 + 8 * (0x2000 * r + k)) v m d =
      (windowStore d agent (0x2000000 + 8 * (0x2000 * r + k)) v).2 := by
  obtain ⟨hc, hu, hp, hi, hb, -, -⟩ := h
  have hk2 : (unpeek (0x2000000 + 8 * (0x2000 * r + k))).2 = false := by rw [unpeek, if_neg (by omega)]
  have hoff : 0x2000000 ≤ 0x2000000 + 8 * (0x2000 * r + k) ∧ 0x2000000 + 8 * (0x2000 * r + k) < 0x3FF0000 := by omega
  rw [regWrite_addressed hc (by rw [hk2, hu]; simp only [Bool.false_eq_true, false_or]; omega) hp, hi, hb, regStore, if_pos hoff]
  rfl

theorem exec_microWindowWrite {s : State} {agent r k : Nat} {v : W64} (hr : r < 24) (hk : k < 512)
    (h : WriteReaches s.dev agent (0x2000000 + 8 * (0x2000 * r + k)) v) :
    exec (.microWindowWrite agent (0x2000 * r + k) v) s =
      .next (commit s (windowStore s.dev agent (0x2000000 + 8 * (0x2000 * r + k)) v).2) := by
  have hm : (0x2000 * r + k) % 0x3FE000 = 0x2000 * r + k := Nat.mod_eq_of_lt (by omega)
  have he : exec (.microWindowWrite agent (0x2000 * r + k) v) s =
      .next (commit s (regWrite agent (0x2000000 + 8 * ((0x2000 * r + k) % 0x3FE000)) v s.mem s.dev)) := rfl
  rw [he, hm, regWrite_window hr hk h]

theorem window_offset (r k : Nat) : 0x2000000 + 8 * (0x2000 * r + k) - 0x2000000 = 0x10000 * r + 8 * k := by omega

/-! A completion entry (R484) leaves the registers outside the event FIFOs and the vectors. -/

theorem msi_shape (d : Dev) (v : Nat) : ∃ re wr ho, msi d v = { d with regs := re, writes := wr, host := ho } ∧
    ∀ o, o ≠ Reg.MSIX_PBA (v / 64) → spGet (resetVal d.fuses.half) re o = rd d o := by
  rw [msi]
  dsimp only
  split
  · exact ⟨_, _, _, rfl, fun o h => rd_wr_other d _ h⟩
  · exact ⟨_, _, _, rfl, fun o _ => rfl⟩

theorem evtSignal_shape (d : Dev) (f : Nat) : ∃ re wr ho, evtSignal d f = { d with regs := re, writes := wr, host := ho } ∧
    ∀ o, o ≠ Reg.MSIX_PBA ((128 + f) / 64) → spGet (resetVal d.fuses.half) re o = rd d o := by
  obtain ⟨re, wr, ho, h, hrd⟩ := msi_shape d (128 + f)
  rw [evtSignal, h]
  exact ⟨_, _, _, rfl, hrd⟩

/-- The FIFO holds the entries E, and is signalled when they reach its threshold. -/
def evtPosted (d : Dev) (E : EvtFifo) : Dev :=
  if E.unsignalled ≥ rdF (putEvt d 2 E) (Reg.EVT_CFG 2) Reg.EVT_CFG_THRESH then evtSignal (putEvt d 2 E) 2 else putEvt d 2 E

theorem evtPosted_shape (d : Dev) (E : EvtFifo) : ∃ re wr ho, evtPosted d E = { d with regs := re, writes := wr, host := ho } ∧
    ∀ o, o ≠ Reg.MSIX_PBA 2 → spGet (resetVal d.fuses.half) re o = rd d o := by
  rw [evtPosted]
  split
  · exact evtSignal_shape (putEvt d 2 E) 2
  · exact ⟨_, _, _, rfl, fun o _ => rfl⟩

theorem evtPost_cases (d : Dev) (w0 w1 w2 w3 : W64) : (evtPost d 2 w0 w1 w2 w3).1 = bumpSat d (Reg.EVT_STATUS 2) Reg.EVT_STATUS_LOST 1 ∨
    ∃ E, (evtPost d 2 w0 w1 w2 w3).1 = evtPosted d E := by
  by_cases hfull : (getEvt d 2).entries.length ≥ evtSize 2
  · rw [evtPost, if_pos hfull]
    exact .inl rfl
  · rw [evtPost, if_neg hfull]
    exact .inr ⟨_, rfl⟩

theorem wr_reads_shape (d : Dev) (off : Nat) (v : W64) : ∃ re, wr d off v = { d with regs := re } ∧
    ∀ o, o ≠ off → spGet (resetVal d.fuses.half) re o = rd d o := ⟨_, rfl, fun _ h => rd_wr_other d v h⟩

theorem evtPost_shape (d : Dev) (w0 w1 w2 w3 : W64) : ∃ re wr ho, (evtPost d 2 w0 w1 w2 w3).1 = { d with regs := re, writes := wr, host := ho } ∧
    ∀ o, o ≠ Reg.EVT_STATUS 2 → o ≠ Reg.MSIX_PBA 2 → spGet (resetVal d.fuses.half) re o = rd d o := by
  obtain h | ⟨E, h⟩ := evtPost_cases d w0 w1 w2 w3
  · rw [h, bumpSat, wrF]
    obtain ⟨re, hre, hrd⟩ := wr_reads_shape d (Reg.EVT_STATUS 2) (setF (rd d (Reg.EVT_STATUS 2)) Reg.EVT_STATUS_LOST
      (satAdd Reg.EVT_STATUS_LOST.w (rdF d (Reg.EVT_STATUS 2) Reg.EVT_STATUS_LOST) 1))
    rw [hre]
    exact ⟨re, _, _, rfl, fun o h _ => hrd o h⟩
  · obtain ⟨re, wr, ho, hE, hrd⟩ := evtPosted_shape d E
    exact ⟨re, wr, ho, h.trans hE, fun o _ hp => hrd o hp⟩

theorem postDone_shape (d : Dev) (src arg status : Nat) : ∃ re wr ho, postDone d src arg status = { d with regs := re, writes := wr, host := ho } ∧
    ∀ o, o ≠ Reg.EVT_STATUS 2 → o ≠ Reg.MSIX_PBA 2 → spGet (resetVal d.fuses.half) re o = rd d o := by
  rw [postDone]
  split
  · exact evtPost_shape ..
  · exact ⟨_, _, _, rfl, fun o _ _ => rfl⟩

theorem postDone_prog (d : Dev) (src arg status : Nat) : (postDone d src arg status).prog = d.prog := by
  obtain ⟨re, wr, ho, h, -⟩ := postDone_shape d src arg status
  rw [h]

theorem rd_postDone (d : Dev) (src arg status : Nat) {o : Nat} (h1 : o ≠ Reg.EVT_STATUS 2) (h2 : o ≠ Reg.MSIX_PBA 2) :
    rd (postDone d src arg status) o = rd d o := by
  obtain ⟨re, wr, ho, h, hrd⟩ := postDone_shape d src arg status
  rw [h]
  exact hrd o h1 h2

end Sys2Proof.Machine
end

section
/-!
PROOF. Program banks: verification (R68).
-/
namespace Sys2Proof.Machine

/-- The header's first fields are right (R68). -/
abbrev HeaderGood (d : Dev) (b : Nat) : Prop :=
  leNat (headerBytes d b 0 4) = 0x54525A4E ∧ leNat (headerBytes d b 4 2) = 1 ∧ leNat (headerBytes d b 6 2) = 24

/-- The signature over the image is good under the rotation key (R68). -/
def signatureGood (d : Dev) (b : Nat) : Bool :=
  d.prog.rotKey.any fun key => ecdsaOk key (sha384 (headerBytes d b 0 0x80 ++ ((List.range 24).map (rowImage d 0 b)).flatten))
    (beNat ((headerBytes d b 0x80 96).take 48)) (beNat ((headerBytes d b 0x80 96).drop 48))

/-- A failed check: the bank is LOADABLE, with its error and the row. -/
def verifyFail (d : Dev) (b e row : Nat) : Dev := raise (setBank (progError d e row) b 0) Fk.imageReject 0 0 0 0

/-- The first copy that fails the check of a row. -/
def copyFail (d : Dev) (b : Nat) (inject : Option Nat) : Option Nat :=
  (List.range 31).findSome? fun c => crcFail d (c + 1) b (inject == some (c + 1))

/-- Verification once the header is good: the rows, the signature, the calendar and the copies. -/
theorem verifyRun_eq (d : Dev) (b : Nat) (inject : Option Nat) : verifyRun d b inject =
    if leNat (headerBytes d b 0 4) ≠ 0x54525A4E ∨ leNat (headerBytes d b 4 2) ≠ 1 ∨ leNat (headerBytes d b 6 2) ≠ 24 then verifyFail d b 1 0x1F
    else match crcFail d 0 b (inject == some 0) with
      | some r => verifyFail d b 2 r
      | none =>
        if ¬ signatureGood d b then verifyFail d b 3 0x1F
        else if leNat (headerBytes d b 0x10 4) ≠ calendarId d (activeSlot d) then verifyFail d b 4 0x1F
        else match copyFail (replicateBank d b) b inject with
          | some r => verifyFail (replicateBank d b) b 5 r
          | none => setBank (replicateBank d b) b 2 := by
  have hs : signatureGood d b = match d.prog.rotKey with
      | some k => ecdsaOk k (sha384 (headerBytes d b 0 0x80 ++ ((List.range 24).map (rowImage d 0 b)).flatten))
          (beNat ((headerBytes d b 0x80 96).take 48)) (beNat ((headerBytes d b 0x80 96).drop 48))
      | none => false := by
    rw [signatureGood]
    cases d.prog.rotKey <;> rfl
  rw [hs, verifyRun]
  rfl

section
variable {d : Dev} {b r : Nat} {inject : Option Nat}

theorem verifyRun_header (h : ¬ HeaderGood d b) : verifyRun d b inject = verifyFail d b 1 0x1F := by
  rw [verifyRun_eq, if_pos]
  unfold HeaderGood at h
  omega

variable (hh : HeaderGood d b)
include hh

theorem verifyRun_row (hr : crcFail d 0 b (inject == some 0) = some r) : verifyRun d b inject = verifyFail d b 2 r := by
  obtain ⟨h1, h2, h3⟩ := hh
  rw [verifyRun_eq, if_neg (by omega), hr]

variable (hr : crcFail d 0 b (inject == some 0) = none)
include hr

theorem verifyRun_signature (hs : signatureGood d b = false) : verifyRun d b inject = verifyFail d b 3 0x1F := by
  obtain ⟨h1, h2, h3⟩ := hh
  rw [verifyRun_eq, if_neg (by omega), hr]
  exact if_pos (by rw [hs]; decide)

variable (hs : signatureGood d b = true)
include hs

theorem verifyRun_calendar (hc : leNat (headerBytes d b 0x10 4) ≠ calendarId d (activeSlot d)) :
    verifyRun d b inject = verifyFail d b 4 0x1F := by
  obtain ⟨h1, h2, h3⟩ := hh
  rw [verifyRun_eq, if_neg (by omega), hr]
  exact (if_neg (by rw [hs]; decide)).trans (if_pos hc)

variable (hc : leNat (headerBytes d b 0x10 4) = calendarId d (activeSlot d))
include hc

theorem verifyRun_copies : verifyRun d b inject = match copyFail (replicateBank d b) b inject with
    | some r => verifyFail (replicateBank d b) b 5 r
    | none => setBank (replicateBank d b) b 2 := by
  obtain ⟨h1, h2, h3⟩ := hh
  rw [verifyRun_eq, if_neg (by omega), hr]
  exact (if_neg (by rw [hs]; decide)).trans (if_neg (not_not.mpr hc))

end

/-! What a failed check and a passed verification leave. -/

theorem bankState_verifyFail (d : Dev) (b e row : Nat) : bankState (verifyFail d b e row) b = 0 := by
  rw [verifyFail, bankState, rdF_raise, ← bankState, bankState_setBank_same]

theorem rdF_verifyFail_ERROR (d : Dev) (b e row : Nat) : rdF (verifyFail d b e row) Reg.PROG_STATUS Reg.PROG_STATUS_ERROR = e % 16 := by
  rw [verifyFail, rdF_raise, rdF_setBank _ b 0 (by decide) (by decide), rdF_progError_ERROR]

theorem rdF_verifyFail_ERROR_ROW (d : Dev) (b e row : Nat) :
    rdF (verifyFail d b e row) Reg.PROG_STATUS Reg.PROG_STATUS_ERROR_ROW = row % 32 := by
  rw [verifyFail, rdF_raise, rdF_setBank _ b 0 (by decide) (by decide), rdF_progError_ERROR_ROW]

theorem verifyFail_prog (d : Dev) (b e row : Nat) : (verifyFail d b e row).prog = d.prog := by
  rw [verifyFail, raise_prog, setBank, wrF_prog, progError, wrFs_prog]

theorem replicateBank_header (d : Dev) (b : Nat) : (replicateBank d b).prog.header = d.prog.header := rfl

theorem crcFail_lt {d : Dev} {copy b r : Nat} {inject : Bool} (h : crcFail d copy b inject = some r) : r < 24 := by
  rw [crcFail] at h
  split at h
  · injection h with h
    omega
  · exact List.mem_range.mp (List.mem_of_find?_eq_some h)

theorem copyFail_lt {d : Dev} {b r : Nat} {inject : Option Nat} (h : copyFail d b inject = some r) : r < 24 := by
  obtain ⟨c, -, hc⟩ := List.exists_of_findSome?_eq_some h
  exact crcFail_lt hc

theorem copyFail_eq_none (d : Dev) (b : Nat) :
    copyFail d b none = none ↔ ((List.range 31).all fun c => (crcFail d (c + 1) b false).isNone) = true := by
  rw [copyFail, List.findSome?_eq_none_iff, List.all_eq_true]
  exact forall₂_congr fun c _ => Option.isNone_iff_eq_none.symm

theorem findSome?_congr {α β : Type} {l : List α} {f g : α → Option β} (h : ∀ x ∈ l, f x = g x) : l.findSome? f = l.findSome? g := by
  induction l with
  | nil => rfl
  | cons x t ih =>
    rw [List.findSome?_cons, List.findSome?_cons, h x (List.mem_cons_self ..), ih fun y hy => h y (List.mem_cons_of_mem x hy)]

/-- An injection into copy c + 1 is found there, unless a copy before it fails. -/
theorem copyFail_inject (d : Dev) (b : Nat) {c : Nat} (hc : c < 31) :
    copyFail d b (some (c + 1)) = some (((List.range c).findSome? fun k => crcFail d (k + 1) b false).getD 0) := by
  have hsplit : List.range 31 = List.range c ++ c :: (List.range (31 - c - 1)).map (c + 1 + ·) := by
    rw [show (31 : Nat) = c + (1 + (31 - c - 1)) by omega, List.range_add, List.range_add]
    simp [List.map_map, Function.comp_def, Nat.add_assoc]
  have hbefore : ((List.range c).findSome? fun k => crcFail d (k + 1) b (some (c + 1) == some (k + 1))) =
      (List.range c).findSome? fun k => crcFail d (k + 1) b false :=
    findSome?_congr fun k hk => by
      have hkc := List.mem_range.mp hk
      have hne : (some (c + 1) == some (k + 1)) = false := by simp; omega
      rw [hne]
  have hat : crcFail d (c + 1) b (some (c + 1) == some (c + 1)) = some 0 := by simp [crcFail]
  rw [copyFail, hsplit, List.findSome?_append, hbefore, List.findSome?_cons, hat]
  cases (List.range c).findSome? fun k => crcFail d (k + 1) b false <;> rfl

/-- The bank ends ARMED exactly when the image passes each check and then every copy does. -/
theorem bankState_verifyRun (d : Dev) (b : Nat) : (verifyRun d b none).prog.header = d.prog.header ∧ bankState (verifyRun d b none) b =
    if HeaderGood d b ∧ crcFail d 0 b false = none ∧ signatureGood d b = true ∧
      leNat (headerBytes d b 0x10 4) = calendarId d (activeSlot d) ∧
      ((List.range 31).all fun c => (crcFail (replicateBank d b) (c + 1) b false).isNone) = true then 2 else 0 := by
  have hfail : ∀ {e row : Nat} {p : Prop} [Decidable p], verifyRun d b none = verifyFail d b e row → ¬ p →
      (verifyRun d b none).prog.header = d.prog.header ∧ bankState (verifyRun d b none) b = if p then 2 else 0 := by
    intro e row p _ h hp
    rw [h, verifyFail_prog, bankState_verifyFail, if_neg hp]
    exact ⟨rfl, rfl⟩
  by_cases hh : HeaderGood d b
  swap
  · exact hfail (verifyRun_header hh) fun h => hh h.1
  rcases hr : crcFail d 0 b false with _ | r
  swap
  · exact hfail (verifyRun_row hh hr) fun h => Option.some_ne_none r h.2.1
  rcases hs : signatureGood d b with _ | _
  · exact hfail (verifyRun_signature hh hr hs) fun h => Bool.false_ne_true h.2.2.1
  by_cases hc : leNat (headerBytes d b 0x10 4) = calendarId d (activeSlot d)
  swap
  · exact hfail (verifyRun_calendar hh hr hs hc) fun h => hc h.2.2.2.1
  rw [verifyRun_copies (inject := none) hh hr hs hc]
  rcases hf : copyFail (replicateBank d b) b none with _ | r
  · rw [if_pos ⟨hh, rfl, rfl, hc, (copyFail_eq_none _ b).mp hf⟩]
    exact ⟨rfl, bankState_setBank_same _ b 2⟩
  · have hn : ¬ ((List.range 31).all fun c => (crcFail (replicateBank d b) (c + 1) b false).isNone) = true := by
      rw [← copyFail_eq_none, hf]
      exact Option.some_ne_none r
    rw [if_neg fun h => hn h.2.2.2.2]
    have hp : (verifyFail (replicateBank d b) b 5 r).prog.header = d.prog.header := by rw [verifyFail_prog, replicateBank_header]
    exact ⟨hp, bankState_verifyFail (replicateBank d b) b 5 r⟩

/-- The error that verification records when an injection fails copy c + 1. -/
theorem verifyRun_inject (d : Dev) (b : Nat) {c : Nat} (hc : c < 31) : ∃ x e row, e < 16 ∧ row < 32 ∧
    verifyRun d b (some (c + 1)) = verifyFail x b e row ∧ (e, row) =
      if ¬ HeaderGood d b then (1, 0x1F)
      else if (crcFail d 0 b false).isSome = true then (2, (crcFail d 0 b false).getD 0)
      else if ¬ signatureGood d b = true then (3, 0x1F)
      else if leNat (headerBytes d b 0x10 4) ≠ calendarId d (activeSlot d) then (4, 0x1F)
      else (5, ((List.range c).findSome? fun k => crcFail (replicateBank d b) (k + 1) b false).getD 0) := by
  by_cases hh : HeaderGood d b
  swap
  · exact ⟨d, 1, 0x1F, by omega, by omega, verifyRun_header hh, (if_pos hh).symm⟩
  rw [if_neg (not_not.mpr hh)]
  have hi : (some (c + 1) == some 0) = false := by simp
  rcases hr : crcFail d 0 b false with _ | r
  swap
  · exact ⟨d, 2, r, by omega, by have := crcFail_lt hr; omega, verifyRun_row hh (by rw [hi]; exact hr), rfl⟩
  rw [if_neg (by decide)]
  have hr' : crcFail d 0 b (some (c + 1) == some 0) = none := by rw [hi]; exact hr
  rcases hs : signatureGood d b with _ | _
  · exact ⟨d, 3, 0x1F, by omega, by omega, verifyRun_signature hh hr' hs, rfl⟩
  rw [if_neg (by decide)]
  by_cases hcal : leNat (headerBytes d b 0x10 4) = calendarId d (activeSlot d)
  swap
  · exact ⟨d, 4, 0x1F, by omega, by omega, verifyRun_calendar hh hr' hs hcal, (if_pos hcal).symm⟩
  have hf := copyFail_inject (replicateBank d b) b hc
  refine ⟨replicateBank d b, 5, _, by omega, ?_, ?_, (if_neg (not_not.mpr hcal)).symm⟩
  · have := copyFail_lt hf
    omega
  · rw [verifyRun_copies hh hr' hs hcal, hf]

theorem startedBy_prog (d : Dev) (src agent : Nat) : (startedBy d src agent).prog = d.prog := rfl

/-- Verification of a VERIFYING window bank, with no injection pending: its outcome, and a completion entry. -/
theorem verifyDone_idle {d : Dev} (hb : bankState d (windowBank d) = 1)
    (hi : flagF d Reg.FAULT_INJECT Reg.FAULT_INJECT_PENDING = false) :
    verifyDone d = postDone (startedBy (verifyRun d (windowBank d) none) 8 d.prog.startedBy) 8 (windowBank d) Reg.PROG_STATUS := by
  have hj : (if rdF d Reg.FAULT_INJECT Reg.FAULT_INJECT_SOURCE / 256 = 2 then
      injectAt d 3 (rdF d Reg.FAULT_INJECT Reg.FAULT_INJECT_SOURCE) 0 else (0, d)) = (0, d) := by
    split
    · exact injectAt_idle hi ..
    · rfl
  rw [verifyDone, if_neg (not_not.mpr hb)]
  simp only [hj, if_true]

theorem rd_verifyDone {d : Dev} (hb : bankState d (windowBank d) = 1) (hi : flagF d Reg.FAULT_INJECT Reg.FAULT_INJECT_PENDING = false) :
    rd (verifyDone d) Reg.PROG_STATUS = rd (verifyRun d (windowBank d) none) Reg.PROG_STATUS ∧
      (verifyDone d).prog = (verifyRun d (windowBank d) none).prog := by
  rw [verifyDone_idle hb hi, rd_postDone _ _ _ _ (by decide) (by decide), postDone_prog]
  exact ⟨rd_startedBy .., startedBy_prog ..⟩

theorem exec_progVerifyDone (s : State) : exec .progVerifyDone s = .next (commit s (verifyDone s.dev)) := rfl

end Sys2Proof.Machine
end

section
/-!
PROOF. Program banks: PROG_LOAD and PROG_BANK_SEL, the epoch boundary and the end of a drain (R65 to R69).
-/
namespace Sys2Proof.Machine

/-! The writes of PROG_LOAD and PROG_BANK_SEL. -/

theorem isOwnReg_PROG_LOAD : isOwnReg Reg.PROG_LOAD Reg.PROG_LOAD 0 0 = true := by decide +kernel
theorem isOwnReg_PROG_BANK_SEL : isOwnReg Reg.PROG_BANK_SEL Reg.PROG_BANK_SEL 0 0 = true := by decide +kernel

theorem regEffect_microBlock {c : RegW} {m : Mem} {d : Dev} (h : 28 ≤ c.off / 0x100000) : regEffect c m d = effMicro c d := by
  simp only [regEffect]
  repeat rw [if_neg (by omega)]

theorem regEffect_PROG_LOAD (agent : Nat) (v x : W64) (m : Mem) (d : Dev) :
    regEffect ⟨agent, Reg.PROG_LOAD, Reg.PROG_LOAD, 0, 0, v, x⟩ m d = orReject d (progLoad agent v d) := by
  rw [regEffect_microBlock (show 28 ≤ _ / 0x100000 by dsimp only; decide), effMicro, if_neg (show Reg.PROG_LOAD ≠ Reg.PROG_BANK_SEL by decide), if_pos rfl]

theorem regEffect_PROG_BANK_SEL (agent : Nat) (v x : W64) (m : Mem) (d : Dev) :
    regEffect ⟨agent, Reg.PROG_BANK_SEL, Reg.PROG_BANK_SEL, 0, 0, v, x⟩ m d =
      (bankState d (getF v Reg.PROG_BANK_SEL_BANK) == 2, bankSelect (getF v Reg.PROG_BANK_SEL_BANK) d) := by
  rw [regEffect_microBlock (show 28 ≤ _ / 0x100000 by dsimp only; decide), effMicro, if_pos rfl]

/-- Every field of the register at an offset takes every value that fits it. -/
def fullRange (off : Nat) : Bool := (regAt off).any fun p => p.1.flds.all fun f => f.min == 0 && f.max + 1 == 2 ^ f.w

theorem fieldsInRange_of_full {off : Nat} (h : fullRange off = true) (v : W64) : FieldsInRange off v := by
  rw [fullRange, Option.any_eq_true] at h
  obtain ⟨p, hp, hall⟩ := h
  rw [FieldsInRange, hp]
  refine List.all_eq_true.mpr fun f hf => ?_
  have hfull := List.all_eq_true.mp hall f hf
  have hlt := bits_lt v.toNat f.lo f.w
  simp only [Bool.and_eq_true, beq_iff_eq] at hfull
  simp only [Bool.or_eq_true, Bool.and_eq_true, decide_eq_true_eq]
  omega

theorem fieldsInRange_PROG_LOAD (v : W64) : FieldsInRange Reg.PROG_LOAD v := fieldsInRange_of_full (by decide +kernel) v
theorem fieldsInRange_PROG_BANK_SEL (v : W64) : FieldsInRange Reg.PROG_BANK_SEL v := fieldsInRange_of_full (by decide +kernel) v

section
variable {m : Mem} {d d' : Dev} {agent b : Nat} {v : W64}

theorem regWrite_PROG_LOAD (h : WriteReaches d agent Reg.PROG_LOAD v) (hw : progLoad agent v d = some d') :
    regWrite agent Reg.PROG_LOAD v m d = d' :=
  regWrite_accepted isOwnReg_PROG_LOAD (by decide) h (fieldsInRange_PROG_LOAD v) (by rw [regEffect_PROG_LOAD, hw]; rfl)

theorem regWrite_PROG_LOAD_refused (h : WriteReaches d agent Reg.PROG_LOAD v) (hw : progLoad agent v d = none) :
    regWrite agent Reg.PROG_LOAD v m d = hostReject d agent Reg.PROG_LOAD (islandsOf d Reg.PROG_LOAD v) :=
  regWrite_refused isOwnReg_PROG_LOAD h (fieldsInRange_PROG_LOAD v) (by rw [regEffect_PROG_LOAD, hw]; rfl)

theorem progLoad_start (agent : Nat) (d : Dev) : progLoad agent (setF 0 Reg.PROG_LOAD_START 1) d = progStart agent d := rfl
theorem progLoad_disarm (agent : Nat) (d : Dev) : progLoad agent (setF 0 Reg.PROG_LOAD_DISARM 1) d = progDisarm d := rfl

theorem getF_PROG_BANK_SEL_BANK (hb : b < 2) : getF (setF 0 Reg.PROG_BANK_SEL_BANK b) Reg.PROG_BANK_SEL_BANK = b :=
  (getF_setF _ _ _ (by decide)).trans (Nat.mod_eq_of_lt hb)

/-- PROG_BANK_SEL naming the ARMED bank makes a switch pending. -/
theorem regWrite_PROG_BANK_SEL_armed (hb : b < 2) (h : WriteReaches d agent Reg.PROG_BANK_SEL (setF 0 Reg.PROG_BANK_SEL_BANK b))
    (ha : bankState d b = 2) : regWrite agent Reg.PROG_BANK_SEL (setF 0 Reg.PROG_BANK_SEL_BANK b) m d =
      wrF (wrF d Reg.PROG_BANK_SEL Reg.PROG_BANK_SEL_BANK b) Reg.PROG_EPOCH Reg.PROG_EPOCH_SWITCH_PENDING 1 :=
  regWrite_accepted isOwnReg_PROG_BANK_SEL (by decide) h (fieldsInRange_PROG_BANK_SEL _) (by
    rw [regEffect_PROG_BANK_SEL, getF_PROG_BANK_SEL_BANK hb, bankSelect, if_pos ha, ha]
    rfl)

/-- PROG_BANK_SEL naming another bank is refused with ERROR SELECT. -/
theorem regWrite_PROG_BANK_SEL_other (hb : b < 2) (h : WriteReaches d agent Reg.PROG_BANK_SEL (setF 0 Reg.PROG_BANK_SEL_BANK b))
    (ha : bankState d b ≠ 2) : regWrite agent Reg.PROG_BANK_SEL (setF 0 Reg.PROG_BANK_SEL_BANK b) m d =
      hostReject (progError d 6 0x1F) agent Reg.PROG_BANK_SEL (islandsOf d Reg.PROG_BANK_SEL (setF 0 Reg.PROG_BANK_SEL_BANK b)) :=
  regWrite_refused isOwnReg_PROG_BANK_SEL h (fieldsInRange_PROG_BANK_SEL _) (by
    rw [regEffect_PROG_BANK_SEL, getF_PROG_BANK_SEL_BANK hb, bankSelect, if_neg ha, beq_false_of_ne ha])

end

theorem exec_progStart (s : State) (agent : Nat) : exec (.progStart agent) s =
    .next (commit s (regWrite agent Reg.PROG_LOAD (setF 0 Reg.PROG_LOAD_START 1) s.mem s.dev)) := rfl
theorem exec_progDisarm (s : State) (agent : Nat) : exec (.progDisarm agent) s =
    .next (commit s (regWrite agent Reg.PROG_LOAD (setF 0 Reg.PROG_LOAD_DISARM 1) s.mem s.dev)) := rfl
theorem exec_progBankSelWrite (s : State) (agent b : Nat) : exec (.progBankSelWrite agent b) s =
    .next (commit s (regWrite agent Reg.PROG_BANK_SEL (setF 0 Reg.PROG_BANK_SEL_BANK b) s.mem s.dev)) := rfl
theorem exec_epochBoundary (s : State) : exec .epochBoundary s = .next (commit s (epochBoundary s.dev)) := rfl
theorem exec_drainEnd (s : State) : exec .drainEnd s = .next (commit s (drainEnd s.dev)) := rfl

/-! START and DISARM. -/

/-- A LOADABLE window bank after START. -/
def progStarted (d : Dev) (agent : Nat) : Dev :=
  { setBank (progError d 0 0x1F) (windowBank d) 1 with prog := { d.prog with startedBy := agent } }

theorem progStart_loadable {d : Dev} (h : bankState d (windowBank d) = 0) (agent : Nat) : progStart agent d = some (progStarted d agent) :=
  if_pos h

theorem progStart_refused {d : Dev} (h : bankState d (windowBank d) ≠ 0) (agent : Nat) : progStart agent d = none := if_neg h

theorem progDisarm_armed {d : Dev} (h : bankState d (windowBank d) = 2) (hp : flagF d Reg.PROG_EPOCH Reg.PROG_EPOCH_SWITCH_PENDING = false) :
    progDisarm d = some (setBank d (windowBank d) 0) := if_pos ⟨h, by rw [hp]; decide⟩

theorem progDisarm_refused {d : Dev} (h : bankState d (windowBank d) ≠ 2) : progDisarm d = none := if_neg fun g => h g.1

theorem rd_withProg (d : Dev) (p : ProgSt) (o : Nat) : rd { d with prog := p } o = rd d o := rfl

theorem rd_progStarted (d : Dev) (agent o : Nat) : rd (progStarted d agent) o = rd (setBank (progError d 0 0x1F) (windowBank d) 1) o := by
  rw [progStarted, rd_withProg]

theorem progStarted_startedBy (d : Dev) (agent : Nat) : (progStarted d agent).prog.startedBy = agent := by rw [progStarted]

theorem progStarted_spec (d : Dev) (agent : Nat) : bankState (progStarted d agent) (windowBank d) = 1 ∧
    bankState (progStarted d agent) (1 - windowBank d) = bankState d (1 - windowBank d) ∧
    rdF (progStarted d agent) Reg.PROG_STATUS Reg.PROG_STATUS_ERROR = 0 ∧
    rdF (progStarted d agent) Reg.PROG_STATUS Reg.PROG_STATUS_ERROR_ROW = 0x1F ∧ (progStarted d agent).prog.startedBy = agent := by
  have hrd := rd_progStarted d agent Reg.PROG_STATUS
  refine ⟨?_, ?_, ?_, ?_, progStarted_startedBy d agent⟩
  · rw [bankState_congr hrd, bankState_setBank_same]
  · rw [bankState_congr hrd, bankState_setBank_other _ (windowBank_lt d), bankState_progError]
  · rw [rdF_congr hrd, rdF_setBank _ _ _ (by decide) (by decide), rdF_progError_ERROR]
  · rw [rdF_congr hrd, rdF_setBank _ _ _ (by decide) (by decide), rdF_progError_ERROR_ROW]

/-! The switch and the drain (R65, R69). -/

/-- The banks at the boundary: the other bank is ACTIVE, and the old one DRAINING when there was one. -/
def switchBanks (d : Dev) : Dev :=
  if flagF d Reg.PROG_EPOCH Reg.PROG_EPOCH_ACTIVE_VALID then setBank (setBank d (windowBank d) 3) (1 - windowBank d) 4
  else setBank d (windowBank d) 3

/-- The fields of PROG_EPOCH that the boundary sets. -/
def switchFields (d : Dev) : List (Fld × Nat) :=
  [(Reg.PROG_EPOCH_SWITCHES, satAdd 16 (rdF d Reg.PROG_EPOCH Reg.PROG_EPOCH_SWITCHES) 1), (Reg.PROG_EPOCH_SWITCH_PENDING, 0),
    (Reg.PROG_EPOCH_DRAINING, b2n (flagF d Reg.PROG_EPOCH Reg.PROG_EPOCH_ACTIVE_VALID)), (Reg.PROG_EPOCH_ACTIVE_VALID, 1),
    (Reg.PROG_EPOCH_EPOCH, windowBank d)]

theorem rd_switchBanks (d : Dev) {o : Nat} (h : o ≠ Reg.PROG_STATUS) : rd (switchBanks d) o = rd d o := by
  rw [switchBanks]
  split
  · rw [rd_setBank_other _ _ _ h, rd_setBank_other _ _ _ h]
  · exact rd_setBank_other _ _ _ h

theorem switchBanks_furs (d : Dev) : (switchBanks d).furs = d.furs := by
  rw [switchBanks]
  split
  · rw [setBank, wrF_furs, setBank, wrF_furs]
  · rw [setBank, wrF_furs]

theorem bankState_switchBanks (d : Dev) : bankState (switchBanks d) (windowBank d) = 3 ∧ bankState (switchBanks d) (1 - windowBank d) =
    if flagF d Reg.PROG_EPOCH Reg.PROG_EPOCH_ACTIVE_VALID then 4 else bankState d (1 - windowBank d) := by
  have hb := windowBank_lt d
  have hbb : 1 - (1 - windowBank d) = windowBank d := by omega
  rw [switchBanks]
  split
  · refine ⟨?_, bankState_setBank_same ..⟩
    have ho := bankState_setBank_other (setBank d (windowBank d) 3) (b := 1 - windowBank d) (by omega) 4
    rw [hbb] at ho
    rw [ho, bankState_setBank_same]
  · exact ⟨bankState_setBank_same .., bankState_setBank_other _ hb _⟩

theorem epochBoundary_pending {d : Dev} (h : flagF d Reg.PROG_EPOCH Reg.PROG_EPOCH_SWITCH_PENDING = true) :
    ∃ x, epochBoundary d = wrFs (wrF (switchBanks d) Reg.PROG_STATUS Reg.PROG_STATUS_ROTATION_ID_LOW x) Reg.PROG_EPOCH (switchFields d) := by
  refine ⟨leNat (headerBytes (switchBanks d) (windowBank d) 8 1), ?_⟩
  have hsw : rdF (wrF (switchBanks d) Reg.PROG_STATUS Reg.PROG_STATUS_ROTATION_ID_LOW (leNat (headerBytes (switchBanks d) (windowBank d) 8 1)))
      Reg.PROG_EPOCH Reg.PROG_EPOCH_SWITCHES = rdF d Reg.PROG_EPOCH Reg.PROG_EPOCH_SWITCHES :=
    (rdF_wrF_other _ _ (.inl (by decide))).trans (rdF_congr (rd_switchBanks d (by decide)) _)
  rw [epochBoundary, if_pos h, switchFields, ← hsw]
  rfl

theorem drainEnd_drained {d : Dev} (h : bankState d (windowBank d) = 4)
    (hd : ∀ e ∈ d.furs, ∀ q ∈ furPkts e.2, pcGet q.2 Pc.epoch ≠ windowBank d) :
    drainEnd d = wrF (setBank d (windowBank d) 0) Reg.PROG_EPOCH Reg.PROG_EPOCH_DRAINING 0 := by
  refine if_pos ⟨h, ?_⟩
  simp only [List.any_eq_true, beq_iff_eq, not_exists, not_and]
  exact hd

theorem drainEnd_waits {d : Dev} (hd : ∃ e ∈ d.furs, ∃ q ∈ furPkts e.2, pcGet q.2 Pc.epoch = windowBank d) : drainEnd d = d := by
  refine if_neg fun h => h.2 ?_
  simpa only [List.any_eq_true, beq_iff_eq] using hd

end Sys2Proof.Machine

namespace Sys2Proof
open Machine

/-- Settles O54: each clause is the equation of its command over the fields of PROG_STATUS and PROG_EPOCH; a window write goes byte by
byte through its two microwords, and verification check by check. -/
theorem programBanks : Obligations.ProgramBanks := by
  unfold Obligations.ProgramBanks
  refine ⟨?window, ?load, ?verify, ?inject, ?select, ?boundary, ?drain⟩
  case window =>
    intro s agent r k v b hr hk hb hreach _
    subst hb
    rw [exec_microWindowWrite hr hk hreach, windowStore, window_offset]
    refine ⟨fun hl => ?_, fun hl => ?_⟩
    · rw [if_pos hl]
      have hpair := windowWrite_micro hl hr hk v
      generalize windowWrite (0x10000 * r + 8 * k) (leBytes 8 v.toNat) s.dev = x at hpair
      obtain ⟨hlow, hhigh, hrest, hnano, hheader⟩ := hpair
      exact ⟨_, rfl, hlow, hhigh, hrest, hnano, hheader⟩
    · rw [if_neg hl, windowWrite_rejected hl]
      refine ⟨_, rfl, ?_, ?_, ?_, ?_⟩
      · rw [commit_prog, hostReject_prog, progError, wrFs_prog, bumpSat_prog]
      · rw [rdF_commit, rdF_congr (rd_hostReject_other _ _ _ _ (by decide)), rdF_progError_ERROR]
      · rw [rdF_commit, rdF_congr (rd_hostReject_other _ _ _ _ (by decide)), rdF_progError_ERROR_ROW]
      · rw [rdF_commit, rdF_congr (rd_hostReject_other _ _ _ _ (by decide)), progError, rdF_wrFs_disjoint _ _ _ (by decide) (by decide),
          rdF_bumpSat_same _ _ _ _ (by decide)]
        rfl
  case load =>
    intro s agent b hb hreach
    subst hb
    refine ⟨fun hl => ?_, fun hl => ?_, fun hl hp => ?_, fun hl => ?_⟩
    · rw [exec_progStart, regWrite_PROG_LOAD (hreach _) ((progLoad_start ..).trans (progStart_loadable hl agent))]
      obtain ⟨h1, h2, h3, h4, h5⟩ := progStarted_spec s.dev agent
      refine ⟨_, rfl, ?_, ?_, ?_, ?_, ?_⟩
      · rw [bankState_congr (rd_commit ..), h1]
      · rw [bankState_congr (rd_commit ..), h2]
      · rw [rdF_commit, h3]
      · rw [rdF_commit, h4]
      · rw [commit_prog, h5]
    · rw [exec_progStart, regWrite_PROG_LOAD_refused (hreach _) ((progLoad_start ..).trans (progStart_refused hl agent))]
      exact ⟨_, rfl, (rd_commit ..).trans (rd_hostReject_other _ _ _ _ (by decide)), (commit_prog ..).trans (hostReject_prog ..)⟩
    · rw [exec_progDisarm, regWrite_PROG_LOAD (hreach _) ((progLoad_disarm ..).trans (progDisarm_armed hl hp))]
      refine ⟨_, rfl, ?_, ?_⟩
      · rw [bankState_congr (rd_commit ..), bankState_setBank_same]
      · rw [bankState_congr (rd_commit ..), bankState_setBank_other _ (windowBank_lt _)]
    · rw [exec_progDisarm, regWrite_PROG_LOAD_refused (hreach _) ((progLoad_disarm ..).trans (progDisarm_refused hl))]
      exact ⟨_, rfl, (rd_commit ..).trans (rd_hostReject_other _ _ _ _ (by decide))⟩
  case verify =>
    intro s b hb h1 hi
    subst hb
    obtain ⟨hrd, hprog⟩ := rd_verifyDone h1 hi
    have hst := (rd_commit s (verifyDone s.dev) Reg.PROG_STATUS).trans hrd
    rw [exec_progVerifyDone]
    refine ⟨fun hh => ?_, fun r g1 g2 g3 hr => ?_, ?_⟩
    · rw [verifyRun_header (fun g : HeaderGood s.dev (windowBank s.dev) => by obtain ⟨g1, g2, g3⟩ := g; omega)] at hst hprog
      exact ⟨_, rfl, (bankState_congr hst _).trans (bankState_verifyFail ..), (rdF_congr hst _).trans (rdF_verifyFail_ERROR ..),
        (commit_prog ..).trans (hprog.trans (verifyFail_prog ..))⟩
    · rw [verifyRun_row (inject := none) ⟨g1, g2, g3⟩ hr] at hst hprog
      have hlt := crcFail_lt hr
      exact ⟨_, rfl, (bankState_congr hst _).trans (bankState_verifyFail ..), (rdF_congr hst _).trans (rdF_verifyFail_ERROR ..),
        (rdF_congr hst _).trans ((rdF_verifyFail_ERROR_ROW ..).trans (Nat.mod_eq_of_lt (by omega))),
        (commit_prog ..).trans (hprog.trans (verifyFail_prog ..))⟩
    · obtain ⟨hheader, hstate⟩ := bankState_verifyRun s.dev (windowBank s.dev)
      refine ⟨_, rfl, ?_, ?_⟩
      · rw [commit_prog, hprog, hheader]
      · rw [bankState_congr hst, hstate]
        exact if_congr (by simp only [HeaderGood, signatureGood, and_assoc]) rfl rfl
  case inject =>
    intro d b c _ hc
    obtain ⟨x, e, row, he, hrow, hx, hcode⟩ := verifyRun_inject d b hc
    rw [hx, bankState_verifyFail, rdF_verifyFail_ERROR, rdF_verifyFail_ERROR_ROW, Nat.mod_eq_of_lt he, Nat.mod_eq_of_lt hrow]
    exact ⟨rfl, hcode⟩
  case select =>
    intro s agent b hb hreach _
    refine ⟨fun ha => ?_, fun ha => ?_⟩
    · rw [exec_progBankSelWrite, regWrite_PROG_BANK_SEL_armed hb (hreach _) ha]
      refine ⟨_, rfl, ?_, ?_, ?_⟩
      · rw [flagF_commit, flagF, rdF_wrF_same _ _ _ _ (by decide)]
        rfl
      · rw [rdF_commit, rdF_wrF_other _ _ (.inl (by decide)), rdF_wrF_same _ _ _ _ (by decide)]
        exact Nat.mod_eq_of_lt hb
      · rw [rdF_commit, rdF_wrF_other _ _ (.inr (by decide)), rdF_wrF_other _ _ (.inl (by decide))]
    · rw [exec_progBankSelWrite, regWrite_PROG_BANK_SEL_other hb (hreach _) ha]
      refine ⟨_, rfl, ?_, ?_⟩
      · rw [rdF_commit, rdF_congr (rd_hostReject_other _ _ _ _ (by decide)), rdF_progError_ERROR]
      · rw [rd_commit, rd_hostReject_other _ _ _ _ (by decide), rd_progError_other _ _ _ (by decide)]
  case boundary =>
    intro s b hb hp
    subst hb
    obtain ⟨x, hx⟩ := epochBoundary_pending hp
    obtain ⟨hnew, hold⟩ := bankState_switchBanks s.dev
    have hst (b' : Nat) : bankState (commit s (epochBoundary s.dev)).dev b' = bankState (switchBanks s.dev) b' := by
      rw [bankState, rdF_commit, hx, rdF_congr (rd_wrFs_other _ _ (by decide))]
      exact rdF_wrF_other _ _ (.inr ⟨.inl (by have := bankFld_low b'; simp only [Reg.PROG_STATUS_ROTATION_ID_LOW]; omega),
        by have := bankFld_low b'; omega⟩)
    have hf (l r : List (Fld × Nat)) (g : Fld) (y : Nat) (hl : switchFields s.dev = l ++ (g, y) :: r) (hg : g.lo + g.w ≤ 64)
        (hr : ∀ z ∈ r, g.lo + g.w ≤ z.1.lo ∨ z.1.lo + z.1.w ≤ g.lo) :
        rdF (commit s (epochBoundary s.dev)).dev Reg.PROG_EPOCH g = y % 2 ^ g.w := by
      rw [rdF_commit, hx, hl, rdF_wrFs_last _ _ l r hg hr]
    rw [exec_epochBoundary]
    refine ⟨_, rfl, ?_, (hst _).trans hnew, (hst _).trans hold, ?_, ?_, ?_, ?_⟩
    · rw [hf (switchFields s.dev).dropLast [] _ _ rfl (by decide) (by simp)]
      exact Nat.mod_eq_of_lt (windowBank_lt s.dev)
    · rw [flagF, hf ((switchFields s.dev).take 3) ((switchFields s.dev).drop 4) _ _ rfl (by decide) (by
        simp [switchFields, Reg.PROG_EPOCH_ACTIVE_VALID, Reg.PROG_EPOCH_EPOCH])]
      rfl
    · rw [flagF, hf ((switchFields s.dev).take 1) ((switchFields s.dev).drop 2) _ _ rfl (by decide) (by
        simp [switchFields, Reg.PROG_EPOCH_SWITCH_PENDING, Reg.PROG_EPOCH_DRAINING, Reg.PROG_EPOCH_ACTIVE_VALID, Reg.PROG_EPOCH_EPOCH])]
      rfl
    · rw [flagF, hf ((switchFields s.dev).take 2) ((switchFields s.dev).drop 3) _ _ rfl (by decide) (by
        simp [switchFields, Reg.PROG_EPOCH_DRAINING, Reg.PROG_EPOCH_ACTIVE_VALID, Reg.PROG_EPOCH_EPOCH])]
      cases flagF s.dev Reg.PROG_EPOCH Reg.PROG_EPOCH_ACTIVE_VALID <;> rfl
    · rw [commit_furs, hx, wrFs_furs, wrF_furs, switchBanks_furs]
  case drain =>
    intro s b hb h4
    subst hb
    refine ⟨fun hd => ?_, fun hd => ?_⟩
    · rw [exec_drainEnd, drainEnd_drained h4 hd]
      refine ⟨_, rfl, ?_, ?_⟩
      · rw [bankState, rdF_commit, rdF_wrF_other _ _ (.inl (by decide)), ← bankState, bankState_setBank_same]
      · rw [flagF_commit, flagF, rdF_wrF_same _ _ _ _ (by decide)]
        rfl
    · rw [exec_drainEnd, drainEnd_waits hd]

end Sys2Proof
end

section
/-!
PROOF. Furrow roles: the registers of an acre's furrows, entries of FURROW_MAP, and the start of an ordered rehash (R75).
-/
namespace Sys2Proof.Machine

/-! The registers of the furrow machine have offsets of their own. -/

theorem FURROW_ROLE_inj {a f g : Nat} (h : Reg.FURROW_ROLE a f = Reg.FURROW_ROLE a g) : f = g := by
  simp only [Reg.FURROW_ROLE] at h
  omega

theorem FURROW_ROLE_ne_MAP {a f k : Nat} (hk : k < 128) : Reg.FURROW_ROLE a f ≠ Reg.FURROW_MAP a k := by
  simp only [Reg.FURROW_ROLE, Reg.FURROW_MAP]
  omega

theorem FURROW_ROLE_ne_REHASH {a f : Nat} (hf : f < 17) : Reg.FURROW_ROLE a f ≠ Reg.REHASH_STATUS a := by
  simp only [Reg.FURROW_ROLE, Reg.REHASH_STATUS]
  omega

theorem FURROW_ROLE_ne_TAKEOVER {a f : Nat} (hf : f < 17) : Reg.FURROW_ROLE a f ≠ Reg.TAKEOVER_STATUS a := by
  simp only [Reg.FURROW_ROLE, Reg.TAKEOVER_STATUS]
  omega

theorem FURROW_MAP_ne_REHASH {a k : Nat} (hk : k < 128) : Reg.FURROW_MAP a k ≠ Reg.REHASH_STATUS a := by
  simp only [Reg.FURROW_MAP, Reg.REHASH_STATUS]
  omega

theorem FURROW_MAP_ne_TAKEOVER {a k : Nat} (hk : k < 128) : Reg.FURROW_MAP a k ≠ Reg.TAKEOVER_STATUS a := by
  simp only [Reg.FURROW_MAP, Reg.TAKEOVER_STATUS]
  omega

theorem REHASH_ne_TAKEOVER (a : Nat) : Reg.REHASH_STATUS a ≠ Reg.TAKEOVER_STATUS a := by
  simp only [Reg.REHASH_STATUS, Reg.TAKEOVER_STATUS]
  omega

/-! Furrows and acres hold no register. -/

theorem rd_putFur (d : Dev) (a f : Nat) (x : Furrow) (o : Nat) : rd (putFur d a f x) o = rd d o := rfl
theorem rd_putAcre (d : Dev) (a : Nat) (x : AcreSt) (o : Nat) : rd (putAcre d a x) o = rd d o := rfl
theorem getAcre_putFur (d : Dev) (a f : Nat) (x : Furrow) (b : Nat) : getAcre (putFur d a f x) b = getAcre d b := rfl
theorem getFur_putAcre (d : Dev) (a : Nat) (x : AcreSt) (b g : Nat) : getFur (putAcre d a x) b g = getFur d b g := rfl
theorem getFur_wr (d : Dev) (o : Nat) (v : W64) (a f : Nat) : getFur (wr d o v) a f = getFur d a f := rfl
theorem getAcre_wr (d : Dev) (o : Nat) (v : W64) (a : Nat) : getAcre (wr d o v) a = getAcre d a := rfl
theorem getFur_wrF (d : Dev) (o : Nat) (g : Fld) (v a f : Nat) : getFur (wrF d o g v) a f = getFur d a f := getFur_wr ..
theorem getAcre_wrF (d : Dev) (o : Nat) (g : Fld) (v a : Nat) : getAcre (wrF d o g v) a = getAcre d a := getAcre_wr ..
theorem getFur_wrFs (d : Dev) (o : Nat) (l : List (Fld × Nat)) (a f : Nat) : getFur (wrFs d o l) a f = getFur d a f := getFur_wr ..
theorem getAcre_wrFs (d : Dev) (o : Nat) (l : List (Fld × Nat)) (a : Nat) : getAcre (wrFs d o l) a = getAcre d a := getAcre_wr ..

theorem roleOf_congr {d e : Dev} {a f : Nat} (h : rd e (Reg.FURROW_ROLE a f) = rd d (Reg.FURROW_ROLE a f)) : roleOf e a f = roleOf d a f :=
  rdF_congr h _

theorem furrowsWith_congr {d e : Dev} {a : Nat} (h : ∀ f, f < 17 → rd e (Reg.FURROW_ROLE a f) = rd d (Reg.FURROW_ROLE a f)) (n : Nat) :
    furrowsWith e a n = furrowsWith d a n :=
  List.filter_congr fun f hf => by rw [roleOf_congr (h f (List.mem_range.mp hf))]

/-! FURROW_MAP. -/

/-- Entry j of the map is a field of its word. -/
theorem furrowMap_eq_getF (d : Dev) (a j : Nat) : furrowMap d a j = getF (rd d (Reg.FURROW_MAP a (j / 2))) ⟨32 * (j % 2), 5⟩ := rfl

theorem furrowMap_lt (d : Dev) (a j : Nat) : furrowMap d a j < 32 := bits_lt _ _ 5

theorem furrowMap_congr {d e : Dev} {a j : Nat} (h : rd e (Reg.FURROW_MAP a (j / 2)) = rd d (Reg.FURROW_MAP a (j / 2))) :
    furrowMap e a j = furrowMap d a j := by rw [furrowMap, furrowMap, h]

theorem mem_entriesOf {d : Dev} {a f i : Nat} : i ∈ entriesOf d a f ↔ i < 256 ∧ furrowMap d a i = f := by
  simp [entriesOf]

theorem setMap_eq (d : Dev) (a i f : Nat) : setMap d a i f = wrF d (Reg.FURROW_MAP a (i / 2)) ⟨32 * (i % 2), 5⟩ f := by
  obtain h | h : i % 2 = 0 ∨ i % 2 = 1 := by omega
  · rw [setMap, if_pos h, h]; rfl
  · rw [setMap, if_neg (by omega), h]; rfl

theorem rd_setMap_other (d : Dev) (a i f : Nat) {o : Nat} (h : o ≠ Reg.FURROW_MAP a (i / 2)) : rd (setMap d a i f) o = rd d o :=
  rd_wr_other d _ h

theorem getFur_setMap (d : Dev) (a i f b g : Nat) : getFur (setMap d a i f) b g = getFur d b g := getFur_wrF ..
theorem getAcre_setMap (d : Dev) (a i f b : Nat) : getAcre (setMap d a i f) b = getAcre d b := getAcre_wrF ..

/-- The entry has its new furrow, and every other entry of the acre its own. -/
theorem furrowMap_setMap (d : Dev) (a i : Nat) {f : Nat} (hf : f < 32) (j : Nat) :
    furrowMap (setMap d a i f) a j = if j = i then f else furrowMap d a j := by
  rw [setMap_eq]
  by_cases hk : j / 2 = i / 2
  · rw [furrowMap_eq_getF, hk]
    by_cases hji : j % 2 = i % 2
    · rw [if_pos (by omega), hji, ← rdF, rdF_wrF_same _ _ _ _ (by dsimp only; omega)]
      exact Nat.mod_eq_of_lt hf
    · rw [if_neg (by omega), ← rdF, rdF_wrF_other _ _ (.inr ⟨by dsimp only; omega, by dsimp only; omega⟩), furrowMap_eq_getF, hk]
      rfl
  · have hne : Reg.FURROW_MAP a (j / 2) ≠ Reg.FURROW_MAP a (i / 2) := by
      simp only [Reg.FURROW_MAP]
      omega
    rw [if_neg (fun h => hk (by rw [h])), wrF, furrowMap_congr (rd_wr_other d _ hne)]

/-! REHASH_STATUS. -/

theorem rehashF_congr {d e : Dev} {a : Nat} (h : rd e (Reg.REHASH_STATUS a) = rd d (Reg.REHASH_STATUS a)) (g : Fld) :
    rehashF e a g = rehashF d a g := rdF_congr h g

theorem rehashActive_congr {d e : Dev} {a : Nat} (h : rd e (Reg.REHASH_STATUS a) = rd d (Reg.REHASH_STATUS a)) :
    rehashActive e a = rehashActive d a := by rw [rehashActive, rehashActive, rehashF_congr h]

theorem rd_setHeld_other (d : Dev) (a : Nat) {o : Nat} (h : o ≠ Reg.REHASH_STATUS a) : rd (setHeld d a) o = rd d o := rd_wr_other d _ h

/-- The count of held packets shares its register with fields that it leaves. -/
theorem rehashF_setHeld (d : Dev) (a : Nat) {g : Fld} (h : g.lo + g.w ≤ 20 ∨ 31 ≤ g.lo) (hg : g.lo + g.w ≤ 64) :
    rehashF (setHeld d a) a g = rehashF d a g :=
  rdF_wrF_other d _ (.inr ⟨by simp only [Reg.REHASH_STATUS_HELD]; omega, hg⟩)

theorem getFur_setHeld (d : Dev) (a b g : Nat) : getFur (setHeld d a) b g = getFur d b g := getFur_wrF ..
theorem getAcre_setHeld (d : Dev) (a b : Nat) : getAcre (setHeld d a) b = getAcre d b := getAcre_wrF ..

/-! The start of a rehash. -/

/-- The acre as a rehash of entry i from furrow old starts: what waited for old joins the hold. -/
def rehashAcre (d : Dev) (a i : Nat) : AcreSt :=
  { getAcre d a with
    rehashStart := d.time
    marks := (getFur d a (furrowMap d a i)).nextSeq
    released := (getAcre d a).released.filter fun e => !(e.1 == furrowMap d a i && mapEntry e.2 == i)
    rehashHold := ((getAcre d a).released.filter fun e => e.1 == furrowMap d a i && mapEntry e.2 == i).map Prod.snd
      ++ (getFur d a (furrowMap d a i)).entryQ.filter fun p => mapEntry p == i }

/-- The old furrow as a rehash of entry i starts. -/
def rehashOld (d : Dev) (a i : Nat) : Furrow :=
  { getFur d a (furrowMap d a i) with entryQ := (getFur d a (furrowMap d a i)).entryQ.filter fun p => mapEntry p != i }

/-- The fields of REHASH_STATUS that the start of a rehash sets. -/
def rehashFields (d : Dev) (a i fnew : Nat) : List (Fld × Nat) :=
  [(Reg.REHASH_STATUS_EXPIRED, 0), (Reg.REHASH_STATUS_DROPS, 0), (Reg.REHASH_STATUS_TO, fnew),
    (Reg.REHASH_STATUS_FROM, furrowMap d a i), (Reg.REHASH_STATUS_ENTRY, i), (Reg.REHASH_STATUS_ACTIVE, 1)]

theorem rehashStart_eq (d : Dev) (a i fnew : Nat) : rehashStart d a i fnew =
    setMap (setHeld (wrFs (putFur (putAcre d a (rehashAcre d a i)) a (furrowMap d a i) (rehashOld d a i)) (Reg.REHASH_STATUS a)
      (rehashFields d a i fnew)) a) a i fnew := rfl

section
variable (d : Dev) (a i fnew : Nat)

theorem getAcre_rehashStart : getAcre (rehashStart d a i fnew) a = rehashAcre d a i := by
  rw [rehashStart_eq, getAcre_setMap, getAcre_setHeld, getAcre_wrFs, getAcre_putFur, getAcre_putAcre_same]

theorem rd_rehashStart_other {o : Nat} (hr : o ≠ Reg.REHASH_STATUS a) (hm : o ≠ Reg.FURROW_MAP a (i / 2)) :
    rd (rehashStart d a i fnew) o = rd d o := by
  rw [rehashStart_eq, rd_setMap_other _ _ _ _ hm, rd_setHeld_other _ _ hr, rd_wrFs_other _ _ hr, rd_putFur, rd_putAcre]

theorem rehashF_rehashStart (hi : i < 256) (l r : List (Fld × Nat)) {g : Fld} {x : Nat} (hl : rehashFields d a i fnew = l ++ (g, x) :: r)
    (h : g.lo + g.w ≤ 20 ∨ 31 ≤ g.lo) (hg : g.lo + g.w ≤ 64) (hr : ∀ y ∈ r, g.lo + g.w ≤ y.1.lo ∨ y.1.lo + y.1.w ≤ g.lo) :
    rehashF (rehashStart d a i fnew) a g = x % 2 ^ g.w := by
  rw [rehashStart_eq, rehashF_congr (rd_setMap_other _ _ _ _ (FURROW_MAP_ne_REHASH (by omega)).symm), rehashF_setHeld _ _ h hg, rehashF, hl,
    rdF_wrFs_last _ _ l r hg hr]

variable {d a i fnew}

theorem rehashActive_rehashStart (hi : i < 256) : rehashActive (rehashStart d a i fnew) a = true := by
  rw [rehashActive, rehashF_rehashStart d a i fnew hi (rehashFields d a i fnew).dropLast [] rfl (by decide) (by decide) (by simp)]
  rfl

theorem rehashEntry_rehashStart (hi : i < 256) : rehashF (rehashStart d a i fnew) a Reg.REHASH_STATUS_ENTRY = i := by
  rw [rehashF_rehashStart d a i fnew hi ((rehashFields d a i fnew).take 4) ((rehashFields d a i fnew).drop 5) rfl (by decide) (by decide)
    (by simp [rehashFields, Reg.REHASH_STATUS_ENTRY, Reg.REHASH_STATUS_ACTIVE])]
  exact Nat.mod_eq_of_lt hi

theorem rehashFrom_rehashStart (hi : i < 256) : rehashF (rehashStart d a i fnew) a Reg.REHASH_STATUS_FROM = furrowMap d a i := by
  rw [rehashF_rehashStart d a i fnew hi ((rehashFields d a i fnew).take 3) ((rehashFields d a i fnew).drop 4) rfl (by decide) (by decide)
    (by simp [rehashFields, Reg.REHASH_STATUS_FROM, Reg.REHASH_STATUS_ENTRY, Reg.REHASH_STATUS_ACTIVE])]
  exact Nat.mod_eq_of_lt (furrowMap_lt d a i)

theorem rehashTo_rehashStart (hi : i < 256) (hn : fnew < 32) : rehashF (rehashStart d a i fnew) a Reg.REHASH_STATUS_TO = fnew := by
  rw [rehashF_rehashStart d a i fnew hi ((rehashFields d a i fnew).take 2) ((rehashFields d a i fnew).drop 3) rfl (by decide) (by decide)
    (by simp [rehashFields, Reg.REHASH_STATUS_TO, Reg.REHASH_STATUS_FROM, Reg.REHASH_STATUS_ENTRY, Reg.REHASH_STATUS_ACTIVE])]
  exact Nat.mod_eq_of_lt hn

theorem furrowMap_rehashStart (hn : fnew < 32) {j : Nat} (hj : j < 256) :
    furrowMap (rehashStart d a i fnew) a j = if j = i then fnew else furrowMap d a j := by
  have hrest : rd (setHeld (wrFs (putFur (putAcre d a (rehashAcre d a i)) a (furrowMap d a i) (rehashOld d a i)) (Reg.REHASH_STATUS a)
      (rehashFields d a i fnew)) a) (Reg.FURROW_MAP a (j / 2)) = rd d (Reg.FURROW_MAP a (j / 2)) := by
    have hne := FURROW_MAP_ne_REHASH (a := a) (k := j / 2) (by omega)
    rw [rd_setHeld_other _ _ hne, rd_wrFs_other _ _ hne, rd_putFur, rd_putAcre]
  rw [rehashStart_eq, furrowMap_setMap _ _ _ hn, furrowMap_congr hrest]

end

end Sys2Proof.Machine
end

section
/-!
PROOF. Furrow roles: requests, the end of an isolation and of a self-test (R71).
-/
namespace Sys2Proof.Machine

/-! FURROW_ROLE. -/

theorem isOwnReg_FURROW_ROLE : ∀ a < 4, ∀ f < 17, isOwnReg (Reg.FURROW_ROLE a f) (Reg.FURROW_ROLE 0 0) a f = true := by decide +kernel
theorem fullRange_FURROW_ROLE : ∀ a < 4, ∀ f < 17, fullRange (Reg.FURROW_ROLE a f) = true := by decide +kernel

theorem regEffect_FURROW_ROLE {agent a f : Nat} (v x : W64) (m : Mem) (d : Dev) (ha : a < 4) (hf : f < 17) :
    regEffect ⟨agent, Reg.FURROW_ROLE a f, Reg.FURROW_ROLE 0 0, a, f, v, x⟩ m d = roleRequest a f v d := by
  rw [regEffect_acreBlock (by simp only [Reg.FURROW_ROLE]; omega), effAcre, if_neg (show Reg.FURROW_ROLE 0 0 ≠ Reg.FURROW_MAP 0 0 by decide),
    if_neg (show Reg.FURROW_ROLE 0 0 ≠ Reg.ACRE_MAP 0 0 by decide), if_pos rfl]

/-- What the write of a request does. -/
theorem regWrite_FURROW_ROLE {m : Mem} {d d' : Dev} {agent a f : Nat} {v : W64} (ha : a < 4) (hf : f < 17)
    (h : WriteReaches d agent (Reg.FURROW_ROLE a f) v) (hq : roleRequest a f v d = (true, d')) :
    regWrite agent (Reg.FURROW_ROLE a f) v m d = d' :=
  regWrite_accepted (isOwnReg_FURROW_ROLE a ha f hf) (by decide) h (fieldsInRange_of_full (fullRange_FURROW_ROLE a ha f hf) v)
    (by rw [regEffect_FURROW_ROLE _ _ _ _ ha hf, hq])

theorem roleRequest_of {a f q : Nat} {v : W64} (d : Dev) (hq : getF v Reg.FURROW_ROLE_REQUEST = q) (h4 : q ≤ 4) :
    roleRequest a f v d = (true, if q = 1 then reqIsolate a f d else if q = 2 then reqReturn a f d else if q = 3 then reqTakeover a f d
      else if q = 4 then reqActivate a f d else d) := by
  rw [roleRequest, hq]
  exact if_neg (by omega)

section
variable {s : State} {agent a f : Nat} (ha : a < 4) (hf : f < 17) (h : ∀ v, WriteReaches s.dev agent (Reg.FURROW_ROLE a f) v)
include ha hf h

theorem exec_furrowIsolate : exec (.furrowIsolate agent a f) s = .next (commit s (reqIsolate a f s.dev)) := by
  have he : exec (.furrowIsolate agent a f) s =
      .next (commit s (regWrite agent (Reg.FURROW_ROLE a f) (setF 0 Reg.FURROW_ROLE_REQUEST 1) s.mem s.dev)) := rfl
  rw [he, regWrite_FURROW_ROLE ha hf (h _) (roleRequest_of (q := 1) s.dev (by decide) (by omega)), if_pos rfl]

theorem exec_furrowReturn : exec (.furrowReturn agent a f) s = .next (commit s (reqReturn a f s.dev)) := by
  have he : exec (.furrowReturn agent a f) s =
      .next (commit s (regWrite agent (Reg.FURROW_ROLE a f) (setF 0 Reg.FURROW_ROLE_REQUEST 2) s.mem s.dev)) := rfl
  rw [he, regWrite_FURROW_ROLE ha hf (h _) (roleRequest_of (q := 2) s.dev (by decide) (by omega)), if_neg (by decide), if_pos rfl]

theorem exec_furrowTakeover : exec (.furrowTakeover agent a f) s = .next (commit s (reqTakeover a f s.dev)) := by
  have he : exec (.furrowTakeover agent a f) s =
      .next (commit s (regWrite agent (Reg.FURROW_ROLE a f) (setF 0 Reg.FURROW_ROLE_REQUEST 3) s.mem s.dev)) := rfl
  rw [he, regWrite_FURROW_ROLE ha hf (h _) (roleRequest_of (q := 3) s.dev (by decide) (by omega)), if_neg (by decide), if_neg (by decide),
    if_pos rfl]

theorem exec_furrowActivate : exec (.furrowActivate agent a f) s = .next (commit s (reqActivate a f s.dev)) := by
  have he : exec (.furrowActivate agent a f) s =
      .next (commit s (regWrite agent (Reg.FURROW_ROLE a f) (setF 0 Reg.FURROW_ROLE_REQUEST 4) s.mem s.dev)) := rfl
  rw [he, regWrite_FURROW_ROLE ha hf (h _) (roleRequest_of (q := 4) s.dev (by decide) (by omega)), if_neg (by decide), if_neg (by decide),
    if_neg (by decide), if_pos rfl]

end

/-! The fields of FURROW_ROLE after each change. -/

/-- Role, BUSY and LAST_ERR of a furrow. -/
def roleFields (d : Dev) (a f : Nat) : Nat × Bool × Nat :=
  (roleOf d a f, flagF d (Reg.FURROW_ROLE a f) Reg.FURROW_ROLE_BUSY, rdF d (Reg.FURROW_ROLE a f) Reg.FURROW_ROLE_LAST_ERR)

theorem roleFields_congr {d e : Dev} {a f : Nat} (h : rd e (Reg.FURROW_ROLE a f) = rd d (Reg.FURROW_ROLE a f)) :
    roleFields e a f = roleFields d a f := by
  rw [roleFields, roleOf_congr h, flagF_congr h, rdF_congr h, roleFields]

theorem roleFields_commit (s : State) (d : Dev) (a f : Nat) : roleFields (commit s d).dev a f = roleFields d a f :=
  roleFields_congr (rd_commit ..)

section
variable (d : Dev) (a f : Nat)

theorem roleFields_roleErr {e : Nat} (he : e < 16) :
    roleFields (roleErr d a f e) a f = (roleOf d a f, flagF d (Reg.FURROW_ROLE a f) Reg.FURROW_ROLE_BUSY, e) := by
  rw [roleFields, roleErr, roleOf, rdF_wrF_other _ _ (.inr (by decide)), flagF, rdF_wrF_other _ _ (.inr (by decide)),
    rdF_wrF_same _ _ _ _ (by decide), roleOf, flagF]
  exact Prod.ext rfl (Prod.ext rfl (Nat.mod_eq_of_lt he))

theorem roleFields_roleBusy : roleFields (roleBusy d a f) a f = (roleOf d a f, true, 0) := by
  have hbusy : rdF (roleBusy d a f) (Reg.FURROW_ROLE a f) Reg.FURROW_ROLE_BUSY = 1 % 2 ^ 1 :=
    rdF_wrFs_last d _ [] [(Reg.FURROW_ROLE_LAST_ERR, 0)] (by decide) (by decide)
  have herr : rdF (roleBusy d a f) (Reg.FURROW_ROLE a f) Reg.FURROW_ROLE_LAST_ERR = 0 % 2 ^ 4 :=
    rdF_wrFs_last d _ [(Reg.FURROW_ROLE_BUSY, 1)] [] (by decide) (by decide)
  rw [roleFields, flagF, hbusy, herr, roleBusy, roleOf, rdF_wrFs_disjoint _ _ _ (by decide) (by decide), roleOf]
  rfl

theorem roleFields_setRole {r : Nat} (hr : r < 8) : roleFields (setRole d a f r) a f =
    (r, flagF d (Reg.FURROW_ROLE a f) Reg.FURROW_ROLE_BUSY, rdF d (Reg.FURROW_ROLE a f) Reg.FURROW_ROLE_LAST_ERR) := by
  rw [roleFields, setRole, roleOf, rdF_wrF_same _ _ _ _ (by decide), flagF, rdF_wrF_other _ _ (.inr (by decide)),
    rdF_wrF_other _ _ (.inr (by decide)), flagF]
  exact Prod.ext (Nat.mod_eq_of_lt hr) rfl

theorem roleFields_notBusy : roleFields (wrF d (Reg.FURROW_ROLE a f) Reg.FURROW_ROLE_BUSY 0) a f =
    (roleOf d a f, false, rdF d (Reg.FURROW_ROLE a f) Reg.FURROW_ROLE_LAST_ERR) := by
  rw [roleFields, roleOf, rdF_wrF_other _ _ (.inr (by decide)), flagF, rdF_wrF_same _ _ _ _ (by decide), rdF_wrF_other _ _ (.inr (by decide)),
    roleOf]
  rfl

theorem roleFields_putFur (b g : Nat) (x : Furrow) : roleFields (putFur d b g x) a f = roleFields d a f := roleFields_congr rfl

theorem rd_setRole_other {o r : Nat} (h : o ≠ Reg.FURROW_ROLE a f) : rd (setRole d a f r) o = rd d o := rd_wr_other d _ h
theorem getFur_roleBusy (b g : Nat) : getFur (roleBusy d a f) b g = getFur d b g := getFur_wrFs ..
theorem getFur_setRole (r b g : Nat) : getFur (setRole d a f r) b g = getFur d b g := getFur_wrF ..
theorem getAcre_setRole (r b : Nat) : getAcre (setRole d a f r) b = getAcre d b := getAcre_wrF ..
theorem getAcre_roleBusy (b : Nat) : getAcre (roleBusy d a f) b = getAcre d b := getAcre_wrFs ..
theorem roleErr_furs (e : Nat) : (roleErr d a f e).furs = d.furs := wrF_furs ..

end

/-! The requests (R71). -/

section
variable {d : Dev} {a f : Nat} (hfat : (getFur d a f).fatal = none) (hb : flagF d (Reg.FURROW_ROLE a f) Reg.FURROW_ROLE_BUSY = false)
include hfat hb

theorem roleFree_of : roleFree d a f = true := by rw [roleFree, hb, hfat]; rfl

theorem reqIsolate_accepted (hr : roleOf d a f = 0) (he : entriesOf d a f = []) :
    reqIsolate a f d = putFur (roleBusy d a f) a f { getFur d a f with isolating := true } := by
  rw [reqIsolate, if_neg (by rw [roleFree_of hfat hb, hr]; decide), if_neg (fun h => h.2 he)]
  rfl

theorem reqIsolate_named (hr : roleOf d a f = 0) (he : entriesOf d a f ≠ []) : reqIsolate a f d = roleErr d a f 2 := by
  rw [reqIsolate, if_neg (by rw [roleFree_of hfat hb, hr]; decide), if_pos ⟨hr, he⟩]

theorem reqReturn_accepted (hr : roleOf d a f = 2 ∨ roleOf d a f = 3) : reqReturn a f d = setRole (roleBusy d a f) a f 4 :=
  if_pos ⟨roleFree_of hfat hb, hr⟩

omit hfat hb in
theorem reqReturn_active (hr : roleOf d a f = 0) : reqReturn a f d = roleErr d a f 1 :=
  if_neg fun h => by have := h.2; omega

theorem reqActivate_accepted (hr : roleOf d a f = 1) : ∃ p, reqActivate a f d =
    putFur (roleErr (setRole d a f 0) a f 0) a f { getFur (roleErr (setRole d a f 0) a f 0) a f with port := p } :=
  ⟨_, if_pos ⟨roleFree_of hfat hb, hr⟩⟩

theorem reqTakeover_noSpare (hr : roleOf d a f = 0)
    (hs : (furrowsWith d a 1).filter (fun g => !flagF d (Reg.FURROW_ROLE a g) Reg.FURROW_ROLE_BUSY) = []) :
    reqTakeover a f d = roleErr d a f 3 := by
  rw [reqTakeover, if_neg (by rw [roleFree_of hfat hb, hr]; decide), hs]

/-- The spare is ACTIVE, the furrow BUSY and the acre's takeover planned, before the entries move. -/
def takeoverPlanned (d : Dev) (a f sp p : Nat) : Dev :=
  putAcre (putFur (setRole (roleBusy d a f) a sp 0) a sp { getFur d a sp with port := p }) a { getAcre d a with takeoverOf := some f }

theorem reqTakeover_spare {sp : Nat} {rest : List Nat} (hr : roleOf d a f = 0)
    (hs : (furrowsWith d a 1).filter (fun g => !flagF d (Reg.FURROW_ROLE a g) Reg.FURROW_ROLE_BUSY) = sp :: rest) :
    ∃ p, reqTakeover a f d = putFur (takeoverPlanned d a f sp p) a f { getFur (takeoverPlanned d a f sp p) a f with isolating := true } ∨
      ∃ i, i < 256 ∧ reqTakeover a f d = rehashStart (takeoverPlanned d a f sp p) a i sp := by
  refine ⟨if (getFur d a sp).port = 16 then freePort (setRole (roleBusy d a f) a sp 0) a else (getFur d a sp).port, ?_⟩
  have hbase : takeoverPlanned d a f sp (if (getFur d a sp).port = 16 then freePort (setRole (roleBusy d a f) a sp 0) a else (getFur d a sp).port) =
      putAcre (putFur (setRole (roleBusy d a f) a sp 0) a sp { getFur (setRole (roleBusy d a f) a sp 0) a sp with
        port := if (getFur (setRole (roleBusy d a f) a sp 0) a sp).port = 16 then freePort (setRole (roleBusy d a f) a sp 0) a
          else (getFur (setRole (roleBusy d a f) a sp 0) a sp).port }) a
        { getAcre (putFur (setRole (roleBusy d a f) a sp 0) a sp { getFur (setRole (roleBusy d a f) a sp 0) a sp with
            port := if (getFur (setRole (roleBusy d a f) a sp 0) a sp).port = 16 then freePort (setRole (roleBusy d a f) a sp 0) a
              else (getFur (setRole (roleBusy d a f) a sp 0) a sp).port }) a with takeoverOf := some f } := by
    rw [takeoverPlanned, getAcre_putFur, getAcre_setRole, getAcre_roleBusy, getFur_setRole, getFur_roleBusy]
  rw [reqTakeover, if_neg (by rw [roleFree_of hfat hb, hr]; decide), hs]
  dsimp only
  rw [← hbase]
  generalize takeoverPlanned d a f sp _ = t
  rcases he : entriesOf t a f with _ | ⟨i, l⟩
  · exact .inl rfl
  · exact .inr ⟨i, (mem_entriesOf.mp (he ▸ List.mem_cons_self ..)).1, rfl⟩

end

theorem rd_takeoverPlanned {d : Dev} {a f sp p : Nat} (hne : sp ≠ f) :
    rd (takeoverPlanned d a f sp p) (Reg.FURROW_ROLE a f) = rd (roleBusy d a f) (Reg.FURROW_ROLE a f) := by
  rw [takeoverPlanned, rd_putAcre, rd_putFur, rd_setRole_other _ _ _ fun h => hne (FURROW_ROLE_inj h).symm]

theorem roleOf_takeoverPlanned (d : Dev) (a f sp p : Nat) : roleOf (takeoverPlanned d a f sp p) a sp = 0 := by
  rw [takeoverPlanned, roleOf_congr ((rd_putAcre ..).trans (rd_putFur ..)), roleOf, setRole, rdF_wrF_same _ _ _ _ (by decide)]
  rfl

theorem getAcre_takeoverPlanned (d : Dev) (a f sp p : Nat) :
    getAcre (takeoverPlanned d a f sp p) a = { getAcre d a with takeoverOf := some f } := getAcre_putAcre_same ..

/-- A planned takeover: the spare is ACTIVE and the furrow BUSY. -/
theorem reqTakeover_spec {d : Dev} {a f sp : Nat} {rest : List Nat} (hf : f < 17) (hfat : (getFur d a f).fatal = none)
    (hb : flagF d (Reg.FURROW_ROLE a f) Reg.FURROW_ROLE_BUSY = false) (hr : roleOf d a f = 0)
    (hs : (furrowsWith d a 1).filter (fun g => !flagF d (Reg.FURROW_ROLE a g) Reg.FURROW_ROLE_BUSY) = sp :: rest) :
    roleOf (reqTakeover a f d) a sp = 0 ∧ roleFields (reqTakeover a f d) a f = (0, true, 0) ∧
      (getAcre (reqTakeover a f d) a).takeoverOf = some f := by
  have hmem : sp ∈ furrowsWith d a 1 := (List.mem_filter.mp (hs ▸ List.mem_cons_self ..)).1
  simp only [furrowsWith, List.mem_filter, List.mem_range, beq_iff_eq] at hmem
  obtain ⟨hsp, hrole⟩ := hmem
  have hne : sp ≠ f := fun h => by rw [h, hr] at hrole; exact absurd hrole (by decide)
  have hbusy (p : Nat) : roleFields (takeoverPlanned d a f sp p) a f = (0, true, 0) := by
    rw [roleFields_congr (rd_takeoverPlanned hne), roleFields_roleBusy, hr]
  obtain ⟨p, h | ⟨i, hi, h⟩⟩ := reqTakeover_spare hfat hb hr hs
  · rw [h, roleOf_congr (rd_putFur ..), roleOf_takeoverPlanned, roleFields_putFur, hbusy, getAcre_putFur, getAcre_takeoverPlanned]
    exact ⟨rfl, rfl, rfl⟩
  · have hrd (g : Nat) (hg : g < 17) := rd_rehashStart_other (takeoverPlanned d a f sp p) a i sp (FURROW_ROLE_ne_REHASH (a := a) hg)
      (FURROW_ROLE_ne_MAP (by omega))
    rw [h, roleOf_congr (hrd sp hsp), roleOf_takeoverPlanned, roleFields_congr (hrd f hf), hbusy, getAcre_rehashStart]
    exact ⟨rfl, rfl, congrArg AcreSt.takeoverOf (getAcre_takeoverPlanned d a f sp p)⟩

/-! The ends of an isolation and of a self-test. -/

theorem isolateDone_spec {d : Dev} {a f : Nat} (hi : (getFur d a f).isolating = true) (he : entriesOf d a f = [])
    (hp : furPkts (getFur d a f) = []) (hq : (getFur d a f).entryQ = []) (hrel : ∀ e ∈ (getAcre d a).released, e.1 ≠ f) :
    roleOf (isolateDone a f d) a f = 3 ∧ flagF (isolateDone a f d) (Reg.FURROW_ROLE a f) Reg.FURROW_ROLE_BUSY = false ∧
      (getFur (isolateDone a f d) a f).isolating = false := by
  have hany : ¬ ((getAcre d a).released.any fun e => e.1 == f) = true := by
    simpa only [List.any_eq_true, beq_iff_eq, not_exists, not_and] using hrel
  have hfields : roleFields (wrF (setRole d a f 3) (Reg.FURROW_ROLE a f) Reg.FURROW_ROLE_BUSY 0) a f =
      (3, false, rdF (setRole d a f 3) (Reg.FURROW_ROLE a f) Reg.FURROW_ROLE_LAST_ERR) := by
    have hrole : roleOf (setRole d a f 3) a f = 3 := congrArg Prod.fst (roleFields_setRole d a f (r := 3) (by decide))
    rw [roleFields_notBusy, hrole]
  rw [isolateDone, if_pos ⟨hi, he, hp, hq, hany⟩]
  generalize wrF (setRole d a f 3) (Reg.FURROW_ROLE a f) Reg.FURROW_ROLE_BUSY 0 = t at hfields
  dsimp only
  split
  · exact ⟨congrArg Prod.fst hfields, congrArg (fun z => z.2.1) hfields, by rw [getFur_putAcre, getFur_putFur_same]⟩
  · exact ⟨congrArg Prod.fst hfields, congrArg (fun z => z.2.1) hfields, by rw [getFur_putFur_same]⟩

theorem selfTestDone_spec {d : Dev} {a f : Nat} (pass : Bool) (hr : roleOf d a f = 4) :
    roleOf (selfTestDone a f pass d) a f = (if pass then 1 else 2) ∧
      flagF (selfTestDone a f pass d) (Reg.FURROW_ROLE a f) Reg.FURROW_ROLE_BUSY = false ∧
      (pass = false → rdF (selfTestDone a f pass d) (Reg.FURROW_ROLE a f) Reg.FURROW_ROLE_LAST_ERR = 4) := by
  have hbusy : flagF (wrF d (Reg.FURROW_ROLE a f) Reg.FURROW_ROLE_BUSY 0) (Reg.FURROW_ROLE a f) Reg.FURROW_ROLE_BUSY = false :=
    congrArg (fun z => z.2.1) (roleFields_notBusy d a f)
  rw [selfTestDone, if_pos hr]
  generalize wrF d (Reg.FURROW_ROLE a f) Reg.FURROW_ROLE_BUSY 0 = t at hbusy
  cases pass with
  | true =>
    have hset := roleFields_setRole t a f (r := 1) (by decide)
    exact ⟨congrArg Prod.fst hset, (congrArg (fun z => z.2.1) hset).trans hbusy, fun h => absurd h (by decide)⟩
  | false =>
    have hset := roleFields_setRole t a f (r := 2) (by decide)
    have herr := roleFields_roleErr (setRole t a f 2) a f (e := 4) (by decide)
    exact ⟨(congrArg Prod.fst herr).trans (congrArg Prod.fst hset),
      (congrArg (fun z => z.2.1) herr).trans ((congrArg (fun z => z.2.1) hset).trans hbusy), fun _ => congrArg (fun z => z.2.2) herr⟩

/-- A hang of an ACTIVE furrow is a FATAL fault, which waits for its takeover (R72). -/
theorem raise_hang {d : Dev} {a f : Nat} (ha : a < 4) (hf : f < 17) (hr : roleOf d a f = 0) (hfat : (getFur d a f).fatal = none) :
    (getFur (raise d Fk.hang (32 * a + f) 0 0 0) a f).fatal = some d.time := by
  have h1 : (32 * a + f) / 32 % 4 = a := by omega
  have h2 : (32 * a + f) % 32 = f := by omega
  rw [raise]
  dsimp only
  rw [if_pos (by decide), h1, h2]
  exact (congrArg (fun t => (getFur t a f).fatal) (if_pos ⟨hr, hfat⟩)).trans (by rw [getFur_putFur_same])

end Sys2Proof.Machine
end

section
/-!
PROOF. The takeover of a failed furrow that holds no packet, by a SPARE of its acre (R72, R73).
-/
namespace Sys2Proof.Machine

/-! Entries of FURROW_MAP that all go to one furrow. -/

theorem spreadMap_one (d : Dev) (a f sp : Nat) :
    spreadMap d a f [sp] = (entriesOf d a f).foldl (fun e i => setMap e a i sp) d := by
  have hfold (l : List Nat) (x : Dev × Nat) : (l.foldl (fun (x : Dev × Nat) i =>
      (setMap x.1 a i ([sp].getD (x.2 % [sp].length) 0), x.2 + 1)) x).1 = l.foldl (fun e i => setMap e a i sp) x.1 := by
    induction l generalizing x with
    | nil => rfl
    | cons i t ih =>
      rw [List.foldl_cons, List.foldl_cons, ih, List.length_singleton, Nat.mod_one]
      rfl
  exact hfold _ (d, 0)

section
variable {a sp : Nat} (l : List Nat) (d : Dev)

theorem furrowMap_foldl_setMap (hs : sp < 32) (j : Nat) :
    furrowMap (l.foldl (fun e i => setMap e a i sp) d) a j = if j ∈ l then sp else furrowMap d a j := by
  induction l generalizing d with
  | nil => simp
  | cons i t ih =>
    rw [List.foldl_cons, ih, furrowMap_setMap d a i hs]
    by_cases hj : j ∈ t
    · rw [if_pos hj, if_pos (List.mem_cons_of_mem i hj)]
    · rw [if_neg hj]
      exact if_congr (by simp [hj]) rfl rfl

theorem rd_foldl_setMap {o : Nat} (h : ∀ i ∈ l, o ≠ Reg.FURROW_MAP a (i / 2)) : rd (l.foldl (fun e i => setMap e a i sp) d) o = rd d o := by
  induction l generalizing d with
  | nil => rfl
  | cons i t ih =>
    rw [List.foldl_cons, ih _ fun k hk => h k (List.mem_cons_of_mem i hk), rd_setMap_other _ _ _ _ (h i (List.mem_cons_self ..))]

theorem getFur_foldl_setMap (b g : Nat) : getFur (l.foldl (fun e i => setMap e a i sp) d) b g = getFur d b g := by
  induction l generalizing d with
  | nil => rfl
  | cons i t ih => rw [List.foldl_cons, ih, getFur_setMap]

end

theorem rd_spreadMap_one (d : Dev) (a f sp : Nat) {o : Nat} (h : ∀ k, k < 128 → o ≠ Reg.FURROW_MAP a k) :
    rd (spreadMap d a f [sp]) o = rd d o := by
  rw [spreadMap_one]
  exact rd_foldl_setMap _ d fun i hi => h (i / 2) (by have := (mem_entriesOf.mp hi).1; omega)

theorem getFur_spreadMap_one (d : Dev) (a f sp b g : Nat) : getFur (spreadMap d a f [sp]) b g = getFur d b g := by
  rw [spreadMap_one, getFur_foldl_setMap]

theorem furrowMap_spreadMap_one (d : Dev) (a f : Nat) {sp i : Nat} (hs : sp < 32) (hi : i < 256) :
    furrowMap (spreadMap d a f [sp]) a i = if furrowMap d a i = f then sp else furrowMap d a i := by
  rw [spreadMap_one, furrowMap_foldl_setMap _ _ hs]
  exact if_congr (by rw [mem_entriesOf]; exact and_iff_right hi) rfl rfl

/-! The steps of the takeover. -/

/-- The failed furrow with nothing left in its queues, and nothing released to it. -/
def furrowEmptied (d : Dev) (a f : Nat) : Dev :=
  putFur (putAcre d a { getAcre d a with released := [] }) a f { getFur d a f with entryQ := [], returnQ := [] }

/-- The spare takes the port and the entries of the failed furrow. -/
def spareGiven (d : Dev) (a f sp port : Nat) : Dev :=
  wrFs (spreadMap (putFur d a sp { furReset (32 * a + sp) with lfsr := (getFur d a sp).lfsr, gens := (getFur d a sp).gens, port := port }) a f [sp])
    (Reg.FURROW_ROLE a sp) [(Reg.FURROW_ROLE_ROLE, 0), (Reg.FURROW_ROLE_BUSY, 0)]

/-- The fields that record the takeover, and their word. -/
def takeoverFields (dur drops sp f : Nat) : List (Fld × Nat) :=
  [(Reg.TAKEOVER_STATUS_DURATION_NS, dur), (Reg.TAKEOVER_STATUS_DROPPED, drops), (Reg.TAKEOVER_STATUS_REPLACEMENT, sp),
    (Reg.TAKEOVER_STATUS_FAILED, f), (Reg.TAKEOVER_STATUS_VALID, 1)]
def takeoverWord (dur drops sp f : Nat) : W64 := mkWord (takeoverFields dur drops sp f)

/-- The failed furrow is FAILED, and its acre's planned takeover of it ends. -/
def furrowFailed (d : Dev) (a f : Nat) : Dev :=
  let d := wrF (setRole d a f 2) (Reg.FURROW_ROLE a f) Reg.FURROW_ROLE_BUSY 0
  let d := putFur d a f { getFur d a f with fatal := none, isolating := false, port := 16, tkDrops := 0 }
  putAcre d a { getAcre d a with takeoverOf := if (getAcre d a).takeoverOf = some f then none else (getAcre d a).takeoverOf }

/-- The takeover by the spare, before a rehash in progress goes on. -/
def spareTaken (d : Dev) (a f sp t0 : Nat) : Dev :=
  furrowFailed (wr (spareGiven (furrowEmptied d a f) a f sp (getFur d a f).port) (Reg.TAKEOVER_STATUS a)
    (takeoverWord ((spareGiven (furrowEmptied d a f) a f sp (getFur d a f).port).time - t0) (min 65535 (0 + (getFur d a f).tkDrops)) sp f)) a f

theorem rd_furrowEmptied (d : Dev) (a f o : Nat) : rd (furrowEmptied d a f) o = rd d o := by rw [furrowEmptied, rd_putFur, rd_putAcre]

theorem dropFurrow_empty {d : Dev} {a f : Nat} (hp : furPkts (getFur d a f) = []) (hq : (getFur d a f).entryQ = [])
    (hr : (getAcre d a).released = []) : dropFurrow d a f = (furrowEmptied d a f, 0) := by
  rw [dropFurrow]
  simp only [hp, hq, hr, List.filter_nil, List.map_nil, List.append_nil, List.foldl_nil, List.length_nil, Nat.add_zero]
  rfl

theorem rehashAfter_inactive {d : Dev} {a : Nat} (h : rehashActive d a = false) (f : Nat) : rehashAfter d a f = d :=
  if_pos (by rw [h]; decide)

theorem spareTakeover_eq {d : Dev} {a f sp t0 : Nat} {rest : List Nat} (hfat : (getFur d a f).fatal = some t0) (hrole : roleOf d a f = 0)
    (hp : furPkts (getFur d a f) = []) (hq : (getFur d a f).entryQ = []) (hr : (getAcre d a).released = [])
    (hs : furrowsWith d a 1 = sp :: rest) : spareTakeover a f d = rehashAfter (spareTaken d a f sp t0) a f := by
  have hs' : (furrowsWith (furrowEmptied d a f) a 1).head? = some sp := by
    rw [furrowsWith_congr (e := furrowEmptied d a f) (d := d) fun g _ => rd_furrowEmptied .., hs]
    rfl
  rw [spareTakeover, hfat]
  dsimp only
  rw [if_neg (not_not.mpr hrole), dropFurrow_empty hp hq hr]
  dsimp only
  rw [hs']
  rfl

/-! What it leaves. -/

section
variable {d : Dev} {a f sp t0 : Nat}

theorem rd_furrowFailed_other (d : Dev) {o : Nat} (h : o ≠ Reg.FURROW_ROLE a f) : rd (furrowFailed d a f) o = rd d o := by
  rw [furrowFailed, rd_putAcre, rd_putFur, wrF, rd_wr_other _ _ h, rd_setRole_other _ _ _ h]

theorem roleOf_furrowFailed (d : Dev) : roleOf (furrowFailed d a f) a f = 2 := by
  rw [furrowFailed, roleOf_congr ((rd_putAcre ..).trans (rd_putFur ..)), roleOf, rdF_wrF_other _ _ (.inr (by decide)), setRole,
    rdF_wrF_same _ _ _ _ (by decide)]
  rfl

theorem getFur_furrowFailed_same (d : Dev) : (getFur (furrowFailed d a f) a f).fatal = none := by
  rw [furrowFailed, getFur_putAcre, getFur_putFur_same]

theorem getFur_furrowFailed_other (d : Dev) {g : Nat} (hg : g ≠ f) : getFur (furrowFailed d a f) a g = getFur d a g := by
  rw [furrowFailed, getFur_putAcre, getFur_putFur_other _ _ (by omega), getFur_wrF, getFur_setRole]

theorem rd_spareGiven_other (d : Dev) {port o : Nat} (hm : ∀ k, k < 128 → o ≠ Reg.FURROW_MAP a k) (h : o ≠ Reg.FURROW_ROLE a sp) :
    rd (spareGiven d a f sp port) o = rd d o := by
  rw [spareGiven, rd_wrFs_other _ _ h, rd_spreadMap_one _ _ _ _ hm, rd_putFur]

theorem roleOf_active (d : Dev) : roleOf (wrFs d (Reg.FURROW_ROLE a sp) [(Reg.FURROW_ROLE_ROLE, 0), (Reg.FURROW_ROLE_BUSY, 0)]) a sp = 0 :=
  rdF_wrFs_last d _ [] [(Reg.FURROW_ROLE_BUSY, 0)] (by decide) (by decide)

theorem roleOf_spareGiven (d : Dev) (port : Nat) : roleOf (spareGiven d a f sp port) a sp = 0 := by rw [spareGiven, roleOf_active]

theorem getFur_spareGiven (d : Dev) (port : Nat) : (getFur (spareGiven d a f sp port) a sp).port = port := by
  rw [spareGiven, getFur_wrFs, getFur_spreadMap_one, getFur_putFur_same]

theorem furrowMap_spareGiven (d : Dev) {port i : Nat} (hs : sp < 17) (hi : i < 256) :
    furrowMap (spareGiven d a f sp port) a i = if furrowMap d a i = f then sp else furrowMap d a i := by
  rw [spareGiven, furrowMap_congr (rd_wrFs_other _ _ (FURROW_ROLE_ne_MAP (by omega)).symm), furrowMap_spreadMap_one _ _ _ (by omega) hi,
    furrowMap_congr (rd_putFur ..)]

theorem getF_mkWord_last {w l r : List (Fld × Nat)} {g : Fld} {x : Nat} (hl : w = l ++ (g, x) :: r) (hg : g.lo + g.w ≤ 64)
    (h : ∀ y ∈ r, g.lo + g.w ≤ y.1.lo ∨ y.1.lo + y.1.w ≤ g.lo) : getF (mkWord w) g = x % 2 ^ g.w := by
  rw [mkWord, hl, getF_foldl_setF_last l r 0 hg h]

theorem getF_takeoverWord (dur drops : Nat) (hs : sp < 17) (hf : f < 17) (hd : drops < 65536) :
    getF (takeoverWord dur drops sp f) Reg.TAKEOVER_STATUS_FAILED = f ∧ getF (takeoverWord dur drops sp f) Reg.TAKEOVER_STATUS_REPLACEMENT = sp ∧
      getF (takeoverWord dur drops sp f) Reg.TAKEOVER_STATUS_DROPPED = drops ∧ getF (takeoverWord dur drops sp f) Reg.TAKEOVER_STATUS_VALID = 1 := by
  have h1 := getF_mkWord_last (w := takeoverFields dur drops sp f) (l := (takeoverFields dur drops sp f).take 3)
    (r := (takeoverFields dur drops sp f).drop 4) rfl (by decide)
    (by simp [takeoverFields, Reg.TAKEOVER_STATUS_FAILED, Reg.TAKEOVER_STATUS_VALID])
  have h2 := getF_mkWord_last (w := takeoverFields dur drops sp f) (l := (takeoverFields dur drops sp f).take 2)
    (r := (takeoverFields dur drops sp f).drop 3) rfl (by decide)
    (by simp [takeoverFields, Reg.TAKEOVER_STATUS_REPLACEMENT, Reg.TAKEOVER_STATUS_FAILED, Reg.TAKEOVER_STATUS_VALID])
  have h3 := getF_mkWord_last (w := takeoverFields dur drops sp f) (l := (takeoverFields dur drops sp f).take 1)
    (r := (takeoverFields dur drops sp f).drop 2) rfl (by decide)
    (by simp [takeoverFields, Reg.TAKEOVER_STATUS_DROPPED, Reg.TAKEOVER_STATUS_REPLACEMENT, Reg.TAKEOVER_STATUS_FAILED,
      Reg.TAKEOVER_STATUS_VALID])
  have h4 := getF_mkWord_last (w := takeoverFields dur drops sp f) (l := (takeoverFields dur drops sp f).take 4)
    (r := (takeoverFields dur drops sp f).drop 5) rfl (by decide) (by simp [takeoverFields])
  exact ⟨h1.trans (Nat.mod_eq_of_lt (show f < 32 by omega)), h2.trans (Nat.mod_eq_of_lt (show sp < 32 by omega)),
    h3.trans (Nat.mod_eq_of_lt hd), h4⟩

variable (hf : f < 17) (hsp : sp < 17) (hne : sp ≠ f)
include hf hsp hne

/-- The registers of the furrow machine after a takeover. -/
theorem rd_spareTaken : rd (spareTaken d a f sp t0) (Reg.REHASH_STATUS a) = rd d (Reg.REHASH_STATUS a) ∧
    (∀ k, k < 128 → rd (spareTaken d a f sp t0) (Reg.FURROW_MAP a k) =
      rd (spareGiven (furrowEmptied d a f) a f sp (getFur d a f).port) (Reg.FURROW_MAP a k)) ∧
    rd (spareTaken d a f sp t0) (Reg.FURROW_ROLE a sp) =
      rd (spareGiven (furrowEmptied d a f) a f sp (getFur d a f).port) (Reg.FURROW_ROLE a sp) ∧
    ∃ dur, rd (spareTaken d a f sp t0) (Reg.TAKEOVER_STATUS a) = takeoverWord dur (min 65535 (0 + (getFur d a f).tkDrops)) sp f := by
  refine ⟨?_, fun k hk => ?_, ?_, (spareGiven (furrowEmptied d a f) a f sp (getFur d a f).port).time - t0, ?_⟩
  · rw [spareTaken, rd_furrowFailed_other _ (FURROW_ROLE_ne_REHASH hf).symm, rd_wr_other _ _ (REHASH_ne_TAKEOVER a),
      rd_spareGiven_other _ (fun k hk => (FURROW_MAP_ne_REHASH hk).symm) (FURROW_ROLE_ne_REHASH hsp).symm, rd_furrowEmptied]
  · rw [spareTaken, rd_furrowFailed_other _ (FURROW_ROLE_ne_MAP hk).symm, rd_wr_other _ _ (FURROW_MAP_ne_TAKEOVER hk)]
  · rw [spareTaken, rd_furrowFailed_other _ fun h => hne (FURROW_ROLE_inj h), rd_wr_other _ _ (FURROW_ROLE_ne_TAKEOVER hsp)]
  · rw [spareTaken, rd_furrowFailed_other _ (FURROW_ROLE_ne_TAKEOVER hf).symm, rd_wr_same]

theorem spareTaken_spec : roleOf (spareTaken d a f sp t0) a f = 2 ∧ roleOf (spareTaken d a f sp t0) a sp = 0 ∧
    (getFur (spareTaken d a f sp t0) a f).fatal = none ∧ (getFur (spareTaken d a f sp t0) a sp).port = (getFur d a f).port ∧
    (∀ i, i < 256 → furrowMap (spareTaken d a f sp t0) a i = if furrowMap d a i = f then sp else furrowMap d a i) ∧
    rdF (spareTaken d a f sp t0) (Reg.TAKEOVER_STATUS a) Reg.TAKEOVER_STATUS_FAILED = f ∧
    rdF (spareTaken d a f sp t0) (Reg.TAKEOVER_STATUS a) Reg.TAKEOVER_STATUS_REPLACEMENT = sp ∧
    rdF (spareTaken d a f sp t0) (Reg.TAKEOVER_STATUS a) Reg.TAKEOVER_STATUS_DROPPED = min 65535 (getFur d a f).tkDrops ∧
    rdF (spareTaken d a f sp t0) (Reg.TAKEOVER_STATUS a) Reg.TAKEOVER_STATUS_VALID = 1 := by
  obtain ⟨-, hmap, hrole, dur, hword⟩ := rd_spareTaken (d := d) (a := a) (t0 := t0) hf hsp hne
  obtain ⟨h1, h2, h3, h4⟩ := getF_takeoverWord dur (min 65535 (0 + (getFur d a f).tkDrops)) hsp hf (by omega)
  refine ⟨?_, ?_, ?_, ?_, fun i hi => ?_, ?_, ?_, ?_, ?_⟩
  · rw [spareTaken, roleOf_furrowFailed]
  · rw [roleOf_congr hrole, roleOf_spareGiven]
  · rw [spareTaken, getFur_furrowFailed_same]
  · rw [spareTaken, getFur_furrowFailed_other _ hne, getFur_wr, getFur_spareGiven]
  · rw [furrowMap_congr (hmap (i / 2) (by omega)), furrowMap_spareGiven _ hsp hi, furrowMap_congr (rd_furrowEmptied ..)]
  · rw [rdF, hword, h1]
  · rw [rdF, hword, h2]
  · rw [rdF, hword, h3, Nat.zero_add]
  · rw [rdF, hword, h4]

end

end Sys2Proof.Machine
end

section
/-!
PROOF. The write of FURROW_MAP, and the end of an ordered rehash by drain or by time (R75, R77, R531).
-/
namespace Sys2Proof.Machine

/-! The write of FURROW_MAP. -/

theorem isOwnReg_FURROW_MAP : ∀ a < 4, ∀ k < 128, isOwnReg (Reg.FURROW_MAP a k) (Reg.FURROW_MAP 0 0) a k = true := by decide +kernel

theorem regEffect_FURROW_MAP {agent a k : Nat} (v x : W64) (m : Mem) (d : Dev) (ha : a < 4) (hk : k < 128) :
    regEffect ⟨agent, Reg.FURROW_MAP a k, Reg.FURROW_MAP 0 0, a, k, v, x⟩ m d = orReject d (mapWrite d a k v) := by
  rw [regEffect_acreBlock (by simp only [Reg.FURROW_MAP]; omega), effAcre, if_pos rfl]

section
variable {s : State} {d' : Dev} {agent a k : Nat} {v : W64} (ha : a < 4) (hk : k < 128)
  (h : WriteReaches s.dev agent (Reg.FURROW_MAP a k) v) (hf : FieldsInRange (Reg.FURROW_MAP a k) v)
include ha hk h hf

theorem exec_furrowMapWrite (hw : mapWrite s.dev a k v = some d') : exec (.furrowMapWrite agent a k v) s = .next (commit s d') := by
  have he : exec (.furrowMapWrite agent a k v) s = .next (commit s (regWrite agent (Reg.FURROW_MAP a k) v s.mem s.dev)) := rfl
  rw [he, regWrite_accepted (isOwnReg_FURROW_MAP a ha k hk) (by decide) h hf (by rw [regEffect_FURROW_MAP _ _ _ _ ha hk, hw]; rfl)]

theorem exec_furrowMapWrite_refused (hw : mapWrite s.dev a k v = none) : exec (.furrowMapWrite agent a k v) s =
    .next (commit s (hostReject s.dev agent (Reg.FURROW_MAP a k) (islandsOf s.dev (Reg.FURROW_MAP a k) v))) := by
  have he : exec (.furrowMapWrite agent a k v) s = .next (commit s (regWrite agent (Reg.FURROW_MAP a k) v s.mem s.dev)) := rfl
  rw [he, regWrite_refused (isOwnReg_FURROW_MAP a ha k hk) h hf (by rw [regEffect_FURROW_MAP _ _ _ _ ha hk, hw]; rfl)]

end

theorem furrowMap_even (d : Dev) (a k : Nat) : furrowMap d a (2 * k) = getF (rd d (Reg.FURROW_MAP a k)) Reg.FURROW_MAP_FURROW_EVEN := by
  rw [furrowMap_eq_getF, show 2 * k / 2 = k by omega, show 2 * k % 2 = 0 by omega]
  rfl

theorem furrowMap_odd (d : Dev) (a k : Nat) : furrowMap d a (2 * k + 1) = getF (rd d (Reg.FURROW_MAP a k)) Reg.FURROW_MAP_FURROW_ODD := by
  rw [furrowMap_eq_getF, show (2 * k + 1) / 2 = k by omega, show (2 * k + 1) % 2 = 1 by omega]
  rfl

section
variable {d : Dev} {a k i new : Nat} {v : W64} (hi : i < 2) (hn : new = bits v.toNat (32 * i) 5) (hne : new ≠ furrowMap d a (2 * k + i))
include hi hn hne

/-- A write that names one entry anew, to an ACTIVE furrow that is free, from an ACTIVE furrow, starts a rehash of the entry. -/
theorem mapWrite_one (ho : bits v.toNat (32 * (1 - i)) 5 = furrowMap d a (2 * k + (1 - i))) (hr : roleOf d a new = 0)
    (hb : flagF d (Reg.FURROW_ROLE a new) Reg.FURROW_ROLE_BUSY = false) (hfat : (getFur d a new).fatal = none)
    (hold : roleOf d a (furrowMap d a (2 * k + i)) = 0) : mapWrite d a k v = some (rehashStart d a (2 * k + i) new) := by
  have hfree : ¬ (rdF d (Reg.FURROW_ROLE a new) Reg.FURROW_ROLE_ROLE ≠ 0 ∨ flagF d (Reg.FURROW_ROLE a new) Reg.FURROW_ROLE_BUSY = true ∨
      (getFur d a new).fatal.isSome = true) := by
    rw [hb, hfat]
    exact fun h => h.elim (fun h => h hr) (by decide)
  have hrole : rdF d (Reg.FURROW_ROLE a (furrowMap d a (2 * k + i))) Reg.FURROW_ROLE_ROLE = 0 := hold
  rw [mapWrite]
  obtain rfl | rfl : i = 0 ∨ i = 1 := by omega
  · have hce : getF v Reg.FURROW_MAP_FURROW_EVEN ≠ getF (rd d (Reg.FURROW_MAP a k)) Reg.FURROW_MAP_FURROW_EVEN := by
      rw [← furrowMap_even]
      exact fun h => hne (hn.trans h)
    have hco : getF v Reg.FURROW_MAP_FURROW_ODD = getF (rd d (Reg.FURROW_MAP a k)) Reg.FURROW_MAP_FURROW_ODD := by
      rw [← furrowMap_odd]
      exact ho
    have hv : getF v Reg.FURROW_MAP_FURROW_EVEN = new := hn.symm
    rw [if_neg (fun h => h.2 hco), if_neg (fun h => h.1 hce)]
    dsimp only
    rw [if_pos hce, if_pos hce, hv, if_neg hfree]
    exact if_pos hrole
  · have hce : getF v Reg.FURROW_MAP_FURROW_EVEN = getF (rd d (Reg.FURROW_MAP a k)) Reg.FURROW_MAP_FURROW_EVEN := by
      rw [← furrowMap_even]
      exact ho
    have hco : getF v Reg.FURROW_MAP_FURROW_ODD ≠ getF (rd d (Reg.FURROW_MAP a k)) Reg.FURROW_MAP_FURROW_ODD := by
      rw [← furrowMap_odd]
      exact fun h => hne (hn.trans h)
    have hv : getF v Reg.FURROW_MAP_FURROW_ODD = new := hn.symm
    rw [if_neg (fun h => h.1 hce), if_neg (fun h => h.2 hco)]
    dsimp only
    rw [if_neg (not_not.mpr hce), if_neg (not_not.mpr hce), hv, if_neg hfree, if_pos hrole]

/-- A write that names both entries anew is rejected. -/
theorem mapWrite_both (ho : bits v.toNat (32 * (1 - i)) 5 ≠ furrowMap d a (2 * k + (1 - i))) : mapWrite d a k v = none := by
  have hboth : getF v Reg.FURROW_MAP_FURROW_EVEN ≠ getF (rd d (Reg.FURROW_MAP a k)) Reg.FURROW_MAP_FURROW_EVEN ∧
      getF v Reg.FURROW_MAP_FURROW_ODD ≠ getF (rd d (Reg.FURROW_MAP a k)) Reg.FURROW_MAP_FURROW_ODD := by
    rw [← furrowMap_even, ← furrowMap_odd]
    rw [hn] at hne
    obtain rfl | rfl : i = 0 ∨ i = 1 := by omega
    · exact ⟨hne, ho⟩
    · exact ⟨ho, hne⟩
  rw [mapWrite]
  exact if_pos hboth

end

/-! The release of held packets. -/

/-- The acre when its held packets that satisfy p have been released to an ACTIVE furrow. -/
def releasedAcre (x : AcreSt) (f : Nat) (p : Pkt → Bool) : AcreSt :=
  { x with rehashHold := x.rehashHold.filter fun q => !p q, released := x.released ++ (x.rehashHold.filter p).map fun q => (f, q) }

section
variable {d : Dev} {a f : Nat} {p : Pkt → Bool}

theorem releaseHeld_active (hr : roleOf d a f = 0) : releaseHeld d a f p = setHeld (putAcre d a (releasedAcre (getAcre d a) f p)) a := by
  have hr' (x : AcreSt) : roleOf (putAcre d a x) a f = 0 := (roleOf_congr (rd_putAcre ..)).trans hr
  rw [releaseHeld, if_pos hr, if_pos (hr' _)]
  rfl

theorem getAcre_releaseHeld (hr : roleOf d a f = 0) : getAcre (releaseHeld d a f p) a = releasedAcre (getAcre d a) f p := by
  rw [releaseHeld_active hr, getAcre_setHeld, getAcre_putAcre_same]

theorem getFur_releaseHeld (hr : roleOf d a f = 0) (b g : Nat) : getFur (releaseHeld d a f p) b g = getFur d b g := by
  rw [releaseHeld_active hr, getFur_setHeld, getFur_putAcre]

theorem rehashF_releaseHeld (hr : roleOf d a f = 0) {g : Fld} (h : g.lo + g.w ≤ 20 ∨ 31 ≤ g.lo) (hg : g.lo + g.w ≤ 64) :
    rehashF (releaseHeld d a f p) a g = rehashF d a g := by
  rw [releaseHeld_active hr, rehashF_setHeld _ _ h hg, rehashF_congr (rd_putAcre ..)]

end

/-! The end of a hold. -/

/-- The packet, marked for its drop when it entered by entry i before the write. -/
def stragglerMark (x : AcreSt) (i : Nat) (p : Pkt) : Pkt := if p.mapIdx == i && belowMark x p then { p with rehashDrop := true } else p

theorem spGet_map_option {α : Type} (g : α → α) (m : Sp (Option α)) (k : Nat) :
    spGet (fun _ => none) (m.map fun e => (e.1, e.2.map g)) k = (spGet (fun _ => none) m k).map g := by
  induction m with
  | nil => rfl
  | cons e t ih =>
    obtain ⟨j, v⟩ := e
    rw [List.map_cons, spGet, spGet]
    split
    · rfl
    · exact ih

theorem getPkt_markStragglers (d : Dev) (a f i slot : Nat) :
    getPkt (markStragglers d a f i) ⟨a, f, slot⟩ = (getPkt d ⟨a, f, slot⟩).map (stragglerMark (getAcre d a) i) := by
  rw [getPkt, markStragglers, getFur_putFur_same]
  exact spGet_map_option (stragglerMark (getAcre d a) i) _ slot

theorem getAcre_markStragglers (d : Dev) (a f i b : Nat) : getAcre (markStragglers d a f i) b = getAcre d b := getAcre_putFur ..

/-- REHASH_HOLD has passed, with no takeover planned: the device after the rehash has ended. -/
def rehashEnded (d : Dev) (a : Nat) : Dev :=
  markStragglers (releaseHeld d a (rehashF d a Reg.REHASH_STATUS_TO) fun _ => true) a (rehashF d a Reg.REHASH_STATUS_FROM)
    (rehashF d a Reg.REHASH_STATUS_ENTRY)

theorem takeoverNext_none {d : Dev} {a : Nat} (h : (getAcre d a).takeoverOf = none) : takeoverNext d a = d := by
  rw [takeoverNext, h]

theorem belowMark_releasedAcre (x : AcreSt) (f : Nat) (p : Pkt → Bool) (q : Pkt) : belowMark (releasedAcre x f p) q = belowMark x q := rfl

section
variable {d : Dev} {a : Nat} (hr : roleOf d a (rehashF d a Reg.REHASH_STATUS_TO) = 0)
include hr

theorem getAcre_rehashEnded : getAcre (rehashEnded d a) a = releasedAcre (getAcre d a) (rehashF d a Reg.REHASH_STATUS_TO) fun _ => true := by
  rw [rehashEnded, getAcre_markStragglers, getAcre_releaseHeld hr]

theorem getPkt_rehashEnded (slot : Nat) : getPkt (rehashEnded d a) ⟨a, rehashF d a Reg.REHASH_STATUS_FROM, slot⟩ =
    (getPkt d ⟨a, rehashF d a Reg.REHASH_STATUS_FROM, slot⟩).map (stragglerMark
      (releasedAcre (getAcre d a) (rehashF d a Reg.REHASH_STATUS_TO) fun _ => true) (rehashF d a Reg.REHASH_STATUS_ENTRY)) := by
  rw [rehashEnded, getPkt_markStragglers, getAcre_releaseHeld hr, getPkt, getPkt, getFur_releaseHeld hr]

theorem rehashExpire_eq (hact : rehashActive d a = true) (htk : (getAcre d a).takeoverOf = none) : rehashExpire a d =
    wrFs (rehashEnded d a) (Reg.REHASH_STATUS a) [(Reg.REHASH_STATUS_ACTIVE, 0), (Reg.REHASH_STATUS_EXPIRED, 1)] := by
  have hfrom : rehashF (releaseHeld d a (rehashF d a Reg.REHASH_STATUS_TO) fun _ => true) a Reg.REHASH_STATUS_FROM =
      rehashF d a Reg.REHASH_STATUS_FROM := rehashF_releaseHeld hr (by decide) (by decide)
  have hentry : rehashF (releaseHeld d a (rehashF d a Reg.REHASH_STATUS_TO) fun _ => true) a Reg.REHASH_STATUS_ENTRY =
      rehashF d a Reg.REHASH_STATUS_ENTRY := rehashF_releaseHeld hr (by decide) (by decide)
  rw [rehashExpire, if_pos hact]
  dsimp only
  rw [hfrom, hentry, ← rehashEnded]
  refine takeoverNext_none ?_
  rw [getAcre_wrFs, getAcre_rehashEnded hr]
  exact htk

end

theorem rehashF_ended (d : Dev) (a : Nat) :
    rehashActive (wrFs d (Reg.REHASH_STATUS a) [(Reg.REHASH_STATUS_ACTIVE, 0), (Reg.REHASH_STATUS_EXPIRED, 1)]) a = false ∧
      rehashF (wrFs d (Reg.REHASH_STATUS a) [(Reg.REHASH_STATUS_ACTIVE, 0), (Reg.REHASH_STATUS_EXPIRED, 1)]) a Reg.REHASH_STATUS_EXPIRED = 1 := by
  have h1 : rehashF (wrFs d (Reg.REHASH_STATUS a) [(Reg.REHASH_STATUS_ACTIVE, 0), (Reg.REHASH_STATUS_EXPIRED, 1)]) a
      Reg.REHASH_STATUS_ACTIVE = 0 % 2 ^ 1 := rdF_wrFs_last d _ [] [(Reg.REHASH_STATUS_EXPIRED, 1)] (by decide) (by decide)
  have h2 : rehashF (wrFs d (Reg.REHASH_STATUS a) [(Reg.REHASH_STATUS_ACTIVE, 0), (Reg.REHASH_STATUS_EXPIRED, 1)]) a
      Reg.REHASH_STATUS_EXPIRED = 1 % 2 ^ 1 := rdF_wrFs_last d _ [(Reg.REHASH_STATUS_ACTIVE, 0)] [] (by decide) (by decide)
  rw [rehashActive, h1, h2]
  exact ⟨rfl, rfl⟩

theorem exec_isolateComplete (s : State) (a f : Nat) : exec (.isolateComplete a f) s = .next (commit s (isolateDone a f s.dev)) := rfl
theorem exec_selfTestDone (s : State) (a f : Nat) (pass : Bool) :
    exec (.selfTestDone a f pass) s = .next (commit s (selfTestDone a f pass s.dev)) := rfl
theorem exec_furrowHang (s : State) (a f : Nat) :
    exec (.furrowHang a f) s = .next (commit s (raise s.dev Fk.hang (32 * a + f) 0 0 0)) := rfl
theorem exec_spareTakeover (s : State) (a f : Nat) : exec (.spareTakeover a f) s = .next (commit s (spareTakeover a f s.dev)) := rfl
theorem exec_rehashDomainDrained (s : State) (a dom : Nat) :
    exec (.rehashDomainDrained a dom) s = .next (commit s (rehashDrained a dom s.dev)) := rfl
theorem exec_rehashHoldExpiry (s : State) (a : Nat) : exec (.rehashHoldExpiry a) s = .next (commit s (rehashExpire a s.dev)) := rfl

theorem roleOf_commit (s : State) (d : Dev) (a f : Nat) : roleOf (commit s d).dev a f = roleOf d a f := roleOf_congr (rd_commit ..)
theorem furrowMap_commit (s : State) (d : Dev) (a i : Nat) : furrowMap (commit s d).dev a i = furrowMap d a i := furrowMap_congr (rd_commit ..)
theorem rehashF_commit (s : State) (d : Dev) (a : Nat) (g : Fld) : rehashF (commit s d).dev a g = rehashF d a g := rehashF_congr (rd_commit ..) g
theorem rehashActive_commit (s : State) (d : Dev) (a : Nat) : rehashActive (commit s d).dev a = rehashActive d a :=
  rehashActive_congr (rd_commit ..)

end Sys2Proof.Machine

namespace Sys2Proof
open Machine

/-- Settles O55: a request is the write of its furrow's role register, a takeover moves each entry of the map to the spare, and a rehash
begins and ends as its equations over REHASH_STATUS and the acre say. -/
theorem furrowRoles : Obligations.FurrowRoles := by
  unfold Obligations.FurrowRoles
  refine ⟨?requests, ?ends, ?mapWrite, ?rehash⟩
  case requests =>
    intro s agent a f ha hf hreach hfat hb _ err busy
    have hst {d : Dev} {r : Nat} {b : Bool} {e : Nat} (h : roleFields d a f = (r, b, e)) : roleOf (commit s d).dev a f = r ∧
        flagF (commit s d).dev (Reg.FURROW_ROLE a f) Reg.FURROW_ROLE_BUSY = b ∧
        rdF (commit s d).dev (Reg.FURROW_ROLE a f) Reg.FURROW_ROLE_LAST_ERR = e := by
      rw [← roleFields_commit s] at h
      exact ⟨congrArg Prod.fst h, congrArg (fun z => z.2.1) h, congrArg (fun z => z.2.2) h⟩
    refine ⟨fun hr he => ?_, fun hr he => ?_, fun hr => ?_, fun hr => ?_, fun sp rest hr hs => ?_, fun hr hs => ?_, fun hr => ?_⟩
    · rw [exec_furrowIsolate ha hf hreach, reqIsolate_accepted hfat hb hr he]
      obtain ⟨h1, h2, -⟩ := hst ((roleFields_putFur _ a f a f { getFur s.dev a f with isolating := true }).trans
        (roleFields_roleBusy s.dev a f))
      exact ⟨_, rfl, h1.trans hr, h2, by rw [getFur_commit, getFur_putFur_same], by rw [getFur_commit, getFur_putFur_same]⟩
    · rw [exec_furrowIsolate ha hf hreach, reqIsolate_named hfat hb hr he]
      obtain ⟨h1, h2, h3⟩ := hst (roleFields_roleErr s.dev a f (e := 2) (by decide))
      exact ⟨_, rfl, h1.trans hr, h2.trans hb, h3, (commit_furs ..).trans (roleErr_furs ..)⟩
    · rw [exec_furrowReturn ha hf hreach, reqReturn_accepted hfat hb hr]
      obtain ⟨h1, h2, -⟩ := hst (roleFields_setRole (roleBusy s.dev a f) a f (r := 4) (by decide))
      exact ⟨_, rfl, h1, h2.trans (congrArg (fun z => z.2.1) (roleFields_roleBusy s.dev a f))⟩
    · rw [exec_furrowReturn ha hf hreach, reqReturn_active hr]
      obtain ⟨h1, -, h3⟩ := hst (roleFields_roleErr s.dev a f (e := 1) (by decide))
      exact ⟨_, rfl, h1.trans hr, h3, (commit_furs ..).trans (roleErr_furs ..)⟩
    · rw [exec_furrowTakeover ha hf hreach]
      obtain ⟨hsp, hfields, htk⟩ := reqTakeover_spec hf hfat hb hr hs
      exact ⟨_, rfl, (roleOf_commit ..).trans hsp, (hst hfields).2.1, by rw [getAcre_commit, htk]⟩
    · rw [exec_furrowTakeover ha hf hreach, reqTakeover_noSpare hfat hb hr hs]
      obtain ⟨-, -, h3⟩ := hst (roleFields_roleErr s.dev a f (e := 3) (by decide))
      exact ⟨_, rfl, h3, (commit_furs ..).trans (roleErr_furs ..)⟩
    · rw [exec_furrowActivate ha hf hreach]
      obtain ⟨p, hp⟩ := reqActivate_accepted hfat hb hr
      rw [hp]
      have hset := congrArg Prod.fst (roleFields_setRole s.dev a f (r := 0) (by decide))
      obtain ⟨h1, -, h3⟩ := hst ((roleFields_putFur _ a f a f _).trans (roleFields_roleErr (setRole s.dev a f 0) a f (e := 0) (by decide)))
      exact ⟨_, rfl, h1.trans hset, h3⟩
  case ends =>
    intro s a f ha hf
    refine ⟨fun hi he hp hq hrel => ?_, fun pass hr => ?_, fun hr hfat => ?_, fun sp rest t0 hfat hr hp hq hrel hs hact => ?_⟩
    · obtain ⟨h1, h2, h3⟩ := isolateDone_spec hi he hp hq hrel
      exact ⟨_, exec_isolateComplete s a f, (roleOf_commit ..).trans h1, (flagF_commit ..).trans h2, by rw [getFur_commit, h3]⟩
    · obtain ⟨h1, h2, h3⟩ := selfTestDone_spec pass hr
      exact ⟨_, exec_selfTestDone s a f pass, (roleOf_commit ..).trans h1, (flagF_commit ..).trans h2,
        fun hpass => (rdF_commit ..).trans (h3 hpass)⟩
    · exact ⟨_, exec_furrowHang s a f, by rw [getFur_commit, raise_hang ha hf hr hfat], (commit_regs ..).trans (raise_regs ..)⟩
    · have hmem : sp ∈ furrowsWith s.dev a 1 := hs ▸ List.mem_cons_self ..
      simp only [furrowsWith, List.mem_filter, List.mem_range, beq_iff_eq] at hmem
      obtain ⟨hsp, hrole⟩ := hmem
      have hne : sp ≠ f := fun h => by rw [h, hr] at hrole; exact absurd hrole (by decide)
      have hact' : rehashActive (spareTaken s.dev a f sp t0) a = false :=
        (rehashActive_congr (rd_spareTaken (d := s.dev) (a := a) (t0 := t0) hf hsp hne).1).trans hact
      obtain ⟨h1, h2, h3, h4, h5, h6, h7, h8, h9⟩ := spareTaken_spec (d := s.dev) (a := a) (t0 := t0) hf hsp hne
      rw [exec_spareTakeover, spareTakeover_eq hfat hr hp hq hrel hs, rehashAfter_inactive hact']
      refine ⟨_, rfl, ?_, ?_, ?_, ?_, fun i hi => ?_, ?_, ?_, ?_, ?_⟩
      · rw [roleOf_commit, h1]
      · rw [roleOf_commit, h2]
      · rw [getFur_commit, h3]
      · rw [getFur_commit, h4]
      · rw [furrowMap_commit, h5 i hi]
      · rw [rdF_commit, h6]
      · rw [rdF_commit, h7]
      · rw [rdF_commit, h8]
      · rw [rdF_commit, h9]
  case mapWrite =>
    intro s agent a k i v new ha hk hi hreach hrange _ hn
    have hi2 : 2 * k + i < 256 := by omega
    refine ⟨fun hne ho hnew hr hb hfat hold _ => ?_, fun hne ho => ?_⟩
    · rw [exec_furrowMapWrite ha hk hreach hrange (mapWrite_one hi hn hne ho hr hb hfat hold)]
      have hacre := getAcre_rehashStart s.dev a (2 * k + i) new
      refine ⟨_, rfl, ?_, ?_, ?_, ?_, ?_, ?_, fun j hj => ?_⟩
      · rw [rehashActive_commit, rehashActive_rehashStart hi2]
      · rw [rehashF_commit, rehashEntry_rehashStart hi2]
      · rw [rehashF_commit, rehashTo_rehashStart hi2 (by omega)]
      · rw [rehashF_commit, rehashFrom_rehashStart hi2]
      · rw [getAcre_commit, hacre, rehashAcre]
      · rw [getAcre_commit, hacre, rehashAcre]
      · rw [furrowMap_commit, furrowMap_rehashStart (by omega) hj]
    · rw [exec_furrowMapWrite_refused ha hk hreach hrange (mapWrite_both hi hn hne ho)]
      exact ⟨_, rfl, (rd_commit ..).trans (rd_hostReject_other _ _ _ _ (by
        simp only [Reg.FURROW_MAP, Reg.HOST_REJECT]
        omega))⟩
  case rehash =>
    intro s a dom dst ha hact hdst
    subst hdst
    refine ⟨fun hd hr => ?_, fun hd => ?_, fun htk hr => ?_⟩
    · rw [exec_rehashDomainDrained, rehashDrained, if_pos ⟨hact, hd⟩]
      refine ⟨_, rfl, ?_, ?_⟩
      · rw [getAcre_commit, getAcre_releaseHeld hr, releasedAcre]
      · rw [getAcre_commit, getAcre_releaseHeld hr, releasedAcre]
    · rw [exec_rehashDomainDrained, rehashDrained, if_neg fun h => by rw [hd] at h; exact Bool.false_ne_true h.2]
    · obtain ⟨h1, h2⟩ := rehashF_ended (rehashEnded s.dev a) a
      rw [exec_rehashHoldExpiry, rehashExpire_eq hr hact htk]
      refine ⟨_, rfl, ?_, ?_, ?_, ?_, fun slot q hq hmi hbm => ?_⟩
      · rw [rehashActive_commit, h1]
      · rw [rehashF_commit, h2]
      · rw [getAcre_commit, getAcre_wrFs, getAcre_rehashEnded hr, releasedAcre]
        simp
      · rw [getAcre_commit, getAcre_wrFs, getAcre_rehashEnded hr, releasedAcre]
        simp
      · rw [getPkt_commit, getPkt_congr (getFur_wrFs ..), getPkt_rehashEnded hr, hq, Option.map_some, Option.any_some, stragglerMark,
          belowMark_releasedAcre, hbm, hmi, BEq.rfl]
        rfl

end Sys2Proof
end

section
/-!
PROOF. The bytes of the deep store: a store changes its bytes and no other, whether they lie in a ring or not.
-/
namespace Sys2Proof.Machine

/-! A ring's bytes (R260). -/

theorem ofNat_setBits_byte (w : Nat) (b : Byte) (i j : Nat) :
    BitVec.ofNat 8 (setBits w (8 * i) 8 b.toNat / 2 ^ (8 * j)) = if j = i then b else BitVec.ofNat 8 (w / 2 ^ (8 * j)) := by
  refine BitVec.eq_of_getLsbD_eq fun n hn => ?_
  rw [BitVec.getLsbD_ofNat, Nat.testBit_div_two_pow, testBit_setBits]
  by_cases hj : j = i
  · rw [if_pos hj, if_pos (by omega), hj, BitVec.testBit_toNat, Nat.add_sub_cancel]
    simp [hn]
  · rw [if_neg hj, if_neg (by omega), BitVec.getLsbD_ofNat, Nat.testBit_div_two_pow]

section
variable (r : RingArea) (a : Nat) (b : Byte)

theorem RingArea.has_put (x : Nat) : (r.put a b).has x = r.has x := rfl

theorem RingArea.word_put (i : Nat) : (r.put a b).word i =
    if i = (a - 4096 * r.base) / 4 then setBits (r.word i) (8 * (a % 4)) 8 b.toNat else r.word i := by
  rw [RingArea.word, RingArea.put]
  dsimp only
  refine (spGet_spPut r.init r.words ((a - 4096 * r.base) / 4) i _).trans ?_
  by_cases h : i = (a - 4096 * r.base) / 4
  · rw [if_pos h, if_pos h, h]
  · rw [if_neg h, if_neg h]
    rfl

variable {r a}

theorem RingArea.byteAt_put (ha : r.has a = true) {x : Nat} (hx : r.has x = true) :
    (r.put a b).byteAt x = if x = a then b else r.byteAt x := by
  simp only [RingArea.has, decide_eq_true_eq] at ha hx
  rw [RingArea.byteAt, show (r.put a b).base = r.base from rfl, RingArea.word_put, RingArea.byteAt]
  by_cases h : (x - 4096 * r.base) / 4 = (a - 4096 * r.base) / 4
  · rw [if_pos h, ofNat_setBits_byte]
    exact if_congr (by omega) rfl rfl
  · rw [if_neg h, if_neg (by omega)]

end

/-! The rings of earlier regions. -/

/-- The byte that a list of rings holds at an address. -/
def areasByte (l : List RingArea) (x : Nat) : Option Byte := (l.find? fun r => r.has x).map fun r => r.byteAt x

theorem areasByte_cons (r : RingArea) (t : List RingArea) (x : Nat) :
    areasByte (r :: t) x = if r.has x then some (r.byteAt x) else areasByte t x := by
  rw [areasByte, List.find?_cons]
  cases h : r.has x with
  | true => rfl
  | false => rfl

theorem areasByte_none {l : List RingArea} {x : Nat} (h : l.findIdx? (fun r => r.has x) = none) : areasByte l x = none := by
  rw [areasByte, Option.map_eq_none_iff, List.find?_eq_none]
  intro r hr
  rw [List.findIdx?_eq_none_iff.mp h r hr]
  decide

/-- A byte put into the first ring that has its address. -/
theorem areasByte_set {l : List RingArea} {a i : Nat} {r : RingArea} (hi : l.findIdx? (fun r => r.has a) = some i) (hr : l[i]? = some r)
    (b : Byte) (x : Nat) : areasByte (l.set i (r.put a b)) x = if x = a then some b else areasByte l x := by
  induction l generalizing i with
  | nil => simp at hi
  | cons c t ih =>
    rw [List.findIdx?_cons] at hi
    cases hc : c.has a with
    | true =>
      rw [hc, if_pos rfl] at hi
      obtain rfl := Option.some.inj hi
      obtain rfl := Option.some.inj hr
      rw [List.set_cons_zero, areasByte_cons, areasByte_cons, RingArea.has_put]
      cases hx : c.has x with
      | true =>
        rw [if_pos rfl, if_pos rfl, RingArea.byteAt_put b hc hx]
        split <;> rfl
      | false =>
        have hne : x ≠ a := fun h => by rw [h, hc] at hx; exact absurd hx (by decide)
        simp only [hne, Bool.false_eq_true, if_false]
    | false =>
      rw [hc, if_neg (by decide), Option.map_eq_some_iff] at hi
      obtain ⟨j, hj, rfl⟩ := hi
      rw [List.set_cons_succ, areasByte_cons, areasByte_cons, ih hj hr]
      cases hx : c.has x with
      | true =>
        have hne : x ≠ a := fun h => by rw [h, hc] at hx; exact absurd hx (by decide)
        simp only [hne, if_true, if_false]
      | false => simp only [Bool.false_eq_true, if_false]

/-! The bytes of the store with the writes of a command so far. -/

theorem deepByte_eq (m : Mem) (d : Dev) (x : Nat) :
    deepByte m d x = (areasByte (ringNow d :: d.deep.areas) x).getD (memGet spDeep m.deep x) := by
  rw [deepByte, areasByte]
  cases (ringNow d :: d.deep.areas).find? fun r => r.has x <;> rfl

/-- The byte at an address as a command's writes so far leave it. -/
def deepNow (m : Mem) (d : Dev) (x : Nat) : Byte := deepByte (memNow m d) d x

theorem deepNow_eq (m : Mem) (d : Dev) (x : Nat) :
    deepNow m d x = (areasByte (ringNow d :: d.deep.areas) x).getD (memGet spDeep (memNow m d).deep x) := deepByte_eq ..

theorem deepNow_of_writes_nil (m : Mem) {d : Dev} (h : d.writes = []) (x : Nat) : deepNow m d x = deepByte m d x := by
  rw [deepNow, memNow, h]
  rfl

/-- What a committed state holds is what the command's writes left. -/
theorem deepByte_commit (s : State) (d : Dev) (x : Nat) : deepByte (commit s d).mem (commit s d).dev x = deepNow s.mem d x := rfl

theorem deepNow_congr {m : Mem} {d e : Dev} (hr : ringNow e = ringNow d) (ha : e.deep.areas = d.deep.areas) (hw : e.writes = d.writes)
    (x : Nat) : deepNow m e x = deepNow m d x := by
  rw [deepNow_eq, deepNow_eq, hr, ha, memNow, hw, memNow]

theorem ringNow_congr {d e : Dev} (h : rd e Reg.SPILL_REGION = rd d Reg.SPILL_REGION) (hq : e.que = d.que) : ringNow e = ringNow d := by
  rw [ringNow, ringNow, spillBase, spillBase, spillPages, spillPages, rdF_congr h, rdF_congr h, hq]

/-! Stores. -/

theorem memNow_memWrite (m : Mem) (d : Dev) (a : Nat) (bs : List Byte) :
    (memNow m (memWrite d spDeep a bs)).deep = memStore spDeep (memNow m d).deep a bs := by
  rw [memNow, memWrite, List.foldl_append, memNow]
  rfl

/-- Bytes that lie in no ring are stored in the memory. -/
theorem deepNow_memWrite (m : Mem) (d : Dev) {a : Nat} {bs : List Byte}
    (h : ∀ i, i < bs.length → areasByte (ringNow d :: d.deep.areas) (a + i) = none) (x : Nat) :
    deepNow m (memWrite d spDeep a bs) x = if a ≤ x ∧ x < a + bs.length then bs.getD (x - a) 0 else deepNow m d x := by
  rw [deepNow_eq, deepNow_eq, memNow_memWrite]
  show (areasByte (ringNow d :: d.deep.areas) x).getD _ = _
  by_cases hx : a ≤ x ∧ x < a + bs.length
  · have hi := memGet_memStore_same spDeep (memNow m d).deep a bs (x - a) (by omega)
    have hnone := h (x - a) (by omega)
    rw [Nat.add_sub_cancel' hx.1] at hi hnone
    rw [if_pos hx, hnone, Option.getD_none, hi]
  · rw [if_neg hx, memGet_memStore_other _ _ _ _ _ (by omega)]

/-- The device with the ring of the spill region set. -/
theorem deepNow_withRing (m : Mem) (d : Dev) (w : Sp Nat) (x : Nat) :
    deepNow m { d with que := { d.que with ring := w } } x =
      (areasByte (⟨spillBase d, spillPages d, w⟩ :: d.deep.areas) x).getD (memGet spDeep (memNow m d).deep x) := deepNow_eq ..

theorem ringNow_put (d : Dev) (a : Nat) (b : Byte) : (⟨spillBase d, spillPages d, ((ringNow d).put a b).words⟩ : RingArea) =
    (ringNow d).put a b := by rw [RingArea.put, ringNow]

/-- The device with the rings of earlier regions set. -/
theorem deepNow_withAreas (m : Mem) (d : Dev) (l : List RingArea) (x : Nat) :
    deepNow m { d with deep := { d.deep with areas := l } } x = (areasByte (ringNow d :: l) x).getD (memGet spDeep (memNow m d).deep x) :=
  deepNow_eq ..

theorem deepNow_deepPut (m : Mem) (d : Dev) (a : Nat) (b : Byte) (x : Nat) :
    deepNow m (deepPut d a b) x = if x = a then b else deepNow m d x := by
  rw [deepPut]
  by_cases hr : (ringNow d).has a = true
  · rw [if_pos hr, deepNow_withRing, ringNow_put, deepNow_eq, areasByte_cons, areasByte_cons, RingArea.has_put]
    cases hx : (ringNow d).has x with
    | true => simp only [if_true, RingArea.byteAt_put b hr hx, Option.getD_some]
    | false =>
      have hne : x ≠ a := fun h => by rw [h, hr] at hx; exact absurd hx (by decide)
      simp only [hne, Bool.false_eq_true, if_false]
  · rw [if_neg hr]
    rcases hi : d.deep.areas.findIdx? (fun r => r.has a) with _ | i
    · have hnone : areasByte (ringNow d :: d.deep.areas) a = none := by
        rw [areasByte_cons, if_neg hr, areasByte_none hi]
      have hw := deepNow_memWrite m d (a := a) (bs := [b]) (fun i h => by
        rw [show a + i = a by simp only [List.length_singleton] at h; omega]
        exact hnone) x
      rw [hi]
      refine hw.trans ?_
      by_cases hx : x = a
      · rw [if_pos hx, if_pos (by simp only [List.length_singleton]; omega), hx, Nat.sub_self]
        rfl
      · rw [if_neg hx, if_neg (by simp only [List.length_singleton]; omega)]
    · obtain ⟨hlt, -⟩ := List.findIdx?_eq_some_iff_getElem.mp hi
      have hget : d.deep.areas[i]? = some d.deep.areas[i] := List.getElem?_eq_getElem hlt
      rw [hi]
      dsimp only
      rw [hget]
      dsimp only
      rw [deepNow_withAreas, deepNow_eq, areasByte_cons, areasByte_cons, areasByte_set hi hget]
      by_cases hx : x = a
      · rw [if_neg (by rw [hx]; exact hr), if_pos hx, if_pos hx]
        rfl
      · rw [if_neg hx, if_neg hx]

theorem deepNow_foldl_deepPut (m : Mem) (d : Dev) (a : Nat) (bs : List Byte) (n x : Nat) :
    deepNow m ((List.range n).foldl (fun d i => deepPut d (a + i) (bs.getD i 0)) d) x =
      if a ≤ x ∧ x < a + n then bs.getD (x - a) 0 else deepNow m d x := by
  induction n with
  | zero => rw [if_neg (by omega)]; rfl
  | succ n ih =>
    rw [List.range_succ, List.foldl_append, List.foldl_cons, List.foldl_nil, deepNow_deepPut, ih]
    by_cases hx : x = a + n
    · rw [if_pos hx, if_pos (by omega), hx, Nat.add_sub_cancel_left]
    · rw [if_neg hx]
      exact if_congr (by omega) rfl rfl

/-- A store changes its bytes and no other. -/
theorem deepNow_deepStore (m : Mem) (d : Dev) (a : Nat) (bs : List Byte) (x : Nat) :
    deepNow m (deepStore d a bs) x = if a ≤ x ∧ x < a + bs.length then bs.getD (x - a) 0 else deepNow m d x := by
  rw [deepStore]
  split
  · exact deepNow_foldl_deepPut m d a bs bs.length x
  · next h =>
    refine deepNow_memWrite m d (fun i hi => ?_) x
    rw [areasByte, Option.map_eq_none_iff, List.find?_eq_none]
    exact fun r hr hhas => h (List.any_eq_true.mpr ⟨i, List.mem_range.mpr hi, List.any_eq_true.mpr ⟨r, hr, hhas⟩⟩)

/-! A store changes no register. -/

theorem deepPut_regs (d : Dev) (a : Nat) (b : Byte) : (deepPut d a b).regs = d.regs ∧ (deepPut d a b).fuses = d.fuses ∧
    (deepPut d a b).deep.reqs = d.deep.reqs := by
  rw [deepPut]
  split
  · exact ⟨rfl, rfl, rfl⟩
  · split
    · split <;> exact ⟨rfl, rfl, rfl⟩
    · exact ⟨rfl, rfl, rfl⟩

theorem deepStore_regs (d : Dev) (a : Nat) (bs : List Byte) : (deepStore d a bs).regs = d.regs ∧ (deepStore d a bs).fuses = d.fuses ∧
    (deepStore d a bs).deep.reqs = d.deep.reqs := by
  have hfold (l : List Nat) (e : Dev) : (l.foldl (fun d i => deepPut d (a + i) (bs.getD i 0)) e).regs = e.regs ∧
      (l.foldl (fun d i => deepPut d (a + i) (bs.getD i 0)) e).fuses = e.fuses ∧
      (l.foldl (fun d i => deepPut d (a + i) (bs.getD i 0)) e).deep.reqs = e.deep.reqs := by
    induction l generalizing e with
    | nil => exact ⟨rfl, rfl, rfl⟩
    | cons i t ih =>
      obtain ⟨h1, h2, h3⟩ := ih (deepPut e (a + i) (bs.getD i 0))
      obtain ⟨g1, g2, g3⟩ := deepPut_regs e (a + i) (bs.getD i 0)
      exact ⟨h1.trans g1, h2.trans g2, h3.trans g3⟩
  rw [deepStore]
  split
  · exact hfold _ d
  · exact ⟨rfl, rfl, rfl⟩

theorem rd_deepStore (d : Dev) (a : Nat) (bs : List Byte) (o : Nat) : rd (deepStore d a bs) o = rd d o := by
  obtain ⟨hr, hf, -⟩ := deepStore_regs d a bs
  exact rd_congr hr hf o

end Sys2Proof.Machine
end

section
/-!
PROOF. Bursts of a deep store whose ranks serve, with no injection pending: a read finds good bytes, and a write is stored.
-/
namespace Sys2Proof.Machine

/-! Places lie in the store's ranks (R364, R368). -/

theorem deepRadix_pos (d : Dev) (k : Nat) (f : DeepFld) : 0 < deepRadix d k f := by
  cases f with
  | L => simp only [deepRadix]; split <;> decide
  | S => simp only [deepRadix, stackCount]; split <;> decide
  | _ => simp only [deepRadix]; decide

theorem deepDigits_lt {d : Dev} {k : Nat} {l : List DeepFld} {q : Nat} {e : DeepFld × Nat} (h : e ∈ deepDigits d k l q) :
    e.2 < deepRadix d k e.1 := by
  induction l generalizing q with
  | nil => exact absurd h List.not_mem_nil
  | cons f t ih =>
    rw [deepDigits, List.mem_cons] at h
    obtain rfl | h := h
    · exact Nat.mod_lt _ (deepRadix_pos d k f)
    · exact ih h

/-- A digit of an address, 0 when the order does not name the field. -/
theorem deepDigit_lt (d : Dev) (k : Nat) (l : List DeepFld) (q : Nat) (f : DeepFld) :
    (((deepDigits d k l q).find? fun e => e.1 == f).map Prod.snd).getD 0 < deepRadix d k f := by
  rcases h : (deepDigits d k l q).find? fun e => e.1 == f with _ | e
  · rw [h]
    exact deepRadix_pos d k f
  · rw [h]
    have hf : e.1 = f := by simpa using List.find?_some h
    exact hf ▸ deepDigits_lt (List.mem_of_find?_eq_some h)

theorem deepLoc_k_lt (d : Dev) (a : Nat) : (deepLoc d a).k < 2 := by
  rw [deepLoc]
  dsimp only
  split
  · rw [b2n]
    split <;> decide
  · refine lt_of_lt_of_le (deepDigit_lt ..) ?_
    simp only [deepRadix, stackCount]
    split <;> decide

theorem deepLoc_c_lt (d : Dev) (a : Nat) : (deepLoc d a).c < 32 := deepDigit_lt d _ _ _ .C

theorem deepRadix_L_le (d : Dev) (k : Nat) : deepRadix d k .L ≤ 4 := by
  rw [deepRadix]
  split <;> decide

theorem deepLoc_sid_lt (d : Dev) (a : Nat) : (deepLoc d a).sid < 4 := lt_of_lt_of_le (deepDigit_lt d _ _ _ .L) (deepRadix_L_le ..)

theorem servingSid_lt (d : Dev) {l : DeepLoc} (h : l.sid < 4) : servingSid d l < 4 := by
  rw [servingSid]
  split
  · decide
  · exact h

/-- No rank has left service. -/
def RanksServe (d : Dev) : Prop := ∀ k c x, k < 2 → c < 32 → x < 4 → rankState d k c x ≠ 6

theorem RanksServe.serving {d : Dev} (h : RanksServe d) (a : Nat) :
    rankState d (deepLoc d a).k (deepLoc d a).c (servingSid d (deepLoc d a)) ≠ 6 :=
  h _ _ _ (deepLoc_k_lt d a) (deepLoc_c_lt d a) (servingSid_lt d (deepLoc_sid_lt d a))

/-! What serving a burst leaves: all but the banks, the counts of accesses, and the check bits. -/

/-- The counts that serving a burst may advance. -/
def burstCount (o : Nat) : Prop := o = Reg.DEEP_CNT 2 ∨ o = Reg.DEEP_CNT 3 ∨ o = Reg.DEEP_CNT 4

/-- A device that serves bursts: no injection is pending, and no rank has left service. -/
structure Serving (d : Dev) : Prop where
  idle : flagF d Reg.FAULT_INJECT Reg.FAULT_INJECT_PENDING = false
  ranks : RanksServe d

/-- The same store, after bursts were served. -/
structure SameStore (d e : Dev) : Prop where
  regs : ∀ o, ¬ burstCount o → rd e o = rd d o
  fuses : e.fuses = d.fuses
  que : e.que = d.que
  writes : e.writes = d.writes
  areas : e.deep.areas = d.deep.areas
  reqs : e.deep.reqs = d.deep.reqs

theorem SameStore.refl (d : Dev) : SameStore d d := ⟨fun _ _ => rfl, rfl, rfl, rfl, rfl, rfl⟩

section
variable {d e f : Dev}

theorem SameStore.trans (h : SameStore d e) (g : SameStore e f) : SameStore d f :=
  ⟨fun o ho => (g.regs o ho).trans (h.regs o ho), g.fuses.trans h.fuses, g.que.trans h.que, g.writes.trans h.writes,
    g.areas.trans h.areas, g.reqs.trans h.reqs⟩

theorem Serving.congr (h : Serving d) (hr : ∀ o, ¬ burstCount o → rd e o = rd d o) : Serving e where
  idle := (flagF_congr (hr _ (by rw [burstCount]; decide)) _).trans h.idle
  ranks k c x hk hc hx := by
    have hne : ¬ burstCount (Reg.RANK_STATE k c x) := by
      simp only [burstCount, Reg.RANK_STATE, Reg.DEEP_CNT]
      omega
    rw [rankState, rdF_congr (hr _ hne)]
    exact h.ranks k c x hk hc hx

theorem SameStore.serving (h : SameStore d e) (g : Serving d) : Serving e := g.congr h.regs

theorem SameStore.ringNow (h : SameStore d e) : ringNow e = ringNow d :=
  ringNow_congr (h.regs _ (by rw [burstCount]; decide)) h.que

theorem SameStore.deepNow (h : SameStore d e) (m : Mem) (x : Nat) : deepNow m e x = deepNow m d x :=
  deepNow_congr h.ringNow h.areas h.writes x

theorem SameStore.deepByte (h : SameStore d e) (m : Mem) (x : Nat) : deepByte m e x = deepByte m d x := by
  rw [deepByte_eq, deepByte_eq, h.ringNow, h.areas]

theorem SameStore.deepBytes (h : SameStore d e) (m : Mem) (a n : Nat) : deepBytes m e a n = deepBytes m d a n :=
  List.map_congr_left fun i _ => h.deepByte m (a + i)

end

theorem sameStore_putDBank (d : Dev) (key : Nat) (b : DeepBank) : SameStore d (putDBank d key b) := ⟨fun _ _ => rfl, rfl, rfl, rfl, rfl, rfl⟩

theorem sameStore_bump (d : Dev) {o : Nat} (ho : burstCount o) : SameStore d (bump d o) :=
  ⟨fun p hp => rd_bump_other d fun h => hp (h ▸ ho), bump_fuses .., bump_que .., bump_writes .., by rw [bump_deep], by rw [bump_deep]⟩

theorem sameStore_setEcc (d : Dev) (r : Ram) (i v : Nat) : SameStore d (setEcc d r i v) := ⟨fun _ _ => rfl, rfl, rfl, rfl, rfl, rfl⟩

theorem sameStore_writeBack (d : Dev) (w : Sp Nat) : SameStore d { d with deep := { d.deep with writeBack := w } } :=
  ⟨fun _ _ => rfl, rfl, rfl, rfl, rfl, rfl⟩

/-- A store leaves the registers and the requests. -/
theorem Serving.deepStore {d : Dev} (h : Serving d) (a : Nat) (bs : List Byte) : Serving (deepStore d a bs) :=
  h.congr fun o _ => rd_deepStore d a bs o

/-! Commands and row accesses. -/

theorem deepCommand_idle {d : Dev} (h : flagF d Reg.FAULT_INJECT Reg.FAULT_INJECT_PENDING = false) (k c s addr master access : Nat) :
    deepCommand d k c s addr master access = (0, d) := by
  rw [deepCommand, injectAt_idle h]
  rfl

theorem neighbourRefresh_keeps {d : Dev} (h : Serving d) (key : Nat) :
    SameStore d (neighbourRefresh key d) ∧ (neighbourRefresh key d).upset = d.upset := by
  rw [neighbourRefresh]
  split
  · exact ⟨.refl d, rfl⟩
  · rw [bankCommand, deepCommand_idle h.idle]
    dsimp only
    rw [if_neg (by decide)]
    refine ⟨(sameStore_putDBank d key _).trans (sameStore_bump _ (.inr (.inr rfl))), ?_⟩
    rw [bump_upset, putDBank_upset]

theorem neighboursDue_keeps {d : Dev} (h : Serving d) (key n : Nat) :
    SameStore d (neighboursDue key n d) ∧ (neighboursDue key n d).upset = d.upset := by
  induction n generalizing d with
  | zero => exact ⟨.refl d, rfl⟩
  | succ n ih =>
    rw [neighboursDue]
    split
    · exact ⟨.refl d, rfl⟩
    · obtain ⟨h1, h2⟩ := neighbourRefresh_keeps h key
      obtain ⟨g1, g2⟩ := ih (h1.serving h)
      exact ⟨h1.trans g1, g2.trans h2⟩

theorem bankAccess_cases (d : Dev) (key row : Nat) (wanted : Bool) : ∃ x y b, (x = d ∨ x = neighboursDue key 64 d) ∧
    (y = x ∨ y = bump x (Reg.DEEP_CNT 2) ∨ y = bump x (Reg.DEEP_CNT 3)) ∧ bankAccess d key row wanted = putDBank y key b := by
  let b := getDBank d key
  let x := if b.openRow == some row then d else neighboursDue key 64 d
  refine ⟨x, if b.openRow == some row then bump x (Reg.DEEP_CNT 2)
    else if b.openRow.isSome && !(b.openRow == some row) then bump x (Reg.DEEP_CNT 3) else x, _, ?_, ?_, rfl⟩
  · exact ite_eq_or_eq ..
  · split
    · exact .inr (.inl rfl)
    · split
      · exact .inr (.inr rfl)
      · exact .inl rfl

theorem bankAccess_keeps {d : Dev} (h : Serving d) (key row : Nat) (wanted : Bool) :
    SameStore d (bankAccess d key row wanted) ∧ (bankAccess d key row wanted).upset = d.upset := by
  obtain ⟨x, y, b, hx, hy, he⟩ := bankAccess_cases d key row wanted
  have hdx : SameStore d x ∧ x.upset = d.upset := by
    obtain rfl | rfl := hx
    · exact ⟨.refl _, rfl⟩
    · exact neighboursDue_keeps h key 64
  have hxy : SameStore x y ∧ y.upset = x.upset := by
    obtain rfl | rfl | rfl := hy
    · exact ⟨.refl _, rfl⟩
    · exact ⟨sameStore_bump x (.inl rfl), bump_upset ..⟩
    · exact ⟨sameStore_bump x (.inr (.inl rfl)), bump_upset ..⟩
  rw [he]
  exact ⟨(hdx.1.trans hxy.1).trans (sameStore_putDBank y key b), (putDBank_upset ..).trans (hxy.2.trans hdx.2)⟩

/-! Bursts. -/

/-- Every burst's check bits are good. -/
def AllGood (d : Dev) : Prop := ∀ key, ecc d .deep key = 0

theorem burstRead_good {d : Dev} (h : Serving d) (hg : AllGood d) (addr master access : Nat) :
    ∃ e, burstRead d addr master access = (true, e) ∧ SameStore d e ∧ e.upset = d.upset := by
  rw [burstRead]
  dsimp only
  rw [if_neg (h.ranks.serving addr), deepCommand_idle h.idle]
  dsimp only
  rw [if_neg (by decide)]
  have hb (key row : Nat) (w : Bool) := bankAccess_keeps h key row w
  refine ⟨_, if_pos ?_, hb _ _ _⟩
  rw [ecc_congr (hb _ _ _).2, hg]

theorem burstEcc_keeps {d : Dev} (h : Serving d) (key rank addr : Nat) (whole : Bool) : SameStore d (burstEcc d key rank addr whole) := by
  rw [burstEcc, injectAt_idle h.idle]
  dsimp only
  rw [if_neg (by decide)]
  split
  · exact (sameStore_writeBack d _).trans (sameStore_setEcc ..)
  · exact sameStore_writeBack d _

theorem burstWrite_stored {d : Dev} (h : Serving d) (addr : Nat) (whole : Bool) (master access : Nat) :
    ∃ e, burstWrite d addr whole master access = (true, e) ∧ SameStore d e := by
  rw [burstWrite]
  dsimp only
  rw [if_neg (h.ranks.serving addr), deepCommand_idle h.idle]
  dsimp only
  rw [if_neg (by decide)]
  have hb (key row : Nat) (w : Bool) := (bankAccess_keeps h key row w).1
  exact ⟨_, rfl, (hb _ _ _).trans (burstEcc_keeps ((hb _ _ _).serving h) _ _ _ _)⟩

/-- Reads of good bursts bring their bytes. -/
theorem readBursts_good (m : Mem) (addr master access : Nat) (l : List (Nat × Nat × Nat)) {d : Dev} (h : Serving d) (hg : AllGood d) :
    ∃ e, readBursts m addr master access l d = (l.flatMap fun b => deepBytes m d (addr + b.2.1) b.2.2, true, e) ∧ SameStore d e := by
  have hfold : ∀ (l : List (Nat × Nat × Nat)) (x : List Byte) (e : Dev), SameStore d e → e.upset = d.upset →
      ∃ e', l.foldl (fun (x : List Byte × Bool × Dev) b =>
        let (g, d) := burstRead x.2.2 b.1 master access
        (x.1 ++ burstData m d addr b g, x.2.1 && g, d)) (x, true, e) =
          (x ++ l.flatMap (fun b => deepBytes m d (addr + b.2.1) b.2.2), true, e') ∧ SameStore d e' := by
    intro l
    induction l with
    | nil => exact fun x e hs _ => ⟨e, by rw [List.flatMap_nil, List.append_nil]; rfl, hs⟩
    | cons b t ih =>
      intro x e hs hu
      obtain ⟨e', hr, hs', hu'⟩ := burstRead_good (hs.serving h) (fun key => (ecc_congr hu .deep key).trans (hg key)) b.1 master access
      obtain ⟨e'', hf, hs''⟩ := ih (x ++ deepBytes m d (addr + b.2.1) b.2.2) e' (hs.trans hs') (hu'.trans hu)
      refine ⟨e'', ?_, hs''⟩
      rw [List.foldl_cons]
      dsimp only
      rw [hr]
      dsimp only
      rw [burstData, if_pos rfl, (hs.trans hs').deepBytes, Bool.and_self, hf, List.flatMap_cons, List.append_assoc]
  exact hfold l [] d (.refl d) rfl

/-- The two bursts of 64 bytes at a multiple of 64. -/
theorem burstsOf_64 (n : Nat) : burstsOf (64 * n) 64 = [(64 * n, 0, 32), (64 * n + 32, 32, 32)] := by
  have h1 : (64 * n + 64 - 1) / 32 - 64 * n / 32 + 1 = 2 := by omega
  have h2 : 64 * n / 32 * 32 = 64 * n := by omega
  have h3 : (64 * n / 32 + 1) * 32 = 64 * n + 32 := by omega
  have h4 : (64 * n / 32 + 2) * 32 = 64 * n + 64 := by omega
  rw [burstsOf, if_neg (by decide), h1, show List.range 2 = [0, 1] from rfl, List.map_cons, List.map_cons, List.map_nil]
  dsimp only
  rw [Nat.add_zero, Nat.add_assoc (64 * n / 32) 1 1, h2, h3, h4]
  refine congrArg₂ List.cons (congrArg₂ Prod.mk rfl (congrArg₂ Prod.mk ?_ ?_)) (congrArg₂ List.cons (congrArg₂ Prod.mk rfl (congrArg₂ Prod.mk ?_ ?_)) rfl)
  all_goals omega

theorem deepBytes_append (m : Mem) (d : Dev) (a n k : Nat) : deepBytes m d a n ++ deepBytes m d (a + n) k = deepBytes m d a (n + k) := by
  rw [deepBytes, deepBytes, deepBytes, List.range_add, List.map_append, List.map_map]
  congr 1
  exact List.map_congr_left fun i _ => by rw [Function.comp_apply, Nat.add_assoc]

/-- A write of 64 bytes at a multiple of 64 changes them and no other byte. -/
theorem writeBursts_64 (m : Mem) {d : Dev} (h : Serving d) (n : Nat) {bs : List Byte} (hl : bs.length = 64) (master access : Nat) :
    ∃ e, writeBursts (64 * n) bs master access d = e ∧
      (∀ x, deepNow m e x = if 64 * n ≤ x ∧ x < 64 * n + 64 then bs.getD (x - 64 * n) 0 else deepNow m d x) := by
  rw [writeBursts, hl, burstsOf_64, List.foldl_cons, List.foldl_cons, List.foldl_nil]
  dsimp only
  obtain ⟨e1, hw1, hs1⟩ := burstWrite_stored h (64 * n) (32 == 32) master access
  rw [hw1]
  dsimp only
  rw [if_pos rfl]
  have hsv := (hs1.serving h).deepStore (64 * n + 0) ((bs.drop 0).take 32)
  obtain ⟨e2, hw2, hs2⟩ := burstWrite_stored hsv (64 * n + 32) (32 == 32) master access
  rw [hw2]
  dsimp only
  rw [if_pos rfl]
  refine ⟨_, rfl, fun x => ?_⟩
  have l1 : ((bs.drop 0).take 32).length = 32 := by simp [hl]
  have l2 : ((bs.drop 32).take 32).length = 32 := by simp [hl]
  rw [deepNow_deepStore, l2, hs2.deepNow, deepNow_deepStore, l1, hs1.deepNow]
  by_cases hx : 64 * n + 32 ≤ x ∧ x < 64 * n + 32 + 32
  · rw [if_pos hx, if_pos (by omega), List.getD_eq_getElem?_getD, List.getD_eq_getElem?_getD, List.getElem?_take_of_lt (by omega),
      List.getElem?_drop, show 32 + (x - (64 * n + 32)) = x - 64 * n by omega]
  · rw [if_neg hx]
    by_cases hx1 : 64 * n + 0 ≤ x ∧ x < 64 * n + 0 + 32
    · rw [if_pos hx1, if_pos (by omega), List.getD_eq_getElem?_getD, List.getD_eq_getElem?_getD, List.getElem?_take_of_lt (by omega),
        List.drop_zero, Nat.add_zero]
    · rw [if_neg hx1, if_neg (by omega)]

end Sys2Proof.Machine
end

section
/-!
PROOF. The host's access to the deep store: DEEP_ACC_CMD (R383) and BAR2 (R473).
-/
namespace Sys2Proof.Machine

/-! DEEP_ACC_CMD. -/

theorem isOwnReg_DEEP_ACC_CMD : isOwnReg Reg.DEEP_ACC_CMD Reg.DEEP_ACC_CMD 0 0 = true := by decide +kernel

/-- Both fields of DEEP_ACC_CMD are taken from the value written. -/
theorem stored_DEEP_ACC_CMD (d : Dev) (v : W64) : stored d Reg.DEEP_ACC_CMD v =
    setF (setF (rd d Reg.DEEP_ACC_CMD) Reg.DEEP_ACC_CMD_ADDR (getF v Reg.DEEP_ACC_CMD_ADDR)) Reg.DEEP_ACC_CMD_OP (getF v Reg.DEEP_ACC_CMD_OP) := rfl

theorem regEffect_DEEP_ACC_CMD (agent i j : Nat) (v x : W64) (m : Mem) (d : Dev) :
    regEffect ⟨agent, Reg.DEEP_ACC_CMD, Reg.DEEP_ACC_CMD, i, j, v, x⟩ m d = (true, deepAccCmd x m (startedBy d 7 agent)) := by
  simp [regEffect, effDeep, Reg.DEEP_ACC_CMD, Reg.DEEP_CFG, Reg.DEEP_SPARE_CFG, Reg.DEEP_CTRL, Reg.DEEP_TYPE]

section
variable (d : Dev) (v : W64) {op : Nat}

theorem getF_stored_DEEP_ACC_CMD_ADDR (op : Nat) :
    getF (stored d Reg.DEEP_ACC_CMD (setF v Reg.DEEP_ACC_CMD_OP op)) Reg.DEEP_ACC_CMD_ADDR = getF v Reg.DEEP_ACC_CMD_ADDR := by
  rw [stored_DEEP_ACC_CMD, getF_setF_other _ _ _ _ (by decide) (by decide), getF_setF _ _ _ (by decide),
    getF_setF_other _ _ _ _ (by decide) (by decide)]
  exact Nat.mod_eq_of_lt (bits_lt _ _ _)

theorem getF_stored_DEEP_ACC_CMD_OP (h : op < 4) :
    getF (stored d Reg.DEEP_ACC_CMD (setF v Reg.DEEP_ACC_CMD_OP op)) Reg.DEEP_ACC_CMD_OP = op := by
  rw [stored_DEEP_ACC_CMD, getF_setF _ _ _ (by decide), getF_setF _ _ _ (by decide)]
  simp only [Reg.DEEP_ACC_CMD_OP]
  omega

end

/-- The command that DEEP_ACC_CMD holds after a write of v with operation op. -/
def accCmd (d : Dev) (v : W64) (op : Nat) : W64 := stored d Reg.DEEP_ACC_CMD (setF v Reg.DEEP_ACC_CMD_OP op)

section
variable {s : State} {agent : Nat} {v : W64}

theorem exec_deepAccRead (h : WriteReaches s.dev agent Reg.DEEP_ACC_CMD (setF v Reg.DEEP_ACC_CMD_OP 1))
    (hf : FieldsInRange Reg.DEEP_ACC_CMD (setF v Reg.DEEP_ACC_CMD_OP 1)) : exec (.deepAccRead agent v) s =
      .next (commit s (deepAccRead (accCmd s.dev v 1) s.mem (startedBy s.dev 7 agent))) := by
  have he : exec (.deepAccRead agent v) s =
      .next (commit s (regWrite agent Reg.DEEP_ACC_CMD (setF v Reg.DEEP_ACC_CMD_OP 1) s.mem s.dev)) := rfl
  rw [he, regWrite_accepted isOwnReg_DEEP_ACC_CMD (by decide) h hf (regEffect_DEEP_ACC_CMD ..), deepAccCmd,
    if_pos (getF_stored_DEEP_ACC_CMD_OP s.dev v (by decide)), accCmd]

theorem exec_deepAccWrite (h : WriteReaches s.dev agent Reg.DEEP_ACC_CMD (setF v Reg.DEEP_ACC_CMD_OP 2))
    (hf : FieldsInRange Reg.DEEP_ACC_CMD (setF v Reg.DEEP_ACC_CMD_OP 2)) : exec (.deepAccWrite agent v) s =
      .next (commit s (deepAccWrite (accCmd s.dev v 2) s.mem (startedBy s.dev 7 agent))) := by
  have he : exec (.deepAccWrite agent v) s =
      .next (commit s (regWrite agent Reg.DEEP_ACC_CMD (setF v Reg.DEEP_ACC_CMD_OP 2) s.mem s.dev)) := rfl
  rw [he, regWrite_accepted isOwnReg_DEEP_ACC_CMD (by decide) h hf (regEffect_DEEP_ACC_CMD ..), deepAccCmd,
    if_neg (by rw [getF_stored_DEEP_ACC_CMD_OP s.dev v (by decide)]; decide), accCmd]

end

/-! The device as an access begins: the command and its agent are kept. -/

def accBegun (d : Dev) (agent : Nat) (c : W64) : Dev := wr (startedBy d 7 agent) Reg.DEEP_ACC_CMD c

section
variable (d : Dev) (agent : Nat) (c : W64)

theorem rd_accBegun {o : Nat} (h : o ≠ Reg.DEEP_ACC_CMD) : rd (accBegun d agent c) o = rd d o := by
  rw [accBegun, rd_wr_other _ _ h, rd_startedBy]

theorem accBegun_fuses : (accBegun d agent c).fuses = d.fuses := rfl
theorem accBegun_que : (accBegun d agent c).que = d.que := rfl
theorem accBegun_deep : (accBegun d agent c).deep = d.deep := rfl
theorem accBegun_writes : (accBegun d agent c).writes = d.writes := rfl
theorem accBegun_upset : (accBegun d agent c).upset = d.upset := rfl

theorem ringNow_accBegun : ringNow (accBegun d agent c) = ringNow d :=
  ringNow_congr (rd_accBegun d agent c (by decide)) (accBegun_que ..)

theorem deepByte_accBegun (m : Mem) (x : Nat) : deepByte m (accBegun d agent c) x = deepByte m d x := by
  rw [deepByte_eq, deepByte_eq, ringNow_accBegun, accBegun_deep]

theorem deepReady_accBegun : deepReady (accBegun d agent c) = deepReady d := deepReady_congr (rd_accBegun d agent c (by decide))
theorem deepSize_accBegun : deepSize (accBegun d agent c) = deepSize d :=
  deepSize_congr (rd_accBegun d agent c (by decide)) (accBegun_fuses ..)

variable {d}

theorem Serving.accBegun (h : Serving d) : Serving (accBegun d agent c) where
  idle := (flagF_congr (rd_accBegun d agent c (by decide)) _).trans h.idle
  ranks k l x hk hl hx := by
    have hne : Reg.RANK_STATE k l x ≠ Reg.DEEP_ACC_CMD := by
      simp only [Reg.RANK_STATE, Reg.DEEP_ACC_CMD]
      omega
    rw [rankState, rdF_congr (rd_accBegun d agent c hne)]
    exact h.ranks k l x hk hl hx

end

/-! Requests at the HOST port. -/

/-- With no earlier request at its port, a request is served at once. -/
theorem portOrder_none {d : Dev} {port : Nat} (h : ∀ r ∈ d.deep.reqs, r.port ≠ port) (m : Mem) (addr n : Nat) : portOrder m port addr n d = d := by
  rw [portOrder]
  cases d.deep.reqs.length with
  | zero => rfl
  | succ k =>
    have hnone : d.deep.reqs.findIdx? (fun r => r.port == port && burstsMeet r.left (burstsOf addr n)) = none := by
      rw [List.findIdx?_eq_none_iff]
      intro r hr
      rw [beq_false_of_ne (h r hr), Bool.false_and]
    rw [portFlush, hnone]

theorem deepCheck_ok {d : Dev} {addr n : Nat} (hr : deepReady d = true) (hs : addr + n ≤ deepSize d) (master access : Nat) :
    deepCheck d addr n master access = (0, d) := by
  rw [deepCheck_cases, if_neg (by rw [hr]; decide), if_neg (by omega)]

theorem deepFetch_notReady {d : Dev} (hr : deepReady d = false) (m : Mem) (port addr n master access : Nat) :
    deepFetch m d port addr n master access = (List.replicate n 0, 3, bump d (Reg.DEEP_CNT 9)) := by
  rw [deepFetch, deepCheck_cases, if_pos (by rw [hr]; decide)]
  rfl

/-- A read of 64 good bytes at a multiple of 64. -/
theorem deepFetch_good {m : Mem} {d : Dev} {port n : Nat} (h : Serving d) (hg : AllGood d) (hr : deepReady d = true)
    (hs : 64 * n + 64 ≤ deepSize d) (hp : ∀ r ∈ d.deep.reqs, r.port ≠ port) (hw : d.writes = []) (master access : Nat) :
    ∃ e, deepFetch m d port (64 * n) 64 master access = (deepBytes m d (64 * n) 64, 0, e) ∧ SameStore d e := by
  have hm : memNow m d = m := by rw [memNow, hw]; rfl
  obtain ⟨e, he, hse⟩ := readBursts_good m (64 * n) master access (burstsOf (64 * n) 64) h hg
  have hbytes : ((burstsOf (64 * n) 64).flatMap fun b => deepBytes m d (64 * n + b.2.1) b.2.2) = deepBytes m d (64 * n) 64 := by
    rw [burstsOf_64, List.flatMap_cons, List.flatMap_cons, List.flatMap_nil, List.append_nil]
    exact deepBytes_append m d (64 * n) 32 32
  rw [hbytes] at he
  refine ⟨e, ?_, hse⟩
  rw [deepFetch, deepCheck_ok hr hs]
  dsimp only
  rw [if_neg (by decide), portOrder_none hp, hm, he]
  rfl

/-! The data registers. -/

/-- DEEP_ACC_DATA after a read: word i of the list of values. -/
def accLoaded (d : Dev) (x : Nat → W64) : Dev := (List.range 8).foldl (fun d i => wr d (Reg.DEEP_ACC_DATA i) (x i)) d

theorem DEEP_ACC_DATA_inj {i j : Nat} (h : Reg.DEEP_ACC_DATA i = Reg.DEEP_ACC_DATA j) : i = j := by
  simp only [Reg.DEEP_ACC_DATA] at h
  omega

theorem rd_accLoaded (d : Dev) (x : Nat → W64) {i : Nat} (hi : i < 8) : rd (accLoaded d x) (Reg.DEEP_ACC_DATA i) = x i := by
  have hfold (n : Nat) : rd ((List.range n).foldl (fun d i => wr d (Reg.DEEP_ACC_DATA i) (x i)) d) (Reg.DEEP_ACC_DATA i) =
      if i < n then x i else rd d (Reg.DEEP_ACC_DATA i) := by
    induction n with
    | zero => rfl
    | succ n ih =>
      rw [List.range_succ, List.foldl_append, List.foldl_cons, List.foldl_nil, rd_wr]
      by_cases hin : i = n
      · rw [if_pos (by rw [hin]), if_pos (by omega), hin]
      · rw [if_neg (fun h => hin (DEEP_ACC_DATA_inj h)), ih]
        exact if_congr (by omega) rfl rfl
  rw [accLoaded, hfold, if_pos hi]

theorem accLoaded_shape (d : Dev) (x : Nat → W64) : ∃ re, accLoaded d x = { d with regs := re } :=
  foldl_wr_shape _ (fun i => Reg.DEEP_ACC_DATA i) x d

/-- The status of an access: BUSY, with its result. -/
def accStatus (d : Dev) (r : Nat) : Dev := wrFs d Reg.DEEP_ACC_STATUS [(Reg.DEEP_ACC_STATUS_BUSY, 1), (Reg.DEEP_ACC_STATUS_RESULT, r)]

theorem accStatus_spec (d : Dev) {r : Nat} (hr : r < 16) : flagF (accStatus d r) Reg.DEEP_ACC_STATUS Reg.DEEP_ACC_STATUS_BUSY = true ∧
    rdF (accStatus d r) Reg.DEEP_ACC_STATUS Reg.DEEP_ACC_STATUS_RESULT = r := by
  have hb : rdF (accStatus d r) Reg.DEEP_ACC_STATUS Reg.DEEP_ACC_STATUS_BUSY = 1 % 2 ^ 1 :=
    rdF_wrFs_last d _ [] [(Reg.DEEP_ACC_STATUS_RESULT, r)] (by decide)
      (by simp [Reg.DEEP_ACC_STATUS_BUSY, Reg.DEEP_ACC_STATUS_RESULT])
  have hres : rdF (accStatus d r) Reg.DEEP_ACC_STATUS Reg.DEEP_ACC_STATUS_RESULT = r % 2 ^ 4 :=
    rdF_wrFs_last d _ [(Reg.DEEP_ACC_STATUS_BUSY, 1)] [] (by decide) (by decide)
  rw [flagF, hb, hres]
  exact ⟨rfl, Nat.mod_eq_of_lt hr⟩

theorem rd_accStatus_DATA (d : Dev) (r i : Nat) (hi : i < 8) : rd (accStatus d r) (Reg.DEEP_ACC_DATA i) = rd d (Reg.DEEP_ACC_DATA i) :=
  rd_wrFs_other d _ (by simp only [Reg.DEEP_ACC_DATA, Reg.DEEP_ACC_STATUS]; omega)

theorem accStatus_writes (d : Dev) (r : Nat) : (accStatus d r).writes = d.writes := wrFs_writes ..

theorem deepNow_accStatus (m : Mem) (d : Dev) (r x : Nat) : deepNow m (accStatus d r) x = deepNow m d x :=
  deepNow_congr (ringNow_congr (rd_wrFs_other d _ (by decide)) (wrFs_que ..)) (by rw [wrFs_deep]) (wrFs_writes ..) x

/-! The access. -/

theorem deepAccRead_eq {m : Mem} {d e : Dev} {agent r : Nat} {c : W64} {bs : List Byte}
    (hf : deepFetch m (accBegun d agent (setF c Reg.DEEP_ACC_CMD_OP 1)) 5 (64 * getF c Reg.DEEP_ACC_CMD_ADDR) 64
      (starterOf (accBegun d agent (setF c Reg.DEEP_ACC_CMD_OP 1)) 7) 1 = (bs, r, e)) :
    deepAccRead c m (startedBy d 7 agent) =
      accStatus (accLoaded e fun i => if r = 0 then BitVec.ofNat 64 (leNat ((bs.drop (8 * i)).take 8)) else 0) r := by
  rw [deepAccRead, ← accBegun]
  dsimp only
  rw [hf]
  rfl

theorem deepBytes_length (m : Mem) (d : Dev) (a n : Nat) : (deepBytes m d a n).length = n := by simp [deepBytes]

/-- The eight bytes from 8 i on of 64. -/
theorem deepBytes_word (m : Mem) (d : Dev) (a : Nat) {i : Nat} (hi : i < 8) :
    ((deepBytes m d a 64).drop (8 * i)).take 8 = deepBytes m d (a + 8 * i) 8 := by
  have h1 : deepBytes m d a 64 = deepBytes m d a (8 * i) ++ (deepBytes m d (a + 8 * i) 8 ++ deepBytes m d (a + 8 * i + 8) (64 - 8 * i - 8)) := by
    rw [deepBytes_append, deepBytes_append]
    congr 1
    omega
  rw [h1, List.drop_left' (deepBytes_length ..), List.take_left' (deepBytes_length ..)]

theorem accData_length (d : Dev) : (accData d).length = 64 := rfl

theorem accData_congr {d e : Dev} (h : ∀ i, i < 8 → rd e (Reg.DEEP_ACC_DATA i) = rd d (Reg.DEEP_ACC_DATA i)) : accData e = accData d :=
  List.flatMap_congr fun i hi => by rw [h i (List.mem_range.mp hi)]

/-- What a write replaces, as the access keeps it. -/
def accKept (d : Dev) (old : List Byte) (bits : List (Nat × Nat)) : Dev := { d with deep := { d.deep with accOld := old, accEcc := bits } }

theorem sameStore_accKept (d : Dev) (old : List Byte) (bits : List (Nat × Nat)) : SameStore d (accKept d old bits) :=
  ⟨fun _ _ => rfl, rfl, rfl, rfl, rfl, rfl⟩

theorem deepAccWrite_eq {m : Mem} {d : Dev} {agent : Nat} {c : W64} (hp : ∀ r ∈ d.deep.reqs, r.port ≠ 5) :
    ∃ old bits master, deepAccWrite c m (startedBy d 7 agent) =
      (let x := deepPost m (accKept (accBegun d agent (setF c Reg.DEEP_ACC_CMD_OP 2)) old bits) 5 (64 * getF c Reg.DEEP_ACC_CMD_ADDR)
        (accData (accKept (accBegun d agent (setF c Reg.DEEP_ACC_CMD_OP 2)) old bits)) master 2
      accStatus x.2 x.1) := by
  have hpb : ∀ r ∈ (accBegun d agent (setF c Reg.DEEP_ACC_CMD_OP 2)).deep.reqs, r.port ≠ 5 := by
    rw [accBegun_deep]
    exact hp
  rw [deepAccWrite, ← accBegun, portOrder_none hpb]
  exact ⟨_, _, _, rfl⟩

theorem deepPost_good {m : Mem} {d : Dev} {port addr : Nat} {bs : List Byte} (hr : deepReady d = true) (hs : addr + bs.length ≤ deepSize d)
    (hp : ∀ r ∈ d.deep.reqs, r.port ≠ port) (master access : Nat) :
    deepPost m d port addr bs master access = (0, writeBursts addr bs master access d) := by
  rw [deepPost, deepCheck_ok hr hs]
  dsimp only
  rw [if_neg (by decide), portOrder_none hp]

/-- A write of DEEP_ACC to a store that serves: the data registers' bytes are stored, and no other byte changes. -/
theorem deepAccWrite_stored {m : Mem} {d : Dev} {agent : Nat} {c : W64} (h : Serving d) (hr : deepReady d = true)
    (hs : 64 * getF c Reg.DEEP_ACC_CMD_ADDR + 64 ≤ deepSize d) (hp : ∀ r ∈ d.deep.reqs, r.port ≠ 5) (hw : d.writes = []) :
    ∃ e, deepAccWrite c m (startedBy d 7 agent) = accStatus e 0 ∧
      ∀ x, deepNow m e x = if 64 * getF c Reg.DEEP_ACC_CMD_ADDR ≤ x ∧ x < 64 * getF c Reg.DEEP_ACC_CMD_ADDR + 64
        then (accData d).getD (x - 64 * getF c Reg.DEEP_ACC_CMD_ADDR) 0 else deepByte m d x := by
  obtain ⟨old, bits, master, he⟩ := deepAccWrite_eq (m := m) (agent := agent) (c := c) hp
  generalize hb : accBegun d agent (setF c Reg.DEEP_ACC_CMD_OP 2) = b at he
  have hpb : ∀ r ∈ (accKept b old bits).deep.reqs, r.port ≠ 5 := by
    rw [(sameStore_accKept b old bits).reqs, ← hb, accBegun_deep]
    exact hp
  have hrb : deepReady (accKept b old bits) = true := by
    rw [deepReady_congr ((sameStore_accKept b old bits).regs _ (by rw [burstCount]; decide)), ← hb, deepReady_accBegun, hr]
  have hsb : 64 * getF c Reg.DEEP_ACC_CMD_ADDR + (accData (accKept b old bits)).length ≤ deepSize (accKept b old bits) := by
    rw [accData_length, deepSize_congr ((sameStore_accKept b old bits).regs _ (by rw [burstCount]; decide)) (sameStore_accKept b old bits).fuses,
      ← hb, deepSize_accBegun]
    exact hs
  have hdata : accData (accKept b old bits) = accData d := accData_congr fun i hi => by
    rw [(sameStore_accKept b old bits).regs _ (by simp only [burstCount, Reg.DEEP_ACC_DATA, Reg.DEEP_CNT]; omega), ← hb,
      rd_accBegun _ _ _ (by simp only [Reg.DEEP_ACC_DATA, Reg.DEEP_ACC_CMD]; omega)]
  have hserv : Serving (accKept b old bits) := (sameStore_accKept b old bits).serving (hb ▸ h.accBegun agent _)
  obtain ⟨e, hwr, hbytes⟩ := writeBursts_64 m hserv (getF c Reg.DEEP_ACC_CMD_ADDR) (accData_length (accKept b old bits)) master 2
  rw [deepPost_good hrb hsb hpb, hwr] at he
  refine ⟨e, he, fun x => ?_⟩
  have hwb : b.writes = [] := by rw [← hb, accBegun_writes, hw]
  rw [hbytes, hdata, (sameStore_accKept b old bits).deepNow, deepNow_of_writes_nil m hwb, ← hb, deepByte_accBegun]

/-! BAR2 (R473). -/

theorem exec_bar2Write (s : State) (off : Nat) (bs : List Byte) :
    exec (.bar2Write off bs) s = .next (commit s (bar2Write off bs s.mem s.dev)) := rfl
theorem exec_bar2Read (s : State) (off n : Nat) : exec (.bar2Read off n) s = .next (commit s (bar2Read off n s.mem s.dev)) := rfl

theorem bulkAddr_eq (d : Dev) (off : Nat) : bulkAddr d off = (rd d Reg.HOST_BULK_BASE).toNat + (off - 0x2000000) := rfl

section
variable {m : Mem} {d : Dev} {off : Nat}

theorem bar2Write_window (hc : ctlReset d = false) (ho : off < 0x1FF0000) (hi : islandOff d 4 = false) (bs : List Byte) :
    bar2Write off bs m d = windowWrite off bs d := by
  rw [bar2Write, if_neg (by rw [hc]; simp only [Bool.false_eq_true, false_or]; omega), if_pos ho, if_neg (by rw [hi]; decide)]

theorem bar2Write_deep (hc : ctlReset d = false) (hl : 0x2000000 ≤ off) (ho : off < 0x10000000) (hi : islandOff d 3 = false) (bs : List Byte) :
    bar2Write off bs m d = (deepWrite m d 5 ((rd d Reg.HOST_BULK_BASE).toNat + (off - 0x2000000)) bs 1 2).2 := by
  rw [bar2Write, if_neg (by rw [hc]; simp only [Bool.false_eq_true, false_or]; omega), if_neg (by omega),
    if_neg (by rw [hi]; simp only [Bool.false_eq_true, or_false]; omega)]
  exact congrArg (fun a => (deepWrite m d 5 a bs 1 2).2) (bulkAddr_eq d off)

theorem bar2Write_between (hl : 0x1FF0000 ≤ off) (ho : off < 0x2000000) (bs : List Byte) : bar2Write off bs m d = d := by
  rw [bar2Write]
  split
  · rfl
  · rw [if_neg (by omega), if_pos (.inl ho)]

theorem bar2Read_window (hc : ctlReset d = false) (ho : off < 0x1FF0000) (hi : islandOff d 4 = false) (n : Nat) : bar2Read off n m d =
    { d with host := { d.host with bar2Ans := (0, (List.range n).map fun k => windowRead d (off + k)) } } := by
  rw [bar2Read, if_neg (by rw [hc]; simp only [Bool.false_eq_true, false_or]; omega), if_pos ho, if_neg (by rw [hi]; decide)]

theorem bar2Read_deep {n : Nat} {bs : List Byte} {e : Dev} (hc : ctlReset d = false) (hl : 0x2000000 ≤ off) (ho : off < 0x10000000)
    (hi : islandOff d 3 = false) (hr : deepRead m d 5 ((rd d Reg.HOST_BULK_BASE).toNat + (off - 0x2000000)) n 1 1 = (bs, 0, e)) :
    bar2Read off n m d = { e with host := { e.host with bar2Ans := (0, bs) } } := by
  rw [bar2Read, if_neg (by rw [hc]; simp only [Bool.false_eq_true, false_or]; omega), if_neg (by omega), if_neg (by omega),
    if_neg (by rw [hi]; decide), bulkAddr_eq, hr]
  rfl

end

end Sys2Proof.Machine

namespace Sys2Proof
open Machine

/-- Settles O37: an access fetches or posts two whole bursts, which a serving store answers with its bytes or stores; BAR2 goes by its
offset to the window, to nothing or to the HOST port. -/
theorem bulkAccess : Obligations.BulkAccess := by
  unfold Obligations.BulkAccess
  refine ⟨?notReady, ?read, ?write, ?barWindow, ?barDeep, ?barBetween, ?barReadWindow, ?barReadDeep⟩
  case notReady =>
    intro s agent v hreach hrange hr
    rw [exec_deepAccRead hreach hrange, deepAccRead_eq (deepFetch_notReady ((deepReady_accBegun ..).trans hr) ..)]
    generalize bump (accBegun s.dev agent _) (Reg.DEEP_CNT 9) = e
    obtain ⟨h1, h2⟩ := accStatus_spec (accLoaded e fun i =>
      if 3 = 0 then BitVec.ofNat 64 (leNat (((List.replicate 64 0).drop (8 * i)).take 8)) else 0) (r := 3) (by decide)
    exact ⟨_, rfl, (flagF_commit ..).trans h1, (rdF_commit ..).trans h2, fun i hi => by
      rw [rd_commit, rd_accStatus_DATA _ _ _ hi, rd_accLoaded _ _ hi, if_neg (by decide)]⟩
  case read =>
    intro s agent v hreach hrange hr hs hi hranks hgood hp hw
    have hserv : Serving s.dev := ⟨hi, hranks⟩
    generalize hc : accCmd s.dev v 1 = c
    have haddr : getF c Reg.DEEP_ACC_CMD_ADDR = getF v Reg.DEEP_ACC_CMD_ADDR := by rw [← hc, accCmd, getF_stored_DEEP_ACC_CMD_ADDR]
    generalize hb : accBegun s.dev agent (setF c Reg.DEEP_ACC_CMD_OP 1) = b
    have hwb : b.writes = [] := by rw [← hb, accBegun_writes, hw]
    obtain ⟨e, hf, hse⟩ := deepFetch_good (m := s.mem) (port := 5) (n := getF c Reg.DEEP_ACC_CMD_ADDR) (hb ▸ hserv.accBegun agent _)
      (hb ▸ fun key => (ecc_congr (accBegun_upset ..) .deep key).trans (hgood key)) (by rw [← hb, deepReady_accBegun, hr])
      (by rw [← hb, deepSize_accBegun, haddr]; exact hs) (by rw [← hb, accBegun_deep]; exact hp) hwb (starterOf b 7) 1
    rw [← hb] at hf
    rw [exec_deepAccRead hreach hrange, hc, deepAccRead_eq hf, hb]
    obtain ⟨re, hshape⟩ := accLoaded_shape e fun i =>
      if 0 = 0 then BitVec.ofNat 64 (leNat (((deepBytes s.mem b (64 * getF c Reg.DEEP_ACC_CMD_ADDR) 64).drop (8 * i)).take 8)) else 0
    obtain ⟨h1, h2⟩ := accStatus_spec (accLoaded e fun i =>
      if 0 = 0 then BitVec.ofNat 64 (leNat (((deepBytes s.mem b (64 * getF c Reg.DEEP_ACC_CMD_ADDR) 64).drop (8 * i)).take 8)) else 0)
      (r := 0) (by decide)
    refine ⟨_, rfl, (flagF_commit ..).trans h1, (rdF_commit ..).trans h2, commit_mem_nil s ?_, fun i hi => ?_⟩
    · rw [accStatus_writes, hshape]
      exact hse.writes.trans hwb
    · have hbytes : deepBytes s.mem b (64 * getF v Reg.DEEP_ACC_CMD_ADDR + 8 * i) 8 =
          deepBytes s.mem s.dev (64 * getF v Reg.DEEP_ACC_CMD_ADDR + 8 * i) 8 :=
        List.map_congr_left fun k _ => by rw [← hb, deepByte_accBegun]
      rw [rd_commit, rd_accStatus_DATA _ _ _ hi, rd_accLoaded _ _ hi, if_pos rfl, deepBytes_word _ _ _ hi, haddr, hbytes]
  case write =>
    intro s agent v hreach hrange hr hs hw hi hranks hp
    generalize hc : accCmd s.dev v 2 = c
    have haddr : getF c Reg.DEEP_ACC_CMD_ADDR = getF v Reg.DEEP_ACC_CMD_ADDR := by rw [← hc, accCmd, getF_stored_DEEP_ACC_CMD_ADDR]
    obtain ⟨e, he, hbytes⟩ := deepAccWrite_stored (m := s.mem) (agent := agent) (c := c) ⟨hi, hranks⟩ hr (by rw [haddr]; exact hs) hp hw
    rw [haddr] at hbytes
    obtain ⟨h1, h2⟩ := accStatus_spec e (r := 0) (by decide)
    rw [exec_deepAccWrite hreach hrange, hc, he]
    refine ⟨_, rfl, (flagF_commit ..).trans h1, (rdF_commit ..).trans h2, fun i hi => ?_, fun x hx => ?_⟩
    · rw [deepByte_commit, deepNow_accStatus, hbytes, if_pos (by omega), Nat.add_sub_cancel_left]
    · rw [deepByte_commit, deepNow_accStatus, hbytes, if_neg (by omega)]
  case barWindow =>
    intro s off bs hc ho hi
    rw [exec_bar2Write, bar2Write_window hc ho hi]
  case barDeep =>
    intro s off bs hc hl ho hi
    rw [exec_bar2Write, bar2Write_deep hc hl ho hi]
  case barBetween =>
    intro s off bs hl ho
    rw [exec_bar2Write, bar2Write_between hl ho]
  case barReadWindow =>
    intro s off n hc ho hi
    rw [exec_bar2Read, bar2Read_window hc ho hi]
    exact ⟨_, rfl, rfl, rfl⟩
  case barReadDeep =>
    intro s off n bs d hc hl ho hi hr
    rw [exec_bar2Read, bar2Read_deep hc hl ho hi hr]

end Sys2Proof
end

section
/-!
PROOF. The free store of a slice: what a bank's ring gives and takes, the batches of its free-pointer cache (R230), and that cells which return
leave the fabric's queues alone.
-/
namespace Sys2Proof.Machine

/-! Banks. -/

@[simp] theorem getBank_putBank_same (d : Dev) (key : Nat) (k : FreeBank) : getBank (putBank d key k) key = k := spGet_spPut_same ..

theorem getBank_congr {d e : Dev} (h : e.fab = d.fab) (key : Nat) : getBank e key = getBank d key := by rw [getBank, h, getBank]

@[simp] theorem getBank_setEcc (d : Dev) (r : Ram) (i v key : Nat) : getBank (setEcc d r i v) key = getBank d key := rfl
@[simp] theorem getBank_commit (s : State) (d : Dev) (key : Nat) : getBank (commit s d).dev key = getBank d key := rfl

/-! A pointer that returns to a ring. -/

theorem ringPush_fab (d : Dev) (m b ptr : Nat) : ∃ ba, (ringPush d m b ptr).fab = { d.fab with banks := ba } := ⟨_, eccWrite_fab ..⟩

/-- The ring is longer by the pointer, and the bank's cache is as it was. -/
theorem getBank_ringPush (d : Dev) (m b ptr : Nat) : ∃ ring, getBank (ringPush d m b ptr) (24 * m + b) =
    { getBank d (24 * m + b) with ring := ring, count := (getBank d (24 * m + b)).count + 1 } :=
  ⟨_, (getBank_congr (eccWrite_fab ..) _).trans (getBank_putBank_same ..)⟩

theorem foldl_ringPush_fab (m b : Nat) (l : List Nat) (d : Dev) :
    ∃ ba, (l.foldl (fun d p => ringPush d m b p) d).fab = { d.fab with banks := ba } := by
  induction l generalizing d with
  | nil => exact ⟨d.fab.banks, rfl⟩
  | cons p t ih =>
    obtain ⟨_, hp⟩ := ringPush_fab d m b p
    obtain ⟨ba, ht⟩ := ih (ringPush d m b p)
    exact ⟨ba, by rw [List.foldl_cons, ht, hp]⟩

theorem getBank_foldl_ringPush (m b : Nat) (l : List Nat) (d : Dev) :
    ∃ ring, getBank (l.foldl (fun d p => ringPush d m b p) d) (24 * m + b) =
      { getBank d (24 * m + b) with ring := ring, count := (getBank d (24 * m + b)).count + l.length } := by
  induction l generalizing d with
  | nil => exact ⟨_, rfl⟩
  | cons p t ih =>
    obtain ⟨_, hp⟩ := getBank_ringPush d m b p
    obtain ⟨ring, ht⟩ := ih (ringPush d m b p)
    refine ⟨ring, ?_⟩
    rw [List.foldl_cons, ht, hp, List.length_cons, Nat.add_assoc, Nat.add_comm 1]

theorem freeCacheWriteback_fab (m b : Nat) (d : Dev) : ∃ ba, (freeCacheWriteback m b d).fab = { d.fab with banks := ba } := by
  simp only [freeCacheWriteback]
  split
  · exact ⟨d.fab.banks, rfl⟩
  · obtain ⟨ba, h⟩ := foldl_ringPush_fab m b _ (putBank d (24 * m + b) _)
    exact ⟨ba, h⟩

/-- A cache above 48 gives its last 16 pointers to the ring. -/
theorem getBank_freeCacheWriteback {d : Dev} {m b : Nat} {k : FreeBank} (hk : k = getBank d (24 * m + b)) (hlen : 48 < k.cache.length) :
    (getBank (freeCacheWriteback m b d) (24 * m + b)).cache = k.cache.take (k.cache.length - 16) ∧
      (getBank (freeCacheWriteback m b d) (24 * m + b)).count = k.count + 16 := by
  have hback : (k.cache.drop (k.cache.length - 16)).length = 16 := by rw [List.length_drop]; omega
  rw [freeCacheWriteback, ← hk, if_neg (Nat.not_le.mpr hlen)]
  obtain ⟨ring, h⟩ := getBank_foldl_ringPush m b (k.cache.drop (k.cache.length - 16))
    (putBank d (24 * m + b) { k with cache := k.cache.take (k.cache.length - 16) })
  rw [h, getBank_putBank_same, hback]
  exact ⟨rfl, rfl⟩

/-! A pointer that a ring gives. -/

/-- The pointer at the j-th place behind a ring's head. -/
def ringPtr (m b : Nat) (k : FreeBank) (j : Nat) : Nat := spGet (ringInit (24 * m + b)) k.ring ((k.head + j) % bankSize b)

/-- A bank whose cache has taken n pointers from its ring. -/
def bankRefilled (m b : Nat) (k : FreeBank) (n : Nat) : FreeBank :=
  { k with head := (k.head + n) % bankSize b, count := k.count - n, cache := k.cache ++ (List.range n).map (ringPtr m b k) }

/-- The head of a ring with a good pointer leaves it, and its check bits are good from then on. -/
theorem ringPop_good {d : Dev} {m b : Nat} {k : FreeBank} (hk : getBank d (24 * m + b) = k) (hc : 0 < k.count) (hh : k.head < bankSize b)
    (he : ecc d .freeRing ((24 * m + b) * 16384 + k.head) = 0) (hp : ptrKind m b (ringPtr m b k 0) = none) :
    ringPop d m b = (some (ringPtr m b k 0), setEcc (putBank d (24 * m + b) { k with head := (k.head + 1) % bankSize b, count := k.count - 1 })
      .freeRing ((24 * m + b) * 16384 + k.head) 0) := by
  rw [ringPtr, Nat.add_zero, Nat.mod_eq_of_lt hh] at hp ⊢
  simp only [ringPop, hk, he, hp, if_neg (Nat.ne_of_gt hc), show ¬ (0 = 2) by decide, show ¬ (0 = 1) by decide, if_false]

/-- One pointer of a batch joins the cache. -/
def refillOne (m b : Nat) (d : Dev) : Dev :=
  match ringPop d m b with
  | (some p, d) => putBank d (24 * m + b) { getBank d (24 * m + b) with cache := (getBank d (24 * m + b)).cache ++ [p] }
  | (none, d) => d

theorem freeCacheRefill_below {d : Dev} {m b : Nat} (h : (getBank d (24 * m + b)).cache.length < 16) :
    freeCacheRefill m b d = (List.range 16).foldl (fun d _ => refillOne m b d) d := if_neg (Nat.not_le.mpr h)

section
variable {d : Dev} {m b : Nat} {k : FreeBank} (hk : getBank d (24 * m + b) = k) (hh : k.head < bankSize b)
  (hgood : ∀ j, j < 16 → ecc d .freeRing ((24 * m + b) * 16384 + (k.head + j) % bankSize b) = 0 ∧ ptrKind m b (ringPtr m b k j) = none)
include hk hh hgood

/-- A ring with n good pointers fills the cache with them, in their order. -/
theorem foldl_refillOne {n : Nat} (hn : n ≤ 16) (hc : n ≤ k.count) :
    getBank ((List.range n).foldl (fun d _ => refillOne m b d) d) (24 * m + b) = bankRefilled m b k n ∧
      ∀ y, ecc d .freeRing y = 0 → ecc ((List.range n).foldl (fun d _ => refillOne m b d) d) .freeRing y = 0 := by
  induction n with
  | zero =>
    refine ⟨hk.trans ?_, fun y hy => hy⟩
    simp [bankRefilled, Nat.mod_eq_of_lt hh]
  | succ n ih =>
    obtain ⟨hbank, hecc⟩ := ih (by omega) (by omega)
    obtain ⟨he, hp⟩ := hgood n (by omega)
    have hsize : 0 < bankSize b := Nat.zero_lt_of_lt hh
    have hptr : ringPtr m b (bankRefilled m b k n) 0 = ringPtr m b k n := by
      simp only [ringPtr, bankRefilled, Nat.add_zero, Nat.mod_mod]
    rw [List.range_succ, List.foldl_append, List.foldl_cons, List.foldl_nil]
    generalize (List.range n).foldl (fun d _ => refillOne m b d) d = e at hbank hecc
    have hpop := ringPop_good hbank (show 0 < k.count - n by omega) (Nat.mod_lt _ hsize) (hecc _ he) (by rw [hptr]; exact hp)
    rw [hptr] at hpop
    rw [refillOne, hpop]
    refine ⟨?_, fun y hy => ?_⟩
    · simp only [getBank_putBank_same, getBank_setEcc, bankRefilled, List.range_succ, List.map_append, List.map_cons, List.map_nil,
        List.append_assoc, Nat.mod_add_mod, Nat.add_assoc, Nat.sub_sub]
    · refine (ecc_congr (putBank_upset ..) .freeRing y).trans ?_
      rw [ecc_setEcc]
      split
      · rfl
      · exact hecc y hy

theorem getBank_freeCacheRefill (hlen : k.cache.length < 16) (hc : 16 ≤ k.count) :
    getBank (freeCacheRefill m b d) (24 * m + b) = bankRefilled m b k 16 := by
  rw [freeCacheRefill_below (by rw [hk]; exact hlen)]
  exact (foldl_refillOne hk hh hgood (Nat.le_refl 16) hc).1

end

/-! Cells and charges that return. -/

theorem ptrFault_fab (d : Dev) (m kind ptr master access : Nat) : (ptrFault d m kind ptr master access).fab = d.fab := by
  rw [ptrFault, raise_fab]
  split
  · exact (wrF_fab ..).trans ((bump_fab ..).trans (wrFs_fab ..))
  · exact (bump_fab ..).trans (wrFs_fab ..)

/-- A cell that is marked and joins a bank's cache. -/
theorem putBank_setAlloc_fab {d e : Dev} {ba : Sp FreeBank} (h : e.fab = { d.fab with banks := ba }) (m c v key : Nat) (k : FreeBank) :
    ∃ ba al, (putBank (setAlloc e m c v) key k).fab = { d.fab with banks := ba, alloc := al } :=
  ⟨_, spPut (fun _ => 0) d.fab.alloc (2 ^ 18 * m + c) v, by rw [putBank, setAlloc, h]⟩

theorem cellFree_fab (d : Dev) (ptr : Nat) : ∃ ba al, (cellFree d ptr).fab = { d.fab with banks := ba, alloc := al } := by
  have hin := injectAt_fab d 9 (256 * 6 + bits ptr 26 2) 0
  simp only [cellFree]
  generalize (injectAt d 9 (256 * 6 + bits ptr 26 2) 0).2 = e at hin
  generalize (if (injectAt d 9 (256 * 6 + bits ptr 26 2) 0).1 = 0 then ptr else ptr + 1) = q
  split
  · exact ⟨d.fab.banks, d.fab.alloc, (ptrFault_fab ..).trans hin⟩
  · split
    · exact ⟨d.fab.banks, d.fab.alloc, (ptrFault_fab ..).trans hin⟩
    · rw [wrF_fab]
      split
      · obtain ⟨_, h⟩ := freeCacheWriteback_fab (bits ptr 26 2) (bits ptr 8 18 % 24) e
        rw [hin] at h
        exact putBank_setAlloc_fab h ..
      · exact putBank_setAlloc_fab (ba := d.fab.banks) hin ..

theorem foldl_cellFree_fab (l : List Nat) (d : Dev) : ∃ ba al, (l.foldl cellFree d).fab = { d.fab with banks := ba, alloc := al } := by
  induction l generalizing d with
  | nil => exact ⟨d.fab.banks, d.fab.alloc, rfl⟩
  | cons p t ih =>
    obtain ⟨_, _, hp⟩ := cellFree_fab d p
    obtain ⟨ba, al, ht⟩ := ih (cellFree d p)
    exact ⟨ba, al, by rw [List.foldl_cons, ht, hp]⟩

theorem releaseCells_fab (d : Dev) (p : Pkt) :
    ∃ ba al re, (releaseCells d p).fab = { d.fab with banks := ba, alloc := al, refs := re } := by
  simp only [releaseCells]
  split
  · exact ⟨d.fab.banks, d.fab.alloc, _, rfl⟩
  · obtain ⟨ba, al, h⟩ := foldl_cellFree_fab p.cells (poolReturn (setRef d p.refKey 0) p.macre p.pool p.cells.length)
    exact ⟨ba, al, _, h⟩

theorem releasePp_fab (d : Dev) (p : Pkt) : (releasePp d p).fab = d.fab := by
  obtain ⟨_, _, h⟩ := releasePpN_shape d (inPort p) p.prio p.ppCells p.headland
  rw [releasePp, h]

theorem releaseShare_fab (d : Dev) (p : Pkt) : ∃ pp, (releaseShare d p).fab = { d.fab with ppRefs := pp } := by
  simp only [releaseShare]
  split
  · exact ⟨_, rfl⟩
  · exact ⟨_, releasePp_fab ..⟩

/-- A copy that leaves the buffer changes the free store and the counts of holders, and no queue of the fabric. -/
theorem releaseCopy_fab (d : Dev) (p : Pkt) :
    ∃ ba al re pp, (releaseCopy d p).fab = { d.fab with banks := ba, alloc := al, refs := re, ppRefs := pp } := by
  obtain ⟨ba, al, re, hcells⟩ := releaseCells_fab d p
  obtain ⟨pp, hshare⟩ := releaseShare_fab (releaseCells d p) p
  exact ⟨ba, al, re, pp, by rw [releaseCopy, hshare, hcells]⟩

/-- A slice that gives n cells gives no more and no fewer. -/
theorem cellsTake_length {d e : Dev} {m n : Nat} {l : List Nat} (h : cellsTake d m n = (some l, e)) : l.length = n := by
  induction n generalizing l e with
  | zero =>
    simp only [cellsTake, Prod.mk.injEq, Option.some.injEq] at h
    rw [← h.1, List.length_nil]
  | succ n ih =>
    rw [cellsTake] at h
    split at h
    · simp at h
    · rename_i l' e' hn
      split at h
      · simp only [Prod.mk.injEq, Option.some.injEq] at h
        rw [← h.1, List.length_append, ih hn, List.length_singleton]
      · simp at h

end Sys2Proof.Machine
end

section
/-!
PROOF. The fabric's two stages (R218): what a connection carries of the first packet of its queue, and the packet that stage 1 admits (R224, R239).
-/
namespace Sys2Proof.Machine

/-! The fabric's queues. -/

@[simp] theorem voqDone_setVoqDone_same (d : Dev) (a m n : Nat) : voqDone (setVoqDone d a m n) a m = n := spGet_spPut_same ..
@[simp] theorem getVoq_setVoqDone (d : Dev) (a m n b i : Nat) : getVoq (setVoqDone d a m n) b i = getVoq d b i := rfl
@[simp] theorem wbuf1_setVoqDone (d : Dev) (a m n i : Nat) : wbuf1 (setVoqDone d a m n) i = wbuf1 d i := rfl
@[simp] theorem rd_setVoqDone (d : Dev) (a m n o : Nat) : rd (setVoqDone d a m n) o = rd d o := rfl
@[simp] theorem wbuf1_setWbuf1_same (d : Dev) (m : Nat) (l : List (Nat × Nat)) : wbuf1 (setWbuf1 d m l) m = l := spGet_spPut_same ..
@[simp] theorem getEgq_putEgq_same (d : Dev) (m e : Nat) (l : List (Pkt × Nat)) : getEgq (putEgq d m e l) m e = l := spGet_spPut_same ..
@[simp] theorem getEditQ_putEgq (d : Dev) (m e : Nat) (l : List (Pkt × Nat)) (i : Nat) : getEditQ (putEgq d m e l) i = getEditQ d i := rfl
@[simp] theorem getEgq_setEgqDone (d : Dev) (m e n k i : Nat) : getEgq (setEgqDone d m e n) k i = getEgq d k i := rfl
@[simp] theorem getEditQ_setEgqDone (d : Dev) (m e n i : Nat) : getEditQ (setEgqDone d m e n) i = getEditQ d i := rfl
@[simp] theorem egqDone_setEgqDone_same (d : Dev) (m e n : Nat) : egqDone (setEgqDone d m e n) m e = n := spGet_spPut_same ..
@[simp] theorem getEditQ_putEditQ_same (d : Dev) (e : Nat) (l : List (Pkt × Nat)) : getEditQ (putEditQ d e l) e = l := spGet_spPut_same ..

@[simp] theorem voqDone_commit (s : State) (d : Dev) (a m : Nat) : voqDone (commit s d).dev a m = voqDone d a m := rfl
@[simp] theorem wbuf1_commit (s : State) (d : Dev) (m : Nat) : wbuf1 (commit s d).dev m = wbuf1 d m := rfl
@[simp] theorem getEgq_commit (s : State) (d : Dev) (m e : Nat) : getEgq (commit s d).dev m e = getEgq d m e := rfl
@[simp] theorem egqDone_commit (s : State) (d : Dev) (m e : Nat) : egqDone (commit s d).dev m e = egqDone d m e := rfl
@[simp] theorem getEditQ_commit (s : State) (d : Dev) (e : Nat) : getEditQ (commit s d).dev e = getEditQ d e := rfl

@[simp] theorem getVoq_bankCycle (d : Dev) (k a m : Nat) : getVoq (bankCycle k d) a m = getVoq d a m := rfl
@[simp] theorem voqDone_bankCycle (d : Dev) (k a m : Nat) : voqDone (bankCycle k d) a m = voqDone d a m := rfl
@[simp] theorem rd_bankCycle (d : Dev) (k o : Nat) : rd (bankCycle k d) o = rd d o := rfl
@[simp] theorem acreUp_bankCycle (d : Dev) (k a : Nat) : acreUp (bankCycle k d) a = acreUp d a := rfl
@[simp] theorem getEgq_editCycle (d : Dev) (k m e : Nat) : getEgq (editCycle k d) m e = getEgq d m e := rfl
@[simp] theorem egqDone_editCycle (d : Dev) (k m e : Nat) : egqDone (editCycle k d) m e = egqDone d m e := rfl
@[simp] theorem getEditQ_editCycle (d : Dev) (k e : Nat) : getEditQ (editCycle k d) e = getEditQ d e := rfl

/-! The packet that stage 1 admits. -/

theorem ecnFind_shape (d : Dev) (p : Pkt) : ∃ e o f, ecnFind d p = { p with ect := e, ecnOff := o, ecnFam := f } := by
  rw [ecnFind]
  split
  · exact ⟨_, _, _, rfl⟩
  · split <;> exact ⟨_, _, _, rfl⟩

theorem queueAdmit_shape (d : Dev) (q m : Nat) (p : Pkt) :
    ∃ ll ce, (queueAdmit d q m p).2.1 = { p with queue := q, lossless := ll, ce := ce } := by
  simp only [queueAdmit]
  split_ifs <;> exact ⟨_, _, rfl⟩

theorem correctPp_frame {d e : Dev} {p q : Pkt} {n : Nat} (h : correctPp d p n = (e, q)) : q.frame = p.frame := by
  rw [correctPp] at h
  split_ifs at h <;> cases h <;> rfl

/-- The queue manager's answer for a packet with its ECN target found leaves what the packet's cells hold. -/
theorem cellsOf_admitted {c : Prop} [Decidable c] {d e : Dev} {q m : Nat} {p r : Pkt} {code : Option Nat}
    (h : (if c then queueAdmit d q m (ecnFind d p) else (none, ecnFind d p, d)) = (code, r, e)) :
    cellsOf r = cellsOf p ∧ r.frame = p.frame := by
  obtain ⟨_, _, _, hecn⟩ := ecnFind_shape d p
  split at h
  · obtain ⟨_, _, hadmit⟩ := queueAdmit_shape d q m (ecnFind d p)
    rw [h, hecn] at hadmit
    rw [show r = _ from hadmit]
    exact ⟨rfl, rfl⟩
  · simp only [Prod.mk.injEq] at h
    rw [← h.2.1, hecn]
    exact ⟨rfl, rfl⟩

/-- The packet holds as many cells of the slice as its edit header and frame need, with its frame as it was. -/
theorem stage1Take_admitted {d d' : Dev} {m : Nat} {p p' : Pkt} (h : stage1Take d m p = (some p', d')) :
    p'.cells.length = cellsOf p ∧ p'.frame = p.frame ∧ p'.macre = m := by
  rw [stage1Take] at h
  split at h
  · simp at h
  · -- The acre is up: the queue manager answers, and the packet keeps its edits, its edit data and its frame.
    extract_lets _ _ at h
    split at h
    rename_i r _ hr
    obtain ⟨hcells, hframe⟩ := cellsOf_admitted hr
    rw [← hcells, ← hframe]
    split at h
    · simp at h
    · -- Admitted: a pool and the slice's cells are found, or the packet is lost.
      extract_lets _ _ n lost at h
      split at h
      · simp [lost] at h
      · split at h
        · simp [lost] at h
        · rename_i cs _ htake
          split at h
          rename_i q hq
          extract_lets _ _ _ x at h
          have hx : x.cells.length = n ∧ x.frame = r.frame ∧ x.macre = m := ⟨cellsTake_length htake, (correctPp_frame hq).trans rfl, rfl⟩
          clear_value x
          split at h
          rename_i y hy
          -- The injection of a DIRECT packet changes at most its due completion.
          have hxy : y.cells = x.cells ∧ y.frame = x.frame ∧ y.macre = x.macre := by
            split at hy
            · split at hy <;> cases hy <;> exact ⟨rfl, rfl, rfl⟩
            · cases hy; exact ⟨rfl, rfl, rfl⟩
          simp only [Prod.mk.injEq, Option.some.injEq] at h
          obtain ⟨hc, hf, hm⟩ := hxy
          rw [← h.1, hc, hf, hm]
          exact hx

/-- A packet for an acre in reset is dropped under code 8. -/
theorem stage1Take_down {d : Dev} {m : Nat} (hup : acreUp d m = false) (hi : flagF d Reg.FAULT_INJECT Reg.FAULT_INJECT_PENDING = false) (p : Pkt) :
    stage1Take d m p = (none, fabricDrop d p 8) := by
  simp only [stage1Take, crossIn_idle hi, hup, Bool.false_eq_true, not_false_eq_true, if_true, stage1Drop]

/-! Stage 1. -/

/-- The next n cells of a VOQ's packet stand in the slice's write buffer, and count as carried. -/
def stage1Carried (d : Dev) (a m n : Nat) (p : Pkt) : Dev :=
  bumpN (setWbuf1 d m (wbuf1 d m ++ ((p.cells.drop (voqDone d a m)).take n).map fun c => (a, bits c 8 18 % 24))) (Reg.FABRIC_CNT m 1) n

@[simp] theorem getVoq_stage1Carried (d : Dev) (a m n : Nat) (p : Pkt) (b i : Nat) : getVoq (stage1Carried d a m n p) b i = getVoq d b i := rfl

theorem wbuf1_stage1Carried_length {d : Dev} {a m n : Nat} {p : Pkt} (hn : n ≤ p.cells.length - voqDone d a m) :
    (wbuf1 (stage1Carried d a m n p) m).length = (wbuf1 d m).length + n := by
  have hw : wbuf1 (stage1Carried d a m n p) m =
      wbuf1 d m ++ ((p.cells.drop (voqDone d a m)).take n).map fun c => (a, bits c 8 18 % 24) := wbuf1_setWbuf1_same ..
  rw [hw, List.length_append, List.length_map, List.length_take, List.length_drop, Nat.min_eq_left hn]

theorem rd_stage1Carried (d : Dev) (a m n : Nat) (p : Pkt) : rd (stage1Carried d a m n p) (Reg.FABRIC_CNT m 1) =
    rd d (Reg.FABRIC_CNT m 1) + BitVec.ofNat 64 n := rd_bumpN_same ..

theorem stage1Run_zero (a m fuel : Nat) (d : Dev) : stage1Run a m fuel 0 d = d := by
  cases fuel with
  | zero => rfl
  | succ fuel =>
    rw [stage1Run]
    split
    · rfl
    · exact if_pos rfl

section
variable {d d' : Dev} {a m n fuel : Nat} {p p' : Pkt} {t : List Pkt} (hq : getVoq d a m = p :: t) (hn : 0 < n)
include hq hn

theorem stage1Run_part (hc : p.cells ≠ []) (hk : n < p.cells.length - voqDone d a m) :
    stage1Run a m (fuel + 1) n d = setVoqDone (stage1Carried d a m n p) a m (voqDone d a m + n) := by
  simp only [stage1Run, hq, Nat.ne_of_gt hn, hc, if_false, Nat.min_eq_left (Nat.le_of_lt hk), Nat.ne_of_lt hk]
  rfl

theorem stage1Run_last (hc : p.cells ≠ []) (hk : n = p.cells.length - voqDone d a m) :
    stage1Run a m (fuel + 1) n d = stage1Done (setVoqDone (putVoq (stage1Carried d a m n p) a m t) a m 0) m p := by
  simp only [stage1Run, hq, Nat.ne_of_gt hn, hc, if_false, ← hk, Nat.min_self, if_true, Nat.sub_self, stage1Run_zero]
  rfl

theorem stage1Run_admits (hc : p.cells = []) (ht : stage1Take d m p = (some p', d')) :
    stage1Run a m (fuel + 1) n d = stage1Run a m fuel n (setVoqDone (putVoq d' a m (p' :: t)) a m 0) := by
  simp only [stage1Run, hq, Nat.ne_of_gt hn, hc, if_false, if_true, ht]

theorem stage1Run_drops (hc : p.cells = []) (ht : stage1Take d m p = (none, d')) :
    stage1Run a m (fuel + 1) n d = stage1Run a m fuel n (putVoq d' a m t) := by
  simp only [stage1Run, hq, Nat.ne_of_gt hn, hc, if_false, if_true, ht]

end

theorem stage1Run_empty {d : Dev} {a m : Nat} (h : getVoq d a m = []) (fuel n : Nat) : stage1Run a m fuel n d = d := by
  cases fuel with
  | zero => rfl
  | succ fuel => simp only [stage1Run, h]

theorem exec_stage1Transfer (s : State) (a m n : Nat) : exec (.stage1Transfer a m n) s =
    .next (commit s (stage1Run a m (2 * (getVoq s.dev a m).length + 1) (min (min n 16) (credit1 (bankCycle m s.dev) a m)) (bankCycle m s.dev))) := rfl

theorem exec_stage1Transfer_noCredit {s : State} {a m : Nat} (n : Nat) (h : credit1 (bankCycle m s.dev) a m = 0) :
    exec (.stage1Transfer a m n) s = .next (commit s (bankCycle m s.dev)) := by
  rw [exec_stage1Transfer, h, Nat.min_zero, stage1Run_zero]

section
variable {s : State} {a m n : Nat} {p : Pkt} {rest : List Pkt} (hq : getVoq s.dev a m = p :: rest) (h16 : n ≤ 16)
  (hcr : n ≤ credit1 (bankCycle m s.dev) a m)
include hq h16 hcr

/-- A connection within its limits is a run of stage 1 with fuel for two packets at least. -/
theorem exec_stage1Transfer_within :
    ∃ fuel, exec (.stage1Transfer a m n) s = .next (commit s (stage1Run a m (fuel + 2) n (bankCycle m s.dev))) := by
  refine ⟨2 * rest.length + 1, ?_⟩
  rw [exec_stage1Transfer, Nat.min_eq_left h16, Nat.min_eq_left hcr, hq, List.length_cons]
  rfl

theorem exec_stage1Transfer_part (hc : p.cells ≠ []) (hn : 0 < n) (hk : n < p.cells.length - voqDone s.dev a m) :
    exec (.stage1Transfer a m n) s =
      .next (commit s (setVoqDone (stage1Carried (bankCycle m s.dev) a m n p) a m (voqDone s.dev a m + n))) := by
  obtain ⟨fuel, h⟩ := exec_stage1Transfer_within hq h16 hcr
  rw [h, stage1Run_part (d := bankCycle m s.dev) hq hn hc hk, voqDone_bankCycle]

theorem exec_stage1Transfer_last (hc : p.cells ≠ []) (hn : 0 < n) (hk : n = p.cells.length - voqDone s.dev a m) :
    exec (.stage1Transfer a m n) s =
      .next (commit s (stage1Done (setVoqDone (putVoq (stage1Carried (bankCycle m s.dev) a m n p) a m rest) a m 0) m p)) := by
  obtain ⟨fuel, h⟩ := exec_stage1Transfer_within hq h16 hcr
  rw [h, stage1Run_last (d := bankCycle m s.dev) hq hn hc hk]

/-- The first packet of the VOQ is admitted, and its first n cells are carried. -/
theorem exec_stage1Transfer_admits {p' : Pkt} {d' : Dev} (hc : p.cells = []) (hn : 0 < n)
    (ht : stage1Take (bankCycle m s.dev) m p = (some p', d')) (hk : n < p'.cells.length) :
    exec (.stage1Transfer a m n) s =
      .next (commit s (setVoqDone (stage1Carried (setVoqDone (putVoq d' a m (p' :: rest)) a m 0) a m n p') a m n)) := by
  obtain ⟨fuel, h⟩ := exec_stage1Transfer_within hq h16 hcr
  have hc' : p'.cells ≠ [] := List.ne_nil_of_length_pos (Nat.zero_lt_of_lt hk)
  have hq' : getVoq (setVoqDone (putVoq d' a m (p' :: rest)) a m 0) a m = p' :: rest := (getVoq_setVoqDone ..).trans (getVoq_putVoq_same ..)
  have hk' : n < p'.cells.length - voqDone (setVoqDone (putVoq d' a m (p' :: rest)) a m 0) a m := by
    rw [voqDone_setVoqDone_same]
    exact hk
  rw [h, stage1Run_admits (d := bankCycle m s.dev) hq hn hc ht, stage1Run_part hq' hn hc' hk', voqDone_setVoqDone_same, Nat.zero_add]

end

/-- The only packet of a VOQ, for an acre in reset, is dropped. -/
theorem exec_stage1Transfer_drops {s : State} {a m n : Nat} {p : Pkt} (hq : getVoq s.dev a m = [p]) (hc : p.cells = []) (hn : 0 < n)
    (hcr : credit1 (bankCycle m s.dev) a m ≠ 0) (hup : acreUp s.dev m = false)
    (hi : flagF s.dev Reg.FAULT_INJECT Reg.FAULT_INJECT_PENDING = false) :
    exec (.stage1Transfer a m n) s = .next (commit s (putVoq (fabricDrop (bankCycle m s.dev) p 8) a m [])) := by
  rw [exec_stage1Transfer, stage1Run_drops (d := bankCycle m s.dev) hq (by omega) hc (stage1Take_down (d := bankCycle m s.dev) hup hi p),
    stage1Run_empty (getVoq_putVoq_same ..)]

/-! Stage 2. -/

/-- n cells of a copy stand in the write buffer of its editor, and count as carried. -/
def stage2Carried (d : Dev) (m e n : Nat) : Dev := bumpN (setWbuf2 d e (wbuf2 d e ++ List.replicate n m)) (Reg.FABRIC_CNT m 2) n

@[simp] theorem getEgq_stage2Carried (d : Dev) (m e n k i : Nat) : getEgq (stage2Carried d m e n) k i = getEgq d k i := rfl
@[simp] theorem getEditQ_stage2Carried (d : Dev) (m e n i : Nat) : getEditQ (stage2Carried d m e n) i = getEditQ d i := rfl

theorem stage2Run_zero (m e fuel : Nat) (d : Dev) : stage2Run m e fuel 0 d = d := by
  cases fuel with
  | zero => rfl
  | succ fuel =>
    rw [stage2Run]
    split
    · rfl
    · exact if_pos rfl

section
variable {d : Dev} {m e n fuel : Nat} {x : Pkt × Nat} {t : List (Pkt × Nat)} (hq : getEgq d m e = x :: t) (hn : 0 < n) (hup : acreUp d e = true)
include hq hn hup

theorem stage2Run_part (hk : n < x.1.cells.length - egqDone d m e) :
    stage2Run m e (fuel + 1) n d = setEgqDone (stage2Carried d m e n) m e (egqDone d m e + n) := by
  simp only [stage2Run, hq, Nat.ne_of_gt hn, hup, not_true_eq_false, if_false, Nat.min_eq_left (Nat.le_of_lt hk), Nat.ne_of_lt hk]
  rfl

theorem stage2Run_last (hk : n = x.1.cells.length - egqDone d m e) :
    stage2Run m e (fuel + 1) n d = stage2Done (setEgqDone (putEgq (stage2Carried d m e n) m e t) m e 0) e x := by
  simp only [stage2Run, hq, Nat.ne_of_gt hn, hup, not_true_eq_false, if_false, ← hk, Nat.min_self, if_true, Nat.sub_self, stage2Run_zero]
  rfl

end

@[simp] theorem getEgq_stage2Done (d : Dev) (e : Nat) (x : Pkt × Nat) (m i : Nat) : getEgq (stage2Done d e x) m i = getEgq d m i := by
  obtain ⟨_, _, _, _, h⟩ := releaseCopy_fab d x.1
  simp only [getEgq, stage2Done, putEditQ, h]

/-- The copy stands at the end of its editor's queue without cells. -/
theorem getEditQ_stage2Done (d : Dev) (e : Nat) (x : Pkt × Nat) :
    getEditQ (stage2Done d e x) e = getEditQ d e ++ [({ x.1 with cells := [] }, x.2)] := by
  obtain ⟨_, _, _, _, h⟩ := releaseCopy_fab d x.1
  have hq : getEditQ (releaseCopy d x.1) e = getEditQ d e := by simp only [getEditQ, h]
  rw [stage2Done, getEditQ_putEditQ_same, hq]

theorem exec_stage2Transfer (s : State) (m e n : Nat) : exec (.stage2Transfer m e n) s =
    .next (commit s (stage2Run m e (getEgq s.dev m e).length (min (min n 16) (credit2 (editCycle e s.dev) m e)) (editCycle e s.dev))) := rfl

section
variable {s : State} {m e n : Nat} {x : Pkt × Nat} {rest : List (Pkt × Nat)} (hq : getEgq s.dev m e = x :: rest) (hup : acreUp s.dev e = true)
  (h16 : n ≤ 16) (hn : 0 < n) (hcr : n ≤ credit2 (editCycle e s.dev) m e)
include hq hup h16 hn hcr

theorem exec_stage2Transfer_part (hk : n < x.1.cells.length - egqDone s.dev m e) : exec (.stage2Transfer m e n) s =
    .next (commit s (setEgqDone (stage2Carried (editCycle e s.dev) m e n) m e (egqDone s.dev m e + n))) := by
  rw [exec_stage2Transfer, Nat.min_eq_left h16, Nat.min_eq_left hcr, hq, List.length_cons,
    stage2Run_part (d := editCycle e s.dev) hq hn hup hk, egqDone_editCycle]

theorem exec_stage2Transfer_last (hk : n = x.1.cells.length - egqDone s.dev m e) : exec (.stage2Transfer m e n) s =
    .next (commit s (stage2Done (setEgqDone (putEgq (stage2Carried (editCycle e s.dev) m e n) m e rest) m e 0) e x)) := by
  rw [exec_stage2Transfer, Nat.min_eq_left h16, Nat.min_eq_left hcr, hq, List.length_cons,
    stage2Run_last (d := editCycle e s.dev) hq hn hup hk]

end

end Sys2Proof.Machine
end

section
/-!
PROOF. The replicator (R231) and the egress editor (R112, R113, R249, R320).
-/
namespace Sys2Proof.Machine

/-! The replicator. -/

/-- The replicator of acre m has taken its first packet, and a flood counts. -/
def replTaken (d : Dev) (m : Nat) (p : Pkt) (rest : List Pkt) : Dev :=
  { d with fab := { d.fab with
    repl := spPut (fun _ => []) d.fab.repl m rest
    floods := if pcGet p Pc.disposition = 2 then d.fab.floods + 1 else d.fab.floods } }

/-- The members of a packet's group, without the ingress port's for a flood. -/
def replMembers (d : Dev) (m : Nat) (p : Pkt) : List Nat :=
  (groupWalk d m (bits (getGroup d m (pcGet p Pc.mcastGroup)).toNat 17 11) (bits (getGroup d m (pcGet p Pc.mcastGroup)).toNat 0 17)).filter
    fun q => !(pcGet p Pc.disposition == 2 && queuePort d q == inPort p)

/-- The walk comes to queue q: its copy is enqueued and counts, or is dropped. -/
def replCopy (m : Nat) (p : Pkt) (x : Nat × Dev) (q : Nat) : Nat × Dev :=
  match queueAdmit x.2 q m p with
  | (some k, _, d) => (x.1, bump d (Reg.QUEUE_DROP k))
  | (none, c, d) =>
    (x.1 + 1, enqueue (bump (setPpRef (setRef d p.refKey (x.1 + 2)) p.ppRef (x.1 + 2)) (Reg.FABRIC_CNT m 3)) q m c)

@[simp] theorem getGroup_replTaken (d : Dev) (m : Nat) (p : Pkt) (rest : List Pkt) (k g : Nat) :
    getGroup (replTaken d m p rest) k g = getGroup d k g := rfl

section
variable {d : Dev} {m : Nat} {p : Pkt} {rest : List Pkt} (hq : spGet (fun _ => []) d.fab.repl m = p :: rest)
include hq

theorem replicate_invalid (hv : bit (getGroup d m (pcGet p Pc.mcastGroup)).toNat 63 = false) :
    replicate m d = releaseCopy (bump (replTaken d m p rest) (Reg.FABRIC_DROP 7)) p := by
  rw [replicate, hq]
  exact if_pos (.inl (ne_true_of_eq_false hv))

/-- A walk of a valid group that makes copies leaves the packet with as many holders. -/
theorem replicate_copies (hv : bit (getGroup d m (pcGet p Pc.mcastGroup)).toNat 63 = true)
    (he : ecc d .group (groupKey m (pcGet p Pc.mcastGroup)) ≠ 2) {n : Nat} {e : Dev}
    (hx : (replMembers (replTaken d m p rest) m p).foldl (replCopy m p) (0, replTaken d m p rest) = (n, e)) (hn : n ≠ 0) :
    replicate m d = setPpRef (setRef e p.refKey n) p.ppRef n := by
  have hstep : replicate m d =
      (let x := (replMembers (replTaken d m p rest) m p).foldl (replCopy m p) (0, replTaken d m p rest)
       if x.1 = 0 then
         if replMembers (replTaken d m p rest) m p = [] then releaseCopy (bump x.2 (Reg.FABRIC_DROP 7)) p else releaseCopy x.2 p
       else setPpRef (setRef x.2 p.refKey x.1) p.ppRef x.1) := by
    rw [replicate, hq]
    exact if_neg (not_or.mpr ⟨not_not_intro hv, he⟩)
  rw [hstep, hx]
  exact if_neg hn

/-- A group whose one member admits the packet makes one copy of it. -/
theorem replicate_one {q : Nat} {c : Pkt} {d' : Dev} (hv : bit (getGroup d m (pcGet p Pc.mcastGroup)).toNat 63 = true)
    (he : ecc d .group (groupKey m (pcGet p Pc.mcastGroup)) ≠ 2)
    (hw : groupWalk (replTaken d m p rest) m (bits (getGroup d m (pcGet p Pc.mcastGroup)).toNat 17 11)
      (bits (getGroup d m (pcGet p Pc.mcastGroup)).toNat 0 17) = [q])
    (hs : (pcGet p Pc.disposition == 2 && queuePort (replTaken d m p rest) q == inPort p) = false)
    (ha : queueAdmit (replTaken d m p rest) q m p = (none, c, d')) :
    replicate m d = setPpRef (setRef (enqueue (bump (setPpRef (setRef d' p.refKey 2) p.ppRef 2) (Reg.FABRIC_CNT m 3)) q m c)
      p.refKey 1) p.ppRef 1 := by
  have hmembers : replMembers (replTaken d m p rest) m p = [q] := by
    rw [replMembers, getGroup_replTaken, hw, List.filter_cons_of_pos (by rw [hs]; rfl), List.filter_nil]
  have hcopy : replCopy m p (0, replTaken d m p rest) q =
      (1, enqueue (bump (setPpRef (setRef d' p.refKey 2) p.ppRef 2) (Reg.FABRIC_CNT m 3)) q m c) := by rw [replCopy, ha]
  exact replicate_copies hq hv he (by rw [hmembers, List.foldl_cons, List.foldl_nil, hcopy]) Nat.one_ne_zero

end

theorem exec_replicate (s : State) (m : Nat) : exec (.replicate m) s = .next (commit s (replicate m s.dev)) := rfl

/-! From the editor to the port or to ESP. -/

@[simp] theorem laQ_setLaQ_same (d : Dev) (s : Nat) (l : List (Pkt × Nat)) : laQ (setLaQ d s l) s = l := spGet_spPut_same ..

theorem recordConflict_fab (d : Dev) (kind index winner loser inst : Nat) : (recordConflict d kind index winner loser inst).fab = d.fab := by
  simp only [recordConflict]
  rw [raise_fab]
  split
  · exact (bumpSat_fab ..).trans (wrF_fab ..)
  · exact wrFs_fab ..

theorem recordConflict_rind (d : Dev) (kind index winner loser inst : Nat) : (recordConflict d kind index winner loser inst).rind = d.rind := by
  simp only [recordConflict]
  rw [raise_rind]
  split
  · exact (bumpSat_rind ..).trans (wrF_rind ..)
  · exact wrFs_rind ..

/-- The packet as it leaves the editor. -/
def editedPkt (p : Pkt) : Pkt := { p with frame := (editPacket p).1, edits := [], edata := [] }

/-- The editor has taken its first packet, and a mark that is discarded counts. -/
def editTaken (d : Dev) (e : Nat) (p : Pkt) (rest : List (Pkt × Nat)) : Dev :=
  if (editPacket p).2 then bump (putEditQ d e rest) (Reg.QUEUE_CNT 3) else putEditQ d e rest

section
variable (d : Dev) (e : Nat) (p : Pkt) (rest : List (Pkt × Nat))

theorem editTaken_shape : ∃ re, editTaken d e p rest = { putEditQ d e rest with regs := re } := by
  rw [editTaken]
  split <;> exact ⟨_, rfl⟩

@[simp] theorem getEditQ_editTaken : getEditQ (editTaken d e p rest) e = rest := by
  obtain ⟨_, h⟩ := editTaken_shape d e p rest
  rw [h]
  exact getEditQ_putEditQ_same ..

theorem getPort_editTaken (n : Nat) : getPort (editTaken d e p rest) n = getPort d n := by
  obtain ⟨_, h⟩ := editTaken_shape d e p rest
  rw [h]
  rfl

theorem laQ_editTaken (n : Nat) : laQ (editTaken d e p rest) n = laQ d n := by
  obtain ⟨_, h⟩ := editTaken_shape d e p rest
  rw [h]
  rfl

theorem espBound_editTaken (q : Nat) : espBound (editTaken d e p rest) q = espBound d q := by
  obtain ⟨_, h⟩ := editTaken_shape d e p rest
  rw [h]
  rfl

end

section
variable {d : Dev} {e port : Nat} {p : Pkt} {rest : List (Pkt × Nat)} (hq : getEditQ d e = (p, port) :: rest)
include hq

theorem egressEdit_toPort (hb : espBound d p.queue = false) : egressEdit e d = putPort (editTaken d e p rest) port
    { getPort d port with txQ := (getPort d port).txQ ++ [editedPkt p] } := by
  rw [← espBound_editTaken d e p rest] at hb
  rw [← getPort_editTaken d e p rest]
  simp only [egressEdit, hq]
  exact if_neg (ne_true_of_eq_false hb)

/-- A packet for ESP waits in the look-aside queue of its strip; a queue that it fills is a conflict. -/
theorem egressEdit_toEsp (hb : espBound d p.queue = true) (hlen : (laQ d (port / 64)).length < 512)
    (hbytes : (laQ d (port / 64)).foldl (fun n x => n + x.1.frame.length) 0 + (editPacket p).1.length ≤ 1048576) :
    (egressEdit e d).fab = (editTaken d e p rest).fab ∧
      laQ (egressEdit e d) (port / 64) = laQ d (port / 64) ++ [(editedPkt p, port)] := by
  have hd : egressEdit e d = if laFull (setLaQ (editTaken d e p rest) (port / 64) (laQ d (port / 64) ++ [(editedPkt p, port)])) (port / 64)
      then recordConflict (setLaQ (editTaken d e p rest) (port / 64) (laQ d (port / 64) ++ [(editedPkt p, port)])) 3 (port / 64) 0x51 0x52
        (8 + port / 64)
      else setLaQ (editTaken d e p rest) (port / 64) (laQ d (port / 64) ++ [(editedPkt p, port)]) := by
    rw [← espBound_editTaken d e p rest] at hb
    rw [← laQ_editTaken d e p rest] at hlen hbytes ⊢
    have hroom : ¬ (512 ≤ (laQ (editTaken d e p rest) (port / 64)).length ∨
      1048576 < (laQ (editTaken d e p rest) (port / 64)).foldl (fun n x => n + x.1.frame.length) 0 + (editPacket p).1.length) := by omega
    simp only [egressEdit, hq]
    exact (if_pos hb).trans (if_neg hroom)
  rw [hd]
  split
  · exact ⟨recordConflict_fab .., by rw [laQ, recordConflict_rind]; exact laQ_setLaQ_same ..⟩
  · exact ⟨rfl, laQ_setLaQ_same ..⟩

end

theorem exec_egressEdit (s : State) (e : Nat) : exec (.egressEdit e) s = .next (commit s (egressEdit e s.dev)) := rfl

@[simp] theorem getPort_commit (s : State) (d : Dev) (p : Nat) : getPort (commit s d).dev p = getPort d p := rfl
@[simp] theorem laQ_commit (s : State) (d : Dev) (n : Nat) : laQ (commit s d).dev n = laQ d n := rfl

/-! A packet without edits and mark. -/

section
variable {p : Pkt} (h : p.edits = [])
include h

theorem pushes_of_noEdits : pushes p = [] := by rw [pushes, h]; rfl

theorem removed_of_noEdits (i : Nat) : removed p i = false := by rw [removed, h]; rfl

theorem rewritten_of_noEdits (i : Nat) : rewritten p i = p.frame.getD i 0 := by rw [rewritten, h]; rfl

theorem editBytes_of_noEdits : (editBytes p).map Prod.fst = p.frame := by
  have hbytes : editBytes p = (List.range (p.frame.length + 1)).flatMap fun i => if i < p.frame.length then [(p.frame.getD i 0, some i)] else [] := by
    simp only [editBytes, pushes_of_noEdits h, removed_of_noEdits h, rewritten_of_noEdits h, List.filter_nil, List.flatMap_nil, List.nil_append,
      Bool.false_eq_true, not_false_eq_true, and_true]
  have hrange : (List.range p.frame.length).flatMap (fun i => if i < p.frame.length then [(p.frame.getD i 0, some i)] else []) =
      (List.range p.frame.length).map fun i => (p.frame.getD i 0, some i) := by
    rw [List.map_eq_flatMap]
    exact List.flatMap_congr fun i hi => if_pos (List.mem_range.mp hi)
  rw [hbytes, List.range_succ, List.flatMap_append, hrange, List.flatMap_singleton, if_neg (Nat.lt_irrefl _), List.append_nil, List.map_map]
  exact List.ext_getElem (by simp) fun i _ hi => by simp [hi]

/-- The bytes of a packet without edits and mark are those received (R113, R249). -/
theorem editPacket_of_noEdits (hce : p.ce = false) (hlen : 60 ≤ p.frame.length) : editPacket p = (p.frame, false) := by
  have hpad : p.frame ++ List.replicate (60 - p.frame.length) (0 : Byte) = p.frame := by
    rw [Nat.sub_eq_zero_of_le hlen, List.replicate_zero, List.append_nil]
  rw [editPacket]
  split
  · simp only [hpad]
  · simp only [hce, Bool.false_eq_true, if_false, h, List.foldl_nil, editBytes_of_noEdits h, hpad]

end

end Sys2Proof.Machine

namespace Sys2Proof
open Machine

/-- Settles O46: each connection is a run of its stage on the first packet of its queue; a batch of the free-pointer cache is sixteen steps of the
ring; the replicator's walk has one member or none; and the editor's list is empty or the packet passes to its port or to ESP. -/
theorem fabricActions : Obligations.FabricActions := by
  unfold Obligations.FabricActions
  refine ⟨?carries, ?noCredit, ?admits, ?acreDown, ?stage2, ?refill, ?writeback, ?replicator, ?toPort, ?toEsp, ?unedited⟩
  case carries =>
    intro s a m n p rest d hq hc h16 hn hd hcr
    subst hd
    refine ⟨fun hk => ⟨_, exec_stage1Transfer_part hq h16 hcr hc hn hk, ?_, ?_, ?_, ?_⟩, fun hk => ?_⟩
    · rw [voqDone_commit, voqDone_setVoqDone_same]
    · rw [getVoq_commit, getVoq_setVoqDone, getVoq_stage1Carried, getVoq_bankCycle, hq]
    · rw [wbuf1_commit, wbuf1_setVoqDone, wbuf1_stage1Carried_length (d := bankCycle m s.dev) (Nat.le_of_lt hk)]
    · rw [rd_commit, rd_setVoqDone, rd_stage1Carried, rd_bankCycle]
    · rw [exec_stage1Transfer_last hq h16 hcr hc hn hk, stage1Carried, voqDone_bankCycle]
  case noCredit =>
    intro s a m n h
    exact exec_stage1Transfer_noCredit n h
  case admits =>
    intro s a m n p rest p' d' hq hc h16 hn hcr ht
    obtain ⟨hcells, hframe, hacre⟩ := stage1Take_admitted ht
    refine ⟨hcells, hframe, hacre, fun hk => ⟨_, exec_stage1Transfer_admits hq h16 hcr hc hn ht hk, ?_, ?_⟩⟩
    · rw [getVoq_commit, getVoq_setVoqDone, getVoq_stage1Carried, getVoq_setVoqDone, getVoq_putVoq_same]
    · rw [voqDone_commit, voqDone_setVoqDone_same]
  case acreDown =>
    intro s a m n p hq hc hn hcr hup hi
    exact exec_stage1Transfer_drops hq hc hn hcr hup hi
  case stage2 =>
    intro s m e n x rest hq hup h16 hn hcr
    refine ⟨fun hk => ⟨_, exec_stage2Transfer_last hq hup h16 hn hcr hk, ?_, ?_⟩,
      fun hk => ⟨_, exec_stage2Transfer_part hq hup h16 hn hcr hk, ?_, ?_⟩⟩
    · rw [getEgq_commit, getEgq_stage2Done, getEgq_setEgqDone, getEgq_putEgq_same]
    · rw [getEditQ_commit, getEditQ_stage2Done, getEditQ_setEgqDone, getEditQ_putEgq, getEditQ_stage2Carried, getEditQ_editCycle]
    · rw [getEgq_commit, getEgq_setEgqDone, getEgq_stage2Carried, getEgq_editCycle, hq]
    · rw [egqDone_commit, egqDone_setEgqDone_same]
  case refill =>
    intro s m b k hk _ _ hlen hc hh hgood
    have hbank := getBank_freeCacheRefill hk.symm hh hgood hlen hc
    exact ⟨_, rfl, congrArg FreeBank.count hbank, congrArg FreeBank.cache hbank⟩
  case writeback =>
    intro s m b k hk hlen
    obtain ⟨hcache, hcount⟩ := getBank_freeCacheWriteback hk hlen
    exact ⟨_, rfl, hcache, hcount⟩
  case replicator =>
    intro s m p rest w d hq hw hd
    subst hw hd
    refine ⟨fun hv => ?_, fun q c d' hv he hwalk hskip hadmit => ?_⟩
    · rw [exec_replicate, replicate_invalid hq hv]
      rfl
    · rw [exec_replicate, replicate_one hq hv he hwalk hskip hadmit]
  case toPort =>
    intro s e p port rest hq hb
    rw [exec_egressEdit, egressEdit_toPort hq hb]
    exact ⟨_, rfl, getEditQ_editTaken .., congrArg PortSt.txQ (getPort_putPort_same ..)⟩
  case toEsp =>
    intro s e p port rest hq hb hlen hbytes
    obtain ⟨hfab, hla⟩ := egressEdit_toEsp hq hb hlen hbytes
    refine ⟨_, exec_egressEdit s e, ?_, hla⟩
    rw [getEditQ_commit, getEditQ, hfab]
    exact getEditQ_editTaken ..
  case unedited =>
    intro p h hce hlen
    exact editPacket_of_noEdits h hce hlen

end Sys2Proof
end

section
/-!
PROOF. Harrow's parse pipes, its walk and its settlement: the packet that fills the next pipe (R120), how far a walk goes (R127, R128), and how
the holding, the rule and the walk's result settle a packet (R133).
-/
namespace Sys2Proof.Machine

/-! The next pipe (R120). -/

theorem exec_harrowParse (s : State) (n : Nat) : exec (.harrowParse n) s = .next (commit s (harrowParse n s.dev)) := rfl

/-- The head of a rank's queue is taken into a pipe: the cycle counts it, and the buffer of the injection path gives back its bytes. -/
def pipeFilled (d : Dev) (n r k : Nat) (frag : Bool) (p : Pkt) (t : List Pkt) : Dev :=
  let e := setInQ (if r = 2 ∧ frag then setCycle d n 1 true else setCycle d n (k + 1) (frag || r == 2)) n r t
  if r = 3 then { e with host := { e.host with injBuf := e.host.injBuf - p.frame.length } } else e

theorem not_released {d : Dev} {n : Nat} {frag : Bool} (h : inQ d n 2 = [] ∨ frag = true) : ¬ (¬ frag = true ∧ inQ d n 2 ≠ []) :=
  fun ⟨hfrag, hne⟩ => h.elim hne hfrag

section
variable {d : Dev} {n : Nat} (hup : acreUp d n = true)
include hup

theorem harrowParse_reparse (hb : (backNext d n (spGet (fun _ => []) d.har.backQ n)).isSome = true) :
    harrowParse n d = reparse n (setCycle d n ((cycleOf d n).1 + 1) (cycleOf d n).2) := by
  rw [harrowParse, if_neg (not_not_intro hup)]
  exact if_pos hb

variable (hb : backNext d n (spGet (fun _ => []) d.har.backQ n) = none) {p : Pkt} {t : List Pkt}
include hb

theorem harrowParse_rank {r : Nat} (hr : parseRank d n (cycleOf d n).2 = r) (hq : inQ d n r = p :: t) :
    harrowParse n d = harrowPacket (pipeFilled d n r (cycleOf d n).1 (cycleOf d n).2 p t) n p := by
  simp only [harrowParse, hup, not_true_eq_false, if_false, hb, Option.isSome_none, Bool.false_eq_true, hr, hq, pipeFilled]

theorem harrowParse_released (hf : (cycleOf d n).2 = false) (hq : inQ d n 2 = p :: t) :
    harrowParse n d = harrowPacket (setInQ (setCycle d n ((cycleOf d n).1 + 1) true) n 2 t) n p := by
  have hne : inQ d n 2 ≠ [] := by rw [hq]; exact List.cons_ne_nil _ _
  rw [harrowParse_rank hup hb (if_pos ⟨ne_true_of_eq_false hf, hne⟩) hq, hf]
  rfl

theorem harrowParse_injected (hf : inQ d n 2 = [] ∨ (cycleOf d n).2 = true) (hq : inQ d n 3 = p :: t) :
    harrowParse n d = (let e := setInQ (setCycle d n ((cycleOf d n).1 + 1) (cycleOf d n).2) n 3 t
      harrowPacket { e with host := { e.host with injBuf := e.host.injBuf - p.frame.length } } n p) := by
  have hne : inQ d n 3 ≠ [] := by rw [hq]; exact List.cons_ne_nil _ _
  have hrank : parseRank d n (cycleOf d n).2 = 3 := by rw [parseRank, if_neg (not_released hf), if_pos hne]
  rw [harrowParse_rank hup hb hrank hq]
  simp only [pipeFilled, if_neg (show ¬ (3 = 2 ∧ (cycleOf d n).2 = true) by omega), show (3 == 2) = false by decide, Bool.or_false, if_true]

theorem harrowParse_received (hf : inQ d n 2 = [] ∨ (cycleOf d n).2 = true) (h3 : inQ d n 3 = []) (hq : inQ d n 4 = p :: t) :
    harrowParse n d = harrowPacket (setInQ (setCycle d n ((cycleOf d n).1 + 1) (cycleOf d n).2) n 4 t) n p := by
  have hne : inQ d n 4 ≠ [] := by rw [hq]; exact List.cons_ne_nil _ _
  have hrank : parseRank d n (cycleOf d n).2 = 4 := by
    rw [parseRank, if_neg (not_released hf), if_neg (not_not_intro h3), if_pos hne]
  rw [harrowParse_rank hup hb hrank hq]
  simp only [pipeFilled, if_neg (show ¬ (4 = 2 ∧ (cycleOf d n).2 = true) by omega), show (4 == 2) = false by decide, Bool.or_false,
    if_neg (show ¬ (4 = 3) by decide)]

end

/-! The walk (R127, R128). -/

/-- The cursor stands within the window and the frame. -/
def Walk.Within (flen : Nat) (k : Walk) : Prop := k.cursor ≤ 512 ∧ k.cursor ≤ flen

/-- A visit moves the cursor behind a header that the window and the frame hold, or leaves it. -/
theorem walkStep_within (d : Dev) (n : Nat) (win : List Byte) {flen : Nat} {k : Walk} (h : k.Within flen) :
    (walkStep d n win flen k).1.Within flen := by
  rw [walkStep]
  split
  · exact h
  · extract_lets _ _ _ _ _ len
    split
    · exact h
    · extract_lets k'
      split
      · exact h
      · rename_i hwin
        split
        · exact h
        · -- The header lies in the window and the frame: the cursor stays or moves behind it.
          rename_i hframe
          have hcursor : k'.cursor = k.cursor := rfl
          have hk : k'.Within flen := by rwa [Walk.Within, hcursor]
          clear_value k' len
          split
          split
          · exact hk
          · split
            · exact hk
            · rw [← hcursor] at hwin hframe
              exact ⟨Nat.not_lt.mp hwin, Nat.not_lt.mp hframe⟩

theorem walkRun_within (d : Dev) (n : Nat) (win : List Byte) {flen : Nat} (v : Nat) {k : Walk} (h : k.Within flen) :
    (walkRun d n win flen v k).Within flen := by
  induction v generalizing k with
  | zero => exact h
  | succ v ih =>
    have hstep := walkStep_within d n win (k := { k with seen := k.seen ++ [k.state] }) h
    rw [walkRun]
    split
    · rename_i hk
      rw [hk] at hstep
      exact ih hstep
    · rename_i hk
      rw [hk] at hstep
      exact hstep

theorem walk_within (d : Dev) (n start : Nat) (p : Pkt) : (walk d n start p).Within p.frame.length :=
  walkRun_within d n _ 32 ⟨Nat.zero_le _, Nat.zero_le _⟩

theorem walkStep_invalid {d : Dev} {n : Nat} {k : Walk} (h : stValid d n k.state = false) (win : List Byte) (flen : Nat) :
    walkStep d n win flen k = ({ k with err := 1 }, false) := if_pos (ne_true_of_eq_false h)

theorem walk_invalidStart {d : Dev} {n start : Nat} (h : stValid d n start = false) (p : Pkt) : (walk d n start p).err = 1 := by
  rw [walk, walkRun, walkStep_invalid h]

/-! Settlement (R133). -/

section
variable {d : Dev} {n : Nat} {p : Pkt} {k : Walk} {h : Nat}

/-- A closed holding admits no packet of the network: it drops or punts it by its class. -/
theorem harSettle_closed (hp : p.fromHost = false) (ho : holdingOpen d h = false) (act arg : Nat) (first : Option Nat) :
    harSettle d n p k h act arg first =
      if k.cls = 1 then harPunt d n 3 h p else if k.cls = 2 then harPunt d n 4 h p else harDrop d n 2 p :=
  if_pos ⟨ne_true_of_eq_false hp, ne_true_of_eq_false ho⟩

variable (ho : holdingOpen d h = true)
include ho

theorem harSettle_drop (arg : Nat) (first : Option Nat) : harSettle d n p k h 2 arg first = harDrop d n 1 p := by
  simp only [harSettle, ho, not_true_eq_false, and_false, if_false, if_true]

theorem harSettle_punt (arg : Nat) (first : Option Nat) : harSettle d n p k h 1 arg first = harPunt d n arg h p := by
  simp only [harSettle, ho, not_true_eq_false, and_false, if_false, if_true, show ¬ (1 = 2) by decide]

theorem harSettle_noRule (arg : Nat) (first : Option Nat) : harSettle d n p k h 3 arg first = harPunt d n 2 h p := by
  simp only [harSettle, ho, not_true_eq_false, and_false, if_false, if_true, show ¬ (3 = 2) by decide, show ¬ (3 = 1) by decide]

theorem harSettle_admit (he : k.err = 0) (arg : Nat) : harSettle d n p k h 0 arg none = steer d n (pcSet p Pc.holding h) := by
  simp only [harSettle, ho, he, not_true_eq_false, and_false, false_and, ne_eq, if_false, show ¬ (0 = 2) by decide, show ¬ (0 = 1) by decide,
    show ¬ (0 = 3) by decide]

end

end Sys2Proof.Machine
end

section
/-!
PROOF. Fragments and the reparse: the release of a held fragment (R140), the sweep of the decision table (R142), and the packet that a reparse
returns to its furrow (R144).
-/
namespace Sys2Proof.Machine

/-! A run of steps that each change the reading of one key. -/

section
variable {β : Type} {f : Dev → Nat → Dev} {get new : Dev → Nat → β} (hother : ∀ d k j, j ≠ k → get (f d k) j = get d j)
include hother

theorem foldl_unvisited {l : List Nat} {j : Nat} (h : j ∉ l) (d : Dev) : get (l.foldl f d) j = get d j := by
  induction l generalizing d with
  | nil => rfl
  | cons x t ih =>
    obtain ⟨hx, ht⟩ := not_or.mp (mt List.mem_cons.mpr h)
    rw [List.foldl_cons, ih ht, hother d x j hx]

/-- A key that the run visits once reads what its step makes of the device before the run. -/
theorem foldl_visited (hsame : ∀ d k, get (f d k) k = new d k) (hnew : ∀ d k j, j ≠ k → new (f d k) j = new d j) {l : List Nat}
    (hl : l.Nodup) {j : Nat} (h : j ∈ l) (d : Dev) : get (l.foldl f d) j = new d j := by
  induction l generalizing d with
  | nil => exact absurd h List.not_mem_nil
  | cons x t ih =>
    obtain ⟨hx, ht⟩ := List.nodup_cons.mp hl
    rw [List.foldl_cons]
    by_cases hj : j = x
    · rw [hj, foldl_unvisited hother hx, hsame]
    · rw [ih ht ((List.mem_cons.mp h).resolve_left hj), hnew d x j hj]

end

/-! The release of a held fragment (R140). -/

theorem exec_fragWaitExpiry (s : State) (n k : Nat) : exec (.fragWaitExpiry n k) s = .next (commit s (fragWaitExpiry n k s.dev)) := rfl

@[simp] theorem heldQ_commit (s : State) (d : Dev) (n : Nat) : heldQ (commit s d).dev n = heldQ d n := rfl
@[simp] theorem inQ_commit (s : State) (d : Dev) (n r : Nat) : inQ (commit s d).dev n r = inQ d n r := rfl
@[simp] theorem heldQ_harEvt (d : Dev) (n k i : Nat) : heldQ (harEvt d n k) i = heldQ d i := rfl
@[simp] theorem inQ_harEvt (d : Dev) (n k i r : Nat) : inQ (harEvt d n k) i r = inQ d i r := rfl
@[simp] theorem rd_harEvt_same (d : Dev) (n k : Nat) : rd (harEvt d n k) (Reg.HARROW_EVT n k) = rd d (Reg.HARROW_EVT n k) + 1 := rd_bump_same ..
theorem rd_harEvt_other (d : Dev) {n k o : Nat} (h : o ≠ Reg.HARROW_EVT n k) : rd (harEvt d n k) o = rd d o := rd_bump_other d h
@[simp] theorem heldQ_setHeldQ_same (d : Dev) (n : Nat) (l : List (Pkt × Nat)) : heldQ (setHeldQ d n l) n = l := spGet_spPut_same ..
@[simp] theorem inQ_setHeldQ (d : Dev) (n : Nat) (l : List (Pkt × Nat)) (i r : Nat) : inQ (setHeldQ d n l) i r = inQ d i r := rfl
@[simp] theorem rd_setHeldQ (d : Dev) (n : Nat) (l : List (Pkt × Nat)) (o : Nat) : rd (setHeldQ d n l) o = rd d o := rfl
@[simp] theorem heldQ_fragRelease (d : Dev) (n : Nat) (l : List (Pkt × Nat)) (i : Nat) : heldQ (fragRelease d n l) i = heldQ d i := rfl
@[simp] theorem rd_fragRelease (d : Dev) (n : Nat) (l : List (Pkt × Nat)) (o : Nat) : rd (fragRelease d n l) o = rd d o := rfl

theorem inQ_fragRelease_one (d : Dev) (n : Nat) (e : Pkt × Nat) : inQ (fragRelease d n [e]) n 2 = arrivalPut e.1 (inQ d n 2) := spGet_spPut_same ..

/-- The fragment leaves the holding area for its place in order of arrival, and the expiry counts. -/
theorem fragWaitExpiry_held {d : Dev} {n k : Nat} {e : Pkt × Nat} (h : (heldQ d n)[k]? = some e) :
    fragWaitExpiry n k d = harEvt (fragRelease (setHeldQ d n ((heldQ d n).eraseIdx k)) n [e]) n 12 := by
  rw [fragWaitExpiry, h]

/-! The sweep (R142). -/

theorem exec_fragmentSweep (s : State) (n b : Nat) : exec (.fragmentSweep n b) s = .next (commit s (fragSweep n b s.dev)) := rfl

@[simp] theorem getFrag_commit (s : State) (d : Dev) (k : Nat) : getFrag (commit s d).dev k = getFrag d k := rfl

theorem getFrag_putFrag (d : Dev) (k v j : Nat) : getFrag (putFrag d k v) j = if j = k then v else getFrag d j := spGet_spPut ..

/-- An entry after a sweep: empty when it has died. -/
def fragSwept (d : Dev) (n e : Nat) : Nat := if fragLive d n e = true ∨ bit e 127 = false then e else 0

/-- The sweep of one way. -/
def fragSweepWay (n b : Nat) (d : Dev) (w : Nat) : Dev :=
  if bit (getFrag d (fragKey n b w)) 127 ∧ ¬ fragLive d n (getFrag d (fragKey n b w)) then harEvt (putFrag d (fragKey n b w) 0) n 15 else d

theorem fragSweep_eq_foldl (n b : Nat) (d : Dev) : fragSweep n b d = (List.range 4).foldl (fragSweepWay n b) d := rfl

theorem fragKey_inj {n b w x : Nat} (h : fragKey n b w = fragKey n b x) : w = x := by
  rw [fragKey, fragKey] at h
  omega

/-- The sweep of a way changes neither time nor FRAG_CFG. -/
theorem fragLive_fragSweepWay (n b : Nat) (d : Dev) (w e : Nat) : fragLive (fragSweepWay n b d w) n e = fragLive d n e := by
  have hcfg : Reg.FRAG_CFG n ≠ Reg.HARROW_EVT n 15 := by
    simp only [Reg.FRAG_CFG, Reg.HARROW_EVT]
    omega
  rw [fragSweepWay]
  split
  · rw [fragLive, fragLife, rdF_congr (rd_harEvt_other _ hcfg)]
    rfl
  · rfl

theorem getFrag_fragSweepWay (n b : Nat) (d : Dev) (w j : Nat) : getFrag (fragSweepWay n b d w) j =
    if j = fragKey n b w then fragSwept d n (getFrag d (fragKey n b w)) else getFrag d j := by
  have hcases (e : Nat) : fragSwept d n e = if bit e 127 ∧ ¬ fragLive d n e then 0 else e := by
    rw [fragSwept]
    cases fragLive d n e <;> cases bit e 127 <;> rfl
  rw [fragSweepWay, hcases]
  split
  · exact getFrag_putFrag ..
  · split
    · rename_i hj
      rw [hj]
    · rfl

theorem getFrag_fragSweep (n b : Nat) (d : Dev) {w : Nat} (hw : w < 4) :
    getFrag (fragSweep n b d) (fragKey n b w) = fragSwept d n (getFrag d (fragKey n b w)) := by
  have hother : ∀ d w j, j ≠ w → getFrag (fragSweepWay n b d w) (fragKey n b j) = getFrag d (fragKey n b j) := fun d w j h => by
    rw [getFrag_fragSweepWay, if_neg fun hk => h (fragKey_inj hk)]
  rw [fragSweep_eq_foldl]
  refine foldl_visited (get := fun d w => getFrag d (fragKey n b w)) (new := fun d w => fragSwept d n (getFrag d (fragKey n b w))) hother
    (fun d w => ?_) (fun d w j h => ?_) List.nodup_range (List.mem_range.mpr hw) d
  · rw [getFrag_fragSweepWay, if_pos rfl]
  · rw [hother d w j h, fragSwept, fragSwept, fragLive_fragSweepWay]

/-! The reparse (R144). -/

theorem exec_reparse (s : State) (n : Nat) : exec (.reparse n) s = .next (commit s (reparse n s.dev)) := rfl

@[simp] theorem getPkt_setBackQ (d : Dev) (n : Nat) (q : List (Nat × Nat × Nat)) (l : PktRef) : getPkt (setBackQ d n q) l = getPkt d l := rfl
@[simp] theorem getFur_setBackQ (d : Dev) (n : Nat) (q : List (Nat × Nat × Nat)) (a f : Nat) : getFur (setBackQ d n q) a f = getFur d a f := rfl
@[simp] theorem backQ_setBackQ_same (d : Dev) (n : Nat) (q : List (Nat × Nat × Nat)) : spGet (fun _ => []) (setBackQ d n q).har.backQ n = q :=
  spGet_spPut_same ..

theorem reparse_next {d : Dev} {n : Nat} {l : PktRef} {q : List (Nat × Nat × Nat)}
    (h : backNext d n (spGet (fun _ => []) d.har.backQ n) = some (l, q)) : reparse n d = reparsePkt l (setBackQ d n q) := by
  rw [reparse, h]

/-- A run of steps that each keep a part of the device keeps it. -/
theorem foldl_keeps {α β : Type} {f : Dev → α → Dev} {g : Dev → β} (h : ∀ d x, g (f d x) = g d) (l : List α) (d : Dev) :
    g (l.foldl f d) = g d := by
  induction l generalizing d with
  | nil => rfl
  | cons x t ih => rw [List.foldl_cons, ih, h]

/-- The check of a word of Harrow's tables changes its check bits and the collector. -/
theorem harCheck_shape (n : Nat) (d : Dev) (key : Nat) : ∃ up fl, harCheck n d key = { d with upset := up, flt := fl } := by
  rw [harCheck]
  split
  · exact ⟨_, _, rfl⟩
  · split <;> exact ⟨_, _, rfl⟩

theorem harCheck_units (n : Nat) (d : Dev) (key : Nat) : ((harCheck n d key).furs, (harCheck n d key).har) = (d.furs, d.har) := by
  obtain ⟨_, _, h⟩ := harCheck_shape n d key
  rw [h]

/-- What a walk counts and finds leaves the furrows and Harrow's queues. -/
theorem walkCount_units (d : Dev) (n port : Nat) (k : Walk) :
    ((walkCount d n port k).furs, (walkCount d n port k).har) = (d.furs, d.har) := by
  have hchecks {α : Type} (f : α → Nat) (l : List α) (d : Dev) :
      (((l.map f).foldl (harCheck n) d).furs, ((l.map f).foldl (harCheck n) d).har) = (d.furs, d.har) :=
    foldl_keeps (g := fun d => (d.furs, d.har)) (harCheck_units n) _ d
  have hwalk := hchecks (harStateKey n) k.seen (harEvt d n 0)
  simp only [walkCount]
  generalize (k.seen.map (harStateKey n)).foldl (harCheck n) (harEvt d n 0) = e at hwalk
  have hsearch : ((if k.hdrs = 0 then e else harSearchCheck e n (harTransKey n 0) 2048).furs,
      (if k.hdrs = 0 then e else harSearchCheck e n (harTransKey n 0) 2048).har) = (d.furs, d.har) := by
    split
    · exact hwalk
    · exact (hchecks ..).trans hwalk
  generalize (if k.hdrs = 0 then e else harSearchCheck e n (harTransKey n 0) 2048) = e' at hsearch
  split
  · exact hsearch
  · rw [wrFs_furs, wrFs_har]
    exact hsearch

/-- A packet without its edits, and with what a walk found. -/
def parsed (p : Pkt) (k : Walk) : Pkt :=
  pcSet (pkFlagsSet k.fset (setHdrs { p with edits := [], edata := [] } k.hdrs)) (Pc.flag flParseErr) (b2n (k.err != 0))

/-- The packet as its reparse returns it. -/
def reparsed (p : Pkt) (k : Walk) : Pkt := { parsed p k with loc := .returning }

theorem pcSet_shape (p : Pkt) (f : Fld) (v : Nat) : ∃ c, pcSet p f v = { p with ctx := c } := ⟨_, rfl⟩

theorem parsed_shape (p : Pkt) (k : Walk) : ∃ c, parsed p k = { p with edits := [], edata := [], ctx := c } := by
  obtain ⟨c₁, h₁⟩ := pcSet_shape { p with edits := [], edata := [] } (ctxFld 4 0 512) k.hdrs
  obtain ⟨m, h₂⟩ := pkFlagsSet_shape k.fset { p with edits := [], edata := [], ctx := c₁ }
  obtain ⟨c₂, h₃⟩ := pcSet_shape { p with edits := [], edata := [], ctx := c₁ } (ctxFld 3 0 16) m
  obtain ⟨c₃, h₄⟩ := pcSet_shape { p with edits := [], edata := [], ctx := c₂ } (Pc.flag flParseErr) (b2n (k.err != 0))
  exact ⟨c₃, by rw [parsed, setHdrs, h₁, h₂, h₃, h₄]⟩

/-- The packet returns with its frame and without edits. -/
theorem reparsed_spec (p : Pkt) (k : Walk) :
    (reparsed p k).loc = .returning ∧ (reparsed p k).edits = [] ∧ (reparsed p k).edata = [] ∧ (reparsed p k).frame = p.frame := by
  obtain ⟨c, h⟩ := parsed_shape p k
  rw [reparsed, h]
  exact ⟨rfl, rfl, rfl, rfl⟩

/-- The walk's results stand in the context behind the flow hash. -/
theorem pcGet_reparsed_flowHash (p : Pkt) (k : Walk) : pcGet (reparsed p k) Pc.flowHash = pcGet p Pc.flowHash := by
  rw [reparsed, pcGet_congr (q := { parsed p k with loc := .returning }) (p := parsed p k) rfl, parsed,
    pcGet_pcSet_other _ _ (by decide) (by decide), pkFlagsSet, pcGet_pcSet_other _ _ (by decide) (by decide), setHdrs,
    pcGet_pcSet_other _ _ (by decide) (by decide)]
  exact pcGet_congr rfl _

section
variable {d : Dev} {l : PktRef} {p : Pkt} (hp : getPkt d l = some p) (hl : p.loc = .reparse)
include hp hl

theorem reparsePkt_late (h : pastDeadline d l.a p = true) : reparsePkt l d = furDrop d l p 0x40 := by
  simp only [reparsePkt, hp, hl, ne_eq, not_true_eq_false, if_false, h, if_true]

/-- A packet in time joins its return queue with its walk's results; the walk leaves the furrows and Harrow's queues. -/
theorem reparsePkt_returns (h : pastDeadline d l.a p = false) (hq : (getFur d l.a l.f).returnQ.length < 64) :
    ∃ e k, reparsePkt l d = putPkt (putFur e l.a l.f { getFur d l.a l.f with returnQ := (getFur d l.a l.f).returnQ ++ [l.slot] }) l (reparsed p k) ∧
      e.har = d.har := by
  obtain ⟨k, hk⟩ : ∃ k, k = walk d l.a (rdF d (Reg.HARROW_CFG l.a) Reg.HARROW_CFG_DECRYPT_START) p := ⟨_, rfl⟩
  obtain ⟨e, he⟩ : ∃ e, e = (if k.err = 0 then harEvt (walkCount d l.a (inPort p) k) l.a 16
    else harEvt (harEvt (walkCount d l.a (inPort p) k) l.a 16) l.a 17) := ⟨_, rfl⟩
  obtain ⟨hfurs, hhar⟩ : e.furs = d.furs ∧ e.har = d.har := by
    obtain ⟨hf, hh⟩ := Prod.mk.inj (walkCount_units d l.a (inPort p) k)
    rw [he]
    split <;> exact ⟨hf, hh⟩
  refine ⟨e, k, ?_, hhar⟩
  simp only [reparsePkt, hp, hl, ne_eq, not_true_eq_false, if_false, h, Bool.false_eq_true, ← hk, ← he, getFur_congr hfurs, Nat.not_le.mpr hq]
  rfl

end

end Sys2Proof.Machine
end

section
/-!
PROOF. The writes of Harrow's entries (R135) and of HOLDING_OPEN (R132).
-/
namespace Sys2Proof.Machine

/-! Bits of a word. -/

theorem getLsbD_setF (v : W64) (f : Fld) (x i : Nat) :
    (setF v f x).getLsbD i = (decide (i < 64) && if f.lo ≤ i ∧ i < f.lo + f.w then x.testBit (i - f.lo) else v.getLsbD i) := by
  rw [setF, BitVec.getLsbD_ofNat, testBit_setBits]
  rfl

/-- A field that is set again keeps nothing of what it was set to before, whichever bits a mask takes from the rest. -/
theorem setF_setF_and (v w : W64) (f : Fld) (x y : Nat) : setF (setF v f x &&& w) f y = setF (v &&& w) f y := by
  apply BitVec.eq_of_getLsbD_eq
  intro i hi
  rw [getLsbD_setF, getLsbD_setF]
  split
  · rfl
  · rename_i hf
    simp only [BitVec.getLsbD_and, getLsbD_setF, if_neg hf, decide_eq_true hi, Bool.true_and]

theorem setF_whole (v w : W64) : setF v ⟨0, 64⟩ (bits w.toNat 0 64) = w := by
  apply BitVec.eq_of_getLsbD_eq
  intro i hi
  rw [getLsbD_setF, if_pos ⟨Nat.zero_le _, hi⟩, testBit_bits, Nat.sub_zero, Nat.zero_add, decide_eq_true hi, Bool.true_and, Bool.true_and]
  rfl

/-! The words of an entry. -/

/-- Words stored one behind another. -/
def putEntry (d : Dev) (o : Nat) : List Nat → Dev
  | [] => d
  | x :: t => putEntry (wr d o (BitVec.ofNat 64 x)) (o + 8) t

theorem rd_putEntry_other {o x : Nat} {l : List Nat} (h : x < o ∨ o + 8 * l.length ≤ x) (d : Dev) : rd (putEntry d o l) x = rd d x := by
  induction l generalizing o d with
  | nil => rfl
  | cons y t ih =>
    rw [List.length_cons] at h
    rw [putEntry, ih (by omega), rd_wr_other _ _ (by omega)]

theorem rd_putEntry_word {l : List Nat} {i : Nat} (h : i < l.length) (o : Nat) (d : Dev) :
    rd (putEntry d o l) (o + 8 * i) = BitVec.ofNat 64 l[i] := by
  induction l generalizing o i d with
  | nil => exact absurd h (Nat.not_lt_zero i)
  | cons y t ih =>
    cases i with
    | zero => rw [putEntry, rd_putEntry_other (by omega)]; exact rd_wr_same ..
    | succ i =>
      have hoff : o + 8 * (i + 1) = o + 8 + 8 * i := by omega
      rw [putEntry, hoff, ih (Nat.lt_of_succ_lt_succ h)]
      rfl

/-- An accepted write of an entry: the command stands in HARROW_WCMD, the entry's words follow one another from its offset, its check bits
are good, and the write counts. -/
def entryStored (d : Dev) (n : Nat) (v : W64) (t key o : Nat) (l : List Nat) : Dev :=
  harEvt (eccWrite (putEntry (wr d (Reg.HARROW_WCMD n) (setF (v &&& 0x1FFF) Reg.HARROW_WCMD_TABLE t)) o l) .harrow key (256 * 3 + n) 0) n 18

section
variable {d : Dev} {n t key o : Nat} {v : W64} {l : List Nat}

theorem rd_entryStored {x : Nat} (hx : x ≠ Reg.HARROW_EVT n 18) (h : 0x1400000 ≤ x) : rd (entryStored d n v t key o l) x =
    rd (putEntry (wr d (Reg.HARROW_WCMD n) (setF (v &&& 0x1FFF) Reg.HARROW_WCMD_TABLE t)) o l) x := by
  have hinj : x ≠ Reg.FAULT_INJECT := by simp only [Reg.FAULT_INJECT]; omega
  rw [entryStored, rd_harEvt_other _ hx, rd_eccWrite _ _ _ _ _ hinj]

/-- Below the registers that follow the tables, every other word stands. -/
theorem rd_entryStored_other {x : Nat} (h : 0x1400000 ≤ x) (hx : x < o ∨ o + 8 * l.length ≤ x) (hc : x ≠ Reg.HARROW_WCMD n)
    (he : x ≠ Reg.HARROW_EVT n 18) : rd (entryStored d n v t key o l) x = rd d x := by
  rw [rd_entryStored he h, rd_putEntry_other hx, rd_wr_other _ _ hc]

variable (hlo : 0x1400000 ≤ o) (hhi : o + 8 * l.length ≤ 0x140E000 + 0x20000 * n)
include hhi

theorem rd_entryStored_cmd : rd (entryStored d n v t key o l) (Reg.HARROW_WCMD n) = setF (v &&& 0x1FFF) Reg.HARROW_WCMD_TABLE t := by
  have hpast : o + 8 * l.length ≤ Reg.HARROW_WCMD n := by simp only [Reg.HARROW_WCMD]; omega
  rw [rd_entryStored (by simp only [Reg.HARROW_WCMD, Reg.HARROW_EVT]; omega) (by simp only [Reg.HARROW_WCMD]; omega),
    rd_putEntry_other (.inr hpast), rd_wr_same]

/-- An accepted write leaves the count of refused ones. -/
theorem rd_entryStored_refusals : rd (entryStored d n v t key o l) (Reg.HARROW_EVT n 19) = rd d (Reg.HARROW_EVT n 19) :=
  rd_entryStored_other (by simp only [Reg.HARROW_EVT]; omega) (by simp only [Reg.HARROW_EVT]; omega)
    (by simp only [Reg.HARROW_EVT, Reg.HARROW_WCMD]; omega) (by simp only [Reg.HARROW_EVT]; omega)

include hlo

theorem rd_entryStored_word {i : Nat} (hi : i < l.length) : rd (entryStored d n v t key o l) (o + 8 * i) = BitVec.ofNat 64 l[i] := by
  rw [rd_entryStored (by simp only [Reg.HARROW_EVT]; omega) (by omega), rd_putEntry_word hi]

end

/-! The command (R135). -/

/-- A state entry that is refused: its index or an encoding is bad. -/
def StateBad (d : Dev) (n i : Nat) : Prop :=
  255 < i ∨ bits (harWdata d n 0) 13 2 = 3 ∨ bits (harWdata d n 0) 52 2 = 3 ∨ bits (harWdata d n 1) 34 2 = 3

/-- The words that a write gives an entry, their reserved bits at 0. -/
def stateWords (d : Dev) (n : Nat) : List Nat := [harWdata d n 0, bits (harWdata d n 1) 0 62, harWdata d n 2 &&& 0x0000FFFF3FFFFFFF, 0]
def transWords (d : Dev) (n : Nat) : List Nat := [harWdata d n 0 &&& 0x8003FFFFFFFFFFFF, bits (harWdata d n 1) 0 40]
def ruleWords (d : Dev) (n : Nat) : List Nat := [harWdata d n 0 &&& 0x803FFFFFFFFFFFFF, bits (harWdata d n 1) 0 44]

section
variable {d : Dev} {n i : Nat} {v : W64} (hv : getF v Reg.HARROW_WCMD_INDEX = i)

/-- The command's register lies apart from the data words. -/
theorem harWdata_wr_cmd (d : Dev) (n : Nat) (x : W64) {k : Nat} (hk : k < 4) : harWdata (wr d (Reg.HARROW_WCMD n) x) n k = harWdata d n k := by
  rw [harWdata, rd_wr_other _ _ (by simp only [Reg.HARROW_WDATA, Reg.HARROW_WCMD]; omega), harWdata]

include hv

theorem harrowWrite_state (h : ¬ StateBad d n i) :
    harrowWrite n v 0 d = entryStored d n v 0 (harStateKey n i) (Reg.HSTATE n i 0) (stateWords d n) := by
  rw [StateBad] at h
  simp (disch := decide) only [harrowWrite, hv, if_true, harWdata_wr_cmd, if_neg h]
  rfl

theorem harrowWrite_stateBad (h : StateBad d n i) :
    harrowWrite n v 0 d = harReject (wr d (Reg.HARROW_WCMD n) (setF (v &&& 0x1FFF) Reg.HARROW_WCMD_TABLE 0)) n := by
  rw [StateBad] at h
  simp (disch := decide) only [harrowWrite, hv, if_true, harWdata_wr_cmd, if_pos h]

theorem harrowWrite_trans (h : bits (harWdata d n 0) 40 2 ≠ 3) :
    harrowWrite n v 1 d = entryStored d n v 1 (harTransKey n i) (Reg.HTRANS n i 0) (transWords d n) := by
  simp (disch := decide) only [harrowWrite, hv, show ¬ (1 = 0) by decide, if_true, if_false, harWdata_wr_cmd, if_neg h]
  rfl

theorem harrowWrite_holdRule (hi : i < 1024) (h : bits (harWdata d n 0) 44 2 ≠ 3) :
    harrowWrite n v 2 d = entryStored d n v 2 (harRuleKey n i) (Reg.HOLD_RULE n i 0) (ruleWords d n) := by
  have hgood : ¬ (1023 < i ∨ bits (harWdata d n 0) 44 2 = 3) := not_or.mpr ⟨by omega, h⟩
  simp (disch := decide) only [harrowWrite, hv, show ¬ (2 = 0) by decide, show ¬ (2 = 1) by decide, if_true, if_false, harWdata_wr_cmd,
    if_neg hgood]
  rfl

end

theorem isOwnReg_HARROW_WCMD : ∀ n < 4, isOwnReg (Reg.HARROW_WCMD n) (Reg.HARROW_WCMD 0) n 0 = true := by decide +kernel

theorem regEffect_harrowBlock {c : RegW} {m : Mem} {d : Dev} (h : c.off / 0x100000 = 20) : regEffect c m d = effHarrow c d := by
  simp only [regEffect]
  repeat rw [if_neg (by omega)]
  rw [if_pos h]

theorem regEffect_HARROW_WCMD {agent n : Nat} (hn : n < 4) (v x : W64) (m : Mem) (d : Dev) :
    regEffect ⟨agent, Reg.HARROW_WCMD n, Reg.HARROW_WCMD 0, n, 0, v, x⟩ m d =
      if rd (harrowWrite n v (getF v Reg.HARROW_WCMD_TABLE) d) (Reg.HARROW_EVT n 19) = rd d (Reg.HARROW_EVT n 19)
      then (true, harrowWrite n v (getF v Reg.HARROW_WCMD_TABLE) d) else (false, harReject d n) := by
  rw [regEffect_harrowBlock (by simp only [Reg.HARROW_WCMD]; omega), effHarrow, if_pos rfl]

/-- A command for a table that reaches HARROW_WCMD with its fields in range. -/
def CmdReaches (d : Dev) (agent n : Nat) (v : W64) (t : Nat) : Prop :=
  WriteReaches d agent (Reg.HARROW_WCMD n) (setF v Reg.HARROW_WCMD_TABLE t) ∧
    FieldsInRange (Reg.HARROW_WCMD n) (setF v Reg.HARROW_WCMD_TABLE t)

theorem votedReg_HARROW_WCMD : votedReg (Reg.HARROW_WCMD 0) = false := by decide

section
variable {m : Mem} {d : Dev} {agent n t : Nat} {v : W64} (hn : n < 4) (ht : t < 4) (h : CmdReaches d agent n v t)
include hn ht h

theorem regWrite_HARROW_WCMD_stored {key o : Nat} {l : List Nat}
    (hw : harrowWrite n (setF v Reg.HARROW_WCMD_TABLE t) t d = entryStored d n (setF v Reg.HARROW_WCMD_TABLE t) t key o l)
    (hhi : o + 8 * l.length ≤ 0x140E000 + 0x20000 * n) :
    regWrite agent (Reg.HARROW_WCMD n) (setF v Reg.HARROW_WCMD_TABLE t) m d = entryStored d n v t key o l := by
  have htab : getF (setF v Reg.HARROW_WCMD_TABLE t) Reg.HARROW_WCMD_TABLE = t := (getF_setF _ _ _ (by decide)).trans (Nat.mod_eq_of_lt ht)
  have hcmd : entryStored d n (setF v Reg.HARROW_WCMD_TABLE t) t key o l = entryStored d n v t key o l := by
    rw [entryStored, entryStored, setF_setF_and]
  refine regWrite_accepted (isOwnReg_HARROW_WCMD n hn) votedReg_HARROW_WCMD h.1 h.2 ?_
  rw [regEffect_HARROW_WCMD hn, htab, hw, hcmd, if_pos (rd_entryStored_refusals hhi)]

theorem regWrite_HARROW_WCMD_refused {x : W64}
    (hw : harrowWrite n (setF v Reg.HARROW_WCMD_TABLE t) t d = harReject (wr d (Reg.HARROW_WCMD n) x) n) :
    regWrite agent (Reg.HARROW_WCMD n) (setF v Reg.HARROW_WCMD_TABLE t) m d = hostReject (harReject d n) agent (Reg.HARROW_WCMD n)
      (islandsOf d (Reg.HARROW_WCMD n) (setF v Reg.HARROW_WCMD_TABLE t)) := by
  have htab : getF (setF v Reg.HARROW_WCMD_TABLE t) Reg.HARROW_WCMD_TABLE = t := (getF_setF _ _ _ (by decide)).trans (Nat.mod_eq_of_lt ht)
  have hcounts : rd (harReject (wr d (Reg.HARROW_WCMD n) x) n) (Reg.HARROW_EVT n 19) ≠ rd d (Reg.HARROW_EVT n 19) := by
    rw [harReject, rd_harEvt_same, rd_wr_other _ _ (by simp only [Reg.HARROW_EVT, Reg.HARROW_WCMD]; omega)]
    simp
  refine regWrite_refused (isOwnReg_HARROW_WCMD n hn) h.1 h.2 ?_
  rw [regEffect_HARROW_WCMD hn, htab, hw, if_neg hcounts]

end

/-! The entry after the command. -/

@[simp] theorem stWord_commit (s : State) (d : Dev) (n i w : Nat) : stWord (commit s d).dev n i w = stWord d n i w := by
  rw [stWord, stWord, rd_commit]

theorem harWdata_lt (d : Dev) (n k : Nat) : harWdata d n k < 2 ^ 64 := BitVec.isLt _

theorem getF_setF_TABLE_INDEX (v : W64) (t : Nat) : getF (setF v Reg.HARROW_WCMD_TABLE t) Reg.HARROW_WCMD_INDEX = getF v Reg.HARROW_WCMD_INDEX :=
  getF_setF_other _ _ _ _ (by decide) (by decide)

section
variable {m : Mem} {d : Dev} {agent n t key i : Nat} {v : W64} {l : List Nat}

/-- A word of the state that is written. -/
theorem stWord_entryStored (hi : i < 256) (hl : l.length = 4) {k : Nat} (hk : k < l.length) :
    stWord (entryStored d n v t key (Reg.HSTATE n i 0) l) n i k = l[k] % 2 ^ 64 := by
  rw [stWord, show Reg.HSTATE n i k = Reg.HSTATE n i 0 + 8 * k from rfl,
    rd_entryStored_word (by simp only [Reg.HSTATE]; omega) (by simp only [Reg.HSTATE]; omega), BitVec.toNat_ofNat]

/-- A word of another state. -/
theorem stWord_entryStored_other (hn : n < 4) (hl : l.length = 4) {j k : Nat} (hj : j < 256) (hji : j ≠ i) (hk : k < 4) :
    stWord (entryStored d n v t key (Reg.HSTATE n i 0) l) n j k = stWord d n j k := by
  rw [stWord, rd_entryStored_other (by simp only [Reg.HSTATE]; omega) (by simp only [Reg.HSTATE]; omega)
    (by simp only [Reg.HSTATE, Reg.HARROW_WCMD]; omega) (by simp only [Reg.HSTATE, Reg.HARROW_EVT]; omega), stWord]

section
variable (hn : n < 4) (hi : getF v Reg.HARROW_WCMD_INDEX = i)
include hn hi

theorem regWrite_state (h : CmdReaches d agent n v 0) (hg : ¬ StateBad d n i) :
    regWrite agent (Reg.HARROW_WCMD n) (setF v Reg.HARROW_WCMD_TABLE 0) m d =
      entryStored d n v 0 (harStateKey n i) (Reg.HSTATE n i 0) (stateWords d n) := by
  have hlt : i < 256 := Nat.lt_of_not_le fun h => hg (.inl h)
  refine regWrite_HARROW_WCMD_stored hn (by decide) h (harrowWrite_state ((getF_setF_TABLE_INDEX v 0).trans hi) hg) ?_
  simp only [Reg.HSTATE, stateWords, List.length_cons, List.length_nil]
  omega

theorem regWrite_stateBad (h : CmdReaches d agent n v 0) (hb : StateBad d n i) :
    regWrite agent (Reg.HARROW_WCMD n) (setF v Reg.HARROW_WCMD_TABLE 0) m d = hostReject (harReject d n) agent (Reg.HARROW_WCMD n)
      (islandsOf d (Reg.HARROW_WCMD n) (setF v Reg.HARROW_WCMD_TABLE 0)) :=
  regWrite_HARROW_WCMD_refused hn (by decide) h (harrowWrite_stateBad ((getF_setF_TABLE_INDEX v 0).trans hi) hb)

theorem regWrite_trans (h : CmdReaches d agent n v 1) (hlt : i < 2048)
    (hg : bits (harWdata d n 0) 40 2 ≠ 3) :
    regWrite agent (Reg.HARROW_WCMD n) (setF v Reg.HARROW_WCMD_TABLE 1) m d =
      entryStored d n v 1 (harTransKey n i) (Reg.HTRANS n i 0) (transWords d n) := by
  refine regWrite_HARROW_WCMD_stored hn (by decide) h (harrowWrite_trans ((getF_setF_TABLE_INDEX v 1).trans hi) hg) ?_
  simp only [Reg.HTRANS, transWords, List.length_cons, List.length_nil]
  omega

theorem regWrite_holdRule (h : CmdReaches d agent n v 2) (hlt : i < 1024)
    (hg : bits (harWdata d n 0) 44 2 ≠ 3) :
    regWrite agent (Reg.HARROW_WCMD n) (setF v Reg.HARROW_WCMD_TABLE 2) m d =
      entryStored d n v 2 (harRuleKey n i) (Reg.HOLD_RULE n i 0) (ruleWords d n) := by
  refine regWrite_HARROW_WCMD_stored hn (by decide) h (harrowWrite_holdRule ((getF_setF_TABLE_INDEX v 2).trans hi) hlt hg) ?_
  simp only [Reg.HOLD_RULE, ruleWords, List.length_cons, List.length_nil]
  omega

end

/-- A written state: its words, and those of the other states. -/
theorem stateEntry_spec (hn : n < 4) (hi : i < 256) :
    let e := entryStored d n v 0 key (Reg.HSTATE n i 0) (stateWords d n)
    rd e (Reg.HARROW_WCMD n) = setF (v &&& 0x1FFF) Reg.HARROW_WCMD_TABLE 0 ∧ stWord e n i 0 = harWdata d n 0 ∧
      stWord e n i 1 = bits (harWdata d n 1) 0 62 ∧ stWord e n i 2 = harWdata d n 2 &&& 0x0000FFFF3FFFFFFF ∧
      ∀ j x, j < 256 → j ≠ i → x < 4 → stWord e n j x = stWord d n j x := by
  have hl : (stateWords d n).length = 4 := rfl
  have hword {k : Nat} (hk : k < 4) := stWord_entryStored (d := d) (n := n) (t := 0) (key := key) (v := v) hi hl hk
  refine ⟨rd_entryStored_cmd (by rw [hl, Reg.HSTATE]; omega), (hword (k := 0) (by decide)).trans (Nat.mod_eq_of_lt (harWdata_lt ..)),
    (hword (k := 1) (by decide)).trans (Nat.mod_eq_of_lt ((bits_lt _ _ _).trans (by decide))),
    (hword (k := 2) (by decide)).trans (Nat.mod_eq_of_lt (Nat.and_lt_two_pow _ (by decide))),
    fun j x hj hji hx => stWord_entryStored_other hn hl hj hji hx⟩

theorem transEntry_spec (hi : i < 2048) :
    let e := entryStored d n v 1 key (Reg.HTRANS n i 0) (transWords d n)
    rd e (Reg.HTRANS n i 0) = BitVec.ofNat 64 (harWdata d n 0 &&& 0x8003FFFFFFFFFFFF) ∧
      rd e (Reg.HTRANS n i 1) = BitVec.ofNat 64 (bits (harWdata d n 1) 0 40) := by
  have hl : (transWords d n).length = 2 := rfl
  have hword {k : Nat} (hk : k < 2) := rd_entryStored_word (d := d) (n := n) (t := 1) (key := key) (o := Reg.HTRANS n i 0) (v := v)
    (l := transWords d n) (by rw [Reg.HTRANS]; omega) (by rw [hl, Reg.HTRANS]; omega) hk
  exact ⟨hword (k := 0) (by decide), hword (k := 1) (by decide)⟩

theorem ruleEntry_spec (hi : i < 1024) :
    let e := entryStored d n v 2 key (Reg.HOLD_RULE n i 0) (ruleWords d n)
    rd e (Reg.HOLD_RULE n i 0) = BitVec.ofNat 64 (harWdata d n 0 &&& 0x803FFFFFFFFFFFFF) ∧
      rd e (Reg.HOLD_RULE n i 1) = BitVec.ofNat 64 (bits (harWdata d n 1) 0 44) := by
  have hl : (ruleWords d n).length = 2 := rfl
  have hword {k : Nat} (hk : k < 2) := rd_entryStored_word (d := d) (n := n) (t := 2) (key := key) (o := Reg.HOLD_RULE n i 0) (v := v)
    (l := ruleWords d n) (by rw [Reg.HOLD_RULE]; omega) (by rw [hl, Reg.HOLD_RULE]; omega) hk
  exact ⟨hword (k := 0) (by decide), hword (k := 1) (by decide)⟩

/-- A refused write leaves every state, and counts. -/
theorem stateRefused_spec (hn : n < 4) (off : Nat) (isl : List Nat) :
    let e := hostReject (harReject d n) agent off isl
    (∀ j x, j < 256 → x < 4 → stWord e n j x = stWord d n j x) ∧ rd e (Reg.HARROW_EVT n 19) = rd d (Reg.HARROW_EVT n 19) + 1 := by
  have hrd {x : Nat} (hx : x ≠ Reg.HOST_REJECT) : rd (hostReject (harReject d n) agent off isl) x = rd (harReject d n) x :=
    rd_hostReject_other _ _ _ _ hx
  refine ⟨fun j x hj hx => ?_, ?_⟩
  · rw [stWord, hrd (by simp only [Reg.HSTATE, Reg.HOST_REJECT]; omega), harReject,
      rd_harEvt_other _ (by simp only [Reg.HSTATE, Reg.HARROW_EVT]; omega), stWord]
  · rw [hrd (by simp only [Reg.HARROW_EVT, Reg.HOST_REJECT]; omega), harReject, rd_harEvt_same]

end

/-! HOLDING_OPEN (R132). -/

theorem isOwnReg_HOLDING_OPEN : ∀ n < 4, isOwnReg (Reg.HOLDING_OPEN n) (Reg.HOLDING_OPEN 0) n 0 = true := by decide +kernel

theorem regAt_HOLDING_OPEN : ∀ n < 4, (regAt (Reg.HOLDING_OPEN n)).map (fun p => p.1.flds) = some [⟨0, 64, .rwv, 0, 0xFFFFFFFFFFFFFFFF⟩] := by
  decide +kernel

/-- Every bit of the register is taken from the value written. -/
theorem stored_HOLDING_OPEN {n : Nat} (hn : n < 4) (d : Dev) (v : W64) : stored d (Reg.HOLDING_OPEN n) v = v := by
  obtain ⟨p, hp, hflds⟩ := Option.map_eq_some_iff.mp (regAt_HOLDING_OPEN n hn)
  rw [stored, hp]
  simp only [hflds]
  exact setF_whole _ v

theorem regWrite_HOLDING_OPEN {m : Mem} {d : Dev} {agent n : Nat} {v : W64} (hn : n < 4) (h : WriteReaches d agent (Reg.HOLDING_OPEN n) v)
    (hf : FieldsInRange (Reg.HOLDING_OPEN n) v) (hb : flagF d Reg.HOST_HOLDING_STATUS Reg.HOST_HOLDING_STATUS_BUSY = false) :
    regWrite agent (Reg.HOLDING_OPEN n) v m d =
      voterWrite (wr d (Reg.HOLDING_OPEN n) v) (Reg.HOLDING_OPEN 0) (Reg.HOLDING_OPEN n) ((islandsOf d (Reg.HOLDING_OPEN n) v).headD 0) := by
  have hblock : Reg.HOLDING_OPEN n / 0x100000 = 20 := by simp only [Reg.HOLDING_OPEN]; omega
  have hopen : openOk d n v = true := by simp [openOk, hb]
  rw [regWrite_own (isOwnReg_HOLDING_OPEN n hn) h hf, regEffect_harrowBlock hblock, effHarrow,
    if_neg (show Reg.HOLDING_OPEN 0 ≠ Reg.HARROW_WCMD 0 by decide), if_neg (show Reg.HOLDING_OPEN 0 ≠ Reg.PUNT_POLICER 0 by decide),
    if_neg (show Reg.HOLDING_OPEN 0 ≠ Reg.PUNT_CEILING by decide), if_pos rfl]
  simp only [storeIf, hopen, if_true, stored_HOLDING_OPEN hn]

/-! The commands. -/

theorem exec_harrowWriteState (s : State) (agent n : Nat) (v : W64) : exec (.harrowWriteState agent n v) s =
    .next (commit s (regWrite agent (Reg.HARROW_WCMD n) (setF v Reg.HARROW_WCMD_TABLE 0) s.mem s.dev)) := rfl

theorem exec_harrowWriteTrans (s : State) (agent n : Nat) (v : W64) : exec (.harrowWriteTrans agent n v) s =
    .next (commit s (regWrite agent (Reg.HARROW_WCMD n) (setF v Reg.HARROW_WCMD_TABLE 1) s.mem s.dev)) := rfl

theorem exec_harrowWriteHoldRule (s : State) (agent n : Nat) (v : W64) : exec (.harrowWriteHoldRule agent n v) s =
    .next (commit s (regWrite agent (Reg.HARROW_WCMD n) (setF v Reg.HARROW_WCMD_TABLE 2) s.mem s.dev)) := rfl

theorem exec_holdingOpenWrite (s : State) (agent n : Nat) (v : W64) : exec (.holdingOpenWrite agent n v) s =
    .next (commit s (regWrite agent (Reg.HOLDING_OPEN n) v s.mem s.dev)) := rfl

end Sys2Proof.Machine
end

section
/-!
PROOF. The punt policer and its buckets (R147 to R149).
-/
namespace Sys2Proof.Machine

/-! The policer (R147, R149). -/

theorem exec_puntPolicer (s : State) : exec .puntPolicer s = .next (commit s (puntPolicer s.dev)) := rfl

@[simp] theorem releaseFrame_har (d : Dev) (p : Pkt) : (releaseFrame d p).har = d.har := by
  obtain ⟨_, _, _, _, h⟩ := releaseFrame_shape d p
  rw [h]

/-- A punt that has been passed changes no queue of Harrow. -/
theorem ringEnqueue_har (d : Dev) (p : Pkt) : (ringEnqueue d p).har = d.har := by
  simp only [ringEnqueue]
  split
  · rw [releaseFrame_har, bumpSat_har]
  · rfl

theorem harDrop_har (d : Dev) (n k : Nat) (p : Pkt) : (harDrop d n k p).har = d.har := by rw [harDrop, releaseFrame_har, bump_har]

/-- The head of an acre's punt queue is taken. -/
def puntTaken (d : Dev) (a : Nat) (rest : List Pkt) : Dev :=
  { d with har := { d.har with puntQ := spPut (fun _ => []) d.har.puntQ a rest } }

theorem policeOne_empty {d : Dev} {a : Nat} (h : spGet (fun _ => []) d.har.puntQ a = []) : policeOne d a = d := by rw [policeOne, h]

section
variable {d : Dev} {a : Nat} {p : Pkt} {rest : List Pkt} (hq : spGet (fun _ => []) d.har.puntQ a = p :: rest)
  (h3 : pcGet p Pc.puntReason ≠ 3) (h4 : pcGet p Pc.puntReason ≠ 4)
include hq h3 h4

/-- A punt of an open holding needs a token of its reason and one of the ceiling. -/
theorem policeOne_open : policeOne d a =
    if ¬ hasToken d (pcGet p Pc.puntReason) then harDrop (bump (puntTaken d a rest) (Reg.PUNT_CNT (pcGet p Pc.puntReason) 1)) a 4 p
    else if ¬ hasToken d 256 then harDrop (bump (puntTaken d a rest) (Reg.PUNT_CNT (pcGet p Pc.puntReason) 1)) a 5 p
    else ringEnqueue (bump (takeToken (takeToken (puntTaken d a rest) (pcGet p Pc.puntReason)) 256) (Reg.PUNT_CNT (pcGet p Pc.puntReason) 0)) p := by
  have hopen : (pcGet p Pc.puntReason == 3 || pcGet p Pc.puntReason == 4) = false := by simp [h3, h4]
  simp only [policeOne, hq, hopen, Bool.false_eq_true, false_and, if_false]
  rfl

end

/-- The punt queues of the acres behind acre 0 are empty. -/
def OnlyAcre0 (d : Dev) : Prop := ∀ a, 0 < a → a < 4 → spGet (fun _ => []) d.har.puntQ a = []

/-- Where only acre 0 has punts, the cycle is that of its head. -/
theorem puntPolicer_acre0 {d e : Dev} (h : policeOne d 0 = e) (hq : OnlyAcre0 e) : puntPolicer d = e := by
  have hrange : List.range 4 = [0, 1, 2, 3] := rfl
  rw [puntPolicer, hrange, List.foldl_cons, h, List.foldl_cons, policeOne_empty (hq 1 (by decide) (by decide)), List.foldl_cons,
    policeOne_empty (hq 2 (by decide) (by decide)), List.foldl_cons, policeOne_empty (hq 3 (by decide) (by decide)), List.foldl_nil]

theorem onlyAcre0_of_har {d e : Dev} {rest : List Pkt} (hd : OnlyAcre0 d)
    (h : e.har.puntQ = spPut (fun _ => []) d.har.puntQ 0 rest) : OnlyAcre0 e := by
  intro a ha h4
  rw [h, spGet_spPut_other _ _ _ (Nat.ne_of_gt ha)]
  exact hd a ha h4

section
variable {d : Dev} {p : Pkt} {rest : List Pkt} (hq : spGet (fun _ => []) d.har.puntQ 0 = p :: rest) (hd : OnlyAcre0 d)
  (h3 : pcGet p Pc.puntReason ≠ 3) (h4 : pcGet p Pc.puntReason ≠ 4)
include hq hd h3 h4

theorem puntPolicer_passes (hr : hasToken d (pcGet p Pc.puntReason) = true) (hc : hasToken d 256 = true) : puntPolicer d =
    ringEnqueue (bump (takeToken (takeToken (puntTaken d 0 rest) (pcGet p Pc.puntReason)) 256) (Reg.PUNT_CNT (pcGet p Pc.puntReason) 0)) p := by
  refine puntPolicer_acre0 ?_ (onlyAcre0_of_har (rest := rest) hd ?_)
  · rw [policeOne_open hq h3 h4, if_neg (not_not_intro hr), if_neg (not_not_intro hc)]
  · rw [ringEnqueue_har, bump_har]
    rfl

theorem puntPolicer_drops (hr : hasToken d (pcGet p Pc.puntReason) = false) : puntPolicer d =
    harDrop (bump (puntTaken d 0 rest) (Reg.PUNT_CNT (pcGet p Pc.puntReason) 1)) 0 4 p := by
  refine puntPolicer_acre0 ?_ (onlyAcre0_of_har (rest := rest) hd ?_)
  · rw [policeOne_open hq h3 h4, if_pos (ne_true_of_eq_false hr)]
  · rw [harDrop_har, bump_har]
    rfl

end

/-! The refill (R148). -/

theorem exec_bucketRefill (s : State) : exec .bucketRefill s = .next (commit s (bucketRefill s.dev)) := rfl

@[simp] theorem tokens_commit (s : State) (d : Dev) (k : Nat) : tokens (commit s d).dev k = tokens d k := rfl

/-- The tokens of a bucket after a microsecond. -/
def refilled (d : Dev) (k : Nat) : Nat := min (bucketBurst d k * 2 ^ 20) (tokens d k + bucketRate d k * 2 ^ 20 / 1000000)

theorem bucketRefill_eq_foldl (d : Dev) : bucketRefill d = allBuckets.foldl (fun d k => setTokens d k (refilled d k)) d := rfl

theorem tokens_setTokens_same (d : Dev) (k x : Nat) : tokens (setTokens d k x) k = x := spGet_spPut_same ..
theorem tokens_setTokens_other (d : Dev) {k j : Nat} (x : Nat) (h : j ≠ k) : tokens (setTokens d k x) j = tokens d j :=
  spGet_spPut_other _ _ _ h

/-- The configuration of a bucket is in registers. -/
theorem refilled_setTokens_other (d : Dev) {k j : Nat} (x : Nat) (h : j ≠ k) : refilled (setTokens d k x) j = refilled d j := by
  have hburst : bucketBurst (setTokens d k x) j = bucketBurst d j := rfl
  have hrate : bucketRate (setTokens d k x) j = bucketRate d j := rfl
  rw [refilled, refilled, hburst, hrate, tokens_setTokens_other d x h]

theorem allBuckets_nodup : allBuckets.Nodup := by
  refine List.nodup_append'.mpr ⟨List.nodup_range, List.nodup_range.map (add_right_injective 512), ?_⟩
  intro k hk hport
  obtain ⟨j, -, rfl⟩ := List.mem_map.mp hport
  have := List.mem_range.mp hk
  omega

theorem tokens_bucketRefill (d : Dev) {k : Nat} (hk : k < 258) : tokens (bucketRefill d) k = refilled d k := by
  rw [bucketRefill_eq_foldl]
  exact foldl_visited (get := tokens) (new := refilled) (fun d k j h => tokens_setTokens_other d _ h) (fun d k => tokens_setTokens_same ..)
    (fun d k j h => refilled_setTokens_other d _ h) allBuckets_nodup (List.mem_append_left _ (List.mem_range.mpr hk)) d

end Sys2Proof.Machine
end

section
/-!
PROOF. O51, from the lemmas above.
-/
namespace Sys2Proof
open Machine

/-- Settles O51: a parse cycle takes the head of the first rank that has one, the walk keeps its cursor in the window and the frame, the sweep and the
refill visit each way and each bucket once, a reparse and a policer's cycle are those of the queue's head, and a command stores the words of
one entry or counts as refused. -/
theorem harrowActions : Obligations.HarrowActions := by
  unfold Obligations.HarrowActions
  refine ⟨?parse, ?walk, ?settle, ?expiry, ?sweep, ?reparse, ?entries, ?holdings, ?policer, ?refill⟩
  case parse =>
    rintro s n c hup rfl
    refine ⟨fun r hb => ?_, fun hb => ⟨fun p t hq hf => ?_, fun p t d hf hq hd => ?_, fun p t hf h3 hq => ?_⟩⟩
    · rw [exec_harrowParse, harrowParse_reparse hup (by rw [hb]; rfl)]
    · rw [exec_harrowParse, harrowParse_released hup hb hf hq]
    · rw [exec_harrowParse, harrowParse_injected hup hb hf hq, hd]
    · rw [exec_harrowParse, harrowParse_received hup hb hf h3 hq]
  case walk =>
    intro d n start p
    obtain ⟨hwin, hframe⟩ := walk_within d n start p
    exact ⟨hwin, hframe, fun h => walk_invalidStart h p⟩
  case settle =>
    refine fun d n p k h act arg first => ⟨fun hp ho => ?_, fun ho => ⟨?_, ?_, ?_, ?_⟩⟩
    · rw [harSettle_closed hp ho]
      by_cases h1 : k.cls = 1
      · rw [if_pos h1, if_pos (.inl h1), h1, harPunt]
      · by_cases h2 : k.cls = 2
        · rw [if_neg h1, if_pos h2, if_pos (.inr h2), h2, harPunt]
        · rw [if_neg h1, if_neg h2, if_neg (not_or.mpr ⟨h1, h2⟩), harDrop]
    · exact harSettle_drop ho arg first
    · exact harSettle_punt ho arg first
    · exact harSettle_noRule ho arg first
    · rintro he rfl
      exact harSettle_admit ho he arg
  case expiry =>
    intro s n k e _ he
    refine ⟨_, exec_fragWaitExpiry s n k, ?_, ?_, ?_⟩
    · rw [heldQ_commit, fragWaitExpiry_held he, heldQ_harEvt, heldQ_fragRelease, heldQ_setHeldQ_same]
    · rw [inQ_commit, fragWaitExpiry_held he, inQ_harEvt, inQ_fragRelease_one, inQ_setHeldQ]
    · rw [rd_commit, fragWaitExpiry_held he, rd_harEvt_same, rd_fragRelease, rd_setHeldQ]
  case sweep =>
    intro s n b _
    refine ⟨_, exec_fragmentSweep s n b, fun w hw => ?_⟩
    rw [getFrag_commit, getFrag_fragSweep n b s.dev hw, fragSwept]
  case reparse =>
    intro s n l rest p hb hp hl
    refine ⟨fun hlate => ?_, fun hdue hq _ => ?_⟩
    · rw [exec_reparse, reparse_next hb, reparsePkt_late (d := setBackQ s.dev n rest) hp hl hlate]
    · obtain ⟨e, k, hret, hhar⟩ := reparsePkt_returns (d := setBackQ s.dev n rest) hp hl hdue hq
      obtain ⟨hloc, hedits, hedata, hframe⟩ := reparsed_spec p k
      refine ⟨_, reparsed p k, (exec_reparse s n).trans (by rw [reparse_next hb, hret]), ?_, hloc, hedits, hedata, hframe, ?_, ?_,
        pcGet_reparsed_flowHash p k⟩
      · rw [getPkt_commit, getPkt_putPkt_same]
      · rw [commit_har, putPkt_har, putFur_har, hhar, backQ_setBackQ_same]
      · rw [getFur_commit, getFur_putPkt_same, getFur_putFur_same]
        rfl
  case entries =>
    rintro s agent n v i w hn rfl rfl hreach
    refine ⟨fun hi h1 h2 h3 => ⟨_, exec_harrowWriteState s agent n v, ?_⟩, fun hi h1 => ⟨_, exec_harrowWriteTrans s agent n v, ?_⟩,
      fun hi h1 => ⟨_, exec_harrowWriteHoldRule s agent n v, ?_⟩, fun hbad => ⟨_, exec_harrowWriteState s agent n v, ?_⟩⟩
    · have hgood : ¬ StateBad s.dev n (getF v Reg.HARROW_WCMD_INDEX) := by
        rintro (h | h | h | h)
        exacts [absurd hi (Nat.not_lt.mpr h), h1 h, h2 h, h3 h]
      simp only [rd_commit, stWord_commit, regWrite_state hn rfl (hreach 0 (by decide)) hgood]
      exact stateEntry_spec hn hi
    · simp only [rd_commit, regWrite_trans hn rfl (hreach 1 (by decide)) hi h1]
      exact transEntry_spec hi
    · simp only [rd_commit, regWrite_holdRule hn rfl (hreach 2 (by decide)) hi h1]
      exact ruleEntry_spec hi
    · simp only [rd_commit, stWord_commit, regWrite_stateBad hn rfl (hreach 0 (by decide)) hbad]
      exact stateRefused_spec hn _ _
  case holdings =>
    intro s agent n v hn hreach hrange hbusy
    refine ⟨_, exec_holdingOpenWrite s agent n v, ?_⟩
    rw [rd_commit, regWrite_HOLDING_OPEN hn hreach hrange hbusy, rd_voterWrite _ _ _ _ (by simp only [Reg.HOLDING_OPEN, Reg.FAULT_INJECT]; omega),
      rd_wr_same]
  case policer =>
    intro s p rest hq hothers h3 h4
    refine ⟨fun hr hc => ?_, fun hr => ?_⟩
    · rw [exec_puntPolicer, puntPolicer_passes hq hothers h3 h4 hr hc, puntTaken]
    · rw [exec_puntPolicer, puntPolicer_drops hq hothers h3 h4 hr, harDrop, puntTaken]
  case refill =>
    refine fun s => ⟨_, exec_bucketRefill s, fun k hk => ?_⟩
    rw [tokens_commit, tokens_bucketRefill s.dev hk, refilled]

end Sys2Proof
end

section
/-!
PROOF. Orchard's units: where the units of a table lie (R157), what a unit reads after a write of a unit, and the fields of an entry (R155).
-/
namespace Sys2Proof.Machine

/-! Bits of a number that a field is written into. -/

theorem bits_setBits_same (x lo w v : Nat) : bits (setBits x lo w v) lo w = v % 2 ^ w := by
  apply Nat.eq_of_testBit_eq
  intro i
  rw [testBit_bits, testBit_setBits, Nat.testBit_mod_two_pow]
  by_cases hi : i < w
  · rw [if_pos (by omega), Nat.add_sub_cancel_left]
  · simp only [hi, decide_false, Bool.false_and]

theorem bits_setBits_other (x v : Nat) {lo w lo' w' : Nat} (h : lo' + w' ≤ lo ∨ lo + w ≤ lo') :
    bits (setBits x lo w v) lo' w' = bits x lo' w' := by
  apply Nat.eq_of_testBit_eq
  intro i
  rw [testBit_bits, testBit_bits, testBit_setBits]
  by_cases hi : i < w'
  · rw [if_neg (by omega)]
  · simp only [hi, decide_false, Bool.false_and]

theorem setBits_lt {x n lo w : Nat} (v : Nat) (hx : x < 2 ^ n) (h : lo + w ≤ n) : setBits x lo w v < 2 ^ n := by
  refine Nat.lt_pow_two_of_testBit _ fun i hi => ?_
  rw [testBit_setBits, if_neg (by omega)]
  exact Nat.testBit_lt_two_pow (Nat.lt_of_lt_of_le hx (Nat.pow_le_pow_right (by decide) hi))

theorem bits_mod {lo w n : Nat} (h : lo + w ≤ n) (x : Nat) : bits (x % 2 ^ n) lo w = bits x lo w := by
  apply Nat.eq_of_testBit_eq
  intro i
  rw [testBit_bits, testBit_bits, Nat.testBit_mod_two_pow]
  by_cases hi : i < w
  · rw [decide_eq_true (show lo + i < n by omega), Bool.true_and]
  · simp only [hi, decide_false, Bool.false_and]

/-! Where a unit lies (R157). -/

/-- The kinds that ORCHARD_CMD works on, each with units that do not overlap: an LPM4 table is not WIDE. -/
def Tbl.Placed (b : Tbl) : Prop := b.kind ∈ [1, 2, 3, 5, 6] ∧ (b.kind = 2 → b.wide = false)

/-- Two lanes of a row, of w bits each, do not overlap. -/
def LanesApart (w lo lo' : Nat) : Prop := lo' + w ≤ lo ∨ lo + w ≤ lo'

/-- Different lanes that begin at multiples of a stride do not overlap. -/
theorem lanesApart_of_stride {w s m n : Nat} (hw : w ≤ s) (h : m ≠ n) : LanesApart w (s * m) (s * n) := by
  obtain hlt | hlt := Nat.lt_or_gt_of_ne h
  · exact .inr (Nat.le_trans (Nat.add_le_add_left hw _) (Nat.mul_succ s m ▸ Nat.mul_le_mul_left s hlt))
  · exact .inl (Nat.le_trans (Nat.add_le_add_left hw _) (Nat.mul_succ s n ▸ Nat.mul_le_mul_left s hlt))

/-- A block number gives the half that it lies in, and its place in the half. -/
theorem eq_of_mul_add_mod {n x x' y y' : Nat} (hn : 0 < n) (h : x * n + y % n = x' * n + y' % n) : x = x' ∧ y % n = y' % n := by
  have hx : x = x' := by
    have hdiv := congrArg (· / n) h
    simpa only [Nat.mul_comm _ n, Nat.mul_add_div hn, Nat.div_eq_of_lt (Nat.mod_lt _ hn), Nat.add_zero] using hdiv
  exact ⟨hx, by rw [hx] at h; exact Nat.add_left_cancel h⟩

/-- The place of a unit of a striped table: n blocks with m lanes of stride s in a row. -/
def stripe (base n m s i : Nat) : Nat × Nat × Nat := (base + i / m % n, i / m / n, s * (i % m))

theorem stripe_row_lt {base n m s i : Nat} (hi : i < m * (n * 1024)) : (stripe base n m s i).2.1 < 1024 :=
  Nat.div_lt_of_lt_mul (Nat.div_lt_of_lt_mul hi)

theorem stripe_lanesApart {base n m s w i j : Nat} (hw : w ≤ s) (hne : j ≠ i) (hblk : (stripe base n m s j).1 = (stripe base n m s i).1)
    (hrow : (stripe base n m s j).2.1 = (stripe base n m s i).2.1) : LanesApart w (stripe base n m s i).2.2 (stripe base n m s j).2.2 := by
  have hgroup : j / m = i / m := Nat.ext_div_mod hrow (Nat.add_left_cancel hblk)
  exact lanesApart_of_stride hw fun hlane => hne (Nat.ext_div_mod hgroup hlane.symm)

section
variable {b : Tbl} {i j : Nat}

theorem Tbl.place_lpm4 (h : b.kind = 2) : b.place i = stripe b.base b.nblk 4 192 i := by simp [Tbl.place, h, stripe]
theorem Tbl.place_lpm6 (h : b.kind = 3) : b.place i = stripe b.base b.nblk 2 384 i := by simp [Tbl.place, h, stripe]
theorem Tbl.place_array (h : b.kind = 5) : b.place i = stripe b.base b.nblk 12 64 i := by simp [Tbl.place, h, stripe]
theorem Tbl.place_count (h : b.kind = 6) : b.place i = stripe b.base b.nblk 6 128 i := by simp [Tbl.place, h, stripe]

/-- An EXACT table: bucket k of a half lies in block k mod nh of it, in one row, or in two rows when its entries are WIDE. -/
theorem Tbl.place_exact (h : b.kind = 1) : b.place i =
    (b.base + i / 4 / b.nb * b.nh + i / 4 % b.nb % b.nh,
      if b.wide then 2 * (i / 4 % b.nb / b.nh) + i % 4 / 2 else i / 4 % b.nb / b.nh,
      if b.wide then 384 * (i % 4 % 2) else 192 * (i % 4)) := by
  cases hw : b.wide <;> simp [Tbl.place, h, hw]

theorem Tbl.exact_row_lt (h : b.kind = 1) (hi : i < b.size) : (b.place i).2.1 < 1024 := by
  have hnb : 0 < b.nb := by
    rw [Tbl.size, if_pos h] at hi
    omega
  have hk : i / 4 % b.nb < b.nb := Nat.mod_lt _ hnb
  have hnbEq : b.nb = b.nh * (if b.wide then 512 else 1024) := by rw [Tbl.nb, if_pos h]
  rw [Tbl.place_exact h]
  cases hw : b.wide with
  | true =>
    have hrow : i / 4 % b.nb / b.nh < 512 := Nat.div_lt_of_lt_mul (by rw [hw] at hnbEq; exact Nat.lt_of_lt_of_eq hk hnbEq)
    simp only [if_true]
    omega
  | false =>
    exact Nat.div_lt_of_lt_mul (by rw [hw] at hnbEq; exact Nat.lt_of_lt_of_eq hk hnbEq)

/-- In an EXACT table, block and row give the bucket; in a WIDE one the row gives half of the bucket's ways as well. -/
theorem Tbl.exact_lanesApart (h : b.kind = 1) (hi : i < b.size) (hne : j ≠ i) (hblk : (b.place j).1 = (b.place i).1)
    (hrow : (b.place j).2.1 = (b.place i).2.1) : LanesApart b.uw (b.place i).2.2 (b.place j).2.2 := by
  have hnh : 0 < b.nh := by
    rw [Tbl.size, if_pos h, Tbl.nb, if_pos h] at hi
    exact Nat.pos_of_ne_zero fun h0 => by rw [h0, Nat.zero_mul, Nat.mul_zero] at hi; exact Nat.not_lt_zero _ hi
  rw [Tbl.place_exact h, Tbl.place_exact h] at hblk hrow ⊢
  have hblk' : i / 4 / b.nb * b.nh + i / 4 % b.nb % b.nh = j / 4 / b.nb * b.nh + j / 4 % b.nb % b.nh := by
    dsimp only at hblk
    omega
  obtain ⟨hhalf, hcol⟩ := eq_of_mul_add_mod hnh hblk'
  have hbucket (hr : i / 4 % b.nb / b.nh = j / 4 % b.nb / b.nh) : j / 4 = i / 4 :=
    (Nat.ext_div_mod hhalf (Nat.ext_div_mod hr hcol)).symm
  cases hw : b.wide with
  | true =>
    have huw : b.uw = 384 := by simp [Tbl.uw, h, hw]
    simp only [hw, if_true] at hrow ⊢
    have hway : j / 4 = i / 4 := hbucket (by omega)
    exact lanesApart_of_stride (by omega) (by omega)
  | false =>
    have huw : b.uw = 192 := by simp [Tbl.uw, h, hw]
    simp only [hw, Bool.false_eq_true, if_false] at hrow ⊢
    have hway : j / 4 = i / 4 := hbucket hrow.symm
    exact lanesApart_of_stride (by omega) (by omega)

theorem Tbl.Placed.row_lt (hb : b.Placed) (hi : i < b.size) : (b.place i).2.1 < 1024 := by
  obtain ⟨hk, -⟩ := hb
  simp only [List.mem_cons, List.not_mem_nil, or_false] at hk
  rcases hk with hk | hk | hk | hk | hk
  · exact Tbl.exact_row_lt hk hi
  · rw [Tbl.place_lpm4 hk]
    refine stripe_row_lt (Nat.lt_of_lt_of_eq hi ?_)
    simp [Tbl.size, Tbl.nb, hk]
  · rw [Tbl.place_lpm6 hk]
    refine stripe_row_lt (Nat.lt_of_lt_of_eq hi ?_)
    simp [Tbl.size, Tbl.nb, hk]
  · rw [Tbl.place_array hk]
    have hsize : b.size = b.nblk * 12288 := by simp [Tbl.size, hk]
    exact stripe_row_lt (by omega)
  · rw [Tbl.place_count hk]
    have hsize : b.size = b.nblk * 6144 := by simp [Tbl.size, hk]
    exact stripe_row_lt (by omega)

theorem Tbl.Placed.lanesApart (hb : b.Placed) (hi : i < b.size) (hne : j ≠ i) (hblk : (b.place j).1 = (b.place i).1)
    (hrow : (b.place j).2.1 = (b.place i).2.1) : LanesApart b.uw (b.place i).2.2 (b.place j).2.2 := by
  obtain ⟨hk, hw⟩ := hb
  simp only [List.mem_cons, List.not_mem_nil, or_false] at hk
  rcases hk with hk | hk | hk | hk | hk
  · exact Tbl.exact_lanesApart hk hi hne hblk hrow
  · have huw : b.uw ≤ 192 := by simp [Tbl.uw, hk, hw hk]
    rw [Tbl.place_lpm4 hk, Tbl.place_lpm4 hk] at *
    exact stripe_lanesApart huw hne hblk hrow
  · have huw : b.uw ≤ 384 := by cases hwide : b.wide <;> simp [Tbl.uw, hk, hwide]
    rw [Tbl.place_lpm6 hk, Tbl.place_lpm6 hk] at *
    exact stripe_lanesApart huw hne hblk hrow
  · have huw : b.uw ≤ 64 := by simp [Tbl.uw, hk]
    rw [Tbl.place_array hk, Tbl.place_array hk] at *
    exact stripe_lanesApart huw hne hblk hrow
  · have huw : b.uw ≤ 128 := by simp [Tbl.uw, hk]
    rw [Tbl.place_count hk, Tbl.place_count hk] at *
    exact stripe_lanesApart huw hne hblk hrow

end

/-! What a write of a unit leaves. -/

section
variable (d : Dev) (b : Tbl) (i v : Nat)

theorem readUnit_row (hi : i < stashBase) :
    readUnit d b i = bits (getRow d (b.place i).1 (b.place i).2.1) (b.place i).2.2 b.uw := if_neg (by omega)

/-- The device with the row of a unit replaced. -/
theorem writeUnit_row (hi : i < stashBase) : writeUnit d b i v = (quarters b i).foldl
    (quarterWrite (256 * 4 + blkInst (b.place i).1) (unitWords b i)) (putRow d (b.place i).1 (b.place i).2.1
      (setBits (getRow d (b.place i).1 (b.place i).2.1) (b.place i).2.2 b.uw v)) := if_neg (by omega)

theorem rows_writeUnit (hi : i < stashBase) : (writeUnit d b i v).orch.rows =
    spPut (fun _ => 0) d.orch.rows ((b.place i).1 * 1024 + (b.place i).2.1)
      (setBits (getRow d (b.place i).1 (b.place i).2.1) (b.place i).2.2 b.uw v) := by
  rw [writeUnit_row d b i v hi]
  refine List.foldlRecOn (motive := fun x : Dev => x.orch.rows = _) _ _ rfl fun x hx q _ => ?_
  obtain ⟨hl, hq⟩ := quarterWrite_orch (256 * 4 + blkInst (b.place i).1) (unitWords b i) x q
  rw [hq]
  exact hx

/-- The unit reads what was written, cut to its width in a row. -/
theorem readUnit_writeUnit_same : readUnit (writeUnit d b i v) b i = if stashBase ≤ i then v else v % 2 ^ b.uw := by
  split
  · rename_i hi
    rw [writeUnit_stashUnit hi, readUnit, if_pos hi]
    exact spGet_spPut_same ..
  · rename_i hi
    rw [readUnit_row _ _ _ (by omega), getRow, rows_writeUnit d b i v (by omega), spGet_spPut_same, bits_setBits_same]

theorem readUnit_writeUnit_of_lt {v : Nat} (hv : v < 2 ^ b.uw) : readUnit (writeUnit d b i v) b i = v := by
  rw [readUnit_writeUnit_same, Nat.mod_eq_of_lt hv, ite_self]

theorem bits_readUnit_writeUnit {lo w : Nat} (h : lo + w ≤ b.uw) : bits (readUnit (writeUnit d b i v) b i) lo w = bits v lo w := by
  rw [readUnit_writeUnit_same]
  split
  · rfl
  · exact bits_mod h v

/-- The table's other units stand. -/
theorem readUnit_writeUnit_other {b : Tbl} {i : Nat} (hb : b.Placed) (hs : b.size ≤ stashBase) (hi : i < b.size) {j : Nat} (hj : j < b.size)
    (hne : j ≠ i) : readUnit (writeUnit d b i v) b j = readUnit d b j := by
  have hrow := hb.row_lt hi
  have hrow' := hb.row_lt hj
  rw [readUnit_row _ _ _ (by omega), readUnit_row _ _ _ (by omega), getRow, rows_writeUnit d b i v (by omega), spGet_spPut]
  split
  · rename_i hkey
    have hblk : (b.place j).1 = (b.place i).1 := by omega
    have hrows : (b.place j).2.1 = (b.place i).2.1 := by omega
    rw [bits_setBits_other _ _ (hb.lanesApart hi hne hblk hrows), getRow, getRow, hkey]
  · rfl

theorem hitBit_writeUnit (t j : Nat) : hitBit (writeUnit d b i v) t j = hitBit d t j := by
  rw [hitBit, hitBit]
  obtain hi | hi := Nat.lt_or_ge i stashBase
  · obtain ⟨rows, hl, h⟩ := writeUnit_orch (d := d) (b := b) hi v
    rw [h]
  · rw [writeUnit_stashUnit hi]
    rfl

end

/-- Device time and every register but FAULT_INJECT stand. -/
def ClockStands (d e : Dev) : Prop := e.time = d.time ∧ ∀ o, o ≠ Reg.FAULT_INJECT → rd e o = rd d o

theorem ClockStands.trans {d e f : Dev} (h : ClockStands d e) (h' : ClockStands e f) : ClockStands d f :=
  ⟨h'.1.trans h.1, fun o ho => (h'.2 o ho).trans (h.2 o ho)⟩

theorem ClockStands.foldl {α : Type} {f : Dev → α → Dev} (hf : ∀ e x, ClockStands e (f e x)) (l : List α) (d : Dev) :
    ClockStands d (l.foldl f d) :=
  List.foldlRecOn l f ⟨rfl, fun _ _ => rfl⟩ fun _ h x _ => h.trans (hf _ x)

theorem clockStands_injectAt (d : Dev) (c src a : Nat) : ClockStands d (injectAt d c src a).2 := by
  obtain ⟨re, fl, h, hr⟩ := injectAt_shape d c src a
  rw [h]
  exact ⟨rfl, hr⟩

theorem clockStands_setHealed (d : Dev) (w v : Nat) : ClockStands d (setHealed d w v) := ⟨rfl, fun _ _ => rfl⟩

/-- The write of a quarter's check bits passes no time, and an injection into it is done with in FAULT_INJECT. -/
theorem clockStands_quarterWrite (src : Nat) (ws : List Nat) (d : Dev) (q : Nat) : ClockStands d (quarterWrite src ws d q) := by
  have hinj := clockStands_injectAt d 0 src 0
  rw [quarterWrite]
  dsimp only
  split
  · split
    · exact hinj.trans (.foldl (fun e w => clockStands_setHealed e w 1) _ _)
    · exact hinj
  · exact ClockStands.trans (e := eccWrite d .table q src 0) hinj (.foldl (fun e w => clockStands_setHealed e w 0) _ _)

theorem clockStands_writeUnit (d : Dev) (b : Tbl) (i v : Nat) : ClockStands d (writeUnit d b i v) := by
  obtain hi | hi := Nat.lt_or_ge i stashBase
  · rw [writeUnit_row d b i v hi]
    exact ClockStands.trans (e := putRow d _ _ _) ⟨rfl, fun _ _ => rfl⟩ (.foldl (fun e q => clockStands_quarterWrite _ _ e q) _ _)
  · rw [writeUnit_stashUnit hi]
    exact ⟨rfl, fun _ _ => rfl⟩

theorem ClockStands.rdF {d e : Dev} (h : ClockStands d e) {o : Nat} (ho : o ≠ Reg.FAULT_INJECT) (f : Fld) : rdF e o f = rdF d o f :=
  rdF_congr (h.2 o ho) f

theorem ClockStands.nowTick {d e : Dev} (h : ClockStands d e) : nowTick e = nowTick d := by
  rw [Machine.nowTick, Machine.nowTick, h.1, h.rdF (by decide)]

/-! What the tables read depends on Orchard's memories and on check bits alone. -/

theorem readUnit_of_orch {d e : Dev} (h : e.orch = d.orch) (b : Tbl) (i : Nat) : readUnit e b i = readUnit d b i :=
  readUnit_congr (by rw [h]) (by rw [h]) i

section
variable {d e : Dev} (h : e.orch = d.orch) (hu : e.upset = d.upset) (b : Tbl)
include h hu

theorem unitBad_congr (i : Nat) : unitBad e b i = unitBad d b i := by
  have hword : wordBad e = wordBad d := funext fun w => by rw [wordBad, wordBad, ecc_congr hu, h]
  rw [unitBad, unitBad, hword]

theorem unitHas_congr (key : Nat) : unitHas e b key = unitHas d b key :=
  funext fun i => by rw [unitHas, unitHas, unitBad_congr h hu, readUnit_of_orch h]

theorem exactFind_congr (key : Nat) : exactFind e b key = exactFind d b key := by
  rw [exactFind, exactFind, unitHas_congr h hu, stashIdx_congr (d := d) (e := e) (by rw [h])]

theorem exactLookup_congr (key : Nat) : exactLookup e b key = exactLookup d b key := by
  have hreadable (l : List Nat) : readable e b l = readable d b l := by
    rw [readable, readable, funext (unitBad_congr h hu b)]
  rw [exactLookup, exactLookup, unitHas_congr h hu, stashIdx_congr (d := d) (e := e) (by rw [h]), hreadable, hreadable]

theorem homeBad_congr (key : Nat) : homeBad e b key = homeBad d b key := by
  rw [homeBad, homeBad, funext (unitBad_congr h hu b)]

theorem freeWay_congr (l : List Nat) : freeWay e b l = freeWay d b l := by
  simp only [freeWay, unitBad_congr h hu, readUnit_of_orch h]

end

theorem hitBit_setHit_zero (d : Dev) (t i : Nat) : hitBit (setHit d t i 0) t i = false := by
  rw [hitBit, setHit, spGet_spPut_same]
  rfl

theorem readUnit_setHit (d : Dev) (b : Tbl) (t i v j : Nat) : readUnit (setHit d t i v) b j = readUnit d b j := readUnit_congr rfl rfl j

/-! The fields of an entry (R155). -/

section
variable (b : Tbl) (e v : Nat) {lo w : Nat}

theorem eMeta_eSet_other {lo' w' : Nat} (h : lo' + w' ≤ lo ∨ lo + w ≤ lo') : eMeta b (eSet b e lo w v) lo' w' = eMeta b e lo' w' :=
  bits_setBits_other _ _ (by omega)

theorem eAction_eSet (h : 64 ≤ lo) : eAction (eSet b e lo w v) = eAction e := bits_setBits_other _ _ (by omega)

/-- The meta fields stand above the key. -/
theorem eKey_eSet (h : 160 ≤ lo) : eKey b (eSet b e lo w v) = eKey b e := by
  refine bits_setBits_other _ _ (.inl ?_)
  cases hw : b.wide <;> simp only [keyW, hw, if_true, Bool.false_eq_true, if_false] <;> omega

theorem eAction_setBits_action : eAction (setBits e 0 64 v) = v % 2 ^ 64 := bits_setBits_same ..

theorem eKey_setBits_action : eKey b (setBits e 0 64 v) = eKey b e := bits_setBits_other _ _ (.inr (by decide))

/-- An entry whose VALID is cleared is invalid as its unit reads. -/
theorem eValid_readUnit_cleared (d : Dev) (i : Nat) : eValid b (readUnit (writeUnit d b i (eSet b e 191 1 0)) b i) = false := by
  have hclear : ∀ x : Nat, x.testBit (191 + if b.wide then 192 else 0) = false → eValid b x = false := by
    intro x hx
    rw [eValid, eMeta, bits, pow_one, ← Nat.toNat_testBit, hx]
    rfl
  have hbit : (eSet b e 191 1 0).testBit (191 + if b.wide then 192 else 0) = false := by
    rw [eSet, testBit_setBits, if_pos (by omega), Nat.zero_testBit]
  refine hclear _ ?_
  rw [readUnit_writeUnit_same]
  split
  · exact hbit
  · rw [Nat.testBit_mod_two_pow, hbit, Bool.and_false]

end

section
variable {b : Tbl} {e lo w : Nat}

theorem eSet_lt {n : Nat} (v : Nat) (he : e < 2 ^ n) (h : lo + (if b.wide then 192 else 0) + w ≤ n) : eSet b e lo w v < 2 ^ n := setBits_lt v he h

section
variable (hk : b.kind ≤ 3)
include hk

/-- A unit of an EXACT or LPM table is as wide as its entries. -/
theorem uw_entry : b.uw = 192 + if b.wide then 192 else 0 := by
  rw [Tbl.uw, if_neg (by omega), if_neg (by omega)]
  split <;> rfl

theorem eSet_lt_uw (v : Nat) (he : e < 2 ^ b.uw) (h : lo + w ≤ 192) : eSet b e lo w v < 2 ^ b.uw :=
  eSet_lt v he (by rw [uw_entry hk]; omega)

theorem key_le_uw : 64 + keyW b ≤ b.uw := by
  rw [uw_entry hk, keyW]
  split <;> omega

theorem mkEntry_lt_uw (ty key action : Nat) : mkEntry b ty key action < 2 ^ b.uw := by
  have haction : 0 + 64 ≤ b.uw := Nat.le_trans (by omega) (key_le_uw hk)
  exact eSet_lt_uw hk _ (eSet_lt_uw hk _ (setBits_lt _ (setBits_lt _ (Nat.two_pow_pos _) (key_le_uw hk)) haction) (by decide)) (by decide)

end
end

end Sys2Proof.Machine
end

section
/-!
PROOF. ORCHARD_CMD (R187): the path of a command to its operation, how a command begins and ends, and what each operation does to its table.
-/
namespace Sys2Proof.Machine

/-! The command as its register holds it. -/

theorem isOwnReg_ORCHARD_CMD : isOwnReg Reg.ORCHARD_CMD Reg.ORCHARD_CMD 0 0 = true := by decide +kernel

/-- Every field of ORCHARD_CMD is taken from the value written. -/
theorem stored_ORCHARD_CMD (d : Dev) (v : W64) : stored d Reg.ORCHARD_CMD v =
    setF (setF (setF (setF (rd d Reg.ORCHARD_CMD) Reg.ORCHARD_CMD_STASH (getF v Reg.ORCHARD_CMD_STASH))
      Reg.ORCHARD_CMD_INDEX (getF v Reg.ORCHARD_CMD_INDEX)) Reg.ORCHARD_CMD_TABLE (getF v Reg.ORCHARD_CMD_TABLE))
      Reg.ORCHARD_CMD_OP (getF v Reg.ORCHARD_CMD_OP) := rfl

/-- The command with an operation, as ORCHARD_CMD holds it. -/
def orchWord (d : Dev) (v : W64) (op : Nat) : W64 := stored d Reg.ORCHARD_CMD (setF v Reg.ORCHARD_CMD_OP op)

section
variable (d : Dev) (v : W64) (op : Nat)

theorem getF_orchWord_OP : getF (orchWord d v op) Reg.ORCHARD_CMD_OP = op % 8 := by
  rw [orchWord, stored_ORCHARD_CMD, getF_setF _ _ _ (by decide), getF_setF _ _ _ (by decide)]
  exact Nat.mod_mod ..

theorem getF_orchWord_TABLE : getF (orchWord d v op) Reg.ORCHARD_CMD_TABLE = getF v Reg.ORCHARD_CMD_TABLE := by
  rw [orchWord, stored_ORCHARD_CMD, getF_setF_other _ _ _ _ (by decide) (by decide), getF_setF _ _ _ (by decide),
    getF_setF_other _ _ _ _ (by decide) (by decide)]
  exact Nat.mod_eq_of_lt (bits_lt ..)

theorem getF_orchWord_INDEX : getF (orchWord d v op) Reg.ORCHARD_CMD_INDEX = getF v Reg.ORCHARD_CMD_INDEX := by
  rw [orchWord, stored_ORCHARD_CMD, getF_setF_other _ _ _ _ (by decide) (by decide), getF_setF_other _ _ _ _ (by decide) (by decide),
    getF_setF _ _ _ (by decide), getF_setF_other _ _ _ _ (by decide) (by decide)]
  exact Nat.mod_eq_of_lt (bits_lt ..)

theorem getF_orchWord_STASH : getF (orchWord d v op) Reg.ORCHARD_CMD_STASH = getF v Reg.ORCHARD_CMD_STASH := by
  rw [orchWord, stored_ORCHARD_CMD, getF_setF_other _ _ _ _ (by decide) (by decide), getF_setF_other _ _ _ _ (by decide) (by decide),
    getF_setF_other _ _ _ _ (by decide) (by decide), getF_setF _ _ _ (by decide), getF_setF_other _ _ _ _ (by decide) (by decide)]
  exact Nat.mod_eq_of_lt (bits_lt ..)

end

theorem regEffect_ORCHARD_CMD (agent i j : Nat) (v x : W64) (m : Mem) (d : Dev) :
    regEffect ⟨agent, Reg.ORCHARD_CMD, Reg.ORCHARD_CMD, i, j, v, x⟩ m d = (true, orchCmd x (startedBy d 1 agent)) := by
  simp [regEffect, effOrchard, Reg.ORCHARD_CMD]

/-- The write of a command performs it. -/
theorem regWrite_ORCHARD_CMD {m : Mem} {d : Dev} {agent op : Nat} {v : W64}
    (h : WriteReaches d agent Reg.ORCHARD_CMD (setF v Reg.ORCHARD_CMD_OP op))
    (hf : FieldsInRange Reg.ORCHARD_CMD (setF v Reg.ORCHARD_CMD_OP op)) :
    regWrite agent Reg.ORCHARD_CMD (setF v Reg.ORCHARD_CMD_OP op) m d = orchCmd (orchWord d v op) (startedBy d 1 agent) :=
  regWrite_accepted isOwnReg_ORCHARD_CMD (by decide) h hf (regEffect_ORCHARD_CMD ..)

/-- The six commands, each with its OP. -/
def orchCommands (agent : Nat) (v : W64) : List (Instr × Nat) :=
  [(.orchardRead agent v, 1), (.orchardWrite agent v, 2), (.orchardInsert agent v, 3), (.orchardDelete agent v, 4),
    (.orchardSearch agent v, 5), (.ageScan agent v, 6)]

/-- Each of them writes ORCHARD_CMD with its OP, and so performs the operation. -/
theorem exec_orchCommand {s : State} {agent op : Nat} {v : W64} {c : Instr} (hc : (c, op) ∈ orchCommands agent v)
    (h : WriteReaches s.dev agent Reg.ORCHARD_CMD (setF v Reg.ORCHARD_CMD_OP op))
    (hf : FieldsInRange Reg.ORCHARD_CMD (setF v Reg.ORCHARD_CMD_OP op)) :
    exec c s = .next (commit s (orchCmd (orchWord s.dev v op) (startedBy s.dev 1 agent))) := by
  have hexec : exec c s = .next (commit s (regWrite agent Reg.ORCHARD_CMD (setF v Reg.ORCHARD_CMD_OP op) s.mem s.dev)) := by
    simp only [orchCommands, List.mem_cons, Prod.mk.injEq, List.not_mem_nil, or_false] at hc
    rcases hc with ⟨rfl, rfl⟩ | ⟨rfl, rfl⟩ | ⟨rfl, rfl⟩ | ⟨rfl, rfl⟩ | ⟨rfl, rfl⟩ | ⟨rfl, rfl⟩ <;> rfl
  rw [hexec, regWrite_ORCHARD_CMD h hf]

/-! The begin of a command. -/

/-- The device as a command begins: its agent and the command are kept, and the unit is BUSY. -/
def orchStarted (d : Dev) (agent : Nat) (v : W64) (op : Nat) : Dev :=
  wrF (wr (startedBy d 1 agent) Reg.ORCHARD_CMD (orchWord d v op)) Reg.ORCHARD_STATUS Reg.ORCHARD_STATUS_BUSY 1

/-- It differs from the device before in registers and in the agent that the unit serves. -/
theorem beginWord_shape (d : Dev) (agent : Nat) (w : W64) : ∃ re ho, wrF (wr (startedBy d 1 agent) Reg.ORCHARD_CMD w) Reg.ORCHARD_STATUS
    Reg.ORCHARD_STATUS_BUSY 1 = { d with regs := re, host := ho } := ⟨_, _, rfl⟩

section
variable (d : Dev) (agent : Nat) (v : W64) (op : Nat)

theorem orchStarted_shape : ∃ re ho, orchStarted d agent v op = { d with regs := re, host := ho } := beginWord_shape ..

theorem rd_orchStarted {o : Nat} (h : o ≠ Reg.ORCHARD_CMD) (hs : o ≠ Reg.ORCHARD_STATUS) : rd (orchStarted d agent v op) o = rd d o := by
  rw [orchStarted, wrF, rd_wr_other _ _ hs, rd_wr_other _ _ h, rd_startedBy]

theorem tbl_orchStarted (t : Nat) : tbl (orchStarted d agent v op) t = tbl d t :=
  tbl_congr (rd_orchStarted d agent v op (by decide) (by decide))
    (fun o ho => rd_orchStarted d agent v op (by simp only [Reg.ORCHARD_CMD]; omega) (by simp only [Reg.ORCHARD_STATUS]; omega)) t

theorem profilePending_orchStarted : flagF (orchStarted d agent v op) Reg.PROFILE_STATUS Reg.PROFILE_STATUS_PENDING =
    flagF d Reg.PROFILE_STATUS Reg.PROFILE_STATUS_PENDING := by
  rw [flagF, flagF, rdF_congr (rd_orchStarted d agent v op (by decide) (by decide))]

/-- The data registers and the key registers stand. -/
theorem rd_orchStarted_DATA (i : Nat) : rd (orchStarted d agent v op) (Reg.ORCHARD_DATA i) = rd d (Reg.ORCHARD_DATA i) :=
  rd_orchStarted d agent v op (by simp only [Reg.ORCHARD_CMD, Reg.ORCHARD_DATA]; omega)
    (by simp only [Reg.ORCHARD_STATUS, Reg.ORCHARD_DATA]; omega)

theorem rd_orchStarted_KEY (i : Nat) : rd (orchStarted d agent v op) (Reg.ORCHARD_KEY i) = rd d (Reg.ORCHARD_KEY i) :=
  rd_orchStarted d agent v op (by simp only [Reg.ORCHARD_CMD, Reg.ORCHARD_KEY]; omega)
    (by simp only [Reg.ORCHARD_STATUS, Reg.ORCHARD_KEY]; omega)

@[simp] theorem orchData_orchStarted (b : Tbl) : orchData (orchStarted d agent v op) b = orchData d b := by
  simp only [orchData, rd_orchStarted_DATA]

@[simp] theorem orchKey_orchStarted : orchKey (orchStarted d agent v op) = orchKey d := by
  simp only [orchKey, rd_orchStarted_KEY]

@[simp] theorem nowTick_orchStarted : nowTick (orchStarted d agent v op) = nowTick d := by
  have hcfg := rdF_congr (rd_orchStarted d agent v op (o := Reg.AGE_CFG) (by decide) (by decide)) Reg.AGE_CFG_AGE_TICK
  obtain ⟨re, ho, h⟩ := orchStarted_shape d agent v op
  rw [nowTick, nowTick, hcfg, h]

@[simp] theorem orchStarted_orch : (orchStarted d agent v op).orch = d.orch := by
  obtain ⟨re, ho, h⟩ := orchStarted_shape d agent v op
  rw [h]

@[simp] theorem orchStarted_upset : (orchStarted d agent v op).upset = d.upset := by
  obtain ⟨re, ho, h⟩ := orchStarted_shape d agent v op
  rw [h]

section
variable (b : Tbl)

@[simp] theorem unitBad_orchStarted (i : Nat) : unitBad (orchStarted d agent v op) b i = unitBad d b i :=
  unitBad_congr (orchStarted_orch ..) (orchStarted_upset ..) b i
@[simp] theorem readUnit_orchStarted (i : Nat) : readUnit (orchStarted d agent v op) b i = readUnit d b i :=
  readUnit_of_orch (orchStarted_orch ..) b i
@[simp] theorem exactFind_orchStarted (key : Nat) : exactFind (orchStarted d agent v op) b key = exactFind d b key :=
  exactFind_congr (orchStarted_orch ..) (orchStarted_upset ..) b key
@[simp] theorem exactLookup_orchStarted (key : Nat) : exactLookup (orchStarted d agent v op) b key = exactLookup d b key :=
  exactLookup_congr (orchStarted_orch ..) (orchStarted_upset ..) b key
@[simp] theorem homeBad_orchStarted (key : Nat) : homeBad (orchStarted d agent v op) b key = homeBad d b key :=
  homeBad_congr (orchStarted_orch ..) (orchStarted_upset ..) b key
@[simp] theorem freeWay_orchStarted (l : List Nat) : freeWay (orchStarted d agent v op) b l = freeWay d b l :=
  freeWay_congr (orchStarted_orch ..) (orchStarted_upset ..) b l

end

end

section
variable {d : Dev} {agent op : Nat} {v : W64}

/-- A command of a table of a kind that it works on begins. -/
theorem orchBegin_table {b : Tbl} (hb : tbl d (getF v Reg.ORCHARD_CMD_TABLE) = some b) (hk : b.kind ∈ [1, 2, 3, 5, 6])
    (hp : flagF d Reg.PROFILE_STATUS Reg.PROFILE_STATUS_PENDING = false) :
    orchBegin (startedBy d 1 agent) (orchWord d v op) = (orchStarted d agent v op, some b) := by
  have hp' := (profilePending_orchStarted d agent v op).trans hp
  have hb' := (tbl_orchStarted d agent v op (getF v Reg.ORCHARD_CMD_TABLE)).trans hb
  simp only [List.mem_cons, List.not_mem_nil, or_false] at hk
  rw [orchStarted] at hp' hb'
  simp only [orchBegin, getF_orchWord_TABLE, hp', hb', Bool.false_eq_true, if_false, if_pos hk, orchStarted]

/-- A pending profile ends it at once in RESULT 8. -/
theorem orchBegin_pending (hp : flagF d Reg.PROFILE_STATUS Reg.PROFILE_STATUS_PENDING = true) :
    orchBegin (startedBy d 1 agent) (orchWord d v op) = (orchEnd (orchStarted d agent v op) 8 none, none) :=
  if_pos ((profilePending_orchStarted d agent v op).trans hp)

/-- An absent table, or one of a kind that no command works on, ends it at once in RESULT 4. -/
theorem orchBegin_noTable (hp : flagF d Reg.PROFILE_STATUS Reg.PROFILE_STATUS_PENDING = false)
    (hb : ∀ b, tbl d (getF v Reg.ORCHARD_CMD_TABLE) = some b → b.kind ∉ [1, 2, 3, 5, 6]) :
    orchBegin (startedBy d 1 agent) (orchWord d v op) = (orchEnd (orchStarted d agent v op) 4 none, none) := by
  have hp' := (profilePending_orchStarted d agent v op).trans hp
  have hb' := tbl_orchStarted d agent v op (getF v Reg.ORCHARD_CMD_TABLE)
  rw [orchStarted] at hp' hb'
  cases ht : tbl d (getF v Reg.ORCHARD_CMD_TABLE) with
  | none =>
    rw [ht] at hb'
    simp only [orchBegin, getF_orchWord_TABLE, hp', hb', Bool.false_eq_true, if_false, orchStarted]
  | some b =>
    have hk := hb b ht
    simp only [List.mem_cons, List.not_mem_nil, or_false] at hk
    rw [ht] at hb'
    simp only [orchBegin, getF_orchWord_TABLE, hp', hb', Bool.false_eq_true, if_false, if_neg hk, orchStarted]

end

/-! The operations, once the command has begun. -/

/-- A command that does not begin does nothing more. -/
theorem orchCmd_refused {d e : Dev} {v : W64} (h : orchBegin d v = (e, none)) : orchCmd v d = e := by
  simp only [orchCmd, orchRead, orchWrite, orchInsert, orchDelete, orchSearch, ageScan, h, ite_self]

section
variable {d e : Dev} {v : W64} {b : Tbl} (h : orchBegin d v = (e, some b))
include h

theorem orchCmd_read {i : Nat} (hop : getF v Reg.ORCHARD_CMD_OP = 1) (hi : orchIndex b v = .inl i) (hu : unitBad e b i = false) :
    orchCmd v d = orchEnd (showUnit e b (readUnit e b i)) 0 (some i) := by
  simp [orchCmd, hop, orchRead, h, hi, hu]

theorem orchCmd_write {i : Nat} (hop : getF v Reg.ORCHARD_CMD_OP = 2) (hi : orchIndex b v = .inl i)
    (he : entryOk b (orchData e b) = true) :
    orchCmd v d = orchEnd (setHit (writeUnit e b i (entMask b (orchData e b))) b.t i 0) 0 (some i) := by
  simp [orchCmd, hop, orchWrite, h, hi, he]

theorem orchCmd_insert (hop : getF v Reg.ORCHARD_CMD_OP = 3) (hk : b.kind = 1) :
    orchCmd v d = exactInsert e b (keyFor b (orchKey e)) (orchData e b) := by
  simp [orchCmd, hop, orchInsert, h, hk]

section
variable (hk : b.kind = 1)
include hk

theorem orchCmd_delete {i : Nat} (hop : getF v Reg.ORCHARD_CMD_OP = 4) (hbad : homeBad e b (keyFor b (orchKey e)) = false)
    (hf : exactFind e b (keyFor b (orchKey e)) = some i) :
    orchCmd v d = orchEnd (exactRemove (showUnit e b (readUnit e b i)) b i) 0 (some i) := by
  simp [orchCmd, hop, orchDelete, h, hk, hbad, hf]

theorem orchCmd_delete_absent (hop : getF v Reg.ORCHARD_CMD_OP = 4) (hbad : homeBad e b (keyFor b (orchKey e)) = false)
    (hf : exactFind e b (keyFor b (orchKey e)) = none) : orchCmd v d = orchEnd e 1 none := by
  simp [orchCmd, hop, orchDelete, h, hk, hbad, hf]

theorem orchCmd_search {i : Nat} (hop : getF v Reg.ORCHARD_CMD_OP = 5) (hf : exactLookup e b (keyFor b (orchKey e)) = some i) :
    orchCmd v d = orchEnd (showUnit e b (readUnit e b i)) 0 (some i) := by
  simp [orchCmd, hop, orchSearch, h, hk, hf]

theorem orchCmd_search_absent (hop : getF v Reg.ORCHARD_CMD_OP = 5) (hf : exactLookup e b (keyFor b (orchKey e)) = none) :
    orchCmd v d = orchEnd e (if homeBad e b (keyFor b (orchKey e)) then 7 else 1) none := by
  simp [orchCmd, hop, orchSearch, h, hk, hf]

theorem orchCmd_ageScan (hop : getF v Reg.ORCHARD_CMD_OP = 6) : orchCmd v d = orchEnd (ageTable e b) 0 none := by
  simp [orchCmd, hop, ageScan, h, hk]

end

theorem orchCmd_lpmInsert (hop : getF v Reg.ORCHARD_CMD_OP = 3) (hk : b.kind = 2 ∨ b.kind = 3) :
    orchCmd v d = lpmInsert e b (keyFor b (orchKey e)) (rd e (Reg.ORCHARD_DATA 0)).toNat := by
  have h1 : b.kind ≠ 1 := by omega
  simp [orchCmd, hop, orchInsert, h, hk, h1]

theorem orchCmd_lpmDelete (hop : getF v Reg.ORCHARD_CMD_OP = 4) (hk : b.kind = 2 ∨ b.kind = 3) :
    orchCmd v d = lpmDelete e b (keyFor b (orchKey e)) := by
  have h1 : b.kind ≠ 1 := by omega
  simp [orchCmd, hop, orchDelete, h, hk, h1]

end

/-! The end of a command. -/

section
variable (d : Dev) {r : Nat} (i : Option Nat)

@[simp] theorem orchEnd_orch (r : Nat) : (orchEnd d r i).orch = d.orch := by
  cases i with
  | none => exact wrF_orch ..
  | some i => exact (wrF_orch ..).trans (wrF_orch ..)

theorem rdF_orchEnd_RESULT (hr : r < 16) : rdF (orchEnd d r i) Reg.ORCHARD_STATUS Reg.ORCHARD_STATUS_RESULT = r := by
  have hres : rdF (wrF d Reg.ORCHARD_STATUS Reg.ORCHARD_STATUS_RESULT r) Reg.ORCHARD_STATUS Reg.ORCHARD_STATUS_RESULT = r :=
    (rdF_wrF_same d _ _ r (by decide)).trans (Nat.mod_eq_of_lt hr)
  cases i with
  | none => exact hres
  | some i => exact (rdF_wrF_other _ i (.inr (by decide))).trans hres

theorem rdF_orchEnd_INDEX (r : Nat) {i : Nat} (hi : i < 2 ^ 25) :
    rdF (orchEnd d r (some i)) Reg.ORCHARD_STATUS Reg.ORCHARD_STATUS_INDEX = i := by
  rw [orchEnd, rdF_wrF_same _ _ _ _ (by decide)]
  exact Nat.mod_eq_of_lt hi

theorem rd_orchEnd {o : Nat} (h : o ≠ Reg.ORCHARD_STATUS) (r : Nat) : rd (orchEnd d r i) o = rd d o := by
  cases i with
  | none => exact rd_wr_other _ _ h
  | some i => exact (rd_wr_other _ _ h).trans (rd_wr_other _ _ h)

end

/-- ORCHARD_DATA shows a unit: registers alone change. -/
theorem showUnit_shape (d : Dev) (b : Tbl) (v : Nat) : ∃ re, showUnit d b v = { d with regs := re } :=
  foldl_regs_shape _ (fun _ _ => ⟨_, rfl⟩) _ d

@[simp] theorem showUnit_orch (d : Dev) (b : Tbl) (v : Nat) : (showUnit d b v).orch = d.orch := by
  obtain ⟨re, h⟩ := showUnit_shape d b v
  rw [h]

theorem rd_showUnit_DATA (d : Dev) (b : Tbl) (v : Nat) {w : Nat} (hw : w < b.uw / 64) :
    rd (showUnit d b v) (Reg.ORCHARD_DATA w) = BitVec.ofNat 64 (bits v (64 * w) 64) :=
  foldl_visited (get := fun d w => rd d (Reg.ORCHARD_DATA w)) (new := fun _ w => BitVec.ofNat 64 (bits v (64 * w) 64))
    (fun d k j hj => rd_wr_other d _ (by simp only [Reg.ORCHARD_DATA]; omega)) (fun d k => rd_wr_same ..) (fun _ _ _ _ => rfl)
    List.nodup_range (List.mem_range.mpr hw) d

end Sys2Proof.Machine
end

section
/-!
PROOF. What the operations of ORCHARD_CMD leave in a table (R168, R171, R175, R187), and the visit of a stale entry (R185).
-/
namespace Sys2Proof.Machine

/-! A unit and a hit bit read after the end of a command as before it. -/

@[simp] theorem readUnit_commit (s : State) (d : Dev) (b : Tbl) (i : Nat) : readUnit (commit s d).dev b i = readUnit d b i :=
  readUnit_of_orch (commit_orch s d) b i
@[simp] theorem hitBit_commit (s : State) (d : Dev) (t i : Nat) : hitBit (commit s d).dev t i = hitBit d t i :=
  hitBit_congr (commit_orch s d) t i
@[simp] theorem readUnit_orchEnd (d : Dev) (r : Nat) (i : Option Nat) (b : Tbl) (j : Nat) : readUnit (orchEnd d r i) b j = readUnit d b j :=
  readUnit_of_orch (orchEnd_orch ..) b j
@[simp] theorem hitBit_orchEnd (d : Dev) (r : Nat) (i : Option Nat) (t j : Nat) : hitBit (orchEnd d r i) t j = hitBit d t j :=
  hitBit_congr (orchEnd_orch ..) t j
@[simp] theorem readUnit_showUnit (d : Dev) (b : Tbl) (v j : Nat) (b' : Tbl) : readUnit (showUnit d b v) b' j = readUnit d b' j :=
  readUnit_of_orch (showUnit_orch ..) b' j

/-! READ, and a SEARCH that finds. -/

theorem rd_shown_DATA (d : Dev) (b : Tbl) (u r : Nat) (i : Option Nat) {w : Nat} (hw : w < b.uw / 64) :
    rd (orchEnd (showUnit d b u) r i) (Reg.ORCHARD_DATA w) = BitVec.ofNat 64 (bits u (64 * w) 64) := by
  rw [rd_orchEnd _ _ (by simp only [Reg.ORCHARD_DATA, Reg.ORCHARD_STATUS]; omega), rd_showUnit_DATA _ _ _ hw]

/-! WRITE (R155). -/

theorem orchData_lt (d : Dev) (b : Tbl) : orchData d b < 2 ^ b.uw := Nat.mod_lt _ (Nat.two_pow_pos _)

/-- Clearing an entry's reserved bits keeps it in its unit. -/
theorem entMask_lt {b : Tbl} {e : Nat} (he : e < 2 ^ b.uw) : entMask b e < 2 ^ b.uw := by
  rw [entMask]
  split
  · exact eSet_lt_uw (by omega) 0 he (by decide)
  · split
    · exact eSet_lt_uw (by omega) 0 he (by split <;> decide)
    · exact he

section
variable (d : Dev) {b : Tbl} {i : Nat} {e : Nat}

/-- The unit that WRITE names reads the entry, and its hit bit is clear. -/
theorem written_same (he : e < 2 ^ b.uw) :
    readUnit (setHit (writeUnit d b i e) b.t i 0) b i = e ∧ hitBit (setHit (writeUnit d b i e) b.t i 0) b.t i = false :=
  ⟨(readUnit_setHit ..).trans (readUnit_writeUnit_of_lt d b i he), hitBit_setHit_zero ..⟩

theorem written_other (hb : b.Placed) (hs : b.size ≤ stashBase) (hi : i < b.size) {j : Nat} (hj : j < b.size) (hne : j ≠ i) :
    readUnit (setHit (writeUnit d b i e) b.t i 0) b j = readUnit d b j :=
  (readUnit_setHit ..).trans (readUnit_writeUnit_other d e hb hs hi hj hne)

end

/-! INSERT into an EXACT table (R168). -/

/-- The entry of a present key with the action and the ETYPE of ORCHARD_DATA. -/
def replacedEntry (b : Tbl) (e data : Nat) : Nat := eSet b (setBits e 0 64 (eAction data)) 188 3 (eType b data)

/-- The entry of a new key, of the tick of now. -/
def insertedEntry (d : Dev) (b : Tbl) (key data : Nat) : Nat :=
  eSet b (mkEntry b (eType b data) key (eAction data)) 163 12 (nowTick d)

section
variable {d : Dev} {b : Tbl} {key data : Nat} (hty : eType b data ≤ 1) (hbad : homeBad d b key = false)
include hty hbad

theorem exactInsert_present {i : Nat} (hf : exactFind d b key = some i) : exactInsert d b key data =
    orchEnd (showUnit (writeUnit d b i (replacedEntry b (readUnit d b i) data)) b (replacedEntry b (readUnit d b i) data)) 2 (some i) := by
  have hty' : ¬ 1 < eType b data := Nat.not_lt.mpr hty
  simp only [exactInsert, hty', hbad, hf, Bool.false_eq_true, if_false, replacedEntry]

/-- A new key takes the first free way of its bucket of half 0, when that has one. -/
theorem exactInsert_free {i : Nat} (hk : b.kind = 1) (hf : exactFind d b key = none)
    (hw : freeWay d b (bucketIdx b 0 (bucketOf b 0 key)) = some i) : exactInsert d b key data =
    orchEnd (showUnit (setHit (tblCnt (tblCnt (writeUnit d b i (insertedEntry d b key data)) b.t 2 1) b.t 7 0) b.t i 0) b
      (insertedEntry d b key data)) 0 (some i) := by
  have hty' : ¬ 1 < eType b data := Nat.not_lt.mpr hty
  have hhome : freeWay d b (homeIdx b key) = some i := by
    rw [homeIdx, if_pos hk, freeWay, List.find?_append]
    exact (congrArg (Option.or · _) hw).trans Option.some_or
  have hins : insertBad d b key = false := by rw [insertBad, hbad, hhome]; rfl
  simp only [exactInsert, hty', hbad, hf, hins, Bool.false_eq_true, if_false, cuckooInsert, placeNew, hw, insertedEntry]

end

section
variable (d : Dev) {b : Tbl} (hk : b.kind = 1)
include hk

theorem replaced_spec (i e data : Nat) :
    eAction (readUnit (writeUnit d b i (replacedEntry b e data)) b i) = eAction data ∧
      eKey b (readUnit (writeUnit d b i (replacedEntry b e data)) b i) = eKey b e := by
  have hkey := key_le_uw (b := b) (by omega)
  constructor
  · rw [eAction, bits_readUnit_writeUnit _ _ _ _ (by omega), ← eAction, replacedEntry, eAction_eSet _ _ _ (by decide),
      eAction_setBits_action]
    exact Nat.mod_eq_of_lt (bits_lt ..)
  · rw [eKey, bits_readUnit_writeUnit _ _ _ _ hkey, ← eKey, replacedEntry, eKey_eSet _ _ _ (by decide), eKey_setBits_action]

/-- The way that a new key takes reads its entry; the counters of the table and the hit bit do not touch it. -/
theorem inserted_reads (i key data : Nat) : readUnit (setHit (tblCnt (tblCnt (writeUnit d b i (insertedEntry d b key data)) b.t 2 1) b.t 7 0)
    b.t i 0) b i = insertedEntry d b key data := by
  have hlt : insertedEntry d b key data < 2 ^ b.uw := eSet_lt_uw (by omega) _ (mkEntry_lt_uw (by omega) ..) (by decide)
  rw [readUnit_setHit, readUnit_of_orch (tblCnt_orch ..), readUnit_of_orch (tblCnt_orch ..), readUnit_writeUnit_of_lt _ _ _ hlt]

end

/-! DELETE from an EXACT table (R171). -/

/-- The entry that is removed reads invalid, and its hit bit is clear. -/
theorem exactRemove_spec (d : Dev) (b : Tbl) (i : Nat) :
    eValid b (readUnit (exactRemove d b i) b i) = false ∧ hitBit (exactRemove d b i) b.t i = false := by
  have hcleared : eValid b (readUnit (setHit (writeUnit d b i (eSet b (readUnit d b i) 191 1 0)) b.t i 0) b i) = false := by
    rw [readUnit_setHit]
    exact eValid_readUnit_cleared ..
  have hhit := hitBit_setHit_zero (writeUnit d b i (eSet b (readUnit d b i) 191 1 0)) b.t i
  rw [exactRemove]
  dsimp only
  split
  · exact ⟨hcleared, hhit⟩
  · exact ⟨hcleared, hhit⟩

/-! INSERT into an LPM table of a key that R159 does not allow. -/

theorem lpmInsert_badKey {d : Dev} {b : Tbl} {key : Nat} (h : lpmKeyOk b key = false) (action : Nat) :
    lpmInsert d b key action = orchEnd d 6 none := by
  rw [lpmInsert, if_pos (by simp [h])]

/-! The visit of a stale entry (R185). -/

theorem evtSignal_orch (d : Dev) (f : Nat) : (evtSignal d f).orch = d.orch := by
  rw [evtSignal, putEvt_orch, msi_orch]

theorem evtPost_orch (d : Dev) (f : Nat) (w0 w1 w2 w3 : W64) : (evtPost d f w0 w1 w2 w3).1.orch = d.orch := by
  simp only [evtPost]
  by_cases hfull : (getEvt d f).entries.length ≥ evtSize f
  · rw [if_pos hfull]
    dsimp only
    split
    · rfl
    · exact bumpSat_orch ..
  · rw [if_neg hfull]
    dsimp only
    rw [apply_ite Dev.orch, evtSignal_orch, ite_self, putEvt_orch]

theorem orchNotice_orch (d : Dev) (kind t index seq : Nat) (b : Tbl) (key old action : Nat) :
    (orchNotice d kind t index seq b key old action).orch = d.orch := by
  rw [orchNotice]
  dsimp only
  split
  · exact evtPost_orch ..
  · rw [bump_orch, evtPost_orch]

theorem pairSend_orch (d : Dev) (ty tag slots : Nat) (body : List Byte) : (pairSend d ty tag slots body).orch = d.orch := by
  rw [pairSend]
  split
  · dsimp only
    rw [bump_orch, injectAt_orch]
  · rfl

theorem journalPut_orch (d : Dev) (e : JEntry) : (journalPut d e).orch = d.orch := by
  simp only [journalPut]
  rw [pairSend_orch, apply_ite Dev.orch, bump_orch, ite_self, bump_orch, setBuf, wrF_orch, bump_orch]

theorem sendSet_orch (d : Dev) (b : Tbl) (key action : Nat) (absent : Bool) : (sendSet d b key action absent).orch = d.orch := by
  rw [sendSet]
  split
  · rw [journalLearn]
    split
    · rfl
    · split
      · exact journalPut_orch ..
      · rw [raise_orch, setPairF_orch, bump_orch]
  · rfl

/-- The device once a visit has cleared an expired pin. -/
def ageUnpinned (d : Dev) (b : Tbl) (i : Nat) : Dev :=
  if unpin d b (readUnit d b i) = readUnit d b i then d else writeUnit d b i (unpin d b (readUnit d b i))

section
variable {d : Dev} {b : Tbl} {i : Nat}

theorem clockStands_ageUnpinned : ClockStands d (ageUnpinned d b i) := by
  rw [ageUnpinned]
  split
  · exact ⟨rfl, fun _ _ => rfl⟩
  · exact clockStands_writeUnit ..

theorem hitBit_ageUnpinned (t j : Nat) : hitBit (ageUnpinned d b i) t j = hitBit d t j := by
  rw [ageUnpinned]
  split
  · rfl
  · exact hitBit_writeUnit ..

/-- AGE is not among the fields that an expired pin clears. -/
theorem age_unpin (e : Nat) : eMeta b (unpin d b e) 163 12 = eMeta b e 163 12 := by
  rw [unpin]
  split
  · rw [eMeta_eSet_other _ _ _ (by omega), eMeta_eSet_other _ _ _ (by omega)]
  · rfl

/-- A visit clears VALID of a DYNAMIC entry that this device settles, without a hit and of the age limit. -/
theorem ageVisit_stale (hu : unitBad d b i = false) (hv : eValid b (readUnit d b i) = true) (ht : eType b (readUnit d b i) = 0)
    (hs : settles d b (eKey b (readUnit d b i)) = true) (hh : hitBit d b.t i = false)
    (hage : rdF d Reg.AGE_CFG Reg.AGE_CFG_AGE_LIMIT ≤ (nowTick d + 4096 - eMeta b (readUnit d b i) 163 12) % 4096) :
    (ageVisit b d i).orch = (writeUnit (ageUnpinned d b i) b i (eSet b (unpin d b (readUnit d b i)) 191 1 0)).orch := by
  have hh' : ¬ hitBit (ageUnpinned d b i) b.t i = true := by rw [hitBit_ageUnpinned, hh]; decide
  have hage' : rdF (ageUnpinned d b i) Reg.AGE_CFG Reg.AGE_CFG_AGE_LIMIT ≤
      (nowTick (ageUnpinned d b i) + 4096 - eMeta b (unpin d b (readUnit d b i)) 163 12) % 4096 := by
    rw [clockStands_ageUnpinned.rdF (by decide), clockStands_ageUnpinned.nowTick, age_unpin]
    exact hage
  rw [ageVisit]
  dsimp only
  rw [if_neg (by simp [hu, hv, ht]), if_neg (by simp [hs]), ← ageUnpinned, if_neg hh', if_pos hage', sendSet_orch, tblCnt_orch,
    orchNotice_orch]

end

end Sys2Proof.Machine
end

section
/-!
PROOF. The commands of ORCHARD_CMD on a valid table with no profile change pending, and with them O48.
-/
namespace Sys2Proof
open Machine

section
variable {s : State} {agent : Nat} {v : W64} {b : Tbl}

/-- Every command of the unit reaches ORCHARD_CMD. -/
def OrchReaches (s : State) (agent : Nat) (v : W64) : Prop := ∀ op, 1 ≤ op → op ≤ 6 →
  WriteReaches s.dev agent Reg.ORCHARD_CMD (setF v Reg.ORCHARD_CMD_OP op) ∧ FieldsInRange Reg.ORCHARD_CMD (setF v Reg.ORCHARD_CMD_OP op)

theorem op_of_mem_orchCommands {c : Instr} {op : Nat} (hc : (c, op) ∈ orchCommands agent v) : 1 ≤ op ∧ op ≤ 6 := by
  simp only [orchCommands, List.mem_cons, Prod.mk.injEq, List.not_mem_nil, or_false] at hc
  omega

/-- The index that a command names outside the stash. -/
theorem orchIndex_orchWord (d : Dev) (op : Nat) (hs : getF v Reg.ORCHARD_CMD_STASH = 0) (hi : getF v Reg.ORCHARD_CMD_INDEX < b.size) :
    orchIndex b (orchWord d v op) = .inl (getF v Reg.ORCHARD_CMD_INDEX) := by
  simp only [orchIndex, getF_orchWord_STASH, getF_orchWord_INDEX, hs, Nat.zero_ne_one, if_false, if_neg (Nat.not_le.mpr hi)]

variable (hreach : OrchReaches s agent v) (hb : tbl s.dev (getF v Reg.ORCHARD_CMD_TABLE) = some b)
  (hp : flagF s.dev Reg.PROFILE_STATUS Reg.PROFILE_STATUS_PENDING = false)
include hreach hb hp

/-- A command of a table of its kinds is performed on the device as it has begun. -/
theorem orchCommand_begins (hk : b.kind ∈ [1, 2, 3, 5, 6]) {c : Instr} {op : Nat} (hc : (c, op) ∈ orchCommands agent v) :
    exec c s = .next (commit s (orchCmd (orchWord s.dev v op) (startedBy s.dev 1 agent))) ∧
      orchBegin (startedBy s.dev 1 agent) (orchWord s.dev v op) = (orchStarted s.dev agent v op, some b) ∧
      getF (orchWord s.dev v op) Reg.ORCHARD_CMD_OP = op := by
  obtain ⟨h1, h6⟩ := op_of_mem_orchCommands hc
  obtain ⟨hw, hf⟩ := hreach op h1 h6
  exact ⟨exec_orchCommand hc hw hf, orchBegin_table hb hk hp, (getF_orchWord_OP ..).trans (Nat.mod_eq_of_lt (by omega))⟩

section
variable (hk : b.kind ∈ [1, 2, 3, 5, 6]) (hs : getF v Reg.ORCHARD_CMD_STASH = 0) (hi : getF v Reg.ORCHARD_CMD_INDEX < b.size)
include hk hs hi

theorem exec_orchardRead_good (hu : unitBad s.dev b (getF v Reg.ORCHARD_CMD_INDEX) = false) : exec (.orchardRead agent v) s =
    .next (commit s (orchEnd (showUnit (orchStarted s.dev agent v 1) b (readUnit s.dev b (getF v Reg.ORCHARD_CMD_INDEX))) 0
      (some (getF v Reg.ORCHARD_CMD_INDEX)))) := by
  obtain ⟨hex, hbegin, hop⟩ := orchCommand_begins hreach hb hp hk (c := .orchardRead agent v) (op := 1) (by simp [orchCommands])
  rw [hex, orchCmd_read hbegin hop (orchIndex_orchWord _ _ hs hi) (by rw [unitBad_orchStarted, hu]), readUnit_orchStarted]

theorem exec_orchardWrite_ok (he : entryOk b (orchData s.dev b) = true) : exec (.orchardWrite agent v) s =
    .next (commit s (orchEnd (setHit (writeUnit (orchStarted s.dev agent v 2) b (getF v Reg.ORCHARD_CMD_INDEX)
      (entMask b (orchData s.dev b))) b.t (getF v Reg.ORCHARD_CMD_INDEX) 0) 0 (some (getF v Reg.ORCHARD_CMD_INDEX)))) := by
  obtain ⟨hex, hbegin, hop⟩ := orchCommand_begins hreach hb hp hk (c := .orchardWrite agent v) (op := 2) (by simp [orchCommands])
  rw [hex, orchCmd_write hbegin hop (orchIndex_orchWord _ _ hs hi) (by rw [orchData_orchStarted, he]), orchData_orchStarted]

end

section
variable (hk : b.kind = 1)
include hk

theorem exec_orchardInsert_exact : exec (.orchardInsert agent v) s =
    .next (commit s (exactInsert (orchStarted s.dev agent v 3) b (keyFor b (orchKey s.dev)) (orchData s.dev b))) := by
  obtain ⟨hex, hbegin, hop⟩ := orchCommand_begins hreach hb hp (by simp [hk]) (c := .orchardInsert agent v) (op := 3)
    (by simp [orchCommands])
  rw [hex, orchCmd_insert hbegin hop hk, orchKey_orchStarted, orchData_orchStarted]

section
variable (hbad : homeBad s.dev b (keyFor b (orchKey s.dev)) = false)
include hbad

theorem exec_orchardDelete_present {i : Nat} (hf : exactFind s.dev b (keyFor b (orchKey s.dev)) = some i) :
    exec (.orchardDelete agent v) s = .next (commit s (orchEnd
      (exactRemove (showUnit (orchStarted s.dev agent v 4) b (readUnit s.dev b i)) b i) 0 (some i))) := by
  obtain ⟨hex, hbegin, hop⟩ := orchCommand_begins hreach hb hp (by simp [hk]) (c := .orchardDelete agent v) (op := 4)
    (by simp [orchCommands])
  rw [hex, orchCmd_delete hbegin hk hop (by rw [orchKey_orchStarted, homeBad_orchStarted, hbad])
    (by rw [orchKey_orchStarted, exactFind_orchStarted, hf]), readUnit_orchStarted]

theorem exec_orchardDelete_absent (hf : exactFind s.dev b (keyFor b (orchKey s.dev)) = none) :
    exec (.orchardDelete agent v) s = .next (commit s (orchEnd (orchStarted s.dev agent v 4) 1 none)) := by
  obtain ⟨hex, hbegin, hop⟩ := orchCommand_begins hreach hb hp (by simp [hk]) (c := .orchardDelete agent v) (op := 4)
    (by simp [orchCommands])
  rw [hex, orchCmd_delete_absent hbegin hk hop (by rw [orchKey_orchStarted, homeBad_orchStarted, hbad])
    (by rw [orchKey_orchStarted, exactFind_orchStarted, hf])]

end

theorem exec_orchardSearch_found {i : Nat} (hf : exactLookup s.dev b (keyFor b (orchKey s.dev)) = some i) :
    exec (.orchardSearch agent v) s =
      .next (commit s (orchEnd (showUnit (orchStarted s.dev agent v 5) b (readUnit s.dev b i)) 0 (some i))) := by
  obtain ⟨hex, hbegin, hop⟩ := orchCommand_begins hreach hb hp (by simp [hk]) (c := .orchardSearch agent v) (op := 5)
    (by simp [orchCommands])
  rw [hex, orchCmd_search hbegin hk hop (by rw [orchKey_orchStarted, exactLookup_orchStarted, hf]), readUnit_orchStarted]

theorem exec_orchardSearch_absent (hf : exactLookup s.dev b (keyFor b (orchKey s.dev)) = none) : exec (.orchardSearch agent v) s =
    .next (commit s (orchEnd (orchStarted s.dev agent v 5) (if homeBad s.dev b (keyFor b (orchKey s.dev)) then 7 else 1) none)) := by
  obtain ⟨hex, hbegin, hop⟩ := orchCommand_begins hreach hb hp (by simp [hk]) (c := .orchardSearch agent v) (op := 5)
    (by simp [orchCommands])
  rw [hex, orchCmd_search_absent hbegin hk hop (by rw [orchKey_orchStarted, exactLookup_orchStarted, hf]), orchKey_orchStarted,
    homeBad_orchStarted]

theorem exec_ageScan_exact :
    exec (.ageScan agent v) s = .next (commit s (orchEnd (ageTable (orchStarted s.dev agent v 6) b) 0 none)) := by
  obtain ⟨hex, hbegin, hop⟩ := orchCommand_begins hreach hb hp (by simp [hk]) (c := .ageScan agent v) (op := 6) (by simp [orchCommands])
  rw [hex, orchCmd_ageScan hbegin hk hop]

end

section
variable (hk : b.kind = 2 ∨ b.kind = 3)
include hk

theorem exec_orchardInsert_lpm : exec (.orchardInsert agent v) s = .next (commit s
    (lpmInsert (orchStarted s.dev agent v 3) b (keyFor b (orchKey s.dev)) (rd s.dev (Reg.ORCHARD_DATA 0)).toNat)) := by
  obtain ⟨hex, hbegin, hop⟩ := orchCommand_begins hreach hb hp (by rcases hk with h | h <;> simp [h]) (c := .orchardInsert agent v)
    (op := 3) (by simp [orchCommands])
  rw [hex, orchCmd_lpmInsert hbegin hop hk, orchKey_orchStarted, rd_orchStarted_DATA]

theorem exec_orchardDelete_lpm : exec (.orchardDelete agent v) s =
    .next (commit s (lpmDelete (orchStarted s.dev agent v 4) b (keyFor b (orchKey s.dev)))) := by
  obtain ⟨hex, hbegin, hop⟩ := orchCommand_begins hreach hb hp (by rcases hk with h | h <;> simp [h]) (c := .orchardDelete agent v)
    (op := 4) (by simp [orchCommands])
  rw [hex, orchCmd_lpmDelete hbegin hop hk, orchKey_orchStarted]

end

end

/-- Settles O48: a command performs its operation on the device as it has begun, and of each operation the lemmas above say what it leaves. -/
theorem orchardCommands : Obligations.OrchardCommands := by
  unfold Obligations.OrchardCommands
  refine ⟨?table, ?refused, ?visit⟩
  case table =>
    intro s agent v b hb hp cmd result index i begun key hreach
    have hbegun (op : Nat) (hk : b.kind ∈ [1, 2, 3, 5, 6]) : begun op = orchStarted s.dev agent v op :=
      congrArg Prod.fst (orchBegin_table hb hk hp)
    have hresult (d : Dev) (r : Nat) (i : Option Nat) (hr : r < 16) : result (commit s (orchEnd d r i)) = r :=
      (rdF_commit ..).trans (rdF_orchEnd_RESULT d i hr)
    have hindex (d : Dev) (r i : Nat) (hi : i < 2 ^ 25) : index (commit s (orchEnd d r (some i))) = i :=
      (rdF_commit ..).trans (rdF_orchEnd_INDEX d r hi)
    refine ⟨fun hk hwide hstash hi hsize => ⟨fun hgood => ?read, fun hok => ?write⟩,
      fun hk hbad hty => ⟨fun j hf => ?replace, fun j hf hfree hj => ?insert⟩, fun hk hbad => ⟨fun j hf => ?delete, fun hf => ?deleteAbsent⟩,
      fun hk => ⟨fun j hf hj => ?search, fun hf => ?searchAbsent, ?ageScan⟩, fun hk => ⟨?lpmInsert, ?lpmDelete, fun hkey => ?lpmBadKey⟩⟩
    case read =>
      refine ⟨_, exec_orchardRead_good hreach hb hp hk hstash hi hgood, hresult _ _ _ (by decide), hindex _ _ _ (bits_lt ..), ?_,
        fun w hw => ?_⟩
      · rw [commit_orch, orchEnd_orch, showUnit_orch, orchStarted_orch]
      · rw [rd_commit, rd_shown_DATA _ _ _ _ _ hw]
    case write =>
      obtain ⟨hsame, hhit⟩ := written_same (orchStarted s.dev agent v 2) (i := i) (entMask_lt (orchData_lt s.dev b))
      refine ⟨_, exec_orchardWrite_ok hreach hb hp hk hstash hi hok, hresult _ _ _ (by decide), ?_, ?_, fun j hj hne => ?_⟩
      · rw [readUnit_commit, readUnit_orchEnd, hsame]
      · rw [hitBit_commit, hitBit_orchEnd, hhit]
      · rw [readUnit_commit, readUnit_orchEnd, written_other _ ⟨hk, hwide⟩ hsize hi hj hne, readUnit_orchStarted]
    case replace =>
      obtain ⟨haction, hkey⟩ := replaced_spec (orchStarted s.dev agent v 3) hk j (readUnit s.dev b j) (orchData s.dev b)
      refine ⟨_, (exec_orchardInsert_exact hreach hb hp hk).trans (by
        rw [exactInsert_present hty (by rw [homeBad_orchStarted, hbad]) (by rw [exactFind_orchStarted, hf]), readUnit_orchStarted]),
        hresult _ _ _ (by decide), ?_, ?_⟩
      · rw [readUnit_commit, readUnit_orchEnd, readUnit_showUnit, haction]
      · rw [readUnit_commit, readUnit_orchEnd, readUnit_showUnit, hkey]
    case insert =>
      refine ⟨_, (exec_orchardInsert_exact hreach hb hp hk).trans (by
        rw [exactInsert_free hty (by rw [homeBad_orchStarted, hbad]) hk (by rw [exactFind_orchStarted, hf])
          (by rw [freeWay_orchStarted, hfree])]),
        hresult _ _ _ (by decide), hindex _ _ _ (Nat.lt_trans hj (by decide)), ?_⟩
      rw [readUnit_commit, readUnit_orchEnd, readUnit_showUnit, inserted_reads _ hk, insertedEntry, nowTick_orchStarted]
    case delete =>
      obtain ⟨hinvalid, hhit⟩ := exactRemove_spec (showUnit (orchStarted s.dev agent v 4) b (readUnit s.dev b j)) b j
      refine ⟨_, exec_orchardDelete_present hreach hb hp hk hbad hf, hresult _ _ _ (by decide), ?_, ?_⟩
      · rw [readUnit_commit, readUnit_orchEnd, hinvalid]
      · rw [hitBit_commit, hitBit_orchEnd, hhit]
    case deleteAbsent =>
      refine ⟨_, exec_orchardDelete_absent hreach hb hp hk hbad hf, hresult _ _ _ (by decide), ?_⟩
      rw [commit_orch, orchEnd_orch, orchStarted_orch]
    case search =>
      refine ⟨_, exec_orchardSearch_found hreach hb hp hk hf, hresult _ _ _ (by decide), hindex _ _ _ hj, ?_⟩
      rw [commit_orch, orchEnd_orch, showUnit_orch, orchStarted_orch]
    case searchAbsent =>
      refine ⟨_, exec_orchardSearch_absent hreach hb hp hk hf, hresult _ _ _ (by split <;> decide), ?_⟩
      rw [commit_orch, orchEnd_orch, orchStarted_orch]
    case ageScan =>
      rw [exec_ageScan_exact hreach hb hp hk, hbegun 6 (by simp [hk])]
    case lpmInsert =>
      rw [exec_orchardInsert_lpm hreach hb hp hk, hbegun 3 (by rcases hk with h | h <;> simp [h])]
    case lpmDelete =>
      rw [exec_orchardDelete_lpm hreach hb hp hk, hbegun 4 (by rcases hk with h | h <;> simp [h])]
    case lpmBadKey =>
      refine ⟨_, (exec_orchardInsert_lpm hreach hb hp hk).trans (by rw [lpmInsert_badKey hkey]), hresult _ _ _ (by decide), ?_⟩
      rw [commit_orch, orchEnd_orch, orchStarted_orch]
  case refused =>
    intro s agent v c op hc hreach hrange
    have hex := exec_orchCommand hc hreach hrange
    refine ⟨fun hp => ?_, fun hp hb => ?_⟩
    · refine ⟨_, hex.trans (by rw [orchCmd_refused (orchBegin_pending hp)]), (rdF_commit ..).trans (rdF_orchEnd_RESULT _ _ (by decide)), ?_⟩
      rw [commit_orch, orchEnd_orch, orchStarted_orch]
    · refine ⟨_, hex.trans (by rw [orchCmd_refused (orchBegin_noTable hp hb)]), (rdF_commit ..).trans (rdF_orchEnd_RESULT _ _ (by decide)),
        ?_⟩
      rw [commit_orch, orchEnd_orch, orchStarted_orch]
  case visit =>
    intro d b i _ hu hv ht hs hh _ _ hage
    rw [readUnit_of_orch (ageVisit_stale hu hv ht hs hh hage)]
    exact eValid_readUnit_cleared ..

end Sys2Proof
end

section
/-!
PROOF. The entries of the associative arrays (R192, R193): their canonical form, one entry write (R204), and the run of the writes that an
operation makes in its target acres (R205).
-/
namespace Sys2Proof.Machine

/-! Canonical entries (R193). -/

theorem aValid_aCanon (e : Nat) : aValid (aCanon e) = aValid e := by
  have hpow (n : Nat) : 2 ^ (64 + n) = 2 ^ 64 * 2 ^ n := Nat.pow_add ..
  have hcanon : aCanon e = 2 ^ 64 * ((aValue e &&& aMask e) * 2 ^ 320 + aMask e) + setBits (bits e 0 64) 56 7 0 := by
    rw [aCanon, hpow 320, Nat.mul_left_comm, Nat.mul_comm (aMask e), ← Nat.mul_add]
  rw [aValid, bit_eq_testBit, hcanon, Nat.testBit_two_pow_mul_add _ (setBits_lt _ (bits_lt ..) (by decide)), if_pos (by decide),
    testBit_setBits, if_neg (by decide), testBit_bits, aValid, bit_eq_testBit]
  rfl

/-- An entry whose VALID bit is cleared is invalid as it is stored. -/
theorem aValid_aCanon_cleared (e : Nat) : aValid (aCanon (setBits e 63 1 0)) = false :=
  (aValid_aCanon _).trans (bit_setBits_same e 63 false)

/-! What reads of the arrays depend on. -/

/-- No soft-error injection waits (R437). -/
def InjectIdle (d : Dev) : Prop := flagF d Reg.FAULT_INJECT Reg.FAULT_INJECT_PENDING = false

section
variable {d e : Dev}

theorem InjectIdle.congr (hd : InjectIdle d) (h : rd e Reg.FAULT_INJECT = rd d Reg.FAULT_INJECT) : InjectIdle e := (flagF_congr h _).trans hd

theorem getCopy_congr (h : e.asc = d.asc) (a i : Nat) : getCopy e a i = getCopy d a i := by rw [getCopy, h, getCopy]
theorem getCell_congr (h : e.asc = d.asc) (a i : Nat) : getCell e a i = getCell d a i := by rw [getCell, h, getCell]
theorem repairDue_congr (h : e.asc = d.asc) (a i : Nat) : repairDue e a i = repairDue d a i := by rw [repairDue, h, repairDue]
theorem gleanPos_congr (h : e.asc = d.asc) (a : Nat) : gleanPos e a = gleanPos d a := by rw [gleanPos, h, gleanPos]

end

/-! One entry write (R204). -/

/-- With no injection waiting, a write makes the check bits of its word good. -/
theorem eccWrite_idle {d : Dev} (h : InjectIdle d) (r : Ram) (i src a : Nat) : eccWrite d r i src a = setEcc d r i 0 := by
  rw [eccWrite, injectAt_idle h]

/-- The device with an entry stored in the copy and in the cells. -/
def storeEntry (d : Dev) (a i x : Nat) : Dev :=
  { d with asc := { d.asc with copy := spPut (fun _ => 0) d.asc.copy (aKey a i) x, cells := spPut (fun _ => 0) d.asc.cells (aKey a i) x } }

/-- The device with the check bits of an entry good and no repair of it waiting. -/
def settleEntry (d : Dev) (a i : Nat) : Dev := setRepair (setEcc (setEcc d .assocCopy (aKey a i) 0) .assocTag (aKey a i) 0) a i 0

section
variable (d : Dev) (a i x : Nat)

theorem rd_storeEntry (o : Nat) : rd (storeEntry d a i x) o = rd d o := rfl
theorem copy_storeEntry : (storeEntry d a i x).asc.copy = spPut (fun _ => 0) d.asc.copy (aKey a i) x := rfl
theorem cells_storeEntry : (storeEntry d a i x).asc.cells = spPut (fun _ => 0) d.asc.cells (aKey a i) x := rfl
theorem steps_storeEntry : (storeEntry d a i x).asc.steps = d.asc.steps := rfl
theorem reread_storeEntry : (storeEntry d a i x).asc.reread = d.asc.reread := rfl

theorem rd_settleEntry (o : Nat) : rd (settleEntry d a i) o = rd d o := rfl
theorem copy_settleEntry : (settleEntry d a i).asc.copy = d.asc.copy := rfl
theorem cells_settleEntry : (settleEntry d a i).asc.cells = d.asc.cells := rfl
theorem steps_settleEntry : (settleEntry d a i).asc.steps = d.asc.steps := rfl
theorem reread_settleEntry : (settleEntry d a i).asc.reread = d.asc.reread := rfl

theorem repairDue_settleEntry : repairDue (settleEntry d a i) a i = false := by
  rw [repairDue, settleEntry, setRepair, spGet_spPut_same]
  rfl

theorem ecc_settleEntry_tag : ecc (settleEntry d a i) .assocTag (aKey a i) = 0 := by
  rw [settleEntry, setRepair]
  exact (ecc_setEcc (setEcc d .assocCopy (aKey a i) 0) .assocTag (aKey a i) (aKey a i) 0).trans (if_pos rfl)

end

/-- With no injection waiting, copy and array hold the canonical entry, the check bits are good, and no repair of the entry waits. -/
theorem aWrite_idle {d : Dev} (h : InjectIdle d) (a i e : Nat) : aWrite d a i e = settleEntry (storeEntry d a i (aCanon e)) a i := by
  have hstored : InjectIdle (storeEntry d a i (aCanon e)) := h.congr (rd_storeEntry ..)
  simp only [aWrite, injectAt_idle h, if_true, Nat.xor_zero]
  rw [settleEntry, ← eccWrite_idle hstored _ _ (256 * 5 + aInst a i) 0, storeEntry]

section
variable {d : Dev} (h : InjectIdle d) (a i e : Nat)
include h

theorem getCopy_aWrite_same : getCopy (aWrite d a i e) a i = aCanon e := by
  rw [aWrite_idle h, getCopy, copy_settleEntry, copy_storeEntry, spGet_spPut_same]

theorem getCell_aWrite_same : getCell (aWrite d a i e) a i = aCanon e := by
  rw [aWrite_idle h, getCell, cells_settleEntry, cells_storeEntry, spGet_spPut_same]

theorem repairDue_aWrite_same : repairDue (aWrite d a i e) a i = false := by
  rw [aWrite_idle h, repairDue_settleEntry]

theorem ecc_aWrite_tag : ecc (aWrite d a i e) .assocTag (aKey a i) = 0 := by
  rw [aWrite_idle h, ecc_settleEntry_tag]

end

/-- The device after an agent's write has asked for a line to be read again, where a repair of the entry waits (R211). -/
def rereadAsked (d : Dev) (a i : Nat) : Dev :=
  { d with asc := { d.asc with reread := if repairDue d a i = true ∧ 4096 * a + i / 8 ∉ d.asc.reread
      then d.asc.reread ++ [4096 * a + i / 8] else d.asc.reread } }

section
variable (d : Dev) (a i : Nat)

theorem rd_rereadAsked (o : Nat) : rd (rereadAsked d a i) o = rd d o := rfl
theorem copy_rereadAsked : (rereadAsked d a i).asc.copy = d.asc.copy := rfl
theorem cells_rereadAsked : (rereadAsked d a i).asc.cells = d.asc.cells := rfl
theorem steps_rereadAsked : (rereadAsked d a i).asc.steps = d.asc.steps := rfl

end

theorem aPut_eq (d : Dev) (a i e : Nat) : aPut d a i e = aWrite (rereadAsked d a i) a i e := by
  have hasked : (if repairDue d a i = true ∧ 4096 * a + i / 8 ∉ d.asc.reread
      then { d with asc := { d.asc with reread := d.asc.reread ++ [4096 * a + i / 8] } } else d) = rereadAsked d a i := by
    rw [rereadAsked]
    split <;> rfl
  rw [← hasked, aPut]

theorem mem_rereadAsked {d : Dev} {a i : Nat} (h : repairDue d a i = true) : 4096 * a + i / 8 ∈ (rereadAsked d a i).asc.reread := by
  rw [rereadAsked]
  by_cases hn : 4096 * a + i / 8 ∈ d.asc.reread
  · simp only [hn, not_true_eq_false, and_false, if_false]
  · simp only [h, hn, not_false_eq_true, and_self, if_true, List.mem_append, List.mem_singleton, or_true]

section
variable {d : Dev} (h : InjectIdle d) (a i e : Nat)
include h

theorem aPut_idle : aPut d a i e = settleEntry (storeEntry (rereadAsked d a i) a i (aCanon e)) a i := by
  rw [aPut_eq, aWrite_idle (h.congr (rd_rereadAsked ..))]

theorem InjectIdle.aPut : InjectIdle (aPut d a i e) := by
  rw [aPut_idle h]
  exact h.congr (by rw [rd_settleEntry, rd_storeEntry, rd_rereadAsked])

theorem aPut_steps : (aPut d a i e).asc.steps = d.asc.steps := by
  rw [aPut_idle h, steps_settleEntry, steps_storeEntry, steps_rereadAsked]

theorem aPut_copy : (aPut d a i e).asc.copy = spPut (fun _ => 0) d.asc.copy (aKey a i) (aCanon e) := by
  rw [aPut_idle h, copy_settleEntry, copy_storeEntry, copy_rereadAsked]

theorem aPut_cells : (aPut d a i e).asc.cells = spPut (fun _ => 0) d.asc.cells (aKey a i) (aCanon e) := by
  rw [aPut_idle h, cells_settleEntry, cells_storeEntry, cells_rereadAsked]

/-- A write by an agent cancels the repair of its entry, and the gleaner reads the line again (R211). -/
theorem aPut_cancels (hr : repairDue d a i = true) :
    repairDue (aPut d a i e) a i = false ∧ 4096 * a + i / 8 ∈ (aPut d a i e).asc.reread := by
  rw [aPut_idle h, repairDue_settleEntry, reread_settleEntry, reread_storeEntry]
  exact ⟨rfl, mem_rereadAsked hr⟩

end

/-! The entries of one acre, as a function of the index. -/

/-- The copy and the cells of each entry of an acre. -/
def acreEntries (d : Dev) (b : Nat) (j : Fin 32768) : Nat × Nat := (getCopy d b j, getCell d b j)

/-- The entries of an acre with one of them written (R193). -/
def withEntry (x : Fin 32768 → Nat × Nat) (i : Fin 32768) (e : Nat) : Fin 32768 → Nat × Nat := Function.update x i (aCanon e, aCanon e)

theorem withEntry_same (x : Fin 32768 → Nat × Nat) (i : Fin 32768) (e : Nat) : withEntry x i e i = (aCanon e, aCanon e) := Function.update_self ..

theorem withEntry_other (x : Fin 32768 → Nat × Nat) {i j : Fin 32768} (e : Nat) (h : j ≠ i) : withEntry x i e j = x j :=
  Function.update_of_ne h ..

theorem acreEntries_aPut {d : Dev} (h : InjectIdle d) (a : Nat) (i : Fin 32768) (e b : Nat) :
    acreEntries (aPut d a i e) b = if b = a then withEntry (acreEntries d b) i e else acreEntries d b := by
  have hkey (j : Fin 32768) : aKey b j = aKey a i ↔ b = a ∧ j = i := by
    simp only [aKey, Fin.ext_iff]
    omega
  funext j
  rw [acreEntries, getCopy, getCell, aPut_copy h, aPut_cells h, spGet_spPut, spGet_spPut]
  by_cases hb : b = a
  · by_cases hj : j = i
    · rw [if_pos ((hkey j).mpr ⟨hb, hj⟩), if_pos ((hkey j).mpr ⟨hb, hj⟩), if_pos hb, hj, withEntry_same]
    · rw [if_neg (fun hk => hj ((hkey j).mp hk).2), if_neg (fun hk => hj ((hkey j).mp hk).2), if_pos hb, withEntry_other _ _ hj]
      rfl
  · rw [if_neg (fun hk => hb ((hkey j).mp hk).1), if_neg (fun hk => hb ((hkey j).mp hk).1), if_neg hb]
    rfl

/-! A run of writes. -/

/-- A change of the device that makes g of the entries of the acre it is made in, and leaves those of the others. -/
def ActsInAcre (f : Dev → Nat → Dev) (g : (Fin 32768 → Nat × Nat) → Fin 32768 → Nat × Nat) : Prop :=
  ∀ d a, InjectIdle d → InjectIdle (f d a) ∧ ∀ b, acreEntries (f d a) b = if b = a then g (acreEntries d b) else acreEntries d b

/-- Made in several acres in turn, it makes g of the entries of each of them. -/
theorem ActsInAcre.run {f : Dev → Nat → Dev} {g : (Fin 32768 → Nat × Nat) → Fin 32768 → Nat × Nat} (hf : ActsInAcre f g) {l : List Nat}
    (hl : l.Nodup) {d : Dev} (hd : InjectIdle d) (b : Nat) :
    acreEntries (l.foldl f d) b = if b ∈ l then g (acreEntries d b) else acreEntries d b := by
  induction l generalizing d with
  | nil => rfl
  | cons x t ih =>
    obtain ⟨hx, ht⟩ := List.nodup_cons.mp hl
    obtain ⟨hidle, hstep⟩ := hf d x hd
    rw [List.foldl_cons, ih ht hidle, hstep b]
    by_cases hb : b = x
    · rw [if_neg (hb ▸ hx), if_pos hb, if_pos (hb ▸ List.mem_cons_self)]
    · simp only [List.mem_cons, hb, false_or, if_false]

/-- WRITE in one acre. -/
theorem actsInAcre_put (i : Fin 32768) (e : Nat) : ActsInAcre (fun d a => assocStep d (.put a i e)) fun x => withEntry x i e :=
  fun _ a hd => ⟨hd.aPut a i e, acreEntries_aPut hd a i e⟩

/-- INVALIDATE in one acre. -/
theorem actsInAcre_clear (i : Fin 32768) :
    ActsInAcre (fun d a => assocStep d (.clear a i)) fun x => withEntry x i (setBits (x i).1 63 1 0) := by
  refine fun d a hd => ⟨hd.aPut a i _, fun b => ?_⟩
  refine (acreEntries_aPut hd a i _ b).trans ?_
  by_cases hb : b = a
  · rw [if_pos hb, if_pos hb, hb]
    rfl
  · rw [if_neg hb, if_neg hb]

/-- The first half of MOVE in one acre. -/
theorem actsInAcre_copy (src dst : Fin 32768) :
    ActsInAcre (fun d a => assocStep d (.copy a src dst)) fun x => withEntry x dst (x src).1 := by
  refine fun d a hd => ⟨hd.aPut a dst _, fun b => ?_⟩
  refine (acreEntries_aPut hd a dst _ b).trans ?_
  by_cases hb : b = a
  · rw [if_pos hb, if_pos hb, hb]
    rfl
  · rw [if_neg hb, if_neg hb]

/-- The entries of an acre after a MOVE that does not keep its source (R205). -/
def movedEntries (src dst : Fin 32768) (x : Fin 32768 → Nat × Nat) : Fin 32768 → Nat × Nat :=
  withEntry (withEntry x dst (x src).1) src (setBits (withEntry x dst (x src).1 src).1 63 1 0)

theorem movedEntries_src (src dst : Fin 32768) (x : Fin 32768 → Nat × Nat) : aValid (movedEntries src dst x src).1 = false := by
  rw [movedEntries, withEntry_same]
  exact aValid_aCanon_cleared _

theorem movedEntries_dst {src dst : Fin 32768} (h : src ≠ dst) (x : Fin 32768 → Nat × Nat) :
    movedEntries src dst x dst = (aCanon (x src).1, aCanon (x src).1) := by
  rw [movedEntries, withEntry_other _ _ h.symm, withEntry_same]

/-- MOVE in one acre. -/
theorem actsInAcre_move (src dst : Fin 32768) :
    ActsInAcre (fun d a => (aMove src dst false a).foldl assocStep d) (movedEntries src dst) := by
  intro d a hd
  obtain ⟨hcopied, hcopy⟩ := actsInAcre_copy src dst d a hd
  obtain ⟨hcleared, hclear⟩ := actsInAcre_clear src _ a hcopied
  refine ⟨hcleared, fun b => (hclear b).trans ?_⟩
  rw [hcopy b]
  by_cases hb : b = a
  · simp only [if_pos hb]
    rfl
  · simp only [if_neg hb]

/-! The writes at the command and those that follow it (R204, R205). -/

/-- Two devices with the same copies and cells, and no injection waiting in either. -/
structure SameArrays (d e : Dev) : Prop where
  copy : e.asc.copy = d.asc.copy
  cells : e.asc.cells = d.asc.cells
  idle : InjectIdle d
  idle' : InjectIdle e

section
variable {d e : Dev}

theorem SameArrays.getCopy_eq (h : SameArrays d e) (a i : Nat) : getCopy e a i = getCopy d a i := by rw [getCopy, h.copy, getCopy]
theorem SameArrays.getCell_eq (h : SameArrays d e) (a i : Nat) : getCell e a i = getCell d a i := by rw [getCell, h.cells, getCell]

theorem SameArrays.entries (h : SameArrays d e) (b : Nat) : acreEntries e b = acreEntries d b :=
  funext fun j => Prod.ext (h.getCopy_eq b j) (h.getCell_eq b j)

theorem SameArrays.put (h : SameArrays d e) (a i x : Nat) : SameArrays (aPut d a i x) (aPut e a i x) where
  copy := by rw [aPut_copy h.idle', aPut_copy h.idle, h.copy]
  cells := by rw [aPut_cells h.idle', aPut_cells h.idle, h.cells]
  idle := h.idle.aPut a i x
  idle' := h.idle'.aPut a i x

theorem SameArrays.step (h : SameArrays d e) (x : AssocStep) : SameArrays (assocStep d x) (assocStep e x) := by
  cases x with
  | put a i v => exact h.put a i v
  | clear a i =>
    rw [assocStep, assocStep, h.getCopy_eq]
    exact h.put a i _
  | copy a src dst =>
    rw [assocStep, assocStep, h.getCopy_eq]
    exact h.put a dst _

theorem SameArrays.steps (l : List AssocStep) (h : SameArrays d e) : SameArrays (l.foldl assocStep d) (l.foldl assocStep e) := by
  induction l generalizing d e with
  | nil => exact h
  | cons x t ih => exact ih (h.step x)

theorem InjectIdle.step (hd : InjectIdle d) (x : AssocStep) : InjectIdle (assocStep d x) := by
  cases x <;> exact hd.aPut _ _ _

theorem assocStep_steps (hd : InjectIdle d) (x : AssocStep) : (assocStep d x).asc.steps = d.asc.steps := by
  cases x <;> exact aPut_steps hd _ _ _

/-- The device with the writes that an operation has left. -/
def withSteps (d : Dev) (l : List AssocStep) : Dev := { d with asc := { d.asc with steps := l } }

theorem InjectIdle.withSteps (hd : InjectIdle d) (l : List AssocStep) : InjectIdle (withSteps d l) := hd

theorem assocStart_cons (x : AssocStep) (t : List AssocStep) (d : Dev) : assocStart (x :: t) d = assocStep (withSteps d t) x := rfl

theorem InjectIdle.start (hd : InjectIdle d) (l : List AssocStep) : InjectIdle (assocStart l d) := by
  cases l with
  | nil => exact hd
  | cons x t => exact (hd.withSteps t).step x

/-- One step is made at the command; the rest are left. -/
theorem assocStart_steps (hd : InjectIdle d) (l : List AssocStep) : (assocStart l d).asc.steps = l.drop 1 := by
  cases l with
  | nil => rfl
  | cons x t => exact assocStep_steps (hd.withSteps t) x

/-- By the end of an operation all of its writes have been made, in order. -/
theorem assocFinish_start {l : List AssocStep} (hd : InjectIdle d) (he : InjectIdle e) (h : e.asc = (assocStart l d).asc) :
    SameArrays (l.foldl assocStep d) (assocFinish e) := by
  have hsteps : e.asc.steps = l.drop 1 := by rw [h, assocStart_steps hd]
  rw [assocFinish, hsteps]
  cases l with
  | nil => exact ⟨by rw [h]; rfl, by rw [h]; rfl, hd, he⟩
  | cons x t =>
    have hbegun : SameArrays d (withSteps d t) := ⟨rfl, rfl, hd, hd.withSteps t⟩
    have hfirst := hbegun.step x
    rw [assocStart_cons] at h
    exact SameArrays.steps t ⟨by rw [← hfirst.copy, ← h], by rw [← hfirst.cells, ← h], hfirst.idle, he⟩

end

end Sys2Proof.Machine
end

section
/-!
PROOF. ASSOC_CMD (R203, R206): the path of a command to its operation, how an operation begins and ends, and what each operation does.
-/
namespace Sys2Proof.Machine

/-! The command as its register holds it. -/

theorem isOwnReg_ASSOC_CMD : isOwnReg Reg.ASSOC_CMD Reg.ASSOC_CMD 0 0 = true := by decide +kernel

/-- Two fields of a word that share no bit. -/
def FieldsApart (f g : Fld) : Prop := f.lo + f.w ≤ g.lo ∨ g.lo + g.w ≤ f.lo

/-- Of fields that are written in turn and share no bit, each reads what was written to it. -/
theorem getF_foldl_setF_apart {l : List Fld} (hl : l.Pairwise FieldsApart) (x : Fld → Nat) (v : W64) {f : Fld} (hf : f ∈ l)
    (hw : f.lo + f.w ≤ 64) : getF ((l.map fun g => (g, x g)).foldl (fun v y => setF v y.1 y.2) v) f = x f % 2 ^ f.w := by
  obtain ⟨s, t, rfl⟩ := List.append_of_mem hf
  obtain ⟨-, ht, -⟩ := List.pairwise_append.mp hl
  have hrest := (List.pairwise_cons.mp ht).1
  rw [List.map_append, List.map_cons]
  refine getF_foldl_setF_last _ _ v hw fun y hy => ?_
  obtain ⟨g, hg, rfl⟩ := List.mem_map.mp hy
  exact hrest g hg

/-- The operands of a command. -/
def assocOperands : List Fld := [Reg.ASSOC_CMD_RAW, Reg.ASSOC_CMD_KEEP_SRC, Reg.ASSOC_CMD_SRC_INDEX, Reg.ASSOC_CMD_INDEX, Reg.ASSOC_CMD_ACRE]

theorem assocFields_apart : (assocOperands ++ [Reg.ASSOC_CMD_OP]).Pairwise FieldsApart := by
  simp [assocOperands, FieldsApart, Reg.ASSOC_CMD_RAW, Reg.ASSOC_CMD_KEEP_SRC, Reg.ASSOC_CMD_SRC_INDEX, Reg.ASSOC_CMD_INDEX,
    Reg.ASSOC_CMD_ACRE, Reg.ASSOC_CMD_OP]

theorem assocOperands_above_OP : ∀ f ∈ assocOperands, Reg.ASSOC_CMD_OP.lo + Reg.ASSOC_CMD_OP.w ≤ f.lo ∧ f.lo + f.w ≤ 64 := by decide

/-- Every field of ASSOC_CMD is taken from the value written. -/
theorem stored_ASSOC_CMD (d : Dev) (v : W64) : stored d Reg.ASSOC_CMD v =
    ((assocOperands ++ [Reg.ASSOC_CMD_OP]).map fun f => (f, getF v f)).foldl (fun v y => setF v y.1 y.2) (rd d Reg.ASSOC_CMD) := rfl

/-- The command with an operation, as ASSOC_CMD holds it. -/
def assocWord (d : Dev) (v : W64) (op : Nat) : W64 := stored d Reg.ASSOC_CMD (setF v Reg.ASSOC_CMD_OP op)

theorem getF_setF_OP {f : Fld} (hf : f ∈ assocOperands) (v : W64) (op : Nat) : getF (setF v Reg.ASSOC_CMD_OP op) f = getF v f := by
  obtain ⟨hlo, hw⟩ := assocOperands_above_OP f hf
  exact getF_setF_other _ _ _ _ (.inr hlo) hw

theorem getF_assocWord {f : Fld} (hf : f ∈ assocOperands) (d : Dev) (v : W64) (op : Nat) : getF (assocWord d v op) f = getF v f := by
  rw [assocWord, stored_ASSOC_CMD,
    getF_foldl_setF_apart assocFields_apart _ _ (List.mem_append_left _ hf) (assocOperands_above_OP f hf).2, getF_setF_OP hf]
  exact Nat.mod_eq_of_lt (bits_lt ..)

theorem getF_assocWord_OP (d : Dev) (v : W64) (op : Nat) : getF (assocWord d v op) Reg.ASSOC_CMD_OP = op % 8 := by
  rw [assocWord, stored_ASSOC_CMD,
    getF_foldl_setF_apart assocFields_apart _ _ (List.mem_append_right _ List.mem_cons_self) (by decide), getF_setF _ _ _ (by decide)]
  exact Nat.mod_mod ..

/-- A command that names a present acre is performed. -/
theorem regEffect_ASSOC_CMD {v : W64} {d : Dev} (ha : getF v Reg.ASSOC_CMD_ACRE < acreCount d) (agent i j : Nat) (x : W64) (m : Mem) :
    regEffect ⟨agent, Reg.ASSOC_CMD, Reg.ASSOC_CMD, i, j, v, x⟩ m d = (true, assocCmd x (startedBy d 2 agent)) := by
  have hgood : assocBadAcre d v = false := by
    rw [assocBadAcre, decide_eq_false (Nat.not_le.mpr ha), Bool.and_false]
  simp [regEffect, effAssoc, Reg.ASSOC_CMD, hgood]

/-! The begin of a command. -/

/-- Device e is device d as a command of value v begins: w is the command as ASSOC_CMD holds it, and d' device d with the agent kept. -/
structure CmdBegun (d : Dev) (v w : W64) (d' e : Dev) : Prop where
  begun : aBegin d' w = e
  operands : ∀ f ∈ assocOperands, getF w f = getF v f
  asc : e.asc = d.asc
  upset : e.upset = d.upset
  fuses : e.fuses = d.fuses
  regs : ∀ o, o ≠ Reg.ASSOC_CMD → o ≠ Reg.ASSOC_STATUS → rd e o = rd d o

theorem cmdBegun_startedBy (d : Dev) (agent : Nat) {v w : W64} (hw : ∀ f ∈ assocOperands, getF w f = getF v f) :
    CmdBegun d v w (startedBy d 2 agent) (aBegin (startedBy d 2 agent) w) where
  begun := rfl
  operands := hw
  asc := (wrF_asc ..).trans (wr_asc ..)
  upset := (wrF_upset ..).trans (wr_upset ..)
  fuses := (wrF_fuses ..).trans (wr_fuses ..)
  regs := fun _ h hs => (rd_wr_other _ _ hs).trans (rd_wr_other _ _ h)

section
variable {d d' e : Dev} {v w : W64} (h : CmdBegun d v w d' e)
include h

theorem CmdBegun.operand_RAW : getF w Reg.ASSOC_CMD_RAW = getF v Reg.ASSOC_CMD_RAW := h.operands _ (by decide)
theorem CmdBegun.operand_KEEP_SRC : getF w Reg.ASSOC_CMD_KEEP_SRC = getF v Reg.ASSOC_CMD_KEEP_SRC := h.operands _ (by decide)
theorem CmdBegun.operand_SRC_INDEX : getF w Reg.ASSOC_CMD_SRC_INDEX = getF v Reg.ASSOC_CMD_SRC_INDEX := h.operands _ (by decide)
theorem CmdBegun.operand_INDEX : getF w Reg.ASSOC_CMD_INDEX = getF v Reg.ASSOC_CMD_INDEX := h.operands _ (by decide)
theorem CmdBegun.operand_ACRE : getF w Reg.ASSOC_CMD_ACRE = getF v Reg.ASSOC_CMD_ACRE := h.operands _ (by decide)

theorem CmdBegun.ecc_eq (r : Ram) (i : Nat) : ecc e r i = ecc d r i := ecc_congr h.upset r i
theorem CmdBegun.getCopy_eq (a i : Nat) : getCopy e a i = getCopy d a i := getCopy_congr h.asc a i
theorem CmdBegun.getCell_eq (a i : Nat) : getCell e a i = getCell d a i := getCell_congr h.asc a i
theorem CmdBegun.idle (hd : InjectIdle d) : InjectIdle e := hd.congr (h.regs _ (by decide) (by decide))

theorem CmdBegun.aData_eq : aData e = aData d := by
  have hword (i : Nat) : rd e (Reg.ASSOC_DATA i) = rd d (Reg.ASSOC_DATA i) :=
    h.regs _ (by simp only [Reg.ASSOC_DATA, Reg.ASSOC_CMD]; omega) (by simp only [Reg.ASSOC_DATA, Reg.ASSOC_STATUS]; omega)
  simp only [aData, hword]

theorem CmdBegun.aMatches_eq (a hold key : Nat) : aMatches e a hold key = aMatches d a hold key := by
  have hmap : rd e (Reg.SEG_MAP a hold) = rd d (Reg.SEG_MAP a hold) :=
    h.regs _ (by simp only [Reg.SEG_MAP, Reg.ASSOC_CMD]; omega) (by simp only [Reg.SEG_MAP, Reg.ASSOC_STATUS]; omega)
  rw [aMatches, aMatches, hmap, h.asc]

theorem CmdBegun.aTargets_eq : aTargets e w = aTargets d v := by
  rw [aTargets, aTargets, flagF_congr (h.regs _ (by decide) (by decide)), h.operand_ACRE, acreCount, acreCount, h.fuses]

end

/-- The five commands, each with its OP. -/
def assocCommands (agent : Nat) (v : W64) : List (Instr × Nat) :=
  [(.assocRead agent v, 1), (.assocWrite agent v, 2), (.assocInvalidate agent v, 3), (.assocMove agent v, 4), (.assocSearch agent v, 5)]

/-- Each of them writes ASSOC_CMD with its OP, and so performs the operation. -/
theorem exec_assocCommand {s : State} {agent op : Nat} {v : W64} {c : Instr} (hc : (c, op) ∈ assocCommands agent v)
    (ha : getF v Reg.ASSOC_CMD_ACRE < acreCount s.dev)
    (h : WriteReaches s.dev agent Reg.ASSOC_CMD (setF v Reg.ASSOC_CMD_OP op) ∧ FieldsInRange Reg.ASSOC_CMD (setF v Reg.ASSOC_CMD_OP op)) :
    ∃ w d' e, CmdBegun s.dev v w d' e ∧ getF w Reg.ASSOC_CMD_OP = op % 8 ∧ exec c s = .next (commit s (assocCmd w d')) := by
  have hexec : exec c s = .next (commit s (regWrite agent Reg.ASSOC_CMD (setF v Reg.ASSOC_CMD_OP op) s.mem s.dev)) := by
    simp only [assocCommands, List.mem_cons, Prod.mk.injEq, List.not_mem_nil, or_false] at hc
    rcases hc with ⟨rfl, rfl⟩ | ⟨rfl, rfl⟩ | ⟨rfl, rfl⟩ | ⟨rfl, rfl⟩ | ⟨rfl, rfl⟩ <;> rfl
  have hacre : getF (setF v Reg.ASSOC_CMD_OP op) Reg.ASSOC_CMD_ACRE < acreCount s.dev := by rwa [getF_setF_OP (by decide)]
  refine ⟨assocWord s.dev v op, _, _, cmdBegun_startedBy s.dev agent fun f hf => getF_assocWord hf .., getF_assocWord_OP .., ?_⟩
  rw [hexec, regWrite_accepted isOwnReg_ASSOC_CMD (by decide) h.1 h.2 (regEffect_ASSOC_CMD hacre ..), assocWord]

section
variable {v : W64} (d : Dev)

theorem assocCmd_read (h : getF v Reg.ASSOC_CMD_OP = 1) : assocCmd v d = assocRead v d := by simp [assocCmd, h]
theorem assocCmd_write (h : getF v Reg.ASSOC_CMD_OP = 2) : assocCmd v d = assocWrite v d := by simp [assocCmd, h]
theorem assocCmd_invalidate (h : getF v Reg.ASSOC_CMD_OP = 3) : assocCmd v d = assocInvalidate v d := by simp [assocCmd, h]
theorem assocCmd_move (h : getF v Reg.ASSOC_CMD_OP = 4) : assocCmd v d = assocMove v d := by simp [assocCmd, h]
theorem assocCmd_search (h : getF v Reg.ASSOC_CMD_OP = 5) : assocCmd v d = assocSearch v d := by simp [assocCmd, h]

end

/-- One acre, or every present one: no acre is named twice. -/
theorem nodup_acres (p : Bool) (a n : Nat) : (if p then [a] else List.range n).Nodup := by
  split
  · exact List.nodup_singleton _
  · exact List.nodup_range

theorem aTargets_nodup (d : Dev) (v : W64) : (aTargets d v).Nodup := nodup_acres ..

/-- The targets of a command that names a present acre are not none. -/
theorem exists_mem_aTargets {d : Dev} {v : W64} (ha : getF v Reg.ASSOC_CMD_ACRE < acreCount d) : ∃ b t, aTargets d v = b :: t := by
  rw [← List.ne_nil_iff_exists_cons, aTargets]
  split
  · exact List.cons_ne_nil _ _
  · exact List.ne_nil_of_mem (List.mem_range.mpr ha)

/-! The end of an operation: its status, and the entry that it shows. -/

section
variable (d : Dev) (r : Nat) (index count : Option Nat)

/-- What holds once RESULT is written, and stands when INDEX or COUNT is, holds at the end. -/
theorem aEnd_induct {P : Dev → Prop} (hr : P (wrF d Reg.ASSOC_STATUS Reg.ASSOC_STATUS_RESULT r))
    (hi : ∀ e i, P e → P (wrF e Reg.ASSOC_STATUS Reg.ASSOC_STATUS_INDEX i))
    (hn : ∀ e n, P e → P (wrF e Reg.ASSOC_STATUS Reg.ASSOC_STATUS_COUNT n)) : P (aEnd d r index count) := by
  cases index with
  | none => cases count with
    | none => exact hr
    | some n => exact hn _ n hr
  | some i => cases count with
    | none => exact hi _ i hr
    | some n => exact hn _ n (hi _ i hr)

theorem rd_aEnd {o : Nat} (h : o ≠ Reg.ASSOC_STATUS) : rd (aEnd d r index count) o = rd d o :=
  aEnd_induct d r index count (P := fun e => rd e o = rd d o) (rd_wr_other _ _ h) (fun _ _ he => (rd_wr_other _ _ h).trans he)
    fun _ _ he => (rd_wr_other _ _ h).trans he

theorem aEnd_asc : (aEnd d r index count).asc = d.asc :=
  aEnd_induct d r index count (P := fun e => e.asc = d.asc) (wrF_asc ..) (fun _ _ he => (wrF_asc ..).trans he)
    fun _ _ he => (wrF_asc ..).trans he

theorem rdF_aEnd_RESULT (hr : r < 16) : rdF (aEnd d r index count) Reg.ASSOC_STATUS Reg.ASSOC_STATUS_RESULT = r :=
  aEnd_induct d r index count (P := fun e => rdF e Reg.ASSOC_STATUS Reg.ASSOC_STATUS_RESULT = r)
    ((rdF_wrF_same _ _ _ _ (by decide)).trans (Nat.mod_eq_of_lt hr)) (fun _ _ he => (rdF_wrF_other _ _ (.inr (by decide))).trans he)
    fun _ _ he => (rdF_wrF_other _ _ (.inr (by decide))).trans he

theorem rdF_aEnd_COUNT (n : Nat) : rdF (aEnd d r index (some n)) Reg.ASSOC_STATUS Reg.ASSOC_STATUS_COUNT = n % 256 :=
  rdF_wrF_same _ _ _ _ (by decide)

theorem rdF_aEnd_INDEX (i n : Nat) : rdF (aEnd d r (some i) (some n)) Reg.ASSOC_STATUS Reg.ASSOC_STATUS_INDEX = i % 32768 :=
  (rdF_wrF_other _ _ (.inr (by decide))).trans (rdF_wrF_same _ _ _ _ (by decide))

end

section
variable (d : Dev) (e : Nat)

theorem aShow_asc : (aShow d e).asc = d.asc := by
  obtain ⟨re, h⟩ := foldl_wr_shape (List.range 11) Reg.ASSOC_DATA (fun i => BitVec.ofNat 64 (bits e (64 * (10 - i)) 64)) d
  rw [aShow, h]

theorem rd_aShow_other {o : Nat} (h : ∀ i, o ≠ Reg.ASSOC_DATA i) : rd (aShow d e) o = rd d o :=
  foldl_keeps (g := fun d => rd d o) (fun d i => rd_wr_other d _ (h i)) _ d

theorem rd_aShow {w : Nat} (hw : w < 11) : rd (aShow d e) (Reg.ASSOC_DATA w) = BitVec.ofNat 64 (bits e (64 * (10 - w)) 64) := by
  have hother (d : Dev) (k j : Nat) (h : j ≠ k) (x : W64) : rd (wr d (Reg.ASSOC_DATA k) x) (Reg.ASSOC_DATA j) = rd d (Reg.ASSOC_DATA j) :=
    rd_wr_other d x (by simp only [Reg.ASSOC_DATA]; omega)
  exact foldl_visited (get := fun d k => rd d (Reg.ASSOC_DATA k)) (new := fun _ k => BitVec.ofNat 64 (bits e (64 * (10 - k)) 64))
    (fun d k j h => hother d k j h _) (fun d k => rd_wr_same ..) (fun _ _ _ _ => rfl) List.nodup_range (List.mem_range.mpr hw) d

theorem rd_aEnd_aShow (r : Nat) (index count : Option Nat) {w : Nat} (hw : w < 11) :
    rd (aEnd (aShow d e) r index count) (Reg.ASSOC_DATA w) = BitVec.ofNat 64 (bits e (64 * (10 - w)) 64) := by
  rw [rd_aEnd _ _ _ _ (by simp only [Reg.ASSOC_DATA, Reg.ASSOC_STATUS]; omega), rd_aShow _ _ hw]

end

section
variable {d : Dev} (h : InjectIdle d)
include h

theorem InjectIdle.aEnd (r : Nat) (index count : Option Nat) : InjectIdle (aEnd d r index count) := h.congr (rd_aEnd _ _ _ _ (by decide))

theorem InjectIdle.aShow (e : Nat) : InjectIdle (aShow d e) :=
  h.congr (rd_aShow_other _ _ fun i => by simp only [Reg.FAULT_INJECT, Reg.ASSOC_DATA]; omega)

theorem InjectIdle.commit (s : State) : InjectIdle (commit s d).dev := h.congr (rd_commit ..)

end

/-! The operations. -/

/-- How SEARCH ends, from the number of matches and their winner (R199, R206). -/
def searchAnswer (e : Dev) (n : Nat) : Option (Nat × Nat) → Dev
  | none => aEnd e 1 none (some 0)
  | some x => aEnd (aShow e x.2) 0 (some x.1) (some (min 255 n))

/-- No uncorrectable copy stands in the way of an operation that reads entry j of each target acre. -/
theorem any_copy_bad_eq_false {d : Dev} {v : W64} {j : Nat} (he : ∀ b ∈ aTargets d v, ecc d .assocCopy (aKey b j) ≠ 2) :
    ((aTargets d v).any fun b => ecc d .assocCopy (aKey b j) == 2) = false :=
  List.any_eq_false.mpr fun b hb => by simpa using he b hb

section
variable {d d' e : Dev} {v w : W64} (h : CmdBegun d v w d' e)
include h

section
variable {a i : Nat} (ha : getF v Reg.ASSOC_CMD_ACRE = a) (hi : getF v Reg.ASSOC_CMD_INDEX = i)
include ha hi

theorem CmdBegun.read_copy (hraw : getF v Reg.ASSOC_CMD_RAW = 0) (he : ecc d .assocCopy (aKey a i) ≠ 2) :
    assocRead w d' = aEnd (aShow e (getCopy d a i)) 0 (some i) none := by
  simp only [assocRead, h.begun, h.operand_RAW,
    h.operand_ACRE, h.operand_INDEX,
    ha, hi, hraw, h.ecc_eq, h.getCopy_eq]
  rw [if_neg (by decide), if_neg he]

theorem CmdBegun.read_cells (hraw : getF v Reg.ASSOC_CMD_RAW = 1) :
    assocRead w d' = aEnd (aShow e (getCell d a i)) 0 (some i) none := by
  simp only [assocRead, h.begun, h.operand_RAW,
    h.operand_ACRE, h.operand_INDEX,
    ha, hi, hraw, h.getCell_eq, if_true]

end

section
variable {i : Nat} (hi : getF v Reg.ASSOC_CMD_INDEX = i)
include hi

theorem CmdBegun.write : assocWrite w d' =
    aEnd (assocStart ((aTargets d v).map fun b => .put b i (aData d)) e) 0 (some i) none := by
  simp only [assocWrite, h.begun, h.operand_INDEX, hi, h.aTargets_eq, h.aData_eq]

theorem CmdBegun.invalidate (he : ∀ b ∈ aTargets d v, ecc d .assocCopy (aKey b i) ≠ 2) : assocInvalidate w d' =
    aEnd (assocStart ((aTargets d v).map fun b => .clear b i) e) 0 (some i) none := by
  simp only [assocInvalidate, h.begun, h.operand_INDEX, hi, h.aTargets_eq, h.ecc_eq,
    any_copy_bad_eq_false he, Bool.false_eq_true, if_false]

theorem CmdBegun.move {src b : Nat} {t : List Nat} (hs : getF v Reg.ASSOC_CMD_SRC_INDEX = src) (hk : getF v Reg.ASSOC_CMD_KEEP_SRC = 0)
    (ht : aTargets d v = b :: t) (he : ∀ b ∈ aTargets d v, ecc d .assocCopy (aKey b src) ≠ 2)
    (hv : aValid (getCopy d b src) = true) : assocMove w d' =
      aEnd (aShow (assocStart ((aTargets d v).flatMap (aMove src i false)) e) (getCopy d b src)) 0 (some i) none := by
  have hhead : (aTargets d v).headD 0 = b := by rw [ht, List.headD_cons]
  simp only [assocMove, h.begun, h.operand_INDEX,
    h.operand_SRC_INDEX,
    h.operand_KEEP_SRC, hi, hs, hk, h.aTargets_eq, h.ecc_eq, h.getCopy_eq, any_copy_bad_eq_false he,
    hhead, hv, Bool.false_eq_true, not_true_eq_false, if_false]
  rfl

end

section
variable {a : Nat} (ha : getF v Reg.ASSOC_CMD_ACRE = a) {l : List (Nat × Nat)}
  (hl : l = aMatches d a (aOwner (aData d)) (aValue (aData d)))
include ha hl

/-- SEARCH answers the winner. The definition is opened unapplied, because on an applied one the kernel would try to evaluate the winner. -/
theorem CmdBegun.search : assocSearch w d' = searchAnswer e l.length (aWinner (aOwner (aData d)) l) := by
  suffices hf : ∀ f, f = assocSearch → f w d' = searchAnswer e l.length (aWinner (aOwner (aData d)) l) from hf _ rfl
  intro f hf
  delta assocSearch at hf
  have hq := h.aData_eq
  generalize aData d = q at hq hl
  cases hx : aWinner (aOwner q) l with
  | none => simp only [hf, h.begun, h.operand_ACRE, ha, hq, h.aMatches_eq, ← hl, hx, searchAnswer]
  | some x => simp only [hf, h.begun, h.operand_ACRE, ha, hq, h.aMatches_eq, ← hl, hx, searchAnswer]

end
end

end Sys2Proof.Machine
end

section
/-!
PROOF. ASSOC_CFG (R195) and SEG_MAP (R196).
-/
namespace Sys2Proof.Machine

/-! The mode. -/

theorem isOwnReg_ASSOC_CFG : isOwnReg Reg.ASSOC_CFG Reg.ASSOC_CFG 0 0 = true := by decide +kernel

theorem fieldsInRange_ASSOC_CFG (v : W64) : FieldsInRange Reg.ASSOC_CFG v := by
  have hb := bits_lt v.toNat 0 1
  show rangeOk [⟨0, 1, .rw, 0, 1⟩] v = true
  simp only [rangeOk, List.all_cons, List.all_nil, Bool.and_true, Nat.zero_le, decide_true, Bool.true_and, Bool.or_eq_true,
    decide_eq_true_eq]
  omega

theorem stored_ASSOC_CFG (d : Dev) (v : W64) : stored d Reg.ASSOC_CFG v =
    setF (rd d Reg.ASSOC_CFG) Reg.ASSOC_CFG_MODE (getF v Reg.ASSOC_CFG_MODE) := rfl

theorem regEffect_ASSOC_CFG (agent i j : Nat) (v x : W64) (m : Mem) (d : Dev) :
    regEffect ⟨agent, Reg.ASSOC_CFG, Reg.ASSOC_CFG, i, j, v, x⟩ m d =
      if anyHoldingOpen d = true then (false, d) else (true, wr d Reg.ASSOC_CFG x) := by
  cases h : anyHoldingOpen d <;> simp [regEffect, effAssoc, storeIf, Reg.ASSOC_CFG, Reg.ASSOC_CMD, h]

section
variable {m : Mem} {d : Dev} {agent : Nat} {v : W64} (h : WriteReaches d agent Reg.ASSOC_CFG v)
include h

theorem regWrite_ASSOC_CFG_closed (ho : anyHoldingOpen d = false) :
    regWrite agent Reg.ASSOC_CFG v m d = wr d Reg.ASSOC_CFG (stored d Reg.ASSOC_CFG v) :=
  regWrite_accepted isOwnReg_ASSOC_CFG (by decide) h (fieldsInRange_ASSOC_CFG v) (by rw [regEffect_ASSOC_CFG, ho, if_neg (by decide)])

theorem regWrite_ASSOC_CFG_open (ho : anyHoldingOpen d = true) :
    regWrite agent Reg.ASSOC_CFG v m d = hostReject d agent Reg.ASSOC_CFG (islandsOf d Reg.ASSOC_CFG v) :=
  regWrite_refused isOwnReg_ASSOC_CFG h (fieldsInRange_ASSOC_CFG v) (by rw [regEffect_ASSOC_CFG, if_pos ho])

end

theorem exec_assocCfgWrite (s : State) (agent mode : Nat) : exec (.assocCfgWrite agent mode) s =
    .next (commit s (regWrite agent Reg.ASSOC_CFG (setF 0 Reg.ASSOC_CFG_MODE mode) s.mem s.dev)) := rfl

/-! The segment maps. -/

section
variable {a h : Nat} (ha : a < 4) (hh : h < 256)
include ha hh

theorem regAt_SEG_MAP : ∃ p, regAt (Reg.SEG_MAP a h) = some (p, [a, h]) ∧ p.base = Reg.SEG_MAP 0 0 ∧
    p.flds = [⟨0, 64, .rwv, 0, 0xFFFFFFFFFFFFFFFF⟩] := by
  have hzero : Reg.SEG_MAP 0 0 = 0x1610000 := rfl
  have hoff : Reg.SEG_MAP a h = 0x1610000 + (0x800 * a + 8 * h) := Nat.add_assoc ..
  have hblock : Reg.SEG_MAP a h / 0x100000 = 22 := by omega
  have hbase (b : Nat) (hb : b ≤ 0x1610000) : b ≤ Reg.SEG_MAP a h := by omega
  have hsingle (b : Nat) (hb : b < 0x1610000) : Reg.SEG_MAP a h - b ≠ 0 := by omega
  have hdata : ¬ (Reg.SEG_MAP a h - 0x1600100) / 8 < 11 := by omega
  have hcnt : ¬ (Reg.SEG_MAP a h - 0x1600300) / 64 < 4 := by clear hdata; omega
  have hacre : (Reg.SEG_MAP a h - 0x1610000) / 0x800 = a := by omega
  have hhold : (Reg.SEG_MAP a h - 0x1610000) % 0x800 / 8 = h := by omega
  have hlast : (Reg.SEG_MAP a h - 0x1610000) % 8 = 0 := by omega
  rw [regAt, hblock]
  simp [regsOfBlock, assocRegs, List.findSome?, regIdx, hzero, hbase, hsingle, hdata, hcnt, hacre, hhold, hlast, ha, hh]

theorem isOwnReg_SEG_MAP : isOwnReg (Reg.SEG_MAP a h) (Reg.SEG_MAP 0 0) a h = true := by
  obtain ⟨p, hp, hbase, -⟩ := regAt_SEG_MAP ha hh
  have haddr : Reg.SEG_MAP a h < 0x2000000 ∧ Reg.SEG_MAP a h % 8 = 0 ∧ Reg.SEG_MAP a h / 0x100000 = 22 := by
    simp only [Reg.SEG_MAP]; omega
  have hbit : bit (Reg.SEG_MAP a h) 19 = false := by
    simp only [bit, Reg.SEG_MAP, beq_eq_false_iff_ne]; omega
  simp [isOwnReg, hp, hbase, unpeek, hbit, haddr]

theorem fieldsInRange_SEG_MAP (v : W64) : FieldsInRange (Reg.SEG_MAP a h) v := by
  obtain ⟨p, hp, -, hflds⟩ := regAt_SEG_MAP ha hh
  have hb := bits_lt v.toNat 0 64
  simp only [FieldsInRange, hp, rangeOk, hflds, List.all_cons, List.all_nil, Bool.and_true, Nat.zero_le, decide_true, Bool.true_and,
    Bool.or_eq_true, decide_eq_true_eq]
  omega

/-- A write with at most 8 bits set is accepted; another is not. -/
theorem regEffect_SEG_MAP (agent : Nat) (v x : W64) (m : Mem) (d : Dev) :
    regEffect ⟨agent, Reg.SEG_MAP a h, Reg.SEG_MAP 0 0, a, h, v, x⟩ m d =
      if 8 < popCount 64 v.toNat then (false, d) else (true, segMapWrite a h v d) := by
  have hblock : Reg.SEG_MAP a h / 0x100000 = 22 := by simp only [Reg.SEG_MAP]; omega
  have hne : Reg.SEG_MAP 0 0 ≠ Reg.ASSOC_CMD ∧ Reg.SEG_MAP 0 0 ≠ Reg.ASSOC_CFG := by decide
  simp [regEffect, hblock, effAssoc, hne]

section
variable {m : Mem} {d : Dev} {agent : Nat} {v : W64} (hr : WriteReaches d agent (Reg.SEG_MAP a h) v)
include hr

theorem regWrite_SEG_MAP_accepted (hv : popCount 64 v.toNat ≤ 8) : regWrite agent (Reg.SEG_MAP a h) v m d =
    voterWrite (segMapWrite a h v d) (Reg.SEG_MAP 0 0) (Reg.SEG_MAP a h) ((islandsOf d (Reg.SEG_MAP a h) v).headD 0) := by
  rw [regWrite_own (isOwnReg_SEG_MAP ha hh) hr (fieldsInRange_SEG_MAP ha hh v), regEffect_SEG_MAP ha hh, if_neg (Nat.not_lt.mpr hv)]
  exact if_pos rfl

theorem regWrite_SEG_MAP_refused (hv : 8 < popCount 64 v.toNat) : regWrite agent (Reg.SEG_MAP a h) v m d =
    hostReject d agent (Reg.SEG_MAP a h) (islandsOf d (Reg.SEG_MAP a h) v) :=
  regWrite_refused (isOwnReg_SEG_MAP ha hh) hr (fieldsInRange_SEG_MAP ha hh v) (by rw [regEffect_SEG_MAP ha hh, if_pos hv])

end
end

theorem mem_mapTargets {d : Dev} {a b : Nat} (hb : b < acreCount d) :
    b ∈ (if flagF d Reg.ASSOC_CFG Reg.ASSOC_CFG_MODE = true then [a] else List.range (acreCount d)) ↔
      b = a ∨ flagF d Reg.ASSOC_CFG Reg.ASSOC_CFG_MODE = false := by
  cases flagF d Reg.ASSOC_CFG Reg.ASSOC_CFG_MODE <;> simp [hb]

/-- The mask reaches the acre named, and in REPLICATED mode every present acre. -/
theorem rd_segMapWrite {d : Dev} {a h b : Nat} (hb : b < acreCount d) (v : W64) : rd (segMapWrite a h v d) (Reg.SEG_MAP b h) =
    if b = a ∨ flagF d Reg.ASSOC_CFG Reg.ASSOC_CFG_MODE = false then v else rd d (Reg.SEG_MAP b h) := by
  have hother (e : Dev) (k j : Nat) (hj : j ≠ k) : rd (wr e (Reg.SEG_MAP k h) v) (Reg.SEG_MAP j h) = rd e (Reg.SEG_MAP j h) :=
    rd_wr_other e v (by simp only [Reg.SEG_MAP]; omega)
  rw [segMapWrite]
  by_cases hm : b = a ∨ flagF d Reg.ASSOC_CFG Reg.ASSOC_CFG_MODE = false
  · rw [if_pos hm]
    exact foldl_visited (get := fun d k => rd d (Reg.SEG_MAP k h)) (new := fun _ _ => v) hother (fun _ _ => rd_wr_same ..)
      (fun _ _ _ _ => rfl) (nodup_acres ..) ((mem_mapTargets hb).mpr hm) d
  · rw [if_neg hm]
    exact foldl_unvisited (get := fun d k => rd d (Reg.SEG_MAP k h)) hother (mt (mem_mapTargets hb).mp hm) d

theorem exec_segMapWrite (s : State) (agent a h : Nat) (v : W64) :
    exec (.segMapWrite agent a h v) s = .next (commit s (regWrite agent (Reg.SEG_MAP a h) v s.mem s.dev)) := rfl

end Sys2Proof.Machine
end

section
/-!
PROOF. The gleaner of the associative arrays (R208 to R211).
-/
namespace Sys2Proof.Machine

/-! The read of a line (R209). -/

/-- The read of a copy corrects its single-bit error. -/
def copyChecked (a i : Nat) (d : Dev) : Dev := if ecc d .assocCopy (aKey a i) = 1 then setEcc d .assocCopy (aKey a i) 0 else d

theorem copyChecked_shape (a i : Nat) (d : Dev) : ∃ up, copyChecked a i d = { d with upset := up } := by
  rw [copyChecked]
  split
  · exact ⟨_, rfl⟩
  · exact ⟨d.upset, rfl⟩

theorem copyChecked_asc (a i : Nat) (d : Dev) : (copyChecked a i d).asc = d.asc := by
  obtain ⟨up, h⟩ := copyChecked_shape a i d
  rw [h]

/-- An entry that needs it is marked for its repair. -/
def markBad (a i : Nat) (d : Dev) : Dev := if aBad d a i then setRepair d a i 1 else d

/-- The gleaner's visit of entry k of a line. -/
def gleanEntry (a line : Nat) (d : Dev) (k : Nat) : Dev := markBad a (8 * line + k) (copyChecked a (8 * line + k) d)

theorem gleanRead_eq_foldl (a line : Nat) (d : Dev) : gleanRead a line d = (List.range 8).foldl (gleanEntry a line) d := rfl

section
variable (a line : Nat) (d : Dev)

/-- A visit changes check bits and the repairs that wait. -/
theorem gleanEntry_shape (k : Nat) : ∃ up re, gleanEntry a line d k = { d with upset := up, asc := { d.asc with repairs := re } } := by
  obtain ⟨up, hup⟩ := copyChecked_shape a (8 * line + k) d
  rw [gleanEntry, hup, markBad]
  split
  · exact ⟨up, _, rfl⟩
  · exact ⟨up, d.asc.repairs, rfl⟩

theorem getCopy_gleanEntry (k b j : Nat) : getCopy (gleanEntry a line d k) b j = getCopy d b j := by
  obtain ⟨up, re, h⟩ := gleanEntry_shape a line d k
  rw [h]
  rfl

theorem getCell_gleanEntry (k b j : Nat) : getCell (gleanEntry a line d k) b j = getCell d b j := by
  obtain ⟨up, re, h⟩ := gleanEntry_shape a line d k
  rw [h]
  rfl

end

theorem repairDue_setRepair (d : Dev) (a i b j : Nat) (h : repairDue d b j = true) : repairDue (setRepair d a i 1) b j = true := by
  rw [repairDue, setRepair, spGet_spPut]
  split
  · rfl
  · exact h

section
variable {a line k : Nat} {d : Dev}

/-- A visit drops no repair that waits. -/
theorem gleanEntry_keeps_repair {i : Nat} (h : repairDue d a i = true) : repairDue (gleanEntry a line d k) a i = true := by
  have hchecked : repairDue (copyChecked a (8 * line + k) d) a i = true := (repairDue_congr (copyChecked_asc ..) a i).trans h
  rw [gleanEntry, markBad]
  split
  · exact repairDue_setRepair _ _ _ _ _ hchecked
  · exact hchecked

/-- An entry whose cells differ from its copy waits for its repair after the visit. -/
theorem gleanEntry_marks (h : getCell d a (8 * line + k) ≠ getCopy d a (8 * line + k)) :
    repairDue (gleanEntry a line d k) a (8 * line + k) = true := by
  have hbad : aBad (copyChecked a (8 * line + k) d) a (8 * line + k) = true := by
    rw [aBad, getCell_congr (copyChecked_asc ..), getCopy_congr (copyChecked_asc ..), bne_iff_ne.mpr h]
    rfl
  rw [gleanEntry, markBad, if_pos hbad, repairDue, setRepair, spGet_spPut_same]
  rfl

/-- After the read of a line every entry of it whose cells differ from its copy waits for its repair. -/
theorem gleanRead_marks (hk : k < 8) (h : getCell d a (8 * line + k) ≠ getCopy d a (8 * line + k)) :
    repairDue (gleanRead a line d) a (8 * line + k) = true := by
  obtain ⟨s, t, hst⟩ := List.append_of_mem (List.mem_range.mpr hk)
  have hcell : getCell (s.foldl (gleanEntry a line) d) a (8 * line + k) = getCell d a (8 * line + k) :=
    foldl_keeps (g := fun d => getCell d a (8 * line + k)) (fun d x => getCell_gleanEntry a line d x _ _) s d
  have hcopy : getCopy (s.foldl (gleanEntry a line) d) a (8 * line + k) = getCopy d a (8 * line + k) :=
    foldl_keeps (g := fun d => getCopy d a (8 * line + k)) (fun d x => getCopy_gleanEntry a line d x _ _) s d
  rw [gleanRead_eq_foldl, hst, List.foldl_append, List.foldl_cons]
  exact List.foldlRecOn (motive := fun d => repairDue d a (8 * line + k) = true) t _ (gleanEntry_marks (by rwa [hcell, hcopy]))
    fun _ hx _ _ => gleanEntry_keeps_repair hx

end

/-! The walk (R209), and the choice of the next cycle's work (R208). -/

theorem walkDone_repairs_pos (a : Nat) (d : Dev) : (walkDone a d).asc.repairs = d.asc.repairs ∧ (walkDone a d).asc.pos = d.asc.pos := by
  rw [walkDone]
  split
  · rw [bumpSat_asc]
    exact ⟨rfl, rfl⟩
  · exact ⟨rfl, rfl⟩

/-- The walk after its line has been read: it stands at the next line. -/
def walkMoved (a p : Nat) (d : Dev) : Dev := { d with asc := { d.asc with pos := spPut (fun _ => 0) d.asc.pos a ((p + 1) % 4096) } }

theorem walkMoved_repairs (a p : Nat) (d : Dev) : (walkMoved a p d).asc.repairs = d.asc.repairs := rfl

theorem gleanPos_walkMoved (a p : Nat) (d : Dev) : gleanPos (walkMoved a p d) a = (p + 1) % 4096 := spGet_spPut_same ..

theorem gleanWalk_eq (a : Nat) (d : Dev) : gleanWalk a d =
    if gleanPos d a = 4095 then walkDone a (walkMoved a (gleanPos d a) (gleanRead a (gleanPos d a) d))
    else walkMoved a (gleanPos d a) (gleanRead a (gleanPos d a) d) := rfl

theorem repairDue_gleanWalk (a b i : Nat) (d : Dev) : repairDue (gleanWalk a d) b i = repairDue (gleanRead a (gleanPos d a) d) b i := by
  rw [gleanWalk_eq, repairDue]
  split
  · rw [(walkDone_repairs_pos ..).1, walkMoved_repairs, repairDue]
  · rw [walkMoved_repairs, repairDue]

theorem gleanPos_gleanWalk (a : Nat) (d : Dev) : gleanPos (gleanWalk a d) a = (gleanPos d a + 1) % 4096 := by
  rw [gleanWalk_eq]
  split
  · rw [gleanPos, (walkDone_repairs_pos ..).2, ← gleanPos, gleanPos_walkMoved]
  · rw [gleanPos_walkMoved]

section
variable {a : Nat} {d : Dev} (hre : ∀ n ∈ d.asc.reread, n / 4096 ≠ a)
include hre

theorem find_reread_none : (d.asc.reread.find? fun n => n / 4096 == a) = none :=
  List.find?_eq_none.mpr fun n hn => by simpa using hre n hn

/-- With no line to read again, a pending repair comes first. -/
theorem gleanLine_repair {e : Nat × Nat} (he : (d.asc.repairs.find? fun e => e.1 / 32768 == a) = some e) :
    gleanLine a d = gleanRepair a (e.1 % 32768) d := by
  rw [gleanLine, find_reread_none hre, he]

/-- With no line to read again and no repair, the walk reads its next line. -/
theorem gleanLine_walk (hrep : ∀ e ∈ d.asc.repairs, e.1 / 32768 ≠ a) : gleanLine a d = gleanWalk a d := by
  have hnone : (d.asc.repairs.find? fun e => e.1 / 32768 == a) = none := List.find?_eq_none.mpr fun e he => by simpa using hrep e he
  rw [gleanLine, find_reread_none hre, hnone]

end

theorem exec_assocGleanerLine (s : State) (a named : Nat) : exec (.assocGleanerLine a named) s = .next (commit s (gleanLine a s.dev)) := rfl

/-! The repair (R210). -/

section
variable {d : Dev} (a n : Nat)

/-- The device after an entry has been written again from its copy, which is counted and reported. -/
def entryRepaired (d : Dev) (a n : Nat) : Dev :=
  raise (bump (aWrite d a n (getCopy d a n)) (Reg.ASSOC_CNT a 5)) Fk.assocRepaired (aInst a n) 0 8 6

/-- An entry with a good copy is repaired from it. -/
theorem gleanRepair_good (he : ecc d .assocCopy (aKey a n) ≠ 2) : gleanRepair a n d = entryRepaired d a n := if_pos he

theorem entryRepaired_asc : (entryRepaired d a n).asc = (aWrite d a n (getCopy d a n)).asc := by
  rw [entryRepaired, raise_asc, bump_asc]

theorem entryRepaired_upset : (entryRepaired d a n).upset = (aWrite d a n (getCopy d a n)).upset := by
  rw [entryRepaired, raise_upset, bump_upset]

/-- The device after an entry has been lost: it is invalid, and ASSOC_GLEAN_STATUS names it. -/
def entryLost (d : Dev) (a n : Nat) : Dev :=
  raise (wrFs (bump (aWrite d a n (setBits (getCopy d a n) 63 1 0)) (Reg.ASSOC_CNT a 6)) Reg.ASSOC_GLEAN_STATUS
    [(Reg.ASSOC_GLEAN_STATUS_ACRE, a), (Reg.ASSOC_GLEAN_STATUS_INDEX, n), (Reg.ASSOC_GLEAN_STATUS_LOST, 1)]) Fk.assocLost (aInst a n) 0 8 6

/-- In PARTITIONED mode an entry with no good copy is lost. -/
theorem gleanRepair_lost (he : ecc d .assocCopy (aKey a n) = 2) (hm : flagF d Reg.ASSOC_CFG Reg.ASSOC_CFG_MODE = true) :
    gleanRepair a n d = entryLost d a n := by
  rw [gleanRepair]
  simp only [he, hm, ne_eq, not_true_eq_false, if_false, if_true]
  rfl

theorem entryLost_asc : (entryLost d a n).asc = (aWrite d a n (setBits (getCopy d a n) 63 1 0)).asc := by
  rw [entryLost, raise_asc, wrFs_asc, bump_asc]

theorem rdF_entryLost_LOST : rdF (entryLost d a n) Reg.ASSOC_GLEAN_STATUS Reg.ASSOC_GLEAN_STATUS_LOST = 1 := by
  rw [entryLost, rdF_raise]
  exact rdF_wrFs_last _ _ [_, _] [] (by decide) (by simp)

end

theorem exec_assocGleanerRepair {s : State} {a n : Nat} (h : repairDue s.dev a n = true) :
    exec (.assocGleanerRepair a n) s = .next (commit s (gleanRepair a n s.dev)) :=
  congrArg (fun d => Host.Outcome.next (commit s d)) (if_pos h)

end Sys2Proof.Machine
end

section
/-!
PROOF. The commands of ASSOC_CMD as a state runs them (R203 to R206). With the registers and the gleaner the obligation on the associative
arrays is settled.
-/
namespace Sys2Proof.Machine

/-! The entries once an operation has made all of its writes. -/

theorem acreEntries_congr {d e : Dev} (h : e.asc = d.asc) (b : Nat) : acreEntries e b = acreEntries d b :=
  funext fun j => Prod.ext (getCopy_congr h b j) (getCell_congr h b j)

/-- An operation whose writes make g of the entries of each target acre in turn has made it in all of them by its end (R204). -/
theorem acreEntries_finish {f : Dev → Nat → Dev} {g : (Fin 32768 → Nat × Nat) → Fin 32768 → Nat × Nat} (hg : ActsInAcre f g)
    {l : List Nat} (hl : l.Nodup) {ops : List AssocStep} {d t : Dev} (hops : ops.foldl assocStep d = l.foldl f d) (hd : InjectIdle d)
    (ht : InjectIdle t) (h : t.asc = (assocStart ops d).asc) (b : Nat) :
    acreEntries (assocFinish t) b = if b ∈ l then g (acreEntries d b) else acreEntries d b := by
  rw [(assocFinish_start hd ht h).entries, hops, hg.run hl hd]

/-! What the status and the data registers show at the end of an operation. -/

/-- The result of the last operation. -/
def assocResult (t : State) : Nat := rdF t.dev Reg.ASSOC_STATUS Reg.ASSOC_STATUS_RESULT

/-- ASSOC_DATA shows an entry. -/
def EntryShown (t : State) (e : Nat) : Prop := ∀ w, w < 11 → rd t.dev (Reg.ASSOC_DATA w) = BitVec.ofNat 64 (bits e (64 * (10 - w)) 64)

section
variable (s : State) (d : Dev) (r : Nat) (index count : Option Nat)

theorem assocResult_aEnd (hr : r < 16) : assocResult (commit s (aEnd d r index count)) = r :=
  (rdF_commit ..).trans (rdF_aEnd_RESULT _ _ _ _ hr)

theorem entryShown_aEnd (e : Nat) : EntryShown (commit s (aEnd (aShow d e) r index count)) e := fun _ hw =>
  (rd_commit ..).trans (rd_aEnd_aShow _ _ _ _ _ hw)

theorem commit_aEnd_asc : (commit s (aEnd d r index count)).dev.asc = d.asc := (commit_asc ..).trans (aEnd_asc ..)

theorem commit_aEnd_aShow_asc (e : Nat) : (commit s (aEnd (aShow d e) r index count)).dev.asc = d.asc :=
  (commit_aEnd_asc ..).trans (aShow_asc ..)

end

/-! The commands. -/

section
variable {s : State} {agent : Nat} {v : W64} {a i : Nat} (ha : getF v Reg.ASSOC_CMD_ACRE = a) (hi : getF v Reg.ASSOC_CMD_INDEX = i)
  (hpresent : a < acreCount s.dev) (hreach : ∀ op, 1 ≤ op → op ≤ 5 →
    WriteReaches s.dev agent Reg.ASSOC_CMD (setF v Reg.ASSOC_CMD_OP op) ∧ FieldsInRange Reg.ASSOC_CMD (setF v Reg.ASSOC_CMD_OP op))
include ha hpresent hreach

/-- Each of the five commands begins, and performs its operation. -/
theorem exec_assocCommand_op {c : Instr} {op : Nat} (hc : (c, op) ∈ assocCommands agent v) (h1 : 1 ≤ op) (h5 : op ≤ 5) :
    ∃ w d' e, CmdBegun s.dev v w d' e ∧ getF w Reg.ASSOC_CMD_OP = op ∧ exec c s = .next (commit s (assocCmd w d')) := by
  obtain ⟨w, d', e, hb, hop, hex⟩ := exec_assocCommand hc (ha ▸ hpresent) (hreach op h1 h5)
  exact ⟨w, d', e, hb, hop.trans (Nat.mod_eq_of_lt (by omega)), hex⟩

section
include hi

theorem exec_assocRead_copy (hraw : getF v Reg.ASSOC_CMD_RAW = 0) (he : ecc s.dev .assocCopy (aKey a i) ≠ 2) :
    ∃ t, exec (.assocRead agent v) s = .next t ∧ assocResult t = 0 ∧ EntryShown t (getCopy s.dev a i) ∧ t.dev.asc = s.dev.asc := by
  obtain ⟨w, d', e, hb, hop, hex⟩ := exec_assocCommand_op ha hpresent hreach (c := .assocRead agent v) (op := 1)
    (by simp [assocCommands]) (by decide) (by decide)
  rw [hex, assocCmd_read _ hop, hb.read_copy ha hi hraw he]
  exact ⟨_, rfl, assocResult_aEnd _ _ _ _ _ (by decide), entryShown_aEnd _ _ _ _ _ _, (commit_aEnd_aShow_asc ..).trans hb.asc⟩

theorem exec_assocRead_cells (hraw : getF v Reg.ASSOC_CMD_RAW = 1) :
    ∃ t, exec (.assocRead agent v) s = .next t ∧ assocResult t = 0 ∧ EntryShown t (getCell s.dev a i) ∧ t.dev.asc = s.dev.asc := by
  obtain ⟨w, d', e, hb, hop, hex⟩ := exec_assocCommand_op ha hpresent hreach (c := .assocRead agent v) (op := 1)
    (by simp [assocCommands]) (by decide) (by decide)
  rw [hex, assocCmd_read _ hop, hb.read_cells ha hi hraw]
  exact ⟨_, rfl, assocResult_aEnd _ _ _ _ _ (by decide), entryShown_aEnd _ _ _ _ _ _, (commit_aEnd_aShow_asc ..).trans hb.asc⟩

end

section
include hi
variable (hidle : InjectIdle s.dev)
include hidle

/-- WRITE makes its first write at the command and leaves the others; by its end each target acre holds the entry. -/
theorem exec_assocWrite (hi' : i < 32768) : ∃ t, exec (.assocWrite agent v) s = .next t ∧ assocResult t = 0 ∧
    t.dev.asc.steps = ((aTargets s.dev v).map fun b => AssocStep.put b i (aData s.dev)).drop 1 ∧
    ∀ b, acreEntries (assocFinish t.dev) b =
      if b ∈ aTargets s.dev v then withEntry (acreEntries s.dev b) ⟨i, hi'⟩ (aData s.dev) else acreEntries s.dev b := by
  obtain ⟨w, d', e, hb, hop, hex⟩ := exec_assocCommand_op ha hpresent hreach (c := .assocWrite agent v) (op := 2)
    (by simp [assocCommands]) (by decide) (by decide)
  have he := hb.idle hidle
  rw [hex, assocCmd_write _ hop, hb.write hi]
  refine ⟨_, rfl, assocResult_aEnd _ _ _ _ _ (by decide), ?steps, fun b => ?entries⟩
  case steps => rw [commit_aEnd_asc, assocStart_steps he]
  case entries =>
    rw [acreEntries_finish (actsInAcre_put ⟨i, hi'⟩ (aData s.dev)) (aTargets_nodup ..) List.foldl_map he
      (((he.start _).aEnd _ _ _).commit s) (commit_aEnd_asc ..) b, acreEntries_congr hb.asc]

/-- INVALIDATE clears VALID in each target acre by its end. -/
theorem exec_assocInvalidate (hi' : i < 32768) (hgood : ∀ b ∈ aTargets s.dev v, ecc s.dev .assocCopy (aKey b i) ≠ 2) :
    ∃ t, exec (.assocInvalidate agent v) s = .next t ∧ assocResult t = 0 ∧ ∀ b ∈ aTargets s.dev v,
      acreEntries (assocFinish t.dev) b = withEntry (acreEntries s.dev b) ⟨i, hi'⟩ (setBits (acreEntries s.dev b ⟨i, hi'⟩).1 63 1 0) := by
  obtain ⟨w, d', e, hb, hop, hex⟩ := exec_assocCommand_op ha hpresent hreach (c := .assocInvalidate agent v) (op := 3)
    (by simp [assocCommands]) (by decide) (by decide)
  have he := hb.idle hidle
  rw [hex, assocCmd_invalidate _ hop, hb.invalidate hi hgood]
  refine ⟨_, rfl, assocResult_aEnd _ _ _ _ _ (by decide), fun b hm => ?_⟩
  rw [acreEntries_finish (actsInAcre_clear ⟨i, hi'⟩) (aTargets_nodup ..) List.foldl_map he
    (((he.start _).aEnd _ _ _).commit s) (commit_aEnd_asc ..) b, if_pos hm, acreEntries_congr hb.asc]

/-- MOVE writes the destination of its first acre at the command, while the source stands; by its end every target acre is moved (R205). -/
theorem exec_assocMove {src : Nat} (hi' : i < 32768) (hs' : src < 32768) (hs : getF v Reg.ASSOC_CMD_SRC_INDEX = src)
    (hk : getF v Reg.ASSOC_CMD_KEEP_SRC = 0)
    (hgood : ∀ b ∈ aTargets s.dev v, ecc s.dev .assocCopy (aKey b src) ≠ 2 ∧ aValid (getCopy s.dev b src) = true) :
    ∃ t, exec (.assocMove agent v) s = .next t ∧ assocResult t = 0 ∧
      (∀ b, (aTargets s.dev v).head? = some b →
        acreEntries t.dev b = withEntry (acreEntries s.dev b) ⟨i, hi'⟩ (acreEntries s.dev b ⟨src, hs'⟩).1) ∧
      ∀ b ∈ aTargets s.dev v, acreEntries (assocFinish t.dev) b = movedEntries ⟨src, hs'⟩ ⟨i, hi'⟩ (acreEntries s.dev b) := by
  obtain ⟨w, d', e, hb, hop, hex⟩ := exec_assocCommand_op ha hpresent hreach (c := .assocMove agent v) (op := 4)
    (by simp [assocCommands]) (by decide) (by decide)
  obtain ⟨x, l, hl⟩ := exists_mem_aTargets (ha ▸ hpresent)
  obtain ⟨-, hvalid⟩ := hgood x (hl ▸ List.mem_cons_self)
  have he := hb.idle hidle
  rw [hex, assocCmd_move _ hop, hb.move hi hs hk hl (fun b hm => (hgood b hm).1) hvalid]
  refine ⟨_, rfl, assocResult_aEnd _ _ _ _ _ (by decide), fun b hm => ?first, fun b hm => ?finished⟩
  case first =>
    have hx : x = b := by simpa [hl] using hm
    rw [acreEntries_congr (commit_aEnd_aShow_asc ..), hl, List.flatMap_cons, aMove, List.cons_append, assocStart_cons, hx,
      (actsInAcre_copy ⟨src, hs'⟩ ⟨i, hi'⟩ _ b (he.withSteps _)).2 b, if_pos rfl]
    exact congrArg (fun y => withEntry y ⟨i, hi'⟩ (y ⟨src, hs'⟩).1) (acreEntries_congr hb.asc b)
  case finished =>
    rw [acreEntries_finish (actsInAcre_move ⟨src, hs'⟩ ⟨i, hi'⟩) (aTargets_nodup ..) List.foldl_flatMap he
      ((((he.start _).aShow _).aEnd _ _ _).commit s) (commit_aEnd_aShow_asc ..) b, if_pos hm, acreEntries_congr hb.asc]

end

section
variable {l : List (Nat × Nat)} (hl : l = aMatches s.dev a (aOwner (aData s.dev)) (aValue (aData s.dev)))
include hl

theorem exec_assocSearch_winner {x : Nat × Nat} (hx : aWinner (aOwner (aData s.dev)) l = some x) (hlt : x.1 < 32768) :
    ∃ t, exec (.assocSearch agent v) s = .next t ∧ assocResult t = 0 ∧ EntryShown t x.2 ∧
      rdF t.dev Reg.ASSOC_STATUS Reg.ASSOC_STATUS_INDEX = x.1 ∧ rdF t.dev Reg.ASSOC_STATUS Reg.ASSOC_STATUS_COUNT = min 255 l.length := by
  obtain ⟨w, d', e, hb, hop, hex⟩ := exec_assocCommand_op ha hpresent hreach (c := .assocSearch agent v) (op := 5)
    (by simp [assocCommands]) (by decide) (by decide)
  rw [hex, assocCmd_search _ hop, hb.search ha hl, hx, searchAnswer]
  refine ⟨_, rfl, assocResult_aEnd _ _ _ _ _ (by decide), entryShown_aEnd _ _ _ _ _ _, ?_, ?_⟩
  · rw [rdF_commit, rdF_aEnd_INDEX, Nat.mod_eq_of_lt hlt]
  · rw [rdF_commit, rdF_aEnd_COUNT, Nat.mod_eq_of_lt (by omega)]

theorem exec_assocSearch_none (hx : aWinner (aOwner (aData s.dev)) l = none) :
    ∃ t, exec (.assocSearch agent v) s = .next t ∧ assocResult t = 1 ∧ rdF t.dev Reg.ASSOC_STATUS Reg.ASSOC_STATUS_COUNT = 0 := by
  obtain ⟨w, d', e, hb, hop, hex⟩ := exec_assocCommand_op ha hpresent hreach (c := .assocSearch agent v) (op := 5)
    (by simp [assocCommands]) (by decide) (by decide)
  rw [hex, assocCmd_search _ hop, hb.search ha hl, hx, searchAnswer]
  exact ⟨_, rfl, assocResult_aEnd _ _ _ _ _ (by decide), (rdF_commit ..).trans (rdF_aEnd_COUNT ..)⟩

end
end

/-- Settles O50: each command makes its step in every target acre, one at the command and the rest by its end, and the registers and the
gleaner act as their rules say. -/
theorem assocArrays : Obligations.AssocArrays := by
  unfold Obligations.AssocArrays
  refine ⟨?commands, ?mode, ?segMap, ?walk, ?pending, ?cancel, ?repair⟩
  case commands =>
    intro s agent v i a hi ha hpresent cmd result shown hreach hidle
    have hi' : i < 32768 := hi ▸ bits_lt _ _ 15
    refine ⟨?copy, ?cells, ?write, ?invalidate, ?move, ?search⟩
    case copy => exact fun hraw he => exec_assocRead_copy ha.symm hi.symm hpresent hreach hraw he
    case cells => exact fun hraw => exec_assocRead_cells ha.symm hi.symm hpresent hreach hraw
    case write =>
      obtain ⟨t, hex, hres, hsteps, hentries⟩ := exec_assocWrite ha.symm hi.symm hpresent hreach hidle hi'
      refine ⟨t, hex, hres, hsteps, fun b j _ hj => Prod.mk.inj ((congrFun (hentries b) ⟨j, hj⟩).trans ?_)⟩
      by_cases hb : b ∈ aTargets s.dev v
      · by_cases hji : j = i
        · subst hji
          rw [if_pos hb, withEntry_same, if_pos ⟨hb, rfl⟩, if_pos ⟨hb, rfl⟩]
        · rw [if_pos hb, withEntry_other _ _ (fun h => hji (Fin.ext_iff.mp h)), if_neg (fun h => hji h.2), if_neg (fun h => hji h.2)]
          rfl
      · rw [if_neg hb, if_neg (fun h => hb h.1), if_neg (fun h => hb h.1)]
        rfl
    case invalidate =>
      intro hgood
      obtain ⟨t, hex, hres, hentries⟩ := exec_assocInvalidate ha.symm hi.symm hpresent hreach hidle hi' hgood
      refine ⟨t, hex, hres, fun b hb => ?_⟩
      have hread := (congrFun (hentries b hb) ⟨i, hi'⟩).trans (withEntry_same ..)
      obtain ⟨hcopy, hcell⟩ := Prod.ext_iff.mp hread
      exact ⟨(congrArg aValid hcopy).trans (aValid_aCanon_cleared _), (congrArg aValid hcell).trans (aValid_aCanon_cleared _)⟩
    case move =>
      intro src hs hk hgood
      have hs' : src < 32768 := hs ▸ bits_lt _ _ 15
      have hne (h : src ≠ i) : (⟨src, hs'⟩ : Fin 32768) ≠ ⟨i, hi'⟩ := fun he => h (Fin.ext_iff.mp he)
      obtain ⟨t, hex, hres, hfirst, hfinished⟩ := exec_assocMove ha.symm hi.symm hpresent hreach hidle hi' hs' hs.symm hk hgood
      refine ⟨t, hex, hres, fun b hb => ⟨?_, fun hsi => ?_⟩, fun b hb => ⟨?_, fun hsi => ?_⟩⟩
      · exact congrArg Prod.fst ((congrFun (hfirst b hb) ⟨i, hi'⟩).trans (withEntry_same ..))
      · exact congrArg Prod.fst ((congrFun (hfirst b hb) ⟨src, hs'⟩).trans (withEntry_other _ _ (hne hsi)))
      · exact (congrArg (fun x => aValid x.1) (congrFun (hfinished b hb) ⟨src, hs'⟩)).trans (movedEntries_src ..)
      · exact congrArg Prod.fst ((congrFun (hfinished b hb) ⟨i, hi'⟩).trans (movedEntries_dst (hne hsi) _))
    case search =>
      intro l hl
      exact ⟨fun w hw hlt => exec_assocSearch_winner ha.symm hpresent hreach hl hw hlt,
        fun hw => exec_assocSearch_none ha.symm hpresent hreach hl hw⟩
  case mode =>
    intro s agent mode hmode hreach
    refine ⟨fun ho => ?_, fun ho => ?_⟩
    · refine ⟨_, (exec_assocCfgWrite ..).trans (by rw [regWrite_ASSOC_CFG_closed hreach ho]), ?_⟩
      rw [rdF_commit, rdF, rd_wr_same, stored_ASSOC_CFG, getF_setF _ _ _ (by decide), getF_setF _ _ _ (by decide)]
      exact (Nat.mod_mod ..).trans (Nat.mod_eq_of_lt hmode)
    · refine ⟨_, (exec_assocCfgWrite ..).trans (by rw [regWrite_ASSOC_CFG_open hreach ho]), ?_⟩
      rw [rd_commit, rd_hostReject_other _ _ _ _ (by decide)]
  case segMap =>
    intro s agent a h v ha hh hreach _
    have ha4 : a < 4 := Nat.lt_of_lt_of_le ha (by rw [acreCount]; split <;> decide)
    refine ⟨fun hv => ?_, fun hv => ?_⟩
    · refine ⟨_, (exec_segMapWrite ..).trans (by rw [regWrite_SEG_MAP_accepted ha4 hh hreach hv]), fun b hb => ?_⟩
      rw [rd_commit, rd_voterWrite _ _ _ _ (by simp only [Reg.SEG_MAP, Reg.FAULT_INJECT]; omega), rd_segMapWrite hb]
    · refine ⟨_, (exec_segMapWrite ..).trans (by rw [regWrite_SEG_MAP_refused ha4 hh hreach hv]), ?_⟩
      rw [rd_commit, rd_hostReject_other _ _ _ _ (by simp only [Reg.SEG_MAP, Reg.HOST_REJECT]; omega)]
  case walk =>
    intro s a line k named hline hk hre hrep hne
    subst hline
    refine ⟨_, (exec_assocGleanerLine ..).trans (by rw [gleanLine_walk hre hrep]), ?_, ?_⟩
    · rw [repairDue_congr (commit_asc ..), repairDue_gleanWalk, gleanRead_marks hk hne]
    · rw [gleanPos_congr (commit_asc ..), gleanPos_gleanWalk]
  case pending =>
    intro s a e named hre he
    rw [exec_assocGleanerLine, gleanLine_repair hre he]
  case cancel => exact fun d a i e hr hidle => aPut_cancels hidle a i e hr
  case repair =>
    intro s a n hr hidle
    refine ⟨fun he => ?_, fun he hm => ?_⟩
    · refine ⟨_, (exec_assocGleanerRepair hr).trans (by rw [gleanRepair_good a n he]), ?_, ?_, ?_, ?_⟩
      · rw [getCell_congr ((commit_asc ..).trans (entryRepaired_asc ..)), getCell_aWrite_same hidle]
      · rw [getCopy_congr ((commit_asc ..).trans (entryRepaired_asc ..)), getCopy_aWrite_same hidle]
      · rw [repairDue_congr ((commit_asc ..).trans (entryRepaired_asc ..)), repairDue_aWrite_same hidle]
      · rw [ecc_congr ((commit_upset ..).trans (entryRepaired_upset ..)), ecc_aWrite_tag hidle]
    · refine ⟨_, (exec_assocGleanerRepair hr).trans (by rw [gleanRepair_lost a n he hm]), ?_, ?_, ?_⟩
      · rw [getCell_congr ((commit_asc ..).trans (entryLost_asc ..)), getCell_aWrite_same hidle, aValid_aCanon_cleared]
      · rw [repairDue_congr ((commit_asc ..).trans (entryLost_asc ..)), repairDue_aWrite_same hidle]
      · rw [rdF_commit, rdF_entryLost_LOST]

end Sys2Proof.Machine
end

section
/-!
PROOF. Received frames (R342, R343): the rules that drop a frame, in their order, and the frame that waits for Harrow.
-/
namespace Sys2Proof.Machine

theorem exec_frameReceive (s : State) (p : Nat) (w : List Byte) (uncorr bad : Bool) :
    exec (.frameReceive p w uncorr bad) s = .next (commit s (frameReceive p w uncorr bad s.dev)) := rfl

/-! The frame within its wire bytes (R339). -/

theorem withFcs_length (f : List Byte) : (withFcs f).length = f.length + 4 := by rw [withFcs, List.length_append]; rfl

theorem take_withFcs (f : List Byte) : (withFcs f).take ((withFcs f).length - 4) = f := by
  rw [withFcs_length, Nat.add_sub_cancel, withFcs, List.take_left]

/-- The header of a frame lies ahead of its FCS. -/
theorem header_take {w : List Byte} (h : 64 ≤ w.length) {k n : Nat} (hk : k + n ≤ 60) :
    ((w.take (w.length - 4)).drop k).take n = (w.drop k).take n := by
  rw [List.drop_take, List.take_take, Nat.min_eq_left (by omega)]

/-! The checks (R342, R361). -/

/-- The states in which a port receives. -/
def Receives (d : Dev) (p : Nat) : Prop := portState d p = 3 ∨ portState d p = 4 ∨ portState d p = 5

theorem frameReceive_deaf {d : Dev} {p : Nat} (h : ¬ Receives d p) (w : List Byte) (uncorr bad : Bool) :
    frameReceive p w uncorr bad d = d := by
  rw [Receives, not_or, not_or] at h
  exact if_pos (.inr h)

/-- What becomes of a frame without FCS that meets none of the rules of `frameCode`. -/
def frameSettle (d : Dev) (p : Nat) (f : List Byte) : Dev :=
  if beNat ((f.drop 12).take 2) = 0x8808 then pfcConsume d p f
  else if isPdelay d p f then pdConsume d p f
  else if stagingSize < stagingUsed d (pS p) + modeF d p Reg.PORT_MODE_MAX_FRAME then stripDrop d p 5
  else match macsecRx d p f with
    | (.error _, d) => d
    | (.ok g, d) => stripAdmit d p g

/-- The code of R361 of the first rule that drops a frame for its bytes on the wire, 8 when there is none. -/
def frameCode (d : Dev) (p : Nat) (w : List Byte) (uncorr bad : Bool) : Nat :=
  if uncorr then 4 else if bad then 3 else if w.length < 64 then 1
  else if modeF d p Reg.PORT_MODE_MAX_FRAME < w.length then 2
  else if withFcs (w.take (w.length - 4)) ≠ w then 0
  else if beNat ((w.drop 12).take 2) = 0x8808 ∧ beNat ((w.drop 14).take 2) ≠ 0x0101 then 6 else 8

section
variable {d : Dev} {p : Nat} (hp : p < portCount d) (hs : Receives d p)
include hp hs

theorem frameReceive_eq (w : List Byte) (uncorr bad : Bool) : frameReceive p w uncorr bad d =
    if frameCode d p w uncorr bad = 8 then frameSettle d p (w.take (w.length - 4))
    else stripDrop d p (frameCode d p w uncorr bad) := by
  have hopen : ¬ (portCount d ≤ p ∨ (portState d p ≠ 3 ∧ portState d p ≠ 4 ∧ portState d p ≠ 5)) := by
    rw [Receives] at hs
    omega
  simp only [frameReceive, if_neg hopen, frameCode]
  cases uncorr
  case true => rfl
  cases bad
  case true => rfl
  simp only [Bool.false_eq_true, if_false]
  by_cases hshort : w.length < 64
  · simp only [if_pos hshort]
    rfl
  by_cases hlong : modeF d p Reg.PORT_MODE_MAX_FRAME < w.length
  · simp only [if_neg hshort, if_pos hlong]
    rfl
  by_cases hfcs : withFcs (w.take (w.length - 4)) ≠ w
  · simp only [if_neg hshort, if_neg hlong, if_pos hfcs]
    rfl
  simp only [if_neg hshort, if_neg hlong, if_neg hfcs, frameSettle, header_take (Nat.le_of_not_lt hshort) (show 12 + 2 ≤ 60 by decide),
    header_take (Nat.le_of_not_lt hshort) (show 14 + 2 ≤ 60 by decide)]
  by_cases hctl : beNat ((w.drop 12).take 2) = 0x8808
  · by_cases hpfc : beNat ((w.drop 14).take 2) = 0x0101
    · simp [hctl, hpfc]
    · simp [hctl, hpfc]
  · simp only [hctl, if_false, false_and, if_true] <;> rfl

theorem frameReceive_dropped {w : List Byte} {uncorr bad : Bool} (h : frameCode d p w uncorr bad ≠ 8) :
    frameReceive p w uncorr bad d = stripDrop d p (frameCode d p w uncorr bad) := by
  rw [frameReceive_eq hp hs, if_neg h]

/-- A frame of a good length with its FCS goes on, unless it is a MAC control frame other than PFC. -/
theorem frameReceive_intact {w : List Byte} (hl : 64 ≤ w.length) (hm : w.length ≤ modeF d p Reg.PORT_MODE_MAX_FRAME)
    (hf : withFcs (w.take (w.length - 4)) = w) (hc : beNat ((w.drop 12).take 2) ≠ 0x8808 ∨ beNat ((w.drop 14).take 2) = 0x0101) :
    frameReceive p w false false d = frameSettle d p (w.take (w.length - 4)) := by
  have hcode : frameCode d p w false false = 8 := by
    simp only [frameCode, Bool.false_eq_true, if_false]
    rw [if_neg (Nat.not_lt.mpr hl), if_neg (Nat.not_lt.mpr hm), if_neg (not_not.mpr hf), if_neg (by omega)]
  rw [frameReceive_eq hp hs, if_pos hcode]

end

theorem frameSettle_pfc {d : Dev} {p : Nat} {f : List Byte} (h : beNat ((f.drop 12).take 2) = 0x8808) :
    frameSettle d p f = pfcConsume d p f := if_pos h

theorem frameSettle_admit {d e : Dev} {p : Nat} {f g : List Byte} (h : beNat ((f.drop 12).take 2) ≠ 0x8808) (hd : isPdelay d p f = false)
    (hr : stagingUsed d (pS p) + modeF d p Reg.PORT_MODE_MAX_FRAME ≤ stagingSize) (hm : macsecRx d p f = (.ok g, e)) :
    frameSettle d p f = stripAdmit e p g := by
  rw [frameSettle, if_neg h, if_neg (ne_true_of_eq_false hd), if_neg (Nat.not_lt.mpr hr), hm]

/-! Admission (R214, R343). -/

/-- The packet of priority c that a strip passes to its acre, charged to the buffer and not to headland. -/
def receivedPkt (time p c : Nat) (g : List Byte) : Pkt :=
  { newPkt g p time with staged := some (pS p), prio := c, ppCells := ceilDiv (g.length + 4) 256, headland := false }

theorem pcGet_ofNat {q : Pkt} {x : Nat} (hq : q.ctx = BitVec.ofNat 2048 x) {f : Fld} (h : f.lo + f.w ≤ 2048) :
    pcGet q f = bits x f.lo f.w := by
  rw [pcGet, hq, BitVec.toNat_ofNat, bits_mod h]

theorem inPort_receivedPkt (time p c : Nat) (g : List Byte) : inPort (receivedPkt time p c g) = p % 512 :=
  (pcGet_ofNat rfl (by decide)).trans (bits_setBits_same 0 108 9 p)

/-- The device with that packet's staging and cells charged, and the frame counted. -/
def stripCharged (d : Dev) (p c : Nat) (g : List Byte) : Dev :=
  stripCnt (stripCnt (chargePp (setStaging d (pS p) (stagingUsed d (pS p) + (g.length + 4))) p c (ceilDiv (g.length + 4) 256) false) p 0 1)
    p 1 (g.length + 4)

theorem chargePp_shape (d : Dev) (p c n : Nat) (hl : Bool) : ∃ re pf, chargePp d p c n hl = { d with regs := re, pfcDirty := pf } := by
  simp only [chargePp]
  split
  · obtain ⟨re, h⟩ := wrF_shape d (ppReg p c) Reg.PP_STATUS_HL_USED (rdF d (ppReg p c) Reg.PP_STATUS_HL_USED + n)
    obtain ⟨re', h'⟩ := wrF_shape { d with regs := re } Reg.HEADLAND_STATUS Reg.HEADLAND_STATUS_USED
      (rdF d Reg.HEADLAND_STATUS Reg.HEADLAND_STATUS_USED + n)
    rw [h, h']
    exact evalPp_shape { d with regs := re' } p c
  · obtain ⟨re, h⟩ := wrF_shape d (ppReg p c) Reg.PP_STATUS_IPC (rdF d (ppReg p c) Reg.PP_STATUS_IPC + n)
    rw [h]
    exact evalPp_shape { d with regs := re } p c

/-- The charge leaves the time and the queues of Harrow. -/
theorem stripCharged_keeps (d : Dev) (p c : Nat) (g : List Byte) :
    (stripCharged d p c g).time = d.time ∧ (stripCharged d p c g).har = d.har := by
  obtain ⟨_, _, h⟩ := chargePp_shape (setStaging d (pS p) (stagingUsed d (pS p) + (g.length + 4))) p c (ceilDiv (g.length + 4) 256) false
  rw [stripCharged, h]
  exact ⟨rfl, rfl⟩

theorem inQ_setInQ_same (d : Dev) (n r : Nat) (l : List Pkt) : inQ (setInQ d n r l) n r = l := spGet_spPut_same ..

section
variable {d : Dev} {p : Nat} {g : List Byte}

theorem stripAdmit_acreDown (h : acreUp d (p / 128) = false) : stripAdmit d p g = bump d (Reg.RSTC_DROP 1) :=
  if_pos (ne_true_of_eq_false h)

theorem inQ_stripAdmit (hup : acreUp d (p / 128) = true) (hi : flagF d Reg.FAULT_INJECT Reg.FAULT_INJECT_PENDING = false)
    (hst : rdF d (ppReg p (framePrio d p g)) Reg.PP_STATUS_STATE ≠ 2) :
    inQ (stripAdmit d p g) (p / 128) 4 = inQ d (p / 128) 4 ++ [receivedPkt d.time p (framePrio d p g) g] := by
  have hhl : (rdF d (ppReg p (framePrio d p g)) Reg.PP_STATUS_STATE == 2) = false := beq_false_of_ne hst
  have hadmit : stripAdmit d p g = setInQ (stripCharged d p (framePrio d p g) g) (p / 128) 4
      (inQ (stripCharged d p (framePrio d p g) g) (p / 128) 4 ++
        [receivedPkt (stripCharged d p (framePrio d p g) g).time p (framePrio d p g) g]) := by
    simp only [stripAdmit, hup, not_true_eq_false, if_false, injectAt_idle hi, OfNat.zero_ne_ofNat, zero_ne_one, hhl, Bool.false_eq_true,
      false_and]
    rfl
  obtain ⟨htime, hhar⟩ := stripCharged_keeps d p (framePrio d p g) g
  rw [hadmit, inQ_setInQ_same, htime, inQ, hhar, inQ]

end

end Sys2Proof.Machine

namespace Sys2Proof
open Machine

/-- Settles O28: the checks of a strip in their order, and the packet of an admitted frame. -/
theorem frameReceive : Obligations.FrameReceive := by
  unfold Obligations.FrameReceive
  refine ⟨?deaf, ?dropped, ?admitted, ?waits, ?acreDown⟩
  case deaf =>
    intro s p w uncorr bad h3 h4 h5
    rw [exec_frameReceive, frameReceive_deaf (not_or.mpr ⟨h3, not_or.mpr ⟨h4, h5⟩⟩)]
  case dropped =>
    intro s p w uncorr bad code hp hs hc h8
    subst hc
    rw [exec_frameReceive, frameReceive_dropped hp hs h8]
    rfl
  case admitted =>
    intro s p f g d hp hs hf hm het hpd hroom hmac
    have hlen := withFcs_length f
    have htype : beNat (((withFcs f).drop 12).take 2) ≠ 0x8808 := by
      rwa [← header_take (by omega) (by decide), take_withFcs]
    have hgood := frameReceive_intact hp hs (w := withFcs f) (by omega) (by omega) (by rw [take_withFcs]) (.inl htype)
    rw [exec_frameReceive, hgood, take_withFcs, frameSettle_admit het hpd hroom hmac]
  case waits =>
    intro d p g hup hi hst
    exact ⟨_, inQ_stripAdmit hup hi hst, rfl, inPort_receivedPkt .., rfl, rfl, rfl⟩
  case acreDown => exact fun d p g h => stripAdmit_acreDown h

end Sys2Proof
end

section
/-!
PROOF. Priority flow control at a strip (R344, R345): the pauses that a received frame sets, their end, and the frames that a port's own
PAUSED priorities are sent in.
-/
namespace Sys2Proof.Machine

/-! The received pauses: PFC_RX_STATE keeps a bit for each priority. -/

/-- The pause bit of a priority. -/
def rxPaused (d : Dev) (p c : Nat) : Bool := bit (rd d (Reg.PFC_RX_STATE (pS p) (pQ p))).toNat c

/-- The device with the pause bit of a priority set. -/
def setRxPaused (d : Dev) (p c : Nat) (b : Bool) : Dev :=
  wr d (Reg.PFC_RX_STATE (pS p) (pQ p)) (BitVec.ofNat 64 (setBits (rd d (Reg.PFC_RX_STATE (pS p) (pQ p))).toNat c 1 (b2n b)))

theorem rxPaused_setRxPaused (d : Dev) (p : Nat) {c : Nat} (hc : c < 64) (b : Bool) (j : Nat) :
    rxPaused (setRxPaused d p c b) p j = if j = c then b else rxPaused d p j := by
  rw [rxPaused, setRxPaused, rd_wr_same, BitVec.toNat_ofNat, Nat.mod_eq_of_lt (setBits_lt _ (BitVec.isLt _) (by omega))]
  split
  case isTrue h => rw [h, bit_setBits_same]
  case isFalse h => rw [bit_setBits_other _ _ h, rxPaused]

theorem rxPaused_putPort (d : Dev) (p : Nat) (x : PortSt) (c : Nat) : rxPaused (putPort d p x) p c = rxPaused d p c := rfl

theorem rxPaused_stripCnt (d : Dev) (p k n c : Nat) : rxPaused (stripCnt d p k n) p c = rxPaused d p c := by
  rw [rxPaused, stripCnt, rd_bumpN_other, rxPaused]
  simp only [Reg.PFC_RX_STATE, Reg.STRIP_CNT, pQ]
  omega

/-! A received PFC frame (R344). -/

/-- The quanta that a PFC frame gives priority c. -/
def pauseQuanta (f : List Byte) (c : Nat) : Nat := beNat ((f.drop (18 + 2 * c)).take 2)

/-- When a pause of q quanta that begins now runs out. -/
def pauseEnd (d : Dev) (p q : Nat) : Nat := if q = 0 then 0 else d.time * tick + q * 512 * 1000 * tick / speedMbps (curSpeed d p)

/-- What a PFC frame does to priority c. -/
def pfcPause (p : Nat) (f : List Byte) (d : Dev) (c : Nat) : Dev :=
  if bit (byteAt f 17) c then
    setRxPaused (putPort d p { getPort d p with pause := spPut (fun _ => 0) (getPort d p).pause c (pauseEnd d p (pauseQuanta f c)) }) p c
      (pauseQuanta f c != 0)
  else d

theorem pfcConsume_eq_foldl (d : Dev) (p : Nat) (f : List Byte) :
    pfcConsume d p f = (List.range 8).foldl (pfcPause p f) (stripCnt d p 4 1) := rfl

theorem rxPaused_pfcPause (p : Nat) (f : List Byte) (d : Dev) {k : Nat} (hk : k < 64) (c : Nat) : rxPaused (pfcPause p f d k) p c =
    if c = k ∧ bit (byteAt f 17) c = true then decide (pauseQuanta f c ≠ 0) else rxPaused d p c := by
  rw [pfcPause]
  by_cases hb : bit (byteAt f 17) k = true
  · rw [if_pos hb, rxPaused_setRxPaused _ _ hk, rxPaused_putPort]
    by_cases hc : c = k
    · subst hc
      rw [if_pos rfl, if_pos ⟨rfl, hb⟩, bne, decide_not]
      rfl
    · rw [if_neg hc, if_neg (mt And.left hc)]
  · rw [if_neg hb, if_neg]
    rintro ⟨rfl, h⟩
    exact hb h

theorem rxPaused_foldl_pfcPause (p : Nat) (f : List Byte) (c : Nat) {l : List Nat} (hl : ∀ k ∈ l, k < 64) (d : Dev) :
    rxPaused (l.foldl (pfcPause p f) d) p c =
      if c ∈ l ∧ bit (byteAt f 17) c = true then decide (pauseQuanta f c ≠ 0) else rxPaused d p c := by
  induction l generalizing d with
  | nil => rw [if_neg (fun h => List.not_mem_nil h.1), List.foldl_nil]
  | cons k t ih =>
    obtain ⟨hk, ht⟩ := List.forall_mem_cons.mp hl
    rw [List.foldl_cons, ih ht, rxPaused_pfcPause p f d hk]
    simp only [← ite_or, ← or_and_right, List.mem_cons, or_comm]

theorem rxPaused_pfcConsume (d : Dev) (p : Nat) (f : List Byte) {c : Nat} (hc : c < 8) : rxPaused (pfcConsume d p f) p c =
    if bit (byteAt f 17) c = true then decide (pauseQuanta f c ≠ 0) else rxPaused d p c := by
  have hl : ∀ k ∈ List.range 8, k < 64 := fun k h => by have := List.mem_range.mp h; omega
  rw [pfcConsume_eq_foldl, rxPaused_foldl_pfcPause p f c hl, rxPaused_stripCnt]
  simp only [List.mem_range, hc, true_and]

/-! The end of a pause. -/

theorem exec_pauseExpiry (s : State) (p c : Nat) : exec (.pauseExpiry p c) s = .next (commit s (pauseExpiry p c s.dev)) := rfl

theorem pauseExpiry_eq {c : Nat} (hc : c < 8) (p : Nat) (d : Dev) : pauseExpiry p c d =
    setRxPaused (putPort d p { getPort d p with pause := spPut (fun _ => 0) (getPort d p).pause c 0 }) p c false :=
  if_neg (Nat.not_le.mpr hc)

theorem getPort_setRxPaused (d : Dev) (p c : Nat) (b : Bool) (n : Nat) : getPort (setRxPaused d p c b) n = getPort d n := rfl

/-! The class-enable vector of a PFC frame. -/

theorem foldl_bits_lt (b : Nat → Bool) (n : Nat) : (List.range n).foldl (fun v c => v + b2n (b c) * 2 ^ c) 0 < 2 ^ n := by
  induction n with
  | zero => exact Nat.zero_lt_one
  | succ n ih =>
    have hbit : b2n (b n) * 2 ^ n ≤ 2 ^ n := by cases b n <;> simp [b2n]
    rw [List.range_succ, List.foldl_append, List.foldl_cons, List.foldl_nil, Nat.pow_succ]
    omega

/-- A number summed up from bits has those bits. -/
theorem bit_foldl_bits (b : Nat → Bool) {n c : Nat} (hc : c < n) :
    bit ((List.range n).foldl (fun v c => v + b2n (b c) * 2 ^ c) 0) c = b c := by
  induction n with
  | zero => exact absurd hc (Nat.not_lt_zero c)
  | succ n ih =>
    rw [List.range_succ, List.foldl_append, List.foldl_cons, List.foldl_nil, Nat.add_comm, Nat.mul_comm, bit_eq_testBit,
      Nat.testBit_two_pow_mul_add _ (foldl_bits_lt b n)]
    by_cases h : c < n
    · rw [if_pos h, ← bit_eq_testBit, ih h]
    · obtain rfl : c = n := by omega
      rw [if_neg h, Nat.sub_self]
      cases b c <;> rfl

theorem byteAt_pfcFrame (d : Dev) (p : Nat) (q : Nat → Option Nat) : byteAt (pfcFrame d p q) 17 =
    (BitVec.ofNat 8 ((List.range 8).foldl (fun v c => v + b2n (q c).isSome * 2 ^ c) 0)).toNat := rfl

theorem enabled_pfcFrame (d : Dev) (p : Nat) (q : Nat → Option Nat) {c : Nat} (hc : c < 8) :
    bit (byteAt (pfcFrame d p q) 17) c = (q c).isSome := by
  rw [byteAt_pfcFrame, BitVec.toNat_ofNat, Nat.mod_eq_of_lt (foldl_bits_lt (fun c => (q c).isSome) 8)]
  exact bit_foldl_bits (fun c => (q c).isSome) hc

/-! A PFC frame that is scheduled (R297, R345). -/

theorem pfcQ_pfcSchedule (d : Dev) (p : Nat) (f : List Byte) :
    (getPort (pfcSchedule d p f) p).pfcQ = (getPort d p).pfcQ ++ [(f, launchTime d p)] := by
  rw [pfcSchedule, getPort_putPort_same]
  rfl

theorem pfcSchedule_pfcDirty (d : Dev) (p : Nat) (f : List Byte) : (pfcSchedule d p f).pfcDirty = d.pfcDirty := rfl

theorem exec_pfcFrameBuild (s : State) (p : Nat) : exec (.pfcFrameBuild p) s = .next (commit s (pfcBuild p s.dev)) := rfl
theorem exec_pfcRefresh (s : State) (p : Nat) : exec (.pfcRefresh p) s = .next (commit s (pfcRefresh p s.dev)) := rfl

/-- The device with a port's changes taken for the frame that is built. -/
def pfcTaken (d : Dev) (p : Nat) : Dev := { d with pfcDirty := spPut (fun _ => 0) d.pfcDirty p 0 }

/-- The quanta that the frame of the changes m gives a priority. -/
def changeQuanta (d : Dev) (p m c : Nat) : Option Nat :=
  if ppPaused d p c then some (txQuanta d p)
  else if bit m c ∧ flagF d (Reg.PFC_TX_CFG (pS p) (pQ p)) Reg.PFC_TX_CFG_XON_EN = true ∧ rdF d (ppReg p c) Reg.PP_STATUS_STATE = 1 then some 0
  else none

/-- The frame of a port's changes. -/
def changeFrame (d : Dev) (p : Nat) : List Byte :=
  pfcFrame (pfcTaken d p) p (changeQuanta (pfcTaken d p) p (spGet (fun _ => 0) d.pfcDirty p))

/-- The quanta that a refresh gives a priority. -/
def refreshQuanta (d : Dev) (p c : Nat) : Option Nat := if ppPaused d p c then some (txQuanta d p) else none

/-- The frame of a refresh. -/
def refreshFrame (d : Dev) (p : Nat) : List Byte := pfcFrame d p (refreshQuanta d p)

section
variable {d : Dev} {p : Nat}

theorem pfcBuild_unchanged (h : spGet (fun _ => 0) d.pfcDirty p = 0) : pfcBuild p d = d := if_pos (.inl h)

variable {c : Nat} (hc : c < 8) (hp : ppPaused d p c = true)
include hp

theorem changeQuanta_paused (m : Nat) : (changeQuanta (pfcTaken d p) p m c).isSome = true := by
  rw [changeQuanta, if_pos (show ppPaused (pfcTaken d p) p c = true from hp), Option.isSome_some]

theorem refreshQuanta_paused : (refreshQuanta d p c).isSome = true := by
  rw [refreshQuanta, if_pos hp, Option.isSome_some]

include hc

theorem enabled_changeFrame : bit (byteAt (changeFrame d p) 17) c = true :=
  (enabled_pfcFrame _ p _ hc).trans (changeQuanta_paused hp _)

theorem enabled_refreshFrame : bit (byteAt (refreshFrame d p) 17) c = true :=
  (enabled_pfcFrame d p _ hc).trans (refreshQuanta_paused hp)

theorem pfcBuild_paused (hs : portState d p = 3) (hm : spGet (fun _ => 0) d.pfcDirty p ≠ 0) :
    pfcBuild p d = pfcSchedule (pfcTaken d p) p (changeFrame d p) := by
  have hany : ((List.range 8).any fun c => (changeQuanta (pfcTaken d p) p (spGet (fun _ => 0) d.pfcDirty p) c).isSome) = true :=
    List.any_eq_true.mpr ⟨c, List.mem_range.mpr hc, changeQuanta_paused hp _⟩
  exact (if_neg (by simp [hm, hs])).trans (if_pos hany)

theorem pfcRefresh_paused (hs : portState d p = 3) : pfcRefresh p d = pfcSchedule d p (refreshFrame d p) :=
  if_pos ⟨hs, List.any_eq_true.mpr ⟨c, List.mem_range.mpr hc, hp⟩⟩

end

end Sys2Proof.Machine
end

section
/-!
PROOF. Peer delay (R357) and the states of a port-priority (R233). With the received and the scheduled pauses the obligation on both is
settled.
-/
namespace Sys2Proof.Machine

/-! Peer delay. -/

theorem exec_pdelayRequest (s : State) (p : Nat) : exec (.pdelayRequest p) s = .next (commit s (pdelayRequest p s.dev)) := rfl
theorem exec_pdelayTimeout (s : State) (p : Nat) : exec (.pdelayTimeout p) s = .next (commit s (pdelayTimeout p s.dev)) := rfl

theorem toWire_wire (d : Dev) (p : Nat) (f : List Byte) : (toWire d p f).strip.wire = d.strip.wire ++ [(p, withFcs (padFrame f))] := rfl

theorem putPort_wire (d : Dev) (p : Nat) (x : PortSt) : (putPort d p x).strip.wire = d.strip.wire := rfl
theorem toWire_time (d : Dev) (p : Nat) (f : List Byte) : (toWire d p f).time = d.time := rfl

theorem pdelayRequest_up {d : Dev} {p : Nat} (hs : portState d p = 3) (he : pdF d p Reg.PDELAY_CFG_EN = 1) : pdelayRequest p d =
    putPort (toWire d p (pdMessage d p 2 0 (getPort d p).pdSeq (ptpTime d.time ++ beBytes 10 0))) p
      { getPort d p with pdSeq := ((getPort d p).pdSeq + 1) % 65536, pdReq := some ((getPort d p).pdSeq, d.time), pdResp := none } := by
  have hopen : ¬ (portState d p ≠ 3 ∨ pdF d p Reg.PDELAY_CFG_EN = 0) := by omega
  simp only [pdelayRequest, if_neg hopen, toWire_time]

theorem pdelayTimeout_eq {d : Dev} {p : Nat} {r : Nat × Nat} (h : (getPort d p).pdReq = some r) : pdelayTimeout p d =
    stripCnt (bumpSat (putPort d p { getPort d p with pdReq := none, pdResp := none }) (Reg.PDELAY_STATUS (pS p) (pQ p))
      Reg.PDELAY_STATUS_TIMEOUTS 1) p 12 1 := by
  simp only [pdelayTimeout, h, Option.isNone_some, Bool.false_eq_true, if_false]

theorem getPort_stripCnt (d : Dev) (p k n i : Nat) : getPort (stripCnt d p k n) i = getPort d i := rfl
theorem getPort_bumpSat (d : Dev) (o : Nat) (g : Fld) (n i : Nat) : getPort (bumpSat d o g n) i = getPort d i := rfl

theorem rdF_stripCnt_PDELAY_STATUS (d : Dev) (p k n : Nat) (g : Fld) :
    rdF (stripCnt d p k n) (Reg.PDELAY_STATUS (pS p) (pQ p)) g = rdF d (Reg.PDELAY_STATUS (pS p) (pQ p)) g := by
  refine rdF_congr (rd_bumpN_other d n ?_) g
  simp only [Reg.PDELAY_STATUS, Reg.STRIP_CNT, pQ]
  omega

theorem rdF_pdelayTimeout {d : Dev} {p : Nat} {r : Nat × Nat} (h : (getPort d p).pdReq = some r) :
    rdF (pdelayTimeout p d) (Reg.PDELAY_STATUS (pS p) (pQ p)) Reg.PDELAY_STATUS_TIMEOUTS =
      satAdd Reg.PDELAY_STATUS_TIMEOUTS.w (rdF d (Reg.PDELAY_STATUS (pS p) (pQ p)) Reg.PDELAY_STATUS_TIMEOUTS) 1 := by
  rw [pdelayTimeout_eq h, rdF_stripCnt_PDELAY_STATUS, rdF_bumpSat_same _ _ _ _ (by decide)]
  rfl

/-! The state of a port-priority (R233). -/

/-- The state of a port-priority: 0 LOSSY, 1 OPEN, 2 PAUSED. -/
def ppState (d : Dev) (p c : Nat) : Nat := rdF d (ppReg p c) Reg.PP_STATUS_STATE

theorem rdF_markPfc (d : Dev) (p c o : Nat) (g : Fld) : rdF (markPfc d p c) o g = rdF d o g := rdF_congr (rd_congr rfl rfl o) g

theorem ppState_marked (d : Dev) (p c : Nat) {v : Nat} (hv : v < 4) :
    ppState (markPfc (wrF d (ppReg p c) Reg.PP_STATUS_STATE v) p c) p c = v := by
  rw [ppState, rdF_markPfc, rdF_wrF_same _ _ _ _ (by decide)]
  exact Nat.mod_eq_of_lt hv

/-- A change of a port-priority's state waits for the strip. -/
theorem dirty_markPfc (d : Dev) (p c : Nat) : bit (spGet (fun _ => 0) (markPfc d p c).pfcDirty p) c = true := by
  rw [markPfc, spGet_spPut_same]
  exact bit_setBits_same _ _ true

theorem ppState_bump_FABRIC_CNT (d : Dev) {p : Nat} (hp : p < 512) (c : Nat) :
    ppState (bump d (Reg.FABRIC_CNT (p / 128) 6)) p c = ppState d p c := by
  refine rdF_congr (rd_bump_other d ?_) _
  simp only [ppReg, Reg.PP_STATUS, Reg.FABRIC_CNT]
  omega

/-- The cells of an OPEN port-priority have reached XOFF. -/
def ReachesXoff (d : Dev) (p c : Nat) : Prop :=
  ppState d p c = 1 ∧ rdF d (Reg.PFC_CFG p c) Reg.PFC_CFG_XOFF_CELLS ≤ rdF d (ppReg p c) Reg.PP_STATUS_IPC

/-- The cells of a PAUSED port-priority are down to XON. -/
def ReachesXon (d : Dev) (p c : Nat) : Prop :=
  ppState d p c = 2 ∧
    rdF d (ppReg p c) Reg.PP_STATUS_IPC + rdF d (ppReg p c) Reg.PP_STATUS_HL_USED ≤ rdF d (Reg.PFC_CFG p c) Reg.PFC_CFG_XON_CELLS

section
variable {d : Dev} {p c : Nat}

theorem evalPp_xoff (h : ReachesXoff d p c) :
    evalPp d p c = bump (markPfc (wrF d (ppReg p c) Reg.PP_STATUS_STATE 2) p c) (Reg.FABRIC_CNT (p / 128) 6) := if_pos h

theorem evalPp_xon (h : ReachesXon d p c) : evalPp d p c = markPfc (wrF d (ppReg p c) Reg.PP_STATUS_STATE 1) p c :=
  (if_neg fun hx => absurd (hx.1.symm.trans h.1) (by decide)).trans (if_pos h)

theorem ppState_evalPp_xoff (hp : p < 512) (h : ReachesXoff d p c) : ppState (evalPp d p c) p c = 2 := by
  rw [evalPp_xoff h, ppState_bump_FABRIC_CNT _ hp, ppState_marked d p c (by decide)]

theorem ppState_evalPp_xon (h : ReachesXon d p c) : ppState (evalPp d p c) p c = 1 := by
  rw [evalPp_xon h, ppState_marked d p c (by decide)]

theorem evalPp_stays (hx : ¬ ReachesXoff d p c) (ho : ¬ ReachesXon d p c) : evalPp d p c = d := (if_neg hx).trans (if_neg ho)

end

theorem ppConfigure_lossy {d : Dev} {p c : Nat} (h : flagF d (Reg.PFC_CFG p c) Reg.PFC_CFG_LOSSLESS = false) :
    ppState (ppConfigure d p c) p c = 0 := by
  rw [ppConfigure, if_neg (ne_true_of_eq_false h)]
  exact rdF_wrFs_last d _ [] _ (by decide) (by decide)

theorem ppConfigure_lossless {d : Dev} {p c : Nat} (h : flagF d (Reg.PFC_CFG p c) Reg.PFC_CFG_LOSSLESS = true) :
    ppState (ppConfigure d p c) p c = max 1 (ppState d p c) := by
  by_cases h0 : ppState d p c = 0
  · have hopen : ppConfigure d p c = markPfc (wrF d (ppReg p c) Reg.PP_STATUS_STATE 1) p c := (if_pos h).trans (if_pos h0)
    rw [hopen, ppState_marked d p c (by decide), h0]
    rfl
  · have hkeep : ppConfigure d p c = d := (if_pos h).trans (if_neg h0)
    rw [hkeep, Nat.max_eq_right (Nat.pos_of_ne_zero h0)]

/-- Settles O30: each clause reads what its command, or its evaluation of a port-priority, leaves. -/
theorem pfcAndPeerDelay : Obligations.PfcAndPeerDelay := by
  unfold Obligations.PfcAndPeerDelay
  refine ⟨?received, ?consumed, ?expiry, ?unchanged, ?build, ?refresh, ?request, ?timeout, ?evaluated, ?marked, ?configured⟩
  case received => exact fun d p f c hc _ => rxPaused_pfcConsume d p f hc
  case consumed =>
    intro s p w hp hs hl hm hf het hop
    have htype : beNat (((w.take (w.length - 4)).drop 12).take 2) = 0x8808 := by rwa [header_take hl (by decide)]
    rw [exec_frameReceive, frameReceive_intact hp (.inl hs) hl hm hf (.inr hop), frameSettle_pfc htype]
  case expiry =>
    intro s p c hc
    refine ⟨_, exec_pauseExpiry s p c, ?_, ?_⟩
    · rw [rd_commit, pauseExpiry_eq hc]
      exact (rxPaused_setRxPaused _ p (by omega) false c).trans (if_pos rfl)
    · rw [getPort_commit, pauseExpiry_eq hc, getPort_setRxPaused, getPort_putPort_same, spGet_spPut_same]
  case unchanged =>
    intro s p h
    rw [exec_pfcFrameBuild, pfcBuild_unchanged h]
  case build =>
    intro s p c hc hm hs hp
    refine ⟨_, _, launchTime (pfcTaken s.dev p) p, exec_pfcFrameBuild s p, ?_, ?_, enabled_changeFrame hc hp⟩
    · rw [getPort_commit, pfcBuild_paused hc hp hs hm, pfcQ_pfcSchedule]
      rfl
    · rw [commit_pfcDirty, pfcBuild_paused hc hp hs hm, pfcSchedule_pfcDirty, pfcTaken, spGet_spPut_same]
  case refresh =>
    intro s p c hc hs hp
    refine ⟨_, _, launchTime s.dev p, exec_pfcRefresh s p, ?_, enabled_refreshFrame hc hp⟩
    rw [getPort_commit, pfcRefresh_paused hc hp hs, pfcQ_pfcSchedule]
  case request =>
    intro s p hs he
    refine ⟨_, exec_pdelayRequest s p, ?_, ?_, ?_⟩
    · rw [getPort_commit, pdelayRequest_up hs he, getPort_putPort_same]
    · rw [getPort_commit, pdelayRequest_up hs he, getPort_putPort_same]
    · rw [commit_strip, pdelayRequest_up hs he, putPort_wire, toWire_wire, List.length_append, List.length_singleton]
  case timeout =>
    intro s p r _ h
    refine ⟨_, exec_pdelayTimeout s p, ?_, (rdF_commit ..).trans (rdF_pdelayTimeout h)⟩
    rw [getPort_commit, pdelayTimeout_eq h, getPort_stripCnt, getPort_bumpSat, getPort_putPort_same]
  case evaluated =>
    intro d p c hp _
    by_cases hx : ReachesXoff d p c
    · exact (ppState_evalPp_xoff hp hx).trans (if_pos hx).symm
    by_cases ho : ReachesXon d p c
    · exact (ppState_evalPp_xon ho).trans ((if_neg hx).trans (if_pos ho)).symm
    · exact (rdF_congr (by rw [evalPp_stays hx ho]) _).trans ((if_neg hx).trans (if_neg ho)).symm
  case marked =>
    intro d p c _ _ hne
    by_cases hx : ReachesXoff d p c
    · rw [evalPp_xoff hx, bump_pfcDirty]
      exact dirty_markPfc ..
    by_cases ho : ReachesXon d p c
    · rw [evalPp_xon ho]
      exact dirty_markPfc ..
    · exact absurd (by rw [evalPp_stays hx ho]) hne
  case configured =>
    intro d p c
    cases h : flagF d (Reg.PFC_CFG p c) Reg.PFC_CFG_LOSSLESS with
    | true => exact ppConfigure_lossless h
    | false => exact ppConfigure_lossy h

end Sys2Proof.Machine
end

section
/-!
PROOF. What leaves the queues alone (R241 to R269): faults and injections, bursts of the deep store, the free store of cells, and what a packet
that leaves its queue gives back.
-/
namespace Sys2Proof.Machine

@[simp] theorem injectAt_que (d : Dev) (c src a : Nat) : (injectAt d c src a).2.que = d.que := by
  obtain ⟨_, _, h, -⟩ := injectAt_shape d c src a
  rw [h]

@[simp] theorem injectAt_writes (d : Dev) (c src a : Nat) : (injectAt d c src a).2.writes = d.writes := by
  obtain ⟨_, _, h, -⟩ := injectAt_shape d c src a
  rw [h]

@[simp] theorem eccWrite_que (d : Dev) (r : Ram) (i src a : Nat) : (eccWrite d r i src a).que = d.que := injectAt_que ..

@[simp] theorem startedBy_que (d : Dev) (src agent : Nat) : (startedBy d src agent).que = d.que := rfl

/-! Bursts of the deep store, whether they are served or fail. -/

@[simp] theorem deepFault_que (d : Dev) (f : FaultKind) (rank addr master access : Nat) :
    (deepFault d f rank addr master access).que = d.que := (raise_que ..).trans (wr_que ..)

theorem retireRank_que (d : Dev) (k c s addr : Nat) : (retireRank d k c s addr).que = d.que := by
  rw [retireRank]
  split
  · rfl
  · rw [deepFault_que, bumpSat_que, setRank, wrF_que]

theorem migrationAbort_que (d : Dev) (k addr : Nat) : (migrationAbort d k addr).que = d.que := by
  rw [migrationAbort, retireRank_que, retireRank_que, setStatusBit, wrF_que, wrFs_que]

theorem rankFail_que (d : Dev) (k c s addr : Nat) : (rankFail d k c s addr).que = d.que := by
  rw [rankFail]
  dsimp only
  split_ifs
  · exact migrationAbort_que ..
  · exact retireRank_que ..
  · rfl
  · simp only [wr_que, setStatusBit, wrF_que, setRank]
  · exact retireRank_que ..

@[simp] theorem deepCommand_que (d : Dev) (k c s addr master access : Nat) : (deepCommand d k c s addr master access).2.que = d.que := by
  have hin := injectAt_que d 5 (256 * 10 + rankNo k c s) addr
  simp only [deepCommand]
  generalize injectAt d 5 (256 * 10 + rankNo k c s) addr = j at hin
  split
  · exact hin
  · split
    · exact (deepFault_que ..).trans ((bump_que ..).trans hin)
    · exact (rankFail_que ..).trans ((deepFault_que ..).trans ((deepFault_que ..).trans ((bump_que ..).trans hin)))

theorem neighbourRefresh_que (key : Nat) (d : Dev) : (neighbourRefresh key d).que = d.que := by
  rw [neighbourRefresh]
  split
  · rfl
  · have hcmd : (bankCommand d key).2.que = d.que := deepCommand_que ..
    dsimp only
    split
    · exact hcmd
    · rw [bump_que, putDBank_que, hcmd]

theorem neighboursDue_que (key n : Nat) (d : Dev) : (neighboursDue key n d).que = d.que := by
  induction n generalizing d with
  | zero => rfl
  | succ n ih =>
    rw [neighboursDue]
    split
    · rfl
    · rw [ih, neighbourRefresh_que]

theorem bankAccess_que (d : Dev) (key row : Nat) (wanted : Bool) : (bankAccess d key row wanted).que = d.que := by
  obtain ⟨x, y, b, hx, hy, he⟩ := bankAccess_cases d key row wanted
  have hxd : x.que = d.que := by
    obtain rfl | rfl := hx
    · rfl
    · exact neighboursDue_que key 64 d
  have hyx : y.que = x.que := by
    obtain rfl | rfl | rfl := hy
    · rfl
    · exact bump_que ..
    · exact bump_que ..
  rw [he, putDBank_que, hyx, hxd]

theorem burstCe_que (d : Dev) (k c s key addr master access : Nat) : (burstCe d k c s key addr master access).que = d.que := by
  rw [burstCe, deepFault_que]
  dsimp only
  rw [bump_que, bumpSat_que]

theorem burstUe_que (d : Dev) (k c s addr master access : Nat) : (burstUe d k c s addr master access).que = d.que := by
  rw [burstUe, deepFault_que, bump_que, bumpSat_que]

@[simp] theorem burstRead_que (d : Dev) (addr master access : Nat) : (burstRead d addr master access).2.que = d.que := by
  have hcmd (k c s : Nat) := deepCommand_que d k c s addr master access
  have hacc (k c s key row : Nat) (w : Bool) :=
    (bankAccess_que (deepCommand d k c s addr master access).2 key row w).trans (hcmd k c s)
  simp only [burstRead]
  split
  · exact bump_que ..
  · split
    · exact hcmd ..
    · split
      · exact hacc ..
      · split
        · exact (burstCe_que ..).trans (hacc ..)
        · split
          · exact (rankFail_que ..).trans ((burstUe_que ..).trans (hacc ..))
          · exact hacc ..

theorem burstEcc_que (d : Dev) (key rank addr : Nat) (whole : Bool) : (burstEcc d key rank addr whole).que = d.que := by
  have hin := injectAt_que d 4 (256 * 10 + rank) addr
  simp only [burstEcc]
  split
  · rw [setEcc_que]
    exact hin
  · split
    · rw [setEcc_que]
      exact hin
    · exact hin

@[simp] theorem burstWrite_que (d : Dev) (addr : Nat) (whole : Bool) (master access : Nat) :
    (burstWrite d addr whole master access).2.que = d.que := by
  have hcmd (k c s : Nat) := deepCommand_que d k c s addr master access
  simp only [burstWrite]
  split
  · exact bump_que ..
  · split
    · exact hcmd ..
    · exact (burstEcc_que ..).trans ((bankAccess_que ..).trans (hcmd ..))

@[simp] theorem deepCheck_que (d : Dev) (addr n master access : Nat) : (deepCheck d addr n master access).2.que = d.que := by
  rw [deepCheck_cases]
  split
  · exact bump_que ..
  · split
    · exact (deepFault_que ..).trans (bump_que ..)
    · rfl

/-! The free store of cells (R230): what it never changes, said once for every such observation. -/

/-- An observation of the device that the free store of the slices in `ok` does not change. -/
structure FreeStoreBlind {α : Type} (ok : Nat → Prop) (f : Dev → α) : Prop where
  inject : ∀ d c src a, f (injectAt d c src a).2 = f d
  bits : ∀ d r i v, f (setEcc d r i v) = f d
  bank : ∀ d key k, f (putBank d key k) = f d
  alloc : ∀ d m c v, f (setAlloc d m c v) = f d
  fault : ∀ d {m} kind ptr master access, ok m → f (ptrFault d m kind ptr master access) = f d
  status : ∀ d {m} g v, ok m → f (wrF d (Reg.FREE_STATUS m) g v) = f d

namespace FreeStoreBlind

variable {α : Type} {ok : Nat → Prop} {f : Dev → α} (h : FreeStoreBlind ok f)
include h

theorem ringPush (d : Dev) (m b ptr : Nat) : f (ringPush d m b ptr) = f d :=
  (h.bits ..).trans ((h.inject ..).trans (h.bank ..))

theorem freeCacheWriteback (m b : Nat) (d : Dev) : f (freeCacheWriteback m b d) = f d := by
  have hfold (l : List Nat) (e : Dev) : f (l.foldl (fun d p => Machine.ringPush d m b p) e) = f e := by
    induction l generalizing e with
    | nil => rfl
    | cons p t ih => exact (ih _).trans (h.ringPush e m b p)
  simp only [Machine.freeCacheWriteback]
  split
  · rfl
  · exact (hfold _ _).trans (h.bank ..)

theorem ringPop (d : Dev) {m : Nat} (b : Nat) (hm : ok m) : f (ringPop d m b).2 = f d := by
  have htaken (k : FreeBank) (i : Nat) : f (setEcc (putBank d (24 * m + b) k) .freeRing i 0) = f d := (h.bits ..).trans (h.bank ..)
  simp only [Machine.ringPop]
  split
  · rfl
  · split
    · exact (h.status _ _ _ hm).trans ((h.fault _ _ _ _ _ hm).trans (htaken ..))
    · have hcorrected : ∀ (e : Dev) (c : Prop) [Decidable c] (ptr : Nat), f e = f d → f (if c then ptrFault e m 0 ptr 0 10 else e) = f d := by
        intro e c _ ptr he
        split
        · exact (h.fault _ _ _ _ _ hm).trans he
        · exact he
      split
      · exact (h.status _ _ _ hm).trans ((h.fault _ _ _ _ _ hm).trans (hcorrected _ _ _ (htaken ..)))
      · exact hcorrected _ _ _ (htaken ..)

theorem ringTake (d : Dev) {m : Nat} (b n : Nat) (hm : ok m) : f (ringTake d m b n).2 = f d := by
  induction n generalizing d with
  | zero => rfl
  | succ n ih =>
    have hpop := h.ringPop d b hm
    rw [Machine.ringTake]
    split
    · rename_i hp
      rwa [hp] at hpop
    · rename_i hp
      rw [hp] at hpop
      exact (ih _).trans hpop

theorem bankTake (d : Dev) {m : Nat} (b : Nat) (hm : ok m) : f (bankTake d m b).2 = f d := by
  rw [Machine.bankTake]
  split
  · exact h.bank ..
  · exact h.ringTake d b _ hm

theorem cellTake (d : Dev) {m : Nat} (bs : List Nat) (hm : ok m) : f (cellTake d m bs).2 = f d := by
  induction bs generalizing d with
  | nil => rfl
  | cons b t ih =>
    have htake := h.bankTake d b hm
    rw [Machine.cellTake]
    split
    · rename_i hb
      rw [hb] at htake
      exact (h.status _ _ _ hm).trans ((h.alloc ..).trans htake)
    · rename_i hb
      rw [hb] at htake
      exact (ih _).trans htake

variable (h4 : ∀ m, m < 4 → ok m)
include h4

theorem cellFree (d : Dev) (ptr : Nat) : f (cellFree d ptr) = f d := by
  have hm : ok (Machine.bits ptr 26 2) := h4 _ (bits_lt ptr 26 2)
  have hin := h.inject d 9 (256 * 6 + Machine.bits ptr 26 2) 0
  simp only [Machine.cellFree]
  generalize (if (injectAt d 9 (256 * 6 + Machine.bits ptr 26 2) 0).1 = 0 then ptr else ptr + 1) = q
  split
  · exact (h.fault _ _ _ _ _ hm).trans hin
  · split
    · exact (h.fault _ _ _ _ _ hm).trans hin
    · refine (h.status _ _ _ hm).trans ((h.bank ..).trans ((h.alloc ..).trans ?_))
      split
      · exact (h.freeCacheWriteback ..).trans hin
      · exact hin

theorem foldl_cellFree (l : List Nat) (d : Dev) : f (l.foldl Machine.cellFree d) = f d := by
  induction l generalizing d with
  | nil => rfl
  | cons p t ih => exact (ih _).trans (h.cellFree h4 d p)

theorem cellsTake (d : Dev) {m : Nat} (n : Nat) (hm : ok m) : f (cellsTake d m n).2 = f d := by
  induction n with
  | zero => rfl
  | succ n ih =>
    rw [Machine.cellsTake]
    split
    · rename_i hn
      rwa [hn] at ih
    · rename_i l e hn
      rw [hn] at ih
      have htake := h.cellTake e ((List.range 24).map fun i => (n + i) % 24) hm
      split
      · rename_i hp
        rw [hp] at htake
        exact htake.trans ih
      · rename_i hp
        rw [hp] at htake
        exact (h.foldl_cellFree h4 _ _).trans (htake.trans ih)

end FreeStoreBlind

/-- A fault of the free store changes registers and the collector. -/
theorem ptrFault_eq_raise (d : Dev) (m kind ptr master access : Nat) : ∃ l k, ptrFault d m kind ptr master access =
    raise (if kind = 1 ∨ kind = 2 ∨ kind = 3 then
      wrF (bump (wrFs d Reg.PTR_ERR_LAST l) (Reg.FABRIC_CNT m 4)) (Reg.FREE_STATUS m) Reg.FREE_STATUS_LEAKED
        (rdF (bump (wrFs d Reg.PTR_ERR_LAST l) (Reg.FABRIC_CNT m 4)) (Reg.FREE_STATUS m) Reg.FREE_STATUS_LEAKED + 1)
      else bump (wrFs d Reg.PTR_ERR_LAST l) (Reg.FABRIC_CNT m 4)) k m 0 master access := ⟨_, _, rfl⟩

theorem freeStoreBlind_que : FreeStoreBlind (fun _ => True) Dev.que where
  inject := injectAt_que
  bits := setEcc_que
  bank := putBank_que
  alloc := setAlloc_que
  fault d _ kind ptr master access _ := by
    obtain ⟨_, _, h⟩ := ptrFault_eq_raise d _ kind ptr master access
    rw [h, raise_que]
    split
    · rw [wrF_que, bump_que, wrFs_que]
    · rw [bump_que, wrFs_que]
  status d _ g v _ := wrF_que ..

theorem freeStoreBlind_writes : FreeStoreBlind (fun _ => True) Dev.writes where
  inject := injectAt_writes
  bits := setEcc_writes
  bank := putBank_writes
  alloc := setAlloc_writes
  fault d _ kind ptr master access _ := by
    obtain ⟨_, _, h⟩ := ptrFault_eq_raise d _ kind ptr master access
    rw [h, raise_writes]
    split
    · rw [wrF_writes, bump_writes, wrFs_writes]
    · rw [bump_writes, wrFs_writes]
  status d _ g v _ := wrF_writes ..

/-- The registers of the queues lie behind those of the fabric. -/
theorem freeStoreBlind_rd {o : Nat} (ho : 0x1800000 ≤ o) : FreeStoreBlind (· < 4) (fun d => rd d o) where
  inject d c src a := rd_injectAt d c src a (by simp only [Reg.FAULT_INJECT]; omega)
  bits _ _ _ _ := rfl
  bank _ _ _ := rfl
  alloc _ _ _ _ := rfl
  fault d m kind ptr master access hm := by
    have hstatus : o ≠ Reg.FREE_STATUS m := by simp only [Reg.FREE_STATUS]; omega
    have hcount : o ≠ Reg.FABRIC_CNT m 4 := by simp only [Reg.FABRIC_CNT]; omega
    have hlast : o ≠ Reg.PTR_ERR_LAST := by simp only [Reg.PTR_ERR_LAST]; omega
    obtain ⟨l, k, h⟩ := ptrFault_eq_raise d m kind ptr master access
    have hd : rd (bump (wrFs d Reg.PTR_ERR_LAST l) (Reg.FABRIC_CNT m 4)) o = rd d o :=
      (rd_bump_other _ hcount).trans (rd_wrFs_other d l hlast)
    simp only [h, rd_raise]
    split
    · exact (rd_wr_other _ _ hstatus).trans hd
    · exact hd
  status d m g v hm := rd_wr_other d _ (by simp only [Reg.FREE_STATUS]; omega)

theorem foldl_cellFree_que (l : List Nat) (d : Dev) : (l.foldl cellFree d).que = d.que :=
  freeStoreBlind_que.foldl_cellFree (fun _ _ => trivial) l d

theorem cellsTake_que (d : Dev) (m n : Nat) : (cellsTake d m n).2.que = d.que := freeStoreBlind_que.cellsTake (fun _ _ => trivial) d n trivial

/-! What a packet that leaves its queue gives back. -/

theorem releaseCells_que (d : Dev) (p : Pkt) : (releaseCells d p).que = d.que := by
  simp only [releaseCells]
  split
  · rw [setRef_que]
  · rw [foldl_cellFree_que, poolReturn, setPoolUse, wr_que, setRef_que]

theorem releaseShare_que (d : Dev) (p : Pkt) : (releaseShare d p).que = d.que := by
  simp only [releaseShare]
  split
  · rw [setPpRef_que]
  · obtain ⟨_, _, h⟩ := releasePpN_shape (setPpRef d p.ppRef 0) (inPort p) p.prio p.ppCells p.headland
    rw [releasePp, h]
    exact setPpRef_que d p.ppRef 0

theorem releaseCopy_que (d : Dev) (p : Pkt) : (releaseCopy d p).que = d.que := by
  rw [releaseCopy, releaseShare_que, releaseCells_que]

theorem dropCpl_que (d : Dev) (p : Pkt) (reason : Nat) : (dropCpl d p reason).que = d.que := by
  rw [dropCpl]
  split
  · rw [cplWrite, msi_que, bumpWrap_que, memWrite_que]
  · rfl

/-- A packet that is dropped changes its queue's DEPTH, and no sub-queue. -/
theorem queueDrop_subs (d : Dev) (q m : Nat) (p : Pkt) (k : Nat) (cells : Bool) : (queueDrop d q m p k cells).que.subs = d.que.subs := by
  have hun : (unqueue (dropCpl (bump d (Reg.QUEUE_DROP k)) p (0xA0 + k)) q m p).que.subs = d.que.subs := by
    rw [unqueue, nodesLeave, nodeRelease, nodeRelease]
    simp only [putNode_que, setInflight_que, depthSub, setDepth, dropCpl_que, bump_que]
  simp only [queueDrop]
  split
  · rw [releaseCopy_que, hun]
  · rw [releaseShare_que, hun]

theorem foldl_subs {α : Type} {f : Dev → α → Dev} (h : ∀ d x, (f d x).que.subs = d.que.subs) (l : List α) (d : Dev) :
    (l.foldl f d).que.subs = d.que.subs := by
  induction l generalizing d with
  | nil => rfl
  | cons x t ih => exact (ih _).trans (h d x)

end Sys2Proof.Machine
end

section
/-!
PROOF. The page store (R260): the pages that a slice takes and gives leave the sub-queues alone, and the batches of a page cache.
-/
namespace Sys2Proof.Machine

/-! The pointer at the head of the ring. -/

@[simp] theorem pageFreeAdd_que (d : Dev) (f : Fld) (up : Bool) (n : Nat) : (pageFreeAdd d f up n).que = d.que := wrF_que ..

@[simp] theorem pageFault_que (d : Dev) (m kind page q : Nat) : (pageFault d m kind page q).que = d.que := by
  rw [pageFault, raise_que]
  split
  · rw [pageFreeAdd_que]
    split
    · rw [wrFs_que]
    · rw [bump_que, wrFs_que]
  · split
    · rw [wrFs_que]
    · rw [bump_que, wrFs_que]

/-- The read of the ring's head: whether it comes back good. -/
def headRead (d : Dev) : Bool × Dev :=
  let x := deepCheck d (ringAddr d d.que.ringHead) 4 11 10
  if x.1 = 0 then burstRead (bump x.2 (Reg.DEEP_CNT 0)) (ringAddr x.2 d.que.ringHead / 32 * 32) 11 10 else (false, x.2)

theorem headRead_que (d : Dev) : (headRead d).2.que = d.que := by
  rw [headRead]
  split
  · exact (burstRead_que ..).trans ((bump_que ..).trans (deepCheck_que ..))
  · exact deepCheck_que ..

/-- The device after the ring's head has moved on from a position. -/
def headMoved (d : Dev) (pos : Nat) : Dev :=
  { d with que := { d.que with ringHead := (pos + 1) % ringLen d, ringCount := d.que.ringCount - 1 } }

/-- A single wrong bit of the ring's word is corrected and reported. -/
def headCorrected (d : Dev) (m pos ptr e : Nat) : Dev := if e = 1 then pageFault (setEcc d .pageRing pos 0) m 0 ptr 0 else d

theorem headCorrected_que (d : Dev) (m pos ptr e : Nat) : (headCorrected d m pos ptr e).que = d.que := by
  rw [headCorrected]
  split
  · rw [pageFault_que, setEcc_que]
  · rfl

/-- A pointer that is discarded: it is free no more. -/
def pageLost (d : Dev) (m kind ptr : Nat) : Dev := pageFreeAdd (pageFault d m kind ptr 0) Reg.SPILL_STATUS_FREE false 1

theorem pageLost_que (d : Dev) (m kind ptr : Nat) : (pageLost d m kind ptr).que = d.que := (pageFreeAdd_que ..).trans (pageFault_que ..)

theorem pagePop_empty {d : Dev} (h : d.que.ringCount = 0) (m : Nat) : pagePop d m = (none, d) := if_pos h

theorem pagePop_eq {d : Dev} (h : d.que.ringCount ≠ 0) (m : Nat) : pagePop d m =
    (let pos := d.que.ringHead
     let ptr := (ringNow d).word pos
     let x := headRead d
     let c := headCorrected (headMoved x.2 pos) m pos ptr (ecc x.2 .pageRing pos)
     if ¬ x.1 = true ∨ ecc x.2 .pageRing pos = 2 then (none, pageLost (headMoved x.2 pos) m 1 ptr)
     else if pageOutside c ptr then (none, pageLost c m 2 ptr) else (some ptr, c)) := by
  rw [pagePop, if_neg h]
  rfl

theorem pagePop_subs (d : Dev) (m : Nat) : (pagePop d m).2.que.subs = d.que.subs := by
  by_cases h : d.que.ringCount = 0
  · rw [pagePop_empty h]
  · have hmoved : (headMoved (headRead d).2 d.que.ringHead).que.subs = d.que.subs := by
      show (headRead d).2.que.subs = d.que.subs
      rw [headRead_que]
    rw [pagePop_eq h]
    dsimp only
    split
    · rw [pageLost_que, hmoved]
    · split
      · rw [pageLost_que, headCorrected_que, hmoved]
      · rw [headCorrected_que, hmoved]

/-! A pointer at the tail of the ring. -/

/-- The write of the ring's word at a position: whether it is stored. -/
def tailWrite (d : Dev) (pos : Nat) : Bool × Dev :=
  let x := deepCheck d (ringAddr d pos) 4 11 9
  if x.1 = 0 then burstWrite (bump x.2 (Reg.DEEP_CNT 1)) (ringAddr x.2 pos / 32 * 32) false 11 9 else (false, x.2)

theorem tailWrite_que (d : Dev) (pos : Nat) : (tailWrite d pos).2.que = d.que := by
  rw [tailWrite]
  split
  · exact (burstWrite_que ..).trans ((bump_que ..).trans (deepCheck_que ..))
  · exact deepCheck_que ..

theorem pagePush_eq (d : Dev) (m ptr : Nat) : pagePush d m ptr =
    (let pos := (d.que.ringHead + d.que.ringCount) % ringLen d
     let x := tailWrite { d with que := { d.que with ringCount := d.que.ringCount + 1 } } pos
     if x.1 then eccWrite { x.2 with que := { x.2.que with ring := spPut (ringNow x.2).init x.2.que.ring pos ptr } } .pageRing pos (256 * 7 + m) 0
     else x.2) := rfl

/-- The ring is longer by the pointer, whether its write is served or fails, and no other part of the queues changes. -/
theorem pagePush_que (d : Dev) (m ptr : Nat) : ∃ ring, (pagePush d m ptr).que =
    { d.que with ring := ring, ringCount := d.que.ringCount + 1 } := by
  have hw := tailWrite_que { d with que := { d.que with ringCount := d.que.ringCount + 1 } }
    ((d.que.ringHead + d.que.ringCount) % ringLen d)
  rw [pagePush_eq]
  dsimp only
  split
  · rw [eccWrite_que]
    exact ⟨_, by rw [hw]⟩
  · exact ⟨d.que.ring, hw⟩

theorem foldl_pagePush_que (m : Nat) (l : List Nat) (d : Dev) : ∃ ring, (l.foldl (fun d p => pagePush d m p) d).que =
    { d.que with ring := ring, ringCount := d.que.ringCount + l.length } := by
  induction l generalizing d with
  | nil => exact ⟨d.que.ring, rfl⟩
  | cons p t ih =>
    obtain ⟨_, hp⟩ := pagePush_que d m p
    obtain ⟨ring, ht⟩ := ih (pagePush d m p)
    refine ⟨ring, ?_⟩
    rw [List.foldl_cons, ht, hp, List.length_cons, Nat.add_assoc, Nat.add_comm 1]

/-! The page cache of a slice. -/

@[simp] theorem pageCache_setPageCache_same (d : Dev) (m : Nat) (l : List Nat) : pageCache (setPageCache d m l) m = l := spGet_spPut_same ..
@[simp] theorem setPageCache_subs (d : Dev) (m : Nat) (l : List Nat) : (setPageCache d m l).que.subs = d.que.subs := rfl
@[simp] theorem setPageAlloc_subs (d : Dev) (p v : Nat) : (setPageAlloc d p v).que.subs = d.que.subs := rfl

/-- A cache above 96 gives its last 32 pointers to the ring. -/
theorem pageCacheWriteback_que {d : Dev} {m : Nat} (h : 96 < (pageCache d m).length) : ∃ ring, (pageCacheWriteback m d).que =
    { (setPageCache d m ((pageCache d m).take ((pageCache d m).length - 32))).que with
      ring := ring, ringCount := d.que.ringCount + 32 } := by
  have hback : ((pageCache d m).drop ((pageCache d m).length - 32)).length = 32 := by rw [List.length_drop]; omega
  obtain ⟨ring, hfold⟩ := foldl_pagePush_que m ((pageCache d m).drop ((pageCache d m).length - 32))
    (setPageCache d m ((pageCache d m).take ((pageCache d m).length - 32)))
  rw [pageCacheWriteback, if_neg (Nat.not_le.mpr h), hfold, hback]
  exact ⟨ring, rfl⟩

theorem pageCacheWriteback_subs (m : Nat) (d : Dev) : (pageCacheWriteback m d).que.subs = d.que.subs := by
  by_cases h : (pageCache d m).length ≤ 96
  · rw [pageCacheWriteback, if_pos h]
  · obtain ⟨_, hq⟩ := pageCacheWriteback_que (Nat.not_le.mp h)
    rw [hq]
    rfl

/-! Pages taken and given leave the sub-queues alone. -/

theorem pageFree_subs (m : Nat) (d : Dev) (ptr : Nat) : (pageFree m d ptr).que.subs = d.que.subs := by
  have hin := congrArg QueueSt.subs (injectAt_que d 9 (256 * 7 + m) 0)
  simp only [pageFree]
  generalize (if (injectAt d 9 (256 * 7 + m) 0).1 = 0 then ptr else ptr + 2 ^ 25) = p
  split
  · rw [pageFault_que, hin]
  · split
    · rw [pageFault_que, hin]
    · rw [pageFreeAdd_que, setPageCache_subs, setPageAlloc_subs]
      split
      · rw [pageCacheWriteback_subs, hin]
      · exact hin

/-- The first page of a slice's cache is taken. -/
def cacheTaken (d : Dev) (m : Nat) (t : List Nat) : Dev := pageFreeAdd (setPageCache d m t) Reg.SPILL_STATUS_FREE false 1

theorem cacheTaken_subs (d : Dev) (m : Nat) (t : List Nat) : (cacheTaken d m t).que.subs = d.que.subs := by
  rw [cacheTaken, pageFreeAdd_que, setPageCache_subs]

theorem pageTake_cached {d : Dev} {m p : Nat} {t : List Nat} (h : pageCache d m = p :: t) (n : Nat) : pageTake d m (n + 1) =
    if pageRetired (cacheTaken d m t) p then pageTake (pageFault (cacheTaken d m t) m 2 p 0) m n
    else (some p, setPageAlloc (cacheTaken d m t) p 1) := by
  rw [pageTake, h]
  rfl

theorem pageTake_subs (m n : Nat) (d : Dev) : (pageTake d m n).2.que.subs = d.que.subs := by
  induction n generalizing d with
  | zero => rw [pageTake]
  | succ n ih =>
    rcases hc : pageCache d m with _ | ⟨p, t⟩
    · have hpop := pagePop_subs d m
      rw [pageTake, hc]
      dsimp only
      split
      · rfl
      · split
        · rename_i hp
          rw [hp] at hpop
          rw [pageFreeAdd_que, setPageAlloc_subs, hpop]
        · rename_i hp
          rw [hp] at hpop
          rw [ih, hpop]
    · rw [pageTake_cached hc]
      split
      · rw [ih, pageFault_que, cacheTaken_subs]
      · dsimp only
        rw [setPageAlloc_subs, cacheTaken_subs]

theorem pageGet_subs (d : Dev) (m : Nat) : (pageGet d m).2.que.subs = d.que.subs := pageTake_subs ..

/-! A batch of good pointers from the ring. -/

/-- The pointer at the j-th place behind the ring's head. -/
def pagePtr (d : Dev) (j : Nat) : Nat := (ringNow d).word ((d.que.ringHead + j) % ringLen d)

theorem deepLoc_congr {d e : Dev} (hc : rd e Reg.DEEP_CFG = rd d Reg.DEEP_CFG) (hs : rd e Reg.DEEP_SPARE_CFG = rd d Reg.DEEP_SPARE_CFG)
    (hf : e.fuses = d.fuses) (a : Nat) : deepLoc e a = deepLoc d a := by
  have hspare : hasSpare e = hasSpare d := funext fun k => by rw [hasSpare, hasSpare, rdF_congr hs]
  have hbytes : stackBytes e = stackBytes d := funext fun k => by rw [stackBytes, stackBytes, hspare]
  have hcount : stackCount e = stackCount d := by rw [stackCount, stackCount, hf]
  have hradix (k : Nat) (f : DeepFld) : deepRadix e k f = deepRadix d k f := by
    cases f with
    | L => rw [deepRadix, deepRadix, hspare]
    | S => exact hcount
    | _ => rfl
  have hdigits (k : Nat) (l : List DeepFld) (x : Nat) : deepDigits e k l x = deepDigits d k l x := by
    induction l generalizing x with
    | nil => rfl
    | cons f t ih => rw [deepDigits, deepDigits, hradix, ih]
  simp only [deepLoc, rdF_congr hc, hbytes, hdigits]

/-- Whether a pointer is outside the spill pages rests on the region, the address mapping and the ranks. -/
theorem pageOutside_congr {d e : Dev} (hr : rd e Reg.SPILL_REGION = rd d Reg.SPILL_REGION) (hc : rd e Reg.DEEP_CFG = rd d Reg.DEEP_CFG)
    (hs : rd e Reg.DEEP_SPARE_CFG = rd d Reg.DEEP_SPARE_CFG) (hf : e.fuses = d.fuses)
    (hm : ∀ k, k < 2 → rd e (Reg.DEEP_MIG_STATUS k) = rd d (Reg.DEEP_MIG_STATUS k))
    (hk : ∀ k c x, k < 2 → c < 32 → x < 4 → rd e (Reg.RANK_STATE k c x) = rd d (Reg.RANK_STATE k c x)) (p : Nat) :
    pageOutside e p = pageOutside d p := by
  have hstate (a x : Nat) (hx : x < 4) : rankState e (deepLoc d a).k (deepLoc d a).c x = rankState d (deepLoc d a).k (deepLoc d a).c x :=
    rdF_congr (hk _ _ _ (deepLoc_k_lt d a) (deepLoc_c_lt d a) hx) _
  have hserve (a : Nat) : servingSid e (deepLoc d a) = servingSid d (deepLoc d a) := by
    rw [servingSid, servingSid, hstate a _ (deepLoc_sid_lt d a), rdF_congr (hm _ (deepLoc_k_lt d a))]
  have hretired : pageRetired e p = pageRetired d p := by
    simp only [pageRetired, deepLoc_congr hc hs hf, hserve, hstate _ _ (servingSid_lt d (deepLoc_sid_lt d _))]
  rw [pageOutside, pageOutside, hretired, spillBase, spillBase, ringPages, ringPages, spillPages, spillPages, rdF_congr hr, rdF_congr hr]

/-- The device after n good pointers of the ring have joined the cache of slice m. -/
structure PagesTaken (d : Dev) (m n : Nat) (e : Dev) : Prop where
  regs : ∀ o, ¬ burstCount o → o ≠ Reg.DEEP_CNT 0 → rd e o = rd d o
  served : rd e (Reg.DEEP_CNT 0) = rd d (Reg.DEEP_CNT 0) + BitVec.ofNat 64 n
  fuses : e.fuses = d.fuses
  upset : e.upset = d.upset
  ring : e.que.ring = d.que.ring
  head : e.que.ringHead = (d.que.ringHead + n) % ringLen d
  count : e.que.ringCount = d.que.ringCount - n
  cache : pageCache e m = pageCache d m ++ (List.range n).map (pagePtr d)

/-- One pointer of a batch joins the cache. -/
def takeOne (m : Nat) (d : Dev) : Dev :=
  match pagePop d m with
  | (some p, d) => setPageCache d m (pageCache d m ++ [p])
  | (none, d) => d

theorem pageCacheRefill_below {d : Dev} {m : Nat} (h : (pageCache d m).length < 32) :
    pageCacheRefill m d = (List.range 32).foldl (fun d _ => takeOne m d) d := if_neg (Nat.not_le.mpr h)

section
variable {d e : Dev} {m n : Nat}

theorem PagesTaken.ringNow (h : PagesTaken d m n e) : ringNow e = ringNow d := by
  have hr : rd e Reg.SPILL_REGION = rd d Reg.SPILL_REGION := h.regs _ (by rw [burstCount]; decide) (by decide)
  rw [Machine.ringNow, Machine.ringNow, spillBase, spillBase, spillPages, spillPages, rdF_congr hr, rdF_congr hr, h.ring]

theorem pageOutside_ofRegs (h : ∀ o, ¬ burstCount o → o ≠ Reg.DEEP_CNT 0 → rd e o = rd d o) (hf : e.fuses = d.fuses) (p : Nat) :
    pageOutside e p = pageOutside d p :=
  pageOutside_congr (h _ (by rw [burstCount]; decide) (by decide)) (h _ (by rw [burstCount]; decide) (by decide))
    (h _ (by rw [burstCount]; decide) (by decide)) hf
    (fun k hk => h _ (by simp only [burstCount, Reg.DEEP_MIG_STATUS, Reg.DEEP_CNT]; omega)
      (by simp only [Reg.DEEP_MIG_STATUS, Reg.DEEP_CNT]; omega))
    (fun k c x _ _ _ => h _ (by simp only [burstCount, Reg.RANK_STATE, Reg.DEEP_CNT]; omega)
      (by simp only [Reg.RANK_STATE, Reg.DEEP_CNT]; omega)) p

theorem Serving.ofRegs (g : Serving d) (h : ∀ o, ¬ burstCount o → o ≠ Reg.DEEP_CNT 0 → rd e o = rd d o) : Serving e where
  idle := (flagF_congr (h _ (by rw [burstCount]; decide) (by decide)) _).trans g.idle
  ranks k c x hk hc hx := by
    rw [rankState, rdF_congr (h _ (by simp only [burstCount, Reg.RANK_STATE, Reg.DEEP_CNT]; omega)
      (by simp only [Reg.RANK_STATE, Reg.DEEP_CNT]; omega))]
    exact g.ranks k c x hk hc hx

/-- A good pointer at the head of the ring of a store that serves. -/
theorem takeOne_good (g : Serving d) (hgood : AllGood d) (hready : deepReady d = true)
    (hfit : 4096 * spillBase d + 4 * ringLen d ≤ deepSize d) (hhead : d.que.ringHead < ringLen d) (hc : d.que.ringCount ≠ 0)
    (he : ecc d .pageRing d.que.ringHead = 0) (hp : pageOutside d (pagePtr d 0) = false) : PagesTaken d m 1 (takeOne m d) := by
  have hcheck : deepCheck d (ringAddr d d.que.ringHead) 4 11 10 = (0, d) := deepCheck_ok hready (by rw [ringAddr]; omega) 11 10
  have hregs (o : Nat) (ho : o ≠ Reg.DEEP_CNT 0) : rd (bump d (Reg.DEEP_CNT 0)) o = rd d o := rd_bump_other d ho
  obtain ⟨x, hx, hsame, hupset⟩ := burstRead_good (g.ofRegs fun o _ => hregs o)
    (fun key => (ecc_congr (bump_upset ..) .deep key).trans (hgood key)) (ringAddr d d.que.ringHead / 32 * 32) 11 10
  have hread : headRead d = (true, x) := by simp only [headRead, hcheck, if_true, hx]
  have hxregs (o : Nat) (h1 : ¬ burstCount o) (h2 : o ≠ Reg.DEEP_CNT 0) : rd x o = rd d o := (hsame.regs o h1).trans (hregs o h2)
  have hxque : x.que = d.que := hsame.que.trans (bump_que ..)
  have hxring : Machine.ringNow x = Machine.ringNow d := ringNow_congr (hxregs _ (by rw [burstCount]; decide) (by decide)) hxque
  have hptr : (Machine.ringNow d).word d.que.ringHead = pagePtr d 0 := by rw [pagePtr, Nat.add_zero, Nat.mod_eq_of_lt hhead]
  have hxe : ecc x .pageRing d.que.ringHead = 0 := (ecc_congr (hupset.trans (bump_upset ..)) _ _).trans he
  have htaken : PagesTaken d m 1 (setPageCache (headMoved x d.que.ringHead) m (pageCache (headMoved x d.que.ringHead) m ++ [pagePtr d 0])) := {
    regs := hxregs
    served := (hsame.regs _ (by rw [burstCount]; decide)).trans (rd_bump_same ..)
    fuses := hsame.fuses.trans (bump_fuses ..)
    upset := hupset.trans (bump_upset ..)
    ring := by
      show x.que.ring = d.que.ring
      rw [hxque]
    head := by
      show (d.que.ringHead + 1) % ringLen x = _
      rw [ringLen, hxring, ringLen]
    count := by
      show x.que.ringCount - 1 = d.que.ringCount - 1
      rw [hxque]
    cache := by
      have hcache : pageCache (headMoved x d.que.ringHead) m = pageCache d m := by
        show spGet (fun _ => []) x.que.cache m = _
        rw [hxque, pageCache]
      rw [pageCache_setPageCache_same, hcache]
      rfl }
  have hout : pageOutside (headMoved x d.que.ringHead) (pagePtr d 0) = false :=
    (pageOutside_ofRegs (e := headMoved x d.que.ringHead) hxregs htaken.fuses _).trans hp
  rw [takeOne, pagePop_eq hc]
  simp only [hread, hxe, hptr, headCorrected, hout, show ¬ (0 = 2) by decide, show ¬ (0 = 1) by decide, not_true_eq_false, or_self,
    if_false, Bool.false_eq_true]
  exact htaken

/-- Pointers taken one after another. -/
theorem PagesTaken.trans {f : Dev} {k : Nat} (h : PagesTaken d m n e) (g : PagesTaken e m k f) : PagesTaken d m (n + k) f where
  regs o h1 h2 := (g.regs o h1 h2).trans (h.regs o h1 h2)
  served := by rw [g.served, h.served, BitVec.add_assoc, BitVec.ofNat_add]
  fuses := g.fuses.trans h.fuses
  upset := g.upset.trans h.upset
  ring := g.ring.trans h.ring
  head := by rw [g.head, ringLen, h.ringNow, h.head, ← ringLen, Nat.mod_add_mod, Nat.add_assoc]
  count := by rw [g.count, h.count, Nat.sub_sub]
  cache := by
    have hptr (j : Nat) : pagePtr e j = pagePtr d (n + j) := by
      rw [pagePtr, pagePtr, ringLen, h.ringNow, h.head, ← ringLen, Nat.mod_add_mod, Nat.add_assoc]
    rw [g.cache, h.cache, List.append_assoc, List.range_add, List.map_append, List.map_map]
    congr 2
    exact List.map_congr_left fun j _ => hptr j

/-- A ring with n good pointers gives them to the cache in their order. -/
theorem foldl_takeOne (g : Serving d) (hgood : AllGood d) (hready : deepReady d = true)
    (hfit : 4096 * spillBase d + 4 * ringLen d ≤ deepSize d) (hhead : d.que.ringHead < ringLen d)
    (he : ∀ y, ecc d .pageRing y = 0) (hc : n ≤ d.que.ringCount) (hp : ∀ j, j < n → pageOutside d (pagePtr d j) = false) :
    PagesTaken d m n ((List.range n).foldl (fun d _ => takeOne m d) d) := by
  induction n with
  | zero =>
    exact ⟨fun _ _ _ => rfl, (BitVec.add_zero _).symm, rfl, rfl, rfl, (Nat.mod_eq_of_lt hhead).symm, rfl, (List.append_nil _).symm⟩
  | succ n ih =>
    have h := ih (by omega) fun j hj => hp j (by omega)
    rw [List.range_succ, List.foldl_append, List.foldl_cons, List.foldl_nil]
    generalize (List.range n).foldl (fun d _ => takeOne m d) d = e at h
    have hlen : ringLen e = ringLen d := by rw [ringLen, h.ringNow, ← ringLen]
    have hptr : pagePtr e 0 = pagePtr d n := by rw [pagePtr, pagePtr, hlen, h.ringNow, h.head, Nat.add_zero, Nat.mod_mod]
    have hbase : spillBase e = spillBase d := congrArg RingArea.base h.ringNow
    refine h.trans (takeOne_good (g.ofRegs h.regs) (fun key => (ecc_congr h.upset .deep key).trans (hgood key)) ?_ ?_ ?_ ?_ ?_ ?_)
    · rwa [deepReady_congr (h.regs _ (by rw [burstCount]; decide) (by decide))]
    · rwa [hbase, hlen, deepSize_congr (h.regs _ (by rw [burstCount]; decide) (by decide)) h.fuses]
    · rw [h.head, hlen]
      exact Nat.mod_lt _ (by omega)
    · rw [h.count]
      omega
    · rw [ecc_congr h.upset, he]
    · rw [pageOutside_ofRegs h.regs h.fuses, hptr, hp n (by omega)]

end

end Sys2Proof.Machine
end

section
/-!
PROOF. Sub-queues: their marks of a blocked spill, and the records that the spill engine and the refill move (R250 to R256).
-/
namespace Sys2Proof.Machine

/-! One sub-queue. -/

theorem getSub_putSub (d : Dev) (q m : Nat) (x : SubQ) (r k : Nat) :
    getSub (putSub d q m x) r k = if 4 * r + k = 4 * q + m then x else getSub d r k := by
  rw [getSub, putSub]
  exact spGet_spPut ..

@[simp] theorem getSub_putSub_same (d : Dev) (q m : Nat) (x : SubQ) : getSub (putSub d q m x) q m = x := by rw [getSub_putSub, if_pos rfl]

theorem getSub_congr {d e : Dev} (h : e.que.subs = d.que.subs) (q m : Nat) : getSub e q m = getSub d q m := by rw [getSub, h, getSub]

@[simp] theorem getSub_commit (s : State) (d : Dev) (q m : Nat) : getSub (commit s d).dev q m = getSub d q m := getSub_congr rfl q m

/-! The key of a queue's holding. -/

/-- With good check bits the read of the key changes nothing. -/
theorem keyLoad_good {d : Dev} {q : Nat} (h : ecc d .rindEntry (saKey 3 (queueHolding d q)) = 0) : keyLoad d q = d := by
  rw [keyLoad, entLoadBy, h]
  rfl

theorem keyLoad_que (d : Dev) (q : Nat) : (keyLoad d q).que = d.que := by
  simp only [keyLoad, entLoadBy]
  split
  · rfl
  · split
    · exact (raise_que ..).trans (setEcc_que ..)
    · split
      · exact (setEcc_que ..).trans ((putEnt_que ..).trans (raise_que ..))
      · exact raise_que ..

/-! What a blocked spill rests on: everything but the marks. -/

/-- A sub-queue without its mark. -/
def SubQ.unmarked (x : SubQ) : SubQ := { x with blocked := false }

/-- Two devices whose queues differ at most in the marks of blocked spills. -/
structure MarksDiffer (d e : Dev) : Prop where
  subs : ∀ r k, (getSub e r k).unmarked = (getSub d r k).unmarked
  cfg : e.que.cfg = d.que.cfg
  depth : e.que.depth = d.que.depth
  cache : e.que.cache = d.que.cache
  count : e.que.ringCount = d.que.ringCount
  rind : e.rind = d.rind
  prof : ∀ k w, rd e (Reg.QPROF k w) = rd d (Reg.QPROF k w)

theorem MarksDiffer.refl (d : Dev) : MarksDiffer d d := ⟨fun _ _ => rfl, rfl, rfl, rfl, rfl, rfl, fun _ _ => rfl⟩

theorem MarksDiffer.trans {d e f : Dev} (h : MarksDiffer d e) (g : MarksDiffer e f) : MarksDiffer d f :=
  ⟨fun r k => (g.subs r k).trans (h.subs r k), g.cfg.trans h.cfg, g.depth.trans h.depth, g.cache.trans h.cache, g.count.trans h.count,
    g.rind.trans h.rind, fun k w => (g.prof k w).trans (h.prof k w)⟩

section
variable {d e : Dev} {q m : Nat}

theorem MarksDiffer.profF (h : MarksDiffer d e) (w : Nat) (f : Fld) : profF e q w f = profF d q w f := by
  rw [Machine.profF, Machine.profF, queueProfile, queueProfile, queueCfg, queueCfg, h.cfg, rdF_congr (h.prof ..)]

theorem MarksDiffer.held (h : MarksDiffer d e) : (getSub e q m).held = (getSub d q m).held := by
  show (getSub e q m).unmarked.held = (getSub d q m).unmarked.held
  rw [h.subs]

theorem MarksDiffer.spilled (h : MarksDiffer d e) : (getSub e q m).spilled = (getSub d q m).spilled := by
  show (getSub e q m).unmarked.spilled = (getSub d q m).unmarked.spilled
  rw [h.subs]

theorem MarksDiffer.tail (h : MarksDiffer d e) : (getSub e q m).tail = (getSub d q m).tail := by
  show (getSub e q m).unmarked.tail = (getSub d q m).unmarked.tail
  rw [h.subs]

theorem spillParts_unmarked (d : Dev) (q : Nat) (x : SubQ) : spillParts d q x.unmarked = spillParts d q x := rfl

theorem spillWants_unmarked (d : Dev) (q : Nat) (x : SubQ) : spillWants d q x.unmarked = spillWants d q x := rfl

theorem MarksDiffer.spillWants (h : MarksDiffer d e) : spillWants e q (getSub e q m) = spillWants d q (getSub d q m) := by
  rw [← spillWants_unmarked, ← spillWants_unmarked d, h.subs]
  simp only [Machine.spillWants, h.profF]

theorem MarksDiffer.queuePages (h : MarksDiffer d e) : queuePages e q = queuePages d q := by
  simp only [Machine.queuePages, h.held]

theorem MarksDiffer.spillBlocked (h : MarksDiffer d e) (hs : (getSub d q m).spilled = true ∨ spillingIn e m = spillingIn d m) :
    spillBlocked e q m = spillBlocked d q m := by
  have hparts : spillParts e q (getSub e q m) = spillParts d q (getSub d q m) := by
    rw [← spillParts_unmarked, ← spillParts_unmarked d, h.subs]
    simp only [spillParts, h.profF]
  have hfree : pagesFree e m = pagesFree d m := by rw [pagesFree, pagesFree, pageCache, pageCache, h.cache, h.count]
  have hkey : rindEnt e 3 (queueHolding e q) = rindEnt d 3 (queueHolding d q) := by
    rw [rindEnt, rindEnt, h.rind, queueHolding, queueHolding, queueCfg, queueCfg, h.cfg]
  have hspilling : (!(getSub d q m).spilled && decide (256 ≤ spillingIn e m)) = (!(getSub d q m).spilled && decide (256 ≤ spillingIn d m)) := by
    obtain hs | hs := hs
    · rw [hs]
      rfl
    · rw [hs]
  simp only [Machine.spillBlocked, hparts, h.spilled, hfree, hkey, hspilling, h.profF, h.queuePages]

end

/-- A sub-queue whose mark alone is set. -/
theorem marksDiffer_putSub {d : Dev} {q m : Nat} {x : SubQ} (h : x.unmarked = (getSub d q m).unmarked) : MarksDiffer d (putSub d q m x) where
  subs r k := by
    rw [getSub_putSub]
    split
    · rename_i hk
      rw [h, getSub, getSub, hk]
    · rfl
  cfg := rfl
  depth := rfl
  cache := rfl
  count := rfl
  rind := rfl
  prof _ _ := rfl

/-! The end of a block. -/

/-- The sub-queue is marked for as long as its spill, or its spill's start, is blocked. -/
def blockedNow (d : Dev) (q m : Nat) : Bool := spillWants d q (getSub d q m) && spillBlocked d q m

theorem blockEnd_eq (d : Dev) (q m : Nat) : blockEnd d q m =
    if ((getSub d q m).blocked && !blockedNow d q m) = true then putSub d q m (getSub d q m).unmarked else d := rfl

theorem blockEnd_blocked {d : Dev} {q m : Nat} (h : blockedNow d q m = true) : blockEnd d q m = d := by
  rw [blockEnd_eq, h, if_neg (by simp)]

theorem blockEnd_unmarked {d : Dev} {q m : Nat} (h : (getSub d q m).blocked = false) : blockEnd d q m = d := by
  rw [blockEnd_eq, h, if_neg (by simp)]

theorem marksDiffer_blockEnd (d : Dev) (q m : Nat) : MarksDiffer d (blockEnd d q m) := by
  rw [blockEnd_eq]
  split
  · exact marksDiffer_putSub rfl
  · exact .refl d

theorem getSub_blockEnd_same (d : Dev) (q m : Nat) : getSub (blockEnd d q m) q m =
    { getSub d q m with blocked := (getSub d q m).blocked && blockedNow d q m } := by
  rw [blockEnd_eq]
  generalize blockedNow d q m = b
  cases hb : (getSub d q m).blocked with
  | false =>
    rw [if_neg (by simp), Bool.false_and, ← hb]
  | true =>
    cases b with
    | false => rw [if_pos (by decide), getSub_putSub_same]; rfl
    | true => rw [if_neg (by decide), Bool.and_self, ← hb]

/-! A spill that finds itself blocked. -/

theorem getSub_markBlocked_same (d : Dev) (q m : Nat) : getSub (markBlocked d q m) q m = { getSub d q m with blocked := true } := by
  rw [markBlocked]
  dsimp only
  split
  · rename_i h
    rw [← h]
  · rw [getSub_congr (congrArg QueueSt.subs (bump_que ..)), getSub_putSub_same]

/-- Each blocking event is counted once. -/
theorem rd_markBlocked (d : Dev) (q m : Nat) : rd (markBlocked d q m) (Reg.QUEUE_CNT 7) =
    rd d (Reg.QUEUE_CNT 7) + (if (getSub d q m).blocked then 0 else 1) := by
  rw [markBlocked]
  split
  · exact (BitVec.add_zero _).symm
  · exact rd_bump_same ..

/-! The move of a tail packet (R252, R253). -/

theorem closePages_short {d : Dev} {q m : Nat} (h : (getSub d q m).openBuf.length < 4064) (n : Nat) : closePages d q m (n + 1) = d := by
  rw [closePages]
  exact if_pos (.inl h)

/-- The sub-queue with a page for its open buffer, when one is free. -/
def pageOpened (d : Dev) (m : Nat) (x : SubQ) : SubQ × Dev :=
  if x.openPage.isSome then (x, d) else ({ x with openPage := (pageGet d m).1 }, (pageGet d m).2)

/-- The sub-queue after its oldest tail packet's record has joined the stream. -/
def recordMoved (x : SubQ) (p : Pkt) (t : List Pkt) : SubQ :=
  { x with tail := t, openBuf := x.openBuf ++ recordBytes p
           openFirst := if x.openFirst = 0xFFFF ∧ x.openBuf.length < 4064 then x.openBuf.length else x.openFirst
           blocked := false, recs := x.recs ++ [({ p with cells := [] }, x.fill, (recordBytes p).length, false)]
           fill := x.fill + (recordBytes p).length }

section
variable {d : Dev} {q m : Nat} {p : Pkt} {rest : List Pkt} (hk : keyLoad d q = d) (hs : (getSub d q m).spilled = true)
  (ht : (getSub d q m).tail = p :: rest) (hw : spillWants d q (getSub d q m) = true)
include hk hs ht hw

theorem spillMove_blocked (hb : spillBlocked d q m = true) : spillMove q m d = markBlocked d q m := by
  have hend : blockEnd d q m = d := blockEnd_blocked (by rw [blockedNow, hw, hb]; rfl)
  simp only [spillMove, hk, hend, hs, ht, hw, hb, not_true_eq_false, if_false, if_true]

/-- The record joins the stream of the sub-queue, whose page is opened first when none is. -/
theorem spillMove_moves (hb : spillBlocked d q m = false) : ∃ x e n, x.unmarked = (getSub d q m).unmarked ∧
    spillMove q m d = closePages (bump (releaseCells (putSub (pageOpened e m x).2 q m (recordMoved (pageOpened e m x).1 p rest)) p)
      (Reg.QUEUE_CNT 4)) q m (n + 1) := by
  have hmarks := marksDiffer_blockEnd d q m
  have hs' : (getSub (blockEnd d q m) q m).spilled = true := hmarks.spilled.trans hs
  have ht' : (getSub (blockEnd d q m) q m).tail = p :: rest := hmarks.tail.trans ht
  have hw' := hmarks.spillWants.trans hw
  have hb' := (hmarks.spillBlocked (.inl hs)).trans hb
  refine ⟨getSub (blockEnd d q m) q m, blockEnd d q m, ((getSub (blockEnd d q m) q m).openBuf.length + (recordBytes p).length) / 4064,
    hmarks.subs q m, ?_⟩
  rw [spillMove, hk]
  generalize blockEnd d q m = e at hs' ht' hw' hb'
  dsimp only
  rw [if_neg (not_not_intro hs'), ht']
  dsimp only
  rw [if_neg (not_not_intro hw'), if_neg (by rw [hb']; decide), pageOpened]
  split
  · rfl
  · rfl

end

/-- What the sub-queue is after the move of a record that the open page has room for. -/
theorem getSub_spillMove {d : Dev} {q m : Nat} {p : Pkt} {rest : List Pkt} (hk : keyLoad d q = d) (hs : (getSub d q m).spilled = true)
    (ht : (getSub d q m).tail = p :: rest) (hw : spillWants d q (getSub d q m) = true) (hb : spillBlocked d q m = false)
    (hroom : (getSub d q m).openBuf.length + (recordBytes p).length < 4064) :
    ∃ x, x.unmarked = { (getSub d q m).unmarked with openPage := x.openPage } ∧ getSub (spillMove q m d) q m = recordMoved x p rest := by
  obtain ⟨x, e, n, hx, hmove⟩ := spillMove_moves hk hs ht hw hb
  have hopen : (pageOpened e m x).1.unmarked = { (getSub d q m).unmarked with openPage := (pageOpened e m x).1.openPage } := by
    rw [pageOpened, ← hx]
    split <;> rfl
  generalize hy : pageOpened e m x = y at hmove hopen
  have hsub : getSub (bump (releaseCells (putSub y.2 q m (recordMoved y.1 p rest)) p) (Reg.QUEUE_CNT 4)) q m = recordMoved y.1 p rest := by
    rw [getSub_congr (congrArg QueueSt.subs ((bump_que ..).trans (releaseCells_que ..))), getSub_putSub_same]
  have hlen : y.1.openBuf.length = (getSub d q m).openBuf.length := congrArg (fun z => z.openBuf.length) hopen
  refine ⟨y.1, hopen, ?_⟩
  rw [hmove, closePages_short, hsub]
  rw [hsub, recordMoved, List.length_append, hlen]
  exact hroom

/-! The start and the end of a spill (R250, R251). -/

theorem splitHead_append (n : Nat) (l : List Pkt) (used : Nat) : (splitHead n l used).1 ++ (splitHead n l used).2 = l := by
  induction l generalizing used with
  | nil => rfl
  | cons p t ih =>
    rw [splitHead]
    split
    · exact congrArg (p :: ·) (ih _)
    · rfl

theorem getSub_showSpilling (d : Dev) (q m : Nat) : getSub (showSpilling d) q m = getSub d q m :=
  getSub_congr (congrArg QueueSt.subs (wrF_que ..)) q m

/-- What the start of a spill can do: nothing, mark the sub-queue, or part its packets. -/
theorem spillStart_cases (d : Dev) (q m : Nat) (hb : (getSub d q m).blocked = false) : ∃ e, e.que.subs = d.que.subs ∧
    (spillStart d q m = e ∨ spillStart d q m = markBlocked e q m ∨
      (getSub d q m).spilled = false ∧ ∃ ptr n, spillStart d q m = showSpilling (putSub e q m { subDef 0 with
        spilled := true, head := (splitHead n (getSub d q m).head 0).1, tail := (splitHead n (getSub d q m).head 0).2, openPage := some ptr })) := by
  have hk := congrArg QueueSt.subs (keyLoad_que d q)
  have hend : blockEnd (keyLoad d q) q m = keyLoad d q := blockEnd_unmarked (by rw [getSub_congr hk, hb])
  rw [spillStart, hend]
  dsimp only
  split
  · exact ⟨_, hk, .inl rfl⟩
  · rename_i hn
    split
    · exact ⟨_, hk, .inr (.inl rfl)⟩
    · have hget := (pageGet_subs (keyLoad d q) m).trans hk
      split
      · rename_i hp
        rw [hp] at hget
        exact ⟨_, hget, .inr (.inl rfl)⟩
      · rename_i ptr e hp
        rw [hp] at hget
        have hs : (getSub d q m).spilled = false := by
          rw [getSub_congr hk] at hn
          exact eq_false_of_ne_true fun h => hn (.inl h)
        refine ⟨e, hget, .inr (.inr ⟨hs, ptr, profF e q 0 Reg.QPROF_HEAD_CELLS, ?_⟩)⟩
        rw [getSub_congr hk, spillParts, if_neg (by rw [hs]; decide)]

/-- The start of a spill keeps the packets of an unspilled sub-queue in their order. -/
theorem spillStart_packets {d : Dev} {q m : Nat} {l : List Pkt} (h : getSub d q m = { subDef 0 with head := l }) :
    (getSub (spillStart d q m) q m).head ++ (getSub (spillStart d q m) q m).tail = l := by
  obtain ⟨e, he, hcase⟩ := spillStart_cases d q m (by rw [h]; rfl)
  have hsub : getSub e q m = { subDef 0 with head := l } := (getSub_congr he q m).trans h
  obtain hcase | hcase | ⟨-, ptr, n, hcase⟩ := hcase
  · rw [hcase, hsub]
    exact List.append_nil l
  · rw [hcase, getSub_markBlocked_same, hsub]
    exact List.append_nil l
  · rw [hcase, getSub_showSpilling, getSub_putSub_same, h]
    exact splitHead_append n l 0

theorem spillJoin_waits {d : Dev} {q m : Nat} (h : (getSub d q m).recs ≠ [] ∨ (getSub d q m).pages ≠ []) : spillJoin d q m = d :=
  if_neg fun g => h.elim (absurd g.2.1) (absurd g.2.2)

theorem spillJoin_packets (d : Dev) (q m : Nat) : (getSub (spillJoin d q m) q m).head ++ (getSub (spillJoin d q m) q m).tail =
    (getSub d q m).head ++ (getSub d q m).tail := by
  rw [spillJoin]
  dsimp only
  split
  · exact spillStart_packets ((getSub_showSpilling ..).trans (getSub_putSub_same ..))
  · rfl

/-! The refill (R256). -/

/-- The sub-queue with the pages whose records are all done swept. -/
theorem getSub_sweepReading (d : Dev) (q m : Nat) : ∃ rs, getSub (sweepReading d q m) q m = { getSub d q m with reading := rs } := by
  obtain ⟨rs, l, h⟩ : ∃ (rs l : List (Nat × Nat)), sweepReading d q m = l.foldl (fun d (e : Nat × Nat) => pageFree m d e.1)
    (putSub d q m { getSub d q m with reading := rs }) := ⟨_, _, rfl⟩
  refine ⟨rs, ?_⟩
  rw [h, getSub_congr (foldl_subs (fun d (e : Nat × Nat) => pageFree_subs m d e.1) _ _), getSub_putSub_same]

/-- The first record of the middle is done: the others are kept, and so are the packets of head and tail. -/
theorem recordDone_packets (d : Dev) (q m : Nat) :
    (getSub (recordDone d q m) q m).head ++ (getSub (recordDone d q m) q m).tail = (getSub d q m).head ++ (getSub d q m).tail ∧
      ((getSub d q m).recs.tail ≠ [] → (getSub (recordDone d q m) q m).head = (getSub d q m).head) := by
  obtain ⟨x, hx, hrec, hh, ht⟩ : ∃ x, recordDone d q m = spillJoin (sweepReading (putSub d q m x) q m) q m ∧
    x.recs = (getSub d q m).recs.tail ∧ x.head = (getSub d q m).head ∧ x.tail = (getSub d q m).tail := ⟨_, rfl, rfl, rfl, rfl⟩
  obtain ⟨rs, hsweep⟩ := getSub_sweepReading (putSub d q m x) q m
  rw [getSub_putSub_same] at hsweep
  rw [hx]
  refine ⟨?_, fun hne => ?_⟩
  · rw [spillJoin_packets, hsweep, ← hh, ← ht]
  · rw [spillJoin_waits (.inl (by rw [hsweep, ← hrec] at *; exact hne)), hsweep, ← hh]

theorem refillPages_ready {d : Dev} {q m : Nat} (h : refillReady (getSub d q m) = true) (mem : Mem) (n : Nat) : refillPages mem q m n d = d := by
  cases n with
  | zero => rw [refillPages]
  | succ n => rw [refillPages, if_pos h]

theorem refill_ready {d : Dev} {q m : Nat} (hs : (getSub d q m).spilled = true) (hr : (getSub d q m).recs ≠ [])
    (h : refillReady (getSub d q m) = true) (hc : cellsIn (getSub d q m).head < profF d q 1 Reg.QPROF_REFILL_CELLS) (mem : Mem) :
    refill q m mem d = refillRecord d q m := by
  simp only [refill, hs, hr, refillPages_ready h, h, not_true_eq_false, if_false, if_true, if_neg (Nat.not_le.mpr hc)]

/-- The packet of a record, as it stands in the bytes at hand. -/
def recordPkt (x : SubQ) (p : Pkt) (start len : Nat) : Pkt :=
  { p with frame := ((recordAt x start len).drop (16 + editHeaderLen p)).take p.frame.length }

/-- The device with the cells of a refilled record charged and referenced. -/
def cellsCharged (d : Dev) (m pool n : Nat) : Dev :=
  setRef (poolCharge { d with fab := { d.fab with refCtr := d.fab.refCtr + 1 } } m pool n) (d.fab.refCtr + 1) 1

theorem cellsCharged_que (d : Dev) (m pool n : Nat) : (cellsCharged d m pool n).que = d.que := by
  rw [cellsCharged, setRef_que, poolCharge, setPoolUse, wr_que]

/-- The sub-queue with a packet at the end of its head. -/
def SubQ.joined (x : SubQ) (y : Pkt) : SubQ := { x with head := x.head ++ [y] }

/-- The refilled record's packet at the end of the head, once its cells `c` have been asked for. -/
def recordJoin (q m pool : Nat) (y : Pkt) (c : Option (List Nat) × Dev) : Dev :=
  c.1.elim c.2 fun cs =>
    let e := cellsCharged c.2 m pool (cellsOf y)
    recordDone (putSub e q m ((getSub e q m).joined { y with cells := cs, pool := pool, refKey := e.fab.refCtr })) q m

theorem refillRecord_eq {d : Dev} {q m start len pool : Nat} {p : Pkt} {fl : Bool} {rest : List (Pkt × Nat × Nat × Bool)}
    (hr : (getSub d q m).recs = (p, start, len, fl) :: rest)
    (hp : poolPick d m p.pool (cellsOf (recordPkt (getSub d q m) p start len)) = some pool) :
    refillRecord d q m = recordJoin q m pool (recordPkt (getSub d q m) p start len)
      (cellsTake d m (cellsOf (recordPkt (getSub d q m) p start len))) := by
  unfold refillRecord
  dsimp only
  split
  · rename_i h
    rw [hr] at h
    cases h
  · rename_i h
    rw [hr] at h
    cases h
    split
    · rename_i h
      cases hp.symm.trans h
    · rename_i h
      cases hp.symm.trans h
      split
      · rename_i h
        exact (congrArg (recordJoin q m pool (recordPkt (getSub d q m) p start len)) h).symm
      · rename_i h
        exact (congrArg (recordJoin q m pool (recordPkt (getSub d q m) p start len)) h).symm

/-- The first record joins the head with the cells that a pool of its chain holds. -/
theorem refillRecord_joins {d : Dev} {q m start len pool : Nat} {p y : Pkt} {fl : Bool} {rest : List (Pkt × Nat × Nat × Bool)} {cs : List Nat}
    (hr : (getSub d q m).recs = (p, start, len, fl) :: rest) (hy : recordPkt (getSub d q m) p start len = y)
    (hp : poolPick d m p.pool (cellsOf y) = some pool) (hc : (cellsTake d m (cellsOf y)).1 = some cs) :
    ∃ key e, getSub e q m = (getSub d q m).joined { y with cells := cs, pool := pool, refKey := key } ∧
      refillRecord d q m = recordDone e q m := by
  subst hy
  have heq := refillRecord_eq hr hp
  generalize recordPkt (getSub d q m) p start len = y at *
  have hcharged : getSub (cellsCharged (cellsTake d m (cellsOf y)).2 m pool (cellsOf y)) q m = getSub d q m :=
    getSub_congr (congrArg QueueSt.subs ((cellsCharged_que ..).trans (cellsTake_que ..))) q m
  rw [recordJoin, hc] at heq
  exact ⟨_, _, (getSub_putSub_same ..).trans (by rw [hcharged]), heq⟩

end Sys2Proof.Machine
end

section
/-!
PROOF. The write of a page (R253, R255): the lengths of its bytes and of their cipher text, and a write of whole bursts.
-/
namespace Sys2Proof.Machine

/-! Lengths. -/

theorem length_leBytes (n x : Nat) : (leBytes n x).length = n := by
  induction n generalizing x with
  | zero => rfl
  | succ n ih => rw [leBytes, List.length_cons, ih]

theorem length_xorL (a b : List Nat) : (xorL a b).length = min a.length b.length := List.length_zipWith

theorem length_toNats (l : List Byte) : (toNats l).length = l.length := List.length_map ..

theorem length_toBytes (l : List Nat) : (toBytes l).length = l.length := List.length_map ..

/-- The words of the key schedule have four bytes each. -/
theorem aesExpand_words (n : Nat) : ∀ (i rc : Nat) (w : List (List Nat)), 8 ≤ w.length → (∀ x ∈ w, x.length = 4) →
    (aesExpand n i rc w).length = n + w.length ∧ ∀ x ∈ aesExpand n i rc w, x.length = 4 := by
  induction n with
  | zero => exact fun i rc w _ h4 => ⟨(Nat.zero_add _).symm, h4⟩
  | succ n ih =>
    intro i rc w h8 h4
    have hget (k : Nat) (hk : k < 8) : (w.getD k []).length = 4 := by
      rw [List.getD_eq_getElem _ _ (lt_of_lt_of_le hk h8)]
      exact h4 _ (List.getElem_mem _)
    have hword (t' : List Nat) (ht : t'.length = 4) : ∀ x ∈ xorL (w.getD 7 []) t' :: w, x.length = 4 := by
      intro x hx
      obtain rfl | hx := List.mem_cons.mp hx
      · rw [length_xorL, hget 7 (by decide), ht]
        rfl
      · exact h4 x hx
    obtain ⟨t', rc', heq, ht⟩ : ∃ t' rc', aesExpand (n + 1) i rc w = aesExpand n (i + 1) rc' (xorL (w.getD 7 []) t' :: w) ∧
        t'.length = 4 := by
      refine ⟨_, _, rfl, ?_⟩
      split
      · rfl
      · split
        · exact (List.length_map ..).trans (hget 0 (by decide))
        · exact hget 0 (by decide)
    obtain ⟨hlen, hall⟩ := ih (i + 1) rc' _ (by rw [List.length_cons]; omega) (hword t' ht)
    rw [heq]
    exact ⟨by rw [hlen, List.length_cons]; omega, hall⟩

theorem length_flatten_words (l : List (List Nat)) (h : ∀ x ∈ l, x.length = 4) : l.flatten.length = 4 * l.length := by
  induction l with
  | nil => rfl
  | cons x t ih =>
    rw [List.flatten_cons, List.length_append, h x List.mem_cons_self, ih fun y hy => h y (List.mem_cons_of_mem _ hy), List.length_cons]
    omega

/-- A round key has sixteen bytes. -/
theorem length_keysOf (key : Nat) {r : Nat} (hr : r < 15) : ((keysOf key).getD r []).length = 16 := by
  rw [keysOf, aesKeys]
  have hbytes : (toNats (beBytes 32 key)).length = 32 := by rw [length_toNats, beBytes, List.length_reverse, length_leBytes]
  generalize toNats (beBytes 32 key) = k at hbytes
  have hw0 : ∀ x ∈ ((List.range 8).map fun i => (k.drop (4 * i)).take 4).reverse, x.length = 4 := by
    intro x hx
    obtain ⟨i, hi, rfl⟩ := List.mem_map.mp (List.mem_reverse.mp hx)
    have := List.mem_range.mp hi
    rw [List.length_take, List.length_drop, hbytes]
    omega
  obtain ⟨hlen, hall⟩ := aesExpand_words 52 8 1 _ (by rw [List.length_reverse, List.length_map, List.length_range]) hw0
  rw [List.length_reverse, List.length_map, List.length_range] at hlen
  generalize aesExpand 52 8 1 _ = w at hlen hall
  rw [List.getD_eq_getElem _ _ (by rwa [List.length_map, List.length_range]), List.getElem_map, List.getElem_range, length_flatten_words]
  · rw [List.length_take, List.length_drop, List.length_reverse, hlen]
    omega
  · exact fun x hx => hall x (List.mem_reverse.mp (List.mem_of_mem_drop (List.mem_of_mem_take hx)))

theorem length_aesEnc (key : Nat) (blk : List Nat) : (aesEnc (keysOf key) blk).length = 16 := by
  rw [aesEnc, length_xorL, length_keysOf key (by decide), shiftRows, permute, List.length_map, List.length_range, Nat.min_self]

theorem length_xtsBlocks {f : List Nat → List Nat} (hf : ∀ b, (f b).length = 16) (n : Nat) : ∀ (t : Nat) (m : List Byte),
    (xtsBlocks f n t m).length = 16 * n := by
  induction n with
  | zero => exact fun _ _ => rfl
  | succ n ih =>
    intro t m
    rw [xtsBlocks, List.length_append, ih, length_toBytes, length_xorL, hf, length_toNats, length_leBytes, Nat.min_self]
    omega

/-- XTS keeps the length of whole blocks. -/
theorem length_xtsEnc (k1 k2 unit : Nat) (m : List Byte) : (xtsEnc k1 k2 unit m).length = 16 * (m.length / 16) :=
  length_xtsBlocks (length_aesEnc k1) ..

theorem length_pageBytes {pg : Page} (h : pg.stream.length = 4064) (q m bad : Nat) : (pageBytes q m pg bad).length = 4096 := by
  rw [pageBytes]
  simp only [List.length_append, List.length_replicate, length_leBytes, h]

/-! Whole bursts. -/

theorem burstsOf_whole (a n : Nat) : burstsOf (32 * a) (32 * n) = (List.range n).map fun i => (32 * (a + i), 32 * i, 32) := by
  cases n with
  | zero => rfl
  | succ n =>
    have hcount : (32 * a + 32 * (n + 1) - 1) / 32 - 32 * a / 32 + 1 = n + 1 := by omega
    rw [burstsOf, if_neg (by omega), hcount]
    refine List.map_congr_left fun i hi => ?_
    have hi := List.mem_range.mp hi
    have hlo : max (32 * a) ((32 * a / 32 + i) * 32) = 32 * (a + i) := by omega
    have hhi : min (32 * a + 32 * (n + 1)) ((32 * a / 32 + i + 1) * 32) = 32 * (a + i) + 32 := by omega
    dsimp only
    rw [hlo, hhi]
    refine congrArg₂ Prod.mk (by omega) (congrArg₂ Prod.mk (by omega) (by omega))

theorem deepStore_subs (d : Dev) (a : Nat) (bs : List Byte) : (deepStore d a bs).que.subs = d.que.subs := by
  have hput (d : Dev) (a : Nat) (b : Byte) : (deepPut d a b).que.subs = d.que.subs := by
    rw [deepPut]
    split
    · rfl
    · split
      · split <;> rfl
      · rfl
  rw [deepStore]
  split
  · exact foldl_subs (fun d i => hput d _ _) _ d
  · rfl

/-- One burst of a write: the data is stored when the burst is. -/
def storeBurst (addr : Nat) (bs : List Byte) (master access : Nat) (d : Dev) (b : Nat × Nat × Nat) : Dev :=
  if (burstWrite d b.1 (b.2.2 == 32) master access).1 then
    deepStore (burstWrite d b.1 (b.2.2 == 32) master access).2 (addr + b.2.1) ((bs.drop b.2.1).take b.2.2)
  else (burstWrite d b.1 (b.2.2 == 32) master access).2

theorem writeBursts_eq (addr : Nat) (bs : List Byte) (master access : Nat) (d : Dev) :
    writeBursts addr bs master access d = (burstsOf addr bs.length).foldl (storeBurst addr bs master access) d := rfl

/-- The device after n of the bursts of a write at 32 a. -/
structure BurstsStored (mem : Mem) (d : Dev) (a n : Nat) (bs : List Byte) (e : Dev) : Prop where
  serving : Serving e
  subs : e.que.subs = d.que.subs
  bytes : ∀ x, deepNow mem e x = if 32 * a ≤ x ∧ x < 32 * a + 32 * n then bs.getD (x - 32 * a) 0 else deepNow mem d x

/-- A write of whole bursts to a store that serves changes its bytes and no other. -/
theorem writeBursts_whole (mem : Mem) {d : Dev} (h : Serving d) (a n : Nat) {bs : List Byte} (hl : bs.length = 32 * n) (master access : Nat) :
    BurstsStored mem d a n bs (writeBursts (32 * a) bs master access d) := by
  rw [writeBursts_eq, hl, burstsOf_whole]
  have hle : ∀ k, k ≤ n → BurstsStored mem d a k bs
      (((List.range k).map fun i => (32 * (a + i), 32 * i, 32)).foldl (storeBurst (32 * a) bs master access) d) := by
    intro k
    induction k with
    | zero => exact fun _ => ⟨h, rfl, fun x => (if_neg (by omega)).symm⟩
    | succ k ih =>
      intro hk
      obtain ⟨hserv, hsubs, hbytes⟩ := ih (by omega)
      rw [List.range_succ, List.map_append, List.foldl_append, List.map_cons, List.map_nil, List.foldl_cons, List.foldl_nil]
      generalize ((List.range k).map _).foldl _ d = e at hserv hsubs hbytes
      obtain ⟨f, hw, hs⟩ := burstWrite_stored hserv (32 * (a + k)) (32 == 32) master access
      rw [storeBurst, hw]
      dsimp only
      rw [if_pos rfl]
      refine ⟨(hs.serving hserv).deepStore _ _, by rw [deepStore_subs, hs.que, hsubs], fun x => ?_⟩
      have hlen : ((bs.drop (32 * k)).take 32).length = 32 := by
        rw [List.length_take, List.length_drop, hl]
        omega
      rw [deepNow_deepStore, hlen, hs.deepNow, hbytes]
      by_cases hx : 32 * a + 32 * k ≤ x ∧ x < 32 * a + 32 * k + 32
      · rw [if_pos hx, if_pos (by omega), List.getD_eq_getElem?_getD, List.getD_eq_getElem?_getD, List.getElem?_take_of_lt (by omega),
          List.getElem?_drop, show 32 * k + (x - (32 * a + 32 * k)) = x - 32 * a by omega]
      · rw [if_neg hx]
        exact if_congr (by omega) rfl rfl
  exact hle n le_rfl

/-! The page. -/

section
variable {d : Dev} {e : Nat}

theorem rd_engCount_other (n : Nat) {o : Nat} (h0 : o ≠ Reg.ENG_CNT e 0) (h1 : o ≠ Reg.ENG_CNT e 1) : rd (engCount d e n) o = rd d o :=
  (rd_bumpN_other _ _ h1).trans (rd_bump_other _ h0)

theorem Serving.engCount (h : Serving d) (he : e < 64) (n : Nat) : Serving (engCount d e n) where
  idle := (flagF_congr (rd_engCount_other n (by simp only [Reg.ENG_CNT, Reg.FAULT_INJECT]; omega)
    (by simp only [Reg.ENG_CNT, Reg.FAULT_INJECT]; omega)) _).trans h.idle
  ranks k c x hk hc hx := by
    rw [rankState, rdF_congr (rd_engCount_other n (by simp only [Reg.RANK_STATE, Reg.ENG_CNT]; omega)
      (by simp only [Reg.RANK_STATE, Reg.ENG_CNT]; omega))]
    exact h.ranks k c x hk hc hx

end

/-- A page that is written while its key is valid: its cipher text goes to its place in the store, and the page is marked. -/
theorem pageWrite_eq {d : Dev} {q m i : Nat} {pg : Page} (mem : Mem) (hk : keyLoad d q = d)
    (hv : eVld (rindEnt d 3 (queueHolding d q)) = true) (hi : ((getSub d q m).pages.findIdx? fun g => !g.written) = some i)
    (hpg : (getSub d q m).pages[i]? = some pg) (hinj : flagF d Reg.FAULT_INJECT Reg.FAULT_INJECT_PENDING = false) :
    pageWrite q m false mem d = spillJoin (putSub (bump (deepWrite mem (engCount d (12 + rindX d pg.ptr) 4096) 1 (4096 * pg.ptr)
      (xtsEnc (deepKeys d (queueHolding d q)).1 (deepKeys d (queueHolding d q)).2 pg.ptr (pageBytes q m pg 0)) 11 2).2 (Reg.QUEUE_CNT 5)) q m
      { getSub d q m with pages := (getSub d q m).pages.set i { pg with written := true, stream := [] } }) q m := by
  rw [eVld] at hv
  rw [pageWrite, hk]
  dsimp only
  rw [if_neg (not_not_intro hv), hi]
  dsimp only
  rw [hpg]
  dsimp only
  rw [injectAt_idle hinj]
  rfl

theorem deepNow_bump (mem : Mem) (d : Dev) {o : Nat} (ho : o ≠ Reg.SPILL_REGION) (x : Nat) : deepNow mem (bump d o) x = deepNow mem d x :=
  deepNow_congr (ringNow_congr (rd_bump_other d ho.symm) (bump_que ..)) (by rw [bump_deep]) (bump_writes ..) x

theorem deepNow_engCount (mem : Mem) (d : Dev) {e : Nat} (he : e < 64) (n x : Nat) : deepNow mem (engCount d e n) x = deepNow mem d x :=
  deepNow_congr (ringNow_congr (rd_engCount_other n (by simp only [Reg.ENG_CNT, Reg.SPILL_REGION]; omega)
    (by simp only [Reg.ENG_CNT, Reg.SPILL_REGION]; omega)) (by rw [engCount, bumpN_que, bump_que])) (by rw [engCount, bumpN_deep, bump_deep])
    (by rw [engCount, bumpN_writes, bump_writes]) x

theorem deepNow_putSub (mem : Mem) (d : Dev) (q m : Nat) (y : SubQ) (x : Nat) : deepNow mem (putSub d q m y) x = deepNow mem d x :=
  deepNow_congr rfl rfl rfl x

/-- A write of a page's bytes to a store that serves. -/
theorem deepWrite_page {mem : Mem} {d : Dev} {a : Nat} {bs : List Byte} (h : Serving d) (hr : deepReady d = true) (hl : bs.length = 4096)
    (hs : 4096 * a + 4096 ≤ deepSize d) (hp : ∀ r ∈ d.deep.reqs, r.port ≠ 1) (master access : Nat) :
    ∃ e, (deepWrite mem d 1 (4096 * a) bs master access).2 = bump e (Reg.DEEP_CNT 1) ∧ BurstsStored mem d (128 * a) 128 bs e := by
  rw [deepWrite, deepPost_good hr (by rwa [hl]) hp, show 4096 * a = 32 * (128 * a) by omega]
  exact ⟨_, rfl, writeBursts_whole mem h (128 * a) 128 hl master access⟩

/-- What the write of a page leaves: the page marked, its cipher text in its place, and every other byte. -/
theorem pageWrite_stored {mem : Mem} {d : Dev} {q m i : Nat} {pg : Page} (hk : keyLoad d q = d)
    (hv : eVld (rindEnt d 3 (queueHolding d q)) = true) (hi : ((getSub d q m).pages.findIdx? fun g => !g.written) = some i)
    (hpg : (getSub d q m).pages[i]? = some pg) (hl : pg.stream.length = 4064) (hserv : Serving d) (hr : deepReady d = true)
    (hs : 4096 * pg.ptr + 4096 ≤ deepSize d) (hp : ∀ r ∈ d.deep.reqs, r.port ≠ 1) :
    (getSub (pageWrite q m false mem d) q m).pages = (getSub d q m).pages.set i { pg with written := true, stream := [] } ∧
      ∀ x, deepNow mem (pageWrite q m false mem d) x = if 4096 * pg.ptr ≤ x ∧ x < 4096 * pg.ptr + 4096 then
        (xtsEnc (deepKeys d (queueHolding d q)).1 (deepKeys d (queueHolding d q)).2 pg.ptr (pageBytes q m pg 0)).getD (x - 4096 * pg.ptr) 0
        else deepNow mem d x := by
  have he : 12 + rindX d pg.ptr < 64 := by
    have := deepLoc_k_lt d (4096 * pg.ptr)
    rw [rindX]
    omega
  have hlen : (xtsEnc (deepKeys d (queueHolding d q)).1 (deepKeys d (queueHolding d q)).2 pg.ptr (pageBytes q m pg 0)).length = 4096 := by
    rw [length_xtsEnc, length_pageBytes hl]
  rw [pageWrite_eq mem hk hv hi hpg hserv.idle]
  generalize xtsEnc _ _ _ _ = bs at hlen
  obtain ⟨f, hf, -, -, hbytes⟩ := deepWrite_page (mem := mem) (d := engCount d (12 + rindX d pg.ptr) 4096) (a := pg.ptr) (hserv.engCount he 4096)
    ((deepReady_congr (rd_engCount_other _ (by simp only [Reg.ENG_CNT, Reg.DEEP_STATUS]; omega)
      (by simp only [Reg.ENG_CNT, Reg.DEEP_STATUS]; omega))).trans hr) hlen
    (by rwa [deepSize_congr (rd_engCount_other _ (by simp only [Reg.ENG_CNT, Reg.DEEP_SPARE_CFG]; omega)
      (by simp only [Reg.ENG_CNT, Reg.DEEP_SPARE_CFG]; omega)) (by rw [engCount, bumpN_fuses, bump_fuses])])
    (by rwa [engCount, bumpN_deep, bump_deep]) 11 2
  have hne : (getSub d q m).pages.set i { pg with written := true, stream := [] } ≠ [] := by
    intro h
    rw [List.set_eq_nil_iff] at h
    rw [h] at hpg
    cases hpg
  rw [hf, spillJoin_waits (.inr (by rw [getSub_putSub_same]; exact hne)), getSub_putSub_same]
  refine ⟨rfl, fun x => ?_⟩
  rw [deepNow_putSub, deepNow_bump _ _ (by decide), deepNow_bump _ _ (by decide), hbytes, deepNow_engCount _ _ he,
    show 32 * (128 * pg.ptr) = 4096 * pg.ptr by omega]

end Sys2Proof.Machine
end

section
/-!
PROOF. SPILL_REGION (R260): the ring of the spill pages is rebuilt, or the write is rejected. With the moves, the pages and the refill
the obligation on spills is settled.
-/
namespace Sys2Proof.Machine

/-! The register. -/

theorem isOwnReg_SPILL_REGION : isOwnReg Reg.SPILL_REGION Reg.SPILL_REGION 0 0 = true := by decide +kernel

theorem regEffect_queueBlock {c : RegW} {m : Mem} {d : Dev} (h : c.off / 0x100000 = 24) : regEffect c m d = effQueue c d := by
  rw [regEffect, h]
  rfl

theorem regEffect_SPILL_REGION (agent i j : Nat) (v x : W64) (m : Mem) (d : Dev) :
    regEffect ⟨agent, Reg.SPILL_REGION, Reg.SPILL_REGION, i, j, v, x⟩ m d = orReject d (spillRegionWrite d v) := by
  rw [regEffect_queueBlock (by dsimp only; decide), effQueue, if_neg (by dsimp only; decide), if_neg (by dsimp only; decide),
    if_neg (by dsimp only; decide), if_pos rfl]

theorem hostReject_que (d : Dev) (agent off : Nat) (isl : List Nat) : (hostReject d agent off isl).que = d.que := by
  obtain e | e := hostReject_cases d agent off isl
  · rw [e, bumpSat_que]
  · rw [e, wrFs_que, bumpSat_que]

/-! The region that a write sets up. -/

/-- The device with a new spill region, whose ring is not yet rebuilt. -/
def regionSet (d : Dev) (n b : Nat) : Dev :=
  wr (ringRetire d) Reg.SPILL_REGION (mkWord [(Reg.SPILL_REGION_PAGES, n), (Reg.SPILL_REGION_BASE, b)])

/-- The device with the ring of its spill region full and no page taken. -/
def ringFresh (d : Dev) : Dev := { d with que := { d.que with ring := [], ringHead := 0, ringCount := ringLen d, cache := [], alloc := [] } }

/-- The device with the ring and the bitmap of its spill region rebuilt. -/
def regionRebuilt (d : Dev) : Dev :=
  wrFs (ringGood (ringFresh d)) Reg.SPILL_STATUS [(Reg.SPILL_STATUS_FREE, ringLen (ringFresh d)), (Reg.SPILL_STATUS_PAGES_LEAKED, 0)]

section
variable {d : Dev} {v : W64}

theorem spillRegionWrite_ok (hs : (d.que.subs.any fun e => e.2.spilled) = false) (hn : getF v Reg.SPILL_REGION_PAGES ≤ 8388608)
    (hfit : 4096 * (getF v Reg.SPILL_REGION_BASE + getF v Reg.SPILL_REGION_PAGES) ≤ deepSize d) :
    spillRegionWrite d v = some (regionRebuilt (regionSet d (getF v Reg.SPILL_REGION_PAGES) (getF v Reg.SPILL_REGION_BASE))) := by
  rw [spillRegionWrite, if_neg]
  · rfl
  · rw [hs]
    rintro (h | h | h)
    · cases h
    · omega
    · omega

theorem spillRegionWrite_spilled (hs : (d.que.subs.any fun e => e.2.spilled) = true) : spillRegionWrite d v = none := if_pos (.inl hs)

end

theorem spillPages_regionSet (d : Dev) {n : Nat} (h : n < 2 ^ 25) (b : Nat) : spillPages (regionSet d n b) = n := by
  rw [spillPages, regionSet, rdF, rd_wr_same]
  exact (getF_mkWord_last (l := []) (r := [_]) rfl (by decide) (by simp [Reg.SPILL_REGION_PAGES, Reg.SPILL_REGION_BASE])).trans
    (Nat.mod_eq_of_lt h)

theorem spillBase_regionSet (d : Dev) (n : Nat) {b : Nat} (h : b < 2 ^ 25) : spillBase (regionSet d n b) = b := by
  rw [spillBase, regionSet, rdF, rd_wr_same]
  exact (getF_mkWord_last (l := [_]) (r := []) rfl (by decide) (by simp)).trans (Nat.mod_eq_of_lt h)

theorem ringLen_eq (d : Dev) : ringLen d = spillPages d - ceilDiv (spillPages d) 1024 := rfl

theorem areas_regionSet (d : Dev) (n b : Nat) :
    (regionSet d n b).deep.areas = if ringLen d = 0 then d.deep.areas else ringNow d :: d.deep.areas := by
  rw [regionSet, wr_deep, ringRetire, ← ringLen]
  split <;> rfl

theorem rd_regionRebuilt_REGION (d : Dev) : rd (regionRebuilt d) Reg.SPILL_REGION = rd d Reg.SPILL_REGION :=
  (rd_wrFs_other _ _ (by decide)).trans (rd_congr rfl rfl _)

theorem regionRebuilt_que (d : Dev) : (regionRebuilt d).que =
    { d.que with ring := [], ringHead := 0, ringCount := ringLen d, cache := [], alloc := [] } := by rw [regionRebuilt, wrFs_que]; rfl

theorem regionRebuilt_deep (d : Dev) : (regionRebuilt d).deep = d.deep := by rw [regionRebuilt, wrFs_deep]; rfl

theorem rdF_regionRebuilt_FREE {d : Dev} (h : ringLen d < 2 ^ 25) : rdF (regionRebuilt d) Reg.SPILL_STATUS Reg.SPILL_STATUS_FREE = ringLen d :=
  (rdF_wrFs_last _ _ [] [_] (by decide) (by simp [Reg.SPILL_STATUS_FREE, Reg.SPILL_STATUS_PAGES_LEAKED])).trans (Nat.mod_eq_of_lt h)

/-! The write. -/

theorem exec_spillRegionWrite (s : State) (agent : Nat) (v : W64) :
    exec (.spillRegionWrite agent v) s = .next (commit s (regWrite agent Reg.SPILL_REGION v s.mem s.dev)) := rfl

section
variable {m : Mem} {d d' : Dev} {agent : Nat} {v : W64} (h : WriteReaches d agent Reg.SPILL_REGION v) (hf : FieldsInRange Reg.SPILL_REGION v)
include h hf

theorem regWrite_SPILL_REGION (hw : spillRegionWrite d v = some d') : regWrite agent Reg.SPILL_REGION v m d = d' :=
  regWrite_accepted isOwnReg_SPILL_REGION (by decide) h hf (by rw [regEffect_SPILL_REGION, hw]; rfl)

theorem regWrite_SPILL_REGION_refused (hw : spillRegionWrite d v = none) :
    regWrite agent Reg.SPILL_REGION v m d = hostReject d agent Reg.SPILL_REGION (islandsOf d Reg.SPILL_REGION v) :=
  regWrite_refused isOwnReg_SPILL_REGION h hf (by rw [regEffect_SPILL_REGION, hw]; rfl)

end

/-! The commands of the spill engine. -/

section
variable (s : State) (q m : Nat)

theorem spillBase_commit (d : Dev) : spillBase (commit s d).dev = spillBase d := rdF_commit ..
theorem spillPages_commit (d : Dev) : spillPages (commit s d).dev = spillPages d := rdF_commit ..

theorem exec_spillMove : exec (.spillMove q m) s = .next (commit s (spillMove q m s.dev)) := rfl
theorem exec_pageWrite (w : Bool) : exec (.pageWrite q m w) s = .next (commit s (pageWrite q m w s.mem s.dev)) := rfl
theorem exec_refill : exec (.refill q m) s = .next (commit s (refill q m s.mem s.dev)) := rfl
theorem exec_refillNoCells : exec (.refillNoCells q m) s = .next (commit s (refillNoCells q m s.dev)) := rfl
theorem exec_pageCacheRefill : exec (.pageCacheRefill m) s = .next (commit s (pageCacheRefill m s.dev)) := rfl
theorem exec_pageCacheWriteback : exec (.pageCacheWriteback m) s = .next (commit s (pageCacheWriteback m s.dev)) := rfl

end

/-- A first record at hand that no pool of its chain has cells for is dropped under code 3. -/
theorem refillNoCells_drops {d : Dev} {q m : Nat} {r : Pkt × Nat × Nat × Bool} {rest : List (Pkt × Nat × Nat × Bool)}
    (hr : (getSub d q m).recs = r :: rest) (hready : refillReady (getSub d q m) = true) (hp : poolPick d m r.1.pool (cellsOf r.1) = none) :
    refillNoCells q m d = queueDrop (recordDone d q m) q m r.1 3 false := by
  rw [refillNoCells, hr]
  exact if_pos ⟨hready, by rw [hp]; rfl⟩

theorem spillWants_spilled {d : Dev} {q : Nat} {x : SubQ} (hs : x.spilled = true) (h : profF d q 0 Reg.QPROF_TAIL_CELLS < cellsIn x.tail) :
    spillWants d q x = true := by
  rw [spillWants, if_pos hs]
  exact decide_eq_true h

/-! What each command leaves. -/

theorem recordMoved_fields {x y : SubQ} (h : x.unmarked = { y.unmarked with openPage := x.openPage }) (p : Pkt) (t : List Pkt) :
    (recordMoved x p t).tail = t ∧ (recordMoved x p t).head = y.head ∧ (recordMoved x p t).openBuf = y.openBuf ++ recordBytes p ∧
      (recordMoved x p t).fill = y.fill + (recordBytes p).length ∧
      (recordMoved x p t).recs = y.recs ++ [({ p with cells := [] }, y.fill, (recordBytes p).length, false)] := by
  obtain ⟨_, _, _, _, _, _, _, _, _, _, _, _, _, _⟩ := x
  obtain ⟨_, _, _, _, _, _, _, _, _, _, _, _, _, _⟩ := y
  simp only [SubQ.unmarked, SubQ.mk.injEq] at h
  obtain ⟨-, rfl, -, -, -, rfl, -, -, rfl, rfl, -⟩ := h
  exact ⟨rfl, rfl, rfl, rfl, rfl⟩

theorem deepBytes_of_getD {mem : Mem} {d : Dev} {a n : Nat} {bs : List Byte} (hl : bs.length = n)
    (h : ∀ x, a ≤ x ∧ x < a + n → deepByte mem d x = bs.getD (x - a) 0) : deepBytes mem d a n = bs := by
  refine List.ext_getElem ((deepBytes_length ..).trans hl.symm) fun j h1 h2 => ?_
  rw [deepBytes_length] at h1
  simp only [deepBytes, List.getElem_map, List.getElem_range]
  rw [h _ ⟨by omega, by omega⟩, Nat.add_sub_cancel_left, List.getD_eq_getElem _ _ h2]

theorem refill_joins {d : Dev} {mem : Mem} {q m start len pool : Nat} {p y : Pkt} {fl : Bool}
    {rest : List (Pkt × Nat × Nat × Bool)} {cs : List Nat}
    (hs : (getSub d q m).spilled = true) (hr : (getSub d q m).recs = (p, start, len, fl) :: rest) (hready : refillReady (getSub d q m) = true)
    (hlt : cellsIn (getSub d q m).head < profF d q 1 Reg.QPROF_REFILL_CELLS) (hy : recordPkt (getSub d q m) p start len = y)
    (hp : poolPick d m p.pool (cellsOf y) = some pool) (hc : (cellsTake d m (cellsOf y)).1 = some cs) :
    ∃ key, (getSub (refill q m mem d) q m).head ++ (getSub (refill q m mem d) q m).tail =
        (getSub d q m).head ++ [{ y with cells := cs, pool := pool, refKey := key }] ++ (getSub d q m).tail ∧
      (rest ≠ [] → (getSub (refill q m mem d) q m).head = (getSub d q m).head ++ [{ y with cells := cs, pool := pool, refKey := key }]) := by
  obtain ⟨key, e, hsub, hrec⟩ := refillRecord_joins hr hy hp hc
  obtain ⟨happ, hhead⟩ := recordDone_packets e q m
  rw [refill_ready hs (by rw [hr]; exact List.cons_ne_nil _ _) hready hlt, hrec]
  refine ⟨key, happ.trans (by rw [hsub]; rfl), fun hne => (hhead ?_).trans (by rw [hsub]; rfl)⟩
  rw [hsub, SubQ.joined, hr]
  exact hne

/-- A cache below 32 takes 32 good pointers. -/
theorem pageCacheRefill_taken {d : Dev} {m : Nat} (hlt : (pageCache d m).length < 32) (g : Serving d) (hgood : AllGood d)
    (hready : deepReady d = true) (hfit : 4096 * spillBase d + 4 * ringLen d ≤ deepSize d) (hhead : d.que.ringHead < ringLen d)
    (he : ∀ y, ecc d .pageRing y = 0) (hc : 32 ≤ d.que.ringCount) (hp : ∀ j, j < 32 → pageOutside d (pagePtr d j) = false) :
    PagesTaken d m 32 (pageCacheRefill m d) := by
  rw [pageCacheRefill_below hlt]
  exact foldl_takeOne g hgood hready hfit hhead he hc hp

/-- A cache above 96 gives 32 pointers back. -/
theorem pageCacheWriteback_gives {d : Dev} {m : Nat} (h : 96 < (pageCache d m).length) :
    pageCache (pageCacheWriteback m d) m = (pageCache d m).take ((pageCache d m).length - 32) ∧
      (pageCacheWriteback m d).que.ringCount = d.que.ringCount + 32 := by
  obtain ⟨ring, hq⟩ := pageCacheWriteback_que h
  refine ⟨?_, by rw [hq]⟩
  rw [pageCache, hq]
  exact pageCache_setPageCache_same ..

theorem regionRebuilt_spec {d : Dev} {n b : Nat} (hn : n < 2 ^ 25) (hb : b < 2 ^ 25) :
    spillBase (regionRebuilt (regionSet d n b)) = b ∧ spillPages (regionRebuilt (regionSet d n b)) = n ∧
      (regionRebuilt (regionSet d n b)).deep.areas = (if ringLen d = 0 then d.deep.areas else ringNow d :: d.deep.areas) ∧
      (regionRebuilt (regionSet d n b)).que.ringCount = n - ceilDiv n 1024 ∧
      rdF (regionRebuilt (regionSet d n b)) Reg.SPILL_STATUS Reg.SPILL_STATUS_FREE = n - ceilDiv n 1024 := by
  have hlen : ringLen (regionSet d n b) = n - ceilDiv n 1024 := by rw [ringLen_eq, spillPages_regionSet d hn]
  have hreg := rd_regionRebuilt_REGION (regionSet d n b)
  refine ⟨?_, ?_, ?_, ?_, ?_⟩
  · rw [spillBase, rdF_congr hreg, ← spillBase, spillBase_regionSet d n hb]
  · rw [spillPages, rdF_congr hreg, ← spillPages, spillPages_regionSet d hn]
  · rw [regionRebuilt_deep, areas_regionSet]
  · rw [regionRebuilt_que, hlen]
  · rw [rdF_regionRebuilt_FREE (by omega), hlen]

/-- Settles O44: a record is moved or the block marked, a page is stored under its key, the first record of the middle joins the head or is
dropped, the page caches trade batches with the ring, and SPILL_REGION rebuilds the ring while nothing is spilled. -/
theorem spillAndRefill : Obligations.SpillAndRefill := by
  unfold Obligations.SpillAndRefill
  refine ⟨?move, ?page, ?join, ?noCells, ?take, ?give, ?region⟩
  case move =>
    rintro s q m p rest _ rfl hs ht hlt hecc
    have hk := keyLoad_good hecc
    have hw := spillWants_spilled hs hlt
    refine ⟨fun hroom hb => ?_, fun hb => ?_⟩
    · obtain ⟨x, hx, hsub⟩ := getSub_spillMove hk hs ht hw hb hroom
      refine ⟨_, exec_spillMove s q m, ?_⟩
      rw [getSub_commit, hsub]
      exact recordMoved_fields hx p rest
    · refine ⟨_, exec_spillMove s q m, ?_⟩
      rw [getSub_commit, rd_commit, spillMove_blocked hk hs ht hw hb]
      exact ⟨getSub_markBlocked_same .., rd_markBlocked ..⟩
  case page =>
    rintro s q m _ i pg _ rfl hi hpg hl rfl hw hr hs hidle hranks hecc hv hp
    obtain ⟨hpages, hbytes⟩ := pageWrite_stored (mem := s.mem) (keyLoad_good hecc) hv hi hpg hl ⟨hidle, hranks⟩ hr hs hp
    refine ⟨_, exec_pageWrite s q m false, ?_, deepBytes_of_getD ?_ fun x hx => ?_, fun b hb => ?_⟩
    · rw [getSub_commit, hpages]
    · rw [length_xtsEnc, length_pageBytes hl]
    · rw [deepByte_commit, hbytes, if_pos hx]
    · rw [deepByte_commit, hbytes, if_neg (by omega), deepNow_of_writes_nil _ hw]
  case join =>
    rintro s q m _ p start len fl rest _ pool cs rfl hs hr hready hlt rfl hp hc
    obtain ⟨key, hjoin, hhead⟩ := refill_joins (mem := s.mem) hs hr hready hlt rfl hp hc
    refine ⟨_, { recordPkt (getSub s.dev q m) p start len with cells := cs, pool := pool, refKey := key }, exec_refill s q m,
      rfl, rfl, rfl, rfl, ?_⟩
    rw [getSub_commit]
    exact ⟨hjoin, hhead⟩
  case noCells =>
    intro s q m r rest hr hready hp
    rw [exec_refillNoCells, refillNoCells_drops hr hready hp]
  case take =>
    intro s m hlt hcount _ hhead hready hfit hidle hranks hgood hring hout
    have h := pageCacheRefill_taken hlt ⟨hidle, hranks⟩ hgood hready hfit hhead hring hcount hout
    refine ⟨_, exec_pageCacheRefill s m, ?_⟩
    rw [rd_commit]
    exact ⟨h.count, h.served, h.cache⟩
  case give =>
    rintro s m _ rfl hlt
    exact ⟨_, exec_pageCacheWriteback s m, pageCacheWriteback_gives hlt⟩
  case region =>
    rintro s agent v _ hreach hrange rfl
    refine ⟨fun hs hn hfit => ?_, fun hs => ?_⟩
    · obtain ⟨hbase, hpages, hareas, hcount, hfree⟩ := regionRebuilt_spec (d := s.dev) (n := getF v Reg.SPILL_REGION_PAGES)
        (b := getF v Reg.SPILL_REGION_BASE) (by omega) (bits_lt _ _ 25)
      have hque := regionRebuilt_que (regionSet s.dev (getF v Reg.SPILL_REGION_PAGES) (getF v Reg.SPILL_REGION_BASE))
      refine ⟨_, exec_spillRegionWrite s agent v, ?_⟩
      rw [regWrite_SPILL_REGION hreach hrange (spillRegionWrite_ok hs hn hfit), spillBase_commit, spillPages_commit, rdF_commit,
        commit_que, commit_deep]
      generalize regionRebuilt _ = d at hbase hpages hareas hcount hfree hque
      exact ⟨hbase, hpages, congrArg QueueSt.ring hque, congrArg QueueSt.ringHead hque, hcount, congrArg QueueSt.cache hque,
        congrArg QueueSt.alloc hque, hareas, hfree⟩
    · refine ⟨_, exec_spillRegionWrite s agent v, ?_⟩
      rw [regWrite_SPILL_REGION_refused hreach hrange (spillRegionWrite_spilled hs), rd_commit, commit_que]
      exact ⟨rd_hostReject_other _ _ _ _ (by decide), hostReject_que ..⟩

end Sys2Proof.Machine
end

section
/-!
PROOF. The operations of QUEUE_CMD (R269), and the capture writer (R267).
-/
namespace Sys2Proof.Machine

/-! The command as its register holds it. -/

theorem isOwnReg_QUEUE_CMD : isOwnReg Reg.QUEUE_CMD Reg.QUEUE_CMD 0 0 = true := by decide +kernel

/-- Both fields of QUEUE_CMD are taken from the value written. -/
theorem stored_QUEUE_CMD (d : Dev) (v : W64) : stored d Reg.QUEUE_CMD v =
    setF (setF (rd d Reg.QUEUE_CMD) Reg.QUEUE_CMD_QUEUE (getF v Reg.QUEUE_CMD_QUEUE)) Reg.QUEUE_CMD_OP (getF v Reg.QUEUE_CMD_OP) := rfl

theorem regEffect_QUEUE_CMD (agent i j : Nat) (v x : W64) (m : Mem) (d : Dev) :
    regEffect ⟨agent, Reg.QUEUE_CMD, Reg.QUEUE_CMD, i, j, v, x⟩ m d = (true, queueCmd x (startedBy d 5 agent)) := by
  rw [regEffect_queueBlock (by dsimp only; decide), effQueue, if_pos rfl]

/-- The write of an operation performs it for the queue of its value. -/
theorem regWrite_QUEUE_CMD_op {s : State} {agent op : Nat} {v : W64} (hop : op ≤ 4)
    (h : WriteReaches s.dev agent Reg.QUEUE_CMD (setF v Reg.QUEUE_CMD_OP op) ∧ FieldsInRange Reg.QUEUE_CMD (setF v Reg.QUEUE_CMD_OP op)) :
    ∃ w, getF w Reg.QUEUE_CMD_QUEUE = getF v Reg.QUEUE_CMD_QUEUE ∧ getF w Reg.QUEUE_CMD_OP = op ∧
      regWrite agent Reg.QUEUE_CMD (setF v Reg.QUEUE_CMD_OP op) s.mem s.dev = queueCmd w (startedBy s.dev 5 agent) := by
  refine ⟨_, ?_, ?_, regWrite_accepted isOwnReg_QUEUE_CMD (by decide) h.1 h.2 (regEffect_QUEUE_CMD ..)⟩
  · rw [stored_QUEUE_CMD, getF_setF_other _ _ _ _ (by decide) (by decide), getF_setF _ _ _ (by decide),
      getF_setF_other _ _ _ _ (by decide) (by decide)]
    exact Nat.mod_eq_of_lt (bits_lt _ _ _)
  · rw [stored_QUEUE_CMD, getF_setF _ _ _ (by decide), getF_setF _ _ _ (by decide)]
    simp only [Reg.QUEUE_CMD_OP]
    omega

section
variable {v : W64} (d : Dev)

theorem queueCmd_read (h : getF v Reg.QUEUE_CMD_OP = 1) : queueCmd v d = queueRead v d := if_pos h
theorem queueCmd_write (h : getF v Reg.QUEUE_CMD_OP = 2) : queueCmd v d = queueWrite v d := by simp [queueCmd, h]
theorem queueCmd_state (h : getF v Reg.QUEUE_CMD_OP = 3) : queueCmd v d = queueState v d := by simp [queueCmd, h]
theorem queueCmd_flush (h : getF v Reg.QUEUE_CMD_OP = 4) : queueCmd v d = queueFlush v d := by simp [queueCmd, h]

end

/-! The begin of an operation. -/

section
variable (d : Dev) (v : W64) (op : Nat)

theorem queueBegin_que : (queueBegin d v op).que = d.que := (wrFs_que ..).trans (wr_que ..)

theorem queueBegin_rind : (queueBegin d v op).rind = d.rind := (wrFs_rind ..).trans (wr_rind ..)

theorem rd_queueBegin_other {o : Nat} (h1 : o ≠ Reg.QUEUE_CMD) (h2 : o ≠ Reg.QUEUE_STATUS) : rd (queueBegin d v op) o = rd d o :=
  (rd_wrFs_other _ _ h2).trans (rd_wr_other _ _ h1)

end

/-! READ_CFG and WRITE_CFG. -/

theorem queueRead_spec (v : W64) (d : Dev) :
    rd (queueRead v d) (Reg.QUEUE_DATA 0) = queueCfg d (getF v Reg.QUEUE_CMD_QUEUE) ∧ (queueRead v d).que = d.que :=
  ⟨rd_wr_same .., (wr_que ..).trans (queueBegin_que ..)⟩

theorem queueWord_eq (x : W64) : BitVec.ofNat 64 (x.toNat &&& 0x8FFF000000000000) = x &&& 0x8FFF000000000000 := by
  apply BitVec.eq_of_toNat_eq
  rw [BitVec.toNat_ofNat, BitVec.toNat_and, Nat.mod_eq_of_lt (Nat.and_lt_two_pow _ (by decide))]
  rfl

theorem queueCfg_queueWrite (v : W64) (d : Dev) (r : Nat) : queueCfg (queueWrite v d) r =
    if r = getF v Reg.QUEUE_CMD_QUEUE then rd d (Reg.QUEUE_DATA 0) &&& 0x8FFF000000000000 else queueCfg d r := by
  have hdata : rd (queueBegin d v 2) (Reg.QUEUE_DATA 0) = rd d (Reg.QUEUE_DATA 0) := rd_queueBegin_other d v 2 (by decide) (by decide)
  rw [queueCfg, queueWrite, hdata, queueWord_eq]
  exact (spGet_spPut ..).trans (by rw [queueBegin_que, queueCfg])

/-! READ_STATE. -/

/-- The entries of a sparse map that a predicate keeps, when it keeps none at a key: a write at the key leaves them. -/
theorem filter_spPut {α : Type} [DecidableEq α] (f : Nat → α) (m : Sp α) (a : Nat) (v : α) (p : Nat × α → Bool)
    (h : ∀ x, p (a, x) = false) :
    (spPut f m a v).filter p = m.filter p := by
  have herase (m : Sp α) : (spErase m a).filter p = m.filter p := by
    induction m with
    | nil => rfl
    | cons e t ih =>
      rw [spErase, List.filter_cons]
      split
      · rename_i hk
        rw [ih, show e = (a, e.2) from Prod.ext hk.symm rfl, h, if_neg (by decide)]
      · rw [List.filter_cons, ih]
  have hinsert (m : Sp α) : (spInsert m a v).filter p = m.filter p := by
    induction m with
    | nil => rw [spInsert, List.filter_cons, h, if_neg (by decide)]
    | cons e t ih =>
      rw [spInsert]
      split
      · rw [List.filter_cons, h, if_neg (by decide)]
      · split
        · rename_i hk
          rw [List.filter_cons, List.filter_cons, h, show e = (a, e.2) from Prod.ext hk.symm rfl, h, if_neg (by decide),
            if_neg (by decide)]
        · rw [List.filter_cons, ih, List.filter_cons]
  rw [spPut]
  split
  · exact herase m
  · exact hinsert m

theorem spillingIn_putSub (d : Dev) (q : Nat) {m k : Nat} (hm : m < 4) (hne : k ≠ m) (x : SubQ) :
    spillingIn (putSub d q m x) k = spillingIn d k := by
  rw [spillingIn, putSub]
  refine congrArg List.length (filter_spPut _ _ _ _ _ fun y => ?_)
  have hkey : (4 * q + m) % 4 = m := by omega
  simp only [hkey, Bool.and_eq_false_iff, beq_eq_false_iff_ne]
  exact .inl hne.symm

theorem spillingIn_blockEnd (d : Dev) (q : Nat) {m k : Nat} (hm : m < 4) (hne : k ≠ m) : spillingIn (blockEnd d q m) k = spillingIn d k := by
  rw [blockEnd_eq]
  split
  · exact spillingIn_putSub d q hm hne _
  · rfl

theorem blocked_blockEnd_other (d : Dev) (q : Nat) {m k : Nat} (hne : k ≠ m) :
    (getSub (blockEnd d q m) q k).blocked = (getSub d q k).blocked := by
  rw [blockEnd_eq]
  split
  · rw [getSub_putSub, if_neg (by omega)]
  · rfl

/-- The word of READ_STATE for a sub-queue whose BLOCKED is b. -/
def stateWord (x : SubQ) (b : Bool) : W64 :=
  BitVec.ofNat 64 (b2n x.spilled * 2 ^ 63 + b2n b * 2 ^ 62 + cellsIn x.head % 2 ^ 19 * 2 ^ 43 + cellsIn x.tail % 2 ^ 18 * 2 ^ 25 + x.held)

/-- The state of one sub-queue is answered, after the block of its spill has ended if it has. -/
def stateShown (q : Nat) (d : Dev) (m : Nat) : Dev :=
  wr (blockEnd d q m) (Reg.QUEUE_DATA m) (stateWord (getSub (blockEnd d q m) q m) (getSub (blockEnd d q m) q m).blocked)

theorem queueState_eq (v : W64) (d : Dev) : queueState v d =
    wrF ((List.range 4).foldl (stateShown (getF v Reg.QUEUE_CMD_QUEUE)) (queueBegin d v 3)) Reg.QUEUE_STATUS Reg.QUEUE_STATUS_DEPTH
      (depthOf ((List.range 4).foldl (stateShown (getF v Reg.QUEUE_CMD_QUEUE)) (queueBegin d v 3)) (getF v Reg.QUEUE_CMD_QUEUE)) := rfl

theorem marksDiffer_of_que {d e : Dev} (hq : e.que = d.que) (hr : e.rind = d.rind) (hp : ∀ k w, rd e (Reg.QPROF k w) = rd d (Reg.QPROF k w)) :
    MarksDiffer d e where
  subs r k := by rw [getSub_congr (congrArg QueueSt.subs hq)]
  cfg := by rw [hq]
  depth := by rw [hq]
  cache := by rw [hq]
  count := by rw [hq]
  rind := hr
  prof := hp

/-- The device after the states of the first n sub-queues have been answered. -/
structure StatesShown (d : Dev) (q n : Nat) (e : Dev) : Prop where
  marks : MarksDiffer d e
  later : ∀ m, n ≤ m → m < 4 → spillingIn e m = spillingIn d m ∧ (getSub e q m).blocked = (getSub d q m).blocked
  words : ∀ m, m < n → rd e (Reg.QUEUE_DATA m) = stateWord (getSub d q m) ((getSub d q m).blocked && blockedNow d q m)

theorem statesShown_queueBegin (d : Dev) (v : W64) (q : Nat) : StatesShown d q 0 (queueBegin d v 3) where
  marks := marksDiffer_of_que (queueBegin_que ..) (queueBegin_rind ..) fun k w => rd_queueBegin_other d v 3
    (by simp only [Reg.QPROF, Reg.QUEUE_CMD]; omega) (by simp only [Reg.QPROF, Reg.QUEUE_STATUS]; omega)
  later m _ _ := ⟨by rw [spillingIn, queueBegin_que, spillingIn], by rw [getSub_congr (congrArg QueueSt.subs (queueBegin_que ..))]⟩
  words m hm := absurd hm (Nat.not_lt_zero m)

theorem StatesShown.step {d e : Dev} {q n : Nat} (h : StatesShown d q n e) (hn : n < 4) : StatesShown d q (n + 1) (stateShown q e n) := by
  obtain ⟨hspilling, hblocked⟩ := h.later n le_rfl hn
  have hend := marksDiffer_blockEnd e q n
  have hque : (stateShown q e n).que = (blockEnd e q n).que := wr_que ..
  have hdata (m : Nat) (hm : m ≠ n) : Reg.QUEUE_DATA m ≠ Reg.QUEUE_DATA n := by
    simp only [Reg.QUEUE_DATA]
    omega
  have hnow : blockedNow e q n = blockedNow d q n := by
    rw [blockedNow, blockedNow, h.marks.spillWants, h.marks.spillBlocked (.inr hspilling)]
  have hword : stateWord (getSub (blockEnd e q n) q n) (getSub (blockEnd e q n) q n).blocked =
      stateWord (getSub d q n) ((getSub d q n).blocked && blockedNow d q n) := by
    have hb : (getSub (blockEnd e q n) q n).blocked = ((getSub d q n).blocked && blockedNow d q n) := by
      rw [getSub_blockEnd_same, hblocked, hnow]
    rw [hb]
    show stateWord (getSub (blockEnd e q n) q n).unmarked _ = stateWord (getSub d q n).unmarked _
    rw [hend.subs, h.marks.subs]
  refine ⟨h.marks.trans (hend.trans (marksDiffer_of_que hque (wr_rind ..) fun k w => rd_wr_other _ _ ?_)),
    fun m h1 h2 => ⟨?_, ?_⟩, fun m hm => ?_⟩
  · simp only [Reg.QPROF, Reg.QUEUE_DATA]
    omega
  · rw [spillingIn, hque, ← spillingIn, spillingIn_blockEnd e q hn (by omega), (h.later m (by omega) h2).1]
  · rw [getSub_congr (congrArg QueueSt.subs hque), blocked_blockEnd_other e q (by omega), (h.later m (by omega) h2).2]
  · by_cases hmn : m = n
    · rw [hmn, stateShown, rd_wr_same, hword]
    · have hregs : rd (blockEnd e q n) (Reg.QUEUE_DATA m) = rd e (Reg.QUEUE_DATA m) := by
        rw [blockEnd_eq]
        split
        · rfl
        · rfl
      rw [stateShown, rd_wr_other _ _ (hdata m hmn), hregs, h.words m (by omega)]

theorem StatesShown.range (d : Dev) (v : W64) (q n : Nat) (hn : n ≤ 4) :
    StatesShown d q n ((List.range n).foldl (stateShown q) (queueBegin d v 3)) := by
  induction n with
  | zero => exact statesShown_queueBegin d v q
  | succ n ih =>
    rw [List.range_succ, List.foldl_append, List.foldl_cons, List.foldl_nil]
    exact (ih (by omega)).step hn

/-- What READ_STATE answers. -/
theorem queueState_spec (v : W64) (d : Dev) : MarksDiffer d (queueState v d) ∧
    rdF (queueState v d) Reg.QUEUE_STATUS Reg.QUEUE_STATUS_DEPTH = depthOf d (getF v Reg.QUEUE_CMD_QUEUE) % 2 ^ 32 ∧
      ∀ m, m < 4 → rd (queueState v d) (Reg.QUEUE_DATA m) = stateWord (getSub d (getF v Reg.QUEUE_CMD_QUEUE) m)
        ((getSub d (getF v Reg.QUEUE_CMD_QUEUE) m).blocked && blockedNow d (getF v Reg.QUEUE_CMD_QUEUE) m) := by
  rw [queueState_eq]
  generalize getF v Reg.QUEUE_CMD_QUEUE = q
  obtain ⟨hmarks, -, hwords⟩ := StatesShown.range d v q 4 le_rfl
  generalize (List.range 4).foldl (stateShown q) (queueBegin d v 3) = e at hmarks hwords
  refine ⟨hmarks.trans (marksDiffer_of_que (wrF_que ..) (wrF_rind ..) fun k w => rd_wr_other _ _ ?_), ?_, fun m hm => ?_⟩
  · simp only [Reg.QPROF, Reg.QUEUE_STATUS]
    omega
  · rw [rdF_wrF_same _ _ _ _ (by decide), depthOf, hmarks.depth, depthOf]
    rfl
  · rw [wrF, rd_wr_other _ _ (by simp only [Reg.QUEUE_DATA, Reg.QUEUE_STATUS]; omega), hwords m hm]

/-! FLUSH. -/

theorem queueFlush_enabled {v : W64} {d : Dev} (h : queueEnable d (getF v Reg.QUEUE_CMD_QUEUE) = true) :
    (queueFlush v d).que = d.que ∧ rdF (queueFlush v d) Reg.QUEUE_STATUS Reg.QUEUE_STATUS_RESULT = 2 := by
  have hen : queueEnable (queueBegin d v 4) (getF v Reg.QUEUE_CMD_QUEUE) = true := by rw [queueEnable, queueCfg, queueBegin_que]; exact h
  rw [queueFlush, if_pos hen]
  exact ⟨(wrF_que ..).trans (queueBegin_que ..), rdF_wrF_same _ _ _ _ (by decide)⟩

/-- A flushed sub-queue is empty, and the others stay. -/
theorem getSub_flushSub (q : Nat) (d : Dev) (m k : Nat) : getSub (flushSub q d m) q k = if k = m then subDef 0 else getSub d q k := by
  rw [flushSub, getSub_showSpilling, getSub_congr (congrArg QueueSt.subs (bumpN_que ..)), getSub_congr (foldl_subs (pageFree_subs m) _ _),
    getSub_congr (foldl_subs (fun d (r : Pkt × Nat × Nat × Bool) => queueDrop_subs d q m r.1 5 false) _ _),
    getSub_congr (foldl_subs (fun d p => queueDrop_subs d q m p 5 true) _ _), getSub_putSub]
  exact if_congr (by omega) rfl rfl

theorem getSub_foldl_flushSub (q : Nat) (d : Dev) (n k : Nat) (hk : k < n) : getSub ((List.range n).foldl (flushSub q) d) q k = subDef 0 := by
  induction n with
  | zero => exact absurd hk (Nat.not_lt_zero k)
  | succ n ih =>
    rw [List.range_succ, List.foldl_append, List.foldl_cons, List.foldl_nil, getSub_flushSub]
    split
    · rfl
    · exact ih (by omega)

theorem queueFlush_disabled {v : W64} {d : Dev} (h : queueEnable d (getF v Reg.QUEUE_CMD_QUEUE) = false) {m : Nat} (hm : m < 4) :
    getSub (queueFlush v d) (getF v Reg.QUEUE_CMD_QUEUE) m = subDef 0 := by
  have hen : ¬ queueEnable (queueBegin d v 4) (getF v Reg.QUEUE_CMD_QUEUE) = true := by
    rw [queueEnable, queueCfg, queueBegin_que, ← queueCfg, ← queueEnable, h]
    decide
  rw [queueFlush, if_neg hen]
  exact getSub_foldl_flushSub _ _ 4 m hm

end Sys2Proof.Machine
end

section
/-!
PROOF. The capture writer (R267). With the operations of QUEUE_CMD the obligation on both is settled.
-/
namespace Sys2Proof.Machine

/-- The device whose ring no longer waits with a record. -/
def capTaken (d : Dev) (c : CapRec) : Dev := { d with fab := { d.fab with caps := d.fab.caps.erase c } }

theorem capField_capTaken (d : Dev) (c : CapRec) (r w : Nat) (f : Fld) : capField (capTaken d c) r w f = capField d r w f := rfl

/-- The slot of a record. -/
def capSlot (d : Dev) (r : Nat) (c : CapRec) : Nat := capField d r 0 Reg.CAP_RING_BASE + 160 * (c.seq % capField d r 1 Reg.CAP_RING_SLOTS)

/-- A record's bytes go to its slot, in the deep store or in host memory. -/
def capStored (m : Mem) (d : Dev) (r : Nat) (c : CapRec) : Dev :=
  if capField d r 1 Reg.CAP_RING_DEST = 1 then (deepWrite m d 3 (capSlot d r c) c.bytes 12 2).2 else memWrite d spHost (capSlot d r c) c.bytes

/-- The device after a record's cell and its charge have returned. -/
def captureFreed (d : Dev) (c : CapRec) : Dev := cellFree (poolReturn d c.acre c.pool 1) c.cell

theorem rd_poolReturn_other {d : Dev} {m p o : Nat} (hm : m < 4) (hp : p < 64) (ho : 0x1800000 ≤ o) (n : Nat) :
    rd (poolReturn d m p n) o = rd d o :=
  rd_wr_other _ _ (by simp only [Reg.POOL_USE]; omega)

section
variable {d : Dev} {c : CapRec}

theorem captureFreed_writes : (captureFreed d c).writes = d.writes :=
  (freeStoreBlind_writes.cellFree (fun _ _ => trivial) _ _).trans (wr_writes ..)

theorem captureFreed_caps : (captureFreed d c).fab.caps = d.fab.caps := by
  obtain ⟨_, _, h⟩ := cellFree_fab (poolReturn d c.acre c.pool 1) c.cell
  rw [captureFreed, h, poolReturn, setPoolUse, wr_fab]

theorem rd_captureFreed (ha : c.acre < 4) (hp : c.pool < 64) {o : Nat} (ho : 0x1800000 ≤ o) : rd (captureFreed d c) o = rd d o :=
  ((freeStoreBlind_rd ho).cellFree (fun _ h => h) _ _).trans (rd_poolReturn_other ha hp ho 1)

theorem captureWrite_found {r : Nat} (m : Mem) (hc : (d.fab.caps.find? fun c => c.ring == r) = some c) : captureWrite r m d =
    (let e := bump (captureFreed (capStored m (capTaken d c) r c) c) (Reg.CAP_RING r 2)
     if capField e r 1 Reg.CAP_RING_NOTICE_EVERY ≠ 0 ∧ capField e r 2 Reg.CAP_RING_PROD % capField e r 1 Reg.CAP_RING_NOTICE_EVERY = 0
     then msi e (928 + r) else e) := by
  rw [captureWrite, hc]
  rfl

theorem capStored_host {r : Nat} (m : Mem) (hd : capField d r 1 Reg.CAP_RING_DEST = 0) :
    capStored m (capTaken d c) r c = memWrite (capTaken d c) spHost (capSlot d r c) c.bytes := by
  rw [capStored, capField_capTaken, hd, if_neg (by decide)]
  rfl

/-- The write of a record of a ring in host memory that sends no notice. -/
theorem captureWrite_host {r : Nat} (m : Mem) (hc : (d.fab.caps.find? fun c => c.ring == r) = some c) (ha : c.acre < 4) (hp : c.pool < 64)
    (hd : capField d r 1 Reg.CAP_RING_DEST = 0) (he : capField d r 1 Reg.CAP_RING_NOTICE_EVERY = 0) :
    captureWrite r m d = bump (captureFreed (memWrite (capTaken d c) spHost (capSlot d r c) c.bytes) c) (Reg.CAP_RING r 2) := by
  have hregs : rd (bump (captureFreed (memWrite (capTaken d c) spHost (capSlot d r c) c.bytes) c) (Reg.CAP_RING r 2)) (Reg.CAP_RING r 1) =
      rd d (Reg.CAP_RING r 1) := by
    rw [rd_bump_other _ (by simp only [Reg.CAP_RING]; omega), rd_captureFreed ha hp (by simp only [Reg.CAP_RING]; omega)]
    rfl
  rw [captureWrite_found m hc, capStored_host m hd]
  dsimp only
  rw [capField, rdF_congr hregs, ← capField, he, if_neg fun h => h.1 rfl]

theorem captureWrite_spec {r : Nat} (m : Mem) (hc : (d.fab.caps.find? fun c => c.ring == r) = some c) (ha : c.acre < 4) (hp : c.pool < 64)
    (hd : capField d r 1 Reg.CAP_RING_DEST = 0) (he : capField d r 1 Reg.CAP_RING_NOTICE_EVERY = 0) (hw : d.writes = []) :
    (captureWrite r m d).writes = [⟨spHost, capSlot d r c, c.bytes⟩] ∧
      rd (captureWrite r m d) (Reg.CAP_RING r 2) = rd d (Reg.CAP_RING r 2) + 1 ∧ (captureWrite r m d).fab.caps = d.fab.caps.erase c := by
  rw [captureWrite_host m hc ha hp hd he]
  refine ⟨?_, ?_, ?_⟩
  · rw [bump_writes, captureFreed_writes, memWrite, show (capTaken d c).writes = [] from hw]
    rfl
  · rw [rd_bump_same, rd_captureFreed ha hp (by simp only [Reg.CAP_RING]; omega)]
    rfl
  · rw [bump_fab, captureFreed_caps]
    rfl

end

/-! The commands. -/

section
variable (s : State) (agent : Nat) (v : W64)

theorem exec_queueReadCfg : exec (.queueReadCfg agent v) s =
    .next (commit s (regWrite agent Reg.QUEUE_CMD (setF v Reg.QUEUE_CMD_OP 1) s.mem s.dev)) := rfl
theorem exec_queueWriteCfg : exec (.queueWriteCfg agent v) s =
    .next (commit s (regWrite agent Reg.QUEUE_CMD (setF v Reg.QUEUE_CMD_OP 2) s.mem s.dev)) := rfl
theorem exec_queueReadState : exec (.queueReadState agent v) s =
    .next (commit s (regWrite agent Reg.QUEUE_CMD (setF v Reg.QUEUE_CMD_OP 3) s.mem s.dev)) := rfl
theorem exec_queueFlush : exec (.queueFlush agent v) s =
    .next (commit s (regWrite agent Reg.QUEUE_CMD (setF v Reg.QUEUE_CMD_OP 4) s.mem s.dev)) := rfl
theorem exec_captureWrite (r : Nat) : exec (.captureWrite r) s = .next (commit s (captureWrite r s.mem s.dev)) := rfl

end

theorem queueCfg_commit (s : State) (d : Dev) (q : Nat) : queueCfg (commit s d).dev q = queueCfg d q := by
  rw [queueCfg, commit_que, queueCfg]

/-- Host memory after a command's one write to it. -/
theorem memGet_commit_host {s : State} {d : Dev} {a : Nat} {bs : List Byte} (h : d.writes = [⟨spHost, a, bs⟩]) :
    (commit s d).mem.host = memStore spHost s.mem.host a bs := by
  rw [commit, h]
  rfl

/-- Settles O45: each QUEUE_CMD operation is performed for the queue of its value, and the capture writer writes a ring's oldest record to
its slot in host memory. -/
theorem queueCommands : Obligations.QueueCommands := by
  unfold Obligations.QueueCommands
  refine ⟨?queue, ?capture⟩
  case queue =>
    rintro s agent v _ rfl hops
    have hstart := marksDiffer_of_que (startedBy_que s.dev 5 agent) rfl fun _ _ => rfl
    have hcfg (r : Nat) : queueCfg (startedBy s.dev 5 agent) r = queueCfg s.dev r := rfl
    refine ⟨?_, ?_, ?_, fun hen => ?_, fun hen => ?_⟩
    · obtain ⟨w, hq, hop, hw⟩ := regWrite_QUEUE_CMD_op (by decide) (hops 1 (by decide) (by decide))
      obtain ⟨hdata, hque⟩ := queueRead_spec w (startedBy s.dev 5 agent)
      refine ⟨_, exec_queueReadCfg s agent v, ?_⟩
      rw [hw, queueCmd_read _ hop, rd_commit, commit_que, hdata, hque, hq]
      exact ⟨hcfg _, startedBy_que ..⟩
    · obtain ⟨w, hq, hop, hw⟩ := regWrite_QUEUE_CMD_op (by decide) (hops 2 (by decide) (by decide))
      refine ⟨_, exec_queueWriteCfg s agent v, fun r => ?_⟩
      rw [hw, queueCmd_write _ hop, queueCfg_commit, queueCfg_queueWrite, hq, rd_startedBy, hcfg]
    · obtain ⟨w, hq, hop, hw⟩ := regWrite_QUEUE_CMD_op (by decide) (hops 3 (by decide) (by decide))
      obtain ⟨hmarks, hdepth, hwords⟩ := queueState_spec w (startedBy s.dev 5 agent)
      rw [hq] at hdepth hwords
      refine ⟨_, exec_queueReadState s agent v, ?_⟩
      rw [hw, queueCmd_state _ hop, commit_que, rdF_commit]
      refine ⟨hmarks.depth, hmarks.cfg, fun r m => ?_, fun hlt => hdepth.trans (Nat.mod_eq_of_lt hlt), fun m hm => ?_⟩
      · rw [getSub_commit]
        exact hmarks.subs r m
      · have hnow : blockedNow (startedBy s.dev 5 agent) (getF v Reg.QUEUE_CMD_QUEUE) m = blockedNow s.dev (getF v Reg.QUEUE_CMD_QUEUE) m := by
          rw [blockedNow, blockedNow, hstart.spillWants, hstart.spillBlocked (.inr rfl)]
        rw [rd_commit, hwords m hm, hnow, getSub_congr (congrArg QueueSt.subs (startedBy_que s.dev 5 agent))]
        rfl
    · obtain ⟨w, hq, hop, hw⟩ := regWrite_QUEUE_CMD_op (by decide) (hops 4 (by decide) (by decide))
      obtain ⟨hque, hres⟩ := queueFlush_enabled (v := w) (d := startedBy s.dev 5 agent) (by rw [hq]; exact hen)
      refine ⟨_, exec_queueFlush s agent v, ?_⟩
      rw [hw, queueCmd_flush _ hop, commit_que, rdF_commit]
      exact ⟨hque, hres⟩
    · obtain ⟨w, hq, hop, hw⟩ := regWrite_QUEUE_CMD_op (by decide) (hops 4 (by decide) (by decide))
      refine ⟨_, exec_queueFlush s agent v, fun m hm => ?_⟩
      rw [hw, queueCmd_flush _ hop, getSub_commit, ← hq]
      exact queueFlush_disabled (by rw [hq]; exact hen) hm
  case capture =>
    rintro s r c _ hc _ ha hp hw hd he rfl
    obtain ⟨hwrites, hprod, hcaps⟩ := captureWrite_spec s.mem hc ha hp hd he hw
    refine ⟨_, exec_captureWrite s r, fun j hj => ?_, fun b hb => ?_, ?_, ?_⟩
    · rw [memGet_commit_host hwrites]
      exact memGet_memStore_same _ _ _ _ _ hj
    · rw [memGet_commit_host hwrites]
      exact memGet_memStore_other _ _ _ _ _ hb
    · rw [rd_commit, hprod]
    · rw [commit_fab, hcaps]

end Sys2Proof.Machine
end
